-- ==== Sys2Proof/Word.lean ====
section
/-! DEFINITION. The word types of the Penset model and the plainest helpers on them: bit fields of an unsigned value,
little-endian bytes, and the sparse tables in which the state keeps things that are mostly at their cold value. -/

set_option linter.unusedVariables false

namespace Sys2Proof

abbrev Byte := BitVec 8
abbrev U64 := BitVec 64
/-- A vector value: 64 lanes of 32 bits, lane 0 in the low bits (R92, R188). -/
abbrev V := BitVec 2048

/-- `x[hi:lo]` of R9 on an unsigned value. -/
def fld (x hi lo : Nat) : Nat := (x / 2 ^ lo) % 2 ^ (hi + 1 - lo)

/-- Bit `i` of an unsigned value. -/
def bitAt (x i : Nat) : Bool := (x / 2 ^ i) % 2 = 1

/-- A `w`-bit pattern read as two's complement. -/
def signed (x w : Nat) : Int :=
  if x % 2 ^ w < 2 ^ (w - 1) then (x % 2 ^ w : Nat) else ((x % 2 ^ w : Nat) : Int) - (2 ^ w : Nat)

/-- `x mod 2^w` of an integer, as a pattern. -/
def wrapU (x : Int) (w : Nat) : Nat := (x % (2 ^ w : Nat)).toNat

/-- The 64-bit word of a natural number, mod 2^64. -/
def u64 (n : Nat) : U64 := BitVec.ofNat 64 n

/-- The bytes of an `n`-byte little-endian value (R3), lowest address first. -/
def toBytes : Nat → Nat → List Byte
  | 0, _ => []
  | n + 1, x => BitVec.ofNat 8 x :: toBytes n (x / 256)

/-- The value of little-endian bytes, lowest address first. -/
def ofBytes : List Byte → Nat
  | [] => 0
  | b :: r => b.toNat + 256 * ofBytes r

/-- A sparse table: index and entry, indexes strictly rising; an index that is not listed holds the cold entry. -/
abbrev Tbl (α : Type) := List (Nat × α)

def Tbl.find? {α : Type} : Tbl α → Nat → Option α
  | [], _ => none
  | (j, a) :: r, i => if i = j then some a else Tbl.find? r i

def Tbl.getD {α : Type} (t : Tbl α) (i : Nat) (d : α) : α := (Tbl.find? t i).getD d

def Tbl.put {α : Type} : Tbl α → Nat → α → Tbl α
  | [], i, a => [(i, a)]
  | (j, b) :: r, i, a =>
    if i < j then (i, a) :: (j, b) :: r else if i = j then (i, a) :: r else (j, b) :: Tbl.put r i a

def Tbl.del {α : Type} : Tbl α → Nat → Tbl α
  | [], _ => []
  | (j, b) :: r, i => if i = j then r else (j, b) :: Tbl.del r i

/-- The least element of `xs` under a rank given as a list of naturals compared left to right. -/
def lexLt : List Nat → List Nat → Bool
  | [], [] => false
  | [], _ :: _ => true
  | _ :: _, [] => false
  | a :: r, b :: q => if a < b then true else if b < a then false else lexLt r q

/-- Insert keeping a rising rank, after entries of equal rank. -/
def insertRank {α : Type} (rank : α → List Nat) (a : α) : List α → List α
  | [] => [a]
  | b :: r => if lexLt (rank a) (rank b) then a :: b :: r else b :: insertRank rank a r

/-- The entry of least rank; the earlier one among equals. -/
def leastBy {α : Type} (rank : α → List Nat) : List α → Option α
  | [] => none
  | a :: r =>
    match leastBy rank r with
    | none => some a
    | some b => if lexLt (rank b) (rank a) then some b else some a

/-- Iterate `f` `n` times. -/
def iter {α : Type} (f : α → α) : Nat → α → α
  | 0, a => a
  | n + 1, a => iter f n (f a)

end Sys2Proof
end

