-- ==== Sys2Proof/Syntax.lean ====
section
/-! DEFINITION. The syntax of the model: one constructor per row of spec/opcode_table.json. The first kind are the slots of a
bundle (R92, R99, R100), whose arguments are the bit fields of the slot word; the second kind are the part's other
indivisible steps (spec/95), whose arguments name the core, launch, command or port that takes the step. -/

set_option linter.unusedVariables false

namespace Sys2Proof

/-- A flit of the scale-up fabric (R360): header fields, 256 bytes of payload and the truncated tag (R370). -/
structure Flit where
  dpkg : Nat
  spkg : Nat
  kind : Nat
  flags : Nat
  pseq : Nat
  info : U64
  payload : BitVec 2048
  tag : BitVec 64
  deriving DecidableEq, Repr

/-- A reduction group of a slot switch (R369): input slot, rank ports in rank order, element type and output ports. -/
structure RedGroup where
  slot : Nat
  ranks : List Nat
  elem : Nat
  outs : List Nat
  deriving DecidableEq, Repr

/-- A switch table (R367, R368): plain connections (slot, input port, output port) and reduction groups. -/
structure SwitchTable where
  frame : Nat
  plain : List (Nat × Nat × Nat)
  groups : List RedGroup
  deriving DecidableEq, Repr

/-- What comes back from the switch in an attestation (R376): whether it found our identity report good, and its own. -/
structure PeerAnswer where
  ok : Bool
  report : List Byte
  deriving DecidableEq, Repr

/-- The steps of the part, one constructor per row of the opcode table. -/
inductive Instr where
  /-- MOVE (R94). A plain move copies a source to a register or latch at the end of the cycle. -/
  | move (vec : Bool) (src : BitVec 9) (d : BitVec 9) (grd : BitVec 6)
  /-- ADD (R125). ALU addition of a.o and the trigger value. -/
  | add (src : BitVec 9) (u : BitVec 1) (w : BitVec 1) (grd : BitVec 6)
  /-- SUB (R125). ALU subtraction. -/
  | sub (src : BitVec 9) (u : BitVec 1) (w : BitVec 1) (grd : BitVec 6)
  /-- AND (R125). ALU bitwise AND. -/
  | and (src : BitVec 9) (u : BitVec 1) (w : BitVec 1) (grd : BitVec 6)
  /-- OR (R125). ALU bitwise OR. -/
  | or (src : BitVec 9) (u : BitVec 1) (w : BitVec 1) (grd : BitVec 6)
  /-- XOR (R125). ALU bitwise XOR. -/
  | xor (src : BitVec 9) (u : BitVec 1) (w : BitVec 1) (grd : BitVec 6)
  /-- ANDN (R125). ALU x AND NOT y. -/
  | andn (src : BitVec 9) (u : BitVec 1) (w : BitVec 1) (grd : BitVec 6)
  /-- SHL (R125). ALU shift left. -/
  | shl (src : BitVec 9) (u : BitVec 1) (w : BitVec 1) (grd : BitVec 6)
  /-- SHR (R125). ALU logical shift right. -/
  | shr (src : BitVec 9) (u : BitVec 1) (w : BitVec 1) (grd : BitVec 6)
  /-- SAR (R125). ALU arithmetic shift right. -/
  | sar (src : BitVec 9) (u : BitVec 1) (w : BitVec 1) (grd : BitVec 6)
  /-- ROL (R125). ALU rotate left. -/
  | rol (src : BitVec 9) (u : BitVec 1) (w : BitVec 1) (grd : BitVec 6)
  /-- ROR (R125). ALU rotate right. -/
  | ror (src : BitVec 9) (u : BitVec 1) (w : BitVec 1) (grd : BitVec 6)
  /-- MIN (R125). ALU signed minimum. -/
  | min (src : BitVec 9) (u : BitVec 1) (w : BitVec 1) (grd : BitVec 6)
  /-- MAX (R125). ALU signed maximum. -/
  | max (src : BitVec 9) (u : BitVec 1) (w : BitVec 1) (grd : BitVec 6)
  /-- MINU (R125). ALU unsigned minimum. -/
  | minu (src : BitVec 9) (u : BitVec 1) (w : BitVec 1) (grd : BitVec 6)
  /-- MAXU (R125). ALU unsigned maximum. -/
  | maxu (src : BitVec 9) (u : BitVec 1) (w : BitVec 1) (grd : BitVec 6)
  /-- CLZ (R125). ALU count of leading zeros. -/
  | clz (src : BitVec 9) (u : BitVec 1) (w : BitVec 1) (grd : BitVec 6)
  /-- CTZ (R125). ALU count of trailing zeros. -/
  | ctz (src : BitVec 9) (u : BitVec 1) (w : BitVec 1) (grd : BitVec 6)
  /-- POPC (R125). ALU population count. -/
  | popc (src : BitVec 9) (u : BitVec 1) (w : BitVec 1) (grd : BitVec 6)
  /-- MUL (R125). ALU multiply, low bits. -/
  | mul (src : BitVec 9) (u : BitVec 1) (w : BitVec 1) (grd : BitVec 6)
  /-- MULHS (R125). ALU signed multiply, high bits. -/
  | mulhs (src : BitVec 9) (u : BitVec 1) (w : BitVec 1) (grd : BitVec 6)
  /-- MULHU (R125). ALU unsigned multiply, high bits. -/
  | mulhu (src : BitVec 9) (u : BitVec 1) (w : BitVec 1) (grd : BitVec 6)
  /-- DIVS (R126). ALU signed division with defined results for zero and overflow. -/
  | divs (src : BitVec 9) (u : BitVec 1) (w : BitVec 1) (grd : BitVec 6)
  /-- DIVU (R126). ALU unsigned division. -/
  | divu (src : BitVec 9) (u : BitVec 1) (w : BitVec 1) (grd : BitVec 6)
  /-- REMS (R126). ALU signed remainder. -/
  | rems (src : BitVec 9) (u : BitVec 1) (w : BitVec 1) (grd : BitVec 6)
  /-- REMU (R126). ALU unsigned remainder. -/
  | remu (src : BitVec 9) (u : BitVec 1) (w : BitVec 1) (grd : BitVec 6)
  /-- ADDSAT (R125). ALU saturating signed addition. -/
  | addsat (src : BitVec 9) (u : BitVec 1) (w : BitVec 1) (grd : BitVec 6)
  /-- SUBSAT (R125). ALU saturating signed subtraction. -/
  | subsat (src : BitVec 9) (u : BitVec 1) (w : BitVec 1) (grd : BitVec 6)
  /-- CLMUL (R127). ALU carry-less multiply, low half. -/
  | clmul (src : BitVec 9) (u : BitVec 1) (w : BitVec 1) (grd : BitVec 6)
  /-- CLMULH (R127). ALU carry-less multiply, high half. -/
  | clmulh (src : BitVec 9) (u : BitVec 1) (w : BitVec 1) (grd : BitVec 6)
  /-- PXOR (R127). ALU prefix XOR of the trigger value. -/
  | pxor (src : BitVec 9) (u : BitVec 1) (w : BitVec 1) (grd : BitVec 6)
  /-- PEXT (R127). ALU parallel bit extract. -/
  | pext (src : BitVec 9) (u : BitVec 1) (w : BitVec 1) (grd : BitVec 6)
  /-- PDEP (R127). ALU parallel bit deposit. -/
  | pdep (src : BitVec 9) (u : BitVec 1) (w : BitVec 1) (grd : BitVec 6)
  /-- SEXT (R125). ALU sign extension from bit k - 1. -/
  | sext (src : BitVec 9) (u : BitVec 1) (w : BitVec 1) (grd : BitVec 6)
  /-- ZEXT (R125). ALU zero extension from bit k - 1. -/
  | zext (src : BitVec 9) (u : BitVec 1) (w : BitVec 1) (grd : BitVec 6)
  /-- EQ (R125). ALU equality comparison giving 0 or 1. -/
  | eq (src : BitVec 9) (u : BitVec 1) (w : BitVec 1) (grd : BitVec 6)
  /-- NE (R125). ALU inequality comparison. -/
  | ne (src : BitVec 9) (u : BitVec 1) (w : BitVec 1) (grd : BitVec 6)
  /-- LT (R125). ALU signed less-than. -/
  | lt (src : BitVec 9) (u : BitVec 1) (w : BitVec 1) (grd : BitVec 6)
  /-- LE (R125). ALU signed less-or-equal. -/
  | le (src : BitVec 9) (u : BitVec 1) (w : BitVec 1) (grd : BitVec 6)
  /-- LTU (R125). ALU unsigned less-than. -/
  | ltu (src : BitVec 9) (u : BitVec 1) (w : BitVec 1) (grd : BitVec 6)
  /-- LEU (R125). ALU unsigned less-or-equal. -/
  | leu (src : BitVec 9) (u : BitVec 1) (w : BitVec 1) (grd : BitVec 6)
  /-- HMIX (R125). ALU hash mix: mix64 or fmix32. -/
  | hmix (src : BitVec 9) (u : BitVec 1) (w : BitVec 1) (grd : BitVec 6)
  /-- BSWAP (R125). ALU byte reversal. -/
  | bswap (src : BitVec 9) (u : BitVec 1) (w : BitVec 1) (grd : BitVec 6)
  /-- PASS (R125). ALU pass-through of the trigger value. -/
  | pass (src : BitVec 9) (u : BitVec 1) (w : BitVec 1) (grd : BitVec 6)
  /-- ABS (R125). ALU absolute value. -/
  | abs (src : BitVec 9) (u : BitVec 1) (w : BitVec 1) (grd : BitVec 6)
  /-- SETB (R129). Sets VAL of a base register, with no wrapping. -/
  | setb (src : BitVec 9) (b : BitVec 4) (grd : BitVec 6)
  /-- ADDB (R129). Moves VAL of a base register by a signed amount, with wrapping. -/
  | addb (src : BitVec 9) (b : BitVec 4) (grd : BitVec 6)
  /-- SETI (R129). Sets the inner step of a base register. -/
  | seti (src : BitVec 9) (b : BitVec 4) (grd : BitVec 6)
  /-- SETLS (R129). Sets the loop-level stride that au.o selects. -/
  | setls (src : BitVec 9) (b : BitVec 4) (grd : BitVec 6)
  /-- SETWRAP (R129). Sets the wrap length and, when it is nonzero, the wrap origin. -/
  | setwrap (src : BitVec 9) (b : BitVec 4) (grd : BitVec 6)
  /-- RDB (R129). Reads a field of a base register into au.r. -/
  | rdb (src : BitVec 9) (b : BitVec 4) (grd : BitVec 6)
  /-- SETTRP (R129). Sets the row pointer of a tile register. -/
  | settrp (src : BitVec 9) (t : BitVec 4) (grd : BitVec 6)
  /-- RSTB (R129). Sets both VAL and ORG of a base register. -/
  | rstb (src : BitVec 9) (b : BitVec 4) (grd : BitVec 6)
  /-- JMP (R133). Jumps to CB + t after one delay bundle. -/
  | jmp (src : BitVec 9) (grd : BitVec 6)
  /-- JMPR (R133). Jumps to a virtual address after one delay bundle. -/
  | jmpr (src : BitVec 9) (grd : BitVec 6)
  /-- CALL (R135). Pushes the return address and jumps to CB + t after one delay bundle. -/
  | call (src : BitVec 9) (grd : BitVec 6)
  /-- RET (R135). Pops the return stack and jumps to the entry. -/
  | ret (src : BitVec 9) (grd : BitVec 6)
  /-- LOOP (R136). Opens a hardware loop at a level, with a body end and a trip count. -/
  | loop (src : BitVec 9) (l : BitVec 3) (grd : BitVec 6)
  /-- EXIT (R138). Ends the tile task after its bundle has issued. -/
  | exit (src : BitVec 9) (grd : BitVec 6)
  /-- TRAP (R139). Raises a software trap with a trap code. -/
  | trap (src : BitVec 9) (grd : BitVec 6)
  /-- TFENCE (R140). Waits for arithmetic operations in flight, then traps if any sticky record is set. -/
  | tfence (src : BitVec 9) (grd : BitVec 6)
  /-- YIELDP (R41). A yield point where a pending checkpoint is taken; writes c.r to 1 at the first YIELDP after a restore. -/
  | yieldp (src : BitVec 9) (grd : BitVec 6)
  /-- BRK (R139). Requests a debug freeze when the context's DEBUG attribute is set. -/
  | brk (src : BitVec 9) (grd : BitVec 6)
  /-- PHASE (R142). Switches local SRAM to another memory-plan phase, draining L1 first. -/
  | phase (src : BitVec 9) (grd : BitVec 6)
  /-- RDSR (R143). Reads a task status register into c.r. -/
  | rdsr (src : BitVec 9) (grd : BitVec 6)
  /-- WRSR (R143). Writes c.o to a task status register. -/
  | wrsr (src : BitVec 9) (grd : BitVec 6)
  /-- CLRSTK (R135). Empties the return stack. -/
  | clrstk (src : BitVec 9) (grd : BitVec 6)
  /-- IDLE (R113). Clears the sticky state of the unit named in c.o after its bundle. -/
  | idle (src : BitVec 9) (grd : BitVec 6)
  /-- LD8S (R171). Loads a sign-extended byte. -/
  | ld8s (src : BitVec 9) (a : BitVec 2) (b : BitVec 4) (grd : BitVec 6)
  /-- LD8U (R171). Loads a zero-extended byte. -/
  | ld8u (src : BitVec 9) (a : BitVec 2) (b : BitVec 4) (grd : BitVec 6)
  /-- LD16S (R171). Loads a sign-extended 16-bit value. -/
  | ld16s (src : BitVec 9) (a : BitVec 2) (b : BitVec 4) (grd : BitVec 6)
  /-- LD16U (R171). Loads a zero-extended 16-bit value. -/
  | ld16u (src : BitVec 9) (a : BitVec 2) (b : BitVec 4) (grd : BitVec 6)
  /-- LD32S (R171). Loads a sign-extended 32-bit value. -/
  | ld32s (src : BitVec 9) (a : BitVec 2) (b : BitVec 4) (grd : BitVec 6)
  /-- LD32U (R171). Loads a zero-extended 32-bit value. -/
  | ld32u (src : BitVec 9) (a : BitVec 2) (b : BitVec 4) (grd : BitVec 6)
  /-- LD64 (R171). Loads a 64-bit value. -/
  | ld64 (src : BitVec 9) (a : BitVec 2) (b : BitVec 4) (grd : BitVec 6)
  /-- ST8 (R171). Stores a byte of l.d. -/
  | st8 (src : BitVec 9) (a : BitVec 2) (b : BitVec 4) (grd : BitVec 6)
  /-- ST16 (R171). Stores 16 bits of l.d. -/
  | st16 (src : BitVec 9) (a : BitVec 2) (b : BitVec 4) (grd : BitVec 6)
  /-- ST32 (R171). Stores 32 bits of l.d. -/
  | st32 (src : BitVec 9) (a : BitVec 2) (b : BitVec 4) (grd : BitVec 6)
  /-- ST64 (R171). Stores 64 bits of l.d. -/
  | st64 (src : BitVec 9) (a : BitVec 2) (b : BitVec 4) (grd : BitVec 6)
  /-- LDV (R172). Loads 64 consecutive 32-bit lanes. -/
  | ldv (src : BitVec 9) (a : BitVec 2) (b : BitVec 4) (grd : BitVec 6)
  /-- STV (R172). Stores 64 consecutive 32-bit lanes. -/
  | stv (src : BitVec 9) (a : BitVec 2) (b : BitVec 4) (grd : BitVec 6)
  /-- LDVS (R172). Loads 64 lanes at the stride given in l.d. -/
  | ldvs (src : BitVec 9) (a : BitVec 2) (b : BitVec 4) (grd : BitVec 6)
  /-- PREF (R173). Prefetches a 128-byte line into L1, or into L2 or the RDC. -/
  | pref (src : BitVec 9) (a : BitVec 2) (b : BitVec 4) (grd : BitVec 6)
  /-- WAITA (R174). Reads a word and sleeps while it equals l.d. -/
  | waita (src : BitVec 9) (a : BitVec 2) (b : BitVec 4) (grd : BitVec 6)
  /-- AADD (R177). Atomic add at the location's home. -/
  | aadd (src : BitVec 9) (a : BitVec 2) (b : BitVec 4) (grd : BitVec 6)
  /-- ASUB (R177). Atomic subtract. -/
  | asub (src : BitVec 9) (a : BitVec 2) (b : BitVec 4) (grd : BitVec 6)
  /-- AAND (R177). Atomic AND. -/
  | aand (src : BitVec 9) (a : BitVec 2) (b : BitVec 4) (grd : BitVec 6)
  /-- AOR (R177). Atomic OR. -/
  | aor (src : BitVec 9) (a : BitVec 2) (b : BitVec 4) (grd : BitVec 6)
  /-- AXOR (R177). Atomic XOR. -/
  | axor (src : BitVec 9) (a : BitVec 2) (b : BitVec 4) (grd : BitVec 6)
  /-- AMIN (R177). Atomic signed minimum. -/
  | amin (src : BitVec 9) (a : BitVec 2) (b : BitVec 4) (grd : BitVec 6)
  /-- AMAX (R177). Atomic signed maximum. -/
  | amax (src : BitVec 9) (a : BitVec 2) (b : BitVec 4) (grd : BitVec 6)
  /-- AMINU (R177). Atomic unsigned minimum. -/
  | aminu (src : BitVec 9) (a : BitVec 2) (b : BitVec 4) (grd : BitVec 6)
  /-- AMAXU (R177). Atomic unsigned maximum. -/
  | amaxu (src : BitVec 9) (a : BitVec 2) (b : BitVec 4) (grd : BitVec 6)
  /-- AXCHG (R177). Atomic exchange. -/
  | axchg (src : BitVec 9) (a : BitVec 2) (b : BitVec 4) (grd : BitVec 6)
  /-- ACAS (R177). Atomic compare and swap. -/
  | acas (src : BitVec 9) (a : BitVec 2) (b : BitVec 4) (grd : BitVec 6)
  /-- AINCW (R177). Atomic increment with wrap at l.d. -/
  | aincw (src : BitVec 9) (a : BitVec 2) (b : BitVec 4) (grd : BitVec 6)
  /-- AFADD (R177). Atomic FP32 add. -/
  | afadd (src : BitVec 9) (a : BitVec 2) (b : BitVec 4) (grd : BitVec 6)
  /-- ABAR (R180). Atomic arrival at a byte barrier. -/
  | abar (src : BitVec 9) (a : BitVec 2) (b : BitVec 4) (grd : BitVec 6)
  /-- LDACQ (R182). Load-acquire of an 8-byte word at a scope. -/
  | ldacq (src : BitVec 9) (b : BitVec 4) (p : BitVec 3) (grd : BitVec 6)
  /-- STREL (R182). Store-release of an 8-byte word at a scope. -/
  | strel (src : BitVec 9) (b : BitVec 4) (p : BitVec 3) (grd : BitVec 6)
  /-- FENCE (R184). Orders earlier accesses before later ones at a scope and sets the marks. -/
  | fence (src : BitVec 9) (p : BitVec 3) (grd : BitVec 6)
  /-- SVFENCE (R184). A fence at PACKAGE scope that also waits for Mirror parity acknowledgements. -/
  | svfence (src : BitVec 9) (grd : BitVec 6)
  /-- FENCEW (R184). Orders earlier stores and atomics before later ones at a scope. -/
  | fencew (src : BitVec 9) (p : BitVec 3) (grd : BitVec 6)
  /-- SWFENCE (R184). A fence that also invalidates an operand handle and advances its generation. -/
  | swfence (src : BitVec 9) (p : BitVec 3) (grd : BitVec 6)
  /-- VADD (R192). Vector element add. -/
  | vadd (src : BitVec 9) (t : BitVec 3) (grd : BitVec 6)
  /-- VSUB (R192). Vector element subtract. -/
  | vsub (src : BitVec 9) (t : BitVec 3) (grd : BitVec 6)
  /-- VMUL (R192). Vector element multiply. -/
  | vmul (src : BitVec 9) (t : BitVec 3) (grd : BitVec 6)
  /-- VMAD (R192). Vector fused multiply-add. -/
  | vmad (src : BitVec 9) (t : BitVec 3) (grd : BitVec 6)
  /-- VMIN (R192). Vector element minimum. -/
  | vmin (src : BitVec 9) (t : BitVec 3) (grd : BitVec 6)
  /-- VMAX (R192). Vector element maximum. -/
  | vmax (src : BitVec 9) (t : BitVec 3) (grd : BitVec 6)
  /-- VABS (R192). Vector absolute value. -/
  | vabs (src : BitVec 9) (t : BitVec 3) (grd : BitVec 6)
  /-- VNEG (R192). Vector negation. -/
  | vneg (src : BitVec 9) (t : BitVec 3) (grd : BitVec 6)
  /-- VAND (R194). Vector bitwise AND. -/
  | vand (src : BitVec 9) (t : BitVec 3) (grd : BitVec 6)
  /-- VOR (R194). Vector bitwise OR. -/
  | vor (src : BitVec 9) (t : BitVec 3) (grd : BitVec 6)
  /-- VXOR (R194). Vector bitwise XOR. -/
  | vxor (src : BitVec 9) (t : BitVec 3) (grd : BitVec 6)
  /-- VSHL (R194). Vector shift left. -/
  | vshl (src : BitVec 9) (t : BitVec 3) (grd : BitVec 6)
  /-- VSHR (R194). Vector shift right. -/
  | vshr (src : BitVec 9) (t : BitVec 3) (grd : BitVec 6)
  /-- VCMPEQ (R195). Vector equality comparison. -/
  | vcmpeq (src : BitVec 9) (t : BitVec 3) (grd : BitVec 6)
  /-- VCMPLT (R195). Vector less-than comparison. -/
  | vcmplt (src : BitVec 9) (t : BitVec 3) (grd : BitVec 6)
  /-- VCMPLE (R195). Vector less-or-equal comparison. -/
  | vcmple (src : BitVec 9) (t : BitVec 3) (grd : BitVec 6)
  /-- VSEL (R195). Vector select by the pattern of c. -/
  | vsel (src : BitVec 9) (t : BitVec 3) (grd : BitVec 6)
  /-- VRCP (R196). Vector reciprocal. -/
  | vrcp (src : BitVec 9) (t : BitVec 3) (grd : BitVec 6)
  /-- VRSQ (R196). Vector reciprocal square root. -/
  | vrsq (src : BitVec 9) (t : BitVec 3) (grd : BitVec 6)
  /-- VEXP2 (R196). Vector base-2 exponential. -/
  | vexp2 (src : BitVec 9) (t : BitVec 3) (grd : BitVec 6)
  /-- VLOG2 (R196). Vector base-2 logarithm. -/
  | vlog2 (src : BitVec 9) (t : BitVec 3) (grd : BitVec 6)
  /-- VRED (R197). Vector reduction in the fixed tree. -/
  | vred (src : BitVec 9) (t : BitVec 3) (grd : BitVec 6)
  /-- VSCAN (R198). Vector inclusive scan in the doubling order. -/
  | vscan (src : BitVec 9) (t : BitVec 3) (grd : BitVec 6)
  /-- VSHUF (R199). Vector shuffle by index. -/
  | vshuf (src : BitVec 9) (t : BitVec 3) (grd : BitVec 6)
  /-- VBCAST (R199). Vector broadcast of one element. -/
  | vbcast (src : BitVec 9) (t : BitVec 3) (grd : BitVec 6)
  /-- VPACKG (R202). Packs the live lane groups to the front. -/
  | vpackg (src : BitVec 9) (t : BitVec 3) (grd : BitVec 6)
  /-- VCLMUL (R199). Vector carry-less multiply. -/
  | vclmul (src : BitVec 9) (t : BitVec 3) (grd : BitVec 6)
  /-- VPXOR (R89). 2,048-bit prefix XOR with a carry in. -/
  | vpxor (src : BitVec 9) (t : BitVec 3) (grd : BitVec 6)
  /-- VTOPK (R200). Starts a top-k list. -/
  | vtopk (src : BitVec 9) (t : BitVec 3) (grd : BitVec 6)
  /-- VTOPKM (R200). Merges a vector into the top-k list. -/
  | vtopkm (src : BitVec 9) (t : BitVec 3) (grd : BitVec 6)
  /-- BMM (R201). Per-lane-group 8 x 8 matrix-vector product from a tile. -/
  | bmm (src : BitVec 9) (t : BitVec 3) (grd : BitVec 6)
  /-- VMASK (R204). Sets the VMASK selection. -/
  | vmask (src : BitVec 9) (t : BitVec 3) (grd : BitVec 6)
  /-- XQ (R210). Quantizes a chunk to a narrow format. -/
  | xq (src : BitVec 9) (f : BitVec 4) (grd : BitVec 6)
  /-- XQS (R210). Quantizes with stochastic rounding. -/
  | xqs (src : BitVec 9) (f : BitVec 4) (grd : BitVec 6)
  /-- XDQ (R210). Dequantizes a chunk to FP32. -/
  | xdq (src : BitVec 9) (f : BitVec 4) (grd : BitVec 6)
  /-- XSC (R211). Computes block scales. -/
  | xsc (src : BitVec 9) (f : BitVec 4) (grd : BitVec 6)
  /-- XF2BF (R212). Converts FP32 to BF16. -/
  | xf2bf (src : BitVec 9) (grd : BitVec 6)
  /-- XBF2F (R212). Converts BF16 to FP32. -/
  | xbf2f (src : BitVec 9) (grd : BitVec 6)
  /-- XF2H (R212). Converts FP32 to FP16. -/
  | xf2h (src : BitVec 9) (grd : BitVec 6)
  /-- XH2F (R212). Converts FP16 to FP32. -/
  | xh2f (src : BitVec 9) (grd : BitVec 6)
  /-- XF2I (R212). Converts FP32 to I32. -/
  | xf2i (src : BitVec 9) (grd : BitVec 6)
  /-- XI2F (R212). Converts I32 to FP32. -/
  | xi2f (src : BitVec 9) (grd : BitVec 6)
  /-- XSETF (R213). Writes a format register from x.o. -/
  | xsetf (src : BitVec 9) (f : BitVec 4) (grd : BitVec 6)
  /-- XGETF (R213). Reads a format register into x.s. -/
  | xgetf (src : BitVec 9) (f : BitVec 4) (grd : BitVec 6)
  /-- XLD (R214). Loads narrow containers and dequantizes them. -/
  | xld (src : BitVec 9) (f : BitVec 4) (grd : BitVec 6)
  /-- XST (R214). Quantizes and stores narrow containers. -/
  | xst (src : BitVec 9) (f : BitVec 4) (grd : BitVec 6)
  /-- WLD (R223). Loads a weight block into a CIM macro. -/
  | wld (src : BitVec 9) (f : BitVec 4) (grd : BitVec 6)
  /-- WCLR (R225). Evicts a weight block, or every block. -/
  | wclr (src : BitVec 9) (grd : BitVec 6)
  /-- MMA (R226). Multiplies A by a resident block and accumulates into a tile. -/
  | mma (src : BitVec 9) (f : BitVec 4) (grd : BitVec 6)
  /-- MMAQ (R228). Quad-wide matrix multiply-accumulate. -/
  | mmaq (src : BitVec 9) (f : BitVec 4) (grd : BitVec 6)
  /-- MZERO (R229). Zeroes an accumulator tile. -/
  | mzero (src : BitVec 9) (grd : BitVec 6)
  /-- MRD (R230). Reads one row of a weight block into m.r. -/
  | mrd (src : BitVec 9) (grd : BitVec 6)
  /-- MSCL (R231). Replaces a block's B scales. -/
  | mscl (src : BitVec 9) (grd : BitVec 6)
  /-- CPY2D (R249). Engine 2-D copy. -/
  | cpy2d (src : BitVec 9) (grd : BitVec 6)
  /-- CPYM (R249). Engine copy with a follow-on WLD or MMA. -/
  | cpym (src : BitVec 9) (grd : BitVec 6)
  /-- GATH (R250). Engine indexed gather. -/
  | gath (src : BitVec 9) (grd : BitVec 6)
  /-- SCAT (R250). Engine indexed scatter. -/
  | scat (src : BitVec 9) (grd : BitVec 6)
  /-- FILL (R249). Engine pattern fill. -/
  | fill (src : BitVec 9) (grd : BitVec 6)
  /-- KVS (R252). Streams K or V rows of a sequence into tile registers. -/
  | kvs (src : BitVec 9) (grd : BitVec 6)
  /-- KVAPP (R253). Appends KV entries, with copy-on-write. -/
  | kvapp (src : BitVec 9) (grd : BitVec 6)
  /-- KVFORK (R254). Forks a sequence's KV blocks to a child. -/
  | kvfork (src : BitVec 9) (grd : BitVec 6)
  /-- KVDROP (R255). Drops a sequence's block references from a position on. -/
  | kvdrop (src : BitVec 9) (grd : BitVec 6)
  /-- NRF (R257). Copies draft-tree node records from Carafe. -/
  | nrf (src : BitVec 9) (grd : BitVec 6)
  /-- PRISM (R259). Reads remote memory into a third party's receive window. -/
  | prism (src : BitVec 9) (grd : BitVec 6)
  /-- MIGR (R261). Migrates pages to a new home. -/
  | migr (src : BitVec 9) (grd : BitVec 6)
  /-- ENQ (R263). Appends packets to a shared queue. -/
  | enq (src : BitVec 9) (grd : BitVec 6)
  /-- MREB (R262). Rebuilds lost lines of a Mirror region. -/
  | mreb (src : BitVec 9) (grd : BitVec 6)
  /-- SCORE (R256). Reads and decays a score table. -/
  | score (src : BitVec 9) (grd : BitVec 6)
  /-- RFILL (R258). Fills empty lane groups from problem records. -/
  | rfill (src : BitVec 9) (grd : BitVec 6)
  /-- PSLOOK (R296). Looks up the longest matching prefix in the snapshot tree. -/
  | pslook (src : BitVec 9) (grd : BitVec 6)
  /-- PSDEP (R296). Deposits a snapshot node. -/
  | psdep (src : BitVec 9) (grd : BitVec 6)
  /-- PSREL (R296). Releases a reference to a snapshot node. -/
  | psrel (src : BitVec 9) (grd : BitVec 6)
  /-- PSPIN (R296). Sets or clears the PIN of a snapshot node. -/
  | pspin (src : BitVec 9) (grd : BitVec 6)
  /-- LPSUB (R292). Submits an ADMIT or a VERIFIED for a Loupe sequence slot. -/
  | lpsub (src : BitVec 9) (grd : BitVec 6)
  /-- LPDEP (R292). Returns DPOS word 1 of a slot's current step. -/
  | lpdep (src : BitVec 9) (grd : BitVec 6)
  /-- LPRES (R292). Writes the result record of the last ended step. -/
  | lpres (src : BitVec 9) (grd : BitVec 6)
  /-- LPRB (R292). Abandons the step, or returns a STALLED slot to DRAFTING. -/
  | lprb (src : BitVec 9) (grd : BitVec 6)
  /-- LPSET (R277). Binds, updates or unbinds a Loupe slot, or writes the depth table. -/
  | lpset (src : BitVec 9) (grd : BitVec 6)
  /-- BQPUSH (R293). Appends a request with no reply to the Barista queue. -/
  | bqpush (src : BitVec 9) (grd : BitVec 6)
  /-- BQPOP (R293). Copies a reply out and frees its queue slot. -/
  | bqpop (src : BitVec 9) (grd : BitVec 6)
  /-- BQREQ (R293). Appends a request whose reply sets a token-ready flag. -/
  | bqreq (src : BitVec 9) (grd : BitVec 6)
  /-- TLBINV (R303). Invalidates TLB entries on the die. -/
  | tlbinv (src : BitVec 9) (grd : BitVec 6)
  /-- PTWFENCE (R321). Orders the task's earlier stores before later table walks. -/
  | ptwfence (src : BitVec 9) (grd : BitVec 6)
  /-- REPLAY (R324). Replays a side log. -/
  | replay (src : BitVec 9) (grd : BitVec 6)
  /-- LOGRD (R322). Reads one word of a side-log entry. -/
  | logrd (src : BitVec 9) (grd : BitVec 6)
  /-- CTXSAVE (R303). Writes a context record to memory. -/
  | ctxsave (src : BitVec 9) (grd : BitVec 6)
  /-- CTXLOAD (R303). Loads a context record from memory. -/
  | ctxload (src : BitVec 9) (grd : BitVec 6)
  /-- FREEZEM (R343). Freezes or releases an agent. -/
  | freezem (src : BitVec 9) (grd : BitVec 6)
  /-- DISPQ (R305). Attaches or detaches a queue descriptor. -/
  | dispq (src : BitVec 9) (grd : BitVec 6)
  /-- HALT (R303). Ends the task and takes the physical core out of dispatch. -/
  | halt (src : BitVec 9) (grd : BitVec 6)
  /-- WAITF (R266). Waits until a counting flag reaches n, then subtracts n. -/
  | waitf (i : BitVec 8) (c : BitVec 8) (grd : BitVec 6)
  /-- POSTF (R266). Posts n to a counting flag of a core. -/
  | postf (i : BitVec 8) (c : BitVec 8) (e : BitVec 1) (r : BitVec 5) (grd : BitVec 6)
  /-- WAITE (R267). Waits until an event bit is set. -/
  | waite (i : BitVec 8) (grd : BitVec 6)
  /-- SETE (R267). Sets an event bit of the context. -/
  | sete (i : BitVec 8) (grd : BitVec 6)
  /-- CLRE (R267). Clears an event bit of the context. -/
  | clre (i : BitVec 8) (grd : BitVec 6)
  /-- WAITT (R268). Waits on a token-ready flag and clears it. -/
  | waitt (i : BitVec 8) (grd : BitVec 6)
  /-- BARG (R269). Arrives at a group barrier. -/
  | barg (i : BitVec 8) (grd : BitVec 6)
  /-- BARQ (R269). Arrives at a quad barrier. -/
  | barq (i : BitVec 8) (grd : BitVec 6)
  /-- WAITL (R270). Waits until a link inbound queue holds a word. -/
  | waitl (i : BitVec 8) (grd : BitVec 6)
  /-- LDK (R233). Loads 64 scale entries from scratch. -/
  | ldk (k : BitVec 5) (b : BitVec 4) (o : BitVec 13) (grd : BitVec 6)
  /-- LDK1 (R233). Loads one scale entry into every entry of a register. -/
  | ldk1 (k : BitVec 5) (b : BitVec 4) (o : BitVec 13) (grd : BitVec 6)
  /-- MVK (R233). Copies a scale register. -/
  | mvk (k : BitVec 5) (j : BitVec 5) (grd : BitVec 6)
  /-- STK (R233). Stores a scale register to scratch. -/
  | stk (k : BitVec 5) (b : BitVec 4) (o : BitVec 13) (grd : BitVec 6)
  /-- KV_STREAM_HOLD (R282). A KVS raises a block's HOLD, waiting when it stands at 255. -/
  | kvStreamHold (core : Nat) (seq : Nat)
  /-- KVS_TILE_READY (R252). A KVS writes the last row of one of its tiles and sets that tile's ready tag before the command completes. -/
  | kvsTileReady (core : Nat) (seq : Nat) (tile : Nat)
  /-- STREAM_HOLD_FALL (R282). After a KVS has read its last row from a block it lowers HOLD as its own pool operation, freeing a DEFERRED block when HOLD reaches 0. -/
  | streamHoldFall (core : Nat) (seq : Nat)
  /-- FLAG_POST_ARRIVAL (R266). A post lands on the target core's counting flag at issue + Dp, saturating. -/
  | flagPostArrival (core : Nat) (flag : Nat) (n : Nat)
  /-- EVENT_BIT_WRITE (R267). SETE and CLRE take effect on EV at issue + 2 in core-id order. -/
  | eventBitWrite (die : Nat) (ctx : Nat) (bit : Nat) (set : Bool)
  /-- BARRIER_RELEASE (R269). After the last arrival, every participant's barrier bundle issues Db cycles later. -/
  | barrierRelease (launch : Nat) (die : Nat) (group : Nat) (quad : Nat) (idx : Nat)
  /-- CARAFE_STORE (R274). An Eplia store lands in a Carafe slot, and the record is taken or discarded once 32 bytes have arrived. -/
  | carafeStore (slot : Nat) (off : Nat) (bytes : List Byte)
  /-- BRIDGE_DELIVERY (R12). A bridge transfer arrives 40 cycles after it leaves, in order per source and destination pair. -/
  | bridgeDelivery (src : Nat) (dst : Nat)
  /-- PRISM_READ_AT_OWNER (R332). The owner checks rights and translation and streams the read. -/
  | prismReadAtOwner (req : Nat)
  /-- PRISM_DEPOSIT (R165). Data arrives at the recipient's window and is deposited, followed by C's completion release. -/
  | prismDeposit (req : Nat)
  /-- PRISM_ACCEPTED (R260). The issuer receives the owner's acceptance or refusal. -/
  | prismAccepted (req : Nat) (status : Nat)
  /-- PRISM_FAULT_RETURN (R260). A later-page translation fault at O, or C's refusal of the deposit, returns to A and sets A's D record. -/
  | prismFaultReturn (req : Nat) (status : Nat)
  /-- MIRROR_DELTA_APPLY (R335). A parity package applies a delta to its parity line and acknowledges. -/
  | mirrorDeltaApply (region : Nat) (line : Nat) (shard : Nat) (delta : BitVec 512)
  /-- MIRROR_DELTA_ACK (R335). A data home receives the acknowledgement of a parity delta. -/
  | mirrorDeltaAck (id : Nat) (pkg : Nat)
  /-- MEM_FLIT_RECEIVE (R364). An arriving MEM flit is performed in pair sequence order, or is bounced back. -/
  | memFlitReceive (port : Nat) (flit : Flit)
  /-- BOUNCE_RECEIVE (R363). A bounced flit returns to its sender, which sends it again before later flits of the pair. -/
  | bounceReceive (port : Nat) (flit : Flit)
  /-- PAGE_MOVE (R326). One page of a MIGR is pinned-checked, frozen, copied and landed at its new home. -/
  | pageMove (core : Nat) (seq : Nat)
  /-- LOUPE_ADMISSION (R286). Once the tree is complete, Loupe sizes and reserves KV blocks under the pool policy. -/
  | loupeAdmission (lseq : Nat)
  /-- LOUPE_COMMIT (R285). After FIN, Loupe runs the acceptance and commits the step's pool, TOKBUF, LEN and DPOS changes whole. -/
  | loupeCommit (lseq : Nat)
  /-- PORT_ATTESTATION (R376). Package and switch exchange reports, encapsulate a secret and derive link keys. -/
  | portAttestation (port : Nat) (peer : PeerAnswer) (secret : BitVec 256) (nonces : BitVec 512)
  /-- GANG_FREEZE_PROPAGATE (R349). A freeze raised in a co-timetabled pair takes effect on both dies at logical cycle c + 41. -/
  | gangFreezePropagate (launch : Nat)
  /-- BARISTA_REQUEST_SERVE (R293). The Barista core answers a request, releases, and sets its token-ready flag. -/
  | baristaRequestServe (slot : Nat) (reply : BitVec 512) (token : BitVec 24)
  /-- BUNDLE_ISSUE (R103). One issue of a bundle: every slot reads its guard and source, operand moves are applied, triggered units sample their latches, and register writes land at the end of the cycle. -/
  | bundleIssue (core : Nat)
  /-- TRAP_ENTRY_DEFERRED_WRITE (R341). A stop that found the trap queue full has its entry written once room appears. -/
  | trapEntryDeferredWrite (core : Nat)
  /-- HELD_SLOT_ISSUE (R36). In TAGGED mode a held slot issues in the first cycle after its ready tag, owner bit or result becomes available. -/
  | heldSlotIssue (core : Nat)
  /-- RESULT_LATCH_WRITE (R106). An operation triggered at cycle t writes its result latch at the end of cycle t + L - 1. -/
  | resultLatchWrite (core : Nat)
  /-- GLOBAL_ACCESS_RETURN (R107). A global load, atomic, LDACQ or XLD returns its value into its result latch in issue order after a variable latency. -/
  | globalAccessReturn (core : Nat) (id : Nat)
  /-- SPEC_UNIT_RESULT (R291). An lp, bq or ps operation writes its result latch after a variable latency, once its block writes have performed. -/
  | specUnitResult (core : Nat) (id : Nat)
  /-- WAITA_RECHECK (R174). A sleeping WAITA rereads its word at its home when its line is written, and at least every 1,024 cycles. -/
  | waitaRecheck (core : Nat)
  /-- MMA_RESULT_WRITE (R227). The MMA accumulator tile is written, all 32 rows at once, at the end of cycle t + 8P + 5. -/
  | mmaResultWrite (core : Nat)
  /-- MMAQ_RESULT_WRITE (R228). The MMAQ quad sum is written into every member's accumulator at the end of cycle t + 8P + 29. -/
  | mmaqResultWrite (core : Nat)
  /-- WLD_COMPLETE (R224). A weight block becomes usable LW cycles after a scratch WLD, or after the last byte of a global WLD. -/
  | wldComplete (core : Nat)
  /-- COMMAND_BLOCK_READ (R238). At a + 4 the command block is read and checked, and the named tiles flip to ENGINE. -/
  | commandBlockRead (core : Nat) (seq : Nat)
  /-- COMMAND_START (R246). A command starts in lane L or lane G once its lane and ORD allow. -/
  | commandStart (core : Nat) (seq : Nat)
  /-- COMMAND_COMPLETE (R242). At completion the payload performs, the owner bits return, and the notification and completion word act. -/
  | commandComplete (core : Nat) (seq : Nat)
  /-- CPYM_FOLLOW_ON (R235). The follow-on WLD or MMA of a CPYM issues in the first cycle free of a thread trigger and of conflicts. -/
  | cpymFollowOn (core : Nat) (seq : Nat)
  /-- ENQ_CLAIM (R263). A sleeping ENQ claims its slots once queue room appears. -/
  | enqClaim (core : Nat) (seq : Nat)
  /-- SYNC_WAIT_SATISFIED (R265). A waiting sync slot's bundle issues in the first cycle in which its wait holds. -/
  | syncWaitSatisfied (core : Nat)
  /-- LINK_FIFO_WAIT (R98). An issue that pops an empty FIFO or pushes a full one waits until it can proceed. -/
  | linkFifoWait (core : Nat)
  /-- LAUNCH_PACKET (R307). The dispatcher takes a two-slot LAUNCH packet whose ticket matches RIDX and enqueues the launch. -/
  | launchPacket (die : Nat) (queue : Nat)
  /-- NOP_PACKET (R306). The dispatcher takes a NOP packet and advances RIDX. -/
  | nopPacket (die : Nat) (queue : Nat)
  /-- RESERVED_PACKET (R306). A packet of reserved TYPE is skipped and QERR counts it. -/
  | reservedPacket (die : Nat) (queue : Nat)
  /-- LAUNCH_ELIGIBLE (R26). A launch becomes eligible the first time all its WAIT bits are set. -/
  | launchEligible (launch : Nat)
  /-- TASK_BIND (R33). A TAGGED task binds to a freed logical core in ascending tile index. -/
  | taskBind (launch : Nat) (core : Nat)
  /-- GANG_START (R308). A reserving gang starts on one logical cycle once all its cores, and its partner's, are held. -/
  | gangStart (launch : Nat)
  /-- LAUNCH_COMPLETE (R27). When every task has ended, accesses perform, SET is ORed into EV and the completion word is written. -/
  | launchComplete (launch : Nat)
  /-- PREEMPTION_DECISION (R310). A first-in-order launch that cannot start chooses DRAIN, CHECKPOINT, KILL or wait for its victims, and pays tokens. -/
  | preemptionDecision (die : Nat)
  /-- CHECKPOINT_SAVE (R314). A victim's tasks stop, fence, write their save images and report to PRWADDR. -/
  | checkpointSave (launch : Nat)
  /-- LAUNCH_RESTORE (R40). A saved launch is restored, replaying WLDs and performing an implicit LDACQ. -/
  | launchRestore (launch : Nat)
  /-- KILL (R42). Ends every task of a launch, discards its pending work and completes it KILLED. -/
  | kill (launch : Nat)
  /-- SLICE_END (R313). A sliced launch reaching its slice, with an equal-class launch waiting, is pre-empted at no cost. -/
  | sliceEnd (launch : Nat)
  /-- CLASS_AGING (R309). A waiting launch's effective class rises by 1 for every 2^24 cycles it waits. -/
  | classAging (launch : Nat)
  /-- TOKEN_REFILL (R301). TOKRATE tokens are added at each multiple of 2^20 cycles, up to TOKMAX. -/
  | tokenRefill (die : Nat)
  /-- LAUNCH_OVERDUE (R47). A launch whose run count passes EST becomes overdue and its context's counter rises. -/
  | launchOverdue (launch : Nat)
  /-- CARAFE_INTERLOCK_RELEASE (R15). A store interlocked on an occupied slot lands once the slot frees. -/
  | carafeInterlockRelease (slot : Nat)
  /-- POWER_WINDOW_CHECK (R348). Each cycle a core sums its weights over 64 cycles and freezes its next cycle if the sum exceeds PLIM. -/
  | powerWindowCheck (core : Nat)
  /-- FABRIC_FRAME_FREEZE (R350). A pending fabric freeze freezes every timetabled core of the partition for one whole frame. -/
  | fabricFrameFreeze
  /-- DEBUG_FREEZE (R346). Stops every core, engine, macro and bridge clock of both dies within 3 cycles. -/
  | debugFreeze
  /-- SLOT_DEPARTURE (R359). In each 2-cycle slot, a flit departs on every port by the slot tables. -/
  | slotDeparture (port : Nat)
  /-- FRAME_BOUNDARY (R361). At a frame boundary, loaded slot tables take effect and pending freezes apply. -/
  | frameBoundary
  /-- SCHED_FLIT_RECEIVE (R362). An arriving SCHED flit is checked against the RX table and its words join the inbound queue. -/
  | schedFlitReceive (port : Nat) (flit : Flit)
  /-- REDUCTION_INPUT (R369). The switch accepts a RED-IN contribution before its deadline, or discards a late one. -/
  | reductionInput (plane : Nat) (port : Nat) (flit : Flit)
  /-- REDUCTION_DEADLINE (R369). At the deadline slot the switch sums the present ranks and emits RED-OUT. -/
  | reductionDeadline (plane : Nat) (group : Nat)
  /-- SWITCH_TABLE_LOAD (R368). A switch table load takes effect at a frame boundary, or is refused. -/
  | switchTableLoad (plane : Nat) (table : SwitchTable)
  /-- SCALEOUT_MEM (R372). MEM traffic travels over Ultra Ethernet to a package outside the domain. -/
  | scaleoutMem (peer : Nat) (flit : Flit)
  /-- HOST_WRITE (R354). A host write through BAR0 performs at its home, or freezes the host path. -/
  | hostWrite (off : Nat) (bytes : List Byte)
  /-- HOST_READ (R354). A host read through BAR0 returns data, or all ones. -/
  | hostRead (off : Nat) (n : Nat)
  /-- HOST_ATOMICOP (R353). The device completes a host AtomicOp that targets BAR0. -/
  | hostAtomicop (off : Nat) (op : Nat) (a b : U64)
  /-- REGRD (R355). Mailbox command that reads a register into RSP. -/
  | regrd
  /-- REGWR (R355). Mailbox command that writes a register. -/
  | regwr
  /-- REGISTER_WRITE (R6). A write to a register with no behaviour of its own, under its access codes. -/
  | registerWrite (block : Nat) (die : Nat) (num : Nat) (val : U64)
  /-- GO (R373). BCTL.GO moves the package from CORES to LINKS, or sets GOEARLY. -/
  | go
  /-- FWCOMMIT (R374). BCTL.FWCOMMIT raises ROLLBACK to the running VERSION. -/
  | fwcommit
  /-- START (R375). ATTCTL.START asks Roaster for an attestation report. -/
  | start
  /-- ATTESTATION_REPORT (R375). Roaster writes the signed report and sets ATTSTAT.DONE. -/
  | attestationReport
  /-- REATT (R376). Attests a port again. -/
  | reatt (port : Nat)
  /-- FREEZE (R378). DBGCTL.FREEZE requests a debug freeze. -/
  | freeze
  /-- RESUME (R378). DBGCTL.RESUME restarts every stopped clock on one cycle. -/
  | resume
  /-- LOAD (R361). PORTCTL.LOAD loads a port's slot tables at the next frame boundary. -/
  | load (port : Nat)
  /-- VIEWFINDER_UNLOCK (R377). A signature over serial and DBGNONCE unlocks the debug port. -/
  | viewfinderUnlock (sig : List Byte)
  /-- VIEWFINDER_FREEZE (R378). The Viewfinder FREEZE instruction requests a debug freeze. -/
  | viewfinderFreeze
  /-- VIEWFINDER_READ (R379). Reads the state of one logical core while the package is frozen. -/
  | viewfinderRead (sel : Nat) (off : Nat) (n : Nat)
  /-- IDCODE (R377). Returns the test access port identity. -/
  | idcode
  /-- COLD_START (R373). Power-on enters SAFE and Roaster verifies the firmware image. -/
  | coldStart (image : List Byte)
  /-- STAGE_MEMORY (R373). Memory training and zeroing, and identity derivation, after the firmware is accepted. -/
  | stageMemory (ok : Bool)
  /-- STAGE_CORES (R373). Core self-test and the fuse map, once memory is ready. -/
  | stageCores (ok : Bool)
  /-- STAGE_FULL (R373). Normal operation once every enabled port is attested or locked. -/
  | stageFull
  /-- STORE_PERFORMED_AT_HOME (R149). A global or remote store, STREL or protected store reaches its home and is acknowledged to the issuing core after a variable latency. -/
  | storePerformedAtHome (core : Nat) (id : Nat)
  /-- CACHE_EVICTION (R150). An L1, quad store buffer or RDC entry is evicted and its dirty bytes move on toward the home. -/
  | cacheEviction (kind : Nat) (owner : Nat) (line : Nat)
  /-- LINK_FRAMING_ALIGNED (R373). A scale-up port gains framing alignment with the domain's reference, setting ALIGNED and starting its frame counting, so that attestation can begin. -/
  | linkFramingAligned (port : Nat)
  /-- HALTED_CORE_RETURN (R303). The management core returns a physical core that left dispatch through HALT. -/
  | haltedCoreReturn (core : Nat)
  deriving DecidableEq, Repr

end Sys2Proof
end

