-- ==== Sys2Proof/WellFormed.lean ====
section
/-! DEFINITION. Well-formed instructions: the bus or slot an instruction stands in, its guard and source code, and the checks that
its fields are ones the encodings of R92 to R100 allow. -/

set_option linter.unusedVariables false

namespace Sys2Proof

/-- Where an instruction stands: an m slot, a w slot, the sync slot, the K slot, or nowhere (a step of the part). -/
inductive SlotKind where
  | m | w | sync | k | event
  deriving DecidableEq, Repr

def Instr.kind : Instr → SlotKind
  | .bundleIssue _ => .event
  | .trapEntryDeferredWrite _ => .event
  | .heldSlotIssue _ => .event
  | .resultLatchWrite _ => .event
  | .globalAccessReturn _ _ => .event
  | .specUnitResult _ _ => .event
  | .waitaRecheck _ => .event
  | .mmaResultWrite _ => .event
  | .mmaqResultWrite _ => .event
  | .wldComplete _ => .event
  | .move vec _ _ _ => if vec then .w else .m
  | .add _ _ _ _ => .m
  | .sub _ _ _ _ => .m
  | .and _ _ _ _ => .m
  | .or _ _ _ _ => .m
  | .xor _ _ _ _ => .m
  | .andn _ _ _ _ => .m
  | .shl _ _ _ _ => .m
  | .shr _ _ _ _ => .m
  | .sar _ _ _ _ => .m
  | .rol _ _ _ _ => .m
  | .ror _ _ _ _ => .m
  | .min _ _ _ _ => .m
  | .max _ _ _ _ => .m
  | .minu _ _ _ _ => .m
  | .maxu _ _ _ _ => .m
  | .clz _ _ _ _ => .m
  | .ctz _ _ _ _ => .m
  | .popc _ _ _ _ => .m
  | .mul _ _ _ _ => .m
  | .mulhs _ _ _ _ => .m
  | .mulhu _ _ _ _ => .m
  | .divs _ _ _ _ => .m
  | .divu _ _ _ _ => .m
  | .rems _ _ _ _ => .m
  | .remu _ _ _ _ => .m
  | .addsat _ _ _ _ => .m
  | .subsat _ _ _ _ => .m
  | .clmul _ _ _ _ => .m
  | .clmulh _ _ _ _ => .m
  | .pxor _ _ _ _ => .m
  | .pext _ _ _ _ => .m
  | .pdep _ _ _ _ => .m
  | .sext _ _ _ _ => .m
  | .zext _ _ _ _ => .m
  | .eq _ _ _ _ => .m
  | .ne _ _ _ _ => .m
  | .lt _ _ _ _ => .m
  | .le _ _ _ _ => .m
  | .ltu _ _ _ _ => .m
  | .leu _ _ _ _ => .m
  | .hmix _ _ _ _ => .m
  | .bswap _ _ _ _ => .m
  | .pass _ _ _ _ => .m
  | .abs _ _ _ _ => .m
  | .setb _ _ _ => .m
  | .addb _ _ _ => .m
  | .seti _ _ _ => .m
  | .setls _ _ _ => .m
  | .setwrap _ _ _ => .m
  | .rdb _ _ _ => .m
  | .settrp _ _ _ => .m
  | .rstb _ _ _ => .m
  | .jmp _ _ => .m
  | .jmpr _ _ => .m
  | .call _ _ => .m
  | .ret _ _ => .m
  | .loop _ _ _ => .m
  | .exit _ _ => .m
  | .trap _ _ => .m
  | .tfence _ _ => .m
  | .yieldp _ _ => .m
  | .brk _ _ => .m
  | .phase _ _ => .m
  | .rdsr _ _ => .m
  | .wrsr _ _ => .m
  | .clrstk _ _ => .m
  | .idle _ _ => .m
  | .ld8s _ _ _ _ => .m
  | .ld8u _ _ _ _ => .m
  | .ld16s _ _ _ _ => .m
  | .ld16u _ _ _ _ => .m
  | .ld32s _ _ _ _ => .m
  | .ld32u _ _ _ _ => .m
  | .ld64 _ _ _ _ => .m
  | .st8 _ _ _ _ => .m
  | .st16 _ _ _ _ => .m
  | .st32 _ _ _ _ => .m
  | .st64 _ _ _ _ => .m
  | .ldv _ _ _ _ => .m
  | .stv _ _ _ _ => .m
  | .ldvs _ _ _ _ => .m
  | .pref _ _ _ _ => .m
  | .waita _ _ _ _ => .m
  | .aadd _ _ _ _ => .m
  | .asub _ _ _ _ => .m
  | .aand _ _ _ _ => .m
  | .aor _ _ _ _ => .m
  | .axor _ _ _ _ => .m
  | .amin _ _ _ _ => .m
  | .amax _ _ _ _ => .m
  | .aminu _ _ _ _ => .m
  | .amaxu _ _ _ _ => .m
  | .axchg _ _ _ _ => .m
  | .acas _ _ _ _ => .m
  | .aincw _ _ _ _ => .m
  | .afadd _ _ _ _ => .m
  | .abar _ _ _ _ => .m
  | .ldacq _ _ _ _ => .m
  | .strel _ _ _ _ => .m
  | .fence _ _ _ => .m
  | .svfence _ _ => .m
  | .fencew _ _ _ => .m
  | .swfence _ _ _ => .m
  | .vadd _ _ _ => .w
  | .vsub _ _ _ => .w
  | .vmul _ _ _ => .w
  | .vmad _ _ _ => .w
  | .vmin _ _ _ => .w
  | .vmax _ _ _ => .w
  | .vabs _ _ _ => .w
  | .vneg _ _ _ => .w
  | .vand _ _ _ => .w
  | .vor _ _ _ => .w
  | .vxor _ _ _ => .w
  | .vshl _ _ _ => .w
  | .vshr _ _ _ => .w
  | .vcmpeq _ _ _ => .w
  | .vcmplt _ _ _ => .w
  | .vcmple _ _ _ => .w
  | .vsel _ _ _ => .w
  | .vrcp _ _ _ => .w
  | .vrsq _ _ _ => .w
  | .vexp2 _ _ _ => .w
  | .vlog2 _ _ _ => .w
  | .vred _ _ _ => .w
  | .vscan _ _ _ => .w
  | .vshuf _ _ _ => .w
  | .vbcast _ _ _ => .w
  | .vpackg _ _ _ => .w
  | .vclmul _ _ _ => .w
  | .vpxor _ _ _ => .w
  | .vtopk _ _ _ => .w
  | .vtopkm _ _ _ => .w
  | .bmm _ _ _ => .w
  | .vmask _ _ _ => .w
  | .xq _ _ _ => .w
  | .xqs _ _ _ => .w
  | .xdq _ _ _ => .w
  | .xsc _ _ _ => .w
  | .xf2bf _ _ => .w
  | .xbf2f _ _ => .w
  | .xf2h _ _ => .w
  | .xh2f _ _ => .w
  | .xf2i _ _ => .w
  | .xi2f _ _ => .w
  | .xsetf _ _ _ => .w
  | .xgetf _ _ _ => .w
  | .xld _ _ _ => .w
  | .xst _ _ _ => .w
  | .wld _ _ _ => .w
  | .wclr _ _ => .w
  | .mma _ _ _ => .w
  | .mmaq _ _ _ => .w
  | .mzero _ _ => .w
  | .mrd _ _ => .w
  | .mscl _ _ => .w
  | .cpy2d _ _ => .m
  | .cpym _ _ => .m
  | .gath _ _ => .m
  | .scat _ _ => .m
  | .fill _ _ => .m
  | .kvs _ _ => .m
  | .kvapp _ _ => .m
  | .kvfork _ _ => .m
  | .kvdrop _ _ => .m
  | .nrf _ _ => .m
  | .prism _ _ => .m
  | .migr _ _ => .m
  | .enq _ _ => .m
  | .mreb _ _ => .m
  | .score _ _ => .m
  | .rfill _ _ => .m
  | .commandBlockRead _ _ => .event
  | .commandStart _ _ => .event
  | .commandComplete _ _ => .event
  | .cpymFollowOn _ _ => .event
  | .enqClaim _ _ => .event
  | .kvStreamHold _ _ => .event
  | .pslook _ _ => .m
  | .psdep _ _ => .m
  | .psrel _ _ => .m
  | .pspin _ _ => .m
  | .lpsub _ _ => .m
  | .lpdep _ _ => .m
  | .lpres _ _ => .m
  | .lprb _ _ => .m
  | .lpset _ _ => .m
  | .bqpush _ _ => .m
  | .bqpop _ _ => .m
  | .bqreq _ _ => .m
  | .tlbinv _ _ => .m
  | .ptwfence _ _ => .m
  | .replay _ _ => .m
  | .logrd _ _ => .m
  | .ctxsave _ _ => .m
  | .ctxload _ _ => .m
  | .freezem _ _ => .m
  | .dispq _ _ => .m
  | .halt _ _ => .m
  | .waitf _ _ _ => .sync
  | .postf _ _ _ _ _ => .sync
  | .waite _ _ => .sync
  | .sete _ _ => .sync
  | .clre _ _ => .sync
  | .waitt _ _ => .sync
  | .barg _ _ => .sync
  | .barq _ _ => .sync
  | .waitl _ _ => .sync
  | .syncWaitSatisfied _ => .event
  | .flagPostArrival _ _ _ => .event
  | .eventBitWrite _ _ _ _ => .event
  | .barrierRelease _ _ _ _ _ => .event
  | .ldk _ _ _ _ => .k
  | .ldk1 _ _ _ _ => .k
  | .mvk _ _ _ => .k
  | .stk _ _ _ _ => .k
  | .linkFifoWait _ => .event
  | .launchPacket _ _ => .event
  | .nopPacket _ _ => .event
  | .reservedPacket _ _ => .event
  | .launchEligible _ => .event
  | .taskBind _ _ => .event
  | .gangStart _ => .event
  | .launchComplete _ => .event
  | .preemptionDecision _ => .event
  | .checkpointSave _ => .event
  | .launchRestore _ => .event
  | .kill _ => .event
  | .sliceEnd _ => .event
  | .classAging _ => .event
  | .tokenRefill _ => .event
  | .launchOverdue _ => .event
  | .carafeStore _ _ _ => .event
  | .carafeInterlockRelease _ => .event
  | .loupeAdmission _ => .event
  | .loupeCommit _ => .event
  | .baristaRequestServe _ _ _ => .event
  | .bridgeDelivery _ _ => .event
  | .prismReadAtOwner _ => .event
  | .prismDeposit _ => .event
  | .prismAccepted _ _ => .event
  | .pageMove _ _ => .event
  | .mirrorDeltaApply _ _ _ _ => .event
  | .mirrorDeltaAck _ _ => .event
  | .powerWindowCheck _ => .event
  | .gangFreezePropagate _ => .event
  | .fabricFrameFreeze => .event
  | .debugFreeze => .event
  | .slotDeparture _ => .event
  | .frameBoundary => .event
  | .schedFlitReceive _ _ => .event
  | .memFlitReceive _ _ => .event
  | .bounceReceive _ _ => .event
  | .reductionInput _ _ _ => .event
  | .reductionDeadline _ _ => .event
  | .switchTableLoad _ _ => .event
  | .scaleoutMem _ _ => .event
  | .hostWrite _ _ => .event
  | .hostRead _ _ => .event
  | .hostAtomicop _ _ _ _ => .event
  | .regrd => .event
  | .regwr => .event
  | .registerWrite _ _ _ _ => .event
  | .go => .event
  | .fwcommit => .event
  | .start => .event
  | .attestationReport => .event
  | .reatt _ => .event
  | .portAttestation _ _ _ _ => .event
  | .freeze => .event
  | .resume => .event
  | .load _ => .event
  | .viewfinderUnlock _ => .event
  | .viewfinderFreeze => .event
  | .viewfinderRead _ _ _ => .event
  | .idcode => .event
  | .coldStart _ => .event
  | .stageMemory _ => .event
  | .stageCores _ => .event
  | .stageFull => .event
  | .storePerformedAtHome _ _ => .event
  | .cacheEviction _ _ _ => .event
  | .kvsTileReady _ _ _ => .event
  | .streamHoldFall _ _ => .event
  | .prismFaultReturn _ _ => .event
  | .linkFramingAligned _ => .event
  | .haltedCoreReturn _ => .event

/-- The guard of a slot. -/
def Instr.guard : Instr → Option (BitVec 6)
  | .bundleIssue _ => none
  | .trapEntryDeferredWrite _ => none
  | .heldSlotIssue _ => none
  | .resultLatchWrite _ => none
  | .globalAccessReturn _ _ => none
  | .specUnitResult _ _ => none
  | .waitaRecheck _ => none
  | .mmaResultWrite _ => none
  | .mmaqResultWrite _ => none
  | .wldComplete _ => none
  | .move _ _ _ grd => some grd
  | .add _ _ _ grd => some grd
  | .sub _ _ _ grd => some grd
  | .and _ _ _ grd => some grd
  | .or _ _ _ grd => some grd
  | .xor _ _ _ grd => some grd
  | .andn _ _ _ grd => some grd
  | .shl _ _ _ grd => some grd
  | .shr _ _ _ grd => some grd
  | .sar _ _ _ grd => some grd
  | .rol _ _ _ grd => some grd
  | .ror _ _ _ grd => some grd
  | .min _ _ _ grd => some grd
  | .max _ _ _ grd => some grd
  | .minu _ _ _ grd => some grd
  | .maxu _ _ _ grd => some grd
  | .clz _ _ _ grd => some grd
  | .ctz _ _ _ grd => some grd
  | .popc _ _ _ grd => some grd
  | .mul _ _ _ grd => some grd
  | .mulhs _ _ _ grd => some grd
  | .mulhu _ _ _ grd => some grd
  | .divs _ _ _ grd => some grd
  | .divu _ _ _ grd => some grd
  | .rems _ _ _ grd => some grd
  | .remu _ _ _ grd => some grd
  | .addsat _ _ _ grd => some grd
  | .subsat _ _ _ grd => some grd
  | .clmul _ _ _ grd => some grd
  | .clmulh _ _ _ grd => some grd
  | .pxor _ _ _ grd => some grd
  | .pext _ _ _ grd => some grd
  | .pdep _ _ _ grd => some grd
  | .sext _ _ _ grd => some grd
  | .zext _ _ _ grd => some grd
  | .eq _ _ _ grd => some grd
  | .ne _ _ _ grd => some grd
  | .lt _ _ _ grd => some grd
  | .le _ _ _ grd => some grd
  | .ltu _ _ _ grd => some grd
  | .leu _ _ _ grd => some grd
  | .hmix _ _ _ grd => some grd
  | .bswap _ _ _ grd => some grd
  | .pass _ _ _ grd => some grd
  | .abs _ _ _ grd => some grd
  | .setb _ _ grd => some grd
  | .addb _ _ grd => some grd
  | .seti _ _ grd => some grd
  | .setls _ _ grd => some grd
  | .setwrap _ _ grd => some grd
  | .rdb _ _ grd => some grd
  | .settrp _ _ grd => some grd
  | .rstb _ _ grd => some grd
  | .jmp _ grd => some grd
  | .jmpr _ grd => some grd
  | .call _ grd => some grd
  | .ret _ grd => some grd
  | .loop _ _ grd => some grd
  | .exit _ grd => some grd
  | .trap _ grd => some grd
  | .tfence _ grd => some grd
  | .yieldp _ grd => some grd
  | .brk _ grd => some grd
  | .phase _ grd => some grd
  | .rdsr _ grd => some grd
  | .wrsr _ grd => some grd
  | .clrstk _ grd => some grd
  | .idle _ grd => some grd
  | .ld8s _ _ _ grd => some grd
  | .ld8u _ _ _ grd => some grd
  | .ld16s _ _ _ grd => some grd
  | .ld16u _ _ _ grd => some grd
  | .ld32s _ _ _ grd => some grd
  | .ld32u _ _ _ grd => some grd
  | .ld64 _ _ _ grd => some grd
  | .st8 _ _ _ grd => some grd
  | .st16 _ _ _ grd => some grd
  | .st32 _ _ _ grd => some grd
  | .st64 _ _ _ grd => some grd
  | .ldv _ _ _ grd => some grd
  | .stv _ _ _ grd => some grd
  | .ldvs _ _ _ grd => some grd
  | .pref _ _ _ grd => some grd
  | .waita _ _ _ grd => some grd
  | .aadd _ _ _ grd => some grd
  | .asub _ _ _ grd => some grd
  | .aand _ _ _ grd => some grd
  | .aor _ _ _ grd => some grd
  | .axor _ _ _ grd => some grd
  | .amin _ _ _ grd => some grd
  | .amax _ _ _ grd => some grd
  | .aminu _ _ _ grd => some grd
  | .amaxu _ _ _ grd => some grd
  | .axchg _ _ _ grd => some grd
  | .acas _ _ _ grd => some grd
  | .aincw _ _ _ grd => some grd
  | .afadd _ _ _ grd => some grd
  | .abar _ _ _ grd => some grd
  | .ldacq _ _ _ grd => some grd
  | .strel _ _ _ grd => some grd
  | .fence _ _ grd => some grd
  | .svfence _ grd => some grd
  | .fencew _ _ grd => some grd
  | .swfence _ _ grd => some grd
  | .vadd _ _ grd => some grd
  | .vsub _ _ grd => some grd
  | .vmul _ _ grd => some grd
  | .vmad _ _ grd => some grd
  | .vmin _ _ grd => some grd
  | .vmax _ _ grd => some grd
  | .vabs _ _ grd => some grd
  | .vneg _ _ grd => some grd
  | .vand _ _ grd => some grd
  | .vor _ _ grd => some grd
  | .vxor _ _ grd => some grd
  | .vshl _ _ grd => some grd
  | .vshr _ _ grd => some grd
  | .vcmpeq _ _ grd => some grd
  | .vcmplt _ _ grd => some grd
  | .vcmple _ _ grd => some grd
  | .vsel _ _ grd => some grd
  | .vrcp _ _ grd => some grd
  | .vrsq _ _ grd => some grd
  | .vexp2 _ _ grd => some grd
  | .vlog2 _ _ grd => some grd
  | .vred _ _ grd => some grd
  | .vscan _ _ grd => some grd
  | .vshuf _ _ grd => some grd
  | .vbcast _ _ grd => some grd
  | .vpackg _ _ grd => some grd
  | .vclmul _ _ grd => some grd
  | .vpxor _ _ grd => some grd
  | .vtopk _ _ grd => some grd
  | .vtopkm _ _ grd => some grd
  | .bmm _ _ grd => some grd
  | .vmask _ _ grd => some grd
  | .xq _ _ grd => some grd
  | .xqs _ _ grd => some grd
  | .xdq _ _ grd => some grd
  | .xsc _ _ grd => some grd
  | .xf2bf _ grd => some grd
  | .xbf2f _ grd => some grd
  | .xf2h _ grd => some grd
  | .xh2f _ grd => some grd
  | .xf2i _ grd => some grd
  | .xi2f _ grd => some grd
  | .xsetf _ _ grd => some grd
  | .xgetf _ _ grd => some grd
  | .xld _ _ grd => some grd
  | .xst _ _ grd => some grd
  | .wld _ _ grd => some grd
  | .wclr _ grd => some grd
  | .mma _ _ grd => some grd
  | .mmaq _ _ grd => some grd
  | .mzero _ grd => some grd
  | .mrd _ grd => some grd
  | .mscl _ grd => some grd
  | .cpy2d _ grd => some grd
  | .cpym _ grd => some grd
  | .gath _ grd => some grd
  | .scat _ grd => some grd
  | .fill _ grd => some grd
  | .kvs _ grd => some grd
  | .kvapp _ grd => some grd
  | .kvfork _ grd => some grd
  | .kvdrop _ grd => some grd
  | .nrf _ grd => some grd
  | .prism _ grd => some grd
  | .migr _ grd => some grd
  | .enq _ grd => some grd
  | .mreb _ grd => some grd
  | .score _ grd => some grd
  | .rfill _ grd => some grd
  | .commandBlockRead _ _ => none
  | .commandStart _ _ => none
  | .commandComplete _ _ => none
  | .cpymFollowOn _ _ => none
  | .enqClaim _ _ => none
  | .kvStreamHold _ _ => none
  | .pslook _ grd => some grd
  | .psdep _ grd => some grd
  | .psrel _ grd => some grd
  | .pspin _ grd => some grd
  | .lpsub _ grd => some grd
  | .lpdep _ grd => some grd
  | .lpres _ grd => some grd
  | .lprb _ grd => some grd
  | .lpset _ grd => some grd
  | .bqpush _ grd => some grd
  | .bqpop _ grd => some grd
  | .bqreq _ grd => some grd
  | .tlbinv _ grd => some grd
  | .ptwfence _ grd => some grd
  | .replay _ grd => some grd
  | .logrd _ grd => some grd
  | .ctxsave _ grd => some grd
  | .ctxload _ grd => some grd
  | .freezem _ grd => some grd
  | .dispq _ grd => some grd
  | .halt _ grd => some grd
  | .waitf _ _ grd => some grd
  | .postf _ _ _ _ grd => some grd
  | .waite _ grd => some grd
  | .sete _ grd => some grd
  | .clre _ grd => some grd
  | .waitt _ grd => some grd
  | .barg _ grd => some grd
  | .barq _ grd => some grd
  | .waitl _ grd => some grd
  | .syncWaitSatisfied _ => none
  | .flagPostArrival _ _ _ => none
  | .eventBitWrite _ _ _ _ => none
  | .barrierRelease _ _ _ _ _ => none
  | .ldk _ _ _ grd => some grd
  | .ldk1 _ _ _ grd => some grd
  | .mvk _ _ grd => some grd
  | .stk _ _ _ grd => some grd
  | .linkFifoWait _ => none
  | .launchPacket _ _ => none
  | .nopPacket _ _ => none
  | .reservedPacket _ _ => none
  | .launchEligible _ => none
  | .taskBind _ _ => none
  | .gangStart _ => none
  | .launchComplete _ => none
  | .preemptionDecision _ => none
  | .checkpointSave _ => none
  | .launchRestore _ => none
  | .kill _ => none
  | .sliceEnd _ => none
  | .classAging _ => none
  | .tokenRefill _ => none
  | .launchOverdue _ => none
  | .carafeStore _ _ _ => none
  | .carafeInterlockRelease _ => none
  | .loupeAdmission _ => none
  | .loupeCommit _ => none
  | .baristaRequestServe _ _ _ => none
  | .bridgeDelivery _ _ => none
  | .prismReadAtOwner _ => none
  | .prismDeposit _ => none
  | .prismAccepted _ _ => none
  | .pageMove _ _ => none
  | .mirrorDeltaApply _ _ _ _ => none
  | .mirrorDeltaAck _ _ => none
  | .powerWindowCheck _ => none
  | .gangFreezePropagate _ => none
  | .fabricFrameFreeze => none
  | .debugFreeze => none
  | .slotDeparture _ => none
  | .frameBoundary => none
  | .schedFlitReceive _ _ => none
  | .memFlitReceive _ _ => none
  | .bounceReceive _ _ => none
  | .reductionInput _ _ _ => none
  | .reductionDeadline _ _ => none
  | .switchTableLoad _ _ => none
  | .scaleoutMem _ _ => none
  | .hostWrite _ _ => none
  | .hostRead _ _ => none
  | .hostAtomicop _ _ _ _ => none
  | .regrd => none
  | .regwr => none
  | .registerWrite _ _ _ _ => none
  | .go => none
  | .fwcommit => none
  | .start => none
  | .attestationReport => none
  | .reatt _ => none
  | .portAttestation _ _ _ _ => none
  | .freeze => none
  | .resume => none
  | .load _ => none
  | .viewfinderUnlock _ => none
  | .viewfinderFreeze => none
  | .viewfinderRead _ _ _ => none
  | .idcode => none
  | .coldStart _ => none
  | .stageMemory _ => none
  | .stageCores _ => none
  | .stageFull => none
  | .storePerformedAtHome _ _ => none
  | .cacheEviction _ _ _ => none
  | .kvsTileReady _ _ _ => none
  | .streamHoldFall _ _ => none
  | .prismFaultReturn _ _ => none
  | .linkFramingAligned _ => none
  | .haltedCoreReturn _ => none

/-- The source code of a move slot. -/
def Instr.srcCode : Instr → Option (BitVec 9)
  | .bundleIssue _ => none
  | .trapEntryDeferredWrite _ => none
  | .heldSlotIssue _ => none
  | .resultLatchWrite _ => none
  | .globalAccessReturn _ _ => none
  | .specUnitResult _ _ => none
  | .waitaRecheck _ => none
  | .mmaResultWrite _ => none
  | .mmaqResultWrite _ => none
  | .wldComplete _ => none
  | .move _ src _ _ => some src
  | .add src _ _ _ => some src
  | .sub src _ _ _ => some src
  | .and src _ _ _ => some src
  | .or src _ _ _ => some src
  | .xor src _ _ _ => some src
  | .andn src _ _ _ => some src
  | .shl src _ _ _ => some src
  | .shr src _ _ _ => some src
  | .sar src _ _ _ => some src
  | .rol src _ _ _ => some src
  | .ror src _ _ _ => some src
  | .min src _ _ _ => some src
  | .max src _ _ _ => some src
  | .minu src _ _ _ => some src
  | .maxu src _ _ _ => some src
  | .clz src _ _ _ => some src
  | .ctz src _ _ _ => some src
  | .popc src _ _ _ => some src
  | .mul src _ _ _ => some src
  | .mulhs src _ _ _ => some src
  | .mulhu src _ _ _ => some src
  | .divs src _ _ _ => some src
  | .divu src _ _ _ => some src
  | .rems src _ _ _ => some src
  | .remu src _ _ _ => some src
  | .addsat src _ _ _ => some src
  | .subsat src _ _ _ => some src
  | .clmul src _ _ _ => some src
  | .clmulh src _ _ _ => some src
  | .pxor src _ _ _ => some src
  | .pext src _ _ _ => some src
  | .pdep src _ _ _ => some src
  | .sext src _ _ _ => some src
  | .zext src _ _ _ => some src
  | .eq src _ _ _ => some src
  | .ne src _ _ _ => some src
  | .lt src _ _ _ => some src
  | .le src _ _ _ => some src
  | .ltu src _ _ _ => some src
  | .leu src _ _ _ => some src
  | .hmix src _ _ _ => some src
  | .bswap src _ _ _ => some src
  | .pass src _ _ _ => some src
  | .abs src _ _ _ => some src
  | .setb src _ _ => some src
  | .addb src _ _ => some src
  | .seti src _ _ => some src
  | .setls src _ _ => some src
  | .setwrap src _ _ => some src
  | .rdb src _ _ => some src
  | .settrp src _ _ => some src
  | .rstb src _ _ => some src
  | .jmp src _ => some src
  | .jmpr src _ => some src
  | .call src _ => some src
  | .ret src _ => some src
  | .loop src _ _ => some src
  | .exit src _ => some src
  | .trap src _ => some src
  | .tfence src _ => some src
  | .yieldp src _ => some src
  | .brk src _ => some src
  | .phase src _ => some src
  | .rdsr src _ => some src
  | .wrsr src _ => some src
  | .clrstk src _ => some src
  | .idle src _ => some src
  | .ld8s src _ _ _ => some src
  | .ld8u src _ _ _ => some src
  | .ld16s src _ _ _ => some src
  | .ld16u src _ _ _ => some src
  | .ld32s src _ _ _ => some src
  | .ld32u src _ _ _ => some src
  | .ld64 src _ _ _ => some src
  | .st8 src _ _ _ => some src
  | .st16 src _ _ _ => some src
  | .st32 src _ _ _ => some src
  | .st64 src _ _ _ => some src
  | .ldv src _ _ _ => some src
  | .stv src _ _ _ => some src
  | .ldvs src _ _ _ => some src
  | .pref src _ _ _ => some src
  | .waita src _ _ _ => some src
  | .aadd src _ _ _ => some src
  | .asub src _ _ _ => some src
  | .aand src _ _ _ => some src
  | .aor src _ _ _ => some src
  | .axor src _ _ _ => some src
  | .amin src _ _ _ => some src
  | .amax src _ _ _ => some src
  | .aminu src _ _ _ => some src
  | .amaxu src _ _ _ => some src
  | .axchg src _ _ _ => some src
  | .acas src _ _ _ => some src
  | .aincw src _ _ _ => some src
  | .afadd src _ _ _ => some src
  | .abar src _ _ _ => some src
  | .ldacq src _ _ _ => some src
  | .strel src _ _ _ => some src
  | .fence src _ _ => some src
  | .svfence src _ => some src
  | .fencew src _ _ => some src
  | .swfence src _ _ => some src
  | .vadd src _ _ => some src
  | .vsub src _ _ => some src
  | .vmul src _ _ => some src
  | .vmad src _ _ => some src
  | .vmin src _ _ => some src
  | .vmax src _ _ => some src
  | .vabs src _ _ => some src
  | .vneg src _ _ => some src
  | .vand src _ _ => some src
  | .vor src _ _ => some src
  | .vxor src _ _ => some src
  | .vshl src _ _ => some src
  | .vshr src _ _ => some src
  | .vcmpeq src _ _ => some src
  | .vcmplt src _ _ => some src
  | .vcmple src _ _ => some src
  | .vsel src _ _ => some src
  | .vrcp src _ _ => some src
  | .vrsq src _ _ => some src
  | .vexp2 src _ _ => some src
  | .vlog2 src _ _ => some src
  | .vred src _ _ => some src
  | .vscan src _ _ => some src
  | .vshuf src _ _ => some src
  | .vbcast src _ _ => some src
  | .vpackg src _ _ => some src
  | .vclmul src _ _ => some src
  | .vpxor src _ _ => some src
  | .vtopk src _ _ => some src
  | .vtopkm src _ _ => some src
  | .bmm src _ _ => some src
  | .vmask src _ _ => some src
  | .xq src _ _ => some src
  | .xqs src _ _ => some src
  | .xdq src _ _ => some src
  | .xsc src _ _ => some src
  | .xf2bf src _ => some src
  | .xbf2f src _ => some src
  | .xf2h src _ => some src
  | .xh2f src _ => some src
  | .xf2i src _ => some src
  | .xi2f src _ => some src
  | .xsetf src _ _ => some src
  | .xgetf src _ _ => some src
  | .xld src _ _ => some src
  | .xst src _ _ => some src
  | .wld src _ _ => some src
  | .wclr src _ => some src
  | .mma src _ _ => some src
  | .mmaq src _ _ => some src
  | .mzero src _ => some src
  | .mrd src _ => some src
  | .mscl src _ => some src
  | .cpy2d src _ => some src
  | .cpym src _ => some src
  | .gath src _ => some src
  | .scat src _ => some src
  | .fill src _ => some src
  | .kvs src _ => some src
  | .kvapp src _ => some src
  | .kvfork src _ => some src
  | .kvdrop src _ => some src
  | .nrf src _ => some src
  | .prism src _ => some src
  | .migr src _ => some src
  | .enq src _ => some src
  | .mreb src _ => some src
  | .score src _ => some src
  | .rfill src _ => some src
  | .commandBlockRead _ _ => none
  | .commandStart _ _ => none
  | .commandComplete _ _ => none
  | .cpymFollowOn _ _ => none
  | .enqClaim _ _ => none
  | .kvStreamHold _ _ => none
  | .pslook src _ => some src
  | .psdep src _ => some src
  | .psrel src _ => some src
  | .pspin src _ => some src
  | .lpsub src _ => some src
  | .lpdep src _ => some src
  | .lpres src _ => some src
  | .lprb src _ => some src
  | .lpset src _ => some src
  | .bqpush src _ => some src
  | .bqpop src _ => some src
  | .bqreq src _ => some src
  | .tlbinv src _ => some src
  | .ptwfence src _ => some src
  | .replay src _ => some src
  | .logrd src _ => some src
  | .ctxsave src _ => some src
  | .ctxload src _ => some src
  | .freezem src _ => some src
  | .dispq src _ => some src
  | .halt src _ => some src
  | .waitf _ _ _ => none
  | .postf _ _ _ _ _ => none
  | .waite _ _ => none
  | .sete _ _ => none
  | .clre _ _ => none
  | .waitt _ _ => none
  | .barg _ _ => none
  | .barq _ _ => none
  | .waitl _ _ => none
  | .syncWaitSatisfied _ => none
  | .flagPostArrival _ _ _ => none
  | .eventBitWrite _ _ _ _ => none
  | .barrierRelease _ _ _ _ _ => none
  | .ldk _ _ _ _ => none
  | .ldk1 _ _ _ _ => none
  | .mvk _ _ _ => none
  | .stk _ _ _ _ => none
  | .linkFifoWait _ => none
  | .launchPacket _ _ => none
  | .nopPacket _ _ => none
  | .reservedPacket _ _ => none
  | .launchEligible _ => none
  | .taskBind _ _ => none
  | .gangStart _ => none
  | .launchComplete _ => none
  | .preemptionDecision _ => none
  | .checkpointSave _ => none
  | .launchRestore _ => none
  | .kill _ => none
  | .sliceEnd _ => none
  | .classAging _ => none
  | .tokenRefill _ => none
  | .launchOverdue _ => none
  | .carafeStore _ _ _ => none
  | .carafeInterlockRelease _ => none
  | .loupeAdmission _ => none
  | .loupeCommit _ => none
  | .baristaRequestServe _ _ _ => none
  | .bridgeDelivery _ _ => none
  | .prismReadAtOwner _ => none
  | .prismDeposit _ => none
  | .prismAccepted _ _ => none
  | .pageMove _ _ => none
  | .mirrorDeltaApply _ _ _ _ => none
  | .mirrorDeltaAck _ _ => none
  | .powerWindowCheck _ => none
  | .gangFreezePropagate _ => none
  | .fabricFrameFreeze => none
  | .debugFreeze => none
  | .slotDeparture _ => none
  | .frameBoundary => none
  | .schedFlitReceive _ _ => none
  | .memFlitReceive _ _ => none
  | .bounceReceive _ _ => none
  | .reductionInput _ _ _ => none
  | .reductionDeadline _ _ => none
  | .switchTableLoad _ _ => none
  | .scaleoutMem _ _ => none
  | .hostWrite _ _ => none
  | .hostRead _ _ => none
  | .hostAtomicop _ _ _ _ => none
  | .regrd => none
  | .regwr => none
  | .registerWrite _ _ _ _ => none
  | .go => none
  | .fwcommit => none
  | .start => none
  | .attestationReport => none
  | .reatt _ => none
  | .portAttestation _ _ _ _ => none
  | .freeze => none
  | .resume => none
  | .load _ => none
  | .viewfinderUnlock _ => none
  | .viewfinderFreeze => none
  | .viewfinderRead _ _ _ => none
  | .idcode => none
  | .coldStart _ => none
  | .stageMemory _ => none
  | .stageCores _ => none
  | .stageFull => none
  | .storePerformedAtHome _ _ => none
  | .cacheEviction _ _ _ => none
  | .kvsTileReady _ _ _ => none
  | .streamHoldFall _ _ => none
  | .prismFaultReturn _ _ => none
  | .linkFramingAligned _ => none
  | .haltedCoreReturn _ => none

/-- R93: 24–30 and 56–62 are reserved guards. -/
def guardOk (g : Nat) : Bool := g < 24 || g = 31 || (32 ≤ g && g < 56) || g = 63

/-- Source codes of the scalar bus (R95). -/
def srcOkM (c : Nat) : Bool := c < 0x6C || (0x70 ≤ c && c < 0x88) || (0x100 ≤ c && c < 0x200)
/-- Source codes of the vector bus (R96). -/
def srcOkW (c : Nat) : Bool := c < 0x38 || (0x40 ≤ c && c < 0x47) || (0x100 ≤ c && c < 0x200)
/-- Destination codes of a plain move on the scalar bus (R95). -/
def dstOkM (c : Nat) : Bool := c < 0x58 || (0x60 ≤ c && c < 0x6D) || (0x70 ≤ c && c < 0x88)
/-- Destination codes of a plain move on the vector bus (R96). -/
def dstOkW (c : Nat) : Bool := c < 0x38 || (0x40 ≤ c && c < 0x46)

/-- The checks on fields other than guard and source (R94, R99, R101). -/
def Instr.fieldsOk : Instr → Bool
  | .move vec _ d _ => if vec then dstOkW d.toNat else dstOkM d.toNat
  | .fence _ p _ => p.toNat != 7
  | .waitf i _ _ => i.toNat < 32
  | .postf i _ e r _ => i.toNat < 32 && (e.toNat = 0 || r.toNat = 0)
  | .barg i _ => i.toNat < 4
  | .barq i _ => i.toNat < 4
  | .waitl i _ => i.toNat < 8
  | _ => true

/-- The guard is one that R93 admits. -/
def Instr.guardWf (i : Instr) : Bool :=
  match i.guard with
  | some g => guardOk g.toNat
  | none => true

/-- The source is a code of the slot's own bus (R95, R96). -/
def Instr.srcWf (i : Instr) : Bool :=
  match i.srcCode, i.kind with
  | some s, .m => srcOkM s.toNat
  | some s, .w => srcOkW s.toNat
  | some _, _ => false
  | none, _ => true

/-- A well-formed instruction. -/
def Instr.wf (i : Instr) : Bool := i.guardWf && i.srcWf && i.fieldsOk

end Sys2Proof
end

