-- ==== Sys2Proof/Decode.lean ====
section
/-! DEFINITION. Decoding and encoding (R90 to R102, R116, R117): the slots of a bundle and the bundle itself, total on any words;
what is no instruction is rejected under its fault class. After the decoder, an encoder written from the same tables. -/

set_option linter.unusedVariables false

namespace Sys2Proof

/-- The classes of decode faults (R116), in reporting order. -/
inductive DecErr where
  | bundle | latch | op
  deriving DecidableEq, Repr

/-- Operation codes of a0 and a1 (R102). -/
def decAlu (src : BitVec 9) (u w : BitVec 1) (grd : BitVec 6) : Nat → Except DecErr Instr
  | 0 => .ok (.add src u w grd)
  | 1 => .ok (.sub src u w grd)
  | 2 => .ok (.and src u w grd)
  | 3 => .ok (.or src u w grd)
  | 4 => .ok (.xor src u w grd)
  | 5 => .ok (.andn src u w grd)
  | 6 => .ok (.shl src u w grd)
  | 7 => .ok (.shr src u w grd)
  | 8 => .ok (.sar src u w grd)
  | 9 => .ok (.rol src u w grd)
  | 10 => .ok (.ror src u w grd)
  | 11 => .ok (.min src u w grd)
  | 12 => .ok (.max src u w grd)
  | 13 => .ok (.minu src u w grd)
  | 14 => .ok (.maxu src u w grd)
  | 15 => .ok (.clz src u w grd)
  | 16 => .ok (.ctz src u w grd)
  | 17 => .ok (.popc src u w grd)
  | 18 => .ok (.mul src u w grd)
  | 19 => .ok (.mulhs src u w grd)
  | 20 => .ok (.mulhu src u w grd)
  | 21 => .ok (.divs src u w grd)
  | 22 => .ok (.divu src u w grd)
  | 23 => .ok (.rems src u w grd)
  | 24 => .ok (.remu src u w grd)
  | 25 => .ok (.addsat src u w grd)
  | 26 => .ok (.subsat src u w grd)
  | 27 => .ok (.clmul src u w grd)
  | 28 => .ok (.clmulh src u w grd)
  | 29 => .ok (.pxor src u w grd)
  | 30 => .ok (.pext src u w grd)
  | 31 => .ok (.pdep src u w grd)
  | 32 => .ok (.sext src u w grd)
  | 33 => .ok (.zext src u w grd)
  | 34 => .ok (.eq src u w grd)
  | 35 => .ok (.ne src u w grd)
  | 36 => .ok (.lt src u w grd)
  | 37 => .ok (.le src u w grd)
  | 38 => .ok (.ltu src u w grd)
  | 39 => .ok (.leu src u w grd)
  | 40 => .ok (.hmix src u w grd)
  | 41 => .ok (.bswap src u w grd)
  | 42 => .ok (.pass src u w grd)
  | 43 => .ok (.abs src u w grd)
  | _ => .error .op

/-- Operation codes of au (R129). -/
def decAu (src : BitVec 9) (b : BitVec 4) (grd : BitVec 6) : Nat → Except DecErr Instr
  | 0 => .ok (.setb src b grd)
  | 1 => .ok (.addb src b grd)
  | 2 => .ok (.seti src b grd)
  | 3 => .ok (.setls src b grd)
  | 4 => .ok (.setwrap src b grd)
  | 5 => .ok (.rdb src b grd)
  | 6 => .ok (.settrp src b grd)
  | 7 => .ok (.rstb src b grd)
  | _ => .error .op

/-- Operation codes of c (R101). -/
def decC (src : BitVec 9) (grd : BitVec 6) : Nat → Except DecErr Instr
  | 0 => .ok (.jmp src grd)
  | 1 => .ok (.jmpr src grd)
  | 2 => .ok (.call src grd)
  | 3 => .ok (.ret src grd)
  | 8 => .ok (.loop src 0 grd)
  | 9 => .ok (.loop src 1 grd)
  | 10 => .ok (.loop src 2 grd)
  | 11 => .ok (.loop src 3 grd)
  | 12 => .ok (.loop src 4 grd)
  | 13 => .ok (.loop src 5 grd)
  | 14 => .ok (.loop src 6 grd)
  | 15 => .ok (.loop src 7 grd)
  | 16 => .ok (.exit src grd)
  | 17 => .ok (.trap src grd)
  | 18 => .ok (.tfence src grd)
  | 19 => .ok (.yieldp src grd)
  | 20 => .ok (.brk src grd)
  | 21 => .ok (.phase src grd)
  | 22 => .ok (.rdsr src grd)
  | 23 => .ok (.wrsr src grd)
  | 25 => .ok (.clrstk src grd)
  | 26 => .ok (.idle src grd)
  | _ => .error .op

/-- Operation codes of l (R101). -/
def decL (src : BitVec 9) (a : BitVec 2) (b : BitVec 4) (grd : BitVec 6) : Nat → Except DecErr Instr
  | 0 => .ok (.ld8s src a b grd)
  | 1 => .ok (.ld8u src a b grd)
  | 2 => .ok (.ld16s src a b grd)
  | 3 => .ok (.ld16u src a b grd)
  | 4 => .ok (.ld32s src a b grd)
  | 5 => .ok (.ld32u src a b grd)
  | 6 => .ok (.ld64 src a b grd)
  | 7 => .ok (.st8 src a b grd)
  | 8 => .ok (.st16 src a b grd)
  | 9 => .ok (.st32 src a b grd)
  | 10 => .ok (.st64 src a b grd)
  | 11 => .ok (.ldv src a b grd)
  | 12 => .ok (.stv src a b grd)
  | 13 => .ok (.ldvs src a b grd)
  | 14 => .ok (.pref src a b grd)
  | 15 => .ok (.waita src a b grd)
  | _ => .error .op

/-- Operation codes of at (R101). -/
def decAt (src : BitVec 9) (a : BitVec 2) (b : BitVec 4) (grd : BitVec 6) : Nat → Except DecErr Instr
  | 0 => .ok (.aadd src a b grd)
  | 1 => .ok (.asub src a b grd)
  | 2 => .ok (.aand src a b grd)
  | 3 => .ok (.aor src a b grd)
  | 4 => .ok (.axor src a b grd)
  | 5 => .ok (.amin src a b grd)
  | 6 => .ok (.amax src a b grd)
  | 7 => .ok (.aminu src a b grd)
  | 8 => .ok (.amaxu src a b grd)
  | 9 => .ok (.axchg src a b grd)
  | 10 => .ok (.acas src a b grd)
  | 11 => .ok (.aincw src a b grd)
  | 12 => .ok (.afadd src a b grd)
  | 13 => .ok (.abar src a b grd)
  | _ => .error .op

/-- Operation codes of v (R102). -/
def decV (src : BitVec 9) (t : BitVec 3) (grd : BitVec 6) : Nat → Except DecErr Instr
  | 0 => .ok (.vadd src t grd)
  | 1 => .ok (.vsub src t grd)
  | 2 => .ok (.vmul src t grd)
  | 3 => .ok (.vmad src t grd)
  | 4 => .ok (.vmin src t grd)
  | 5 => .ok (.vmax src t grd)
  | 6 => .ok (.vabs src t grd)
  | 7 => .ok (.vneg src t grd)
  | 8 => .ok (.vand src t grd)
  | 9 => .ok (.vor src t grd)
  | 10 => .ok (.vxor src t grd)
  | 11 => .ok (.vshl src t grd)
  | 12 => .ok (.vshr src t grd)
  | 13 => .ok (.vcmpeq src t grd)
  | 14 => .ok (.vcmplt src t grd)
  | 15 => .ok (.vcmple src t grd)
  | 16 => .ok (.vsel src t grd)
  | 17 => .ok (.vrcp src t grd)
  | 18 => .ok (.vrsq src t grd)
  | 19 => .ok (.vexp2 src t grd)
  | 20 => .ok (.vlog2 src t grd)
  | 21 => .ok (.vred src t grd)
  | 22 => .ok (.vscan src t grd)
  | 23 => .ok (.vshuf src t grd)
  | 24 => .ok (.vbcast src t grd)
  | 25 => .ok (.vpackg src t grd)
  | 26 => .ok (.vclmul src t grd)
  | 27 => .ok (.vpxor src t grd)
  | 28 => .ok (.vtopk src t grd)
  | 29 => .ok (.vtopkm src t grd)
  | 30 => .ok (.bmm src t grd)
  | 31 => .ok (.vmask src t grd)
  | _ => .error .op

/-- Operation codes of x (R101, R205): the wide conversions require fm number 0. -/
def decX (src : BitVec 9) (f : BitVec 4) (grd : BitVec 6) : Nat → Except DecErr Instr
  | 0 => .ok (.xq src f grd)
  | 1 => .ok (.xqs src f grd)
  | 2 => .ok (.xdq src f grd)
  | 3 => .ok (.xsc src f grd)
  | 4 => if f = 0 then .ok (.xf2bf src grd) else .error .op
  | 5 => if f = 0 then .ok (.xbf2f src grd) else .error .op
  | 6 => if f = 0 then .ok (.xf2h src grd) else .error .op
  | 7 => if f = 0 then .ok (.xh2f src grd) else .error .op
  | 8 => if f = 0 then .ok (.xf2i src grd) else .error .op
  | 9 => if f = 0 then .ok (.xi2f src grd) else .error .op
  | 10 => .ok (.xsetf src f grd)
  | 11 => .ok (.xgetf src f grd)
  | 12 => .ok (.xld src f grd)
  | 13 => .ok (.xst src f grd)
  | _ => .error .op

/-- Operation codes of m (R219): operations without a format require fm number 0. -/
def decMat (src : BitVec 9) (f : BitVec 4) (grd : BitVec 6) : Nat → Except DecErr Instr
  | 0 => .ok (.wld src f grd)
  | 1 => if f = 0 then .ok (.wclr src grd) else .error .op
  | 2 => .ok (.mma src f grd)
  | 3 => .ok (.mmaq src f grd)
  | 4 => if f = 0 then .ok (.mzero src grd) else .error .op
  | 5 => if f = 0 then .ok (.mrd src grd) else .error .op
  | 6 => if f = 0 then .ok (.mscl src grd) else .error .op
  | _ => .error .op

/-- Operation codes of d (R101). -/
def decD (src : BitVec 9) (grd : BitVec 6) : Nat → Except DecErr Instr
  | 0 => .ok (.cpy2d src grd)
  | 1 => .ok (.cpym src grd)
  | 2 => .ok (.gath src grd)
  | 3 => .ok (.scat src grd)
  | 4 => .ok (.fill src grd)
  | 5 => .ok (.kvs src grd)
  | 6 => .ok (.kvapp src grd)
  | 7 => .ok (.kvfork src grd)
  | 8 => .ok (.kvdrop src grd)
  | 9 => .ok (.nrf src grd)
  | 10 => .ok (.prism src grd)
  | 11 => .ok (.migr src grd)
  | 12 => .ok (.enq src grd)
  | 13 => .ok (.mreb src grd)
  | 14 => .ok (.score src grd)
  | 15 => .ok (.rfill src grd)
  | _ => .error .op

/-- Operation codes of ps (R101). -/
def decPs (src : BitVec 9) (grd : BitVec 6) : Nat → Except DecErr Instr
  | 0 => .ok (.pslook src grd)
  | 1 => .ok (.psdep src grd)
  | 2 => .ok (.psrel src grd)
  | 3 => .ok (.pspin src grd)
  | _ => .error .op

/-- Operation codes of lp (R101). -/
def decLp (src : BitVec 9) (grd : BitVec 6) : Nat → Except DecErr Instr
  | 0 => .ok (.lpsub src grd)
  | 1 => .ok (.lpdep src grd)
  | 2 => .ok (.lpres src grd)
  | 3 => .ok (.lprb src grd)
  | 4 => .ok (.lpset src grd)
  | _ => .error .op

/-- Operation codes of bq (R101). -/
def decBq (src : BitVec 9) (grd : BitVec 6) : Nat → Except DecErr Instr
  | 0 => .ok (.bqpush src grd)
  | 1 => .ok (.bqpop src grd)
  | 2 => .ok (.bqreq src grd)
  | _ => .error .op

/-- Operation codes of sys (R101). -/
def decSys (src : BitVec 9) (grd : BitVec 6) : Nat → Except DecErr Instr
  | 0 => .ok (.tlbinv src grd)
  | 1 => .ok (.ptwfence src grd)
  | 2 => .ok (.replay src grd)
  | 3 => .ok (.logrd src grd)
  | 4 => .ok (.ctxsave src grd)
  | 5 => .ok (.ctxload src grd)
  | 6 => .ok (.freezem src grd)
  | 7 => .ok (.dispq src grd)
  | 8 => .ok (.halt src grd)
  | _ => .error .op

/-- Operation codes of ra (R101, R168). -/
def decRa (src : BitVec 9) (grd : BitVec 6) (opc : Nat) : Except DecErr Instr :=
  if fld opc 0 0 = 0 then .ok (.ldacq src (BitVec.ofNat 4 (fld opc 7 4)) (BitVec.ofNat 3 (fld opc 3 1)) grd)
  else .ok (.strel src (BitVec.ofNat 4 (fld opc 7 4)) (BitVec.ofNat 3 (fld opc 3 1)) grd)

/-- Operation codes of fe (R101, R168): FENCE at scope 7 is SVFENCE (R184). -/
def decFe (src : BitVec 9) (grd : BitVec 6) (opc : Nat) : Except DecErr Instr :=
  if fld opc 7 6 != 0 then .error .op
  else
    match fld opc 5 3 with
    | 0 => if fld opc 2 0 = 7 then .ok (.svfence src grd) else .ok (.fence src (BitVec.ofNat 3 (fld opc 2 0)) grd)
    | 1 => .ok (.fencew src (BitVec.ofNat 3 (fld opc 2 0)) grd)
    | 2 => .ok (.swfence src (BitVec.ofNat 3 (fld opc 2 0)) grd)
    | _ => .error .op

/-- A scalar move slot (R92, R95): the classes are tested in the order of R117. -/
def decodeM (w : Nat) : Except DecErr Instr :=
  let src := fld w 31 23
  let dst := fld w 22 14
  let opc := fld w 13 6
  let grd := fld w 5 0
  let s : BitVec 9 := BitVec.ofNat 9 src
  let g : BitVec 6 := BitVec.ofNat 6 grd
  let b : BitVec 4 := BitVec.ofNat 4 (fld opc 7 4)
  if !guardOk grd then .error .bundle
  else if !srcOkM src then .error .latch
  else if dstOkM dst then (if opc = 0 then .ok (.move false s (BitVec.ofNat 9 dst) g) else .error .op)
  else if dst < 0x0C0 || 0x0D2 < dst then .error .latch
  else if dst ≤ 0x0C1 then decAlu s (BitVec.ofNat 1 (dst - 0x0C0)) (BitVec.ofNat 1 (fld opc 7 7)) g (fld opc 6 0)
  else if dst = 0x0C2 then decAu s b g (fld opc 3 0)
  else if dst = 0x0C3 then decC s g opc
  else if dst ≤ 0x0C7 then decL s (BitVec.ofNat 2 (dst - 0x0C4)) b g (fld opc 3 0)
  else if dst ≤ 0x0CB then decAt s (BitVec.ofNat 2 (dst - 0x0C8)) b g (fld opc 3 0)
  else if dst = 0x0CC then decRa s g opc
  else if dst = 0x0CD then decFe s g opc
  else if dst = 0x0CE then decD s g opc
  else if dst = 0x0CF then decPs s g opc
  else if dst = 0x0D0 then decLp s g opc
  else if dst = 0x0D1 then decBq s g opc
  else decSys s g opc

/-- A vector move slot (R92, R96). -/
def decodeW (w : Nat) : Except DecErr Instr :=
  let src := fld w 31 23
  let dst := fld w 22 14
  let opc := fld w 13 6
  let grd := fld w 5 0
  let s : BitVec 9 := BitVec.ofNat 9 src
  let g : BitVec 6 := BitVec.ofNat 6 grd
  if !guardOk grd then .error .bundle
  else if !srcOkW src then .error .latch
  else if dstOkW dst then (if opc = 0 then .ok (.move true s (BitVec.ofNat 9 dst) g) else .error .op)
  else if dst = 0x0C0 then decV s (BitVec.ofNat 3 (fld opc 2 0)) g (fld opc 7 3)
  else if dst = 0x0C1 then decX s (BitVec.ofNat 4 (fld opc 3 0)) g (fld opc 7 4)
  else if dst = 0x0C2 then decMat s (BitVec.ofNat 4 (fld opc 3 0)) g (fld opc 7 4)
  else .error .latch

/-- The sync slot (R99): unused fields must be 0, and SELF 1 where the op names no core. -/
def decodeSync (w : Nat) : Except DecErr Instr :=
  let idx := fld w 27 20
  let cnt := fld w 19 12
  let self := fld w 11 11
  let r := fld w 10 6
  let grd := fld w 5 0
  let i : BitVec 8 := BitVec.ofNat 8 idx
  let g : BitVec 6 := BitVec.ofNat 6 grd
  let plain := self = 1 && r = 0
  if !guardOk grd then .error .bundle
  else
    match fld w 31 28 with
    | 1 => if idx < 32 && plain then .ok (.waitf i (BitVec.ofNat 8 cnt) g) else .error .op
    | 2 => if idx < 32 && (self = 0 || r = 0) then .ok (.postf i (BitVec.ofNat 8 cnt) (BitVec.ofNat 1 self) (BitVec.ofNat 5 r) g) else .error .op
    | 4 => if cnt = 0 && plain then .ok (.waite i g) else .error .op
    | 5 => if cnt = 0 && plain then .ok (.sete i g) else .error .op
    | 6 => if cnt = 0 && plain then .ok (.clre i g) else .error .op
    | 7 => if cnt = 0 && plain then .ok (.waitt i g) else .error .op
    | 8 => if idx < 4 && cnt = 0 && plain then .ok (.barg i g) else .error .op
    | 9 => if idx < 4 && cnt = 0 && plain then .ok (.barq i g) else .error .op
    | 10 => if idx < 8 && cnt = 0 && plain then .ok (.waitl i g) else .error .op
    | _ => .error .op

/-- The K slot (R100). -/
def decodeK (w : Nat) : Except DecErr Instr :=
  let k : BitVec 5 := BitVec.ofNat 5 (fld w 27 23)
  let b : BitVec 4 := BitVec.ofNat 4 (fld w 22 19)
  let o : BitVec 13 := BitVec.ofNat 13 (fld w 18 6)
  let g : BitVec 6 := BitVec.ofNat 6 (fld w 5 0)
  if !guardOk (fld w 5 0) then .error .bundle
  else
    match fld w 31 28 with
    | 0 => .ok (.ldk k b o g)
    | 1 => .ok (.ldk1 k b o g)
    | 2 => if fld w 22 11 = 0 then .ok (.mvk k (BitVec.ofNat 5 (fld w 10 6)) g) else .error .op
    | 3 => .ok (.stk k b o g)
    | _ => .error .op

/-! ## Bundles -/

/-- A slot of a bundle: its record number (0–7 m0–m7, 8–11 w0–w3, 12 sync, 13 K; R143) and its instruction. -/
structure BSlot where
  pos : Nat
  i : Instr
  deriving DecidableEq, Repr

/-- A bundle (R90): slots in memory order. -/
structure Bundle where
  stop : Bool
  rep : Nat
  stall : Nat
  slots : List BSlot
  limm : U64
  len : Nat
  deriving DecidableEq, Repr

/-- The length of a bundle from its header (R91). -/
def bundleLen (h : Nat) : Nat :=
  4 * (1 + fld h 8 8 + fld h 7 7 + ((List.range 12).filter (fun i => bitAt h (19 + i))).length) + 8 * fld h 6 6

/-- The record numbers of the slots a header declares, in memory order (R91). -/
def slotOrder (h : Nat) : List Nat :=
  (if bitAt h 8 then [12] else []) ++ (if bitAt h 7 then [13] else [])
    ++ (List.range 8).filter (fun i => bitAt h (23 + i)) ++ ((List.range 4).filter (fun i => bitAt h (19 + i))).map (fun i => 8 + i)

/-- The decoder of the slot with a record number. -/
def decodeAt (pos w : Nat) : Except DecErr Instr :=
  if pos < 8 then decodeM w else if pos < 12 then decodeW w else if pos = 12 then decodeSync w else decodeK w

/-- What a word names as its one destination or unit, for the duplicate rule of R116, whatever else is wrong with it:
the bus and destination code, alias copies of l and at as one unit. -/
def destKey (pos w : Nat) : Option (Nat × Nat) :=
  let d := fld w 22 14
  if pos < 8 then some (0, if 0x0C4 ≤ d ∧ d ≤ 0x0C7 then 0x0C4 else if 0x0C8 ≤ d ∧ d ≤ 0x0CB then 0x0C8 else d)
  else if pos < 12 then some (1, d) else none

/-- The first slot in memory order whose destination an earlier slot names. -/
def firstDup : List (Nat × Nat) → List (Nat × Nat) → Option Nat
  | _, [] => none
  | seen, (p, w) :: r =>
    match destKey p w with
    | none => firstDup seen r
    | some k => if seen.contains k then some p else firstDup (k :: seen) r

/-- The first slot that fails under one fault class. -/
def firstErr (e : DecErr) : List (Nat × Nat) → Option Nat
  | [] => none
  | (p, w) :: r =>
    match decodeAt p w with
    | .error e' => if e' = e then some p else firstErr e r
    | .ok _ => firstErr e r

def okSlots : List (Nat × Nat) → List BSlot
  | [] => []
  | (p, w) :: r =>
    match decodeAt p w with
    | .ok i => { pos := p, i := i } :: okSlots r
    | .error _ => okSlots r

/-- The 32-bit words of a byte list. -/
def words32 : List Byte → List Nat
  | a :: b :: c :: d :: r => ofBytes [a, b, c, d] :: words32 r
  | _ => []

/-- The first slot that triggers c (R112). -/
def firstC : List (Nat × Nat) → Option Nat
  | [] => none
  | (p, w) :: r => if p < 8 ∧ fld w 22 14 = 0x0C3 then some p else firstC r

/-- A bundle whose bytes are all present (R90, R91), or its decode fault with the slot it is reported at (R116, R117). -/
def decodeBundle (bs : List Byte) : Except (DecErr × Nat) Bundle :=
  let ws := words32 bs
  let h := ws.headD 0
  let order := slotOrder h
  let sl := order.zip ws.tail
  let limm : U64 := if bitAt h 6 then u64 (ofBytes ((bs.drop (4 * (1 + order.length))).take 8)) else 0
  if fld h 5 0 != 0 then .error (.bundle, 15)
  else
    -- within the class illegal-bundle, the slot first in memory order
    let bad := (sl.filter (fun p => firstErr .bundle [p] != none || firstDup [] (sl.takeWhile (fun q => q.1 != p.1) ++ [p]) = some p.1
      || (fld h 18 13 != 0 && firstC [p] != none))).map Prod.fst
    match bad with
    | p :: _ => .error (.bundle, p)
    | [] =>
      match firstErr .latch sl with
      | some p => .error (.latch, p)
      | none =>
        match firstErr .op sl with
        | some p => .error (.op, p)
        | none => .ok { stop := bitAt h 31, rep := fld h 18 13, stall := fld h 12 9, slots := okSlots sl, limm := limm, len := bundleLen h }

/-- The bundle of one slot and nothing else. -/
def oneSlot (i : Instr) : Bundle :=
  let pos := match i.kind with
    | .m => 0
    | .w => 8
    | .sync => 12
    | .k => 13
    | .event => 15
  { stop := false, rep := 0, stall := 0, slots := [{ pos := pos, i := i }], limm := 0, len := 8 }

/-- The header of a bundle of one slot (R90). -/
def oneHeader (i : Instr) : Nat :=
  match i.kind with
  | .m => 2 ^ 23
  | .w => 2 ^ 19
  | .sync => 2 ^ 8
  | .k => 2 ^ 7
  | .event => 0

/-! ## The words of the opcode table -/

def exceptOpt : Except DecErr Instr → Option Instr
  | .ok i => some i
  | .error _ => none

/-- The instruction of a slot word on its own. A bundle's header says on which bus a word stands (R90), and one word can be an
instruction on several buses; a word without a header is read as an m slot if it is an instruction there, else as a w slot, a sync
slot, a K slot (log 40). -/
def decodeTableWord (nbits w : Nat) : Option Instr :=
  if nbits = 32 then
    match exceptOpt (decodeM w) with
    | some i => some i
    | none =>
      match exceptOpt (decodeW w) with
      | some i => some i
      | none =>
        match exceptOpt (decodeSync w) with
        | some i => some i
        | none => exceptOpt (decodeK w)
  else none

/-! ## The encoder -/

/-- A move slot's word (R92). -/
def moveWord (src : BitVec 9) (dst opc : Nat) (grd : BitVec 6) : Nat := src.toNat * 2 ^ 23 + dst * 2 ^ 14 + opc * 2 ^ 6 + grd.toNat
/-- A sync slot's word (R99). -/
def syncWord (op i c self r : Nat) (grd : BitVec 6) : Nat :=
  op * 2 ^ 28 + i * 2 ^ 20 + c * 2 ^ 12 + self * 2 ^ 11 + r * 2 ^ 6 + grd.toNat
/-- A K slot's word (R100). -/
def kWord (op : Nat) (k : BitVec 5) (b o : Nat) (grd : BitVec 6) : Nat := op * 2 ^ 28 + k.toNat * 2 ^ 23 + b * 2 ^ 19 + o * 2 ^ 6 + grd.toNat

/-- The slot word of an instruction; a step that is no slot has none and gives 0. -/
def encode : Instr → Nat
  | .add src u w grd => moveWord src (0x0C0 + u.toNat) (w.toNat * 128 + 0) grd
  | .sub src u w grd => moveWord src (0x0C0 + u.toNat) (w.toNat * 128 + 1) grd
  | .and src u w grd => moveWord src (0x0C0 + u.toNat) (w.toNat * 128 + 2) grd
  | .or src u w grd => moveWord src (0x0C0 + u.toNat) (w.toNat * 128 + 3) grd
  | .xor src u w grd => moveWord src (0x0C0 + u.toNat) (w.toNat * 128 + 4) grd
  | .andn src u w grd => moveWord src (0x0C0 + u.toNat) (w.toNat * 128 + 5) grd
  | .shl src u w grd => moveWord src (0x0C0 + u.toNat) (w.toNat * 128 + 6) grd
  | .shr src u w grd => moveWord src (0x0C0 + u.toNat) (w.toNat * 128 + 7) grd
  | .sar src u w grd => moveWord src (0x0C0 + u.toNat) (w.toNat * 128 + 8) grd
  | .rol src u w grd => moveWord src (0x0C0 + u.toNat) (w.toNat * 128 + 9) grd
  | .ror src u w grd => moveWord src (0x0C0 + u.toNat) (w.toNat * 128 + 10) grd
  | .min src u w grd => moveWord src (0x0C0 + u.toNat) (w.toNat * 128 + 11) grd
  | .max src u w grd => moveWord src (0x0C0 + u.toNat) (w.toNat * 128 + 12) grd
  | .minu src u w grd => moveWord src (0x0C0 + u.toNat) (w.toNat * 128 + 13) grd
  | .maxu src u w grd => moveWord src (0x0C0 + u.toNat) (w.toNat * 128 + 14) grd
  | .clz src u w grd => moveWord src (0x0C0 + u.toNat) (w.toNat * 128 + 15) grd
  | .ctz src u w grd => moveWord src (0x0C0 + u.toNat) (w.toNat * 128 + 16) grd
  | .popc src u w grd => moveWord src (0x0C0 + u.toNat) (w.toNat * 128 + 17) grd
  | .mul src u w grd => moveWord src (0x0C0 + u.toNat) (w.toNat * 128 + 18) grd
  | .mulhs src u w grd => moveWord src (0x0C0 + u.toNat) (w.toNat * 128 + 19) grd
  | .mulhu src u w grd => moveWord src (0x0C0 + u.toNat) (w.toNat * 128 + 20) grd
  | .divs src u w grd => moveWord src (0x0C0 + u.toNat) (w.toNat * 128 + 21) grd
  | .divu src u w grd => moveWord src (0x0C0 + u.toNat) (w.toNat * 128 + 22) grd
  | .rems src u w grd => moveWord src (0x0C0 + u.toNat) (w.toNat * 128 + 23) grd
  | .remu src u w grd => moveWord src (0x0C0 + u.toNat) (w.toNat * 128 + 24) grd
  | .addsat src u w grd => moveWord src (0x0C0 + u.toNat) (w.toNat * 128 + 25) grd
  | .subsat src u w grd => moveWord src (0x0C0 + u.toNat) (w.toNat * 128 + 26) grd
  | .clmul src u w grd => moveWord src (0x0C0 + u.toNat) (w.toNat * 128 + 27) grd
  | .clmulh src u w grd => moveWord src (0x0C0 + u.toNat) (w.toNat * 128 + 28) grd
  | .pxor src u w grd => moveWord src (0x0C0 + u.toNat) (w.toNat * 128 + 29) grd
  | .pext src u w grd => moveWord src (0x0C0 + u.toNat) (w.toNat * 128 + 30) grd
  | .pdep src u w grd => moveWord src (0x0C0 + u.toNat) (w.toNat * 128 + 31) grd
  | .sext src u w grd => moveWord src (0x0C0 + u.toNat) (w.toNat * 128 + 32) grd
  | .zext src u w grd => moveWord src (0x0C0 + u.toNat) (w.toNat * 128 + 33) grd
  | .eq src u w grd => moveWord src (0x0C0 + u.toNat) (w.toNat * 128 + 34) grd
  | .ne src u w grd => moveWord src (0x0C0 + u.toNat) (w.toNat * 128 + 35) grd
  | .lt src u w grd => moveWord src (0x0C0 + u.toNat) (w.toNat * 128 + 36) grd
  | .le src u w grd => moveWord src (0x0C0 + u.toNat) (w.toNat * 128 + 37) grd
  | .ltu src u w grd => moveWord src (0x0C0 + u.toNat) (w.toNat * 128 + 38) grd
  | .leu src u w grd => moveWord src (0x0C0 + u.toNat) (w.toNat * 128 + 39) grd
  | .hmix src u w grd => moveWord src (0x0C0 + u.toNat) (w.toNat * 128 + 40) grd
  | .bswap src u w grd => moveWord src (0x0C0 + u.toNat) (w.toNat * 128 + 41) grd
  | .pass src u w grd => moveWord src (0x0C0 + u.toNat) (w.toNat * 128 + 42) grd
  | .abs src u w grd => moveWord src (0x0C0 + u.toNat) (w.toNat * 128 + 43) grd
  | .setb src b grd => moveWord src 0x0C2 (b.toNat * 16 + 0) grd
  | .addb src b grd => moveWord src 0x0C2 (b.toNat * 16 + 1) grd
  | .seti src b grd => moveWord src 0x0C2 (b.toNat * 16 + 2) grd
  | .setls src b grd => moveWord src 0x0C2 (b.toNat * 16 + 3) grd
  | .setwrap src b grd => moveWord src 0x0C2 (b.toNat * 16 + 4) grd
  | .rdb src b grd => moveWord src 0x0C2 (b.toNat * 16 + 5) grd
  | .settrp src b grd => moveWord src 0x0C2 (b.toNat * 16 + 6) grd
  | .rstb src b grd => moveWord src 0x0C2 (b.toNat * 16 + 7) grd
  | .jmp src grd => moveWord src 0x0C3 0 grd
  | .jmpr src grd => moveWord src 0x0C3 1 grd
  | .call src grd => moveWord src 0x0C3 2 grd
  | .ret src grd => moveWord src 0x0C3 3 grd
  | .exit src grd => moveWord src 0x0C3 16 grd
  | .trap src grd => moveWord src 0x0C3 17 grd
  | .tfence src grd => moveWord src 0x0C3 18 grd
  | .yieldp src grd => moveWord src 0x0C3 19 grd
  | .brk src grd => moveWord src 0x0C3 20 grd
  | .phase src grd => moveWord src 0x0C3 21 grd
  | .rdsr src grd => moveWord src 0x0C3 22 grd
  | .wrsr src grd => moveWord src 0x0C3 23 grd
  | .clrstk src grd => moveWord src 0x0C3 25 grd
  | .idle src grd => moveWord src 0x0C3 26 grd
  | .loop src l grd => moveWord src 0x0C3 (8 + l.toNat) grd
  | .ld8s src a b grd => moveWord src (0x0C4 + a.toNat) (b.toNat * 16 + 0) grd
  | .ld8u src a b grd => moveWord src (0x0C4 + a.toNat) (b.toNat * 16 + 1) grd
  | .ld16s src a b grd => moveWord src (0x0C4 + a.toNat) (b.toNat * 16 + 2) grd
  | .ld16u src a b grd => moveWord src (0x0C4 + a.toNat) (b.toNat * 16 + 3) grd
  | .ld32s src a b grd => moveWord src (0x0C4 + a.toNat) (b.toNat * 16 + 4) grd
  | .ld32u src a b grd => moveWord src (0x0C4 + a.toNat) (b.toNat * 16 + 5) grd
  | .ld64 src a b grd => moveWord src (0x0C4 + a.toNat) (b.toNat * 16 + 6) grd
  | .st8 src a b grd => moveWord src (0x0C4 + a.toNat) (b.toNat * 16 + 7) grd
  | .st16 src a b grd => moveWord src (0x0C4 + a.toNat) (b.toNat * 16 + 8) grd
  | .st32 src a b grd => moveWord src (0x0C4 + a.toNat) (b.toNat * 16 + 9) grd
  | .st64 src a b grd => moveWord src (0x0C4 + a.toNat) (b.toNat * 16 + 10) grd
  | .ldv src a b grd => moveWord src (0x0C4 + a.toNat) (b.toNat * 16 + 11) grd
  | .stv src a b grd => moveWord src (0x0C4 + a.toNat) (b.toNat * 16 + 12) grd
  | .ldvs src a b grd => moveWord src (0x0C4 + a.toNat) (b.toNat * 16 + 13) grd
  | .pref src a b grd => moveWord src (0x0C4 + a.toNat) (b.toNat * 16 + 14) grd
  | .waita src a b grd => moveWord src (0x0C4 + a.toNat) (b.toNat * 16 + 15) grd
  | .aadd src a b grd => moveWord src (0x0C8 + a.toNat) (b.toNat * 16 + 0) grd
  | .asub src a b grd => moveWord src (0x0C8 + a.toNat) (b.toNat * 16 + 1) grd
  | .aand src a b grd => moveWord src (0x0C8 + a.toNat) (b.toNat * 16 + 2) grd
  | .aor src a b grd => moveWord src (0x0C8 + a.toNat) (b.toNat * 16 + 3) grd
  | .axor src a b grd => moveWord src (0x0C8 + a.toNat) (b.toNat * 16 + 4) grd
  | .amin src a b grd => moveWord src (0x0C8 + a.toNat) (b.toNat * 16 + 5) grd
  | .amax src a b grd => moveWord src (0x0C8 + a.toNat) (b.toNat * 16 + 6) grd
  | .aminu src a b grd => moveWord src (0x0C8 + a.toNat) (b.toNat * 16 + 7) grd
  | .amaxu src a b grd => moveWord src (0x0C8 + a.toNat) (b.toNat * 16 + 8) grd
  | .axchg src a b grd => moveWord src (0x0C8 + a.toNat) (b.toNat * 16 + 9) grd
  | .acas src a b grd => moveWord src (0x0C8 + a.toNat) (b.toNat * 16 + 10) grd
  | .aincw src a b grd => moveWord src (0x0C8 + a.toNat) (b.toNat * 16 + 11) grd
  | .afadd src a b grd => moveWord src (0x0C8 + a.toNat) (b.toNat * 16 + 12) grd
  | .abar src a b grd => moveWord src (0x0C8 + a.toNat) (b.toNat * 16 + 13) grd
  | .ldacq src b p grd => moveWord src 0x0CC (b.toNat * 16 + p.toNat * 2) grd
  | .strel src b p grd => moveWord src 0x0CC (b.toNat * 16 + p.toNat * 2 + 1) grd
  | .fence src p grd => moveWord src 0x0CD p.toNat grd
  | .svfence src grd => moveWord src 0x0CD 7 grd
  | .fencew src p grd => moveWord src 0x0CD (8 + p.toNat) grd
  | .swfence src p grd => moveWord src 0x0CD (16 + p.toNat) grd
  | .vadd src t grd => moveWord src 0x0C0 (0 + t.toNat) grd
  | .vsub src t grd => moveWord src 0x0C0 (8 + t.toNat) grd
  | .vmul src t grd => moveWord src 0x0C0 (16 + t.toNat) grd
  | .vmad src t grd => moveWord src 0x0C0 (24 + t.toNat) grd
  | .vmin src t grd => moveWord src 0x0C0 (32 + t.toNat) grd
  | .vmax src t grd => moveWord src 0x0C0 (40 + t.toNat) grd
  | .vabs src t grd => moveWord src 0x0C0 (48 + t.toNat) grd
  | .vneg src t grd => moveWord src 0x0C0 (56 + t.toNat) grd
  | .vand src t grd => moveWord src 0x0C0 (64 + t.toNat) grd
  | .vor src t grd => moveWord src 0x0C0 (72 + t.toNat) grd
  | .vxor src t grd => moveWord src 0x0C0 (80 + t.toNat) grd
  | .vshl src t grd => moveWord src 0x0C0 (88 + t.toNat) grd
  | .vshr src t grd => moveWord src 0x0C0 (96 + t.toNat) grd
  | .vcmpeq src t grd => moveWord src 0x0C0 (104 + t.toNat) grd
  | .vcmplt src t grd => moveWord src 0x0C0 (112 + t.toNat) grd
  | .vcmple src t grd => moveWord src 0x0C0 (120 + t.toNat) grd
  | .vsel src t grd => moveWord src 0x0C0 (128 + t.toNat) grd
  | .vrcp src t grd => moveWord src 0x0C0 (136 + t.toNat) grd
  | .vrsq src t grd => moveWord src 0x0C0 (144 + t.toNat) grd
  | .vexp2 src t grd => moveWord src 0x0C0 (152 + t.toNat) grd
  | .vlog2 src t grd => moveWord src 0x0C0 (160 + t.toNat) grd
  | .vred src t grd => moveWord src 0x0C0 (168 + t.toNat) grd
  | .vscan src t grd => moveWord src 0x0C0 (176 + t.toNat) grd
  | .vshuf src t grd => moveWord src 0x0C0 (184 + t.toNat) grd
  | .vbcast src t grd => moveWord src 0x0C0 (192 + t.toNat) grd
  | .vpackg src t grd => moveWord src 0x0C0 (200 + t.toNat) grd
  | .vclmul src t grd => moveWord src 0x0C0 (208 + t.toNat) grd
  | .vpxor src t grd => moveWord src 0x0C0 (216 + t.toNat) grd
  | .vtopk src t grd => moveWord src 0x0C0 (224 + t.toNat) grd
  | .vtopkm src t grd => moveWord src 0x0C0 (232 + t.toNat) grd
  | .bmm src t grd => moveWord src 0x0C0 (240 + t.toNat) grd
  | .vmask src t grd => moveWord src 0x0C0 (248 + t.toNat) grd
  | .xq src f grd => moveWord src 0x0C1 (0 + f.toNat) grd
  | .xqs src f grd => moveWord src 0x0C1 (16 + f.toNat) grd
  | .xdq src f grd => moveWord src 0x0C1 (32 + f.toNat) grd
  | .xsc src f grd => moveWord src 0x0C1 (48 + f.toNat) grd
  | .xf2bf src grd => moveWord src 0x0C1 64 grd
  | .xbf2f src grd => moveWord src 0x0C1 80 grd
  | .xf2h src grd => moveWord src 0x0C1 96 grd
  | .xh2f src grd => moveWord src 0x0C1 112 grd
  | .xf2i src grd => moveWord src 0x0C1 128 grd
  | .xi2f src grd => moveWord src 0x0C1 144 grd
  | .xsetf src f grd => moveWord src 0x0C1 (160 + f.toNat) grd
  | .xgetf src f grd => moveWord src 0x0C1 (176 + f.toNat) grd
  | .xld src f grd => moveWord src 0x0C1 (192 + f.toNat) grd
  | .xst src f grd => moveWord src 0x0C1 (208 + f.toNat) grd
  | .wld src f grd => moveWord src 0x0C2 (0 + f.toNat) grd
  | .wclr src grd => moveWord src 0x0C2 16 grd
  | .mma src f grd => moveWord src 0x0C2 (32 + f.toNat) grd
  | .mmaq src f grd => moveWord src 0x0C2 (48 + f.toNat) grd
  | .mzero src grd => moveWord src 0x0C2 64 grd
  | .mrd src grd => moveWord src 0x0C2 80 grd
  | .mscl src grd => moveWord src 0x0C2 96 grd
  | .cpy2d src grd => moveWord src 0x0CE 0 grd
  | .cpym src grd => moveWord src 0x0CE 1 grd
  | .gath src grd => moveWord src 0x0CE 2 grd
  | .scat src grd => moveWord src 0x0CE 3 grd
  | .fill src grd => moveWord src 0x0CE 4 grd
  | .kvs src grd => moveWord src 0x0CE 5 grd
  | .kvapp src grd => moveWord src 0x0CE 6 grd
  | .kvfork src grd => moveWord src 0x0CE 7 grd
  | .kvdrop src grd => moveWord src 0x0CE 8 grd
  | .nrf src grd => moveWord src 0x0CE 9 grd
  | .prism src grd => moveWord src 0x0CE 10 grd
  | .migr src grd => moveWord src 0x0CE 11 grd
  | .enq src grd => moveWord src 0x0CE 12 grd
  | .mreb src grd => moveWord src 0x0CE 13 grd
  | .score src grd => moveWord src 0x0CE 14 grd
  | .rfill src grd => moveWord src 0x0CE 15 grd
  | .pslook src grd => moveWord src 0x0CF 0 grd
  | .psdep src grd => moveWord src 0x0CF 1 grd
  | .psrel src grd => moveWord src 0x0CF 2 grd
  | .pspin src grd => moveWord src 0x0CF 3 grd
  | .lpsub src grd => moveWord src 0x0D0 0 grd
  | .lpdep src grd => moveWord src 0x0D0 1 grd
  | .lpres src grd => moveWord src 0x0D0 2 grd
  | .lprb src grd => moveWord src 0x0D0 3 grd
  | .lpset src grd => moveWord src 0x0D0 4 grd
  | .bqpush src grd => moveWord src 0x0D1 0 grd
  | .bqpop src grd => moveWord src 0x0D1 1 grd
  | .bqreq src grd => moveWord src 0x0D1 2 grd
  | .tlbinv src grd => moveWord src 0x0D2 0 grd
  | .ptwfence src grd => moveWord src 0x0D2 1 grd
  | .replay src grd => moveWord src 0x0D2 2 grd
  | .logrd src grd => moveWord src 0x0D2 3 grd
  | .ctxsave src grd => moveWord src 0x0D2 4 grd
  | .ctxload src grd => moveWord src 0x0D2 5 grd
  | .freezem src grd => moveWord src 0x0D2 6 grd
  | .dispq src grd => moveWord src 0x0D2 7 grd
  | .halt src grd => moveWord src 0x0D2 8 grd
  | .waitf i c grd => syncWord 1 i.toNat c.toNat 1 0 grd
  | .postf i c e r grd => syncWord 2 i.toNat c.toNat e.toNat r.toNat grd
  | .waite i grd => syncWord 4 i.toNat 0 1 0 grd
  | .sete i grd => syncWord 5 i.toNat 0 1 0 grd
  | .clre i grd => syncWord 6 i.toNat 0 1 0 grd
  | .waitt i grd => syncWord 7 i.toNat 0 1 0 grd
  | .barg i grd => syncWord 8 i.toNat 0 1 0 grd
  | .barq i grd => syncWord 9 i.toNat 0 1 0 grd
  | .waitl i grd => syncWord 10 i.toNat 0 1 0 grd
  | .ldk k b o grd => kWord 0 k b.toNat o.toNat grd
  | .ldk1 k b o grd => kWord 1 k b.toNat o.toNat grd
  | .mvk k j grd => kWord 2 k 0 j.toNat grd
  | .stk k b o grd => kWord 3 k b.toNat o.toNat grd
  | .move _ src d grd => moveWord src d.toNat 0 grd
  | .bundleIssue _ => 0
  | .trapEntryDeferredWrite _ => 0
  | .heldSlotIssue _ => 0
  | .resultLatchWrite _ => 0
  | .globalAccessReturn _ _ => 0
  | .specUnitResult _ _ => 0
  | .waitaRecheck _ => 0
  | .mmaResultWrite _ => 0
  | .mmaqResultWrite _ => 0
  | .wldComplete _ => 0
  | .commandBlockRead _ _ => 0
  | .commandStart _ _ => 0
  | .commandComplete _ _ => 0
  | .cpymFollowOn _ _ => 0
  | .enqClaim _ _ => 0
  | .kvStreamHold _ _ => 0
  | .syncWaitSatisfied _ => 0
  | .flagPostArrival _ _ _ => 0
  | .eventBitWrite _ _ _ _ => 0
  | .barrierRelease _ _ _ _ _ => 0
  | .linkFifoWait _ => 0
  | .launchPacket _ _ => 0
  | .nopPacket _ _ => 0
  | .reservedPacket _ _ => 0
  | .launchEligible _ => 0
  | .taskBind _ _ => 0
  | .gangStart _ => 0
  | .launchComplete _ => 0
  | .preemptionDecision _ => 0
  | .checkpointSave _ => 0
  | .launchRestore _ => 0
  | .kill _ => 0
  | .sliceEnd _ => 0
  | .classAging _ => 0
  | .tokenRefill _ => 0
  | .launchOverdue _ => 0
  | .carafeStore _ _ _ => 0
  | .carafeInterlockRelease _ => 0
  | .loupeAdmission _ => 0
  | .loupeCommit _ => 0
  | .baristaRequestServe _ _ _ => 0
  | .bridgeDelivery _ _ => 0
  | .prismReadAtOwner _ => 0
  | .prismDeposit _ => 0
  | .prismAccepted _ _ => 0
  | .pageMove _ _ => 0
  | .mirrorDeltaApply _ _ _ _ => 0
  | .mirrorDeltaAck _ _ => 0
  | .powerWindowCheck _ => 0
  | .gangFreezePropagate _ => 0
  | .fabricFrameFreeze => 0
  | .debugFreeze => 0
  | .slotDeparture _ => 0
  | .frameBoundary => 0
  | .schedFlitReceive _ _ => 0
  | .memFlitReceive _ _ => 0
  | .bounceReceive _ _ => 0
  | .reductionInput _ _ _ => 0
  | .reductionDeadline _ _ => 0
  | .switchTableLoad _ _ => 0
  | .scaleoutMem _ _ => 0
  | .hostWrite _ _ => 0
  | .hostRead _ _ => 0
  | .hostAtomicop _ _ _ _ => 0
  | .regrd => 0
  | .regwr => 0
  | .registerWrite _ _ _ _ => 0
  | .go => 0
  | .fwcommit => 0
  | .start => 0
  | .attestationReport => 0
  | .reatt _ => 0
  | .portAttestation _ _ _ _ => 0
  | .freeze => 0
  | .resume => 0
  | .load _ => 0
  | .viewfinderUnlock _ => 0
  | .viewfinderFreeze => 0
  | .viewfinderRead _ _ _ => 0
  | .idcode => 0
  | .coldStart _ => 0
  | .stageMemory _ => 0
  | .stageCores _ => 0
  | .stageFull => 0
  | .storePerformedAtHome _ _ => 0
  | .cacheEviction _ _ _ => 0
  | .kvsTileReady _ _ _ => 0
  | .streamHoldFall _ _ => 0
  | .prismFaultReturn _ _ => 0
  | .linkFramingAligned _ => 0
  | .haltedCoreReturn _ => 0

/-- The bytes of the bundle that holds one slot: header word and slot word (R91). -/
def oneSlotBytes (i : Instr) : List Byte := toBytes 4 (oneHeader i) ++ toBytes 4 (encode i)

/-- The decoder of an instruction's own slot. -/
def decodeSlot (k : SlotKind) (w : Nat) : Option Instr :=
  match k with
  | .m => exceptOpt (decodeM w)
  | .w => exceptOpt (decodeW w)
  | .sync => exceptOpt (decodeSync w)
  | .k => exceptOpt (decodeK w)
  | .event => none

end Sys2Proof
end

