-- ==== Sys2Proof/Machine/Num.lean ====
section
/-! DEFINITION. Numbers and rounding (chapter 04): exact values, floating-point formats as data, the rounding of R71 and R72, the
block scale UE9M7, and the correctly rounded functions of R196. Arithmetic is exact over the naturals (R9); a result is narrowed
only by `roundNum` and `encode`. -/

set_option linter.unusedVariables false

namespace Sys2Proof.Machine

/-- An exact value: a NaN (signalling or quiet), an infinity, or ± m · 2^e. A zero keeps its sign (R67). -/
inductive Num where
  | nan (sig : Bool)
  | inf (neg : Bool)
  | fin (neg : Bool) (m : Nat) (e : Int)
  deriving DecidableEq, Repr

/-- The rounding modes of R70; `sr u` carries the 8-bit random value of R72. -/
inductive Rnd where
  | rne | rz | ru | rd
  | sr (u : Nat)
  deriving DecidableEq, Repr

/-- A format as R57 and R66 describe it: sign bit, exponent bits, mantissa bits, bias and SPEC. -/
structure Fmt where
  s : Nat
  e : Nat
  m : Nat
  bias : Int
  spec : Nat
  deriving DecidableEq, Repr

def fmtF32 : Fmt := { s := 1, e := 8, m := 23, bias := 127, spec := 1 }
def fmtBF16 : Fmt := { s := 1, e := 8, m := 7, bias := 127, spec := 1 }
def fmtF16 : Fmt := { s := 1, e := 5, m := 10, bias := 15, spec := 1 }

/-- The narrow format that a format register holds (R57). -/
def fmtOf (f : BitVec 32) : Fmt :=
  { s := fld f.toNat 0 0, e := fld f.toNat 3 1, m := fld f.toNat 6 4, bias := signed (fld f.toNat 15 8) 8,
    spec := fld f.toNat 17 16 }

/-- The block size Z of BLK, or 0 for none (R57). -/
def fmtBlk (f : BitVec 32) : Nat :=
  match fld f.toNat 19 18 with
  | 0 => 0
  | 1 => 16
  | 2 => 32
  | _ => 64

/-- The constraints a format register meets (R57). -/
def fmtLegal (x : Nat) : Bool :=
  let s := fld x 0 0
  let e := fld x 3 1
  let m := fld x 6 4
  let sp := fld x 17 16
  decide (2 ≤ s + e + m) && decide (s + e + m ≤ 8) && (sp != 1 || decide (1 ≤ e)) && (sp != 2 || s == 1) && sp != 3
    && fld x 7 7 == 0 && fld x 31 20 == 0

def Fmt.width (f : Fmt) : Nat := f.s + f.e + f.m

/-- Exponent of the least grid spacing. -/
def Fmt.qmin (f : Fmt) : Int := if f.e = 0 then -f.bias else 1 - f.bias - f.m

/-- The top exponent field that encodes finite values. -/
def Fmt.eTop (f : Fmt) : Nat := if f.spec = 1 then 2 ^ f.e - 2 else 2 ^ f.e - 1

/-- Exponent of the grid spacing of the top binade. -/
def Fmt.qtop (f : Fmt) : Int :=
  if f.e = 0 then -f.bias else (if f.eTop = 0 then 1 else (f.eTop : Int)) - f.bias - f.m

/-- max_F in units of 2^qtop (R71). -/
def Fmt.kmax (f : Fmt) : Nat := if f.e = 0 ∨ f.eTop = 0 then 2 ^ f.m - 1 else 2 ^ (f.m + 1) - 1

/-- −lo_F in units of 2^qtop (R71): one more than max_F for a signed integer format under SPEC 0. -/
def Fmt.klow (f : Fmt) : Nat := if f.e = 0 ∧ f.s = 1 ∧ f.spec = 0 then 2 ^ f.m else f.kmax

/-- Whether the format has infinities (R71, R75). -/
def Fmt.hasInf (f : Fmt) : Bool := f.spec == 1 && decide (1 ≤ f.m)

/-- Whether the format has the code −0 (R75). -/
def Fmt.hasNegZero (f : Fmt) : Bool := f.s == 1 && decide (1 ≤ f.e) && f.spec != 2

/-- Whether the format has a NaN code (R76). -/
def Fmt.hasNan (f : Fmt) : Bool := f.spec != 0

/-- n · 2^e / d as a quotient and remainder over a common denominator: (numerator, denominator) of the value divided by 2^q. -/
def scaleQ (n d : Nat) (e q : Int) : Nat × Nat :=
  if q ≤ e then (n <<< (e - q).toNat, d) else (n, d <<< (q - e).toNat)

/-- floor(log2(n/d · 2^e)) for n, d > 0. -/
def log2Q (n d : Nat) (e : Int) : Int :=
  let k : Int := (Nat.log2 n : Int) - (Nat.log2 d : Int)
  let (a, b) := scaleQ n d 0 k
  (if b ≤ a then k else k - 1) + e

/-- The spacing exponent of the extended grid at a magnitude n/d · 2^e (R71, R72). -/
def Fmt.spacing (f : Fmt) (n d : Nat) (e : Int) : Int :=
  if n = 0 ∨ f.e = 0 then f.qmin
  else
    let q := log2Q n d e - f.m
    if q < f.qmin then f.qmin else if f.qtop < q then f.qtop else q

/-- Whether the code of the grid point k · 2^q has lowest bit 0 (the tie rule of RNE, R70). -/
def Fmt.evenCode (f : Fmt) (k : Nat) (q : Int) : Bool :=
  if f.m = 0 ∧ f.e ≠ 0 ∧ k = 1 then (q + f.bias) % 2 == 0 else k % 2 == 0

/-- Step 1 of R71 (and R72 for SR): the magnitude n/d · 2^e rounded to the extended grid, as (k, q) for k · 2^q. -/
def gridRound (f : Fmt) (r : Rnd) (neg : Bool) (n d : Nat) (e : Int) : Nat × Int :=
  let q := f.spacing n d e
  let (a, b) := scaleQ n d e q
  let k := a / b
  let rem := a % b
  let up : Bool :=
    match r with
    | .rne => if b < 2 * rem then true else if 2 * rem = b then !f.evenCode k q else false
    | .rz => false
    | .ru => !neg && rem != 0
    | .rd => neg && rem != 0
    | .sr u => decide (256 * b ≤ 256 * rem + u * b)
  (if up then k + 1 else k, q)

/-- Whether k · 2^q exceeds lim · 2^qtop, for q ≤ qtop. -/
def Fmt.beyond (f : Fmt) (lim k : Nat) (q : Int) : Bool := decide (lim <<< (f.qtop - q).toNat < k)

/-- Rounding to a format (R71): the magnitude n/d · 2^e with sign `neg`, to a value of the format. -/
def roundRat (f : Fmt) (r : Rnd) (neg : Bool) (n d : Nat) (e : Int) : Num :=
  let (k, q) := gridRound f r neg n d e
  let lim := if neg then f.klow else f.kmax
  if f.beyond lim k q then
    if f.hasInf && (match r with | .rne => true | .rz => false | .ru => !neg | .rd => neg | .sr _ => false) then .inf neg
    else .fin neg lim f.qtop
  else .fin neg k q

/-- Rounding of an exact value to a format; NaNs and infinities pass. -/
def roundNum (f : Fmt) (r : Rnd) : Num → Num
  | .fin neg m e => roundRat f r neg m 1 e
  | x => x

/-- The field pair (exponent, mantissa) of the value k · 2^q, a value of the format (R75). -/
def Fmt.fieldsOf (f : Fmt) (k : Nat) (q : Int) : Nat × Nat :=
  let q0 := f.qmin
  let kk := k <<< (q - q0).toNat
  if kk < 2 ^ f.m then (0, kk)
  else
    let l := Nat.log2 kk
    let sh := l - f.m
    (sh + 1, (kk >>> sh) % 2 ^ f.m)

/-- The pattern of a value of an IEEE-like wide format, NaNs canonical (R67). -/
def encWide (f : Fmt) : Num → Nat
  | .nan _ => (2 ^ f.e - 1) * 2 ^ f.m + 2 ^ (f.m - 1)
  | .inf neg => (if neg then 2 ^ (f.e + f.m) else 0) + (2 ^ f.e - 1) * 2 ^ f.m
  | .fin neg k q =>
    let p := f.fieldsOf k q
    (if neg then 2 ^ (f.e + f.m) else 0) + p.1 * 2 ^ f.m + p.2

/-- decode(c, f) of R75; in an IEEE-like wide format a NaN with a clear top mantissa bit is signalling (R67). -/
def decode (f : Fmt) (c0 : Nat) : Num :=
  let w := f.width
  let c := c0 % 2 ^ w
  if f.spec = 2 ∧ c = 2 ^ (w - 1) then .nan false
  else if f.e = 0 then
    if f.s = 1 ∧ bitAt c f.m then .fin true (2 ^ f.m - c % 2 ^ f.m) (-f.bias) else .fin false (c % 2 ^ f.m) (-f.bias)
  else
    let neg := f.s == 1 && bitAt c (w - 1)
    let e := (c / 2 ^ f.m) % 2 ^ f.e
    let m := c % 2 ^ f.m
    if f.spec = 1 ∧ e = 2 ^ f.e - 1 then (if m = 0 ∧ 0 < f.m then .inf neg else .nan (decide (9 ≤ w) && !bitAt m (f.m - 1)))
    else if e = 0 then .fin neg m f.qmin
    else .fin neg (2 ^ f.m + m) ((e : Int) - f.bias - f.m)

def decF32 (x : Nat) : Num := decode fmtF32 x
def encF32 (x : Num) : Nat := encWide fmtF32 (roundNum fmtF32 .rne x)

/-- max_F of the format as a value. -/
def Fmt.maxNum (f : Fmt) : Num := .fin false f.kmax f.qtop

/-- The code of a value of a narrow format after rounding, with the sign rules of R76. -/
def encFinNarrow (f : Fmt) (neg : Bool) (k : Nat) (q : Int) : Nat :=
  if neg ∧ f.s = 0 then 0
  else if k = 0 then (if neg ∧ f.hasNegZero then 2 ^ (f.width - 1) else 0)
  else if f.e = 0 then (if neg then 2 ^ f.width - k <<< (q - f.qmin).toNat else k <<< (q - f.qmin).toNat)
  else
    let p := f.fieldsOf k q
    (if neg then 2 ^ (f.width - 1) else 0) + p.1 * 2 ^ f.m + p.2

/-- The NaN code that R76 gives under SPEC 1 and SPEC 2. -/
def Fmt.nanCode (f : Fmt) : Nat := if f.spec = 2 then 2 ^ (f.width - 1) else 2 ^ (f.e + f.m) - 1

/-- The code of ± max_F or lo_F. -/
def Fmt.limCode (f : Fmt) (neg : Bool) : Nat := encFinNarrow f neg (if neg then f.klow else f.kmax) f.qtop

/-- R76: conversion of NaN to a narrow format: code and invalid. -/
def encNarrowNan (f : Fmt) : Nat × Bool := if f.spec = 0 then (f.limCode false, true) else (f.nanCode, false)

/-- R76: conversion of an infinity to a narrow format: code and invalid. -/
def encNarrowInf (f : Fmt) (neg : Bool) : Nat × Bool :=
  if neg ∧ f.s = 0 ∧ ¬ (f.spec = 1 ∧ f.m = 0) then (0, false)
  else if f.spec = 1 then
    if f.m = 0 then (f.nanCode, true)
    else ((if neg then 2 ^ (f.width - 1) else 0) + (2 ^ f.e - 1) * 2 ^ f.m, false)
  else (f.limCode neg, false)

/-- R71, R72, R76: conversion of ± n/d · 2^e to a narrow format. -/
def encNarrowFin (f : Fmt) (r : Rnd) (neg : Bool) (n d : Nat) (e : Int) : Nat × Bool :=
  match roundRat f r neg n d e with
  | .fin ng k q => (encFinNarrow f ng k q, false)
  | .inf ng => if ng ∧ f.s = 0 then (0, false) else ((if ng then 2 ^ (f.width - 1) else 0) + (2 ^ f.e - 1) * 2 ^ f.m, false)
  | .nan _ => encNarrowNan f

/-! Exact arithmetic. Each operation answers its value and whether the invalid event of R68 occurs. -/

def Num.isSig : Num → Bool
  | .nan s => s
  | _ => false

def Num.isNan : Num → Bool
  | .nan _ => true
  | _ => false

def Num.isNeg : Num → Bool
  | .nan _ => false
  | .inf n => n
  | .fin n _ _ => n

def Num.isZero : Num → Bool
  | .fin _ 0 _ => true
  | _ => false

def Num.neg : Num → Num
  | .nan s => .nan s
  | .inf n => .inf (!n)
  | .fin n m e => .fin (!n) m e

/-- Exact product (R83, R84): 0 × ∞ is an invalid NaN. -/
def Num.mul (x y : Num) : Num × Bool :=
  match x, y with
  | .nan a, .nan b => (.nan false, a || b)
  | .nan a, _ => (.nan false, a)
  | _, .nan b => (.nan false, b)
  | .inf a, .inf b => (.inf (a != b), false)
  | .inf a, .fin b m _ => if m = 0 then (.nan false, true) else (.inf (a != b), false)
  | .fin a m _, .inf b => if m = 0 then (.nan false, true) else (.inf (a != b), false)
  | .fin a m e, .fin b n f => (.fin (a != b) (m * n) (e + f), false)

/-- The sum of two finite values, with the sign of an exact zero under RNE, RZ and RU (R67). -/
def addFin (a : Bool) (m : Nat) (e : Int) (b : Bool) (n : Nat) (f : Int) : Num :=
  if m = 0 then (if n = 0 then .fin (a && b) 0 0 else .fin b n f)
  else if n = 0 then .fin a m e
  else
    let q := if e ≤ f then e else f
    let mm := m <<< (e - q).toNat
    let nn := n <<< (f - q).toNat
    if a = b then .fin a (mm + nn) q
    else if mm = nn then .fin false 0 0
    else if nn < mm then .fin a (mm - nn) q
    else .fin b (nn - mm) q

/-- Exact sum; ∞ − ∞ is an invalid NaN (R68). -/
def Num.add (x y : Num) : Num × Bool :=
  match x, y with
  | .nan a, .nan b => (.nan false, a || b)
  | .nan a, _ => (.nan false, a)
  | _, .nan b => (.nan false, b)
  | .inf a, .inf b => if a = b then (.inf a, false) else (.nan false, true)
  | .inf a, .fin _ _ _ => (.inf a, false)
  | .fin _ _ _, .inf b => (.inf b, false)
  | .fin a m e, .fin b n f => (addFin a m e b n f, false)

/-- x · y + z exactly (VMAD, R193). -/
def Num.fma (x y z : Num) : Num × Bool :=
  let p := Num.mul x y
  let s := Num.add p.1 z
  (s.1, p.2 || s.2)

/-- Compare finite values: x < y on the reals. -/
def ltFin (a : Bool) (m : Nat) (e : Int) (b : Bool) (n : Nat) (f : Int) : Bool :=
  match addFin a m e (!b) n f with
  | .fin s k _ => s && k != 0
  | _ => false

/-- IEEE 754 ordering: false with a NaN. -/
def Num.lt (x y : Num) : Bool :=
  match x, y with
  | .nan _, _ => false
  | _, .nan _ => false
  | .inf a, .inf b => a && !b
  | .inf a, .fin _ _ _ => a
  | .fin _ _ _, .inf b => !b
  | .fin a m e, .fin b n f => ltFin a m e b n f

def Num.eqv (x y : Num) : Bool := !x.isNan && !y.isNan && !Num.lt x y && !Num.lt y x

/-- The order of VMIN and VMAX, with −0 below +0 (R67). -/
def Num.below (x y : Num) : Bool := Num.lt x y || (x.isZero && y.isZero && x.isNeg && !y.isNeg)

/-- R69: conversion to a signed 32-bit integer pattern, with the invalid event. -/
def toI32 (r : Rnd) : Num → Nat × Bool
  | .nan _ => (0, true)
  | .inf neg => (if neg then 2 ^ 31 else 2 ^ 31 - 1, true)
  | .fin neg m e =>
    let f : Fmt := { s := 1, e := 0, m := 64, bias := 0, spec := 0 }
    let k := (gridRound f r neg m 1 e).1
    if neg then (if 2 ^ 31 < k then (2 ^ 31, true) else ((2 ^ 32 - k) % 2 ^ 32, false))
    else (if 2 ^ 31 ≤ k then (2 ^ 31 - 1, true) else (k, false))

/-- The exact value of an integer. -/
def ofInt (x : Int) : Num := .fin (decide (x < 0)) x.natAbs 0

/-! UE9M7 (R80): zero, a finite value, or the NaN-scale. -/

inductive Scale where
  | zero
  | nan
  | fin (m : Nat) (e : Int)
  deriving DecidableEq, Repr

def decScale (c : Nat) : Scale :=
  let e := fld c 15 7
  let m := fld c 6 0
  if e = 0 then .zero else if e = 511 then .nan else .fin (128 + m) ((e : Int) - 262)

/-- decode(c) × σ (R81). -/
def scaled (x : Num) (s : Scale) : Num :=
  match s with
  | .nan => .nan false
  | .zero =>
    match x with
    | .nan a => .nan a
    | .inf _ => .nan false
    | .fin n _ _ => .fin n 0 0
  | .fin m e =>
    match x with
    | .fin n k f => .fin n (k * m) (f + e)
    | y => y

/-- Quantization of a value with a scale (R81, R76): code and invalid. -/
def quantize (f : Fmt) (r : Rnd) (x : Num) (s : Scale) : Nat × Bool :=
  match s with
  | .nan => ((encNarrowNan f).1, (encNarrowNan f).2 || x.isSig)
  | .zero =>
    match x with
    | .nan a => ((encNarrowNan f).1, (encNarrowNan f).2 || a)
    | .inf n => encNarrowInf f n
    | .fin n _ _ => encNarrowFin f .rne n 0 1 0
  | .fin m e =>
    match x with
    | .nan a => ((encNarrowNan f).1, (encNarrowNan f).2 || a)
    | .inf n => encNarrowInf f n
    | .fin n k g => encNarrowFin f r n k m (g - e)

/-- The smallest UE9M7 code whose value is at least n/d · 2^e (n > 0), or 0xFF7F when there is none (R211). -/
def leastScale (n d : Nat) (e : Int) : Nat :=
  let l := log2Q n d e
  if l < -254 then 0x0080
  else
    let (a, b) := scaleQ n d e (l - 7)
    let k := (a + b - 1) / b
    let l2 : Int := if 256 ≤ k then l + 1 else l
    let m := if 256 ≤ k then 0 else k - 128
    if 255 < l2 then 0xFF7F else (l2 + 255).toNat * 128 + m

/-! The correctly rounded functions of R196. The irrational ones are formed to 256 fractional bits before the one rounding. -/

/-- floor(sqrt x), by bits from 2^i down. -/
def isqrtAux (x : Nat) : Nat → Nat → Nat
  | 0, r => if (r + 1) * (r + 1) ≤ x then r + 1 else r
  | i + 1, r => isqrtAux x i (if (r + 2 ^ (i + 1)) * (r + 2 ^ (i + 1)) ≤ x then r + 2 ^ (i + 1) else r)

def isqrt (x : Nat) : Nat := isqrtAux x (Nat.log2 x / 2 + 1) 0

/-- ln 2 to 256 fractional bits, rounded down term by term. -/
def ln2Fix : Nat := (List.range 300).foldl (fun s i => s + 2 ^ 320 / ((i + 1) * 2 ^ (i + 1))) 0 / 2 ^ 64

/-- e^x − 1 series by Horner for x = t/2^256 in [0, 1): the value times 2^256. -/
def expFix (t : Nat) : Nat := (List.range 80).foldr (fun i acc => 2 ^ 256 + acc * t / 2 ^ 256 / (i + 1)) (2 ^ 256)

/-- 2 · atanh(z) for z = t/2^256 in [0, 1/3], times 2^256. -/
def atanhFix (t : Nat) : Nat :=
  let z2 := t * t / 2 ^ 256
  2 * (t * ((List.range 100).foldr (fun i acc => 2 ^ 256 / (2 * i + 1) + acc * z2 / 2 ^ 256) 0) / 2 ^ 256)

/-- 1/a rounded to the format; a finite and nonzero. -/
def rcpFin (f : Fmt) (neg : Bool) (m : Nat) (e : Int) : Num := roundRat f .rne neg 1 m (-e)

/-- 1/√a for a = m · 2^e > 0. -/
def rsqFin (f : Fmt) (m : Nat) (e : Int) : Num :=
  let m2 := if e % 2 = 0 then m else 2 * m
  let e2 := if e % 2 = 0 then e else e - 1
  let r := isqrt (2 ^ 400 / m2)
  let exact := r * r * m2 == 2 ^ 400
  roundRat f .rne false (if exact then 2 * r else 2 * r + 1) 1 (-(e2 / 2) - 201)

/-- 2^a for a = ± m · 2^e. A value far beyond the format's range is replaced by ±4096, which rounds alike. -/
def exp2Fin (f : Fmt) (neg : Bool) (m : Nat) (e : Int) : Num :=
  let big : Bool := m != 0 && decide (12 < log2Q m 1 e)
  let a : Int :=  -- floor(a · 2^256)
    if big then (if neg then -(4096 * 2 ^ 256) else 4096 * 2 ^ 256)
    else
      let (x, y) := scaleQ m 1 e (-256)
      if neg then -((x / y : Nat) : Int) else ((x / y : Nat) : Int)
  let i : Int := a / 2 ^ 256
  let fr : Nat := (a % 2 ^ 256).toNat
  if fr = 0 then roundRat f .rne false 1 1 i
  else roundRat f .rne false (2 * expFix (fr * ln2Fix / 2 ^ 256) + 1) 1 (i - 257)

/-- log2(a) for a = m · 2^e > 0. -/
def log2Fin (f : Fmt) (m : Nat) (e : Int) : Num :=
  let l := Nat.log2 m
  let i : Int := e + l
  if m = 2 ^ l then roundNum f .rne (ofInt i)
  else
    let z := (m - 2 ^ l) * 2 ^ 256 / (m + 2 ^ l)
    let v : Int := i * 2 ^ 256 + ((atanhFix z * 2 ^ 256 / ln2Fix : Nat) : Int)
    roundRat f .rne (decide (v < 0)) (2 * v.natAbs + 1) 1 (-257)

/-! Random bits and hashes (R73, R74, R273). -/

/-- mix64 of R74. -/
def mix64 (k0 : Nat) : Nat :=
  let k := k0 % 2 ^ 64
  let k := (k ^^^ (k >>> 33)) * 0xFF51AFD7ED558CCD % 2 ^ 64
  let k := (k ^^^ (k >>> 33)) * 0xC4CEB9FE1A85EC53 % 2 ^ 64
  k ^^^ (k >>> 33)

/-- fmix32 of R273. -/
def fmix32 (h0 : Nat) : Nat :=
  let h := h0 % 2 ^ 32
  let h := (h ^^^ (h >>> 16)) * 0x85EBCA6B % 2 ^ 32
  let h := (h ^^^ (h >>> 13)) * 0xC2B2AE35 % 2 ^ 32
  h ^^^ (h >>> 16)

/-- The generator's first state for a seed and a linear tile index (R74). -/
def rngSeed (seed0 seed1 : U64) (tid : Nat) : U64 × U64 :=
  let s0 := mix64 (seed0.toNat ^^^ tid)
  let s1 := mix64 (seed1.toNat ^^^ tid ^^^ 0x9E3779B97F4A7C15)
  (u64 s0, if s0 = 0 ∧ s1 = 0 then 1 else u64 s1)

/-- One output of the generator (R74): new state and word. -/
def rngNext (s : U64 × U64) : (U64 × U64) × U64 :=
  let x := s.1 ^^^ (s.1 <<< 23)
  let y := s.2
  let s1 := x ^^^ y ^^^ (x >>> 17) ^^^ (y >>> 26)
  ((y, s1), s1 + y)

/-- The random-bit queue filled from a seed (R74): the generator's next `n` words behind those of a list. -/
def rngFill : Nat → (U64 × U64) → List U64 → (U64 × U64) × List U64
  | 0, g, l => (g, l)
  | n + 1, g, l => rngFill n (rngNext g).1 (l ++ [(rngNext g).2])

/-- u_e of R73: the random byte of element e under the popped word. -/
def rndByte (w : U64) (e : Nat) : Nat :=
  fmix32 ((w.toNat % 2 ^ 32) ^^^ (w.toNat / 2 ^ 32) ^^^ (e * 0x9E3779B9 % 2 ^ 32)) % 256

/-- draw(pos, d) of R273. -/
def draw (seed pos d : Nat) : Nat :=
  fmix32 ((seed % 2 ^ 32) ^^^ (pos * 0x9E3779B9 % 2 ^ 32) ^^^ (d * 0x85EBCA6B % 2 ^ 32)) / 256

end Sys2Proof.Machine
end

