-- ==== Sys2Proof/Machine/Alu.lean ====
section
/-! DEFINITION. The functions of the integer ALUs a0 and a1 (R124 to R127), one per operation code, on n-bit patterns. Each takes
the operand x (a.o), the trigger value y and the width n, and answers an n-bit pattern. -/

set_option linter.unusedVariables false

namespace Sys2Proof.Machine

/-- sat_s of R65, as an n-bit pattern. -/
def satS (x : Int) (n : Nat) : Nat :=
  wrapU (if x < -(2 ^ (n - 1) : Nat) then -(2 ^ (n - 1) : Nat) else if ((2 ^ (n - 1) : Nat) : Int) ≤ x then (2 ^ (n - 1) : Nat) - 1 else x) n

/-- sat_u of R65. -/
def satU (x : Int) (n : Nat) : Nat := if x < 0 then 0 else if ((2 ^ n : Nat) : Int) ≤ x then 2 ^ n - 1 else x.toNat

/-- clmul of R127 over the low n bits of y: a 2n-bit carry-less product. -/
def clmulN (x y n : Nat) : Nat := (List.range n).foldl (fun r i => if bitAt y i then r ^^^ (x <<< i) else r) 0

/-- Prefix XOR of the low n bits (R127, R89), with a carry in. -/
def prefixXor (y n : Nat) (cin : Bool) : Nat :=
  ((List.range n).foldl (fun (p : Nat × Bool) i =>
    let b := p.2 != bitAt y i
    (if b then p.1 + 2 ^ i else p.1, b)) (0, cin)).1

def aluAdd (x y n : Nat) : Nat := (x + y) % 2 ^ n
def aluSub (x y n : Nat) : Nat := (x + (2 ^ n - y % 2 ^ n)) % 2 ^ n
def aluAnd (x y n : Nat) : Nat := (x &&& y) % 2 ^ n
def aluOr (x y n : Nat) : Nat := (x ||| y) % 2 ^ n
def aluXor (x y n : Nat) : Nat := (x ^^^ y) % 2 ^ n
def aluAndn (x y n : Nat) : Nat := (x &&& (2 ^ n - 1 - y % 2 ^ n)) % 2 ^ n
def aluShl (x y n : Nat) : Nat := (x <<< (y % n)) % 2 ^ n
def aluShr (x y n : Nat) : Nat := (x % 2 ^ n) >>> (y % n)
def aluSar (x y n : Nat) : Nat := wrapU (signed x n / (2 ^ (y % n) : Nat)) n
def aluRol (x y n : Nat) : Nat := ((x % 2 ^ n) <<< (y % n) ||| (x % 2 ^ n) >>> (n - y % n)) % 2 ^ n
def aluRor (x y n : Nat) : Nat := ((x % 2 ^ n) >>> (y % n) ||| (x % 2 ^ n) <<< (n - y % n)) % 2 ^ n
def aluMin (x y n : Nat) : Nat := if signed x n ≤ signed y n then x % 2 ^ n else y % 2 ^ n
def aluMax (x y n : Nat) : Nat := if signed x n ≤ signed y n then y % 2 ^ n else x % 2 ^ n
def aluMinu (x y n : Nat) : Nat := if x % 2 ^ n ≤ y % 2 ^ n then x % 2 ^ n else y % 2 ^ n
def aluMaxu (x y n : Nat) : Nat := if x % 2 ^ n ≤ y % 2 ^ n then y % 2 ^ n else x % 2 ^ n
def aluClz (x y n : Nat) : Nat := if y % 2 ^ n = 0 then n else n - 1 - Nat.log2 (y % 2 ^ n)
def aluCtz (x y n : Nat) : Nat := ((List.range n).find? (fun i => bitAt y i)).getD n
def aluPopc (x y n : Nat) : Nat := ((List.range n).filter (fun i => bitAt y i)).length
def aluMul (x y n : Nat) : Nat := (x * y) % 2 ^ n
def aluMulhs (x y n : Nat) : Nat := wrapU (signed x n * signed y n / (2 ^ n : Nat)) n
def aluMulhu (x y n : Nat) : Nat := (x % 2 ^ n) * (y % 2 ^ n) / 2 ^ n

/-- The two cases that R126 defines instead of trapping. -/
def divZero (y n : Nat) : Bool := y % 2 ^ n = 0
def divOvf (x y n : Nat) : Bool := x % 2 ^ n = 2 ^ (n - 1) && y % 2 ^ n = 2 ^ n - 1

def aluDivs (x y n : Nat) : Nat :=
  if divZero y n then 2 ^ n - 1 else if divOvf x y n then 2 ^ (n - 1) else wrapU (Int.tdiv (signed x n) (signed y n)) n
def aluDivu (x y n : Nat) : Nat := if divZero y n then 2 ^ n - 1 else (x % 2 ^ n) / (y % 2 ^ n)
def aluRems (x y n : Nat) : Nat :=
  if divZero y n then x % 2 ^ n else if divOvf x y n then 0 else wrapU (Int.tmod (signed x n) (signed y n)) n
def aluRemu (x y n : Nat) : Nat := if divZero y n then x % 2 ^ n else (x % 2 ^ n) % (y % 2 ^ n)
def aluAddsat (x y n : Nat) : Nat := satS (signed x n + signed y n) n
def aluSubsat (x y n : Nat) : Nat := satS (signed x n - signed y n) n
def aluClmul (x y n : Nat) : Nat := clmulN (x % 2 ^ n) y n % 2 ^ n
def aluClmulh (x y n : Nat) : Nat := clmulN (x % 2 ^ n) y n / 2 ^ n
def aluPxor (x y n : Nat) : Nat := prefixXor y n false
def aluPext (x y n : Nat) : Nat :=
  ((List.range n).foldl (fun (p : Nat × Nat) i => if bitAt y i then (if bitAt x i then p.1 + 2 ^ p.2 else p.1, p.2 + 1) else p) (0, 0)).1
def aluPdep (x y n : Nat) : Nat :=
  ((List.range n).foldl (fun (p : Nat × Nat) i => if bitAt y i then (if bitAt x p.2 then p.1 + 2 ^ i else p.1, p.2 + 1) else p) (0, 0)).1
def aluSext (x y n : Nat) : Nat :=
  if y % 128 = 0 then 0 else if n ≤ y % 128 then x % 2 ^ n else wrapU (signed x (y % 128)) n
def aluZext (x y n : Nat) : Nat := if n ≤ y % 128 then x % 2 ^ n else x % 2 ^ (y % 128)
def aluEq (x y n : Nat) : Nat := if x % 2 ^ n = y % 2 ^ n then 1 else 0
def aluNe (x y n : Nat) : Nat := if x % 2 ^ n = y % 2 ^ n then 0 else 1
def aluLt (x y n : Nat) : Nat := if signed x n < signed y n then 1 else 0
def aluLe (x y n : Nat) : Nat := if signed x n ≤ signed y n then 1 else 0
def aluLtu (x y n : Nat) : Nat := if x % 2 ^ n < y % 2 ^ n then 1 else 0
def aluLeu (x y n : Nat) : Nat := if x % 2 ^ n ≤ y % 2 ^ n then 1 else 0
def aluHmix (x y n : Nat) : Nat := if n = 32 then fmix32 y else mix64 y
def aluBswap (x y n : Nat) : Nat := ofBytes (toBytes (n / 8) y).reverse
def aluPass (x y n : Nat) : Nat := y % 2 ^ n
def aluAbs (x y n : Nat) : Nat := wrapU ((signed y n).natAbs) n

/-- The 64-bit latch value of an n-bit result (R124): the 32-bit form is sign-extended. -/
def aluWiden (r : Nat) (n : Nat) : U64 := if n = 64 then u64 r else BitVec.ofInt 64 (signed r 32)

end Sys2Proof.Machine
end

