-- ==== Sys2Proof/Machine/Vector.lean ====
section
/-! DEFINITION. The functions of the vector unit (R187 to R204), one per operation: from the sampled inputs to the result latches
an operation writes and whether the invalid event of R68 occurred. -/

set_option linter.unusedVariables false

namespace Sys2Proof.Machine

/-- What a vector operation samples (R187, R191): a, b, c, the control word, the active lanes, and for VTOPKM, BMM and VPACKG
the result latches, the eight matrix rows and the lane-group lengths. -/
structure VIn where
  t : Nat
  a : V
  b : V
  c : V
  ctl : U64
  active : Nat
  vr : V
  vr2 : V
  rows : List V
  lgl : BitVec 32

/-- What an operation writes: v.r, v.r2 and v.s, each only where the table of R191 names it, and the invalid event. -/
structure VOut where
  r : Option V := none
  r2 : Option V := none
  s : Option U64 := none
  inv : Bool := false
  deriving DecidableEq, Repr

/-- Element width of a lane type (R188). -/
def ltW (t : Nat) : Nat := if t = 0 ∨ t = 1 ∨ t = 6 then 32 else if t = 4 ∨ t = 5 then 8 else 16
def ltSigned (t : Nat) : Bool := t = 0 || t = 2 || t = 4
def ltFloat (t : Nat) : Bool := t = 6 || t = 7
def ltFmt (t : Nat) : Fmt := if t = 7 then fmtBF16 else fmtF32
def ltN (t : Nat) : Nat := 2048 / ltW t

/-- The elements of a vector under a width, element 0 first. -/
def elems (w : Nat) (v : V) : List Nat := (List.range (2048 / w)).map (fun i => (v.toNat >>> (w * i)) % 2 ^ w)

/-- Element i under a width. -/
def elem (w : Nat) (v : V) (i : Nat) : Nat := (v.toNat >>> (w * i)) % 2 ^ w

/-- A vector from its elements. -/
def packNat (w : Nat) : List Nat → Nat
  | [] => 0
  | x :: r => x % 2 ^ w + 2 ^ w * packNat w r

def pack (w : Nat) (l : List Nat) : V := BitVec.ofNat 2048 (packNat w l)

/-- Whether the lane of element i is active (R190). -/
def VIn.act (x : VIn) (i : Nat) : Bool := bitAt x.active (i * ltW x.t / 32)

def VIn.sat (x : VIn) : Bool := bitAt x.ctl.toNat 63

/-- An element of an integer type as an integer. -/
def ltInt (t e : Nat) : Int := if ltSigned t then signed e (ltW t) else (e : Int)

/-- The narrowing rule of R192. -/
def narrow (x : VIn) (r : Int) : Nat :=
  if x.sat then (if ltSigned x.t then satS r (ltW x.t) else satU r (ltW x.t)) else wrapU r (ltW x.t)

/-- Lane-wise result (R190): an element function over active elements; an inactive element takes c. -/
def elementwise (x : VIn) (f : Nat → Nat → Nat → Nat × Bool) : VOut :=
  let w := ltW x.t
  let rs := (List.range (ltN x.t)).map (fun i =>
    if x.act i then f (elem w x.a i) (elem w x.b i) (elem w x.c i) else (elem w x.c i, false))
  { r := some (pack w (rs.map Prod.fst)), inv := rs.any Prod.snd }

/-- The one rounding of R193. -/
def roundElem (t : Nat) (p : Num × Bool) : Nat × Bool := (encWide (ltFmt t) (roundNum (ltFmt t) .rne p.1), p.2)

def fdec (t e : Nat) : Num := decode (ltFmt t) e

def vAdd (x : VIn) : VOut := elementwise x (fun a b _ =>
  if ltFloat x.t then roundElem x.t (Num.add (fdec x.t a) (fdec x.t b)) else (narrow x (ltInt x.t a + ltInt x.t b), false))
def vSub (x : VIn) : VOut := elementwise x (fun a b _ =>
  if ltFloat x.t then roundElem x.t (Num.add (fdec x.t a) (fdec x.t b).neg) else (narrow x (ltInt x.t a - ltInt x.t b), false))
def vMul (x : VIn) : VOut := elementwise x (fun a b _ =>
  if ltFloat x.t then roundElem x.t (Num.mul (fdec x.t a) (fdec x.t b)) else (narrow x (ltInt x.t a * ltInt x.t b), false))
def vMad (x : VIn) : VOut := elementwise x (fun a b c =>
  if ltFloat x.t then roundElem x.t (Num.fma (fdec x.t a) (fdec x.t b) (fdec x.t c))
  else (narrow x (ltInt x.t a * ltInt x.t b + ltInt x.t c), false))

/-- The smaller (or larger) of two elements by type (R67, R192). -/
def minElem (t : Nat) (mx : Bool) (a b : Nat) : Nat × Bool :=
  if ltFloat t then
    let x := fdec t a
    let y := fdec t b
    if x.isNan || y.isNan then (encWide (ltFmt t) (.nan false), x.isSig || y.isSig)
    else (if (if mx then Num.below x y else Num.below y x) then b else a, false)
  else (if (if mx then ltInt t a < ltInt t b else ltInt t b < ltInt t a) then b else a, false)

def vMin (x : VIn) : VOut := elementwise x (fun a b _ => minElem x.t false a b)
def vMax (x : VIn) : VOut := elementwise x (fun a b _ => minElem x.t true a b)

def vAbs (x : VIn) : VOut := elementwise x (fun a _ _ =>
  if ltFloat x.t then
    (if (fdec x.t a).isNan then (encWide (ltFmt x.t) (.nan false), (fdec x.t a).isSig) else (a % 2 ^ (ltW x.t - 1), false))
  else (narrow x ((ltInt x.t a).natAbs : Nat), false))
def vNeg (x : VIn) : VOut := elementwise x (fun a _ _ =>
  if ltFloat x.t then
    (if (fdec x.t a).isNan then (encWide (ltFmt x.t) (.nan false), (fdec x.t a).isSig)
     else ((a + 2 ^ (ltW x.t - 1)) % 2 ^ ltW x.t, false))
  else (narrow x (-(ltInt x.t a)), false))

def vAnd (x : VIn) : VOut := elementwise x (fun a b _ => (a &&& b, false))
def vOr (x : VIn) : VOut := elementwise x (fun a b _ => (a ||| b, false))
def vXor (x : VIn) : VOut := elementwise x (fun a b _ => (a ^^^ b, false))
def vShl (x : VIn) : VOut := elementwise x (fun a b _ => (narrow x (ltInt x.t a * (2 ^ (b % ltW x.t) : Nat)), false))
def vShr (x : VIn) : VOut := elementwise x (fun a b _ => (wrapU (ltInt x.t a / (2 ^ (b % ltW x.t) : Nat)) (ltW x.t), false))

/-- A comparison's result: all ones or zero, v.s the number of active true elements (R195). -/
def compareOp (x : VIn) (p : Nat → Nat → Bool) : VOut :=
  let w := ltW x.t
  let sig := fun a b => ltFloat x.t && ((fdec x.t a).isSig || (fdec x.t b).isSig)
  let o := elementwise x (fun a b _ => (if p a b then 2 ^ w - 1 else 0, sig a b))
  let n := ((List.range (ltN x.t)).filter (fun i => x.act i && p (elem w x.a i) (elem w x.b i))).length
  { o with s := some (u64 n) }

def vCmpeq (x : VIn) : VOut := compareOp x (fun a b =>
  if ltFloat x.t then Num.eqv (fdec x.t a) (fdec x.t b) else a = b)
def vCmplt (x : VIn) : VOut := compareOp x (fun a b =>
  if ltFloat x.t then Num.lt (fdec x.t a) (fdec x.t b) else ltInt x.t a < ltInt x.t b)
def vCmple (x : VIn) : VOut := compareOp x (fun a b =>
  if ltFloat x.t then Num.lt (fdec x.t a) (fdec x.t b) || Num.eqv (fdec x.t a) (fdec x.t b) else ltInt x.t a ≤ ltInt x.t b)
def vSel (x : VIn) : VOut := elementwise x (fun a b c => (if c ≠ 0 then a else b, false))

/-- Encode the special and the finite cases of a function of R196. -/
def transElem (t : Nat) (a : Nat) (f : Num → Num × Bool) : Nat × Bool :=
  match fdec t a with
  | .nan s => (encWide (ltFmt t) (.nan false), s)
  | y => let p := f y; (encWide (ltFmt t) p.1, p.2)

def vRcp (x : VIn) : VOut := elementwise x (fun a _ _ => transElem x.t a (fun y =>
  match y with
  | .inf n => (.fin n 0 0, false)
  | .fin n 0 _ => (.inf n, false)
  | .fin n m e => (rcpFin (ltFmt x.t) n m e, false)
  | z => (z, false)))
def vRsq (x : VIn) : VOut := elementwise x (fun a _ _ => transElem x.t a (fun y =>
  match y with
  | .inf n => if n then (.nan false, true) else (.fin false 0 0, false)
  | .fin n 0 _ => (.inf n, false)
  | .fin n m e => if n then (.nan false, true) else (rsqFin (ltFmt x.t) m e, false)
  | z => (z, false)))
def vExp2 (x : VIn) : VOut := elementwise x (fun a _ _ => transElem x.t a (fun y =>
  match y with
  | .inf n => if n then (.fin false 0 0, false) else (.inf false, false)
  | .fin n m e => (exp2Fin (ltFmt x.t) n m e, false)
  | z => (z, false)))
def vLog2 (x : VIn) : VOut := elementwise x (fun a _ _ => transElem x.t a (fun y =>
  match y with
  | .inf n => if n then (.nan false, true) else (.inf false, false)
  | .fin _ 0 _ => (.inf true, false)
  | .fin n m e => if n then (.nan false, true) else (log2Fin (ltFmt x.t) m e, false)
  | z => (z, false)))

/-! Reductions and scans (R87, R88, R197, R198). -/

/-- One application of the operation that ROP names, with its rounding or narrowing. -/
def ropApply (x : VIn) (rop a b : Nat) : Nat × Bool :=
  match rop with
  | 0 => if ltFloat x.t then roundElem x.t (Num.add (fdec x.t a) (fdec x.t b)) else (narrow x (ltInt x.t a + ltInt x.t b), false)
  | 1 => minElem x.t false a b
  | 2 => minElem x.t true a b
  | 3 => (a &&& b, false)
  | 4 => (a ||| b, false)
  | _ => (a ^^^ b, false)

/-- The empty value of R197. -/
def ropEmpty (t rop : Nat) : Nat :=
  match rop with
  | 1 => if ltFloat t then encWide (ltFmt t) (.inf false) else if ltSigned t then 2 ^ (ltW t - 1) - 1 else 2 ^ ltW t - 1
  | 2 => if ltFloat t then encWide (ltFmt t) (.inf true) else if ltSigned t then 2 ^ (ltW t - 1) else 0
  | 3 => 2 ^ ltW t - 1
  | _ => 0

/-- combine of R87 on possibly inactive nodes; the flag rides with the value. -/
def redCombine (x : VIn) (rop : Nat) (a b : Option (Nat × Bool)) : Option (Nat × Bool) :=
  match a, b with
  | none, y => y
  | y, none => y
  | some p, some q => let r := ropApply x rop p.1 q.1; some (r.1, p.2 || q.2 || r.2)

/-- One level of the tree: neighbours combined, the lower-indexed on the left. -/
def redLevel (x : VIn) (rop : Nat) : List (Option (Nat × Bool)) → List (Option (Nat × Bool))
  | a :: b :: r => redCombine x rop a b :: redLevel x rop r
  | r => r

def vRed (x : VIn) : VOut :=
  let w := ltW x.t
  let rop := fld x.ctl.toNat 3 0
  let e0 := (List.range (ltN x.t)).map (fun i => if x.act i then some (elem w x.a i, false) else none)
  let res := ((iter (redLevel x rop) 8 e0).headD none).getD (ropEmpty x.t rop, false)
  { r := some (pack w (List.replicate (ltN x.t) res.1)),
    s := some (if ltSigned x.t then BitVec.ofInt 64 (signed res.1 w) else u64 res.1), inv := res.2 }

/-- One level of the doubling scan, distance d. -/
def scanLevel (x : VIn) (rop d : Nat) (y : List (Nat × Bool)) : List (Nat × Bool) :=
  (List.range y.length).map (fun i =>
    let q := y.getD i (0, false)
    if i < d then q
    else
      let p := y.getD (i - d) (0, false)
      let r := ropApply x rop p.1 q.1
      (r.1, p.2 || q.2 || r.2))

def vScan (x : VIn) : VOut :=
  let w := ltW x.t
  let rop := fld x.ctl.toNat 3 0
  let n := ltN x.t
  let e0 := (List.range n).map (fun i => (if x.act i then elem w x.a i else ropEmpty x.t rop, false))
  let ds := if n = 64 then [1, 2, 4, 8, 16, 32] else if n = 128 then [1, 2, 4, 8, 16, 32, 64] else [1, 2, 4, 8, 16, 32, 64, 128]
  let y := ds.foldl (fun y d => scanLevel x rop d y) e0
  { r := some (pack w ((List.range n).map (fun i => if x.act i then (y.getD i (0, false)).1 else elem w x.c i))),
    inv := (List.range n).any (fun i => x.act i && (y.getD i (0, false)).2) }

/-! Rearrangement (R199), BMM, VPACKG and the top-k list. -/

def vBcast (x : VIn) : VOut :=
  let w := ltW x.t
  let v := elem w x.a (fld x.ctl.toNat 7 0 % ltN x.t)
  elementwise x (fun _ _ _ => (v, false))
def vShuf (x : VIn) : VOut := elementwise x (fun _ b _ => (elem (ltW x.t) x.a (b % ltN x.t), false))

def vClmul (x : VIn) : VOut :=
  let w := ltW x.t
  let o := elementwise x (fun a b _ => (clmulN a b w % 2 ^ w, false))
  let hi := (List.range (ltN x.t)).map (fun i => if x.act i then clmulN (elem w x.a i) (elem w x.b i) w / 2 ^ w else 0)
  { o with r2 := some (pack w hi) }

def vPxor (x : VIn) : VOut :=
  let y := prefixXor x.a.toNat 2048 (bitAt x.ctl.toNat 0)
  { r := some (BitVec.ofNat 2048 y), s := some (if bitAt y 2047 then 1 else 0) }

/-- The key by which top-k values are ordered, larger first (R200). -/
def topKey (t v : Nat) : Int :=
  if t = 6 then
    (if (decF32 v).isNan then -(2 ^ 33) else if bitAt v 31 then -((v % 2 ^ 31 : Nat) : Int) - 1 else (v : Int))
  else ltInt t v

/-- A candidate of R200: value, position and rank. -/
def topOrder (t : Nat) (c : Nat × Nat × Nat) : List Nat := [(2 ^ 34 - topKey t c.1).toNat, c.2.1, c.2.2]

def topkOf (x : VIn) (olds : List (Nat × Nat × Nat)) : VOut :=
  let news := (List.range 64).filterMap (fun i => if bitAt x.active i then some (elem 32 x.a i, elem 32 x.b i, 64 + i) else none)
  let cands := (olds ++ news).filter (fun c => c.2.1 != 0xFFFFFFFF)
  let k := Nat.min (fld x.ctl.toNat 6 0) 64
  let best := (cands.foldl (fun l c => insertRank (topOrder x.t) c l) []).take k
  let pad := 64 - best.length
  let e := if x.t = 6 then 0xFF800000 else if x.t = 0 then 0x80000000 else 0
  { r := some (pack 32 (best.map (fun c => c.1) ++ List.replicate pad e)),
    r2 := some (pack 32 (best.map (fun c => c.2.1) ++ List.replicate pad 0xFFFFFFFF)), s := some (u64 best.length) }

def vTopk (x : VIn) : VOut := topkOf x []
def vTopkm (x : VIn) : VOut := topkOf x ((List.range 64).map (fun i => (elem 32 x.vr i, elem 32 x.vr2 i, i)))

/-- A lane-group length as operations read it (R59). -/
def lglLen (lgl : BitVec 32) (g : Nat) : Nat := Nat.min (fld lgl.toNat (4 * g + 3) (4 * g)) 8

/-- The fused steps of R86: (accumulator pattern, invalid). -/
def bmmChain (init : Nat) (ps : List (Nat × Nat)) : Nat × Bool :=
  ps.foldl (fun (acc : Nat × Bool) p =>
    let s := Num.fma (decF32 p.1) (decF32 p.2) (decF32 acc.1)
    (encF32 s.1, acc.2 || s.2)) (init, false)

def vBmm (x : VIn) : VOut :=
  let rs := (List.range 64).map (fun i =>
    let g := i / 8
    let init := elem 32 x.c i
    if bitAt x.active i then
      bmmChain init ((List.range (lglLen x.lgl g)).map (fun k => (elem 32 (x.rows.getD (i % 8) 0) (8 * g + k), elem 32 x.a (8 * g + k))))
    else (init, false))
  { r := some (pack 32 (rs.map Prod.fst)), inv := rs.any Prod.snd }

def vPackg (x : VIn) : VOut :=
  let live := (List.range 8).filter (fun g => fld x.lgl.toNat (4 * g + 3) (4 * g) != 0)
  let pad := 8 * (8 - live.length)
  { r := some (pack 32 (live.flatMap (fun g => (List.range 8).map (fun i => elem 32 x.a (8 * g + i))) ++ List.replicate pad 0)),
    r2 := some (pack 32 (live.flatMap (fun g => List.replicate 8 (lglLen x.lgl g + 16 * g)) ++ List.replicate pad 0xF0)),
    s := some (u64 live.length) }

/-! Legal lane types (R192 to R204) and control fields (R189). -/

def ltAll (t : Nat) : Bool := t < 8
def ltInteger (t : Nat) : Bool := t < 6
def ltFloatOnly (t : Nat) : Bool := t = 6 || t = 7
def ltClmul (t : Nat) : Bool := t = 1 || t = 3 || t = 5
def ltI32 (t : Nat) : Bool := t = 0
def ltF32 (t : Nat) : Bool := t = 6
def ltTopk (t : Nat) : Bool := t = 6 || t = 0 || t = 1

/-- ROP holds a legal code (R189). -/
def ropLegal (ctl : U64) : Bool := fld ctl.toNat 3 0 < 6
/-- MSEL holds a legal code (R189). -/
def mselLegal (ctl : U64) : Bool := fld ctl.toNat 3 0 < 9

end Sys2Proof.Machine
end

