-- ==== Sys2Proof/Machine/Convert.lean ====
section
/-! DEFINITION. The functions of the converter (R205 to R214): containers and chunks, the control word, block scales, and one
function per conversion from a source vector to 64 results with the invalid event of R68. -/

set_option linter.unusedVariables false

namespace Sys2Proof.Machine

/-- Container bits C of a narrow format (R207). -/
def containerBits (f : BitVec 32) : Nat :=
  let w := (fmtOf f).width
  if 5 ≤ w then 8 else if 3 ≤ w then 4 else 2

/-- NCH for a container of c bits (R207). -/
def nchOf (c : Nat) : Nat := 2048 / (64 * c)

/-! The control word CTRL of R206. -/
def ctrlRM (x : U64) : Nat := fld x.toNat 2 0
def ctrlBreg (x : U64) : Nat := fld x.toNat 7 4
def ctrlAC (x : U64) : Nat := fld x.toNat 9 8
def ctrlCH (x : U64) : Nat := fld x.toNat 15 12
def ctrlKreg (x : U64) : Nat := fld x.toNat 20 16
def ctrlEbase (x : U64) : Nat := fld x.toNat 29 24
def ctrlOff (x : U64) : Int := signed (fld x.toNat 63 32) 32
/-- The reserved bits of CTRL are 0 (R206). -/
def ctrlRsvOk (x : U64) : Bool := fld x.toNat 3 3 = 0 && fld x.toNat 11 10 = 0 && fld x.toNat 23 21 = 0 && fld x.toNat 31 30 = 0

/-- The rounding mode of codes 0 to 3 (R70). -/
def rndOf (c : Nat) : Rnd :=
  match c with
  | 0 => .rne
  | 1 => .rz
  | 2 => .ru
  | _ => .rd

/-- Entry i (mod 64) of a scale register (R54). -/
def kEntry (k : BitVec 1024) (i : Nat) : Nat := fld k.toNat (16 * (i % 64) + 15) (16 * (i % 64))

/-- Replace entry i (mod 64) of a scale register. -/
def kPut (k : BitVec 1024) (i v : Nat) : BitVec 1024 :=
  BitVec.ofNat 1024 (k.toNat - kEntry k i * 2 ^ (16 * (i % 64)) + (v % 2 ^ 16) * 2 ^ (16 * (i % 64)))

/-- The scale of element e of chunk ch (R208); 1.0 with BLK = 0. -/
def elemScale (fm : BitVec 32) (k : BitVec 1024) (ebase ch e : Nat) : Scale :=
  let z := fmtBlk fm
  if z = 0 then .fin 1 0 else decScale (kEntry k (ebase + ch * (64 / z) + e / z))

/-- Container e of chunk ch, C bits each (R207). -/
def chunkGet (v : V) (c ch e : Nat) : Nat := (v.toNat >>> (c * (64 * ch + e))) % 2 ^ c

/-- Write the 64 containers of chunk ch, the other chunks kept. -/
def chunkPut (v : V) (c ch : Nat) (l : List Nat) : V :=
  BitVec.ofNat 2048 (packNat c ((List.range (2048 / c)).map (fun i => if i / 64 = ch then l.getD (i % 64) 0 else (v.toNat >>> (c * i)) % 2 ^ c)))

/-- 64 results and whether any element raised the invalid event. -/
def over64 (f : Nat → Nat × Bool) : List Nat × Bool :=
  let l := (List.range 64).map f
  (l.map Prod.fst, l.any Prod.snd)

/-- XQ (R210): the 64 codes of a chunk. -/
def cvtQ (src : V) (fm : BitVec 32) (rm : Rnd) (k : BitVec 1024) (ebase ch : Nat) : List Nat × Bool :=
  over64 (fun e => quantize (fmtOf fm) rm (decF32 (elem 32 src e)) (elemScale fm k ebase ch e))

/-- XQS (R210): stochastic rounding with the random bytes of one popped word (R73). -/
def cvtQS (src : V) (fm : BitVec 32) (w : U64) (k : BitVec 1024) (ebase ch : Nat) : List Nat × Bool :=
  over64 (fun e => quantize (fmtOf fm) (.sr (rndByte w e)) (decF32 (elem 32 src e)) (elemScale fm k ebase ch e))

/-- XDQ (R210) of 64 containers. -/
def cvtDQ (codes : List Nat) (fm : BitVec 32) (k : BitVec 1024) (ebase ch : Nat) : List Nat :=
  (List.range 64).map (fun e => encF32 (scaled (decode (fmtOf fm) (codes.getD e 0)) (elemScale fm k ebase ch e)))

/-- The scale of one block of F32 patterns (R211). -/
def blockScale (f : Fmt) (xs : List Nat) : Nat :=
  let ns := xs.map decF32
  if ns.any Num.isNan then 0xFF80
  else
    let hasInf := ns.any (fun n => match n with | .inf _ => true | _ => false)
    let amax := ns.foldl (fun (m : Num) n => match n with
      | .fin _ a e => if Num.lt m (.fin false a e) then .fin false a e else m
      | _ => m) (.fin false 0 0)
    match amax with
    | .fin _ 0 _ => if hasInf then 0x7F80 else 0
    | .fin _ a e => if f.kmax = 0 then 0xFF7F else leastScale a f.kmax (e - f.qtop)
    | _ => 0

/-- XSC (R211): the scales of the blocks of the source. -/
def cvtSC (src : V) (fm : BitVec 32) : List Nat :=
  let z := fmtBlk fm
  (List.range (64 / z)).map (fun b => blockScale (fmtOf fm) ((List.range z).map (fun i => elem 32 src (b * z + i))))

/-- The wide conversions of R212. -/
def cvtF2BF (src : V) (rm : Rnd) : List Nat × Bool :=
  over64 (fun e => let x := decF32 (elem 32 src e); (encWide fmtBF16 (roundNum fmtBF16 rm x), x.isSig))
def cvtF2H (src : V) (rm : Rnd) : List Nat × Bool :=
  over64 (fun e => let x := decF32 (elem 32 src e); (encWide fmtF16 (roundNum fmtF16 rm x), x.isSig))
def cvtBF2F (src : V) (ch : Nat) : List Nat × Bool :=
  over64 (fun e => let x := decode fmtBF16 (chunkGet src 16 ch e); (encF32 x, x.isSig))
def cvtH2F (src : V) (ch : Nat) : List Nat × Bool :=
  over64 (fun e => let x := decode fmtF16 (chunkGet src 16 ch e); (encF32 x, x.isSig))
def cvtF2I (src : V) (rm : Rnd) : List Nat × Bool := over64 (fun e => toI32 rm (decF32 (elem 32 src e)))
def cvtI2F (src : V) (rm : Rnd) : List Nat × Bool :=
  over64 (fun e => (encWide fmtF32 (roundNum fmtF32 rm (ofInt (signed (elem 32 src e) 32))), false))

end Sys2Proof.Machine
end

