-- ==== Sys2Proof/Machine/MatArith.lean ====
section
/-! DEFINITION. The arithmetic of the matrix path (R82 to R85, R222, R226, R228, R230): exact block sums, scaled partials and the
accumulation in ascending block order. -/

set_option linter.unusedVariables false

namespace Sys2Proof.Machine

/-- The number P of bit planes of an A format (R82). -/
def planes (fm : BitVec 32) : Nat :=
  let f := fmtOf fm
  if f.e = 0 then f.s + f.m else f.m + 1 + (2 ^ f.e - 2)

/-- nb, the number of blocks of 128 columns (R83), 0 with BLK = 0. -/
def nbOf (fm : BitVec 32) : Nat := if fmtBlk fm = 0 then 0 else 128 / fmtBlk fm

/-- Element A[i][k] of the A-row buffer (R222). -/
def aCode (buf : BitVec 32768) (c i k : Nat) : Nat := (buf.toNat >>> ((128 * i + k) * c)) % 2 ^ c

/-- Element B[k][j] of a block's codes (R223). -/
def bCode (codes : BitVec 65536) (c k j : Nat) : Nat := (codes.toNat >>> ((64 * k + j) * c)) % 2 ^ c

/-- What the products of one block are, for R84: exact finite sum, and which nonfinite cases occur. -/
structure BlockSum where
  anyNan : Bool := false
  zeroInf : Bool := false
  posInf : Bool := false
  negInf : Bool := false
  sum : Option Num := none

def BlockSum.step (s : BlockSum) (a b : Num) : BlockSum :=
  if a.isNan || b.isNan then { s with anyNan := true }
  else
    match Num.mul a b with
    | (.nan _, _) => { s with zeroInf := true }
    | (.inf n, _) => if n then { s with negInf := true } else { s with posInf := true }
    | (.fin n m e, _) =>
      match s.sum with
      | none => { s with sum := some (.fin n m e) }
      | some t => { s with sum := some (Num.add t (.fin n m e)).1 }

/-- The sum of a block's products by R83 and R84: value and invalid. -/
def blockSum (l : List (Num × Num)) : Num × Bool :=
  let s := l.foldl (fun (s : BlockSum) (p : Num × Num) => s.step p.1 p.2) {}
  if s.anyNan || s.zeroInf then (.nan false, s.zeroInf)
  else if s.posInf && s.negInf then (.nan false, true)
  else if s.posInf then (.inf false, false)
  else if s.negInf then (.inf true, false)
  else (s.sum.getD (.fin false 0 0), false)

/-- sb × scaleA × scaleB (R83, R84). -/
def scalePartial (sb : Num × Bool) (sa sc : Scale) : Num × Bool :=
  let z := (sa = .zero || sc = .zero)
  match sb.1 with
  | .nan _ => sb
  | .inf n => if z then (.nan false, true) else if sa = .nan || sc = .nan then (.nan false, sb.2) else (.inf n, sb.2)
  | y => (scaled (scaled y sa) sc, sb.2)

/-- One addition into the accumulator pattern with one rounding. -/
def accAdd (acc : Nat) (p : Num) : Nat × Bool :=
  let s := Num.add (decF32 acc) p
  (encF32 s.1, s.2)

/-- One operand set of an MMA: the A format and buffer, its scale entries, and the block's format, codes and scales. -/
structure MmaOp where
  fa : BitVec 32
  buf : BitVec 32768
  scaleA : Nat → Nat
  fb : BitVec 32
  codes : BitVec 65536
  scales : List Nat

/-- The block loop of R83 for element (i, j), from an accumulator pattern. -/
def mmaElem (o : MmaOp) (i j acc0 : Nat) : Nat × Bool :=
  let ca := containerBits o.fa
  let cb := containerBits o.fb
  let z := if fmtBlk o.fa = 0 then 128 else fmtBlk o.fa
  let nb := 128 / z
  (List.range nb).foldl (fun (acc : Nat × Bool) b =>
    let sb := blockSum ((List.range z).map (fun k =>
      (decode (fmtOf o.fa) (aCode o.buf ca i (b * z + k)), decode (fmtOf o.fb) (bCode o.codes cb (b * z + k) j))))
    if fmtBlk o.fa = 0 then
      let r := accAdd acc.1 sb.1
      (r.1, acc.2 || sb.2 || r.2)
    else
      let p := scalePartial sb (decScale (o.scaleA (i * nb + b))) (decScale (o.scales.getD (64 * b + j) 0))
      let r := accAdd acc.1 (roundNum fmtF32 .rne p.1)
      (r.1, acc.2 || p.2 || r.2)) (acc0, false)

/-- MMA over a whole accumulator tile (R226), rows 0 to 31, for a list of members in order (one for MMA, four for MMAQ, R228). -/
def mmaTile (os : List MmaOp) (acc : List V) : List V × Bool :=
  let rows := (List.range 32).map (fun i =>
    let r := (List.range 64).map (fun j =>
      os.foldl (fun (a : Nat × Bool) o => let x := mmaElem o i j a.1; (x.1, a.2 || x.2)) (elem 32 (acc.getD i 0) j, false))
    (pack 32 (r.map Prod.fst), r.any Prod.snd))
  (rows.map Prod.fst, rows.any Prod.snd)

/-- MRD (R230): row k of a block as 64 F32 patterns. -/
def mrdRow (fb : BitVec 32) (codes : BitVec 65536) (scales : List Nat) (k : Nat) : V :=
  pack 32 ((List.range 64).map (fun j =>
    encF32 (scaled (decode (fmtOf fb) (bCode codes (containerBits fb) k j))
      (if fmtBlk fb = 0 then .fin 1 0 else decScale (scales.getD (64 * (k / fmtBlk fb) + j) 0)))))

/-- NF of R218: some code decodes as an infinity or NaN, or some scale is a NaN-scale. -/
def blockNF (fb : BitVec 32) (codes : BitVec 65536) (scales : List Nat) : Bool :=
  (List.range 128).any (fun k => (List.range 64).any (fun j =>
    match decode (fmtOf fb) (bCode codes (containerBits fb) k j) with
    | .fin _ _ _ => false
    | _ => true)) || scales.any (fun s => decScale s = .nan)

end Sys2Proof.Machine
end

