-- ==== Sys2Proof/Config.lean ====
section
/-! DEFINITION. What an implementation fixes and what the manual leaves open. Every constant here is opaque: it has no body, so
no proof can see its value, and a claim holds whatever it is. Notes: notes/assumptions. -/

namespace Sys2Proof.Config

/-- Latency in cycles of the n-th access or operation of variable latency (R106, R107, R291). Log 3. -/
opaque latency : Nat → Nat

/-- The n-th unspecified byte (R8): the value the machine takes where the manual fixes none. Log 4. -/
opaque freeByte : Nat → Byte

/-- The n-th unspecified choice between two outcomes (R38, R53, R161, R246). Log 4. -/
opaque freeBool : Nat → Bool

/-- The n-th unspecified choice among several values (R8). Log 4. -/
opaque freePick : Nat → Nat

/-- The extra latency of the i-th single-copy-atomic unit of the n-th access (R152). Log 3. -/
opaque unitDelay : Nat → Nat → Nat

/-- A byte of another package's memory at a cycle and a location, where no answer of that package stands: in a KV pool or a share directory there,
and where a read was refused. Log 5. -/
opaque remoteByte : Nat → Nat → Byte

/-- Whether an RMAP package number stands for host memory: no table of the manual maps a virtual address to it. Log 5. -/
opaque isHostPkg : Nat → Bool

/-- Whether the host's root port completes AtomicOps (R178). Log 5. -/
opaque hostAtomics : Bool

/-- What a parity package other than this one holds as the count of a line at a cycle (R335, R336). Log 24. -/
opaque remoteCount : Nat → Nat → Nat

/-- Where another package keeps its range of a Mirror region, whose descriptors stand on that package (R333). Log 24. -/
opaque remotePbase : Nat → Nat → Nat

/-- The schedule tick counter of another package at one of this package's (R4, R329). Log 24. -/
opaque remoteTick : Nat → Nat → Nat

/-- Whether a line of code that a core holds is fetched anew at a cycle, when its memory has been stored to (R115). Log 4. -/
opaque codeNew : Nat → Nat → Bool

/-- The port of a plane's switch that this package is joined to (R367). Log 31. -/
opaque switchPort : Nat → Nat

/-- The package at a port of a plane's switch (R367): the domain's wiring, of which the manual says nothing. Log 30. -/
opaque switchPeer : Nat → Nat → Nat

/-- Fused values (R374, R375, R377): key hash, initial rollback counter, device secret, debug key hash, serial number, IDCODE. -/
opaque keyHash : BitVec 256
opaque rollback0 : BitVec 32
opaque deviceSecret : BitVec 256
opaque dbgKeyHash : BitVec 256
opaque serial : BitVec 64
opaque idcode : BitVec 32

/-- The n-th value of DBGNONCE (R377, cold value "random"). -/
opaque dbgNonce : Nat → U64

/-- SHAKE256 of bytes, cut to 512 bits (R374, R375, R376). Log 6. -/
opaque shake256 : List Byte → BitVec 512

/-- SHAKE256 of (shared secret, both nonces) as the 72 bytes of R376 step 3. -/
opaque shakeKeys : BitVec 256 → BitVec 512 → BitVec 576

/-- Falcon-1024 verification of (public key bytes, message, signature) (R374, R376, R377). Log 6. -/
opaque falconVerify : List Byte → List Byte → List Byte → Bool

/-- Falcon-1024 verification against the key whose digest is fused (R377): (key digest, message, signature). -/
opaque falconVerifyHash : BitVec 256 → List Byte → List Byte → Bool

/-- The Falcon-1024 key pair, private and public, that a seed gives (R375). Log 6. -/
opaque falconKeygen : BitVec 512 → List Byte × List Byte

/-- Falcon-1024 signature of a message by a private key (R375). Log 6. -/
opaque falconSign : List Byte → List Byte → List Byte

/-- The certificate in flash that binds the package's public key to its serial number (R375). Log 6. -/
opaque certificate : List Byte

/-- Whether a switch's identity report, over both nonces, carries a good signature and certificate (R376). Log 106. -/
opaque identityOk : List Byte → BitVec 512 → Bool

/-- The key stream of AES-256-GCM (R370) for a payload under (key, salt, counter). Log 6. -/
opaque gcmStream : BitVec 256 → BitVec 32 → Nat → BitVec 2048

/-- The first 64 bits of the tag of AES-256-GCM (R370): (key, salt, counter, header, ciphered payload). Log 6. -/
opaque gcmTag : BitVec 256 → BitVec 32 → Nat → BitVec 128 → BitVec 2048 → BitVec 64

end Sys2Proof.Config
end

