-- ==== Sys2Proof/Machine/State.lean ====
section
/-! DEFINITION. The state of one KZX-2560 package, as plain data: the cores with their registers, latches and accesses in flight,
the dies with their shared copies and dispatchers, contexts, launches, the speculation complex, the links and the bring-up
registers. Sparse tables hold what is mostly at its cold value; an index that is not listed holds the cold entry. -/

set_option linter.unusedVariables false

namespace Sys2Proof.Machine

/-- Why the machine stops. -/
inductive Fault where
  /-- Raised by a slot of a bundle that is issued on a core which runs no task: there is no issue to give it an effect (R32).
  Safe: no step of the machine issues a slot there. -/
  | noTask
  deriving DecidableEq, Repr

/-- Why an instruction has no meaning here. -/
inductive Refusal where
  /-- Raised for an instruction that the model gives no meaning yet. Safe: the machine stops. -/
  | notModelled (mnemonic : String)
  deriving DecidableEq, Repr

/-! ## A core -/

/-- A base register (R55). -/
structure BaseReg where
  val : U64 := 0
  stp : BitVec 32 := 0
  ls : List U64 := List.replicate 8 0
  wrap : BitVec 32 := 0
  org : U64 := 0
  deriving DecidableEq, Repr

/-- A tile register (R52): 32 rows, row pointer and ready tag. -/
structure TileReg where
  rows : List V := List.replicate 32 0
  ptr : BitVec 5 := 0
  ready : Bool := true
  /-- rows that the thread, and lanes of rows that an engine, have written while the tag is clear (R53) -/
  thr : List (Nat × V) := []
  engw : List (Nat × BitVec 64 × V) := []
  deriving DecidableEq, Repr

/-- A resident weight block and its record (R218). -/
structure WBlock where
  mac : Nat
  unit : Nat
  tag : Nat
  fmt : BitVec 32
  codes : BitVec 65536
  scales : List Nat
  nf : Bool
  src : U64
  cls : Nat
  oc : Bool
  oph : Nat
  opg : Nat
  scl : Bool
  deriving DecidableEq, Repr

/-- The record of an active loop level (R136). -/
structure LoopRec where
  active : Bool := false
  remaining : Nat := 0
  start : Nat := 0
  fin : Nat := 0
  deriving DecidableEq, Repr

/-- The sticky re-issue state of a unit (R110): the last trigger's operation, trigger value and slot, and the walking index of
the converter's chunk or the row of MRD (R209, R230). -/
structure Sticky where
  op : Instr
  tv : V
  slot : Nat
  idx : Nat
  deriving DecidableEq, Repr

/-- Consecutive bytes of an access: offset in its data, length, location. A single-copy-atomic unit (R152) of an access that is not on
the schedule comes about on its own: its extra latency, the package cycle at which its request left for another die or package, and the
bytes it has got, none before it has come about. -/
structure Piece where
  off : Nat
  len : Nat
  loc : Nat
  wait : Nat := 0
  sent : Option Nat := none
  got : Option (List Byte) := none
  deriving DecidableEq, Repr

/-- A memory access of a thread, from its issue until no read can be due for it (R107, R151, R154). -/
structure MOp where
  /-- order of issue on the core -/
  id : Nat
  op : Instr
  slot : Nat
  pc : Nat
  /-- a sticky re-issue (R110) -/
  re : Bool
  /-- result latch: 0 none, 1 l.r, 2 l.vr, 3 at.r, 4 x.r, 5 a weight block, 6 a scale register -/
  latch : Nat
  /-- alias class, 4 for none -/
  cls : Nat
  /-- cycle of issue, by `clk` -/
  cyc : Nat
  /-- the cycle at whose end it may perform; counted by `clk` when `fixed` -/
  due : Nat
  fixed : Bool
  /-- the cycle at whose end the result is in its latch (R248), counted as `due` -/
  ret : Nat
  scope : Nat
  isRead : Bool
  isWrite : Bool
  ea : U64
  /-- local-scratch form (R63) -/
  lcl : Bool
  pieces : List Piece
  data : V
  data2 : U64
  fm : BitVec 32
  k : BitVec 1024
  aux : Nat
  /-- waits in a side log (R170) -/
  logged : Bool
  /-- reads unspecified contents: an ENGINE tile with ERC off (R35) -/
  junk : Bool
  perf : Bool
  val : V
  /-- number of its bundle (program order where held slots issue late, R36, R181) -/
  bundle : Nat := 0
  /-- an ordering operation: 0 before its drain, 1 drained, 2 the drained bytes have reached their homes -/
  stage : Nat := 0
  /-- stage 1: transfers of the bridge, and stage 2: parity deltas, numbered below this come before it (R150, R164); of a chunk that has yet
  to join the result of an XLD: that access (R107, R210) -/
  mark : Nat := 0
  deriving DecidableEq, Repr

/-- What lands at the end of a logical cycle. -/
inductive Eff where
  | sres (i : Nat) (v : U64)
  | vres (i : Nat) (v : V)
  /-- a chunk of x.r: container bits, chunk, codes (R210) -/
  | xchunk (c ch : Nat) (codes : List Nat)
  /-- a scale entry written by XSC (R211) -/
  | kent (k i v : Nat)
  /-- a scale register written by a K slot (R234) -/
  | kreg (k : Nat) (v : BitVec 1024)
  /-- the fields of lgl written by RFILL are not here: they land with the command (R258) -/
  | post (core flag n : Nat)
  deriving DecidableEq, Repr

/-- A result in flight: due cycle by `clk`, order, whether it counts for R109, and the effect. -/
structure Pend where
  due : Nat
  seq : Nat
  trig : Bool
  eff : Eff
  deriving DecidableEq, Repr

/-- An MMA or MMAQ in flight (R227, R228). -/
structure MmaFly where
  acc : Nat
  cyc : Nat
  planes : Nat
  due : Nat
  mac : Nat
  /-- the result, 32 rows -/
  res : List V
  quad : Bool
  /-- of the follow-on of a CPYM (R235) -/
  eng : Bool := false
  deriving DecidableEq, Repr

/-- A WLD in flight (R224). -/
structure WldFly where
  blk : WBlock
  usable : Nat
  fixed : Bool
  mop : Nat
  /-- of the follow-on of a CPYM (R235) -/
  eng : Bool := false
  deriving DecidableEq, Repr

/-- A slot or re-issue that is held in TAGGED mode (R36). -/
structure Held where
  op : Instr
  slot : Nat
  re : Bool
  pc : Nat
  limm : U64
  st : Option Sticky
  bundle : Nat
  /-- the base register VALs as they stood at its bundle (R38) -/
  vals : List U64
  /-- the row pointers of the tiles as they stood at its bundle (R52) -/
  ptrs : List (BitVec 5)
  /-- issued in this cycle: counted for R37 until the cycle ends, and no longer for the skew -/
  gone : Bool := false
  /-- its sticky state, once it issues, outlives its bundle (no STOP or `c.idle` of the unit in it, R113) -/
  keep : Bool := true
  /-- the operation for which its read of a result latch is due (R107), fixed at its bundle -/
  src : Option Nat := none
  /-- its control word comes with a move that is held with it, so that what it names is not known yet (R37) -/
  blind : Bool := false
  /-- the address after its bundle -/
  next : Nat := 0
  /-- its bundle is a delay bundle or an active body end, where a transfer is illegal (R134, R137) -/
  noXfer : Bool := false
  /-- a trigger of a sticky operation in a later issue of its bundle, whose re-issue stands for it (R112) -/
  again : Bool := false
  deriving DecidableEq, Repr

/-- An engine command (R238 to R246). -/
structure Cmd where
  seq : Nat
  tag : BitVec 32
  op : Instr
  pc : Nat
  blkAddr : Nat
  acc : Nat
  /-- package cycle of acceptance, for a deadline in ticks (R261) -/
  accNow : Nat := 0
  /-- the core's `clk` of acceptance: stores issued later are not of the block (R238) -/
  clk : Nat := 0
  rdcMark : Nat
  block : Option (BitVec 512) := none
  tiles : List Nat := []
  tregs : List Nat := []
  lane : Nat := 0
  svc : Option Nat := none
  start : Option Nat := none
  due : Nat := 0
  rowsDone : Nat := 0
  count : Nat := 0
  status : Nat := 0
  finished : Bool := false
  /-- progress of a command that acts in several steps (MIGR, KVS, ENQ, CPYM follow-on, PRISM) -/
  phase : Nat := 0
  work : List Nat := []
  /-- payload bytes written (R242) -/
  pay : Nat := 0
  /-- source rows of a copy whose sides overlap, as they stood when it started (R249) -/
  snap : List (List Byte) := []
  /-- what commands that are not ordered with this one have written since it was accepted: from an earlier command, its lane, from, to
  (R246) -/
  raced : List (Bool × Nat × Nat × Nat) := []
  /-- completion: 0 before it, 1 payload performed and the notification made, 2 what the completion word follows is home, 3 the word is on
  its way, 4 done (R242) -/
  fin : Nat := 0
  mark : Nat := 0
  sent : Option Nat := none
  /-- what its next step reads in other packages: location, and the bytes once they have been answered (R149) -/
  got : List (Nat × Option (List Byte)) := []
  deriving DecidableEq, Repr

/-- A side-log entry (R322). -/
structure LogEnt where
  valid : Bool := false
  ea : Nat := 0
  kind : Nat := 0
  ac : Nat := 0
  scope : Nat := 0
  data : V := 0
  lanes : BitVec 64 := 0
  badr : Nat := 0
  refaulted : Bool := false
  nref : Nat := 0
  order : Nat := 0
  /-- number of the store among the core's accesses, and of its bundle -/
  mop : Nat := 0
  bundle : Nat := 0
  /-- a REPLAY has sent it on its way, and it has yet to perform (R324) -/
  going : Bool := false
  deriving DecidableEq, Repr

/-- A cached leaf translation (R320). -/
structure TlbEnt where
  ctx : Nat
  vpage : Nat
  bits : Nat
  leaf : U64
  deriving DecidableEq, Repr

/-- A line of a copy that may stand before a home (R146 to R150): 128 bytes, dirty bytes, fill stamp, and the operand handle and
generation of an operand-cache line. A line that only stores have made holds no clean bytes yet (`full` is false), and a fill across the
bridge is there from package cycle `avail` on (R12). -/
structure CLine where
  data : BitVec 1024 := 0
  dirty : BitVec 128 := 0
  stamp : Nat := 0
  tag : Nat := 0
  full : Bool := true
  avail : Nat := 0
  deriving DecidableEq, Repr

/-- Whether a logical core runs a task. -/
inductive CoreStatus where
  /-- no task bound -/
  | idle
  /-- runs its task -/
  | run
  /-- stopped by a fault (R338) -/
  | stopped
  /-- its task has ended; accesses and commands complete (R33, R138) -/
  | drain
  deriving DecidableEq, Repr

/-- An operation of lp, bq or ps in flight or returned (R107, R291). -/
structure SpecOp where
  id : Nat
  op : Instr
  /-- result latch: 9 ps.r, 10 lp.r, 11 bq.r -/
  latch : Nat
  bundle : Nat
  due : Nat
  perf : Bool
  val : U64
  /-- scratch offset of the block, none for an operation without one -/
  blk : Option Nat
  /-- trigger value and data latch -/
  trig : U64
  arg : U64
  /-- package cycle of issue, `clk` of issue, and the block once it has been read -/
  cyc : Nat
  clk : Nat
  blkv : Option (BitVec 512)
  deriving DecidableEq, Repr

/-- How a TLBINV, PTWFENCE or REPLAY that waits has got on (R321, R324): the bundle it is of, the accesses that it follows, as cores with
the number of the first access after, and whether those have performed (0), their bytes are on the way home (1), or home (2). -/
structure SysWait where
  bundle : Nat
  cut : List (Nat × Nat)
  /-- requests to other packages numbered below this come before it -/
  outCut : Nat := 0
  stage : Nat := 0
  mark : Nat := 0
  deriving DecidableEq, Repr

/-- A logical core: the registers of R48, the state of R49, and what is in flight. -/
structure Core where
  status : CoreStatus := .idle
  launch : Nat := 0
  tid : Nat := 0
  tcx : U64 := 0
  /-- die × 64 + context number -/
  ctx : Nat := 0
  tagged : Bool := false
  pc : Nat := 0
  cb : Nat := 0
  /-- the logical cycle counter (R5) -/
  lcyc : Nat := 0
  /-- cycles in which what is in flight on the core advances: its logical cycles, and the cycles of its stops (R338, R342) -/
  clk : Nat := 0
  phase : Nat := 0
  g : List U64 := List.replicate 64 0
  p : BitVec 24 := 0
  v : List V := List.replicate 32 0
  q : List U64 := List.replicate 8 0xFFFFFFFFFFFFFFFF
  t : List TileReg := List.replicate 16 {}
  k : List (BitVec 1024) := List.replicate 32 (BitVec.ofNat 1024 (0x7F80 * ((2 ^ 1024 - 1) / (2 ^ 16 - 1))))
  b : List BaseReg := List.replicate 16 {}
  fm : List (BitVec 32) := List.replicate 16 0x71
  lgl : BitVec 32 := 0x88888888
  cf : List (BitVec 16) := List.replicate 32 0
  cfo : BitVec 32 := 0
  ss : List U64 := List.replicate 16 0
  /-- a0.r a1.r l.r at.r au.r c.r d.r x.s v.s ps.r lp.r bq.r, then v.r x.r m.r l.vr v.r2 -/
  sres : List U64 := List.replicate 12 0
  vres : List V := List.replicate 5 0
  /-- a0.o a1.o l.d l.d2 au.o c.o d.o x.o v.so m.o ps.o lp.o bq.o, then v.o1 v.o2 x.v m.a l.vd -/
  sop : List U64 := List.replicate 13 0
  vop : List V := List.replicate 5 0
  stL : Option Sticky := none
  stX : Option Sticky := none
  stM : Option Sticky := none
  vmsel : BitVec 4 := 8
  rstack : List Nat := []
  loops : List LoopRec := List.replicate 8 {}
  inv : Bool := false
  arith : Bool := false
  /-- the 14 sticky records: none, or the bundle address -/
  recs : List (Option Nat) := List.replicate 14 none
  /-- the generator's state behind the random-bit queue, and the queue (R73, R74) -/
  rng : U64 × U64 := (0, 0)
  rbq : List U64 := []
  arow : BitVec 32768 := 0
  aptr : BitVec 4 := 0
  /-- the D record (R244) and the SEQ counter (R238) -/
  drec : U64 := 0
  seq : BitVec 32 := 0
  /-- progress of the bundle at pc: issues made, STALL idles left once begun, target after the delay bundle -/
  rep : Nat := 0
  stall : Option Nat := none
  restarted : Bool := false
  xfer : Option Nat := none
  bundles : Nat := 0
  /-- `bundles` + 1 when the bundle at pc has met a held slot for which it waits (R37) -/
  met : Nat := 0
  /-- logical cycle before which a barrier, a PHASE drain or a fence lets nothing issue -/
  hold : Option Nat := none
  /-- a PHASE whose drain is under way -/
  drainTo : Option Nat := none
  yieldFlag : Bool := false
  held : List Held := []
  /-- the held slots have had their chance in this cycle -/
  heldTried : Bool := false
  /-- a TRAP's bundle issued in this cycle, which therefore counts in lcyc -/
  softTick : Bool := false
  mops : List MOp := []
  sops : List SpecOp := []
  pend : List Pend := []
  next : Nat := 0
  mma : List MmaFly := []
  mmaq : Option Nat := none
  wld : List WldFly := []
  blocks : List WBlock := []
  /-- what the units of 2,048 bytes of the macros hold, by 64 × macro + unit, once a block has been loaded there (R379) -/
  mac : Tbl (BitVec 16384) := []
  cmds : List Cmd := []
  /-- tiles owned by ENGINE (R161) -/
  eng : List Nat := []
  engFrozen : Bool := false
  /-- cycles of the core's command queue and lane L (R34, R246, R348) -/
  ecyc : Nat := 0
  /-- a thread trigger of m in this cycle (R235) -/
  mTrig : Bool := false
  /-- tile rows and format registers as the cycle found them, while a follow-on may issue (R227, R235) -/
  found : Option (List (List V) × List (BitVec 32)) := none
  l1 : Tbl CLine := []
  l1Mark : Nat := 0
  rdcMark : Nat := 0
  fills : Nat := 0
  tlb : List TlbEnt := []
  logL : List LogEnt := List.replicate 32 {}
  logA : List LogEnt := List.replicate 32 {}
  logOrd : Nat := 0
  /-- weights of the last 64 cycles, newest first (R348) -/
  window : List Nat := []
  weight : Nat := 0
  freezeNext : Bool := false
  frz : Bool := false
  /-- under an open fabric timetable, the sum of the window was over PLIM at the end of the last cycle (R350) -/
  crossed : Bool := false
  frzcnt : Nat := 0
  throttled : Bool := false
  timingSub : Nat := 0
  /-- this cycle's turn is taken -/
  turn : Bool := false
  /-- the task is at a barrier: sync operation kind, index and arrival cycle -/
  barrier : Option (Nat × Nat × Nat) := none
  /-- the core's delay of this cycle waits for its own engine commands (R34) -/
  cmdWait : Bool := false
  /-- a stop whose trap-queue entry waits for room, and the entry (R341) -/
  trapWait : Bool := false
  trapWs : List U64 := []
  /-- package cycle of the last release of a stop here, and the core that made it (R343) -/
  relBy : Option (Nat × Nat) := none
  freezeReq : Bool := false
  /-- widest scope of any release the task has issued, SURVIVABLE counted as PACKAGE, and whether one was SURVIVABLE (R10, R314) -/
  relScope : Nat := 0
  relSurv : Bool := false
  haltEnd : Bool := false
  /-- the free bytes that stand for the task in its save image (R312) -/
  imageKey : Nat := 0
  /-- the task has ended and its bytes are on their way home: the transfers before this one (R33) -/
  endMark : Option Nat := none
  /-- scratch bytes of unspecified contents that nothing has written since: from, to (exclusive), generation (R33, R142) -/
  stale : List (Nat × Nat × Nat) := []
  /-- what scratch bytes of this core held before they were overwritten, since the launch began: offset and value (R8) -/
  hist : List (Nat × Byte) := []
  /-- the launch and context that `hist` belongs to, and the scratch bytes that still hold what another context left: from, to (R8) -/
  seen : Option (Nat × Nat) := none
  foreign : List (Nat × Nat) := []
  /-- bytes of ENGINE tiles that an engine, and that other agents, have written since the tiles became ENGINE: from, to (R161) -/
  engW : List (Nat × Nat) := []
  raceW : List (Nat × Nat) := []
  /-- the instruction cache: lines of 64 bytes by location / 64 (R115) -/
  icache : Tbl (List Byte) := []
  sysw : Option SysWait := none
  /-- the word in another package that a WAITA has asked for, and the answer (R174) -/
  poll : Option (Nat × Option (List Byte)) := none
  deriving DecidableEq, Repr

/-- What a stop or notice reports. -/
structure Stop where
  cause : Nat
  sub : Nat := 0
  slot : Nat := 15
  runit : Nat := 0
  fx : Bool := false
  faddr : Nat := 0
  info : Nat := 0
  held : Bool := false
  baddr : Option Nat := none
  resume : Option Nat := none
  deriving DecidableEq, Repr

/-! ## Contexts, launches and dies -/

/-- A context record (R301) and its token-ready flags and depth table (R268, R276). -/
structure Ctx where
  valid : Bool := false
  priv : Bool := false
  debug : Bool := false
  schk : Bool := false
  erc : Bool := false
  linkctx : Nat := 0
  linkv : Bool := false
  part : Nat := 0
  ptbase : Nat := 0
  heapb : U64 := 0
  heapl : U64 := 0
  heapo : U64 := 0
  seed0 : U64 := 0
  seed1 : U64 := 0
  tokens : Nat := 0
  tokrate : Nat := 0
  tokmax : Nat := 0
  slice : Nat := 0
  prwaddr : Nat := 0
  savebase : Nat := 0
  savelen : Nat := 0
  overdue : Nat := 0
  slip : Nat := 0
  sliceclamp : Nat := 0
  qerr : Nat := 0
  ev : BitVec 256 := 0
  fmv : List (BitVec 32) := List.replicate 16 0x71
  tflags : BitVec 256 := 0
  dtab : List (BitVec 8) := List.replicate 16 3
  deriving DecidableEq, Repr

/-- One level of a loop table (R29). -/
structure LoopLevel where
  kind : Nat
  trip : Nat
  strides : List U64
  deriving DecidableEq, Repr

/-- The states of R308. -/
inductive LState where
  | queued | waiting | eligible | reserving | running | saving | saved | restoring | killing | done
  deriving DecidableEq, Repr

/-- A kernel image as the loader reads it (R123). -/
structure Image where
  entry : Nat
  cb : Nat
  mode : Nat
  shape : Nat
  ttid : Nat
  levels : List LoopLevel
  /-- scratch units of each phase -/
  phases : List Nat
  /-- data records: scratch offset and bytes -/
  data : List (Nat × List Byte)
  fmMask : Nat
  fmVals : List (BitVec 32)
  /-- timetable section: id, role, START -/
  ttRole : Nat
  ttStart : Nat
  /-- a fabric-plan section is present, its TTID and its records (R365) -/
  fabric : Bool
  planTtid : Nat
  plan : List Nat
  deriving DecidableEq, Repr

/-- A launch as the dispatcher holds it (R25, R307, R308). -/
structure Launch where
  state : LState := .queued
  die : Nat := 0
  ctx : Nat := 0
  queue : Nat := 0
  ticket : Nat := 0
  order : Nat := 0
  image : Nat := 0
  args : Nat := 0
  wait : BitVec 256 := 0
  set : BitVec 256 := 0
  cls : Nat := 0
  est : Nat := 0
  ckpt : Bool := false
  killok : Bool := false
  tagged : Bool := false
  shape : Nat := 0
  cwscope : Nat := 4
  cwaddr : Nat := 0
  ttid : Nat := 0
  img : Option Image := none
  /-- the co-timetabled partner, once paired -/
  partner : Option Nat := none
  viaEvents : Bool := false
  effcls : Nat := 0
  waited : Nat := 0
  /-- linear index of the next task to bind -/
  nextTask : Nat := 0
  /-- packet A word 6 of a launch with a fabric plan (R366) -/
  fstart : Nat := 0
  /-- the package cycle at which a restore under way ends -/
  restoreAt : Nat := 0
  /-- logical cores reserved for a gang -/
  reserved : List Nat := []
  ended : Nat := 0
  ntasks : Nat := 0
  exits : Nat := 0
  faulted : Bool := false
  killed : Bool := false
  /-- run count of a TAGGED launch (R47), and the run count at the last start (R313) -/
  runs : Nat := 0
  sliceBase : Nat := 0
  overdue : Bool := false
  /-- tasks saved by a checkpoint: linear index, logical core and its state; the scratch is in the image (R312) -/
  saved : List (Nat × Nat × Core) := []
  /-- a save under way (R314): 0 nothing, 1 behind the dirty lines of its fence, 2 behind the parity deltas; and up to which of them -/
  saveStage : Nat := 0
  saveMark : Nat := 0
  postsHeld : List (Nat × Nat × Nat) := []
  /-- the gang's delay of this cycle (R34) and a freeze to come at a logical cycle (R349) -/
  delayed : Bool := false
  /-- some core of the gang takes a stop in this cycle, so that no bundle of the gang issues (R342) -/
  stopping : Bool := false
  /-- the stops of this cycle, by core -/
  stops : List (Nat × Stop) := []
  /-- the gang's delay waits for what an engine may bring (R34, R265), or stands for a save or a freeze, for which what is in flight
  completes (R40, R344) -/
  waiting : Bool := false
  settles : Bool := false
  frzAt : List Nat := []
  deriving DecidableEq, Repr

/-- A partition (R304). -/
structure Part where
  quads : List Nat := []
  slices : List Nat := []
  deriving DecidableEq, Repr

/-- A die: its dispatcher, its remote-data cache, its trap queue and its power limits. -/
structure Die where
  rdc : Tbl CLine := []
  rdcFill : U64 := 0
  trapqbase : Nat := 0
  trapqn : Nat := 0
  trapqw : Nat := 0
  trapqr : Nat := 0
  trapctx : Nat := 0
  trapev : Nat := 0
  tqlost : Nat := 0
  /-- the entries of a cycle: the cycle + 1, TRAPQW and TQLOST before them, and each with its core and whether it is a notice (R341) -/
  trapCyc : Nat := 0
  trapW0 : Nat := 0
  trapL0 : Nat := 0
  trapNow : List (Nat × Bool × List U64) := []
  plim : Tbl Nat := []
  /-- PLIM as it stood at the last frame boundary, for cores under a fabric timetable (R348) -/
  plimFrame : Tbl Nat := []
  hlim : Tbl Nat := []
  thrcnt : Nat := 0
  ctxbase : Nat := 0
  drainmax : Nat := 0
  enable : Bool := false
  /-- bound queues: queue number to the locations of the descriptor's three lines of 64 bytes (R305) -/
  queues : Tbl (Nat × Nat × Nat) := []
  /-- the context and the virtual address by which each descriptor was bound (R305, R321) -/
  queueVa : Tbl (Nat × Nat) := []
  /-- read indexes of the bound queues -/
  ridx : Tbl U64 := []
  /-- frozen queues, and the whole host path (R344) -/
  qFrozen : List Nat := []
  parts : List Part := []
  /-- physical cores out of dispatch (R303) -/
  outCores : List Nat := []
  mctlbase : Nat := 0
  logcnt : Nat := 0
  /-- group TLBs and operand caches by group -/
  gtlb : Tbl (List TlbEnt) := []
  opc : Tbl (Tbl CLine) := []
  /-- current generation of operand handles: group × 65,536 + handle -/
  opgen : Tbl Nat := []
  deriving DecidableEq, Repr

/-! ## The speculation complex -/

/-- A Carafe slot (R15, R274): the 32 bytes that have arrived, which they are, whether the record is taken, and bytes 32–63. -/
structure CarafeSlot where
  bytes : BitVec 256 := 0
  have_ : BitVec 32 := 0
  taken : Bool := false
  stepNo : Nat := 0
  arrival : Nat := 0
  deriving DecidableEq, Repr

/-- The states of R278. -/
inductive LoupeState where
  | unbound | drafting | admitted | committing | stalled
  deriving DecidableEq, Repr

/-- The result record of the last ended step (R292). -/
structure LoupeRes where
  stepNo : Nat := 0
  outcome : Nat := 0
  flags : Nat := 0
  n : Nat := 0
  d : Nat := 0
  winner : Nat := 0
  token : Nat := 0
  len : Nat := 0
  ar : Nat := 0
  kvseq : Nat := 0
  deriving DecidableEq, Repr

/-- A submitted LPSUB (R292): core, with the context and launch of its task, block words, step number and the bundle. -/
structure LpSub where
  core : Nat
  ctx : Nat := 0
  launch : Nat := 0
  block : BitVec 512
  seq : Nat
  pc : Nat
  deriving DecidableEq, Repr

/-- A Loupe sequence slot (R276, R278). -/
structure LoupeSlot where
  st : LoupeState := .unbound
  ctx : Nat := 0
  modeSet : Bool := false
  sampler : Bool := false
  tflag : Nat := 0
  poolpol : Nat := 0
  seed : Nat := 0
  topk : Nat := 0
  topp : Nat := 0x3F800000
  ar : Nat := 0
  len : Nat := 0
  dposaddr : Nat := 0
  tokbuf : Nat := 0
  pool : Nat := 0
  kvseq : Nat := 0
  /-- step number, and the depth and width published for it (depth − 1, width − 1) -/
  stepNo : Nat := 0
  depth : Nat := 0
  width : Nat := 0
  /-- mode fields govern the next admitted step: those of the step in flight -/
  curMode : Bool := false
  curTopk : Nat := 0
  curTopp : Nat := 0x3F800000
  curSeed : Nat := 0
  /-- Carafe slots of the current step's records, in arrival order -/
  recs : List Nat := []
  shrunk : Bool := false
  /-- branch ids by leaf NODE, from the admission -/
  branches : List (Nat × Nat) := []
  /-- the LPSUB ADMIT that is held, and the VERIFIED one (R291) -/
  admission : Option LpSub := none
  verified : Option LpSub := none
  res : Option LoupeRes := none
  /-- a commit whose DPOS words are being written (R285): 1 word 0 on its way, 2 word 1 on its way; the result record that the step's end
  publishes, and the depth and width that word 1 carries -/
  wst : Nat := 0
  pend : LoupeRes := {}
  dw : Nat × Nat := (0, 0)
  deriving DecidableEq, Repr

/-- The completion word of an LPSUB that has yet to be written (R242): 0 behind the dirty lines that it follows, 1 behind the parity deltas,
2 on its way across the bridge as an arrival on a byte barrier, until `mark`. -/
structure LpOut where
  sub : LpSub
  step : Nat
  status : Nat
  count : Nat
  stage : Nat := 0
  mark : Nat := 0
  deriving DecidableEq, Repr

/-- A Barista queue slot (R293). -/
structure BqSlot where
  used : Bool := false
  ctx : Nat := 0
  req : BitVec 512 := 0
  replied : Bool := false
  reply : BitVec 512 := 0
  flag : Option Nat := none
  noReply : Bool := false
  sampler : Bool := false
  lseq : Nat := 0
  deriving DecidableEq, Repr

/-- A PRISM request that this package holds as A, O or C (R259, R332). -/
structure PrismReq where
  core : Nat := 0
  seq : Nat := 0
  pc : Nat := 0
  tag : Nat := 0
  apkg : Nat := 0
  /-- A's own number of the request -/
  aid : Nat := 0
  actx : Nat := 0
  adie : Nat := 0
  block : BitVec 512 := 0
  /-- bytes read at O, their count, and the status to C -/
  bytes : List Byte := []
  ostat : Nat := 0
  /-- 0 to be read at O, 1 on its way to C, 2 deposited, with its completion word to be written, 3 done -/
  phase : Nat := 0
  /-- the receive window as C's check found it, C's status and count, and the parity deltas before its completion word -/
  win : Option (List Nat) := none
  cstat : Nat := 0
  cn : Nat := 0
  mark : Nat := 0
  /-- the transfers of the bridge before its completion word (R12) -/
  bmark : Nat := 0
  deriving DecidableEq, Repr

/-- A parity delta sent and not yet acknowledged (R335): id, region, line, shard, the parity packages that have yet to answer. -/
structure DeltaOut where
  id : Nat
  region : Nat
  line : Nat
  shard : Nat
  waiting : List Nat
  core : Nat
  delta : BitVec 512
  deriving DecidableEq, Repr

/-! ## Links -/

/-- One of the 32 scale-up ports (R358 to R371): its FIFOs, slot tables, counters and keys. -/
structure Port where
  en : Bool := false
  loadReq : Bool := false
  lock : Bool := false
  aligned : Bool := false
  attested : Bool := false
  lnkerr : Nat := 0
  lnkdrop : Nat := 0
  planerr : Nat := 0
  outq : List (List U64) := List.replicate 8 []
  inq : List (List U64) := List.replicate 8 []
  tx : List U64 := List.replicate 256 0
  rx : List U64 := List.replicate 256 0
  txKey : BitVec 256 := 0
  txSalt : BitVec 32 := 0
  txCnt : Nat := 0
  rxKey : BitVec 256 := 0
  rxSalt : BitVec 32 := 0
  rxCnt : Nat := 0
  /-- keys that take effect at the next frame boundary (R376) -/
  newKeys : Option (BitVec 576) := none
  /-- the identity report that went to the switch (R376) -/
  ident : List Byte := []
  reatt : Bool := false
  /-- the flits of the last use of each slot, plain and as sent, kept for replay, and slots to repeat -/
  sent : Tbl (Flit × Flit) := []
  replay : List Nat := []
  /-- slots whose last flit was a replay (R371) -/
  replayed : List Nat := []
  /-- departure slots whose flit failed its tag check, with the counter it was sealed under (R371) -/
  rxFailed : Tbl Nat := []
  frozen : Bool := false
  pseq : Nat := 0
  deriving DecidableEq, Repr

/-- A plane's slot switch as the package's model holds it (R367 to R369). -/
structure Switch where
  table : Option SwitchTable := none
  /-- accepted tables that await their frames, by frame (R368) -/
  nextTables : List SwitchTable := []
  disabled : List Nat := []
  /-- accepted contributions: group, rank, payload -/
  acc : List (Nat × Nat × BitVec 2048) := []
  redlate : Tbl Nat := []
  refused : Nat := 0
  /-- what the outputs carry in this slot, by output port (R367, R369) -/
  emitted : List (Nat × Flit) := []
  deriving DecidableEq, Repr

/-- The management core: stages, firmware, attestation and debug (R373 to R380). -/
structure Boot where
  stage : Nat := 0
  err : Nat := 0
  verified : Bool := false
  version : Nat := 0
  rollback : BitVec 32 := Config.rollback0
  /-- the fuse map (R373): physical cores fused off, counted 2,048 × die + core -/
  fuses : List Nat := []
  bodyDigest : BitVec 512 := 0
  attnonce : List U64 := List.replicate 4 0
  attaddr : Nat := 0
  /-- the identity key pair, private and public, derived in MEMORY (R375) -/
  idKey : Option (List Byte × List Byte) := none
  attBusy : Bool := false
  attDone : Bool := false
  attOvr : Bool := false
  attErr : Bool := false
  frozen : Bool := false
  /-- the unspecified bytes of a readout during this debug freeze (R379) -/
  frzKey : Nat := 0
  nonceIdx : Nat := 0
  dbgnonce : U64 := Config.dbgNonce 0
  dbgdrop : Nat := 0
  unlocked : Bool := false
  vfOut : List Byte := []
  memReady : Bool := false
  coresReady : Bool := false
  deriving DecidableEq, Repr

/-- The management mailbox (R355, R357). -/
structure Mailbox where
  doneseq : Nat := 0
  busy : Bool := false
  ovr : Bool := false
  curseq : Nat := 0
  /-- the command as it stood at its DOORBELL, and CMD as the host reads and writes it -/
  cmd : List U64 := List.replicate 8 0
  cmdReg : List U64 := List.replicate 8 0
  rsp : List U64 := List.replicate 8 0
  ntw : Nat := 0
  ntr : Nat := 0
  notices : Tbl (List U64) := []
  ntlost : Nat := 0
  deriving DecidableEq, Repr

/-- A host write or AtomicOp (operation and operands) on its way to a location. -/
structure HostReq where
  loc : Nat
  bytes : List Byte
  atom : Option (Nat × U64 × U64) := none
  deriving DecidableEq, Repr

/-- The host link (R353 to R357). -/
structure HostLink where
  hwin : List U64 := List.replicate 64 0
  irqmap : List (BitVec 16) := List.replicate 64 0
  /-- MSI-X pending bits; the table, of a vector's address and of its data and mask bit; and the messages sent, vector, address and data, oldest
  first (log 105) -/
  msix : BitVec 64 := 0
  msixTable : List U64 := (List.range 128).map (fun i => if i % 2 = 1 then BitVec.ofNat 64 (2 ^ 32) else 0)
  msixSent : List (Nat × Nat × Nat) := []
  /-- data of the last host read or AtomicOp completion -/
  completion : List Byte := []
  frozen : Bool := false
  /-- requests that wait for a Mirror region in REBUILD, in order (R335) -/
  held : List HostReq := []
  deriving DecidableEq, Repr

/-- A MEM flit received out of order, or waiting to be sent again (R363, R364). -/
structure PairSt where
  sendSeq : Nat := 0
  recvSeq : Nat := 0
  queue : List Flit := []
  early : List Flit := []
  deriving DecidableEq, Repr

/-- Who waits for a store's landing or for another package's answer: an access of a core by its number and piece, an engine command, a command
for the bytes at a location, a WAITA for its word, the arrival of an LPSUB of a core, launch and bundle on a byte barrier, or nobody. -/
inductive Waiter where
  | access (core op piece : Nat)
  | command (core seq : Nat)
  | reading (core seq loc : Nat)
  | poll (core loc : Nat)
  | loupe (core launch pc : Nat)
  /-- the LOCK of a share record at a location, set from a word by a MIGR that has since been discarded (R272, R329) -/
  | lock (loc word : Nat)
  | none
  deriving DecidableEq, Repr

/-- An Eplia store into Carafe (R15): slot, offset and bytes, and the access that it comes from. -/
structure CarafeMsg where
  slot : Nat
  off : Nat
  bytes : List Byte
  who : Waiter := .none
  deriving DecidableEq, Repr

/-- A request to another package's home that has not been answered (R149, R151): its number, who waits for it, and the bytes that it writes
there, if any. -/
structure RemoteOut where
  id : Nat
  who : Waiter
  loc : Nat := 0
  len : Nat := 0
  deriving DecidableEq, Repr

/-- A transfer that crosses the Ranler bridge (R12): its number, source and destination agents, arrival, the bytes it carries and where,
and the Loupe slot whose commit ends with it. -/
structure BridgeMsg where
  id : Nat
  src : Nat
  dst : Nat
  due : Nat
  loc : Nat
  bytes : List Byte
  lseq : Option Nat
  deriving DecidableEq, Repr

/-- A write that waits at its home, in a Mirror region in REBUILD (R335), or for a page in migration, at an address of a context that is
translated once the page has landed (R326): its number among the transfers of the bridge, the agent that it comes from, the core that made it,
and the bytes. -/
structure StalledWrite where
  id : Nat
  src : Nat
  core : Nat
  loc : Nat := 0
  virt : Option (Nat × Nat) := none
  bytes : List Byte
  deriving DecidableEq, Repr

/-! ## The package -/

/-- The state of the package. -/
structure State where
  /-- package cycle, from cold start; keeps counting through freezes (R4) -/
  now : Nat
  mem : List Host.Cell
  cores : Tbl Core
  ctxs : Tbl Ctx
  launches : Tbl Launch
  nLaunch : Nat
  dies : List Die
  /-- quad store buffers by core id / 4 -/
  qsb : Tbl (Tbl CLine)
  carafe : Tbl CarafeSlot
  /-- Eplia stores on their way to Carafe, and those interlocked on an occupied slot -/
  carafeOut : List CarafeMsg
  interlocked : List CarafeMsg
  earlyCnt : Nat
  badCnt : Nat
  bridge : List BridgeMsg
  nBridge : Nat
  /-- writes that wait at their homes, in order of their arrival (R326, R335) -/
  stalled : List StalledWrite
  /-- requests to other packages that have not been answered -/
  outs : List RemoteOut
  /-- bytes of other packages that the engine's step under way has been answered: location and bytes -/
  answered : List (Nat × List Byte)
  nOut : Nat
  loupe : Tbl LoupeSlot
  lpOut : List LpOut
  barista : Tbl BqSlot
  /-- requests in arrival order -/
  bqOrder : List Nat
  prism : Tbl PrismReq
  nPrism : Nat
  deltas : List DeltaOut
  nDelta : Nat
  /-- delta counts of parity lines: (region × 2^40 + line) × 16 + shard -/
  parCnt : Tbl Nat
  ports : Tbl Port
  switches : Tbl Switch
  pairs : Tbl PairSt
  /-- the last flit that the scale-out transport took: port group, the peer's endpoint, flit (R372) -/
  netOut : Option (Nat × U64 × Flit)
  pkgnum : Nat
  pkgSet : Bool
  framecnt : Nat
  /-- cycle within the frame, 0 to 511 -/
  framePos : Nat
  frameRun : Bool
  flat : Nat
  slotbase : Nat
  peertab : Nat
  pdefcnt : Nat
  pendFreeze : Option Nat
  /-- cycles, up to 64, that the windows of cores which nothing has touched have run for (R348) -/
  winIdle : Nat := 0
  frameFreeze : Nat
  expbase : Nat
  expn : Nat
  rwtbase : Nat
  mirbase : Nat
  pincnt : Nat
  boot : Boot
  mbox : Mailbox
  host : HostLink
  /-- event bits that completions of commands and launches have set and that no test has seen: context and bit, in order (R26, R61) -/
  evLate : List (Nat × Nat)
  /-- outside inputs and scheduled events: package cycle and event, in cycle order -/
  agenda : List (Nat × Instr)
  /-- the gangs' delays and stops of this cycle have been settled (R34, R342) -/
  sensed : Bool
  /-- the core that a slot instruction is issued on -/
  cur : Nat
  /-- the model's own counter, to which the free values of Config are applied -/
  fresh : Nat
  deriving DecidableEq, Repr

/-- The package right after cold start: nothing listed, every register at its cold value (R6, R48, R49, R301, R352, R371, R380). -/
def State.reset : State :=
  { now := 0, mem := [], cores := [], ctxs := [], launches := [], nLaunch := 0, dies := [{}, {}], qsb := [], carafe := [],
    carafeOut := [], interlocked := [], earlyCnt := 0, badCnt := 0, bridge := [], nBridge := 0, stalled := [], outs := [], answered := [], nOut := 0, loupe := [], lpOut := [], barista := [], bqOrder := [], prism := [], nPrism := 0,
    deltas := [], nDelta := 0, parCnt := [], ports := [], switches := [], pairs := [], netOut := none, pkgnum := 0, pkgSet := false,
    framecnt := 0, framePos := 0, frameRun := false, flat := 0, slotbase := 0, peertab := 0, pdefcnt := 0, pendFreeze := none,
    frameFreeze := 0, expbase := 0, expn := 0, rwtbase := 0, mirbase := 0, pincnt := 0, boot := {}, mbox := {}, host := {},
    evLate := [], agenda := [], sensed := false, cur := 0, fresh := 0 }

end Sys2Proof.Machine
end

