-- ==== Sys2Proof/Machine/Ops.lean ====
section
/-! DEFINITION. The named operations of the machine: bytes of memory in canonical form, locations and the physical map (R315),
accessors of cores, contexts and dies, translation (R63, R317 to R320), the copies in front of a home (R146 to R150), writes at a
home with their parity deltas (R335), events, notices, the trap record and the taking of a stop (R338 to R342). -/

set_option linter.unusedVariables false

namespace Sys2Proof.Machine

/-! ## Bytes of memory -/

/-- What a location that is not listed reads as. The spec gives RAM no contents at power-on, and the MEMORY stage writes zero
(R373). Log 1. -/
def unlisted : Byte := 0

def memGet : List Host.Cell → Nat → Byte
  | [], _ => unlisted
  | (b, v) :: r, a => if a = b then v else if a < b then unlisted else memGet r a

/-- Write one byte, keeping the canonical form. -/
def memPut : List Host.Cell → Nat → Byte → List Host.Cell
  | [], a, v => if v = unlisted then [] else [(a, v)]
  | (b, w) :: r, a, v =>
    if a < b then (if v = unlisted then (b, w) :: r else (a, v) :: (b, w) :: r)
    else if a = b then (if v = unlisted then r else (a, v) :: r)
    else (b, w) :: memPut r a v

/-- The canonical form: addresses strictly rising above a bound, and no entry equal to what an unlisted location reads as. -/
def memWfFrom : Option Nat → List Host.Cell → Bool
  | _, [] => true
  | lo, (a, v) :: r => (match lo with | none => true | some l => decide (l < a)) && v != unlisted && memWfFrom (some a) r

def Memory.wf (m : List Host.Cell) : Bool := memWfFrom none m

/-- `n` bytes from a location up. -/
def memRead (m : List Host.Cell) (a : Nat) : Nat → List Byte
  | 0 => []
  | n + 1 => memGet m a :: memRead m (a + 1) n

def memWrite (m : List Host.Cell) (a : Nat) : List Byte → List Host.Cell
  | [] => m
  | b :: r => memWrite (memPut m a b) (a + 1) r

/-! ## Locations (R315). Own physical addresses are below 2^52; host memory and other packages lie above. -/

def scratchBase : Nat := 0xF000000000000
def carafeBase : Nat := 0xE000000000000
def scratchLoc (id off : Nat) : Nat := scratchBase + 2 ^ 21 * id + off
def hostLoc (a : Nat) : Nat := 2 ^ 60 + a
def remoteLoc (pkg pa : Nat) : Nat := 2 ^ 64 * (pkg + 1) + pa

/-- What a location is. -/
inductive Place where
  | hbm | tier2
  | carafe (slot off : Nat)
  | scratch (id off : Nat)
  | hole
  | host (a : Nat)
  | remote (pkg pa : Nat)
  deriving DecidableEq, Repr

/-- Whether a 12-bit number names a core (R2). -/
def coreIdOk (id : Nat) : Bool := id < 4096 && (id < 2048 || fld id 10 6 < 8)
def dieOf (id : Nat) : Nat := fld id 11 11
def groupOf (id : Nat) : Nat := fld id 10 6
def quadOf (id : Nat) : Nat := id / 4

/-- The physical map of R315, on locations. -/
def placeOf (loc : Nat) : Place :=
  if 2 ^ 64 ≤ loc then .remote (loc / 2 ^ 64 - 1) (loc % 2 ^ 64)
  else if 2 ^ 60 ≤ loc then .host (loc - 2 ^ 60)
  else if scratchBase ≤ loc then
    (if loc - scratchBase < 2 ^ 33 ∧ coreIdOk ((loc - scratchBase) / 2 ^ 21) then
      .scratch ((loc - scratchBase) / 2 ^ 21) ((loc - scratchBase) % 2 ^ 21) else .hole)
  else if carafeBase ≤ loc then
    (if loc - carafeBase < 2 ^ 24 then .carafe ((loc - carafeBase) / 64) ((loc - carafeBase) % 64) else .hole)
  else if 2 ^ 40 ≤ loc then
    (if (loc - 2 ^ 40) / 2 ^ 37 < 96 ∧ (loc - 2 ^ 40) % 2 ^ 37 < 128 * 10 ^ 9 then .tier2 else .hole)
  else if loc / 2 ^ 36 < 12 ∧ loc % 2 ^ 36 < 64 * 10 ^ 9 then .hbm else .hole

/-- The die a location of this package is homed on (R146). -/
def homeDie (loc : Nat) : Option Nat :=
  match placeOf loc with
  | .hbm => some 0
  | .tier2 => some 0
  | .carafe _ _ => some 0
  | .scratch id _ => some (dieOf id)
  | _ => none

/-! ## Accessors -/

/-- A core that nothing has touched since reset has a window of base weights alone (R347, R348). -/
def State.core (s : State) (c : Nat) : Core := Tbl.getD s.cores c { window := List.replicate s.winIdle 4 }
def State.setCore (s : State) (c : Nat) (k : Core) : State := { s with cores := Tbl.put s.cores c k }
def State.modCore (s : State) (c : Nat) (f : Core → Core) : State := s.setCore c (f (s.core c))
def State.ctx (s : State) (i : Nat) : Ctx := Tbl.getD s.ctxs i {}
def State.setCtx (s : State) (i : Nat) (x : Ctx) : State := { s with ctxs := Tbl.put s.ctxs i x }
def State.modCtx (s : State) (i : Nat) (f : Ctx → Ctx) : State := s.setCtx i (f (s.ctx i))
def State.die (s : State) (d : Nat) : Die := s.dies.getD d {}
def State.setDie (s : State) (d : Nat) (x : Die) : State := { s with dies := s.dies.set d x }
def State.modDie (s : State) (d : Nat) (f : Die → Die) : State := s.setDie d (f (s.die d))
def State.launch (s : State) (i : Nat) : Launch := Tbl.getD s.launches i {}
def State.setLaunch (s : State) (i : Nat) (x : Launch) : State := { s with launches := Tbl.put s.launches i x }
def State.modLaunch (s : State) (i : Nat) (f : Launch → Launch) : State := s.setLaunch i (f (s.launch i))
def State.port (s : State) (p : Nat) : Port := Tbl.getD s.ports p {}
def State.setPort (s : State) (p : Nat) (x : Port) : State := { s with ports := Tbl.put s.ports p x }
def State.slot (s : State) (i : Nat) : LoupeSlot := Tbl.getD s.loupe i {}
def State.setSlot (s : State) (i : Nat) (x : LoupeSlot) : State := { s with loupe := Tbl.put s.loupe i x }

/-- The next value of the model's counter, to which the free values of Config are applied. -/
def State.tick1 (s : State) : State := { s with fresh := s.fresh + 1 }

/-- A variable latency: at least `lo` cycles, and then what the implementation takes (R106, R107). Log 3. -/
def State.lat (s : State) (lo : Nat) : Nat := lo + Config.latency s.fresh

/-- An unspecified 64-bit word (R8). Log 4. -/
def freeWord (n : Nat) : U64 := u64 (ofBytes ((List.range 8).map (fun i => Config.freeByte (8 * n + i))))

/-- The context that owns a core's task, its launch, and its die. -/
def State.coreCtx (s : State) (c : Nat) : Ctx := s.ctx (s.core c).ctx
def ctxKey (die num : Nat) : Nat := die * 64 + num

/-- Put an event in the agenda, after earlier ones of its cycle. -/
def State.at_ (s : State) (cyc : Nat) (i : Instr) : State :=
  { s with agenda := insertRank (fun p => [p.1]) (cyc, i) s.agenda }

/-- Scratch units of a phase of the running image (R142, R145). -/
def State.phaseUnits (s : State) (launch phase : Nat) : Nat :=
  match (s.launch launch).img with
  | some im => im.phases.getD phase 0
  | none => 0

/-- Bytes of the core's scratch in its current phase. -/
def State.scratchLen (s : State) (c : Nat) : Nat := 65536 * s.phaseUnits (s.core c).launch (s.core c).phase

/-- Units of local SRAM of a core's die (R145). -/
def sramUnits (c : Nat) : Nat := if dieOf c = 0 then 24 else 8

/-- Lines that the L1 of a core holds: the units that are not scratch. -/
def State.l1Cap (s : State) (c : Nat) : Nat := 512 * (sramUnits c - s.phaseUnits (s.core c).launch (s.core c).phase)

/-- Scopes compared by R10: SURVIVABLE counts as PACKAGE. -/
def scopeRank (sc : Nat) : Nat := if sc = 7 then 4 else sc

/-- Whether a task is bound to a logical core. -/
def Core.bound (k : Core) : Bool :=
  match k.status with
  | .idle => false
  | _ => true

/-! ## Mirror regions (R333 to R335) -/

/-- A region descriptor as memory holds it. -/
structure Region where
  idx : Nat
  pbase : Nat
  len : Nat
  k : Nat
  m : Nat
  role : Nat
  st : Nat
  lost : Nat
  shards : List Nat
  deriving DecidableEq, Repr

def word64 (m : List Host.Cell) (a : Nat) : Nat := ofBytes (memRead m a 8)

def readRegion (m : List Host.Cell) (a i : Nat) : Region :=
  let w2 := word64 m (a + 16)
  { idx := i, pbase := word64 m a % 2 ^ 52, len := word64 m (a + 8) % 2 ^ 48, k := fld w2 3 0, m := fld w2 7 4, role := fld w2 11 8,
    st := fld w2 13 12, lost := fld w2 31 16,
    shards := (List.range 16).map (fun r => fld (word64 m (a + 32 + 8 * (r / 4))) (16 * (r % 4) + 15) (16 * (r % 4))) }

/-- Whether nothing is listed in the descriptor table: it then reads as zero, and STATE of every region is OFF. -/
def State.noRegions (s : State) : Bool := s.mem.all (fun c => decide (c.1 < s.mirbase) || decide (s.mirbase + 4096 ≤ c.1))

/-- The region that a location of this package lies in, STATE not OFF. -/
def State.regionOf (s : State) (loc : Nat) : Option Region :=
  if s.noRegions then none
  else ((List.range 64).map (fun i => readRegion s.mem (s.mirbase + 64 * i) i)).find?
    (fun r => r.st != 0 && decide (r.pbase ≤ loc) && decide (loc < r.pbase + r.len))

/-- A parity range of an active region (R333): a store there raises a protection fault. -/
def State.isParity (s : State) (loc : Nat) : Bool :=
  match s.regionOf loc with
  | some r => decide (r.k ≤ r.role)
  | none => false

/-- A region in REBUILD on this package (R335): writes to it wait. -/
def State.inRebuild (s : State) (loc : Nat) : Bool :=
  match s.regionOf loc with
  | some r => r.st == 3
  | none => false

/-! ## Memory traffic to other packages (R363, R364, R372) -/

/-- The payload of a MEM flit. The manual gives it no layout; log 30: word 0 holds the address in [51:0], the number of bytes in [59:52]
and the operation in [63:60] (0 store, 1 Mirror delta, 2 acknowledgement of a delta, 3 refusal, 4 Prism request, 5 its data to C begin,
6 data, 7 data end, 8 acceptance, 9 fault return, 10 anything else, 11 read, 12 the answer to a request, 13 atomic, 14 a sharer's part of a
migration), and the bytes follow; those of 0, 3 and 11 to 14 begin with the sender's number of the request. -/
def memPayload (op addr : Nat) (bs : List Byte) : BitVec 2048 :=
  BitVec.ofNat 2048 (addr % 2 ^ 52 + bs.length % 256 * 2 ^ 52 + op % 16 * 2 ^ 60 + 2 ^ 64 * ofBytes bs)

/-- Queue a MEM flit for a package, numbered in its pair (R364). -/
def State.queueMem (s : State) (peer : Nat) (payload : BitVec 2048) : State :=
  let p := Tbl.getD s.pairs peer {}
  let f : Flit := { dpkg := peer, spkg := s.pkgnum, kind := 2, flags := 0, pseq := 0, info := u64 (p.sendSeq % 2 ^ 32), payload := payload, tag := 0 }
  { s with pairs := Tbl.put s.pairs peer { p with sendSeq := p.sendSeq + 1, queue := p.queue ++ [f] } }

/-- Bytes in parts of at most 128. -/
def chunks128 : Nat → List Byte → List (List Byte)
  | 0, _ => []
  | n + 1, bs => if bs.isEmpty then [] else bs.take 128 :: chunks128 n (bs.drop 128)

/-- A request to another package's home, which answers it (R149): recorded until the answer. -/
def State.request (s : State) (who : Waiter) (pkg op pa : Nat) (bs : List Byte) : State :=
  { s.queueMem pkg (memPayload op pa (toBytes 8 s.nOut ++ bs)) with
    outs := s.outs ++ [{ id := s.nOut, who := who, loc := remoteLoc pkg pa,
                         len := if op = 0 then bs.length else if op = 13 then (bs.headD 0).toNat else 0 }],
    nOut := s.nOut + 1 }

/-- A store to another package's memory goes out as MEM flits. -/
def State.sendStore (s : State) (who : Waiter) (loc : Nat) (bs : List Byte) : State :=
  match placeOf loc with
  | .remote pkg pa =>
    let cs := chunks128 (bs.length / 128 + 1) bs
    ((List.range cs.length).zip cs).foldl (fun t c => t.request who pkg 0 (pa + 128 * c.1) c.2) s
  | _ => s

/-- Whether MEM traffic reaches a package: a MEM slot of an enabled port names it, or the peer table holds it (R372). PEERTAB = 0 names
no table (log 12). -/
def State.hasPath (s : State) (pkg : Nat) : Bool :=
  s.ports.any (fun p => p.2.en && p.2.tx.any (fun e => !e.getLsbD 0 && fld e.toNat 31 16 == pkg))
    || (s.peertab != 0 && bitAt (word64 s.mem (s.peertab + 16 * pkg)) 0)

/-- The delta of a write at its home (R335): old XOR new over the line, recorded as outstanding to the parity packages whose LOSTMASK
bit is clear. -/
def State.addDelta (s : State) (c loc : Nat) (delta : BitVec 512) : State :=
  match s.regionOf loc with
  | none => s
  | some r =>
    if r.role < r.k ∧ (r.st = 1 ∨ r.st = 2) then
      let ws := (List.range r.m).filterMap (fun p => if bitAt r.lost (r.k + p) then none else some (r.shards.getD (r.k + p) 0))
      let d : DeltaOut := { id := s.nDelta, region := r.idx, line := (loc - r.pbase) / 64, shard := r.role, waiting := ws, core := c, delta := delta }
      let t : State := { s with deltas := s.deltas ++ [d], nDelta := s.nDelta + 1 }
      ws.foldl (fun u p => u.queueMem p (memPayload 1 (r.idx + 64 * d.line) (toBytes 1 r.role ++ toBytes 8 d.id ++ toBytes 64 delta.toNat))) t
    else s

def line64 (m : List Host.Cell) (line : Nat) : BitVec 512 := BitVec.ofNat 512 (ofBytes (memRead m (64 * line) 64))

/-! ## Writes at the home -/

/-- The generation of a scratch byte of unspecified contents (R33, R142), none for a byte that has been written. -/
def staleAt (l : List (Nat × Nat × Nat)) (off : Nat) : Option Nat :=
  (l.find? (fun r => decide (r.1 ≤ off) && decide (off < r.2.1))).map (fun r => r.2.2)

/-- Ranges without the bytes from `lo` to `hi`. -/
def cutRanges (lo hi : Nat) (l : List (Nat × Nat × Nat)) : List (Nat × Nat × Nat) :=
  l.flatMap (fun r =>
    (if r.1 < Nat.min r.2.1 lo then [(r.1, Nat.min r.2.1 lo, r.2.2)] else [])
      ++ (if Nat.max r.1 hi < r.2.1 then [(Nat.max r.1 hi, r.2.1, r.2.2)] else []))

/-- Whether ranges hold an offset. -/
def inRanges (l : List (Nat × Nat)) (off : Nat) : Bool := l.any (fun r => decide (r.1 ≤ off) && decide (off < r.2))

/-- Pairs of bounds without the bytes from `lo` to `hi`. -/
def cutPairs (lo hi : Nat) (l : List (Nat × Nat)) : List (Nat × Nat) :=
  (cutRanges lo hi (l.map (fun r => (r.1, r.2, 0)))).map (fun r => (r.1, r.2.1))

/-- The values that a scratch byte has held since the launch began, another context's left out (R8). -/
def State.heldValues (s : State) (id off : Nat) : List Byte :=
  (if inRanges (s.core id).foreign off then [] else [memGet s.mem (scratchLoc id off)])
    ++ ((s.core id).hist.filter (fun q => q.1 == off)).map (fun q => q.2)

/-- The n-th unspecified value of a scratch byte (R8): one that it has held since the launch began. Where the launch's context has held
none there, the value is free (log 4). -/
def State.unspecified (s : State) (id off n : Nat) : Byte :=
  let vs := s.heldValues id off
  if vs.isEmpty then Config.freeByte (n * 2 ^ 34 + off) else vs.getD (Config.freePick (n * 2 ^ 34 + off) % vs.length) 0

/-- A byte of another package's memory: what it has answered, and else a free value (log 5). -/
def State.remoteRd (s : State) (loc : Nat) : Byte :=
  match s.answered.find? (fun q => decide (q.1 ≤ loc) && decide (loc < q.1 + q.2.length)) with
  | some q => q.2.getD (loc - q.1) 0
  | none => Config.remoteByte s.now loc

/-- A byte at its home. A scratch byte of unspecified contents holds a value as R8 allows. -/
def State.rd (s : State) (loc : Nat) : Byte :=
  match placeOf loc with
  | .scratch id off =>
    match staleAt (s.core id).stale off with
    | some g => s.unspecified id off g
    | none => memGet s.mem loc
  | .remote _ _ => s.remoteRd loc
  | _ => memGet s.mem loc

/-- Consecutive bytes at their home. -/
def State.rdBytes (s : State) (loc : Nat) : Nat → List Byte
  | 0 => []
  | n + 1 => s.rd loc :: State.rdBytes s (loc + 1) n

/-- Bytes of scratch that are written hold what was written; what the launch's context held there is kept as R8 needs it. -/
def State.unstale (s : State) (loc n : Nat) : State :=
  match placeOf loc with
  | .scratch id off =>
    let k := s.core id
    let old := ((List.range n).filter (fun i => !inRanges k.foreign (off + i))).map (fun i => (off + i, memGet s.mem (loc + i)))
    s.modCore id (fun k => { k with
      stale := cutRanges off (off + n) k.stale
      foreign := cutPairs off (off + n) k.foreign
      hist := if k.bound then old ++ k.hist else k.hist })
  | _ => s

/-- Bytes at their home, with the parity delta of each 64-byte line touched (R335). -/
def State.homePut (s : State) (c loc : Nat) (bs : List Byte) : State :=
  let s1 : State := { s.unstale loc bs.length with mem := memWrite s.mem loc bs }
  if bs.isEmpty || s.noRegions then s1
  else
    let l0 := loc / 64
    let l1 := (loc + bs.length - 1) / 64
    (List.range (l1 + 1 - l0)).foldl (fun t i => t.addDelta c (64 * (l0 + i)) (line64 s.mem (l0 + i) ^^^ line64 s1.mem (l0 + i))) s1

/-- An agent that is no core: system software, the host, another package. -/
def noCore : Nat := 4096
/-- Loupe's number as an agent of the bridge, and those of the two remote-data caches. -/
def loupeAgent : Nat := 4097
def rdcAgent (d : Nat) : Nat := 4098 + d

/-- A write waits at its home (R326, R335). -/
def State.stall (s : State) (c loc : Nat) (virt : Option (Nat × Nat)) (bs : List Byte) : State :=
  { s with
    stalled := s.stalled ++ [{ id := s.nBridge, src := if c < noCore then rdcAgent (dieOf c) else c, core := c, loc := loc, virt := virt, bytes := bs }]
    nBridge := s.nBridge + 1 }

/-- A write to bytes of which an earlier one waits. -/
def State.behindStalled (s : State) (loc n : Nat) : Bool :=
  s.stalled.any (fun w => w.virt.isNone && decide (w.loc < loc + n) && decide (loc < w.loc + w.bytes.length))

/-- Write bytes at their home on behalf of core `c`. Another package's bytes go there as a store. A parity range takes no store (R333), and in a
region in REBUILD the write waits (R335). -/
def State.homeWrite (s : State) (c loc : Nat) (bs : List Byte) : State :=
  if 2 ^ 64 ≤ loc then s.sendStore .none loc bs
  else match s.regionOf loc with
    | none => if s.behindStalled loc bs.length then s.stall c loc none bs else s.homePut c loc bs
    | some r =>
      if r.k ≤ r.role then s
      else if r.st = 3 || s.behindStalled loc bs.length then s.stall c loc none bs
      else s.homePut c loc bs

/-! ## Lines of 128 bytes and the copies in front of a home -/

def lineOf (loc : Nat) : Nat := loc / 128
def State.lineBytes (s : State) (line : Nat) : BitVec 1024 := BitVec.ofNat 1024 (ofBytes (s.rdBytes (128 * line) 128))

def CLine.byte (l : CLine) (i : Nat) : Byte := BitVec.ofNat 8 (l.data.toNat >>> (8 * i))
def CLine.isDirty (l : CLine) (i : Nat) : Bool := l.dirty.getLsbD i
def CLine.putByte (l : CLine) (i : Nat) (b : Byte) (dirty : Bool) : CLine :=
  { l with
    data := (l.data &&& ~~~ (BitVec.ofNat 1024 (0xFF <<< (8 * i)))) ||| BitVec.ofNat 1024 (b.toNat <<< (8 * i))
    dirty := if dirty then l.dirty ||| BitVec.ofNat 128 (1 <<< i) else l.dirty }

/-- Fresh clean bytes under the line's dirty ones, there from cycle `avail` on. -/
def CLine.refill (l : CLine) (bytes : BitVec 1024) (stamp avail : Nat) : CLine :=
  (List.range 128).foldl (fun r i => if l.isDirty i then r.putByte i (l.byte i) true else r)
    { data := bytes, dirty := 0, stamp := stamp, tag := l.tag, avail := avail }

/-- A line that a store makes: its clean bytes have not been fetched. -/
def CLine.blank : CLine := { full := false }

/-- Whether a line serves a read under a mark (R147, R150). -/
def CLine.fresh (l : CLine) (mark : Nat) : Bool := l.full && decide (mark ≤ l.stamp)

/-- The dirty bytes of a line as (offset, byte). -/
def CLine.dirties (l : CLine) : List (Nat × Byte) :=
  (List.range 128).filterMap (fun i => if l.isDirty i then some (i, l.byte i) else none)

/-! ### The Ranler bridge (R12) and the remote-data caches (R13, R150) -/

/-- The agent that a location belongs to. -/
def agentOf (loc : Nat) : Nat :=
  match placeOf loc with
  | .scratch id _ => id
  | _ => noCore

/-- A transfer leaves; its bytes arrive 40 cycles later, after those of the same pair that left before (R12). -/
def State.bridgeSend (s : State) (src dst loc : Nat) (bs : List Byte) (lseq : Option Nat) : State :=
  let t := s.now + 40
  let m : BridgeMsg := { id := s.nBridge, src := src, dst := dst, due := t, loc := loc, bytes := bs, lseq := lseq }
  State.at_ { s with bridge := s.bridge ++ [m], nBridge := s.nBridge + 1 } t (.bridgeDelivery src dst)

/-- Dirty bytes at rising offsets as runs: first offset and bytes. -/
def runsOf : List (Nat × Byte) → List (Nat × List Byte)
  | [] => []
  | (i, b) :: r =>
    match runsOf r with
    | (j, bs) :: q => if j = i + 1 then (i, b :: bs) :: q else (i, [b]) :: (j, bs) :: q
    | [] => [(i, [b])]

/-- Write back the dirty bytes of an RDC line: they cross the bridge to their home (R12, R150). -/
def State.rdcClean (s : State) (d line : Nat) : State :=
  match Tbl.find? (s.die d).rdc line with
  | none => s
  | some l =>
    let s1 := (runsOf l.dirties).foldl (fun t r => t.bridgeSend (rdcAgent d) (agentOf (128 * line)) (128 * line + r.1) r.2 none) s
    s1.modDie d (fun x => { x with rdc := Tbl.put x.rdc line { l with dirty := 0 } })

def State.rdcDrain (s : State) (d : Nat) : State :=
  (s.die d).rdc.foldl (fun t p => if p.2.dirty = 0 then t else t.rdcClean d p.1) s

/-- A line leaves the RDC, its dirty bytes for their home. -/
def State.rdcEvict (s : State) (d line : Nat) : State := (s.rdcClean d line).modDie d (fun x => { x with rdc := Tbl.del x.rdc line })

/-- Lines of a die's remote-data cache: 64 MiB on Nared, 128 MiB on Eplia (R1, R13). -/
def rdcCap (d : Nat) : Nat := if d = 0 then 2 ^ 19 else 2 ^ 20

/-- Room for one more line: of a full cache the lowest line leaves (log 11). -/
def State.rdcRoom (s : State) (d line : Nat) : State :=
  if (Tbl.find? (s.die d).rdc line).isNone ∧ rdcCap d ≤ (s.die d).rdc.length then s.rdcEvict d (((s.die d).rdc.headD (0, {})).1) else s

/-- Bytes over those of a line. -/
def CLine.over (r : CLine) (loc : Nat) (bs : List Byte) : CLine :=
  ((List.range bs.length).zip bs).foldl (fun (q : CLine) b => q.putByte (loc % 128 + b.1) b.2 false) r

/-- A line at its home as the die knows it that has sent bytes there: those that wait there (R335), and those on their way, come first (R12). -/
def State.homeLine (s : State) (d line : Nat) : BitVec 1024 :=
  let waits := s.stalled.filter (fun m => m.src == rdcAgent d && m.virt.isNone && lineOf m.loc == line)
  let comes := s.bridge.filter (fun m => m.src == rdcAgent d && lineOf m.loc == line)
  (comes.foldl (fun (r : CLine) m => r.over m.loc m.bytes) (waits.foldl (fun (r : CLine) m => r.over m.loc m.bytes) { data := s.lineBytes line })).data

/-- The RDC fills a line from its home, keeps its dirty bytes and stamps it (R150); the bytes are there from cycle `avail` on. -/
def State.rdcFill (s : State) (d line avail : Nat) : State :=
  let s1 := s.rdcRoom d line
  s1.modDie d (fun x => { x with
    rdc := Tbl.put x.rdc line ((Tbl.getD x.rdc line {}).refill (s.homeLine d line) x.rdcFill.toNat avail)
    rdcFill := x.rdcFill + 1 })

/-- Whether a line of the RDC serves a read under a mark (R150). -/
def State.rdcFresh (s : State) (d line mark : Nat) : Bool :=
  match Tbl.find? (s.die d).rdc line with
  | some l => l.fresh mark
  | none => false

/-- RDC: make a line present with a stamp at or above the mark (R150). -/
def State.rdcEnsure (s : State) (d line mark avail : Nat) : State := if s.rdcFresh d line mark then s else s.rdcFill d line avail

/-- A byte at the die's point, without a fill: that of the home of a line homed on the die; else what the die's RDC holds dirty, or clean in a line
that serves the read, and else that of the home (R14, R150). -/
def State.pointByte (s : State) (d : Nat) (serves : CLine → Bool) (loc : Nat) : Byte :=
  if homeDie loc = none ∨ (homeDie loc = some d ∧ s.stalled.isEmpty) then s.rd loc
  else if homeDie loc = some d then BitVec.ofNat 8 ((s.homeLine d (lineOf loc)).toNat >>> (8 * (loc % 128)))
  else
    let home : Byte := BitVec.ofNat 8 ((s.homeLine d (lineOf loc)).toNat >>> (8 * (loc % 128)))
    match Tbl.find? (s.die d).rdc (lineOf loc) with
    | some l => if l.isDirty (loc % 128) || serves l then l.byte (loc % 128) else home
    | none => home

/-- A byte reaches the die's point (R151): the home of a line homed on the die, else the die's RDC. -/
def State.dieWrite (s : State) (c loc : Nat) (b : Byte) : State :=
  let d := dieOf c
  if homeDie loc = some d ∨ homeDie loc = none then s.homeWrite c loc [b]
  else
    (s.rdcRoom d (lineOf loc)).modDie d (fun x =>
      { x with rdc := Tbl.put x.rdc (lineOf loc) ((Tbl.getD x.rdc (lineOf loc) CLine.blank).putByte (loc % 128) b true) })

/-- Bytes reach the die's point. -/
def State.dieWrites (s : State) (c loc : Nat) (bs : List Byte) : State :=
  if homeDie loc = some (dieOf c) ∨ homeDie loc = none then s.homeWrite c loc bs
  else ((List.range bs.length).zip bs).foldl (fun (t : State) q => t.dieWrite c (loc + q.1) q.2) s

/-- A release store that a die's dispatcher or trap logic makes at a scope: it reaches the die's point, and from PACKAGE up its home, which on
the other die is a crossing away (R12, R151). -/
def State.logicWrite (s : State) (d sc loc : Nat) (bs : List Byte) : State :=
  if homeDie loc = some d ∨ homeDie loc = none then s.homeWrite noCore loc bs
  else if scopeRank sc < 4 then s.dieWrites (2048 * d) loc bs
  else s.bridgeSend (rdcAgent d) (agentOf loc) loc bs none

/-! ### The quad store buffer and the L1 (R147) -/

/-- The quad store buffer entry of a line leaves for the die's point. -/
def State.qsbFlush (s : State) (c line : Nat) : State :=
  let q := Tbl.getD s.qsb (quadOf c) []
  match Tbl.find? q line with
  | none => s
  | some l =>
    let s1 := l.dirties.foldl (fun t p => t.dieWrite c (128 * line + p.1) p.2) s
    { s1 with qsb := Tbl.put s1.qsb (quadOf c) (Tbl.del q line) }

def State.qsbDrain (s : State) (c : Nat) : State :=
  (Tbl.getD s.qsb (quadOf c) []).foldl (fun t p => t.qsbFlush c p.1) s

/-- A dirty byte enters the quad store buffer; at 64 lines (8 KiB) the lowest line leaves first. -/
def State.qsbWrite (s : State) (c loc : Nat) (b : Byte) : State :=
  let line := lineOf loc
  let q := Tbl.getD s.qsb (quadOf c) []
  let s1 := if (Tbl.find? q line).isNone ∧ 64 ≤ q.length then s.qsbFlush c ((q.headD (0, {})).1) else s
  let q1 := Tbl.getD s1.qsb (quadOf c) []
  { s1 with qsb := Tbl.put s1.qsb (quadOf c) (Tbl.put q1 line ((Tbl.getD q1 line CLine.blank).putByte (loc % 128) b true)) }

/-- Whether a line that a core reaches through copies is homed on the other die (R146). -/
def crosses (c line : Nat) : Bool := homeDie (128 * line) != some (dieOf c)

/-- The line as a core sees it below its L1: the buffer's dirty bytes over the die's copy or the home. A line that must be fetched across
the bridge is there from cycle `avail` on. -/
def State.belowL1 (s : State) (c line avail : Nat) : State × BitVec 1024 :=
  let d := dieOf c
  let s1 := if crosses c line then s.rdcEnsure d line (s.core c).rdcMark avail else s
  let base : BitVec 1024 := if crosses c line then (Tbl.getD (s1.die d).rdc line {}).data else if s.stalled.isEmpty then s1.lineBytes line else s1.homeLine d line
  let q := Tbl.getD (Tbl.getD s1.qsb (quadOf c) []) line {}
  (s1, ((q.dirties.foldl (fun (r : CLine) p => r.putByte p.1 p.2 false) { data := base }).data))

/-- The dirty bytes of an L1 line leave for the quad store buffer. -/
def State.l1Clean (s : State) (c line : Nat) : State :=
  match Tbl.find? (s.core c).l1 line with
  | none => s
  | some l =>
    let s1 := l.dirties.foldl (fun t p => t.qsbWrite c (128 * line + p.1) p.2) s
    s1.modCore c (fun k => { k with l1 := Tbl.put k.l1 line { l with dirty := 0 } })

def State.l1Drain (s : State) (c : Nat) : State :=
  (s.core c).l1.foldl (fun t p => if p.2.dirty = 0 then t else t.l1Clean c p.1) s

def State.l1Evict (s : State) (c line : Nat) : State :=
  (s.l1Clean c line).modCore c (fun k => { k with l1 := Tbl.del k.l1 line })

/-- Room for one more line of the L1: at capacity the lowest line leaves (log 11). -/
def State.l1Room (s : State) (c line : Nat) : State :=
  if (Tbl.find? (s.core c).l1 line).isNone ∧ s.l1Cap c ≤ (s.core c).l1.length then s.l1Evict c (((s.core c).l1.headD (0, {})).1) else s

/-- L1: make a line present, filled after the thread's L1 mark (R147). -/
def State.l1Ensure (s : State) (c line avail : Nat) : State :=
  if (match Tbl.find? (s.core c).l1 line with | some l => l.fresh (s.core c).l1Mark | none => false) then s
  else
    let r := (s.l1Room c line).belowL1 c line avail
    r.1.modCore c (fun k => { k with
      l1 := Tbl.put k.l1 line ((Tbl.getD k.l1 line {}).refill r.2 k.fills avail), fills := k.fills + 1 })

/-- Whether a thread's access to a location goes through L1 and the quad store buffer (R146). -/
def cacheable (c loc : Nat) : Bool :=
  match placeOf loc with
  | .hbm => true
  | .tier2 => true
  | .scratch id _ => dieOf id != dieOf c
  | _ => false

/-- How a read of a line through a core's copies stands: it is served now, it must fetch the line across the bridge, or it waits for a
fetch on its way (R12, R146, R147, R150). -/
inductive Reach where
  | ready
  | fetch
  | later
  deriving DecidableEq, Repr

/-- The RDC's part of a read. -/
def State.rdcReach (s : State) (c line : Nat) : Reach :=
  match Tbl.find? (s.die (dieOf c)).rdc line with
  | some l => if l.fresh (s.core c).rdcMark then (if l.avail ≤ s.now then .ready else .later) else .fetch
  | none => .fetch

/-- A read of one byte. -/
def State.reach (s : State) (c loc : Nat) : Reach :=
  let line := lineOf loc
  if !cacheable c loc then .ready
  else match (if s.l1Cap c = 0 then none else Tbl.find? (s.core c).l1 line) with
    | some l =>
      if l.isDirty (loc % 128) then .ready
      else if l.fresh (s.core c).l1Mark then (if l.avail ≤ s.now then .ready else .later)
      else if crosses c line then s.rdcReach c line else .ready
    | none => if crosses c line then s.rdcReach c line else .ready

/-- The reach of consecutive bytes: a fetch before a wait. -/
def State.reaches (s : State) (c loc : Nat) : Nat → Reach
  | 0 => .ready
  | n + 1 =>
    match s.reach c loc, State.reaches s c (loc + 1) n with
    | .fetch, _ => .fetch
    | _, .fetch => .fetch
    | .later, _ => .later
    | _, r => r

/-- A thread reads one byte through its copies (R146, R147). -/
def State.thrRead (s : State) (c loc avail : Nat) : State × Byte :=
  if cacheable c loc then
    (if s.l1Cap c = 0 then
      let r := s.belowL1 c (lineOf loc) avail
      (r.1, BitVec.ofNat 8 (r.2.toNat >>> (8 * (loc % 128))))
    else if (Tbl.getD (s.core c).l1 (lineOf loc) {}).isDirty (loc % 128) then
      (s, (Tbl.getD (s.core c).l1 (lineOf loc) {}).byte (loc % 128))
    else
      let s1 := s.l1Ensure c (lineOf loc) avail
      (s1, (Tbl.getD (s1.core c).l1 (lineOf loc) {}).byte (loc % 128)))
  else (s, s.rd loc)

def State.thrReads (s : State) (c loc avail : Nat) : Nat → State × List Byte
  | 0 => (s, [])
  | n + 1 =>
    let r := s.thrRead c loc avail
    let q := State.thrReads r.1 c (loc + 1) avail n
    (q.1, r.2 :: q.2)

/-- A thread's plain store of one byte: into its L1, the buffer, or the home (R147, R149). -/
def State.thrWrite (s : State) (c loc : Nat) (b : Byte) : State :=
  if cacheable c loc then
    (if s.l1Cap c = 0 then s.qsbWrite c loc b
    else
      (s.l1Room c (lineOf loc)).modCore c (fun k =>
        { k with l1 := Tbl.put k.l1 (lineOf loc) ((Tbl.getD k.l1 (lineOf loc) CLine.blank).putByte (loc % 128) b true) }))
  else s.homeWrite c loc [b]

/-- A store to Carafe by Eplia crosses the bridge in 40 cycles (R12, R15, R274). -/
def State.carafeSend (s : State) (m : CarafeMsg) : State :=
  State.at_ { s with carafeOut := s.carafeOut ++ [m] } (s.now + 40) (.carafeStore m.slot m.off m.bytes)

/-- A plain store of consecutive bytes. -/
def State.thrWrites (s : State) (c loc : Nat) (bs : List Byte) : State :=
  match placeOf loc with
  | .carafe slot off => s.carafeSend { slot := slot, off := off, bytes := bs }
  | _ =>
    if cacheable c loc then ((List.range bs.length).zip bs).foldl (fun t p => t.thrWrite c (loc + p.1) p.2) s
    else s.homeWrite c loc bs

/-- Dirty bytes leave the copies as an ordering operation at a scope demands (R147, R150); `rel` for the write-through at release. -/
def State.drainTo (s : State) (c sc : Nat) (rel : Bool) : State :=
  let r := scopeRank sc
  let s1 := if 1 ≤ r then s.l1Drain c else s
  let s2 := if 2 ≤ r then s1.qsbDrain c else s1
  if rel ∧ 4 ≤ r then s2.rdcDrain (dieOf c) else s2

/-- The marks of an acquire at a scope (R157). -/
def State.setMarks (s : State) (c sc : Nat) : State :=
  let r := scopeRank sc
  let f := (s.die (dieOf c)).rdcFill.toNat
  s.modCore c (fun k => { k with l1Mark := if 1 ≤ r then k.fills else k.l1Mark, rdcMark := if 4 ≤ r then f else k.rdcMark })

/-- Every copy of a line that an atomic must see at its home leaves this core's reach (R152): its own copies are drained and dropped
before the access goes to the home. -/
def State.toHome (s : State) (c loc : Nat) : State :=
  if cacheable c loc then
    let s1 := (s.l1Evict c (lineOf loc)).qsbFlush c (lineOf loc)
    if homeDie loc = some (dieOf c) then s1 else s1.rdcEvict (dieOf c) (lineOf loc)
  else s

/-- A byte at its home as a thread knows it that polls it there: the bytes that its own copies hold dirty come over it. -/
def State.homeView (s : State) (c loc : Nat) : Byte :=
  let dirtyIn (t : Tbl CLine) (b : Byte) : Byte :=
    match Tbl.find? t (lineOf loc) with
    | some l => if l.isDirty (loc % 128) then l.byte (loc % 128) else b
    | none => b
  if !cacheable c loc then s.rd loc
  else
    let h := if crosses c (lineOf loc) then BitVec.ofNat 8 ((s.homeLine (dieOf c) (lineOf loc)).toNat >>> (8 * (loc % 128))) else s.rd loc
    dirtyIn (s.core c).l1 (dirtyIn (Tbl.getD s.qsb (quadOf c) []) (if crosses c (lineOf loc) then dirtyIn (s.die (dieOf c)).rdc h else h))

/-! ## Translation -/

/-- Causes of R338 that an address can raise. -/
inductive Cause where
  | align | range | xlate | prot
  deriving DecidableEq, Repr

/-- The rights an access needs (R319). -/
structure Need where
  r : Bool := false
  w : Bool := false
  x : Bool := false
  deriving DecidableEq, Repr

/-- A page-table entry that breaks the rules of R318 at a level. -/
def malformed (lvl : Nat) (e : Nat) : Bool :=
  let leaf := bitAt e 1
  if leaf = false then
    lvl = 0 || fld e 7 2 != 0 || fld e 63 52 != 0 || (lvl != 1 && fld e 11 8 != 0)
  else
    lvl = 3 || (!bitAt e 6 && fld e 63 52 != 0) || (lvl = 2 && fld e 29 16 != 0) || (lvl = 1 && fld e 20 16 != 0)
      || (lvl != 0 && fld e 15 7 != 0)

/-- Index of a virtual address at a level (R317). -/
def ptIndex (lvl va : Nat) : Nat :=
  match lvl with
  | 3 => fld va 55 39
  | 2 => fld va 38 30
  | 1 => fld va 29 21
  | _ => fld va 20 16

/-- Bits of the page that a leaf at a level maps. -/
def leafBits (lvl : Nat) : Nat :=
  match lvl with
  | 2 => 30
  | 1 => 21
  | _ => 16

/-- The walk of R317 from level `lvl` down: the leaf with its page bits, or a translation fault. -/
def walkFrom (m : List Host.Cell) (va : Nat) : Nat → Nat → Option (Nat × Nat)
  | lvl, base =>
    let e := word64 m (base + 8 * ptIndex lvl va)
    if !bitAt e 0 || malformed lvl e then none
    else if bitAt e 1 then some (e, leafBits lvl)
    else
      match lvl with
      | 0 => none
      | l + 1 => walkFrom m va l (fld e 51 8 * 256)

def State.walk (s : State) (ctx va : Nat) : Option (Nat × Nat) := walkFrom s.mem va 3 (s.ctx ctx).ptbase

/-- The location a leaf maps an address to; an RMAP leaf names another package (R319). -/
def State.leafLoc (s : State) (leaf bits va : Nat) : Nat :=
  let pa := fld leaf 51 16 * 65536 / 2 ^ bits * 2 ^ bits + va % 2 ^ bits
  if bitAt leaf 6 then
    let pkg := fld leaf 63 52
    if Config.isHostPkg pkg then hostLoc pa else if pkg = s.pkgnum then pa else remoteLoc pkg pa
  else pa

/-- The decode of R315 for an access by core or engine of die `d` (R15, R315, R334). -/
def State.physCheck (s : State) (loc : Nat) (n : Need) : Option Cause :=
  match placeOf loc with
  | .hole => some .range
  | .scratch id off =>
    if !(s.core id).bound || decide (s.scratchLen id ≤ off) then some .range else none
  | .hbm => if n.w && s.isParity loc then some .prot else none
  | .tier2 => if n.w && s.isParity loc then some .prot else none
  | .remote pkg _ => if s.hasPath pkg then none else some .prot
  | _ => none

/-- The checks 2 and 3 of R319 on a leaf. -/
def leafDenied (priv : Bool) (leaf : Nat) (n : Need) : Bool :=
  (bitAt leaf 5 && !priv) || (n.r && !bitAt leaf 2) || (n.w && !bitAt leaf 3) || (n.x && !bitAt leaf 4)

/-- Translation of a global virtual address in a context, without a TLB (the dispatcher, Loupe, a second level). -/
def State.xlateCtx (s : State) (ctx va : Nat) (n : Need) : Except Cause Nat :=
  let x := s.ctx ctx
  if 2 ^ 56 ≤ va then .error .range
  else if x.heapb.toNat ≤ va ∧ va < x.heapb.toNat + x.heapl.toNat then
    let pa := (va + x.heapo.toNat) % 2 ^ 52
    match s.physCheck pa n with
    | some f => .error f
    | none => .ok pa
  else
    match s.walk ctx va with
    | none => .error .xlate
    | some (leaf, bits) =>
      if leafDenied x.priv leaf n then .error .prot
      else
        let loc := s.leafLoc leaf bits va
        match s.physCheck loc n with
        | some f => .error f
        | none => .ok loc

def TlbEnt.hits (e : TlbEnt) (ctx va : Nat) : Bool := e.ctx == ctx && e.vpage == va >>> e.bits

/-- Look a page up in the core TLB, the group TLB and the tables, in that order (R63, R320); both TLBs learn the leaf. -/
def State.tlbLook (s : State) (c ctx va : Nat) : State × Option (Nat × Nat) :=
  let d := dieOf c
  let g := groupOf c
  let gl := Tbl.getD (s.die d).gtlb g []
  match (s.core c).tlb.find? (fun e => e.hits ctx va) with
  | some e => (s, some (e.leaf.toNat, e.bits))
  | none =>
    match gl.find? (fun e => e.hits ctx va) with
    | some e => (s.modCore c (fun k => { k with tlb := (e :: k.tlb).take 64 }), some (e.leaf.toNat, e.bits))
    | none =>
      match s.walk ctx va with
      | none => (s, none)
      | some (leaf, bits) =>
        let e : TlbEnt := { ctx := ctx, vpage := va >>> bits, bits := bits, leaf := u64 leaf }
        let s1 := s.modCore c (fun k => { k with tlb := (e :: k.tlb).take 64 })
        (s1.modDie d (fun x => { x with gtlb := Tbl.put x.gtlb g ((e :: gl).take 4096) }), some (leaf, bits))

/-- Whether a page is in motion, so that stores to it wait (R326): read from the tables. -/
def State.pageMoving (s : State) (ctx va : Nat) : Bool :=
  let x := s.ctx ctx
  if x.heapb.toNat ≤ va ∧ va < x.heapb.toNat + x.heapl.toNat then false
  else
    match s.walk ctx va with
    | some (leaf, bits) => bits = 16 && bitAt leaf 7
    | none => false

/-- Some page of a span is in motion. -/
def State.pagesMoving (s : State) (ctx va len : Nat) : Bool :=
  (List.range (len / 65536 + 2)).any (fun i => let a := Nat.min (va + 65536 * i) (va + (len - 1)); s.pageMoving ctx (a % 2 ^ 56))

/-- A write that waits: a page of it is in motion (R326), or in a Mirror region in REBUILD (R335). -/
def State.writeHeld (s : State) (ctx va len : Nat) : Bool :=
  (List.range (len / 65536 + 2)).any (fun i =>
    let a := Nat.min (va + 65536 * i) (va + (len - 1)) % 2 ^ 56
    s.pageMoving ctx a || (match s.xlateCtx ctx a {} with | .ok loc => s.inRebuild loc | .error _ => false))

/-- R63 and R319 for one byte address of a thread or engine of core `c` in its context: the location, and whether the form is
local scratch. -/
def State.xlate (s : State) (c : Nat) (ea : Nat) (n : Need) : State × Except Cause (Nat × Bool) :=
  let k := s.core c
  if bitAt ea 63 then
    (if fld ea 62 21 != 0 || decide (s.scratchLen c ≤ fld ea 20 0) then (s, .error .range)
     else (s, .ok (scratchLoc c (fld ea 20 0), true)))
  else if fld ea 62 56 != 0 then (s, .error .range)
  else
    let x := s.ctx k.ctx
    let va := fld ea 55 0
    if x.heapb.toNat ≤ va ∧ va < x.heapb.toNat + x.heapl.toNat then
      let pa := (va + x.heapo.toNat) % 2 ^ 52
      match s.physCheck pa n with
      | some f => (s, .error f)
      | none => (s, .ok (pa, false))
    else
      let r := s.tlbLook c k.ctx va
      match r.2 with
      | none => (r.1, .error .xlate)
      | some (leaf, bits) =>
        if leafDenied x.priv leaf n then (r.1, .error .prot)
        else
          let loc := s.leafLoc leaf bits va
          match s.physCheck loc n with
          | some f => (r.1, .error f)
          | none => (r.1, .ok (loc, false))

/-- The first byte of a part of a page that R315 does not decode, and its fault: populated memory may end inside a page. -/
def State.badByte (s : State) (n : Need) (loc part : Nat) : Option (Cause × Nat) :=
  match s.physCheck (loc + part - 1) n with
  | none => none
  | some _ => (List.range part).findSome? (fun i => (s.physCheck (loc + i) n).map (fun f => (f, i)))

/-- A part of a page in a context: its location, or the fault of the first byte that has one. -/
def State.xlatePart (s : State) (ctx va part : Nat) (n : Need) : Except Cause Nat :=
  match s.xlateCtx ctx va n with
  | .error f => .error f
  | .ok loc => match s.badByte n loc part with
    | some (f, _) => .error f
    | none => .ok loc

/-- The faults of every 64 KiB page part of an access, in address order (R169: each page is checked on its own). -/
def State.spanFaults (s : State) (c : Nat) (n : Need) : Nat → Nat → Nat → List (Cause × Nat)
  | 0, _, _ => []
  | fuel + 1, ea, len =>
    if len = 0 then []
    else
      let part := Nat.min len (65536 - ea % 65536)
      let here : List (Cause × Nat) := match (s.xlate c (ea % 2 ^ 64) n).2 with
        | .error f => [(f, ea % 2 ^ 64)]
        | .ok (loc, lcl) =>
          if lcl then (if s.scratchLen c < fld ea 20 0 + part then [(.range, ea % 2 ^ 64)] else [])
          else match s.badByte n loc part with
            | some (f, i) => [(f, (ea + i) % 2 ^ 64)]
            | none => []
      here ++ State.spanFaults s c n fuel (ea + part) (len - part)

/-- Consecutive bytes of an access cut at 64 KiB page boundaries, each part translated (R169). -/
def State.xlateSpan (s : State) (c : Nat) (n : Need) : Nat → Nat → Nat → Nat → State × Except (Cause × Nat) (List Piece × Bool)
  | 0, _, _, _ => (s, .ok ([], false))
  | fuel + 1, ea, off, len =>
    if len = 0 then (s, .ok ([], false))
    else
      let part := Nat.min len (65536 - ea % 65536)
      let r := s.xlate c (ea % 2 ^ 64) n
      match r.2 with
      | .error f => (r.1, .error (f, ea % 2 ^ 64))
      | .ok (loc, lcl) =>
        -- the last byte of a local access must lie in the scratch units too (R63), and every byte in a place that exists (R315)
        if lcl ∧ s.scratchLen c < fld ea 20 0 + part then (r.1, .error (.range, ea % 2 ^ 64))
        else match (if lcl then none else s.badByte n loc part) with
        | some (f, i) => (r.1, .error (f, (ea + i) % 2 ^ 64))
        | none =>
          let q := State.xlateSpan r.1 c n fuel (ea + part) (off + part) (len - part)
          match q.2 with
          | .error f => (q.1, .error f)
          | .ok (ps, l2) => (q.1, .ok ({ off := off, len := part, loc := loc } :: ps, lcl || l2))

/-! ## Events, notices, registers that saturate -/

def sat32 (n : Nat) : Nat := Nat.min n (2 ^ 32 - 1)
def sat16 (n : Nat) : Nat := Nat.min n 65535

/-- Word of a vector's table entry: 0 its address, 1 its data, with its mask bit at 32 (PCI Express's layout, log 105). -/
def HostLink.vector (h : HostLink) (v i : Nat) : Nat := (h.msixTable.getD (2 * v + i) 0).toNat

/-- An MSI-X vector fires: its message goes out, or, while its mask bit is 1, its pending bit stands at 1. -/
def HostLink.fire (h : HostLink) (v : Nat) : HostLink :=
  if bitAt (h.vector v 1) 32 then { h with msix := h.msix ||| BitVec.ofNat 64 (2 ^ v) }
  else { h with msixSent := h.msixSent ++ [(v, h.vector v 0, fld (h.vector v 1) 31 0)] }

/-- Pending vectors whose mask bit has gone send their messages. -/
def HostLink.unmask (h : HostLink) : HostLink :=
  (List.range 64).foldl (fun h v =>
    if h.msix.getLsbD v && !bitAt (h.vector v 1) 32 then ({ h with msix := h.msix &&& ~~~ (BitVec.ofNat 64 (2 ^ v)) } : HostLink).fire v else h) h

/-- The MSI-X vectors that an event bit fires (R357). -/
def State.irqsOf (s : State) (ctx bit : Nat) : List Nat :=
  (List.range 64).filter (fun v =>
    let x := (s.host.irqmap.getD v 0).toNat
    bitAt x 15 && fld x 5 0 == ctx % 64 && fld x 6 6 == ctx / 64 && fld x 14 7 == bit)

def State.msixFor (s : State) (ctx bit : Nat) : State := { s with host := (s.irqsOf ctx bit).foldl (fun h v => h.fire v) s.host }

/-- Set an event bit of a context (R61); an MSI-X vector fires when the bit becomes set. -/
def State.setEvent (s : State) (ctx bit : Nat) : State :=
  let x := s.ctx ctx
  let s1 := s.setCtx ctx { x with ev := x.ev ||| BitVec.ofNat 256 (2 ^ bit) }
  if x.ev.getLsbD bit then s1 else s1.msixFor ctx bit

/-- An event bit that the completion of a command or a launch sets. It is a write of the coming cycle, after the threads' writes of that cycle
(R26, R60, R61). -/
def State.lateEvent (s : State) (ctx bit : Nat) : State := { s with evLate := s.evLate ++ [(ctx, bit)] }

/-- The event bits of completions come after the threads' writes of a cycle, and before its tests. -/
def State.lateEvents (s : State) : State := s.evLate.foldl (fun (t : State) e => t.setEvent e.1 e.2) { s with evLate := [] }

def State.clrEvent (s : State) (ctx bit : Nat) : State :=
  s.modCtx ctx (fun x => { x with ev := x.ev &&& ~~~ (BitVec.ofNat 256 (2 ^ bit)) })

/-- A notice to the management core (R357): dropped and counted when 63 stand. -/
def State.notice (s : State) (kind w1 w3 : Nat) : State :=
  let m := s.mbox
  if (m.ntw + 2 ^ 64 - m.ntr) % 2 ^ 64 = 63 then { s with mbox := { m with ntlost := sat32 (m.ntlost + 1) } }
  else { s with mbox := { m with notices := Tbl.put m.notices (m.ntw % 63) [u64 kind, u64 w1, u64 s.now, u64 w3, 0, 0, 0, 0], ntw := m.ntw + 1 } }

/-! ## Stops and trap records (R338 to R342) -/

def causeCode : Cause → Nat
  | .align => 6
  | .range => 7
  | .xlate => 8
  | .prot => 9

def b2n (b : Bool) : Nat := if b then 1 else 0

/-- The eight words of R340. -/
def State.trapWords (s : State) (c : Nat) (st : Stop) (isStop : Bool) : List U64 :=
  let k := s.core c
  let l := s.launch k.launch
  let resume := if isStop then st.resume.getD k.pc else 0
  [u64 (st.cause + st.sub * 2 ^ 8 + st.slot * 2 ^ 16 + st.runit * 2 ^ 20 + b2n st.fx * 2 ^ 22 + b2n (!k.tagged) * 2 ^ 23
      + b2n isStop * 2 ^ 24 + b2n st.held * 2 ^ 25 + k.rep * 2 ^ 26),
    u64 ((st.baddr.getD k.pc) % 2 ^ 56), u64 (resume % 2 ^ 56), u64 st.faddr, u64 st.info, u64 k.lcyc,
    u64 (c + (k.ctx % 64) * 2 ^ 12 + dieOf c * 2 ^ 18 + l.queue * 2 ^ 32 + (l.ticket % 2 ^ 24) * 2 ^ 40), k.drec]

/-- Write the record into ss4 to ss11. -/
def State.putRecord (s : State) (c : Nat) (ws : List U64) : State :=
  s.modCore c (fun k => { k with ss := k.ss.take 4 ++ ws ++ k.ss.drop 12 })

/-- Whether the die's trap queue has room (R341): TRAPQW − TRAPQR, in 32 bits, is not TRAPQN. -/
def Die.trapRoom (d : Die) : Bool := d.trapqn != 0 && (d.trapqw + 2 ^ 32 - d.trapqr) % 2 ^ 32 != d.trapqn

/-- Append an entry to the die's trap queue: a release at DIE scope, count, event (R341). An entry whose place is a Mirror parity range, to which no agent
stores (R333), is lost and counted; DESIGN CHOICE (log 12): the manual names nobody that the protection fault goes to. -/
def State.trapAppend (s : State) (d : Nat) (ws : List U64) : State :=
  let x := s.die d
  if s.isParity (x.trapqbase + 64 * (x.trapqw % x.trapqn)) then s.modDie d (fun y => { y with tqlost := sat32 (y.tqlost + 1) }) else
  let s1 := s.logicWrite d 3 (x.trapqbase + 64 * (x.trapqw % x.trapqn)) (ws.flatMap (fun w => toBytes 8 w.toNat))
  (s1.modDie d (fun y => { y with trapqw := (y.trapqw + 1) % 2 ^ 32 })).setEvent (ctxKey d x.trapctx) x.trapev

/-- One entry of a cycle: written when there is room; else a stop waits for room, and a notice is dropped and counted (R341). -/
def State.trapOne (s : State) (d : Nat) (e : Nat × Bool × List U64) : State :=
  if (s.die d).trapRoom then (if e.2.1 then s.trapAppend d e.2.2 else (s.trapAppend d e.2.2).modCore e.1 (fun k => { k with trapWait := false }))
  else if e.2.1 then s.modDie d (fun y => { y with tqlost := sat32 (y.tqlost + 1) })
  else s.modCore e.1 (fun k => { k with trapWait := true, trapWs := e.2.2 })

/-- A stop or notice of core `c` reaches the die's trap queue (R341). The entries of one cycle stand there in ascending core id, a core's stop
before its notices, whichever arose first: an entry that must stand before earlier ones of its cycle is written with them anew. With no queue
nothing is written. -/
def State.trapEntry (s : State) (d c : Nat) (note : Bool) (ws : List U64) : State :=
  let x := s.die d
  if x.trapqn = 0 then s
  else if x.trapCyc ≠ s.now + 1 then
    (s.modDie d (fun y => { y with trapCyc := s.now + 1, trapW0 := y.trapqw, trapL0 := y.tqlost, trapNow := [(c, note, ws)] })).trapOne d (c, note, ws)
  else
    let es := insertRank (fun (e : Nat × Bool × List U64) => [e.1, if e.2.1 then 1 else 0]) (c, note, ws) x.trapNow
    if es.getLast? = some (c, note, ws) then (s.modDie d (fun y => { y with trapNow := es })).trapOne d (c, note, ws)
    else es.foldl (fun t e => t.trapOne d e) (s.modDie d (fun y => { y with trapqw := y.trapW0, tqlost := y.trapL0, trapNow := es }))

/-- The cores that run tasks of a launch. -/
def State.coresOf (s : State) (l : Nat) : List Nat :=
  s.cores.filterMap (fun p => if p.2.bound && p.2.launch = l then some p.1 else none)

/-- The cores of a gang and of its co-timetabled partner. -/
def State.pairCores (s : State) (l : Nat) : List Nat :=
  s.coresOf l ++ (match (s.launch l).partner with | some q => if q = l then [] else s.coresOf q | none => [])

/-- End a task as a fault does (R32): what it had in flight completes, the launch is FAULTED. -/
def State.endFaulted (s : State) (c : Nat) : State :=
  let l := (s.core c).launch
  (s.modCore c (fun k => { k with status := .drain, held := [], trapWait := false })).modLaunch l (fun x => { x with faulted := true })

/-- End every task of a gang and of its co-timetabled partner, or the one TAGGED task (R341, R343). -/
def State.endGang (s : State) (c : Nat) : State :=
  let l := (s.core c).launch
  if (s.core c).tagged then s.endFaulted c
  else
    let cs := s.coresOf l ++ (match (s.launch l).partner with | some q => s.coresOf q | none => [])
    cs.foldl (fun t i => match (t.core i).status with | .drain => t | _ => t.endFaulted i) s

/-- Take a stop (R338): the record is written, the task stops, and the queue entry follows (R341). With no queue the task ends; the rest
of its gang ends with it at the end of the cycle. A protection fault is an automatic freeze, of which the management core hears (R345). -/
def State.takeStop (s : State) (c : Nat) (st : Stop) : State :=
  let d := dieOf c
  let ws := s.trapWords c st true
  let s1 := (s.putRecord c ws).modCore c (fun k =>
    { k with
      status := .stopped
      stall := if st.resume.isNone then none else k.stall
      restarted := k.restarted || st.resume.isNone
      turn := true
      hold := none
      pc := st.resume.getD k.pc })
  let s2 := if st.cause = 9 then s1.notice 1 c 0 else s1
  if (s.die d).trapqn = 0 then s2.endFaulted c else s2.trapEntry d c false ws

/-- A notice (R338): recorded, queued when there is room, else dropped and counted. -/
def State.takeNotice (s : State) (c : Nat) (st : Stop) : State :=
  let d := dieOf c
  let ws := s.trapWords c st false
  (s.putRecord c ws).trapEntry d c true ws

/-- The return from a stop (R343): a release with ACTION RESUME, the records cleared first when CLRREC asks for it. -/
def State.resumeTask (s : State) (c : Nat) (clr : Bool) : State :=
  s.modCore c (fun k => { k with
    status := .run
    trapWait := false
    recs := if clr then List.replicate 14 none else k.recs
    drec := if clr then 0 else k.drec })

/-- Write the D record when it is clear, with its notice (R244, R338). -/
def State.setDrec (s : State) (c pc status : Nat) : State :=
  if (s.core c).drec = 0 then
    (s.modCore c (fun k => { k with drec := u64 (pc % 2 ^ 56 + status * 2 ^ 56) })).takeNotice c { cause := 0x11, faddr := 0, baddr := some pc }
  else s

/-- Record an arithmetic event (R68): sticky bits, and the bundle address in a clear record of the slot. -/
def Core.flag (k : Core) (inv ari : Bool) (slot pc : Nat) : Core :=
  if inv || ari then
    { k with inv := k.inv || inv, arith := k.arith || ari,
             recs := if k.recs.getD slot none = none then k.recs.set slot (some pc) else k.recs }
  else k

/-- A byte barrier's overrun record sets no sticky bit (R180). -/
def Core.markRec (k : Core) (slot pc : Nat) : Core :=
  { k with recs := if k.recs.getD slot none = none then k.recs.set slot (some pc) else k.recs }

end Sys2Proof.Machine
end

