-- ==== Sys2Proof/Machine/Operands.lean ====
section
/-! DEFINITION. Operand forms: guards (R93), scalar and vector sources (R95, R96, R62), the result latches of variable latency
(R107), operand-latch and register destinations (R94, R50, R51, R52, R59), base registers (R56) and tile pointers. -/

set_option linter.unusedVariables false

namespace Sys2Proof.Machine

/-- The context of one slot of an issue: the core, its state before the issue (R103), the long immediate, the bundle address, the
record slot, whether this is a sticky re-issue, and the trigger value. -/
structure Ic where
  c : Nat
  pre : Core
  limm : U64
  pc : Nat
  slot : Nat
  re : Bool
  tv : V
  /-- the VALs of the base registers when the slot was held (R38) -/
  bval : Option (List U64) := none
  /-- the walking index of a re-issue before this issue (R209, R230) -/
  idx : Nat := 0
  /-- the address of the next bundle in memory -/
  nextPc : Nat := 0
  /-- a trigger of a sticky operation in a later issue of a REP bundle: its re-issue stands for it (R112) -/
  again : Bool := false
  /-- of a held slot: its bundle allows no transfer (R134, R137), and its delay bundle has issued (R36, R133) -/
  noXfer : Bool := false
  past : Bool := false
  /-- of a held slot: the number of its bundle, by which what it issues stands in program order (R36, R181) -/
  bundle : Option Nat := none

/-- The trigger value of a scalar slot. -/
def Ic.t (ic : Ic) : U64 := ic.tv.setWidth 64

/-- R93: whether a guard holds. Reserved guards never reach an issue. -/
def guardHolds (p : BitVec 24) (g : Nat) : Bool :=
  if g < 24 then p.getLsbD g
  else if g = 31 then true
  else if 32 ≤ g ∧ g < 56 then !p.getLsbD (g - 32)
  else false

end Sys2Proof.Machine

namespace Sys2Proof

/-- Whether a slot's guard holds. A slot without a guard acts. -/
def Instr.holds (i : Instr) (p : BitVec 24) : Bool :=
  match i.guard with
  | some g => Machine.guardHolds p g.toNat
  | none => true

end Sys2Proof

namespace Sys2Proof.Machine

/-! ## Result latches -/

/-- The latency that makes an operation due (R107): 6 for l, 10 for at and XLD. The converter's other operations have no scratch form, and
R107 names no L for them: the 4 of R106; DESIGN CHOICE (log 96). -/
def MOp.dueLat (o : MOp) : Nat :=
  if o.latch = 1 ∨ o.latch = 2 then 6 else match o.latch, o.op with
    | 4, .xld _ _ _ => 10
    | 4, _ => 4
    | _, _ => 10

/-- The access for which a read of a latch is due at the core's cycle (R107): the latest issued long enough ago. -/
def Core.dueOp (k : Core) (latch : Nat) : Option MOp :=
  (k.mops.filter (fun o => o.latch = latch && decide (o.cyc + o.dueLat ≤ k.clk))).getLast?

/-- Whether an access's result is in its latch: performed, and back (R248). -/
def Core.returned (k : Core) (o : MOp) : Bool := o.perf && (!o.fixed || decide (o.ret < k.clk))

/-- The operation of lp, bq or ps for which a read is due: the latest of the unit issued before the reading bundle. -/
def Core.dueSpec (k : Core) (latch : Nat) : Option SpecOp := (k.sops.filter (fun o => o.latch = latch)).getLast?

/-- The value that a read of a scalar result latch returns, when it waits for nothing. -/
def Core.readSres (k : Core) (i : Nat) : U64 :=
  let old := k.sres.getD i 0
  if i = 2 then (match k.dueOp 1 with | some o => o.val.setWidth 64 | none => old)
  else if i = 3 then (match k.dueOp 3 with | some o => o.val.setWidth 64 | none => old)
  else if 9 ≤ i then (match k.dueSpec i with | some o => o.val | none => old)
  else old

/-- The value that a read of a vector result latch returns: v.r, x.r, m.r, l.vr, v.r2. -/
def Core.readVres (k : Core) (i : Nat) : V :=
  let old := k.vres.getD i 0
  if i = 3 then (match k.dueOp 2 with | some o => o.val | none => old)
  else if i = 1 then (match k.dueOp 4 with | some o => o.val | none => old)
  else old

/-- Number of nonzero fields of lgl (R59). -/
def lgCount (lgl : BitVec 32) : Nat := ((List.range 8).filter (fun g => fld lgl.toNat (4 * g + 3) (4 * g) != 0)).length

/-- Lane i takes the value f i. -/
def lanes (f : Nat → Nat) : V := pack 32 ((List.range 64).map f)

/-- A scalar source (R95, R62). `fifo` gives the words at the heads of the inbound queues (R98). -/
def readM (k : Core) (c : Nat) (limm : U64) (fifo : Nat → U64) (code : Nat) : U64 :=
  if code < 0x40 then k.g.getD code 0
  else if code < 0x58 then (if k.p.getLsbD (code - 0x40) then 1 else 0)
  else if code = 0x58 then 0
  else if code = 0x59 then limm
  else if code = 0x5A then u64 k.lcyc
  else if code = 0x5B then u64 k.tid
  else if code = 0x5C then k.tcx
  else if code = 0x5D then u64 c
  else if code = 0x5E then u64 (k.ctx % 64)
  else if code = 0x5F then u64 (lgCount k.lgl)
  else if code < 0x6C then k.readSres (code - 0x60)
  else if 0x70 ≤ code ∧ code < 0x80 then k.ss.getD (code - 0x70) 0
  else if 0x80 ≤ code ∧ code < 0x88 then fifo (code - 0x80)
  else BitVec.ofInt 64 (signed (code % 256) 8)

/-- A mask register as a vector (R51). -/
def maskVec (q : U64) : V := lanes (fun i => if q.getLsbD i then 1 else 0)

/-- A vector source (R96). -/
def readW (k : Core) (code : Nat) : V :=
  if code < 0x20 then k.v.getD code 0
  else if code < 0x30 then
    let t := k.t.getD (code - 0x20) {}
    t.rows.getD t.ptr.toNat 0
  else if code < 0x38 then maskVec (k.q.getD (code - 0x30) 0)
  else if code = 0x40 then k.readVres 0
  else if code = 0x41 then k.readVres 1
  else if code = 0x42 then k.readVres 2
  else if code = 0x43 then k.readVres 3
  else if code = 0x44 then lanes (fun i => fld k.lgl.toNat (4 * (i / 8) + 3) (4 * (i / 8)))
  else if code = 0x45 then 0
  else if code = 0x46 then k.readVres 4
  else lanes (fun _ => wrapU (signed (code % 256) 8) 32)

/-! ## Destinations -/

/-- Bits of a mask register from a vector (R51). -/
def vecMask (v : V) : U64 := u64 ((List.range 64).foldl (fun r i => if bitAt (elem 32 v i) 0 then r + 2 ^ i else r) 0)

/-- lgl from a vector: bits [3:0] of lane 8g (R59). -/
def vecLgl (v : V) : BitVec 32 := BitVec.ofNat 32 ((List.range 8).foldl (fun r g => r + (elem 32 v (8 * g) % 16) * 2 ^ (4 * g)) 0)

/-- Whether a scalar destination is an operand latch, written before the triggers sample (R103 step 2). -/
def isLatchM (d : Nat) : Bool := 0x60 ≤ d && d < 0x6D
def isLatchW (d : Nat) : Bool := 0x40 ≤ d && d < 0x45

/-- A push into the A-row buffer (R221). -/
def Core.pushA (k : Core) (v : V) : Core :=
  let sh := 2048 * k.aptr.toNat
  { k with
    arow := (k.arow &&& ~~~ (BitVec.ofNat 32768 ((2 ^ 2048 - 1) <<< sh))) ||| BitVec.ofNat 32768 (v.toNat <<< sh)
    aptr := k.aptr + 1 }

/-- A plain move to an operand or data latch. -/
def Core.moveLatchM (k : Core) (d : Nat) (x : U64) : Core := { k with sop := k.sop.set (d - 0x60) x }
def Core.moveLatchW (k : Core) (d : Nat) (x : V) : Core :=
  if d = 0x43 then { k with vop := k.vop.set 3 x }.pushA x else { k with vop := k.vop.set (d - 0x40) x }

/-- The access codes of the privileged latches (R302, R6): ss0 is read-only, ss3 keeps [5:0]. For ss4 to ss11, the trap state, R302 names the
traps chapter, which gives no access code; DESIGN CHOICE (log 100): they are read-only, so that a task's writes to them are ignored. -/
def Core.writeSs (k : Core) (i : Nat) (x : U64) : Core :=
  if i = 0 ∨ (4 ≤ i ∧ i ≤ 11) then k
  else if i = 3 then { k with ss := k.ss.set 3 (u64 (fld x.toNat 5 0)) }
  else { k with ss := k.ss.set i x }

/-- A plain move to a scalar register at the end of the cycle (R94, R50); link pushes are not here. -/
def Core.moveRegM (k : Core) (d : Nat) (x : U64) : Core :=
  if d < 0x40 then { k with g := k.g.set d x }
  else if d < 0x58 then
    { k with p := if x.getLsbD 0 then k.p ||| BitVec.ofNat 24 (2 ^ (d - 0x40)) else k.p &&& ~~~ (BitVec.ofNat 24 (2 ^ (d - 0x40))) }
  else if 0x70 ≤ d ∧ d < 0x80 then k.writeSs (d - 0x70) x
  else k

/-- A row of a tile register, at the pointer before the issue (R52). -/
def TileReg.putRow (t : TileReg) (r : Nat) (v : V) : TileReg :=
  { t with rows := t.rows.set r v, thr := if t.ready then t.thr else (r, v) :: t.thr }

/-- All rows at once, as the thread's MMA or MZERO writes them (R53, R227, R229). -/
def TileReg.putRows (t : TileReg) (rs : List V) : TileReg :=
  { t with rows := rs, thr := if t.ready then t.thr else (List.range 32).zip rs ++ t.thr }

/-- Every row zero (R229). -/
def TileReg.zeroed (t : TileReg) : TileReg := t.putRows (List.replicate 32 0)

/-- An engine writes lanes of a row (R53). -/
def TileReg.fillRow (t : TileReg) (r : Nat) (lanes : BitVec 64) (v : V) : TileReg :=
  { t with rows := t.rows.set r v, engw := if t.ready then t.engw else (r, lanes, v) :: t.engw }

/-- The tag is set: a lane that the thread and the engine have both written meanwhile holds either's value, which one being unspecified
(R8, R53). `n` numbers the choices. -/
def TileReg.filled (t : TileReg) (n : Nat) : TileReg :=
  let both (r lane : Nat) : Option (V × V) :=
    match t.thr.find? (fun q => q.1 == r), t.engw.find? (fun q => q.1 == r && q.2.1.getLsbD lane) with
    | some a, some b => some (a.2, b.2.2)
    | _, _ => none
  let rows := if t.thr.isEmpty || t.engw.isEmpty then t.rows
    else ((List.range 32).zip t.rows).map (fun q => pack 32 ((List.range 64).map (fun l =>
      match both q.1 l with
      | some (a, b) => if Config.freeBool (n * 2048 + 64 * q.1 + l) then elem 32 a l else elem 32 b l
      | none => elem 32 q.2 l)))
  { t with rows := rows, ready := true, thr := [], engw := [] }

/-- A plain move to a vector register at the end of the cycle (R94, R51, R52, R59). -/
def Core.moveRegW (k : Core) (pre : Core) (d : Nat) (x : V) : Core :=
  if d < 0x20 then { k with v := k.v.set d x }
  else if d < 0x30 then
    let n := d - 0x20
    { k with t := k.t.set n ((k.t.getD n {}).putRow (pre.t.getD n {}).ptr.toNat x) }
  else if d < 0x38 then { k with q := k.q.set (d - 0x30) (vecMask x) }
  else { k with lgl := vecLgl x }

/-! ## Base registers -/

/-- A change of VAL by a signed amount, wrapped by R56. -/
def BaseReg.move (b : BaseReg) (d : Int) : BaseReg :=
  if b.wrap = 0 then { b with val := BitVec.ofInt 64 (b.val.toNat + d) }
  else
    let off := ((b.val.toNat : Int) - b.org.toNat + d) % (b.wrap.toNat : Int)
    { b with val := BitVec.ofInt 64 (b.org.toNat + off) }

/-- The sticky step of a base register (R110). -/
def BaseReg.stepOnce (b : BaseReg) : BaseReg := b.move b.stp.toInt

def Core.base (k : Core) (n : Nat) : BaseReg := k.b.getD n {}
def Core.setBase (k : Core) (n : Nat) (x : BaseReg) : Core := { k with b := k.b.set n x }

/-- The VAL that an access of this slot uses: as before the issue, stepped for a sticky re-issue (R110, R130). -/
def Ic.baseVal (ic : Ic) (n : Nat) : Nat :=
  let b := match ic.bval with
    | some vs => { ic.pre.base n with val := vs.getD n 0 }
    | none => ic.pre.base n
  if ic.re then b.stepOnce.val.toNat else b.val.toNat

/-- ea := (VAL + s(offset)) mod 2^64 (R167). -/
def Ic.ea (ic : Ic) (n : Nat) (off : Int) : Nat := wrapU (ic.baseVal n + off) 64

/-- A re-issue steps the base register that its operation names. -/
def State.stickyStep (s : State) (ic : Ic) (n : Nat) : State :=
  if ic.re then s.modCore ic.c (fun k => k.setBase n (k.base n).stepOnce) else s

/-- The strides of a loop level, applied to every base register (R130, R137). -/
def Core.applyStrides (k : Core) (lvl : Nat) : Core :=
  { k with b := k.b.map (fun x => x.move (x.ls.getD lvl 0).toInt) }

end Sys2Proof.Machine

namespace Sys2Proof

/-- The destination code of a plain move (R94). -/
def Instr.dstCode (i : Instr) : Nat :=
  match i with
  | .move _ _ d _ => d.toNat
  | _ => 0

/-- A move that triggers no unit (R94). -/
def Instr.isPlain (i : Instr) : Bool :=
  match i with
  | .move _ _ _ _ => true
  | _ => false

/-- Tile registers that a slot's row accesses name (R52). -/
def Instr.rowTiles (i : Instr) : List Nat :=
  match i.kind with
  | .w =>
    let s := (i.srcCode.getD 0).toNat
    let d := i.dstCode
    (if 0x20 ≤ s ∧ s < 0x30 then [s - 0x20] else []) ++ (if i.isPlain && decide (0x20 ≤ d) && decide (d < 0x30) then [d - 0x20] else [])
  | _ => []

/-- Tile registers that a slot reads a row of. -/
def Instr.rowReads (i : Instr) : List Nat :=
  match i.kind with
  | .w =>
    let s := (i.srcCode.getD 0).toNat
    if 0x20 ≤ s ∧ s < 0x30 then [s - 0x20] else []
  | _ => []

end Sys2Proof
end

