-- ==== Sys2Proof/Machine/Flags.lean ====
section
/-! DEFINITION. Results in flight and what is recorded beside them: the end-of-cycle entries of R106, the checking scoreboard of
R109, and the sticky bits and records of R68. -/

set_option linter.unusedVariables false

namespace Sys2Proof.Machine

/-- A result that lands at the end of cycle t + L − 1 (R106), for an operation triggered now. A re-issue is no trigger for R109. -/
def Core.later (k : Core) (lat : Nat) (re : Bool) (e : Eff) : Core :=
  { k with pend := k.pend ++ [{ due := k.clk + lat - 1, seq := k.next, trig := !re, eff := e }], next := k.next + 1 }

/-- A scalar result latch written at latency L. -/
def State.laterS (s : State) (ic : Ic) (lat i : Nat) (v : U64) : State :=
  s.modCore ic.c (fun k => k.later lat ic.re (.sres i v))

/-- A vector result latch written at latency L. -/
def State.laterV (s : State) (ic : Ic) (lat i : Nat) (v : V) : State :=
  s.modCore ic.c (fun k => k.later lat ic.re (.vres i v))

/-- The events of an operation, at its issue: the invalid and the arithmetic sticky bits and the slot's record (R68). -/
def State.flags (s : State) (ic : Ic) (inv ari : Bool) : State :=
  s.modCore ic.c (fun k => k.flag inv ari ic.slot ic.pc)

/-! ## The checking scoreboard (R109) -/

/-- A triggered result that has not yet landed in scalar latch i. -/
def Core.pendS (k : Core) (i : Nat) : Bool :=
  k.pend.any (fun p => p.trig && (match p.eff with | .sres j _ => i == j | _ => false))

/-- A triggered result that has not yet landed in vector latch i: v.r, x.r, m.r, l.vr, v.r2. -/
def Core.pendV (k : Core) (i : Nat) : Bool :=
  k.pend.any (fun p => p.trig && (match p.eff with | .vres j _ => i == j | .xchunk _ _ _ => i == 1 | _ => false))

/-- A triggered local-scratch access whose result is not yet readable in a latch of l, at or x. -/
def Core.pendLocal (k : Core) (latch : Nat) : Bool :=
  k.mops.any (fun o => o.latch == latch && (o.lcl || !o.isRead) && !o.re && decide (k.clk < o.cyc + o.dueLat))

/-- Whether a scalar source is read too early. -/
def Core.underM (k : Core) (code : Nat) : Bool :=
  if code = 0x62 then k.pendLocal 1
  else if code = 0x63 then k.pendLocal 3
  else if 0x60 ≤ code ∧ code < 0x69 then k.pendS (code - 0x60)
  else false

/-- An MMA or MMAQ whose accumulator is tile n is in flight (R227, R228). -/
def Core.pendTile (k : Core) (n : Nat) : Bool := k.mma.any (fun f => f.acc == n && decide (k.clk ≤ f.due))

/-- Whether a vector source is read too early. -/
def Core.underW (k : Core) (code : Nat) : Bool :=
  if code = 0x43 then k.pendLocal 2
  else if code = 0x40 then k.pendV 0
  else if code = 0x41 then k.pendV 1 || k.pendLocal 4
  else if code = 0x42 then k.pendV 2
  else if code = 0x46 then k.pendV 4
  else if 0x20 ≤ code ∧ code < 0x30 then k.pendTile (code - 0x20)
  else false

/-- Whether a slot's source is read too early (R109). -/
def Core.undersized (k : Core) (i : Instr) : Bool :=
  match i.kind, i.srcCode with
  | .m, some c => k.underM c.toNat
  | .w, some c => k.underW c.toNat
  | _, _ => false

/-! ## Stops of an issue -/

/-- Cause codes of R338 that a slot raises besides address faults. -/
def illOp (ic : Ic) : Stop := { cause := 4, slot := ic.slot }

end Sys2Proof.Machine
end

