-- ==== Sys2Proof/Machine/AddrOps.lean ====
section
/-! DEFINITION. What a trigger of au does (R129 to R131). These act last in an issue, after the sticky steps and the strides of a
loop level that ends (R130); RDB reads its register as it stood before the issue. -/

set_option linter.unusedVariables false

namespace Sys2Proof.Machine

/-- Change base register b of the core. -/
def State.modBase (s : State) (ic : Ic) (b : BitVec 4) (f : BaseReg → BaseReg) : State :=
  s.modCore ic.c (fun k => k.setBase b.toNat (f (k.base b.toNat)))

/-- SETB: VAL := t, with no wrapping. -/
def fireSetb (ic : Ic) (b : BitVec 4) (s : State) : Except Stop State :=
  .ok (s.modBase ic b (fun r => { r with val := ic.t }))

/-- ADDB: VAL moves by the signed amount t (R56). -/
def fireAddb (ic : Ic) (b : BitVec 4) (s : State) : Except Stop State :=
  .ok (s.modBase ic b (fun r => r.move ic.t.toInt))

/-- SETI: STEP := s(t), t within 32 signed bits. -/
def fireSeti (ic : Ic) (b : BitVec 4) (s : State) : Except Stop State :=
  if -(2 ^ 31) ≤ ic.t.toInt ∧ ic.t.toInt < 2 ^ 31 then .ok (s.modBase ic b (fun r => { r with stp := ic.t.setWidth 32 }))
  else .error (illOp ic)

/-- SETLS: LS(au.o) := t, au.o in 0 to 7. -/
def fireSetls (ic : Ic) (b : BitVec 4) (s : State) : Except Stop State :=
  let n := ((s.core ic.c).sop.getD 4 0).toNat
  if n < 8 then .ok (s.modBase ic b (fun r => { r with ls := r.ls.set n ic.t })) else .error (illOp ic)

/-- SETWRAP: WRAP := t; with t not 0, ORG := VAL. -/
def fireSetwrap (ic : Ic) (b : BitVec 4) (s : State) : Except Stop State :=
  if ic.t.toNat < 2 ^ 32 then
    .ok (s.modBase ic b (fun r => { r with wrap := ic.t.setWidth 32, org := if ic.t = 0 then r.org else r.val }))
  else .error (illOp ic)

/-- The field of a base register that RDB selects. -/
def BaseReg.field (r : BaseReg) (t : Nat) : Option U64 :=
  if t = 0 then some r.val
  else if t = 1 then some (r.stp.signExtend 64)
  else if t = 2 then some (r.wrap.setWidth 64)
  else if t = 3 then some r.org
  else if 8 ≤ t ∧ t < 16 then some (r.ls.getD (t - 8) 0)
  else none

/-- RDB: au.r := a field of the register, latency 1. -/
def fireRdb (ic : Ic) (b : BitVec 4) (s : State) : Except Stop State :=
  match (ic.pre.base b.toNat).field ic.t.toNat with
  | some v => .ok (s.laterS ic 1 4 v)
  | none => .error (illOp ic)

/-- SETTRP: the row pointer of tile t := the trigger value mod 32, after any advance of this issue (R52). -/
def fireSettrp (ic : Ic) (n : BitVec 4) (s : State) : Except Stop State :=
  .ok (s.modCore ic.c (fun k => { k with t := k.t.set n.toNat { (k.t.getD n.toNat {}) with ptr := ic.t.setWidth 5 } }))

/-- RSTB: VAL := t and ORG := t. -/
def fireRstb (ic : Ic) (b : BitVec 4) (s : State) : Except Stop State :=
  .ok (s.modBase ic b (fun r => { r with val := ic.t, org := ic.t }))

end Sys2Proof.Machine
end

