-- ==== Sys2Proof/Machine/AluOps.lean ====
section
/-! DEFINITION. What a trigger of a0 or a1 does (R124 to R128): one definition per operation over the shared form of R124. -/

set_option linter.unusedVariables false

namespace Sys2Proof.Machine

/-- The width of the form (R124). -/
def aluN (w : BitVec 1) : Nat := if w = 1 then 32 else 64

/-- R124: x is the unit's operand latch after the moves of the issue, y the trigger value; the result lands after the latency.
`ari` says when the arithmetic event of R126 occurs. -/
def State.aluOp (s : State) (ic : Ic) (u w : BitVec 1) (f : Nat → Nat → Nat → Nat) (lat : Nat) (ari : Nat → Nat → Nat → Bool) : State :=
  let n := aluN w
  let x := ((s.core ic.c).sop.getD u.toNat 0).toNat % 2 ^ n
  let y := ic.t.toNat % 2 ^ n
  (s.laterS ic lat u.toNat (aluWiden (f x y n) n)).flags ic false (ari x y n)

def noEvent (x y n : Nat) : Bool := false

/-- ADD (R125), latency 1. -/
def fireAdd (ic : Ic) (u w : BitVec 1) (s : State) : Except Stop State := .ok (s.aluOp ic u w aluAdd 1 noEvent)
/-- SUB (R125), latency 1. -/
def fireSub (ic : Ic) (u w : BitVec 1) (s : State) : Except Stop State := .ok (s.aluOp ic u w aluSub 1 noEvent)
/-- AND (R125), latency 1. -/
def fireAnd (ic : Ic) (u w : BitVec 1) (s : State) : Except Stop State := .ok (s.aluOp ic u w aluAnd 1 noEvent)
/-- OR (R125), latency 1. -/
def fireOr (ic : Ic) (u w : BitVec 1) (s : State) : Except Stop State := .ok (s.aluOp ic u w aluOr 1 noEvent)
/-- XOR (R125), latency 1. -/
def fireXor (ic : Ic) (u w : BitVec 1) (s : State) : Except Stop State := .ok (s.aluOp ic u w aluXor 1 noEvent)
/-- ANDN (R125), latency 1. -/
def fireAndn (ic : Ic) (u w : BitVec 1) (s : State) : Except Stop State := .ok (s.aluOp ic u w aluAndn 1 noEvent)
/-- SHL (R125), latency 1. -/
def fireShl (ic : Ic) (u w : BitVec 1) (s : State) : Except Stop State := .ok (s.aluOp ic u w aluShl 1 noEvent)
/-- SHR (R125), latency 1. -/
def fireShr (ic : Ic) (u w : BitVec 1) (s : State) : Except Stop State := .ok (s.aluOp ic u w aluShr 1 noEvent)
/-- SAR (R125), latency 1. -/
def fireSar (ic : Ic) (u w : BitVec 1) (s : State) : Except Stop State := .ok (s.aluOp ic u w aluSar 1 noEvent)
/-- ROL (R125), latency 1. -/
def fireRol (ic : Ic) (u w : BitVec 1) (s : State) : Except Stop State := .ok (s.aluOp ic u w aluRol 1 noEvent)
/-- ROR (R125), latency 1. -/
def fireRor (ic : Ic) (u w : BitVec 1) (s : State) : Except Stop State := .ok (s.aluOp ic u w aluRor 1 noEvent)
/-- MIN (R125), latency 1. -/
def fireMin (ic : Ic) (u w : BitVec 1) (s : State) : Except Stop State := .ok (s.aluOp ic u w aluMin 1 noEvent)
/-- MAX (R125), latency 1. -/
def fireMax (ic : Ic) (u w : BitVec 1) (s : State) : Except Stop State := .ok (s.aluOp ic u w aluMax 1 noEvent)
/-- MINU (R125), latency 1. -/
def fireMinu (ic : Ic) (u w : BitVec 1) (s : State) : Except Stop State := .ok (s.aluOp ic u w aluMinu 1 noEvent)
/-- MAXU (R125), latency 1. -/
def fireMaxu (ic : Ic) (u w : BitVec 1) (s : State) : Except Stop State := .ok (s.aluOp ic u w aluMaxu 1 noEvent)
/-- CLZ (R125), latency 1. -/
def fireClz (ic : Ic) (u w : BitVec 1) (s : State) : Except Stop State := .ok (s.aluOp ic u w aluClz 1 noEvent)
/-- CTZ (R125), latency 1. -/
def fireCtz (ic : Ic) (u w : BitVec 1) (s : State) : Except Stop State := .ok (s.aluOp ic u w aluCtz 1 noEvent)
/-- POPC (R125), latency 1. -/
def firePopc (ic : Ic) (u w : BitVec 1) (s : State) : Except Stop State := .ok (s.aluOp ic u w aluPopc 1 noEvent)
/-- MUL (R125), latency 3. -/
def fireMul (ic : Ic) (u w : BitVec 1) (s : State) : Except Stop State := .ok (s.aluOp ic u w aluMul 3 noEvent)
/-- MULHS (R125), latency 3. -/
def fireMulhs (ic : Ic) (u w : BitVec 1) (s : State) : Except Stop State := .ok (s.aluOp ic u w aluMulhs 3 noEvent)
/-- MULHU (R125), latency 3. -/
def fireMulhu (ic : Ic) (u w : BitVec 1) (s : State) : Except Stop State := .ok (s.aluOp ic u w aluMulhu 3 noEvent)
/-- DIVS (R126), latency 20. -/
def fireDivs (ic : Ic) (u w : BitVec 1) (s : State) : Except Stop State := .ok (s.aluOp ic u w aluDivs 20 (fun x y n => divZero y n || divOvf x y n))
/-- DIVU (R126), latency 20. -/
def fireDivu (ic : Ic) (u w : BitVec 1) (s : State) : Except Stop State := .ok (s.aluOp ic u w aluDivu 20 (fun _ y n => divZero y n))
/-- REMS (R126), latency 20. -/
def fireRems (ic : Ic) (u w : BitVec 1) (s : State) : Except Stop State := .ok (s.aluOp ic u w aluRems 20 (fun x y n => divZero y n || divOvf x y n))
/-- REMU (R126), latency 20. -/
def fireRemu (ic : Ic) (u w : BitVec 1) (s : State) : Except Stop State := .ok (s.aluOp ic u w aluRemu 20 (fun _ y n => divZero y n))
/-- ADDSAT (R125), latency 1. -/
def fireAddsat (ic : Ic) (u w : BitVec 1) (s : State) : Except Stop State := .ok (s.aluOp ic u w aluAddsat 1 noEvent)
/-- SUBSAT (R125), latency 1. -/
def fireSubsat (ic : Ic) (u w : BitVec 1) (s : State) : Except Stop State := .ok (s.aluOp ic u w aluSubsat 1 noEvent)
/-- CLMUL (R127), latency 2. -/
def fireClmul (ic : Ic) (u w : BitVec 1) (s : State) : Except Stop State := .ok (s.aluOp ic u w aluClmul 2 noEvent)
/-- CLMULH (R127), latency 2. -/
def fireClmulh (ic : Ic) (u w : BitVec 1) (s : State) : Except Stop State := .ok (s.aluOp ic u w aluClmulh 2 noEvent)
/-- PXOR (R127), latency 1. -/
def firePxor (ic : Ic) (u w : BitVec 1) (s : State) : Except Stop State := .ok (s.aluOp ic u w aluPxor 1 noEvent)
/-- PEXT (R127), latency 2. -/
def firePext (ic : Ic) (u w : BitVec 1) (s : State) : Except Stop State := .ok (s.aluOp ic u w aluPext 2 noEvent)
/-- PDEP (R127), latency 2. -/
def firePdep (ic : Ic) (u w : BitVec 1) (s : State) : Except Stop State := .ok (s.aluOp ic u w aluPdep 2 noEvent)
/-- SEXT (R125), latency 1. -/
def fireSext (ic : Ic) (u w : BitVec 1) (s : State) : Except Stop State := .ok (s.aluOp ic u w aluSext 1 noEvent)
/-- ZEXT (R125), latency 1. -/
def fireZext (ic : Ic) (u w : BitVec 1) (s : State) : Except Stop State := .ok (s.aluOp ic u w aluZext 1 noEvent)
/-- EQ (R125), latency 1. -/
def fireEq (ic : Ic) (u w : BitVec 1) (s : State) : Except Stop State := .ok (s.aluOp ic u w aluEq 1 noEvent)
/-- NE (R125), latency 1. -/
def fireNe (ic : Ic) (u w : BitVec 1) (s : State) : Except Stop State := .ok (s.aluOp ic u w aluNe 1 noEvent)
/-- LT (R125), latency 1. -/
def fireLt (ic : Ic) (u w : BitVec 1) (s : State) : Except Stop State := .ok (s.aluOp ic u w aluLt 1 noEvent)
/-- LE (R125), latency 1. -/
def fireLe (ic : Ic) (u w : BitVec 1) (s : State) : Except Stop State := .ok (s.aluOp ic u w aluLe 1 noEvent)
/-- LTU (R125), latency 1. -/
def fireLtu (ic : Ic) (u w : BitVec 1) (s : State) : Except Stop State := .ok (s.aluOp ic u w aluLtu 1 noEvent)
/-- LEU (R125), latency 1. -/
def fireLeu (ic : Ic) (u w : BitVec 1) (s : State) : Except Stop State := .ok (s.aluOp ic u w aluLeu 1 noEvent)
/-- HMIX (R125), latency 3. -/
def fireHmix (ic : Ic) (u w : BitVec 1) (s : State) : Except Stop State := .ok (s.aluOp ic u w aluHmix 3 noEvent)
/-- BSWAP (R125), latency 1. -/
def fireBswap (ic : Ic) (u w : BitVec 1) (s : State) : Except Stop State := .ok (s.aluOp ic u w aluBswap 1 noEvent)
/-- PASS (R125), latency 1. -/
def firePass (ic : Ic) (u w : BitVec 1) (s : State) : Except Stop State := .ok (s.aluOp ic u w aluPass 1 noEvent)
/-- ABS (R125), latency 1. -/
def fireAbs (ic : Ic) (u w : BitVec 1) (s : State) : Except Stop State := .ok (s.aluOp ic u w aluAbs 1 noEvent)

end Sys2Proof.Machine
end

