-- ==== Sys2Proof/Machine/Access.lean ====
section
/-! DEFINITION. A thread's memory access from its issue to its performance: how it is formed and checked (R63, R64, R167, R169,
R170, R315), what its issue waits for (R35, R36, R161, R183, R185, R323, R326, R335), when it may perform (R154 to R157, R181, R248),
and the side logs (R322, R323). -/

set_option linter.unusedVariables false

namespace Sys2Proof.Machine

/-- What the issue of a slot may have to do before it issues. `miss` is the TIMED miss of R35 with its TIMING sub-code, a hold in
TAGGED mode; `wait` is a delay (R34) or a hold (R36); `fixedWait` waits on accesses whose cycle the schedule fixes (R34). -/
inductive Wait where
  | go
  | miss (sub : Nat)
  | wait
  | fixedWait
  deriving DecidableEq, Repr

def Wait.isGo : Wait → Bool
  | .go => true
  | _ => false

/-- Both of two conditions: a wait comes before a miss, and a delay before a counted wait. -/
def Wait.and (a b : Wait) : Wait :=
  match a, b with
  | .wait, _ => .wait
  | _, .wait => .wait
  | .fixedWait, _ => .fixedWait
  | _, .fixedWait => .fixedWait
  | .miss n, _ => .miss n
  | .go, x => x

/-- A thread access as an operation asks for it. -/
structure Req where
  op : Instr
  latch : Nat := 0
  cls : Nat := 4
  scope : Nat := 0
  isRead : Bool := false
  isWrite : Bool := false
  align : Nat := 1
  ea : Nat
  /-- offset in the data, address, bytes -/
  chunks : List (Nat × Nat × Nat)
  /-- performs at issue + perfAt and is in its latch at the end of issue + latchAt, in the core's own scratch (R106, R155) -/
  perfAt : Nat
  latchAt : Nat
  data : V := 0
  data2 : U64 := 0
  fm : BitVec 32 := 0
  k : BitVec 1024 := 0
  aux : Nat := 0
  /-- a store that retires into a side log: 0 the l log, 1 the at log (R170, R322) -/
  log : Option Nat := none
  /-- the value is known at the issue (WAITA) -/
  known : Option V := none
  /-- always of variable latency: an ordering operation with a scope (R183) -/
  wideScope : Bool := false
  /-- its chunks are single-copy-atomic units, unordered among themselves (R152) -/
  units : Bool := false
  deriving DecidableEq, Repr

/-! ## Lines and side logs -/

/-- The 64-byte lines of a span of virtual addresses. -/
def linesOf (a len : Nat) : List Nat := (List.range ((a % 64 + len + 63) / 64)).map (fun i => a / 64 + i)

def Req.lines (r : Req) : List Nat := r.chunks.flatMap (fun q => if bitAt q.2.1 63 then [] else linesOf q.2.1 q.2.2)

/-- Bytes of a logged store of a KIND (R322). -/
def kindBytes (kind : Nat) : Nat :=
  match kind with
  | 0 => 1
  | 1 => 2
  | 2 => 4
  | 3 => 8
  | 4 => 256
  | _ => 8

/-- The lines of a logged store; of an STV those that an active lane writes (R323). -/
def LogEnt.lines (e : LogEnt) : List Nat :=
  if e.kind = 4 then ((List.range 64).filter (fun i => e.lanes.getLsbD i)).map (fun i => (e.ea + 4 * i) / 64)
  else linesOf e.ea (kindBytes e.kind)

/-- Whether one of some lines has a VALID entry in either log (R323). -/
def Core.lineLogged (k : Core) (ls : List Nat) : Bool :=
  (k.logL ++ k.logA).any (fun e => e.valid && e.lines.any (fun l => ls.contains l))

def Core.logsEmpty (k : Core) : Bool := (k.logL ++ k.logA).all (fun e => !e.valid)

def Core.logOf (k : Core) (which : Nat) : List LogEnt := if which = 0 then k.logL else k.logA
def Core.setLog (k : Core) (which : Nat) (l : List LogEnt) : Core := if which = 0 then { k with logL := l } else { k with logA := l }

/-- The first free entry of a log. -/
def freeEntry (l : List LogEnt) : Option Nat := (List.range 32).find? (fun i => !(l.getD i {}).valid)

/-! ## Checks at the issue -/

/-- The Carafe range (R15, R315): only plain stores by Eplia cores to bytes 0 to 31 of a slot. -/
def carafeOk (c : Nat) (plain : Bool) (p : Piece) : Bool :=
  match placeOf p.loc with
  | .carafe _ off => plain && dieOf c == 1 && decide (off + p.len ≤ 32)
  | _ => true

/-- The fault that is reported of the parts of one access: an address-range fault, else a translation fault, else a protection fault
(R319, R339). -/
def pickFault (l : List (Cause × Nat)) (d : Cause × Nat) : Cause × Nat :=
  match l.find? (fun q => q.1 = .range) with
  | some q => q
  | none => match l.find? (fun q => q.1 = .xlate) with
    | some q => q
    | none => l.headD d

/-- One chunk of an access, translated: its pieces with offsets in the data, or the fault. -/
def State.xlateChunk (s : State) (c : Nat) (n : Need) (plain : Bool) (q : Nat × Nat × Nat) :
    State × Except (Cause × Nat) (List Piece) :=
  let r := s.xlateSpan c n 3 q.2.1 0 q.2.2
  match r.2 with
  | .ok (ps, _) =>
    if ps.all (carafeOk c plain) then (r.1, .ok (ps.map (fun p => { p with off := q.1 + p.off }))) else (r.1, .error (.prot, q.2.1))
  | .error e => (r.1, .error (pickFault (s.spanFaults c n 3 q.2.1 q.2.2) e))

def State.xlateChunks (s : State) (c : Nat) (n : Need) (plain : Bool) :
    List (Nat × Nat × Nat) → State × List (Except (Cause × Nat) (List Piece))
  | [] => (s, [])
  | q :: t =>
    let r := s.xlateChunk c n plain q
    let z := State.xlateChunks r.1 c n plain t
    (z.1, r.2 :: z.2)

def Req.need (r : Req) : Need := { r := r.isRead, w := r.isWrite }

/-- The first fault of the chunks, taken in order, that passes a filter. -/
def firstFault (p : Cause → Bool) : List (Except (Cause × Nat) (List Piece)) → Option (Cause × Nat)
  | [] => none
  | .error (f, a) :: t => if p f then some (f, a) else firstFault p t
  | .ok _ :: t => firstFault p t

/-- The faults of a plain store that no side log takes (R170): those of the first chunk in order that has one. -/
def State.storeStop (s : State) (c : Nat) (n : Need) (plain : Bool) : List (Nat × Nat × Nat) → Option (Cause × Nat)
  | [] => none
  | q :: t =>
    match ((s.spanFaults c n 3 q.2.1 q.2.2).filter (fun f => f.1 ≠ .xlate)).head? with
    | some f => some f
    | none =>
      match (s.xlateChunk c n plain q).2 with
      | .error (.prot, a) => some (.prot, a)
      | _ => State.storeStop s c n plain t

def okPieces : List (Except (Cause × Nat) (List Piece)) → List Piece
  | [] => []
  | .error _ :: t => okPieces t
  | .ok ps :: t => ps ++ okPieces t

/-- The stop of an address fault (R338, R340). -/
def addrStop (ic : Ic) (f : Cause) (a : Nat) : Stop := { cause := causeCode f, slot := ic.slot, faddr := a }

/-- R248: the one-way distance to a scratch location that this core reaches by a scheduled access, or by its own local path. -/
def State.distance (s : State) (c : Nat) (lcl : Bool) (loc : Nat) : Option Nat :=
  match placeOf loc with
  | .scratch id _ =>
    if lcl then some 0
    else if (s.core c).tagged || dieOf id != dieOf c || !(s.core id).bound || (s.core id).launch != (s.core c).launch then none
    else if id = c then some 0
    else if quadOf id = quadOf c then some 6
    else if groupOf id = groupOf c then some 12
    else some 24
  | _ => none

/-- The largest distance, when every piece has one. -/
def State.distances (s : State) (c : Nat) (lcl : Bool) : List Piece → Option Nat
  | [] => some 0
  | p :: t =>
    match s.distance c lcl p.loc, State.distances s c lcl t with
    | some a, some b => some (Nat.max a b)
    | _, _ => none

/-- Whether an access of the core's own scratch meets a tile owned by ENGINE. -/
def Core.meetsEngine (k : Core) (chunks : List (Nat × Nat × Nat)) : Bool :=
  chunks.any (fun q => bitAt q.2.1 63 &&
    k.eng.any (fun t => decide (fld q.2.1 20 0 / 4096 ≤ t) && decide (t ≤ (fld q.2.1 20 0 + q.2.2 - 1) / 4096)))

/-! ## Appending to a side log -/

/-- The KIND of a plain store or STREL (R322). -/
def logKind (op : Instr) : Nat :=
  match op with
  | .st8 _ _ _ _ => 0
  | .st16 _ _ _ _ => 1
  | .st32 _ _ _ _ => 2
  | .st64 _ _ _ _ => 3
  | .stv _ _ _ _ => 4
  | _ => 5

/-- The mask of the lanes that chunks of an STV write. -/
def laneMask (r : Req) : Nat :=
  r.chunks.foldl (fun m q => (List.range (q.2.2 / 4)).foldl (fun (x : Nat) i => x ||| 2 ^ (q.1 / 4 + i)) m) 0

/-- Append a store to a log. The first kind of R323 sends a notice of cause SIDELOG with the entry's index and log. -/
def State.logAppend (s : State) (ic : Ic) (r : Req) (which : Nat) (first : Bool) : Except Stop State :=
  let k := s.core ic.c
  match freeEntry (k.logOf which) with
  | none => .error (addrStop ic .xlate r.ea)
  | some i =>
    let e : LogEnt := { valid := true, ea := r.ea % 2 ^ 56, kind := logKind r.op, ac := if which = 0 then r.cls else 0,
                        scope := if which = 0 then 0 else r.scope, data := r.data, lanes := BitVec.ofNat 64 (laneMask r),
                        badr := ic.pc, order := k.logOrd % 2 ^ 32, mop := k.next, bundle := ic.bundle.getD k.bundles }
    let s0 := s.modDie (dieOf ic.c) (fun d => { d with logcnt := sat32 (d.logcnt + 1) })
    let s1 := s0.modCore ic.c (fun k => { k.setLog which ((k.logOf which).set i e) with logOrd := k.logOrd + 1, next := k.next + 1 })
    .ok (if first then s1.takeNotice ic.c { cause := 0x10, slot := ic.slot, faddr := r.ea, info := i + 32 * which, baddr := some ic.pc } else s1)

/-! ## Issue of an access -/

/-- A plain access that is not naturally aligned performs byte by byte (R152, R169). -/
def Req.bytewise (r : Req) : Bool := r.align == 1 && r.chunks.any (fun q => decide (q.2.2 ≤ 8) && q.2.1 % q.2.2 != 0)

/-- The units in which an access that is not on the schedule comes about, in no order among themselves (R152): the bytes of an unaligned
access, the lanes of a vector access, or all of it at once; what goes to another package goes in parts of at most 128 bytes. -/
def State.splitPieces (s : State) (r : Req) (ps : List Piece) : List Piece :=
  let cut (w : Nat) (p : Piece) : List Piece :=
    (List.range ((p.len + w - 1) / w)).map (fun i => { p with off := p.off + w * i, len := Nat.min w (p.len - w * i), loc := p.loc + w * i })
  let qs := if r.bytewise then ps.flatMap (cut 1) else ps.flatMap (fun p => if 2 ^ 64 ≤ p.loc then cut 128 p else [p])
  if r.bytewise || r.units then ((List.range qs.length).zip qs).map (fun q => { q.2 with wait := Config.unitDelay s.fresh q.1 }) else qs

/-- Put the access in flight: its fixed cycle in scratch or as a scheduled access, else a latency (R106, R155, R248). -/
def State.launchOp (s : State) (ic : Ic) (r : Req) (ps0 : List Piece) (junk : Bool) : State :=
  let k := s.core ic.c
  let lcl := r.chunks.all (fun q => bitAt q.2.1 63)
  let d := if r.wideScope then none else s.distances ic.c lcl ps0
  let ps := if d.isSome then ps0 else s.splitPieces r ps0
  let o : MOp :=
    { id := k.next, op := r.op, slot := ic.slot, pc := ic.pc, re := ic.re, latch := r.latch, cls := r.cls, cyc := k.clk,
      due := match d with | some x => k.clk + r.perfAt + x | none => s.lat (s.now + r.perfAt),
      fixed := d.isSome,
      ret := match d with | some x => k.clk + r.latchAt + 2 * x | none => 0,
      scope := r.scope, isRead := r.isRead, isWrite := r.isWrite, ea := u64 r.ea, lcl := lcl, pieces := ps, data := r.data,
      data2 := r.data2, fm := r.fm, k := r.k, aux := r.aux, logged := false, junk := junk, perf := false,
      val := r.known.getD 0, bundle := ic.bundle.getD k.bundles }
  (s.modCore ic.c (fun k => { k with mops := k.mops ++ [o], next := k.next + 1 })).tick1

/-- The chunks of an access with their faults: a misaligned one before its others (R169, R172, R339). -/
def Req.faults (r : Req) (z : List (Except (Cause × Nat) (List Piece))) : List (Except (Cause × Nat) (List Piece)) :=
  (r.chunks.zip z).map (fun q => if q.1.2.1 % r.align = 0 then q.2 else .error (.align, q.1.2.1))

/-- The issue of an access: alignment, address form, translation and rights, then the side log or the flight (R169, R170, R323). Of a
vector access the lowest lane that faults is reported (R172). A translation fault of a plain store is no stop while its log has room; its
other faults are (R170). -/
def State.access (s : State) (ic : Ic) (r : Req) : Except Stop State :=
  let k := s.core ic.c
  let z := s.xlateChunks ic.c r.need (r.log = some 0) r.chunks
  let zs := r.faults z.2
  let junk := !k.tagged && ic.pre.meetsEngine r.chunks
  match r.log with
  | none =>
    match firstFault (fun _ => true) zs with
    | some (f, a) => .error (addrStop ic f a)
    | none => .ok (z.1.launchOp ic r (okPieces z.2) junk)
  | some w =>
    let stop : Option (Cause × Nat) :=
      match firstFault (fun f => f = .align) zs with
      | some q => some q
      | none =>
        if k.lineLogged r.lines then none
        else if (freeEntry (k.logOf w)).isNone || (firstFault (fun _ => true) zs).isNone then firstFault (fun _ => true) zs
        else s.storeStop ic.c r.need (r.log = some 0) r.chunks
    match stop with
    | some (f, a) => .error (addrStop ic f a)
    | none =>
      if k.lineLogged r.lines then s.logAppend ic r w false
      else if (firstFault (fun _ => true) zs).isSome then z.1.logAppend ic r w true
      else .ok (z.1.launchOp ic r (okPieces z.2) junk)

/-! ## What an issue waits for -/

/-- An ordering operation in flight holds later accesses: LDACQ and the full fences hold all, FENCEW holds stores and atomics
(R157, R183, R185). -/
def MOp.holds (o : MOp) (isWrite : Bool) : Bool :=
  !o.perf && (match o.op with
    | .ldacq _ _ _ _ => true
    | .fence _ _ _ => true
    | .svfence _ _ => true
    | .swfence _ _ _ => true
    | .fencew _ _ _ => isWrite
    | _ => false)

/-- An operation on the schedule of a TIMED core: its issue has waited for what it must follow. -/
def Core.onSchedule (k : Core) (o : MOp) : Bool := o.fixed && !k.tagged

/-- Accesses with the earlier ones that they must follow: those of their class, and for a release all (R154, R157). -/
def Core.waitsOn (k : Core) (os : List MOp) : List MOp :=
  os ++ k.mops.filter (fun q => !q.perf && os.any (fun o => decide (q.id < o.id) && (!o.isRead && !o.isWrite || o.cls == 4 || q.cls == o.cls)))

/-- A wait for accesses: while one that it waits on performs at a cycle that the schedule fixes the wait is counted, and after that what
remains is a delay (R34). In TAGGED mode it is a hold. -/
def Core.waitFor (k : Core) (os : List MOp) (other : Bool) : Wait :=
  if os.isEmpty && !other then .go else if !k.tagged && (k.waitsOn os).any (fun o => o.fixed) then .fixedWait else .wait

/-- A BQPOP that has not acted: one that finds its reply acts as an LDACQ at PACKAGE scope (R293). -/
def SpecOp.holds (o : SpecOp) : Bool :=
  match o.op with
  | .bqpop _ _ => !o.perf
  | _ => false

/-- A held BQPOP, which may act as an LDACQ once it issues (R293). -/
def Held.holds (h : Held) : Bool :=
  match h.op with
  | .bqpop _ _ => !h.gone
  | _ => false

/-- The wait behind ordering operations of the thread, those held in bundles before its own (`bundle`) among them, and what they wait for. -/
def Core.orderWait (k : Core) (isWrite : Bool) (bundle : Option Nat) : Wait :=
  k.waitFor (k.mops.filter (fun o => o.holds isWrite))
    (k.sops.any (fun o => o.holds) || k.held.any (fun h => h.holds && decide (h.bundle < bundle.getD k.bundles)))

/-- A release on the schedule of a TIMED core (an STREL at CORE scope, an ABAR) waits at its issue until every earlier access performs no
later than its own cycle, and while a store is side-logged (R157, R181, R183, R186). -/
def Core.releaseIssue (k : Core) (due : Nat) : Wait :=
  if k.tagged then .go else k.waitFor (k.mops.filter (fun q => !q.perf && !(q.fixed && decide (q.due ≤ due)))) (!k.logsEmpty)

/-- Whether a store must wait at a page in migration or a Mirror region in REBUILD (R326, R335). -/
def State.storeBlocked (s : State) (c : Nat) (r : Req) : Bool :=
  r.isWrite && r.chunks.any (fun q => !bitAt q.2.1 63 &&
    s.pagesMoving (s.core c).ctx (q.2.1 % 2 ^ 56) q.2.2)
  || (r.isWrite && (okPieces (s.xlateChunks c r.need (r.log = some 0) r.chunks).2).any (fun p => s.inRebuild p.loc))

/-- The wait of an access (R186). -/
def State.accessWait (s : State) (ic : Ic) (r : Req) : Wait :=
  let k := s.core ic.c
  let eng := if k.meetsEngine r.chunks then
      (if k.tagged then .wait else if (s.coreCtx ic.c).erc then .miss 2 else .go) else Wait.go
  let rest : Wait :=
    if r.log.isNone && k.lineLogged r.lines then .wait
    else if s.storeBlocked ic.c r then .wait else .go
  ((k.orderWait r.isWrite ic.bundle).and rest).and eng

/-! ## Performing -/

/-- Bytes by their offset in the data, as a vector value. -/
def assemble (l : List (Nat × List Byte)) : V :=
  BitVec.ofNat 2048 (l.foldl (fun n q => n + ofBytes q.2 * 2 ^ (8 * q.1)) 0)

/-- `n` unspecified bytes of scratch from a location up (R8, R35). -/
def State.junkBytes (s : State) (loc n : Nat) : List Byte :=
  match placeOf loc with
  | .scratch id off => (List.range n).map (fun i => s.unspecified id (off + i) s.fresh)
  | _ => s.rdBytes loc n

/-- Read the pieces of an access as a thread does; a line that must come across the bridge is there from cycle `avail` on. -/
def State.readPieces (s : State) (c avail : Nat) (junk : Bool) : List Piece → State × List (Nat × List Byte)
  | [] => (s, [])
  | p :: t =>
    let r := if junk then (s.tick1, s.junkBytes p.loc p.len) else s.thrReads c p.loc avail p.len
    let z := State.readPieces r.1 c avail junk t
    (z.1, (p.off, r.2) :: z.2)

/-- Read the pieces at their homes (R152). -/
def State.readHome (s : State) (c : Nat) (ps : List Piece) : State × List (Nat × List Byte) :=
  let s1 := ps.foldl (fun t p => t.toHome c p.loc) s
  (s1, ps.map (fun p => (p.off, s1.rdBytes p.loc p.len)))

/-- The pieces at their homes as a waiting WAITA polls them (R174). -/
def State.viewHome (s : State) (c : Nat) (ps : List Piece) : List (Nat × List Byte) :=
  ps.map (fun p => (p.off, (List.range p.len).map (fun i => s.homeView c (p.loc + i))))

/-- Bytes of the data that a piece writes. -/
def pieceBytes (d : V) (p : Piece) : List Byte := toBytes p.len (d.toNat >>> (8 * p.off))

/-- Whether a location lies in a scratch tile owned by ENGINE. -/
def State.engineTile (s : State) (loc : Nat) : Bool :=
  match placeOf loc with
  | .scratch id off => (s.core id).eng.contains (off / 4096)
  | _ => false

/-- Bytes from a location up, cut at aligned 8-byte words: location and bytes of each part. -/
def wordParts : Nat → Nat → List Byte → List (Nat × List Byte)
  | 0, _, _ => []
  | n + 1, loc, bs =>
    if bs.isEmpty then [] else (loc, bs.take (8 - loc % 8)) :: wordParts n (loc + (8 - loc % 8)) (bs.drop (8 - loc % 8))

/-- A write by the window path, or of a thread after acceptance, into an ENGINE tile (R161): it lands, and each aligned 8-byte word that
the engine has written too holds either value. -/
def State.mixedWrite (s : State) (c loc : Nat) (bs : List Byte) : State :=
  match placeOf loc with
  | .scratch id off =>
    let ws := wordParts (bs.length / 8 + 2) loc bs
    let s1 := (((List.range ws.length).zip ws).foldl (fun (t : State) q =>
      let o := q.2.1 - scratchLoc id 0
      let raced := (List.range 8).any (fun i => inRanges (s.core id).engW (o / 8 * 8 + i))
      if raced && Config.freeBool (s.fresh * 64 + q.1) then t else t.homeWrite c q.2.1 q.2.2) s).tick1
    s1.modCore id (fun k => { k with raceW := (off, off + bs.length) :: k.raceW })
  | _ => s.homeWrite c loc bs

/-- A write of the engine that owns a tile of core `c` (R161): an aligned 8-byte word that another agent has written meanwhile holds
either value. -/
def State.engineLand (s : State) (c loc : Nat) (bs : List Byte) : State :=
  match placeOf loc with
  | .scratch id off =>
    let s1 :=
      if (s.core id).raceW.isEmpty then s.homeWrite c loc bs
      else
        let ws := wordParts (bs.length / 8 + 2) loc bs
        (((List.range ws.length).zip ws).foldl (fun (t : State) q =>
          let o := q.2.1 - scratchLoc id 0
          let raced := (List.range 8).any (fun i => inRanges (s.core id).raceW (o / 8 * 8 + i))
          if raced && Config.freeBool (s.fresh * 64 + q.1) then t else t.homeWrite c q.2.1 q.2.2) s).tick1
    s1.modCore id (fun k => { k with engW := (off, off + bs.length) :: k.engW })
  | _ => s.homeWrite c loc bs

/-- A write that arrives at its home by the window path, from another agent (R161). -/
def State.landWrite (s : State) (c loc : Nat) (bs : List Byte) : State :=
  if s.engineTile loc || s.engineTile (loc + (bs.length - 1)) then s.mixedWrite c loc bs else s.homeWrite c loc bs

/-- When the commands and operations that hold a scratch tile ENGINE were accepted, by `clk`. -/
def Core.tileClks (k : Core) (tile : Nat) : List Nat :=
  (k.cmds.filter (fun q => q.tiles.contains tile || q.block.isNone && q.blkAddr / 4096 == tile)).map (fun q => q.clk)
    ++ (k.sops.filter (fun o => o.blk.any (fun off => off / 4096 == tile))).map (fun o => o.clk)

/-- A scratch-path access that issued at or before the acceptance of every command that holds its tiles: the flip orders it before the
engine (R161). -/
def State.beforeFlip (s : State) (c : Nat) (o : MOp) : Bool :=
  o.lcl && o.pieces.all (fun p =>
    match placeOf p.loc with
    | .scratch _ off => [off / 4096, (off + p.len - 1) / 4096].all (fun t => ((s.core c).tileClks t).all (fun a => decide (o.cyc ≤ a)))
    | _ => true)

/-- Write the pieces of a plain store; `pre` where it is ordered before the engine. -/
def State.writePieces (s : State) (c : Nat) (pre : Bool) (d : V) (ps : List Piece) : State :=
  ps.foldl (fun t p =>
    if !pre && t.engineTile p.loc then t.mixedWrite c p.loc (pieceBytes d p) else t.thrWrites c p.loc (pieceBytes d p)) s

/-- Write the pieces at their homes. -/
def State.writeHome (s : State) (c : Nat) (pre : Bool) (d : V) (ps : List Piece) : State :=
  ps.foldl (fun t p =>
    if !pre && t.engineTile p.loc then t.mixedWrite c p.loc (pieceBytes d p)
    else (t.toHome c p.loc).homeWrite c p.loc (pieceBytes d p)) s

/-- The narrowest scope that holds both a core and a home, at least `lo` (R176, R181). -/
def State.scopeTo (s : State) (c loc lo : Nat) : Nat :=
  let n := match placeOf loc with
    | .scratch id _ =>
      if id = c then 0 else if quadOf id = quadOf c then 1 else if groupOf id = groupOf c then 2 else if dieOf id = dieOf c then 3 else 4
    | .remote _ _ => 5
    | .host _ => 6
    | _ => if dieOf c = 0 then 3 else 4
  Nat.max lo n

/-- Operations that wait for every earlier access of the thread (R157, R181). -/
def MOp.orders (o : MOp) : Bool :=
  match o.op with
  | .strel _ _ _ _ => true
  | .fence _ _ _ => true
  | .svfence _ _ => true
  | .swfence _ _ _ => true
  | .fencew _ _ _ => true
  | .abar _ _ _ _ => true
  | .postf _ _ _ _ _ => true
  | .sete _ _ => true
  | _ => false

/-- A delta counts as acknowledged for the packages that its region names lost (R335). -/
def State.deltaOpen (s : State) (d : DeltaOut) : Bool :=
  let r := readRegion s.mem (s.mirbase + 64 * d.region) d.region
  d.waiting.any (fun p => decide (r.st < 2) || (List.range r.m).any (fun i => r.shards.getD (r.k + i) 0 == p && !bitAt r.lost (r.k + i)))

/-- Whether every parity delta numbered below `mark` has been acknowledged (R164). A release takes the number that stands once the bytes
it orders have reached their homes, whichever core stored them (R158). -/
def State.deltasAcked (s : State) (mark : Nat) : Bool := s.deltas.all (fun d => decide (mark ≤ d.id) || !s.deltaOpen d)

/-- Whether every write numbered below `mark` that a die's agents made has performed at the homes that it has reached (R335). -/
def State.pointed (s : State) (d mark : Nat) : Bool := s.stalled.all (fun m => m.src != rdcAgent d || decide (mark ≤ m.id))

/-- Whether every transfer numbered below `mark` that left a die's RDC has arrived (R12, R150). -/
def State.written (s : State) (d mark : Nat) : Bool :=
  s.pointed d mark && s.bridge.all (fun m => m.src != rdcAgent d || decide (mark ≤ m.id))

/-- Whether an operation accesses memory for the thread. -/
def touchesMemory (i : Instr) : Bool :=
  match i with
  | .ld8s _ _ _ _ => true
  | .ld8u _ _ _ _ => true
  | .ld16s _ _ _ _ => true
  | .ld16u _ _ _ _ => true
  | .ld32s _ _ _ _ => true
  | .ld32u _ _ _ _ => true
  | .ld64 _ _ _ _ => true
  | .st8 _ _ _ _ => true
  | .st16 _ _ _ _ => true
  | .st32 _ _ _ _ => true
  | .st64 _ _ _ _ => true
  | .ldv _ _ _ _ => true
  | .stv _ _ _ _ => true
  | .ldvs _ _ _ _ => true
  | .pref _ _ _ _ => true
  | .waita _ _ _ _ => true
  | .aadd _ _ _ _ => true
  | .asub _ _ _ _ => true
  | .aand _ _ _ _ => true
  | .aor _ _ _ _ => true
  | .axor _ _ _ _ => true
  | .amin _ _ _ _ => true
  | .amax _ _ _ _ => true
  | .aminu _ _ _ _ => true
  | .amaxu _ _ _ _ => true
  | .axchg _ _ _ _ => true
  | .acas _ _ _ _ => true
  | .aincw _ _ _ _ => true
  | .afadd _ _ _ _ => true
  | .abar _ _ _ _ => true
  | .ldk _ _ _ _ => true
  | .ldk1 _ _ _ _ => true
  | .stk _ _ _ _ => true
  | .xld _ _ _ => true
  | .xst _ _ _ => true
  | .wld _ _ _ => true
  | _ => false

/-- The accesses before an operation in program order that have not performed; a slot of an earlier bundle that is still held is one
(R36, R181). -/
def Core.openBefore (k : Core) (o : MOp) : List MOp :=
  k.mops.filter (fun q => !q.perf && (decide (q.bundle < o.bundle) || q.bundle == o.bundle && decide (q.id < o.id)))
def Core.heldBefore (k : Core) (o : MOp) : Bool := k.held.any (fun h => !h.gone && decide (h.bundle < o.bundle) && touchesMemory h.op)

/-- A store of the thread before an operation stands in a side log (R322). -/
def Core.loggedBefore (k : Core) (o : MOp) : Bool := (k.logL ++ k.logA).any (fun e => e.valid && (decide (e.bundle < o.bundle) || e.bundle == o.bundle && decide (e.mop < o.id)))

/-- What an ordering operation must follow has performed (R157, R159, R181). -/
def Core.inOrder (k : Core) (o : MOp) : Bool :=
  !o.orders || k.onSchedule o
    || (!k.loggedBefore o && !k.heldBefore o && (match o.op with
        | .fencew _ _ _ => (k.openBefore o).all (fun q => !q.isWrite)
        | _ => (k.openBefore o).isEmpty))

/-- An ordering operation has drained, its bytes have reached their homes, and at SURVIVABLE their deltas are acknowledged (R150, R151,
R164). -/
def State.released (s : State) (c : Nat) (o : MOp) : Bool :=
  !o.orders || (s.core c).onSchedule o || (o.stage == 2 && (o.scope != 7 || s.deltasAcked o.mark))

/-- Whether an access may begin to perform at the end of this cycle: in its class's order (R154), and after what it must follow. -/
def State.mayBegin (s : State) (c : Nat) (o : MOp) : Bool :=
  let k := s.core c
  !o.perf
  && (if o.fixed then decide (o.due ≤ k.clk) else decide (o.due ≤ s.now))
  && (k.onSchedule o || o.cls == 4 || k.mops.all (fun q => q.perf || decide (o.id ≤ q.id) || q.cls != o.cls))
  && k.inOrder o

/-- Whether an access may perform at the end of this cycle. -/
def State.canPerform (s : State) (c : Nat) (o : MOp) : Bool := s.mayBegin c o && s.released c o

/-- Change piece `i` of an access. -/
def Core.setPiece (k : Core) (id i : Nat) (f : Piece → Piece) : Core :=
  { k with mops := k.mops.map (fun q => if q.id = id then { q with pieces := q.pieces.set i (f (q.pieces.getD i { off := 0, len := 0, loc := 0 })) } else q) }

/-- A piece has come about with its bytes; the access does not perform before cycle `ret`. -/
def State.pieceDone (s : State) (c id i ret : Nat) (bs : List Byte) : State :=
  s.modCore c (fun k =>
    let k1 := k.setPiece id i (fun p => { p with got := some bs })
    { k1 with mops := k1.mops.map (fun q => if q.id = id then { q with ret := Nat.max q.ret ret } else q) })

/-- Replace an access in the core's list. -/
def Core.setOp (k : Core) (o : MOp) : Core := { k with mops := k.mops.map (fun q => if q.id = o.id then o else q) }

/-- A held slot has yet to read the result of an operation (R36, R107). -/
def Core.readHeld (k : Core) (id : Nat) : Bool := k.held.any (fun h => !h.gone && h.src == some id)

/-- Results that have come back leave for their latch in the order of issue (R107): the oldest first, when no read can be due for
an older one. -/
def Core.retireOne (k : Core) (latch : Nat) : Option Core :=
  match k.mops.find? (fun o => o.latch = latch) with
  | none => none
  | some o =>
    if !k.readHeld o.id && o.perf && (!o.fixed || decide (o.ret ≤ k.clk)) && decide (o.cyc + o.dueLat ≤ k.clk + 1) then
      let k1 := { k with mops := k.mops.filter (fun q => q.id != o.id) }
      some (if latch = 1 then { k1 with sres := k1.sres.set 2 (o.val.setWidth 64) }
        else if latch = 3 then { k1 with sres := k1.sres.set 3 (o.val.setWidth 64) }
        else if latch = 2 then { k1 with vres := k1.vres.set 3 o.val }
        else { k1 with vres := k1.vres.set 1 o.val })
    else none

def Core.retireLatch (k : Core) (latch : Nat) : Nat → Core
  | 0 => k
  | n + 1 => match k.retireOne latch with
    | some k1 => Core.retireLatch k1 latch n
    | none => k

/-- At the end of a cycle: results move to their latches and performed accesses without a latch leave the list. Those of x.r move before
the cycle's converter results land in it (`Core.landDue`). -/
def Core.retireOps (k : Core) : Core :=
  let n := k.mops.length
  let k1 := ((k.retireLatch 1 n).retireLatch 2 n).retireLatch 3 n
  { k1 with mops := k1.mops.filter (fun o => !(o.perf && (o.latch == 0 || 5 ≤ o.latch))) }

end Sys2Proof.Machine
end

