-- ==== Sys2Proof/Machine/LoadStore.lean ====
section
/-! DEFINITION. What a trigger of l, at, ra or fe does at its issue (R167 to R186): each operation's access, what its issue waits
for, and the issue itself. What the access does when it performs is in Perform.lean. -/

set_option linter.unusedVariables false

namespace Sys2Proof.Machine

/-- ea of an l, at or ra operation (R167). -/
def Ic.memEa (ic : Ic) (b : BitVec 4) : Nat := ic.ea b.toNat ic.t.toInt

/-- l.d and l.d2 as the issue samples them. -/
def State.ld (s : State) (ic : Ic) : U64 := (s.core ic.c).sop.getD 2 0
def State.ld2 (s : State) (ic : Ic) : U64 := (s.core ic.c).sop.getD 3 0

/-- The active lanes under the VMASK selection as it stood before the issue (R190, R204). -/
def Core.activeLanes (k : Core) : Nat := if k.vmsel.toNat < 8 then (k.q.getD k.vmsel.toNat 0).toNat else 2 ^ 64 - 1

/-! ## The accesses -/

def scalarLoad (op : Instr) (n : Nat) (ic : Ic) (a : BitVec 2) (b : BitVec 4) : Req :=
  { op := op, latch := 1, cls := a.toNat, isRead := true, ea := ic.memEa b, chunks := [(0, ic.memEa b, n)], perfAt := 5, latchAt := 5 }

def scalarStore (op : Instr) (n : Nat) (ic : Ic) (s : State) (a : BitVec 2) (b : BitVec 4) : Req :=
  { op := op, cls := a.toNat, isWrite := true, ea := ic.memEa b, chunks := [(0, ic.memEa b, n)], perfAt := 4, latchAt := 4,
    data := (s.ld ic).setWidth 2048, log := some 0 }

/-- Lanes of a vector access (R172): 4 bytes per active lane. -/
def laneChunks (active : Nat) (ea : Nat) : List (Nat × Nat × Nat) :=
  (List.range 64).filterMap (fun i => if bitAt active i then some (4 * i, (ea + 4 * i) % 2 ^ 64, 4) else none)

def ldvReq (op : Instr) (ic : Ic) (a : BitVec 2) (b : BitVec 4) : Req :=
  { op := op, latch := 2, cls := a.toNat, isRead := true, align := 4, ea := ic.memEa b,
    chunks := laneChunks ic.pre.activeLanes (ic.memEa b), perfAt := 5, latchAt := 5, units := true }

def stvReq (op : Instr) (ic : Ic) (s : State) (a : BitVec 2) (b : BitVec 4) : Req :=
  { op := op, cls := a.toNat, isWrite := true, align := 4, ea := ic.memEa b, chunks := laneChunks ic.pre.activeLanes (ic.memEa b),
    perfAt := 4, latchAt := 4, data := (s.core ic.c).vop.getD 4 0, log := some 0, units := true }

def ldvsReq (op : Instr) (ic : Ic) (s : State) (a : BitVec 2) (b : BitVec 4) : Req :=
  { op := op, latch := 2, cls := a.toNat, isRead := true, align := 4, ea := ic.memEa b,
    chunks := (List.range 64).filterMap (fun i =>
      if bitAt ic.pre.activeLanes i then some (4 * i, wrapU (ic.memEa b + i * (s.ld ic).toInt) 64, 4) else none),
    perfAt := 5, latchAt := 5, units := true }

def atomicReq (op : Instr) (n : Nat) (ic : Ic) (s : State) (a : BitVec 2) (b : BitVec 4) : Req :=
  { op := op, latch := 3, cls := a.toNat, isRead := true, isWrite := true, align := n, ea := ic.memEa b,
    chunks := [(0, ic.memEa b, n)], perfAt := 9, latchAt := 9, data := (s.ld ic).setWidth 2048, data2 := s.ld2 ic }

/-- Local scratch at scope CORE keeps the fixed offsets of R155; any other form waits as marks and drains require (R183). -/
def wideOf (ea : Nat) (p : BitVec 3) : Bool := !(bitAt ea 63 && p == 0)

def ldacqReq (op : Instr) (ic : Ic) (b : BitVec 4) (p : BitVec 3) : Req :=
  { op := op, latch := 1, scope := (if p = 7 then 4 else p.toNat), isRead := true, align := 8, ea := ic.memEa b,
    chunks := [(0, ic.memEa b, 8)], perfAt := 5, latchAt := 5, wideScope := wideOf (ic.memEa b) p }

def strelReq (op : Instr) (ic : Ic) (s : State) (b : BitVec 4) (p : BitVec 3) : Req :=
  { op := op, scope := p.toNat, isWrite := true, align := 8, ea := ic.memEa b, chunks := [(0, ic.memEa b, 8)], perfAt := 4, latchAt := 4,
    data := (s.ld ic).setWidth 2048, log := some 1, wideScope := wideOf (ic.memEa b) p }

/-- The issue of an l operation: the access, and for a re-issue the step of its base register (R110). -/
def State.accessL (s : State) (ic : Ic) (b : BitVec 4) (r : Req) : Except Stop State :=
  match s.access ic r with
  | .ok s1 => .ok (s1.stickyStep ic b.toNat)
  | .error e => .error e

/-! ## l -/

/-- LD8S (R171): its access, what its issue waits for, and its issue. -/
def reqLd8s (ic : Ic) (src : BitVec 9) (a : BitVec 2) (b : BitVec 4) (grd : BitVec 6) : Req := scalarLoad (.ld8s src a b grd) 1 ic a b
def waitLd8s (ic : Ic) (src : BitVec 9) (a : BitVec 2) (b : BitVec 4) (grd : BitVec 6) (s : State) : Wait := s.accessWait ic (reqLd8s ic src a b grd)
def fireLd8s (ic : Ic) (src : BitVec 9) (a : BitVec 2) (b : BitVec 4) (grd : BitVec 6) (s : State) : Except Stop State :=
  s.accessL ic b (reqLd8s ic src a b grd)

/-- LD8U (R171): its access, what its issue waits for, and its issue. -/
def reqLd8u (ic : Ic) (src : BitVec 9) (a : BitVec 2) (b : BitVec 4) (grd : BitVec 6) : Req := scalarLoad (.ld8u src a b grd) 1 ic a b
def waitLd8u (ic : Ic) (src : BitVec 9) (a : BitVec 2) (b : BitVec 4) (grd : BitVec 6) (s : State) : Wait := s.accessWait ic (reqLd8u ic src a b grd)
def fireLd8u (ic : Ic) (src : BitVec 9) (a : BitVec 2) (b : BitVec 4) (grd : BitVec 6) (s : State) : Except Stop State :=
  s.accessL ic b (reqLd8u ic src a b grd)

/-- LD16S (R171): its access, what its issue waits for, and its issue. -/
def reqLd16s (ic : Ic) (src : BitVec 9) (a : BitVec 2) (b : BitVec 4) (grd : BitVec 6) : Req := scalarLoad (.ld16s src a b grd) 2 ic a b
def waitLd16s (ic : Ic) (src : BitVec 9) (a : BitVec 2) (b : BitVec 4) (grd : BitVec 6) (s : State) : Wait := s.accessWait ic (reqLd16s ic src a b grd)
def fireLd16s (ic : Ic) (src : BitVec 9) (a : BitVec 2) (b : BitVec 4) (grd : BitVec 6) (s : State) : Except Stop State :=
  s.accessL ic b (reqLd16s ic src a b grd)

/-- LD16U (R171): its access, what its issue waits for, and its issue. -/
def reqLd16u (ic : Ic) (src : BitVec 9) (a : BitVec 2) (b : BitVec 4) (grd : BitVec 6) : Req := scalarLoad (.ld16u src a b grd) 2 ic a b
def waitLd16u (ic : Ic) (src : BitVec 9) (a : BitVec 2) (b : BitVec 4) (grd : BitVec 6) (s : State) : Wait := s.accessWait ic (reqLd16u ic src a b grd)
def fireLd16u (ic : Ic) (src : BitVec 9) (a : BitVec 2) (b : BitVec 4) (grd : BitVec 6) (s : State) : Except Stop State :=
  s.accessL ic b (reqLd16u ic src a b grd)

/-- LD32S (R171): its access, what its issue waits for, and its issue. -/
def reqLd32s (ic : Ic) (src : BitVec 9) (a : BitVec 2) (b : BitVec 4) (grd : BitVec 6) : Req := scalarLoad (.ld32s src a b grd) 4 ic a b
def waitLd32s (ic : Ic) (src : BitVec 9) (a : BitVec 2) (b : BitVec 4) (grd : BitVec 6) (s : State) : Wait := s.accessWait ic (reqLd32s ic src a b grd)
def fireLd32s (ic : Ic) (src : BitVec 9) (a : BitVec 2) (b : BitVec 4) (grd : BitVec 6) (s : State) : Except Stop State :=
  s.accessL ic b (reqLd32s ic src a b grd)

/-- LD32U (R171): its access, what its issue waits for, and its issue. -/
def reqLd32u (ic : Ic) (src : BitVec 9) (a : BitVec 2) (b : BitVec 4) (grd : BitVec 6) : Req := scalarLoad (.ld32u src a b grd) 4 ic a b
def waitLd32u (ic : Ic) (src : BitVec 9) (a : BitVec 2) (b : BitVec 4) (grd : BitVec 6) (s : State) : Wait := s.accessWait ic (reqLd32u ic src a b grd)
def fireLd32u (ic : Ic) (src : BitVec 9) (a : BitVec 2) (b : BitVec 4) (grd : BitVec 6) (s : State) : Except Stop State :=
  s.accessL ic b (reqLd32u ic src a b grd)

/-- LD64 (R171): its access, what its issue waits for, and its issue. -/
def reqLd64 (ic : Ic) (src : BitVec 9) (a : BitVec 2) (b : BitVec 4) (grd : BitVec 6) : Req := scalarLoad (.ld64 src a b grd) 8 ic a b
def waitLd64 (ic : Ic) (src : BitVec 9) (a : BitVec 2) (b : BitVec 4) (grd : BitVec 6) (s : State) : Wait := s.accessWait ic (reqLd64 ic src a b grd)
def fireLd64 (ic : Ic) (src : BitVec 9) (a : BitVec 2) (b : BitVec 4) (grd : BitVec 6) (s : State) : Except Stop State :=
  s.accessL ic b (reqLd64 ic src a b grd)

/-- ST8 (R171). -/
def reqSt8 (ic : Ic) (src : BitVec 9) (a : BitVec 2) (b : BitVec 4) (grd : BitVec 6) (s : State) : Req := scalarStore (.st8 src a b grd) 1 ic s a b
def waitSt8 (ic : Ic) (src : BitVec 9) (a : BitVec 2) (b : BitVec 4) (grd : BitVec 6) (s : State) : Wait := s.accessWait ic (reqSt8 ic src a b grd s)
def fireSt8 (ic : Ic) (src : BitVec 9) (a : BitVec 2) (b : BitVec 4) (grd : BitVec 6) (s : State) : Except Stop State :=
  s.accessL ic b (reqSt8 ic src a b grd s)

/-- ST16 (R171). -/
def reqSt16 (ic : Ic) (src : BitVec 9) (a : BitVec 2) (b : BitVec 4) (grd : BitVec 6) (s : State) : Req := scalarStore (.st16 src a b grd) 2 ic s a b
def waitSt16 (ic : Ic) (src : BitVec 9) (a : BitVec 2) (b : BitVec 4) (grd : BitVec 6) (s : State) : Wait := s.accessWait ic (reqSt16 ic src a b grd s)
def fireSt16 (ic : Ic) (src : BitVec 9) (a : BitVec 2) (b : BitVec 4) (grd : BitVec 6) (s : State) : Except Stop State :=
  s.accessL ic b (reqSt16 ic src a b grd s)

/-- ST32 (R171). -/
def reqSt32 (ic : Ic) (src : BitVec 9) (a : BitVec 2) (b : BitVec 4) (grd : BitVec 6) (s : State) : Req := scalarStore (.st32 src a b grd) 4 ic s a b
def waitSt32 (ic : Ic) (src : BitVec 9) (a : BitVec 2) (b : BitVec 4) (grd : BitVec 6) (s : State) : Wait := s.accessWait ic (reqSt32 ic src a b grd s)
def fireSt32 (ic : Ic) (src : BitVec 9) (a : BitVec 2) (b : BitVec 4) (grd : BitVec 6) (s : State) : Except Stop State :=
  s.accessL ic b (reqSt32 ic src a b grd s)

/-- ST64 (R171). -/
def reqSt64 (ic : Ic) (src : BitVec 9) (a : BitVec 2) (b : BitVec 4) (grd : BitVec 6) (s : State) : Req := scalarStore (.st64 src a b grd) 8 ic s a b
def waitSt64 (ic : Ic) (src : BitVec 9) (a : BitVec 2) (b : BitVec 4) (grd : BitVec 6) (s : State) : Wait := s.accessWait ic (reqSt64 ic src a b grd s)
def fireSt64 (ic : Ic) (src : BitVec 9) (a : BitVec 2) (b : BitVec 4) (grd : BitVec 6) (s : State) : Except Stop State :=
  s.accessL ic b (reqSt64 ic src a b grd s)

/-- LDV (R172). -/
def reqLdv (ic : Ic) (src : BitVec 9) (a : BitVec 2) (b : BitVec 4) (grd : BitVec 6) (s : State) : Req := ldvReq (.ldv src a b grd) ic a b
def waitLdv (ic : Ic) (src : BitVec 9) (a : BitVec 2) (b : BitVec 4) (grd : BitVec 6) (s : State) : Wait := s.accessWait ic (reqLdv ic src a b grd s)
def fireLdv (ic : Ic) (src : BitVec 9) (a : BitVec 2) (b : BitVec 4) (grd : BitVec 6) (s : State) : Except Stop State :=
  s.accessL ic b (reqLdv ic src a b grd s)

/-- STV (R172). -/
def reqStv (ic : Ic) (src : BitVec 9) (a : BitVec 2) (b : BitVec 4) (grd : BitVec 6) (s : State) : Req := stvReq (.stv src a b grd) ic s a b
def waitStv (ic : Ic) (src : BitVec 9) (a : BitVec 2) (b : BitVec 4) (grd : BitVec 6) (s : State) : Wait := s.accessWait ic (reqStv ic src a b grd s)
def fireStv (ic : Ic) (src : BitVec 9) (a : BitVec 2) (b : BitVec 4) (grd : BitVec 6) (s : State) : Except Stop State :=
  s.accessL ic b (reqStv ic src a b grd s)

/-- LDVS (R172). -/
def reqLdvs (ic : Ic) (src : BitVec 9) (a : BitVec 2) (b : BitVec 4) (grd : BitVec 6) (s : State) : Req := ldvsReq (.ldvs src a b grd) ic s a b
def waitLdvs (ic : Ic) (src : BitVec 9) (a : BitVec 2) (b : BitVec 4) (grd : BitVec 6) (s : State) : Wait := s.accessWait ic (reqLdvs ic src a b grd s)
def fireLdvs (ic : Ic) (src : BitVec 9) (a : BitVec 2) (b : BitVec 4) (grd : BitVec 6) (s : State) : Except Stop State :=
  s.accessL ic b (reqLdvs ic src a b grd s)

/-- PREF (R173) asks for the 128-byte line of ea, in L1 or with l.d[0] = 1 below it; where it would fault, or names no line of this
package's memory, it does nothing. It never waits and never faults. -/
def firePref (ic : Ic) (src : BitVec 9) (a : BitVec 2) (b : BitVec 4) (grd : BitVec 6) (s : State) : Except Stop State :=
  let ea := ic.memEa b
  let r : Req := { op := .pref src a b grd, cls := a.toNat, isRead := true, ea := ea, chunks := [(0, ea, 1)], perfAt := 5, latchAt := 5,
                   aux := fld (s.ld ic).toNat 0 0 }
  let z := s.xlateChunk ic.c { r := true } false (0, ea, 1)
  let s1 : State := match z.2 with
    | .ok [p] => if !bitAt ea 63 && cacheable ic.c p.loc then z.1.launchOp ic r [p] false else s
    | _ => s
  .ok (s1.stickyStep ic b.toNat)

/-- A location in another package. -/
def farLoc (loc : Nat) : Bool := match placeOf loc with | .remote _ _ => true | _ => false

/-- The answer of another package to the read that a WAITA has made of a word (R149). -/
def Core.polled (k : Core) (ps : List Piece) : Option U64 :=
  match k.poll, ps with
  | some (l, some bs), p :: _ => if l = p.loc then some (u64 (ofBytes bs)) else none
  | _, _ => none

/-- The word a WAITA reads at its home, under the bytes that its own copies hold dirty (R174), and in another package as that has answered;
nothing where the access faults. -/
def State.waitaLook (s : State) (ic : Ic) (ea : Nat) : Option (State × List Piece × U64) :=
  if ea % 8 ≠ 0 then none
  else
    let z := s.xlateChunk ic.c { r := true } false (0, ea, 8)
    match z.2 with
    | .ok ps => some (z.1, ps, if ps.any (fun p => farLoc p.loc) then ((s.core ic.c).polled ps).getD 0 else u64 (assemble (z.1.viewHome ic.c ps)).toNat)
    | .error _ => none

def waitaReq (ic : Ic) (src : BitVec 9) (a : BitVec 2) (b : BitVec 4) (grd : BitVec 6) (v : U64) : Req :=
  { op := .waita src a b grd, latch := 1, cls := a.toNat, isRead := true, align := 8, ea := ic.memEa b, chunks := [(0, ic.memEa b, 8)],
    perfAt := 5, latchAt := 5, known := some (v.setWidth 2048) }

/-- Two sets of pieces share a byte. -/
def piecesMeet (a b : List Piece) : Bool := a.any (fun p => b.any (fun q => decide (p.loc < q.loc + q.len) && decide (q.loc < p.loc + p.len)))

/-- A write of the gang's schedule to the word performs before the first read of a WAITA that issues now would (R155). -/
def State.wordComing (s : State) (c : Nat) (ps : List Piece) : Bool :=
  (s.pairCores (s.core c).launch).any (fun q => (s.core q).mops.any (fun o =>
    o.isWrite && o.fixed && !o.perf && decide (o.due ≤ (s.core q).clk + 4) && piecesMeet ps o.pieces))

/-- What a WAITA's first read follows: ordering operations, logged stores of its line, and earlier accesses of its class. -/
def Core.waitaOrder (k : Core) (b : Option Nat) (r : Req) : Wait :=
  if !(k.orderWait false b).isGo then k.orderWait false b
  else if k.lineLogged r.lines then .wait
  else if (k.waitFor (k.mops.filter (fun q => q.cls == r.cls && !q.perf && !k.onSchedule q)) false).isGo then .go else .wait

/-- WAITA sleeps while the word equals l.d (R174, R175). An ENGINE tile neither holds it nor makes a miss. In TIMED mode the sleep is a
delay, in which the writes come about that the gang's schedule has before its first read (R155, log 94), and earlier accesses of its class
(R154). -/
def waitWaita (ic : Ic) (src : BitVec 9) (a : BitVec 2) (b : BitVec 4) (grd : BitVec 6) (s : State) : Wait :=
  let r := waitaReq ic src a b grd 0
  let k := s.core ic.c
  if !(k.waitaOrder ic.bundle r).isGo then k.waitaOrder ic.bundle r
  else match s.waitaLook ic r.ea with
    | some (_, ps, v) =>
      if !k.tagged && s.wordComing ic.c ps then .wait
      else if ps.any (fun p => farLoc p.loc) && (k.polled ps).isNone then .wait
      else if v = s.ld ic then .wait
      else .go
    | none => .go

/-- A woken WAITA takes the word that woke it, and sets the marks of an LDACQ at the narrowest scope that holds the word, at least
DIE (R176). -/
def fireWaita (ic : Ic) (src : BitVec 9) (a : BitVec 2) (b : BitVec 4) (grd : BitVec 6) (s : State) : Except Stop State :=
  match s.waitaLook ic (ic.memEa b) with
  | some (s1, ps, v) =>
    let sc := ps.foldl (fun n p => s1.scopeTo ic.c p.loc n) 3
    .ok ((((s1.drainTo ic.c sc false).setMarks ic.c sc).modCore ic.c (fun k => { k with poll := none })).launchOp ic (waitaReq ic src a b grd v) ps false)
  | none => s.access ic (waitaReq ic src a b grd 0)

/-- A cycle of a WAITA that waits for a word in another package: it asks for the word, and again when the answer is the value it sleeps on
(R149, R174). -/
def stepWaita (ic : Ic) (src : BitVec 9) (a : BitVec 2) (b : BitVec 4) (grd : BitVec 6) (s : State) : State :=
  let k := s.core ic.c
  match s.waitaLook ic (ic.memEa b) with
  | some (s1, p :: _, v) =>
    (match placeOf p.loc with
    | .remote pkg pa =>
      let asked := (match k.poll with | some (l, o) => l == p.loc && o.isNone | none => false) || ((k.polled [p]).isSome && v != s.ld ic)
      if asked || !(k.waitaOrder ic.bundle (waitaReq ic src a b grd 0)).isGo then s
      else (s1.request (.poll ic.c p.loc) pkg 11 pa (toBytes 1 8)).modCore ic.c (fun k => { k with poll := some (p.loc, none) })
    | _ => s)
  | _ => s

/-! ## at -/

/-- Atomics that travel to host memory as PCI Express AtomicOps (R178). -/
def hostAtomic (op : Instr) : Bool :=
  match op with
  | .aadd _ _ _ _ => true
  | .axchg _ _ _ _ => true
  | .acas _ _ _ _ => true
  | _ => false

/-- The issue of an atomic, with the atomic-target fault of R178. -/
def State.accessAt (s : State) (ic : Ic) (r : Req) : Except Stop State :=
  match s.access ic r with
  | .error e => .error e
  | .ok s1 =>
    let ps := (((s1.core ic.c).mops.getLast?).map MOp.pieces).getD []
    let host := ps.any (fun p => match placeOf p.loc with | .host _ => true | _ => false)
    if host && !(hostAtomic r.op && Config.hostAtomics) then .error { cause := 0x0B, slot := ic.slot, faddr := r.ea }
    else .ok s1

/-- AADD (R177). -/
def reqAadd (ic : Ic) (src : BitVec 9) (a : BitVec 2) (b : BitVec 4) (grd : BitVec 6) (s : State) : Req := atomicReq (.aadd src a b grd) 8 ic s a b
def waitAadd (ic : Ic) (src : BitVec 9) (a : BitVec 2) (b : BitVec 4) (grd : BitVec 6) (s : State) : Wait := s.accessWait ic (reqAadd ic src a b grd s)
def fireAadd (ic : Ic) (src : BitVec 9) (a : BitVec 2) (b : BitVec 4) (grd : BitVec 6) (s : State) : Except Stop State :=
  s.accessAt ic (reqAadd ic src a b grd s)

/-- ASUB (R177). -/
def reqAsub (ic : Ic) (src : BitVec 9) (a : BitVec 2) (b : BitVec 4) (grd : BitVec 6) (s : State) : Req := atomicReq (.asub src a b grd) 8 ic s a b
def waitAsub (ic : Ic) (src : BitVec 9) (a : BitVec 2) (b : BitVec 4) (grd : BitVec 6) (s : State) : Wait := s.accessWait ic (reqAsub ic src a b grd s)
def fireAsub (ic : Ic) (src : BitVec 9) (a : BitVec 2) (b : BitVec 4) (grd : BitVec 6) (s : State) : Except Stop State :=
  s.accessAt ic (reqAsub ic src a b grd s)

/-- AAND (R177). -/
def reqAand (ic : Ic) (src : BitVec 9) (a : BitVec 2) (b : BitVec 4) (grd : BitVec 6) (s : State) : Req := atomicReq (.aand src a b grd) 8 ic s a b
def waitAand (ic : Ic) (src : BitVec 9) (a : BitVec 2) (b : BitVec 4) (grd : BitVec 6) (s : State) : Wait := s.accessWait ic (reqAand ic src a b grd s)
def fireAand (ic : Ic) (src : BitVec 9) (a : BitVec 2) (b : BitVec 4) (grd : BitVec 6) (s : State) : Except Stop State :=
  s.accessAt ic (reqAand ic src a b grd s)

/-- AOR (R177). -/
def reqAor (ic : Ic) (src : BitVec 9) (a : BitVec 2) (b : BitVec 4) (grd : BitVec 6) (s : State) : Req := atomicReq (.aor src a b grd) 8 ic s a b
def waitAor (ic : Ic) (src : BitVec 9) (a : BitVec 2) (b : BitVec 4) (grd : BitVec 6) (s : State) : Wait := s.accessWait ic (reqAor ic src a b grd s)
def fireAor (ic : Ic) (src : BitVec 9) (a : BitVec 2) (b : BitVec 4) (grd : BitVec 6) (s : State) : Except Stop State :=
  s.accessAt ic (reqAor ic src a b grd s)

/-- AXOR (R177). -/
def reqAxor (ic : Ic) (src : BitVec 9) (a : BitVec 2) (b : BitVec 4) (grd : BitVec 6) (s : State) : Req := atomicReq (.axor src a b grd) 8 ic s a b
def waitAxor (ic : Ic) (src : BitVec 9) (a : BitVec 2) (b : BitVec 4) (grd : BitVec 6) (s : State) : Wait := s.accessWait ic (reqAxor ic src a b grd s)
def fireAxor (ic : Ic) (src : BitVec 9) (a : BitVec 2) (b : BitVec 4) (grd : BitVec 6) (s : State) : Except Stop State :=
  s.accessAt ic (reqAxor ic src a b grd s)

/-- AMIN (R177). -/
def reqAmin (ic : Ic) (src : BitVec 9) (a : BitVec 2) (b : BitVec 4) (grd : BitVec 6) (s : State) : Req := atomicReq (.amin src a b grd) 8 ic s a b
def waitAmin (ic : Ic) (src : BitVec 9) (a : BitVec 2) (b : BitVec 4) (grd : BitVec 6) (s : State) : Wait := s.accessWait ic (reqAmin ic src a b grd s)
def fireAmin (ic : Ic) (src : BitVec 9) (a : BitVec 2) (b : BitVec 4) (grd : BitVec 6) (s : State) : Except Stop State :=
  s.accessAt ic (reqAmin ic src a b grd s)

/-- AMAX (R177). -/
def reqAmax (ic : Ic) (src : BitVec 9) (a : BitVec 2) (b : BitVec 4) (grd : BitVec 6) (s : State) : Req := atomicReq (.amax src a b grd) 8 ic s a b
def waitAmax (ic : Ic) (src : BitVec 9) (a : BitVec 2) (b : BitVec 4) (grd : BitVec 6) (s : State) : Wait := s.accessWait ic (reqAmax ic src a b grd s)
def fireAmax (ic : Ic) (src : BitVec 9) (a : BitVec 2) (b : BitVec 4) (grd : BitVec 6) (s : State) : Except Stop State :=
  s.accessAt ic (reqAmax ic src a b grd s)

/-- AMINU (R177). -/
def reqAminu (ic : Ic) (src : BitVec 9) (a : BitVec 2) (b : BitVec 4) (grd : BitVec 6) (s : State) : Req := atomicReq (.aminu src a b grd) 8 ic s a b
def waitAminu (ic : Ic) (src : BitVec 9) (a : BitVec 2) (b : BitVec 4) (grd : BitVec 6) (s : State) : Wait := s.accessWait ic (reqAminu ic src a b grd s)
def fireAminu (ic : Ic) (src : BitVec 9) (a : BitVec 2) (b : BitVec 4) (grd : BitVec 6) (s : State) : Except Stop State :=
  s.accessAt ic (reqAminu ic src a b grd s)

/-- AMAXU (R177). -/
def reqAmaxu (ic : Ic) (src : BitVec 9) (a : BitVec 2) (b : BitVec 4) (grd : BitVec 6) (s : State) : Req := atomicReq (.amaxu src a b grd) 8 ic s a b
def waitAmaxu (ic : Ic) (src : BitVec 9) (a : BitVec 2) (b : BitVec 4) (grd : BitVec 6) (s : State) : Wait := s.accessWait ic (reqAmaxu ic src a b grd s)
def fireAmaxu (ic : Ic) (src : BitVec 9) (a : BitVec 2) (b : BitVec 4) (grd : BitVec 6) (s : State) : Except Stop State :=
  s.accessAt ic (reqAmaxu ic src a b grd s)

/-- AXCHG (R177). -/
def reqAxchg (ic : Ic) (src : BitVec 9) (a : BitVec 2) (b : BitVec 4) (grd : BitVec 6) (s : State) : Req := atomicReq (.axchg src a b grd) 8 ic s a b
def waitAxchg (ic : Ic) (src : BitVec 9) (a : BitVec 2) (b : BitVec 4) (grd : BitVec 6) (s : State) : Wait := s.accessWait ic (reqAxchg ic src a b grd s)
def fireAxchg (ic : Ic) (src : BitVec 9) (a : BitVec 2) (b : BitVec 4) (grd : BitVec 6) (s : State) : Except Stop State :=
  s.accessAt ic (reqAxchg ic src a b grd s)

/-- ACAS (R177). -/
def reqAcas (ic : Ic) (src : BitVec 9) (a : BitVec 2) (b : BitVec 4) (grd : BitVec 6) (s : State) : Req := atomicReq (.acas src a b grd) 8 ic s a b
def waitAcas (ic : Ic) (src : BitVec 9) (a : BitVec 2) (b : BitVec 4) (grd : BitVec 6) (s : State) : Wait := s.accessWait ic (reqAcas ic src a b grd s)
def fireAcas (ic : Ic) (src : BitVec 9) (a : BitVec 2) (b : BitVec 4) (grd : BitVec 6) (s : State) : Except Stop State :=
  s.accessAt ic (reqAcas ic src a b grd s)

/-- AINCW (R177). -/
def reqAincw (ic : Ic) (src : BitVec 9) (a : BitVec 2) (b : BitVec 4) (grd : BitVec 6) (s : State) : Req := atomicReq (.aincw src a b grd) 8 ic s a b
def waitAincw (ic : Ic) (src : BitVec 9) (a : BitVec 2) (b : BitVec 4) (grd : BitVec 6) (s : State) : Wait := s.accessWait ic (reqAincw ic src a b grd s)
def fireAincw (ic : Ic) (src : BitVec 9) (a : BitVec 2) (b : BitVec 4) (grd : BitVec 6) (s : State) : Except Stop State :=
  s.accessAt ic (reqAincw ic src a b grd s)

/-- AFADD (R177). -/
def reqAfadd (ic : Ic) (src : BitVec 9) (a : BitVec 2) (b : BitVec 4) (grd : BitVec 6) (s : State) : Req := atomicReq (.afadd src a b grd) 4 ic s a b
def waitAfadd (ic : Ic) (src : BitVec 9) (a : BitVec 2) (b : BitVec 4) (grd : BitVec 6) (s : State) : Wait := s.accessWait ic (reqAfadd ic src a b grd s)
def fireAfadd (ic : Ic) (src : BitVec 9) (a : BitVec 2) (b : BitVec 4) (grd : BitVec 6) (s : State) : Except Stop State :=
  s.accessAt ic (reqAfadd ic src a b grd s)

/-- ABAR (R180). -/
def reqAbar (ic : Ic) (src : BitVec 9) (a : BitVec 2) (b : BitVec 4) (grd : BitVec 6) (s : State) : Req := atomicReq (.abar src a b grd) 8 ic s a b
def waitAbar (ic : Ic) (src : BitVec 9) (a : BitVec 2) (b : BitVec 4) (grd : BitVec 6) (s : State) : Wait :=
  let r := reqAbar ic src a b grd s
  let d := s.distances ic.c (bitAt r.ea 63) (okPieces (s.xlateChunks ic.c r.need false r.chunks).2)
  (match d with | some x => (s.core ic.c).releaseIssue ((s.core ic.c).clk + 9 + x) | none => Wait.go).and (s.accessWait ic r)
def fireAbar (ic : Ic) (src : BitVec 9) (a : BitVec 2) (b : BitVec 4) (grd : BitVec 6) (s : State) : Except Stop State :=
  s.accessAt ic (reqAbar ic src a b grd s)

/-! ## The new value of an atomic (R177, R180) -/

/-- What an atomic leaves: the value written, if any, and whether it raises the invalid event or sets a byte-barrier record. -/
structure AtomOut where
  new : Option Nat
  inv : Bool := false
  mark : Bool := false
  deriving DecidableEq, Repr

def atomAdd (old d : Nat) : AtomOut := { new := some ((old + d) % 2 ^ 64) }
def atomSub (old d : Nat) : AtomOut := { new := some ((old + 2 ^ 64 - d % 2 ^ 64) % 2 ^ 64) }
def atomAnd (old d : Nat) : AtomOut := { new := some (old &&& d) }
def atomOr (old d : Nat) : AtomOut := { new := some (old ||| d) }
def atomXor (old d : Nat) : AtomOut := { new := some (old ^^^ d) }
def atomMin (old d : Nat) : AtomOut := { new := some (if signed old 64 ≤ signed d 64 then old else d) }
def atomMax (old d : Nat) : AtomOut := { new := some (if signed old 64 ≤ signed d 64 then d else old) }
def atomMinu (old d : Nat) : AtomOut := { new := some (Nat.min old d) }
def atomMaxu (old d : Nat) : AtomOut := { new := some (Nat.max old d) }
def atomXchg (d : Nat) : AtomOut := { new := some d }
def atomCas (old d d2 : Nat) : AtomOut := { new := if old = d then some d2 else none }
def atomIncw (old d : Nat) : AtomOut := { new := some (if d = 0 then (old + 1) % 2 ^ 64 else (old + 1) % d) }
/-- AFADD: one FP32 addition rounded by rne32, with the invalid event of R68. -/
def atomFadd (old d : Nat) : AtomOut :=
  let s := Num.add (decF32 (old % 2 ^ 32)) (decF32 (d % 2 ^ 32))
  { new := some (encF32 s.1), inv := s.2 }

/-- An arrival of n bytes at a byte-barrier word (R180). -/
def atomBar (old d : Nat) : AtomOut :=
  let n := fld d 47 0
  let remain := fld old 47 0
  let st := fld old 49 48
  if fld old 63 50 ≠ 0 ∨ st = 3 then { new := none, mark := true }
  else if n = 0 then { new := none }
  else if st = 0 ∧ n < remain then { new := some (remain - n) }
  else if st = 0 ∧ n = remain then { new := some (2 ^ 48) }
  else { new := some (2 * 2 ^ 48), mark := true }

/-- The table of R177. -/
def atomicOut (op : Instr) (old d d2 : Nat) : AtomOut :=
  match op with
  | .aadd _ _ _ _ => atomAdd old d
  | .asub _ _ _ _ => atomSub old d
  | .aand _ _ _ _ => atomAnd old d
  | .aor _ _ _ _ => atomOr old d
  | .axor _ _ _ _ => atomXor old d
  | .amin _ _ _ _ => atomMin old d
  | .amax _ _ _ _ => atomMax old d
  | .aminu _ _ _ _ => atomMinu old d
  | .amaxu _ _ _ _ => atomMaxu old d
  | .axchg _ _ _ _ => atomXchg d
  | .acas _ _ _ _ => atomCas old d d2
  | .aincw _ _ _ _ => atomIncw old d
  | .afadd _ _ _ _ => atomFadd old d
  | .abar _ _ _ _ => atomBar old d
  | _ => { new := none }

/-- The code of an atomic (R177) and its operation, as a request to another package's home carries it (log 30). -/
def atomCode (op : Instr) : Nat :=
  match op with
  | .asub _ _ _ _ => 1
  | .aand _ _ _ _ => 2
  | .aor _ _ _ _ => 3
  | .axor _ _ _ _ => 4
  | .amin _ _ _ _ => 5
  | .amax _ _ _ _ => 6
  | .aminu _ _ _ _ => 7
  | .amaxu _ _ _ _ => 8
  | .axchg _ _ _ _ => 9
  | .acas _ _ _ _ => 10
  | .aincw _ _ _ _ => 11
  | .afadd _ _ _ _ => 12
  | .abar _ _ _ _ => 13
  | _ => 0

def atomOfCode (code old d d2 : Nat) : AtomOut :=
  match code with
  | 0 => atomAdd old d
  | 1 => atomSub old d
  | 2 => atomAnd old d
  | 3 => atomOr old d
  | 4 => atomXor old d
  | 5 => atomMin old d
  | 6 => atomMax old d
  | 7 => atomMinu old d
  | 8 => atomMaxu old d
  | 9 => atomXchg d
  | 10 => atomCas old d d2
  | 11 => atomIncw old d
  | 12 => atomFadd old d
  | 13 => atomBar old d
  | _ => { new := none }

/-! ## ra -/

/-- LDACQ (R182, R183). -/
def reqLdacq (ic : Ic) (src : BitVec 9) (b : BitVec 4) (p : BitVec 3) (grd : BitVec 6) : Req := ldacqReq (.ldacq src b p grd) ic b p
def waitLdacq (ic : Ic) (src : BitVec 9) (b : BitVec 4) (p : BitVec 3) (grd : BitVec 6) (s : State) : Wait := s.accessWait ic (reqLdacq ic src b p grd)
def fireLdacq (ic : Ic) (src : BitVec 9) (b : BitVec 4) (p : BitVec 3) (grd : BitVec 6) (s : State) : Except Stop State :=
  s.access ic (reqLdacq ic src b p grd)

/-- The widest release scope of the task, which a save's fence reaches (R314). -/
def State.noteRelease (s : State) (c : Nat) (p : Nat) : State :=
  s.modCore c (fun k => { k with relScope := Nat.max k.relScope (scopeRank p), relSurv := k.relSurv || p == 7 })

/-- STREL (R182, R183). -/
def reqStrel (ic : Ic) (src : BitVec 9) (b : BitVec 4) (p : BitVec 3) (grd : BitVec 6) (s : State) : Req := strelReq (.strel src b p grd) ic s b p
def waitStrel (ic : Ic) (src : BitVec 9) (b : BitVec 4) (p : BitVec 3) (grd : BitVec 6) (s : State) : Wait :=
  (if wideOf (ic.memEa b) p then Wait.go else (s.core ic.c).releaseIssue ((s.core ic.c).clk + 4)).and (s.accessWait ic (reqStrel ic src b p grd s))
def fireStrel (ic : Ic) (src : BitVec 9) (b : BitVec 4) (p : BitVec 3) (grd : BitVec 6) (s : State) : Except Stop State :=
  match s.access ic (reqStrel ic src b p grd s) with
  | .ok s1 => .ok (s1.noteRelease ic.c p.toNat)
  | .error e => .error e

/-! ## fe -/

/-- A fence in flight: it performs when what it orders has performed, and until then holds later accesses (R157, R184, R185). -/
def State.fenceOp (s : State) (ic : Ic) (op : Instr) (scope : Nat) (h : U64) : State :=
  let k := s.core ic.c
  let o : MOp :=
    { id := k.next, op := op, slot := ic.slot, pc := ic.pc, re := false, latch := 0, cls := 4, cyc := k.clk, due := s.now,
      fixed := false, ret := 0, scope := scope, isRead := false, isWrite := false, ea := 0, lcl := false, pieces := [], data := 0,
      data2 := h, fm := 0, k := 0, aux := 0, logged := false, junk := false, perf := false, val := 0, bundle := ic.bundle.getD k.bundles }
  (s.modCore ic.c (fun k => { k with mops := k.mops ++ [o], next := k.next + 1 })).noteRelease ic.c scope

/-- The wait of a fence bundle behind another ordering operation of the thread. -/
def waitFenceOp (ic : Ic) (s : State) : Wait := (s.core ic.c).orderWait true ic.bundle

/-- FENCE at a scope (R184). -/
def fireFence (ic : Ic) (src : BitVec 9) (p : BitVec 3) (grd : BitVec 6) (s : State) : Except Stop State :=
  .ok (s.fenceOp ic (.fence src p grd) p.toNat 0)

/-- SVFENCE: as FENCE at PACKAGE, and every parity delta acknowledged (R157). -/
def fireSvfence (ic : Ic) (src : BitVec 9) (grd : BitVec 6) (s : State) : Except Stop State :=
  .ok (s.fenceOp ic (.svfence src grd) 7 0)

/-- FENCEW (R184). -/
def fireFencew (ic : Ic) (src : BitVec 9) (p : BitVec 3) (grd : BitVec 6) (s : State) : Except Stop State :=
  .ok (s.fenceOp ic (.fencew src p grd) p.toNat 0)

/-- SWFENCE on the handle in trigger[15:0], at GROUP scope or wider and not SURVIVABLE (R184). -/
def fireSwfence (ic : Ic) (src : BitVec 9) (p : BitVec 3) (grd : BitVec 6) (s : State) : Except Stop State :=
  if p.toNat < 2 ∨ p = 7 then .error (illOp ic)
  else .ok (s.fenceOp ic (.swfence src p grd) p.toNat (u64 (fld ic.t.toNat 15 0)))

end Sys2Proof.Machine
end

