-- ==== Sys2Proof/Machine/VectorOps.lean ====
section
/-! DEFINITION. What a trigger of v does (R187 to R204): the inputs it samples, the legality of its lane type and control field, and
the result latches it writes after its latency (R191). -/

set_option linter.unusedVariables false

namespace Sys2Proof.Machine

/-- The eight rows of tile n from its row pointer as it stood before the issue (R201). -/
def Core.bmmRows (k : Core) (n : Nat) : List V :=
  (List.range 8).map (fun r => (k.t.getD n {}).rows.getD (((k.t.getD n {}).ptr.toNat + r) % 32) 0)

/-- A vector result latch as VTOPKM samples it: in TAGGED mode with SCHK off an undersized sample sees the old or the new value (R38, R109,
R191). -/
def State.listRead (s : State) (ic : Ic) (i n : Nat) : V :=
  let old := ic.pre.readVres i
  let new := (ic.pre.pend.filterMap (fun p => match p.eff with
    | .vres j v => if j = i then some v else none
    | _ => none)).getLast?
  match new with
  | some v => if ic.pre.tagged && Config.freeBool (s.fresh * 16 + n) then v else old
  | none => old

/-- What a vector operation samples (R187): a is the trigger value; b, c and the control word are v.o1, v.o2 and v.so after the moves
of the issue; the masks, lgl and the list of VTOPKM are read as before the issue. -/
def State.vin (s : State) (ic : Ic) (t : BitVec 3) : VIn :=
  let k := s.core ic.c
  let ctl := k.sop.getD 8 0
  { t := t.toNat, a := ic.tv, b := k.vop.getD 0 0, c := k.vop.getD 1 0, ctl := ctl, active := ic.pre.activeLanes,
    vr := s.listRead ic 0 14, vr2 := s.listRead ic 4 15, rows := ic.pre.bmmRows (fld ctl.toNat 3 0), lgl := ic.pre.lgl }

/-- The result latches of an operation after its latency, and its invalid event (R191, R68). -/
def State.vecOut (s : State) (ic : Ic) (lat : Nat) (o : VOut) : State :=
  let s1 := match o.r with | some v => s.laterV ic lat 0 v | none => s
  let s2 := match o.r2 with | some v => s1.laterV ic lat 4 v | none => s1
  let s3 := match o.s with | some v => s2.laterS ic lat 8 v | none => s2
  s3.flags ic o.inv false

/-- A vector operation: a lane type or control field that its row does not list is an illegal operation (R188, R189). -/
def State.vecOp (s : State) (ic : Ic) (t : BitVec 3) (legal : Nat → Bool) (ctlOk : U64 → Bool) (lat : Nat) (f : VIn → VOut) :
    Except Stop State :=
  let x := s.vin ic t
  if legal t.toNat && ctlOk x.ctl then .ok (s.vecOut ic lat (f x)) else .error (illOp ic)

def anyCtl (x : U64) : Bool := true

/-- VADD (R192), latency 2. -/
def fireVadd (ic : Ic) (t : BitVec 3) (s : State) : Except Stop State := s.vecOp ic t ltAll anyCtl 2 vAdd
/-- VSUB (R192), latency 2. -/
def fireVsub (ic : Ic) (t : BitVec 3) (s : State) : Except Stop State := s.vecOp ic t ltAll anyCtl 2 vSub
/-- VMUL (R192), latency 4. -/
def fireVmul (ic : Ic) (t : BitVec 3) (s : State) : Except Stop State := s.vecOp ic t ltAll anyCtl 4 vMul
/-- VMAD (R192), latency 4. -/
def fireVmad (ic : Ic) (t : BitVec 3) (s : State) : Except Stop State := s.vecOp ic t ltAll anyCtl 4 vMad
/-- VMIN (R192), latency 2. -/
def fireVmin (ic : Ic) (t : BitVec 3) (s : State) : Except Stop State := s.vecOp ic t ltAll anyCtl 2 vMin
/-- VMAX (R192), latency 2. -/
def fireVmax (ic : Ic) (t : BitVec 3) (s : State) : Except Stop State := s.vecOp ic t ltAll anyCtl 2 vMax
/-- VABS (R192), latency 2. -/
def fireVabs (ic : Ic) (t : BitVec 3) (s : State) : Except Stop State := s.vecOp ic t ltAll anyCtl 2 vAbs
/-- VNEG (R192), latency 2. -/
def fireVneg (ic : Ic) (t : BitVec 3) (s : State) : Except Stop State := s.vecOp ic t ltAll anyCtl 2 vNeg
/-- VAND (R194), latency 2. -/
def fireVand (ic : Ic) (t : BitVec 3) (s : State) : Except Stop State := s.vecOp ic t ltAll anyCtl 2 vAnd
/-- VOR (R194), latency 2. -/
def fireVor (ic : Ic) (t : BitVec 3) (s : State) : Except Stop State := s.vecOp ic t ltAll anyCtl 2 vOr
/-- VXOR (R194), latency 2. -/
def fireVxor (ic : Ic) (t : BitVec 3) (s : State) : Except Stop State := s.vecOp ic t ltAll anyCtl 2 vXor
/-- VSHL (R194), latency 2. -/
def fireVshl (ic : Ic) (t : BitVec 3) (s : State) : Except Stop State := s.vecOp ic t ltInteger anyCtl 2 vShl
/-- VSHR (R194), latency 2. -/
def fireVshr (ic : Ic) (t : BitVec 3) (s : State) : Except Stop State := s.vecOp ic t ltInteger anyCtl 2 vShr
/-- VCMPEQ (R195), latency 2. -/
def fireVcmpeq (ic : Ic) (t : BitVec 3) (s : State) : Except Stop State := s.vecOp ic t ltAll anyCtl 2 vCmpeq
/-- VCMPLT (R195), latency 2. -/
def fireVcmplt (ic : Ic) (t : BitVec 3) (s : State) : Except Stop State := s.vecOp ic t ltAll anyCtl 2 vCmplt
/-- VCMPLE (R195), latency 2. -/
def fireVcmple (ic : Ic) (t : BitVec 3) (s : State) : Except Stop State := s.vecOp ic t ltAll anyCtl 2 vCmple
/-- VSEL (R195), latency 2. -/
def fireVsel (ic : Ic) (t : BitVec 3) (s : State) : Except Stop State := s.vecOp ic t ltAll anyCtl 2 vSel
/-- VRCP (R196), latency 8. -/
def fireVrcp (ic : Ic) (t : BitVec 3) (s : State) : Except Stop State := s.vecOp ic t ltFloatOnly anyCtl 8 vRcp
/-- VRSQ (R196), latency 8. -/
def fireVrsq (ic : Ic) (t : BitVec 3) (s : State) : Except Stop State := s.vecOp ic t ltFloatOnly anyCtl 8 vRsq
/-- VEXP2 (R196), latency 8. -/
def fireVexp2 (ic : Ic) (t : BitVec 3) (s : State) : Except Stop State := s.vecOp ic t ltFloatOnly anyCtl 8 vExp2
/-- VLOG2 (R196), latency 8. -/
def fireVlog2 (ic : Ic) (t : BitVec 3) (s : State) : Except Stop State := s.vecOp ic t ltFloatOnly anyCtl 8 vLog2
/-- VRED (R197), latency 6. -/
def fireVred (ic : Ic) (t : BitVec 3) (s : State) : Except Stop State := s.vecOp ic t ltAll ropLegal 6 vRed
/-- VSCAN (R198), latency 6. -/
def fireVscan (ic : Ic) (t : BitVec 3) (s : State) : Except Stop State := s.vecOp ic t ltAll ropLegal 6 vScan
/-- VSHUF (R199), latency 2. -/
def fireVshuf (ic : Ic) (t : BitVec 3) (s : State) : Except Stop State := s.vecOp ic t ltAll anyCtl 2 vShuf
/-- VBCAST (R199), latency 2. -/
def fireVbcast (ic : Ic) (t : BitVec 3) (s : State) : Except Stop State := s.vecOp ic t ltAll anyCtl 2 vBcast
/-- VPACKG (R202), latency 2. -/
def fireVpackg (ic : Ic) (t : BitVec 3) (s : State) : Except Stop State := s.vecOp ic t ltI32 anyCtl 2 vPackg
/-- VCLMUL (R199), latency 4. -/
def fireVclmul (ic : Ic) (t : BitVec 3) (s : State) : Except Stop State := s.vecOp ic t ltClmul anyCtl 4 vClmul
/-- VPXOR (R199), latency 2. -/
def fireVpxor (ic : Ic) (t : BitVec 3) (s : State) : Except Stop State := s.vecOp ic t ltI32 anyCtl 2 vPxor
/-- VTOPK (R200), latency 12. -/
def fireVtopk (ic : Ic) (t : BitVec 3) (s : State) : Except Stop State := s.vecOp ic t ltTopk anyCtl 12 vTopk
/-- VTOPKM (R200), latency 12. -/
def fireVtopkm (ic : Ic) (t : BitVec 3) (s : State) : Except Stop State := s.vecOp ic t ltTopk anyCtl 12 vTopkm
/-- BMM (R201). The row pointer of the tile moves on by 8. -/
def fireBmm (ic : Ic) (t : BitVec 3) (s : State) : Except Stop State :=
  match s.vecOp ic t ltF32 anyCtl 10 vBmm with
  | .ok s1 => .ok (s1.modCore ic.c (fun k =>
      let n := fld (k.sop.getD 8 0).toNat 3 0
      { k with t := k.t.set n { (k.t.getD n {}) with ptr := (k.t.getD n {}).ptr + 8 } }))
  | .error e => .error e
/-- VMASK (R204): the VMASK selection := MSEL, seen from the next issued bundle. -/
def fireVmask (ic : Ic) (t : BitVec 3) (s : State) : Except Stop State :=
  let ctl := (s.core ic.c).sop.getD 8 0
  if ltI32 t.toNat && mselLegal ctl then .ok (s.modCore ic.c (fun k => { k with vmsel := BitVec.ofNat 4 (fld ctl.toNat 3 0) }))
  else .error (illOp ic)

end Sys2Proof.Machine
end

