-- ==== Sys2Proof/Machine/ConvertOps.lean ====
section
/-! DEFINITION. What a trigger or a re-issue of x does (R205 to R215). -/

set_option linter.unusedVariables false

namespace Sys2Proof.Machine

/-- The source vector: the trigger value, and on a re-issue x.v after the moves of the issue (R205). -/
def State.xsrc (s : State) (ic : Ic) : V := if ic.re then (s.core ic.c).vop.getD 2 0 else ic.tv
/-- CTRL (R206), from x.o after the moves of the issue. -/
def State.xctl (s : State) (ic : Ic) : U64 := (s.core ic.c).sop.getD 7 0
/-- The format register that the operation names, as before the issue (R58). -/
def Ic.fmr (ic : Ic) (f : BitVec 4) : BitVec 32 := ic.pre.fm.getD f.toNat 0
/-- The scale register named by CTRL, read at issue (R208). -/
def Ic.kreg (ic : Ic) (x : U64) : BitVec 1024 := ic.pre.k.getD (ctrlKreg x) 0

/-- The chunk of this issue (R209). -/
def Ic.chunk (ic : Ic) (x : U64) (nch : Nat) : Nat := if ic.re then (ic.idx + 1) % nch else ctrlCH x % nch

/-- Keep the chunk for the next re-issue. -/
def State.xwalk (s : State) (ic : Ic) (ch : Nat) : State :=
  s.modCore ic.c (fun k => { k with stX := k.stX.map (fun t => { t with idx := ch }) })

/-- CTRL is legal: its reserved bits are 0 and, where RM is read, its code is 0 to 3 (R206). -/
def ctrlOk (x : U64) (rm : Bool) : Bool := ctrlRsvOk x && (!rm || decide (ctrlRM x < 4))

/-- What x.r comes to hold by the results in flight of operations that no XLD precedes. -/
def Core.xsoon (k : Core) : V :=
  (k.pend.foldl (fun q p => match p.eff with
    | .vres 1 v => v
    | .xchunk c ch codes => chunkPut q c ch codes
    | _ => q) (k.vres.getD 1 0))

/-- The operation whose result a chunk issued now joins: the latest before it that a read right after it would be due for (R107, R210). -/
def Core.xbase (k : Core) : Option MOp :=
  (k.mops.filter (fun o => o.latch = 4 && decide (o.cyc + o.dueLat ≤ k.clk + 4))).getLast?

/-- Containers of c bits in a chunk, as an access keeps them until it joins them to an XLD's result. -/
def xpacked (c : Nat) (codes : List Nat) : V := BitVec.ofNat 2048 (packNat c codes)

/-- A result for x.r behind an XLD in flight takes its place among the unit's operations (R107): whole, or a chunk with the latch that it
joins, which an XLD may have yet to bring. -/
def Core.xmark (k : Core) (ic : Ic) (op : Instr) (e : Eff) : Core :=
  let m : MOp :=
    { id := k.next, op := op, slot := ic.slot, pc := ic.pc, re := ic.re, latch := 4, cls := 4, cyc := k.clk, due := k.clk,
      fixed := true, ret := k.clk + 3, scope := 0, isRead := false, isWrite := false, ea := 0, lcl := false, pieces := [], data := 0,
      data2 := 0, fm := 0, k := 0, aux := 0, logged := false, junk := false, perf := true, val := 0 }
  let o : MOp := match e with
    | .vres _ v => { m with val := v }
    | .xchunk c ch codes =>
      (match k.xbase with
      | none => { m with val := chunkPut k.xsoon c ch codes }
      | some b =>
        if b.perf then { m with val := chunkPut b.val c ch codes }
        else { m with perf := false, fixed := false, data := xpacked c codes, aux := 32 * c + ch, mark := b.id })
    | _ => m
  { k with mops := k.mops ++ [o], next := k.next + 1 }

/-- A result for x.r after the converter's latency. -/
def State.xresult (s : State) (ic : Ic) (op : Instr) (e : Eff) : State :=
  s.modCore ic.c (fun k => if k.mops.any (fun o => o.latch = 4) then k.xmark ic op e else k.later 4 ic.re e)

/-- Codes into a chunk of x.r after the converter's latency (R210, R212). -/
def State.xput (s : State) (ic : Ic) (op : Instr) (c ch : Nat) (r : List Nat × Bool) : State :=
  ((s.xresult ic op (.xchunk c ch r.1)).xwalk ic ch).flags ic r.2 false

/-- A whole x.r after the converter's latency. -/
def State.xset (s : State) (ic : Ic) (op : Instr) (ch : Nat) (r : List Nat × Bool) : State :=
  ((s.xresult ic op (.vres 1 (pack 32 r.1))).xwalk ic ch).flags ic r.2 false

/-- XQ (R210): quantize by RM into the current chunk. -/
def fireXq (ic : Ic) (src : BitVec 9) (f : BitVec 4) (grd : BitVec 6) (s : State) : Except Stop State :=
  let x := s.xctl ic
  let fm := ic.fmr f
  let c := containerBits fm
  let ch := ic.chunk x (nchOf c)
  if ctrlOk x true then
    .ok (s.xput ic (.xq src f grd) c ch (cvtQ (s.xsrc ic) fm (rndOf (ctrlRM x)) (ic.kreg x) (ctrlEbase x) ch))
  else .error (illOp ic)

/-- Pop one word of the random-bit queue, which the generator refills (R73, R74). -/
def Core.popRandom (k : Core) : Core × U64 :=
  let g := rngNext k.rng
  match k.rbq with
  | w :: r => ({ k with rng := g.1, rbq := r ++ [g.2] }, w)
  | [] => ({ k with rng := g.1 }, g.2)

/-- XQS (R210): quantize by stochastic rounding with one popped word. -/
def fireXqs (ic : Ic) (src : BitVec 9) (f : BitVec 4) (grd : BitVec 6) (s : State) : Except Stop State :=
  let x := s.xctl ic
  let fm := ic.fmr f
  let c := containerBits fm
  let ch := ic.chunk x (nchOf c)
  let z := (s.core ic.c).popRandom
  if ctrlOk x false then
    .ok ((s.setCore ic.c z.1).xput ic (.xqs src f grd) c ch (cvtQS (s.xsrc ic) fm z.2 (ic.kreg x) (ctrlEbase x) ch))
  else .error (illOp ic)

/-- XDQ (R210): dequantize the current chunk of the source. -/
def fireXdq (ic : Ic) (src : BitVec 9) (f : BitVec 4) (grd : BitVec 6) (s : State) : Except Stop State :=
  let x := s.xctl ic
  let fm := ic.fmr f
  let c := containerBits fm
  let ch := ic.chunk x (nchOf c)
  let v := s.xsrc ic
  if ctrlOk x false then
    .ok (s.xset ic (.xdq src f grd) ch (cvtDQ ((List.range 64).map (fun e => chunkGet v c ch e)) fm (ic.kreg x) (ctrlEbase x) ch, false))
  else .error (illOp ic)

/-- XSC (R211): block scales into entries of the scale register and into x.s, with the converter's latency. -/
def fireXsc (ic : Ic) (src : BitVec 9) (f : BitVec 4) (grd : BitVec 6) (s : State) : Except Stop State :=
  let x := s.xctl ic
  let fm := ic.fmr f
  let c := containerBits fm
  let ch := ic.chunk x (nchOf c)
  if ctrlOk x false && fmtBlk fm != 0 then
    let z := fmtBlk fm
    let scs := cvtSC (s.xsrc ic) fm
    let s1 := ((List.range scs.length).zip scs).foldl (fun (t : State) q =>
      t.modCore ic.c (fun k => k.later 4 ic.re (.kent (ctrlKreg x) ((ctrlEbase x + ch * (64 / z) + q.1) % 64) q.2))) s
    .ok ((s1.laterS ic 4 7 (u64 (packNat 16 scs))).xwalk ic ch)
  else .error (illOp ic)

/-- XF2BF (R212). -/
def fireXf2bf (ic : Ic) (src : BitVec 9) (grd : BitVec 6) (s : State) : Except Stop State :=
  let x := s.xctl ic
  let ch := ic.chunk x 2
  if ctrlOk x true then .ok (s.xput ic (.xf2bf src grd) 16 ch (cvtF2BF (s.xsrc ic) (rndOf (ctrlRM x)))) else .error (illOp ic)

/-- XF2H (R212). -/
def fireXf2h (ic : Ic) (src : BitVec 9) (grd : BitVec 6) (s : State) : Except Stop State :=
  let x := s.xctl ic
  let ch := ic.chunk x 2
  if ctrlOk x true then .ok (s.xput ic (.xf2h src grd) 16 ch (cvtF2H (s.xsrc ic) (rndOf (ctrlRM x)))) else .error (illOp ic)

/-- XBF2F (R212). -/
def fireXbf2f (ic : Ic) (src : BitVec 9) (grd : BitVec 6) (s : State) : Except Stop State :=
  let x := s.xctl ic
  let ch := ic.chunk x 2
  if ctrlOk x false then .ok (s.xset ic (.xbf2f src grd) ch (cvtBF2F (s.xsrc ic) ch)) else .error (illOp ic)

/-- XH2F (R212). -/
def fireXh2f (ic : Ic) (src : BitVec 9) (grd : BitVec 6) (s : State) : Except Stop State :=
  let x := s.xctl ic
  let ch := ic.chunk x 2
  if ctrlOk x false then .ok (s.xset ic (.xh2f src grd) ch (cvtH2F (s.xsrc ic) ch)) else .error (illOp ic)

/-- XF2I (R212): one chunk. -/
def fireXf2i (ic : Ic) (src : BitVec 9) (grd : BitVec 6) (s : State) : Except Stop State :=
  let x := s.xctl ic
  if ctrlOk x true then .ok (s.xset ic (.xf2i src grd) 0 (cvtF2I (s.xsrc ic) (rndOf (ctrlRM x)))) else .error (illOp ic)

/-- XI2F (R212): one chunk. -/
def fireXi2f (ic : Ic) (src : BitVec 9) (grd : BitVec 6) (s : State) : Except Stop State :=
  let x := s.xctl ic
  if ctrlOk x true then .ok (s.xset ic (.xi2f src grd) 0 (cvtI2F (s.xsrc ic) (rndOf (ctrlRM x)))) else .error (illOp ic)

/-- XSETF (R213): fmN := x.o[31:0] under the checks of R57. -/
def fireXsetf (ic : Ic) (f : BitVec 4) (s : State) : Except Stop State :=
  let w := fld (s.xctl ic).toNat 31 0
  if fmtLegal w then .ok (s.modCore ic.c (fun k => { k with fm := k.fm.set f.toNat (BitVec.ofNat 32 w) })) else .error (illOp ic)

/-- XGETF (R213): x.s := fmN, zero-extended. -/
def fireXgetf (ic : Ic) (f : BitVec 4) (s : State) : Except Stop State :=
  .ok (s.laterS ic 4 7 ((ic.fmr f).setWidth 64))

/-- ea of XLD and XST (R214). -/
def Ic.xea (ic : Ic) (x : U64) : Nat := ic.ea (ctrlBreg x) (ctrlOff x)

/-- The access of XLD: C × 8 bytes. -/
def reqXld (ic : Ic) (src : BitVec 9) (f : BitVec 4) (grd : BitVec 6) (s : State) : Req :=
  let x := s.xctl ic
  let n := 8 * containerBits (ic.fmr f)
  { op := .xld src f grd, latch := 4, cls := ctrlAC x, isRead := true, align := n, ea := ic.xea x, chunks := [(0, ic.xea x, n)],
    perfAt := 5, latchAt := 9, fm := ic.fmr f, k := ic.kreg x, aux := ctrlEbase x * 16 + ic.chunk x (nchOf (containerBits (ic.fmr f))) }

/-- The 64 codes that XST stores, and the invalid event (R214). -/
def State.xstCodes (s : State) (ic : Ic) (f : BitVec 4) : List Nat × Bool :=
  let x := s.xctl ic
  cvtQ (s.xsrc ic) (ic.fmr f) (rndOf (ctrlRM x)) (ic.kreg x) (ctrlEbase x) (ic.chunk x (nchOf (containerBits (ic.fmr f))))

def reqXst (ic : Ic) (src : BitVec 9) (f : BitVec 4) (grd : BitVec 6) (s : State) : Req :=
  let x := s.xctl ic
  let c := containerBits (ic.fmr f)
  { op := .xst src f grd, cls := ctrlAC x, isWrite := true, align := 8 * c, ea := ic.xea x, chunks := [(0, ic.xea x, 8 * c)],
    perfAt := 7, latchAt := 7, data := BitVec.ofNat 2048 (packNat c (s.xstCodes ic f).1) }

def waitXld (ic : Ic) (src : BitVec 9) (f : BitVec 4) (grd : BitVec 6) (s : State) : Wait := s.accessWait ic (reqXld ic src f grd s)
def waitXst (ic : Ic) (src : BitVec 9) (f : BitVec 4) (grd : BitVec 6) (s : State) : Wait := s.accessWait ic (reqXst ic src f grd s)

/-- XLD (R214). -/
def fireXld (ic : Ic) (src : BitVec 9) (f : BitVec 4) (grd : BitVec 6) (s : State) : Except Stop State :=
  let x := s.xctl ic
  if ctrlOk x false then
    match s.access ic (reqXld ic src f grd s) with
    | .ok s1 => .ok ((s1.xwalk ic (ic.chunk x (nchOf (containerBits (ic.fmr f))))).stickyStep ic (ctrlBreg x))
    | .error e => .error e
  else .error (illOp ic)

/-- XST (R214): quantized at its issue, stored when it performs. -/
def fireXst (ic : Ic) (src : BitVec 9) (f : BitVec 4) (grd : BitVec 6) (s : State) : Except Stop State :=
  let x := s.xctl ic
  if ctrlOk x true then
    match s.access ic (reqXst ic src f grd s) with
    | .ok s1 =>
      .ok (((s1.xwalk ic (ic.chunk x (nchOf (containerBits (ic.fmr f))))).stickyStep ic (ctrlBreg x)).flags ic (s.xstCodes ic f).2 false)
    | .error e => .error e
  else .error (illOp ic)

end Sys2Proof.Machine
end

