-- ==== Sys2Proof/Machine/MatrixOps.lean ====
section
/-! DEFINITION. What a trigger or a re-issue of m does (R216 to R232), and the scale-slot operations (R233, R234). -/

set_option linter.unusedVariables false

namespace Sys2Proof.Machine

/-! ## MCTRL (R220), handles (R217) and blocks (R218) -/

def mHandle (x : U64) : Nat := fld x.toNat 15 0
def mAcc (x : U64) : Nat := fld x.toNat 19 16
def mBreg (x : U64) : Nat := fld x.toNat 23 20
def mAC (x : U64) : Nat := fld x.toNat 25 24
def mKA (x : U64) : Nat := fld x.toNat 30 26
def mAll (x : U64) : Bool := bitAt x.toNat 31
def mOph (x : U64) : Nat := fld x.toNat 47 32
def mOpg (x : U64) : Nat := fld x.toNat 55 48
def mOC (x : U64) : Bool := bitAt x.toNat 56
def mRow (x : U64) : Nat := fld x.toNat 63 57

def hMac (h : Nat) : Nat := fld h 15 12
def hUnit (h : Nat) : Nat := fld h 11 6
def hTag (h : Nat) : Nat := fld h 5 0

/-- MCTRL from m.o after the moves of the issue. -/
def State.mctl (s : State) (ic : Ic) : U64 := (s.core ic.c).sop.getD 9 0

/-- The block that a handle names (R217). -/
def Core.blockOf (k : Core) (h : Nat) : Option WBlock :=
  k.blocks.find? (fun b => b.mac == hMac h && b.unit == hUnit h && b.tag == hTag h)

/-- Units that a block of a format occupies (R216). -/
def unitsOf (fm : BitVec 32) : Nat := containerBits fm / 2

/-- A handle that names no block (R217). -/
def noBlock (ic : Ic) : Stop := { cause := 0x0A, slot := ic.slot }

/-! ## In flight -/

/-- An MMA or MMAQ is in its plane phase, which its issue cycle begins (R227). The joint issue of this cycle is the core's own (R228). -/
def Core.inPlane (k : Core) (f : MmaFly) : Bool := !(f.quad && f.cyc == k.clk) && decide (k.clk < f.cyc + 8 * f.planes)
def Core.anyPlane (k : Core) : Bool := k.mma.any (fun f => k.inPlane f)
def Core.planeOn (k : Core) (mac : Nat) : Bool := k.mma.any (fun f => k.inPlane f && f.mac == mac)

/-- A WLD that is not complete (R224). Complete ones have left the list. -/
def Core.wldNamed (k : Core) (h : Nat) : Wait :=
  match k.wld.find? (fun w => w.blk.mac == hMac h && w.blk.unit == hUnit h && w.blk.tag == hTag h) with
  | some w => if w.fixed then .miss 6 else .wait
  | none => .go

/-- A byte of the core's own scratch as it stands once the stores that it issued up to a cycle have performed. -/
def State.byteSoon (s : State) (c clk loc : Nat) : Byte :=
  let hit (o : MOp) : Option Byte :=
    (o.pieces.find? (fun p => decide (p.loc ≤ loc) && decide (loc < p.loc + p.len))).map (fun p => (pieceBytes o.data p).getD (loc - p.loc) 0)
  (((s.core c).mops.filter (fun o => o.isWrite && !o.isRead && !o.perf && decide (o.cyc ≤ clk))).filterMap hit).getLast?.getD (s.rd loc)

/-- A CPYM that writes the A-row buffer, accepted and not complete (R232, R235), other than the command `but`. Until its block is read, the
block is what the thread's stores up to the acceptance make it (R238). -/
def State.copyToA (s : State) (c : Nat) (but : Option Nat) : Bool :=
  (s.core c).cmds.any (fun q => decide (q.fin = 0) && but != some q.seq && (match q.op, q.block with
    | .cpym _ _, some b => decide (q.status ≠ 1) && fld b.toNat (64 * 5 + 27) (64 * 5 + 24) == 3
    | .cpym _ _, none => fld (s.byteSoon c q.clk (scratchLoc c (q.blkAddr + 43))).toNat 3 0 == 3
    | _, _ => false))

/-- The wait of an MMA or MMAQ (R227, R232); `toA` when a copy fills the A-row buffer. -/
def Core.mmaWait (k : Core) (toA : Bool) (x : U64) : Wait :=
  let tag : Wait := if (k.t.getD (mAcc x) {}).ready then .go else .miss 1
  let con : Wait := if k.anyPlane || toA then .miss 6 else .go
  ((k.wldNamed (mHandle x)).and con).and tag

/-- The wait of MRD, MSCL and WCLR on a named block, resident or on its way (R232); a handle that names none meets no conflict. -/
def Core.blockWait (k : Core) (h : Nat) : Wait :=
  if (k.blockOf h).isNone && (k.wldNamed h).isGo then .go else (k.wldNamed h).and (if k.planeOn (hMac h) then .miss 6 else .go)

/-! ## WLD and WCLR -/

/-- Bytes that a WLD reads (R223). -/
def wldBytes (fm : BitVec 32) : Nat := 1024 * containerBits fm + 128 * nbOf fm
/-- LW of R224. -/
def wldLat (fm : BitVec 32) : Nat := 8 + (wldBytes fm + 255) / 256

/-- The access of a WLD with a control word, a format and a source. -/
def wldReq (op : Instr) (x : U64) (fm : BitVec 32) (ea : Nat) : Req :=
  { op := op, latch := 5, cls := mAC x, isRead := true, align := 64, ea := ea, chunks := [(0, ea, wldBytes fm)], perfAt := 5,
    latchAt := wldLat fm - 1, fm := fm }

/-- The block of a WLD before its bytes are read. -/
def wldBlock (x : U64) (fm : BitVec 32) (ea : Nat) : WBlock :=
  { mac := hMac (mHandle x), unit := hUnit (mHandle x), tag := hTag (mHandle x), fmt := fm, codes := 0, scales := [], nf := false,
    src := u64 ea, cls := mAC x, oc := mOC x, oph := mOph x, opg := mOpg x, scl := false }

/-- Start a WLD: its read in flight and its block in the list of loads (R223, R224). -/
def State.wldStart (s : State) (ic : Ic) (op : Instr) (x : U64) (fm : BitVec 32) (ea : Nat) : Except Stop State :=
  if hUnit (mHandle x) % unitsOf fm ≠ 0 then .error (illOp ic)
  else
    match s.access ic (wldReq op x fm ea) with
    | .error e => .error e
    | .ok s1 =>
      match (s1.core ic.c).mops.getLast? with
      | some o => .ok (s1.modCore ic.c (fun k => { k with wld := k.wld ++ [{ blk := wldBlock x fm ea, usable := o.ret + 1, fixed := o.fixed, mop := o.id }] }))
      | none => .ok s1

/-- The wait of a WLD: its access, and the conflicts of R232. -/
def waitWld (ic : Ic) (src : BitVec 9) (f : BitVec 4) (grd : BitVec 6) (s : State) : Wait :=
  let x := s.mctl ic
  let k := s.core ic.c
  let con : Wait := if k.planeOn (hMac (mHandle x)) || !k.wld.isEmpty then .miss 6 else .go
  (s.accessWait ic (wldReq (.wld src f grd) x (ic.fmr f) (ic.ea (mBreg x) 0))).and con

/-- WLD (R223). -/
def fireWld (ic : Ic) (src : BitVec 9) (f : BitVec 4) (grd : BitVec 6) (s : State) : Except Stop State :=
  let x := s.mctl ic
  s.wldStart ic (.wld src f grd) x (ic.fmr f) (ic.ea (mBreg x) 0)

/-- The wait of a WCLR (R225, R232). -/
def waitWclr (ic : Ic) (s : State) : Wait :=
  let x := s.mctl ic
  let k := s.core ic.c
  if mAll x then
    (if k.wld.any (fun w => !w.fixed) then Wait.wait else .go).and (if !k.wld.isEmpty || k.anyPlane then .miss 6 else .go)
  else k.blockWait (mHandle x)

/-- WCLR (R225): evict the named block, or every block. -/
def fireWclr (ic : Ic) (s : State) : Except Stop State :=
  let x := s.mctl ic
  let h := mHandle x
  .ok (s.modCore ic.c (fun k =>
    { k with blocks := if mAll x then [] else k.blocks.filter (fun b => !(b.mac == hMac h && b.unit == hUnit h && b.tag == hTag h)) }))

/-! ## MMA -/

/-- A-scale of row i, block b: entry x mod 64 of k[KA + x div 64], x = i × nb + b, read at issue (R226). -/
def scaleAOf (ks : List (BitVec 1024)) (ka x : Nat) : Nat := kEntry (ks.getD (ka + x / 64) 0) (x % 64)

/-- The checks of R226 in their order, and the operands. -/
def Core.mmaOp (k : Core) (ks : List (BitVec 1024)) (ic : Ic) (x : U64) (fm : BitVec 32) : Except Stop MmaOp :=
  match k.blockOf (mHandle x) with
  | none => .error (noBlock ic)
  | some b =>
    if fmtBlk fm ≠ fmtBlk b.fmt then .error (illOp ic)
    else if fmtBlk fm ≠ 0 ∧ 32 < mKA x + nbOf fm / 2 then .error (illOp ic)
    else .ok { fa := fm, buf := k.arow, scaleA := scaleAOf ks (mKA x), fb := b.fmt, codes := b.codes, scales := b.scales }

/-- The accumulator input (R227): the newest result in flight on the tile, else the tile. -/
def Core.accInput (k : Core) (n : Nat) : List V :=
  match (k.mma.filter (fun f => f.acc == n)).getLast? with
  | some f => f.res
  | none => (k.t.getD n {}).rows

/-- Put a product in flight (R227, R228): the result lands at the end of cycle t + 8P + 5, or + 29 for MMAQ. APTR := 0 (R221), by a
follow-on MMA as by a trigger: R221 speaks of triggers and R235 says only that the copy leaves APTR as it is; DESIGN CHOICE (log 95). -/
def Core.mmaFly (k : Core) (x : U64) (fm : BitVec 32) (res : List V) (quad : Bool) : Core :=
  let p := planes fm
  { k with
    mma := k.mma ++ [{ acc := mAcc x, cyc := k.clk, planes := p, due := k.clk + 8 * p + (if quad then 29 else 5),
                       mac := hMac (mHandle x), res := res, quad := quad }]
    aptr := 0 }

/-- Start an MMA with a control word and an A format. -/
def State.mmaStart (s : State) (ic : Ic) (x : U64) (fm : BitVec 32) : Except Stop State :=
  let k := s.core ic.c
  match k.mmaOp ic.pre.k ic x fm with
  | .error e => .error e
  | .ok o =>
    let r := mmaTile [o] (({ k with t := ic.pre.t } : Core).accInput (mAcc x))
    .ok ((s.setCore ic.c (k.mmaFly x fm r.1 false)).flags ic r.2 false)

def waitMma (ic : Ic) (s : State) : Wait := (s.core ic.c).mmaWait (s.copyToA ic.c none) (s.mctl ic)

/-- MMA (R226, R227). -/
def fireMma (ic : Ic) (f : BitVec 4) (s : State) : Except Stop State := s.mmaStart ic (s.mctl ic) (ic.fmr f)

/-- The members of a core's quad, member 0 first. -/
def quadCores (c : Nat) : List Nat := [c / 4 * 4, c / 4 * 4 + 1, c / 4 * 4 + 2, c / 4 * 4 + 3]

/-- MMAQ is legal in a TIMED gang that holds the whole quad (R228). -/
def State.quadGang (s : State) (c : Nat) : Bool :=
  !(s.core c).tagged && (quadCores c).all (fun q => (s.core q).bound && (s.core q).launch == (s.core c).launch)

/-- A joint issue of MMAQ over the four members with their control words, formats and operands (R228): the sum in member order on
member 0's accumulator input goes into flight on every member. -/
def State.mmaqJoin (s : State) (cs : List Nat) (xs : List (U64 × BitVec 32)) (os : List MmaOp) : State :=
  let c0 := cs.headD 0
  let r := mmaTile os ((s.core c0).accInput (mAcc (xs.headD (0, 0)).1))
  (cs.zip xs).foldl (fun (t : State) q =>
    let k := t.core q.1
    t.setCore q.1 { k.mmaFly q.2.1 q.2.2 r.1 true with aptr := k.aptr, mmaq := some (2 * k.lcyc + b2n r.2) }) s

/-- MMAQ (R228). Its joint issue is settled before any member issues (Issue.lean); a member for which it failed reports TIMING. The
mark of a joint issue is its logical cycle, doubled, plus 1 for an invalid event of the sum. DESIGN CHOICE (log 107): such an event sets the
invalid bit and the sticky record of all four members; R84 and R228 do not say of which. -/
def fireMmaq (ic : Ic) (f : BitVec 4) (s : State) : Except Stop State :=
  let k := s.core ic.c
  if !s.quadGang ic.c then .error (illOp ic)
  else
    match k.mmaOp ic.pre.k ic (s.mctl ic) (ic.fmr f) with
    | .error e => .error e
    | .ok _ =>
      if k.mmaq = some (2 * k.lcyc) then .ok (s.setCore ic.c { k with aptr := 0 })
      else if k.mmaq = some (2 * k.lcyc + 1) then .ok ((s.setCore ic.c { k with aptr := 0 }).flags ic true false)
      else .error { cause := 0x0D, sub := 5, slot := ic.slot }

/-- MZERO (R229): every lane of every row of t[ACC] := 0. -/
def fireMzero (ic : Ic) (s : State) : Except Stop State :=
  let n := mAcc (s.mctl ic)
  .ok (s.modCore ic.c (fun k => { k with t := k.t.set n ((k.t.getD n {}).zeroed) }))

def waitMrd (ic : Ic) (s : State) : Wait := (s.core ic.c).blockWait (mHandle (s.mctl ic))

/-- MRD (R230): one row of the named block into m.r, latency 4; a re-issue takes the next row. -/
def fireMrd (ic : Ic) (s : State) : Except Stop State :=
  let x := s.mctl ic
  let row := if ic.re then (ic.idx + 1) % 128 else mRow x
  match (s.core ic.c).blockOf (mHandle x) with
  | none => .error (noBlock ic)
  | some b =>
    .ok ((s.laterV ic 4 2 (mrdRow b.fmt b.codes b.scales row)).modCore ic.c (fun k =>
      { k with stM := k.stM.map (fun t => { t with idx := row }) }))

def waitMscl (ic : Ic) (s : State) : Wait := (s.core ic.c).blockWait (mHandle (s.mctl ic))

/-- MSCL (R231): replace the scales of the named block. -/
def fireMscl (ic : Ic) (s : State) : Except Stop State :=
  let x := s.mctl ic
  match (s.core ic.c).blockOf (mHandle x) with
  | none => .error (noBlock ic)
  | some b =>
    let nb := nbOf b.fmt
    if nb = 0 ∨ 32 < mKA x + nb then .error (illOp ic)
    else
      let scs := (List.range nb).flatMap (fun i => (List.range 64).map (fun j => kEntry (ic.pre.k.getD (mKA x + i) 0) j))
      .ok (s.modCore ic.c (fun k =>
        { k with blocks := k.blocks.map (fun q => if q.mac == b.mac && q.unit == b.unit then
            { q with scales := scs, scl := true, nf := blockNF q.fmt q.codes scs } else q) }))

/-! ## Scale-slot operations -/

/-- ea of a K slot: b + 2 × offset (R233). -/
def Ic.kEa (ic : Ic) (b : BitVec 4) (o : BitVec 13) : Nat := ic.ea b.toNat (2 * o.toInt)

/-- A K-slot access must be local scratch (R234). -/
def State.kAccess (s : State) (ic : Ic) (r : Req) : Except Stop State :=
  if r.ea % 2 ≠ 0 then .error (addrStop ic .align r.ea)
  else if !bitAt r.ea 63 then .error (addrStop ic .range r.ea)
  else s.access ic r

def reqLdk (ic : Ic) (k : BitVec 5) (b : BitVec 4) (o : BitVec 13) (grd : BitVec 6) : Req :=
  { op := .ldk k b o grd, latch := 6, cls := 0, isRead := true, align := 2, ea := ic.kEa b o, chunks := [(0, ic.kEa b o, 128)],
    perfAt := 5, latchAt := 5, aux := k.toNat }

def reqLdk1 (ic : Ic) (k : BitVec 5) (b : BitVec 4) (o : BitVec 13) (grd : BitVec 6) : Req :=
  { op := .ldk1 k b o grd, latch := 6, cls := 0, isRead := true, align := 2, ea := ic.kEa b o, chunks := [(0, ic.kEa b o, 2)],
    perfAt := 5, latchAt := 5, aux := k.toNat }

def reqStk (ic : Ic) (k : BitVec 5) (b : BitVec 4) (o : BitVec 13) (grd : BitVec 6) : Req :=
  { op := .stk k b o grd, cls := 0, isWrite := true, align := 2, ea := ic.kEa b o, chunks := [(0, ic.kEa b o, 128)],
    perfAt := 4, latchAt := 4, data := (ic.pre.k.getD k.toNat 0).setWidth 2048 }

def waitLdk (ic : Ic) (k : BitVec 5) (b : BitVec 4) (o : BitVec 13) (grd : BitVec 6) (s : State) : Wait := s.accessWait ic (reqLdk ic k b o grd)
def waitLdk1 (ic : Ic) (k : BitVec 5) (b : BitVec 4) (o : BitVec 13) (grd : BitVec 6) (s : State) : Wait := s.accessWait ic (reqLdk1 ic k b o grd)
def waitStk (ic : Ic) (k : BitVec 5) (b : BitVec 4) (o : BitVec 13) (grd : BitVec 6) (s : State) : Wait := s.accessWait ic (reqStk ic k b o grd)

/-- LDK (R233, R234): 64 entries from scratch. -/
def fireLdk (ic : Ic) (k : BitVec 5) (b : BitVec 4) (o : BitVec 13) (grd : BitVec 6) (s : State) : Except Stop State :=
  s.kAccess ic (reqLdk ic k b o grd)
/-- LDK1 (R233): one entry into every entry. -/
def fireLdk1 (ic : Ic) (k : BitVec 5) (b : BitVec 4) (o : BitVec 13) (grd : BitVec 6) (s : State) : Except Stop State :=
  s.kAccess ic (reqLdk1 ic k b o grd)
/-- MVK (R233): a copy of a scale register as read at issue, written at the end of cycle issue + 5. -/
def fireMvk (ic : Ic) (k j : BitVec 5) (s : State) : Except Stop State :=
  .ok (s.modCore ic.c (fun c => c.later 6 true (.kreg k.toNat (ic.pre.k.getD j.toNat 0))))
/-- STK (R233, R234). -/
def fireStk (ic : Ic) (k : BitVec 5) (b : BitVec 4) (o : BitVec 13) (grd : BitVec 6) (s : State) : Except Stop State :=
  s.kAccess ic (reqStk ic k b o grd)

end Sys2Proof.Machine
end

