-- ==== Sys2Proof/Machine/ControlOps.lean ====
section
/-! DEFINITION. Fetch (R115), and what a trigger of c does (R132 to R144). These act when everything else of the issue has: the core's
pc then stands at the bundle that would issue next. -/

set_option linter.unusedVariables false

namespace Sys2Proof.Machine

/-! ## Fetch -/

/-- A byte of code as a fetch of the core's die finds it: below the instruction cache is the die's point, for Eplia its remote-data cache (R14). -/
def State.codeRd (s : State) (c loc : Nat) : Byte := s.pointByte (dieOf c) (fun l => l.fresh (s.core c).rdcMark) loc

/-- A byte of code. A line that the core has fetched before, and that has been stored to since, reads old or new (R115). -/
def State.codeByte (s : State) (c loc : Nat) : Byte :=
  let b := s.codeRd c loc
  match Tbl.find? (s.core c).icache (loc / 64) with
  | some l => if l.getD (loc % 64) 0 = b then b else if Config.codeNew s.now (loc / 64) then b else l.getD (loc % 64) 0
  | none => b

/-- Lines of an instruction cache: 64 KiB (R115). -/
def icacheCap : Nat := 1024

/-- A line comes into the core's instruction cache, or comes anew; a full one drops its lowest line (log 11). -/
def State.codeFill (s : State) (c line : Nat) : State :=
  let t := (s.core c).icache
  let new := (List.range 64).map (fun i => s.codeRd c (64 * line + i))
  let s1 := if crosses c (line / 2) && homeDie (64 * line) != none then s.rdcEnsure (dieOf c) (line / 2) (s.core c).rdcMark s.now else s
  match Tbl.find? t line with
  | some l => if l = new then s else if Config.codeNew s.now line then s1.modCore c (fun k => { k with icache := Tbl.put k.icache line new }) else s
  | none => s1.modCore c (fun k => { k with icache := Tbl.put (if icacheCap ≤ t.length then k.icache.drop 1 else k.icache) line new })

/-- `n` bytes of code at a virtual address, by the instruction cache under the X right, or the first faulting byte (R115, R319). -/
def State.fetchBytes (s : State) (c pc n : Nat) : State × Except (Cause × Nat) (List Byte) :=
  let r := s.xlateSpan c { x := true } 3 (pc % 2 ^ 56) 0 n
  match r.2 with
  | .error e => (r.1, .error e)
  | .ok (ps, _) =>
    if ps.all (carafeOk c false) then (r.1, .ok (ps.flatMap (fun p => (List.range p.len).map (fun i => r.1.codeByte c (p.loc + i)))))
    else (r.1, .error (.prot, pc % 2 ^ 56))

/-- The instruction cache takes the lines of some bytes of code. -/
def State.codeLines (s : State) (c pc n : Nat) : State :=
  match (s.xlateSpan c { x := true } 3 (pc % 2 ^ 56) 0 n).2 with
  | .error _ => s
  | .ok (ps, _) => ps.foldl (fun t p => (List.range ((p.loc % 64 + p.len + 63) / 64)).foldl (fun u i => u.codeFill c (p.loc / 64 + i)) t) s

/-- The address of the bundle after the one at `a`. Where its header cannot be fetched the manual gives no address: a free value of
the code's own bundle lengths (log 4). -/
def State.afterBundle (s : State) (c a : Nat) : Nat :=
  match (s.fetchBytes c a 4).2 with
  | .ok bs => (a + bundleLen (ofBytes bs)) % 2 ^ 56
  | .error _ => (a + 4 * (1 + (Config.freeByte s.fresh).toNat % 17)) % 2 ^ 56

/-! ## Transfers -/

/-- c.o after the moves of the issue. -/
def State.co (s : State) (ic : Ic) : U64 := (s.core ic.c).sop.getD 5 0

/-- A bundle at an active level's body end (R137). -/
def Core.atBodyEnd (k : Core) (pc : Nat) : Bool := k.loops.any (fun l => l.active && l.fin == pc)

/-- A delay bundle and an active body end allow no transfer and no LOOP (R134, R137). -/
def Core.noTransfer (k : Core) (pc : Nat) : Bool := k.xfer.isSome || k.atBodyEnd pc

/-- A transfer or LOOP is illegal there: by the core as its bundle found it. -/
def Ic.noTransfer (ic : Ic) : Bool := match ic.bval with | some _ => ic.noXfer | none => ic.pre.noTransfer ic.pc

/-- A taken transfer: the next bundle in memory is its delay bundle, then the target (R133). A transfer that was held may have its delay bundle
behind it (R36, R37). -/
def State.transfer (s : State) (ic : Ic) (target : Nat) : Except Stop State :=
  if ic.noTransfer || target % 4 != 0 then .error (illOp ic)
  else .ok (s.modCore ic.c (fun k => if ic.past then { k with pc := target % 2 ^ 56 } else { k with xfer := some (target % 2 ^ 56) }))

/-- JMP: CB + t. -/
def fireJmp (ic : Ic) (s : State) : Except Stop State :=
  if 2 ^ 32 ≤ ic.t.toNat then .error (illOp ic) else s.transfer ic (ic.pre.cb + ic.t.toNat)

/-- JMPR: t. -/
def fireJmpr (ic : Ic) (s : State) : Except Stop State :=
  if fld ic.t.toNat 63 56 ≠ 0 then .error (illOp ic) else s.transfer ic ic.t.toNat

/-- CALL: CB + t; the return address is pushed and written to c.r (R135). -/
def fireCall (ic : Ic) (s : State) : Except Stop State :=
  if 2 ^ 32 ≤ ic.t.toNat ∨ 8 ≤ ic.pre.rstack.length then .error (illOp ic)
  else
    match s.transfer ic (ic.pre.cb + ic.t.toNat) with
    | .error e => .error e
    | .ok s1 =>
      let ra := s.afterBundle ic.c ic.nextPc
      .ok (((s1.modCore ic.c (fun k => { k with rstack := ra :: k.rstack })).laterS ic 1 5 (u64 ra)).tick1)

/-- RET: the entry popped from the return stack. -/
def fireRet (ic : Ic) (s : State) : Except Stop State :=
  match ic.pre.rstack with
  | [] => .error (illOp ic)
  | a :: r =>
    match s.transfer ic a with
    | .error e => .error e
    | .ok s1 => .ok (s1.modCore ic.c (fun k => { k with rstack := r }))

/-- The trip count that the loop table gives a level (R31, R136). -/
def State.tableTrip (s : State) (c lvl : Nat) : Nat :=
  match (s.launch (s.core c).launch).img with
  | some im =>
    match im.levels[lvl]? with
    | some l => if l.kind = 0 then l.trip else 0
    | none => 0
  | none => 0

/-- LOOP (R136). -/
def fireLoop (ic : Ic) (l : BitVec 3) (s : State) : Except Stop State :=
  let o := (s.co ic).toNat
  let fin := (ic.pre.cb + ic.t.toNat) % 2 ^ 56
  let start := ic.nextPc
  if ic.noTransfer || decide (2 ^ 32 ≤ o) || decide (2 ^ 32 ≤ ic.t.toNat) || ic.t.toNat % 4 != 0 || decide (ic.pre.cb + ic.t.toNat < start) then
    .error (illOp ic)
  else
    let trip := if o ≠ 0 then o else s.tableTrip ic.c l.toNat
    if trip = 0 then
      -- the body is skipped: the bundle after the body end issues one cycle later
      let a := s.afterBundle ic.c fin
      .ok ((s.modCore ic.c (fun k =>
        { k with pc := a, hold := some (k.lcyc + 2), loops := k.loops.set l.toNat {} })).tick1)
    else
      .ok (s.modCore ic.c (fun k =>
        { k with loops := k.loops.set l.toNat { active := true, remaining := trip, start := start, fin := fin } }))

/-! ## Ending, trapping and fencing -/

/-- EXIT (R138): the task ends; what it issued completes. -/
def fireExit (ic : Ic) (s : State) : Except Stop State :=
  .ok ((s.modCore ic.c (fun k => { k with status := .drain, stL := none, stX := none, stM := none })).modLaunch (ic.pre.launch)
    (fun l => { l with exits := l.exits + 1 }))

/-- TRAP (R139): a software trap after the bundle, resuming at the bundle that would have issued next. -/
def fireTrap (ic : Ic) (s : State) : Except Stop State :=
  .ok ((s.takeStop ic.c { cause := 0x0F, slot := ic.slot, info := fld ic.t.toNat 15 0, baddr := some ic.pc, resume := some (s.core ic.c).pc }).modCore
    ic.c (fun k => { k with softTick := true }))

/-- BRK (R139): a debug freeze is requested when the context's debug attribute is set. -/
def fireBrk (ic : Ic) (s : State) : Except Stop State :=
  .ok (if (s.coreCtx ic.c).debug then s.at_ (s.now + 1) .debugFreeze else s)

/-- What TFENCE waits for (R140): the accesses of x, m and the K slot that have not completed. An XLD completes as its result is
written. -/
def Core.tfenceOps (k : Core) : List MOp :=
  k.mops.filter (fun o => match o.op with
    | .xld _ _ _ => !k.returned o
    | .xst _ _ _ => !o.perf
    | .stk _ _ _ _ => !o.perf
    | _ => decide (4 ≤ o.latch) && !o.perf)

/-- A result of the converter behind an XLD in flight has its latency to run. -/
def Core.xrunning (k : Core) : Bool := k.mops.any (fun o => o.latch == 4 && !o.isRead && decide (k.clk < o.cyc + 4))

/-- TFENCE also waits for results and products in flight, whose cycles the schedule fixes (R34, R140). Those of a CPYM's follow-on are the
engine's (R235), for which it does not wait. -/
def waitTfence (ic : Ic) (s : State) : Wait :=
  let k := s.core ic.c
  let wld := k.wld.filter (fun w => !w.eng)
  let ops := k.tfenceOps.filter (fun o => k.wld.all (fun w => !w.eng || w.mop != o.id))
  if !k.pend.isEmpty || k.mma.any (fun f => !f.eng) || wld.any (fun w => w.fixed) || k.xrunning then .fixedWait
  else k.waitFor ops (!wld.isEmpty)

/-- The set of records that hold an address, as RECSET (R143). -/
def Core.recset (k : Core) : Nat :=
  (List.range 14).foldl (fun n i => if (k.recs.getD i none).isSome then n + 2 ^ i else n) 0

/-- TFENCE's test (R140): a set record is an arithmetic trap at the bundle. -/
def fireTfence (ic : Ic) (s : State) : Except Stop State :=
  let k := ic.pre
  match k.recs.find? (fun r => r.isSome) with
  | some (some a) => .error { cause := 0x0E, slot := ic.slot, faddr := a, info := k.recset }
  | _ => .ok s

/-- YIELDP (R41, R141): c.r := 1 at the first YIELDP after a restore, else 0. -/
def fireYieldp (ic : Ic) (s : State) : Except Stop State :=
  .ok ((s.laterS ic 1 5 (if (s.core ic.c).yieldFlag then 1 else 0)).modCore ic.c (fun k => { k with yieldFlag := false }))

/-! ## Memory-plan phases -/

/-- Lines that leave the L1 when its units fall to `cap` lines. -/
def Core.leaving (k : Core) (cap : Nat) : List (Nat × CLine) := k.l1.drop cap

/-- PHASE waits until every earlier access to scratch and L1 has performed (R142). -/
def waitPhase (ic : Ic) (s : State) : Wait :=
  let k := s.core ic.c
  let ops := k.mops.filter (fun o => !o.perf && o.pieces.any (fun p => match placeOf p.loc with
    | .scratch _ _ => true
    | q => cacheable ic.c p.loc))
  k.waitFor ops false

/-- Change the number of scratch units of a core: bytes that join hold unspecified contents, bytes that leave are lost. -/
def Core.rescratch (k : Core) (from_ to_ gen : Nat) : Core :=
  let lo := Nat.min from_ to_ * 65536
  let hi := Nat.max from_ to_ * 65536
  { k with stale := cutRanges lo hi k.stale ++ (if from_ < to_ then [(lo, hi, gen)] else []) }

/-- PHASE (R142). -/
def firePhase (ic : Ic) (s : State) : Except Stop State :=
  let k := s.core ic.c
  let n := match (s.launch k.launch).img with | some im => im.phases.length | none => 0
  let t := ic.t.toNat
  let old := s.phaseUnits k.launch k.phase
  let new := s.phaseUnits k.launch t
  if n ≤ t then .error (illOp ic)
  else if t = k.phase then .ok s
  else if k.eng.any (fun tile => new ≤ tile / 16) then .error (illOp ic)
  else
    let cap := 512 * (sramUnits ic.c - new)
    let out := k.leaving cap
    let d := (out.filter (fun p => p.2.dirty != 0)).length
    let s1 := out.foldl (fun (t : State) p => t.l1Evict ic.c p.1) s
    .ok ((s1.modCore ic.c (fun k => { k.rescratch old new s.fresh with phase := t, drainTo := some (s.now + 1 + 128 + 4 * d) })).tick1)

/-! ## Task status registers (R143) -/

def boolBits (l : List Bool) : Nat := l.foldr (fun b n => b2n b + 2 * n) 0

/-- The value of a task status register, none for a reserved index. -/
def State.srRead (s : State) (c i : Nat) (k : Core) : Option U64 :=
  if i = 0 then some (u64 (b2n k.inv + 2 * b2n k.arith))
  else if i = 1 then some (u64 k.recset)
  else if i = 2 then some (k.vmsel.setWidth 64)
  else if i = 3 then some (u64 k.rstack.length)
  else if i = 4 then some (k.cfo.setWidth 64)
  else if i = 5 then some (u64 (b2n (s.coreCtx c).schk + 2 * b2n (s.coreCtx c).erc))
  else if i = 6 then some (u64 (boolBits (k.loops.map (fun l => l.active))))
  else if 0x10 ≤ i ∧ i < 0x1E then some (u64 (((k.recs.getD (i - 0x10) none).getD 0) % 2 ^ 56))
  else none

/-- A write to a task status register under its access codes (R6). -/
def Core.srWrite (k : Core) (i : Nat) (v : U64) : Core :=
  if i = 0 then { k with inv := k.inv && !v.getLsbD 0, arith := k.arith && !v.getLsbD 1 }
  else if i = 1 then { k with recs := (List.range 14).map (fun j => if v.getLsbD j then none else k.recs.getD j none) }
  else if i = 4 then { k with cfo := k.cfo &&& ~~~ (v.setWidth 32) }
  else k

/-- RDSR: c.r := the register's value at issue. -/
def fireRdsr (ic : Ic) (s : State) : Except Stop State :=
  match s.srRead ic.c ic.t.toNat ic.pre with
  | some v => .ok (s.laterS ic 1 5 v)
  | none => .error (illOp ic)

/-- WRSR: c.o to the register. -/
def fireWrsr (ic : Ic) (s : State) : Except Stop State :=
  match s.srRead ic.c ic.t.toNat ic.pre with
  | some _ => .ok (s.modCore ic.c (fun k => k.srWrite ic.t.toNat (s.co ic)))
  | none => .error (illOp ic)

/-- CLRSTK (R135). -/
def fireClrstk (ic : Ic) (s : State) : Except Stop State := .ok (s.modCore ic.c (fun k => { k with rstack := [] }))

/-- IDLE (R113, R144): the named unit's sticky state is cleared after the bundle. -/
def fireIdle (ic : Ic) (s : State) : Except Stop State :=
  let o := (s.co ic).toNat
  if o = 0 then .ok (s.modCore ic.c (fun k => { k with stL := none }))
  else if o = 1 then .ok (s.modCore ic.c (fun k => { k with stX := none }))
  else if o = 2 then .ok (s.modCore ic.c (fun k => { k with stM := none }))
  else .error (illOp ic)

end Sys2Proof.Machine
end

