-- ==== Sys2Proof/Machine/Engine.lean ====
section
/-! DEFINITION. Engine commands (R237 to R250, R256, R258, R263, R235): acceptance, the command block, the two lanes and their times,
the copies, gathers, score tables, lane-group refills and queue appends, and completion. The KV, record, Prism, migration and rebuild
commands have files of their own over these. -/

set_option linter.unusedVariables false

namespace Sys2Proof.Machine

/-! ## The command block -/

/-- Bits [hi:lo] of word w of a block. -/
def bfld (b : BitVec 512) (w hi lo : Nat) : Nat := fld b.toNat (64 * w + hi) (64 * w + lo)

def bNotify (b : BitVec 512) : Nat := bfld b 0 1 0
def bCwscope (b : BitVec 512) : Nat := bfld b 0 4 2
def bAbr (b : BitVec 512) : Bool := bfld b 0 5 5 = 1
def bOrd (b : BitVec 512) : Bool := bfld b 0 6 6 = 1
def bNidx (b : BitVec 512) : Nat := bfld b 0 15 8
def bNcore (b : BitVec 512) : Nat := bfld b 0 27 16
def bNoff (b : BitVec 512) : Nat := bfld b 0 48 28
def bNval (b : BitVec 512) : Nat := bfld b 1 63 0
def bCwaddr (b : BitVec 512) : Nat := bfld b 2 55 0

/-- Groups of a shape on a die (R43). -/
def shapeGroups (shape die : Nat) : Nat :=
  if die = 0 then (if shape = 0 then 32 else if shape = 1 then 16 else 8) else (if shape = 0 then 8 else if shape = 1 then 4 else 2)

/-- Whether a number names a logical core of the launch's shape on a die. -/
def State.shapeCore (s : State) (c die id : Nat) : Bool :=
  coreIdOk id && dieOf id == die && decide (groupOf id < shapeGroups (s.launch (s.core c).launch).shape die)

/-- The notification's own fields are valid (R239, R240). -/
def State.notifyOk (s : State) (c : Nat) (b : BitVec 512) : Bool :=
  match bNotify b with
  | 0 => bNidx b = 0 && bNcore b = 0 && bNoff b = 0 && bNval b = 0
  | 1 => bNidx b = 0 && bNoff b % 8 = 0 && s.shapeCore c (dieOf c) (bNcore b)
  | 2 => decide (bNidx b < 32) && bNoff b = 0 && bNval b = 0 && s.shapeCore c (dieOf c) (bNcore b)
  | _ => bNcore b = 0 && bNoff b = 0 && bNval b = 0

/-- The completion word's own fields are valid. -/
def cwOk (b : BitVec 512) : Bool := bCwaddr b = 0 || (decide (3 ≤ bCwscope b) && bCwaddr b % 8 = 0)

/-- The common words of a block are valid. -/
def State.commonOk (s : State) (c : Nat) (b : BitVec 512) : Bool :=
  s.notifyOk c b && cwOk b && bfld b 0 7 7 = 0 && bfld b 0 63 49 = 0 && bfld b 2 63 56 = 0

def localAddr (a : Nat) : Bool := bitAt a 63

/-- Tiles of the core's own scratch that a span of addresses touches. -/
def scratchTiles (a len : Nat) : List Nat :=
  if localAddr a && decide (0 < len) then (List.range ((a % 4096 + len + 4095) / 4096)).map (fun i => fld a 20 0 / 4096 + i) else []

/-! Fields of a copy (R249), and of a gather or scatter (R250). -/
def bRowb (b : BitVec 512) : Nat := bfld b 5 23 0
def bFop (b : BitVec 512) : Nat := bfld b 5 27 24
def bFfm (b : BitVec 512) : Nat := bfld b 5 31 28
def bRows (b : BitVec 512) : Nat := bfld b 5 63 32
def bSrc (b : BitVec 512) : Nat := bfld b 3 63 0
def bDst (b : BitVec 512) : Nat := bfld b 4 63 0
def bSstr (b : BitVec 512) : Int := signed (bfld b 6 31 0) 32
def bDstr (b : BitVec 512) : Int := signed (bfld b 6 63 32) 32

def rowsOk (b : BitVec 512) : Bool := decide (1 ≤ bRowb b) && decide (1 ≤ bRows b) && decide (bRows b ≤ 65536)

def validCpy2d (b : BitVec 512) : Bool := rowsOk b && bFop b = 0 && bFfm b = 0 && bfld b 7 63 25 = 0
def validCpym (b : BitVec 512) : Bool :=
  rowsOk b && decide (bFop b ≤ 3) && (bFop b != 3 || decide (bRowb b * bRows b ≤ 4096))
def validFill (b : BitVec 512) : Bool := rowsOk b && bFop b = 0 && bFfm b = 0 && bfld b 6 31 0 = 0 && bfld b 7 63 0 = 0

def gsOk (b : BitVec 512) : Bool :=
  decide (1 ≤ bRowb b) && decide (bRowb b ≤ 65536) && bfld b 5 63 24 = 0 && localAddr (bfld b 6 63 0) && bfld b 6 63 0 % 4 = 0
    && decide (1 ≤ bfld b 7 31 0) && decide (bfld b 7 31 0 ≤ 65536)
def validGath (b : BitVec 512) : Bool := gsOk b && !localAddr (bSrc b)
def validScat (b : BitVec 512) : Bool := gsOk b && !localAddr (bDst b)

def validScore (b : BitVec 512) : Bool :=
  bfld b 3 63 56 = 0 && bfld b 4 31 0 = 0 && bfld b 4 63 56 = 0 && decide (1 ≤ bfld b 5 15 0) && decide (bfld b 5 15 0 ≤ 4096)
    && bfld b 5 63 16 = 0 && bfld b 6 63 0 % 4 = 0 && bfld b 7 63 32 = 0

def validRfill (b : BitVec 512) : Bool :=
  localAddr (bSrc b) && bSrc b % 64 = 0 && bfld b 4 63 16 = 0 && bfld b 5 11 9 = 0 && bfld b 5 63 21 = 0 && bfld b 6 63 0 = 0
    && bfld b 7 63 0 = 0 && decide (bfld b 5 8 4 ≤ 24)
    && !(bfld b 5 3 0 == bfld b 5 15 12 && decide (bfld b 5 8 4 ≤ bfld b 5 20 16) && decide (bfld b 5 20 16 ≤ bfld b 5 8 4 + 7))

def validEnq (b : BitVec 512) : Bool :=
  bfld b 3 63 0 % 64 = 0 && localAddr (bDst b) && bDst b % 64 = 0 && (bfld b 5 1 0 = 1 || bfld b 5 1 0 = 2) && bfld b 5 63 2 = 0
    && bfld b 6 63 0 = 0 && bfld b 7 63 0 = 0

/-- KV commands share words 3 and 4 (R251). -/
def kvOk (b : BitVec 512) : Bool := bfld b 3 63 56 = 0 && bfld b 3 55 0 % 64 = 0 && bfld b 4 31 24 = 0 && bfld b 4 63 56 = 0
def validKvs (b : BitVec 512) : Bool :=
  kvOk b && decide (1 ≤ bfld b 5 15 0) && decide (bfld b 5 15 0 ≤ 512) && bfld b 5 31 21 = 0 && bfld b 5 47 32 % 256 = 0
    && bfld b 5 63 48 = 0 && bfld b 6 63 56 = 0
    && (bfld b 6 55 0 = 0 || (localAddr (bfld b 7 63 0) && bfld b 7 63 0 % 4 = 0))
def validKvapp (b : BitVec 512) : Bool :=
  kvOk b && decide (1 ≤ bfld b 5 15 0) && decide (bfld b 5 15 0 ≤ 4096) && bfld b 5 63 16 = 0 && bfld b 7 63 0 = 0
def validKvfork (b : BitVec 512) : Bool := kvOk b && bfld b 5 63 24 = 0 && bfld b 6 63 0 = 0 && bfld b 7 63 0 = 0
def validKvdrop (b : BitVec 512) : Bool := kvOk b && bfld b 5 63 0 = 0 && bfld b 6 63 0 = 0 && bfld b 7 63 0 = 0

def validNrf (b : BitVec 512) : Bool :=
  bfld b 3 31 19 = 0 && bfld b 3 63 44 = 0 && bDst b % 32 = 0 && decide (1 ≤ bfld b 5 12 0) && decide (bfld b 5 12 0 ≤ 4096)
    && bfld b 5 63 13 = 0 && bfld b 6 63 0 = 0 && bfld b 7 63 0 = 0

def validPrism (b : BitVec 512) : Bool :=
  bfld b 3 63 56 = 0 && bfld b 4 31 29 = 0 && bfld b 4 63 40 = 0 && decide (1 ≤ bfld b 5 55 32) && bfld b 5 63 56 = 0
    && bfld b 6 7 5 = 0 && bfld b 6 31 16 = 0 && bfld b 6 63 32 % 8 = 0 && bfld b 7 63 16 = 0
    && (bfld b 6 1 0 != 2 || decide (bfld b 6 15 8 < 32)) && decide (3 ≤ bfld b 6 4 2)

def validMigr (b : BitVec 512) : Bool :=
  bfld b 3 63 0 % 65536 = 0 && decide (1 ≤ bfld b 4 15 0) && decide (bfld b 4 19 16 ≤ 2) && bfld b 4 63 36 = 0 && bfld b 5 63 48 = 0
    && bfld b 6 63 0 = 0 && bfld b 7 63 0 = 0

def validMreb (b : BitVec 512) : Bool :=
  bfld b 4 63 16 = 0 && decide (1 ≤ bfld b 6 31 0) && bfld b 6 63 32 = 0

/-- The command's own words are valid (R239). -/
def ownOk (op : Instr) (b : BitVec 512) : Bool :=
  match op with
  | .cpy2d _ _ => validCpy2d b
  | .cpym _ _ => validCpym b
  | .fill _ _ => validFill b
  | .gath _ _ => validGath b
  | .scat _ _ => validScat b
  | .score _ _ => validScore b
  | .rfill _ _ => validRfill b
  | .enq _ _ => validEnq b
  | .kvs _ _ => validKvs b
  | .kvapp _ _ => validKvapp b
  | .kvfork _ _ => validKvfork b
  | .kvdrop _ _ => validKvdrop b
  | .nrf _ _ => validNrf b
  | .prism _ _ => validPrism b
  | .migr _ _ => validMigr b
  | .mreb _ _ => validMreb b
  | _ => false

/-! ## Tiles that a command names -/

def rowAddr (base : Nat) (str : Int) (row : Nat) : Nat := wrapU (base + row * str) 64

def copyAreas (b : BitVec 512) (src dst : Bool) : List (Nat × Nat) :=
  (List.range (bRows b)).flatMap (fun r =>
    (if src then [(rowAddr (bSrc b) (bSstr b) r, bRowb b)] else []) ++ (if dst then [(rowAddr (bDst b) (bDstr b) r, bRowb b)] else []))

/-- Addresses that a command reads or writes, with lengths: those that may name the issuing core's scratch (R161). `esize` is the size of an entry
of the pool that a KVAPP names (R253); the rows of a GATH's table and those that a SCAT writes stand at no address of scratch (R250). -/
def cmdAreas (op : Instr) (b : BitVec 512) (esize : Nat) : List (Nat × Nat) :=
  match op with
  | .kvapp _ _ => [(bfld b 6 63 0, bfld b 5 15 0 * esize)]
  | .cpy2d _ _ => copyAreas b true true
  | .cpym _ _ => copyAreas b true (bFop b != 3)
  | .fill _ _ => copyAreas b false true
  | .gath _ _ => [(bDst b, bRowb b * bfld b 7 31 0), (bfld b 6 63 0, 4 * bfld b 7 31 0)]
  | .scat _ _ => [(bSrc b, bRowb b * bfld b 7 31 0), (bfld b 6 63 0, 4 * bfld b 7 31 0)]
  | .score _ _ => [(bfld b 6 63 0, 4 * bfld b 5 15 0), (bfld b 3 55 0 + 4 * bfld b 4 55 32, 4 * bfld b 5 15 0)]
  | .rfill _ _ => [(bSrc b, 320 * bfld b 4 15 0)]
  | .enq _ _ => [(bDst b, 64 * bfld b 5 1 0)]
  | .kvs _ _ =>
    if bfld b 6 55 0 = 0 then []
    else [(bfld b 7 63 0, 4 * bfld b 5 15 0), (bfld b 6 55 0 + 4 * bfld b 4 55 32, 4 * bfld b 5 15 0)]
  | .nrf _ _ => [(bDst b, 32 * bfld b 5 12 0)]
  | .mreb _ _ => [(bfld b 7 63 0, 64 * bfld b 6 31 0)]
  | _ => []

/-- Tiles of the issuing core's scratch that the command names by addresses with bit 63 set. -/
def tilesOf (op : Instr) (b : BitVec 512) (esize : Nat) : List Nat := ((cmdAreas op b esize).flatMap (fun a => scratchTiles a.1 a.2)).eraseDups

/-- Tile registers whose ready tags the command clears when its block is read (R53, R252, R258). -/
def tregsOf (op : Instr) (b : BitVec 512) : List Nat :=
  match op with
  | .kvs _ _ => (List.range ((bfld b 5 15 0 + 31) / 32)).map (fun i => (bfld b 5 19 16 + i) % 16)
  | .rfill _ _ => [bfld b 5 3 0, bfld b 5 15 12]
  | _ => []

/-! ## An engine's access (R148, R150, R161, R243) -/

/-- The location of an engine's access, through the group TLB and the tables. -/
def State.xlateEng (s : State) (c ea : Nat) (n : Need) : State × Except Cause Nat :=
  if localAddr ea then
    (if fld ea 62 21 != 0 || decide (s.scratchLen c ≤ fld ea 20 0) then (s, .error .range) else (s, .ok (scratchLoc c (fld ea 20 0))))
  else if fld ea 62 56 != 0 then (s, .error .range)
  else
    let k := s.core c
    let x := s.ctx k.ctx
    let va := fld ea 55 0
    let d := dieOf c
    let g := groupOf c
    let gl := Tbl.getD (s.die d).gtlb g []
    let done (t : State) (loc : Nat) : State × Except Cause Nat :=
      match placeOf loc with
      | .carafe _ _ => (t, .error .prot)
      | _ => match t.physCheck loc n with
        | some f => (t, .error f)
        | none => (t, .ok loc)
    if x.heapb.toNat ≤ va ∧ va < x.heapb.toNat + x.heapl.toNat then done s ((va + x.heapo.toNat) % 2 ^ 52)
    else
      let use (t : State) (leaf bits : Nat) : State × Except Cause Nat :=
        if leafDenied x.priv leaf n then (t, .error .prot) else done t (t.leafLoc leaf bits va)
      match gl.find? (fun e => e.hits k.ctx va) with
      | some e => use s e.leaf.toNat e.bits
      | none =>
        match s.walk k.ctx va with
        | none => (s, .error .xlate)
        | some (leaf, bits) =>
          let e : TlbEnt := { ctx := k.ctx, vpage := va >>> bits, bits := bits, leaf := u64 leaf }
          use (s.modDie d (fun y => { y with gtlb := Tbl.put y.gtlb g ((e :: gl).take 4096) })) leaf bits

/-- One byte as an agent of a die reads it that has no copies of its own: across the bridge from the die's RDC, under a mark. -/
def State.dieRd (s : State) (d mark loc : Nat) : State × Byte :=
  match homeDie loc with
  | none => (s, s.rd loc)
  | some h =>
    if h = d then (s, s.rd loc)
    else
      let s1 := s.rdcEnsure d (lineOf loc) mark s.now
      (s1, (Tbl.getD (s1.die d).rdc (lineOf loc) {}).byte (loc % 128))

def State.dieRdN (s : State) (d mark loc : Nat) : Nat → State × List Byte
  | 0 => (s, [])
  | n + 1 =>
    let r := s.dieRd d mark loc
    let q := State.dieRdN r.1 d mark (loc + 1) n
    (q.1, r.2 :: q.2)

/-- One byte as an engine of core c reads it: never from an L1 or a quad store buffer (R150), under the mark the command carries. -/
def State.engRd (s : State) (c mark loc : Nat) : State × Byte := s.dieRd (dieOf c) mark loc

/-- Lines of a group's operand cache: 4 MiB (R13). -/
def opcCap : Nat := 2 ^ 15

/-- An operand cache takes a line; of a full one the lowest line leaves (log 11). -/
def opcPut (t : Tbl CLine) (key : Nat) (l : CLine) : Tbl CLine :=
  Tbl.put (if (Tbl.find? t key).isNone ∧ opcCap ≤ t.length then t.drop 1 else t) key l

/-- The operand cache of a group (R148): a hit needs the handle and generation of the fill, and the current generation. -/
def State.opcRd (s : State) (c mark loc h n : Nat) : State × Byte :=
  let d := dieOf c
  let g := groupOf c
  let cur := Tbl.getD (s.die d).opgen (g * 65536 + h) 0
  let t := Tbl.getD (s.die d).opc g []
  let key := lineOf loc * 65536 + h
  match Tbl.find? t key with
  | some l => if l.tag = n ∧ n = cur then (s, l.byte (loc % 128)) else s.engRd c mark loc
  | none =>
    if n ≠ cur then s.engRd c mark loc
    else
      let r := (List.range 128).foldl (fun (p : State × List Byte) i =>
        let q := p.1.engRd c mark (128 * lineOf loc + i)
        (q.1, p.2 ++ [q.2])) (s, [])
      let l : CLine := { data := BitVec.ofNat 1024 (ofBytes r.2), tag := n }
      (r.1.modDie d (fun y => { y with opc := Tbl.put y.opc g (opcPut (Tbl.getD y.opc g []) key l) }), l.byte (loc % 128))

/-- Consecutive bytes in one page. -/
def State.engRdN (s : State) (c mark loc : Nat) (oc : Option (Nat × Nat)) : Nat → State × List Byte
  | 0 => (s, [])
  | n + 1 =>
    let r := match oc with
      | some (h, g) => s.opcRd c mark loc h g
      | none => s.engRd c mark loc
    let q := State.engRdN r.1 c mark (loc + 1) oc n
    (q.1, r.2 :: q.2)

/-- Bytes read up to the first fault (R243). -/
def State.engRead (s : State) (c mark : Nat) (oc : Option (Nat × Nat)) : Nat → Nat → Nat → State × List Byte × Option Cause
  | 0, _, _ => (s, [], none)
  | fuel + 1, ea, len =>
    if len = 0 then (s, [], none)
    else
      let part := Nat.min len (65536 - ea % 65536)
      let r := s.xlateEng c (ea % 2 ^ 64) { r := true }
      match r.2 with
      | .error f => (r.1, [], some f)
      | .ok loc =>
        match (if localAddr ea then none else r.1.badByte { r := true } loc part) with
        | some (f, i) => let b := r.1.engRdN c mark loc oc i; (b.1, b.2, some f)
        | none =>
          let b := r.1.engRdN c mark loc (if localAddr ea then none else oc) part
          let q := State.engRead b.1 c mark oc fuel (ea + part) (len - part)
          (q.1, b.2 ++ q.2.1, q.2.2)

/-- Bytes of an engine land at the point that it writes to (R162): the home, or for a home on the other die the die's RDC. Another
package's bytes go there, and `who` waits for the answer. -/
def State.engLand (s : State) (c : Nat) (who : Waiter) (loc : Nat) (bs : List Byte) : State :=
  match placeOf loc with
  | .remote _ _ => s.sendStore who loc bs
  | _ =>
    if homeDie loc ≠ some (dieOf c) ∧ homeDie loc ≠ none then s.dieWrites c loc bs
    else match placeOf loc with
      | .scratch id _ => if id = c && s.engineTile loc then s.engineLand c loc bs else s.landWrite c loc bs
      | _ => s.homeWrite c loc bs

/-- Bytes written up to the first fault: their count and the fault. -/
def State.engWrite (s : State) (c : Nat) (land : State → Nat → List Byte → State) : Nat → Nat → List Byte → State × Nat × Option Cause
  | 0, _, _ => (s, 0, none)
  | fuel + 1, ea, bs =>
    if bs.isEmpty then (s, 0, none)
    else
      let part := Nat.min bs.length (65536 - ea % 65536)
      let r := s.xlateEng c (ea % 2 ^ 64) { w := true }
      match r.2 with
      | .error f => (r.1, 0, some f)
      | .ok loc =>
        match (if localAddr ea then none else r.1.badByte { w := true } loc part) with
        | some (f, i) => (land r.1 loc (bs.take i), i, some f)
        | none =>
          let q := State.engWrite (land r.1 loc (bs.take part)) c land fuel (ea + part) (bs.drop part)
          (q.1, part + q.2.1, q.2.2)

/-- Pages that a span of bytes can touch. -/
def pagesOf (len : Nat) : Nat := len / 65536 + 2

def State.engGet (s : State) (c mark : Nat) (ea len : Nat) : State × List Byte × Option Cause := s.engRead c mark none (pagesOf len) ea len
def State.engPut (s : State) (c ea : Nat) (bs : List Byte) : State × Nat × Option Cause :=
  s.engWrite c (fun t loc b => t.engLand c .none loc b) (pagesOf bs.length) ea bs

/-- The commands that are not ordered with one that writes take note of its bytes (R246). -/
def State.noteWrite (s : State) (c : Nat) (cmd : Cmd) (loc n : Nat) : State :=
  if (s.core c).cmds.length < 2 then s
  else s.modCore c (fun k => { k with cmds := k.cmds.map (fun q =>
    if q.seq = cmd.seq then q
    else { q with raced := ((k.cmds.takeWhile (fun x => x.seq != q.seq)).any (fun x => x.seq == cmd.seq), cmd.lane, loc, loc + n) :: q.raced }) })

/-- Bytes that a command writes. An aligned 8-byte word that a command has written which is not ordered with it (both in lane L, or this
one started after it by ORD) holds either value (R246). -/
def State.cmdLand (s : State) (c : Nat) (cmd : Cmd) (loc : Nat) (bs : List Byte) : State :=
  let ord := match cmd.block with | some b => bOrd b | none => false
  let rs := cmd.raced.filter (fun r => !(r.2.1 == 0 && cmd.lane == 0) && !(r.1 && ord))
  let meets (a : Nat) : Bool := rs.any (fun r => decide (r.2.2.1 < a / 8 * 8 + 8) && decide (a / 8 * 8 < r.2.2.2))
  let s1 := s.noteWrite c cmd loc bs.length
  let who : Waiter := .command c cmd.seq
  if rs.isEmpty then s1.engLand c who loc bs
  else
    let ws := wordParts (bs.length / 8 + 2) loc bs
    (((List.range ws.length).zip ws).foldl (fun (t : State) q =>
      if meets q.2.1 && Config.freeBool (s.fresh * 2 ^ 16 + q.1) then t else t.engLand c who q.2.1 q.2.2) s1).tick1

/-- Bytes that a command writes at an address, up to the first fault. -/
def State.cmdPut (s : State) (c : Nat) (cmd : Cmd) (ea : Nat) (bs : List Byte) : State × Nat × Option Cause :=
  s.engWrite c (fun t loc b => t.cmdLand c cmd loc b) (pagesOf bs.length) ea bs

/-! ## Path classes and times (R245) -/

/-- The class of a side: 0 same core, 1 quad, 2 group, 3 die, 4 bridge, 6 HBM, 7 second tier, 8 fabric, 9 host. -/
def locClass (c loc : Nat) : Nat :=
  match placeOf loc with
  | .scratch id _ =>
    if id = c then 0 else if quadOf id = quadOf c then 1 else if groupOf id = groupOf c then 2 else if dieOf id = dieOf c then 3 else 4
  | .hbm => 6
  | .tier2 => 7
  | .remote _ _ => 8
  | .host _ => 9
  | _ => 4

def classAset (k : Nat) : Nat := [8, 14, 20, 32, 100, 90, 420, 950, 2200, 3000].getD k 0
def classBw (k : Nat) : Nat := [128, 128, 64, 64, 64, 64, 64, 32, 32, 32].getD k 64

/-- The class of an address; an address that does not translate takes the bridge's, and the access then reports its fault. -/
def State.addrClass (s : State) (c ea : Nat) : Nat :=
  if localAddr ea then 0
  else match (s.xlateEng c ea {}).2 with
    | .ok loc => locClass c loc
    | .error _ => 4

def divUp (a b : Nat) : Nat := (a + b - 1) / b

/-- The class of a command from its two sides. -/
def State.cmdClass (s : State) (c : Nat) (op : Instr) (b : BitVec 512) : Nat :=
  match op with
  | .cpy2d _ _ => Nat.max (s.addrClass c (bSrc b)) (s.addrClass c (bDst b))
  | .cpym _ _ => Nat.max (s.addrClass c (bSrc b)) (if bFop b = 3 then 0 else s.addrClass c (bDst b))
  | .fill _ _ => s.addrClass c (bDst b)
  | .gath _ _ => Nat.max (s.addrClass c (bSrc b)) (s.addrClass c (bDst b))
  | .scat _ _ => Nat.max (s.addrClass c (bSrc b)) (s.addrClass c (bDst b))
  | .score _ _ => Nat.max (s.addrClass c (bfld b 3 55 0)) (s.addrClass c (bfld b 6 63 0))
  | .rfill _ _ => 0
  | _ => 9

/-- Lane groups that an RFILL fills: the empty ones, as many as there are records (R258). -/
def emptyGroups (lgl : BitVec 32) : List Nat := (List.range 8).filter (fun g => fld lgl.toNat (4 * g + 3) (4 * g) == 0)

/-- The service time T of a command, where its entry gives one (R245, R247); those of KVS and PRISM rest on a pool and an export page
(`State.svcTime`). -/
def State.cmdTime (s : State) (c : Nat) (op : Instr) (b : BitVec 512) : Option Nat :=
  let cls := s.cmdClass c op b
  let copy := classAset cls + bRows b * divUp (bRowb b) (classBw cls)
  match op with
  | .cpy2d _ _ => some copy
  | .fill _ _ => some copy
  | .cpym _ _ =>
    let fm := (s.core c).fm.getD (bFfm b) 0
    some (copy + (if bFop b = 1 then 1 + wldLat fm else if bFop b = 0 then 0 else 1 + 8 * planes fm + 6))
  | .gath _ _ => some (classAset cls + bfld b 7 31 0 * divUp (bRowb b) (classBw cls))
  | .scat _ _ => some (classAset cls + bfld b 7 31 0 * divUp (bRowb b) (classBw cls))
  | .score _ _ => some (classAset cls + 2 * divUp (4 * bfld b 5 15 0) (classBw cls))
  | .rfill _ _ => some (8 + 3 * Nat.min (emptyGroups (s.core c).lgl).length (bfld b 4 15 0))
  | .nrf _ _ => some (120 + bfld b 5 12 0)
  | _ => none

/-- Lane L carries the exact classes (R246); the other commands run in lane G. -/
def State.cmdLane (s : State) (c : Nat) (op : Instr) (b : BitVec 512) : Nat :=
  match op with
  | .cpy2d _ _ => if s.cmdClass c op b ≤ 3 then 0 else 1
  | .cpym _ _ => if s.cmdClass c op b ≤ 3 then 0 else 1
  | .fill _ _ => if s.cmdClass c op b ≤ 3 then 0 else 1
  | .gath _ _ => if s.cmdClass c op b ≤ 3 then 0 else 1
  | .scat _ _ => if s.cmdClass c op b ≤ 3 then 0 else 1
  | .score _ _ => if s.cmdClass c op b ≤ 3 then 0 else 1
  | .rfill _ _ => 0
  | _ => 1

/-! ## Acceptance (R237, R238) -/

/-- A trigger of d that finds no free entry is a miss, or held in TAGGED mode (R238). -/
def waitCmd (ic : Ic) (s : State) : Wait := if 16 ≤ (s.core ic.c).cmds.length then .miss 7 else .go

/-- Accept a command: the block's address is a local-scratch address of the current phase, a multiple of 64. d.r := SEQ, and the
block's tile becomes ENGINE. -/
def State.accept (s : State) (ic : Ic) (op : Instr) : Except Stop State :=
  let ea := ic.t.toNat
  let k := s.core ic.c
  if ea % 64 ≠ 0 then .error (addrStop ic .align ea)
  else if !localAddr ea || fld ea 62 21 != 0 || decide (s.scratchLen ic.c < fld ea 20 0 + 64) then .error (addrStop ic .range ea)
  else
    let off := fld ea 20 0
    let cmd : Cmd := { seq := k.seq.toNat, tag := (k.sop.getD 6 0).setWidth 32, op := op, pc := ic.pc, blkAddr := off, acc := k.ecyc, accNow := s.now,
                       clk := k.clk, rdcMark := k.rdcMark }
    .ok ((s.laterS ic 1 6 (k.seq.setWidth 64)).modCore ic.c (fun q =>
      { q with cmds := q.cmds ++ [cmd], seq := q.seq + 1, eng := q.eng ++ [off / 4096] }))

def fireCpy2d (ic : Ic) (src : BitVec 9) (grd : BitVec 6) (s : State) : Except Stop State := s.accept ic (.cpy2d src grd)
def fireCpym (ic : Ic) (src : BitVec 9) (grd : BitVec 6) (s : State) : Except Stop State := s.accept ic (.cpym src grd)
def fireGath (ic : Ic) (src : BitVec 9) (grd : BitVec 6) (s : State) : Except Stop State := s.accept ic (.gath src grd)
def fireScat (ic : Ic) (src : BitVec 9) (grd : BitVec 6) (s : State) : Except Stop State := s.accept ic (.scat src grd)
def fireFill (ic : Ic) (src : BitVec 9) (grd : BitVec 6) (s : State) : Except Stop State := s.accept ic (.fill src grd)
def fireKvs (ic : Ic) (src : BitVec 9) (grd : BitVec 6) (s : State) : Except Stop State := s.accept ic (.kvs src grd)
def fireKvapp (ic : Ic) (src : BitVec 9) (grd : BitVec 6) (s : State) : Except Stop State := s.accept ic (.kvapp src grd)
def fireKvfork (ic : Ic) (src : BitVec 9) (grd : BitVec 6) (s : State) : Except Stop State := s.accept ic (.kvfork src grd)
def fireKvdrop (ic : Ic) (src : BitVec 9) (grd : BitVec 6) (s : State) : Except Stop State := s.accept ic (.kvdrop src grd)
def fireNrf (ic : Ic) (src : BitVec 9) (grd : BitVec 6) (s : State) : Except Stop State := s.accept ic (.nrf src grd)
def firePrism (ic : Ic) (src : BitVec 9) (grd : BitVec 6) (s : State) : Except Stop State := s.accept ic (.prism src grd)
def fireMigr (ic : Ic) (src : BitVec 9) (grd : BitVec 6) (s : State) : Except Stop State := s.accept ic (.migr src grd)
def fireEnq (ic : Ic) (src : BitVec 9) (grd : BitVec 6) (s : State) : Except Stop State := s.accept ic (.enq src grd)
def fireMreb (ic : Ic) (src : BitVec 9) (grd : BitVec 6) (s : State) : Except Stop State := s.accept ic (.mreb src grd)
def fireScore (ic : Ic) (src : BitVec 9) (grd : BitVec 6) (s : State) : Except Stop State := s.accept ic (.score src grd)
def fireRfill (ic : Ic) (src : BitVec 9) (grd : BitVec 6) (s : State) : Except Stop State := s.accept ic (.rfill src grd)

/-! ## The commands in the queue -/

def Core.cmd? (k : Core) (seq : Nat) : Option Cmd := k.cmds.find? (fun c => c.seq == seq)
def Core.setCmd (k : Core) (cmd : Cmd) : Core := { k with cmds := k.cmds.map (fun c => if c.seq = cmd.seq then cmd else c) }
def State.setCmd (s : State) (c : Nat) (cmd : Cmd) : State := s.modCore c (fun k => k.setCmd cmd)

/-- Commands accepted before one. -/
def Core.before (k : Core) (seq : Nat) : List Cmd := k.cmds.takeWhile (fun c => c.seq != seq)

/-- Set or clear the ready tags of tile registers. -/
def Core.setReady (k : Core) (ts : List Nat) (r : Bool) (n : Nat) : Core :=
  { k with t := (List.range 16).map (fun i =>
      let x := k.t.getD i {}
      if !ts.contains i then x else if r then (if x.ready then x else x.filled (16 * n + i)) else { x with ready := false, thr := [], engw := [] }) }

/-- Set the ready tag of one tile register. -/
def Core.markReady (k : Core) (i n : Nat) : Core := k.setReady [i] true n

/-- The thread's stores into its scratch, issued at `clk` or before, that have not performed and that the read of a block at a scratch offset
follows (R161, R238): those due by its cycle, and of later ones those that write into the block. -/
def Core.blockStores (k : Core) (clk off : Nat) : List MOp :=
  k.mops.filter (fun o => o.isWrite && o.fixed && !o.perf && decide (o.cyc ≤ clk) && (decide (o.due ≤ clk + 4) || o.pieces.any (fun p =>
    match placeOf p.loc with
    | .scratch _ x => decide (x < off + 64) && decide (off < x + p.len)
    | _ => false)))

/-- The thread's stores into its scratch, issued at a command's acceptance or before, that have not performed: the flip of the tiles orders them
before the engine's first access (R161). -/
def Core.flipStores (k : Core) (cmd : Cmd) : List MOp := k.mops.filter (fun o => o.isWrite && o.fixed && !o.perf && decide (o.cyc ≤ cmd.clk))

/-- The block is read at the end of cycle a + 4, after the thread's scratch stores of the acceptance cycle or before have performed.
In TIMED mode they perform for it even while a delay stops the logical cycle (`settleBlocks`). -/
def Core.blockReady (k : Core) (cmd : Cmd) : Bool :=
  cmd.block.isNone && decide (cmd.acc + 4 ≤ k.ecyc) && (!k.tagged || (k.blockStores cmd.clk cmd.blkAddr).isEmpty)

/-- Tiles that are no longer ENGINE forget which agents wrote to them (R161). -/
def Core.freeTiles (k : Core) : Core :=
  let cut (l : List (Nat × Nat)) : List (Nat × Nat) := l.filter (fun r => k.eng.any (fun t => decide (r.1 < 4096 * (t + 1)) && decide (4096 * t < r.2)))
  { k with engW := cut k.engW, raceW := cut k.raceW }

/-- COMMAND_BLOCK_READ (R238, R239): the block is read and checked; the tiles it names become ENGINE, the block's tile returns to
THREAD, and the tags of the tile registers it fills are cleared. A bad command names nothing and completes in the next cycle. What rests
on a pool comes in: whether the command's own words are good, its service time and its tiles. -/
def State.cmdRead (s : State) (c : Nat) (cmd : Cmd) (good : BitVec 512 → Bool) (svc : BitVec 512 → Option Nat)
    (tiles : BitVec 512 → List Nat) : State :=
  let b : BitVec 512 := BitVec.ofNat 512 (ofBytes (s.rdBytes (scratchLoc c cmd.blkAddr) 64))
  let k := s.core c
  if s.commonOk c b && good b then
    let ts := tiles b
    let rs := tregsOf cmd.op b
    let lane := s.cmdLane c cmd.op b
    (s.modCore c (fun k =>
      (({ k with eng := (k.eng ++ ts).erase (cmd.blkAddr / 4096) }.freeTiles).setReady rs false 0).setCmd
        { cmd with block := some b, tiles := ts, tregs := rs, lane := lane, svc := svc b,
                   work := match cmd.op with | .rfill _ _ => emptyGroups k.lgl | _ => [] }))
  else s.setCmd c { cmd with block := some b, tiles := [cmd.blkAddr / 4096], start := some k.ecyc, due := k.ecyc + 1, status := 1, lane := 2 }

/-- A command may start in the next cycle (R246): lane L one at a time, lane G up to 8 in order; ORD after every earlier one. -/
def Core.mayStart (k : Core) (cmd : Cmd) : Bool :=
  match cmd.block with
  | none => false
  | some b =>
    cmd.start.isNone && !k.engFrozen && decide (cmd.acc + 4 ≤ k.ecyc) && (!bOrd b || (k.before cmd.seq).isEmpty)
    && (if cmd.lane = 0 then (k.before cmd.seq).all (fun q => q.block.isSome && (q.lane != 0 || decide (1 ≤ q.fin)))
        else (k.before cmd.seq).all (fun q => q.block.isSome && (q.lane != 1 || q.start.isSome))
          && decide ((k.cmds.filter (fun q => q.lane == 1 && q.start.isSome && q.fin == 0)).length < 8))

/-- The clock of a command's steps: lane L counts the cycles of the core's queue, lane G those of the package. -/
def State.cmdClock (s : State) (c : Nat) (cmd : Cmd) : Nat := if cmd.lane = 1 then s.now else (s.core c).ecyc

/-- The addresses that a command reads or writes first. -/
def cmdSides (op : Instr) (b : BitVec 512) : List Nat :=
  match op with
  | .cpy2d _ _ => [bSrc b, bDst b]
  | .cpym _ _ => bSrc b :: (if bFop b = 3 then [] else [bDst b])
  | .fill _ _ => [bDst b]
  | .gath _ _ => [bSrc b, bDst b]
  | .scat _ _ => [bSrc b, bDst b]
  | .score _ _ => [bfld b 3 55 0, bfld b 6 63 0]
  | .kvs _ _ => [bfld b 3 55 0, bfld b 6 55 0]
  | .kvapp _ _ => [bfld b 3 55 0, bfld b 6 63 0]
  | .kvfork _ _ => [bfld b 3 55 0]
  | .kvdrop _ _ => [bfld b 3 55 0]
  | .nrf _ _ => [bDst b]
  | .mreb _ _ => [bfld b 3 63 0, bfld b 7 63 0]
  | _ => []

/-- The least time of a command that reaches across the bridge, there and back (R12). Records and Loupe stand on Nared. -/
def State.crossFloor (s : State) (c : Nat) (cmd : Cmd) : Nat :=
  match cmd.block with
  | some b =>
    let far (a : Nat) : Bool := !localAddr a && (match (s.xlateEng c (a % 2 ^ 64) {}).2 with
      | .ok loc => (match homeDie loc with | some h => h != dieOf c | none => dieOf c == 1)
      | .error _ => false)
    if (cmdSides cmd.op b).any far || (dieOf c == 1 && (match cmd.op with | .nrf _ _ => true | _ => false)) then 80 else 0
  | none => 0

/-- COMMAND_START: s is the next cycle; a lane-L command completes at the end of s + T − 1, a lane-G command after a variable time that
its bound covers when nothing contends. -/
def State.cmdStart (s : State) (c : Nat) (cmd : Cmd) : State :=
  let k := s.core c
  let st := k.ecyc + 1
  let due := if cmd.lane = 0 then st + cmd.svc.getD 1 - 1 else s.now + 1 + s.crossFloor c cmd + Config.latency s.fresh
  (s.setCmd c { cmd with start := some st, due := due }).tick1

/-! ## Completion (R241, R242) -/

/-- Posts to a counting flag saturate at 0xFFFF and then set its overflow bit (R60). -/
def Core.post (k : Core) (f n : Nat) : Core :=
  let v := (k.cf.getD f 0).toNat + n
  { k with cf := k.cf.set f (BitVec.ofNat 16 (Nat.min v 0xFFFF)),
           cfo := if 0xFFFF < v then k.cfo ||| BitVec.ofNat 32 (2 ^ f) else k.cfo }

/-- A saved task of a launch, or of any, that stood on a logical core (R60). -/
def State.savedOn (s : State) (launch : Option Nat) (core : Nat) : Option Nat :=
  (List.find? (fun l => (launch.isNone || launch == some l.1) && l.2.saved.any (fun t => t.2.1 == core)) s.launches).map (fun l => l.1)

/-- FLAG_POST_ARRIVAL (R266, R60): a post lands on a task of the posting launch (of any, where the post names a core alone); the dispatcher
holds it for a saved task; with no task it is dropped. -/
def State.postLand (s : State) (launch : Option Nat) (core flag n : Nat) : State :=
  if (s.core core).bound && (launch.isNone || launch == some (s.core core).launch) then s.modCore core (fun k => k.post flag n)
  else match s.savedOn launch core with
    | some l => s.modLaunch l (fun x => { x with postsHeld := x.postsHeld ++ [(core, flag, n)] })
    | none => s

/-- A notice of an automatic freeze, with the management core's notice of kind 1 (R345, R357). -/
def State.freezeNotice (s : State) (c agent : Nat) : State := (s.takeNotice c { cause := 0x12 }).notice 1 agent 0

/-- Step 3 of R242 for a launch and its context; true when the target was not acted on. A post to a saved task is held for it (R60). What takes
effect at the end of a cycle is a post, or an event write, of the next one: the owner bits return before it, so that a wait it ends finds the
tiles returned (R161, R247; log 17). -/
def State.notifyAs (s : State) (c launch ctx : Nat) (b : BitVec 512) : State × Bool :=
  let id := bNcore b
  let there := (s.core id).bound && (s.core id).launch == launch
  match bNotify b with
  | 0 => (s, false)
  | 1 =>
    if there && decide (bNoff b + 8 ≤ s.scratchLen id) then (s.landWrite c (scratchLoc id (bNoff b)) (toBytes 8 (bNval b)), false)
    else (s, true)
  | 2 => if there || (s.savedOn (some launch) id).isSome then (s.postLand (some launch) id (bNidx b) 1, false) else (s, true)
  | _ => (s.lateEvent ctx (bNidx b), false)

def State.cmdNotify (s : State) (c : Nat) (b : BitVec 512) : State × Bool := s.notifyAs c (s.core c).launch (s.core c).ctx b

/-- The status code of a fault on an engine's access (R241). -/
def engStatus (f : Cause) : Nat := if f = .xlate then 2 else 3

def statusIsError (n : Nat) : Bool := n = 1 || n = 2 || n = 3 || n = 4 || n = 5 || n = 6 || n = 7 || n = 8 || n = 10 || n = 13 || n = 14

/-- A later error takes the place of a non-error status only. -/
def addStatus (old new : Nat) : Nat := if statusIsError old then old else new

/-- The completion word (R242). -/
def Cmd.word (cmd : Cmd) : Nat :=
  cmd.status + Nat.min cmd.count (2 ^ 24 - 1) * 2 ^ 8 + (if cmd.tag = 0 then cmd.seq else cmd.tag.toNat) * 2 ^ 32

/-- A completion word or an arrival is asked for, and its own fields are valid (R239). -/
def wantsWord (b : BitVec 512) : Bool := bCwaddr b != 0 && cwOk b

/-- The arrival of a command's payload on a byte barrier, at the barrier's home (R180, R242). -/
def State.abrArrive (s : State) (c : Nat) (cmd : Cmd) (loc : Nat) : State :=
  let o := atomBar (ofBytes (s.rdBytes loc 8)) (cmd.pay % 2 ^ 48)
  (match o.new with | some v => s.landWrite c loc (toBytes 8 v) | none => s).setCmd c
    { cmd with fin := 4, status := if o.mark then addStatus cmd.status 5 else cmd.status }

/-- Steps 4 and 5: the completion word, or the arrival on a byte barrier; what leaves for another die or package is on its way. -/
def State.cmdWord (s : State) (c : Nat) (cmd : Cmd) (b : BitVec 512) : State :=
  let r := s.xlateEng c (bCwaddr b) { r := bAbr b, w := true }
  let s1 := r.1
  match r.2 with
  | .error f => s1.setCmd c { cmd with status := addStatus cmd.status (engStatus f), fin := 4 }
  | .ok loc =>
    let word := toBytes 8 cmd.word
    match placeOf loc with
    | .remote pkg pa =>
      (if bAbr b then s1.request (.command c cmd.seq) pkg 13 pa (toBytes 1 8 ++ toBytes 1 13 ++ toBytes 8 (cmd.pay % 2 ^ 48) ++ toBytes 8 0)
        else s1.sendStore (.command c cmd.seq) loc word).setCmd c { cmd with fin := 3 }
    | _ =>
      if homeDie loc = some (dieOf c) ∨ homeDie loc = none then
        (if bAbr b then s1.abrArrive c cmd loc else (s1.landWrite c loc word).setCmd c { cmd with fin := 4 })
      else if bAbr b then (s1.rdcEvict (dieOf c) (lineOf loc)).setCmd c { cmd with fin := 3, sent := some s.now }
      else if scopeRank (bCwscope b) < 4 then
        (s1.dieWrites c loc word).setCmd c { cmd with fin := 4 }
      else (s1.bridgeSend (rdcAgent (dieOf c)) (agentOf loc) loc word none).setCmd c { cmd with fin := 4 }

/-- Steps 1 to 3 of R242: the owner bits return, the notification acts, and the release of the completion word drains (R150). -/
def State.cmdReturn (s : State) (c : Nat) (cmd : Cmd) (b : BitVec 512) : State :=
  let s1 := (s.modCore c (fun k =>
    (({ k with eng := cmd.tiles.foldl (fun l t => l.erase t) k.eng }.freeTiles).setReady cmd.tregs true s.fresh).setCmd
      { cmd with tiles := [], tregs := [], fin := 1 })).tick1
  let n := if s1.notifyOk c b then s1.cmdNotify c b else (s1, false)
  let s2 := if wantsWord b && decide (4 ≤ scopeRank (bCwscope b)) then n.1.rdcDrain (dieOf c) else n.1
  s2.setCmd c { cmd with tiles := [], tregs := [], fin := 1, mark := s2.nBridge, status := if n.2 then addStatus cmd.status 3 else cmd.status }

/-- The command leaves the queue: an error status sets the D record, and a PROT status freezes the core's lanes (R244, R345). -/
def State.cmdEnd (s : State) (c : Nat) (cmd : Cmd) : State :=
  let s1 := s.modCore c (fun k => { k with cmds := k.cmds.filter (fun q => q.seq != cmd.seq) })
  let s2 := if statusIsError cmd.status then s1.setDrec c cmd.pc cmd.status else s1
  if cmd.status = 3 then (s2.modCore c (fun k => { k with engFrozen := true })).freezeNotice c (c + 2 ^ 14) else s2

/-- A command waits for what another package's atomic returns: the claim of an ENQ (R263), the LOCK of a MIGR (R329). -/
def Cmd.claims (cmd : Cmd) : Bool :=
  match cmd.op with
  | .enq _ _ => cmd.phase == 2
  | .migr _ _ => cmd.phase == 3
  | _ => false

/-- Every byte that the command sent to another package has performed there. -/
def State.cmdSettled (s : State) (c : Nat) (cmd : Cmd) : Bool := s.outs.all (fun o => o.who != .command c cmd.seq)

/-- One stage of COMMAND_COMPLETE (R242). The completion word is a release at CWSCOPE: from PACKAGE up it follows the die's dirty lines to
their homes, and at SURVIVABLE the acknowledgement of every delta sent until then (R150, R164). -/
def State.cmdStage (s : State) (c : Nat) (cmd : Cmd) (b : BitVec 512) : State :=
  match cmd.fin with
  | 0 => if s.cmdSettled c cmd then s.cmdReturn c cmd b else s
  | 1 =>
    if !wantsWord b then s.setCmd c { cmd with fin := 4 }
    else if scopeRank (bCwscope b) < 4 || s.written (dieOf c) cmd.mark then s.setCmd c { cmd with fin := 2, mark := s.nDelta }
    else s
  | 2 => if bCwscope b ≠ 7 ∨ s.deltasAcked cmd.mark then s.cmdWord c cmd b else s
  | 3 =>
    match cmd.sent with
    | some t =>
      if t + 40 ≤ s.now then
        (match (s.xlateEng c (bCwaddr b) { r := true, w := true }).2 with
        | .ok loc => s.abrArrive c cmd loc
        | .error f => s.setCmd c { cmd with status := addStatus cmd.status (engStatus f), fin := 4 })
      else s
    | none => s
  | _ => s.cmdEnd c cmd

/-! ## Copies -/

/-- Replace bytes of the A-row buffer from a byte offset (R235). -/
def Core.putA (k : Core) (off : Nat) (bs : List Byte) : Core :=
  let m := (2 ^ (8 * bs.length) - 1) <<< (8 * off)
  { k with arow := (k.arow &&& ~~~ (BitVec.ofNat 32768 m)) ||| BitVec.ofNat 32768 (ofBytes bs <<< (8 * off)) }

/-- The operand handle that a copy's block carries. -/
def copyOc (op : Instr) (b : BitVec 512) : Option (Nat × Nat) :=
  match op with
  | .cpy2d _ _ => if bfld b 7 24 24 = 1 then some (bfld b 7 15 0, bfld b 7 23 16) else none
  | _ => none

/-- Locations of a span of addresses, page by page: from, to. -/
def State.spansOf (s : State) (c : Nat) : Nat → Nat → Nat → List (Nat × Nat)
  | 0, _, _ => []
  | fuel + 1, ea, len =>
    if len = 0 then []
    else
      let part := Nat.min len (65536 - ea % 65536)
      (match (s.xlateEng c (ea % 2 ^ 64) {}).2 with | .ok loc => [(loc, loc + part)] | .error _ => []) ++ State.spansOf s c fuel (ea + part) (len - part)

/-- Whether a copy's source and destination bytes overlap, by whatever addresses they are named (R249). -/
def State.copyOverlap (s : State) (c : Nat) (op : Instr) (b : BitVec 512) : Bool :=
  let side (base : Nat) (str : Int) : List (Nat × Nat) :=
    (List.range (bRows b)).flatMap (fun r => s.spansOf c (pagesOf (bRowb b)) (rowAddr base str r) (bRowb b))
  let lo (l : List (Nat × Nat)) : Nat := l.foldl (fun n q => Nat.min n q.1) (2 ^ 80)
  let hi (l : List (Nat × Nat)) : Nat := l.foldl (fun n q => Nat.max n q.2) 0
  match op with
  | .fill _ _ => false
  | _ =>
    if bFop b = 3 then false
    else
      let x := side (bSrc b) (bSstr b)
      let y := side (bDst b) (bDstr b)
      decide (lo x < hi y) && decide (lo y < hi x) && x.any (fun p => y.any (fun q => decide (p.1 < q.2) && decide (q.1 < p.2)))

/-- One move of bytes by a command; the bytes written and the fault that stopped it. -/
def State.copyBytes (s : State) (c : Nat) (cmd : Cmd) (oc : Option (Nat × Nat)) (src dst len : Nat) : State × Nat × Option Cause :=
  let r := s.engRead c cmd.rdcMark oc (pagesOf len) src len
  let w := r.1.cmdPut c cmd dst r.2.1
  match w.2.2 with
  | some f => w
  | none => (w.1, w.2.1, r.2.2)

/-- A row of a copy whose sides overlap (R249): each aligned 8-byte word of the destination takes the value that its source had when the
command started, or the one that it has now, which one being unspecified (R8). `ps` are the parts of the row: offset and bytes. -/
def State.copyMixed (s : State) (c : Nat) (cmd : Cmd) (oc : Option (Nat × Nat)) (src dst : Nat) :
    List (Nat × List Byte) → Nat → State × Nat × Option Cause
  | [], n => (s, n, none)
  | (o, old) :: t, n =>
    let r := s.engRead c cmd.rdcMark oc 2 ((src + o) % 2 ^ 64) old.length
    match r.2.2 with
    | some f => (r.1, n, some f)
    | none =>
      let w := (if Config.freeBool (s.fresh * 2 ^ 16) then r.1.cmdPut c cmd ((dst + o) % 2 ^ 64) old else r.1.cmdPut c cmd ((dst + o) % 2 ^ 64) r.2.1)
      match w.2.2 with
      | some f => (w.1, n + w.2.1, some f)
      | none => State.copyMixed w.1.tick1 c cmd oc src dst t (n + w.2.1)

/-- One row from source to destination. -/
def State.moveRow (s : State) (c : Nat) (cmd : Cmd) (oc : Option (Nat × Nat)) (src dst len row : Nat) : State × Nat × Option Cause :=
  match cmd.snap[row]? with
  | some old =>
    if old.length = len then
      s.copyMixed c cmd oc src dst ((wordParts (len / 8 + 2) dst old).map (fun q => (q.1 - dst, q.2))) 0
    else s.copyBytes c cmd oc src dst len
  | none => s.copyBytes c cmd oc src dst len

/-- A copy keeps its source rows as it starts, where its sides overlap. -/
def State.copySnap (s : State) (c : Nat) (cmd : Cmd) (b : BitVec 512) : Cmd :=
  if cmd.rowsDone = 0 ∧ s.copyOverlap c cmd.op b then
    { cmd with snap := (List.range (bRows b)).map (fun r => (s.engGet c cmd.rdcMark (rowAddr (bSrc b) (bSstr b) r) (bRowb b)).2.1) }
  else cmd

/-- Row `row` of a copy or FILL. -/
def State.copyRow (s : State) (c : Nat) (cmd : Cmd) (b : BitVec 512) (row : Nat) : State × Nat × Option Cause :=
  let src := rowAddr (bSrc b) (bSstr b) row
  let dst := rowAddr (bDst b) (bDstr b) row
  match cmd.op with
  | .fill _ _ => s.cmdPut c cmd dst ((List.range (bRowb b)).map (fun i => BitVec.ofNat 8 (bSrc b >>> (8 * (i % 8)))))
  | .cpym _ _ =>
    if bFop b = 3 then
      let r := s.engGet c cmd.rdcMark src (bRowb b)
      (r.1.modCore c (fun k => k.putA (row * bRowb b) r.2.1), r.2.1.length, r.2.2)
    else s.moveRow c cmd none src dst (bRowb b) row
  | _ => s.moveRow c cmd (copyOc cmd.op b) src dst (bRowb b) row

/-- Row `row` of a GATH or SCAT (R250): the rows moved, the bytes written, the fault. -/
def State.listRow (s : State) (c : Nat) (cmd : Cmd) (b : BitVec 512) (row : Nat) : State × Nat × Nat × Option Cause :=
  let ix := s.engGet c cmd.rdcMark (bfld b 6 63 0 + 4 * row) 4
  match ix.2.2 with
  | some f => (ix.1, 0, 0, some f)
  | none =>
    let k := ofBytes ix.2.1
    if k = 0xFFFFFFFF then (ix.1, 0, 0, none)
    else
      let far := k * bfld b 7 63 32
      let near := row * bRowb b
      let r := match cmd.op with
        | .gath _ _ => ix.1.copyBytes c cmd none ((bSrc b + far) % 2 ^ 64) ((bDst b + near) % 2 ^ 64) (bRowb b)
        | _ => ix.1.copyBytes c cmd none ((bSrc b + near) % 2 ^ 64) ((bDst b + far) % 2 ^ 64) (bRowb b)
      (r.1, if r.2.2.isNone then 1 else 0, r.2.1, r.2.2)

/-- Rows of a command that moves row by row. -/
def cmdRows (op : Instr) (b : BitVec 512) : Nat :=
  match op with
  | .gath _ _ => bfld b 7 31 0
  | .scat _ _ => bfld b 7 31 0
  | _ => bRows b

def isListCmd (op : Instr) : Bool :=
  match op with
  | .gath _ _ => true
  | .scat _ _ => true
  | _ => false

/-- The next row of a copy, gather or scatter. -/
def State.cmdRow (s : State) (c : Nat) (cmd0 : Cmd) (b : BitVec 512) : State × Cmd :=
  let cmd := if isListCmd cmd0.op then cmd0 else s.copySnap c cmd0 b
  let r : State × Nat × Nat × Option Cause :=
    if isListCmd cmd.op then s.listRow c cmd b cmd.rowsDone
    else let q := s.copyRow c cmd b cmd.rowsDone; (q.1, q.2.1, q.2.1, q.2.2)
  let cmd1 := { cmd with rowsDone := cmd.rowsDone + 1, count := cmd.count + r.2.1, pay := cmd.pay + r.2.2.1,
                         status := match r.2.2.2 with | some f => addStatus cmd.status (engStatus f) | none => cmd.status,
                         finished := r.2.2.2.isSome || decide (cmdRows cmd.op b ≤ cmd.rowsDone + 1) }
  (r.1.setCmd c cmd1, cmd1)

/-! ## SCORE and RFILL -/

/-- SCORE (R256): copy a score out, then decay it. -/
def State.scoreRun (s : State) (c : Nat) (cmd : Cmd) (b : BitVec 512) : State × Cmd :=
  (List.range (bfld b 5 15 0)).foldl (fun (p : State × Cmd) i =>
    if p.2.finished then p
    else
      let a := bfld b 3 55 0 + 4 * (bfld b 4 55 32 + i)
      let r := p.1.engGet c cmd.rdcMark a 4
      match r.2.2 with
      | some f => (r.1, { p.2 with status := addStatus p.2.status (engStatus f), finished := true })
      | none =>
        let w := r.1.cmdPut c p.2 ((bfld b 6 63 0 + 4 * i) % 2 ^ 64) r.2.1
        match w.2.2 with
        | some f => (w.1, { p.2 with status := addStatus p.2.status (engStatus f), finished := true, pay := p.2.pay + w.2.1 })
        | none =>
          let x := encF32 (Num.mul (decF32 (ofBytes r.2.1)) (decF32 (bfld b 7 31 0))).1
          let z := w.1.cmdPut c p.2 a (toBytes 4 x)
          match z.2.2 with
          | some f => (z.1, { p.2 with status := addStatus p.2.status (engStatus f), finished := true, pay := p.2.pay + 4 })
          | none => (z.1, { p.2 with count := p.2.count + 1, pay := p.2.pay + 4 })) (s, cmd)

/-- Lanes 8g to 8g + 7 of a row take 8 words. -/
def putGroup (row : V) (g : Nat) (xs : List Nat) : V :=
  pack 32 ((List.range 64).map (fun i => if i / 8 = g then xs.getD (i % 8) 0 else elem 32 row i))

/-- Lanes 8g to 8g + 7. -/
def groupLanes (g : Nat) : BitVec 64 := BitVec.ofNat 64 (0xFF * 2 ^ (8 * g))

def wordsOf (bs : List Byte) : List Nat := (List.range (bs.length / 4)).map (fun i => ofBytes ((bs.drop (4 * i)).take 4))

/-- RFILL (R258): records into the lane groups that were empty when the block was read. -/
def State.rfillRun (s : State) (c : Nat) (cmd : Cmd) (b : BitVec 512) : State × Cmd :=
  let gs := cmd.work.take (bfld b 4 15 0)
  ((List.range gs.length).zip gs).foldl (fun (p : State × Cmd) q =>
    if p.2.finished then p
    else
      let r := p.1.engGet c cmd.rdcMark (bSrc b + 320 * q.1) 320
      match r.2.2 with
      | some f => (r.1, { p.2 with status := addStatus p.2.status (engStatus f), finished := true })
      | none =>
        let ws := wordsOf r.2.1
        let g := q.2
        let tm := bfld b 5 3 0
        let tx := bfld b 5 15 12
        let s1 := r.1.modCore c (fun k =>
          let x := k.t.getD tm {}
          { k with t := k.t.set tm ((List.range 8).foldl (fun (y : TileReg) i =>
              y.fillRow (bfld b 5 8 4 + i) (groupLanes g) (putGroup (y.rows.getD (bfld b 5 8 4 + i) 0) g ((ws.drop (8 * i)).take 8))) x) })
        let s2 := s1.modCore c (fun k =>
          let x := k.t.getD tx {}
          { k with t := k.t.set tx (x.fillRow (bfld b 5 20 16) (groupLanes g) (putGroup (x.rows.getD (bfld b 5 20 16) 0) g ((ws.drop 64).take 8))),
                   lgl := BitVec.ofNat 32 (k.lgl.toNat - fld k.lgl.toNat (4 * g + 3) (4 * g) * 16 ^ g + Nat.min (ws.getD 72 0) 8 * 16 ^ g) })
        (s2, { p.2 with count := p.2.count + 1, pay := p.2.pay + 288 })) (s, cmd)

/-! ## ENQ (R263, R306) -/

/-- A fault ends a command. -/
def Cmd.faulted (cmd : Cmd) (f : Cause) : Cmd := { cmd with status := addStatus cmd.status (engStatus f), finished := true }

/-- Bytes of an ENQ's packets, released at the queue's scope: from PACKAGE up what is homed on the other die crosses the bridge. -/
def State.enqPut (s : State) (c : Nat) (cmd : Cmd) (scope ea : Nat) (bs : List Byte) : State × Nat × Option Cause :=
  s.engWrite c (fun t loc x =>
    if 4 ≤ scopeRank scope ∧ homeDie loc ≠ some (dieOf c) ∧ homeDie loc ≠ none then t.bridgeSend (rdcAgent (dieOf c)) (agentOf loc) loc x none
    else t.engLand c (.command c cmd.seq) loc x) 2 ea bs

/-- The packets of a claim, word 0 of the first last (R306). A fault stops the command where it is met (R243). -/
def State.enqWrite (s : State) (c : Nat) (cmd : Cmd) (b : BitVec 512) (base slots scope claim : Nat) : State × Cmd :=
  let n := bfld b 5 1 0
  let pk := s.engGet c cmd.rdcMark (bDst b) (64 * n)
  match pk.2.2 with
  | some f => (pk.1, cmd.faulted f)
  | none =>
    let at_ (i : Nat) : Nat := base + 64 * ((claim + i) % slots)
    let w0 := ofBytes (pk.2.1.take 8) % 2 ^ 16 + (claim % 2 ^ 48) * 2 ^ 16
    let parts := (if n = 2 then [(at_ 1, (pk.2.1.drop 64).take 64)] else []) ++ [(at_ 0 + 8, (pk.2.1.drop 8).take 56), (at_ 0, toBytes 8 w0)]
    let r := parts.foldl (fun (p : State × Nat × Option Cause) q =>
      if p.2.2.isSome then p else let w := p.1.enqPut c cmd scope q.1 q.2; (w.1, p.2.1 + w.2.1, w.2.2)) (pk.1, 0, none)
    match r.2.2 with
    | some f => (r.1, { cmd.faulted f with count := claim % slots, pay := r.2.1 })
    | none => (r.1, { cmd with count := claim % slots, pay := r.2.1, finished := true })

/-- ENQ_CLAIM: one indivisible claim of NPKT slots on the write index at its home when they fit, then the packets; none while the queue
lacks room. A home on the other die is 40 cycles away (R12); another package's is asked for the claim once its indexes show room, and a claim
that finds the room gone waits for it (R306). -/
def State.enqClaim (s : State) (c : Nat) (cmd : Cmd) (b : BitVec 512) : Option (State × Cmd) :=
  let q := bfld b 3 63 0
  let n := bfld b 5 1 0
  let d := s.engGet c (s.die (dieOf c)).rdcFill.toNat q 16
  match d.2.2 with
  | some f => some (d.1, cmd.faulted f)
  | none =>
    let w (i : Nat) : Nat := ofBytes ((d.2.1.drop (8 * i)).take 8)
    let base := w 0 % 2 ^ 56
    let slots := w 1 % 2 ^ 17
    let scope := fld (w 1) 25 23
    let x := d.1.xlateEng c (q + 64) { r := true, w := true }
    let y := x.1.xlateEng c (q + 128) { r := true }
    match x.2, y.2 with
    | .error f, _ => some (y.1, cmd.faulted f)
    | _, .error f => some (y.1, cmd.faulted f)
    | .ok wl, .ok rl =>
      let full (claim : Nat) : Bool := decide (slots - (n - 1) ≤ (claim + 2 ^ 64 - ofBytes (y.1.rdBytes rl 8)) % 2 ^ 64)
      -- the slots of a claim lie where writes wait (R326, R335)
      let held (claim : Nat) : Bool := (List.range n).any (fun i => s.writeHeld (s.core c).ctx (base + 64 * ((claim + i) % slots)) 64)
      if slots = 0 then some (y.1, { cmd with status := addStatus cmd.status 1, finished := true })
      else match placeOf wl with
        | .remote pkg pa =>
          (match cmd.work with
          | claim :: _ => if full claim || held claim then none else some (y.1.enqWrite c cmd b base slots scope claim)
          | [] =>
            if cmd.phase = 2 || full (ofBytes (y.1.rdBytes wl 8)) then none
            else some (y.1.request (.command c cmd.seq) pkg 13 pa (toBytes 1 8 ++ toBytes 1 0 ++ toBytes 8 n ++ toBytes 8 0), { cmd with phase := 2 }))
        | _ =>
          let far := decide (homeDie wl ≠ some (dieOf c)) && decide (homeDie wl ≠ none)
          if far && cmd.sent.isNone then some (y.1.rdcEvict (dieOf c) (lineOf wl), { cmd with sent := some s.now })
          else if far && cmd.sent.any (fun t => decide (s.now < t + 40)) then none
          else
            let claim := ofBytes (y.1.rdBytes wl 8)
            if full claim || held claim then none
            else some ((y.1.landWrite c wl (toBytes 8 ((claim + n) % 2 ^ 64))).enqWrite c { cmd with sent := none } b base slots scope claim)

end Sys2Proof.Machine
end

