-- ==== Sys2Proof/Machine/Kv.lean ====
section
/-! DEFINITION. KV pools (R279 to R282, R300) and the KV commands (R251 to R255): keys, free lists, aliases and stream holds. A pool
operation runs whole or, where an address faults, not at all. -/

set_option linter.unusedVariables false

namespace Sys2Proof.Machine

/-! ## Bytes at virtual addresses, at their homes -/

/-- The location of an engine's, Loupe's or the dispatcher's access in a context: Carafe is not reached so (R315). -/
def State.vLoc (s : State) (ctx va : Nat) (n : Need) : Except Nat Nat :=
  match s.xlateCtx ctx va n with
  | .error f => .error (engStatus f)
  | .ok loc => match placeOf loc with
    | .carafe _ _ => .error 3
    | _ => .ok loc

/-- A part of a page reached so: its location, or the status of the first byte that faults. -/
def State.vPart (s : State) (ctx va part : Nat) (n : Need) : Except Nat Nat :=
  match s.vLoc ctx va n with
  | .error e => .error e
  | .ok loc => match s.badByte n loc part with
    | some (f, _) => .error (engStatus f)
    | none => .ok loc

/-- Consecutive bytes in a context, cut at pages; the status of the first fault (R243). -/
def State.vRead (s : State) (ctx : Nat) : Nat → Nat → Nat → Except Nat (List Byte)
  | 0, _, _ => .ok []
  | fuel + 1, va, n =>
    if n = 0 then .ok []
    else
      let part := Nat.min n (65536 - va % 65536)
      match s.vPart ctx va part { r := true } with
      | .error e => .error e
      | .ok loc =>
        match State.vRead s ctx fuel (va + part) (n - part) with
        | .error e => .error e
        | .ok r => .ok (s.rdBytes loc part ++ r)

/-- Every byte of a span may be written. -/
def State.vCheck (s : State) (ctx : Nat) (n : Need) : Nat → Nat → Nat → Option Nat
  | 0, _, _ => none
  | fuel + 1, va, len =>
    if len = 0 then none
    else
      let part := Nat.min len (65536 - va % 65536)
      match s.vPart ctx va part n with
      | .error e => some e
      | .ok _ => State.vCheck s ctx n fuel (va + part) (len - part)

/-- Write at the homes, up to the first fault; its status. A part of a page in motion waits until the page has landed (R326). -/
def State.vWrite (s : State) (c ctx : Nat) : Nat → Nat → List Byte → Except Nat State
  | 0, _, _ => .ok s
  | fuel + 1, va, bs =>
    if bs.isEmpty then .ok s
    else
      let part := Nat.min bs.length (65536 - va % 65536)
      match s.vPart ctx va part { w := true } with
      | .error e => .error e
      | .ok loc =>
        let s1 := if s.pageMoving ctx va then s.stall c 0 (some (ctx, va)) (bs.take part) else s.homeWrite c loc (bs.take part)
        State.vWrite s1 c ctx fuel (va + part) (bs.drop part)

/-- A write that waits may be made: its page has landed, and its region has left REBUILD (R326, R335). -/
def State.unstalled (s : State) (w : StalledWrite) : Bool :=
  match w.virt with
  | some (ctx, va) => !s.pageMoving ctx va
  | none => !s.inRebuild w.loc && !s.behindStalled w.loc w.bytes.length

/-- The writes that wait are made in their order, each once it may be. One whose address no longer translates is lost; DESIGN CHOICE (log 104). -/
def State.unstall (s : State) : State :=
  if s.stalled.isEmpty then s
  else s.stalled.foldl (fun (t : State) w =>
    if !t.unstalled w then { t with stalled := t.stalled ++ [w] }
    else match w.virt with
      | none => t.homePut w.core w.loc w.bytes
      | some (ctx, va) => (match t.vPart ctx va w.bytes.length { w := true } with
        | .ok loc => t.homeWrite w.core loc w.bytes
        | .error _ => t)) { s with stalled := [] }

/-! ## The pool -/

/-- A state and a status: what a pool operation runs over. -/
abbrev KvM := StateT State (Except Nat)

/-- The descriptor of R280. -/
structure Pool where
  ctx : Nat
  core : Nat
  desc : Nat
  itab : Nat
  hat : Nat
  blkbase : Nat
  nblk : Nat
  nalias : Nat
  nbkt : Nat
  ppb : Nat
  pevt : Nat
  deriving DecidableEq, Repr

/-- An inverted-table or alias entry (R279); `tgt` is HOLD on a block entry and the target block on an alias. -/
structure KEnt where
  seq : Nat
  lblk : Nat
  ref : Nat
  st : Nat
  tgt : Nat
  ovf : Nat
  deriving DecidableEq, Repr

def kvNone : Nat := 0xFFFFFFFF

def Pool.esize (p : Pool) : Nat := 65536 / p.ppb

def kRead (p : Pool) (va n : Nat) : KvM (List Byte) := fun s =>
  match s.vRead p.ctx (pagesOf n) va n with
  | .error e => .error e
  | .ok b => .ok (b, s)

/-- The status of a pool operation that must wait before it writes: no status of R241. -/
def kvWaits : Nat := 99

def kWrite (p : Pool) (va : Nat) (bs : List Byte) : KvM Unit := fun s =>
  if s.writeHeld p.ctx va bs.length then .error kvWaits
  else match s.vWrite p.core p.ctx (pagesOf bs.length) va bs with
    | .error e => .error e
    | .ok t => .ok ((), t)

/-- A command whose pool operation ended with an error: it waits, or it ends with the error as its status. -/
def Cmd.kvError (cmd : Cmd) (e : Nat) : Cmd :=
  if e = kvWaits then cmd else { cmd with status := addStatus cmd.status e, finished := true }

def isPow2 (n : Nat) : Bool := n != 0 && decide (2 ^ Nat.log2 n = n)

/-- Read a descriptor; one that breaks a limit is bad (R280, R239). -/
def State.readPool (s : State) (c ctx desc : Nat) : Except Nat Pool :=
  if desc % 64 ≠ 0 then .error 1
  else match s.vRead ctx 2 desc 64 with
    | .error e => .error e
    | .ok bs =>
      let w (i : Nat) : Nat := ofBytes ((bs.drop (8 * i)).take 8)
      if w 0 % 64 ≠ 0 ∨ w 1 % 64 ≠ 0 ∨ w 2 % 65536 ≠ 0 ∨ w 3 % 2 ^ 32 = 0 ∨ 2 ^ 31 < w 3 % 2 ^ 32 ∨ isPow2 (w 4 % 2 ^ 32) = false
          ∨ fld (w 4) 33 32 = 3 ∨ fld (w 4) 63 34 ≠ 0 ∨ fld (w 7) 63 8 ≠ 0 then .error 1
      else .ok { ctx := ctx, core := c, desc := desc, itab := w 0, hat := w 1, blkbase := w 2, nblk := w 3 % 2 ^ 32, nalias := w 3 / 2 ^ 32,
                 nbkt := w 4 % 2 ^ 32, ppb := 16 * 2 ^ fld (w 4) 33 32, pevt := w 7 % 256 }

def getEnt (p : Pool) (i : Nat) : KvM KEnt := do
  let n := ofBytes (← kRead p (p.itab + 16 * i) 16)
  pure { seq := fld n 23 0, lblk := fld n 47 24, ref := fld n 59 48, st := fld n 62 60, tgt := fld n 95 64, ovf := fld n 127 96 }

def putEnt (p : Pool) (i : Nat) (e : KEnt) : KvM Unit :=
  kWrite p (p.itab + 16 * i)
    (toBytes 16 (e.seq + e.lblk * 2 ^ 24 + e.ref * 2 ^ 48 + e.st * 2 ^ 60 + e.tgt * 2 ^ 64 + e.ovf * 2 ^ 96))

/-- The 32-bit counts and heads of words 5 and 6: 0 FREE, 1 RESV, 2 FREEHEAD, 3 AFREEHEAD. -/
def getCnt (p : Pool) (i : Nat) : KvM Nat := do pure (ofBytes (← kRead p (p.desc + 40 + 4 * i) 4))
def putCnt (p : Pool) (i v : Nat) : KvM Unit := kWrite p (p.desc + 40 + 4 * i) (toBytes 4 v)

/-! ## Keys (R281) -/

def Pool.bucket (p : Pool) (sq lb : Nat) : Nat := fmix32 (sq ^^^ ((lb * 0x9E3779B9) % 2 ^ 32)) % p.nbkt

def getSlots (p : Pool) (b : Nat) : KvM (List Nat) := do
  let bs ← kRead p (p.hat + 32 * b) 32
  pure ((List.range 8).map (fun i => ofBytes ((bs.drop (4 * i)).take 4)))

def putSlot (p : Pool) (b i v : Nat) : KvM Unit := kWrite p (p.hat + 32 * b + 4 * i) (toBytes 4 v)

/-- The entries of an overflow chain from one on. -/
def chainFrom (p : Pool) : Nat → Nat → KvM (List Nat)
  | 0, _ => pure []
  | fuel + 1, i =>
    if i = kvNone then pure []
    else do
      let e ← getEnt p i
      let r ← chainFrom p fuel e.ovf
      pure (i :: r)

def Pool.size (p : Pool) : Nat := p.nblk + p.nalias

/-- The slots of a bucket and its chain after slot 7. -/
def bucketChain (p : Pool) (b : Nat) : KvM (List Nat × List Nat) := do
  let ss ← getSlots p b
  let c ← chainFrom p p.size (ss.getD 7 kvNone)
  pure (ss, c.drop 1)

/-- The first of some entries whose key and state match. -/
def firstKey (p : Pool) (sq lb : Nat) (ok : Nat → Bool) : List Nat → KvM (Option Nat)
  | [] => pure none
  | i :: r => do
    let e ← getEnt p i
    if ok e.st && e.seq == sq && e.lblk == lb then pure (some i) else firstKey p sq lb ok r

def findKey (p : Pool) (sq lb : Nat) (ok : Nat → Bool) : KvM (Option Nat) := do
  let r ← bucketChain p (p.bucket sq lb)
  firstKey p sq lb ok (r.1.filter (fun i => i != kvNone) ++ r.2)

/-- A lookup finds the first LIVE or ALIAS entry whose key matches. -/
def kvLookup (p : Pool) (sq lb : Nat) : KvM (Option Nat) := findKey p sq lb (fun st => st == 1 || st == 4)

def setOvf (p : Pool) (i v : Nat) : KvM Unit := do
  let e ← getEnt p i
  putEnt p i { e with ovf := v }

/-- Inserting takes the first empty slot, or appends to the chain. -/
def insertKey (p : Pool) (i : Nat) : KvM Unit := do
  let e ← getEnt p i
  putEnt p i { e with ovf := kvNone }
  let b := p.bucket e.seq e.lblk
  let r ← bucketChain p b
  match (List.range 8).find? (fun j => r.1.getD j kvNone == kvNone) with
  | some j => putSlot p b j i
  | none => setOvf p (r.2.getLastD (r.1.getD 7 0)) i

/-- The entry before one in a chain. -/
def prevIn : List Nat → Nat → Option Nat
  | a :: b :: r, i => if b = i then some a else prevIn (b :: r) i
  | _, _ => none

/-- Removing an entry from a slot moves the chain's first entry into that slot. -/
def removeKey (p : Pool) (i : Nat) : KvM Unit := do
  let e ← getEnt p i
  let b := p.bucket e.seq e.lblk
  let r ← bucketChain p b
  match (List.range 8).find? (fun j => r.1.getD j kvNone == i) with
  | some j =>
    match r.2 with
    | [] => putSlot p b j kvNone
    | h :: _ =>
      putSlot p b j h
      if j = 7 then pure ()
      else do
        let eh ← getEnt p h
        setOvf p (r.1.getD 7 0) eh.ovf
        setOvf p h kvNone
  | none =>
    match prevIn (r.1.getD 7 kvNone :: r.2) i with
    | some q => setOvf p q e.ovf
    | none => pure ()

/-! ## Pool operations (R282) -/

/-- A block returns to the head of the free list. -/
def pushFree (p : Pool) (i : Nat) : KvM Unit := do
  let e ← getEnt p i
  let h ← getCnt p 2
  putEnt p i { e with st := 0, ref := 0, ovf := h }
  putCnt p 2 i
  putCnt p 0 ((← getCnt p 0) + 1)

/-- Take the head of the free list for a key, in a state; none when the pool is dry. -/
def takeFree (p : Pool) (sq lb st : Nat) : KvM (Option Nat) := do
  let h ← getCnt p 2
  if h = kvNone then pure none
  else
    let e ← getEnt p h
    putCnt p 2 e.ovf
    putCnt p 0 ((← getCnt p 0) - 1)
    putEnt p h { seq := sq, lblk := lb, ref := if st = 1 then 1 else 0, st := st, tgt := 0, ovf := kvNone }
    insertKey p h
    pure (some h)

/-- Allocation: a RESERVED entry with the key first, else the free list. -/
def kvAlloc (p : Pool) (sq lb : Nat) : KvM (Option Nat) := do
  match ← findKey p sq lb (fun st => st == 3) with
  | some i =>
    let e ← getEnt p i
    putEnt p i { e with st := 1, ref := 1 }
    putCnt p 1 ((← getCnt p 1) - 1)
    pure (some i)
  | none => takeFree p sq lb 1

/-- A reservation of an admission (R286). -/
def kvReserve (p : Pool) (sq lb : Nat) : KvM (Option Nat) := do
  match ← takeFree p sq lb 3 with
  | some i =>
    putCnt p 1 ((← getCnt p 1) + 1)
    pure (some i)
  | none => pure none

/-- A RESERVED entry returns to the head of the free list. -/
def kvUnreserve (p : Pool) (i : Nat) : KvM Unit := do
  removeKey p i
  putCnt p 1 ((← getCnt p 1) - 1)
  pushFree p i

def freeAlias (p : Pool) (i : Nat) : KvM Unit := do
  let h ← getCnt p 3
  putEnt p i { seq := 0, lblk := 0, ref := 0, st := 0, tgt := 0, ovf := h }
  putCnt p 3 i

/-- A new alias gives one more key to a block; its REF counts it. -/
def newAlias (p : Pool) (sq lb blk : Nat) : KvM Bool := do
  let h ← getCnt p 3
  if h = kvNone then pure false
  else
    let e ← getEnt p h
    putCnt p 3 e.ovf
    putEnt p h { seq := sq, lblk := lb, ref := 0, st := 4, tgt := blk, ovf := kvNone }
    insertKey p h
    let b ← getEnt p blk
    putEnt p blk { b with ref := b.ref + 1 }
    pure true

/-- REF has reached 0: FREE when HOLD is 0, else DEFERRED. -/
def kvZero (p : Pool) (i : Nat) : KvM Unit := do
  removeKey p i
  let e ← getEnt p i
  if e.tgt % 256 = 0 then pushFree p i else putEnt p i { e with st := 2, ref := 0, ovf := kvNone }

/-- The alias of lowest index that refers to a block. -/
def firstAlias (p : Pool) (blk : Nat) : List Nat → KvM (Option Nat)
  | [] => pure none
  | i :: r => do
    let e ← getEnt p i
    if e.st = 4 ∧ e.tgt = blk then pure (some i) else firstAlias p blk r

/-- Drop one reference: the key that an entry holds. -/
def kvDropEnt (p : Pool) (i : Nat) : KvM Unit := do
  let e ← getEnt p i
  if e.st = 4 then
    removeKey p i
    freeAlias p i
    let b ← getEnt p e.tgt
    putEnt p e.tgt { b with ref := b.ref - 1 }
    if b.ref ≤ 1 then kvZero p e.tgt else pure ()
  else if 1 < e.ref then
    match ← firstAlias p i ((List.range p.nalias).map (fun j => p.nblk + j)) with
    | some a =>
      let ea ← getEnt p a
      removeKey p a
      freeAlias p a
      removeKey p i
      let e2 ← getEnt p i
      putEnt p i { e2 with seq := ea.seq, lblk := ea.lblk, ref := e2.ref - 1 }
      insertKey p i
    | none => putEnt p i { e with ref := e.ref - 1 }
  else
    putEnt p i { e with ref := 0 }
    kvZero p i

/-- Logical blocks of a sequence that some entries name, from one on. -/
def keysFrom (p : Pool) (sq first : Nat) : List Nat → KvM (List Nat)
  | [] => pure []
  | i :: r => do
    let e ← getEnt p i
    let t ← keysFrom p sq first r
    pure (if (e.st == 1 || e.st == 4) && e.seq == sq && decide (first ≤ e.lblk) then insertRank (fun x => [x]) e.lblk t else t)

def dropKeys (p : Pool) (sq : Nat) : List Nat → KvM Nat
  | [] => pure 0
  | lb :: r => do
    match ← kvLookup p sq lb with
    | some i =>
      kvDropEnt p i
      pure ((← dropKeys p sq r) + 1)
    | none => dropKeys p sq r

/-- Drop every reference of a sequence whose first position is at or above one, in ascending logical blocks (R255, R300). -/
def kvDropFrom (p : Pool) (sq pos : Nat) : KvM Nat := do
  let ks ← keysFrom p sq ((pos + p.ppb - 1) / p.ppb) (List.range p.size)
  dropKeys p sq ks.eraseDups

/-- The block behind an entry. -/
def blockBehind (e : KEnt) (i : Nat) : Nat := if e.st = 4 then e.tgt else i

/-- Lower a block's HOLD; a DEFERRED block whose HOLD reaches 0 becomes FREE. -/
def kvUnhold (p : Pool) (i : Nat) : KvM Unit := do
  let e ← getEnt p i
  putEnt p i { e with tgt := e.tgt - 1 }
  if e.st = 2 ∧ e.tgt ≤ 1 then pushFree p i else pure ()

/-- Raise a block's HOLD, false when it stands at 255. -/
def kvHold (p : Pool) (i : Nat) : KvM Bool := do
  let e ← getEnt p i
  if 255 ≤ e.tgt % 256 then pure false
  else
    putEnt p i { e with tgt := e.tgt + 1 }
    pure true

def kvCopy (p : Pool) (src dst n : Nat) : KvM Unit := do
  let bs ← kRead p (p.blkbase + 65536 * src) n
  kWrite p (p.blkbase + 65536 * dst) bs

/-! ## KVAPP (R253) -/

/-- Append one position; false when no block is free. -/
def kvAppend (p : Pool) (sq pos : Nat) (entry : List Byte) : KvM Bool := do
  let lb := pos / p.ppb
  let sl := pos % p.ppb
  let blk ← match ← kvLookup p sq lb with
    | none => kvAlloc p sq lb
    | some i =>
      let e ← getEnt p i
      let b := blockBehind e i
      let eb ← getEnt p b
      if 1 < eb.ref then
        -- copy on write: the key leaves the old block and takes the new one
        match ← findKey p sq lb (fun st => st == 3) with
        | some r =>
          kvDropEnt p i
          let er ← getEnt p r
          putEnt p r { er with st := 1, ref := 1 }
          putCnt p 1 ((← getCnt p 1) - 1)
          kvCopy p b r (sl * p.esize)
          pure (some r)
        | none =>
          if (← getCnt p 2) = kvNone then pure none
          else
            kvDropEnt p i
            match ← takeFree p sq lb 1 with
            | some n =>
              kvCopy p b n (sl * p.esize)
              pure (some n)
            | none => pure none
      else pure (some b)
  match blk with
  | none => pure false
  | some b =>
    kWrite p (p.blkbase + 65536 * b + sl * p.esize) entry
    pure true

/-- One position of a KVAPP. -/
def State.kvappStep (s : State) (c : Nat) (cmd : Cmd) (b : BitVec 512) : State × Cmd :=
  let ctx := (s.core c).ctx
  let i := cmd.count
  match s.readPool c ctx (bfld b 3 55 0) with
  | .error e => (s, { cmd with status := addStatus cmd.status e, finished := true })
  | .ok p =>
    let r := s.engGet c cmd.rdcMark ((bfld b 6 63 0 + i * p.esize) % 2 ^ 64) p.esize
    match r.2.2 with
    | some f => (r.1, { cmd with status := addStatus cmd.status (engStatus f), finished := true })
    | none =>
      match (kvAppend p (bfld b 4 23 0) (bfld b 4 55 32 + i) r.2.1).run r.1 with
      | .error e => (r.1, cmd.kvError e)
      | .ok (false, _) => (r.1, { cmd with status := addStatus cmd.status 8, finished := true })
      | .ok (true, t) => (t, { cmd with count := i + 1, pay := cmd.pay + p.esize, finished := decide (bfld b 5 15 0 ≤ i + 1) })

/-! ## KVFORK (R254) and KVDROP (R255) -/

def anyKey (p : Pool) (sq : Nat) : List Nat → KvM Bool
  | [] => pure false
  | i :: r => do
    let e ← getEnt p i
    if (e.st == 1 || e.st == 4) && e.seq == sq then pure true else anyKey p sq r

/-- Fork logical blocks from `lb` on; the number of blocks that it copied, an error status undoing the whole. A copy takes a free block:
CHILD's RESERVED entries stay as they are (R254). -/
def kvForkFrom (p : Pool) (sq child : Nat) : Nat → Nat → Nat → KvM Nat
  | 0, _, st => pure st
  | n + 1, lb, st => do
    match ← kvLookup p sq lb with
    | none => throw 7
    | some i =>
      let e ← getEnt p i
      let b := blockBehind e i
      let eb ← getEnt p b
      if eb.ref < 4095 then
        if ← newAlias p child lb b then kvForkFrom p sq child n (lb + 1) st else throw 10
      else
        match ← takeFree p child lb 1 with
        | none => throw 10
        | some nb =>
          kvCopy p b nb 65536
          kvForkFrom p sq child n (lb + 1) (st + 1)

/-- KVFORK as one pool operation: an error changes nothing. -/
def State.kvforkRun (s : State) (c : Nat) (cmd : Cmd) (b : BitVec 512) : State × Cmd :=
  match s.readPool c (s.core c).ctx (bfld b 3 55 0) with
  | .error e => (s, { cmd with status := addStatus cmd.status e, finished := true })
  | .ok p =>
    let n := (bfld b 4 55 32 + p.ppb - 1) / p.ppb
    match (do
        if ← anyKey p (bfld b 5 23 0) (List.range p.size) then throw 1
        kvForkFrom p (bfld b 4 23 0) (bfld b 5 23 0) n 0 0 : KvM Nat).run s with
    | .error e => (s, cmd.kvError e)
    | .ok (n9, t) => (t, { cmd with status := addStatus cmd.status (if n9 = 0 then 0 else 9), count := n, pay := 65536 * n9, finished := true })

/-- KVDROP as one pool operation. -/
def State.kvdropRun (s : State) (c : Nat) (cmd : Cmd) (b : BitVec 512) : State × Cmd :=
  match s.readPool c (s.core c).ctx (bfld b 3 55 0) with
  | .error e => (s, { cmd with status := addStatus cmd.status e, finished := true })
  | .ok p =>
    match (kvDropFrom p (bfld b 4 23 0) (bfld b 4 55 32)).run s with
    | .error e => (s, cmd.kvError e)
    | .ok (n, t) => (t, { cmd with count := n, finished := true })

/-! ## KVS (R252): holds, rows and tags. `count` is the next position, `work` the block held, if any. -/

def kvsNpos (b : BitVec 512) : Nat := bfld b 5 15 0
def kvsTile (b : BitVec 512) (i : Nat) : Nat := (bfld b 5 19 16 + i / 32) % 16

/-- Row i of the stream, and its score. -/
def State.kvsRow (s : State) (c : Nat) (cmd : Cmd) (b : BitVec 512) (p : Pool) (blk i : Nat) : State × Option Nat :=
  let pos := bfld b 4 55 32 + i
  let va := p.blkbase + 65536 * blk + (pos % p.ppb) * p.esize + (if bfld b 5 20 20 = 1 then p.esize / 2 else 0) + bfld b 5 47 32
  match s.vRead p.ctx 2 va 256 with
  | .error e => (s, some e)
  | .ok bs =>
    let s1 := s.modCore c (fun k =>
      let n := kvsTile b i
      let x := k.t.getD n {}
      { k with t := k.t.set n (x.fillRow (i % 32) (BitVec.ofNat 64 (2 ^ 64 - 1)) (BitVec.ofNat 2048 (ofBytes bs))) })
    if bfld b 6 55 0 = 0 then (s1, none)
    else
      let a := bfld b 6 55 0 + 4 * pos
      let w := s1.engGet c cmd.rdcMark ((bfld b 7 63 0 + 4 * i) % 2 ^ 64) 4
      let o := w.1.engGet c cmd.rdcMark a 4
      match w.2.2.orElse (fun _ => o.2.2) with
      | some f => (o.1, some (engStatus f))
      | none =>
        let z := o.1.cmdPut c cmd a (toBytes 4 (encF32 (Num.add (decF32 (ofBytes o.2.1)) (decF32 (ofBytes w.2.1))).1))
        (z.1, z.2.2.map engStatus)

/-- The score of a position is to go where engine writes wait. -/
def State.scoreHeld (s : State) (c : Nat) (b : BitVec 512) (i : Nat) : Bool :=
  let a := bfld b 6 55 0 + 4 * (bfld b 4 55 32 + i)
  bfld b 6 55 0 != 0 && !localAddr a && s.writeHeld (s.core c).ctx a 4

/-- Rows of the held block while `go` holds of the position and its score may be written. -/
def State.kvsRows (s : State) (c : Nat) (b : BitVec 512) (p : Pool) (blk : Nat) (go : Nat → Bool) : Nat → Cmd → State × Cmd
  | 0, cmd => (s, cmd)
  | n + 1, cmd =>
    if cmd.finished || !go cmd.count || s.scoreHeld c b cmd.count then (s, cmd)
    else
      let r := s.kvsRow c cmd b p blk cmd.count
      match r.2 with
      | some e => (r.1, { cmd with status := addStatus cmd.status e, finished := true })
      | none => State.kvsRows r.1 c b p blk go n { cmd with count := cmd.count + 1, pay := cmd.pay + 256 }

/-- Position i is the last row of its tile. -/
def kvsTileEnd (b : BitVec 512) (i : Nat) : Bool := i % 32 == 31 || i + 1 == kvsNpos b

/-- Position i lies in the stream and in the block that position `i0` lies in. -/
def kvsSameBlock (b : BitVec 512) (p : Pool) (i0 i : Nat) : Bool :=
  decide (i < kvsNpos b) && (bfld b 4 55 32 + i) / p.ppb == (bfld b 4 55 32 + i0) / p.ppb

/-- What comes after rows of a held block: the last row of a tile, or the fall of the hold. -/
def State.kvsNext (s : State) (c : Nat) (b : BitVec 512) (p : Pool) (i0 : Nat) (cmd : Cmd) : State :=
  let s1 := s.setCmd c cmd
  let t := s1.now + 1 + Config.latency s1.fresh
  let e : Instr := if !cmd.finished && kvsSameBlock b p i0 cmd.count then .kvsTileReady c cmd.seq (kvsTile b cmd.count)
    else .streamHoldFall c cmd.seq
  (s1.at_ t e).tick1

/-- KV_STREAM_HOLD (R282, R252): the block of the next position is looked up and its HOLD raised, then its rows stream up to the last
row of a tile. A position with no entry ends the stream with NOTFOUND. -/
def State.kvsHold (s : State) (c seq : Nat) : State :=
  match (s.core c).cmd? seq with
  | none => s
  | some cmd =>
    match cmd.op, cmd.block, cmd.work with
    | .kvs _ _, some b, [] =>
      if cmd.finished || cmd.start.isNone then s
      else if (s.core c).frz then s.at_ (s.now + 1) (.kvStreamHold c seq)
      else
        match s.readPool c (s.core c).ctx (bfld b 3 55 0) with
        | .error e => s.setCmd c { cmd with status := addStatus cmd.status e, finished := true }
        | .ok p =>
          if p.esize / 2 ≤ bfld b 5 47 32 then s.setCmd c { cmd with status := addStatus cmd.status 1, finished := true }
          else
            match (do
                match ← kvLookup p (bfld b 4 23 0) ((bfld b 4 55 32 + cmd.count) / p.ppb) with
                | none => pure none
                | some i =>
                  let e ← getEnt p i
                  let h ← kvHold p (blockBehind e i)
                  pure (some (blockBehind e i, h)) : KvM (Option (Nat × Bool))).run s with
            | .error e => if e = kvWaits then s.at_ (s.now + 1) (.kvStreamHold c seq) else s.setCmd c (cmd.kvError e)
            | .ok (none, _) => s.setCmd c { cmd with status := addStatus cmd.status 7, finished := true }
            | .ok (some (_, false), _) => s.at_ (s.now + 1) (.kvStreamHold c seq)
            | .ok (some (blk, true), t) =>
              let r := t.kvsRows c b p blk (fun i => kvsSameBlock b p cmd.count i && !kvsTileEnd b i) p.ppb { cmd with work := [blk] }
              r.1.kvsNext c b p cmd.count r.2
    | _, _, _ => s

/-- KVS_TILE_READY (R252): the last row of a tile is written and its ready tag set, once (R53); the rows of the block that follow stream. A stream that a
score held back goes on from its row. -/
def State.kvsReady (s : State) (c seq tile : Nat) : State :=
  match (s.core c).cmd? seq with
  | none => s
  | some cmd =>
    match cmd.op, cmd.block, cmd.work with
    | .kvs _ _, some b, [blk] =>
      if cmd.finished || kvsTile b cmd.count != tile then s
      else if (s.core c).frz || s.scoreHeld c b cmd.count then s.at_ (s.now + 1) (.kvsTileReady c seq tile)
      else
        match s.readPool c (s.core c).ctx (bfld b 3 55 0) with
        | .error e => (s.setCmd c { cmd with status := addStatus cmd.status e, finished := true }).at_ (s.now + 1) (.streamHoldFall c seq)
        | .ok p =>
          let i0 := cmd.count
          let r := if kvsTileEnd b i0 then s.kvsRows c b p blk (fun i => i == i0) 1 cmd else (s, cmd)
          let set := !r.2.finished && kvsTileEnd b i0
          let s1 := if set then (r.1.modCore c (fun k => k.markReady tile r.1.fresh)).tick1 else r.1
          let z := s1.kvsRows c b p blk (fun i => kvsSameBlock b p i0 i && !kvsTileEnd b i) p.ppb
            (if set then { r.2 with tregs := r.2.tregs.erase tile } else r.2)
          z.1.kvsNext c b p i0 z.2
    | _, _, _ => s

/-- STREAM_HOLD_FALL (R282): the hold falls as its own pool operation; the stream goes on with the next block or has ended. -/
def State.kvsFall (s : State) (c seq : Nat) : State :=
  match (s.core c).cmd? seq with
  | none => s
  | some cmd =>
    match cmd.op, cmd.block, cmd.work with
    | .kvs _ _, some b, [blk] =>
      if (s.core c).frz then s.at_ (s.now + 1) (.streamHoldFall c seq) else
      let cmd1 := { cmd with work := [], finished := cmd.finished || decide (kvsNpos b ≤ cmd.count) }
      let r : Except Nat State := match s.readPool c (s.core c).ctx (bfld b 3 55 0) with
        | .error e => .error e
        | .ok p => match (kvUnhold p blk).run s with
          | .error e => .error e
          | .ok (_, t) => .ok t
      if (match r with | .error e => e == kvWaits | .ok _ => false) then s.at_ (s.now + 1) (.streamHoldFall c seq) else
      let s2 := (match r with | .error _ => s | .ok t => t).setCmd c cmd1
      if cmd1.finished then s2 else (s2.at_ (s2.now + 1 + Config.latency s2.fresh) (.kvStreamHold c seq)).tick1
    | _, _, _ => s

end Sys2Proof.Machine
end

