-- ==== Sys2Proof/Machine/Loupe.lean ====
section
/-! DEFINITION. The speculation complex: Carafe (R15, R274, R275), Loupe sequence slots, admission, acceptance and commit (R276 to
R289, R292, R298), the Barista queue (R293), NRF (R257), and the shared rules of lp, bq and ps (R290, R291). -/

set_option linter.unusedVariables false

namespace Sys2Proof.Machine

/-! ## Records in Carafe (R274) -/

/-- A draft-tree node record; `depth` is the depth, 1 for a child of the root. -/
structure Node where
  slot : Nat
  token : Nat
  node : Nat
  parent : Nat
  depth : Nat
  pass : Nat
  last : Bool
  lseq : Nat
  step : Nat
  root : Nat
  qx : Nat
  cumq : Nat
  rsv : Bool
  bytes : BitVec 256
  deriving DecidableEq, Repr

def rootNode : Nat := 0xFFF

def parseNode (slot : Nat) (x : BitVec 256) : Node :=
  let n := x.toNat
  { slot := slot, token := fld n 23 0, node := fld n 43 32, parent := fld n 55 44, depth := fld n 59 56 + 1, pass := fld n 62 60,
    last := bitAt n 63, lseq := fld n 79 64, step := fld n 95 80, root := fld n 119 96, qx := fld n 159 128, cumq := fld n 191 160,
    rsv := fld n 31 24 = 0 && fld n 127 120 = 0 && fld n 255 192 = 0, bytes := x }

def State.carafeSlot (s : State) (j : Nat) : CarafeSlot := Tbl.getD s.carafe j {}
def State.setCarafe (s : State) (j : Nat) (x : CarafeSlot) : State := { s with carafe := Tbl.put s.carafe j x }

/-- The records that a sequence's step holds, in arrival order. -/
def State.nodesOf (s : State) (q : Nat) : List Node := (s.slot q).recs.map (fun j => parseNode j (s.carafeSlot j).bytes)

/-- A step's tree is complete (R275). -/
def treeComplete (ns : List Node) : Bool :=
  match ns.find? (fun x => x.last) with
  | some l => (List.range (l.node + 1)).all (fun i => ns.any (fun x => x.node == i))
  | none => false

/-- A record is early (R275). -/
def State.recEarly (s : State) (x : Node) : Bool :=
  let q := s.slot x.lseq
  match q.st with
  | .drafting => x.step != q.stepNo % 65536
  | _ => true

/-- Whether a record is the parent of another; NODE 4,095 has the number that names the root, and so has no children (R274). -/
def Node.parentOf (y x : Node) : Bool := x.parent != rootNode && y.node == x.parent

/-- A record is bad against the records present (R275). -/
def State.recBad (s : State) (x : Node) : Bool :=
  let q := s.slot x.lseq
  let ns := s.nodesOf x.lseq
  !x.rsv || !(x.parent == rootNode || decide (x.parent < x.node)) || (x.parent == rootNode && x.depth != 1)
  || ns.any (fun y => y.node == x.node) || decide (q.depth + 1 < x.depth)
  || decide (q.width + 1 ≤ (ns.filter (fun y => y.parent == x.parent)).length)
  || ns.any (fun y => (y.parentOf x && x.depth != y.depth + 1) || (x.parentOf y && y.depth != x.depth + 1))
  || (x.last && ns.any (fun y => y.last || decide (x.node < y.node))) || ns.any (fun y => y.last && decide (y.node < x.node))

/-- Bytes land in a free slot; at 32 the record is taken or discarded (R274, R275). A taken record that completes the tree lets a held
admission act. `arr` is the logical cycle of the arrival (R15). -/
def State.carafeBytes (s : State) (arr j off : Nat) (bs : List Byte) : State :=
  let x := s.carafeSlot j
  let m := (2 ^ (8 * bs.length) - 1) * 2 ^ (8 * off)
  let y : CarafeSlot :=
    { x with bytes := (x.bytes &&& ~~~ (BitVec.ofNat 256 m)) ||| BitVec.ofNat 256 (ofBytes bs * 2 ^ (8 * off)),
             have_ := x.have_ ||| BitVec.ofNat 32 ((2 ^ bs.length - 1) * 2 ^ off) }
  if y.have_ ≠ BitVec.allOnes 32 then s.setCarafe j y
  else
    let r := parseNode j y.bytes
    if s.recEarly r then { s.setCarafe j {} with earlyCnt := sat32 (s.earlyCnt + 1) }
    else if s.recBad r then { s.setCarafe j {} with badCnt := sat32 (s.badCnt + 1) }
    else
      let q := s.slot r.lseq
      let s1 := (s.setCarafe j { y with taken := true, stepNo := q.stepNo, arrival := arr }).setSlot r.lseq { q with recs := q.recs ++ [j] }
      if q.admission.isSome && treeComplete (s1.nodesOf r.lseq) then
        (s1.at_ (s1.now + 1 + Config.latency s1.fresh) (.loupeAdmission r.lseq)).tick1
      else s1

/-- The arrival logical cycle of a store (R15): that of the writing core's gang as it lands, or for a store that no access of the package
made the package cycle. DESIGN CHOICE (log 101): the manual names no counter. -/
def State.arrivalCyc (s : State) (m : CarafeMsg) : Nat :=
  match m.who with
  | .access c _ _ => (s.core c).lcyc
  | _ => s.now

/-- A store has landed: the access that it comes from has performed, and its core knows it a crossing later. -/
def State.carafeDone (s : State) (m : CarafeMsg) : State :=
  match m.who with
  | .access c id i => s.pieceDone c id i (s.now + 40) []
  | _ => s

/-- Two stores of one core, which the bridge delivers in order (R12). -/
def CarafeMsg.samePair (m q : CarafeMsg) : Bool :=
  match m.who, q.who with
  | .access c _ _, .access d _ _ => c == d
  | _, _ => false

/-- A store lands, or is interlocked on an occupied slot behind the earlier ones (R15), and behind those of its core (R12). -/
def State.carafeLand (s : State) (m : CarafeMsg) : State :=
  if (s.carafeSlot m.slot).taken || s.interlocked.any (fun q => q.slot == m.slot || q.samePair m) then { s with interlocked := s.interlocked ++ [m] }
  else (s.carafeBytes (s.arrivalCyc m) m.slot m.off m.bytes).carafeDone m

/-- The store on its way that arrives with some bytes at a slot: the one that left first, or one that no access of the package made. -/
def State.carafeMsg (s : State) (j off : Nat) (bs : List Byte) : CarafeMsg :=
  (s.carafeOut.find? (fun m => m.slot == j && m.off == off && m.bytes == bs)).getD { slot := j, off := off, bytes := bs }

/-- CARAFE_STORE (R12, R15): a store arrives. -/
def State.carafeArrive (s : State) (j off : Nat) (bs : List Byte) : State :=
  let m := s.carafeMsg j off bs
  State.carafeLand { s with carafeOut := s.carafeOut.erase m } m

/-- The stores interlocked on a free slot land in their order, and those of their cores behind them. -/
def State.carafeRelease (s : State) (j : Nat) : State :=
  if (s.carafeSlot j).taken then s else s.interlocked.foldl (fun t q => t.carafeLand q) { s with interlocked := [] }

/-- A slot frees. -/
def State.carafeFree (s : State) (j : Nat) : State := (s.setCarafe j {}).carafeRelease j

/-! ## Steps (R278) and the DPOS pair (R283) -/

def lpStatus (n : Nat) : Nat := if n = 2 then 9 else if n = 3 then 2 else 1

/-- Token and FIN of a TOKBUF entry (R284), with the status of a fault. -/
def State.tokAt (s : State) (ctx buf pos : Nat) : Except Nat (Nat × Bool) :=
  match s.vRead ctx 2 (buf + 4 * pos) 4 with
  | .error e => .error e
  | .ok bs => .ok (fld (ofBytes bs) 23 0, bitAt (ofBytes bs) 31)

def dpos0 (p tok : Nat) : List Byte := toBytes 8 (p % 2 ^ 40 + tok * 2 ^ 40)
def dpos1 (depth width step : Nat) : List Byte := toBytes 8 (depth + width * 16 + (step % 2 ^ 32) * 2 ^ 32)

/-- The depth-table entry for an acceptance rate (R289): depth − 1 and width − 1. -/
def Ctx.depthFor (x : Ctx) (ar : Nat) : Nat × Nat :=
  let e := (x.dtab.getD (ar / 4096 % 16) 3).toNat
  (fld e 3 0, fld e 6 4)

/-- Publish depth and width for the slot's current step. -/
def State.publish (s : State) (q : Nat) : State :=
  let x := s.slot q
  let d := (s.ctx x.ctx).depthFor x.ar
  s.setSlot q { x with depth := d.1, width := d.2 }

/-- Both words leave for Eplia, or word 0 or word 1 alone; an address that faults takes nothing (log 21), and a page in motion takes them once
it has landed (R326). -/
def State.sendDpos (s : State) (q p tok : Nat) (w0 w1 : Bool) (lseq : Option Nat) : State :=
  let x := s.slot q
  match s.vLoc x.ctx x.dposaddr { w := true } with
  | .error _ => s
  | .ok loc =>
    if s.pageMoving x.ctx x.dposaddr then
      let s1 := if w0 then s.stall loupeAgent 0 (some (x.ctx, x.dposaddr)) (dpos0 p tok) else s
      if w1 then s1.stall loupeAgent 0 (some (x.ctx, x.dposaddr + 8)) (dpos1 x.depth x.width x.stepNo) else s1
    else
    let s1 := if w0 then s.bridgeSend loupeAgent (agentOf loc) loc (dpos0 p tok) none else s
    if w1 then s1.bridgeSend loupeAgent (agentOf loc) (loc + 8) (dpos1 x.depth x.width x.stepNo) lseq else s1

/-- The DPOS pair of an abandonment or a binding: P = LEN − 1 with TOKBUF's token. Where TOKBUF's entry cannot be read word 0 has no token, and
word 1 is written alone (R278, R289, log 21). -/
def State.dposIdle (s : State) (q : Nat) (w0 w1 : Bool) : State :=
  let x := s.slot q
  match s.tokAt x.ctx x.tokbuf (x.len - 1) with
  | .error _ => s.sendDpos q (x.len - 1) 0 false w1 none
  | .ok (t, _) => s.sendDpos q (x.len - 1) t w0 w1 none

/-- Every end of a step raises the step number, publishes a depth and a width for the next step and keeps the result record; then it frees
the step's records, so that a store interlocked on one of them meets the next step (R19, R278). -/
def State.endStep (s : State) (q : Nat) (r : LoupeRes) (st : LoupeState) (dw : Nat × Nat) : State :=
  let x := s.slot q
  let s1 := s.setSlot q { x with st := st, stepNo := (x.stepNo + 1) % 2 ^ 32, recs := [], branches := [], shrunk := false, admission := none,
                                 verified := none, res := some r, depth := dw.1, width := dw.2, wst := 0 }
  x.recs.foldl (fun t j => t.carafeFree j) s1

/-- The result record of a step that commits nothing. DESIGN CHOICE (log 114): its n, D, winner and t are 0; R292 gives no values for them. -/
def LoupeSlot.lostRes (x : LoupeSlot) (outcome flags : Nat) : LoupeRes :=
  { stepNo := x.stepNo, outcome := outcome, flags := flags, len := x.len, ar := x.ar, kvseq := x.kvseq }

/-- RESERVED entries that an admission made for branches return to the free list (R285 step 4, R278). -/
def releaseKeys (p : Pool) : List (Nat × Nat) → KvM Unit
  | [] => pure ()
  | (sq, lb) :: r => do
    match ← findKey p sq lb (fun st => st == 3) with
    | some i =>
      kvUnreserve p i
      releaseKeys p r
    | none => releaseKeys p r

/-- Logical blocks that a branch of depth δ needs (R286). -/
def leafBlocks (p : Pool) (len depth : Nat) : List Nat :=
  let a := len / p.ppb
  (List.range ((len + depth + p.ppb - 1) / p.ppb - a)).map (fun i => a + i)

def LoupeSlot.reservedKeys (x : LoupeSlot) (p : Pool) (ns : List Node) : List (Nat × Nat) :=
  x.branches.flatMap (fun b =>
    (leafBlocks p x.len (match ns.find? (fun y => y.node == b.1) with | some y => y.depth | none => 0)).map (fun lb => (b.2, lb)))

def State.freeReserved (s : State) (q : Nat) : State :=
  let x := s.slot q
  match s.readPool noCore x.ctx x.pool with
  | .error _ => s
  | .ok p => match (releaseKeys p (x.reservedKeys p (s.nodesOf q))).run s with
    | .error _ => s
    | .ok (_, t) => t

/-- The return of a step's reservations must wait for a page or a region of its pool (R326, R335). -/
def State.abandonWaits (s : State) (q : Nat) : Bool :=
  let x := s.slot q
  !x.branches.isEmpty && (match s.readPool noCore x.ctx x.pool with
    | .error _ => false
    | .ok p => (match (releaseKeys p (x.reservedKeys p (s.nodesOf q))).run s with
      | .error e => e == kvWaits
      | .ok _ => false))

/-- An abandonment (R278): reservations and records go, the step number rises, and the DPOS pair is written so that Eplia drafts again. -/
def State.abandon (s : State) (q outcome flags : Nat) (st : LoupeState) : State :=
  let x := s.slot q
  let s1 := if x.branches.isEmpty then s else s.freeReserved q
  (s1.endStep q (x.lostRes outcome flags) st ((s.ctx x.ctx).depthFor x.ar)).dposIdle q true (st != .stalled)

/-! ## The completion of an LPSUB (R242, R298) -/

/-- A fault of an LPSUB's own notification or completion word goes to the D record of the issuing task, while it is there (R242, R244). The
outcome itself is reported by the completion word alone; DEDUCED (log 92). -/
def State.lpFault (s : State) (core launch pc status : Nat) : State :=
  if (s.core core).bound && (s.core core).launch == launch then s.setDrec core pc status else s

/-- The outcome of an LPSUB (R242): the notification acts at once for the launch that issued it, and the completion word, a release, follows
the dirty lines of the die to their homes from PACKAGE scope up (R150). -/
def State.lpComplete (s : State) (sub : LpSub) (step status count : Nat) : State :=
  let b := sub.block
  let n := s.notifyAs sub.core sub.launch sub.ctx b
  let s1 := if n.2 then n.1.lpFault sub.core sub.launch sub.pc 3 else n.1
  if bCwaddr b = 0 then s1
  else
    let s2 := if 4 ≤ scopeRank (bCwscope b) then s1.rdcDrain 0 else s1
    { s2 with lpOut := s2.lpOut ++ [{ sub := sub, step := step, status := if n.2 then addStatus status 3 else status, count := count, mark := s2.nBridge }] }

/-- The arrival of an LPSUB on a byte barrier: it writes no payload bytes, so that n is 0 (R180, R242). -/
def State.lpArrive (s : State) (o : LpOut) (loc : Nat) : State :=
  let r := atomBar (ofBytes (s.rdBytes loc 8)) 0
  let s1 := match r.new with | some v => s.landWrite noCore loc (toBytes 8 v) | none => s
  if r.mark then s1.lpFault o.sub.core o.sub.launch o.sub.pc 5 else s1

/-- An LPSUB's completion word with its translation made: written, or on its way. What still follows is the second part. -/
def State.lpWord (s : State) (o : LpOut) (loc : Nat) : State × Option LpOut :=
  let abr := bAbr o.sub.block
  let word := toBytes 8 (o.status + Nat.min o.count (2 ^ 24 - 1) * 2 ^ 8 + (o.step % 2 ^ 32) * 2 ^ 32)
  match placeOf loc with
  | .remote pkg pa =>
    (if abr then s.request (.loupe o.sub.core o.sub.launch o.sub.pc) pkg 13 pa (toBytes 1 8 ++ toBytes 1 13 ++ toBytes 16 0)
      else s.sendStore .none loc word, none)
  | _ =>
    if homeDie loc = some 1 then
      (if abr then (s.rdcEvict 0 (lineOf loc), some { o with stage := 2, mark := s.now + 40 })
        else (s.bridgeSend loupeAgent (agentOf loc) loc word none, none))
    else (if abr then s.lpArrive o loc else s.landWrite noCore loc word, none)

/-- One cycle of an LPSUB's completion word: from PACKAGE scope up the lines before it have reached their homes, and at SURVIVABLE their
deltas are acknowledged (R150, R164). A fault writes nothing and goes to the D record (R242). -/
def State.lpOutStep (s : State) (o : LpOut) : State × Option LpOut :=
  let sc := bCwscope o.sub.block
  match o.stage with
  | 0 =>
    if scopeRank sc < 4 || s.written 0 o.mark then (s, some { o with stage := 1, mark := s.nDelta }) else (s, some o)
  | 1 =>
    if sc = 7 ∧ !s.deltasAcked o.mark ∨ s.writeHeld o.sub.ctx (bCwaddr o.sub.block) 8 then (s, some o)
    else match s.vLoc o.sub.ctx (bCwaddr o.sub.block) { r := bAbr o.sub.block, w := true } with
      | .error e => (if statusIsError o.status then s else s.lpFault o.sub.core o.sub.launch o.sub.pc e, none)
      | .ok loc => s.lpWord o loc
  | _ =>
    if s.now < o.mark then (s, some o)
    else match s.vLoc o.sub.ctx (bCwaddr o.sub.block) { r := true, w := true } with
      | .error e => (s.lpFault o.sub.core o.sub.launch o.sub.pc e, none)
      | .ok loc => (s.lpArrive o loc, none)

/-- One cycle of the completion words of LPSUBs, in the order of their outcomes. -/
def State.lpCycle (s : State) : State :=
  s.lpOut.foldl (fun t o =>
    let r := t.lpOutStep o
    let r2 := match r.2 with | some p => if o.stage = 0 ∧ p.stage = 1 then r.1.lpOutStep p else r | none => r
    { r2.1 with lpOut := r2.1.lpOut ++ r2.2.toList }) { s with lpOut := [] }

/-! ## Admission (R286) -/

def leavesOf (ns : List Node) : List Node := ns.filter (fun x => !ns.any (fun y => x.parentOf y))

def blockNeed (p : Pool) (len : Nat) (ns : List Node) : Nat := ((leavesOf ns).map (fun x => (leafBlocks p len x.depth).length)).sum

/-- FP32 patterns in the total order of R200, as naturals. -/
def f32Order (x : Nat) : Nat :=
  if fld x 30 23 = 255 ∧ fld x 22 0 ≠ 0 then 0
  else if bitAt x 31 then 2 ^ 31 - fld x 30 0 else 2 ^ 31 + 1 + fld x 30 0

/-- The node that SHRINK prunes next: greatest depth, lowest CUMQ, highest NODE. -/
def pruneNext (ns : List Node) : Option Node := leastBy (fun x => [64 - x.depth, f32Order x.cumq, 4096 - x.node]) ns

/-- Prune until the need fits; none when less than one node would be left. -/
def pruneTo (p : Pool) (len avail : Nat) : Nat → List Node → Option (List Node)
  | 0, _ => none
  | n + 1, ns =>
    if blockNeed p len ns ≤ avail then some ns
    else if ns.length ≤ 1 then none
    else match pruneNext ns with
      | some x => pruneTo p len avail n (ns.filter (fun y => y.node != x.node))
      | none => none

/-- What an admission decides. -/
inductive Admit where
  /-- its pool's pages are in motion, or its region in REBUILD (R326, R335) -/
  | wait
  | fail (status : Nat)
  | refuse (stalled : Bool)
  | keep (ns : List Node) (branches : List (Nat × Nat)) (s : State)

def reserveAll (p : Pool) : List (Nat × Nat) → KvM Unit
  | [] => pure ()
  | (sq, lb) :: r => do
    match ← kvReserve p sq lb with
    | some _ => reserveAll p r
    | none => throw 8

def brtSet (p : Pool) (brt : Nat) : List (Nat × Nat) → KvM Unit
  | [] => pure ()
  | (j, v) :: r => do
    kWrite p (brt + 8 * j) (toBytes 8 v)
    brtSet p brt r

/-- The admission of a complete tree: sized, pruned by the pool policy, reserved, and its leaves numbered. -/
def State.admitPlan (s : State) (q : Nat) (sub : LpSub) : Admit :=
  let x := s.slot q
  let ns := s.nodesOf q
  let nb := bfld sub.block 7 8 0
  let brt := bfld sub.block 6 55 0
  if nb < (leavesOf ns).length then .fail 1
  else match s.readPool noCore x.ctx x.pool, s.vRead x.ctx 2 brt (8 * nb) with
    | .error e, _ => .fail e
    | _, .error e => .fail e
    | .ok p, .ok tb =>
      match (getCnt p 0).run s with
      | .error e => .fail e
      | .ok (avail, _) =>
        let kept := if blockNeed p x.len ns ≤ avail then some ns else if x.poolpol = 0 then pruneTo p x.len avail 5000 ns else none
        match kept with
        | none => .refuse (x.poolpol != 2)
        | some ms =>
          let ls := (leavesOf ms).foldl (fun l y => insertRank (fun (z : Node) => [z.node]) y l) []
          let bs := (List.range ls.length).zip ls
          let word (j : Nat) : Nat := ofBytes ((tb.drop (8 * j)).take 8)
          let br := bs.map (fun z => (z.2.node, fld (word z.1) 23 0))
          let keys := bs.flatMap (fun z => (leafBlocks p x.len z.2.depth).map (fun lb => (fld (word z.1) 23 0, lb)))
          let ws := bs.map (fun z => (z.1, word z.1 - fld (word z.1) 43 32 * 2 ^ 32 + z.2.node * 2 ^ 32))
          match (do brtSet p brt ws; reserveAll p keys : KvM Unit).run s with
          | .error e => if e = kvWaits then .wait else .fail e
          | .ok (_, t) => .keep ms br t

/-- LOUPE_ADMISSION (R286). -/
def State.admission (s : State) (q : Nat) : State :=
  let x := s.slot q
  match x.st, x.admission with
  | .drafting, some sub =>
    if !treeComplete (s.nodesOf q) then s
    else match s.admitPlan q sub with
      | .wait => s.at_ (s.now + 1) (.loupeAdmission q)
      | .fail e => (s.setSlot q { x with admission := none }).lpComplete sub x.stepNo e 0
      | .refuse stalled =>
        let s1 := s.abandon q (if stalled then 2 else 1) 0 (if stalled then .stalled else .drafting)
        let ev := match s.readPool noCore x.ctx x.pool with | .ok p => p.pevt | .error _ => 0
        (if stalled then s1.setEvent x.ctx ev else s1).lpComplete sub x.stepNo 8 0
      | .keep ms br t =>
        let gone := x.recs.filter (fun j => !ms.any (fun y => y.slot == j))
        let y := { x with st := .admitted, admission := none, recs := x.recs.filter (fun j => !gone.contains j), branches := br,
                          shrunk := !gone.isEmpty, curMode := x.modeSet, curTopk := x.topk, curTopp := x.topp, curSeed := x.seed }
        (gone.foldl (fun u j => u.carafeFree j) (t.setSlot q y)).lpComplete sub x.stepNo 0 ms.length
  | _, _ => s

/-! ## Acceptance (R287, R288) -/

/-- A probability as read: a NaN, an infinity or a value below zero is +0 and is reported. -/
def cleanP (x : Nat) : Nat × Bool :=
  if fld x 30 23 = 255 then (0, true) else if bitAt x 31 then (0, decide (fld x 30 0 ≠ 0)) else (x, false)

/-- Row NODE + 1 (0 for the root) of a table, cleaned. -/
def State.pRow (s : State) (ctx base v row : Nat) : Except Nat (List Nat × Bool) :=
  match s.vRead ctx (pagesOf (4 * v)) (base + row * 4 * v) (4 * v) with
  | .error e => .error e
  | .ok bs =>
    let r := (wordsOf bs).map cleanP
    .ok (r.map (fun z => z.1), r.any (fun z => z.2))

def State.pElem (s : State) (ctx base v row y : Nat) : Except Nat (Nat × Bool) :=
  match s.vRead ctx 2 (base + row * 4 * v + 4 * y) 4 with
  | .error e => .error e
  | .ok bs => .ok (cleanP (ofBytes bs))

def addF (a b : Nat) : Nat := encF32 (Num.add (decF32 a) (decF32 b)).1

/-- A clean FP32 value times 2^149. -/
def f32Scaled (x : Nat) : Nat := if fld x 30 23 = 0 then fld x 22 0 else (2 ^ 23 + fld x 22 0) * 2 ^ (fld x 30 23 - 1)

/-- F(u): the ids kept by TOPK and TOPP (R288). -/
def filterSet (p : List Nat) (topk topp : Nat) : List Nat :=
  let c := ((List.range p.length).zip p).filter (fun z => decide (0 < z.2))
  let o := c.foldl (fun l z => insertRank (fun (w : Nat × Nat) => [2 ^ 32 - w.2, w.1]) z l) []
  let o := if topk = 0 then o else o.take topk
  (o.foldl (fun (a : List Nat × Nat × Bool) z =>
    if a.2.2 then a else let t := addF a.2.1 z.2; (a.1 ++ [z.1], t, decide (topp ≤ t))) ([], 0, false)).1

/-- sample(w, pos, d) of R288. -/
def sampleW (seed : Nat) (w : List Nat) (pos d : Nat) : Option Nat :=
  let sum := w.foldl addF 0
  if sum = 0 then none
  else
    let t := encF32 (Num.mul (.fin false (draw seed pos d) (-24)) (decF32 sum)).1
    let z := (List.range w.length).zip w
    let r := z.foldl (fun (a : Nat × Option Nat) y =>
      match a.2 with
      | some _ => a
      | none => let u := addF a.1 y.2; (u, if t < u then some y.1 else none)) (0, none)
    match r.2 with
    | some y => some y
    | none => ((z.filter (fun y => decide (0 < y.2))).getLast?).map (fun y => y.1)

/-- The outcome of an acceptance. -/
structure Accept where
  win : Option Node
  n : Nat
  t : Nat
  flags : Nat
  path : List Nat
  deriving DecidableEq, Repr

/-- What decides acceptance besides the tree. -/
structure AcceptIn where
  ctx : Nat
  exact : Bool
  seed : Nat
  topk : Nat
  topp : Nat
  len : Nat
  v : Nat
  pbase : Nat
  qbase : Nat
  tok : Nat

def rowOf (p : Nat) : Nat := if p = rootNode then 0 else p + 1

/-- One node's test, after its parent's: accepted, and its flags (ROOTMISS 2, BADDIST 4, BADTOK 32). DESIGN CHOICE (log 113): where only some nodes
carry a ROOTTOK that is not the token, these alone fail, as the pseudocode of R287 has it; its prose fails every node. -/
def State.nodeTest (s : State) (a : AcceptIn) (x : Node) : Except Nat (Bool × Nat) :=
  if x.root ≠ a.tok then .ok (false, 2)
  else if a.v ≤ x.token then .ok (false, 32)
  else if a.exact then
    match s.pElem a.ctx a.pbase a.v (rowOf x.parent) x.token, s.pElem a.ctx a.qbase a.v (rowOf x.parent) x.token with
    | .error e, _ => .error e
    | _, .error e => .error e
    | .ok p, .ok q =>
      .ok (decide (draw a.seed (a.len + x.depth - 1) 0 * f32Scaled q.1 ≤ f32Scaled p.1 * 2 ^ 24), if p.2 || q.2 then 4 else 0)
  else
    match s.pRow a.ctx a.pbase a.v (rowOf x.parent) with
    | .error e => .error e
    | .ok p => .ok ((filterSet p.1 a.topk a.topp).contains x.token, if p.2 then 4 else 0)

/-- ok(c) of every node, in ascending NODE, with the union of the flags. -/
def State.nodeTests (s : State) (a : AcceptIn) : List Node → List Nat → Nat → Except Nat (List Nat × Nat)
  | [], oks, fl => .ok (oks, fl)
  | x :: r, oks, fl =>
    match s.nodeTest a x with
    | .error e => .error e
    | .ok z => State.nodeTests s a r (if z.1 && (x.parent == rootNode || oks.contains x.parent) then oks ++ [x.node] else oks) (fl ||| z.2)

/-- Tokens from a child of the root down to a node. -/
def pathTo (ns : List Node) : Nat → Node → List Nat
  | 0, _ => []
  | f + 1, x =>
    (match ns.find? (fun y => y.parentOf x) with
    | some y => pathTo ns f y
    | none => []) ++ [x.token]

/-- Whether a node, or the root, has children. -/
def hasChildren (ns : List Node) (win : Option Node) : Bool :=
  match win with
  | some w => ns.any (fun y => w.parentOf y)
  | none => ns.any (fun y => y.parent == rootNode)

/-- R287. -/
def State.accept_ (s : State) (a : AcceptIn) (ns0 : List Node) : Except Nat Accept :=
  let ns := ns0.foldl (fun l y => insertRank (fun (z : Node) => [z.node]) y l) []
  match s.nodeTests a ns [] 0 with
  | .error e => .error e
  | .ok (oks, fl) =>
    let win := leastBy (fun (x : Node) => [64 - x.depth, x.node]) (ns.filter (fun x => oks.contains x.node))
    let row := match win with | some x => x.node + 1 | none => 0
    let n := match win with | some x => x.depth | none => 0
    let pos := a.len + n
    let miss := bitAt fl 1
    match s.pRow a.ctx a.pbase a.v row with
    | .error e => .error e
    | .ok p =>
      let set (w : List Nat) : List Nat :=
        let f := filterSet p.1 a.topk a.topp
        (List.range w.length).map (fun y => if f.contains y then w.getD y 0 else 0)
      let fl1 := fl ||| (if p.2 then 4 else 0)
      let done (t : Option Nat) (f : Nat) : Except Nat Accept :=
        .ok { win := win, n := n, t := t.getD 0, flags := f ||| (if t.isNone then 8 else 0), path := (win.map (pathTo ns 17)).getD [] }
      if hasChildren ns win && !miss then
        if a.exact then
          match s.pRow a.ctx a.qbase a.v row with
          | .error e => .error e
          | .ok q =>
            let w := (p.1.zip q.1).map (fun z => let d := encF32 (Num.add (decF32 z.1) (decF32 z.2).neg).1; if bitAt d 31 then 0 else d)
            let fl2 := fl1 ||| (if q.2 then 4 else 0)
            match sampleW a.seed w pos 1 with
            | some t => done (some t) fl2
            | none => done (sampleW a.seed p.1 pos 2) (fl2 ||| 1)
        else done (sampleW a.seed (set p.1) pos 1) fl1
      else if a.exact then done (sampleW a.seed p.1 pos 1) fl1
      else done (sampleW a.seed (set p.1) pos 1) fl1

/-! ## The Barista queue (R293) -/

def State.bqSlot (s : State) (j : Nat) : BqSlot := Tbl.getD s.barista j {}
def State.setBq (s : State) (j : Nat) (x : BqSlot) : State := { s with barista := Tbl.put s.barista j x }
def State.bqFree (s : State) : Option Nat := (List.range 1024).find? (fun j => !(s.bqSlot j).used)

/-- Append a request; word 0 [7:0] takes the requester's context. -/
def State.bqAdd (s : State) (ctx : Nat) (req : BitVec 512) (flag : Option Nat) (noReply sampler : Bool) (lseq : Nat) : Option (State × Nat) :=
  match s.bqFree with
  | none => none
  | some j =>
    let r := BitVec.ofNat 512 (req.toNat / 256 * 256 + ctx % 64)
    some ({ s.setBq j { used := true, ctx := ctx, req := r, flag := flag, noReply := noReply, sampler := sampler, lseq := lseq } with
      bqOrder := s.bqOrder ++ [j] }, j)

/-- The Barista core answers a request: the reply, and then its flag; a sampler request gets its final token in TOKBUF and TFLAG, once the commit
that pushed it has published the next step's depth (R19). The answer frees the slot of a request that wants no reply; DESIGN CHOICE (log 115). -/
def State.bqServe (s : State) (j : Nat) (reply : BitVec 512) (token : Nat) : State :=
  let x := s.bqSlot j
  let s0 := { s with bqOrder := s.bqOrder.filter (fun i => i != j) }
  if !x.used || x.replied || !s.bqOrder.contains j then s
  else if x.sampler && (s.slot x.lseq).wst != 0 then s.at_ (s.now + 1) (.baristaRequestServe j reply (BitVec.ofNat 24 token))
  else if x.sampler then
    let q := s.slot x.lseq
    let a := q.tokbuf + 4 * fld x.req.toNat 191 128
    let s1 := match s0.vWrite noCore x.ctx 2 a (toBytes 4 (token % 2 ^ 24 + 2 ^ 31)) with | .ok t => t | .error _ => s0
    (s1.setBq j {}).modCtx x.ctx (fun c => { c with tflags := c.tflags ||| BitVec.ofNat 256 (2 ^ q.tflag) })
  else if x.noReply then s0.setBq j {}
  else
    let s1 := s0.setBq j { x with replied := true, reply := reply }
    match x.flag with
    | some f => s1.modCtx x.ctx (fun c => { c with tflags := c.tflags ||| BitVec.ofNat 256 (2 ^ f) })
    | none => s1

/-! ## The commit (R285, R289) -/

/-- AR after n of D (R289). -/
def nextAr (ar n d : Nat) : Nat :=
  let target : Nat := if d = 0 then 0 else Nat.min (n * 65536 / d) 65535
  ((ar : Int) + ((target : Int) - ar) / 16).toNat

def dropAll (p : Pool) : List Nat → KvM Unit
  | [] => pure ()
  | q :: r => do
    let _ ← kvDropFrom p q 0
    dropAll p r

/-- Whether a node is another or lies below it. -/
def belowNode (ns : List Node) (anc : Nat) : Nat → Nat → Bool
  | 0, _ => false
  | f + 1, n => n == anc || (match ns.find? (fun x => x.node == n) with
    | some x => x.parent != rootNode && belowNode ns anc f x.parent
    | none => false)

/-- Steps 1 to 6 of a commit, whole, or the status of a fault: the state with pool and TOKBUF changed, the acceptance and KVSEQ. DESIGN CHOICE
(log 112): the branches that lost drop their references in the order of their leaves, the old KVSEQ last, and then the RESERVED entries that are
left go back, which orders the free list; R285 gives no order. -/
def State.commitPlan (s : State) (q : Nat) (sub : LpSub) : Except Nat (State × Accept × Nat) :=
  let x := s.slot q
  let b := sub.block
  let ns := s.nodesOf q
  match s.tokAt x.ctx x.tokbuf (x.len - 1) with
  | .error e => .error e
  | .ok (tok, _) =>
    let a : AcceptIn := { ctx := x.ctx, exact := !x.curMode, seed := x.curSeed, topk := x.curTopk, topp := x.curTopp, len := x.len,
                          v := bfld b 3 55 32, pbase := bfld b 4 55 0, qbase := bfld b 5 55 0, tok := tok }
    match s.accept_ a ns, s.readPool noCore x.ctx x.pool, s.vCheck x.ctx { w := true } 2 x.dposaddr 16 with
    | .error e, _, _ => .error e
    | _, .error e, _ => .error (if e = 1 then 3 else e)
    | _, _, some e => .error e
    | .ok z, .ok p, none =>
      let wb := match z.win with
        | some w => ((x.branches.filter (fun y => belowNode ns w.node 17 y.1)).foldl (fun (m : Option (Nat × Nat)) y =>
            match m with | none => some y | some u => if y.1 < u.1 then some y else some u) none).map (fun y => y.2)
        | none => none
      let kvseq := wb.getD x.kvseq
      let others := (x.branches.map (fun y => y.2)).filter (fun y => some y != wb)
      let pool : KvM Unit := do
        match wb with
        | some w =>
          let _ ← kvDropFrom p w (x.len + z.n)
          dropAll p others
          let _ ← kvDropFrom p x.kvseq 0
          releaseKeys p (x.reservedKeys p ns)
        | none =>
          dropAll p others
          releaseKeys p (x.reservedKeys p ns)
        kWrite p (x.tokbuf + 4 * x.len) (z.path.flatMap (fun t => toBytes 4 (t + 2 ^ 31)))
        kWrite p (x.tokbuf + 4 * (x.len + z.n)) (toBytes 4 (z.t + (if x.sampler then 0 else 2 ^ 31)))
      match pool.run s with
      | .error e => .error e
      | .ok (_, t) => .ok (t, z, kvseq)

/-- LOUPE_COMMIT (R285): waits for FIN and, under SAMPLER, for a queue slot; then commits the step or abandons it. The step ends when
DPOS word 1 has arrived. -/
def State.commit (s : State) (q : Nat) : State :=
  let x := s.slot q
  match x.st, x.verified with
  | .committing, some sub =>
    let again := s.at_ (s.now + 1) (.loupeCommit q)
    if x.wst ≠ 0 then s
    else match s.tokAt x.ctx x.tokbuf (x.len - 1) with
      | .ok (_, false) => again
      | _ =>
        if x.sampler && s.bqFree.isNone then again
        else if s.pagesMoving x.ctx x.dposaddr 16 then again
        else match s.commitPlan q sub with
          | .error e => if e = kvWaits || s.abandonWaits q then again else (s.abandon q 3 (if x.shrunk then 16 else 0) .drafting).lpComplete sub x.stepNo e 0
          | .ok (t, z, kvseq) =>
            let d := (s.nodesOf q).foldl (fun m y => Nat.max m y.depth) 0
            let len := x.len + z.n + 1
            let ar := if bitAt z.flags 1 then x.ar else nextAr x.ar z.n d
            let r : LoupeRes := { stepNo := x.stepNo, outcome := 0, flags := z.flags ||| (if x.shrunk then 16 else 0), n := z.n, d := d,
                                  winner := match z.win with | some w => w.node | none => 0xFFFFFFFF, token := z.t, len := len, ar := ar,
                                  kvseq := kvseq }
            let s1 := if x.sampler then
                match t.bqAdd x.ctx (BitVec.ofNat 512 (q * 2 ^ 64 + (x.len + z.n) * 2 ^ 128 + z.t * 2 ^ 192)) none true true q with
                | some u => u.1
                | none => t
              else t
            -- LEN and KVSEQ advance (steps 5 and 6), and word 0 leaves (step 7)
            let s2 := s1.setSlot q { x with len := len, kvseq := kvseq, wst := 1, pend := r }
            match s2.vLoc x.ctx x.dposaddr { w := true } with
            | .error _ => s2
            | .ok loc => s2.bridgeSend loupeAgent (agentOf loc) loc (dpos0 (len - 1) z.t) (some q)
  | _, _ => s

/-- Step 8 of a commit: word 0 has been written on Eplia. AR takes its new value and word 1 leaves with the depth and width that the next
step will have, and with the next step's number (R19, R20, R285, R289). -/
def State.commitDepth (s : State) (q loc : Nat) : State :=
  let x := s.slot q
  let dw := (s.ctx x.ctx).depthFor x.pend.ar
  (s.setSlot q { x with ar := x.pend.ar, wst := 2, dw := dw }).bridgeSend loupeAgent (agentOf loc) (loc + 8) (dpos1 dw.1 dw.2 (x.stepNo + 1)) (some q)

/-- The end of a committed step: word 1 has been written, and the LPSUB's notification and completion word act. -/
def State.commitEnd (s : State) (q : Nat) : State :=
  let x := s.slot q
  match x.verified with
  | some sub => (s.endStep q x.pend .drafting x.dw).lpComplete sub x.stepNo 0 (x.pend.n + 1)
  | none => s

/-- A DPOS word of a commit has been written. -/
def State.commitNext (s : State) (q loc : Nat) : State :=
  match (s.slot q).st, (s.slot q).wst with
  | .committing, 1 => s.commitDepth q loc
  | .committing, 2 => s.commitEnd q
  | _, _ => s

/-- BRIDGE_DELIVERY (R12): the first transfer of a pair arrives when its time has come, by the window path (R161). At a Mirror region in
REBUILD it waits (R335). -/
def State.bridgeArrive (s : State) (src dst : Nat) : State :=
  match s.bridge.find? (fun m => m.src == src && m.dst == dst) with
  | none => s
  | some m =>
    if s.now < m.due then s
    else if s.inRebuild m.loc then s.at_ (s.now + 1) (.bridgeDelivery src dst)
    else
      let s1 := State.landWrite { s with bridge := s.bridge.erase m } noCore m.loc m.bytes
      match m.lseq with
      | some q => s1.commitNext q m.loc
      | none => s1

/-! ## lp operations (R292, R277) -/

/-- Status and value of an operation. -/
abbrev SpecOut := State × Nat × Nat

/-- An LPSUB block that breaks a limit is BAD. -/
def State.lpsubOk (s : State) (c : Nat) (b : BitVec 512) : Bool :=
  s.commonOk c b && bfld b 3 31 17 = 0 && bfld b 3 63 56 = 0 && bfld b 4 63 56 = 0 && bfld b 6 63 56 = 0 && bfld b 7 63 9 = 0
  && (if bfld b 3 16 16 = 0 then
        bfld b 3 55 32 = 0 && bfld b 4 63 0 = 0 && bfld b 5 63 0 = 0 && decide (1 ≤ bfld b 7 8 0) && decide (bfld b 7 8 0 ≤ 256)
      else decide (1 ≤ bfld b 3 55 32) && bfld b 6 63 0 = 0 && bfld b 7 63 0 = 0)

/-- The check of a named slot: UNBOUND, or PROT for another context's. -/
def State.lpSlot (s : State) (ctx q : Nat) : Option Nat :=
  let x := s.slot q
  if x.st = .unbound then some 10 else if x.ctx ≠ ctx then some 2 else none

def State.doLpsub (s : State) (c : Nat) (b : BitVec 512) (pc : Nat) : SpecOut :=
  let q := bfld b 3 15 0
  let x := s.slot q
  if !s.lpsubOk c b then (s, 1, 0)
  else match s.lpSlot (s.core c).ctx q with
    | some e => (s, e, 0)
    | none =>
      let sub : LpSub := { core := c, ctx := (s.core c).ctx, launch := (s.core c).launch, block := b, seq := x.stepNo, pc := pc }
      if bfld b 3 16 16 = 0 then
        if x.st ≠ .drafting ∨ x.admission.isSome then (s, 3, 0)
        else
          let s1 := s.setSlot q { x with admission := some sub }
          ((if treeComplete (s1.nodesOf q) then (s1.at_ (s1.now + 1 + Config.latency s1.fresh) (.loupeAdmission q)).tick1 else s1), 0, 0)
      else if x.st ≠ .admitted then (s, 3, 0)
      else (((s.setSlot q { x with st := .committing, verified := some sub }).at_ (s.now + 1 + Config.latency s.fresh) (.loupeCommit q)).tick1, 0, 0)

def State.doLpdep (s : State) (c : Nat) (t : U64) : SpecOut :=
  if 65536 ≤ t.toNat then (s, 1, 0)
  else match s.lpSlot (s.core c).ctx t.toNat with
    | some e => (s, e, 0)
    | none => (s, 0, (s.slot t.toNat).depth + 16 * (s.slot t.toNat).width)

/-- The result record (R292). -/
def LoupeRes.words (r : LoupeRes) : List Byte :=
  toBytes 8 (r.stepNo + r.outcome * 2 ^ 32 + r.flags * 2 ^ 40) ++ toBytes 8 (r.n + r.d * 2 ^ 8 + r.winner * 2 ^ 32) ++ toBytes 8 r.token
    ++ toBytes 8 r.len ++ toBytes 8 (r.ar + r.kvseq * 2 ^ 32) ++ List.replicate 24 0

def State.doLpres (s : State) (c off : Nat) (arg : U64) : SpecOut :=
  let q := fld arg.toNat 15 0
  match s.lpSlot (s.core c).ctx q with
  | some e => (s, e, 0)
  | none => match (s.slot q).res with
    | none => (s, 5, 0)
    | some r => (s.engineLand c (scratchLoc c off) r.words, 0, 0)

def State.doLprb (s : State) (c : Nat) (t : U64) : Option SpecOut :=
  let q := t.toNat
  if 65536 ≤ q then some (s, 1, 0)
  else match s.lpSlot (s.core c).ctx q with
    | some e => some (s, e, 0)
    | none =>
      let x := s.slot q
      match x.st with
      | .committing => some (s, 3, 0)
      | .stalled => some (((s.setSlot q { x with st := .drafting }).publish q).dposIdle q false true, 0, 0)
      | .drafting =>
        let s1 := s.abandon q 4 0 .drafting
        some ((match x.admission with | some sub => s1.lpComplete sub x.stepNo 15 0 | none => s1), 0, 0)
      | _ => if s.abandonWaits q then none else some (s.abandon q 4 (if x.shrunk then 16 else 0) .drafting, 0, 0)

/-- Bits of a slot block that must be 0 in every form (R276). -/
def lpsetRsv (b : BitVec 512) : Bool :=
  bfld b 0 31 30 = 0 && bfld b 3 63 56 = 0 && bfld b 4 63 56 = 0 && bfld b 5 63 56 = 0 && bfld b 6 63 24 = 0 && bfld b 7 63 0 = 0

/-- The limits of a sequence block (R276); `bind` for the fields that only a binding reads. -/
def lpsetOk (b : BitVec 512) (bind : Bool) : Bool :=
  lpsetRsv b && decide (bfld b 0 29 28 < 3) && decide (1 ≤ bfld b 1 63 32) && decide (bfld b 1 63 32 ≤ 0x3F800000)
  && bfld b 3 55 0 % 16 = 0
  && (!bind || (decide (1 ≤ bfld b 2 63 16) && decide (bfld b 2 63 16 ≤ 2 ^ 40)))

/-- The fields that any LPSET writes. -/
def LoupeSlot.setFields (x : LoupeSlot) (b : BitVec 512) : LoupeSlot :=
  { x with modeSet := bfld b 0 18 18 = 1, sampler := bfld b 0 19 19 = 1, tflag := bfld b 0 27 20, poolpol := bfld b 0 29 28,
           seed := bfld b 0 63 32, topk := bfld b 1 31 0, topp := bfld b 1 63 32, dposaddr := bfld b 3 55 0, tokbuf := bfld b 4 55 0,
           pool := bfld b 5 55 0 }

def LoupeSlot.busy (x : LoupeSlot) : Bool :=
  match x.st with
  | .admitted => true
  | .committing => true
  | .drafting => x.admission.isSome
  | _ => false

def State.doLpset (s : State) (c : Nat) (b : BitVec 512) : SpecOut :=
  let q := bfld b 0 15 0
  let x := s.slot q
  let ctx := (s.core c).ctx
  let other := x.st ≠ .unbound ∧ x.ctx ≠ ctx
  match bfld b 0 17 16 with
  | 0 =>
    if !lpsetOk b (x.st == .unbound) then (s, 1, 0)
    else if other then (s, 2, 0)
    else if x.busy then (s, 3, 0)
    else match s.readPool c ctx (bfld b 5 55 0) with
      | .error e => (s, lpStatus e, 0)
      | .ok _ =>
        if x.st = .unbound then
          let len := bfld b 2 63 16
          match s.tokAt ctx (bfld b 4 55 0) (len - 1), s.vCheck ctx { w := true } 2 (bfld b 3 55 0) 16 with
          | .error e, _ => (s, lpStatus e, 0)
          | _, some e => (s, lpStatus e, 0)
          | .ok _, none =>
            let y : LoupeSlot := ({ st := .drafting, ctx := ctx, ar := bfld b 2 15 0, len := len, kvseq := bfld b 6 23 0 } : LoupeSlot).setFields b
            (((s.setSlot q y).publish q).dposIdle q true true, 0, 0)
        else (s.setSlot q (x.setFields b), 0, 0)
  | 1 =>
    let es := (List.range 16).map (fun i => BitVec.ofNat 8 (fld b.toNat (64 + 8 * i + 7) (64 + 8 * i)))
    if es.any (fun e => e.getLsbD 7) || !lpsetRsv b then (s, 1, 0) else (s.modCtx ctx (fun k => { k with dtab := es }), 0, 0)
  | 2 =>
    if (List.range 7).any (fun i => bfld b (i + 1) 63 0 != 0) || !lpsetRsv b then (s, 1, 0)
    else if x.st = .unbound then (s, 10, 0)
    else if other then (s, 2, 0)
    else if x.busy then (s, 3, 0)
    else (x.recs.foldl (fun t j => t.carafeFree j) (s.setSlot q {}), 0, 0)
  | _ => (s, 1, 0)

/-! ## bq operations -/

def State.doBqpush (s : State) (c : Nat) (b : BitVec 512) : Option SpecOut :=
  (s.bqAdd (s.core c).ctx b none true false 0).map (fun r => (r.1, 0, r.2))
def State.doBqreq (s : State) (c : Nat) (b : BitVec 512) (arg : U64) : Option SpecOut :=
  (s.bqAdd (s.core c).ctx b (some (fld arg.toNat 7 0)) false false 0).map (fun r => (r.1, 0, r.2))
def State.doBqpop (s : State) (c off : Nat) (arg : U64) : SpecOut :=
  let j := fld arg.toNat 9 0
  let x := s.bqSlot j
  if !x.used || x.sampler || x.ctx != (s.core c).ctx then (s, 2, 0)
  else if !x.replied then (s, 4, 0)
  else ((((s.setBq j {}).engineLand c (scratchLoc c off) (toBytes 64 x.reply.toNat)).drainTo c 4 false).setMarks c 4, 0, 0)

/-! ## NRF (R257) -/

/-- NRF: the records of a pass from FIRST on, in ascending node index, packed from DST. -/
def State.nrfRun (s : State) (c : Nat) (cmd : Cmd) (b : BitVec 512) : State × Cmd :=
  let q := bfld b 3 15 0
  let x := s.slot q
  if x.st = .unbound ∨ x.ctx ≠ (s.core c).ctx ∨ dieOf c = 1 then (s, { cmd with status := addStatus cmd.status 3, finished := true })
  else
    let ns := ((s.nodesOf q).filter (fun y => y.pass == bfld b 3 18 16 && decide (bfld b 3 43 32 ≤ y.node))).foldl
      (fun l y => insertRank (fun (z : Node) => [z.node]) y l) []
    let w := s.cmdPut c cmd (bDst b) ((ns.take (bfld b 5 12 0)).flatMap (fun y => toBytes 32 y.bytes.toNat))
    (w.1, { cmd with count := w.2.1 / 32, pay := w.2.1, finished := true,
                     status := match w.2.2 with | some f => addStatus cmd.status (engStatus f) | none => cmd.status })

end Sys2Proof.Machine
end

