-- ==== Sys2Proof/Machine/Snap.lean ====
section
/-! DEFINITION. The snapshot tree (R294 to R297) and the units lp, bq and ps: what a trigger does and how an operation performs (R290,
R291). -/

set_option linter.unusedVariables false

namespace Sys2Proof.Machine

/-! ## The tree (R294) -/

structure Tree where
  p : Pool
  desc : Nat
  nodebase : Nat
  ctbase : Nat
  tbase : Nat
  nnode : Nat
  nctab : Nat
  salt : Nat
  g : Nat
  evring : Nat

/-- Addresses of a context, without a pool. -/
def ctxPool (c ctx : Nat) : Pool :=
  { ctx := ctx, core := c, desc := 0, itab := 0, hat := 0, blkbase := 0, nblk := 0, nalias := 0, nbkt := 1, ppb := 16, pevt := 0 }

def kWord (p : Pool) (va n : Nat) : KvM Nat := do pure (ofBytes (← kRead p va n))

/-- Read a tree descriptor; a field that breaks its limit is BAD. -/
def readTree (c ctx desc : Nat) : KvM Tree := do
  let p := ctxPool c ctx
  let bs ← kRead p desc 64
  let w (i : Nat) : Nat := ofBytes ((bs.drop (8 * i)).take 8)
  if w 3 % 2 ^ 32 < 2 ∨ 2 ^ 24 < w 3 % 2 ^ 32 ∨ 4 ≤ w 5 then throw 1
  else pure { p := p, desc := desc, nodebase := w 0, ctbase := w 1, tbase := w 2, nnode := w 3 % 2 ^ 32, nctab := w 3 / 2 ^ 32, salt := w 4,
              g := 64 * 2 ^ (w 5), evring := w 6 }

def Tree.at_ (t : Tree) (i off : Nat) : Nat := t.nodebase + 64 * i + off
def Tree.get (t : Tree) (i off n : Nat) : KvM Nat := kWord t.p (t.at_ i off) n
def Tree.set (t : Tree) (i off n v : Nat) : KvM Unit := kWrite t.p (t.at_ i off) (toBytes n v)

def Tree.handle (t : Tree) (i : Nat) : KvM Nat := do pure (i + (← t.get i 22 1) * 2 ^ 24)

/-- The hash of a block of tokens under its parent's (R295). -/
def chainHash (h : Nat) (ts : List Nat) : Nat :=
  let f := ts.foldl (fun f t => (f * 0x00000100000001B3 + t + 1) % 2 ^ 64) 0
  (h * 0x00000100000001B3 + f) % 2 ^ 64

def childSlot (h depth : Nat) : Nat := (h / 2 ^ (4 * (depth % 16))) % 16

/-- Children in one child slot, in their order. -/
def Tree.sibs (t : Tree) : Nat → Nat → KvM (List Nat)
  | 0, _ => pure []
  | f + 1, i =>
    if i = 0 then pure []
    else do
      let r ← Tree.sibs t f (← t.get i 16 4)
      pure (i :: r)

/-- The first entry of a node's child slot, 0 for none. -/
def Tree.slotHead (t : Tree) (node sl : Nat) : KvM Nat := do
  let ct ← t.get node 12 4
  if ct = 0 then pure 0 else kWord t.p (t.ctbase + 64 * ct + 4 * sl) 4

/-- The first of some nodes with a hash and tokens. -/
def Tree.match_ (t : Tree) (h : Nat) (toks : List Byte) : List Nat → KvM (Option Nat)
  | [] => pure none
  | i :: r => do
    if (← t.get i 0 8) = h then
      if (← kRead t.p (t.tbase + 4 * t.g * i) (4 * t.g)) = toks then pure (some i) else Tree.match_ t h toks r
    else Tree.match_ t h toks r

/-- The confirmed child of a node for a block of tokens. -/
def Tree.child (t : Tree) (node h depth : Nat) (toks : List Byte) : KvM (Option Nat) := do
  let l ← t.sibs t.nnode (← t.slotHead node (childSlot h depth))
  t.match_ h toks l

/-! ## PSLOOK, PSDEP, PSREL, PSPIN (R296) -/

def State.tick (s : State) : Nat := s.now / 1024 % 2 ^ 32

/-- The walk of PSLOOK: the nodes on the path after the root, deepest first, and the tokens matched. -/
def Tree.walk (t : Tree) (toks ntok : Nat) : Nat → Nat → Nat → Nat → Nat → List Nat → KvM (List Nat × Nat)
  | 0, _, _, _, m, path => pure (path, m)
  | f + 1, node, h, depth, m, path =>
    if ntok < m + t.g then pure (path, m)
    else do
      let bs ← kRead t.p (toks + 4 * m) (4 * t.g)
      let h2 := chainHash h (wordsOf bs)
      match ← t.child node h2 (depth + 1) bs with
      | none => pure (path, m)
      | some c =>
        if (← t.get c 20 2) = 65535 then pure (path, m)
        else Tree.walk t toks ntok f c h2 (depth + 1) (m + t.g) (c :: path)

def Tree.touch (t : Tree) (tick : Nat) : List Nat → KvM Unit
  | [] => pure ()
  | i :: r => do
    t.set i 24 4 tick
    Tree.touch t tick r

/-- What an operation leaves in words 4 to 7 of its block, and its status. -/
structure SnapOut where
  status : Nat
  handle : Nat := 0
  m : Nat := 0
  sdesc : Nat := 0

def psLook (t : Tree) (b : BitVec 512) (tick : Nat) : KvM SnapOut := do
  let r ← t.walk (bfld b 1 63 0) (bfld b 2 39 0) (bfld b 2 39 0 / t.g + 1) 0 t.salt 0 0 []
  t.touch tick (0 :: r.1)
  match r.1 with
  | [] => pure { status := 0 }
  | n :: _ =>
    t.set n 20 2 ((← t.get n 20 2) + 1)
    pure { status := 0, handle := (← t.handle n), m := r.2, sdesc := (← t.get n 32 8) }

/-- A handle names a LIVE node of its generation. -/
def Tree.refOk (t : Tree) (h : Nat) : KvM Bool := do
  let i := fld h 23 0
  if t.nnode ≤ i then pure false
  else
    let g ← t.get i 22 1
    let f ← t.get i 23 1
    pure (g == fld h 31 24 && bitAt f 0)

/-- A node is evictable (R297). -/
def Tree.evictable (t : Tree) (i : Nat) : KvM Bool := do
  let f ← t.get i 23 1
  let r ← t.get i 20 2
  let n ← t.get i 28 4
  pure (i != 0 && bitAt f 0 && !bitAt f 1 && r == 0 && n == 0)

def Tree.oldest (t : Tree) (tick keep : Nat) : List Nat → Option (Nat × Nat) → KvM (Option Nat)
  | [], b => pure (b.map (fun x => x.1))
  | i :: r, b => do
    if i ≠ keep ∧ (← t.evictable i) then
      let age := (tick + 2 ^ 32 - (← t.get i 24 4)) % 2 ^ 32
      Tree.oldest t tick keep r (match b with | none => some (i, age) | some x => if x.2 < age then some (i, age) else some x)
    else Tree.oldest t tick keep r b

/-- Take a node out of its parent's child slot; the parent's child table is freed with its last child. -/
def Tree.unlink (t : Tree) (i : Nat) : KvM Unit := do
  let par := (← t.get i 8 4) % 2 ^ 24
  let sl := childSlot (← t.get i 0 8) (← t.get i 48 4)
  let nxt ← t.get i 16 4
  let hd ← t.slotHead par sl
  let ct ← t.get par 12 4
  if hd = i then kWrite t.p (t.ctbase + 64 * ct + 4 * sl) (toBytes 4 nxt)
  else match prevIn (← t.sibs t.nnode hd) i with
    | some q => t.set q 16 4 nxt
    | none => pure ()
  let n ← t.get par 28 4
  t.set par 28 4 (n - 1)
  if n ≤ 1 then t.set par 12 4 0 else pure ()

/-- Eviction (R297): KV references, the eviction ring, and the node. The free list links nodes through SIB (log 23). -/
def Tree.evict (t : Tree) (i : Nat) : KvM Unit := do
  let sd ← t.get i 32 8
  let pool ← kWord t.p sd 8
  let sq ← kWord t.p (sd + 8) 3
  let p ← (fun s => match s.readPool t.p.core t.p.ctx (pool % 2 ^ 56) with | .ok p => .ok (p, s) | .error e => .error e : KvM Pool)
  let _ ← kvDropFrom p sq 0
  let put ← kWord t.p t.evring 8
  kWrite t.p (t.evring + 8 + 8 * (put % 1023)) (toBytes 8 sd)
  kWrite t.p t.evring (toBytes 8 ((put + 1) % 2 ^ 64))
  t.unlink i
  t.set i 22 1 (((← t.get i 22 1) + 1) % 256)
  t.set i 23 1 0
  t.set i 16 4 (← kWord t.p (t.desc + 60) 4)
  kWrite t.p (t.desc + 60) (toBytes 4 i)
  kWrite t.p (t.desc + 56) (toBytes 4 ((← kWord t.p (t.desc + 56) 4) + 1))

/-- Child tables in use by LIVE nodes. -/
def Tree.usedTabs (t : Tree) : List Nat → KvM (List Nat)
  | [] => pure []
  | i :: r => do
    let u ← Tree.usedTabs t r
    if bitAt (← t.get i 23 1) 0 then pure ((← t.get i 12 4) :: u) else pure u

/-- Take a free node, evicting when the list is empty. -/
def Tree.takeNode (t : Tree) (tick keep : Nat) : KvM (Option Nat) := do
  if (← kWord t.p (t.desc + 56) 4) = 0 then
    match ← t.oldest tick keep (List.range t.nnode) none with
    | none => pure ()
    | some i => t.evict i
  else pure ()
  if (← kWord t.p (t.desc + 56) 4) = 0 then pure none
  else
    let i ← kWord t.p (t.desc + 60) 4
    kWrite t.p (t.desc + 60) (toBytes 4 (← t.get i 16 4))
    kWrite t.p (t.desc + 56) (toBytes 4 ((← kWord t.p (t.desc + 56) 4) - 1))
    pure (some i)

def Tree.link (t : Tree) (par i ct sl : Nat) : KvM Unit := do
  let hd ← kWord t.p (t.ctbase + 64 * ct + 4 * sl) 4
  if hd = 0 then kWrite t.p (t.ctbase + 64 * ct + 4 * sl) (toBytes 4 i)
  else t.set ((← t.sibs t.nnode hd).getLastD hd) 16 4 i

def psDep (t : Tree) (b : BitVec 512) (tick : Nat) : KvM SnapOut := do
  let ph := bfld b 1 31 0
  if !(← t.refOk ph) then pure { status := 8 }
  else
    let par := fld ph 23 0
    let toks ← kRead t.p (bfld b 2 55 0) (4 * t.g)
    let depth := (← t.get par 48 4) + 1
    let hp ← t.get par 0 8
    let h := chainHash (if par = 0 then t.salt else hp) (wordsOf toks)
    match ← t.child par h depth toks with
    | some c =>
      let r ← t.get c 20 2
      if r = 65535 then pure { status := 6 }
      else
        t.set c 20 2 (r + 1)
        t.set c 24 4 tick
        pure { status := 7, handle := (← t.handle c) }
    | none =>
      -- FULL changes nothing: the throw undoes what the attempt did
      match ← t.takeNode tick par with
      | none => throw 6
      | some i =>
        let ct0 ← t.get par 12 4
        let used ← if ct0 = 0 then t.usedTabs (List.range t.nnode) else pure []
        let ct := if ct0 = 0 then ((List.range t.nctab).find? (fun x => x != 0 && !used.contains x)).getD 0 else ct0
        if ct = 0 then throw 6
        else
          if ct0 = 0 then
            kWrite t.p (t.ctbase + 64 * ct) (List.replicate 64 0)
            t.set par 12 4 ct
          else pure ()
          t.set i 0 8 h
          t.set i 8 4 ph
          t.set i 12 4 0
          t.set i 16 4 0
          t.set i 20 2 1
          t.set i 23 1 1
          t.set i 24 4 tick
          t.set i 28 4 0
          t.set i 32 8 (bfld b 3 63 0)
          t.set i 40 8 (t.tbase + 4 * t.g * i)
          t.set i 48 4 depth
          kWrite t.p (t.tbase + 4 * t.g * i) toks
          t.link par i ct (childSlot h depth)
          t.set par 28 4 ((← t.get par 28 4) + 1)
          pure { status := 0, handle := (← t.handle i) }

def psRel (t : Tree) (b : BitVec 512) : KvM SnapOut := do
  let h := bfld b 1 31 0
  if !(← t.refOk h) then pure { status := 8 }
  else
    let r ← t.get (fld h 23 0) 20 2
    if r = 0 then pure { status := 8 }
    else
      t.set (fld h 23 0) 20 2 (r - 1)
      pure { status := 0, handle := h }

def psPin (t : Tree) (b : BitVec 512) : KvM SnapOut := do
  let h := bfld b 1 31 0
  if !(← t.refOk h) then pure { status := 8 }
  else
    let f ← t.get (fld h 23 0) 23 1
    t.set (fld h 23 0) 23 1 (f % 2 + bfld b 2 0 0 * 2 + f / 4 * 4)
    pure { status := 0, handle := h }

/-- A snapshot operation, whole (R296): results in words 4 to 7 of its block. None while what it writes must wait (R326, R335). -/
def State.doSnap (s : State) (c off : Nat) (b : BitVec 512) (f : Tree → KvM SnapOut) : Option SpecOut :=
  match (do let t ← readTree c (s.core c).ctx (bfld b 0 63 0 % 2 ^ 56); f t : KvM SnapOut).run s with
  | .error e => if e = kvWaits then none else some (s, if e = 6 then 6 else lpStatus e, 0)
  | .ok (o, t) =>
    let r := t.engineLand c (scratchLoc c (off + 32)) (toBytes 8 o.handle ++ toBytes 8 o.m ++ toBytes 8 o.sdesc ++ toBytes 8 0)
    some (r, o.status, o.handle)

/-! ## Triggers of lp, bq and ps -/

/-- A fifth operation of a unit waits, and a request waits for a free queue slot (R291, R293). -/
def waitSpec (ic : Ic) (latch : Nat) (queue : Bool) (s : State) : Wait :=
  let k := s.core ic.c
  if dieOf ic.c = 1 then .go
  else if 4 ≤ (k.sops.filter (fun o => o.latch = latch)).length then .wait
  else if queue && s.bqFree.isNone then .wait
  else .go

/-- The acceptance of an operation: Nared only; a block in the current scratch, whose tile becomes ENGINE (R291). -/
def State.specAccept (s : State) (ic : Ic) (op : Instr) (latch : Nat) (block : Bool) (arg : U64) : Except Stop State :=
  let ea := ic.t.toNat
  let k := s.core ic.c
  if dieOf ic.c = 1 then .error (illOp ic)
  else if block && ea % 64 != 0 then .error (addrStop ic .align ea)
  else if block && (!localAddr ea || fld ea 62 21 != 0 || decide (s.scratchLen ic.c < fld ea 20 0 + 64)) then .error (addrStop ic .range ea)
  else
    let off := fld ea 20 0
    let o : SpecOp :=
      { id := k.next, op := op, latch := latch, bundle := ic.pc, due := s.lat (s.now + 5), perf := false, val := 0,
        blk := if block then some off else none, trig := ic.t, arg := arg, cyc := s.now, clk := k.clk, blkv := none }
    .ok ((s.modCore ic.c (fun q =>
      { q with sops := q.sops ++ [o], next := q.next + 1, eng := if block then q.eng ++ [off / 4096] else q.eng })).tick1)

def State.latch (s : State) (ic : Ic) (i : Nat) : U64 := (s.core ic.c).sop.getD i 0

def firePslook (ic : Ic) (src : BitVec 9) (grd : BitVec 6) (s : State) : Except Stop State := s.specAccept ic (.pslook src grd) 9 true 0
def firePsdep (ic : Ic) (src : BitVec 9) (grd : BitVec 6) (s : State) : Except Stop State := s.specAccept ic (.psdep src grd) 9 true 0
def firePsrel (ic : Ic) (src : BitVec 9) (grd : BitVec 6) (s : State) : Except Stop State := s.specAccept ic (.psrel src grd) 9 true 0
def firePspin (ic : Ic) (src : BitVec 9) (grd : BitVec 6) (s : State) : Except Stop State := s.specAccept ic (.pspin src grd) 9 true 0
def fireLpsub (ic : Ic) (src : BitVec 9) (grd : BitVec 6) (s : State) : Except Stop State := s.specAccept ic (.lpsub src grd) 10 true 0
def fireLpdep (ic : Ic) (src : BitVec 9) (grd : BitVec 6) (s : State) : Except Stop State := s.specAccept ic (.lpdep src grd) 10 false 0
def fireLpres (ic : Ic) (src : BitVec 9) (grd : BitVec 6) (s : State) : Except Stop State :=
  s.specAccept ic (.lpres src grd) 10 true (s.latch ic 11)
def fireLprb (ic : Ic) (src : BitVec 9) (grd : BitVec 6) (s : State) : Except Stop State := s.specAccept ic (.lprb src grd) 10 false 0
def fireLpset (ic : Ic) (src : BitVec 9) (grd : BitVec 6) (s : State) : Except Stop State := s.specAccept ic (.lpset src grd) 10 true 0
def fireBqpush (ic : Ic) (src : BitVec 9) (grd : BitVec 6) (s : State) : Except Stop State := s.specAccept ic (.bqpush src grd) 11 true 0
def fireBqpop (ic : Ic) (src : BitVec 9) (grd : BitVec 6) (s : State) : Except Stop State :=
  s.specAccept ic (.bqpop src grd) 11 true (s.latch ic 12)
def fireBqreq (ic : Ic) (src : BitVec 9) (grd : BitVec 6) (s : State) : Except Stop State :=
  s.specAccept ic (.bqreq src grd) 11 true (s.latch ic 12)

/-! ## Performing -/

def Core.setSop (k : Core) (o : SpecOp) : Core := { k with sops := k.sops.map (fun q => if q.id = o.id then o else q) }

/-- What an operation does; none while it waits for a queue slot, or for a page or region that its writes wait for. -/
def State.specRun (s : State) (c : Nat) (o : SpecOp) : Option SpecOut :=
  let b := o.blkv.getD 0
  let off := o.blk.getD 0
  match o.op with
  | .pslook _ _ => s.doSnap c off b (fun t => psLook t b s.tick)
  | .psdep _ _ => s.doSnap c off b (fun t => psDep t b s.tick)
  | .psrel _ _ => s.doSnap c off b (fun t => psRel t b)
  | .pspin _ _ => s.doSnap c off b (fun t => psPin t b)
  | .lpsub _ _ => some (s.doLpsub c b o.bundle)
  | .lpdep _ _ => some (s.doLpdep c o.trig)
  | .lpres _ _ => some (s.doLpres c off o.arg)
  | .lprb _ _ => s.doLprb c o.trig
  | .lpset _ _ => some (s.doLpset c b)
  | .bqpush _ _ => s.doBqpush c b
  | .bqreq _ _ => s.doBqreq c b o.arg
  | .bqpop _ _ => some (s.doBqpop c off o.arg)
  | _ => none

/-- The block of an operation is read at the end of issue + 4, after the thread's scratch stores up to its issue (R238, R291). -/
def Core.specReady (k : Core) (now : Nat) (o : SpecOp) : Bool :=
  decide (o.cyc + 4 ≤ now) && !k.frz && (!k.tagged || (k.blockStores o.clk (o.blk.getD 0)).isEmpty)

/-- The end of a cycle for one operation: its block is read, and it performs when it is due. -/
def State.specStep (s : State) (c : Nat) (o : SpecOp) : State :=
  if o.perf then s
  else
    let o1 := match o.blk, o.blkv with
      | some off, none =>
        if (s.core c).specReady s.now o then { o with blkv := some (BitVec.ofNat 512 (ofBytes (s.rdBytes (scratchLoc c off) 64))) } else o
      | _, _ => o
    let s1 := s.modCore c (fun k => k.setSop o1)
    if s.now < o.due || (o1.blk.isSome && o1.blkv.isNone) then s1
    else match s1.specRun c o1 with
      | none => s1
      | some r =>
        r.1.modCore c (fun k => k.setSop { o1 with perf := true, val := u64 (r.2.1 + r.2.2 * 2 ^ 32) })

/-- Performed operations leave for their latch in the order of issue; the tile of the block returns with the latch's write (R291). -/
def Core.retireSpec (k : Core) : Nat → Core
  | 0 => k
  | n + 1 =>
    match k.sops.find? (fun o => o.perf && !k.readHeld o.id && !k.sops.any (fun q => q.latch == o.latch && decide (q.id < o.id))) with
    | none => k
    | some o =>
      Core.retireSpec { k with sops := k.sops.filter (fun q => q.id != o.id), sres := k.sres.set o.latch o.val,
                               eng := match o.blk with | some off => k.eng.erase (off / 4096) | none => k.eng }.freeTiles n

end Sys2Proof.Machine
end

