-- ==== Sys2Proof/Machine/Migrate.lean ====
section
/-! DEFINITION. Translation caches and side logs (R320 to R324), migration of pages (R261, R325 to R329), Prism reads (R259, R260, R330
to R332) and Mirror parity and rebuild (R262, R333 to R336). -/

set_option linter.unusedVariables false

namespace Sys2Proof.Machine

/-! ## TLBs (R320, R321) -/

/-- The place of a queue descriptor's line whose address no longer translates: a hole of the physical map (log 26). -/
def noPlace : Nat := 2 ^ 59

/-- The dispatcher of a die translates its bound queues' descriptors anew (R305, R321). -/
def State.requeue (s : State) (d : Nat) : State :=
  (s.die d).queueVa.foldl (fun (t : State) q =>
    let at_ (v : Nat) : Nat := match t.xlateCtx q.2.1 v { r := true, w := true } with | .ok l => l | .error _ => noPlace
    t.modDie d (fun y => { y with queues := Tbl.put y.queues q.1 (at_ q.2.2, at_ (q.2.2 + 64), at_ (q.2.2 + 128)) })) s

/-- Drop cached translations on a die, those that its dispatcher holds of its queues among them. -/
def State.tlbDrop (s0 : State) (d : Nat) (p : TlbEnt → Bool) : State :=
  let s := s0.requeue d
  let s1 := s.modDie d (fun x => { x with gtlb := x.gtlb.map (fun g => (g.1, g.2.filter (fun e => !p e))) })
  { s1 with cores := s1.cores.map (fun q => if dieOf q.1 = d then (q.1, { q.2 with tlb := q.2.tlb.filter (fun e => !p e) }) else q) }

/-- TLBINV's selection: mode 0 one page of a context, 1 a context, 2 all. -/
def tlbMatch (mode ctx page : Nat) (e : TlbEnt) : Bool :=
  mode == 2 || (e.ctx == ctx && (mode == 1 || e.vpage == (page * 65536) >>> e.bits))

/-- No copy of a table holds dirty bytes. -/
def cleanTbl (t : Tbl CLine) : Bool := t.all (fun p => p.2.dirty == 0)

/-- A die's RDC holds no dirty bytes, and what it has written back is home. -/
def State.rdcHome (s : State) (d : Nat) : Bool := cleanTbl (s.die d).rdc && s.written d s.nBridge

/-- What a die's cores have stored is at its homes: every copy of the die is clean. -/
def State.dieHome (s : State) (d : Nat) : Bool :=
  s.cores.all (fun q => dieOf q.1 != d || cleanTbl q.2.l1) && s.qsb.all (fun q => dieOf (4 * q.1) != d || cleanTbl q.2) && s.rdcHome d

/-- Every copy of a die sends its dirty bytes on to their homes. -/
def State.dieDrain (s : State) (d : Nat) : State :=
  let s1 := (s.cores.filter (fun q => dieOf q.1 == d)).foldl (fun t q => t.l1Drain q.1) s
  let s2 := (s1.qsb.filter (fun q => dieOf (4 * q.1) == d)).foldl (fun t q => t.qsbDrain (4 * q.1)) s1
  s2.rdcDrain d

/-- Accesses of the die's cores that travel by a translation, and what engines have sent to other packages, have performed at their homes
(R321). -/
def State.translatedDone (s : State) (d : Nat) : Bool :=
  s.outs.isEmpty && s.cores.all (fun q => dieOf q.1 != d || q.2.mops.all (fun o => o.perf || o.lcl || o.pieces.isEmpty)) && s.dieHome d

/-! ## Side logs (R322, R324) -/

/-- The words of an entry as LOGRD returns them. -/
def LogEnt.word (e : LogEnt) (w : Nat) : Nat :=
  if !e.valid then 0
  else if w = 0 then e.ea + e.kind * 2 ^ 56 + e.ac * 2 ^ 59 + e.scope * 2 ^ 61
  else if w = 1 then (if e.kind = 4 then e.lanes.toNat else e.data.toNat % 2 ^ (8 * kindBytes e.kind))
  else if w = 2 then e.badr
  else 1 + b2n e.refaulted * 2 + e.nref * 2 ^ 8 + e.order * 2 ^ 16

/-- The spans of a logged store: offset in its data, address, bytes. -/
def LogEnt.spans (e : LogEnt) : List (Nat × Nat × Nat) :=
  if e.kind = 4 then laneChunks e.lanes.toNat e.ea else [(0, e.ea, kindBytes e.kind)]

/-- The pieces of a logged store, translated in the task's context, or the fault. -/
def State.logPieces (s : State) (ctx : Nat) : List (Nat × Nat × Nat) → Except Cause (List Piece)
  | [] => .ok []
  | (off, va, n) :: r =>
    let part := Nat.min n (65536 - va % 65536)
    match s.xlatePart ctx va part { w := true } with
    | .error f => .error f
    | .ok loc =>
      let rest : Except Cause (List Piece) :=
        if part = n then .ok []
        else match s.xlatePart ctx (va + part) (n - part) { w := true } with
          | .error f => .error f
          | .ok l2 => .ok [{ off := off + part, len := n - part, loc := l2 }]
      match rest, State.logPieces s ctx r with
      | .ok a, .ok b => .ok ({ off := off, len := part, loc := loc } :: a ++ b)
      | .error f, _ => .error f
      | _, .error f => .error f

/-- A store from a side log on its way as an access of its thread, in its own place in program order (R324): an STREL at its scope, or a
plain store to another package or to Carafe. It carries no alias class: what it must follow, an STREL follows as an ordering operation. -/
def LogEnt.toOp (e : LogEnt) (k : Core) (now : Nat) (ps : List Piece) : MOp :=
  { id := e.mop, op := if e.kind = 5 then .strel 0 0 0 0 else .st64 0 0 0 0, slot := 15, pc := e.badr, re := false, latch := 0, cls := 4,
    cyc := k.clk, due := now, fixed := false, ret := 0, scope := e.scope, isRead := false, isWrite := true, ea := u64 e.ea, lcl := false,
    pieces := ps, data := e.data, data2 := 0, fm := 0, k := 0, aux := 0, logged := false, junk := false, perf := false, val := 0,
    bundle := e.bundle }

/-- An access takes its place in the order of issue. -/
def Core.putOp (k : Core) (o : MOp) : Core := { k with mops := insertRank (fun (q : MOp) => [q.id]) o k.mops }

/-- A plain store of a side log at its homes (R324); what is homed on the other die crosses the bridge (R12). -/
def State.replayPut (s : State) (c : Nat) (d : V) (ps : List Piece) : State :=
  ps.foldl (fun t p =>
    let t1 := t.toHome c p.loc
    if cacheable c p.loc && crosses c (lineOf p.loc) then t1.bridgeSend (rdcAgent (dieOf c)) (agentOf p.loc) p.loc (pieceBytes d p) none
    else t1.landWrite c p.loc (pieceBytes d p)) s

/-- Whether a location is reached by an access that is answered: another package's, or Carafe. -/
def answered (loc : Nat) : Bool :=
  match placeOf loc with
  | .remote _ _ => true
  | .carafe _ _ => true
  | _ => false

/-- The progress of a REPLAY. -/
structure Replay where
  s : State
  replayed : Nat := 0
  refaults : Nat := 0
  /-- a protection or address-range fault froze the task -/
  stopped : Bool := false

def LogEnt.refault (e : LogEnt) : LogEnt := { e with refaulted := true, nref := Nat.min (e.nref + 1) 255 }

/-- One entry of a REPLAY (R324). What another package or Carafe answers, and an STREL, which waits for what it follows, go on their way: the entry
stays VALID until its store has performed, a later REPLAY passes it by, and a plain store behind it to the same line follows it. -/
def Replay.entry (r : Replay) (id which i : Nat) : Replay :=
  let k := r.s.core id
  let lg := k.logOf which
  let e := lg.getD i {}
  if r.stopped || !e.valid || e.going then r
  else
    let set (e2 : LogEnt) (t : State) : State := t.modCore id (fun k => k.setLog which ((k.logOf which).set i e2))
    let older := (k.logL ++ k.logA).any (fun x => x.valid && !(x.going && x.kind != 5 && e.kind != 5) && decide (x.order < e.order) && x.lines.any (fun l => e.lines.contains l))
    if older then { r with s := set e.refault r.s, refaults := r.refaults + 1 }
    else match r.s.logPieces k.ctx e.spans with
      | .error .xlate => { r with s := set e.refault r.s, refaults := r.refaults + 1 }
      | .error _ => { r with stopped := true }
      | .ok ps =>
        if ps.all (carafeOk id (e.kind != 5)) then
          let far := e.kind = 5 || ps.any (fun p => answered p.loc)
          let s1 := if far then r.s.modCore id (fun k => k.putOp (e.toOp k r.s.now ps)) else r.s.replayPut id e.data ps
          { r with s := set (if far then { e with going := true } else { e with valid := false }) s1, replayed := r.replayed + 1 }
        else { r with stopped := true }

/-- An entry of a log that a REPLAY would perform lies in a page in motion or in a region in REBUILD, so that its replay waits (R326, R335). -/
def State.replayHeld (s : State) (id which : Nat) : Bool :=
  ((s.core id).logOf which).any (fun e => e.valid && !e.going && (e.spans.any (fun q => s.pagesMoving (s.core id).ctx q.2.1 q.2.2) || match s.logPieces (s.core id).ctx e.spans with
    | .ok ps => ps.any (fun p => s.inRebuild p.loc)
    | .error _ => false))

/-- The stores of a REPLAY that have performed leave their logs (R324). -/
def Core.retireLogs (k : Core) : Core :=
  let f (l : List LogEnt) : List LogEnt :=
    l.map (fun e => if e.going && k.mops.all (fun o => o.id != e.mop || o.perf) then { e with valid := false, going := false } else e)
  if (k.logL ++ k.logA).any (fun e => e.going) then { k with logL := f k.logL, logA := f k.logA } else k

/-- Entries of a log in ascending ORDER. -/
def logOrder (l : List LogEnt) : List Nat :=
  (List.range 32).foldl (fun o i => if (l.getD i {}).valid then insertRank (fun j => [(l.getD j {}).order]) i o else o) []

/-- REPLAY of one log (R324). -/
def State.replayLog (s : State) (id which : Nat) : Replay :=
  (logOrder ((s.core id).logOf which)).foldl (fun r i => r.entry id which i) { s := s }

/-! ## Migration -/

/-- The location of the entry that a walk ends at, with the entry and its page bits. -/
def walkLoc (m : List Host.Cell) (va : Nat) : Nat → Nat → Option (Nat × Nat × Nat)
  | lvl, base =>
    let a := base + 8 * ptIndex lvl va
    let e := word64 m a
    if !bitAt e 0 || malformed lvl e then none
    else if bitAt e 1 then some (a, e, leafBits lvl)
    else
      match lvl with
      | 0 => none
      | l + 1 => walkLoc m va l (fld e 51 8 * 256)

def State.setBits (n hi lo v : Nat) : Nat := n - fld n hi lo * 2 ^ lo + v % 2 ^ (hi + 1 - lo) * 2 ^ lo

/-- A migration-control record (R325). -/
def State.mctl' (s : State) (ctx : Nat) (w : Nat) : Nat := word64 s.mem ((s.die (ctx / 64)).mctlbase + 64 * (ctx % 64) + 8 * w)

/-- Kind of a frame: 0 HBM, 1 second tier, 2 another package. -/
def frameKind (e : Nat) : Nat := if bitAt e 6 then 2 else if 2 ^ 40 ≤ fld e 51 16 * 65536 then 1 else 0

/-- Pop the top entry of a frame pool; none when it is empty, an error status when it cannot be reached. -/
def popFrame (p : Pool) (va : Nat) : KvM (Option Nat) := do
  let n ← kWord p va 8
  if n = 0 then pure none
  else
    let e ← kWord p (va + 8 * n) 8
    kWrite p va (toBytes 8 (n - 1))
    pure (some e)

def pushFrame (p : Pool) (va e : Nat) : KvM Unit := do
  let n ← kWord p va 8
  kWrite p (va + 8 * (n + 1)) (toBytes 8 e)
  kWrite p va (toBytes 8 (n + 1))

/-- A frame's location. -/
def State.frameLoc (s : State) (e : Nat) : Nat := s.leafLoc e 16 0

/-- Cached translations to a frame are dropped on both dies. -/
def State.dropFrame (s : State) (e : Nat) : State :=
  let hit (t : TlbEnt) : Bool := t.bits == 16 && fld t.leaf.toNat 51 16 == fld e 51 16 && fld t.leaf.toNat 63 52 == fld e 63 52
  (s.tlbDrop 0 hit).tlbDrop 1 hit

/-- Bytes of a page (R317). -/
def pageSize : Nat := 65536

/-- Whether a line lies in a frame. -/
def inFrame (loc line : Nat) : Bool := decide (loc ≤ 128 * line) && decide (128 * line < loc + pageSize)

/-- The lines of a frame that a copy holds. -/
def frameLines (loc : Nat) (t : Tbl CLine) : List Nat := (t.filter (fun p => inFrame loc p.1)).map (fun p => p.1)

/-- Every copy of a frame's lines leaves, its dirty bytes for their home. -/
def State.frameEvict (s : State) (loc : Nat) : State :=
  let s1 := s.cores.foldl (fun t q => (frameLines loc q.2.l1).foldl (fun u l => u.l1Evict q.1 l) t) s
  let s2 := s1.qsb.foldl (fun t q => (frameLines loc q.2).foldl (fun u l => u.qsbFlush (4 * q.1) l) t) s1
  let s3 := (List.range 2).foldl (fun t d => (frameLines loc (t.die d).rdc).foldl (fun u l => u.rdcEvict d l) t) s2
  { s3 with dies := s3.dies.map (fun d => { d with opc := d.opc.map (fun g => (g.1, g.2.filter (fun l => !inFrame loc (l.1 / 65536)))) }) }

/-- Stores to a frame that were issued have been acknowledged by its home (R326): none is in flight, nor on the bridge, nor waits at its home, and
none that went to another package is unanswered. -/
def State.storesDone (s : State) (loc : Nat) : Bool :=
  s.cores.all (fun q => q.2.mops.all (fun o => o.perf || !o.isWrite || o.pieces.all (fun p => !(decide (loc ≤ p.loc) && decide (p.loc < loc + pageSize)))))
    && s.bridge.all (fun m => !inFrame loc (lineOf m.loc)) && s.stalled.all (fun m => !inFrame loc (lineOf m.loc))
    && s.outs.all (fun r => r.len == 0 || !(decide (loc ≤ r.loc) && decide (r.loc < loc + pageSize)))

/-- A word of a share record; a directory on another package holds what that package has answered (log 5). -/
def State.shareWord (s : State) (a : Nat) : Nat := ofBytes (s.rdBytes a 8)

/-- The bucket of a share directory that may describe a page (R329), if there is a directory. -/
def State.shareBucket (s : State) (ctx va : Nat) : Option Nat :=
  let w3 := s.mctl' ctx 3
  let dp := fld w3 27 16
  let base := if dp = s.pkgnum then s.mctl' ctx 4 % 2 ^ 52 else remoteLoc dp (s.mctl' ctx 4 % 2 ^ 52)
  let n := s.mctl' ctx 5 % 2 ^ 32
  if n = 0 then none else some (base + 512 * (fmix32 (fld w3 15 0 ^^^ ((fld va 47 16 * 0x9E3779B9) % 2 ^ 32)) % n))

/-- The share record of a page (R329): where it lies, if one describes the page. -/
def State.shareRec (s : State) (ctx va : Nat) : Option Nat :=
  match s.shareBucket ctx va with
  | none => none
  | some b => ((List.range 8).map (fun i => b + 64 * i)).find? (fun a => s.shareWord a == fld va 55 16)

/-- Migration state of a page: PIN, MCNT, MWIN, from the leaf or from word 2 of its share record. -/
def migState (e : Nat) (sr : Option (Nat × Nat)) : Nat × Nat × Nat :=
  match sr with
  | some (_, w) => (fld w 6 6, fld w 1 0, fld w 5 2)
  | none => (fld e 8 8, fld e 11 10, fld e 15 12)

/-- The current window number mod 16 on the package that holds the page's state (R328). -/
def State.window (s : State) (ctx : Nat) (shr : Bool) : Nat :=
  let dp := fld (s.mctl' ctx 3) 27 16
  let t := if shr && dp != s.pkgnum then Config.remoteTick dp s.now else s.now / 1024
  t / 2 ^ 22 % 16

/-- A MIGR writes a word of a share record. -/
def State.recWrite (s : State) (c : Nat) (cmd : Cmd) (a w : Nat) : State := s.engLand c (.command c cmd.seq) a (toBytes 8 w)

/-- Write migration state back; a share record's word 2 as it then is. -/
def State.putMig (s : State) (c : Nat) (cmd : Cmd) (loc : Nat) (sr : Option (Nat × Nat)) (pin mc mw : Nat) : State × Option (Nat × Nat) :=
  match sr with
  | some (a, w) =>
    let w1 := State.setBits (State.setBits (State.setBits w 6 6 pin) 1 0 mc) 5 2 mw
    (s.recWrite c cmd (a + 16) w1, some (a, w1))
  | none =>
    let e := word64 s.mem loc
    (s.homeWrite noCore loc (toBytes 8 (State.setBits (State.setBits (State.setBits e 8 8 pin) 11 10 mc) 15 12 mw)), none)

/-- The packages that share a page (R329 words 3 to 6). -/
def State.sharers (s : State) (a : Nat) : List Nat :=
  ((List.range 16).map (fun i => fld (s.shareWord (a + 24 + 8 * (i / 4))) (16 * (i % 4) + 15) (16 * (i % 4)))).filter (fun p => p != 0xFFFF)

/-- The leaf after a move to frame `f`: MIG clear. -/
def landedLeaf (e f : Nat) (far : Bool) : Nat :=
  let a := State.setBits e 51 16 (fld f 51 16)
  let b := State.setBits a 63 52 (if far then fld f 63 52 else 0)
  State.setBits (State.setBits b 6 6 (b2n far)) 7 7 0

/-- The part of this package as a sharer (R329): the PTE of the page in the contexts of the shared space takes MIG, or the new home. -/
def State.shareApply (s : State) (ssid va : Nat) (home : Option Nat) : State :=
  (((List.range 128).filter (fun x => (s.ctx x).valid && fld (s.mctl' x 3) 15 0 == ssid)).foldl (fun (t : State) x =>
    match walkLoc t.mem va 3 (t.ctx x).ptbase with
    | some (loc, e, 16) =>
      if bitAt e 9 then
        (match home with
          | none => t.homeWrite noCore loc (toBytes 8 (State.setBits e 7 7 1))
          | some h => t.homeWrite noCore loc (toBytes 8 (landedLeaf e h (fld h 63 52 != t.pkgnum)))).dropFrame e
      else t
    | _ => t) s)

/-- Steps 3 and 5 of R326 on the sharers of a page: each is asked to set MIG (`home` none), or to take the new home, and answers when it has; this
package does so at once. The manual gives the message no layout (log 30): the SSID, the page, whether a home follows, and its FRAME and PKG. -/
def State.tellSharers (s : State) (c : Nat) (cmd : Cmd) (ctx va : Nat) (sr : Option (Nat × Nat)) (home : Option Nat) : State :=
  match sr with
  | none => s
  | some (a, _) =>
    let ssid := fld (s.mctl' ctx 3) 15 0
    let w := toBytes 2 ssid ++ toBytes 7 (va % 2 ^ 56) ++ toBytes 1 (b2n home.isSome) ++ toBytes 8 (home.getD 0)
    (s.sharers a).foldl (fun t p => if p = s.pkgnum then t.shareApply ssid (va % 2 ^ 56) home else t.request (.command c cmd.seq) p 14 0 w) s

/-- A command's block as it has been read, or as it stands. -/
def State.blockOf (s : State) (c : Nat) (q : Cmd) : BitVec 512 :=
  match q.block with | some b => b | none => BitVec.ofNat 512 (ofBytes (s.rdBytes (scratchLoc c q.blkAddr) 64))

/-- Where the pool of a context's frames of a kind lies. -/
def State.poolLoc (s : State) (ctx kind : Nat) : Option Nat :=
  match s.xlateCtx ctx (s.mctl' ctx kind % 2 ^ 56) {} with | .ok l => some l | .error _ => none

/-- Two MIGR commands take frames of one pool. -/
def State.samePool (s : State) (ctx kind ctx2 kind2 : Nat) : Bool :=
  (ctx == ctx2 && kind == kind2) || ((s.poolLoc ctx kind).isSome && s.poolLoc ctx kind == s.poolLoc ctx2 kind2)

/-- Whether another MIGR is before one in taking frames of a pool: of the commands of one die that use the pool the first accepted takes all
of its frames (R325); those accepted in one cycle go by core. -/
def State.poolFirst (s : State) (c : Nat) (cmd : Cmd) (b : BitVec 512) : Bool :=
  s.cores.all (fun q => dieOf q.1 != dieOf c || q.2.cmds.all (fun x =>
    (q.1 == c && decide (cmd.seq ≤ x.seq)) || x.finished || decide (cmd.accNow < x.accNow) || (x.accNow == cmd.accNow && decide (c < q.1))
      || (match x.op with
        | .migr _ _ =>
          let y := s.blockOf q.1 x
          !s.samePool (s.core c).ctx (bfld b 4 19 16) q.2.ctx (bfld y 4 19 16)
        | _ => true)))

/-- The page that a MIGR is at. -/
def Cmd.page (cmd : Cmd) (b : BitVec 512) : Nat := (bfld b 3 63 0 + 65536 * cmd.rowsDone) % 2 ^ 64

/-- The next page of a MIGR, or its end; `phase` 0 is before a page's copy, 3 while its LOCK is asked for, 1 while it is in motion, and 4 while its
move, or the end of its move, is told. -/
def State.migNext (s : State) (c : Nat) (cmd : Cmd) (b : BitVec 512) (status moved bytes : Nat) : State :=
  let i := cmd.rowsDone + 1
  let cmd1 := { cmd with rowsDone := i, phase := 0, work := [], got := [], count := cmd.count + moved, pay := cmd.pay + bytes,
                         finished := decide (bfld b 4 15 0 ≤ i),
                         status := if statusIsError cmd.status then cmd.status
                           else if statusIsError status then status else Nat.max cmd.status status }
  let s1 := s.setCmd c cmd1
  if cmd1.finished then s1 else (s1.at_ (s1.now + 1 + Config.latency s1.fresh) (.pageMove c cmd.seq)).tick1

/-- A fault ends the command (R243). -/
def State.migEnd (s : State) (c : Nat) (cmd : Cmd) (status moved bytes : Nat) : State :=
  s.setCmd c { cmd with phase := 0, work := [], got := [], count := cmd.count + moved, pay := cmd.pay + bytes, finished := true,
                        status := addStatus cmd.status status }

/-- The word 2 of a share record with LOCK cleared. -/
def State.unlockRec (s : State) (c : Nat) (cmd : Cmd) (sr : Option (Nat × Nat)) : State :=
  match sr with
  | some (a, w) => s.recWrite c cmd (a + 16) (State.setBits w 7 7 0)
  | none => s

/-- Step 2 and 3 of R326, the record of an SHR page locked: the pin check, and MIG. -/
def State.migPin (s : State) (c : Nat) (cmd : Cmd) (b : BitVec 512) (loc e : Nat) (sr : Option (Nat × Nat)) : State :=
  let ctx := (s.core c).ctx
  let w := s.window ctx sr.isSome
  let m := migState e sr
  let m1 := if m.2.2 ≠ w then (0, 0, w) else m
  let r := s.putMig c cmd loc sr m1.1 m1.2.1 m1.2.2
  if m1.1 = 1 then (r.1.unlockRec c cmd r.2).migNext c cmd b 12 0 0
  else
    let s2 := r.1.homeWrite noCore loc (toBytes 8 (State.setBits (word64 r.1.mem loc) 7 7 1))
    (((s2.tellSharers c cmd ctx (cmd.page b) r.2 none).dropFrame e).setCmd c
      { cmd with phase := 1, work := loc :: (match r.2 with | some (a, v) => [a, v] | none => []) }).at_ (s.now + 1) (.pageMove c cmd.seq)

/-- The record of an SHR page, which another package's directory answers (R149); LOCK is set there by ACAS (R329). -/
def State.migLock (s : State) (c : Nat) (cmd : Cmd) (b : BitVec 512) (loc e : Nat) : State :=
  let ctx := (s.core c).ctx
  let va := cmd.page b
  let again (t : State) : State := t.at_ (s.now + 1) (.pageMove c cmd.seq)
  match s.shareBucket ctx va with
  | none => s.migNext c cmd b 3 0 0
  | some k =>
    if 2 ^ 64 ≤ k ∧ cmd.got.isEmpty then
      again (((List.range 4).foldl (fun (t : State) i => t.request (.reading c cmd.seq (k + 128 * i)) (k / 2 ^ 64 - 1) 11 (k % 2 ^ 64 + 128 * i)
        (toBytes 1 128)) s).setCmd c { cmd with got := (List.range 4).map (fun i => (k + 128 * i, none)) })
    else if cmd.got.any (fun g => g.2.isNone) then again s
    else match s.shareRec ctx va with
      | none => s.migNext c cmd b 3 0 0
      | some a =>
        let w := s.shareWord (a + 16)
        if s.isParity a then s.migNext c cmd b 3 0 0
        else if bitAt w 7 then again (s.setCmd c { cmd with got := [] })
        else if 2 ^ 64 ≤ a then
          again ((s.request (.command c cmd.seq) (a / 2 ^ 64 - 1) 13 (a % 2 ^ 64 + 16)
            (toBytes 1 8 ++ toBytes 1 (atomCode (.acas 0 0 0 0)) ++ toBytes 8 (w + 128) ++ toBytes 8 w)).setCmd c { cmd with phase := 3, work := [] })
        else if s.inRebuild a then again s
        else (s.recWrite c cmd (a + 16) (w + 128)).migPin c cmd b loc e (some (a, w + 128))

/-- The first part of a move (R326 steps 1 to 3). -/
def State.migBegin (s : State) (c : Nat) (cmd : Cmd) (b : BitVec 512) : State :=
  let va := cmd.page b
  let x := s.ctx (s.core c).ctx
  if 2 ^ 56 ≤ va ∨ (x.heapb.toNat ≤ va ∧ va < x.heapb.toNat + x.heapl.toNat) then s.migNext c cmd b 3 0 0
  else match walkLoc s.mem va 3 x.ptbase with
    | none => s.migNext c cmd b 3 0 0
    | some (loc, e, bits) =>
      if bits ≠ 16 ∨ s.isParity loc then s.migNext c cmd b 3 0 0
      else if frameKind e = bfld b 4 19 16 ∧ (bfld b 4 19 16 ≠ 2 ∨ fld e 63 52 = bfld b 4 35 20) then s.migNext c cmd b 0 1 0
      else if bitAt e 7 || s.inRebuild loc then s.at_ (s.now + 1) (.pageMove c cmd.seq)
      else if bitAt e 9 then s.migLock c cmd b loc e
      else s.migPin c cmd b loc e none

/-- The answer of the directory to the ACAS (R329): the move goes on with the record locked, or tries again. -/
def State.migLocked (s : State) (c : Nat) (cmd : Cmd) (b : BitVec 512) : State :=
  let ctx := (s.core c).ctx
  let again (t : State) : State := t.at_ (s.now + 1) (.pageMove c cmd.seq)
  match cmd.work, s.shareRec ctx (cmd.page b), walkLoc s.mem (cmd.page b) 3 (s.ctx ctx).ptbase with
  | old :: _, some a, some (loc, e, _) =>
    let w := s.shareWord (a + 16)
    if old = w then s.migPin c cmd b loc e (some (a, w + 128)) else again (s.setCmd c { cmd with phase := 0, work := [], got := [] })
  | [], _, _ => again s
  | _, _, _ => s.migNext c cmd b 3 0 0

/-- The home that a leaf names, as FRAME and PKG of a share record: this package's own number for its own memory. -/
def State.homeOf (s : State) (e : Nat) : Nat :=
  State.setBits (State.setBits 0 51 16 (fld e 51 16)) 63 52 (if bitAt e 6 then fld e 63 52 else s.pkgnum)

/-- The record's word 1 takes the new home. -/
def State.rehomeRec (s : State) (c : Nat) (cmd : Cmd) (sr : Option (Nat × Nat)) (e : Nat) : State :=
  match sr with
  | some (a, _) => s.recWrite c cmd (a + 8) (s.homeOf e)
  | none => s

/-- What remains of a move once it is told: the frame to return, plus 1, or 0 for none; the status; whether the page moved; whether a fault ends the
command; and the share record. -/
def migWork (loc fr status : Nat) (moved stop : Bool) (sr : Option (Nat × Nat)) : List Nat :=
  [loc, fr, status, b2n moved, b2n stop] ++ (match sr with | some (a, w) => [a, w] | none => [])

/-- The share record among the notes of a move. -/
def recOf (l : List Nat) : Option (Nat × Nat) :=
  match l with
  | [a, w] => some (a, w)
  | _ => none

/-- A page keeps its old home: the stores that wait for its move go there, on every sharer. -/
def State.migKeep (s : State) (c : Nat) (cmd : Cmd) (b : BitVec 512) (loc : Nat) (sr : Option (Nat × Nat)) : State :=
  let e := word64 s.mem loc
  (s.homeWrite noCore loc (toBytes 8 (State.setBits e 7 7 0))).tellSharers c cmd (s.core c).ctx (cmd.page b) sr (some (s.homeOf e))

/-- A page that is not moved keeps its old home; `stop` where a fault ends the command. -/
def State.migDrop (s : State) (c : Nat) (cmd : Cmd) (b : BitVec 512) (loc : Nat) (sr : Option (Nat × Nat)) (status : Nat) (stop : Bool) : State :=
  ((s.migKeep c cmd b loc sr).setCmd c { cmd with phase := 4, work := migWork loc 0 status false stop sr }).at_ (s.now + 1) (.pageMove c cmd.seq)

/-- The count of the window after a landing (R328): the fourth move pins the page. -/
def State.migCount (s : State) (c : Nat) (cmd : Cmd) (loc e1 : Nat) (sr : Option (Nat × Nat)) : State × Option (Nat × Nat) :=
  let m := migState e1 sr
  if m.2.1 = 3 then
    let r := s.putMig c cmd loc sr 1 0 m.2.2
    ({ r.1 with pincnt := sat32 (r.1.pincnt + 1) }, r.2)
  else s.putMig c cmd loc sr m.1 (m.2.1 + 1) m.2.2

/-- A page lands after its deadline (R261, R327). -/
def State.migLate (s : State) (cmd : Cmd) (b : BitVec 512) : Bool :=
  bfld b 5 47 0 != 0 && decide (bfld b 5 47 0 < s.now / 1024 - cmd.accNow / 1024)

/-- Steps 4 and 5 of R326 with a frame popped: the copy, the new leaf and the count. Copies that a cache still holds of the new frame, from an
earlier use of it, go first: a move changes no value that a read returns. -/
def State.migTo (s : State) (c : Nat) (cmd : Cmd) (b : BitVec 512) (loc e f : Nat) (sr : Option (Nat × Nat)) : State :=
  let ctx := (s.core c).ctx
  let e1 := landedLeaf e f (bfld b 4 19 16 == 2)
  let dst := s.frameLoc e1
  let bs := s.rdBytes (s.frameLoc e) pageSize
  let s1 := s.frameEvict dst
  let t1 := match placeOf dst with | .remote _ _ => s1.sendStore (.command c cmd.seq) dst bs | _ => s1.homeWrite c dst bs
  let r := ((t1.homeWrite noCore loc (toBytes 8 e1)).rehomeRec c cmd sr e1).migCount c cmd loc e1 sr
  let t3 := (r.1.tellSharers c cmd ctx (cmd.page b) r.2 (some (s.homeOf e1))).dropFrame e
  let late := s.migLate cmd b
  let t4 := if late then t3.modCtx ctx (fun x => { x with slip := sat16 (x.slip + 1) }) else t3
  let fr := State.setBits (State.setBits 0 51 16 (fld e 51 16)) 63 52 (fld e 63 52)
  (t4.setCmd c { cmd with phase := 4, work := migWork loc (fr + 1) (if late then 11 else 0) true false r.2 }).at_ (s.now + 1) (.pageMove c cmd.seq)

/-- The frame at the top of a pool may not be stored to: it lies in a Mirror parity range (R333). -/
def State.frameDenied (s : State) (f : Nat) (far : Bool) : Bool := !far && s.isParity (fld f 51 16 * 65536)

/-- The second part of a move (R326 steps 4 and 5): it waits for the stores to the old home, which the copies before it drive there, and for
the sharers. A pool that cannot be reached ends the command (R243). DESIGN CHOICE (log 109): of a TGT 2 the frame on top of FPREM is taken whichever
package it lies on; R261 does not say what PKG asks of it. -/
def State.migLand (s : State) (c : Nat) (cmd : Cmd) (b : BitVec 512) (loc : Nat) (sr : Option (Nat × Nat)) : State :=
  let ctx := (s.core c).ctx
  let e := word64 s.mem loc
  let far := bfld b 4 19 16 == 2
  let s0 := s.frameEvict (s.frameLoc e)
  let again := s0.at_ (s.now + 1) (.pageMove c cmd.seq)
  if !s0.storesDone (s0.frameLoc e) || !s0.cmdSettled c cmd || s0.inRebuild loc then again
  else match (popFrame (ctxPool noCore ctx) (s.mctl' ctx (bfld b 4 19 16) % 2 ^ 56)).run s0 with
    | .error st => if st = kvWaits then again else s0.migDrop c cmd b loc sr st true
    | .ok (none, _) => s0.migDrop c cmd b loc sr 8 false
    | .ok (some f, t) =>
      if s0.frameDenied f far then s0.migDrop c cmd b loc sr 3 true
      else if !far && s0.inRebuild (fld f 51 16 * 65536) then again
      else t.migTo c cmd b loc e f sr

/-- The end of a move (R326 step 6, R329): once every sharer has it, the old frame returns to its pool, and LOCK clears. -/
def State.migClose (s : State) (c : Nat) (cmd : Cmd) (b : BitVec 512) : State :=
  let ctx := (s.core c).ctx
  match cmd.work with
  | _ :: fr :: status :: moved :: stop :: l =>
    if !s.cmdSettled c cmd then s.at_ (s.now + 1) (.pageMove c cmd.seq)
    else
      let r := if fr = 0 then Except.ok ((), s) else (pushFrame (ctxPool noCore ctx) (s.mctl' ctx (frameKind (fr - 1)) % 2 ^ 56) (fr - 1)).run s
      match r with
      | .error st =>
        if st = kvWaits then s.at_ (s.now + 1) (.pageMove c cmd.seq) else (s.unlockRec c cmd (recOf l)).migEnd c cmd st moved (moved * pageSize)
      | .ok (_, t) =>
        let u := t.unlockRec c cmd (recOf l)
        if stop = 1 then u.migEnd c cmd status moved (moved * pageSize) else u.migNext c cmd b status moved (moved * pageSize)
  | _ => s

/-- A MIGR that a KILL discards (R272): a page in motion keeps its old home, one that has landed gives its old frame back, and a LOCK that it has, or
has asked for, clears. -/
def State.dropMigr (s : State) (c : Nat) (cmd : Cmd) : State :=
  match cmd.op, cmd.block, cmd.phase, cmd.work with
  | .migr _ _, some b, 1, loc :: l => (s.migKeep c cmd b loc (recOf l)).unlockRec c cmd (recOf l)
  | .migr _ _, some _, 4, _ :: fr :: _ :: _ :: _ :: l =>
    let ctx := (s.core c).ctx
    (match (if fr = 0 then Except.ok ((), s) else (pushFrame (ctxPool noCore ctx) (s.mctl' ctx (frameKind (fr - 1)) % 2 ^ 56) (fr - 1)).run s) with
      | .ok (_, t) => t
      | .error _ => s).unlockRec c cmd (recOf l)
  | .migr _ _, some b, 3, _ =>
    let t : State := { s with answered := cmd.got.map (fun g => (g.1, g.2.getD [])) }
    (match t.shareRec (s.core c).ctx (cmd.page b) with
      | some a =>
        let w := t.shareWord (a + 16)
        (match cmd.work with
        | old :: _ => if old = w then s.recWrite c cmd (a + 16) w else s
        | [] => { s with outs := s.outs.map (fun r => if r.who == .command c cmd.seq then { r with who := .lock (a + 16) w } else r) })
      | none => s)
  | _, _, _, _ => s

/-- PAGE_MOVE (R326). -/
def State.pageStep (s : State) (c seq : Nat) : State :=
  match (s.core c).cmd? seq with
  | none => s
  | some cmd =>
    match cmd.op, cmd.block with
    | .migr _ _, some b =>
      if cmd.finished || cmd.start.isNone then s
      else if (s.core c).frz || !s.poolFirst c cmd b then s.at_ (s.now + 1) (.pageMove c seq)
      else
        let t : State := { s with answered := cmd.got.filterMap (fun g => g.2.map (fun bs => (g.1, bs))) }
        let u := match cmd.phase, cmd.work with
          | 1, loc :: l => t.migLand c cmd b loc (recOf l)
          | 3, _ => t.migLocked c cmd b
          | 4, _ => t.migClose c cmd b
          | _, _ => t.migBegin c cmd b
        { u with answered := [] }
    | _, _ => s

/-! ## Prism (R259, R260, R330 to R332) -/

def State.preq (s : State) (r : Nat) : Option PrismReq := Tbl.find? s.prism r
def State.setPreq (s : State) (r : Nat) (x : PrismReq) : State := { s with prism := Tbl.put s.prism r x }

/-- Package number with 0xFFFF for the requester's own. -/
def PrismReq.opkg (x : PrismReq) : Nat := let p := bfld x.block 7 15 0; if p = 0xFFFF then x.apkg else p
def PrismReq.rpkg (x : PrismReq) : Nat := let p := bfld x.block 4 15 0; if p = 0xFFFF then x.apkg else p

/-- The requester fields of a word match A. -/
def PrismReq.matches_ (x : PrismReq) (w : Nat) : Bool :=
  (fld w 15 0 == 0xFFFF || fld w 15 0 == x.apkg) && (bitAt w 23 || (fld w 21 16 == x.actx && fld w 22 22 == x.adie))

/-- What travels with a request: its block, A's context, die and tag. -/
def prismHead (x : PrismReq) : List Byte := toBytes 64 x.block.toNat ++ toBytes 1 x.actx ++ toBytes 1 x.adie ++ toBytes 4 x.tag ++ toBytes 2 x.apkg ++ toBytes 1 x.ostat

/-- A accepts a PRISM into flight; its own package as O reads it, another's answers over the links; where no path leads there it ends with PROT
(R372). -/
def State.prismStart (s : State) (c : Nat) (cmd : Cmd) (b : BitVec 512) : State :=
  let k := s.core c
  let r : PrismReq := { core := c, seq := cmd.seq, pc := cmd.pc, tag := if cmd.tag = 0 then cmd.seq else cmd.tag.toNat, apkg := s.pkgnum, aid := s.nPrism,
                        actx := k.ctx % 64, adie := dieOf c, block := b }
  let s1 := { s.setPreq s.nPrism r with nPrism := s.nPrism + 1 }
  if r.opkg ≠ s.pkgnum ∧ !s.hasPath r.opkg then s.setCmd c { cmd with finished := true, status := addStatus cmd.status 3 }
  else if r.opkg = s.pkgnum then (s1.at_ (s1.now + 1 + Config.latency s1.fresh) (.prismReadAtOwner s.nPrism)).tick1
  else s1.queueMem r.opkg (memPayload 4 s.nPrism (prismHead r))

/-- The export entry that a read uses (R332 check 1): its OVA translated start, context. -/
def State.exportFor (s : State) (x : PrismReq) : Option (Nat × Nat) :=
  let a := bfld x.block 3 55 0
  let n := bfld x.block 5 55 32
  (List.range s.expn).foldl (fun (r : Option (Nat × Nat)) i =>
    match r with
    | some _ => r
    | none =>
      let w (j : Nat) : Nat := word64 s.mem (s.expbase + 32 * i + 8 * j)
      let base := w 0 % 2 ^ 56
      if bitAt (w 1) 48 && bitAt (w 1) 49 && decide (base ≤ a) && decide (a + n ≤ base + w 1 % 2 ^ 48) && x.matches_ (w 3) then
        some (w 2 % 2 ^ 56 + (a - base), ctxKey (fld (w 2) 62 62) (fld (w 2) 61 56))
      else none) none

/-- Bytes of the pages that translate, up to the first that does not, and its status. -/
def State.prismBytes (s : State) (ctx : Nat) : Nat → Nat → Nat → List Byte × Option Nat
  | 0, _, _ => ([], none)
  | f + 1, va, n =>
    if n = 0 then ([], none)
    else
      let part := Nat.min n (65536 - va % 65536)
      match s.vLoc ctx va { r := true } with
      | .error e => ([], some e)
      | .ok loc =>
        match s.badByte { r := true } loc part with
        | some (g, i) => (s.rdBytes loc i, some (engStatus g))
        | none =>
          let r := State.prismBytes s ctx f (va + part) (n - part)
          (s.rdBytes loc part ++ r.1, r.2)

/-- An answer of O or C travels to A: within this package as an event, to another as a MEM flit. -/
def State.toA (s : State) (x : PrismReq) (e : Instr) : State :=
  if x.apkg = s.pkgnum then (s.at_ (s.now + 1 + Config.latency s.fresh) e).tick1
  else match e with
    | .prismAccepted _ st => s.queueMem x.apkg (memPayload 8 x.aid (toBytes 1 st))
    | .prismFaultReturn _ st => s.queueMem x.apkg (memPayload 9 x.aid (toBytes 1 st))
    | _ => s

/-- A request as its data names it: A's number of it, and A's package above bit 32. -/
def PrismReq.name (x : PrismReq) : Nat := x.aid % 2 ^ 32 + x.apkg * 2 ^ 32

/-- Delivery at C, within this package as an event, to another as MEM flits; where no path leads there A hears of PROT (R372). -/
def State.toC (s : State) (r : Nat) (x : PrismReq) : State :=
  let s1 := s.setPreq r x
  if x.rpkg = s.pkgnum then (s1.at_ (s1.now + 1 + Config.latency s1.fresh) (.prismDeposit r)).tick1
  else if !s.hasPath x.rpkg then (s.setPreq r { x with phase := 3, bytes := [] }).toA x (.prismFaultReturn r 3)
  else
    let t1 := s1.queueMem x.rpkg (memPayload 5 x.aid (prismHead x))
    let t2 := (chunks128 (x.bytes.length / 128 + 1) x.bytes).foldl (fun (t : State) c => t.queueMem x.rpkg (memPayload 6 x.name c)) t1
    t2.queueMem x.rpkg (memPayload 7 x.name [])

/-- PRISM_READ_AT_OWNER (R332 checks 1 and 2). A refusal reads nothing and cancels C; a fault on a later page ends the read there. -/
def State.prismRead (s : State) (r : Nat) : State :=
  match s.preq r with
  | none => s
  | some x =>
    if x.phase ≠ 0 then s
    else match s.exportFor x with
      | none => (s.toA x (.prismAccepted r 4)).toC r { x with phase := 1, ostat := 6 }
      | some (va, ctx) =>
        let n := bfld x.block 5 55 32
        let d := s.prismBytes ctx (pagesOf n) va n
        match d.2 with
        | none => (s.toA x (.prismAccepted r 0)).toC r { x with phase := 1, bytes := d.1, ostat := 0 }
        | some e =>
          if d.1.isEmpty then (s.toA x (.prismAccepted r e)).toC r { x with phase := 1, ostat := 6 }
          else ((s.toA x (.prismAccepted r 0)).toA x (.prismFaultReturn r e)).toC r { x with phase := 1, bytes := d.1, ostat := 6 }

/-- PRISM_ACCEPTED (R260): A's command completes with the owner's answer. The manual states no COUNT for it: a free value (log 4). The
payload of an arrival on a byte barrier is LEN where O accepts; DESIGN CHOICE (log 93). -/
def State.prismAnswer (s : State) (r status : Nat) : State :=
  match s.preq r with
  | none => s
  | some x =>
    if x.apkg ≠ s.pkgnum then s
    else match (s.core x.core).cmd? x.seq with
      | none => s
      | some cmd =>
        if cmd.finished then s
        else (s.setCmd x.core { cmd with finished := true, status := addStatus cmd.status status, count := (freeWord s.fresh).toNat % 2 ^ 24,
                                         pay := if status = 0 then bfld x.block 5 55 32 else 0 }).tick1

/-- The words of the receive window that a request names (R331), its index being core or group. -/
def State.rwWords (s : State) (x : PrismReq) : List Nat :=
  let id := bfld x.block 4 27 16
  let i := (if bfld x.block 4 28 28 = 1 then 4096 + 32 * dieOf id + groupOf id else id) * 256 + bfld x.block 4 39 32
  (List.range 4).map (fun j => word64 s.mem (s.rwtbase + 32 * i + 8 * j))

/-- C reads the window's entry when the first data flit arrives; a later change does not affect the request (R332 check 3). -/
def State.prismCheck (s : State) (r : Nat) : State :=
  match s.preq r with
  | none => s
  | some x => if x.win.isSome then s else s.setPreq r { x with win := some (s.rwWords x) }

def PrismReq.withWin (x : PrismReq) (w : List Nat) : PrismReq := { x with win := some (x.win.getD w) }

/-- A word of the window as the check found it. -/
def PrismReq.rw (x : PrismReq) (j : Nat) : Nat := (x.win.getD []).getD j 0
def PrismReq.valid (x : PrismReq) : Bool := bitAt (x.rw 1) 32
def PrismReq.named (x : PrismReq) : Bool := x.valid && x.matches_ (x.rw 2)
def PrismReq.granted (x : PrismReq) : Bool := x.named && decide (bfld x.block 5 31 0 + bfld x.block 5 55 32 ≤ x.rw 1 % 2 ^ 32)
def PrismReq.wcore (x : PrismReq) : Nat := bfld x.block 4 27 16
def PrismReq.wctx (x : PrismReq) : Nat := ctxKey (dieOf x.wcore) (x.rw 3 % 64)

/-- Where bytes of the window from an offset up lie, and how many of `n` lie there in one piece that may be written (R332 check 4). -/
def State.rwPart (s : State) (x : PrismReq) (off n : Nat) : Option (Nat × Nat) :=
  if bfld x.block 4 28 28 = 1 then
    let va := (x.rw 0 % 2 ^ 56 + off) % 2 ^ 56
    match s.vLoc x.wctx va { w := true } with
    | .error _ => none
    | .ok loc =>
      let part := Nat.min n (65536 - va % 65536)
      match s.badByte { w := true } loc part with
      | none => some (loc, part)
      | some (_, i) => if i = 0 then none else some (loc, i)
  else
    let o := fld (x.rw 0) 20 0 + off
    if !(s.core x.wcore).bound || decide (s.scratchLen x.wcore ≤ o) then none else some (scratchLoc x.wcore o, Nat.min n (s.scratchLen x.wcore - o))

/-- Bytes of a Prism read at C by the window path (R161); those of a home on Eplia cross the bridge (R12). -/
def State.fabricPut (s : State) (loc : Nat) (bs : List Byte) : State :=
  if homeDie loc = some 1 then s.bridgeSend noCore (agentOf loc) loc bs none else s.landWrite noCore loc bs

/-- C's window lies in a scratch that a debug freeze has stopped: it takes nothing until RESUME (R378). -/
def State.prismFrozen (s : State) (x : PrismReq) : Bool :=
  s.boot.frozen && (match s.rwPart x (bfld x.block 5 31 0) 1 with
    | some (loc, _) => (match placeOf loc with
      | .scratch _ _ => true
      | _ => false)
    | none => false)

/-- Deposit bytes; the bytes delivered and the status of a refusal. -/
def State.deposit (s : State) (x : PrismReq) : Nat → List Byte → Nat → State × Nat × Option Nat
  | 0, _, _ => (s, 0, none)
  | fuel + 1, bs, off =>
    if bs.isEmpty then (s, 0, none)
    else match s.rwPart x off bs.length with
      | none => (s, 0, some 3)
      | some (loc, n) =>
        let q := State.deposit (s.fabricPut loc (bs.take n)) x fuel (bs.drop n) (off + n)
        (q.1, q.2.1 + n, q.2.2)

/-- A deposit, or its completion word, waits at a page in motion or a Mirror region in REBUILD (R326, R335). -/
def State.depositHeld (s : State) (x : PrismReq) (off n : Nat) : Bool :=
  bfld x.block 4 28 28 == 1 && s.writeHeld x.wctx ((x.rw 0 % 2 ^ 56 + off) % 2 ^ 56) n

/-- C's completion word, and its notification (R165, R259). DESIGN CHOICE (log 108): a word that would pass the receive window, or whose address
faults, is not written, and nothing reports it. -/
def State.prismDone (s : State) (x : PrismReq) : State :=
  let b := x.block
  let s1 := if bfld b 6 63 32 + 8 ≤ x.rw 1 % 2 ^ 32 then
      match s.rwPart x (bfld b 6 63 32) 8 with
      | some (loc, 8) => s.fabricPut loc (toBytes 8 (x.cstat + Nat.min x.cn (2 ^ 24 - 1) * 2 ^ 8 + x.tag * 2 ^ 32))
      | _ => s
    else s
  match bfld b 6 1 0 with
  | 2 => s1.postLand none (fld (x.rw 3) 17 6) (bfld b 6 15 8) 1
  | 3 => s1.lateEvent x.wctx (bfld b 6 15 8)
  | _ => s1

/-- The completion word is a release at CSCOPE: it follows the bytes to their homes, across the bridge too, and at SURVIVABLE the acknowledgement of
their deltas (R12, R164, R165). -/
def State.prismWord (s : State) (r : Nat) : State :=
  match s.preq r with
  | none => s
  | some x =>
    if x.phase ≠ 2 then s
    else if bfld x.block 6 4 2 = 7 ∧ !s.deltasAcked x.mark ∨ s.depositHeld x (bfld x.block 6 63 32) 8 ∨ s.prismFrozen x
        ∨ s.bridge.any (fun m => m.src == noCore && decide (m.id < x.bmark)) then s.at_ (s.now + 1) (.prismDeposit r)
    else (s.setPreq r { x with phase := 3 }).prismDone x

/-- C has made up its mind about a request: its status and count stand. -/
def State.prismSettle (s : State) (r : Nat) (x : PrismReq) (status n : Nat) : State :=
  (s.setPreq r { x with phase := 2, bytes := [], cstat := status, cn := n, mark := s.nDelta, bmark := s.nBridge }).prismWord r

/-- PRISM_DEPOSIT (R332 checks 3 and 4, R165). -/
def State.prismLand (s0 : State) (r : Nat) : State :=
  let s := s0.prismCheck r
  match s.preq r with
  | none => s
  | some x =>
    if x.phase = 2 then s.prismWord r
    else if x.phase ≠ 1 then s
    else
      let none_ := s.setPreq r { x with phase := 3, bytes := [] }
      if x.ostat ≠ 0 ∧ x.bytes.isEmpty then (if x.valid then s.prismSettle r x 6 0 else none_)
      else if !x.granted then (if x.valid then s.prismSettle r x 4 0 else none_).toA x (.prismFaultReturn r 4)
      else if s.depositHeld x (bfld x.block 5 31 0) x.bytes.length || s.prismFrozen x then s.at_ (s.now + 1) (.prismDeposit r)
      else
        let d := s.deposit x (pagesOf x.bytes.length) x.bytes (bfld x.block 5 31 0)
        d.1.prismSettle r x (d.2.2.getD x.ostat) d.2.1

/-- PRISM_FAULT_RETURN (R260): a later fault at O or a refusal at C sets A's D record. -/
def State.prismFault (s : State) (r status : Nat) : State :=
  match s.preq r with
  | none => s
  | some x => if x.apkg = s.pkgnum && (s.core x.core).bound then s.setDrec x.core x.pc status else s

/-- Requests that this package holds as O or as C (R332). -/
def State.prqc (s : State) : Nat :=
  (s.prism.filter (fun q => (q.2.phase == 0 && q.2.opkg == s.pkgnum) || ((q.2.phase == 1 || q.2.phase == 2) && q.2.rpkg == s.pkgnum))).length

/-- PRISM's bound (R260): Aset of the class of O, and 40. The own package as O is reached where the export entry that the read will use
leads. -/
def State.prismTime (s : State) (c : Nat) (b : BitVec 512) : Nat :=
  let x : PrismReq := { apkg := s.pkgnum, actx := (s.core c).ctx % 64, adie := dieOf c, block := b }
  if x.opkg ≠ s.pkgnum then classAset 8 + 40
  else match s.exportFor x with
    | none => classAset 4 + 40
    | some (va, ctx) => match s.vLoc ctx va { r := true } with
      | .ok loc => classAset (locClass c loc) + 40
      | .error _ => classAset 4 + 40

/-- A PRISM of a core whose data or completion word has yet to reach a recipient in this package (R272). -/
def State.prismOpen (s : State) (c : Nat) : Bool :=
  s.prism.any (fun q => q.2.apkg == s.pkgnum && q.2.core == c && q.2.rpkg == s.pkgnum && decide (q.2.phase < 3))

/-- A KILL takes the core's PRISM commands that O has not accepted: nothing is read for them (R272). -/
def State.prismKill (s : State) (c : Nat) : State :=
  { s with prism := s.prism.filter (fun q => !(q.2.apkg == s.pkgnum && q.2.core == c && q.2.phase == 0)) }

/-! ## Mirror parity (R334, R335) -/

/-- Product in GF(2^8) over 0x11D. -/
def gfMul (a b : Nat) : Nat :=
  ((List.range 8).foldl (fun (p : Nat × Nat) i =>
    let r := if bitAt b i then p.1 ^^^ p.2 else p.1
    let d := p.2 * 2
    (r, if 256 ≤ d then d ^^^ 0x11D else d)) (0, a)).1

/-- Inverse: the 254th power. -/
def gfInv (a : Nat) : Nat := iter (fun x => gfMul x a) 253 a

/-- c(p, j) of R334. -/
def cauchy (p j : Nat) : Nat := gfInv ((16 + p) ^^^ j)

def gfScale (c : Nat) (bs : List Byte) : List Byte := bs.map (fun b => BitVec.ofNat 8 (gfMul c b.toNat))
def xorBytes (a b : List Byte) : List Byte := (a.zip b).map (fun p => p.1 ^^^ p.2)

def parKey (pkg region line shard : Nat) : Nat := (((pkg * 64 + region) * 2 ^ 48) + line) * 16 + shard

/-- MIRROR_DELTA_APPLY (R335): P := P XOR c(p, j) · Δ, and the line's count for the data shard rises. -/
def State.deltaApply (s : State) (region line shard : Nat) (delta : BitVec 512) : State :=
  if 64 ≤ region then s
  else
    let r := readRegion s.mem (s.mirbase + 64 * region) region
    if r.st = 0 ∨ r.role < r.k ∨ r.k ≤ shard ∨ r.len ≤ 64 * line then s
    else
      let loc := r.pbase + 64 * line
      let new := xorBytes (s.rdBytes loc 64) (gfScale (cauchy (r.role - r.k) shard) (toBytes 64 delta.toNat))
      let k := parKey s.pkgnum region line shard
      { s with mem := memWrite s.mem loc new, parCnt := Tbl.put s.parCnt k ((Tbl.getD s.parCnt k 0 + 1) % 65536) }

/-- MIRROR_DELTA_ACK (R335): one parity package has applied a delta. -/
def State.deltaAck (s : State) (id pkg : Nat) : State :=
  let l := s.deltas.map (fun d => if d.id = id then { d with waiting := d.waiting.filter (fun p => p != pkg) } else d)
  { s with deltas := l.filter (fun d => !d.waiting.isEmpty) }

/-! ## MREB (R262, R336) -/

/-- The location of a shard's line. DESIGN CHOICE (log 110): with DST = 0 a rebuilt line goes to the home that the lost shard's own entry names; the
descriptor has no field for another (R262). -/
def State.shardLoc (s : State) (r : Region) (sh line : Nat) : Nat :=
  let pkg := r.shards.getD sh 0
  if pkg = s.pkgnum then r.pbase + 64 * line else remoteLoc pkg (Config.remotePbase pkg r.idx + 64 * line)

/-- A rebuilt line at its shard (R262, R336): neither a parity range nor REBUILD holds it off. -/
def State.rebuildPut (s : State) (who : Waiter) (loc : Nat) (bs : List Byte) : State :=
  if 2 ^ 64 ≤ loc then s.sendStore who loc bs else { s.unstale loc bs.length with mem := memWrite s.mem loc bs }

/-- Row of the code's generator for a shard. -/
def genRow (k sh : Nat) : List Nat := (List.range k).map (fun j => if sh < k then b2n (sh == j) else cauchy (sh - k) j)

/-- Gaussian elimination over GF(2^8): rows of an augmented matrix, column by column. -/
def gfSolve : Nat → Nat → List (List Nat) → List (List Nat)
  | 0, _, m => m
  | n + 1, col, m =>
    match (List.range m.length).find? (fun i => decide (col ≤ i) && (m.getD i []).getD col 0 != 0) with
    | none => m
    | some i =>
      let a := m.getD i []
      let piv := a.map (fun x => gfMul x (gfInv (a.getD col 0)))
      let m1 := (m.set i (m.getD col [])).set col piv
      gfSolve n (col + 1) ((List.range m1.length).map (fun j =>
        let row := m1.getD j []
        if j = col then row else (row.zip piv).map (fun z => z.1 ^^^ gfMul (row.getD col 0) z.2)))

/-- Coefficients by which K shards give data shard `lost`. -/
def decodeCoef (k lost : Nat) (shs : List Nat) : List Nat :=
  -- unknown weights w with sum of w_s · genRow s = unit row of the lost shard
  let m := (List.range k).map (fun j => shs.map (fun sh => (genRow k sh).getD j 0) ++ [b2n (j == lost)])
  (gfSolve k 0 m).map (fun row => row.getLastD 0)

/-- The count of deltas of a data shard that a parity package has applied to a line: this package's own, or what another answers (log 24). -/
def State.parityCount (s : State) (pkg region line shard : Nat) : Nat :=
  let k := parKey pkg region line shard
  if pkg = s.pkgnum then Tbl.getD s.parCnt k 0 else Config.remoteCount s.now k % 65536

/-- MREB reads a stripe once this package, where it is a surviving data package, is in REBUILD and has every delta of the region acknowledged
(R336). Of another package the engine knows nothing: what that package must have done, system software sees to. -/
def State.stripeReady (s : State) (r : Region) (lost : Nat) : Bool :=
  let own := (List.range r.k).any (fun i => i != lost && !bitAt r.lost i && r.shards.getD i 0 == s.pkgnum)
  !own || (r.st == 3 && s.deltas.all (fun d => d.region != r.idx || !s.deltaOpen d))

/-- The shards that decode a line: the surviving data, and surviving parity lines whose counts agree for every lost data shard, those of
the greatest counts first. -/
def State.survivors (s : State) (r : Region) (lost line : Nat) : Option (List Nat) :=
  let dead (i : Nat) : Bool := bitAt r.lost i || i == lost
  let ds := (List.range r.k).filter (fun i => !dead i)
  let ld := (List.range r.k).filter dead
  if lost ≥ r.k then (if ds.length = r.k then some ds else none)
  else
    let ps := ((List.range r.m).map (fun p => r.k + p)).filter (fun i => !dead i)
    let cnt (i : Nat) : List Nat := ld.map (fun j => s.parityCount (r.shards.getD i 0) r.idx line j)
    let good := ps.filter (fun i => decide (ld.length ≤ (ps.filter (fun j => cnt j == cnt i)).length))
    match leastBy (fun i => (cnt i).map (fun n => 65536 - n)) good with
    | none => none
    | some g => some (ds ++ (ps.filter (fun j => cnt j == cnt g)).take ld.length)

/-- One line of a MREB. DESIGN CHOICE (log 110): a LOSTPKG that is no package of the region ends it BADCMD, a code that R262 does not give for it. -/
def State.mrebLine (s : State) (c : Nat) (cmd : Cmd) (b : BitVec 512) : State × Cmd :=
  let fail (t : State) (st : Nat) : State × Cmd := (t, { cmd with status := addStatus cmd.status st, finished := true })
  let dl := s.xlateEng c (bfld b 3 63 0) { r := true }
  match dl.2 with
  | .error f => fail dl.1 (engStatus f)
  | .ok da =>
    let r := readRegion s.mem da ((da - s.mirbase) / 64 % 64)
    match (List.range (r.k + r.m)).find? (fun i => r.shards.getD i 0 == bfld b 4 15 0) with
    | none => fail dl.1 1
    | some lost =>
      let line := bfld b 5 63 0 + cmd.count
      let held := bfld b 7 63 0 != 0 && !localAddr (bfld b 7 63 0) && s.writeHeld (s.core c).ctx ((bfld b 7 63 0 + 64 * cmd.count) % 2 ^ 64) 64
      if !s.stripeReady r lost || held then (dl.1, cmd)
      else match s.survivors r lost line with
      | none => fail dl.1 14
      | some shs =>
        let coef := if r.k ≤ lost then genRow r.k lost else decodeCoef r.k lost shs
        let data := (shs.zip coef).foldl (fun acc z => xorBytes acc (gfScale z.2 (s.rdBytes (s.shardLoc r z.1 line) 64))) (List.replicate 64 0)
        let w := if bfld b 7 63 0 = 0 then (dl.1.rebuildPut (.command c cmd.seq) (s.shardLoc r lost line) data, 64, none)
          else dl.1.cmdPut c cmd ((bfld b 7 63 0 + 64 * cmd.count) % 2 ^ 64) data
        match w.2.2 with
        | some f => fail w.1 (engStatus f)
        | none => (w.1, let n := cmd.count + 1; { cmd with count := n, pay := cmd.pay + 64, finished := decide (bfld b 6 31 0 ≤ n) })

end Sys2Proof.Machine
end

