-- ==== Sys2Proof/Machine/Sync.lean ====
section
/-! DEFINITION. The synchronisation slot (R264 to R270, R299): what each operation waits for and does at its issue, posts and event
writes as they land (R60, R61), and barriers. -/

set_option linter.unusedVariables false

namespace Sys2Proof.Machine

/-! ## Flags (R266) -/

/-- R248's one-way distance between two cores of a die. -/
def coreDist (a b : Nat) : Nat := if a = b then 0 else if quadOf a = quadOf b then 6 else if groupOf a = groupOf b then 12 else 24

/-- The narrowest scope that holds two cores. -/
def scopeOf2 (a b : Nat) : Nat :=
  if a = b then 0 else if quadOf a = quadOf b then 1 else if groupOf a = groupOf b then 2 else if dieOf a = dieOf b then 3 else 4

/-- WAITF holds its bundle until the flag has n (R266). -/
def waitWaitf (ic : Ic) (i c : BitVec 8) (s : State) : Wait :=
  if c.toNat ≤ ((s.core ic.c).cf.getD i.toNat 0).toNat then .go else .wait

/-- WAITF takes n and acts as an LDACQ over the die's scope; with n = 0 it synchronises with nothing. -/
def fireWaitf (ic : Ic) (i c : BitVec 8) (s : State) : Except Stop State :=
  let s1 := s.modCore ic.c (fun k => { k with cf := k.cf.set i.toNat (k.cf.getD i.toNat 0 - c.setWidth 16) })
  .ok (if c = 0 then s1 else (s1.drainTo ic.c 3 false).setMarks ic.c 3)

/-- The target of a POSTF, none for an operand that names no core of the shape on the die. -/
def Ic.postTarget (ic : Ic) (s : State) (e : BitVec 1) (r : BitVec 5) : Option Nat :=
  if e = 1 then some ic.c
  else
    let x := (ic.pre.g.getD r.toNat 0).toNat
    if x < 4096 ∧ s.shapeCore ic.c (dieOf ic.c) x then some x else none

/-- An ordering operation of the sync slot in flight: it performs after every earlier access of the thread (R159). -/
def State.syncOp (s : State) (ic : Ic) (op : Instr) (scope delay aux : Nat) : State :=
  let k := s.core ic.c
  let o : MOp :=
    { id := k.next, op := op, slot := ic.slot, pc := ic.pc, re := false, latch := 0, cls := 4, cyc := k.clk, due := s.now + delay,
      fixed := false, ret := 0, scope := scope, isRead := false, isWrite := false, ea := 0, lcl := false, pieces := [], data := 0,
      data2 := 0, fm := 0, k := 0, aux := aux, logged := false, junk := false, perf := false, val := 0, bundle := ic.bundle.getD k.bundles }
  s.modCore ic.c (fun k => { k with mops := k.mops ++ [o], next := k.next + 1 })

/-- A post or event write of the thread that has yet to act. -/
def MOp.isPost (o : MOp) : Bool :=
  !o.perf && (match o.op with
    | .postf _ _ _ _ _ => true
    | .sete _ _ => true
    | .clre _ _ => true
    | _ => false)

/-- POSTF (R266): the post lands at the end of cycle issue + Dp, after the thread's earlier accesses. -/
def firePostf (ic : Ic) (i c : BitVec 8) (e : BitVec 1) (r : BitVec 5) (grd : BitVec 6) (s : State) : Except Stop State :=
  match ic.postTarget s e r with
  | none => .error (illOp ic)
  | some t => .ok (s.syncOp ic (.postf i c e r grd) (scopeOf2 ic.c t) (coreDist ic.c t) t)

/-! ## Events (R267) and token-ready flags (R268) -/

def waitWaite (ic : Ic) (i : BitVec 8) (s : State) : Wait := if (s.coreCtx ic.c).ev.getLsbD i.toNat then .go else .wait
/-- WAITE does not clear the bit; it acts as an LDACQ at DIE. -/
def fireWaite (ic : Ic) (i : BitVec 8) (s : State) : Except Stop State := .ok ((s.drainTo ic.c 3 false).setMarks ic.c 3)
/-- SETE: at the end of cycle issue + 2, after the thread's earlier accesses at DIE. -/
def fireSete (ic : Ic) (i : BitVec 8) (grd : BitVec 6) (s : State) : Except Stop State := .ok (s.syncOp ic (.sete i grd) 3 2 i.toNat)
/-- CLRE: at the end of cycle issue + 2. -/
def fireClre (ic : Ic) (i : BitVec 8) (grd : BitVec 6) (s : State) : Except Stop State := .ok (s.syncOp ic (.clre i grd) 0 2 i.toNat)

/-- EVENT_BIT_WRITE (R267, R61). -/
def State.eventWrite (s : State) (ctx bit : Nat) (set : Bool) : State := if set then s.setEvent ctx (bit % 256) else s.clrEvent ctx (bit % 256)

def waitWaitt (ic : Ic) (i : BitVec 8) (s : State) : Wait :=
  if dieOf ic.c = 1 then .go else if (s.coreCtx ic.c).tflags.getLsbD i.toNat then .go else .wait

/-- WAITT clears the flag and acts as an LDACQ at PACKAGE; Nared only. -/
def fireWaitt (ic : Ic) (i : BitVec 8) (s : State) : Except Stop State :=
  if dieOf ic.c = 1 then .error (illOp ic)
  else
    .ok (((s.modCtx (s.core ic.c).ctx (fun x => { x with tflags := x.tflags &&& ~~~ (BitVec.ofNat 256 (2 ^ i.toNat)) })).drainTo ic.c 4 false).setMarks ic.c 4)

/-! ## Barriers (R269, R299) -/

/-- Whether a core stands in a barrier's quad (kind 0) or group (kind 1). -/
def sameSpan (kind a b : Nat) : Bool := if kind = 0 then quadOf a == quadOf b else groupOf a == groupOf b && dieOf a == dieOf b

/-- Participants: the tasks of the launch bound in the span that have not ended. -/
def State.barCores (s : State) (c kind : Nat) : List Nat :=
  (s.cores.filter (fun q => (match q.2.status with | .run => true | .stopped => true | _ => false)
    && q.2.launch == (s.core c).launch && sameSpan kind c q.1)).map (fun q => q.1)

/-- Accesses that a barrier arrival releases: unperformed ones of a participant. -/
def Core.openOps (k : Core) : List MOp := k.mops.filter (fun o => !o.perf && (o.isRead || o.isWrite))

/-- The wait that the arrivals' releases make (R299): while any of them waits for accesses on the schedule it is counted, and what then
remains is a delay (R34). -/
def State.releaseWait (s : State) (cs : List Nat) : Wait :=
  let ws := cs.map (fun q => (s.core q).waitFor (s.core q).openOps (!(s.core q).logsEmpty))
  if ws.contains .fixedWait then .fixedWait else if ws.all Wait.isGo then .go else .wait

/-- The arrivals release: every participant's dirty bytes leave for the barrier's scope (R147, R159). -/
def State.barDrain (s : State) (cs : List Nat) (kind : Nat) : State := cs.foldl (fun t q => t.drainTo q (kind + 1) true) s

def barDb (kind : Nat) : Nat := if kind = 0 then 4 else 12

/-- A barrier bundle leaves: it acts as an LDACQ at the barrier's scope, and the barrier counts afresh. -/
def State.barLeave (s : State) (ic : Ic) (kind : Nat) : Except Stop State :=
  .ok (((s.modCore ic.c (fun k => { k with barrier := none })).drainTo ic.c (kind + 1) true).setMarks ic.c (kind + 1))

/-- BARQ and BARG issue once their release cycle has come; the wait for it is the issue logic's (Issue.lean). -/
def fireBarq (ic : Ic) (s : State) : Except Stop State := s.barLeave ic 0
def fireBarg (ic : Ic) (s : State) : Except Stop State := s.barLeave ic 1

/-- The release mark of a TAGGED barrier: kinds 16 and 17. -/
def relKind (kind : Nat) : Nat := kind + 16

/-- BARRIER_RELEASE (R269): every participant that has arrived in the span may issue. A span with a quad number is a quad. -/
def State.barRelease (s : State) (launch die group quad idx : Nat) : State :=
  let kind := if quad < 16 then 0 else 1
  let inSpan (c : Nat) : Bool := dieOf c == die && groupOf c == group && (kind == 1 || fld c 5 2 == quad)
  { s with cores := s.cores.map (fun q =>
      if q.2.launch = launch && q.2.tagged && inSpan q.1 then
        (match q.2.barrier with
          | some (k, i, _) => if k = kind && i = idx then (q.1, { q.2 with barrier := some (relKind kind, idx, s.now) }) else q
          | none => q)
      else q) }

/-- A TAGGED arrival at an issue attempt (R269): the last one starts the Db cycles, once every arrival's release has performed. R269 says
from when Db counts in TIMED mode (R299) and not whether a TAGGED count waits for the releases: it does; DESIGN CHOICE (log 97). -/
def State.barArrive (s : State) (c kind idx : Nat) : State :=
  let s1 := match (s.core c).barrier with
    | some _ => s
    | none => s.modCore c (fun k => { k with barrier := some (kind, idx, s.now) })
  let cs := s1.barCores c kind
  let here (q : Nat) : Bool := match (s1.core q).barrier with | some (k, i, _) => k == kind && i == idx | none => false
  let going := s1.agenda.any (fun e => match e.2 with
    | .barrierRelease l d g q i => l == (s1.core c).launch && d == dieOf c && g == groupOf c && (if kind = 0 then q == fld c 5 2 else decide (16 ≤ q)) && i == idx
    | _ => false)
  if cs.all here && !going && (s1.releaseWait cs).isGo then
    (s1.barDrain cs kind).at_ (s1.now + barDb kind) (.barrierRelease (s1.core c).launch (dieOf c) (groupOf c) (if kind = 0 then fld c 5 2 else 16) idx)
  else s1

/-! ## Link words (R98, R270, R271) -/

/-- The port of an edge core (R358). -/
def edgePort (c : Nat) : Option Nat := if c < 2048 ∧ c % 64 = 0 then some (c / 64) else none

def State.inQueue (s : State) (c n : Nat) : List U64 :=
  match edgePort c with
  | some p => (s.port p).inq.getD n []
  | none => []

def State.outQueue (s : State) (c n : Nat) : List U64 :=
  match edgePort c with
  | some p => (s.port p).outq.getD n []
  | none => []

def waitWaitl (ic : Ic) (i : BitVec 8) (s : State) : Wait :=
  if (edgePort ic.c).isNone then .go else if (s.inQueue ic.c i.toNat).isEmpty then .wait else .go

/-- WAITL pops nothing; off an edge core it is an illegal latch. -/
def fireWaitl (ic : Ic) (i : BitVec 8) (s : State) : Except Stop State :=
  if (edgePort ic.c).isNone then .error { cause := 3, slot := ic.slot } else .ok s

/-- Pop the head of an inbound queue at the issue, and push onto an outbound queue at the end of it. -/
def State.popLink (s : State) (c n : Nat) : State :=
  match edgePort c with
  | some p => s.setPort p { (s.port p) with inq := (s.port p).inq.set n (((s.port p).inq.getD n []).drop 1) }
  | none => s

def State.pushLink (s : State) (c n : Nat) (v : U64) : State :=
  match edgePort c with
  | some p => s.setPort p { (s.port p) with outq := (s.port p).outq.set n ((s.port p).outq.getD n [] ++ [v]) }
  | none => s

end Sys2Proof.Machine
end

