-- ==== Sys2Proof/Machine/Perform.lean ====
section
/-! DEFINITION. What an access does when it performs (R151 to R157, R171 to R184), and what lands at the end of a cycle (R106, R155,
R224, R227): result latches, scale registers, accumulators and weight blocks. -/

set_option linter.unusedVariables false

namespace Sys2Proof.Machine

/-! ## Results -/

/-- A little-endian value sign-extended from `w` bits to 64. -/
def sextV (n w : Nat) : V := (BitVec.ofInt 64 (signed n w)).setWidth 2048

/-- 64 containers of c bits. -/
def codesOf (n c : Nat) : List Nat := (List.range 64).map (fun e => (n >>> (c * e)) % 2 ^ c)

/-- The result of a read from the bytes read (R171, R172, R177, R214). -/
def MOp.result (o : MOp) (raw : V) : V :=
  let n := raw.toNat
  match o.op with
  | .ld8s _ _ _ _ => sextV n 8
  | .ld16s _ _ _ _ => sextV n 16
  | .ld32s _ _ _ _ => sextV n 32
  | .xld _ _ _ => pack 32 (cvtDQ (codesOf n (containerBits o.fm)) o.fm o.k (o.aux / 16) (o.aux % 16))
  | _ => raw

/-- Atomics of the `at` unit. -/
def MOp.isAtomic (o : MOp) : Bool := o.isRead && o.isWrite

/-! ## Reads -/

/-- Whether a fetch with a handle and generation hits a line of the group's operand cache (R148). -/
def State.opcHit (s : State) (c line h n : Nat) : Option CLine :=
  let d := dieOf c
  let g := groupOf c
  match Tbl.find? (Tbl.getD (s.die d).opc g []) (line * 65536 + h) with
  | some l => if l.tag = n ∧ n = Tbl.getD (s.die d).opgen (g * 65536 + h) 0 then some l else none
  | none => none

/-- A line as a fetch that carries an operand handle sees it (R148): the group's operand cache, else below the L1. -/
def State.opcLine (s : State) (c line h n avail : Nat) : State × BitVec 1024 :=
  match s.opcHit c line h n with
  | some l => (s, l.data)
  | none =>
    let d := dieOf c
    let g := groupOf c
    let r := if cacheable c (128 * line) then s.belowL1 c line avail else (s, s.lineBytes line)
    if n ≠ Tbl.getD (s.die d).opgen (g * 65536 + h) 0 then r
    else
      (r.1.modDie d (fun y => { y with
        opc := Tbl.put y.opc g (opcPut (Tbl.getD y.opc g []) (line * 65536 + h) { data := r.2, tag := n, avail := avail }) }), r.2)

/-- The bytes of a piece by way of the operand cache. -/
def State.opcBytes (s : State) (c loc h n avail : Nat) : Nat → State × List Byte
  | 0 => (s, [])
  | m + 1 =>
    let r := s.opcLine c (lineOf loc) h n avail
    let z := State.opcBytes r.1 c (loc + 1) h n avail m
    (z.1, BitVec.ofNat 8 (r.2.toNat >>> (8 * (loc % 128))) :: z.2)

/-- The block that a WLD in flight fills. -/
def Core.wldOf (k : Core) (o : MOp) : Option WBlock := (k.wld.find? (fun w => w.mop == o.id)).map (fun w => w.blk)

/-- The operand handle and generation that a WLD's fetch carries: OC = 1 and an address that is not local (R223). -/
def Core.wldHandle (k : Core) (o : MOp) : Option (Nat × Nat) :=
  match k.wldOf o with
  | some b => if b.oc && !o.lcl then some (b.oph, b.opg) else none
  | none => none

/-- The bytes of one piece as the access reads them. -/
def State.pieceGet (s : State) (c avail : Nat) (o : MOp) (p : Piece) : State × List Byte :=
  match (if o.latch = 5 then (s.core c).wldHandle o else none) with
  | some (h, n) => s.opcBytes c p.loc h n avail p.len
  | none => if o.junk then (s.tick1, s.junkBytes p.loc p.len) else s.thrReads c p.loc avail p.len

/-- A block with its codes, scales and NF from its source's bytes. -/
def WBlock.load (b : WBlock) (bs : List Byte) : WBlock :=
  let n := 1024 * containerBits b.fmt
  let codes := BitVec.ofNat 65536 (ofBytes (bs.take n))
  let scs := (List.range (64 * nbOf b.fmt)).map (fun i => ofBytes (((bs.drop n).drop (2 * i)).take 2))
  { b with codes := codes, scales := scs, nf := blockNF b.fmt codes scs }

/-- The bytes of a WLD fill its block in flight. -/
def Core.wldTake (k : Core) (o : MOp) (parts : List (Nat × List Byte)) : Core :=
  let bs := (parts.foldl (fun l q => insertRank (fun (z : Nat × List Byte) => [z.1]) q l) []).flatMap (fun q => q.2)
  { k with wld := k.wld.map (fun x => if x.mop = o.id then { x with blk := x.blk.load bs, usable := if x.fixed then x.usable else k.clk + 1 } else x) }

/-- Read the pieces of an access, one after the other. -/
def State.piecesGet (s : State) (c avail : Nat) (o : MOp) : List Piece → State × List (Nat × List Byte)
  | [] => (s, [])
  | p :: t =>
    let r := s.pieceGet c avail o p
    let z := State.piecesGet r.1 c avail o t
    (z.1, (p.off, r.2) :: z.2)

/-- A K-slot read writes its scale register (R233). -/
def Core.kLoad (k : Core) (o : MOp) (v : V) : Core :=
  match o.op with
  | .ldk _ _ _ _ => { k with k := k.k.set o.aux (v.setWidth 1024) }
  | .ldk1 _ _ _ _ => { k with k := k.k.set o.aux (BitVec.ofNat 1024 (packNat 16 (List.replicate 64 (v.toNat % 65536)))) }
  | _ => k

/-- A read takes the bytes that it has read: its value is fixed (R151). WAITA's value is the one that woke it. -/
def Core.takeRead (k : Core) (o : MOp) (parts : List (Nat × List Byte)) : Core :=
  if o.latch = 5 then (k.wldTake o parts).setOp { o with perf := true }
  else
    let v := match o.op with
      | .waita _ _ _ _ => o.val
      | .pref _ _ _ _ => 0
      | _ => o.result (assemble parts)
    (k.setOp { o with val := v, perf := true }).kLoad o v

/-- The value that an atomic on the schedule reads, with the reads of its cycle (R155). -/
def State.readOp (s : State) (c : Nat) (o : MOp) : State × V :=
  let r := if o.junk then s.piecesGet c s.now o o.pieces else s.readHome c o.pieces
  (r.1, o.result (assemble r.2))

/-- A read at its cycle performs. An atomic on the schedule keeps what it read until it writes. -/
def State.performRead (s : State) (c : Nat) (o : MOp) : State :=
  if o.isAtomic then
    let r := s.readOp c o
    r.1.modCore c (fun k => k.setOp { o with val := r.2 })
  else
    let r := s.piecesGet c s.now o o.pieces
    r.1.modCore c (fun k => k.takeRead o r.2)

/-! ## Writes -/

/-- The bytes of an atomic's new value. -/
def atomBytes (o : MOp) (v : Nat) : V := BitVec.ofNat 2048 v

/-- An atomic's event or byte-barrier record (R177, R180). -/
def Core.atomFlags (k : Core) (o : MOp) (r : AtomOut) : Core :=
  let k1 := k.flag r.inv false o.slot o.pc
  if r.mark then k1.markRec o.slot o.pc else k1

/-- What an atomic leaves of the value that it read. -/
def MOp.atomOut (o : MOp) : AtomOut := atomicOut o.op (o.val.toNat % 2 ^ 64) (o.data.toNat % 2 ^ 64) o.data2.toNat

/-- An atomic writes what it leaves (R177). -/
def State.atomicAct (s : State) (c : Nat) (o : MOp) : State :=
  let s1 := match o.atomOut.new with | some v => s.writeHome c (s.beforeFlip c o) (atomBytes o v) o.pieces | none => s
  s1.modCore c (fun k => k.atomFlags o o.atomOut)

def State.atomicWrite (s : State) (c : Nat) (o : MOp) : State := (s.atomicAct c o).modCore c (fun k => k.setOp { o with perf := true })

/-- The scope of the release that an ABAR makes (R181). -/
def State.abarScope (s : State) (c : Nat) (o : MOp) : Nat := o.pieces.foldl (fun n p => s.scopeTo c p.loc n) 0

/-- The scope at which an ordering operation releases. -/
def State.relScope (s : State) (c : Nat) (o : MOp) : Nat :=
  match o.op with
  | .abar _ _ _ _ => s.abarScope c o
  | _ => o.scope

/-- An access that writes performs at its cycle: a store, or an atomic whole when its read has not been made in this cycle. -/
def State.performWrite (s : State) (c : Nat) (o : MOp) : State :=
  if o.isAtomic then
    let s1 := match o.op with | .abar _ _ _ _ => s.drainTo c (s.abarScope c o) true | _ => s
    if (s.core c).onSchedule o then s1.atomicWrite c o
    else
      let r := s1.readOp c o
      r.1.atomicWrite c { o with val := r.2 }
  else (s.writePieces c (s.beforeFlip c o) o.data o.pieces).modCore c (fun k => k.setOp { o with perf := true })

/-! ## Accesses that are not on the schedule come about piece by piece (R12, R149 to R152, R154) -/

/-- A piece's request leaves for another die or package. -/
def State.pieceSent (s : State) (c id i : Nat) : State := s.modCore c (fun k => k.setPiece id i (fun p => { p with sent := some s.now }))

/-- A request that left has crossed the bridge (R12). -/
def State.crossed (s : State) (p : Piece) : Bool := match p.sent with | some t => decide (t + 40 ≤ s.now) | none => false

/-- A piece whose location this core reaches across the bridge. -/
def pieceCrosses (c : Nat) (p : Piece) : Bool := cacheable c p.loc && crosses c (lineOf p.loc)

/-- A piece at another package's home: the request goes out once, and the answer completes it (R149, R151). -/
def State.sendPiece (s : State) (c : Nat) (o : MOp) (i : Nat) (p : Piece) (pkg pa : Nat) : State :=
  let who : Waiter := .access c o.id i
  let s1 :=
    if o.isAtomic then
      s.request who pkg 13 pa (toBytes 1 p.len ++ toBytes 1 (atomCode o.op) ++ toBytes 8 (o.data.toNat % 2 ^ 64) ++ toBytes 8 o.data2.toNat)
    else if o.isRead then
      (match o.op with | .ldacq _ _ _ _ => s.drainTo c o.scope false | _ => s).request who pkg 11 pa (toBytes 1 p.len)
    else s.sendStore who p.loc (pieceBytes o.data p)
  s1.pieceSent c o.id i

/-- An atomic at its home (R152): its own core's copies go there first. -/
def State.advAtomic (s : State) (c : Nat) (o : MOp) (i : Nat) (p : Piece) : State :=
  let act (t : State) (ret : Nat) : State :=
    let o1 := { o with val := BitVec.ofNat 2048 (ofBytes (t.rdBytes p.loc p.len)) }
    ((t.atomicAct c o1).modCore c (fun k => { k with mops := k.mops.map (fun q => if q.id = o.id then { q with val := o1.val } else q) })).pieceDone
      c o.id i ret []
  if !pieceCrosses c p then act (s.toHome c p.loc) s.now
  else if p.sent.isNone then (s.toHome c p.loc).pieceSent c o.id i
  else if s.crossed p then act (s.toHome c p.loc) (s.now + 40) else s

/-- The word of an STREL at its home; across the bridge it follows the bytes written back before it. -/
def State.advRelease (s : State) (c : Nat) (o : MOp) (i : Nat) (p : Piece) : State :=
  if pieceCrosses c p then
    ((s.toHome c p.loc).bridgeSend (rdcAgent (dieOf c)) (agentOf p.loc) p.loc (pieceBytes o.data p) none).pieceDone c o.id i (s.now + 80) []
  else (s.writeHome c (s.beforeFlip c o) o.data [p]).pieceDone c o.id i s.now []

/-- The word of an LDACQ, read under the marks that it sets (R147, R150, R157). -/
def State.advAcquire (s : State) (c : Nat) (o : MOp) (i : Nat) (p : Piece) : State :=
  let act (t : State) (avail : Nat) : State :=
    let r := ((t.drainTo c o.scope false).setMarks c o.scope).thrReads c p.loc avail p.len
    r.1.pieceDone c o.id i avail r.2
  if !pieceCrosses c p then act s s.now
  else
    match (if 4 ≤ scopeRank o.scope then Reach.fetch else s.rdcReach c (lineOf p.loc)) with
    | .ready => act s s.now
    | .later => s
    | .fetch =>
      if p.sent.isNone then (if 4 ≤ scopeRank o.scope then s.toHome c p.loc else s).pieceSent c o.id i
      else if s.crossed p then act s (s.now + 40) else s

/-- PREF fills a line that is not present, in L1 or below it (R173). -/
def State.advPrefetch (s : State) (c : Nat) (o : MOp) (i : Nat) (p : Piece) : State :=
  let line := lineOf p.loc
  let there : Bool :=
    if o.aux = 1 then !crosses c line || (Tbl.find? (s.die (dieOf c)).rdc line).isSome
    else s.l1Cap c == 0 || (Tbl.find? (s.core c).l1 line).isSome
  let fill (t : State) (avail : Nat) : State := if o.aux = 1 then t.rdcEnsure (dieOf c) line 0 avail else t.l1Ensure c line avail
  if there then s.pieceDone c o.id i s.now []
  else if !crosses c line || s.rdcFresh (dieOf c) line (s.core c).rdcMark then (fill s s.now).pieceDone c o.id i s.now []
  else if p.sent.isNone then s.pieceSent c o.id i
  else if s.crossed p then (fill s (s.now + 40)).pieceDone c o.id i s.now [] else s

/-- How a piece of a plain read stands: each of its lines through the core's copies, or by the operand cache. -/
def State.pieceReach (s : State) (c : Nat) (o : MOp) (p : Piece) : Reach :=
  match (if o.latch = 5 then (s.core c).wldHandle o else none) with
  | none => s.reaches c p.loc p.len
  | some (h, n) =>
    let ls := (List.range (p.len / 128 + 2)).map (fun i => lineOf p.loc + i)
    let ws := ls.filter (fun l => decide (128 * l < p.loc + p.len) && crosses c l && cacheable c (128 * l) && (s.opcHit c l h n).isNone)
    if ws.any (fun l => s.rdcReach c l == .fetch) then .fetch else if ws.any (fun l => s.rdcReach c l == .later) then .later else .ready

/-- A piece of a plain read. -/
def State.advRead (s : State) (c : Nat) (o : MOp) (i : Nat) (p : Piece) : State :=
  let act (avail : Nat) : State :=
    let r := s.pieceGet c avail o p
    r.1.pieceDone c o.id i avail r.2
  match s.pieceReach c o p with
  | .ready => act s.now
  | .later => s
  | .fetch => if p.sent.isNone then s.pieceSent c o.id i else if s.crossed p then act (s.now + 40) else s

/-- One cycle of one piece of an access. -/
def State.advPiece (s : State) (c id i : Nat) : State :=
  match (s.core c).mops.find? (fun q => q.id == id) with
  | none => s
  | some o =>
    let p := o.pieces.getD i { off := 0, len := 0, loc := 0 }
    if p.got.isSome || decide (s.now < o.due + p.wait) || o.isWrite && s.inRebuild p.loc then s
    else match placeOf p.loc, o.op with
      | _, .waita _ _ _ _ => s.pieceDone c id i (if pieceCrosses c p then s.now + 40 else s.now) []
      | .remote pkg pa, _ => if p.sent.isSome then s else s.sendPiece c o i p pkg pa
      | .carafe slot off, _ =>
        if p.sent.isSome then s
        else (s.carafeSend { slot := slot, off := off, bytes := pieceBytes o.data p, who := .access c id i }).pieceSent c id i
      | _, .strel _ _ _ _ => s.advRelease c o i p
      | _, .ldacq _ _ _ _ => s.advAcquire c o i p
      | _, .pref _ _ _ _ => s.advPrefetch c o i p
      | _, _ =>
        if o.isAtomic then s.advAtomic c o i p
        else if o.isRead then s.advRead c o i p
        else (s.writePieces c (s.beforeFlip c o) o.data [p]).pieceDone c id i s.now []

/-- An access all of whose pieces have come about, and been answered, performs. -/
def State.finishOp (s : State) (c id : Nat) : State :=
  match (s.core c).mops.find? (fun q => q.id == id) with
  | none => s
  | some o =>
    if o.pieces.any (fun p => p.got.isNone) || decide (s.now < o.ret) then s
    else
      let s1 := match o.op with | .ldacq _ _ _ _ => s.setMarks c o.scope | _ => s
      if o.isRead && !o.isAtomic then s1.modCore c (fun k => k.takeRead o (o.pieces.map (fun p => (p.off, p.got.getD []))))
      else s1.modCore c (fun k => k.setOp { o with perf := true })

/-- An ordering operation drains (R147, R150), then waits until its bytes are home. -/
def State.stageOp (s : State) (c id : Nat) : State :=
  match (s.core c).mops.find? (fun q => q.id == id) with
  | none => s
  | some o =>
    if !o.orders || (s.core c).onSchedule o || o.perf then s
    else if o.stage = 0 then
      (if s.mayBegin c o then
        let s1 := s.drainTo c (s.relScope c o) true
        s1.modCore c (fun k => k.setOp { o with stage := 1, mark := s1.nBridge })
      else s)
    else if o.stage = 1 && (decide (scopeRank (s.relScope c o) < 4) && s.pointed (dieOf c) o.mark || s.written (dieOf c) o.mark) then
      s.modCore c (fun k => k.setOp { o with stage := 2, mark := s.nDelta })
    else s

/-- One cycle of an access or ordering operation that is not on the schedule. -/
def State.advance (s : State) (c id : Nat) : State :=
  let s1 := (s.stageOp c id).stageOp c id
  match (s1.core c).mops.find? (fun q => q.id == id) with
  | none => s1
  | some o =>
    if o.fixed || !(o.isRead || o.isWrite) || !s1.canPerform c o then s1
    else ((List.range o.pieces.length).foldl (fun t i => t.advPiece c id i) s1).finishOp c id

/-- Another package's last answer to a command: the claim of an ENQ (R263), the LOCK of a MIGR (R329), or its completion word or arrival on a byte barrier (R242). -/
def State.cmdAnswer (s : State) (c seq : Nat) (bs : List Byte) : State :=
  match (s.core c).cmd? seq with
  | none => s
  | some cmd =>
    if cmd.claims then s.setCmd c { cmd with work := [ofBytes bs], phase := 3 }
    else if cmd.fin = 3 then
      let lost := (match cmd.block with | some b => bAbr b | none => false) && (atomBar (ofBytes bs) (cmd.pay % 2 ^ 48)).mark
      s.setCmd c { cmd with fin := 4, status := if lost then addStatus cmd.status 5 else cmd.status }
    else s

/-- Another package's answer to a request (R149): the last one of a piece completes it. -/
def State.answer (s : State) (id : Nat) (bs : List Byte) : State :=
  match s.outs.find? (fun r => r.id == id) with
  | none => s
  | some r =>
    let s1 : State := { s with outs := s.outs.filter (fun q => q.id != id) }
    match r.who with
    | .access c op i =>
      if s1.outs.any (fun q => q.who == r.who) then s1
      else match (s1.core c).mops.find? (fun q => q.id == op) with
        | none => s1
        | some o =>
          if o.isAtomic then
            let o1 := { o with val := BitVec.ofNat 2048 (ofBytes bs) }
            (s1.modCore c (fun k => (k.setOp o1).atomFlags o1 o1.atomOut)).pieceDone c op i s.now bs
          else s1.pieceDone c op i s.now bs
    | .command c seq => if s1.outs.any (fun q => q.who == r.who) then s1 else s1.cmdAnswer c seq bs
    | .reading c seq loc =>
      s1.modCore c (fun k => { k with cmds := k.cmds.map (fun q =>
        if q.seq = seq then { q with got := q.got.map (fun g => if g.1 = loc && g.2.isNone then (loc, some bs) else g) } else q) })
    | .poll c loc => s1.modCore c (fun k => if k.poll = some (loc, none) then { k with poll := some (loc, some bs) } else k)
    | .loupe c launch pc => if (atomBar (ofBytes bs) 0).mark then s1.lpFault c launch pc 5 else s1
    | .lock loc w => if ofBytes bs = w then s1.sendStore .none loc (toBytes 8 w) else s1
    | .none => s1

/-- Another package refuses a request with PROT (R344, R345): a command takes the status; an access has no effect there, and what a read
returns is free, the manual naming none (log 5). -/
def State.denied (s : State) (id : Nat) : State :=
  match s.outs.find? (fun r => r.id == id) with
  | none => s
  | some r =>
    match r.who with
    | .command c seq =>
      (match (s.core c).cmd? seq with
      | some cmd =>
        if cmd.claims then ({ s with outs := s.outs.filter (fun q => q.id != id) } : State).setCmd c (cmd.faulted .prot)
        else (s.setCmd c { cmd with status := addStatus cmd.status (engStatus .prot) }).answer id []
      | none => s.answer id [])
    | .reading c seq _ =>
      (match (s.core c).cmd? seq with
      | some cmd => ({ s with outs := s.outs.filter (fun q => q.id != id) } : State).setCmd c ({ cmd with got := [] }.faulted .prot)
      | none => s.answer id [])
    | .poll c loc => s.answer id ((List.range 8).map (fun j => Config.remoteByte s.now (loc + j)))
    | .access c op i =>
      (match (s.core c).mops.find? (fun q => q.id == op) with
      | some o => (s.answer id ((List.range (o.pieces.getD i { off := 0, len := 0, loc := 0 }).len).map (fun j => Config.remoteByte s.now j)))
      | none => s.answer id [])
    | _ => s.answer id []

/-- The order of the writes of one core in one cycle (R155): l, at, the K slot, the converter. R155 names no place for an STREL, which no
unit of the rule's list makes; DESIGN CHOICE (log 91): it takes the place of the `at` atomic. -/
def MOp.unitRank (o : MOp) : Nat :=
  match o.op with
  | .stk _ _ _ _ => 2
  | .xst _ _ _ => 3
  | .strel _ _ _ _ => 1
  | _ => if o.isAtomic then 1 else 0

/-! ## Fences, posts and event writes -/

/-- An operand handle is invalidated in the groups of a scope, and its generation advances (R148). -/
def State.swInvalidate (s : State) (c h sc : Nat) : State :=
  let inScope (d g : Nat) : Bool :=
    if scopeRank sc ≤ 2 then d == dieOf c && g == groupOf c else if scopeRank sc = 3 then d == dieOf c else true
  (List.range 2).foldl (fun (t : State) d =>
    (List.range (if d = 0 then 32 else 8)).foldl (fun (u : State) g =>
      if inScope d g then
        u.modDie d (fun y => { y with
          opgen := Tbl.put y.opgen (g * 65536 + h) ((Tbl.getD y.opgen (g * 65536 + h) 0 + 1) % 256)
          opc := Tbl.put y.opc g ((Tbl.getD y.opc g []).filter (fun l => l.1 % 65536 != h)) })
      else u) t) s

/-- An operation that orders and moves no data performs, its drain made before (`State.stageOp`; R157, R184, R266, R267). -/
def State.performOrder (s : State) (c : Nat) (o : MOp) : State :=
  let s1 := match o.op with
    | .fence _ _ _ => s.setMarks c o.scope
    | .svfence _ _ => s.setMarks c o.scope
    | .swfence _ _ _ => (s.setMarks c o.scope).swInvalidate c o.data2.toNat o.scope
    | .postf i n _ _ _ => s.postLand (some (s.core c).launch) o.aux i.toNat n.toNat
    | .sete i _ => s.eventWrite (s.core c).ctx i.toNat true
    | .clre i _ => s.eventWrite (s.core c).ctx i.toNat false
    | _ => s
  s1.modCore c (fun k => k.setOp { o with perf := true })

/-! ## Results in flight -/

/-- One result lands (R106, R210, R211, R234). -/
def Core.land (k : Core) (e : Eff) : Core :=
  match e with
  | .sres i v => { k with sres := k.sres.set i v }
  | .vres i v => { k with vres := k.vres.set i v }
  | .xchunk c ch codes => { k with vres := k.vres.set 1 (chunkPut (k.vres.getD 1 0) c ch codes) }
  | .kent r i v => { k with k := k.k.set r (kPut (k.k.getD r 0) i v) }
  | .kreg r v => { k with k := k.k.set r v }
  | .post _ _ _ => k

def Eff.isKreg (e : Eff) : Bool :=
  match e with
  | .kreg _ _ => true
  | _ => false

/-- The chunk that an operation of the converter brings, joined to the result of the XLD before it, once that is there. -/
def Core.xjoin (k : Core) (o : MOp) : MOp :=
  if o.latch = 4 && !o.perf && !o.isRead then
    match k.mops.find? (fun b => b.id == o.mark) with
    | some b => if b.perf then { o with perf := true, val := chunkPut b.val (o.aux / 32) (o.aux % 32) (codesOf o.data.toNat (o.aux / 32)) } else o
    | none => o
  else o

/-- The chunks that wait for an XLD, in order of issue. -/
def Core.xjoins (k : Core) : Core := k.mops.foldl (fun q o => q.setOp (q.xjoin ((q.mops.find? (fun b => b.id == o.id)).getD o))) k

/-- RESULT_LATCH_WRITE (R106): the results due at the end of the core's cycle land, a K-slot write after an XSC's (R208). An XLD's result
reaches x.r before the chunks of later operations that land in the same cycle (R107, R210). -/
def Core.landDue (k0 : Core) : Core :=
  let k := k0.xjoins.retireLatch 4 k0.mops.length
  let now := k.pend.filter (fun p => decide (p.due ≤ k.clk))
  let k1 := { k with pend := k.pend.filter (fun p => !decide (p.due ≤ k.clk)) }
  let k2 := (now.filter (fun p => !p.eff.isKreg)).foldl (fun q p => q.land p.eff) k1
  (now.filter (fun p => p.eff.isKreg)).foldl (fun q p => q.land p.eff) k2

/-- MMA_RESULT_WRITE and MMAQ_RESULT_WRITE (R227, R228): the accumulators of products due at the end of the core's cycle. -/
def Core.landMma (k : Core) (p : MmaFly → Bool) : Core :=
  let now := k.mma.filter (fun f => p f && decide (f.due ≤ k.clk))
  now.foldl (fun q f => { q with t := q.t.set f.acc ((q.t.getD f.acc {}).putRows f.res) })
    { k with mma := k.mma.filter (fun f => !(p f && decide (f.due ≤ k.clk))) }

/-- Blocks that share a unit of one macro (R223). -/
def WBlock.overlaps (a b : WBlock) : Bool :=
  a.mac == b.mac && decide (a.unit < b.unit + unitsOf b.fmt) && decide (b.unit < a.unit + unitsOf a.fmt)

/-- The read of a WLD in flight has been made. -/
def Core.wldGot (k : Core) (w : WldFly) : Bool := k.mops.all (fun o => o.id != w.mop || o.perf)

/-- The codes of a block stay in its macro's units until another is loaded over them. -/
def Core.keepCodes (k : Core) (b : WBlock) : Core :=
  { k with mac := (List.range (unitsOf b.fmt)).foldl (fun m i => Tbl.put m (64 * b.mac + b.unit + i) (b.codes.extractLsb' (16384 * i) 16384)) k.mac }

/-- WLD_COMPLETE (R223, R224): blocks usable from the next cycle are placed, and what they overlap is evicted. A block from global
memory arrives whether or not the core's clock advances (`t`). -/
def Core.landWld (k : Core) (t : Bool) : Core :=
  let done (w : WldFly) : Bool := (t || !w.fixed) && k.wldGot w && decide (w.usable ≤ k.clk + 1)
  (k.wld.filter done).foldl (fun q w => ({ q with blocks := q.blocks.filter (fun b => !b.overlaps w.blk) ++ [w.blk] } : Core).keepCodes w.blk)
    { k with wld := k.wld.filter (fun w => !done w) }

end Sys2Proof.Machine
end

