-- ==== Sys2Proof/Machine/EngineRun.lean ====
section
/-! DEFINITION. The engine cycle of a core (R238, R245 to R250, R235): block reads, the rows of lane L at their cycles, the steps of
lane G, the follow-on of a CPYM, completions and starts. -/

set_option linter.unusedVariables false

namespace Sys2Proof.Machine

/-- The pool descriptor of a KV command is valid (R251); a KVS takes a row offset below half an entry (R252). -/
def State.poolOk (s : State) (c : Nat) (op : Instr) (b : BitVec 512) : Bool :=
  let p := s.readPool c (s.core c).ctx (bfld b 3 55 0)
  match op, p with
  | .kvs _ _, .ok q => decide (bfld b 5 47 32 < q.esize / 2)
  | .kvs _ _, .error e => e != 1
  | .kvapp _ _, .error e => e != 1
  | .kvfork _ _, .error e => e != 1
  | .kvdrop _ _, .error e => e != 1
  | _, _ => true

/-- Tiles of the core's scratch that areas name by other addresses: through the die scratch window. -/
def State.windowTiles (s : State) (c : Nat) (l : List (Nat × Nat)) : List Nat :=
  (l.flatMap (fun a => if localAddr a.1 then [] else s.spansOf c (pagesOf a.2) a.1 a.2)).flatMap (fun q =>
    match placeOf q.1 with
    | .scratch id off => if id = c then (List.range ((off % 4096 + (q.2 - q.1) + 4095) / 4096)).map (fun i => off / 4096 + i) else []
    | _ => [])

/-- Tiles of the issuing core's scratch that the command reads or writes, by whatever addresses (R161); a KVAPP's by the entry size of its pool
(R253). Where that pool cannot be read the entry size is not known; DESIGN CHOICE (log 103): entries of 4,096 bytes. -/
def State.cmdTiles (s : State) (c : Nat) (op : Instr) (b : BitVec 512) : List Nat :=
  let e := match s.readPool c (s.core c).ctx (bfld b 3 55 0) with | .ok p => p.esize | .error _ => 4096
  (tilesOf op b e ++ s.windowTiles c (cmdAreas op b e)).eraseDups

/-- The time T that a command's entry gives (R245, R247); a KVS by its pool's class, its positions and the blocks that it touches (R252), a
PRISM by the class of its object (R260). -/
def State.svcTime (s : State) (c : Nat) (op : Instr) (b : BitVec 512) : Option Nat :=
  match op with
  | .kvs _ _ =>
    match s.readPool c (s.core c).ctx (bfld b 3 55 0) with
    | .ok p =>
      let cls := s.addrClass c p.blkbase
      let pos := bfld b 4 55 32
      some (classAset cls + kvsNpos b * divUp 256 (classBw cls) + 40 * ((pos + kvsNpos b - 1) / p.ppb - pos / p.ppb + 1))
    | .error _ => some (classAset 6)
  | .prism _ _ => some (s.prismTime c b)
  | _ => s.cmdTime c op b

/-- COMMAND_BLOCK_READ (R238). -/
def State.blockRead (s : State) (c seq : Nat) : State :=
  match (s.core c).cmd? seq with
  | none => s
  | some cmd =>
    if (s.core c).blockReady cmd then
      s.cmdRead c cmd (fun b => ownOk cmd.op b && s.poolOk c cmd.op b) (s.svcTime c cmd.op) (s.cmdTiles c cmd.op)
    else s

/-- COMMAND_START (R246). -/
def State.startCmd (s : State) (c seq : Nat) : State :=
  match (s.core c).cmd? seq with
  | none => s
  | some cmd => if (s.core c).mayStart cmd then s.cmdStart c cmd else s

/-- Everything a command does has been done: its end has been reached, and a KVS holds no block. -/
def Cmd.ended (cmd : Cmd) : Bool :=
  cmd.finished && (match cmd.op with | .kvs _ _ => cmd.work.isEmpty | _ => true)

/-- COMMAND_COMPLETE (R242): the stages of an ended command, as many as come about in this cycle. A completion word waits at a page in
motion or a region in REBUILD (R326, R335). -/
def State.finishSteps (s : State) (c seq : Nat) : Nat → State
  | 0 => s
  | n + 1 =>
    match (s.core c).cmd? seq with
    | none => s
    | some cmd =>
      match cmd.block with
      | none => s
      | some b =>
        if !cmd.ended || cmd.fin == 2 && s.writeHeld (s.core c).ctx (bCwaddr b) 8 then s
        else
          let t := s.cmdStage c cmd b
          match (t.core c).cmd? seq with
          | none => t
          | some cmd1 => if cmd1.fin = cmd.fin then t else State.finishSteps t c seq n

def State.finishCmd (s : State) (c seq : Nat) : State := s.finishSteps c seq 5

/-! ## The follow-on of a CPYM (R235) -/

/-- The core as the cycle found it: rows and formats that the thread writes at the end of this cycle are not in place yet (R227, R235). -/
def Core.asFound (k : Core) : Core :=
  match k.found with
  | some (rs, fs) => { k with t := (k.t.zip rs).map (fun q => { q.1 with rows := q.2 }), fm := fs }
  | none => k

/-- Keep what the cycle found, where a follow-on waits for its issue. -/
def Core.keepFound (k : Core) : Core :=
  if k.cmds.any (fun q => q.phase == 1) then { k with found := some (k.t.map (fun t => t.rows), k.fm) } else k

/-- The issue context of a follow-on: the issuing core's unit, at the command's bundle. -/
def State.followIc (s : State) (c : Nat) (cmd : Cmd) : Ic :=
  { c := c, pre := (s.core c).asFound, limm := 0, pc := cmd.pc, slot := 15, re := false, tv := 0 }

/-- The follow-on meets a conflict of R232. Its own copy into the A-row buffer is none; another command's is one. -/
def State.followConflict (s : State) (c : Nat) (cmd : Cmd) (fop : Nat) (x : U64) : Bool :=
  let k := s.core c
  if fop = 1 then k.planeOn (hMac (mHandle x)) || !k.wld.isEmpty
  else !(k.wldNamed (mHandle x)).isGo || k.anyPlane || s.copyToA c (some cmd.seq) || !(k.t.getD (mAcc x) {}).ready

/-- The newest access and block on its way are the engine's: they read its own tile, not unspecified contents. -/
def Core.ownTile (k : Core) : Core :=
  match k.mops.getLast? with
  | some o => { k.setOp { o with junk := false } with wld := k.wld.map (fun w => if w.mop = o.id then { w with eng := true } else w) }
  | none => k

/-- The newest product is the engine's. -/
def Core.ownMma (k : Core) : Core := match k.mma.getLast? with | some f => { k with mma := k.mma.dropLast ++ [{ f with eng := true }] } | none => k

/-- A fault of the follow-on ends the command with FOLLOW. -/
def Cmd.followFault (cmd : Cmd) : Cmd := { cmd with status := addStatus cmd.status 13, finished := true }

/-- CPYM_FOLLOW_ON (R235): it issues in the first cycle free of a thread trigger of m and of conflicts. -/
def State.followOn (s : State) (c seq : Nat) : State :=
  match (s.core c).cmd? seq with
  | none => s
  | some cmd =>
    match cmd.op, cmd.block with
    | .cpym _ _, some b =>
      let k := s.core c
      let x := u64 (bfld b 7 63 0)
      let fm := k.asFound.fm.getD (bFfm b) 0
      if cmd.phase ≠ 1 ∨ cmd.finished ∨ k.mTrig ∨ s.followConflict c cmd (bFop b) x then s
      else if bFop b = 1 then
        match s.wldStart (s.followIc c cmd) (.wld 0 (BitVec.ofNat 4 (bFfm b)) 31) x fm (bDst b) with
        | .error _ => s.setCmd c cmd.followFault
        | .ok s1 =>
          let s2 := s1.modCore c Core.ownTile
          s2.setCmd c { cmd with phase := 2, work := match (s2.core c).mops.getLast? with | some o => [o.id] | none => [] }
      else
        match s.mmaStart (s.followIc c cmd) x fm with
        | .error _ => s.setCmd c cmd.followFault
        | .ok s0 =>
          let s1 := s0.modCore c Core.ownMma
          s1.setCmd c { cmd with phase := 2, work := match (s1.core c).mma.getLast? with | some f => [f.acc, f.due] | none => [] }
    | _, _ => s

/-- The follow-on has come to its end: the block is usable or the result written. -/
def Core.followDone (k : Core) (cmd : Cmd) : Bool :=
  match cmd.work with
  | [m] => k.wld.all (fun w => w.mop != m)
  | [a, d] => k.mma.all (fun f => !(f.acc == a && f.due == d))
  | _ => true

/-! ## Lane L -/

/-- The engine cycle at whose end row j of a lane-L command has performed (R246). -/
def State.rowCycle (s : State) (c : Nat) (cmd : Cmd) (b : BitVec 512) (j : Nat) : Nat :=
  let cls := s.cmdClass c cmd.op b
  cmd.start.getD 0 + classAset cls + (j + 1) * divUp (bRowb b) (classBw cls) - 1

/-- Rows due in this cycle. -/
def State.rowsDue (s : State) (c : Nat) (b : BitVec 512) : Nat → Cmd → State × Cmd
  | 0, cmd => (s, cmd)
  | n + 1, cmd =>
    if cmd.finished || decide ((s.core c).ecyc < s.rowCycle c cmd b cmd.rowsDone) then (s, cmd)
    else
      let r := s.cmdRow c cmd b
      State.rowsDue r.1 c b n r.2

/-- A copy that has moved its rows completes, or waits for its follow-on. -/
def Cmd.afterRows (cmd : Cmd) (b : BitVec 512) : Cmd :=
  match cmd.op with
  | .cpym _ _ => if cmd.finished && bFop b != 0 && !statusIsError cmd.status && cmd.phase == 0 then { cmd with phase := 1, finished := false } else cmd
  | _ => cmd

/-- The follow-on's part of a CPYM's cycle, after its issue (`followOn`): it runs, and lets the command complete in the cycle after its
end. -/
def State.followCycle (s : State) (c : Nat) (cmd : Cmd) : State :=
  let clock := s.cmdClock c cmd
  if cmd.phase = 1 then s
  else if cmd.phase = 2 then
    (if (s.core c).followDone cmd then s.setCmd c { cmd with phase := 3, due := Nat.max cmd.due (clock + 1) } else s)
  else if cmd.due ≤ clock then s.setCmd c { cmd with finished := true }
  else s

/-- One cycle of a lane-L command that has started. A command whose rows were stopped by a fault completes at its completion cycle. -/
def State.laneL (s : State) (c : Nat) (cmd : Cmd) (b : BitVec 512) : State :=
  if cmd.phase ≠ 0 then s.followCycle c cmd
  else
    let due := decide (cmd.due ≤ (s.core c).ecyc)
    match cmd.op with
    | .score _ _ => if due then let r := s.scoreRun c cmd b; r.1.setCmd c { r.2 with finished := true } else s
    | .rfill _ _ => if due then let r := s.rfillRun c cmd b; r.1.setCmd c { r.2 with finished := true } else s
    | _ =>
      let r := s.rowsDue c b (cmdRows cmd.op b) cmd
      let cmd1 := r.2.afterRows b
      r.1.setCmd c (if cmd1.finished && !due then { cmd1 with phase := 3, finished := false } else cmd1)

/-! ## Lane G -/

/-- The next bytes that a lane-G command writes: address and length. -/
def State.nextWrites (s : State) (c : Nat) (cmd : Cmd) (b : BitVec 512) : List (Nat × Nat) :=
  match cmd.op with
  | .cpy2d _ _ => [(rowAddr (bDst b) (bDstr b) cmd.rowsDone, bRowb b)]
  | .cpym _ _ => if bFop b = 3 then [] else [(rowAddr (bDst b) (bDstr b) cmd.rowsDone, bRowb b)]
  | .fill _ _ => [(rowAddr (bDst b) (bDstr b) cmd.rowsDone, bRowb b)]
  | .gath _ _ => [((bDst b + cmd.rowsDone * bRowb b) % 2 ^ 64, bRowb b)]
  | .scat _ _ =>
    let ix := ofBytes (s.engGet c cmd.rdcMark (bfld b 6 63 0 + 4 * cmd.rowsDone) 4).2.1
    if ix = 0xFFFFFFFF then [] else [((bDst b + ix * bfld b 7 63 32) % 2 ^ 64, bRowb b)]
  | .score _ _ => [(bfld b 3 55 0 + 4 * bfld b 4 55 32, 4 * bfld b 5 15 0), (bfld b 6 63 0, 4 * bfld b 5 15 0)]
  | .enq _ _ => [(bfld b 3 63 0 + 64, 8)]
  | .nrf _ _ => [(bDst b, 32 * bfld b 5 12 0)]
  | _ => []

/-- A lane-G command that would write to a page in motion or to a region in REBUILD waits (R326, R335). -/
def State.nextHeld (s : State) (c : Nat) (cmd : Cmd) (b : BitVec 512) : Bool :=
  (s.nextWrites c cmd b).any (fun q => !localAddr q.1 && decide (0 < q.2) && s.writeHeld (s.core c).ctx q.1 q.2)

/-- The next bytes that a lane-G command reads, of those it may find in another package: address and length. What a KV command reads of a pool
in another package is free (log 5). -/
def State.nextReads (s : State) (c : Nat) (cmd : Cmd) (b : BitVec 512) : List (Nat × Nat) :=
  let rows : List (Nat × Nat) :=
    if cmd.rowsDone = 0 ∧ s.copyOverlap c cmd.op b then (List.range (bRows b)).map (fun r => (rowAddr (bSrc b) (bSstr b) r, bRowb b))
    else [(rowAddr (bSrc b) (bSstr b) cmd.rowsDone, bRowb b)]
  match cmd.op with
  | .cpy2d _ _ => rows
  | .cpym _ _ => rows
  | .gath _ _ =>
    let ix := ofBytes (s.engGet c cmd.rdcMark (bfld b 6 63 0 + 4 * cmd.rowsDone) 4).2.1
    if ix = 0xFFFFFFFF then [] else [((bSrc b + ix * bfld b 7 63 32) % 2 ^ 64, bRowb b)]
  | .scat _ _ => [((bSrc b + cmd.rowsDone * bRowb b) % 2 ^ 64, bRowb b)]
  | .score _ _ => [(bfld b 3 55 0 + 4 * bfld b 4 55 32, 4 * bfld b 5 15 0)]
  | .enq _ _ => [(bfld b 3 63 0, 16), (bfld b 3 63 0 + 64, 8), (bfld b 3 63 0 + 128, 8)]
  | _ => []

/-- The parts of those reads that lie in other packages: location and length, at most 128 bytes each (R163). -/
def State.farReads (s : State) (c : Nat) (cmd : Cmd) (b : BitVec 512) : List (Nat × Nat) :=
  ((s.nextReads c cmd b).flatMap (fun r => if localAddr r.1 then [] else s.spansOf c (pagesOf r.2) r.1 r.2)).flatMap (fun q =>
    if farLoc q.1 then (List.range ((q.2 - q.1 + 127) / 128)).map (fun i => (q.1 + 128 * i, Nat.min 128 (q.2 - q.1 - 128 * i))) else [])

/-- The reads of another package leave as requests (R149). -/
def State.askFar (s : State) (c : Nat) (cmd : Cmd) (ps : List (Nat × Nat)) : State :=
  (ps.foldl (fun (t : State) p => match placeOf p.1 with
    | .remote pkg pa => t.request (.reading c cmd.seq p.1) pkg 11 pa (toBytes 1 p.2)
    | _ => t) s).setCmd c { cmd with got := ps.map (fun p => (p.1, none)), due := s.now + 1 }

/-- One step of a lane-G command at its cycle; a command that others drive is started by its first step. -/
def State.laneGRun (s : State) (c : Nat) (cmd : Cmd) (b : BitVec 512) : State :=
  let again (r : State × Cmd) : State :=
    (r.1.setCmd c { r.2 with due := r.1.now + 1 + Config.latency r.1.fresh }).tick1
  match cmd.op with
  | .score _ _ => let r := s.scoreRun c cmd b; r.1.setCmd c { r.2 with finished := true }
  | .kvapp _ _ => again (s.kvappStep c cmd b)
  | .kvfork _ _ => again (s.kvforkRun c cmd b)
  | .kvdrop _ _ => again (s.kvdropRun c cmd b)
  | .nrf _ _ => again (s.nrfRun c cmd b)
  | .mreb _ _ => again (s.mrebLine c cmd b)
  | .enq _ _ =>
    match s.enqClaim c cmd b with
    | some r => again r
    | none => s.setCmd c { cmd with due := s.now + 1 }
  | .kvs _ _ => if cmd.phase = 0 then (s.setCmd c { cmd with phase := 1 }).at_ (s.now + 1) (.kvStreamHold c cmd.seq) else s
  | .migr _ _ => if cmd.phase = 0 ∧ cmd.work.isEmpty then (s.setCmd c { cmd with due := 2 ^ 64 }).at_ (s.now + 1) (.pageMove c cmd.seq) else s
  | .prism _ _ => if cmd.phase = 0 then (s.setCmd c { cmd with phase := 1 }).prismStart c { cmd with phase := 1 } b else s
  | _ =>
    let r := s.cmdRow c cmd b
    again (r.1, r.2.afterRows b)

/-- A step of a lane-G command: it waits at a page in motion or a region in REBUILD, and for what it reads in another package. -/
def State.laneGStep (s : State) (c : Nat) (cmd : Cmd) (b : BitVec 512) : State :=
  if s.nextHeld c cmd b then s.setCmd c { cmd with due := s.now + 1 }
  else if cmd.got.any (fun g => g.2.isNone) then s.setCmd c { cmd with due := s.now + 1 }
  else if cmd.got.isEmpty then
    (match s.farReads c cmd b with
    | [] => s.laneGRun c cmd b
    | p :: ps => s.askFar c cmd (p :: ps))
  else
    let t := State.laneGRun { s with answered := cmd.got.map (fun g => (g.1, g.2.getD [])) } c { cmd with got := [] } b
    { t with answered := [] }

/-- One cycle of a lane-G command. -/
def State.laneG (s : State) (c : Nat) (cmd : Cmd) (b : BitVec 512) : State :=
  match cmd.op with
  | .cpym _ _ =>
    if cmd.phase ≠ 0 then s.followCycle c cmd
    else if decide (s.now < cmd.due) then s else s.laneGStep c cmd b
  | _ => if decide (s.now < cmd.due) then s else s.laneGStep c cmd b

/-- ENQ_CLAIM (R263): a sleeping ENQ claims its slots once there is room. -/
def State.enqTry (s : State) (c seq : Nat) : State :=
  match (s.core c).cmd? seq with
  | none => s
  | some cmd =>
    match cmd.op, cmd.block with
    | .enq _ _, some b => if cmd.start.isNone || cmd.finished then s else s.laneGStep c cmd b
    | _, _ => s

/-! ## The engine cycle -/

/-- A cycle of one command that has started; `tick` when the core's queue counts this cycle. -/
def State.cmdCycle (s : State) (c : Nat) (tick : Bool) (seq : Nat) : State :=
  match (s.core c).cmd? seq with
  | none => s
  | some cmd =>
    match cmd.block, cmd.start with
    | some b, some st =>
      if (s.core c).ecyc < st ∨ cmd.finished then s
      else if cmd.lane = 1 then s.laneG c cmd b
      else if !tick then s
      else if cmd.lane = 0 then s.laneL c cmd b
      else if cmd.due ≤ (s.core c).ecyc then s.setCmd c { cmd with finished := true }
      else s
    | _, _ => s

/-- The follow-ons that issue in a cycle, on the core as it stands before what lands at the end of it (R235). -/
def State.followOns (s : State) (c : Nat) (tick : Bool) : State :=
  (s.core c).cmds.foldl (fun t q => if q.phase = 1 && (tick || q.lane == 1) then t.followOn c q.seq else t) s

/-- A command with NOTIFY NONE that is not complete at the cycle its formula promised (R247): the next bundle takes TIMING, with the
early-read checker on. -/
def State.lateCheck (s : State) (c : Nat) (cmd : Cmd) : State :=
  match (s.core c).cmd? cmd.seq, cmd.block, cmd.start, cmd.svc with
  | some q, some b, some st, some t =>
    if q.fin = 0 ∧ bNotify b = 0 ∧ !(s.core c).tagged ∧ (s.coreCtx c).erc ∧ (s.core c).ecyc + 1 = st + t then s.modCore c (fun k => { k with timingSub := 3 }) else s
  | _, _, _, _ => s

/-- The engine's part of a cycle in which the core is not frozen: blocks are read, commands run and complete, and commands start. In a
cycle that the core's queue does not count (`tick`, R34) lane G goes on alone. -/
def State.engineCycle (s : State) (c : Nat) (tick : Bool) : State :=
  if (s.core c).cmds.isEmpty then s
  else
    let seqs := (s.core c).cmds.map (fun q => q.seq)
    let s1 := if tick then seqs.foldl (fun t q => t.blockRead c q) s else s
    let s2 := seqs.foldl (fun t q => (t.cmdCycle c tick q).finishCmd c q) s1
    if !tick then s2
    else
      let s3 := (s2.core c).cmds.foldl (fun t q => t.lateCheck c q) s2
      seqs.foldl (fun t q => t.startCmd c q) s3

end Sys2Proof.Machine
end

