-- ==== Sys2Proof/Machine/Sys.lean ====
section
/-! DEFINITION. The privileged operations (R302, R303): what each waits for and does at its issue, context records in memory (R301),
queue binding (R305), and the freezing and releasing of agents (R343 to R345). -/

set_option linter.unusedVariables false

namespace Sys2Proof.Machine

/-- ss0 takes the result of the operation. -/
def State.sysRes (s : State) (ic : Ic) (v : U64) : State := s.modCore ic.c (fun k => { k with ss := k.ss.set 0 v })

/-- CTXSEL as a context of the issuing die. -/
def Ic.ctxsel (ic : Ic) : Nat := ctxKey (dieOf ic.c) (fld (ic.pre.ss.getD 3 0).toNat 5 0)
def Ic.sysarg (ic : Ic) : Nat := (ic.pre.ss.getD 1 0).toNat

/-! ## TLBINV, PTWFENCE (R321) -/

def tlbinvBad (t : Nat) : Bool := fld t 1 0 == 3 || fld t 15 2 != 0

/-- How far the core's TLBINV, PTWFENCE or REPLAY has got, if it waits. -/
def State.sysw (s : State) (c : Nat) : Option SysWait := (s.core c).sysw.filter (fun w => w.bundle == (s.core c).bundles)

/-- Accesses of kind `p` that a waiting operation follows and that have not performed. -/
def State.cutOps (s : State) (w : SysWait) (p : MOp → Bool) : List MOp :=
  w.cut.flatMap (fun q => (s.core q.1).mops.filter (fun o => p o && decide (o.id < q.2)))

/-- The wait of such an operation: for accesses on the schedule it is counted (R34). `now` when nothing at all is open. -/
def State.sysWait (s : State) (c : Nat) (now : Bool) (p : MOp → Bool) : Wait :=
  match s.sysw c with
  | some w =>
    if w.stage = 2 then .go else if !(s.core c).tagged && w.stage == 0 && (s.cutOps w p).any (fun o => o.fixed) then .fixedWait else .wait
  | none => if now then .go else .wait

/-- A cycle of the wait: `begin_` once, the accesses of kind `p` of the cores `cs`, then `drain`, then the bridge (R12). -/
def State.sysStep (s : State) (c : Nat) (cs : List Nat) (p : MOp → Bool) (held : SysWait → Bool) (begin_ drain : State → State) : State :=
  let s1 := match s.sysw c with
    | some _ => s
    | none => (begin_ s).modCore c (fun k => { k with sysw := some { bundle := k.bundles, cut := cs.map (fun q => (q, (s.core q).next)), outCut := s.nOut } })
  match s1.sysw c with
  | none => s1
  | some w =>
    if w.stage = 0 ∧ (s1.cutOps w p).isEmpty ∧ !held w then
      let s2 := drain s1
      s2.modCore c (fun k => { k with sysw := some { w with stage := 1, mark := s2.nBridge } })
    else if w.stage = 1 ∧ s1.written (dieOf c) w.mark then s1.modCore c (fun k => { k with sysw := some { w with stage := 2 } })
    else s1

/-- An access that travels by a translation and has not performed. -/
def MOp.travels (o : MOp) : Bool := !(o.perf || o.lcl || o.pieces.isEmpty)
/-- An access that writes, or an ordering operation, that has not performed. -/
def MOp.storing (o : MOp) : Bool := !(o.perf || !(o.isWrite || o.orders))

/-- TLBINV completes once the accesses that travel by a translation have performed at their homes. -/
def waitTlbinv (ic : Ic) (s : State) : Wait :=
  if tlbinvBad ic.t.toNat then .go else s.sysWait ic.c (s.translatedDone (dieOf ic.c)) MOp.travels

/-- The entries that a TLBINV names leave the TLBs of its die. -/
def State.tlbGone (s : State) (ic : Ic) : State := s.tlbDrop (dieOf ic.c) (tlbMatch (fld ic.t.toNat 1 0) ic.ctxsel (fld ic.t.toNat 55 16))

/-- While it waits, the entries have left, so that what it follows are the accesses until then, those of engines to other packages among them. -/
def stepTlbinv (ic : Ic) (s : State) : State :=
  if tlbinvBad ic.t.toNat then s
  else s.sysStep ic.c ((s.cores.filter (fun q => dieOf q.1 == dieOf ic.c)).map (fun q => q.1)) MOp.travels (fun w => s.outs.any (fun r => decide (r.id < w.outCut))) (fun t => t.tlbGone ic)
    (fun t => t.dieDrain (dieOf ic.c))

def fireTlbinv (ic : Ic) (s : State) : Except Stop State :=
  let t := ic.t.toNat
  if tlbinvBad t then .error (illOp ic)
  else .ok ((s.tlbGone ic).sysRes ic 0)

/-- The task's stores reach the point that the die's walks read (R321). -/
def State.ptwDrain (s : State) (c : Nat) : State :=
  let s1 := s.drainTo c 3 true
  if dieOf c = 1 then s1.rdcDrain 1 else s1

/-- Every earlier store of the thread is at that point: nothing in flight that writes; on Eplia the copies before the homes are clean. -/
def State.storesHome (s : State) (c : Nat) : Bool :=
  (s.core c).mops.all (fun o => !o.storing)
    && (dieOf c == 0 || (cleanTbl (s.core c).l1 && cleanTbl (Tbl.getD s.qsb (c / 4) []) && s.rdcHome 1))

/-- PTWFENCE (R321) waits for the thread's stores, the side-logged ones among them. -/
def waitPtwfence (ic : Ic) (s : State) : Wait :=
  if (s.core ic.c).logsEmpty then s.sysWait ic.c (s.storesHome ic.c) MOp.storing else .wait

def stepPtwfence (ic : Ic) (s : State) : State :=
  s.sysStep ic.c [ic.c] MOp.storing (fun _ => !(s.core ic.c).logsEmpty) id (fun t => t.ptwDrain ic.c)

def firePtwfence (ic : Ic) (s : State) : Except Stop State := .ok ((s.ptwDrain ic.c).sysRes ic 0)

/-! ## REPLAY and LOGRD (R322, R324) -/

/-- The operand names no logical core of the die, or no unit. -/
def replayBad (c t : Nat) : Bool := !coreIdOk (fld t 11 0) || dieOf (fld t 11 0) != dieOf c || decide (2 ≤ fld t 13 12)

/-- REPLAY's implicit PTWFENCE waits for the stores in flight, not for its own logs; and a region in REBUILD holds it (R335). -/
def waitReplay (ic : Ic) (s : State) : Wait :=
  let t := ic.t.toNat
  if replayBad ic.c t then .go
  else if s.replayHeld (fld t 11 0) (fld t 13 12) then .wait
  else s.sysWait ic.c (s.storesHome ic.c) MOp.storing

def stepReplay (ic : Ic) (s : State) : State :=
  if replayBad ic.c ic.t.toNat then s else s.sysStep ic.c [ic.c] MOp.storing (fun _ => false) id (fun t => t.ptwDrain ic.c)

def fireReplay (ic : Ic) (s : State) : Except Stop State :=
  let t := ic.t.toNat
  if replayBad ic.c t then .error (illOp ic)
  else
    let r := (s.ptwDrain ic.c).replayLog (fld t 11 0) (fld t 13 12)
    let s1 := if r.stopped then r.s.modCore (fld t 11 0) (fun k => match k.status with | .run => { k with freezeReq := true } | _ => k) else r.s
    .ok (s1.sysRes ic (u64 (Nat.min r.replayed 65535 + Nat.min r.refaults 65535 * 2 ^ 16)))

def fireLogrd (ic : Ic) (s : State) : Except Stop State :=
  let t := ic.t.toNat
  if replayBad ic.c t then .error (illOp ic)
  else .ok (s.sysRes ic (u64 ((((s.core (fld t 11 0)).logOf (fld t 13 12)).getD (fld t 20 16) {}).word (fld ic.sysarg 1 0))))

/-! ## Context records (R301) -/

/-- The 64 words of a record. -/
def Ctx.words (x : Ctx) : List Nat :=
  let ev (i : Nat) : Nat := fld x.ev.toNat (64 * i + 63) (64 * i)
  let fm (i : Nat) : Nat := (x.fmv.getD (2 * i) 0).toNat + (x.fmv.getD (2 * i + 1) 0).toNat * 2 ^ 32
  [b2n x.valid + b2n x.priv * 2 + b2n x.debug * 4 + b2n x.schk * 8 + b2n x.erc * 16 + x.linkctx * 2 ^ 5 + b2n x.linkv * 2 ^ 11 + x.part * 2 ^ 12,
    x.ptbase, x.heapb.toNat, x.heapl.toNat, x.heapo.toNat, x.seed0.toNat, x.seed1.toNat, x.tokens + x.tokrate * 2 ^ 32,
    x.tokmax + x.slice * 2 ^ 32, x.prwaddr, x.savebase, x.savelen,
    x.overdue + x.slip * 2 ^ 16 + x.sliceclamp * 2 ^ 32 + x.qerr * 2 ^ 48, 0, 0, 0, ev 0, ev 1, ev 2, ev 3]
  ++ (List.range 8).map fm ++ List.replicate 36 0

def Ctx.bytes (x : Ctx) : List Byte := x.words.flatMap (fun w => toBytes 8 w)

/-- Bits of a counter that a write of 1 clears. -/
def w1c (old w : Nat) : Nat := old &&& ((2 ^ 64 - 1) ^^^ w)

/-- The record that 64 words give, over the old one under the access codes of R6. -/
def Ctx.load (x : Ctx) (w : Nat → Nat) : Ctx :=
  { x with
    valid := bitAt (w 0) 0, priv := bitAt (w 0) 1, debug := bitAt (w 0) 2, schk := bitAt (w 0) 3, erc := bitAt (w 0) 4,
    linkctx := fld (w 0) 10 5, linkv := bitAt (w 0) 11, part := fld (w 0) 19 12, ptbase := fld (w 1) 51 0,
    heapb := u64 (w 2), heapl := u64 (w 3), heapo := u64 (w 4), seed0 := u64 (w 5), seed1 := u64 (w 6),
    tokens := fld (w 7) 31 0, tokrate := fld (w 7) 47 32, tokmax := fld (w 8) 31 0, slice := fld (w 8) 63 32,
    prwaddr := fld (w 9) 55 0, savebase := fld (w 10) 55 0, savelen := fld (w 11) 47 0,
    overdue := w1c x.overdue (fld (w 12) 15 0), slip := w1c x.slip (fld (w 12) 31 16),
    sliceclamp := w1c x.sliceclamp (fld (w 12) 47 32), qerr := w1c x.qerr (fld (w 12) 63 48),
    ev := BitVec.ofNat 256 (w 16 + w 17 * 2 ^ 64 + w 18 * 2 ^ 128 + w 19 * 2 ^ 192),
    fmv := (List.range 16).map (fun i => BitVec.ofNat 32 (fld (w (20 + i / 2)) (32 * (i % 2) + 31) (32 * (i % 2)))) }

/-- The values of a record keep the limits of their rules: format values (R57), the table root (R317), the heap triple (R63). -/
def Ctx.loadOk (x : Ctx) : Bool :=
  x.fmv.all (fun f => fmtLegal f.toNat) && x.ptbase % 2 ^ 20 == 0 && x.heapb.toNat % 65536 == 0 && x.heapl.toNat % 65536 == 0
    && x.heapo.toNat % 65536 == 0 && decide (x.heapb.toNat + x.heapl.toNat ≤ 2 ^ 56) && decide (x.part < 8)

/-- A context has a launch in any state but DONE. -/
def State.ctxBusy (s : State) (key : Nat) : Bool :=
  s.launches.any (fun l => l.2.state != .done && (l.2.ctx == key || (s.coresOf l.1).any (fun c => (s.core c).ctx == key)))

/-- The pieces of a 512-byte record, or the address fault. -/
def State.recPieces (s : State) (ic : Ic) (n : Need) : State × Except Stop (List Piece) :=
  let r := s.xlateChunk ic.c n false (0, ic.t.toNat, 512)
  match r.2 with
  | .ok ps => (r.1, .ok ps)
  | .error (f, a) => (r.1, .error (addrStop ic f a))

/-- CTXSAVE waits at a page in motion or a region in REBUILD (R326, R335). -/
def waitCtxsave (ic : Ic) (s : State) : Wait :=
  if ic.t.toNat % 64 = 0 ∧ !bitAt ic.t.toNat 63 ∧ s.writeHeld (s.core ic.c).ctx (ic.t.toNat % 2 ^ 56) 512 then .wait else .go

/-- CTXSAVE: the record of CTXSEL, taken at one cycle. -/
def fireCtxsave (ic : Ic) (s : State) : Except Stop State :=
  if ic.t.toNat % 64 ≠ 0 then .error (illOp ic)
  else
    let r := s.recPieces ic { w := true }
    match r.2 with
    | .error e => .error e
    | .ok ps =>
      let bs := (s.ctx ic.ctxsel).bytes
      .ok ((ps.foldl (fun (t : State) p => (t.toHome ic.c p.loc).homeWrite ic.c p.loc ((bs.drop p.off).take p.len)) r.1).sysRes ic 0)

/-- A context takes a new record; the event bits that become set fire their vectors (R357). -/
def State.loadCtx (s : State) (i : Nat) (x : Ctx) : State :=
  let old := (s.ctx i).ev
  (List.range 256).foldl (fun (t : State) b => if x.ev.getLsbD b && !old.getLsbD b then t.msixFor i b else t) (s.setCtx i x)

/-- CTXLOAD: refused while the context is busy, or with a value out of its limits. -/
def fireCtxload (ic : Ic) (s : State) : Except Stop State :=
  if ic.t.toNat % 64 ≠ 0 then .error (illOp ic)
  else
    let r := s.recPieces ic { r := true }
    match r.2 with
    | .error e => .error e
    | .ok ps =>
      let h := r.1.readHome ic.c ps
      let bs := (h.2.map (fun q => q.2)).flatten
      let x := (s.ctx ic.ctxsel).load (fun i => ofBytes ((bs.drop (8 * i)).take 8))
      if s.ctxBusy ic.ctxsel then .ok (h.1.sysRes ic 3)
      else if x.loadOk then .ok ((h.1.loadCtx ic.ctxsel x).sysRes ic 0)
      else .ok (h.1.sysRes ic 1)

/-! ## FREEZEM (R343, R344) -/

/-- A freeze of an agent; none is BAD. -/
def State.freezeAgent (s : State) (c agent : Nat) : Option State :=
  let id := fld agent 11 0
  let kind := fld agent 15 14
  if kind = 0 then
    (if fld agent 13 12 ≠ 0 ∨ !coreIdOk id ∨ dieOf id ≠ dieOf c ∨ id = c then none
    else match (s.core id).status with
      | .run => some (s.modCore id (fun k => { k with freezeReq := true }))
      | .stopped => some s
      | _ => none)
  else if kind = 1 then
    (if fld agent 13 12 ≠ 0 ∨ !coreIdOk id ∨ dieOf id ≠ dieOf c then none
    else some (s.modCore id (fun k => { k with engFrozen := true })))
  else if dieOf c = 1 then none
  else if kind = 2 then
    (if fld agent 13 8 ≠ 0 then none
    else if fld agent 7 0 = 255 then some { s with host := { s.host with frozen := true } }
    else some (s.modDie 0 (fun d => { d with qFrozen := if d.qFrozen.contains (fld agent 7 0) then d.qFrozen else fld agent 7 0 :: d.qFrozen })))
  else if fld agent 13 5 ≠ 0 then none
  else some (s.setPort (fld agent 4 0) { (s.port (fld agent 4 0)) with frozen := true })

/-- A release of an agent; none is BAD. -/
def State.releaseAgent (s : State) (c agent : Nat) (clr : Bool) (action : Nat) : Option State :=
  let id := fld agent 11 0
  let kind := fld agent 15 14
  if kind = 0 then
    (if fld agent 13 12 ≠ 0 ∨ !coreIdOk id ∨ dieOf id ≠ dieOf c then none
    else match (s.core id).status with
      | .stopped =>
        if action = 0 then some ((s.resumeTask id clr).modCore id (fun k => { k with relBy := some (s.now, c) }))
        else if action = 1 then some ((if clr then s.resumeTask id true else s).endGang id)
        else none
      | _ => none)
  else if kind = 1 then
    (if fld agent 13 12 ≠ 0 ∨ !coreIdOk id ∨ dieOf id ≠ dieOf c ∨ !(s.core id).engFrozen then none
    else some (s.modCore id (fun k => { k with engFrozen := false })))
  else if dieOf c = 1 then none
  else if kind = 2 then
    (if fld agent 13 8 ≠ 0 then none
    else if fld agent 7 0 = 255 then (if s.host.frozen then some { s with host := { s.host with frozen := false } } else none)
    else if (s.die 0).qFrozen.contains (fld agent 7 0) then some (s.modDie 0 (fun d => { d with qFrozen := d.qFrozen.filter (fun q => q != fld agent 7 0) }))
    else none)
  else if fld agent 13 5 ≠ 0 ∨ !(s.port (fld agent 4 0)).frozen then none
  else some (s.setPort (fld agent 4 0) { (s.port (fld agent 4 0)) with frozen := false })

/-- FREEZEM: t[16] freezes or releases; t[63:20] must be 0. -/
def fireFreezem (ic : Ic) (s : State) : Except Stop State :=
  let t := ic.t.toNat
  if fld t 63 20 ≠ 0 then .error (illOp ic)
  else
    let r := if bitAt t 16 then s.freezeAgent ic.c (fld t 15 0) else s.releaseAgent ic.c (fld t 15 0) (bitAt t 17) (fld t 19 18)
    match r with
    | some s1 => .ok (s1.sysRes ic 0)
    | none => .ok (s.sysRes ic 1)

/-! ## DISPQ (R305) and HALT -/

/-- Where a byte of an access is, by the pieces of the access. -/
def pieceLoc (ps : List Piece) (off : Nat) : Nat :=
  match ps.find? (fun p => decide (p.off ≤ off) && decide (off < p.off + p.len)) with
  | some p => p.loc + (off - p.off)
  | none => 0

/-- The three lines of a descriptor, which may lie in two pages. -/
def descLines (ps : List Piece) : Nat × Nat × Nat := (pieceLoc ps 0, pieceLoc ps 64, pieceLoc ps 128)

/-- A descriptor's fields are within their limits. -/
def descOk (m : List Host.Cell) (loc : Nat) : Bool :=
  let n := fld (word64 m (loc + 8)) 16 0
  let sc := fld (word64 m (loc + 8)) 25 23
  fld (word64 m loc) 55 0 % 64 == 0 && decide (2 ≤ n) && decide (n ≤ 65536) && isPow2 n && decide (3 ≤ sc) && decide (sc ≤ 6)

/-- DISPQ: attach or detach a queue. The dispatcher keeps the descriptor's locations until the translations
that gave them are invalidated (log 26, R321), and takes over its RIDX. -/
def fireDispq (ic : Ic) (s : State) : Except Stop State :=
  let q := fld ic.sysarg 7 0
  let d := s.die (dieOf ic.c)
  let bound := (Tbl.find? d.queues q).isSome
  if !bitAt ic.sysarg 8 then
    (if bound then .ok ((s.modDie (dieOf ic.c) (fun x => { x with queues := Tbl.del x.queues q, queueVa := Tbl.del x.queueVa q, ridx := Tbl.del x.ridx q })).sysRes ic 0)
    else .ok (s.sysRes ic 1))
  else
    let r := s.xlateChunk ic.c { r := true, w := true } false (0, ic.t.toNat, 192)
    match r.2 with
    | .error (f, a) => .error (addrStop ic f a)
    | .ok ps =>
      let h := r.1.readHome ic.c ps
      let ls := descLines ps
      if bound then .ok (h.1.sysRes ic 3)
      else if ic.t.toNat % 64 = 0 ∧ descOk h.1.mem ls.1 then
        .ok ((h.1.modDie (dieOf ic.c) (fun x =>
          { x with queues := Tbl.put x.queues q ls, queueVa := Tbl.put x.queueVa q ((s.core ic.c).ctx, ic.t.toNat % 2 ^ 56), ridx := Tbl.put x.ridx q (u64 (word64 h.1.mem ls.2.2)) })).sysRes ic 0)
      else .ok (h.1.sysRes ic 1)

/-- HALT: ends the task as EXIT does; its physical core leaves dispatch. -/
def fireHalt (ic : Ic) (s : State) : Except Stop State :=
  match fireExit ic s with
  | .ok s1 => .ok ((s1.modCore ic.c (fun k => { k with haltEnd := true })).sysRes ic 0)
  | .error e => .error e

end Sys2Proof.Machine
end

