-- ==== Sys2Proof/Machine/Slots.lean ====
section
/-! DEFINITION. A slot by its operation: the unit that it triggers (R95, R96), what its issue waits for, and what its trigger does. -/

set_option linter.unusedVariables false

namespace Sys2Proof.Machine

/-- What a slot triggers: a unit (R95, R96), nothing for a plain move, or it is a sync or a K slot. -/
inductive FUnit where
  | a0 | a1 | au | c | l | at | ra | fe | d | ps | lp | bq | sys | v | x | m | sync | k | plain | none
  deriving DecidableEq, Repr

/-- The unit of a slot. -/
def unitOf : Instr → FUnit
  | .aadd _ _ _ _ => .at
  | .aand _ _ _ _ => .at
  | .abar _ _ _ _ => .at
  | .abs _ u _ _ => if u = 0 then .a0 else .a1
  | .acas _ _ _ _ => .at
  | .add _ u _ _ => if u = 0 then .a0 else .a1
  | .addb _ _ _ => .au
  | .addsat _ u _ _ => if u = 0 then .a0 else .a1
  | .afadd _ _ _ _ => .at
  | .aincw _ _ _ _ => .at
  | .amax _ _ _ _ => .at
  | .amaxu _ _ _ _ => .at
  | .amin _ _ _ _ => .at
  | .aminu _ _ _ _ => .at
  | .and _ u _ _ => if u = 0 then .a0 else .a1
  | .andn _ u _ _ => if u = 0 then .a0 else .a1
  | .aor _ _ _ _ => .at
  | .asub _ _ _ _ => .at
  | .axchg _ _ _ _ => .at
  | .axor _ _ _ _ => .at
  | .barg _ _ => .sync
  | .barq _ _ => .sync
  | .bmm _ _ _ => .v
  | .bqpop _ _ => .bq
  | .bqpush _ _ => .bq
  | .bqreq _ _ => .bq
  | .brk _ _ => .c
  | .bswap _ u _ _ => if u = 0 then .a0 else .a1
  | .call _ _ => .c
  | .clmul _ u _ _ => if u = 0 then .a0 else .a1
  | .clmulh _ u _ _ => if u = 0 then .a0 else .a1
  | .clre _ _ => .sync
  | .clrstk _ _ => .c
  | .clz _ u _ _ => if u = 0 then .a0 else .a1
  | .cpy2d _ _ => .d
  | .cpym _ _ => .d
  | .ctxload _ _ => .sys
  | .ctxsave _ _ => .sys
  | .ctz _ u _ _ => if u = 0 then .a0 else .a1
  | .dispq _ _ => .sys
  | .divs _ u _ _ => if u = 0 then .a0 else .a1
  | .divu _ u _ _ => if u = 0 then .a0 else .a1
  | .enq _ _ => .d
  | .eq _ u _ _ => if u = 0 then .a0 else .a1
  | .exit _ _ => .c
  | .fence _ _ _ => .fe
  | .fencew _ _ _ => .fe
  | .fill _ _ => .d
  | .freezem _ _ => .sys
  | .gath _ _ => .d
  | .halt _ _ => .sys
  | .hmix _ u _ _ => if u = 0 then .a0 else .a1
  | .idle _ _ => .c
  | .jmp _ _ => .c
  | .jmpr _ _ => .c
  | .kvapp _ _ => .d
  | .kvdrop _ _ => .d
  | .kvfork _ _ => .d
  | .kvs _ _ => .d
  | .ld16s _ _ _ _ => .l
  | .ld16u _ _ _ _ => .l
  | .ld32s _ _ _ _ => .l
  | .ld32u _ _ _ _ => .l
  | .ld64 _ _ _ _ => .l
  | .ld8s _ _ _ _ => .l
  | .ld8u _ _ _ _ => .l
  | .ldacq _ _ _ _ => .ra
  | .ldk _ _ _ _ => .k
  | .ldk1 _ _ _ _ => .k
  | .ldv _ _ _ _ => .l
  | .ldvs _ _ _ _ => .l
  | .le _ u _ _ => if u = 0 then .a0 else .a1
  | .leu _ u _ _ => if u = 0 then .a0 else .a1
  | .logrd _ _ => .sys
  | .loop _ _ _ => .c
  | .lpdep _ _ => .lp
  | .lprb _ _ => .lp
  | .lpres _ _ => .lp
  | .lpset _ _ => .lp
  | .lpsub _ _ => .lp
  | .lt _ u _ _ => if u = 0 then .a0 else .a1
  | .ltu _ u _ _ => if u = 0 then .a0 else .a1
  | .max _ u _ _ => if u = 0 then .a0 else .a1
  | .maxu _ u _ _ => if u = 0 then .a0 else .a1
  | .migr _ _ => .d
  | .min _ u _ _ => if u = 0 then .a0 else .a1
  | .minu _ u _ _ => if u = 0 then .a0 else .a1
  | .mma _ _ _ => .m
  | .mmaq _ _ _ => .m
  | .move _ _ _ _ => .plain
  | .mrd _ _ => .m
  | .mreb _ _ => .d
  | .mscl _ _ => .m
  | .mul _ u _ _ => if u = 0 then .a0 else .a1
  | .mulhs _ u _ _ => if u = 0 then .a0 else .a1
  | .mulhu _ u _ _ => if u = 0 then .a0 else .a1
  | .mvk _ _ _ => .k
  | .mzero _ _ => .m
  | .ne _ u _ _ => if u = 0 then .a0 else .a1
  | .nrf _ _ => .d
  | .or _ u _ _ => if u = 0 then .a0 else .a1
  | .pass _ u _ _ => if u = 0 then .a0 else .a1
  | .pdep _ u _ _ => if u = 0 then .a0 else .a1
  | .pext _ u _ _ => if u = 0 then .a0 else .a1
  | .phase _ _ => .c
  | .popc _ u _ _ => if u = 0 then .a0 else .a1
  | .postf _ _ _ _ _ => .sync
  | .pref _ _ _ _ => .l
  | .prism _ _ => .d
  | .psdep _ _ => .ps
  | .pslook _ _ => .ps
  | .pspin _ _ => .ps
  | .psrel _ _ => .ps
  | .ptwfence _ _ => .sys
  | .pxor _ u _ _ => if u = 0 then .a0 else .a1
  | .rdb _ _ _ => .au
  | .rdsr _ _ => .c
  | .rems _ u _ _ => if u = 0 then .a0 else .a1
  | .remu _ u _ _ => if u = 0 then .a0 else .a1
  | .replay _ _ => .sys
  | .ret _ _ => .c
  | .rfill _ _ => .d
  | .rol _ u _ _ => if u = 0 then .a0 else .a1
  | .ror _ u _ _ => if u = 0 then .a0 else .a1
  | .rstb _ _ _ => .au
  | .sar _ u _ _ => if u = 0 then .a0 else .a1
  | .scat _ _ => .d
  | .score _ _ => .d
  | .setb _ _ _ => .au
  | .sete _ _ => .sync
  | .seti _ _ _ => .au
  | .setls _ _ _ => .au
  | .settrp _ _ _ => .au
  | .setwrap _ _ _ => .au
  | .sext _ u _ _ => if u = 0 then .a0 else .a1
  | .shl _ u _ _ => if u = 0 then .a0 else .a1
  | .shr _ u _ _ => if u = 0 then .a0 else .a1
  | .st16 _ _ _ _ => .l
  | .st32 _ _ _ _ => .l
  | .st64 _ _ _ _ => .l
  | .st8 _ _ _ _ => .l
  | .stk _ _ _ _ => .k
  | .strel _ _ _ _ => .ra
  | .stv _ _ _ _ => .l
  | .sub _ u _ _ => if u = 0 then .a0 else .a1
  | .subsat _ u _ _ => if u = 0 then .a0 else .a1
  | .svfence _ _ => .fe
  | .swfence _ _ _ => .fe
  | .tfence _ _ => .c
  | .tlbinv _ _ => .sys
  | .trap _ _ => .c
  | .vabs _ _ _ => .v
  | .vadd _ _ _ => .v
  | .vand _ _ _ => .v
  | .vbcast _ _ _ => .v
  | .vclmul _ _ _ => .v
  | .vcmpeq _ _ _ => .v
  | .vcmple _ _ _ => .v
  | .vcmplt _ _ _ => .v
  | .vexp2 _ _ _ => .v
  | .vlog2 _ _ _ => .v
  | .vmad _ _ _ => .v
  | .vmask _ _ _ => .v
  | .vmax _ _ _ => .v
  | .vmin _ _ _ => .v
  | .vmul _ _ _ => .v
  | .vneg _ _ _ => .v
  | .vor _ _ _ => .v
  | .vpackg _ _ _ => .v
  | .vpxor _ _ _ => .v
  | .vrcp _ _ _ => .v
  | .vred _ _ _ => .v
  | .vrsq _ _ _ => .v
  | .vscan _ _ _ => .v
  | .vsel _ _ _ => .v
  | .vshl _ _ _ => .v
  | .vshr _ _ _ => .v
  | .vshuf _ _ _ => .v
  | .vsub _ _ _ => .v
  | .vtopk _ _ _ => .v
  | .vtopkm _ _ _ => .v
  | .vxor _ _ _ => .v
  | .waita _ _ _ _ => .l
  | .waite _ _ => .sync
  | .waitf _ _ _ => .sync
  | .waitl _ _ => .sync
  | .waitt _ _ => .sync
  | .wclr _ _ => .m
  | .wld _ _ _ => .m
  | .wrsr _ _ => .c
  | .xbf2f _ _ => .x
  | .xdq _ _ _ => .x
  | .xf2bf _ _ => .x
  | .xf2h _ _ => .x
  | .xf2i _ _ => .x
  | .xgetf _ _ _ => .x
  | .xh2f _ _ => .x
  | .xi2f _ _ => .x
  | .xld _ _ _ => .x
  | .xor _ u _ _ => if u = 0 then .a0 else .a1
  | .xq _ _ _ => .x
  | .xqs _ _ _ => .x
  | .xsc _ _ _ => .x
  | .xsetf _ _ _ => .x
  | .xst _ _ _ => .x
  | .yieldp _ _ => .c
  | .zext _ u _ _ => if u = 0 then .a0 else .a1
  | _ => .none

/-- What the issue of a slot waits for besides its source; a barrier's wait is in Issue.lean. -/
def waitSlot (i : Instr) (ic : Ic) (s : State) : Wait :=
  match i with
  | .aadd src a b grd => waitAadd ic src a b grd s
  | .aand src a b grd => waitAand ic src a b grd s
  | .abar src a b grd => waitAbar ic src a b grd s
  | .acas src a b grd => waitAcas ic src a b grd s
  | .afadd src a b grd => waitAfadd ic src a b grd s
  | .aincw src a b grd => waitAincw ic src a b grd s
  | .amax src a b grd => waitAmax ic src a b grd s
  | .amaxu src a b grd => waitAmaxu ic src a b grd s
  | .amin src a b grd => waitAmin ic src a b grd s
  | .aminu src a b grd => waitAminu ic src a b grd s
  | .aor src a b grd => waitAor ic src a b grd s
  | .asub src a b grd => waitAsub ic src a b grd s
  | .axchg src a b grd => waitAxchg ic src a b grd s
  | .axor src a b grd => waitAxor ic src a b grd s
  | .ld16s src a b grd => waitLd16s ic src a b grd s
  | .ld16u src a b grd => waitLd16u ic src a b grd s
  | .ld32s src a b grd => waitLd32s ic src a b grd s
  | .ld32u src a b grd => waitLd32u ic src a b grd s
  | .ld64 src a b grd => waitLd64 ic src a b grd s
  | .ld8s src a b grd => waitLd8s ic src a b grd s
  | .ld8u src a b grd => waitLd8u ic src a b grd s
  | .ldacq src b p grd => waitLdacq ic src b p grd s
  | .ldk k b o grd => waitLdk ic k b o grd s
  | .ldk1 k b o grd => waitLdk1 ic k b o grd s
  | .ldv src a b grd => waitLdv ic src a b grd s
  | .ldvs src a b grd => waitLdvs ic src a b grd s
  | .mma _ _ _ => waitMma ic s
  | .mrd _ _ => waitMrd ic s
  | .mscl _ _ => waitMscl ic s
  | .phase _ _ => waitPhase ic s
  | .ptwfence _ _ => waitPtwfence ic s
  | .replay _ _ => waitReplay ic s
  | .ctxsave _ _ => waitCtxsave ic s
  | .st16 src a b grd => waitSt16 ic src a b grd s
  | .st32 src a b grd => waitSt32 ic src a b grd s
  | .st64 src a b grd => waitSt64 ic src a b grd s
  | .st8 src a b grd => waitSt8 ic src a b grd s
  | .stk k b o grd => waitStk ic k b o grd s
  | .strel src b p grd => waitStrel ic src b p grd s
  | .stv src a b grd => waitStv ic src a b grd s
  | .tfence _ _ => waitTfence ic s
  | .tlbinv _ _ => waitTlbinv ic s
  | .waita src a b grd => waitWaita ic src a b grd s
  | .waite i _ => waitWaite ic i s
  | .waitf i c _ => waitWaitf ic i c s
  | .waitl i _ => waitWaitl ic i s
  | .waitt i _ => waitWaitt ic i s
  | .wclr _ _ => waitWclr ic s
  | .wld src f grd => waitWld ic src f grd s
  | .xld src f grd => waitXld ic src f grd s
  | .xst src f grd => waitXst ic src f grd s
  | .cpy2d _ _ => waitCmd ic s
  | .cpym _ _ => waitCmd ic s
  | .gath _ _ => waitCmd ic s
  | .scat _ _ => waitCmd ic s
  | .fill _ _ => waitCmd ic s
  | .kvs _ _ => waitCmd ic s
  | .kvapp _ _ => waitCmd ic s
  | .kvfork _ _ => waitCmd ic s
  | .kvdrop _ _ => waitCmd ic s
  | .nrf _ _ => waitCmd ic s
  | .prism _ _ => waitCmd ic s
  | .migr _ _ => waitCmd ic s
  | .enq _ _ => waitCmd ic s
  | .mreb _ _ => waitCmd ic s
  | .score _ _ => waitCmd ic s
  | .rfill _ _ => waitCmd ic s
  | .fence _ _ _ => waitFenceOp ic s
  | .svfence _ _ => waitFenceOp ic s
  | .fencew _ _ _ => waitFenceOp ic s
  | .swfence _ _ _ => waitFenceOp ic s
  | .pslook _ _ => waitSpec ic 9 false s
  | .psdep _ _ => waitSpec ic 9 false s
  | .psrel _ _ => waitSpec ic 9 false s
  | .pspin _ _ => waitSpec ic 9 false s
  | .lpsub _ _ => waitSpec ic 10 false s
  | .lpdep _ _ => waitSpec ic 10 false s
  | .lpres _ _ => waitSpec ic 10 false s
  | .lprb _ _ => waitSpec ic 10 false s
  | .lpset _ _ => waitSpec ic 10 false s
  | .bqpush _ _ => waitSpec ic 11 true s
  | .bqpop _ _ => waitSpec ic 11 false s
  | .bqreq _ _ => waitSpec ic 11 true s
  | .mmaq _ _ _ => waitMma ic s
  | _ => .go

/-- What a slot or a re-issue does once operand moves are applied (R103). A plain move triggers nothing. -/
def fireSlot (i : Instr) (ic : Ic) (s : State) : Except Stop State :=
  match i with
  | .aadd src a b grd => fireAadd ic src a b grd s
  | .aand src a b grd => fireAand ic src a b grd s
  | .abar src a b grd => fireAbar ic src a b grd s
  | .abs _ u w _ => fireAbs ic u w s
  | .acas src a b grd => fireAcas ic src a b grd s
  | .add _ u w _ => fireAdd ic u w s
  | .addb _ b _ => fireAddb ic b s
  | .addsat _ u w _ => fireAddsat ic u w s
  | .afadd src a b grd => fireAfadd ic src a b grd s
  | .aincw src a b grd => fireAincw ic src a b grd s
  | .amax src a b grd => fireAmax ic src a b grd s
  | .amaxu src a b grd => fireAmaxu ic src a b grd s
  | .amin src a b grd => fireAmin ic src a b grd s
  | .aminu src a b grd => fireAminu ic src a b grd s
  | .and _ u w _ => fireAnd ic u w s
  | .andn _ u w _ => fireAndn ic u w s
  | .aor src a b grd => fireAor ic src a b grd s
  | .asub src a b grd => fireAsub ic src a b grd s
  | .axchg src a b grd => fireAxchg ic src a b grd s
  | .axor src a b grd => fireAxor ic src a b grd s
  | .barg _ _ => fireBarg ic s
  | .barq _ _ => fireBarq ic s
  | .bmm _ t _ => fireBmm ic t s
  | .bqpop src grd => fireBqpop ic src grd s
  | .bqpush src grd => fireBqpush ic src grd s
  | .bqreq src grd => fireBqreq ic src grd s
  | .brk _ _ => fireBrk ic s
  | .bswap _ u w _ => fireBswap ic u w s
  | .call _ _ => fireCall ic s
  | .clmul _ u w _ => fireClmul ic u w s
  | .clmulh _ u w _ => fireClmulh ic u w s
  | .clre i grd => fireClre ic i grd s
  | .clrstk _ _ => fireClrstk ic s
  | .clz _ u w _ => fireClz ic u w s
  | .cpy2d src grd => fireCpy2d ic src grd s
  | .cpym src grd => fireCpym ic src grd s
  | .ctxload _ _ => fireCtxload ic s
  | .ctxsave _ _ => fireCtxsave ic s
  | .ctz _ u w _ => fireCtz ic u w s
  | .dispq _ _ => fireDispq ic s
  | .divs _ u w _ => fireDivs ic u w s
  | .divu _ u w _ => fireDivu ic u w s
  | .enq src grd => fireEnq ic src grd s
  | .eq _ u w _ => fireEq ic u w s
  | .exit _ _ => fireExit ic s
  | .fence src p grd => fireFence ic src p grd s
  | .fencew src p grd => fireFencew ic src p grd s
  | .fill src grd => fireFill ic src grd s
  | .freezem _ _ => fireFreezem ic s
  | .gath src grd => fireGath ic src grd s
  | .halt _ _ => fireHalt ic s
  | .hmix _ u w _ => fireHmix ic u w s
  | .idle _ _ => fireIdle ic s
  | .jmp _ _ => fireJmp ic s
  | .jmpr _ _ => fireJmpr ic s
  | .kvapp src grd => fireKvapp ic src grd s
  | .kvdrop src grd => fireKvdrop ic src grd s
  | .kvfork src grd => fireKvfork ic src grd s
  | .kvs src grd => fireKvs ic src grd s
  | .ld16s src a b grd => fireLd16s ic src a b grd s
  | .ld16u src a b grd => fireLd16u ic src a b grd s
  | .ld32s src a b grd => fireLd32s ic src a b grd s
  | .ld32u src a b grd => fireLd32u ic src a b grd s
  | .ld64 src a b grd => fireLd64 ic src a b grd s
  | .ld8s src a b grd => fireLd8s ic src a b grd s
  | .ld8u src a b grd => fireLd8u ic src a b grd s
  | .ldacq src b p grd => fireLdacq ic src b p grd s
  | .ldk k b o grd => fireLdk ic k b o grd s
  | .ldk1 k b o grd => fireLdk1 ic k b o grd s
  | .ldv src a b grd => fireLdv ic src a b grd s
  | .ldvs src a b grd => fireLdvs ic src a b grd s
  | .le _ u w _ => fireLe ic u w s
  | .leu _ u w _ => fireLeu ic u w s
  | .logrd _ _ => fireLogrd ic s
  | .loop _ l _ => fireLoop ic l s
  | .lpdep src grd => fireLpdep ic src grd s
  | .lprb src grd => fireLprb ic src grd s
  | .lpres src grd => fireLpres ic src grd s
  | .lpset src grd => fireLpset ic src grd s
  | .lpsub src grd => fireLpsub ic src grd s
  | .lt _ u w _ => fireLt ic u w s
  | .ltu _ u w _ => fireLtu ic u w s
  | .max _ u w _ => fireMax ic u w s
  | .maxu _ u w _ => fireMaxu ic u w s
  | .migr src grd => fireMigr ic src grd s
  | .min _ u w _ => fireMin ic u w s
  | .minu _ u w _ => fireMinu ic u w s
  | .mma _ f _ => fireMma ic f s
  | .mmaq _ f _ => fireMmaq ic f s
  | .move _ _ _ _ => .ok s
  | .mrd _ _ => fireMrd ic s
  | .mreb src grd => fireMreb ic src grd s
  | .mscl _ _ => fireMscl ic s
  | .mul _ u w _ => fireMul ic u w s
  | .mulhs _ u w _ => fireMulhs ic u w s
  | .mulhu _ u w _ => fireMulhu ic u w s
  | .mvk k j _ => fireMvk ic k j s
  | .mzero _ _ => fireMzero ic s
  | .ne _ u w _ => fireNe ic u w s
  | .nrf src grd => fireNrf ic src grd s
  | .or _ u w _ => fireOr ic u w s
  | .pass _ u w _ => firePass ic u w s
  | .pdep _ u w _ => firePdep ic u w s
  | .pext _ u w _ => firePext ic u w s
  | .phase _ _ => firePhase ic s
  | .popc _ u w _ => firePopc ic u w s
  | .postf i c e r grd => firePostf ic i c e r grd s
  | .pref src a b grd => firePref ic src a b grd s
  | .prism src grd => firePrism ic src grd s
  | .psdep src grd => firePsdep ic src grd s
  | .pslook src grd => firePslook ic src grd s
  | .pspin src grd => firePspin ic src grd s
  | .psrel src grd => firePsrel ic src grd s
  | .ptwfence _ _ => firePtwfence ic s
  | .pxor _ u w _ => firePxor ic u w s
  | .rdb _ b _ => fireRdb ic b s
  | .rdsr _ _ => fireRdsr ic s
  | .rems _ u w _ => fireRems ic u w s
  | .remu _ u w _ => fireRemu ic u w s
  | .replay _ _ => fireReplay ic s
  | .ret _ _ => fireRet ic s
  | .rfill src grd => fireRfill ic src grd s
  | .rol _ u w _ => fireRol ic u w s
  | .ror _ u w _ => fireRor ic u w s
  | .rstb _ b _ => fireRstb ic b s
  | .sar _ u w _ => fireSar ic u w s
  | .scat src grd => fireScat ic src grd s
  | .score src grd => fireScore ic src grd s
  | .setb _ b _ => fireSetb ic b s
  | .sete i grd => fireSete ic i grd s
  | .seti _ b _ => fireSeti ic b s
  | .setls _ b _ => fireSetls ic b s
  | .settrp _ t _ => fireSettrp ic t s
  | .setwrap _ b _ => fireSetwrap ic b s
  | .sext _ u w _ => fireSext ic u w s
  | .shl _ u w _ => fireShl ic u w s
  | .shr _ u w _ => fireShr ic u w s
  | .st16 src a b grd => fireSt16 ic src a b grd s
  | .st32 src a b grd => fireSt32 ic src a b grd s
  | .st64 src a b grd => fireSt64 ic src a b grd s
  | .st8 src a b grd => fireSt8 ic src a b grd s
  | .stk k b o grd => fireStk ic k b o grd s
  | .strel src b p grd => fireStrel ic src b p grd s
  | .stv src a b grd => fireStv ic src a b grd s
  | .sub _ u w _ => fireSub ic u w s
  | .subsat _ u w _ => fireSubsat ic u w s
  | .svfence src grd => fireSvfence ic src grd s
  | .swfence src p grd => fireSwfence ic src p grd s
  | .tfence _ _ => fireTfence ic s
  | .tlbinv _ _ => fireTlbinv ic s
  | .trap _ _ => fireTrap ic s
  | .vabs _ t _ => fireVabs ic t s
  | .vadd _ t _ => fireVadd ic t s
  | .vand _ t _ => fireVand ic t s
  | .vbcast _ t _ => fireVbcast ic t s
  | .vclmul _ t _ => fireVclmul ic t s
  | .vcmpeq _ t _ => fireVcmpeq ic t s
  | .vcmple _ t _ => fireVcmple ic t s
  | .vcmplt _ t _ => fireVcmplt ic t s
  | .vexp2 _ t _ => fireVexp2 ic t s
  | .vlog2 _ t _ => fireVlog2 ic t s
  | .vmad _ t _ => fireVmad ic t s
  | .vmask _ t _ => fireVmask ic t s
  | .vmax _ t _ => fireVmax ic t s
  | .vmin _ t _ => fireVmin ic t s
  | .vmul _ t _ => fireVmul ic t s
  | .vneg _ t _ => fireVneg ic t s
  | .vor _ t _ => fireVor ic t s
  | .vpackg _ t _ => fireVpackg ic t s
  | .vpxor _ t _ => fireVpxor ic t s
  | .vrcp _ t _ => fireVrcp ic t s
  | .vred _ t _ => fireVred ic t s
  | .vrsq _ t _ => fireVrsq ic t s
  | .vscan _ t _ => fireVscan ic t s
  | .vsel _ t _ => fireVsel ic t s
  | .vshl _ t _ => fireVshl ic t s
  | .vshr _ t _ => fireVshr ic t s
  | .vshuf _ t _ => fireVshuf ic t s
  | .vsub _ t _ => fireVsub ic t s
  | .vtopk _ t _ => fireVtopk ic t s
  | .vtopkm _ t _ => fireVtopkm ic t s
  | .vxor _ t _ => fireVxor ic t s
  | .waita src a b grd => fireWaita ic src a b grd s
  | .waite i _ => fireWaite ic i s
  | .waitf i c _ => fireWaitf ic i c s
  | .waitl i _ => fireWaitl ic i s
  | .waitt i _ => fireWaitt ic i s
  | .wclr _ _ => fireWclr ic s
  | .wld src f grd => fireWld ic src f grd s
  | .wrsr _ _ => fireWrsr ic s
  | .xbf2f src grd => fireXbf2f ic src grd s
  | .xdq src f grd => fireXdq ic src f grd s
  | .xf2bf src grd => fireXf2bf ic src grd s
  | .xf2h src grd => fireXf2h ic src grd s
  | .xf2i src grd => fireXf2i ic src grd s
  | .xgetf _ f _ => fireXgetf ic f s
  | .xh2f src grd => fireXh2f ic src grd s
  | .xi2f src grd => fireXi2f ic src grd s
  | .xld src f grd => fireXld ic src f grd s
  | .xor _ u w _ => fireXor ic u w s
  | .xq src f grd => fireXq ic src f grd s
  | .xqs src f grd => fireXqs ic src f grd s
  | .xsc src f grd => fireXsc ic src f grd s
  | .xsetf _ f _ => fireXsetf ic f s
  | .xst src f grd => fireXst ic src f grd s
  | .yieldp _ _ => fireYieldp ic s
  | .zext _ u w _ => fireZext ic u w s
  | _ => .error (illOp ic)

/-- What a cycle of its wait does for an operation that waits until others' accesses have performed, or for another package's answer (R174, R321,
R324). -/
def stepSlot (i : Instr) (ic : Ic) (s : State) : State :=
  match i with
  | .tlbinv _ _ => stepTlbinv ic s
  | .ptwfence _ _ => stepPtwfence ic s
  | .replay _ _ => stepReplay ic s
  | .waita src al b g => stepWaita ic src al b g s
  | _ => s

end Sys2Proof.Machine
end

