-- ==== Sys2Proof/Machine/Issue.lean ====
section
/-! DEFINITION. One issue of a bundle (R34 to R38, R103 to R113, R137, R228, R269, R339, R342, R381): what waits, what is held,
which stop is reported, and the order in which the effects of an issue come about. -/

set_option linter.unusedVariables false

namespace Sys2Proof.Machine

/-- A slot that acts in an issue, or a sticky re-issue, in its context. -/
structure Act where
  i : Instr
  ic : Ic

/-- What an attempt to issue comes to: an ordinary cycle without an issue, a wait that is a delay in TIMED mode, a stop, or an
issue. -/
inductive Try where
  | idle (s : State)
  | delay (s : State)
  | stop (st : Stop)
  | issue (s : State)

/-! ## Kinds of slots -/

/-- Triggers that leave their unit sticky (R101). -/
def stickyOp (i : Instr) : Bool :=
  match unitOf i, i with
  | .l, .waita _ _ _ _ => false
  | .l, _ => true
  | .x, .xsetf _ _ _ => false
  | .x, .xgetf _ _ _ => false
  | .x, _ => true
  | .m, .mrd _ _ => true
  | _, _ => false

/-- A bundle with one of these waits until no slot is held, and issues whole (R37). -/
def wholeSlot (i : Instr) : Bool :=
  match unitOf i, i with
  | .sync, _ => true
  | .k, _ => true
  | .fe, _ => true
  | .ra, _ => true
  | .sys, _ => true
  | .c, .exit _ _ => true
  | .c, .trap _ _ => true
  | .c, .tfence _ _ => true
  | .c, .yieldp _ _ => true
  | .c, .phase _ _ => true
  | _, _ => false

/-- A trigger of d, whose bundle issues whole once no slot is held; the trigger itself is held while the command queue is full (R237,
R238). -/
def engineSlot (i : Instr) : Bool := unitOf i == .d

/-- A bundle with one of these waits until no slot is held (R37, R237, R291). -/
def aloneSlot (i : Instr) : Bool :=
  wholeSlot i || engineSlot i || unitOf i == .ps || unitOf i == .lp || unitOf i == .bq

/-- The barrier of a slot: kind 0 quad, 1 group, and index (R269). -/
def barOf (i : Instr) : Option (Nat × Nat) :=
  match i with
  | .barq n _ => some (0, n.toNat)
  | .barg n _ => some (1, n.toNat)
  | _ => none

def isMmaq (i : Instr) : Bool :=
  match i with
  | .mmaq _ _ _ => true
  | _ => false

def inLink (c : Nat) : Bool := decide (0x80 ≤ c) && decide (c < 0x88)
def inPriv (c : Nat) : Bool := decide (0x70 ≤ c) && decide (c < 0x80)

/-- The link queue that a scalar slot pops, and the one that it pushes (R95, R98). -/
def popOf (i : Instr) : Option Nat :=
  match i.kind, i.srcCode with
  | .m, some x => if inLink x.toNat then some (x.toNat - 0x80) else none
  | _, _ => none

def pushOf (i : Instr) : Option Nat :=
  match i with
  | .move false _ d _ => if inLink d.toNat then some (d.toNat - 0x80) else none
  | _ => none

/-- Slots legal on an edge core only (R98, R270). -/
def linkSlot (i : Instr) : Bool :=
  match i with
  | .waitl _ _ => true
  | _ => (popOf i).isSome || (pushOf i).isSome

/-- Slots that name ss0 to ss15 or sys.t (R116). -/
def privSlot (i : Instr) : Bool :=
  match i.kind, i.srcCode with
  | .m, some x => inPriv x.toNat || (i.isPlain && inPriv i.dstCode) || unitOf i == .sys
  | _, _ => false

/-- The same two of a slot word that may be no instruction. -/
def linkWord (p w : Nat) : Bool :=
  if p < 8 then inLink (fld w 31 23) || inLink (fld w 22 14) else p == 12 && fld w 31 28 == 0xA

/-- The faults of R116 that depend on the core: link codes off an edge core. -/
def linkStop (c : Nat) (slots : List BSlot) : Option Stop :=
  if (edgePort c).isNone then (slots.find? (fun b => linkSlot b.i)).map (fun b => { cause := 3, slot := b.pos }) else none

/-- And on its context: privileged codes. -/
def State.privStop (s : State) (c : Nat) (slots : List BSlot) : Option Stop :=
  if (s.coreCtx c).priv then none else (slots.find? (fun b => privSlot b.i)).map (fun b => { cause := 5, slot := b.pos })

def State.roleStop (s : State) (c : Nat) (slots : List BSlot) : Option Stop := (linkStop c slots).orElse (fun _ => s.privStop c slots)

/-! ## Reading the slots -/

/-- Every result in flight of a latch, landed: what an early read may see (R38). -/
def Core.landAll (k : Core) : Core :=
  k.pend.foldl (fun q p => q.land p.eff)
    { k with mops := k.mops.map (fun o => if o.latch = 4 && !o.isRead && o.perf then { o with cyc := 0 } else o) }

/-- The value a slot reads. An undersized read in TAGGED mode with SCHK off sees the old or the new value (R38). -/
def State.srcVal (s : State) (k : Core) (c : Nat) (limm : U64) (slot : Nat) (i : Instr) : V :=
  let k1 := if k.tagged && k.undersized i && Config.freeBool (s.fresh * 16 + slot) then k.landAll else k
  match i.kind, i.srcCode with
  | .m, some x => (readM k1 c limm (fun n => (s.inQueue c n).headD 0) x.toNat).setWidth 2048
  | .w, some x => readW k1 x.toNat
  | _, _ => 0

/-- The core without the joint product of this cycle, which a member's own MMAQ has put in flight before the member's turn (R228). -/
def Core.unjoined (k : Core) : Core := { k with mma := k.mma.filter (fun f => !(f.quad && f.cyc == k.clk)) }

/-- The slots whose guard holds, with what they read (R103 step 1). -/
def State.actsOf (s : State) (c : Nat) (q : Bundle) : List Act :=
  let k := (s.core c).unjoined
  (q.slots.filter (fun b => b.i.holds k.p)).map (fun b =>
    { i := b.i,
      ic := { c := c, pre := k, limm := q.limm, pc := k.pc, slot := b.pos, re := false, tv := s.srcVal k c q.limm b.pos b.i,
              nextPc := (k.pc + q.len) % 2 ^ 56, again := decide (0 < k.rep) && stickyOp b.i } })

/-- The sticky state of a unit. -/
def Core.stickyOf (k : Core) (u : FUnit) : Option Sticky :=
  match u with
  | .l => k.stL
  | .x => k.stX
  | .m => k.stM
  | _ => none

def Core.setSticky (k : Core) (u : FUnit) (x : Option Sticky) : Core :=
  match u with
  | .l => { k with stL := x }
  | .x => { k with stX := x }
  | .m => { k with stM := x }
  | _ => k

/-- The re-issue of a unit's sticky operation (R110). -/
def reAct (c : Nat) (k : Core) (limm : U64) (nextPc : Nat) (st : Sticky) : Act :=
  { i := st.op,
    ic := { c := c, pre := k, limm := limm, pc := k.pc, slot := st.slot, re := true, tv := st.tv, idx := st.idx, nextPc := nextPc } }

/-- The re-issues of an issue: units that the bundle does not trigger, and the repeats (R110, R112). -/
def Core.reissues (k : Core) (c : Nat) (q : Bundle) (acts : List Act) : List Act :=
  [FUnit.l, FUnit.x, FUnit.m].filterMap (fun u =>
    match k.stickyOf u with
    | none => none
    | some st =>
      if (q.slots.all (fun b => unitOf b.i != u)) || acts.any (fun a => unitOf a.i == u && a.ic.again) then
        some (reAct c k q.limm ((k.pc + q.len) % 2 ^ 56) st)
      else none)

/-! ## What a slot waits for -/

def Core.opWait (k : Core) (o : Option MOp) : Wait :=
  match o with
  | none => .go
  | some m => if k.returned m then .go else if m.fixed && !k.tagged then .fixedWait else .wait

def Core.specWait (k : Core) (latch : Nat) : Wait :=
  match k.dueSpec latch with
  | none => .go
  | some o => if o.perf then .go else .wait

/-- A tile register that is read by row (R35, R36). -/
def Core.tileWait (k : Core) (n : Nat) : Wait :=
  if !(k.t.getD n {}).ready then .miss 1 else if k.tagged && k.pendTile n then .wait else .go

/-- What a source waits for (R94). -/
def Core.srcWait (k : Core) (i : Instr) : Wait :=
  match i.kind, i.srcCode with
  | .m, some x =>
    if x.toNat = 0x62 then k.opWait (k.dueOp 1)
    else if x.toNat = 0x63 then k.opWait (k.dueOp 3)
    else if 0x69 ≤ x.toNat ∧ x.toNat < 0x6C then k.specWait (x.toNat - 0x60)
    else .go
  | .w, some x =>
    if x.toNat = 0x43 then k.opWait (k.dueOp 2)
    else if x.toNat = 0x41 then k.opWait (k.dueOp 4)
    else if 0x20 ≤ x.toNat ∧ x.toNat < 0x30 then k.tileWait (x.toNat - 0x20)
    else .go
  | _, _ => .go

/-- What a destination waits for: the A-row buffer while a copy fills it (R232), and in TAGGED mode a tile with a product in
flight. -/
def Core.dstWait (k : Core) (toA : Bool) (i : Instr) : Wait :=
  match i with
  | .move true _ d _ =>
    if d.toNat = 0x43 then (if toA then .miss 6 else .go)
    else if 0x20 ≤ d.toNat ∧ d.toNat < 0x30 ∧ k.tagged ∧ k.pendTile (d.toNat - 0x20) then .wait
    else .go
  | .mzero _ _ => if k.tagged && k.pendTile (mAcc (k.sop.getD 9 0)) then .wait else .go
  | .bmm _ _ _ => k.tileWait (fld (k.sop.getD 8 0).toNat 3 0)
  | _ => .go

/-- What the source and the destination of a slot wait for. -/
def State.sideWait (s : State) (a : Act) : Wait := (if a.ic.re then Wait.go else a.ic.pre.srcWait a.i).and ((s.core a.ic.c).dstWait (s.copyToA a.ic.c none) a.i)

/-- Everything that one slot or re-issue waits for; `s` has the operand moves of the issue. -/
def State.actWait (s : State) (a : Act) : Wait := (s.sideWait a).and (waitSlot a.i a.ic s)

/-- A FIFO to be popped is empty, or one to be pushed is full (R98). -/
def State.linkBlocked (s : State) (c : Nat) (acts : List Act) : Bool :=
  acts.any (fun a =>
    (match popOf a.i with | some n => (s.inQueue c n).isEmpty | none => false)
    || (match pushOf a.i with | some n => decide (64 ≤ (s.outQueue c n).length) | none => false))

/-! ## Stops of an issue -/

/-- The order of R339: class, then place among the slots. -/
def causeClass (cause : Nat) : Nat :=
  if cause ≤ 5 then cause else if cause = 0x0C then 6 else if cause = 0x0D then 7 else if cause = 0x0E then 8 else 9

def slotPlace (slot : Nat) : Nat := if slot = 12 then 0 else if slot = 13 then 1 else 2 + slot

def actPlace (a : Act) : Nat :=
  if a.ic.re then (match unitOf a.i with | .l => 20 | .x => 21 | _ => 22) else slotPlace a.ic.slot

/-- A stop of an act with its rank; a re-issue reports SLOT 14 and its unit (R340). A failed joint issue comes last: a member with a fault of
its own reports that fault (R228). -/
def rankStop (a : Act) (st : Stop) : Nat × Stop :=
  ((if st.cause = 0x0D ∧ st.sub = 5 then 10 else causeClass st.cause) * 32 + actPlace a,
    if a.ic.re then { st with slot := 14, runit := match unitOf a.i with | .l => 0 | .x => 1 | _ => 2 } else st)

/-- The stop of least rank. -/
def leastStop : List (Nat × Stop) → Option (Nat × Stop)
  | [] => none
  | p :: r =>
    match leastStop r with
    | none => some p
    | some q => if q.1 < p.1 then some q else some p

/-- Whether a slot reads or writes a latch or tile too early (R109). -/
def Core.early (pre post : Core) (i : Instr) : Bool :=
  pre.undersized i ||
  (match i with
    | .vtopkm _ _ _ => pre.pendV 0 || pre.pendV 4
    | .bmm _ _ _ => pre.pendTile (fld (post.sop.getD 8 0).toNat 3 0)
    | .mzero _ _ => pre.pendTile (mAcc (post.sop.getD 9 0))
    | .move true _ d _ => decide (0x20 ≤ d.toNat) && decide (d.toNat < 0x30) && pre.pendTile (d.toNat - 0x20)
    | _ => false)

/-- UNDERSIZED of the slots, under SCHK. -/
def State.earlyStops (s : State) (acts : List Act) : List (Nat × Stop) :=
  acts.filterMap (fun a =>
    if !a.ic.re && (s.coreCtx a.ic.c).schk && a.ic.pre.early (s.core a.ic.c).unjoined a.i then some (rankStop a { cause := 0x0C, slot := a.ic.slot })
    else none)

/-- TIMING of the misses in TIMED mode (R35). -/
def State.missStops (s : State) (acts : List Act) : List (Nat × Stop) :=
  acts.filterMap (fun a =>
    match s.actWait a with
    | .miss n => some (rankStop a { cause := 0x0D, sub := n, slot := a.ic.slot })
    | _ => none)

/-! ## The effects of an issue, in their order -/

/-- Operand and data latches take their moves (R103 step 2). -/
def State.latchMove (s : State) (a : Act) : State :=
  match a.i with
  | .move false _ d _ => if isLatchM d.toNat then s.modCore a.ic.c (fun k => k.moveLatchM d.toNat a.ic.t) else s
  | .move true _ d _ => if isLatchW d.toNat then s.modCore a.ic.c (fun k => k.moveLatchW d.toNat a.ic.tv) else s
  | _ => s

def State.latchMoves (s : State) (acts : List Act) : State := acts.foldl (fun t a => if a.ic.re then t else t.latchMove a) s

/-- A trigger of a sticky unit leaves it sticky, or clears it (R101); in a later issue of its bundle it leaves it as it is (R112). -/
def Core.setStickyOf (k : Core) (a : Act) (keep : Bool) : Core :=
  let u := unitOf a.i
  if a.ic.re || a.ic.again then k
  else
    match u with
    | .l | .x | .m =>
      let k1 := k.setSticky u (if stickyOp a.i && keep then some { op := a.i, tv := a.ic.tv, slot := a.ic.slot, idx := 0 } else none)
      if u = .m then { k1 with mTrig := true } else k1
    | _ => k

/-- Fire the acts in order; each one that stops takes no effect and is reported. -/
def runActs (s : State) : List Act → State × List (Nat × Stop)
  | [] => (s, [])
  | a :: r =>
    match fireSlot a.i a.ic s with
    | .ok s1 => runActs s1 r
    | .error st =>
      let z := runActs s r
      (z.1, rankStop a st :: z.2)

/-- Register moves and link words at the end of the cycle (R103 step 3). -/
def State.regMove (s : State) (a : Act) : State :=
  if a.ic.re then s
  else
    match a.i with
    | .move false _ d _ =>
      if isLatchM d.toNat then s
      else if inLink d.toNat then s.pushLink a.ic.c (d.toNat - 0x80) a.ic.t
      else s.modCore a.ic.c (fun k => k.moveRegM d.toNat a.ic.t)
    | .move true _ d _ =>
      if isLatchW d.toNat then s else s.modCore a.ic.c (fun k => k.moveRegW a.ic.pre d.toNat a.ic.tv)
    | _ => s

/-- Each FIFO that is read is popped once (R98). -/
def State.pops (s : State) (c : Nat) (acts : List Act) : State :=
  (acts.filterMap (fun a => if a.ic.re then none else popOf a.i)).eraseDups.foldl (fun t n => t.popLink c n) s

def Core.rowStep (q : Core) (n : Nat) : Core := { q with t := q.t.set n { (q.t.getD n {}) with ptr := (q.t.getD n {}).ptr + 1 } }

/-- The tiles that the slots of an issue read or write by row; a slot that was held has moved its pointer at its bundle. -/
def actTiles (acts : List Act) : List Nat := (acts.flatMap (fun a => if a.ic.re || a.ic.bval.isSome then [] else a.i.rowTiles)).eraseDups

/-- Each tile that is read or written by row moves its pointer on by one (R52). -/
def Core.rowSteps (k : Core) (acts : List Act) : Core := (actTiles acts).foldl Core.rowStep k

/-- So does each tile that only held slots of the bundle name; they keep the row of their bundle (R38, R52). -/
def Core.heldRows (k : Core) (acts : List Act) (held : List Held) : Core :=
  ((held.flatMap (fun h => if h.re then [] else h.op.rowTiles)).eraseDups.filter (fun n => !(actTiles acts).contains n)).foldl Core.rowStep k

def isAuOrC (a : Act) : Bool :=
  match unitOf a.i with
  | .au => true
  | .c => true
  | _ => false

def isUnit (u : FUnit) (a : Act) : Bool := unitOf a.i == u

/-- In a later issue of its bundle a sticky trigger fires as a re-issue, not as a trigger (R112). -/
def firing (acts res : List Act) : List Act := acts.filter (fun a => !a.ic.again) ++ res

/-- Everything of an issue but the au and c operations: operand moves, sticky state, triggers and re-issues, pops, register moves,
row pointers. An MZERO and a row move to the same tile in one bundle: the manual orders the two nowhere; the tile is zeroed and the row then
written; DESIGN CHOICE (log 98). -/
def State.issueActs (s : State) (c : Nat) (acts res : List Act) (keep : Act → Bool) : State × List (Nat × Stop) :=
  let s1 := (s.latchMoves acts).modCore c (fun k => acts.foldl (fun q a => q.setStickyOf a (keep a)) k)
  let z := runActs s1 ((firing acts res).filter (fun a => !isAuOrC a))
  let s2 := acts.foldl (fun t a => t.regMove a) (z.1.pops c acts)
  (s2.modCore c (fun k => k.rowSteps acts), z.2)

/-! ## The end of a bundle -/

/-- Body ends from the highest level down (R137): strides, counts, and the body start that iterates. -/
def Core.bodyEnds (k : Core) (pc : Nat) : Nat → Core × Option Nat
  | 0 => (k, none)
  | n + 1 =>
    let l := k.loops.getD n {}
    if l.active ∧ l.fin = pc then
      let k1 := k.applyStrides n
      if 1 < l.remaining then ({ k1 with loops := k1.loops.set n { l with remaining := l.remaining - 1 } }, some l.start)
      else Core.bodyEnds { k1 with loops := k1.loops.set n { l with remaining := 0, active := false } } pc n
    else Core.bodyEnds k pc n

/-- After an issue: the next issue of a REP bundle, or the end of the bundle (R108, R113, R133, R137). -/
def Core.endIssue (k : Core) (q : Bundle) : Core :=
  if k.rep < q.rep then { k with rep := k.rep + 1, hold := none, drainTo := none }
  else
    let pc := k.pc
    let z := k.bodyEnds pc 8
    let k1 := z.1
    let k2 := if q.stop then { k1 with stL := none, stX := none, stM := none } else k1
    { k2 with
      rep := 0
      stall := none
      restarted := false
      hold := none
      drainTo := none
      pc := match k.xfer with | some t => t | none => z.2.getD ((pc + q.len) % 2 ^ 56)
      xfer := none }

/-! ## Weights (R347) -/

/-- The weight of a trigger. -/
def opWeight (i : Instr) : Nat :=
  match unitOf i, i with
  | .a0, .mul _ _ _ _ | .a1, .mul _ _ _ _ | .a0, .mulhs _ _ _ _ | .a1, .mulhs _ _ _ _ | .a0, .mulhu _ _ _ _ | .a1, .mulhu _ _ _ _ => 10
  | .a0, .divs _ _ _ _ | .a1, .divs _ _ _ _ | .a0, .divu _ _ _ _ | .a1, .divu _ _ _ _ => 10
  | .a0, .rems _ _ _ _ | .a1, .rems _ _ _ _ | .a0, .remu _ _ _ _ | .a1, .remu _ _ _ _ => 10
  | .a0, _ | .a1, _ => 4
  | .au, _ | .c, _ | .sync, _ | .k, _ | .fe, _ => 3
  | .l, .ldv _ _ _ _ | .l, .stv _ _ _ _ | .l, .ldvs _ _ _ _ => 48
  | .l, _ => 12
  | .at, _ | .ra, _ => 14
  | .v, .vmul _ _ _ | .v, .vmad _ _ _ | .v, .bmm _ _ _ => 96
  | .v, .vrcp _ _ _ | .v, .vrsq _ _ _ | .v, .vexp2 _ _ _ | .v, .vlog2 _ _ _ | .v, .vred _ _ _ | .v, .vscan _ _ _ => 112
  | .v, .vtopk _ _ _ | .v, .vtopkm _ _ _ => 80
  | .v, _ => 48
  | .x, _ => 40
  | .m, .mrd _ _ => 40
  | .m, .mzero _ _ => 24
  | .d, _ | .ps, _ | .lp, _ | .bq, _ | .sys, _ => 6
  | _, _ => 0

/-- The words that some slots push and pop: one for each FIFO that is read (R98). -/
def linkWords (acts : List Act) : Nat :=
  let own := acts.filter (fun a => !a.ic.re)
  (own.filterMap (fun a => popOf a.i)).eraseDups.length + (own.filter (fun a => (pushOf a.i).isSome)).length

def actsWeight (acts res : List Act) : Nat := (firing acts res).foldl (fun n a => n + opWeight a.i) 0 + 8 * linkWords acts

/-- The weight of an issue: the bundle, its present move slots, and what it triggers. -/
def issueWeight (q : Bundle) (acts res : List Act) : Nat :=
  16 + 2 * (q.slots.filter (fun b => decide (b.pos < 12))).length + actsWeight acts res

/-- The unit whose sticky state a `c.idle` clears. -/
def idleUnit (o : U64) : FUnit := if o = 0 then .l else if o = 1 then .x else .m

def isIdle (i : Instr) : Bool :=
  match i with
  | .idle _ _ => true
  | _ => false

/-- After a `c.idle`, a trigger of its unit that its bundle holds leaves the unit no longer sticky (R113, R144). -/
def Core.idleHeld (k : Core) (bundle : Nat) : Core :=
  { k with held := k.held.map (fun h => if h.bundle = bundle ∧ unitOf h.op = idleUnit (k.sop.getD 5 0) then { h with keep := false } else h) }

def State.idleHeld (s : State) (c bundle : Nat) (acts : List Act) : State :=
  if acts.any (fun a => isIdle a.i) then s.modCore c (fun k => k.idleHeld bundle) else s

/-! ## A whole issue -/

/-- An issue in which nothing waits any more: its state, or the stop of least rank among its own and `others`. -/
def State.issueNow (s : State) (c : Nat) (q : Bundle) (acts res : List Act) (held : List Held) (others : List (Nat × Stop)) : Try :=
  let k := s.core c
  let z := s.issueActs c acts res (fun _ => true)
  let s1 := z.1.modCore c (fun k1 => { (k1.heldRows acts held).endIssue q with
    bundles := k1.bundles + 1
    held := k1.held ++ held
    weight := k1.weight + issueWeight q acts res })
  let za := runActs s1 (acts.filter (isUnit .au))
  let zc := runActs za.1 (acts.filter (isUnit .c))
  match leastStop (others ++ z.2 ++ za.2 ++ zc.2) with
  | some st => .stop st.2
  | none => .issue (let t := zc.1.idleHeld c k.bundles acts; if k.tagged then t.tick1 else t)

/-- The stop of a bundle that has one before it could issue, `st` of rank `n` of R339: an illegal operation of a slot's entry comes before
PRIV (R117), those and UNDERSIZED before TIMING. -/
def State.stopFirst (s : State) (c : Nat) (q : Bundle) (acts res : List Act) (n : Nat) (st : Stop) : Stop :=
  let priv := match s.privStop c q.slots with | some p => [(5 * 32, p)] | none => []
  match s.issueNow c q acts res [] ((n, st) :: priv ++ (if n = 7 * 32 then (s.latchMoves acts).earlyStops acts else [])) with
  | .stop x => x
  | _ => st

/-- The whole wait of some acts. -/
def State.waitsOf (s : State) (acts : List Act) : Wait := acts.foldl (fun w a => w.and (s.actWait a)) .go

/-! ## Fetch and decode -/

/-- The stop of a fetch that faults (R115, R338). -/
def fetchStop (f : Cause) (a : Nat) : Stop := { cause := match f with | .prot => 9 | _ => 1, fx := true, faddr := a }

def decStop (e : DecErr) (p : Nat) : Stop :=
  { cause := match e with | .bundle => 2 | .latch => 3 | .op => 4, slot := p }

/-- The bundle in some bytes on a core, or its decode fault (R116, R117). Link codes off an edge core are of the class
illegal-latch, in memory order with the others. -/
def State.decodeOn (s : State) (c : Nat) (bs : List Byte) : Except Stop Bundle :=
  let ws := words32 bs
  let sl := (slotOrder (ws.headD 0)).zip ws.tail
  let lnk := if (edgePort c).isNone then sl.find? (fun p => linkWord p.1 p.2) else none
  match decodeBundle bs with
  | .error (.bundle, p) => .error (decStop .bundle p)
  | .error (.latch, p) =>
    match lnk with
    | some l => .error (decStop .latch (((sl.find? (fun w => w.1 == p || w.1 == l.1)).map (fun w => w.1)).getD p))
    | none => .error (decStop .latch p)
  | .error (.op, p) =>
    match lnk with
    | some l => .error (decStop .latch l.1)
    | none => .error (decStop .op p)
  | .ok q =>
    match linkStop c q.slots with
    | some st => .error st
    | none => .ok q

/-- A decode fault of the class illegal-operation at a slot: an illegal operation of the entry of a slot before it comes first (R117). -/
def State.illegalFirst (s : State) (c : Nat) (bs : List Byte) (st : Stop) : Stop :=
  let order := slotOrder ((words32 bs).headD 0)
  let sl := (order.zip (words32 bs).tail).takeWhile (fun p => p.1 != st.slot)
  let q : Bundle :=
    { slots := okSlots sl, rep := 0, stall := 0, stop := false, len := bs.length, limm := u64 (ofBytes ((bs.drop (4 * (1 + order.length))).take 8)) }
  s.stopFirst c q (s.actsOf c q) [] (4 * 32 + slotPlace st.slot) st

/-- The bundle at the core's pc: fetched whole and decoded (R115). -/
def State.fetchBundle (s : State) (c : Nat) : State × Except Stop Bundle :=
  let pc := (s.core c).pc
  let r := s.fetchBytes c pc 4
  match r.2 with
  | .error (f, a) => (r.1, .error (fetchStop f a))
  | .ok hd =>
    let z := r.1.fetchBytes c pc (bundleLen (ofBytes hd))
    match z.2 with
    | .error (f, a) => (z.1, .error (fetchStop f a))
    | .ok bs =>
      (z.1.codeLines c pc (bundleLen (ofBytes hd)), match z.1.decodeOn c bs with
        | .error st => .error (if st.cause = 4 then z.1.illegalFirst c bs st else st)
        | .ok q => .ok q)

/-- Idle cycles that stand before the next issue of a bundle with a STALL (R108). -/
def Core.idlesOf (k : Core) (stall : Nat) : Nat :=
  if 0 < k.rep ∨ k.restarted then 0 else match k.stall with | some n => n | none => stall

def Core.idles (k : Core) (q : Bundle) : Nat := k.idlesOf q.stall

/-- STALL of the header at the core's pc, as far as the header can be fetched: a bundle that faults is due to issue after its idles. -/
def State.headStall (s : State) (c : Nat) : Nat :=
  match (s.fetchBytes c (s.core c).pc 4).2 with
  | .ok hd => fld (ofBytes hd) 12 9
  | .error _ => 0

/-- The bundle that a core would issue in this cycle, if nothing holds it (used for barriers and joint issue). -/
def State.readyBundle (s : State) (c : Nat) : Option Bundle :=
  let k := s.core c
  match k.status with
  | .run =>
    if (match k.hold with | some h => decide (k.lcyc < h) | none => false) || (match k.drainTo with | some d => decide (s.now < d) | none => false)
      || k.frz || k.turn || k.timingSub != 0 then none
    else
      match (s.fetchBundle c).2 with
      | .ok q => if k.idles q = 0 then some q else none
      | .error _ => none
  | _ => none

/-! ## Barriers in TIMED mode (R269, R299) -/

/-- Whether a participant arrives at the barrier in the same logical cycle: it did so in its turn of this cycle, or is about to, with
nothing else to wait for. -/
def State.arrivesWith (s : State) (c lcyc kind idx : Nat) : Bool :=
  match (s.core c).barrier with
  | some (k, i, t) => i == idx && (k == kind && t == lcyc || k == relKind kind && t == lcyc + barDb kind)
  | none =>
    match s.readyBundle c with
    | some q =>
      let acts := s.actsOf c q
      acts.any (fun a => barOf a.i == some (kind, idx))
        && (match (s.latchMoves acts).waitsOf (acts ++ (s.core c).reissues c q acts) with | .wait => false | .fixedWait => false | _ => true)
    | none => false

/-- An attempt at a barrier bundle: the wait, and the core's mark afterwards. -/
def State.barTry (s : State) (c kind idx : Nat) : Wait × Option (Nat × Nat × Nat) :=
  let k := s.core c
  match k.barrier with
  | some (kd, i, t) =>
    if kd = relKind kind then (if t ≤ k.lcyc then (.go, k.barrier) else (.fixedWait, k.barrier))
    else
      match s.releaseWait (s.barCores c kind) with
      | .go => (.fixedWait, some (relKind kind, idx, k.lcyc + barDb kind))
      | w => (w, k.barrier)
  | none =>
    if (s.barCores c kind).all (fun q => q == c || s.arrivesWith q k.lcyc kind idx) then
      match s.releaseWait (s.barCores c kind) with
      | .go => (.fixedWait, some (relKind kind, idx, k.lcyc + barDb kind))
      | w => (w, some (kind, idx, k.lcyc))
    else (.miss 4, none)

/-! ## Joint issue of MMAQ (R228) -/

/-- A member's part in a joint issue: its control word, format and operands, when nothing of its bundle waits or stops. -/
def State.mmaqPart (s : State) (c : Nat) (q : Bundle) : Option (U64 × BitVec 32 × MmaOp) :=
  let k := s.core c
  let acts := s.actsOf c q
  match acts.find? (fun a => isMmaq a.i) with
  | none => none
  | some a =>
    let res := k.reissues c q acts
    let s1 := s.latchMoves acts
    match a.i with
    | .mmaq _ f _ =>
      let x := s1.mctl a.ic
      let fm := a.ic.fmr f
      match (s1.core c).mmaOp k.k a.ic x fm with
      | .error _ => none
      | .ok o =>
        let rest := acts.filter (fun b => !isMmaq b.i)
        if (s1.waitsOf (acts ++ res)).isGo && (s1.earlyStops acts).isEmpty && (s.privStop c q.slots).isNone
            && (match s.issueNow c q rest res [] [] with | .issue _ => true | _ => false) then some (x, fm, o)
        else none
    | _ => none

/-- All the members' parts, or none. -/
def allSome {α : Type} : List (Option α) → Option (List α)
  | [] => some []
  | none :: _ => none
  | some a :: r => match allSome r with | some l => some (a :: l) | none => none

/-- Before a member issues an MMAQ: if all four trigger it in this logical cycle with one fmN value, the product goes into flight on
all of them. -/
def State.joinMmaq (s : State) (c : Nat) (q : Bundle) (acts : List Act) : State :=
  let k := s.core c
  if acts.any (fun a => isMmaq a.i) && s.quadGang c && k.mmaq != some (2 * k.lcyc) && k.mmaq != some (2 * k.lcyc + 1) then
    let parts := (quadCores c).map (fun m =>
      if m = c then s.mmaqPart c q
      else match s.readyBundle m with
        | some b => s.mmaqPart m b
        | none => none)
    match allSome parts with
    | none => s
    | some ps =>
      if ps.all (fun p => p.2.1 == (ps.headD (0, 0, { fa := 0, buf := 0, scaleA := fun _ => 0, fb := 0, codes := 0, scales := [] })).2.1) then
        s.mmaqJoin (quadCores c) (ps.map (fun p => (p.1, p.2.1))) (ps.map (fun p => p.2.2))
      else s
  else s

/-! ## TIMED mode -/

/-- A cycle of their wait, for the operations that have something to do in it. -/
def State.waitSteps (s : State) (acts : List Act) : State := acts.foldl (fun t a => stepSlot a.i a.ic t) s

/-- A core's mark at a barrier; when it marks the release of the arrivals, every participant's dirty bytes leave for the scope (R159). -/
def State.barMark (s : State) (c : Nat) (m : Option (Nat × Nat × Nat)) : State :=
  let s1 := match m, (s.core c).barrier with
    | some (k, _, _), some (j, _, _) => if 16 ≤ k ∧ j < 16 then s.barDrain (s.barCores c (k - 16)) (k - 16) else s
    | some (k, _, _), none => if 16 ≤ k then s.barDrain (s.barCores c (k - 16)) (k - 16) else s
    | none, _ => s
  s1.modCore c (fun k => { k with barrier := m })

def State.issueTimed (s : State) (c : Nat) (q : Bundle) (acts res : List Act) : Try :=
  let s1 := s.latchMoves acts
  let all := acts ++ res
  match s1.waitsOf all with
  | .wait => .delay (s.waitSteps acts)
  | .fixedWait => .idle (s.waitSteps acts)
  | _ =>
    let b := match acts.findSome? (fun a => (barOf a.i).map (fun b => (a, b))) with
      | none => (Wait.go, (none : Option (Nat × Nat × Nat)), ([] : List (Nat × Stop)), false)
      | some (a, kind, idx) =>
        let r := s.barTry c kind idx
        (r.1, r.2, (match r.1 with | .miss n => [rankStop a { cause := 0x0D, sub := n, slot := a.ic.slot }] | _ => []), true)
    let marked := if b.2.2.2 then s.barMark c b.2.1 else s
    match b.1 with
    | .wait => .delay marked
    | .fixedWait => .idle marked
    | _ => (s.joinMmaq c q acts).issueNow c q acts res [] (s1.earlyStops acts ++ s1.missStops all ++ b.2.2.1)

/-! ## TAGGED mode (R36 to R38) -/

/-- Registers and latches by kind and number: 0 scalar codes, 1 vector codes, 2 and 3 operand latches, 4 base registers, 5 format
registers, 6 scale registers, 7 unit triggers, 8 alias classes, 9 the VMASK selection. -/
abbrev Res := Nat × Nat

def unitNum (u : FUnit) : Nat :=
  match u with
  | .a0 => 0 | .a1 => 1 | .au => 2 | .c => 3 | .l => 4 | .at => 5 | .ra => 6 | .fe => 7 | .d => 8 | .ps => 9 | .lp => 10 | .bq => 11
  | .sys => 12 | .v => 13 | .x => 14 | .m => 15 | .sync => 16 | .k => 17 | .plain => 18 | .none => 19

/-- The operand latches of a unit. -/
def unitLatches (u : FUnit) : List Res :=
  match u with
  | .a0 => [(2, 0x60)]
  | .a1 => [(2, 0x61)]
  | .l => [(2, 0x62), (3, 0x44)]
  | .at => [(2, 0x62), (2, 0x63)]
  | .au => [(2, 0x64)]
  | .c => [(2, 0x65)]
  | .d => [(2, 0x66)]
  | .x => [(2, 0x67), (3, 0x42)]
  | .v => [(2, 0x68), (3, 0x40), (3, 0x41)]
  | .m => [(2, 0x69), (3, 0x43)]
  | .ps => [(2, 0x6A)]
  | .lp => [(2, 0x6B)]
  | .bq => [(2, 0x6C)]
  | _ => []

/-- The base register that an operation names. -/
def baseOf (k : Core) (i : Instr) : Option Nat :=
  match i with
  | .ld8s _ _ b _ | .ld8u _ _ b _ | .ld16s _ _ b _ | .ld16u _ _ b _ | .ld32s _ _ b _ | .ld32u _ _ b _ | .ld64 _ _ b _ => some b.toNat
  | .st8 _ _ b _ | .st16 _ _ b _ | .st32 _ _ b _ | .st64 _ _ b _ | .ldv _ _ b _ | .stv _ _ b _ | .ldvs _ _ b _ => some b.toNat
  | .pref _ _ b _ | .waita _ _ b _ => some b.toNat
  | .aadd _ _ b _ | .asub _ _ b _ | .aand _ _ b _ | .aor _ _ b _ | .axor _ _ b _ | .amin _ _ b _ | .amax _ _ b _ => some b.toNat
  | .aminu _ _ b _ | .amaxu _ _ b _ | .axchg _ _ b _ | .acas _ _ b _ | .aincw _ _ b _ | .afadd _ _ b _ | .abar _ _ b _ => some b.toNat
  | .xld _ _ _ => some (ctrlBreg (k.sop.getD 7 0))
  | .xst _ _ _ => some (ctrlBreg (k.sop.getD 7 0))
  | .wld _ _ _ => some (mBreg (k.sop.getD 9 0))
  | _ => none

/-- The alias class of a memory operation. -/
def classOf (k : Core) (i : Instr) : Option Nat :=
  match i with
  | .ld8s _ a _ _ | .ld8u _ a _ _ | .ld16s _ a _ _ | .ld16u _ a _ _ | .ld32s _ a _ _ | .ld32u _ a _ _ | .ld64 _ a _ _ => some a.toNat
  | .st8 _ a _ _ | .st16 _ a _ _ | .st32 _ a _ _ | .st64 _ a _ _ | .ldv _ a _ _ | .stv _ a _ _ | .ldvs _ a _ _ => some a.toNat
  | .pref _ a _ _ | .waita _ a _ _ => some a.toNat
  | .aadd _ a _ _ | .asub _ a _ _ | .aand _ a _ _ | .aor _ a _ _ | .axor _ a _ _ | .amin _ a _ _ | .amax _ a _ _ => some a.toNat
  | .aminu _ a _ _ | .amaxu _ a _ _ | .axchg _ a _ _ | .acas _ a _ _ | .aincw _ a _ _ | .afadd _ a _ _ | .abar _ a _ _ => some a.toNat
  | .xld _ _ _ => some (ctrlAC (k.sop.getD 7 0))
  | .xst _ _ _ => some (ctrlAC (k.sop.getD 7 0))
  | .wld _ _ _ => some (mAC (k.sop.getD 9 0))
  | _ => none

/-- Operations that read the VMASK selection and the register that it selects (R172, R190): all of v but the three that ignore it. -/
def maskReads (k : Core) : List Res := (9, 0) :: (if k.vmsel.toNat < 8 then [(1, 0x30 + k.vmsel.toNat)] else [])

/-- The scale registers from `a` on, `n` of them (R226, R231). -/
def scaleRegs (a n : Nat) : List Res := (List.range n).map (fun j => (6, a + j))

/-- The result latches and registers that a trigger writes. -/
def unitWrites (k : Core) (i : Instr) : List Res :=
  match unitOf i, i with
  | .a0, _ => [(0, 0x60)]
  | .a1, _ => [(0, 0x61)]
  | .l, .ldv _ _ _ _ | .l, .ldvs _ _ _ _ => [(1, 0x43)]
  | .l, .st8 _ _ _ _ | .l, .st16 _ _ _ _ | .l, .st32 _ _ _ _ | .l, .st64 _ _ _ _ | .l, .stv _ _ _ _ | .l, .pref _ _ _ _ => []
  | .l, _ => [(0, 0x62)]
  | .at, _ => [(0, 0x63)]
  | .au, .rdb _ _ _ => [(0, 0x64)]
  | .au, .settrp _ n _ => [(1, 0x20 + n.toNat)]
  | .au, .setb _ b _ | .au, .addb _ b _ | .au, .seti _ b _ | .au, .setls _ b _ | .au, .setwrap _ b _ | .au, .rstb _ b _ => [(4, b.toNat)]
  | .c, .call _ _ | .c, .yieldp _ _ | .c, .rdsr _ _ => [(0, 0x65)]
  | .d, _ => [(0, 0x66)]
  | .x, .xsetf _ f _ => [(5, f.toNat)]
  | .x, .xgetf _ _ _ => [(0, 0x67)]
  | .x, .xst _ _ _ => []
  | .x, .xsc _ _ _ => [(0, 0x67), (6, ctrlKreg (k.sop.getD 7 0))]
  | .x, _ => [(1, 0x41)]
  | .v, .vmask _ _ _ => [(9, 0)]
  | .v, .vtopk _ _ _ | .v, .vtopkm _ _ _ | .v, .vpackg _ _ _ => [(1, 0x40), (1, 0x46), (0, 0x68)]
  | .v, .vclmul _ _ _ => [(1, 0x40), (1, 0x46)]
  | .v, .vcmpeq _ _ _ | .v, .vcmplt _ _ _ | .v, .vcmple _ _ _ | .v, .vpxor _ _ _ | .v, .vred _ _ _ => [(1, 0x40), (0, 0x68)]
  | .v, .bmm _ _ _ => [(1, 0x40), (1, 0x20 + fld (k.sop.getD 8 0).toNat 3 0)]
  | .v, _ => [(1, 0x40)]
  | .m, .mrd _ _ => [(1, 0x42)]
  | .m, .mma _ _ _ | .m, .mmaq _ _ _ | .m, .mzero _ _ => [(1, 0x20 + mAcc (k.sop.getD 9 0))]
  | .m, _ => []
  | .ps, _ => [(0, 0x69)]
  | .lp, _ => [(0, 0x6A)]
  | .bq, _ => [(0, 0x6B)]
  | _, _ => []

/-- Whether an operation may set a sticky bit or record (R68), which RDSR reads and WRSR clears. -/
def mayFlag (i : Instr) : Bool :=
  match unitOf i, i with
  | .a0, .divs _ _ _ _ | .a0, .divu _ _ _ _ | .a0, .rems _ _ _ _ | .a0, .remu _ _ _ _ => true
  | .a1, .divs _ _ _ _ | .a1, .divu _ _ _ _ | .a1, .rems _ _ _ _ | .a1, .remu _ _ _ _ => true
  | .v, _ => true
  | .x, _ => true
  | .m, .mma _ _ _ | .m, .mmaq _ _ _ => true
  | .at, _ => true
  | _, _ => false

/-- Registers that a trigger reads besides its operand latches. -/
def unitReads (k : Core) (i : Instr) : List Res :=
  (if mayFlag i then [(10, 0)] else []) ++ match unitOf i, i with
  | .au, .rdb _ b _ | .au, .addb _ b _ | .au, .setwrap _ b _ => [(4, b.toNat)]
  | .v, .vtopkm _ _ _ => (1, 0x40) :: (1, 0x46) :: maskReads k
  | .v, .bmm _ _ _ => (1, 0x44) :: maskReads k
  | .v, .vpackg _ _ _ => [(1, 0x44)]
  | .v, .vpxor _ _ _ | .v, .vmask _ _ _ => []
  | .v, _ => maskReads k
  | .c, .rdsr _ _ => [(9, 0)]
  | .l, .ldv _ _ _ _ | .l, .stv _ _ _ _ | .l, .ldvs _ _ _ _ => maskReads k
  | .x, .xq _ f _ | .x, .xqs _ f _ | .x, .xdq _ f _ | .x, .xsc _ f _ | .x, .xgetf _ f _ | .x, .xld _ f _ | .x, .xst _ f _ =>
    [(5, f.toNat), (6, ctrlKreg (k.sop.getD 7 0))]
  | .m, .wld _ f _ => [(5, f.toNat)]
  | .m, .mma _ f _ | .m, .mmaq _ f _ =>
    let fm := k.fm.getD f.toNat 0
    [(5, f.toNat), (1, 0x20 + mAcc (k.sop.getD 9 0))] ++ (if fmtBlk fm = 0 then [] else scaleRegs (mKA (k.sop.getD 9 0)) (nbOf fm / 2))
  | .m, .mscl _ _ =>
    scaleRegs (mKA (k.sop.getD 9 0)) (match k.blockOf (mHandle (k.sop.getD 9 0)) with | some b => nbOf b.fmt | none => 0)
  | _, _ => []

def srcRes (i : Instr) : List Res :=
  match i.kind, i.srcCode with
  | .m, some x => if x.toNat = 0x5F then [(1, 0x44)] else if x.toNat < 0x100 then [(0, x.toNat)] else []
  | .w, some x => if x.toNat < 0x100 then [(1, x.toNat)] else []
  | _, _ => []

def dstRes (i : Instr) : List Res :=
  match i with
  | .move false _ d _ => if isLatchM d.toNat then [(2, d.toNat)] else [(0, d.toNat)]
  | .move true _ d _ => if isLatchW d.toNat then [(3, d.toNat)] else if d.toNat = 0x45 then [(1, 0x44)] else [(1, d.toNat)]
  | _ => []

/-- The predicate that a guard reads. -/
def guardRes (i : Instr) : List Res :=
  match i.guard with
  | some g => if g.toNat < 24 then [(0, 0x40 + g.toNat)] else if 32 ≤ g.toNat ∧ g.toNat < 56 then [(0, 0x40 + g.toNat - 32)] else []
  | none => []

/-- The sticky state of a unit, which a trigger writes and a re-issue reads. -/
def stickyRes (i : Instr) : List Res :=
  match unitOf i with
  | .l | .x | .m => [(11, unitNum (unitOf i))]
  | _ => []

/-- What a slot or re-issue reads and writes, for R37. A pop moves the queue on; a row access keeps the row of its own issue. -/
def readsOf (k : Core) (i : Instr) (re : Bool) : List Res :=
  guardRes i ++ (if re then stickyRes i else srcRes i) ++ unitLatches (unitOf i) ++ unitReads k i
    ++ (match baseOf k i with | some b => [(4, b)] | none => [])

def writesOf (k : Core) (i : Instr) (re : Bool) : List Res :=
  (if i.isPlain then dstRes i else [(7, unitNum (unitOf i))]) ++ unitWrites k i ++ (if re then [] else stickyRes i)
    ++ (match popOf i with | some n => if re then [] else [(0, 0x80 + n)] | none => [])
    ++ (if re then (match baseOf k i with | some b => [(4, b)] | none => []) else [])
    ++ (match classOf k i with | some a => [(8, a)] | none => [])

def meets (a b : List Res) : Bool := a.any (fun x => b.contains x)

/-- The operand latch that holds the control word of a unit, by which an operation names registers. -/
def ctrlLatch (u : FUnit) : List Res :=
  match u with
  | .x => [(2, 0x67)]
  | .v => [(2, 0x68)]
  | .m => [(2, 0x69)]
  | .c => [(2, 0x65)]
  | _ => []

/-- Everything that an operation may name by a control word that it has not got: base registers, classes, scale registers and tiles; a BMM its
tile. -/
def blindRes (i : Instr) : List Res :=
  let tiles : List Res := (List.range 16).map (fun n => (1, 0x20 + n))
  match unitOf i, i with
  | .x, _ | .m, _ => tiles ++ (List.range 16).map (fun n => (4, n)) ++ (List.range 4).map (fun a => (8, a)) ++ scaleRegs 0 32
  | .v, .bmm _ _ _ => tiles
  | _, _ => []

/-- The control word of a slot comes with a move that is held with it. -/
def blindWith (hs : List Act) (i : Instr) : Bool := hs.any (fun h => meets (dstRes h.i) (ctrlLatch (unitOf i)))

/-- What a held RDSR, WRSR or IDLE keeps for itself: the status registers, which later operations set, and a unit's sticky state, which later
issues read. A later one of these waits for nothing (R144). -/
def heldStatus (k : Core) (h : Held) : List Res :=
  match h.op with
  | .rdsr _ _ => [(10, 0)]
  | .wrsr _ _ => [(10, 0)]
  | .idle _ _ =>
    if h.blind then [(11, unitNum .l), (11, unitNum .x), (11, unitNum .m)] else [(11, unitNum (idleUnit (k.sop.getD 5 0)))]
  | _ => []

/-- R37 between a held slot, on the core before the issue, and a later slot or re-issue, on the core after the operand moves; `blind` when the
later one has not got its control word. -/
def conflicts (k k1 : Core) (h : Held) (i : Instr) (re blind : Bool) : Bool :=
  let hb := if h.blind then blindRes h.op else []
  let ib := if blind then blindRes i else []
  let hr := readsOf k h.op h.re ++ hb
  let hw := writesOf k h.op h.re ++ heldStatus k h ++ hb
  let iw := writesOf k1 i re ++ ib
  meets hw (readsOf k1 i re ++ ib) || meets hw iw || meets hr iw

/-- The skew of R36. -/
def Core.skew (k : Core) : Nat :=
  (k.held.filter (fun h => !h.gone)).foldl (fun n h => Nat.max n (k.bundles - h.bundle - 1)) 0

/-- A held trigger will leave its unit sticky, so that a bundle without a trigger of the unit re-issues it. -/
def Core.stickyHeld (k : Core) (q : Bundle) : Bool :=
  k.held.any (fun h => !h.re && h.keep && stickyOp h.op && q.slots.all (fun b => unitOf b.i != unitOf h.op))

def isBmm : Instr → Bool
  | .bmm _ _ _ => true
  | _ => false

def isSettrp : Instr → Bool
  | .settrp _ _ _ => true
  | _ => false

/-- Slots of the same bundle that are held with `hs`: a trigger whose operand move is held, a SETTRP beside a BMM that has yet to move
its pointer on (R52, R201), a slot that writes what a held slot has yet to read (R38), and the re-issue that stands for a held slot (R112). -/
def dragged (k : Core) (hs : List Act) (a : Act) : Bool :=
  hs.any (fun h =>
    h.ic.again && a.ic.re && unitOf h.i == unitOf a.i ||
    meets (dstRes h.i) (unitLatches (unitOf a.i)) || isBmm h.i && isSettrp a.i || meets (guardRes h.i ++ (if h.ic.re then [] else srcRes h.i)) (writesOf k a.i a.ic.re))

def holdSet (k : Core) (all : List Act) : Nat → List Act → List Act
  | 0, hs => hs
  | n + 1, hs =>
    let more := all.filter (fun a => hs.all (fun h => !(h.ic.slot == a.ic.slot && h.ic.re == a.ic.re && unitOf h.i == unitOf a.i)) && dragged k hs a)
    if more.isEmpty then hs else holdSet k all n (hs ++ more)

def sameAct (a b : Act) : Bool := a.ic.slot == b.ic.slot && a.ic.re == b.ic.re && unitOf a.i == unitOf b.i

/-- The operation for which a slot's read of a result latch of variable latency is due (R107), and that latch. -/
def srcLatch (i : Instr) : Option Nat :=
  match i.kind, i.srcCode with
  | .m, some x =>
    if x.toNat = 0x62 then some 1 else if x.toNat = 0x63 then some 3 else if 0x69 ≤ x.toNat ∧ x.toNat < 0x6C then some (x.toNat - 0x60) else none
  | .w, some x => if x.toNat = 0x43 then some 2 else if x.toNat = 0x41 then some 4 else none
  | _, _ => none

def Core.dueId (k : Core) (i : Instr) : Option Nat :=
  match srcLatch i with
  | none => none
  | some n => if 9 ≤ n then (k.dueSpec n).map (fun o => o.id) else (k.dueOp n).map (fun o => o.id)

/-- A slot of bundle q that is held with the slots `hs` (R36). -/
def Act.toHeld (k : Core) (q : Bundle) (hs : List Act) (a : Act) : Held :=
  { op := a.i, slot := a.ic.slot, re := a.ic.re, pc := a.ic.pc, limm := a.ic.limm,
    st := if a.ic.re then some { op := a.i, tv := a.ic.tv, slot := a.ic.slot, idx := a.ic.idx } else none,
    bundle := k.bundles, vals := k.b.map (fun b => b.val), ptrs := k.t.map (fun t => t.ptr),
    keep := !(q.stop && k.rep == q.rep),
    src := if a.ic.re then none else k.dueId a.i,
    blind := blindWith hs a.i,
    next := a.ic.nextPc, noXfer := k.noTransfer a.ic.pc, again := a.ic.again }

/-- Transfers (R133). -/
def isTransfer (i : Instr) : Bool :=
  match i with
  | .jmp _ _ => true
  | .jmpr _ _ => true
  | .call _ _ => true
  | .ret _ _ => true
  | _ => false

def isLoop (i : Instr) : Bool :=
  match i with
  | .loop _ _ _ => true
  | _ => false

def isRdsr (i : Instr) : Bool :=
  match i with
  | .rdsr _ _ => true
  | _ => false

/-- The delay bundle of a held transfer has issued in full. -/
def Core.pastDelay (k : Core) (h : Held) : Bool := k.rep == 0 && decide (h.bundle + 1 < k.bundles)

/-- What issues next is not known: a LOOP is held, or a transfer whose delay bundle has issued. -/
def Core.lost (k : Core) : Bool := k.held.any (fun h => !h.gone && (isLoop h.op || isTransfer h.op && k.pastDelay h))

/-- The slots and re-issues of a bundle that would be held, and with them those that depend on them. -/
def State.toHold (s : State) (c : Nat) (acts res : List Act) : List Act :=
  let s1 := s.latchMoves acts
  let all := acts ++ res
  holdSet (s1.core c) all all.length (all.filter (fun a => !(s1.actWait a).isGo))

/-- A bundle that meets a held slot in one of the ways of R37, or one that R37, R237 or R291 names, waits until no slot is held. -/
def State.mustWait (s : State) (c : Nat) (q : Bundle) (acts res : List Act) : Bool :=
  let k := s.core c
  !k.held.isEmpty
    && (let hs := s.toHold c acts res
      k.met == k.bundles + 1 || q.slots.any (fun b => aloneSlot b.i)
      || k.held.any (fun h => q.slots.any (fun b => meets (writesOf k h.op h.re) (guardRes b.i))
          || (acts ++ res).any (fun a => conflicts k ((s.latchMoves acts).core c) h a.i a.ic.re (blindWith hs a.i))
          || isRdsr h.op && k.atBodyEnd k.pc)
      || k.stickyHeld q)

/-- A barrier bundle in TAGGED mode: the arrival is its issue attempt. -/
def State.barTagged (s : State) (c : Nat) (acts : List Act) : Bool × State :=
  match acts.findSome? (fun a => barOf a.i) with
  | none => (true, s)
  | some (kind, idx) =>
    match (s.core c).barrier with
    | some (kd, i, _) => if kd = relKind kind ∧ i = idx then (true, s) else (false, s.barArrive c kind idx)
    | none => (false, s.barArrive c kind idx)

def State.issueTagged (s : State) (c : Nat) (q : Bundle) (acts res : List Act) : Try :=
  let k := s.core c
  let all := acts ++ res
  if 8 ≤ k.skew then .delay s
  else
    let s1 := s.latchMoves acts
    let blocked := all.filter (fun a => !(s1.actWait a).isGo)
    if q.slots.any (fun b => wholeSlot b.i)
        || q.slots.any (fun b => engineSlot b.i) && blocked.any (fun a => !(engineSlot a.i && (s1.sideWait a).isGo)) then
      (if !blocked.isEmpty then .delay (s.waitSteps acts)
      else
        let b := s.barTagged c acts
        if b.1 then s.issueNow c q acts res [] (s1.earlyStops acts) else .delay b.2)
    else
      let hs := s.toHold c acts res
      let free (a : Act) : Bool := hs.all (fun h => !sameAct h a)
      s.issueNow c q (acts.filter free) (res.filter free) (hs.map (Act.toHeld k q hs)) (s1.earlyStops (acts.filter free))

/-! ## An attempt -/

/-- An issue of bundle q on core c, or what stands in its way. -/
def State.issue (s : State) (c : Nat) (q : Bundle) : Try :=
  let k := s.core c
  match linkStop c q.slots with
  | some st => .stop st
  | none =>
    let acts := s.actsOf c q
    let res := k.reissues c q acts
    match s.privStop c q.slots with
    | some st => .stop (s.stopFirst c q acts res (5 * 32) st)
    | none =>
    if k.tagged && s.mustWait c q acts res then .delay (s.modCore c (fun k => { k with met := k.bundles + 1 }))
    else if s.linkBlocked c acts then .delay s
    else if k.tagged then s.issueTagged c q acts res
    else s.issueTimed c q acts res

/-- No access of the task is in flight (R344). -/
def Core.quiet (k : Core) : Bool := k.mops.all (fun o => o.perf)

/-- A WAITA. -/
def isWaita (i : Instr) : Bool :=
  match i with
  | .waita _ _ _ _ => true
  | _ => false

/-- The issue that comes next on a core holds a WAITA that sleeps. -/
def State.asleep (s : State) (c : Nat) : Bool :=
  match (s.fetchBundle c).2 with
  | .error _ => false
  | .ok q =>
    let acts := s.actsOf c q
    let s1 := s.latchMoves acts
    acts.any (fun a => match a.i with
      | .waita _ _ b _ => (match s1.waitaLook a.ic (a.ic.memEa b) with | some (_, _, v) => v == s1.ld a.ic | none => false)
      | _ => false)

/-- A core stands at a bundle boundary as a save finds it: before a bundle, or before an issue of a bundle whose WAITA sleeps. In TAGGED mode no
slot is held but WAITAs that sleep: they keep no task from its checkpoint (R176), and the save keeps them held, so that after the restore they
compare afresh. R176 has the bundle issue again whole; slots of it that issued beside the WAITA (R36, R175) do not issue twice (log 94). -/
def State.atBoundary (s : State) (c : Nat) : Bool :=
  let k := s.core c
  if k.tagged then k.held.all (fun h => isWaita h.op) && (k.rep == 0 || k.held.any (fun h => h.pc == k.pc)) else k.rep == 0 || s.asleep c

/-- A core stands at the point of a save that has been asked for (R40): at a bundle boundary with no held slot but a sleeping WAITA, and in a
gang every core at one on the same logical cycle. -/
def State.atSave (s : State) (c : Nat) : Bool :=
  let k := s.core c
  match (s.launch k.launch).state with
  | .saving =>
    if k.tagged then s.atBoundary c else (s.pairCores k.launch).all (fun q => (s.core q).status != .run || s.atBoundary q)
  | _ => false

/-- What stands before the fetch of a core's next issue: a freeze, a save, a wait for a cycle, a drain, a stop that has been asked for. -/
def State.gate (s : State) (c : Nat) : Option Try :=
  let k := s.core c
  if k.frz || s.atSave c || k.lost then some (.delay s)
  else if (match k.hold with | some h => decide (k.lcyc < h) | none => false) then some (.idle s)
  else if (match k.drainTo with | some d => decide (s.now < d) | none => false) then some (.delay s)
  else if k.freezeReq ∧ k.rep = 0 ∧ k.held.isEmpty then
    some (if k.quiet then .stop { cause := 0x12, resume := some k.pc } else .delay s)
  else none

/-- The issue of a bundle that has been fetched: an idle that stands before it, or an attempt. The idles of a bundle that waits for held
slots follow its wait (R37, R38, R108). DESIGN CHOICE (log 111): a TIMING fault that is pending when a STALL idle is next (R247) is taken in that idle
cycle, at the bundle that is due after it. -/
def State.tryFetched (s : State) (c : Nat) (q : Except Stop Bundle) : Try :=
  match q with
  | .error st =>
    let n := (s.core c).idlesOf (s.headStall c)
    if 0 < n then .idle (s.modCore c (fun k => { k with stall := some (n - 1) })) else .stop st
  | .ok q =>
    let acts := s.actsOf c q
    let res := (s.core c).reissues c q acts
    if (s.core c).timingSub ≠ 0 then .stop (s.stopFirst c q acts res (7 * 32) { cause := 0x0D, sub := (s.core c).timingSub })
    else if (s.privStop c q.slots).isSome && (s.core c).idles q == 0 then s.issue c q
    else if (s.core c).tagged && (s.core c).stall.isNone && s.mustWait c q acts res then
      .delay (s.modCore c (fun k => { k with met := k.bundles + 1 }))
    else if (s.core c).tagged && decide (8 ≤ (s.core c).skew) && decide (0 < (s.core c).idles q) then .delay s
    else if 0 < (s.core c).idles q then .idle (s.modCore c (fun k => { k with stall := some (k.idles q - 1) }))
    else s.issue c q

/-- What a core does with its turn in a cycle: the state it starts from, and the attempt. -/
def State.tryBundle (s : State) (c : Nat) : State × Try :=
  match s.gate c with
  | some t => (s, t)
  | none =>
    let r := s.fetchBundle c
    (r.1, r.1.tryFetched c r.2)

/-- The turn is over. -/
def State.turned (s : State) (c : Nat) : State := s.modCore c (fun k => { k with turn := true })

/-- A stop of an attempt is taken. -/
def State.stopAt (s : State) (c : Nat) (st : Stop) : State :=
  (s.takeStop c st).modCore c (fun k => { k with
    timingSub := if st.cause = 0x0D then 0 else k.timingSub
    freezeReq := if st.cause = 0x12 then false else k.freezeReq })

/-- What becomes of an attempt. -/
def State.settle (s : State) (c : Nat) (t : Try) : State :=
  match t with
  | .stop st => (s.stopAt c st).turned c
  | .idle s1 => s1.turned c
  | .delay s1 => s1.turned c
  | .issue s1 => s1.turned c

/-- BUNDLE_ISSUE (R103): the turn of a core in a cycle. While some core of a gang takes a stop, the stops that the cycle began with are all
that acts (R342). -/
def State.bundleTurn (s : State) (c : Nat) : State :=
  let k := s.core c
  let l := s.launch k.launch
  match k.status with
  | .run =>
    if !k.tagged && l.stopping then
      (match l.stops.find? (fun (p : Nat × Stop) => p.1 == c) with
        | some p => s.stopAt c p.2
        | none => s).turned c
    else
      let r := s.tryBundle c
      if !k.tagged && l.delayed then
        (match r.2 with
          | .delay s1 => s1
          | _ => s).turned c
      else r.1.settle c r.2
  | _ => s.turned c

/-! ## Held slots (R36, R381) -/

/-- The core as a held slot reads it: the row pointers are those of its bundle (R52), and the results in flight those for which its read is
due (R107). -/
def Core.atHeld (k : Core) (h : Held) : Core :=
  let late (latch id : Nat) : Bool := srcLatch h.op == some latch && (match h.src with | some n => decide (n < id) | none => true)
  { k with t := (List.range 16).map (fun n => { (k.t.getD n {}) with ptr := h.ptrs.getD n 0 }),
           mops := if h.re then k.mops else k.mops.filter (fun o => !late o.latch o.id),
           sops := if h.re then k.sops else k.sops.filter (fun o => !late o.latch o.id) }

/-- A held slot as an act of this cycle: guard and source are read again. -/
def State.heldAct (s : State) (c : Nat) (h : Held) : Act :=
  let k := s.core c
  { i := h.op,
    ic := { c := c, pre := k.atHeld h, limm := h.limm, pc := h.pc, slot := h.slot, re := h.re,
            tv := match h.st with
              | some st => st.tv
              | none => s.srcVal (k.atHeld h) c h.limm h.slot h.op,
            bval := some h.vals, idx := match h.st with | some st => st.idx | none => 0, nextPc := h.next,
            again := h.again, noXfer := h.noXfer, past := k.pastDelay h, bundle := some h.bundle } }

def State.heldActs (s : State) (c : Nat) (l : List Held) : List Act := l.map (s.heldAct c)

/-- Of some held slots of one bundle, those that stay when the slots `stuck` do. -/
def State.staying (s : State) (c : Nat) (group stuck : List Held) : List Held :=
  let k1 := (s.latchMoves (s.heldActs c group)).core c
  let hs := holdSet k1 (s.heldActs c group) group.length (s.heldActs c stuck)
  group.filter (fun h => hs.any (fun a => sameAct a (s.heldAct c h)))

/-- Held slots that may issue now: nothing they wait for is missing, and no held slot of their bundle that must go first stays. -/
def State.heldReady (s : State) (c : Nat) : List Held :=
  let hs := (s.core c).held.filter (fun h => !h.gone)
  let stuck := hs.filter (fun h => !((s.latchMoves (s.heldActs c hs)).actWait (s.heldAct c h)).isGo)
  let of_ (l : List Held) (b : Nat) : List Held := l.filter (fun h => h.bundle == b)
  hs.filter (fun h => !(s.staying c (of_ hs h.bundle) (of_ stuck h.bundle)).contains h)

def Core.addWeight (k : Core) (n : Nat) : Core := { k with weight := k.weight + n }

/-- Mark held slots as issued. -/
def Core.heldGone (k : Core) (l : List Held) : Core := { k with held := k.held.map (fun h => if l.contains h then { h with gone := true } else h) }

/-- The effects of held slots: those of an issue (R381). -/
def State.issueHeld (s : State) (c : Nat) (acts res : List Act) (keep : Act → Bool) : State × List (Nat × Stop) :=
  let z := s.issueActs c acts res keep
  let za := runActs z.1 (acts.filter (isUnit .au))
  let zc := runActs za.1 (acts.filter (isUnit .c))
  (zc.1, z.2 ++ za.2 ++ zc.2)

/-- Issue some held slots of one bundle together: operand moves, triggers and register moves as in one issue (R103). -/
def State.runHeld (s : State) (c : Nat) (l : List Held) : State :=
  let acts := s.heldActs c (l.filter (fun h => !h.re))
  let res := s.heldActs c (l.filter (fun h => h.re))
  let s1 := (s.issueHeld c acts res (fun a => l.any (fun h => h.slot == a.ic.slot && h.keep))).1
  let s2 := l.foldl (fun (t : State) h => t.idleHeld c h.bundle (acts.filter (fun a => a.ic.slot == h.slot))) s1
  s2.modCore c (fun k => (k.heldGone l).addWeight (actsWeight acts res))

/-- The stop that a held slot raises if it issues now, with the operand moves of its bundle that issue with it. -/
def State.heldStop (s : State) (c : Nat) (l : List Held) (h : Held) : Option (Nat × Stop) :=
  let moves := s.heldActs c (l.filter (fun m => !m.re && m != h && m.op.isPlain))
  let a := s.heldAct c h
  let e := (s.latchMoves (if h.re then moves else a :: moves)).earlyStops [a]
  let z := s.issueHeld c (if h.re then moves else a :: moves) (if h.re then [a] else []) (fun _ => h.keep)
  leastStop (e ++ z.2)

/-- The held slots of one bundle that are ready issue, but for those that stop and what depends on them; with the stop of least rank. -/
def State.heldGroup (s : State) (c : Nat) (l : List Held) : State × Option (Held × Stop) :=
  let bad : List (Held × Nat × Stop) := l.filterMap (fun h => (s.heldStop c l h).map (fun p => (h, p)))
  let stay := s.staying c l (bad.map (fun p => p.1))
  let first := bad.find? (fun p => bad.all (fun q => decide (p.2.1 ≤ q.2.1)))
  (s.runHeld c (l.filter (fun h => !stay.contains h)), first.map (fun p => (p.1, p.2.2)))

/-- HELD_SLOT_ISSUE (R36, R381): the ready held slots issue, bundle by bundle; one that faults stops the core, the oldest bundle's first. -/
def State.heldTurn (s : State) (c : Nat) : State :=
  let k := s.core c
  let ready := match k.status with
    | .run => if k.frz then [] else s.heldReady c
    | _ => []
  let r := (ready.map (fun h => h.bundle)).eraseDups.foldl (fun (z : State × Option (Held × Stop)) b =>
    let g := z.1.heldGroup c (ready.filter (fun h => h.bundle == b))
    (g.1, z.2.orElse (fun _ => g.2))) (s, none)
  let s1 := ((r.1.core c).held.filter (fun h => !h.gone)).foldl (fun (t : State) h => let a := t.heldAct c h; stepSlot a.i a.ic t) r.1
  let s2 := s1.modCore c (fun k => { k with heldTried := true })
  match r.2 with
  | none => s2
  | some (h, st) => (s2.takeStop c { st with held := true, baddr := some h.pc, resume := some (s2.core c).pc }).turned c

end Sys2Proof.Machine
end

