-- ==== Sys2Proof/Machine/Power.lean ====
section
/-! DEFINITION. Power governance (R347 to R351): the window of each core, freezes of cores, gangs and co-timetabled pairs, the
pending freeze of a fabric timetable, and hard throttles; and the settling of the gangs' delays and stops of a cycle (R34, R342). -/

set_option linter.unusedVariables false

namespace Sys2Proof.Machine

/-- The groups of a die, of 64 cores each (R6). -/
def groupsOf (d : Nat) : Nat := if d = 0 then 32 else 8

def Die.plimOf (d : Die) (g : Nat) : Nat := Tbl.getD d.plim g 23040
def Die.hlimOf (d : Die) (g : Nat) : Nat := Tbl.getD d.hlim g 28160

/-- The launch runs under an open fabric timetable (R350). -/
def Launch.hasFabric (l : Launch) : Bool := match l.img with | some im => im.fabric | none => false

/-- What is still in flight in a cycle: plane phases, blocks being loaded, lane L (R347). -/
def Core.flyWeight (k : Core) : Nat :=
  280 * (k.mma.filter (fun f => decide (k.clk < f.cyc + 8 * f.planes))).length + 60 * k.wld.length
    + (if k.cmds.any (fun q => q.lane == 0 && !q.finished && (match q.start with | some st => decide (st ≤ k.ecyc) | none => false)) then 24 else 0)

/-- The weight of the cycle (R347). -/
def Core.cycleWeight (k : Core) : Nat := if k.frz then 0 else 4 + k.weight + k.flyWeight

/-- Co-timetabled on two dies (R307). -/
def State.isPair (s : State) (l : Nat) : Bool :=
  (s.pairCores l).any (fun c => dieOf c == 0) && (s.pairCores l).any (fun c => dieOf c == 1)

def State.freezeCores (s : State) (cs : List Nat) : State := cs.foldl (fun t c => t.modCore c (fun k => { k with freezeNext := true })) s

/-- A freeze raised in a pair at its logical cycle, to come 41 cycles later (R349). -/
def Launch.raise (l : Launch) (at_ : Nat) : Launch := if l.frzAt.contains at_ then l else { l with frzAt := l.frzAt ++ [at_] }

/-- Whether a core's logical cycle advances at the end of this cycle (R5, R34, R342). -/
def State.lcycTicks (s : State) (c : Nat) : Bool :=
  let k := s.core c
  let l := s.launch k.launch
  match k.status with
  | .idle => false
  | .stopped => if k.tagged then !k.frz && k.softTick else !(l.delayed || l.stopping)
  | _ => if k.tagged then !k.frz else !(l.delayed || l.stopping)

/-- The cores of the package that run a launch's gang, its partner, or the fabric timetable that it has open. -/
def State.timetabled (s : State) (l : Nat) : List Nat :=
  if (s.launch l).hasFabric then
    ((s.cores.filter (fun q => q.2.bound && (s.launch q.2.launch).hasFabric && (s.launch q.2.launch).ttid == (s.launch l).ttid)).map (fun q => q.1)
      ++ s.pairCores l).eraseDups
  else s.pairCores l

/-- A hard throttle (R351): the core freezes at once; every core of its gang, partner or fabric timetable takes TIMING with SUB 8. -/
def State.throttle (s : State) (c : Nat) : State :=
  let l := (s.core c).launch
  let cs := s.timetabled l
  let s1 := if (s.core c).throttled then s
    else (cs.foldl (fun t i => t.modCore i (fun k => { k with timingSub := 8 })) s).modDie (dieOf c) (fun d => { d with thrcnt := sat32 (d.thrcnt + 1) })
  s1.modCore c (fun k => { k with throttled := true, freezeNext := true })

/-- POWER_WINDOW_CHECK (R348): the window of a core takes the cycle's weight, and a sum over PLIM freezes what R349 and R350 say: the next cycle of
a core, or of a gang; of a co-timetabled pair, the cycle 41 logical cycles after that. Under a fabric timetable the sum's crossing of PLIM leaves a
freeze pending. -/
def State.windowCheck (s : State) (c : Nat) : State :=
  let k := s.core c
  let win := (k.cycleWeight :: k.window).take 64
  let w := win.foldl (fun n x => n + x) 0
  let d := s.die (dieOf c)
  let l := s.launch k.launch
  let fab := k.bound && l.hasFabric
  let lim := if fab then Tbl.getD d.plimFrame (groupOf c) 23040 else d.plimOf (groupOf c)
  let s1 := s.modCore c (fun k => { k with window := win, weight := 0, crossed := fab && decide (lim < w) })
  if w ≤ lim then s1.modCore c (fun k => { k with throttled := false })
  else if k.throttled then s1.modCore c (fun k => { k with freezeNext := true })
  else
    let hard := decide (d.hlimOf (groupOf c) < w)
    if fab then
      (if hard && s.pendFreeze.isSome then s1.throttle c
      else if k.crossed || s.pendFreeze.isSome then s1
      else { s1 with pendFreeze := some s.now })
    else if k.tagged || !k.bound then s1.modCore c (fun k => { k with freezeNext := true })
    else if s.isPair k.launch then
      (if hard && !l.frzAt.isEmpty then s1.throttle c
      else
        let at_ := k.lcyc + (if s.lcycTicks c then 42 else 41)
        let s2 := s1.modLaunch k.launch (fun x => x.raise at_)
        match l.partner with
        | some q => s2.modLaunch q (fun x => x.raise at_)
        | none => s2)
    else s1.freezeCores (s.coresOf k.launch)

/-- The logical cycle of a gang. -/
def State.gangCycle (s : State) (l : Nat) : Nat := match s.coresOf l with | c :: _ => (s.core c).lcyc | [] => 0

/-- GANG_FREEZE_PROPAGATE (R349): at its logical cycle the freeze takes effect on every core of the gang. -/
def State.gangFreeze (s : State) (l : Nat) : State :=
  if (s.launch l).frzAt.contains (s.gangCycle l) then
    ((s.coresOf l).foldl (fun t c => t.modCore c (fun k => { k with frz := true })) s).modLaunch l (fun x =>
      { x with frzAt := x.frzAt.filter (fun n => n != s.gangCycle l) })
  else s

/-! ## Delays and stops of gangs -/

/-- A wait for what another agent brings: of the sync slot, or of a WAITA (R34). -/
def awaits (i : Instr) : Bool :=
  match i with
  | .waitf _ _ _ => true
  | .waite _ _ => true
  | .waitt _ _ => true
  | .waita _ _ _ _ => true
  | _ => false

/-- Operations that wait for the core's engine commands. -/
def drainsCmds (i : Instr) : Bool :=
  match i with
  | .tfence _ _ => true
  | .phase _ _ => true
  | .exit _ _ => true
  | _ => false

/-- What the delay of a core waits for: 3 another agent, 4 its own engine commands, 5 what is in flight, before a save or a freeze (R40, R344),
1 anything else. -/
def State.delayKind (s : State) (c : Nat) : Nat :=
  let k := s.core c
  if s.atSave c || (k.freezeReq && k.rep == 0) then 5
  else match s.readyBundle c with
    | none => 1
    | some q =>
      let acts := s.actsOf c q
      if acts.any (fun a => awaits a.i) then 3 else if acts.any (fun a => drainsCmds a.i) then 4 else 1

/-- A store of the core into Carafe stands at an occupied slot: the bridge interlock delays its gang and the partner on Nared (R15, R34). -/
def State.bridgeLocked (s : State) (c : Nat) : Bool :=
  s.interlocked.any (fun m => match m.who with
    | .access q _ _ => q == c
    | _ => false)

/-- What a core would do in this cycle: 0 go on, 2 stop, and else wait, for what `delayKind` says. -/
def State.coreSense (s : State) (c : Nat) : Nat :=
  let k := s.core c
  match k.status with
  | .run =>
    if k.frz || s.bridgeLocked c then 1
    else match (s.tryBundle c).2 with
      | .delay _ => s.delayKind c
      | .stop _ => 2
      | _ => 0
  | .stopped => 1
  | _ => if k.frz || s.bridgeLocked c then 1 else 0

/-- A gang's cycle: any wait delays all of it and its partner; else any stop holds the others (R34, R342). -/
def State.senseGang (s : State) (l : Nat) : State :=
  let r := (s.pairCores l).map (fun c => s.coreSense c)
  let d := r.any (fun n => n == 1 || decide (3 ≤ n))
  let stopping := !d && r.contains 2
  let stops := if stopping then (s.pairCores l).filterMap (fun c => match (s.core c).status, (s.tryBundle c).2 with | .run, .stop st => some (c, st) | _, _ => none) else []
  s.modLaunch l (fun x => { x with delayed := d, stopping := stopping, stops := stops, waiting := r.contains 3, settles := r.contains 5 })

/-- Settle every gang of the package for this cycle. -/
def State.senseGangs (s : State) : State :=
  let ls := (s.launches.filter (fun l => !l.2.tagged && (s.coresOf l.1 != []))).map (fun l => l.1)
  let rs := ls.map (fun l => (l, (s.senseGang l).launch l))
  let ds := (s.cores.filter (fun q => q.2.bound && !q.2.tagged && !q.2.cmds.isEmpty)).map (fun q => (q.1, s.coreSense q.1 == 4))
  let s1 := ds.foldl (fun t d => t.modCore d.1 (fun k => { k with cmdWait := d.2 })) s
  { rs.foldl (fun t r => t.modLaunch r.1 (fun x =>
      { x with delayed := r.2.delayed, stopping := r.2.stopping, stops := r.2.stops, waiting := r.2.waiting, settles := r.2.settles })) s1 with sensed := true }

end Sys2Proof.Machine
end

