-- ==== Sys2Proof/Machine/Cycle.lean ====
section
/-! DEFINITION. The end of a package cycle (R5, R106, R107, R149 to R157, R155, R224, R227, R238 to R247, R291): in which order
results land, accesses perform, products and blocks arrive, engines run, and the cores' logical cycles advance. -/

set_option linter.unusedVariables false

namespace Sys2Proof.Machine

/-- Whether what is in flight on a core advances in this cycle: in a logical cycle; through a stop of the core or of its gang, in which no
bundle issues but operations complete (R338, R342); and before a save or a freeze, which they come before (R40, R314, R344). -/
def State.clkTicks (s : State) (c : Nat) : Bool :=
  let k := s.core c
  let l := s.launch k.launch
  s.lcycTicks c || (k.bound && !k.frz && (if k.tagged then k.status == .stopped
    else l.stopping || (l.delayed && l.settles) || (s.pairCores k.launch).any (fun q => (s.core q).status == .stopped)))

/-- What a core's bundle waits for at another agent: the core, the operation, and the word of a WAITA. -/
def State.awaited (s : State) (c : Nat) : List (Nat × Instr × List Piece) :=
  match (s.core c).status, (s.fetchBundle c).2 with
  | .run, .ok q =>
    let s1 := s.latchMoves (s.actsOf c q)
    (s.actsOf c q).filterMap (fun a =>
      if !awaits a.i || (s1.actWait a).isGo then none
      else match a.i with
        | .waita _ _ b _ => (match s1.waitaLook a.ic (a.ic.memEa b) with | some (_, ps, _) => some (c, a.i, ps) | none => none)
        | _ => some (c, a.i, []))
  | _, _ => []

/-- Locations that a command writes: its payload, its NOTIFY WORD and its completion word. -/
def State.cmdSpans (s : State) (c : Nat) (q : Cmd) (b : BitVec 512) : List (Nat × Nat) :=
  ((List.range (cmdRows q.op b)).flatMap (fun r => (s.nextWrites c { q with rowsDone := r } b).flatMap (fun w => s.spansOf c (pagesOf w.2) w.1 w.2)))
    ++ (if bNotify b = 1 then [(scratchLoc (bNcore b) (bNoff b), scratchLoc (bNcore b) (bNoff b) + 8)] else [])
    ++ (if bCwaddr b = 0 then [] else s.spansOf c 2 (bCwaddr b) 8)

/-- A command of core `c` brings what a wait is for: the flag, the event bit, or a write to the word (R242). -/
def State.endsWait (s : State) (c : Nat) (q : Cmd) (w : Nat × Instr × List Piece) : Bool :=
  let b := s.blockOf c q
  match w.2.1 with
  | .waitf i _ _ => bNotify b == 2 && bNcore b == w.1 && bNidx b == i.toNat
  | .waite i _ => bNotify b == 3 && (s.core c).ctx == (s.core w.1).ctx && bNidx b == i.toNat
  | .waita _ _ _ _ => (s.cmdSpans c q b).any (fun r => w.2.2.any (fun p => decide (r.1 < p.loc + p.len) && decide (p.loc < r.2)))
  | _ => false

/-- A command whose end an agent outside the gang can see. -/
def State.tellsOut (s : State) (c : Nat) (q : Cmd) : Bool := let b := s.blockOf c q; bNotify b == 3 || bCwaddr b != 0

/-- The delay of a gang, which waits for another agent, can be ended by a command of core `c`: one that brings what it waits for; where no command
of the gang does, one whose end another agent may answer (log 15). -/
def State.queueNeeded (s : State) (c : Nat) : Bool :=
  let ends (d : Nat) (ws : List (Nat × Instr × List Piece)) : Bool := (s.core d).cmds.any (fun q => ws.any (fun w => s.endsWait d q w))
  !(s.core c).cmds.isEmpty
    && (let cs := s.pairCores (s.core c).launch
      let ws := cs.flatMap (fun d => s.awaited d)
      ends c ws || (cs.all (fun d => !ends d ws) && (s.core c).cmds.any (fun q => s.tellsOut c q)))

/-- Whether the core's command queue and lane L count this cycle (R34): with the core's other clocks, so that commands keep their cycle offset
from the task's start through a delay. A delay that only a command can end lets it run: one that waits for the core's own commands, and one
that waits for another agent, where a command of the core can bring that about (log 15). -/
def State.queueTicks (s : State) (c : Nat) : Bool :=
  let k := s.core c
  let l := s.launch k.launch
  !k.frz && (k.tagged || s.clkTicks c || l.delayed && (k.cmdWait || l.waiting && s.queueNeeded c))

/-- The cores with a task, in id order. -/
def State.boundCores (s : State) : List Nat := (s.cores.filter (fun q => q.2.bound)).map (fun q => q.1)

/-- Whether an access may perform now, on a core whose cycle ends (`t`) or not. -/
def State.performsNow (s : State) (c : Nat) (t : Bool) (o : MOp) : Bool := (!o.fixed || t) && s.canPerform c o

/-- An atomic on the schedule reads with the reads of its cycle and writes with the writes (R155). -/
def MOp.readsFirst (k : Core) (o : MOp) : Bool := o.isRead && (!o.isAtomic || (o.fixed && !k.tagged))

/-- The reads of one core that perform at their cycle at the end of this one (R155). -/
def State.coreReads (s : State) (c : Nat) : State :=
  let t := s.clkTicks c
  (s.core c).mops.foldl (fun u o => if o.fixed && o.readsFirst (s.core c) && u.performsNow c t o then u.performRead c o else u) s

/-- The writes of one core that perform at their cycle, in unit order (R155); a release in TAGGED mode drains first (R157, R181). -/
def State.coreWrites (s : State) (c : Nat) : State :=
  let t := s.clkTicks c
  let os := (s.core c).mops.filter (fun o => o.isWrite && o.fixed)
  (List.range 4).foldl (fun u r => os.foldl (fun v o =>
    if o.unitRank = r then
      let w := if t then (v.stageOp c o.id).stageOp c o.id else v
      match (w.core c).mops.find? (fun q => q.id == o.id) with
      | some q => if w.performsNow c t q then w.performWrite c q else w
      | none => w
    else v) u) s

/-- The accesses of one core that are not on the schedule, in order of issue. They come about after those of the cycle's schedule, so that
no write falls between the read and the write of an atomic (R152) but those that R155 orders there. -/
def State.coreOthers (s : State) (c : Nat) : State := (s.core c).mops.foldl (fun u o => if o.fixed then u else u.advance c o.id) s

/-- Fences, posts and event writes of one core. -/
def State.coreOrders (s : State) (c : Nat) : State :=
  let t := s.clkTicks c
  (s.core c).mops.foldl (fun u o =>
    match ((u.advance c o.id).core c).mops.find? (fun q => q.id == o.id) with
    | some q => if q.latch == 0 && !q.isRead && !q.isWrite && (u.advance c o.id).performsNow c t q then (u.advance c o.id).performOrder c q else u
    | none => u) s

/-- Products and blocks that arrive on one core. -/
def State.coreLands (s : State) (c : Nat) : State :=
  if s.clkTicks c then s.modCore c (fun k => (k.landMma (fun _ => true)).landWld true)
  else if (s.core c).frz then s
  else s.modCore c (fun k => k.landWld false)

/-- The accesses on the schedule of some cores that are due `j` cycles from now perform: reads, then writes by core and unit (R155). -/
def State.settleAt (s : State) (cs : List Nat) (j : Nat) : State :=
  let due (k : Core) (o : MOp) : Bool := o.fixed && !o.perf && !o.logged && decide (o.due ≤ k.clk + j) && k.inOrder o
  let s1 := cs.foldl (fun t c => (t.core c).mops.foldl (fun u o =>
    if o.readsFirst (t.core c) && due (t.core c) o then u.performRead c o else u) t) s
  cs.foldl (fun t c => (List.range 4).foldl (fun u r => ((t.core c).mops.filter (fun o => o.isWrite && o.unitRank = r)).foldl (fun v o =>
    match (v.core c).mops.find? (fun q => q.id == o.id) with
    | some q => if due (v.core c) q then v.performWrite c q else v
    | none => v) u) t) s1

/-- Some accesses of a TIMED gang perform, and every one that the schedule has before them, in its order: a delay may have stopped the logical
cycle meanwhile. -/
def State.settleUpTo (s : State) (c : Nat) (os : List MOp) : State :=
  let k := s.core c
  if k.tagged || k.frz || os.isEmpty then s
  else (List.range (os.foldl (fun n o => Nat.max n o.due) 0 - k.clk + 1)).foldl (fun t j => t.settleAt (s.coresOf k.launch) j) s

/-- Before a block is read in TIMED mode, the thread's stores up to its acceptance have performed (R238); and before an engine that runs in a delay
gets at a tile, those that its flip orders there (R161). -/
def State.settleBlocks (s : State) (c : Nat) : State :=
  let k := s.core c
  s.settleUpTo c ((k.cmds.filter k.blockReady).flatMap (fun q => k.blockStores q.clk q.blkAddr)
    ++ (if s.clkTicks c then [] else (k.cmds.filter (fun q => q.start.isSome)).flatMap k.flipStores))

/-- The same before a block of lp, bq or ps is read (R291). -/
def State.settleSpecs (s : State) (c : Nat) : State :=
  let k := s.core c
  s.settleUpTo c ((k.sops.filter (fun o => o.blk.isSome && o.blkv.isNone && k.specReady s.now o)).flatMap (fun o => k.blockStores o.clk (o.blk.getD 0)))

/-- The engine's cycle of a core that is not frozen. -/
def State.coreEngine (s : State) (c : Nat) : State :=
  if (s.core c).frz then s
  else if s.queueTicks c then ((s.settleBlocks c).engineCycle c true).modCore c (fun k => { k with ecyc := k.ecyc + 1 })
  else s.engineCycle c false

/-! ## Posts and delays (R34, R60, R61, R175) -/

/-- Up to which cycle of the schedule its accesses come about in a delay of a core that could not end without them: those that a post or event
write of its thread follows, and the next write of its gang to a word on which it sleeps. -/
def State.delayNeeds (s : State) (c : Nat) : List Nat :=
  let k := s.core c
  let posts := (k.mops.filter (fun o => o.isPost && decide (o.due ≤ s.now))).flatMap (fun o => ((k.openBefore o).filter (fun q => q.fixed)).map (fun q => q.due))
  let sleeps := match k.status, (s.fetchBundle c).2 with
    | .run, .ok q =>
      let s1 := s.latchMoves (s.actsOf c q)
      (s.actsOf c q).flatMap (fun a => match a.i with
        | .waita src al b g =>
          (match waitWaita a.ic src al b g s1, s1.waitaLook a.ic (waitaReq a.ic src al b g 0).ea with
          | .wait, some (_, ps, _) =>
            (match (s.pairCores k.launch).flatMap (fun m => ((s.core m).mops.filter (fun o =>
                o.isWrite && o.fixed && !o.perf && piecesMeet ps o.pieces)).map (fun o => o.due)) with
            | [] => []
            | d :: ds => [ds.foldl Nat.min d])
          | _, _ => [])
        | _ => [])
    | _, _ => []
  posts ++ sleeps

/-- In a delay that waits for another agent, what only accesses on the gang's own schedule can bring comes about: they perform in the order of
the schedule, up to the one that is waited for (log 94). -/
def State.settleDelays (s : State) : State :=
  s.launches.foldl (fun t l =>
    if l.2.tagged || !l.2.delayed || !l.2.waiting then t
    else
      let cs := t.pairCores l.1
      let clk := match cs with | c :: _ => (t.core c).clk | [] => 0
      match cs.flatMap (fun c => t.delayNeeds c) with
      | [] => t
      | ds => (List.range (ds.foldl Nat.max 0 - clk + 1)).foldl (fun u j => u.settleAt cs j) t) s

/-- The posts and event writes of one core that take effect at this cycle's end: they act before the cycle's waits are tested (R60, R61), with
the accesses before them that the schedule has in this cycle. What an engine posts as it completes is a post of the next cycle (log 17). -/
def State.corePosts (s : State) (c : Nat) : State :=
  (s.core c).mops.foldl (fun u o =>
    if !o.isPost || decide (u.now < o.due) || (u.core c).frz then u
    else
      let k := u.core c
      let before := k.openBefore o
      let u1 := if before != [] && before.all (fun q => q.fixed && decide (q.due ≤ k.clk)) then
          u.settleAt (if k.tagged then [c] else u.pairCores k.launch) 0 else u
      let u2 := u1.advance c o.id
      match (u2.core c).mops.find? (fun q => q.id == o.id) with
      | some q => if u2.performsNow c true q then u2.performOrder c q else u2
      | none => u2) s

/-- The start of a cycle: writes that have waited at their homes (R326, R335), the posts and event writes of the cycle, those of cores by core and then those of completions, then what each gang does
in it. -/
def State.sense (s : State) : State :=
  let s1 := (s.boundCores.foldl (fun t c => t.corePosts c) s.unstall).lateEvents.senseGangs
  s1.boundCores.foldl (fun t c => t.modCore c Core.keepFound) s1

/-- The speculation units of a core. -/
def State.coreSpec (s : State) (c : Nat) : State :=
  let t := (s.core c).sops.foldl (fun u o => u.specStep c o) (s.settleSpecs c)
  t.modCore c (fun k => k.retireSpec k.sops.length)

/-- The end of a core's cycle: what the cycle alone keeps is dropped, and the counts of cycles advance. lcyc counts every cycle of the task in
which it is not stopped, from the task's start on; R62 also speaks of the first bundle issued, which STALL idles or a wait may hold back
(log 55). -/
def Core.nextCycle (k : Core) (ticks clk : Bool) : Core :=
  let k1 := k.retireOps.retireLogs
  { k1 with
    held := k1.held.filter (fun h => !h.gone)
    turn := false
    heldTried := false
    mTrig := false
    softTick := false
    found := none
    mmaq := none
    lcyc := if ticks then k1.lcyc + 1 else k1.lcyc
    clk := if clk then k1.clk + 1 else k1.clk }

/-- A freeze decided by the power windows begins (R348). -/
def Core.freezeStep (k : Core) : Core :=
  { k with frz := k.freezeNext, freezeNext := false, frzcnt := if k.freezeNext then Nat.min (k.frzcnt + 1) (2 ^ 48 - 1) else k.frzcnt }

/-- A fault that ended a task of a TIMED gang ends every task of the gang and of its co-timetabled partner, once every core has had its
turn (R341, R343). -/
def State.gangEnds (s : State) : State :=
  s.launches.foldl (fun t l =>
    if !l.2.tagged && l.2.faulted then
      (t.pairCores l.1).foldl (fun u i => match (u.core i).status with | .drain => u | _ => u.endFaulted i) t
    else t) s

/-- The cores whose windows are looked at one by one (R348). Of those that nothing has touched since reset, whose windows hold base weights alone,
only where PLIM is below 64 of these. -/
def State.windowCores (s : State) : List Nat :=
  let low := [0, 1].flatMap (fun d => (List.range (groupsOf d)).flatMap (fun g =>
    if (s.die d).plimOf g < 256 then (List.range 64).map (fun i => 2048 * d + 64 * g + i) else []))
  s.cores.map (fun q => q.1) ++ low.filter (fun c => !s.cores.any (fun q => q.1 == c))

/-- Everything that happens to cores at the end of a cycle. -/
def State.coresEnd (s : State) : State :=
  let cs := s.boundCores
  let tick := cs.filter (fun c => s.lcycTicks c)
  let clk := cs.filter (fun c => s.clkTicks c)
  let s0 := cs.foldl (fun t c => if (t.core c).frz then t else t.followOns c (t.queueTicks c)) s.settleDelays
  let s1 := clk.foldl (fun t c => t.modCore c (fun k => k.landDue)) s0
  let s2 := cs.foldl (fun t c => t.coreReads c) s1
  let s3 := cs.foldl (fun t c => t.coreWrites c) s2
  let s4 := cs.foldl (fun t c => t.coreOrders c) (cs.foldl (fun t c => t.coreOthers c) s3)
  let s5 := cs.foldl (fun t c => t.coreLands c) s4
  let s6 := cs.foldl (fun t c => t.coreEngine c) s5
  let s7 := cs.foldl (fun t c => t.coreSpec c) s6
  let ws := s7.windowCores
  let s8 := ws.foldl (fun t c => t.windowCheck c) s7
  let s9 := cs.foldl (fun t c => t.modCore c (fun k => k.nextCycle (tick.contains c) (clk.contains c))) s8
  let s10 := ws.foldl (fun t c => t.modCore c (fun k => k.freezeStep)) s9
  ({ s10 with winIdle := Nat.min 64 (s10.winIdle + 1) } : State).lpCycle

/-- The freezes that reach their gangs in the new cycle (R349). A frozen gang core counts the cycle. -/
def State.pairFreezes (s : State) : State :=
  s.launches.foldl (fun t l =>
    if l.2.frzAt.isEmpty then t
    else
      let u := t.gangFreeze l.1
      (s.coresOf l.1).foldl (fun v c =>
        if (u.core c).frz && !(t.core c).frz then v.modCore c (fun k => { k with frzcnt := Nat.min (k.frzcnt + 1) (2 ^ 48 - 1) }) else v) u) s

end Sys2Proof.Machine
end

