-- ==== Sys2Proof/Machine/Loader.lean ====
section
/-! DEFINITION. The kernel object as the loader reads it (R123): header, section table, loop table (R29), memory plan, format table,
timetable and fabric plan; and the tile tasks that its loop table gives (R30). An object that breaks a limit gives none. -/

set_option linter.unusedVariables false

namespace Sys2Proof.Machine

/-- The little-endian value of `n` bytes at an offset. -/
def le (bs : List Byte) (off n : Nat) : Nat := ofBytes ((bs.drop off).take n)

/-- Bytes of an object in its context's memory; none where an address faults. -/
def State.objGet (s : State) (ctx va n : Nat) : Option (List Byte) :=
  match s.vRead ctx (pagesOf n) va n with
  | .ok b => some b
  | .error _ => none

/-- An entry of the section table. -/
structure Section where
  ty : Nat
  off : Nat
  size : Nat
  deriving DecidableEq, Repr

def headerOk (h : List Byte) : Bool :=
  le h 0 4 == 0x424F4B50 && le h 4 2 == 1 && decide (le h 16 4 ≤ 1) && decide (le h 20 4 ≤ 2) && le h 28 36 == 0

def sectionAt (t : List Byte) (i : Nat) : Section := { ty := le t (16 * i) 4, off := le t (16 * i + 8) 4, size := le t (16 * i + 12) 4 }

/-- The section table: reserved words 0, every section 64-byte aligned, exactly one code section. -/
def sectionsOk (t : List Byte) (n : Nat) : Bool :=
  (List.range n).all (fun i => le t (16 * i + 4) 4 == 0 && (sectionAt t i).off % 64 == 0)
    && (((List.range n).filter (fun i => (sectionAt t i).ty == 1)).length == 1)

/-! ## The loop table -/

def readLevel (bs : List Byte) : Option LoopLevel :=
  let w := le bs 0 8
  let kind := fld w 1 0
  let trip := fld w 39 8
  if fld w 7 2 ≠ 0 ∨ fld w 63 40 ≠ 0 ∨ kind = 3 ∨ (kind = 1 ∧ (trip = 0 ∨ 65536 < trip)) ∨ (kind = 2 ∧ (trip = 0 ∨ 2 < trip)) then none
  else some { kind := kind, trip := trip, strides := (List.range 16).map (fun j => u64 (le bs (8 + 8 * j) 8)) }

def readLevels (bs : List Byte) : Nat → Nat → Option (List LoopLevel)
  | 0, _ => some []
  | n + 1, off =>
    match readLevel (bs.drop off), readLevels bs n (off + 136) with
    | some l, some r => some (l :: r)
    | _, _ => none

/-- The spatial levels. -/
def spatialOf (ls : List LoopLevel) : List LoopLevel := ls.filter (fun l => l.kind != 0)

def tripProd (ls : List LoopLevel) : Nat := ls.foldl (fun n l => n * l.trip) 1

/-- The limits of R29 on a whole table. -/
def levelsOk (ls : List LoopLevel) : Bool :=
  decide ((spatialOf ls).length ≤ 4) && decide ((ls.filter (fun l => l.kind == 2)).length ≤ 1) && decide (tripProd (spatialOf ls) ≤ 2 ^ 32 - 1)

/-- One CORES level of trip count 1 (R29). -/
def onlyLevel : LoopLevel := { kind := 1, trip := 1, strides := List.replicate 16 0 }

def State.readLoops (s : State) (ctx image : Nat) (sec : Option Section) : Option (List LoopLevel) :=
  match sec with
  | none => some [onlyLevel]
  | some x =>
    match s.objGet ctx (image + x.off) 8 with
    | none => none
    | some h =>
      let n := le h 0 8
      if n = 0 ∨ 8 < n then none
      else
        match s.objGet ctx (image + x.off) (8 + 136 * n) with
        | none => none
        | some bs =>
          match readLevels bs n 8 with
          | some ls => if levelsOk ls then some ls else none
          | none => none

/-! ## The memory plan -/

/-- Data records up to the one of length 0; each lies in the scratch of phase 0. -/
def State.readData (s : State) (ctx lim : Nat) : Nat → Nat → Option (List (Nat × List Byte))
  | 0, _ => none
  | fuel + 1, va =>
    match s.objGet ctx va 8 with
    | none => none
    | some h =>
      let off := le h 0 4
      let len := le h 4 4
      if len = 0 then some []
      else if lim < off + len then none
      else
        match s.objGet ctx (va + 8) len, State.readData s ctx lim fuel (va + 8 + (len + 7) / 8 * 8) with
        | some d, some r => some ((off, d) :: r)
        | _, _ => none

/-- The memory plan: scratch units of each phase, and the data records. R123 gives a phase word its units in bits [4:0] and says nothing of
the others. DESIGN CHOICE (log 49): the whole word is the count, so that an object with one of the other bits set breaks the limit of
the units and is refused as BADLAUNCH. -/
def State.readMemPlan (s : State) (ctx image maxUnits : Nat) (sec : Option Section) : Option (List Nat × List (Nat × List Byte)) :=
  match sec with
  | none => some ([0], [])
  | some x =>
    match s.objGet ctx (image + x.off) 8 with
    | none => none
    | some h =>
      let n := le h 0 8
      if n = 0 ∨ 8 < n then none
      else
        match s.objGet ctx (image + x.off + 8) (8 * n) with
        | none => none
        | some bs =>
          let us := (List.range n).map (fun i => le bs (8 * i) 8)
          if us.any (fun u => decide (maxUnits < u)) then none
          else
            match s.readData ctx (65536 * us.headD 0) (x.size / 8 + 1) (image + x.off + 8 + 8 * n) with
            | some d => some (us, d)
            | none => none

/-! ## Format table, timetable, fabric plan -/

/-- The format table: mask and values. R123 names bits 0 to 15 of the mask and calls the four bytes after it reserved, and does not say what
others than 0 do. DESIGN CHOICE (log 49): bits 16 to 31 of the mask and the reserved bytes are ignored. -/
def State.readFormats (s : State) (ctx image : Nat) (sec : Option Section) : Option (Nat × List (BitVec 32)) :=
  match sec with
  | none => some (0, [])
  | some x =>
    match s.objGet ctx (image + x.off) 72 with
    | none => none
    | some bs =>
      let m := le bs 0 4
      let vs := (List.range 16).map (fun i => le bs (8 + 4 * i) 4)
      if (List.range 16).any (fun i => bitAt m i && !fmtLegal (vs.getD i 0)) then none else some (m, vs.map (fun v => BitVec.ofNat 32 v))

/-- Role and START of the timetable section (R307); an image with a timetable id has one that repeats it. -/
def State.readTimetable (s : State) (ctx image ttid : Nat) (sec : Option Section) : Option (Nat × Nat) :=
  match sec with
  | none => if ttid = 0 then some (0, 0) else none
  | some x =>
    match s.objGet ctx (image + x.off) 8 with
    | none => none
    | some bs =>
      let w := le bs 0 8
      if fld w 31 0 = ttid then some (fld w 32 32, fld w 63 40) else none

/-- TTID and records of the fabric plan (R365). -/
def State.readPlan (s : State) (ctx image : Nat) (sec : Option Section) : Option (Bool × Nat × List Nat) :=
  match sec with
  | none => some (false, 0, [])
  | some x =>
    match s.objGet ctx (image + x.off) 8 with
    | none => none
    | some h =>
      let n := fld (le h 0 8) 47 32
      match s.objGet ctx (image + x.off + 8) (8 * n) with
      | none => none
      | some bs =>
        let rs := (List.range n).map (fun i => le bs (8 * i) 8)
        if rs.any (fun r => fld r 63 40 != 0) then none else some (true, fld (le h 0 8) 31 0, rs)

/-- The first section of a type. -/
def sectionOf (t : List Byte) (n ty : Nat) : Option Section := ((List.range n).map (sectionAt t)).find? (fun x => x.ty == ty)

/-- The object at an address of a context (R123); none where it breaks a limit or cannot be read. An entry offset that is no multiple of 4 (R91)
is taken as it stands: the manual does not say that the loader refuses it; DESIGN CHOICE (log 49). -/
def State.readImage (s : State) (ctx image maxUnits : Nat) : Option Image := do
  let h ← s.objGet ctx image 64
  let n := le h 6 2
  let t ← s.objGet ctx (image + 64) (16 * n)
  if !headerOk h || !sectionsOk t n then none
  else
    let code ← sectionOf t n 1
    let ls ← s.readLoops ctx image (sectionOf t n 2)
    let mp ← s.readMemPlan ctx image maxUnits (sectionOf t n 3)
    let fm ← s.readFormats ctx image (sectionOf t n 4)
    let tt ← s.readTimetable ctx image (le h 24 4) (sectionOf t n 5)
    let fp ← s.readPlan ctx image (sectionOf t n 6)
    let cb := (image + code.off) % 2 ^ 56
    some { entry := (cb + le h 8 8) % 2 ^ 56, cb := cb, mode := le h 16 4, shape := le h 20 4, ttid := le h 24 4, levels := ls,
           phases := mp.1, data := mp.2, fmMask := fm.1, fmVals := fm.2, ttRole := tt.1, ttStart := tt.2, fabric := fp.1,
           planTtid := fp.2.1, plan := fp.2.2 }

/-! ## Tile tasks (R30) -/

/-- Coordinates of a linear tile index: the highest-numbered spatial level varies fastest. -/
def coordsOf : List LoopLevel → Nat → List Nat
  | [], _ => []
  | l :: r, i => (i / tripProd r) % l.trip :: coordsOf r (i % tripProd r)

def Image.spatial (im : Image) : List LoopLevel := spatialOf im.levels
def Image.nTasks (im : Image) : Nat := tripProd im.spatial
def Image.hasDies (im : Image) : Bool := im.levels.any (fun l => l.kind == 2)

/-- The die that runs a task: its DIES coordinate, or the launch's die. -/
def Image.taskDie (im : Image) (die i : Nat) : Nat :=
  (((im.spatial.zip (coordsOf im.spatial i)).find? (fun p => p.1.kind == 2)).map (fun p => p.2)).getD die

/-- A task's place among the tasks of its die. -/
def Image.taskRank (im : Image) (die i : Nat) : Nat :=
  if im.hasDies then ((List.range i).filter (fun j => im.taskDie die j == im.taskDie die i)).length else i

def Image.dieTasks (im : Image) (die d : Nat) : Nat := 
  if im.hasDies then ((List.range im.nTasks).filter (fun j => im.taskDie die j == d)).length else if d = die then im.nTasks else 0

/-- tcx: the coordinates in 16-bit fields. -/
def Image.tcx (im : Image) (i : Nat) : U64 := u64 (ofDigits16 (coordsOf im.spatial i))
where
  ofDigits16 : List Nat → Nat
    | [] => 0
    | c :: r => c % 65536 + 65536 * ofDigits16 r

/-- b_j at task start: ARGS word j plus the spatial strides. -/
def Image.baseStart (im : Image) (i j arg : Nat) : U64 :=
  (im.spatial.zip (coordsOf im.spatial i)).foldl (fun (v : U64) p => v + u64 p.2 * p.1.strides.getD j 0) (u64 arg)

/-- The loop-level strides of b_j: those of the TEMPORAL levels (R31). -/
def Image.levelStrides (im : Image) (j : Nat) : List U64 :=
  (List.range 8).map (fun n => match im.levels[n]? with
    | some l => if l.kind = 0 then l.strides.getD j 0 else 0
    | none => 0)

end Sys2Proof.Machine
end

