-- ==== Sys2Proof/Machine/Sched.lean ====
section
/-! DEFINITION. The dispatcher (R24 to R47, R301 to R314): queues and launch packets, binding of tasks to cores, gangs and their pairs,
completion, pre-emption, checkpoints, restores, kills, slices, aging and tokens; and the trap-queue entries that wait for room (R341). -/

set_option linter.unusedVariables false

namespace Sys2Proof.Machine

/-! ## Queues (R305, R306) -/

/-- A bound queue as its descriptor in memory gives it, and where its RIDX line is. -/
structure Queue where
  rloc : Nat
  base : Nat
  nslot : Nat
  ctx : Nat
  scope : Nat
  ridx : Nat
  deriving DecidableEq, Repr

/-- A queue whose descriptor's address no longer translates (R321) has none. -/
def State.queue? (s : State) (d q : Nat) : Option Queue :=
  match Tbl.find? (s.die d).queues q with
  | none => none
  | some (l0, _, l2) =>
    if l0 = noPlace ∨ l2 = noPlace then none
    else
    let w1 := word64 s.mem (l0 + 8)
    some { rloc := l2, base := fld (word64 s.mem l0) 55 0, nslot := fld w1 16 0, ctx := ctxKey d (fld w1 22 17), scope := fld w1 25 23,
           ridx := (Tbl.getD (s.die d).ridx q 0).toNat }

/-- The dispatcher of a die reads queues: DSTAT.ENABLE, which takes effect in stage FULL (R311, R373). -/
def State.dispatching (s : State) (d : Nat) : Bool := (s.die d).enable && s.boot.stage == 4

/-- A byte as the dispatcher of a die reads it with an acquire at a scope (R306): what a release at DIE scope has brought to the die's point, its
home or its remote-data cache; at a wider scope what stands at the home, under what the die's cache still holds dirty. -/
def State.dispByte (s : State) (d sc loc : Nat) : Byte :=
  s.pointByte d (fun l => decide (scopeRank sc < 4) && l.full) loc

/-- The eight words of the packet in the slot of a claim. -/
def State.packet (s : State) (q : Queue) (i : Nat) : Option (List Nat) :=
  match s.vLoc q.ctx (q.base + 64 * (i % q.nslot)) { r := true } with
  | .ok loc => some ((List.range 8).map (fun j =>
      ofBytes ((List.range 8).map (fun n => s.dispByte (q.ctx / 64) q.scope (loc + 8 * j + n)))))
  | .error _ => none

/-- The packet that the dispatcher takes next from a queue (R306): its ticket is RIDX, the queue is not frozen and its context valid. -/
def State.nextPacket (s : State) (d q : Nat) : Option (Queue × List Nat) :=
  match s.queue? d q with
  | none => none
  | some x =>
    if !s.dispatching d || (s.die d).qFrozen.contains q || !(s.ctx x.ctx).valid || x.nslot == 0 then none
    else
      match s.packet x x.ridx with
      | some w => if fld (w.getD 0 0) 63 16 = x.ridx % 2 ^ 48 then some (x, w) else none
      | none => none

/-- RIDX moves on, in the dispatcher and in the descriptor. -/
def State.setRidx (s : State) (d q : Nat) (x : Queue) (n : Nat) : State :=
  let v := (x.ridx + n) % 2 ^ 64
  (s.logicWrite d 4 x.rloc (toBytes 8 v)).modDie d (fun y => { y with ridx := Tbl.put y.ridx q (u64 v) })

def packetType (w : List Nat) : Nat := fld (w.getD 0 0) 7 0

/-- NOP_PACKET. -/
def State.takeNop (s : State) (d q : Nat) : State :=
  match s.nextPacket d q with
  | some (x, w) => if packetType w = 2 then s.setRidx d q x 1 else s
  | none => s

/-- RESERVED_PACKET: skipped and counted. -/
def State.takeReserved (s : State) (d q : Nat) : State :=
  match s.nextPacket d q with
  | some (x, w) =>
    if packetType w = 1 ∨ packetType w = 2 then s
    else (s.setRidx d q x 1).modCtx x.ctx (fun c => { c with qerr := sat16 (c.qerr + 1) })
  | none => s

/-! ## Launches (R25, R307) -/

def shapeCores (die shape : Nat) : Nat := (if die = 0 then 2048 else 512) / 2 ^ shape

/-- The launch of packets A and B on a die. -/
def launchOf (d q ctx order : Nat) (a b : Nat → Nat) : Launch :=
  let m (w : Nat → Nat) (o : Nat) : BitVec 256 := BitVec.ofNat 256 (w o + w (o + 1) * 2 ^ 64 + w (o + 2) * 2 ^ 128 + w (o + 3) * 2 ^ 192)
  { die := d, ctx := ctx, queue := q, ticket := fld (a 0) 63 16, order := order, image := fld (a 1) 55 0, args := fld (a 2) 55 0,
    wait := m b 0, set := m b 4, est := fld (a 3) 47 0, cls := fld (a 3) 50 48, effcls := fld (a 3) 50 48, ckpt := bitAt (a 3) 51,
    killok := bitAt (a 3) 52, tagged := bitAt (a 3) 53, shape := fld (a 3) 56 55, cwscope := fld (a 3) 59 57, cwaddr := fld (a 4) 55 0,
    ttid := fld (a 5) 31 0, fstart := fld (a 6) 47 0 }

/-- The context that a launch's tasks run in on a die (R24, R307). -/
def State.taskCtx (s : State) (l : Launch) (d : Nat) : Nat := if d = l.die then l.ctx else ctxKey d (s.ctx l.ctx).linkctx

/-- The two contexts name each other (R307). -/
def State.linked (s : State) (a b : Nat) : Bool :=
  (s.ctx a).linkv && (s.ctx b).linkv && (s.ctx a).linkctx == b % 64 && (s.ctx b).linkctx == a % 64

/-- The launch's tasks run on a die. -/
def Image.runsOn (im : Image) (die d : Nat) : Bool :=
  match im.levels.find? (fun l => l.kind == 2) with
  | some l => decide (d < l.trip)
  | none => d == die

/-- A field or an object breaks a limit of R25, R29, R122 or R307. `w0` and `dieBit` are fields of packet A that the launch does not keep. -/
def State.badLaunch (s : State) (l : Launch) (w0 dieBit : Nat) (img : Option Image) : Bool :=
  match img with
  | none => true
  | some im =>
    fld w0 15 8 != 0 || l.image % 64 != 0 || l.args % 8 != 0 || l.est == 0 || l.shape == 3 || decide (l.cwscope < 3) || l.cwscope == 7
      || l.cwaddr % 8 != 0 || l.ttid != im.ttid || (!im.hasDies && dieBit != l.die) || (l.tagged && (im.hasDies || l.die == 1))
      || (s.objGet l.ctx l.args 256).isNone
      || (im.hasDies && !s.linked l.ctx (s.taskCtx l (1 - l.die)))
      || (im.runsOn l.die 1 && im.phases.any (fun u => decide (8 < u)))
      || (!l.tagged && (decide (2560 < im.nTasks) || decide (shapeCores 0 l.shape < im.dieTasks l.die 0) || decide (shapeCores 1 l.shape < im.dieTasks l.die 1)))

/-- A launch as notices name it. -/
def launchName (l : Launch) : Nat := l.die + l.queue * 2 ^ 16 + (l.ticket % 2 ^ 40) * 2 ^ 24

/-- A release store of the completion word (R27); an address that faults gives a notice of kind 5. Of a launch refused for a CWADDR that is not
8-byte aligned (R25) the manual does not say where its status goes; DESIGN CHOICE (log 102): the eight bytes at that address. -/
def State.writeCw (s : State) (l : Launch) (status : Nat) : State :=
  if l.cwaddr = 0 then s
  else
    match s.xlateCtx l.ctx l.cwaddr { w := true } with
    | .ok loc =>
      (match placeOf loc with
      | .carafe _ _ => s.notice 5 (launchName l) (causeCode .prot)
      | _ => s.logicWrite l.die l.cwscope loc (toBytes 8 (status + l.exits * 256)))
    | .error f => s.notice 5 (launchName l) (causeCode f)

def State.applySet (s : State) (l : Launch) : State :=
  (List.range 256).foldl (fun t i => if l.set.getLsbD i then t.lateEvent l.ctx i else t) s

/-- The launch is DONE: SET, then the completion word (R27). A refused launch applies no SET (R25). -/
def State.complete (s : State) (li status : Nat) : State :=
  let l := s.launch li
  let s1 := if status = 2 then s else s.applySet l
  (s1.writeCw l status).modLaunch li (fun x => { x with state := .done, reserved := [], saved := [], postsHeld := [] })

/-- LAUNCH_PACKET: both packets are taken, checked, and enqueued. -/
def State.takeLaunch (s : State) (d q : Nat) : State :=
  match s.nextPacket d q with
  | none => s
  | some (x, a) =>
    if packetType a ≠ 1 then s
    else
      match s.packet x (x.ridx + 1) with
      | none => s
      | some b =>
        let w (i : Nat) : Nat := a.getD i 0
        let l := launchOf d q x.ctx s.nLaunch w (fun i => b.getD i 0)
        let img := s.readImage x.ctx l.image 24
        let n := s.nLaunch
        let s1 := { s.setRidx d q x 2 with nLaunch := n + 1 }
        if s.badLaunch l (w 0) (fld (w 3) 54 54) img then (s1.setLaunch n l).complete n 2
        else s1.setLaunch n { l with state := .waiting, img := img, viaEvents := l.wait != 0, ntasks := match img with | some im => im.nTasks | none => 0 }

/-- One pass over the queues of a die: at most one packet of each, in ascending queue number. -/
def State.queuePass (s : State) (d : Nat) : State :=
  ((s.die d).queues.map (fun p => p.1)).foldl (fun t q =>
    match t.nextPacket d q with
    | none => t
    | some (_, w) => if packetType w = 1 then t.takeLaunch d q else if packetType w = 2 then t.takeNop d q else t.takeReserved d q) s

/-- LAUNCH_ELIGIBLE (R26): latched. -/
def State.eligible (s : State) (li : Nat) : State :=
  let l := s.launch li
  match l.state with
  | .waiting => if (s.ctx l.ctx).ev &&& l.wait = l.wait then s.modLaunch li (fun x => { x with state := .eligible }) else s
  | _ => s

/-! ## Logical and physical cores (R303, R304) -/

/-- The partition of a context, one of 1 to 8 of its die (R304); without a partition table, the whole die with all its L2 slices. -/
def State.partOf (s : State) (ctx : Nat) : Part :=
  let d := ctx / 64
  if (s.die d).parts.isEmpty then { quads := List.range (if d = 0 then 512 else 128), slices := List.range (if d = 0 then 512 else 0) }
  else ((s.die d).parts.take 8).getD (s.ctx ctx).part {}

/-- A partition that may run launches: on Nared it holds at least one L2 slice. -/
def Part.ok (p : Part) (d : Nat) : Bool := d != 0 || !p.slices.isEmpty

/-- The L2 slice that serves a logical bank of a context's launches (R43, R304). -/
def State.bankSlice (s : State) (ctx j : Nat) : Nat := let p := s.partOf ctx; p.slices.getD (j % p.slices.length) 0

/-- The physical cores of a context's partition. Fused-off cores are left out (R373). -/
def State.partCores (s : State) (ctx : Nat) : List Nat :=
  let d := ctx / 64
  let p := s.partOf ctx
  let all := if p.ok d then p.quads.flatMap (fun q => (List.range 4).map (fun i => 4 * q + i)) else []
  all.filter (fun p => !s.boot.fuses.contains (2048 * d + p))

/-- The physical core that runs a logical core. -/
def State.physCore (s : State) (ctx c : Nat) : Option Nat :=
  let ps := s.partCores ctx
  if ps.isEmpty then none else some (ps.getD (c % 2048 % ps.length) 0)

/-- A logical core runs no task, and its physical core is in dispatch. -/
def State.coreFree (s : State) (ctx c : Nat) : Bool :=
  !(s.core c).bound && (match s.physCore ctx c with | some p => !(s.die (ctx / 64)).outCores.contains p | none => false)

/-- A launch may take a free core: one that a gang reserves, only by a higher effective class (R309). -/
def State.mayTake (s : State) (li c : Nat) : Bool :=
  let l := s.launch li
  s.coreFree (s.taskCtx l (dieOf c)) c
    && s.launches.all (fun m => m.1 == li || !m.2.reserved.contains c || (m.2.state == .reserving && decide (m.2.effcls < l.effcls)))

/-- HALTED_CORE_RETURN: the management core returns the physical core of a logical core of its own number (R303). -/
def State.returnCore (s : State) (c : Nat) : State :=
  s.modDie (dieOf c) (fun d => { d with outCores := d.outCores.filter (fun p => p != c % 2048) })

/-! ## Tasks start and end -/

/-- A core that runs no task keeps its copies of memory, what its scratch has held, and its power window. -/
def Core.emptied (k : Core) : Core :=
  { l1 := k.l1, fills := k.fills, tlb := k.tlb, icache := k.icache, frzcnt := k.frzcnt, window := k.window, frz := k.frz,
    freezeNext := k.freezeNext, throttled := k.throttled, engFrozen := k.engFrozen,
    mac := k.mac, hist := k.hist, seen := k.seen, foreign := k.foreign }

/-- What R8 needs of a core's scratch when a task of a launch and context starts there: what it holds, it has held since the launch began, unless
another context left it. -/
def Core.seenBy (k : Core) (li ctx : Nat) : Core :=
  if k.seen = some (li, ctx) then k
  else { k with
    seen := some (li, ctx)
    hist := []
    icache := []
    foreign := match k.seen with
      | some (_, x) => if x = ctx then k.foreign else [(0, 2 ^ 21)]
      | none => k.foreign }

/-- The state of a task at its start (R30, R33, R48, R49, R58). R30 and R55 speak of an image's preset of STEP and WRAP, for which the object
format of R123 has no place; DESIGN CHOICE (log 99): both start at 0. -/
def taskStart (k : Core) (x : Ctx) (im : Image) (li i ctx : Nat) (tagged : Bool) (args : Nat → Nat) (gen : Nat) (hold : Option Nat) : Core :=
  let g := rngFill 64 (rngSeed x.seed0 x.seed1 i) []
  { k.emptied.seenBy li ctx with
    status := .run
    launch := li
    tid := i
    tcx := im.tcx i
    ctx := ctx
    tagged := tagged
    pc := im.entry
    cb := im.cb
    g := (List.range 64).map (fun j => if j < 16 then u64 (args (16 + j)) else 0)
    b := (List.range 16).map (fun j => { val := im.baseStart i j (args j), org := im.baseStart i j (args j), ls := im.levelStrides j })
    fm := (List.range 16).map (fun j => if bitAt im.fmMask j then im.fmVals.getD j 0x71 else x.fmv.getD j 0x71)
    rng := g.1
    rbq := g.2
    hold := hold
    stale := if im.phases.headD 0 = 0 then [] else [(0, 65536 * im.phases.headD 0, gen)] }

/-- A task starts on a logical core. Lines beyond its L1 leave, the image's data records enter scratch, and a launch that became
eligible through events acquires (R28). An argument block that cannot be read ends the task as a fault does. -/
def State.startTask (s : State) (li c i : Nat) (hold : Option Nat) : State :=
  let l := s.launch li
  match l.img with
  | none => s
  | some im =>
    let ctx := s.taskCtx l (dieOf c)
    let args := s.objGet ctx l.args 256
    let w (j : Nat) : Nat := match args with | some bs => le bs (8 * j) 8 | none => 0
    let s1 := ((s.core c).leaving (512 * (sramUnits c - im.phases.headD 0))).foldl (fun (t : State) p => t.l1Evict c p.1) s
    let s2 := (s1.modCore c (fun k => taskStart k (s1.ctx ctx) im li i ctx l.tagged w s1.fresh hold)).tick1
    let s3 := im.data.foldl (fun t r => t.homeWrite c (scratchLoc c r.1) r.2) s2
    let s4 := if l.viaEvents then (s3.drainTo c 4 false).setMarks c 4 else s3
    if args.isNone then s4.endFaulted c else s4

/-- Every record of a fabric plan names an installed slot-table entry with the launch's TTID (R366). -/
def State.planFits (s : State) (l : Launch) (im : Image) : Bool :=
  im.planTtid == l.ttid && im.plan.all (fun r =>
    let p := s.port (fld r 4 0)
    let tx := fld r 5 5 == 0
    let e := ((if tx then p.tx else p.rx).getD (fld r 13 6) 0).toNat
    bitAt e 0 && fld e 3 1 == fld r 16 14 && fld e 31 16 == fld r 39 24 && fld e 63 32 == l.ttid
      && (!tx || (fld e 9 4 + 1 == fld r 22 17 && fld e 10 10 == fld r 23 23)))

/-- What stands in the way of a launch with a fabric plan: 0 nothing, 1 its frame is to come, 2 it is refused. A frame that the power governor
freezes stands before the frame of its count. -/
def State.fabricGate (s : State) (l : Launch) : Nat :=
  match l.img with
  | none => 0
  | some im =>
    if !im.fabric then 0
    else if !s.frameRun || decide (s.framecnt < l.fstart) || s.framecnt == l.fstart && decide (0 < s.frameFreeze) then 1
    else if s.framecnt = l.fstart ∧ s.framePos = 0 then (if s.planFits l im then 0 else 2)
    else 2

/-- TASK_BIND (R33): the next task of a TAGGED launch starts on a free core. -/
def State.bindTask (s : State) (li c : Nat) : State :=
  let l := s.launch li
  match l.state with
  | .eligible | .running =>
    if l.tagged && (l.state == .running || s.fabricGate l == 0) && decide (l.nextTask < l.ntasks) && decide (c < shapeCores 0 l.shape) && s.mayTake li c then
      (s.startTask li c l.nextTask none).modLaunch li (fun x => { x with state := .running, nextTask := x.nextTask + 1 })
    else s
  | _ => s

/-- Tasks of a launch bind, in ascending index, as long as there are free cores. Which free core a task takes is open (R33): any (log 86). -/
def State.bindSome (s : State) (li : Nat) : Nat → List Nat → State
  | 0, _ => s
  | n + 1, fs =>
    if fs.isEmpty || decide ((s.launch li).ntasks ≤ (s.launch li).nextTask) then s
    else
      let c := fs.getD (Config.freePick s.fresh % fs.length) 0
      State.bindSome (s.tick1.bindTask li c) li n (fs.erase c)

def State.bindAll (s : State) (li : Nat) : State :=
  let fs := (List.range (shapeCores 0 (s.launch li).shape)).filter (fun c => s.mayTake li c)
  s.bindSome li fs.length fs

/-- Everything that an ended task issued has performed or completed (R33). -/
def Core.spent (k : Core) : Bool :=
  k.mops.all (fun o => o.perf) && k.cmds.isEmpty && k.sops.all (fun o => o.perf) && k.pend.isEmpty && k.mma.isEmpty && k.wld.isEmpty
    && k.logsEmpty

def State.ended (s : State) (c : Nat) : Bool := (s.core c).status == .drain && (s.core c).spent && !s.prismOpen c

/-- The bytes of an ended task leave for PACKAGE scope, which its launch's completion word follows (R27). -/
def State.endDrain (s : State) (c : Nat) : State :=
  if (s.core c).endMark.isSome then s
  else
    let s1 := s.drainTo c 4 true
    s1.modCore c (fun k => { k with endMark := some s1.nBridge })

/-- An ended task whose bytes are home. -/
def State.leaves (s : State) (c : Nat) : Bool :=
  s.ended c && (match (s.core c).endMark with | some m => s.written (dieOf c) m | none => false)

/-- An ended task leaves its core. HALT takes the physical core out of dispatch. -/
def State.freeCore (s : State) (c : Nat) : State :=
  let k := s.core c
  let s2 := match s.physCore k.ctx c with
    | some p => if k.haltEnd then s.modDie (dieOf c) (fun d => { d with outCores := p :: d.outCores }) else s
    | none => s
  (s2.modCore c (fun k => k.emptied)).modLaunch k.launch (fun l => { l with ended := l.ended + 1 })

/-! ## Reports and completion -/

/-- The report word of a save or kill (R314): a release store at HOST scope. -/
def State.report (s : State) (l : Launch) (code : Nat) : State :=
  let a := (s.ctx l.ctx).prwaddr
  if a = 0 then s
  else match s.xlateCtx l.ctx a { w := true } with
    | .ok loc => s.logicWrite l.die 6 loc (toBytes 8 (code + l.queue * 2 ^ 16 + (l.ticket % 2 ^ 40) * 2 ^ 24))
    | .error _ => s

/-- LAUNCH_COMPLETE (R27, R33, R42): cores of ended tasks become free, those of a gang or of a killed launch together; a launch all of
whose tasks have ended is done. -/
def State.launchEnd (s0 : State) (li : Nat) : State :=
  let l := s0.launch li
  let cs := s0.coresOf li
  let s := (cs.filter (fun c => s0.ended c)).foldl (fun t c => t.endDrain c) s0
  match l.state with
  | .running =>
    let out := if l.tagged then cs.filter (fun c => s.leaves c) else if cs.all (fun c => s.leaves c) then cs else []
    let s1 := out.foldl (fun t c => t.freeCore c) s
    if (s1.launch li).ended = l.ntasks then s1.complete li (if l.faulted then 3 else 0) else s1
  | .saving =>
    if l.tagged then (cs.filter (fun c => s.leaves c)).foldl (fun t c => t.freeCore c) s else s
  | .killing =>
    if cs.all (fun c => s.leaves c) then ((cs.foldl (fun t c => t.freeCore c) s).complete li 1).report l 2 else s
  | _ => s

/-! ## Kill (R42) -/

/-- A KVS that is discarded gives back its hold on a pool block. -/
def State.dropKvs (s : State) (c : Nat) (cmd : Cmd) : State :=
  match cmd.op, cmd.block, cmd.work with
  | .kvs _ _, some b, [blk] =>
    match s.readPool c (s.core c).ctx (bfld b 3 55 0) with
    | .error _ => s
    | .ok p => match (kvUnhold p blk).run s with
      | .error _ => s
      | .ok (_, t) => t
  | _, _, _ => s

/-- What a kill leaves of a core: accesses that have left it, and what Loupe, Barista and the snapshot tree have accepted. -/
def Core.killed (k : Core) : Core :=
  { k with
    status := .drain
    held := []
    stL := none
    stX := none
    stM := none
    trapWait := false
    barrier := none
    pend := []
    mma := []
    wld := []
    cmds := []
    eng := []
    logL := List.replicate 32 {}
    logA := List.replicate 32 {}
    sysw := none
    poll := none
    cmdWait := false
    mops := k.mops.filter (fun o => !o.logged && (match o.op with | .waita _ _ _ _ => o.perf | _ => true)) }

/-- A core's link queues are discarded (R271). -/
def State.dropLinks (s : State) (c : Nat) : State :=
  match edgePort c with
  | some p => s.setPort p { s.port p with outq := List.replicate 8 [], inq := List.replicate 8 [] }
  | none => s

/-- An event of an engine command of a core. -/
def ofEngine (c : Nat) (i : Instr) : Bool :=
  match i with
  | .pageMove d _ => d == c
  | .kvStreamHold d _ => d == c
  | .kvsTileReady d _ _ => d == c
  | .streamHoldFall d _ => d == c
  | .enqClaim d _ => d == c
  | _ => false

/-- The commands of a core are discarded (R272), with what was to come of them: their events, the answers of other packages, stores that the
bridge interlock holds back, of which nothing more will come (R42), and PRISMs that have not been accepted. -/
def State.dropCmds (s : State) (c : Nat) : State :=
  let s1 := ((s.core c).cmds.foldl (fun u q => (u.dropKvs c q).dropMigr c q) s).prismKill c
  let ms := s1.interlocked.filterMap (fun m => match m.who with | .access d id i => if d = c then some (id, i) else none | _ => none)
  let s2 := ms.foldl (fun (t : State) m => t.pieceDone c m.1 m.2 t.now []) s1
  { s2 with
    agenda := s1.agenda.filter (fun e => !ofEngine c e.2)
    outs := s1.outs.map (fun r => match r.who with
      | .command d _ => if d = c then { r with who := .none } else r
      | .reading d _ _ => if d = c then { r with who := .none } else r
      | .poll d _ => if d = c then { r with who := .none } else r
      | _ => r)
    interlocked := s1.interlocked.filter (fun m => match m.who with | .access d _ _ => d != c | .command d _ => d != c | _ => true) }

/-- A release of a stop in the cycle of the task's KILL returns BAD (R343). -/
def State.releaseLost (s : State) (c : Nat) : State :=
  match (s.core c).relBy with
  | some (t, i) => if t = s.now ∧ (s.core i).bound then s.modCore i (fun k => { k with ss := k.ss.set 0 1 }) else s
  | none => s

/-- KILL: every task of a running launch ends at once, and none that has not started is started. -/
def State.kill (s : State) (li : Nat) : State :=
  match (s.launch li).state with
  | .running =>
    let s0 := (s.coresOf li).foldl (fun t c => t.releaseLost c) s
    let s1 := (s.coresOf li).foldl (fun t c => ((t.dropCmds c).dropLinks c).modCore c (fun k => k.killed)) s0
    s1.modLaunch li (fun l => { l with state := .killing, killed := true })
  | _ => s

/-! ## Checkpoint and restore (R40, R236, R312, R314) -/

def Core.scratchUnits (k : Core) (l : Launch) : Nat := match l.img with | some im => im.phases.getD k.phase 0 | none => 0

/-- B of R312. -/
def Core.imageSize (k : Core) (l : Launch) : Nat :=
  151552 + 64 * k.blocks.length + 1024 * (k.blocks.filter (fun b => b.scl)).length + 65536 * k.scratchUnits l

def tsave (b : Nat) : Nat := 2048 + (b + 14) / 15

/-- Tsave and Trestore of a launch: the largest over its bound tasks. -/
def State.saveEst (s : State) (li : Nat) : Nat := (s.coresOf li).foldl (fun n c => Nat.max n (tsave ((s.core c).imageSize (s.launch li)))) 0
def State.restoreEst (s : State) (li : Nat) : Nat :=
  (s.coresOf li).foldl (fun n c => Nat.max n (tsave ((s.core c).imageSize (s.launch li)) + 40 * (s.core c).blocks.length)) 0

/-- Images lie one after another, 64-byte aligned. -/
def align64 (n : Nat) : Nat := (n + 63) / 64 * 64

/-- The bound tasks of a launch in ascending linear index. -/
def State.byTask (s : State) (li : Nat) : List Nat := (s.coresOf li).foldl (fun r c => insertRank (fun q => [(s.core q).tid]) c r) []

/-- The cores whose images lie in a context's save area. -/
def State.ctxTasks (s : State) (li ctx : Nat) : List Nat := (s.byTask li).filter (fun c => (s.core c).ctx == ctx)

def State.ctxImages (s : State) (li ctx : Nat) : Nat := (s.ctxTasks li ctx).foldl (fun n c => n + align64 ((s.core c).imageSize (s.launch li))) 0

/-- The images of a launch fit in the save areas of its contexts (R310). -/
def State.savesFit (s : State) (li : Nat) : Bool :=
  ((s.coresOf li).map (fun c => (s.core c).ctx)).eraseDups.all (fun x => decide (s.ctxImages li x ≤ (s.ctx x).savelen))

/-- The part of an image that only the device reads: which bytes stand for the state is not given. -/
def bodyBytes (key n : Nat) : List Byte := (List.range n).map (fun i => Config.freeByte (key * 2 ^ 30 + i))

/-- A task's image: header, the part that only the device reads, block records, scratch. -/
def State.imageBytes (s : State) (c : Nat) : List Byte :=
  let k := s.core c
  let l := s.launch k.launch
  let u := k.scratchUnits l
  [0x4B505356, k.tid, c, k.lcyc, k.pc, u, k.blocks.length, 0].flatMap (fun w => toBytes 8 w)
    ++ bodyBytes s.fresh (k.imageSize l - 65536 * u - 64) ++ s.rdBytes (scratchLoc c 0) (65536 * u)

/-- Write one image at an address of the task's context; it ends where an address faults. -/
def State.putImage (s : State) (c va : Nat) : State :=
  let bs := s.imageBytes c
  let write (t : State) (a : Nat) (b : List Byte) : State :=
    match t.vWrite noCore (t.core c).ctx 2 a b with
    | .ok u => u
    | .error _ => t
  (((List.range (bs.length / 64 + 1)).foldl (fun t i => write t (va + 64 * i) ((bs.drop (64 * i)).take 64)) s).modCore c (fun k =>
    { k with imageKey := s.fresh })).tick1

/-- Write the images of a launch's tasks of one context from SAVEBASE on. -/
def State.putImages (s : State) (li ctx : Nat) : State :=
  ((s.ctxTasks li ctx).foldl (fun (t : State × Nat) c => (t.1.putImage c t.2, t.2 + align64 ((s.core c).imageSize (s.launch li))))
    (s, (s.ctx ctx).savebase)).1

/-- Nothing of the task is left that a save waits for (R40, R236, R272, R314): accesses, commands, products and blocks. -/
def Core.saveReady (k : Core) : Bool :=
  k.mops.all (fun o => o.perf) && k.cmds.isEmpty && k.sops.all (fun o => o.perf) && k.logsEmpty && k.mma.isEmpty && k.wld.isEmpty
    && k.pend.isEmpty && k.sysw.isNone

/-- Every task of a launch in SAVING is at its point and complete. -/
def State.saveReady (s : State) (li : Nat) : Bool :=
  (s.coresOf li).all (fun c => (s.core c).saveReady && !s.prismOpen c && ((s.core c).status == .stopped || (s.core c).status == .drain && !(s.launch li).tagged || s.atSave c))
    && s.agenda.all (fun e => match e.2 with | .barrierRelease l _ _ _ _ => l != li | _ => true)

/-- A saved task leaves its core. -/
def State.saveTask (s : State) (li c : Nat) : State :=
  let k := s.core c
  (s.modLaunch li (fun l => { l with saved := l.saved ++ [(k.tid, c, k)] })).modCore c (fun q => q.emptied)

/-- Step 2 of R314, the FENCE: the tasks' bytes leave for their homes; once they have arrived, and the deltas of protected stores have been
acknowledged where a release of the task named SURVIVABLE, it has performed (`State.fenced`). -/
def State.saveFence (s : State) (li : Nat) : State :=
  let s1 := if (s.launch li).saveStage ≠ 0 then s
    else
      let t := (s.coresOf li).foldl (fun t c => t.drainTo c (Nat.max 4 (t.core c).relScope) true) s
      t.modLaunch li (fun l => { l with saveStage := 1, saveMark := t.nBridge })
  if (s1.launch li).saveStage = 1 && (s1.coresOf li).all (fun c => s1.written (dieOf c) (s1.launch li).saveMark) then
    s1.modLaunch li (fun l => { l with saveStage := 2, saveMark := s1.nDelta })
  else s1

def State.fenced (s : State) (li : Nat) : Bool :=
  (s.launch li).saveStage == 2 && (s.deltasAcked (s.launch li).saveMark || (s.coresOf li).all (fun c => !(s.core c).relSurv))

/-- Steps 3 to 5 of R314: images and report; then the cores are free. -/
def State.saveNow (s : State) (li : Nat) : State :=
  let cs := s.byTask li
  let s2 := ((cs.map (fun c => (s.core c).ctx)).eraseDups).foldl (fun t x => t.putImages li x) s
  (cs.foldl (fun t c => t.saveTask li c) (s2.report (s.launch li) 1)).modLaunch li (fun l => { l with state := .saved, saveStage := 0 })

/-- CHECKPOINT_SAVE (R314): fence, images, report; then the cores are free. -/
def State.checkpoint (s : State) (li : Nat) : State :=
  match (s.launch li).state with
  | .saving =>
    if s.saveReady li then (if (s.saveFence li).fenced li then (s.saveFence li).saveNow li else s.saveFence li)
    else if (s.launch li).saveStage = 0 then s
    else s.modLaunch li (fun l => { l with saveStage := 0 })
  | _ => s

/-- The bytes of a block's recorded source as they stand now. -/
def State.blockSource (s : State) (ctx c units : Nat) (b : WBlock) : Option (List Byte) :=
  let a := b.src.toNat
  let n := wldBytes b.fmt
  if bitAt a 63 then
    (if fld a 62 21 ≠ 0 ∨ 65536 * units < fld a 20 0 + n then none else some (s.rdBytes (scratchLoc c (fld a 20 0)) n))
  else s.objGet ctx a n

/-- WLD replay of one block (R236): a block that MSCL changed keeps its recorded scales. -/
def WBlock.replay (b : WBlock) (bs : List Byte) : WBlock :=
  let r := b.load bs
  if b.scl then { r with scales := b.scales, nf := blockNF b.fmt r.codes b.scales } else r

def State.replayBlocks (s : State) (ctx c units : Nat) : List WBlock → Option (List WBlock)
  | [] => some []
  | b :: r =>
    match s.blockSource ctx c units b, State.replayBlocks s ctx c units r with
    | some bs, some q => some (b.replay bs :: q)
    | _, _ => none

/-- Where the image of a saved task begins: after those of its context's tasks before it. -/
def Launch.imageAt (l : Launch) (base tid ctx : Nat) : Nat :=
  base + ((l.saved.filter (fun t => t.2.2.ctx == ctx && decide (t.1 < tid))).foldl (fun n t => n + align64 (t.2.2.imageSize l)) 0)

/-- Bytes of a context's memory that are not 0, as (index, byte): those that an image brings back. -/
def State.cellsFrom (s : State) (ctx : Nat) : Nat → Nat → Nat → Nat → List (Nat × Byte)
  | 0, _, _, _ => []
  | fuel + 1, va, n, i =>
    if n = 0 then []
    else
      let part := Nat.min n (65536 - va % 65536)
      (match s.vLoc ctx va { r := true } with
        | .error _ => []
        | .ok loc => match placeOf loc with
          | .remote _ _ => (List.range part).map (fun j => (i + j, s.rd (loc + j)))
          | _ => (s.mem.filter (fun p => decide (loc ≤ p.1) && decide (p.1 < loc + part))).map (fun p => (i + (p.1 - loc), p.2)))
        ++ State.cellsFrom s ctx fuel (va + part) (n - part) (i + part)

/-- Word `i` of the header of an image (R312). -/
def State.headWord (s : State) (ctx va i : Nat) : Nat :=
  match s.objGet ctx (va + 8 * i) 8 with
  | some bs => ofBytes bs
  | none => 0

/-- The scratch units of a task as its image holds them. -/
def State.restoreScratch (s : State) (c ctx va units : Nat) : State :=
  let cells := s.cellsFrom ctx (pagesOf (65536 * units)) va (65536 * units) 0
  let mem0 := s.mem.filter (fun p => !(decide (scratchLoc c 0 ≤ p.1) && decide (p.1 < scratchLoc c 0 + 2 ^ 21)))
  { s with mem := cells.foldl (fun m p => memPut m (scratchLoc c p.1) p.2) mem0 }

/-- The part of a task's image that only the device reads stands as it was written. -/
def State.bodyKept (s : State) (ctx va n key : Nat) : Bool :=
  let rd := (s.cellsFrom ctx (pagesOf n) (va + 64) n 0).filter (fun p => p.2 != 0)
  rd == ((List.range n).zip (bodyBytes key n)).filter (fun p => p.2 != 0)

/-- A task whose image something else has overwritten in the part that only the device reads: what its registers hold is free (log 43). -/
def Core.unread (k : Core) (key : Nat) : Core :=
  let free (n o : Nat) : Nat := ofBytes ((List.range n).map (fun i => Config.freeByte (key * 2 ^ 30 + o + i)))
  { k with
    g := (List.range 64).map (fun j => u64 (free 8 (8 * j)))
    q := (List.range 8).map (fun j => u64 (free 8 (1024 + 8 * j)))
    v := (List.range 32).map (fun j => BitVec.ofNat 2048 (free 256 (2 ^ 12 + 256 * j)))
    k := (List.range 32).map (fun j => BitVec.ofNat 1024 (free 128 (2 ^ 14 + 128 * j)))
    sres := (List.range 12).map (fun j => u64 (free 8 (2 ^ 15 + 8 * j)))
    vres := (List.range 5).map (fun j => BitVec.ofNat 2048 (free 256 (2 ^ 16 + 256 * j)))
    sop := (List.range 13).map (fun j => u64 (free 8 (2 ^ 17 + 8 * j)))
    vop := (List.range 5).map (fun j => BitVec.ofNat 2048 (free 256 (2 ^ 18 + 256 * j)))
    arow := BitVec.ofNat 32768 (free 4096 (2 ^ 19)) }

/-- A saved task is back on its core, with the posts that were held for it (R60). PC, `lcyc` and scratch come from its image, the rest from what
the device's own part of the image stands for, while that is as it was written (log 43). The second part tells whether its blocks came back. -/
def State.restoreTask (s : State) (li : Nat) (t : Nat × Nat × Core) : State × Bool :=
  let c := t.2.1
  let k := t.2.2
  let l := s.launch li
  let u := k.scratchUnits l
  let va := l.imageAt (s.ctx k.ctx).savebase t.1 k.ctx
  let old := s.core c
  let s1 := s.restoreScratch c k.ctx (va + (k.imageSize l - 65536 * u)) u
  let k0 := if s.bodyKept k.ctx va (k.imageSize l - 65536 * u - 64) k.imageKey then k else k.unread s.fresh
  let k1 := (l.postsHeld.filter (fun q => q.1 == c)).foldl (fun (q : Core) p => q.post p.2.1 p.2.2)
    { k0 with
      pc := s.headWord k.ctx va 4 % 2 ^ 56
      lcyc := s.headWord k.ctx va 3
      stale := cutRanges 0 (65536 * u) k.stale
      l1 := [], icache := [], tlb := old.tlb, frzcnt := old.frzcnt, window := old.window, weight := 0, frz := old.frz,
      freezeNext := old.freezeNext, throttled := old.throttled, crossed := false,
      yieldFlag := true }
  let s2 := (((s1.setCore c k1).drainTo c 4 false).setMarks c 4).tick1
  match s2.replayBlocks k.ctx c (k.scratchUnits l) k.blocks with
  | some bs => (s2.modCore c (fun q => bs.foldl (fun (x : Core) b => x.keepCodes b) { q with blocks := bs }), true)
  | none => (s2, false)

/-- The save area can be read back. -/
def State.areaReadable (s : State) (l : Launch) (ctx : Nat) : Bool :=
  let n := (l.saved.filter (fun t => t.2.2.ctx == ctx)).foldl (fun n t => n + align64 (t.2.2.imageSize l)) 0
  (s.vCheck ctx { r := true } (pagesOf n) (s.ctx ctx).savebase n).isNone

/-- LAUNCH_RESTORE (R40, R308): RESTORING ends in RUNNING, or in DONE with FAULTED where an image or a block cannot be read. -/
def State.restore (s : State) (li : Nat) : State :=
  let l := s.launch li
  match l.state with
  | .restoring =>
    if s.now < l.restoreAt then s
    else
      let r := l.saved.foldl (fun (t : State × Bool) q => let z := t.1.restoreTask li q; (z.1, t.2 && z.2))
        (s, (l.saved.map (fun t => t.2.2.ctx)).eraseDups.all (fun x => s.areaReadable l x))
      if r.2 then r.1.modLaunch li (fun x =>
        let base := if x.tagged then x.runs else ((x.saved.map (fun t => t.2.2.lcyc)).headD 0)
        { x with state := .running, saved := [], postsHeld := [], reserved := [], sliceBase := base })
      else s.complete li 3
  | _ => s

/-! ## The order (R309) -/

def Launch.rank (l : Launch) : List Nat := [7 - l.effcls, l.order]

/-- Launches of a die that a test picks, in the order. -/
def State.ordered (s : State) (d : Nat) (p : Launch → Bool) : List Nat :=
  ((s.launches.filter (fun l => l.2.die == d && p l.2)).foldl (fun r l => insertRank (fun (q : Nat × Launch) => q.2.rank) l r) []).map (fun l => l.1)

/-- Waiting for cores. -/
def Launch.waits (l : Launch) : Bool :=
  match l.state with
  | .eligible | .reserving | .saved => true
  | _ => false

/-- Waiting for cores, or running with tasks yet to bind. -/
def Launch.wants (l : Launch) : Bool :=
  l.waits || (l.state == .running && l.tagged && decide (l.nextTask < l.ntasks))

/-- The logical cores that a launch needs: those of a gang's tasks, or those its saved tasks stood on. -/
def State.needs (s : State) (li : Nat) : List Nat :=
  let l := s.launch li
  match l.state with
  | .saved => l.saved.map (fun t => t.2.1)
  | _ =>
    match l.img with
    | some im => if l.tagged then [] else (List.range im.nTasks).map (fun i => 2048 * im.taskDie l.die i + im.taskRank l.die i)
    | none => []

/-! ## Starting -/

/-- A gang starts on one logical cycle (R34). -/
def State.runGang (s : State) (li : Nat) (hold : Option Nat) : State :=
  let ns := s.needs li
  (((List.range ns.length).zip ns).foldl (fun t p => t.startTask li p.2 p.1 hold) s).modLaunch li (fun l =>
    { l with state := .running, nextTask := l.ntasks, reserved := [], sliceBase := 0 })

/-- Every core that a reserving launch needs is held. -/
def State.held (s : State) (li : Nat) : Bool := (s.needs li).all (fun c => s.mayTake li c)

/-- The launch that pairs with one of the other die (R307). -/
def State.pairOf (s : State) (li : Nat) : Option Nat :=
  let l := s.launch li
  (List.find? (fun m => m.2.state == .reserving && m.2.die != l.die && m.2.ttid == l.ttid && s.linked l.ctx m.2.ctx && s.held m.1) s.launches).map (fun m => m.1)

def roleOf (l : Launch) : Nat := match l.img with | some im => im.ttRole | none => 0
def startOf (l : Launch) : Nat := match l.img with | some im => im.ttStart | none => 0

/-- GANG_START (R308): a reserving gang whose cores are held, and its partner's, starts; each of the two answers for its own fabric plan (R366). -/
def State.gangStart (s : State) (li : Nat) : State :=
  let l := s.launch li
  match l.state with
  | .reserving =>
    if !s.held li then s
    else
      let g := s.fabricGate l
      if g = 1 then s
      else if g = 2 then s.complete li 2
      else
        let dies := match l.img with | some im => im.hasDies | none => false
        if l.ttid = 0 ∨ dies = true then (s.runGang li none).modLaunch li (fun x => { x with partner := if dies then some li else none })
        else
          match s.pairOf li with
          | none => s
          | some q =>
            let m := s.launch q
            if s.fabricGate m = 1 then s
            else if s.fabricGate m = 2 then s.complete q 2
            else if roleOf l = roleOf m then (s.complete li 2).complete q 2
            else
              let t0 := Nat.min (startOf l) (startOf m)
              (((s.runGang li (some (startOf l - t0))).runGang q (some (startOf m - t0))).modLaunch li (fun x => { x with partner := some q })).modLaunch q
                (fun x => { x with partner := some li })
  | _ => s

/-- Some gang is in RESERVING on a die that a launch needs cores of. -/
def State.reservingOn (s : State) (ds : List Nat) : Bool :=
  s.launches.any (fun m => m.2.state == .reserving && ((s.needs m.1).map dieOf).eraseDups.any (fun d => ds.contains d))

/-- A gang that needs neither a reservation nor a partner, nor a frame that is to come: its cores are free, and it starts (R308). -/
def State.startsNow (s : State) (li : Nat) : Bool :=
  let l := s.launch li
  s.held li && s.fabricGate l != 1 && (l.ttid == 0 || (match l.img with | some im => im.hasDies | none => false))

/-- A launch takes what it can of its cores, in its turn of the order (R308, R309). At most one gang of a die is left in RESERVING. -/
def State.place (s : State) (li : Nat) : State :=
  let l := s.launch li
  match l.state with
  | .saved => if s.held li then s.modLaunch li (fun x => { x with state := .restoring, restoreAt := s.now + 1, reserved := x.saved.map (fun t => t.2.1) }) else s
  | .eligible =>
    if l.tagged then (if s.fabricGate l = 0 then s.bindAll li else if s.fabricGate l = 1 then s else s.complete li 2)
    else
      let ns := s.needs li
      if s.startsNow li ∨ s.reservingOn (ns.map dieOf).eraseDups = false then
        (s.modLaunch li (fun x => { x with state := .reserving, reserved := ns.filter (fun c => s.mayTake li c) })).gangStart li
      else s
  | .reserving =>
    (s.modLaunch li (fun x => { x with reserved := (x.reserved ++ (s.needs li).filter (fun c => s.mayTake li c)).eraseDups })).gangStart li
  | .running => s.bindAll li
  | _ => s

/-! ## Pre-emption (R39, R47, R310, R313) -/

/-- The run count of R47. -/
def State.runCount (s : State) (li : Nat) : Nat := if (s.launch li).tagged then (s.launch li).runs else s.gangCycle li

def State.remaining (s : State) (li : Nat) : Nat := Nat.max 1 ((s.launch li).est - s.runCount li)

/-- A victim with its co-timetabled partner. -/
def State.victim (s : State) (li : Nat) : List Nat :=
  match (s.launch li).partner with
  | some q => if q ≠ li ∧ (s.launch q).state = .running then [li, q] else [li]
  | none => [li]

/-- The choice of R39 and R310 for a victim: 0 DRAIN, 1 CHECKPOINT, 2 KILL, 3 wait. -/
def State.choice (s : State) (d li : Nat) : Nat :=
  let vs := s.victim li
  if vs.all (fun v => !(s.launch v).overdue && decide (s.remaining v ≤ Nat.max (s.die d).drainmax (s.saveEst v))) then 0
  else if vs.all (fun v => (s.launch v).ckpt && !(s.launch v).hasFabric && s.savesFit v) then 1
  else if vs.all (fun v => (s.launch v).killok) then 2
  else 3

/-- The launch has aged to class 7 (R47). -/
def Launch.aged (l : Launch) : Bool := l.effcls == 7 && decide (l.cls < 7)

/-- Tokens that a choice costs; an overdue victim is free to a launch that has aged to class 7. -/
def State.cost (s : State) (d n li : Nat) : Nat :=
  if s.choice d li = 0 ∨ s.choice d li = 3 ∨ ((s.launch li).overdue ∧ (s.launch n).aged) then 0
  else ((s.victim li).foldl (fun m v => Nat.max m (s.remaining v)) 0 + 65535) / 65536

/-- A victim gives way. -/
def State.giveWay (s : State) (d li : Nat) : State :=
  let c := s.choice d li
  (s.victim li).foldl (fun t v =>
    if c = 1 then t.modLaunch v (fun l => { l with state := .saving }) else if c = 2 then t.kill v else t) s

/-- The cores that are free to a launch or about to be. -/
def State.coming (s : State) (n c : Nat) : Bool :=
  s.mayTake n c || (match (s.launch (s.core c).launch).state with | .saving => (s.core c).bound | .killing => (s.core c).bound | _ => false)

/-- The launch's need is met by free cores and those of some launches. -/
def State.covered (s : State) (n : Nat) (vs : List Nat) : Bool :=
  let l := s.launch n
  let ok (c : Nat) : Bool := s.coming n c || ((s.core c).bound && vs.contains (s.core c).launch)
  if l.tagged && l.state != .saved then (List.range (shapeCores 0 l.shape)).any ok else (s.needs n).all ok

/-- Victims are added, lowest class first and latest enqueued first, until the need is met; a pair is one victim. -/
def State.victims (s : State) (n : Nat) : List Nat → List Nat → Option (List Nat)
  | vs, [] => if s.covered n (vs.flatMap (fun v => s.victim v)) then some vs else none
  | vs, v :: r =>
    if s.covered n (vs.flatMap (fun v => s.victim v)) then some vs
    else if (vs.flatMap (fun v => s.victim v)).contains v then State.victims s n vs r
    else State.victims s n (vs ++ [v]) r

/-- A launch, or its partner, holds a core that another one needs and that is not about to be free (log 42). -/
def State.helps (s : State) (n v : Nat) : Bool :=
  let l := s.launch n
  let lacks (c : Nat) : Bool :=
    !s.coming n c && (if l.tagged && l.state != .saved then decide (c < shapeCores 0 l.shape) else (s.needs n).contains c)
  ((s.victim v).flatMap (fun x => s.coresOf x)).any lacks

/-- The first waiting launch of a die that cannot start on what is free. -/
def State.newcomer (s : State) (d : Nat) : Option Nat :=
  match s.ordered d Launch.waits with
  | [] => none
  | n :: _ => if s.covered n [] then none else some n

/-- Running launches of lower class, and to a launch that has aged to class 7 any overdue one (R47), with cores that the newcomer lacks: the
victims in the order in which they are taken. -/
def State.candidates (s : State) (n : Nat) : List Nat :=
  let e := (s.launch n).effcls
  ((s.launches.filter (fun l => l.1 != n && l.2.state == .running && (decide (l.2.effcls < e) || l.2.overdue && (s.launch n).aged) && s.helps n l.1)).foldl
    (fun r l => insertRank (fun (q : Nat × Launch) => [q.2.effcls, s.nLaunch - q.2.order]) l r) []).map (fun l => l.1)

/-- PREEMPTION_DECISION (R310). -/
def State.preempt (s : State) (d : Nat) : State :=
  match s.newcomer d with
  | none => s
  | some n =>
    match s.victims n [] (s.candidates n) with
    | none => s
    | some vs =>
      let total := vs.foldl (fun m v => m + s.cost d n v) 0
      let ctx := (s.launch n).ctx
      if vs.any (fun v => s.choice d v == 3) || decide ((s.ctx ctx).tokens < total) then s
      else (vs.foldl (fun t v => t.giveWay d v) s).modCtx ctx (fun x => { x with tokens := x.tokens - total })

/-- The slice of a launch, and whether TSMIN replaced it (R313). -/
def State.sliceOf (s : State) (li : Nat) : Nat × Bool :=
  let a := 1024 * (s.ctx (s.launch li).ctx).slice
  let b := s.saveEst li + s.restoreEst li + 21000
  if a < b then (b, true) else (a, false)

/-- The dies on which a launch, or its partner, holds cores. -/
def State.diesOf (s : State) (li : Nat) : List Nat := ((s.victim li).flatMap (fun v => (s.coresOf v).map dieOf)).eraseDups

/-- A launch of equal effective class waits for cores of a launch, in the order of a die where that holds some. -/
def State.rival (s : State) (li : Nat) : Bool :=
  let e := (s.launch li).effcls
  ((s.diesOf li).flatMap (fun d => s.ordered d Launch.waits)).any (fun n =>
    (s.launch n).effcls == e && !s.covered n [] && (s.covered n (s.victim li) || (s.needs n).any (fun c => (s.coresOf li).contains c)))

/-- SLICE_END (R313): as a pre-emption, at no token cost. -/
def State.sliceEnd (s : State) (li : Nat) : State :=
  let l := s.launch li
  match l.state with
  | .running =>
    let z := s.sliceOf li
    if (s.ctx l.ctx).slice ≠ 0 ∧ z.1 ≤ s.runCount li - l.sliceBase ∧ s.rival li then
      (if s.choice l.die li = 1 ∨ s.choice l.die li = 2 then
        (s.giveWay l.die li).modCtx l.ctx (fun x => if z.2 then { x with sliceclamp := sat16 (x.sliceclamp + 1) } else x)
      else s)
    else s
  | _ => s

/-! ## Counting -/

/-- CLASS_AGING (R309): each whole 2^24 cycles of waiting raise the effective class. -/
def State.age (s : State) (li : Nat) : State :=
  s.modLaunch li (fun l =>
    if l.waits then
      { l with waited := l.waited + 1, effcls := if (l.waited + 1) % 2 ^ 24 = 0 then Nat.min 7 (l.effcls + 1) else l.effcls }
    else l)

/-- TOKEN_REFILL (R301): each context of a die, at a multiple of 2^20 cycles. -/
def State.refill (s : State) (d : Nat) : State :=
  (List.range 64).foldl (fun t i =>
    if (Tbl.find? t.ctxs (ctxKey d i)).isSome then
      t.modCtx (ctxKey d i) (fun x => { x with tokens := Nat.min x.tokmax (x.tokens + x.tokrate) })
    else t) s

/-- The run count of a TAGGED launch rises, unless all its bound tasks are frozen. -/
def State.countRun (s : State) (li : Nat) : State :=
  let l := s.launch li
  let cs := s.coresOf li
  match l.state with
  | .running => if l.tagged && !s.boot.frozen && !(cs != [] && cs.all (fun c => (s.core c).frz)) then s.modLaunch li (fun x => { x with runs := x.runs + 1 }) else s
  | _ => s

/-- LAUNCH_OVERDUE (R47): the run count passes EST. One that permits neither checkpoint nor kill is told to the management core. -/
def State.overdueCheck (s : State) (li : Nat) : State :=
  let l := s.launch li
  match l.state with
  | .running =>
    if !l.overdue && decide (l.est < s.runCount li) then
      let s1 := (s.modLaunch li (fun x => { x with overdue := true })).modCtx l.ctx (fun x => { x with overdue := sat16 (x.overdue + 1) })
      if l.ckpt || l.killok then s1 else s1.notice 4 (launchName l) 0
    else s
  | _ => s

/-- TRAP_ENTRY_DEFERRED_WRITE (R341): the entry of a stop that found the queue full. -/
def State.trapDeferred (s : State) (c : Nat) : State :=
  if (s.core c).trapWait && (s.die (dieOf c)).trapRoom then
    (s.trapAppend (dieOf c) (s.core c).trapWs).modCore c (fun k => { k with trapWait := false })
  else s

/-! ## One pass (R309) -/

/-- The dispatchers' part of a cycle: task ends and completions; eligibility; tokens and counts; packets; binding, reservation and
pre-emption, die by die. -/
def State.dispatch (s : State) : State :=
  let ls (t : State) : List Nat := t.launches.map (fun l => l.1)
  let s0 := s.boundCores.foldl (fun t c => t.trapDeferred c) s
  let s1 := (ls s0).foldl (fun t l => t.launchEnd l) s0
  let s2 := (ls s1).foldl (fun t l => (t.checkpoint l).restore l) s1
  let s3 := [0, 1].foldl (fun t d => t.queuePass d) s2
  let s4 := (ls s3).foldl (fun t l => t.eligible l) s3
  let s5 := if (s.now + 1) % 2 ^ 20 = 0 then [0, 1].foldl (fun t d => t.refill d) s4 else s4
  let s6 := (ls s5).foldl (fun t l => ((t.age l).countRun l).overdueCheck l) s5
  let s7 := [0, 1].foldl (fun t d => (t.ordered d Launch.wants).foldl (fun u l => u.place l) t) s6
  let s8 := [0, 1].foldl (fun t d => t.preempt d) s7
  (ls s8).foldl (fun t l => t.sliceEnd l) s8

end Sys2Proof.Machine
end

