-- ==== Sys2Proof/Machine/Links.lean ====
section
/-! DEFINITION. The scale-up fabric and the scale-out links (R358 to R372): frames and slots, slot tables, departures and arrivals,
link protection and replays, the order of each pair's MEM flits, the slot switch and its reductions, and the frame freeze (R350). -/

set_option linter.unusedVariables false

namespace Sys2Proof.Machine

/-! ## Flits -/

/-- A flit's header (R360) as one value. -/
def flitHeader (f : Flit) : BitVec 128 :=
  BitVec.ofNat 128 (f.dpkg % 2 ^ 16 + f.spkg % 2 ^ 16 * 2 ^ 16 + f.kind % 256 * 2 ^ 32 + f.flags % 256 * 2 ^ 40 + f.pseq % 2 ^ 16 * 2 ^ 48
    + f.info.toNat * 2 ^ 64)

/-- Word `i` of a payload. -/
def flitWord (f : Flit) (i : Nat) : U64 := u64 (f.payload.toNat >>> (64 * i))

/-- The slot of the frame that the package is in (R359). -/
def State.slotNow (s : State) : Nat := s.framePos / 2

/-- Slots since alignment. -/
def State.slotCount (s : State) : Nat := s.framecnt * 256 + s.slotNow

/-- The slot in which a flit that arrives now departed. -/
def State.slotOfArrival (s : State) : Nat := (s.slotCount + 256 - s.flat % 256) % 256

/-- The fabric timetable of an id is open on this package (R362, R366). -/
def State.openTable (s : State) (ttid : Nat) : Bool :=
  s.launches.any (fun l => l.2.state == .running && l.2.hasFabric && l.2.ttid == ttid)

/-! ## Link protection (R370, R371) -/

/-- A payload enciphered in counter mode with its tag (R370). -/
def gcmSeal (key : BitVec 256) (salt : BitVec 32) (cnt : Nat) (hdr : BitVec 128) (x : BitVec 2048) : BitVec 2048 × BitVec 64 :=
  let y := x ^^^ Config.gcmStream key salt cnt
  (y, Config.gcmTag key salt cnt hdr y)

/-- A new flit leaves a port under its key, salt and counter; the counter rises. -/
def State.sendFlit (s : State) (p slot : Nat) (f : Flit) : State :=
  let x := s.port p
  let f1 := { f with pseq := x.pseq }
  let c := gcmSeal x.txKey x.txSalt x.txCnt (flitHeader f1) f1.payload
  s.setPort p { x with txCnt := (x.txCnt + 1) % 2 ^ 64, replayed := x.replayed.filter (fun q => q != slot), pseq := (x.pseq + 1) % 2 ^ 16, sent := Tbl.put x.sent slot (f1, { f1 with payload := c.1, tag := c.2 }) }

def idleFlit (s : State) (peer : Nat) : Flit := { dpkg := peer, spkg := s.pkgnum, kind := 0, flags := 0, pseq := 0, info := 0, payload := 0, tag := 0 }

/-- A MEM flit that goes out again, before any later flit of its pair (R363, R371); what the sender returns comes before both. -/
def State.resend (s : State) (f : Flit) : State :=
  let q := Tbl.getD s.pairs f.dpkg {}
  let rank (g : Flit) : List Nat := if g.kind = 3 then [0] else [1, (fld g.info.toNat 31 0 + 2 ^ 32 - q.sendSeq % 2 ^ 32) % 2 ^ 32]
  { s with pairs := Tbl.put s.pairs f.dpkg { q with queue := insertRank rank { f with flags := 1 } q.queue } }

/-- Both ends lock a link (R371): its notice; the MEM flits of some slots and of those that wait for their replay go to other planes. -/
def State.lockPort (s : State) (p : Nat) (slots : List Nat) : State :=
  let x := s.port p
  let s1 := (s.setPort p { x with lock := true, replay := [], replayed := [], rxFailed := [] }).notice 2 p 0
  (slots ++ x.replay).eraseDups.foldl (fun (t : State) slot =>
    match Tbl.find? x.sent slot with
    | some (f, _) => if f.kind = 2 then t.resend f else t
    | none => t) s1

/-- An arriving flit: decrypted when its tag is right; a tag failure counts, asks for the replay, and at the second one locks the link. -/
def State.openFlit (s : State) (p : Nat) (f : Flit) : State × Option Flit :=
  let x := s.port p
  let slot := s.slotOfArrival
  let failed := Tbl.find? x.rxFailed slot
  let cnt := failed.getD x.rxCnt
  let plain := { f with payload := f.payload ^^^ Config.gcmStream x.rxKey x.rxSalt cnt, tag := 0 }
  if !x.attested || x.lock then (s, none)
  else if Config.gcmTag x.rxKey x.rxSalt cnt (flitHeader f) f.payload = f.tag then
    (s.setPort p { x with rxFailed := Tbl.del x.rxFailed slot, rxCnt := if failed.isNone then (x.rxCnt + 1) % 2 ^ 64 else x.rxCnt }, some plain)
  else
    let s1 := s.setPort p { x with lnkerr := sat32 (x.lnkerr + 1), rxFailed := Tbl.put x.rxFailed slot cnt,
                                   rxCnt := if failed.isNone then (x.rxCnt + 1) % 2 ^ 64 else x.rxCnt }
    (if failed.isSome then s1.lockPort p [] else s1, none)

/-! ## Departures (R359, R361 to R363) -/

/-- The head of a pair's queue leaves. -/
def State.takePair (s : State) (peer : Nat) : Option (Flit × State) :=
  let q := Tbl.getD s.pairs peer {}
  match q.queue with
  | [] => none
  | f :: r => some (f, { s with pairs := Tbl.put s.pairs peer { q with queue := r } })

/-- The rank of this package in a reduction group of a plane's switch that takes its input in a slot. -/
def State.rankIn (s : State) (p slot : Nat) : Nat :=
  match (Tbl.getD s.switches p {}).table with
  | some t =>
    match t.groups.find? (fun g => g.slot == slot && g.ranks.contains (Config.switchPort p)) with
    | some g => g.ranks.findIdx (fun r => r == Config.switchPort p)
    | none => 0
  | none => 0

/-- The flit of a SCHED slot: words of the FIFO up to WMAX, and no more than a flit holds (R360). -/
def State.schedFlit (s : State) (p slot e : Nat) : Flit × State :=
  let x := s.port p
  let i := fld e 3 1
  let ws := (x.outq.getD i []).take (Nat.min 32 (fld e 9 4 + 1))
  let red := bitAt e 10
  let rank := if red then s.rankIn p slot else 0
  ({ dpkg := if red then 0xFFFF else fld e 31 16, spkg := s.pkgnum, kind := if red then 4 else 1, flags := ws.length, pseq := 0,
     info := u64 (s.framecnt % 2 ^ 32 + slot * 2 ^ 32 + rank % 64 * 2 ^ 40),
     payload := BitVec.ofNat 2048 (ws.foldr (fun w n => w.toNat + 2 ^ 64 * n) 0), tag := 0 },
    s.setPort p { x with outq := x.outq.set i ((x.outq.getD i []).drop ws.length) })

/-- SLOT_DEPARTURE: the flit of this slot on a port, by its TX table; a replay takes the slot's place, and a locked link is idle. -/
def State.depart (s : State) (p : Nat) : State :=
  let x := s.port p
  let slot := s.slotNow
  if !x.en || !x.aligned || !x.attested || s.framePos % 2 ≠ 0 then s
  else if x.replay.contains slot then
    s.setPort p { x with replay := x.replay.filter (fun q => q != slot), replayed := if x.replayed.contains slot then x.replayed else slot :: x.replayed }
  else
    let e := (x.tx.getD slot 0).toNat
    let peer := fld e 31 16
    if x.lock then s.sendFlit p slot (idleFlit s peer)
    else if bitAt e 0 then
      (if s.openTable (fld e 63 32) && s.frameFreeze == 0 && !s.boot.frozen then
        let r := s.schedFlit p slot e
        r.2.sendFlit p slot r.1
      else s.sendFlit p slot (idleFlit s peer))
    else
      match s.takePair peer with
      | some (f, t) => t.sendFlit p slot f
      | none => s.sendFlit p slot (idleFlit s peer)

/-! ## Arrivals -/

def State.planErr (s : State) (p : Nat) : State := let x := s.port p; s.setPort p { x with planerr := sat32 (x.planerr + 1) }

/-- Words join an inbound queue; what finds it full is counted. -/
def State.joinWords (s : State) (p i : Nat) (ws : List U64) : State :=
  let x := s.port p
  let q := x.inq.getD i []
  let room := 64 - q.length
  s.setPort p { x with inq := x.inq.set i (q ++ ws.take room), lnkdrop := sat32 (x.lnkdrop + (ws.length - room)) }

/-- SCHED_FLIT_RECEIVE (R362): checked against the RX table; reduction results come in the same way. -/
def State.schedArrive (s : State) (p : Nat) (f0 : Flit) : State :=
  let r := s.openFlit p f0
  match r.2 with
  | none => r.1
  | some f =>
    let slot := s.slotOfArrival
    let e := ((s.port p).rx.getD slot 0).toNat
    let words (n : Nat) : List U64 := (List.range n).map (fun i => flitWord f i)
    if 6 ≤ f.kind then r.1.planErr p
    else if f.kind = 1 then
      (if bitAt e 0 && fld e 31 16 == f.spkg && s.openTable (fld e 63 32) && fld f.info.toNat 39 32 == slot then
        r.1.joinWords p (fld e 3 1) (words (Nat.min 32 (fld f.flags 5 0)))
      else r.1.planErr p)
    else if f.kind = 5 then
      (if bitAt e 0 && s.openTable (fld e 63 32) then r.1.joinWords p (fld e 3 1) (words 32) else r.1.planErr p)
    else r.1

/-- A flit of a type that the manual gives no meaning is discarded and counted (R360). -/
def State.strayFlit (s : State) (p : Nat) (f : Flit) : State := if 6 ≤ f.kind then s.planErr p else s

/-! ## MEM flits (R163, R345, R363, R364) -/

def flitOp (f : Flit) : Nat := fld (flitWord f 0).toNat 63 60
def flitAddr (f : Flit) : Nat := fld (flitWord f 0).toNat 51 0
def flitBytes (f : Flit) : List Byte := toBytes (fld (flitWord f 0).toNat 59 52) (f.payload.toNat >>> 64)

/-- A notice of an automatic freeze of an agent that is no core (R345): a trap-queue entry of die 0, after those of the cores, and a mailbox
notice. -/
def State.agentFreeze (s : State) (agent : Nat) : State :=
  (s.trapEntry 0 noCore true [u64 (0x12 + 15 * 2 ^ 16), 0, 0, 0, 0, 0, 0, 0]).notice 1 agent 0

/-- A peer's write to a place that it may not reach: a hole, the Carafe range, a Mirror parity range, or a scratch without a task. -/
def State.violates (s : State) (loc : Nat) : Bool :=
  match placeOf loc with
  | .hole => true
  | .carafe _ _ => true
  | .scratch id off => !(s.core id).bound || decide (s.scratchLen id ≤ off)
  | .hbm => s.isParity loc
  | .tier2 => s.isParity loc
  | _ => true

/-- The request that a Prism flit carries. -/
def prismOf (f : Flit) : PrismReq :=
  let bs := flitBytes f
  { core := 0, seq := 0, pc := 0, tag := ofBytes ((bs.drop 66).take 4), apkg := ofBytes ((bs.drop 70).take 2), aid := (flitAddr f),
    actx := ofBytes ((bs.drop 64).take 1), adie := ofBytes ((bs.drop 65).take 1), block := BitVec.ofNat 512 (ofBytes (bs.take 64)),
    ostat := ofBytes ((bs.drop 72).take 1) }

/-- The request, as its data names it, that this package holds as C and whose data is coming in. -/
def State.heldAsC (s : State) (name : Nat) : Option (Nat × PrismReq) :=
  List.find? (fun r => r.2.name == name && r.2.phase == 1) s.prism

/-- The answer to a request of another package: its number, and the bytes read. -/
def State.reply (s : State) (f : Flit) (bs : List Byte) : State := s.queueMem f.spkg (memPayload 12 (flitAddr f) ((flitBytes f).take 8 ++ bs))

/-- A flit that asks this package for something, which a frozen peer port refuses (R344): no acknowledgement or answer, nor the data of a
request that has been accepted. -/
def isRequest (f : Flit) : Bool := [0, 1, 4, 11, 13, 14].contains (flitOp f)

/-- The refusal of a request with PROT, to its sender (R344): of a Prism request by O's answer to A. -/
def State.refuse (s : State) (f : Flit) : State :=
  if flitOp f = 4 then s.queueMem f.spkg (memPayload 8 (flitAddr f) [3])
  else s.queueMem f.spkg (memPayload 3 (flitAddr f) ((flitBytes f).take 8 ++ [9]))

/-- A request that R345 calls a violation freezes the port that it came in by, which refuses it; one that came over the scale-out transport, which
has no peer port, is refused only (log 29). -/
def State.violation (s : State) (port : Option Nat) (f : Flit) : State :=
  match port with
  | some p => ((s.setPort p { s.port p with frozen := true }).agentFreeze (3 * 2 ^ 14 + p)).refuse f
  | none => s.refuse f

/-- An atomic that another package asks for, at its home (R152, R177): the value read is its answer. -/
def State.memAtomic (s : State) (f : Flit) : State :=
  let bs := (flitBytes f).drop 8
  let n := ofBytes (bs.take 1)
  let old := s.rdBytes (flitAddr f) n
  let r := atomOfCode (ofBytes ((bs.drop 1).take 1)) (ofBytes old) (ofBytes ((bs.drop 2).take 8)) (ofBytes ((bs.drop 10).take 8))
  (match r.new with | some v => s.landWrite noCore (flitAddr f) (toBytes n v) | none => s).reply f old

/-- What a MEM flit asks for is done. -/
def State.memDo (s : State) (port : Option Nat) (f : Flit) : State :=
  let bs := flitBytes f
  let n := match flitOp f with
    | 0 => bs.length - 8
    | 11 => ofBytes ((bs.drop 8).take 1)
    | 13 => ofBytes ((bs.drop 8).take 1)
    | _ => 0
  let bad := s.violates (flitAddr f) || s.violates (flitAddr f + (n - 1))
  let frozen := s.violation port f
  match flitOp f with
  | 0 =>
    if bad then frozen
    else (s.landWrite noCore (flitAddr f) (bs.drop 8)).reply f []
  | 1 =>
    (s.deltaApply ((flitAddr f) % 64) ((flitAddr f) / 64) (ofBytes (bs.take 1)) (BitVec.ofNat 512 (ofBytes (bs.drop 9)))).queueMem f.spkg
      (memPayload 2 0 ((bs.drop 1).take 8))
  | 2 => s.deltaAck (ofBytes bs) f.spkg
  | 3 => s.denied (ofBytes (bs.take 8))
  | 4 =>
    let n := s.nPrism
    ((({ s with nPrism := n + 1 } : State).setPreq n (prismOf f)).at_ (s.now + 1 + Config.latency s.fresh) (.prismReadAtOwner n)).tick1
  | 5 =>
    let n := s.nPrism
    ({ s with nPrism := n + 1 } : State).setPreq n { prismOf f with phase := 1 }
  | 6 =>
    (match s.heldAsC (flitAddr f) with
    | some (n, x) => let s1 := s.prismCheck n; s1.setPreq n { ((s1.preq n).getD x) with bytes := x.bytes ++ bs }
    | none => s)
  | 7 =>
    (match s.heldAsC (flitAddr f) with
    | some (n, _) => (s.at_ (s.now + 1 + Config.latency s.fresh) (.prismDeposit n)).tick1
    | none => s)
  | 8 => (s.at_ (s.now + 1) (.prismAccepted (flitAddr f) (ofBytes bs)))
  | 9 => (s.at_ (s.now + 1) (.prismFaultReturn (flitAddr f) (ofBytes bs)))
  | 11 => if bad then frozen else s.reply f (s.rdBytes (flitAddr f) n)
  | 12 => s.answer (ofBytes (bs.take 8)) (bs.drop 8)
  | 13 => if bad then frozen else s.memAtomic f
  | 14 =>
    (s.shareApply (ofBytes ((bs.drop 8).take 2)) (ofBytes ((bs.drop 10).take 7))
      (if ofBytes ((bs.drop 17).take 1) = 0 then none else some (ofBytes ((bs.drop 18).take 8)))).reply f []
  | _ => s

/-- A MEM flit whose turn has come: refused by a frozen peer port, or done. -/
def State.memTurn (s : State) (port : Option Nat) (f : Flit) : State :=
  let shut := match port with | some p => (s.port p).frozen | none => false
  if shut && isRequest f then s.refuse f else s.memDo port f

/-- A flit of a Prism read's data for a window in scratch: one that begins it, or one of a request whose beginning was taken or went back. -/
def State.prismScratch (s : State) (f : Flit) : Bool :=
  match flitOp f with
  | 5 => s.prismFrozen ((prismOf f).withWin (s.rwWords (prismOf f)))
  | 6 => (match s.heldAsC (flitAddr f) with | some (_, x) => s.prismFrozen (x.withWin (s.rwWords x)) | none => s.boot.frozen)
  | 7 => (match s.heldAsC (flitAddr f) with | some (_, x) => s.prismFrozen (x.withWin (s.rwWords x)) | none => s.boot.frozen)
  | _ => false

/-- A receiver cannot take a MEM flit for a scratch whose clocks are stopped (R378), nor a write to a Mirror region in REBUILD (R335). -/
def State.cannotTake (s : State) (f : Flit) : Bool :=
  let op := flitOp f
  s.prismScratch f ||
  (s.boot.frozen && (op == 0 || op == 11 || op == 13) && (match placeOf (flitAddr f) with | .scratch _ _ => true | _ => false))
    || ((op == 0 || op == 13) && s.inRebuild (flitAddr f))

/-- The flit goes back to its sender, in the next MEM slot to it (R363). -/
def State.bounce (s : State) (f : Flit) : State :=
  let q := Tbl.getD s.pairs f.spkg {}
  let back : Flit := { f with kind := 3, dpkg := f.spkg, spkg := s.pkgnum }
  { s with pairs := Tbl.put s.pairs f.spkg { q with queue := insertRank (fun (g : Flit) => [if g.kind = 3 then 0 else 1]) back q.queue } }

/-- Flits that came early perform once their turn in the pair has come. -/
def State.pairDrain (s : State) (port : Option Nat) (src : Nat) : Nat → State
  | 0 => s
  | n + 1 =>
    let q := Tbl.getD s.pairs src {}
    match q.early.find? (fun f => fld f.info.toNat 31 0 == q.recvSeq % 2 ^ 32) with
    | none => s
    | some f =>
      let q1 := { q with early := q.early.filter (fun g => g != f) }
      if s.cannotTake f then ({ s with pairs := Tbl.put s.pairs src q1 } : State).bounce f
      else State.pairDrain (({ s with pairs := Tbl.put s.pairs src { q1 with recvSeq := q.recvSeq + 1 } } : State).memTurn port f) port src n

/-- A MEM flit in its pair's order (R364): performed, kept until its turn, or dropped as a repeat; bounced or refused where R363, R344
or R378 say so. -/
def State.memTake (s : State) (port : Option Nat) (f : Flit) : State :=
  let q := Tbl.getD s.pairs f.spkg {}
  let seq := fld f.info.toNat 31 0
  let ahead := (seq + 2 ^ 32 - q.recvSeq % 2 ^ 32) % 2 ^ 32
  if s.cannotTake f then s.bounce f
  else if 2 ^ 31 ≤ ahead then s
  else if 0 < ahead then
    (if q.early.any (fun g => g.info == f.info) then s else { s with pairs := Tbl.put s.pairs f.spkg { q with early := q.early ++ [f] } })
  else
    let s1 : State := { s with pairs := Tbl.put s.pairs f.spkg { q with recvSeq := q.recvSeq + 1 } }
    (s1.memTurn port f).pairDrain port f.spkg q.early.length

/-- MEM_FLIT_RECEIVE. -/
def State.memArrive (s : State) (p : Nat) (f0 : Flit) : State :=
  let r := s.openFlit p f0
  match r.2 with
  | some f => if f.kind = 2 then r.1.memTake (some p) f else r.1.strayFlit p f
  | none => r.1

/-- BOUNCE_RECEIVE (R363): the flit goes out again before any later flit of the pair. -/
def State.bounced (s : State) (p : Nat) (f0 : Flit) : State :=
  let r := s.openFlit p f0
  match r.2 with
  | some f =>
    if f.kind = 3 then r.1.resend { f with kind := 2, dpkg := f.spkg, spkg := s.pkgnum } else r.1.strayFlit p f
  | none => r.1

/-- A package that MEM slots reach (R361). -/
def State.upPath (s : State) (pkg : Nat) : Bool :=
  s.ports.any (fun p => p.2.en && p.2.tx.any (fun e => !e.getLsbD 0 && fld e.toNat 31 16 == pkg))

/-- SCALEOUT_MEM (R372): a flit of another package arrives over the transport, or the next flit for a package outside the domain leaves, by the port
group and to the endpoint that its PEERTAB entry names. The links carry nothing before stage LINKS (R373). -/
def State.scaleout (s : State) (peer : Nat) (f : Flit) : State :=
  if s.boot.stage < 3 then s
  else if f.spkg = s.pkgnum then
    (if s.upPath peer || !s.hasPath peer then s
    else match s.takePair peer with
      | some (g, t) => { t with netOut := some (fld (word64 s.mem (s.peertab + 16 * peer)) 2 1, u64 (word64 s.mem (s.peertab + 16 * peer + 8)), g) }
      | none => s)
  else if f.kind = 3 && f.dpkg == s.pkgnum then s.resend { f with kind := 2, dpkg := f.spkg, spkg := s.pkgnum }
  else if f.kind = 2 && f.dpkg == s.pkgnum then s.memTake none f
  else s

/-- Everything queued for packages outside the domain leaves. -/
def State.scaleoutAll (s : State) : State :=
  s.pairs.foldl (fun t q => match q.2.queue with | f :: _ => t.scaleout q.1 f | [] => t) s

/-! ## The slot switch (R367 to R369) -/

/-- A table that the switch refuses. -/
def Switch.refuses (w : Switch) (t : SwitchTable) : Bool :=
  let bad (p : Nat) : Bool := decide (192 ≤ p) || w.disabled.contains p
  let inputs := t.groups.flatMap (fun g => g.ranks.map (fun r => (g.slot, r)))
  t.plain.any (fun c => bad c.2.1 || bad c.2.2) || t.groups.any (fun g => g.ranks.any bad || g.outs.any bad)
    || decide (inputs.eraseDups.length < (t.groups.flatMap (fun g => g.ranks.eraseDups.map (fun r => (g.slot, r)))).length)
    || t.plain.any (fun c => inputs.contains (c.1, c.2.1))
    || t.groups.any (fun g => g.ranks.isEmpty || decide (64 < g.ranks.length) || decide (g.ranks.eraseDups.length < g.ranks.length))

/-- SWITCH_TABLE_LOAD: taken for its frame, or refused with the old table kept. Of two for one frame the later load is in force. -/
def State.loadSwitch (s : State) (plane : Nat) (t : SwitchTable) : State :=
  let w := Tbl.getD s.switches plane {}
  { s with switches := Tbl.put s.switches plane (if w.refuses t then { w with refused := w.refused + 1 }
    else { w with nextTables := insertRank (fun (x : SwitchTable) => [x.frame]) t w.nextTables }) }

/-- The group of the table in force. -/
def Switch.group (w : Switch) (g : Nat) : Option RedGroup := match w.table with | some t => t.groups[g]? | none => none

/-- Slots from the departure of a flit until now. In a frame freeze the frame that comes has not begun (R350, R359). -/
def State.slotAge (s : State) (frame slot : Nat) : Int :=
  let d : Nat := (s.framecnt % 2 ^ 32 + 2 ^ 32 - frame % 2 ^ 32) % 2 ^ 32
  (if d < 2 ^ 31 then (d : Int) else (d : Int) - 2 ^ 32) * 256 + (if s.frameFreeze = 0 then (s.slotNow : Int) else -1) - slot

/-- What an output of a switch carries in a slot: at most one input or group (R367); of several that a table gives it the
first to come; DESIGN CHOICE (log 117). -/
def Switch.emit (w : Switch) (o : Nat) (f : Flit) : Switch := if w.emitted.any (fun e => e.1 == o) then w else { w with emitted := w.emitted ++ [(o, f)] }

/-- A flit on a plain connection goes from its input to every output that the table gives it in its slot (R367). -/
def Switch.pass (w : Switch) (slot port : Nat) (f : Flit) : Switch :=
  match w.table with
  | some t => (t.plain.filter (fun c => c.1 == slot && c.2.1 == port)).foldl (fun v c => v.emit c.2.2 f) w
  | none => w

/-- REDUCTION_INPUT: a flit arrives at a plane's switch. A contribution that arrives before its deadline is accepted, and a late one counted (R369); any
other flit passes by the plain connections of its departure slot (R367). A flit of this package whose tag fails at the switch is asked for again in
its slot of the next frame, and when the replay fails too the link locks (R371). -/
def State.redIn (s : State) (plane port : Nat) (f : Flit) : State :=
  let w := Tbl.getD s.switches plane {}
  let x := s.port plane
  let own := port == Config.switchPort plane
  -- a flit of this package is known by its slot: that of its header where it has one, else that in which it was sent
  let sentSlot : Nat := ((List.find? (fun e => e.2.2 == f) x.sent).map (fun e => e.1)).getD s.slotOfArrival
  let slot := if f.kind = 1 ∨ f.kind = 4 then fld f.info.toNat 39 32 else sentSlot
  let sent := Tbl.find? x.sent slot
  let ok := !own || (match sent with | some (_, c) => c == f | none => false)
  if !ok then
    (if x.lock then s
    else if x.replayed.contains slot then s.lockPort plane [slot]
    else if x.replay.contains slot then s
    else s.setPort plane { x with replay := slot :: x.replay })
  else
    let plain := if own then (match sent with | some (q, _) => q | none => f) else f
    let age := s.slotAge (fld f.info.toNat 31 0) slot
    if plain.kind ≠ 4 then
      { s with switches := Tbl.put s.switches plane (w.pass (if plain.kind = 1 then slot else if own then sentSlot else s.slotOfArrival) port plain) }
    else match (match w.table with | some t => t.groups.findIdx? (fun g => g.slot == slot && g.ranks.contains port) | none => none) with
    | none => s
    | some g =>
      let rank := match w.group g with | some r => r.ranks.findIdx (fun q => q == port) | none => 0
      if age < 0 then s
      else if 256 ≤ age then
        { s with switches := Tbl.put s.switches plane { w with redlate := Tbl.put w.redlate g (Tbl.getD w.redlate g 0 + 1) } }
      else if w.acc.any (fun a => a.1 == g && a.2.1 == rank) then s
      else { s with switches := Tbl.put s.switches plane { w with acc := w.acc ++ [(g, rank, plain.payload)] } }

/-- Element-wise sum of a reduction (R369): 0 FP32, 1 BF16, 2 I32. -/
def redAdd (el : Nat) (a b : BitVec 2048) : BitVec 2048 :=
  let w := if el = 1 then 16 else 32
  pack w ((List.range (2048 / w)).map (fun i =>
    let x := elem w a i
    let y := elem w b i
    if el = 2 then (x + y) % 2 ^ 32 else (roundElem (if el = 1 then 7 else 6) (Num.add (fdec (if el = 1 then 7 else 6) x) (fdec (if el = 1 then 7 else 6) y))).1))

/-- The sum over the ranks that are present, in rank order. -/
def redSum (el n : Nat) (acc : List (Nat × BitVec 2048)) : Option (BitVec 2048) :=
  (List.range n).foldl (fun (r : Option (BitVec 2048)) i =>
    match acc.find? (fun a => a.1 == i) with
    | none => r
    | some (_, v) => some (match r with | none => v | some u => redAdd el u v)) none

def redMask (n : Nat) (acc : List (Nat × BitVec 2048)) : Nat :=
  (List.range n).foldl (fun m i => if acc.any (fun a => a.1 == i) then m else m + 2 ^ i) 0

/-- The package at a port of a plane's switch. -/
def State.switchPkg (s : State) (plane o : Nat) : Nat := if o = Config.switchPort plane then s.pkgnum else Config.switchPeer plane o

/-- REDUCTION_DEADLINE: the sum goes to every output of the group. -/
def State.redOut (s : State) (plane g : Nat) : State :=
  let w := Tbl.getD s.switches plane {}
  match w.group g with
  | none => s
  | some r =>
    let acc := (w.acc.filter (fun a => a.1 == g)).map (fun a => a.2)
    let m := redMask r.ranks.length acc
    let f : Flit := { dpkg := 0xFFFF, spkg := 0xFFFF, kind := 5, flags := b2n (m != 0), pseq := 0, info := u64 m,
                      payload := (redSum r.elem r.ranks.length acc).getD 0, tag := 0 }
    { s with switches := Tbl.put s.switches plane { w with acc := w.acc.filter (fun a => a.1 != g), emitted := (r.outs.foldl (fun v o => v.emit o { f with dpkg := s.switchPkg plane o }) w).emitted } }

/-- The deadlines of a slot on every plane, whose outputs begin anew; a frozen frame has none (R350, R359). -/
def State.deadlines (s0 : State) : State :=
  let s : State := { s0 with switches := s0.switches.map (fun p => (p.1, { p.2 with emitted := [] })) }
  if s.frameFreeze ≠ 0 then s else s.switches.foldl (fun t p =>
    match p.2.table with
    | none => t
    | some tb => ((List.range tb.groups.length).zip tb.groups).foldl (fun u g => if g.2.slot = s.slotNow then u.redOut p.1 g.1 else u) t) s

/-! ## Frames (R350, R359, R361, R376) -/

/-- A port's slot tables as memory holds them. -/
def State.slotTable (s : State) (p dir : Nat) : List U64 :=
  (List.range 256).map (fun i => u64 (word64 s.mem (s.slotbase + 4096 * (2 * p + dir) + 8 * i)))

/-- What a frame boundary brings to a port: slot tables, and new keys, which unlock it. -/
def State.portBoundary (s : State) (p : Nat) : State :=
  let x := s.port p
  let x1 := if x.loadReq then { x with tx := s.slotTable p 0, rx := s.slotTable p 1, loadReq := false } else x
  match x1.newKeys with
  | none => s.setPort p x1
  | some k =>
    (s.setPort p { x1 with txKey := k.extractLsb' 0 256, txSalt := k.extractLsb' 256 32, rxKey := k.extractLsb' 288 256, rxSalt := k.extractLsb' 544 32,
                           txCnt := 0, rxCnt := 0, lock := false, reatt := false, attested := true, newKeys := none, rxFailed := [], replay := [], replayed := [] }).notice 3 p 0

/-- Cores of launches with an open fabric timetable. -/
def State.fabricCores (s : State) : List Nat := (s.cores.filter (fun q => q.2.bound && (s.launch q.2.launch).hasFabric)).map (fun q => q.1)

/-- A pending freeze that was raised early enough takes this frame (R350). -/
def State.freezeDue (s : State) : Bool := match s.pendFreeze with | some t => decide (t + 128 ≤ s.now + 1) | none => false

/-- FABRIC_FRAME_FREEZE: the timetabled cores freeze for one frame. -/
def State.frameFreezeNow (s : State) : State :=
  if s.freezeDue && s.framePos == 0 && s.frameFreeze == 0 then { s with frameFreeze := 512, pendFreeze := none, pdefcnt := sat32 (s.pdefcnt + 1) } else s

/-- FRAME_BOUNDARY: slot tables and keys of the ports, switch tables, the limits of fabric cores, and a pending freeze. -/
def State.frameBoundary (s : State) : State :=
  let s1 := (s.ports.map (fun p => p.1)).foldl (fun t p => t.portBoundary p) s
  let sw := s1.switches.map (fun p =>
    let due := p.2.nextTables.filter (fun t => decide (t.frame ≤ s1.framecnt))
    (p.1, { p.2 with table := due.getLast?.orElse (fun _ => p.2.table), nextTables := p.2.nextTables.filter (fun t => !decide (t.frame ≤ s1.framecnt)) }))
  let s2 : State := { s1 with switches := sw, dies := s1.dies.map (fun d => { d with plimFrame := d.plim }) }
  s2.frameFreezeNow

/-- The frozen cycles of a frame freeze; those of a debug freeze count as that (R346). -/
def State.frameHold (s : State) : State :=
  if s.frameFreeze = 0 then s
  else s.fabricCores.foldl (fun t c => t.modCore c (fun k =>
    { k with frz := true, frzcnt := if s.boot.frozen then k.frzcnt else Nat.min (k.frzcnt + 1) (2 ^ 48 - 1) })) s

/-- The next cycle's place in its frame. A frame freeze holds the frame counter for one frame. -/
def State.nextPos (s : State) : State :=
  if s.framePos < 511 then { s with framePos := s.framePos + 1, frameFreeze := s.frameFreeze - 1 }
  else { s with framePos := 0, frameFreeze := s.frameFreeze - 1, framecnt := if s.frameFreeze = 0 then (s.framecnt + 1) % 2 ^ 48 else s.framecnt }

/-- The links' part of a cycle: the next slot begins. -/
def State.linkCycle (s : State) : State :=
  let s0 := s.scaleoutAll
  if !s0.frameRun then s0
  else
    let s1 := s0.nextPos
    let s2 := if s1.framePos = 0 then s1.frameBoundary else s1
    let s3 := if s2.framePos % 2 = 0 then (s2.ports.map (fun p => p.1)).foldl (fun t p => t.depart p) s2.deadlines else s2
    s3.frameHold

/-- LINK_FRAMING_ALIGNED (R373): in LINKS a port gains alignment; the first one starts the frame counter. -/
def State.align (s : State) (p : Nat) : State :=
  if s.boot.stage < 3 then s
  else
    let s1 := s.setPort p { s.port p with aligned := true }
    if s.frameRun then s1 else { s1 with frameRun := true, framecnt := 0, framePos := 0 }

end Sys2Proof.Machine
end

