-- ==== Sys2Proof/Machine/Boot.lean ====
section
/-! DEFINITION. Bring-up (R373 to R376), the debug freeze (R346, R378) and the Viewfinder port (R377, R379). -/

set_option linter.unusedVariables false

namespace Sys2Proof.Machine

def State.modBoot (s : State) (f : Boot → Boot) : State := { s with boot := f s.boot }

/-! ## Firmware verification (R374) -/

def fwMagic : Nat := 0x5753524B
def fwHeader : Nat := 3337

/-- The first check that fails gives the ERR code; 0 accepts. -/
def fwCheck (img : List Byte) (rollback : Nat) : Nat :=
  let key := (img.drop 80).take 1793
  let sigLen := le img 1873 2
  let body := img.drop fwHeader
  if le img 0 4 ≠ fwMagic ∨ img.length < fwHeader ∨ 67108864 < le img 8 8 ∨ body.length ≠ le img 8 8 ∨ 1462 < sigLen then 1
  else if (Config.shake256 key).extractLsb' 0 256 ≠ Config.keyHash then 2
  else if Config.falconVerify key (img.take 80) ((img.drop 1875).take sigLen) = false then 3
  else if Config.shake256 body ≠ BitVec.ofNat 512 (le img 16 64) then 4
  else if le img 4 4 < rollback then 5
  else 0

/-- Events that the package itself has set going; all others come from outside it. -/
def ownEvent (i : Instr) : Bool :=
  match i with
  | .debugFreeze | .attestationReport | .regrd | .regwr => true
  | .kvStreamHold _ _ | .kvsTileReady _ _ _ | .streamHoldFall _ _ | .pageMove _ _ => true
  | .prismReadAtOwner _ | .prismDeposit _ | .prismAccepted _ _ | .prismFaultReturn _ _ => true
  | .loupeAdmission _ | .loupeCommit _ | .baristaRequestServe _ _ _ => true
  | .bridgeDelivery _ _ | .barrierRelease _ _ _ _ _ => true
  | _ => false

/-- COLD_START (R373): the package is at its cold state in SAFE, and Roaster verifies the firmware. ROLLBACK and the fuse map are fused and the debug
nonce random; inputs yet to come stay, and what the package had under way is gone. -/
def State.coldStart (s : State) (img : List Byte) : State :=
  let e := fwCheck img s.boot.rollback.toNat
  let n := s.boot.nonceIdx + 1
  let b : Boot := { err := e, verified := e == 0, version := if e = 0 then le img 4 4 else 0, rollback := s.boot.rollback, fuses := s.boot.fuses,
                    bodyDigest := if e = 0 then BitVec.ofNat 512 (le img 16 64) else 0, nonceIdx := n, dbgnonce := Config.dbgNonce n }
  { State.reset with boot := b, fresh := s.fresh,
                       agenda := (s.agenda.filter (fun e => !ownEvent e.2)).map (fun e => (e.1 - s.now, e.2)) }

/-- The seed of the identity key generator (R375): SHAKE256 of the device secret and "KZX-ID". -/
def identitySeed : BitVec 512 := Config.shake256 (toBytes 32 Config.deviceSecret.toNat ++ [0x4B, 0x5A, 0x58, 0x2D, 0x49, 0x44])

/-- STAGE_MEMORY: after the firmware is accepted. Training fails with MEMTRAIN; else every memory is zero and the identity derived. -/
def State.stageMemory (s : State) (ok : Bool) : State :=
  if s.boot.stage = 0 ∧ s.boot.verified then
    (if ok then { s with mem := [], boot := { s.boot with stage := 1, memReady := true, idKey := some (Config.falconKeygen identitySeed) } }
    else s.modBoot (fun b => { b with stage := 1, err := 6 }))
  else s

/-- STAGE_CORES: after the memory is ready; a failed self-test is SELFTEST. -/
def State.stageCores (s : State) (ok : Bool) : State :=
  if s.boot.stage = 1 ∧ s.boot.memReady then
    s.modBoot (fun b => { b with stage := 2, coresReady := ok, err := if ok then b.err else 7 })
  else s

/-- GO: BCTL.GO leaves CORES for LINKS with PKGNUM set. Earlier, or without it, the write is ignored and ERR is GOEARLY. -/
def State.goLinks (s : State) : State :=
  if s.boot.stage < 2 ∨ s.pkgSet = false then s.modBoot (fun b => { b with err := 8 })
  else if s.boot.stage = 2 ∧ s.boot.coresReady then s.modBoot (fun b => { b with stage := 3 })
  else s

/-- STAGE_FULL: every enabled port is attested or locked. -/
def State.stageFull (s : State) : State :=
  if s.boot.stage = 3 ∧ s.ports.all (fun p => !p.2.en || p.2.attested || p.2.lock) then s.modBoot (fun b => { b with stage := 4 }) else s

/-- FWCOMMIT (R374): in FULL, ROLLBACK takes the running VERSION. -/
def State.fwcommit (s : State) : State :=
  if s.boot.stage = 4 then s.modBoot (fun b => { b with rollback := BitVec.ofNat 32 b.version }) else s

/-! ## Attestation (R375, R376) -/

/-- START: a request while one is served is ignored and counted. -/
def State.attStart (s : State) : State :=
  if s.boot.attBusy then s.modBoot (fun b => { b with attOvr := true })
  else ((s.modBoot (fun b => { b with attBusy := true })).at_ (s.now + 1 + Config.latency s.fresh) .attestationReport).tick1

/-- The registers whose digest the report holds: the RW registers of block 0, the partition table, HWIN. -/
def State.attRegs (s : State) : List Byte :=
  s.boot.attnonce.flatMap (fun w => toBytes 8 w.toNat) ++ toBytes 8 s.boot.attaddr
    ++ s.dies.flatMap (fun d => d.parts.flatMap (fun p => p.quads.flatMap (fun q => toBytes 2 q) ++ p.slices.flatMap (fun q => toBytes 2 q)))
    ++ s.host.hwin.flatMap (fun w => toBytes 8 w.toNat)

/-- The signed part of a report. The manual gives the fields in order and no widths (log 33). -/
def State.reportBody (s : State) : List Byte :=
  toBytes 8 0x54544152 ++ toBytes 8 Config.serial.toNat ++ toBytes 8 s.pkgnum ++ toBytes 8 s.boot.version ++ toBytes 8 s.boot.rollback.toNat
    ++ toBytes 64 s.boot.bodyDigest.toNat ++ s.boot.attnonce.flatMap (fun w => toBytes 8 w.toNat) ++ toBytes 64 (Config.shake256 s.attRegs).toNat

/-- A signature by the identity key, which MEMORY has derived. -/
def Boot.sign (b : Boot) (x : List Byte) : List Byte := match b.idKey with | some k => Config.falconSign k.1 x | none => []

/-- The 2,048 bytes of a report. -/
def State.reportBytes (s : State) : List Byte :=
  ((s.reportBody ++ s.boot.sign s.reportBody) ++ List.replicate 2048 0).take 2048

/-- What the package tells a switch of itself (R376): its report, signed over both nonces, its public key and certificate. The manual gives no
layout (log 106). -/
def State.identity (s : State) (nonces : BitVec 512) : List Byte :=
  let body := s.reportBody ++ toBytes 64 nonces.toNat
  body ++ s.boot.sign body ++ (match s.boot.idKey with | some k => k.2 | none => []) ++ Config.certificate

/-- ATTESTATION_REPORT: written at ATTADDR as a release at HOST scope, or ERR outside populated HBM, and in a parity range, to which nothing may
store (R333). One to a region in REBUILD waits (R335). -/
def State.attReport (s : State) : State :=
  if s.boot.attBusy = false then s
  else
    let a := s.boot.attaddr
    let ok := (match placeOf a with | .hbm => true | _ => false) && (match placeOf (a + 2047) with | .hbm => true | _ => false)
    if !ok || s.isParity a || s.isParity (a + 2047) then s.modBoot (fun b => { b with attBusy := false, attErr := true })
    else if s.inRebuild a || s.inRebuild (a + 2047) then s.at_ (s.now + 1) .attestationReport
    else (s.homeWrite noCore a s.reportBytes).modBoot (fun b => { b with attBusy := false, attDone := true })

/-- PORT_ATTESTATION (R376): each end checks the other's identity report, the switch ours (`ok`), and we the switch's; a failed check leaves the
port locked; keys of a first attestation of an unlocked port take effect at once, all others at the next frame boundary. -/
def State.portAttest (s : State) (p : Nat) (ok : Bool) (peer : List Byte) (secret : BitVec 256) (nonces : BitVec 512) : State :=
  let x : Port := { s.port p with ident := s.identity nonces }
  if s.boot.stage < 3 ∨ !x.en ∨ !x.aligned ∨ (x.attested && !x.reatt) ∨ (x.lock && !x.reatt) then s
  else if !ok || !Config.identityOk peer nonces then (s.setPort p { x with lock := true, reatt := false, newKeys := none }).notice 2 p 0
  else
    let k := Config.shakeKeys secret nonces
    if x.attested || x.lock then s.setPort p { x with newKeys := some k }
    else s.setPort p { x with attested := true, txKey := k.extractLsb' 0 256, txSalt := k.extractLsb' 256 32, rxKey := k.extractLsb' 288 256,
                              rxSalt := k.extractLsb' 544 32, txCnt := 0, rxCnt := 0 }

/-- REATT: a port is to be attested again. -/
def State.reattest (s : State) (p : Nat) : State := s.setPort p { s.port p with reatt := true }

/-! ## The debug freeze (R346, R378) -/

/-- DEBUG_FREEZE: every clock that R346 names has stopped. What a readout finds unspecified stays the same during the freeze (R379). -/
def State.debugStop (s : State) : State := (s.modBoot (fun b => { b with frozen := true, frzKey := s.fresh })).tick1

/-- FREEZE: the clocks stop in the next cycle, of the 3 that R346 allows; DESIGN CHOICE (log 116). -/
def State.freezeRequest (s : State) : State := s.at_ (s.now + 1) .debugFreeze

/-- VIEWFINDER_FREEZE: the same from an unlocked debug port. -/
def State.vfFreeze (s : State) : State := if s.boot.unlocked then s.freezeRequest else s

/-- RESUME: every clock restarts on one cycle; cores under an open fabric timetable take TIMING with SUB 9 at their next bundle. -/
def State.debugResume (s : State) : State :=
  if s.boot.frozen then (s.fabricCores.foldl (fun t c => t.modCore c (fun k => { k with timingSub := 9 })) s).modBoot (fun b => { b with frozen := false })
  else s

/-! ## Viewfinder (R377, R379) -/

/-- VIEWFINDER_UNLOCK: a signature over serial and DBGNONCE under the fused debug key; a failure gives DBGNONCE a new value. -/
def State.vfUnlock (s : State) (sig : List Byte) : State :=
  if Config.falconVerifyHash Config.dbgKeyHash (toBytes 8 Config.serial.toNat ++ toBytes 8 s.boot.dbgnonce.toNat) sig then
    s.modBoot (fun b => { b with unlocked := true })
  else s.modBoot (fun b => { b with nonceIdx := b.nonceIdx + 1, dbgnonce := Config.dbgNonce (b.nonceIdx + 1) })

/-- IDCODE. -/
def State.vfIdcode (s : State) : State := s.modBoot (fun b => { b with vfOut := toBytes 4 Config.idcode.toNat })

/-- The sticky state of a unit in a readout: whether it is set, slot, walking index and operation, and the low part of the trigger value (log 34). -/
def stickyBytes (st : Option Sticky) : List Byte :=
  match st with
  | some x => toBytes 8 (1 + x.slot * 2 ^ 8 + x.idx * 2 ^ 16 + encode x.op * 2 ^ 32) ++ toBytes 216 x.tv.toNat
  | none => List.replicate 224 0

def words8 (l : List Nat) : List Byte := l.flatMap (fun w => toBytes 8 w)
def words4 (l : List Nat) : List Byte := l.flatMap (fun w => toBytes 4 w)

/-- The register part of R379's map: offset, size and bytes, in the order of the offsets. What the map leaves unplaced within a row
follows log 34. -/
def State.vfMap (s : State) (c : Nat) : List (Nat × Nat × List Byte) :=
  let k := s.core c
  let link (n : Nat) : List U64 := if n % 2 = 0 then s.outQueue c (n / 2) else s.inQueue c (n / 2)
  [(0x0, 512, words8 (k.g.map BitVec.toNat)),
    (0x200, 24, (List.range 24).map (fun i => if k.p.getLsbD i then 1 else 0)),
    (0x240, 64, words8 (k.q.map BitVec.toNat)),
    (0x280, 4, toBytes 4 k.lgl.toNat),
    (0x300, 128, words4 ((List.range 32).map (fun i => (k.cf.getD i 0).toNat + b2n (k.cfo.getLsbD i) * 65536))),
    (0x400, 128, words8 (k.ss.map BitVec.toNat)),
    (0x480, 112, words8 (k.recs.map (fun r => r.getD 0))),
    (0x500, 240, words8 ((List.range 30).map (fun i => ((s.srRead c i k).getD 0).toNat))),
    (0x600, 96, words8 [k.pc] ++ words8 ((List.range 8).map (fun i => k.rstack.getD i 0)) ++ toBytes 4 k.rstack.length
      ++ k.loops.map (fun l => BitVec.ofNat 8 (b2n l.active + 2 * (l.remaining % 128))) ++ words8 [k.drec.toNat]
      ++ toBytes 4 k.seq.toNat),
    (0x800, 2048, words8 (k.sres.map BitVec.toNat)
      ++ [k.vres.getD 0 0, k.vres.getD 1 0, k.vres.getD 2 0, k.vres.getD 3 0, k.vres.getD 4 0].flatMap (fun v => toBytes 256 v.toNat)
      ++ [k.stL, k.stX, k.stM].flatMap stickyBytes),
    (0x1000, 8192, k.v.flatMap (fun v => toBytes 256 v.toNat)),
    (0x3000, 4096, k.k.flatMap (fun v => toBytes 128 v.toNat)),
    (0x4000, 2048, k.b.flatMap (fun b => toBytes 8 b.val.toNat ++ toBytes 4 b.stp.toNat ++ words8 (b.ls.map BitVec.toNat) ++ toBytes 4 b.wrap.toNat
      ++ toBytes 8 b.org.toNat ++ List.replicate 40 0)),
    (0x4800, 64, words4 (k.fm.map BitVec.toNat)),
    (0x4840, 64, words4 (k.t.map (fun t => t.ptr.toNat + b2n t.ready * 32))),
    (0x5000, 64, words4 ((List.range 16).map (fun n => (link n).length))),
    (0x6000, 4096, toBytes 4096 k.arow.toNat),
    (0x7000, 512, words8 (k.rbq.map BitVec.toNat)),
    (0x7200, 4, toBytes 4 k.aptr.toNat),
    (0x8000, 131072, k.t.flatMap (fun t => t.rows.flatMap (fun r => toBytes 256 r.toNat))),
    (0x28000, 8192, (List.range 16).flatMap (fun n => words8 ((List.range 64).map (fun i => ((link n).getD i 0).toNat))))]

/-- A byte of a CIM macro: codes of the block that is resident there, else what the unit has held since, from zeros on (R373). -/
def State.vfMacro (s : State) (c m off : Nat) : Byte :=
  let u := off / 2048
  match (s.core c).blocks.find? (fun b => b.mac == m && decide (b.unit ≤ u) && decide (u < b.unit + unitsOf b.fmt)) with
  | some b => BitVec.ofNat 8 (b.codes.toNat >>> (8 * (off - 2048 * b.unit)))
  | none => BitVec.ofNat 8 ((Tbl.getD (s.core c).mac (64 * m + u) 0).toNat >>> (8 * (off % 2048)))

/-- A byte that the map does not place: the same in every readout of one freeze. -/
def State.vfFree (s : State) (c off : Nat) : Byte := Config.freeByte ((s.boot.frzKey * 2 ^ 12 + c) * 2 ^ 24 + off)

/-- One byte of the map of a core. Contents that the map does not place are unspecified. -/
def State.vfByte (s : State) (c off : Nat) : Byte :=
  if 0x400000 ≤ off then s.vfMacro c ((off - 0x400000) / 131072) ((off - 0x400000) % 131072)
  else if 0x100000 ≤ off then
    (if off - 0x100000 < s.scratchLen c then s.rd (scratchLoc c (off - 0x100000)) else s.vfFree c off)
  else
    match (s.vfMap c).find? (fun r => decide (r.1 ≤ off) && decide (off < r.1 + r.2.1)) with
    | some r => r.2.2.getD (off - r.1) 0
    | none => s.vfFree c off

/-- BSTAT (R380). -/
def Boot.bstat (b : Boot) : Nat := b.stage + b.err * 256

/-- VIEWFINDER_READ (R377 to R379): while the port is locked only BSTAT is answered, which `sel` [30] asks for (log 34); state reads are
all ones unless the package is frozen. -/
def State.vfRead (s : State) (sel off n : Nat) : State :=
  let bytes : List Byte :=
    if bitAt sel 30 then (toBytes 8 s.boot.bstat).take n
    else if !s.boot.unlocked then []
    else if !s.boot.frozen then List.replicate n 0xFF
    else if bitAt sel 31 then ((s.ctx (ctxKey (fld sel 6 6) (fld sel 5 0))).bytes.drop off).take n
    else (List.range n).map (fun i => s.vfByte (fld sel 11 0) (off + i))
  (s.modBoot (fun b => { b with vfOut := bytes })).tick1

end Sys2Proof.Machine
end

