-- ==== Sys2Proof/Machine/Host.lean ====
section
/-! DEFINITION. The host link (R353 to R357) and the management registers (R311, R337, R352, R371, R380) behind the mailbox. -/

set_option linter.unusedVariables false

namespace Sys2Proof.Machine

/-! ## Registers (R6, R356) -/

def coresOfDie (d : Nat) : Nat := if d = 0 then 2048 else 512

/-- The logical core of an index on a die. -/
def dieCore (d i : Nat) : Nat := 2048 * d + i

/-- Launches in ELIGIBLE or RESERVING of a die (R311). -/
def State.nelig (s : State) (d : Nat) : Nat :=
  (s.launches.filter (fun l => l.2.die == d && (l.2.state == .eligible || l.2.state == .reserving))).length

/-- Block 0 (R380). -/
def State.reg0 (s : State) (n : Nat) : Option Nat :=
  let b := s.boot
  match n with
  | 0 => some b.bstat
  | 1 => some 0
  | 2 => some (b.version + b.rollback.toNat * 2 ^ 32)
  | 3 => some (b.attnonce.getD 0 0).toNat
  | 4 => some (b.attnonce.getD 1 0).toNat
  | 5 => some (b.attnonce.getD 2 0).toNat
  | 6 => some (b.attnonce.getD 3 0).toNat
  | 7 => some b.attaddr
  | 8 => some 0
  | 9 => some (b2n b.attBusy + 2 * b2n b.attDone + 4 * b2n b.attOvr + 8 * b2n b.attErr)
  | 10 => some 0
  | 11 => some 0
  | 12 => some (b2n b.frozen)
  | 13 => some b.dbgnonce.toNat
  | 14 => some b.dbgdrop
  | _ => none

/-- Block 1 (R311). -/
def State.reg1 (s : State) (d n : Nat) : Option Nat :=
  let x := s.die d
  match n with
  | 0 => some x.ctxbase
  | 1 => some x.drainmax
  | 2 => some (b2n x.enable + s.nelig d * 2 ^ 16)
  | _ => none

/-- Block 2 (R337). -/
def State.reg2 (s : State) (d n : Nat) : Option Nat :=
  match n with
  | 0 => some s.expbase
  | 1 => some s.expn
  | 2 => some s.rwtbase
  | 3 => some (s.die d).mctlbase
  | 4 => some s.mirbase
  | 5 => some s.prqc
  | 6 => some (s.die d).logcnt
  | 7 => some s.pincnt
  | _ => none

/-- Block 3 (R352): PLIM and HLIM by group, FRZCNT by core. -/
def State.reg3 (s : State) (d n : Nat) : Option Nat :=
  let x := s.die d
  let g := groupsOf d
  let c := coresOfDie d
  match n with
  | 0 => some x.trapqbase
  | 1 => some x.trapqn
  | 2 => some x.trapqw
  | 3 => some x.trapqr
  | 4 => some x.trapctx
  | 5 => some x.trapev
  | 6 => some x.tqlost
  | m =>
    if m < 7 + g then some (x.plimOf (m - 7))
    else if m < 7 + 2 * g then some (x.hlimOf (m - 7 - g))
    else if m < 7 + 2 * g + c then some (s.core (dieCore d (m - 7 - 2 * g))).frzcnt
    else if m = 7 + 2 * g + c then some x.thrcnt
    else if m = 8 + 2 * g + c then some s.pdefcnt
    else none

/-- Block 4 (R371). -/
def State.reg4 (s : State) (n : Nat) : Option Nat :=
  if n = 0 then some s.pkgnum
  else if n = 1 then some s.framecnt
  else if n = 2 then some s.flat
  else if n = 3 then some s.slotbase
  else if n < 36 then some (b2n (s.port (n - 4)).en)
  else if n < 68 then some (b2n (s.port (n - 36)).lock + 2 * b2n (s.port (n - 36)).aligned)
  else if n < 100 then some (s.port (n - 68)).lnkerr
  else if n < 132 then some (s.port (n - 100)).lnkdrop
  else if n < 164 then some (s.port (n - 132)).planerr
  else if n < 228 then some (s.host.hwin.getD (n - 164) 0).toNat
  else if n < 292 then some (s.host.irqmap.getD (n - 228) 0).toNat
  else if n = 292 then some s.mbox.ntlost
  else if n = 293 then some s.peertab
  else none

/-- A register's value; none beyond its table. -/
def State.regRead (s : State) (block d n : Nat) : Option Nat :=
  match block with
  | 0 => s.reg0 n
  | 1 => s.reg1 d n
  | 2 => s.reg2 d n
  | 3 => s.reg3 d n
  | 4 => s.reg4 n
  | _ => none

/-- What a W1C field keeps. -/
def clr1 (old v : Nat) : Nat := old &&& ((2 ^ 64 - 1) ^^^ v)

/-- Writes of block 0: fields with effects act as their operations (R373 to R378). -/
def State.wreg0 (s : State) (n v : Nat) : State :=
  match n with
  | 1 => let s1 := if bitAt v 0 then s.goLinks else s; if bitAt v 1 then s1.fwcommit else s1
  | 3 => s.modBoot (fun b => { b with attnonce := b.attnonce.set 0 (u64 v) })
  | 4 => s.modBoot (fun b => { b with attnonce := b.attnonce.set 1 (u64 v) })
  | 5 => s.modBoot (fun b => { b with attnonce := b.attnonce.set 2 (u64 v) })
  | 6 => s.modBoot (fun b => { b with attnonce := b.attnonce.set 3 (u64 v) })
  | 7 => s.modBoot (fun b => { b with attaddr := fld v 51 0 })
  | 8 => if bitAt v 0 then s.attStart else s
  | 9 => s.modBoot (fun b => { b with attDone := b.attDone && !bitAt v 1, attOvr := b.attOvr && !bitAt v 2, attErr := b.attErr && !bitAt v 3 })
  | 10 => s.reattest (fld v 4 0)
  | 11 => if bitAt v 0 && bitAt v 1 then s else if bitAt v 0 then s.freezeRequest else if bitAt v 1 then s.debugResume else s
  | 14 => s.modBoot (fun b => { b with dbgdrop := clr1 b.dbgdrop (fld v 31 0) })
  | _ => s

def State.wreg1 (s : State) (d n v : Nat) : State :=
  match n with
  | 0 => s.modDie d (fun x => { x with ctxbase := fld v 51 0 })
  | 1 => s.modDie d (fun x => { x with drainmax := fld v 47 0 })
  | 2 => s.modDie d (fun x => { x with enable := bitAt v 0 })
  | _ => s

def State.wreg2 (s : State) (d n v : Nat) : State :=
  match n with
  | 0 => { s with expbase := fld v 51 0 }
  | 1 => { s with expn := fld v 15 0 }
  | 2 => { s with rwtbase := fld v 51 0 }
  | 3 => s.modDie d (fun x => { x with mctlbase := fld v 51 0 })
  | 4 => { s with mirbase := fld v 51 0 }
  | 6 => s.modDie d (fun x => { x with logcnt := clr1 x.logcnt (fld v 31 0) })
  | 7 => { s with pincnt := clr1 s.pincnt (fld v 31 0) }
  | _ => s

def State.wreg3 (s : State) (d n v : Nat) : State :=
  let g := groupsOf d
  let c := coresOfDie d
  match n with
  | 0 => s.modDie d (fun x => { x with trapqbase := fld v 51 0 })
  | 1 => s.modDie d (fun x => { x with trapqn := fld v 15 0 })
  | 3 => s.modDie d (fun x => { x with trapqr := fld v 31 0 })
  | 4 => s.modDie d (fun x => { x with trapctx := fld v 5 0 })
  | 5 => s.modDie d (fun x => { x with trapev := fld v 7 0 })
  | 6 => s.modDie d (fun x => { x with tqlost := clr1 x.tqlost (fld v 31 0) })
  | m =>
    if m < 7 then s
    else if m < 7 + g then s.modDie d (fun x => { x with plim := Tbl.put x.plim (m - 7) (fld v 19 0) })
    else if m < 7 + 2 * g then s.modDie d (fun x => { x with hlim := Tbl.put x.hlim (m - 7 - g) (fld v 19 0) })
    else if m < 7 + 2 * g + c then s.modCore (dieCore d (m - 7 - 2 * g)) (fun k => { k with frzcnt := clr1 k.frzcnt (fld v 47 0) })
    else if m = 7 + 2 * g + c then s.modDie d (fun x => { x with thrcnt := clr1 x.thrcnt (fld v 31 0) })
    else if m = 8 + 2 * g + c then { s with pdefcnt := clr1 s.pdefcnt (fld v 31 0) }
    else s

/-- LOAD (R361): a port's slot tables are loaded at the next frame boundary. -/
def State.loadPort (s : State) (p : Nat) : State := s.setPort p { s.port p with loadReq := true }

def State.wreg4 (s : State) (n v : Nat) : State :=
  if n = 0 then { s with pkgnum := fld v 11 0, pkgSet := true }
  else if n = 2 then { s with flat := fld v 7 0 }
  else if n = 3 then { s with slotbase := fld v 51 0 }
  else if 4 ≤ n ∧ n < 36 then
    let s1 := s.setPort (n - 4) { s.port (n - 4) with en := bitAt v 0 }
    if bitAt v 1 then s1.loadPort (n - 4) else s1
  else if 68 ≤ n ∧ n < 100 then let x := s.port (n - 68); s.setPort (n - 68) { x with lnkerr := clr1 x.lnkerr (fld v 31 0) }
  else if 100 ≤ n ∧ n < 132 then let x := s.port (n - 100); s.setPort (n - 100) { x with lnkdrop := clr1 x.lnkdrop (fld v 31 0) }
  else if 132 ≤ n ∧ n < 164 then let x := s.port (n - 132); s.setPort (n - 132) { x with planerr := clr1 x.planerr (fld v 31 0) }
  else if 164 ≤ n ∧ n < 228 then
    { s with host := { s.host with hwin := s.host.hwin.set (n - 164) (u64 (fld v 1 0 + fld v 51 32 * 2 ^ 32)) } }
  else if 228 ≤ n ∧ n < 292 then { s with host := { s.host with irqmap := s.host.irqmap.set (n - 228) (BitVec.ofNat 16 v) } }
  else if n = 292 then { s with mbox := { s.mbox with ntlost := clr1 s.mbox.ntlost (fld v 31 0) } }
  else if n = 293 then { s with peertab := fld v 51 0 }
  else s

/-- REGISTER_WRITE: a register takes a value under the access codes of its fields. -/
def State.regWrite (s : State) (block d n v : Nat) : State :=
  match block with
  | 0 => s.wreg0 n v
  | 1 => s.wreg1 d n v
  | 2 => s.wreg2 d n v
  | 3 => s.wreg3 d n v
  | 4 => s.wreg4 n v
  | _ => s

/-! ## The mailbox (R355) -/

/-- The command that the mailbox holds: OP, DIE, BLOCK, NUM, data. -/
def Mailbox.op (m : Mailbox) : Nat := fld (m.cmd.getD 0 0).toNat 7 0
def Mailbox.die (m : Mailbox) : Nat := fld (m.cmd.getD 0 0).toNat 8 8
def Mailbox.block (m : Mailbox) : Nat := fld (m.cmd.getD 0 0).toNat 11 9
def Mailbox.num (m : Mailbox) : Nat := fld (m.cmd.getD 0 0).toNat 27 12

/-- The command is served: status and data in RSP, its number in DONESEQ. -/
def State.rspDone (s : State) (status data : Nat) : State :=
  { s with mbox := { s.mbox with rsp := [u64 status, u64 data, 0, 0, 0, 0, 0, 0], doneseq := s.mbox.curseq, busy := false } }

/-- Before CORES the mailbox serves REGRD of block 0 only (R373). -/
def State.mboxOpen (s : State) : Bool := decide (2 ≤ s.boot.stage)

/-- REGRD, and any OP that is none. -/
def State.regrd (s : State) : State :=
  let m := s.mbox
  if !m.busy || m.op == 2 then s
  else if m.op ≠ 1 ∨ (!s.mboxOpen && m.block != 0) then s.rspDone 1 0
  else match s.regRead m.block m.die m.num with
    | some v => s.rspDone 0 v
    | none => s.rspDone 1 0

/-- REGWR. -/
def State.regwr (s : State) : State :=
  let m := s.mbox
  if !m.busy || m.op != 2 then s
  else if !s.mboxOpen || (s.regRead m.block m.die m.num).isNone then s.rspDone 1 0
  else (s.regWrite m.block m.die m.num (m.cmd.getD 1 0).toNat).rspDone 0 0

/-- A write to DOORBELL: taken, or dropped while a command is served. What is served is CMD as it stands now, which the host may then overwrite. -/
def State.doorbell (s : State) (v : Nat) : State :=
  let m := s.mbox
  if m.busy then { s with mbox := { m with ovr := true } }
  else
    let m1 : Mailbox := { m with busy := true, ovr := false, curseq := fld v 31 0, cmd := m.cmdReg }
    let s1 : State := { s with mbox := m1 }
    (s1.at_ (s.now + 1 + Config.latency s.fresh) (if m1.op = 2 then .regwr else .regrd)).tick1

/-- An 8-byte word of BAR2. -/
def State.bar2 (s : State) (o : Nat) : Nat :=
  let m := s.mbox
  if o = 0x8 then m.doneseq + b2n m.busy * 2 ^ 32 + b2n m.ovr * 2 ^ 33
  else if 0x40 ≤ o ∧ o < 0x80 then (m.cmdReg.getD ((o - 0x40) / 8) 0).toNat
  else if 0x80 ≤ o ∧ o < 0xC0 then (m.rsp.getD ((o - 0x80) / 8) 0).toNat
  else if o = 0x1000 then m.ntw
  else if o = 0x1008 then m.ntr
  else if 0x1040 ≤ o ∧ o < 0x1040 + 64 * 63 then ((Tbl.getD m.notices ((o - 0x1040) / 64) []).getD (o % 64 / 8) 0).toNat
  else 0

def State.bar2Write (s : State) (o v : Nat) : State :=
  let m := s.mbox
  if o = 0 then s.doorbell v
  else if 0x40 ≤ o ∧ o < 0x80 then { s with mbox := { m with cmdReg := m.cmdReg.set ((o - 0x40) / 8) (u64 v) } }
  else if o = 0x1008 then { s with mbox := { m with ntr := v } }
  else s

/-- Byte `i` of a word. -/
def byteAt (x i : Nat) : Byte := BitVec.ofNat 8 (x / 256 ^ i)

/-- A word of 8 bytes at `8 * w`, once the bytes written from `off` on have gone into it. -/
def mergeWord (old w off : Nat) (bs : List Byte) : Nat :=
  ofBytes ((List.range 8).map (fun i => if off ≤ 8 * w + i then bs.getD (8 * w + i - off) (byteAt old i) else byteAt old i))

/-- The words of 8 bytes that `n` bytes from `off` on lie in. -/
def wordsAt (off n : Nat) : List Nat := (List.range ((off % 8 + n + 7) / 8)).map (fun i => off / 8 + i)

/-- Bytes of BAR2 or BAR4, whose words `f` gives. -/
def wordBytes (f : Nat → Nat) (off n : Nat) : List Byte := (List.range n).map (fun i => byteAt (f ((off + i) / 8)) ((off + i) % 8))

/-- A host write to the mailbox, word by word; the DOORBELL is its first four bytes. -/
def State.mboxWrite (s : State) (off : Nat) (bs : List Byte) : State :=
  (wordsAt off bs.length).foldl (fun t w => if w = 0 then (if off = 0 then t.bar2Write 0 (ofBytes (bs.take 4)) else t)
    else t.bar2Write (8 * w) (mergeWord (t.bar2 (8 * w)) w off bs)) s

/-- A word of BAR4: the table of 64 vectors, and the pending bits after it. -/
def HostLink.bar4 (h : HostLink) (w : Nat) : Nat := if w < 128 then (h.msixTable.getD w 0).toNat else if w = 128 then h.msix.toNat else 0

def HostLink.bar4Write (h : HostLink) (off : Nat) (bs : List Byte) : HostLink :=
  ((wordsAt off bs.length).foldl (fun (g : HostLink) w => if w < 128 then { g with msixTable := g.msixTable.set w (u64 (mergeWord (g.bar4 w) w off bs)) } else g) h).unmask

/-! ## BAR0 (R354), with BAR2 and BAR4 above it -/

def bar2Base : Nat := 2 ^ 38
def bar4Base : Nat := 2 ^ 38 + 2 ^ 16

/-- The location of a BAR0 offset, and whether its window is in use and may be written. -/
def State.hostWindow (s : State) (off : Nat) : Option (Nat × Bool) :=
  let w := (s.host.hwin.getD (off / 2 ^ 32) 0).toNat
  if bitAt w 0 then some (fld w 51 32 * 2 ^ 32 + off % 2 ^ 32, bitAt w 1) else none

/-- An access that R345 or R354 calls a violation freezes the host path 0xFF. -/
def State.hostFreeze (s : State) : State := ({ s with host := { s.host with frozen := true } } : State).agentFreeze (2 * 2 ^ 14 + 255)

def State.hostDone (s : State) (bs : List Byte) : State := { s with host := { s.host with completion := bs } }

/-- BAR0 answers from CORES on (R373). -/
def State.bar0Open (s : State) : Bool := decide (2 ≤ s.boot.stage)

/-- A place that a host write may not reach. -/
def State.hostBad (s : State) (loc : Nat) : Bool :=
  match placeOf loc with
  | .hole => true
  | .carafe _ _ => true
  | .hbm => s.isParity loc
  | .tier2 => s.isParity loc
  | _ => false

/-- A scratch access during a debug freeze, or to a core without a task, reaches nothing. -/
def State.scratchShut (s : State) (loc : Nat) : Bool :=
  match placeOf loc with
  | .scratch id off => s.boot.frozen || !(s.core id).bound || decide (s.scratchLen id ≤ off)
  | _ => false

def State.countDrop (s : State) : State :=
  if s.boot.frozen then s.modBoot (fun b => { b with dbgdrop := sat32 (b.dbgdrop + 1) }) else s

/-- A host request acts at its home: a write, or a 64-bit FetchAdd (0), Swap (1) or CAS (2) whose completion holds the old value (R353). -/
def State.hostAct (s : State) (r : HostReq) : State :=
  match r.atom with
  | none => s.landWrite noCore r.loc r.bytes
  | some (op, a, b) =>
    let old := s.rdBytes r.loc 8
    let new : U64 := match op with
      | 0 => u64 (ofBytes old) + a
      | 1 => a
      | _ => if u64 (ofBytes old) = a then b else u64 (ofBytes old)
    (s.landWrite noCore r.loc (toBytes 8 new.toNat)).hostDone old

/-- A request that meets a region in REBUILD waits (R335), and those after it behind it. -/
def State.hostTake (s : State) (r : HostReq) : State :=
  if s.host.held.isEmpty && !s.inRebuild r.loc then s.hostAct r
  else { s with host := { s.host with held := s.host.held ++ [r] } }

/-- The requests that wait, up to the first that must go on waiting. -/
def State.hostCycle (s : State) : State :=
  s.host.held.foldl (fun t r =>
    match t.host.held with
    | q :: l => if q = r ∧ !t.inRebuild r.loc then State.hostAct { t with host := { t.host with held := l } } r else t
    | [] => t) s

/-- HOST_WRITE: a posted write at an offset of BAR0, BAR2 or BAR4; dropped while the path is frozen (R344). A write to a Mirror region in REBUILD
waits (R335). -/
def State.hostWr (s : State) (off : Nat) (bs : List Byte) : State :=
  if s.host.frozen then s
  else if bar4Base ≤ off then { s with host := s.host.bar4Write (off - bar4Base) bs }
  else if bar2Base ≤ off then s.mboxWrite (off - bar2Base) bs
  else if !s.bar0Open then s
  else
    match s.hostWindow off with
    | none => s.hostFreeze
    | some (loc, wr) =>
      if !wr || s.hostBad loc || s.hostBad (loc + (bs.length - 1)) then s.hostFreeze
      else if s.scratchShut loc then s.countDrop
      else s.hostTake { loc := loc, bytes := bs }

/-- HOST_READ: the completion holds the data, or all ones, as always while the path is frozen (R344). -/
def State.hostRd (s : State) (off n : Nat) : State :=
  let ones := List.replicate n (0xFF : Byte)
  if s.host.frozen then s.hostDone ones
  else if bar4Base ≤ off then s.hostDone (wordBytes (fun w => s.host.bar4 w) (off - bar4Base) n)
  else if bar2Base ≤ off then s.hostDone (wordBytes (fun w => s.bar2 (8 * w)) (off - bar2Base) n)
  else if !s.bar0Open then s.hostDone ones
  else
    match s.hostWindow off with
    | none => s.hostFreeze.hostDone ones
    | some (loc, _) =>
      match placeOf loc with
      | .hole => s.hostFreeze.hostDone ones
      | .carafe _ _ => s.hostDone ones
      | _ => if s.scratchShut loc then s.countDrop.hostDone ones else s.hostDone (s.rdBytes loc n)

/-- HOST_ATOMICOP (R353), of 64 bits at the home. -/
def State.hostAtomic (s : State) (off op : Nat) (a b : U64) : State :=
  let ones := List.replicate 8 (0xFF : Byte)
  if s.host.frozen || !s.bar0Open then s.hostDone ones
  else
    match s.hostWindow off with
    | none => s.hostFreeze.hostDone ones
    | some (loc, wr) =>
      if !wr || s.hostBad loc then s.hostFreeze.hostDone ones
      else if s.scratchShut loc then s.countDrop.hostDone ones
      else s.hostTake { loc := loc, bytes := [], atom := some (op, a, b) }

end Sys2Proof.Machine
end

