-- ==== Sys2Proof/Machine/Exec.lean ====
section
/-! DEFINITION. What the meanings share: an instruction as the one slot of a bundle that the core `cur` issues (R103), and the events
by which accesses and results of a core come about one at a time. -/

set_option linter.unusedVariables false

namespace Sys2Proof.Machine

abbrev Out := Host.Outcome State Fault Refusal

/-- The attempt to issue an instruction alone in a bundle on a core; a slot that is no instruction is the decode fault of its class
(R116). -/
def State.trySlot (s : State) (c : Nat) (i : Instr) : Try :=
  if i.wf then s.issue c (oneSlot i)
  else match s.decodeOn c (oneSlotBytes i) with
    | .error st => .stop st
    | .ok q => s.issue c q

/-- An instruction on the core `cur`: the issue of a bundle that holds it alone. A core that runs no task issues nothing. -/
def State.execSlot (s : State) (i : Instr) : Out :=
  match (s.core s.cur).status with
  | .run => .next (s.settle s.cur (s.trySlot s.cur i))
  | _ => .fault .noTask

/-! ## Single events of a core -/

/-- GLOBAL_ACCESS_RETURN (R107): a read performs and its value is on the way to its latch. -/
def State.accessReturn (s : State) (c id : Nat) : State :=
  match (s.core c).mops.find? (fun o => o.id == id) with
  | some o =>
    if !o.isRead then s
    else if o.fixed then (if s.performsNow c (s.clkTicks c) o then (s.performRead c o).modCore c Core.retireOps else s)
    else (s.advance c id).modCore c Core.retireOps
  | none => s

/-- STORE_PERFORMED_AT_HOME (R149): an access that writes performs. -/
def State.storeHome (s : State) (c id : Nat) : State :=
  match (s.core c).mops.find? (fun o => o.id == id) with
  | some o =>
    if !o.isWrite then s
    else if o.fixed then (if s.performsNow c (s.clkTicks c) o then s.performWrite c o else s) else s.advance c id
  | none => s

/-- SPEC_UNIT_RESULT (R291). -/
def State.specReturn (s : State) (c id : Nat) : State :=
  match (s.core c).sops.find? (fun o => o.id == id) with
  | some o => (s.specStep c o).modCore c (fun k => k.retireSpec k.sops.length)
  | none => s

def isSync (i : Instr) : Bool := unitOf i == .sync

/-- A wait is tried again: the held slot or the bundle of a core that holds such a slot. -/
def State.recheck (s : State) (c : Nat) (p : Instr → Bool) : State :=
  if (s.core c).held.any (fun h => p h.op) then s.heldTurn c
  else match (s.fetchBundle c).2 with
    | .ok q => if q.slots.any (fun b => p b.i) then s.bundleTurn c else s
    | .error _ => s

/-- CACHE_EVICTION (R146 to R150): 0 a line of a core's L1, 1 of its quad store buffer, 2 of a die's RDC. -/
def State.evict (s : State) (kind owner line : Nat) : State :=
  match kind with
  | 0 => s.l1Evict owner line
  | 1 => s.qsbFlush owner line
  | 2 => s.rdcEvict owner line
  | _ => s

/-! ## The end of a cycle -/

/-- An event of an engine, of the bridge or of the cores' barriers, whose clocks a debug freeze stops (R346). -/
def stopsFrozen (i : Instr) : Bool :=
  match i with
  | .pageMove _ _ => true
  | .kvStreamHold _ _ => true
  | .kvsTileReady _ _ _ => true
  | .streamHoldFall _ _ => true
  | .enqClaim _ _ => true
  | .bridgeDelivery _ _ => true
  | .carafeStore _ _ _ => true
  | .barrierRelease _ _ _ _ _ => true
  | _ => false

/-- A cycle of a debug freeze: what the stopped clocks count comes one cycle later. -/
def State.holdEvents (s : State) : State :=
  (s.agenda.filter (fun e => stopsFrozen e.2)).foldl (fun t e => t.at_ (e.1 + 1) e.2)
    { s with agenda := s.agenda.filter (fun e => !stopsFrozen e.2), bridge := s.bridge.map (fun m => { m with due := m.due + 1 }) }

/-- The end of a package cycle: cores, links, dispatchers, the next cycle. A debug freeze stops the clocks of cores, engines and bridge (R346). -/
def State.cycleEnd (s : State) : State :=
  let s1 := if s.boot.frozen then s.holdEvents else s.gangEnds.coresEnd
  let s2 := s1.linkCycle.hostCycle.dispatch
  let s3 : State := { s2 with now := s2.now + 1, sensed := false }
  if s.boot.frozen then s3.lateEvents else s3.pairFreezes

/-- The next core whose turn it is in this cycle, in core-id order. -/
def State.nextCore (s : State) : Option Nat := (List.find? (fun q => q.2.status == .run && !q.2.turn) s.cores).map (fun q => q.1)

end Sys2Proof.Machine
end

