-- ==== Sys2Proof/Machine/EventBoot.lean ====
section
/-! DEFINITION. Events of bring-up, attestation and debug (R346, R373 to R379). -/

set_option linter.unusedVariables false

namespace Sys2Proof.Machine

/-- COLD_START (R373). Power-on enters SAFE and Roaster verifies the firmware image. -/
def execColdStart (image : List Byte) (s : State) : Out := .next (s.coldStart image)

/-- STAGE_MEMORY (R373). Memory training and zeroing, and identity derivation, after the firmware is accepted. -/
def execStageMemory (ok : Bool) (s : State) : Out := .next (s.stageMemory ok)

/-- STAGE_CORES (R373). Core self-test and the fuse map, once memory is ready. -/
def execStageCores (ok : Bool) (s : State) : Out := .next (s.stageCores ok)

/-- GO (R373). BCTL.GO moves the package from CORES to LINKS, or sets GOEARLY. -/
def execGo (s : State) : Out := .next s.goLinks

/-- STAGE_FULL (R373). Normal operation once every enabled port is attested or locked. -/
def execStageFull (s : State) : Out := .next s.stageFull

/-- FWCOMMIT (R374). BCTL.FWCOMMIT raises ROLLBACK to the running VERSION. -/
def execFwcommit (s : State) : Out := .next s.fwcommit

/-- START (R375). ATTCTL.START asks Roaster for an attestation report. -/
def execStart (s : State) : Out := .next s.attStart

/-- ATTESTATION_REPORT (R375). Roaster writes the signed report and sets ATTSTAT.DONE. -/
def execAttestationReport (s : State) : Out := .next s.attReport

/-- REATT (R376). Attests a port again. -/
def execReatt (port : Nat) (s : State) : Out := .next (s.reattest port)

/-- PORT_ATTESTATION (R376). Package and switch exchange reports, encapsulate a secret and derive link keys. -/
def execPortAttestation (port : Nat) (peer : PeerAnswer) (secret : BitVec 256) (nonces : BitVec 512) (s : State) : Out :=
  .next (s.portAttest port peer.ok peer.report secret nonces)

/-- FREEZE (R378). DBGCTL.FREEZE requests a debug freeze. -/
def execFreeze (s : State) : Out := .next s.freezeRequest

/-- RESUME (R378). DBGCTL.RESUME restarts every stopped clock on one cycle. -/
def execResume (s : State) : Out := .next s.debugResume

/-- DEBUG_FREEZE (R346). Stops every core, engine, macro and bridge clock of both dies within 3 cycles. -/
def execDebugFreeze (s : State) : Out := .next s.debugStop

/-- VIEWFINDER_UNLOCK (R377). A signature over serial and DBGNONCE unlocks the debug port. -/
def execViewfinderUnlock (sig : List Byte) (s : State) : Out := .next (s.vfUnlock sig)

/-- VIEWFINDER_FREEZE (R378). The Viewfinder FREEZE instruction requests a debug freeze. -/
def execViewfinderFreeze (s : State) : Out := .next s.vfFreeze

/-- VIEWFINDER_READ (R379). Reads the state of one logical core while the package is frozen. -/
def execViewfinderRead (sel : Nat) (off : Nat) (n : Nat) (s : State) : Out := .next (s.vfRead sel off n)

/-- IDCODE (R377). Returns the test access port identity. -/
def execIdcode (s : State) : Out := .next s.vfIdcode

end Sys2Proof.Machine
end

