-- ==== Sys2Proof/Machine/EventCore.lean ====
section
/-! DEFINITION. Events of a core: issues, results, accesses and engine commands as they come about in time (R36, R98, R103 to R107, R149, R150, R174, R224, R227, R235, R238 to R246, R252, R263, R282, R291, R341). -/

set_option linter.unusedVariables false

namespace Sys2Proof.Machine

/-- BUNDLE_ISSUE (R103). One issue of a bundle: every slot reads its guard and source, operand moves are applied, triggered units sample their latches, and register writes land at the end of the cycle. -/
def execBundleIssue (core : Nat) (s : State) : Out := .next (({ s with cur := core } : State).bundleTurn core)

/-- HELD_SLOT_ISSUE (R36). In TAGGED mode a held slot issues in the first cycle after its ready tag, owner bit or result becomes available. -/
def execHeldSlotIssue (core : Nat) (s : State) : Out := .next (s.heldTurn core)

/-- TRAP_ENTRY_DEFERRED_WRITE (R341). A stop that found the trap queue full has its entry written once room appears. -/
def execTrapEntryDeferredWrite (core : Nat) (s : State) : Out := .next (s.trapDeferred core)

/-- RESULT_LATCH_WRITE (R106). An operation triggered at cycle t writes its result latch at the end of cycle t + L - 1. -/
def execResultLatchWrite (core : Nat) (s : State) : Out := .next (if s.clkTicks core then s.modCore core Core.landDue else s)

/-- GLOBAL_ACCESS_RETURN (R107). A global load, atomic, LDACQ or XLD returns its value into its result latch in issue order after a variable latency. -/
def execGlobalAccessReturn (core : Nat) (id : Nat) (s : State) : Out := .next (s.accessReturn core id)

/-- STORE_PERFORMED_AT_HOME (R149). A global or remote store, STREL or protected store reaches its home and is acknowledged to the issuing core after a variable latency. -/
def execStorePerformedAtHome (core : Nat) (id : Nat) (s : State) : Out := .next (s.storeHome core id)

/-- SPEC_UNIT_RESULT (R291). An lp, bq or ps operation writes its result latch after a variable latency, once its block writes have performed. -/
def execSpecUnitResult (core : Nat) (id : Nat) (s : State) : Out := .next (s.specReturn core id)

/-- WAITA_RECHECK (R174). A sleeping WAITA rereads its word at its home when its line is written, and at least every 1,024 cycles. -/
def execWaitaRecheck (core : Nat) (s : State) : Out := .next (s.recheck core isWaita)

/-- MMA_RESULT_WRITE (R227). The MMA accumulator tile is written, all 32 rows at once, at the end of cycle t + 8P + 5. -/
def execMmaResultWrite (core : Nat) (s : State) : Out := .next (if s.clkTicks core then s.modCore core (fun k => k.landMma (fun f => !f.quad)) else s)

/-- MMAQ_RESULT_WRITE (R228). The MMAQ quad sum is written into every member's accumulator at the end of cycle t + 8P + 29. -/
def execMmaqResultWrite (core : Nat) (s : State) : Out := .next (if s.clkTicks core then s.modCore core (fun k => k.landMma (fun f => f.quad)) else s)

/-- WLD_COMPLETE (R224). A weight block becomes usable LW cycles after a scratch WLD, or after the last byte of a global WLD. -/
def execWldComplete (core : Nat) (s : State) : Out := .next (if (s.core core).frz then s else s.modCore core (fun k => k.landWld (s.clkTicks core)))

/-- COMMAND_BLOCK_READ (R238). At a + 4 the command block is read and checked, and the named tiles flip to ENGINE. -/
def execCommandBlockRead (core : Nat) (seq : Nat) (s : State) : Out := .next (s.blockRead core seq)

/-- COMMAND_START (R246). A command starts in lane L or lane G once its lane and ORD allow. -/
def execCommandStart (core : Nat) (seq : Nat) (s : State) : Out := .next (s.startCmd core seq)

/-- COMMAND_COMPLETE (R242). At completion the payload performs, the owner bits return, and the notification and completion word act. -/
def execCommandComplete (core : Nat) (seq : Nat) (s : State) : Out := .next (s.finishCmd core seq)

/-- CPYM_FOLLOW_ON (R235). The follow-on WLD or MMA of a CPYM issues in the first cycle free of a thread trigger and of conflicts. -/
def execCpymFollowOn (core : Nat) (seq : Nat) (s : State) : Out := .next (s.followOn core seq)

/-- ENQ_CLAIM (R263). A sleeping ENQ claims its slots once queue room appears. -/
def execEnqClaim (core : Nat) (seq : Nat) (s : State) : Out := .next (s.enqTry core seq)

/-- KV_STREAM_HOLD (R282). A KVS raises a block's HOLD, waiting when it stands at 255. -/
def execKvStreamHold (core : Nat) (seq : Nat) (s : State) : Out := .next (s.kvsHold core seq)

/-- KVS_TILE_READY (R252). A KVS writes the last row of one of its tiles and sets that tile's ready tag before the command completes. -/
def execKvsTileReady (core : Nat) (seq : Nat) (tile : Nat) (s : State) : Out := .next (s.kvsReady core seq tile)

/-- STREAM_HOLD_FALL (R282). After a KVS has read its last row from a block it lowers HOLD as its own pool operation, freeing a DEFERRED block when HOLD reaches 0. -/
def execStreamHoldFall (core : Nat) (seq : Nat) (s : State) : Out := .next (s.kvsFall core seq)

/-- SYNC_WAIT_SATISFIED (R265). A waiting sync slot's bundle issues in the first cycle in which its wait holds. -/
def execSyncWaitSatisfied (core : Nat) (s : State) : Out := .next (s.recheck core isSync)

/-- FLAG_POST_ARRIVAL (R266). A post lands on the target core's counting flag at issue + Dp, saturating. -/
def execFlagPostArrival (core : Nat) (flag : Nat) (n : Nat) (s : State) : Out := .next (s.postLand none core flag n)

/-- EVENT_BIT_WRITE (R267). SETE and CLRE take effect on EV at issue + 2 in core-id order. -/
def execEventBitWrite (die : Nat) (ctx : Nat) (bit : Nat) (set : Bool) (s : State) : Out := .next (s.eventWrite (ctxKey die ctx) bit set)

/-- BARRIER_RELEASE (R269). After the last arrival, every participant's barrier bundle issues Db cycles later. -/
def execBarrierRelease (launch : Nat) (die : Nat) (group : Nat) (quad : Nat) (idx : Nat) (s : State) : Out := .next (s.barRelease launch die group quad idx)

/-- LINK_FIFO_WAIT (R98). An issue that pops an empty FIFO or pushes a full one waits until it can proceed. -/
def execLinkFifoWait (core : Nat) (s : State) : Out := .next (s.recheck core linkSlot)

/-- CACHE_EVICTION (R150). An L1, quad store buffer or RDC entry is evicted and its dirty bytes move on toward the home. -/
def execCacheEviction (kind : Nat) (owner : Nat) (line : Nat) (s : State) : Out := .next (s.evict kind owner line)

/-- POWER_WINDOW_CHECK (R348). Each cycle a core sums its weights over 64 cycles and freezes its next cycle if the sum exceeds PLIM. -/
def execPowerWindowCheck (core : Nat) (s : State) : Out := .next (s.windowCheck core)

/-- GANG_FREEZE_PROPAGATE (R349). A freeze raised in a co-timetabled pair takes effect on both dies at logical cycle c + 41. -/
def execGangFreezePropagate (launch : Nat) (s : State) : Out := .next (s.gangFreeze launch)

/-- PAGE_MOVE (R326). One page of a MIGR is pinned-checked, frozen, copied and landed at its new home. -/
def execPageMove (core : Nat) (seq : Nat) (s : State) : Out := .next (s.pageStep core seq)

end Sys2Proof.Machine
end

