-- ==== Sys2Proof/Machine/EventLink.lean ====
section
/-! DEFINITION. Events of the links and of the host (R350, R353 to R372). -/

set_option linter.unusedVariables false

namespace Sys2Proof.Machine

/-- FABRIC_FRAME_FREEZE (R350). A pending fabric freeze freezes every timetabled core of the partition for one whole frame. -/
def execFabricFrameFreeze (s : State) : Out := .next s.frameFreezeNow

/-- SLOT_DEPARTURE (R359). In each 2-cycle slot, a flit departs on every port by the slot tables. -/
def execSlotDeparture (port : Nat) (s : State) : Out := .next (s.depart port)

/-- FRAME_BOUNDARY (R361). At a frame boundary, loaded slot tables take effect and pending freezes apply. -/
def execFrameBoundary (s : State) : Out := .next (if s.framePos = 0 then s.frameBoundary else s)

/-- SCHED_FLIT_RECEIVE (R362). An arriving SCHED flit is checked against the RX table and its words join the inbound queue. -/
def execSchedFlitReceive (port : Nat) (flit : Flit) (s : State) : Out := .next (s.schedArrive port flit)

/-- MEM_FLIT_RECEIVE (R364). An arriving MEM flit is performed in pair sequence order, or is bounced back. -/
def execMemFlitReceive (port : Nat) (flit : Flit) (s : State) : Out := .next (s.memArrive port flit)

/-- BOUNCE_RECEIVE (R363). A bounced flit returns to its sender, which sends it again before later flits of the pair. -/
def execBounceReceive (port : Nat) (flit : Flit) (s : State) : Out := .next (s.bounced port flit)

/-- REDUCTION_INPUT (R369). The switch accepts a RED-IN contribution before its deadline, or discards a late one. -/
def execReductionInput (plane : Nat) (port : Nat) (flit : Flit) (s : State) : Out := .next (s.redIn plane port flit)

/-- REDUCTION_DEADLINE (R369). At the deadline slot the switch sums the present ranks and emits RED-OUT. -/
def execReductionDeadline (plane : Nat) (group : Nat) (s : State) : Out := .next (s.redOut plane group)

/-- SWITCH_TABLE_LOAD (R368). A switch table load takes effect at a frame boundary, or is refused. -/
def execSwitchTableLoad (plane : Nat) (table : SwitchTable) (s : State) : Out := .next (s.loadSwitch plane table)

/-- SCALEOUT_MEM (R372). MEM traffic travels over Ultra Ethernet to a package outside the domain. -/
def execScaleoutMem (peer : Nat) (flit : Flit) (s : State) : Out := .next (s.scaleout peer flit)

/-- LINK_FRAMING_ALIGNED (R373). A scale-up port gains framing alignment with the domain's reference, setting ALIGNED and starting its frame counting, so that attestation can begin. -/
def execLinkFramingAligned (port : Nat) (s : State) : Out := .next (s.align port)

/-- LOAD (R361). PORTCTL.LOAD loads a port's slot tables at the next frame boundary. -/
def execLoad (port : Nat) (s : State) : Out := .next (s.loadPort port)

/-- HOST_WRITE (R354). A host write through BAR0 performs at its home, or freezes the host path. -/
def execHostWrite (off : Nat) (bytes : List Byte) (s : State) : Out := .next (s.hostWr off bytes)

/-- HOST_READ (R354). A host read through BAR0 returns data, or all ones. -/
def execHostRead (off : Nat) (n : Nat) (s : State) : Out := .next (s.hostRd off n)

/-- HOST_ATOMICOP (R353). The device completes a host AtomicOp that targets BAR0. -/
def execHostAtomicop (off : Nat) (op : Nat) (a : U64) (b : U64) (s : State) : Out := .next (s.hostAtomic off op a b)

/-- REGRD (R355). Mailbox command that reads a register into RSP. -/
def execRegrd (s : State) : Out := .next s.regrd

/-- REGWR (R355). Mailbox command that writes a register. -/
def execRegwr (s : State) : Out := .next s.regwr

/-- REGISTER_WRITE (R6). A write to a register with no behaviour of its own, under its access codes. -/
def execRegisterWrite (block : Nat) (die : Nat) (num : Nat) (val : U64) (s : State) : Out := .next (s.regWrite block die num val.toNat)

end Sys2Proof.Machine
end

