-- ==== Sys2Proof/Machine/EventSched.lean ====
section
/-! DEFINITION. Events of the dispatcher (R26, R27, R33, R40, R42, R47, R301 to R314). -/

set_option linter.unusedVariables false

namespace Sys2Proof.Machine

/-- LAUNCH_PACKET (R307). The dispatcher takes a two-slot LAUNCH packet whose ticket matches RIDX and enqueues the launch. -/
def execLaunchPacket (die : Nat) (queue : Nat) (s : State) : Out := .next (s.takeLaunch die queue)

/-- NOP_PACKET (R306). The dispatcher takes a NOP packet and advances RIDX. -/
def execNopPacket (die : Nat) (queue : Nat) (s : State) : Out := .next (s.takeNop die queue)

/-- RESERVED_PACKET (R306). A packet of reserved TYPE is skipped and QERR counts it. -/
def execReservedPacket (die : Nat) (queue : Nat) (s : State) : Out := .next (s.takeReserved die queue)

/-- LAUNCH_ELIGIBLE (R26). A launch becomes eligible the first time all its WAIT bits are set. -/
def execLaunchEligible (launch : Nat) (s : State) : Out := .next (s.eligible launch)

/-- TASK_BIND (R33). A TAGGED task binds to a freed logical core in ascending tile index. -/
def execTaskBind (launch : Nat) (core : Nat) (s : State) : Out := .next (s.bindTask launch core)

/-- GANG_START (R308). A reserving gang starts on one logical cycle once all its cores, and its partner's, are held. -/
def execGangStart (launch : Nat) (s : State) : Out := .next (s.gangStart launch)

/-- LAUNCH_COMPLETE (R27). When every task has ended, accesses perform, SET is ORed into EV and the completion word is written. -/
def execLaunchComplete (launch : Nat) (s : State) : Out := .next (s.launchEnd launch)

/-- PREEMPTION_DECISION (R310). A first-in-order launch that cannot start chooses DRAIN, CHECKPOINT, KILL or wait for its victims, and pays tokens. -/
def execPreemptionDecision (die : Nat) (s : State) : Out := .next (s.preempt die)

/-- CHECKPOINT_SAVE (R314). A victim's tasks stop, fence, write their save images and report to PRWADDR. -/
def execCheckpointSave (launch : Nat) (s : State) : Out := .next (s.checkpoint launch)

/-- LAUNCH_RESTORE (R40). A saved launch is restored, replaying WLDs and performing an implicit LDACQ. -/
def execLaunchRestore (launch : Nat) (s : State) : Out := .next (s.restore launch)

/-- KILL (R42). Ends every task of a launch, discards its pending work and completes it KILLED. -/
def execKill (launch : Nat) (s : State) : Out := .next (s.kill launch)

/-- SLICE_END (R313). A sliced launch reaching its slice, with an equal-class launch waiting, is pre-empted at no cost. -/
def execSliceEnd (launch : Nat) (s : State) : Out := .next (s.sliceEnd launch)

/-- CLASS_AGING (R309). A waiting launch's effective class rises by 1 for every 2^24 cycles it waits. -/
def execClassAging (launch : Nat) (s : State) : Out := .next (s.age launch)

/-- TOKEN_REFILL (R301). TOKRATE tokens are added at each multiple of 2^20 cycles, up to TOKMAX. -/
def execTokenRefill (die : Nat) (s : State) : Out := .next (if s.now % 2 ^ 20 = 0 then s.refill die else s)

/-- LAUNCH_OVERDUE (R47). A launch whose run count passes EST becomes overdue and its context's counter rises. -/
def execLaunchOverdue (launch : Nat) (s : State) : Out := .next (s.overdueCheck launch)

/-- HALTED_CORE_RETURN (R303). The management core returns a physical core that left dispatch through HALT. -/
def execHaltedCoreReturn (core : Nat) (s : State) : Out := .next (s.returnCore core)

end Sys2Proof.Machine
end

