-- ==== Sys2Proof/Machine/EventSpec.lean ====
section
/-! DEFINITION. Events of the speculation complex, of Prism and of Mirror (R12, R15, R165, R260, R274, R285, R286, R293, R332, R335). -/

set_option linter.unusedVariables false

namespace Sys2Proof.Machine

/-- CARAFE_STORE (R274). An Eplia store lands in a Carafe slot, and the record is taken or discarded once 32 bytes have arrived. -/
def execCarafeStore (slot : Nat) (off : Nat) (bytes : List Byte) (s : State) : Out := .next (s.carafeArrive slot off bytes)

/-- CARAFE_INTERLOCK_RELEASE (R15). A store interlocked on an occupied slot lands once the slot frees. -/
def execCarafeInterlockRelease (slot : Nat) (s : State) : Out := .next (s.carafeRelease slot)

/-- LOUPE_ADMISSION (R286). Once the tree is complete, Loupe sizes and reserves KV blocks under the pool policy. -/
def execLoupeAdmission (lseq : Nat) (s : State) : Out := .next (s.admission lseq)

/-- LOUPE_COMMIT (R285). After FIN, Loupe runs the acceptance and commits the step's pool, TOKBUF, LEN and DPOS changes whole. -/
def execLoupeCommit (lseq : Nat) (s : State) : Out := .next (s.commit lseq)

/-- BARISTA_REQUEST_SERVE (R293). The Barista core answers a request, releases, and sets its token-ready flag. -/
def execBaristaRequestServe (slot : Nat) (reply : BitVec 512) (token : BitVec 24) (s : State) : Out := .next (s.bqServe slot reply token.toNat)

/-- BRIDGE_DELIVERY (R12). A bridge transfer arrives 40 cycles after it leaves, in order per source and destination pair. -/
def execBridgeDelivery (src : Nat) (dst : Nat) (s : State) : Out := .next (s.bridgeArrive src dst)

/-- PRISM_READ_AT_OWNER (R332). The owner checks rights and translation and streams the read. -/
def execPrismReadAtOwner (req : Nat) (s : State) : Out := .next (s.prismRead req)

/-- PRISM_DEPOSIT (R165). Data arrives at the recipient's window and is deposited, followed by C's completion release. -/
def execPrismDeposit (req : Nat) (s : State) : Out := .next (s.prismLand req)

/-- PRISM_ACCEPTED (R260). The issuer receives the owner's acceptance or refusal. -/
def execPrismAccepted (req : Nat) (status : Nat) (s : State) : Out := .next (s.prismAnswer req status)

/-- PRISM_FAULT_RETURN (R260). A later-page translation fault at O, or C's refusal of the deposit, returns to A and sets A's D record. -/
def execPrismFaultReturn (req : Nat) (status : Nat) (s : State) : Out := .next (s.prismFault req status)

/-- MIRROR_DELTA_APPLY (R335). A parity package applies a delta to its parity line and acknowledges. -/
def execMirrorDeltaApply (region : Nat) (line : Nat) (shard : Nat) (delta : BitVec 512) (s : State) : Out := .next (s.deltaApply region line shard delta)

/-- MIRROR_DELTA_ACK (R335). A data home receives the acknowledgement of a parity delta. -/
def execMirrorDeltaAck (id : Nat) (pkg : Nat) (s : State) : Out := .next (s.deltaAck id pkg)

end Sys2Proof.Machine
end

