-- ==== Sys2Proof/Machine/ExecControl.lean ====
section
/-! DEFINITION. Meanings of the address unit au and the control unit c (R130 to R144). -/

set_option linter.unusedVariables false

namespace Sys2Proof.Machine

/-- SETB (R129). Sets VAL of a base register, with no wrapping. -/
def execSetb (src : BitVec 9) (b : BitVec 4) (grd : BitVec 6) (s : State) : Out := s.execSlot (.setb src b grd)

/-- ADDB (R129). Moves VAL of a base register by a signed amount, with wrapping. -/
def execAddb (src : BitVec 9) (b : BitVec 4) (grd : BitVec 6) (s : State) : Out := s.execSlot (.addb src b grd)

/-- SETI (R129). Sets the inner step of a base register. -/
def execSeti (src : BitVec 9) (b : BitVec 4) (grd : BitVec 6) (s : State) : Out := s.execSlot (.seti src b grd)

/-- SETLS (R129). Sets the loop-level stride that au.o selects. -/
def execSetls (src : BitVec 9) (b : BitVec 4) (grd : BitVec 6) (s : State) : Out := s.execSlot (.setls src b grd)

/-- SETWRAP (R129). Sets the wrap length and, when it is nonzero, the wrap origin. -/
def execSetwrap (src : BitVec 9) (b : BitVec 4) (grd : BitVec 6) (s : State) : Out := s.execSlot (.setwrap src b grd)

/-- RDB (R129). Reads a field of a base register into au.r. -/
def execRdb (src : BitVec 9) (b : BitVec 4) (grd : BitVec 6) (s : State) : Out := s.execSlot (.rdb src b grd)

/-- SETTRP (R129). Sets the row pointer of a tile register. -/
def execSettrp (src : BitVec 9) (t : BitVec 4) (grd : BitVec 6) (s : State) : Out := s.execSlot (.settrp src t grd)

/-- RSTB (R129). Sets both VAL and ORG of a base register. -/
def execRstb (src : BitVec 9) (b : BitVec 4) (grd : BitVec 6) (s : State) : Out := s.execSlot (.rstb src b grd)

/-- JMP (R133). Jumps to CB + t after one delay bundle. -/
def execJmp (src : BitVec 9) (grd : BitVec 6) (s : State) : Out := s.execSlot (.jmp src grd)

/-- JMPR (R133). Jumps to a virtual address after one delay bundle. -/
def execJmpr (src : BitVec 9) (grd : BitVec 6) (s : State) : Out := s.execSlot (.jmpr src grd)

/-- CALL (R135). Pushes the return address and jumps to CB + t after one delay bundle. -/
def execCall (src : BitVec 9) (grd : BitVec 6) (s : State) : Out := s.execSlot (.call src grd)

/-- RET (R135). Pops the return stack and jumps to the entry. -/
def execRet (src : BitVec 9) (grd : BitVec 6) (s : State) : Out := s.execSlot (.ret src grd)

/-- EXIT (R138). Ends the tile task after its bundle has issued. -/
def execExit (src : BitVec 9) (grd : BitVec 6) (s : State) : Out := s.execSlot (.exit src grd)

/-- TRAP (R139). Raises a software trap with a trap code. -/
def execTrap (src : BitVec 9) (grd : BitVec 6) (s : State) : Out := s.execSlot (.trap src grd)

/-- TFENCE (R140). Waits for arithmetic operations in flight, then traps if any sticky record is set. -/
def execTfence (src : BitVec 9) (grd : BitVec 6) (s : State) : Out := s.execSlot (.tfence src grd)

/-- YIELDP (R41). A yield point where a pending checkpoint is taken; writes c.r to 1 at the first YIELDP after a restore. -/
def execYieldp (src : BitVec 9) (grd : BitVec 6) (s : State) : Out := s.execSlot (.yieldp src grd)

/-- BRK (R139). Requests a debug freeze when the context's DEBUG attribute is set. -/
def execBrk (src : BitVec 9) (grd : BitVec 6) (s : State) : Out := s.execSlot (.brk src grd)

/-- PHASE (R142). Switches local SRAM to another memory-plan phase, draining L1 first. -/
def execPhase (src : BitVec 9) (grd : BitVec 6) (s : State) : Out := s.execSlot (.phase src grd)

/-- RDSR (R143). Reads a task status register into c.r. -/
def execRdsr (src : BitVec 9) (grd : BitVec 6) (s : State) : Out := s.execSlot (.rdsr src grd)

/-- WRSR (R143). Writes c.o to a task status register. -/
def execWrsr (src : BitVec 9) (grd : BitVec 6) (s : State) : Out := s.execSlot (.wrsr src grd)

/-- CLRSTK (R135). Empties the return stack. -/
def execClrstk (src : BitVec 9) (grd : BitVec 6) (s : State) : Out := s.execSlot (.clrstk src grd)

/-- IDLE (R113). Clears the sticky state of the unit named in c.o after its bundle. -/
def execIdle (src : BitVec 9) (grd : BitVec 6) (s : State) : Out := s.execSlot (.idle src grd)

/-- LOOP (R136). Opens a hardware loop at a level, with a body end and a trip count. -/
def execLoop (src : BitVec 9) (l : BitVec 3) (grd : BitVec 6) (s : State) : Out := s.execSlot (.loop src l grd)

end Sys2Proof.Machine
end

