-- ==== Sys2Proof/Machine/ExecConvert.lean ====
section
/-! DEFINITION. Meanings of the converter x (R208 to R214). -/

set_option linter.unusedVariables false

namespace Sys2Proof.Machine

/-- XQ (R210). Quantizes a chunk to a narrow format. -/
def execXq (src : BitVec 9) (f : BitVec 4) (grd : BitVec 6) (s : State) : Out := s.execSlot (.xq src f grd)

/-- XQS (R210). Quantizes with stochastic rounding. -/
def execXqs (src : BitVec 9) (f : BitVec 4) (grd : BitVec 6) (s : State) : Out := s.execSlot (.xqs src f grd)

/-- XDQ (R210). Dequantizes a chunk to FP32. -/
def execXdq (src : BitVec 9) (f : BitVec 4) (grd : BitVec 6) (s : State) : Out := s.execSlot (.xdq src f grd)

/-- XSC (R211). Computes block scales. -/
def execXsc (src : BitVec 9) (f : BitVec 4) (grd : BitVec 6) (s : State) : Out := s.execSlot (.xsc src f grd)

/-- XF2BF (R212). Converts FP32 to BF16. -/
def execXf2bf (src : BitVec 9) (grd : BitVec 6) (s : State) : Out := s.execSlot (.xf2bf src grd)

/-- XBF2F (R212). Converts BF16 to FP32. -/
def execXbf2f (src : BitVec 9) (grd : BitVec 6) (s : State) : Out := s.execSlot (.xbf2f src grd)

/-- XF2H (R212). Converts FP32 to FP16. -/
def execXf2h (src : BitVec 9) (grd : BitVec 6) (s : State) : Out := s.execSlot (.xf2h src grd)

/-- XH2F (R212). Converts FP16 to FP32. -/
def execXh2f (src : BitVec 9) (grd : BitVec 6) (s : State) : Out := s.execSlot (.xh2f src grd)

/-- XF2I (R212). Converts FP32 to I32. -/
def execXf2i (src : BitVec 9) (grd : BitVec 6) (s : State) : Out := s.execSlot (.xf2i src grd)

/-- XI2F (R212). Converts I32 to FP32. -/
def execXi2f (src : BitVec 9) (grd : BitVec 6) (s : State) : Out := s.execSlot (.xi2f src grd)

/-- XSETF (R213). Writes a format register from x.o. -/
def execXsetf (src : BitVec 9) (f : BitVec 4) (grd : BitVec 6) (s : State) : Out := s.execSlot (.xsetf src f grd)

/-- XGETF (R213). Reads a format register into x.s. -/
def execXgetf (src : BitVec 9) (f : BitVec 4) (grd : BitVec 6) (s : State) : Out := s.execSlot (.xgetf src f grd)

/-- XLD (R214). Loads narrow containers and dequantizes them. -/
def execXld (src : BitVec 9) (f : BitVec 4) (grd : BitVec 6) (s : State) : Out := s.execSlot (.xld src f grd)

/-- XST (R214). Quantizes and stores narrow containers. -/
def execXst (src : BitVec 9) (f : BitVec 4) (grd : BitVec 6) (s : State) : Out := s.execSlot (.xst src f grd)

end Sys2Proof.Machine
end

