-- ==== Sys2Proof/Machine/ExecEngine.lean ====
section
/-! DEFINITION. Meanings of the engine commands of d (R238 to R263). -/

set_option linter.unusedVariables false

namespace Sys2Proof.Machine

/-- CPY2D (R249). Engine 2-D copy. -/
def execCpy2d (src : BitVec 9) (grd : BitVec 6) (s : State) : Out := s.execSlot (.cpy2d src grd)

/-- CPYM (R249). Engine copy with a follow-on WLD or MMA. -/
def execCpym (src : BitVec 9) (grd : BitVec 6) (s : State) : Out := s.execSlot (.cpym src grd)

/-- GATH (R250). Engine indexed gather. -/
def execGath (src : BitVec 9) (grd : BitVec 6) (s : State) : Out := s.execSlot (.gath src grd)

/-- SCAT (R250). Engine indexed scatter. -/
def execScat (src : BitVec 9) (grd : BitVec 6) (s : State) : Out := s.execSlot (.scat src grd)

/-- FILL (R249). Engine pattern fill. -/
def execFill (src : BitVec 9) (grd : BitVec 6) (s : State) : Out := s.execSlot (.fill src grd)

/-- KVS (R252). Streams K or V rows of a sequence into tile registers. -/
def execKvs (src : BitVec 9) (grd : BitVec 6) (s : State) : Out := s.execSlot (.kvs src grd)

/-- KVAPP (R253). Appends KV entries, with copy-on-write. -/
def execKvapp (src : BitVec 9) (grd : BitVec 6) (s : State) : Out := s.execSlot (.kvapp src grd)

/-- KVFORK (R254). Forks a sequence's KV blocks to a child. -/
def execKvfork (src : BitVec 9) (grd : BitVec 6) (s : State) : Out := s.execSlot (.kvfork src grd)

/-- KVDROP (R255). Drops a sequence's block references from a position on. -/
def execKvdrop (src : BitVec 9) (grd : BitVec 6) (s : State) : Out := s.execSlot (.kvdrop src grd)

/-- NRF (R257). Copies draft-tree node records from Carafe. -/
def execNrf (src : BitVec 9) (grd : BitVec 6) (s : State) : Out := s.execSlot (.nrf src grd)

/-- PRISM (R259). Reads remote memory into a third party's receive window. -/
def execPrism (src : BitVec 9) (grd : BitVec 6) (s : State) : Out := s.execSlot (.prism src grd)

/-- MIGR (R261). Migrates pages to a new home. -/
def execMigr (src : BitVec 9) (grd : BitVec 6) (s : State) : Out := s.execSlot (.migr src grd)

/-- ENQ (R263). Appends packets to a shared queue. -/
def execEnq (src : BitVec 9) (grd : BitVec 6) (s : State) : Out := s.execSlot (.enq src grd)

/-- MREB (R262). Rebuilds lost lines of a Mirror region. -/
def execMreb (src : BitVec 9) (grd : BitVec 6) (s : State) : Out := s.execSlot (.mreb src grd)

/-- SCORE (R256). Reads and decays a score table. -/
def execScore (src : BitVec 9) (grd : BitVec 6) (s : State) : Out := s.execSlot (.score src grd)

/-- RFILL (R258). Fills empty lane groups from problem records. -/
def execRfill (src : BitVec 9) (grd : BitVec 6) (s : State) : Out := s.execSlot (.rfill src grd)

end Sys2Proof.Machine
end

