-- ==== Sys2Proof/Machine/ExecMatrix.lean ====
section
/-! DEFINITION. Meanings of the matrix unit m and the K slot (R223 to R234). -/

set_option linter.unusedVariables false

namespace Sys2Proof.Machine

/-- WLD (R223). Loads a weight block into a CIM macro. -/
def execWld (src : BitVec 9) (f : BitVec 4) (grd : BitVec 6) (s : State) : Out := s.execSlot (.wld src f grd)

/-- WCLR (R225). Evicts a weight block, or every block. -/
def execWclr (src : BitVec 9) (grd : BitVec 6) (s : State) : Out := s.execSlot (.wclr src grd)

/-- MMA (R226). Multiplies A by a resident block and accumulates into a tile. -/
def execMma (src : BitVec 9) (f : BitVec 4) (grd : BitVec 6) (s : State) : Out := s.execSlot (.mma src f grd)

/-- MMAQ (R228). Quad-wide matrix multiply-accumulate. -/
def execMmaq (src : BitVec 9) (f : BitVec 4) (grd : BitVec 6) (s : State) : Out := s.execSlot (.mmaq src f grd)

/-- MZERO (R229). Zeroes an accumulator tile. -/
def execMzero (src : BitVec 9) (grd : BitVec 6) (s : State) : Out := s.execSlot (.mzero src grd)

/-- MRD (R230). Reads one row of a weight block into m.r. -/
def execMrd (src : BitVec 9) (grd : BitVec 6) (s : State) : Out := s.execSlot (.mrd src grd)

/-- MSCL (R231). Replaces a block's B scales. -/
def execMscl (src : BitVec 9) (grd : BitVec 6) (s : State) : Out := s.execSlot (.mscl src grd)

/-- LDK (R233). Loads 64 scale entries from scratch. -/
def execLdk (k : BitVec 5) (b : BitVec 4) (o : BitVec 13) (grd : BitVec 6) (s : State) : Out := s.execSlot (.ldk k b o grd)

/-- LDK1 (R233). Loads one scale entry into every entry of a register. -/
def execLdk1 (k : BitVec 5) (b : BitVec 4) (o : BitVec 13) (grd : BitVec 6) (s : State) : Out := s.execSlot (.ldk1 k b o grd)

/-- MVK (R233). Copies a scale register. -/
def execMvk (k : BitVec 5) (j : BitVec 5) (grd : BitVec 6) (s : State) : Out := s.execSlot (.mvk k j grd)

/-- STK (R233). Stores a scale register to scratch. -/
def execStk (k : BitVec 5) (b : BitVec 4) (o : BitVec 13) (grd : BitVec 6) (s : State) : Out := s.execSlot (.stk k b o grd)

end Sys2Proof.Machine
end

