-- ==== Sys2Proof/Machine/ExecMemory.lean ====
section
/-! DEFINITION. Meanings of the load-store unit l and the atomic unit at (R171 to R181). -/

set_option linter.unusedVariables false

namespace Sys2Proof.Machine

/-- LD8S (R171). Loads a sign-extended byte. -/
def execLd8s (src : BitVec 9) (a : BitVec 2) (b : BitVec 4) (grd : BitVec 6) (s : State) : Out := s.execSlot (.ld8s src a b grd)

/-- LD8U (R171). Loads a zero-extended byte. -/
def execLd8u (src : BitVec 9) (a : BitVec 2) (b : BitVec 4) (grd : BitVec 6) (s : State) : Out := s.execSlot (.ld8u src a b grd)

/-- LD16S (R171). Loads a sign-extended 16-bit value. -/
def execLd16s (src : BitVec 9) (a : BitVec 2) (b : BitVec 4) (grd : BitVec 6) (s : State) : Out := s.execSlot (.ld16s src a b grd)

/-- LD16U (R171). Loads a zero-extended 16-bit value. -/
def execLd16u (src : BitVec 9) (a : BitVec 2) (b : BitVec 4) (grd : BitVec 6) (s : State) : Out := s.execSlot (.ld16u src a b grd)

/-- LD32S (R171). Loads a sign-extended 32-bit value. -/
def execLd32s (src : BitVec 9) (a : BitVec 2) (b : BitVec 4) (grd : BitVec 6) (s : State) : Out := s.execSlot (.ld32s src a b grd)

/-- LD32U (R171). Loads a zero-extended 32-bit value. -/
def execLd32u (src : BitVec 9) (a : BitVec 2) (b : BitVec 4) (grd : BitVec 6) (s : State) : Out := s.execSlot (.ld32u src a b grd)

/-- LD64 (R171). Loads a 64-bit value. -/
def execLd64 (src : BitVec 9) (a : BitVec 2) (b : BitVec 4) (grd : BitVec 6) (s : State) : Out := s.execSlot (.ld64 src a b grd)

/-- ST8 (R171). Stores a byte of l.d. -/
def execSt8 (src : BitVec 9) (a : BitVec 2) (b : BitVec 4) (grd : BitVec 6) (s : State) : Out := s.execSlot (.st8 src a b grd)

/-- ST16 (R171). Stores 16 bits of l.d. -/
def execSt16 (src : BitVec 9) (a : BitVec 2) (b : BitVec 4) (grd : BitVec 6) (s : State) : Out := s.execSlot (.st16 src a b grd)

/-- ST32 (R171). Stores 32 bits of l.d. -/
def execSt32 (src : BitVec 9) (a : BitVec 2) (b : BitVec 4) (grd : BitVec 6) (s : State) : Out := s.execSlot (.st32 src a b grd)

/-- ST64 (R171). Stores 64 bits of l.d. -/
def execSt64 (src : BitVec 9) (a : BitVec 2) (b : BitVec 4) (grd : BitVec 6) (s : State) : Out := s.execSlot (.st64 src a b grd)

/-- LDV (R172). Loads 64 consecutive 32-bit lanes. -/
def execLdv (src : BitVec 9) (a : BitVec 2) (b : BitVec 4) (grd : BitVec 6) (s : State) : Out := s.execSlot (.ldv src a b grd)

/-- STV (R172). Stores 64 consecutive 32-bit lanes. -/
def execStv (src : BitVec 9) (a : BitVec 2) (b : BitVec 4) (grd : BitVec 6) (s : State) : Out := s.execSlot (.stv src a b grd)

/-- LDVS (R172). Loads 64 lanes at the stride given in l.d. -/
def execLdvs (src : BitVec 9) (a : BitVec 2) (b : BitVec 4) (grd : BitVec 6) (s : State) : Out := s.execSlot (.ldvs src a b grd)

/-- PREF (R173). Prefetches a 128-byte line into L1, or into L2 or the RDC. -/
def execPref (src : BitVec 9) (a : BitVec 2) (b : BitVec 4) (grd : BitVec 6) (s : State) : Out := s.execSlot (.pref src a b grd)

/-- WAITA (R174). Reads a word and sleeps while it equals l.d. -/
def execWaita (src : BitVec 9) (a : BitVec 2) (b : BitVec 4) (grd : BitVec 6) (s : State) : Out := s.execSlot (.waita src a b grd)

/-- AADD (R177). Atomic add at the location's home. -/
def execAadd (src : BitVec 9) (a : BitVec 2) (b : BitVec 4) (grd : BitVec 6) (s : State) : Out := s.execSlot (.aadd src a b grd)

/-- ASUB (R177). Atomic subtract. -/
def execAsub (src : BitVec 9) (a : BitVec 2) (b : BitVec 4) (grd : BitVec 6) (s : State) : Out := s.execSlot (.asub src a b grd)

/-- AAND (R177). Atomic AND. -/
def execAand (src : BitVec 9) (a : BitVec 2) (b : BitVec 4) (grd : BitVec 6) (s : State) : Out := s.execSlot (.aand src a b grd)

/-- AOR (R177). Atomic OR. -/
def execAor (src : BitVec 9) (a : BitVec 2) (b : BitVec 4) (grd : BitVec 6) (s : State) : Out := s.execSlot (.aor src a b grd)

/-- AXOR (R177). Atomic XOR. -/
def execAxor (src : BitVec 9) (a : BitVec 2) (b : BitVec 4) (grd : BitVec 6) (s : State) : Out := s.execSlot (.axor src a b grd)

/-- AMIN (R177). Atomic signed minimum. -/
def execAmin (src : BitVec 9) (a : BitVec 2) (b : BitVec 4) (grd : BitVec 6) (s : State) : Out := s.execSlot (.amin src a b grd)

/-- AMAX (R177). Atomic signed maximum. -/
def execAmax (src : BitVec 9) (a : BitVec 2) (b : BitVec 4) (grd : BitVec 6) (s : State) : Out := s.execSlot (.amax src a b grd)

/-- AMINU (R177). Atomic unsigned minimum. -/
def execAminu (src : BitVec 9) (a : BitVec 2) (b : BitVec 4) (grd : BitVec 6) (s : State) : Out := s.execSlot (.aminu src a b grd)

/-- AMAXU (R177). Atomic unsigned maximum. -/
def execAmaxu (src : BitVec 9) (a : BitVec 2) (b : BitVec 4) (grd : BitVec 6) (s : State) : Out := s.execSlot (.amaxu src a b grd)

/-- AXCHG (R177). Atomic exchange. -/
def execAxchg (src : BitVec 9) (a : BitVec 2) (b : BitVec 4) (grd : BitVec 6) (s : State) : Out := s.execSlot (.axchg src a b grd)

/-- ACAS (R177). Atomic compare and swap. -/
def execAcas (src : BitVec 9) (a : BitVec 2) (b : BitVec 4) (grd : BitVec 6) (s : State) : Out := s.execSlot (.acas src a b grd)

/-- AINCW (R177). Atomic increment with wrap at l.d. -/
def execAincw (src : BitVec 9) (a : BitVec 2) (b : BitVec 4) (grd : BitVec 6) (s : State) : Out := s.execSlot (.aincw src a b grd)

/-- AFADD (R177). Atomic FP32 add. -/
def execAfadd (src : BitVec 9) (a : BitVec 2) (b : BitVec 4) (grd : BitVec 6) (s : State) : Out := s.execSlot (.afadd src a b grd)

/-- ABAR (R180). Atomic arrival at a byte barrier. -/
def execAbar (src : BitVec 9) (a : BitVec 2) (b : BitVec 4) (grd : BitVec 6) (s : State) : Out := s.execSlot (.abar src a b grd)

end Sys2Proof.Machine
end

