-- ==== Sys2Proof/Machine/ExecOrder.lean ====
section
/-! DEFINITION. Meanings of the ordering operations of ra and fe (R157, R182 to R185). -/

set_option linter.unusedVariables false

namespace Sys2Proof.Machine

/-- LDACQ (R182). Load-acquire of an 8-byte word at a scope. -/
def execLdacq (src : BitVec 9) (b : BitVec 4) (p : BitVec 3) (grd : BitVec 6) (s : State) : Out := s.execSlot (.ldacq src b p grd)

/-- STREL (R182). Store-release of an 8-byte word at a scope. -/
def execStrel (src : BitVec 9) (b : BitVec 4) (p : BitVec 3) (grd : BitVec 6) (s : State) : Out := s.execSlot (.strel src b p grd)

/-- FENCE (R184). Orders earlier accesses before later ones at a scope and sets the marks. -/
def execFence (src : BitVec 9) (p : BitVec 3) (grd : BitVec 6) (s : State) : Out := s.execSlot (.fence src p grd)

/-- FENCEW (R184). Orders earlier stores and atomics before later ones at a scope. -/
def execFencew (src : BitVec 9) (p : BitVec 3) (grd : BitVec 6) (s : State) : Out := s.execSlot (.fencew src p grd)

/-- SVFENCE (R184). A fence at PACKAGE scope that also waits for Mirror parity acknowledgements. -/
def execSvfence (src : BitVec 9) (grd : BitVec 6) (s : State) : Out := s.execSlot (.svfence src grd)

/-- SWFENCE (R184). A fence that also invalidates an operand handle and advances its generation. -/
def execSwfence (src : BitVec 9) (p : BitVec 3) (grd : BitVec 6) (s : State) : Out := s.execSlot (.swfence src p grd)

end Sys2Proof.Machine
end

