-- ==== Sys2Proof/Machine/ExecScalar.lean ====
section
/-! DEFINITION. Meanings of the plain move and of the scalar units a0 and a1 (R94, R125 to R129). -/

set_option linter.unusedVariables false

namespace Sys2Proof.Machine

/-- MOVE (R94). A plain move copies a source to a register or latch at the end of the cycle. -/
def execMove (vec : Bool) (src : BitVec 9) (d : BitVec 9) (grd : BitVec 6) (s : State) : Out := s.execSlot (.move vec src d grd)

/-- ADD (R125). ALU addition of a.o and the trigger value. -/
def execAdd (src : BitVec 9) (u : BitVec 1) (w : BitVec 1) (grd : BitVec 6) (s : State) : Out := s.execSlot (.add src u w grd)

/-- SUB (R125). ALU subtraction. -/
def execSub (src : BitVec 9) (u : BitVec 1) (w : BitVec 1) (grd : BitVec 6) (s : State) : Out := s.execSlot (.sub src u w grd)

/-- AND (R125). ALU bitwise AND. -/
def execAnd (src : BitVec 9) (u : BitVec 1) (w : BitVec 1) (grd : BitVec 6) (s : State) : Out := s.execSlot (.and src u w grd)

/-- OR (R125). ALU bitwise OR. -/
def execOr (src : BitVec 9) (u : BitVec 1) (w : BitVec 1) (grd : BitVec 6) (s : State) : Out := s.execSlot (.or src u w grd)

/-- XOR (R125). ALU bitwise XOR. -/
def execXor (src : BitVec 9) (u : BitVec 1) (w : BitVec 1) (grd : BitVec 6) (s : State) : Out := s.execSlot (.xor src u w grd)

/-- ANDN (R125). ALU x AND NOT y. -/
def execAndn (src : BitVec 9) (u : BitVec 1) (w : BitVec 1) (grd : BitVec 6) (s : State) : Out := s.execSlot (.andn src u w grd)

/-- SHL (R125). ALU shift left. -/
def execShl (src : BitVec 9) (u : BitVec 1) (w : BitVec 1) (grd : BitVec 6) (s : State) : Out := s.execSlot (.shl src u w grd)

/-- SHR (R125). ALU logical shift right. -/
def execShr (src : BitVec 9) (u : BitVec 1) (w : BitVec 1) (grd : BitVec 6) (s : State) : Out := s.execSlot (.shr src u w grd)

/-- SAR (R125). ALU arithmetic shift right. -/
def execSar (src : BitVec 9) (u : BitVec 1) (w : BitVec 1) (grd : BitVec 6) (s : State) : Out := s.execSlot (.sar src u w grd)

/-- ROL (R125). ALU rotate left. -/
def execRol (src : BitVec 9) (u : BitVec 1) (w : BitVec 1) (grd : BitVec 6) (s : State) : Out := s.execSlot (.rol src u w grd)

/-- ROR (R125). ALU rotate right. -/
def execRor (src : BitVec 9) (u : BitVec 1) (w : BitVec 1) (grd : BitVec 6) (s : State) : Out := s.execSlot (.ror src u w grd)

/-- MIN (R125). ALU signed minimum. -/
def execMin (src : BitVec 9) (u : BitVec 1) (w : BitVec 1) (grd : BitVec 6) (s : State) : Out := s.execSlot (.min src u w grd)

/-- MAX (R125). ALU signed maximum. -/
def execMax (src : BitVec 9) (u : BitVec 1) (w : BitVec 1) (grd : BitVec 6) (s : State) : Out := s.execSlot (.max src u w grd)

/-- MINU (R125). ALU unsigned minimum. -/
def execMinu (src : BitVec 9) (u : BitVec 1) (w : BitVec 1) (grd : BitVec 6) (s : State) : Out := s.execSlot (.minu src u w grd)

/-- MAXU (R125). ALU unsigned maximum. -/
def execMaxu (src : BitVec 9) (u : BitVec 1) (w : BitVec 1) (grd : BitVec 6) (s : State) : Out := s.execSlot (.maxu src u w grd)

/-- CLZ (R125). ALU count of leading zeros. -/
def execClz (src : BitVec 9) (u : BitVec 1) (w : BitVec 1) (grd : BitVec 6) (s : State) : Out := s.execSlot (.clz src u w grd)

/-- CTZ (R125). ALU count of trailing zeros. -/
def execCtz (src : BitVec 9) (u : BitVec 1) (w : BitVec 1) (grd : BitVec 6) (s : State) : Out := s.execSlot (.ctz src u w grd)

/-- POPC (R125). ALU population count. -/
def execPopc (src : BitVec 9) (u : BitVec 1) (w : BitVec 1) (grd : BitVec 6) (s : State) : Out := s.execSlot (.popc src u w grd)

/-- MUL (R125). ALU multiply, low bits. -/
def execMul (src : BitVec 9) (u : BitVec 1) (w : BitVec 1) (grd : BitVec 6) (s : State) : Out := s.execSlot (.mul src u w grd)

/-- MULHS (R125). ALU signed multiply, high bits. -/
def execMulhs (src : BitVec 9) (u : BitVec 1) (w : BitVec 1) (grd : BitVec 6) (s : State) : Out := s.execSlot (.mulhs src u w grd)

/-- MULHU (R125). ALU unsigned multiply, high bits. -/
def execMulhu (src : BitVec 9) (u : BitVec 1) (w : BitVec 1) (grd : BitVec 6) (s : State) : Out := s.execSlot (.mulhu src u w grd)

/-- DIVS (R126). ALU signed division with defined results for zero and overflow. -/
def execDivs (src : BitVec 9) (u : BitVec 1) (w : BitVec 1) (grd : BitVec 6) (s : State) : Out := s.execSlot (.divs src u w grd)

/-- DIVU (R126). ALU unsigned division. -/
def execDivu (src : BitVec 9) (u : BitVec 1) (w : BitVec 1) (grd : BitVec 6) (s : State) : Out := s.execSlot (.divu src u w grd)

/-- REMS (R126). ALU signed remainder. -/
def execRems (src : BitVec 9) (u : BitVec 1) (w : BitVec 1) (grd : BitVec 6) (s : State) : Out := s.execSlot (.rems src u w grd)

/-- REMU (R126). ALU unsigned remainder. -/
def execRemu (src : BitVec 9) (u : BitVec 1) (w : BitVec 1) (grd : BitVec 6) (s : State) : Out := s.execSlot (.remu src u w grd)

/-- ADDSAT (R125). ALU saturating signed addition. -/
def execAddsat (src : BitVec 9) (u : BitVec 1) (w : BitVec 1) (grd : BitVec 6) (s : State) : Out := s.execSlot (.addsat src u w grd)

/-- SUBSAT (R125). ALU saturating signed subtraction. -/
def execSubsat (src : BitVec 9) (u : BitVec 1) (w : BitVec 1) (grd : BitVec 6) (s : State) : Out := s.execSlot (.subsat src u w grd)

/-- CLMUL (R127). ALU carry-less multiply, low half. -/
def execClmul (src : BitVec 9) (u : BitVec 1) (w : BitVec 1) (grd : BitVec 6) (s : State) : Out := s.execSlot (.clmul src u w grd)

/-- CLMULH (R127). ALU carry-less multiply, high half. -/
def execClmulh (src : BitVec 9) (u : BitVec 1) (w : BitVec 1) (grd : BitVec 6) (s : State) : Out := s.execSlot (.clmulh src u w grd)

/-- PXOR (R127). ALU prefix XOR of the trigger value. -/
def execPxor (src : BitVec 9) (u : BitVec 1) (w : BitVec 1) (grd : BitVec 6) (s : State) : Out := s.execSlot (.pxor src u w grd)

/-- PEXT (R127). ALU parallel bit extract. -/
def execPext (src : BitVec 9) (u : BitVec 1) (w : BitVec 1) (grd : BitVec 6) (s : State) : Out := s.execSlot (.pext src u w grd)

/-- PDEP (R127). ALU parallel bit deposit. -/
def execPdep (src : BitVec 9) (u : BitVec 1) (w : BitVec 1) (grd : BitVec 6) (s : State) : Out := s.execSlot (.pdep src u w grd)

/-- SEXT (R125). ALU sign extension from bit k - 1. -/
def execSext (src : BitVec 9) (u : BitVec 1) (w : BitVec 1) (grd : BitVec 6) (s : State) : Out := s.execSlot (.sext src u w grd)

/-- ZEXT (R125). ALU zero extension from bit k - 1. -/
def execZext (src : BitVec 9) (u : BitVec 1) (w : BitVec 1) (grd : BitVec 6) (s : State) : Out := s.execSlot (.zext src u w grd)

/-- EQ (R125). ALU equality comparison giving 0 or 1. -/
def execEq (src : BitVec 9) (u : BitVec 1) (w : BitVec 1) (grd : BitVec 6) (s : State) : Out := s.execSlot (.eq src u w grd)

/-- NE (R125). ALU inequality comparison. -/
def execNe (src : BitVec 9) (u : BitVec 1) (w : BitVec 1) (grd : BitVec 6) (s : State) : Out := s.execSlot (.ne src u w grd)

/-- LT (R125). ALU signed less-than. -/
def execLt (src : BitVec 9) (u : BitVec 1) (w : BitVec 1) (grd : BitVec 6) (s : State) : Out := s.execSlot (.lt src u w grd)

/-- LE (R125). ALU signed less-or-equal. -/
def execLe (src : BitVec 9) (u : BitVec 1) (w : BitVec 1) (grd : BitVec 6) (s : State) : Out := s.execSlot (.le src u w grd)

/-- LTU (R125). ALU unsigned less-than. -/
def execLtu (src : BitVec 9) (u : BitVec 1) (w : BitVec 1) (grd : BitVec 6) (s : State) : Out := s.execSlot (.ltu src u w grd)

/-- LEU (R125). ALU unsigned less-or-equal. -/
def execLeu (src : BitVec 9) (u : BitVec 1) (w : BitVec 1) (grd : BitVec 6) (s : State) : Out := s.execSlot (.leu src u w grd)

/-- HMIX (R125). ALU hash mix: mix64 or fmix32. -/
def execHmix (src : BitVec 9) (u : BitVec 1) (w : BitVec 1) (grd : BitVec 6) (s : State) : Out := s.execSlot (.hmix src u w grd)

/-- BSWAP (R125). ALU byte reversal. -/
def execBswap (src : BitVec 9) (u : BitVec 1) (w : BitVec 1) (grd : BitVec 6) (s : State) : Out := s.execSlot (.bswap src u w grd)

/-- PASS (R125). ALU pass-through of the trigger value. -/
def execPass (src : BitVec 9) (u : BitVec 1) (w : BitVec 1) (grd : BitVec 6) (s : State) : Out := s.execSlot (.pass src u w grd)

/-- ABS (R125). ALU absolute value. -/
def execAbs (src : BitVec 9) (u : BitVec 1) (w : BitVec 1) (grd : BitVec 6) (s : State) : Out := s.execSlot (.abs src u w grd)

end Sys2Proof.Machine
end

