-- ==== Sys2Proof/Machine/ExecSpec.lean ====
section
/-! DEFINITION. Meanings of the speculation units ps, lp and bq (R277, R291 to R297). -/

set_option linter.unusedVariables false

namespace Sys2Proof.Machine

/-- PSLOOK (R296). Looks up the longest matching prefix in the snapshot tree. -/
def execPslook (src : BitVec 9) (grd : BitVec 6) (s : State) : Out := s.execSlot (.pslook src grd)

/-- PSDEP (R296). Deposits a snapshot node. -/
def execPsdep (src : BitVec 9) (grd : BitVec 6) (s : State) : Out := s.execSlot (.psdep src grd)

/-- PSREL (R296). Releases a reference to a snapshot node. -/
def execPsrel (src : BitVec 9) (grd : BitVec 6) (s : State) : Out := s.execSlot (.psrel src grd)

/-- PSPIN (R296). Sets or clears the PIN of a snapshot node. -/
def execPspin (src : BitVec 9) (grd : BitVec 6) (s : State) : Out := s.execSlot (.pspin src grd)

/-- LPSUB (R292). Submits an ADMIT or a VERIFIED for a Loupe sequence slot. -/
def execLpsub (src : BitVec 9) (grd : BitVec 6) (s : State) : Out := s.execSlot (.lpsub src grd)

/-- LPDEP (R292). Returns DPOS word 1 of a slot's current step. -/
def execLpdep (src : BitVec 9) (grd : BitVec 6) (s : State) : Out := s.execSlot (.lpdep src grd)

/-- LPRES (R292). Writes the result record of the last ended step. -/
def execLpres (src : BitVec 9) (grd : BitVec 6) (s : State) : Out := s.execSlot (.lpres src grd)

/-- LPRB (R292). Abandons the step, or returns a STALLED slot to DRAFTING. -/
def execLprb (src : BitVec 9) (grd : BitVec 6) (s : State) : Out := s.execSlot (.lprb src grd)

/-- LPSET (R277). Binds, updates or unbinds a Loupe slot, or writes the depth table. -/
def execLpset (src : BitVec 9) (grd : BitVec 6) (s : State) : Out := s.execSlot (.lpset src grd)

/-- BQPUSH (R293). Appends a request with no reply to the Barista queue. -/
def execBqpush (src : BitVec 9) (grd : BitVec 6) (s : State) : Out := s.execSlot (.bqpush src grd)

/-- BQPOP (R293). Copies a reply out and frees its queue slot. -/
def execBqpop (src : BitVec 9) (grd : BitVec 6) (s : State) : Out := s.execSlot (.bqpop src grd)

/-- BQREQ (R293). Appends a request whose reply sets a token-ready flag. -/
def execBqreq (src : BitVec 9) (grd : BitVec 6) (s : State) : Out := s.execSlot (.bqreq src grd)

end Sys2Proof.Machine
end

