-- ==== Sys2Proof/Machine/ExecSystem.lean ====
section
/-! DEFINITION. Meanings of the sys operations and of the sync slot (R265 to R270, R303). -/

set_option linter.unusedVariables false

namespace Sys2Proof.Machine

/-- TLBINV (R303). Invalidates TLB entries on the die. -/
def execTlbinv (src : BitVec 9) (grd : BitVec 6) (s : State) : Out := s.execSlot (.tlbinv src grd)

/-- PTWFENCE (R321). Orders the task's earlier stores before later table walks. -/
def execPtwfence (src : BitVec 9) (grd : BitVec 6) (s : State) : Out := s.execSlot (.ptwfence src grd)

/-- REPLAY (R324). Replays a side log. -/
def execReplay (src : BitVec 9) (grd : BitVec 6) (s : State) : Out := s.execSlot (.replay src grd)

/-- LOGRD (R322). Reads one word of a side-log entry. -/
def execLogrd (src : BitVec 9) (grd : BitVec 6) (s : State) : Out := s.execSlot (.logrd src grd)

/-- CTXSAVE (R303). Writes a context record to memory. -/
def execCtxsave (src : BitVec 9) (grd : BitVec 6) (s : State) : Out := s.execSlot (.ctxsave src grd)

/-- CTXLOAD (R303). Loads a context record from memory. -/
def execCtxload (src : BitVec 9) (grd : BitVec 6) (s : State) : Out := s.execSlot (.ctxload src grd)

/-- FREEZEM (R343). Freezes or releases an agent. -/
def execFreezem (src : BitVec 9) (grd : BitVec 6) (s : State) : Out := s.execSlot (.freezem src grd)

/-- DISPQ (R305). Attaches or detaches a queue descriptor. -/
def execDispq (src : BitVec 9) (grd : BitVec 6) (s : State) : Out := s.execSlot (.dispq src grd)

/-- HALT (R303). Ends the task and takes the physical core out of dispatch. -/
def execHalt (src : BitVec 9) (grd : BitVec 6) (s : State) : Out := s.execSlot (.halt src grd)

/-- WAITF (R266). Waits until a counting flag reaches n, then subtracts n. -/
def execWaitf (i : BitVec 8) (c : BitVec 8) (grd : BitVec 6) (s : State) : Out := s.execSlot (.waitf i c grd)

/-- POSTF (R266). Posts n to a counting flag of a core. -/
def execPostf (i : BitVec 8) (c : BitVec 8) (e : BitVec 1) (r : BitVec 5) (grd : BitVec 6) (s : State) : Out := s.execSlot (.postf i c e r grd)

/-- WAITE (R267). Waits until an event bit is set. -/
def execWaite (i : BitVec 8) (grd : BitVec 6) (s : State) : Out := s.execSlot (.waite i grd)

/-- SETE (R267). Sets an event bit of the context. -/
def execSete (i : BitVec 8) (grd : BitVec 6) (s : State) : Out := s.execSlot (.sete i grd)

/-- CLRE (R267). Clears an event bit of the context. -/
def execClre (i : BitVec 8) (grd : BitVec 6) (s : State) : Out := s.execSlot (.clre i grd)

/-- WAITT (R268). Waits on a token-ready flag and clears it. -/
def execWaitt (i : BitVec 8) (grd : BitVec 6) (s : State) : Out := s.execSlot (.waitt i grd)

/-- BARG (R269). Arrives at a group barrier. -/
def execBarg (i : BitVec 8) (grd : BitVec 6) (s : State) : Out := s.execSlot (.barg i grd)

/-- BARQ (R269). Arrives at a quad barrier. -/
def execBarq (i : BitVec 8) (grd : BitVec 6) (s : State) : Out := s.execSlot (.barq i grd)

/-- WAITL (R270). Waits until a link inbound queue holds a word. -/
def execWaitl (i : BitVec 8) (grd : BitVec 6) (s : State) : Out := s.execSlot (.waitl i grd)

end Sys2Proof.Machine
end

