-- ==== Sys2Proof/Machine/ExecVector.lean ====
section
/-! DEFINITION. Meanings of the vector unit v (R188 to R207). -/

set_option linter.unusedVariables false

namespace Sys2Proof.Machine

/-- VADD (R192). Vector element add. -/
def execVadd (src : BitVec 9) (t : BitVec 3) (grd : BitVec 6) (s : State) : Out := s.execSlot (.vadd src t grd)

/-- VSUB (R192). Vector element subtract. -/
def execVsub (src : BitVec 9) (t : BitVec 3) (grd : BitVec 6) (s : State) : Out := s.execSlot (.vsub src t grd)

/-- VMUL (R192). Vector element multiply. -/
def execVmul (src : BitVec 9) (t : BitVec 3) (grd : BitVec 6) (s : State) : Out := s.execSlot (.vmul src t grd)

/-- VMAD (R192). Vector fused multiply-add. -/
def execVmad (src : BitVec 9) (t : BitVec 3) (grd : BitVec 6) (s : State) : Out := s.execSlot (.vmad src t grd)

/-- VMIN (R192). Vector element minimum. -/
def execVmin (src : BitVec 9) (t : BitVec 3) (grd : BitVec 6) (s : State) : Out := s.execSlot (.vmin src t grd)

/-- VMAX (R192). Vector element maximum. -/
def execVmax (src : BitVec 9) (t : BitVec 3) (grd : BitVec 6) (s : State) : Out := s.execSlot (.vmax src t grd)

/-- VABS (R192). Vector absolute value. -/
def execVabs (src : BitVec 9) (t : BitVec 3) (grd : BitVec 6) (s : State) : Out := s.execSlot (.vabs src t grd)

/-- VNEG (R192). Vector negation. -/
def execVneg (src : BitVec 9) (t : BitVec 3) (grd : BitVec 6) (s : State) : Out := s.execSlot (.vneg src t grd)

/-- VAND (R194). Vector bitwise AND. -/
def execVand (src : BitVec 9) (t : BitVec 3) (grd : BitVec 6) (s : State) : Out := s.execSlot (.vand src t grd)

/-- VOR (R194). Vector bitwise OR. -/
def execVor (src : BitVec 9) (t : BitVec 3) (grd : BitVec 6) (s : State) : Out := s.execSlot (.vor src t grd)

/-- VXOR (R194). Vector bitwise XOR. -/
def execVxor (src : BitVec 9) (t : BitVec 3) (grd : BitVec 6) (s : State) : Out := s.execSlot (.vxor src t grd)

/-- VSHL (R194). Vector shift left. -/
def execVshl (src : BitVec 9) (t : BitVec 3) (grd : BitVec 6) (s : State) : Out := s.execSlot (.vshl src t grd)

/-- VSHR (R194). Vector shift right. -/
def execVshr (src : BitVec 9) (t : BitVec 3) (grd : BitVec 6) (s : State) : Out := s.execSlot (.vshr src t grd)

/-- VCMPEQ (R195). Vector equality comparison. -/
def execVcmpeq (src : BitVec 9) (t : BitVec 3) (grd : BitVec 6) (s : State) : Out := s.execSlot (.vcmpeq src t grd)

/-- VCMPLT (R195). Vector less-than comparison. -/
def execVcmplt (src : BitVec 9) (t : BitVec 3) (grd : BitVec 6) (s : State) : Out := s.execSlot (.vcmplt src t grd)

/-- VCMPLE (R195). Vector less-or-equal comparison. -/
def execVcmple (src : BitVec 9) (t : BitVec 3) (grd : BitVec 6) (s : State) : Out := s.execSlot (.vcmple src t grd)

/-- VSEL (R195). Vector select by the pattern of c. -/
def execVsel (src : BitVec 9) (t : BitVec 3) (grd : BitVec 6) (s : State) : Out := s.execSlot (.vsel src t grd)

/-- VRCP (R196). Vector reciprocal. -/
def execVrcp (src : BitVec 9) (t : BitVec 3) (grd : BitVec 6) (s : State) : Out := s.execSlot (.vrcp src t grd)

/-- VRSQ (R196). Vector reciprocal square root. -/
def execVrsq (src : BitVec 9) (t : BitVec 3) (grd : BitVec 6) (s : State) : Out := s.execSlot (.vrsq src t grd)

/-- VEXP2 (R196). Vector base-2 exponential. -/
def execVexp2 (src : BitVec 9) (t : BitVec 3) (grd : BitVec 6) (s : State) : Out := s.execSlot (.vexp2 src t grd)

/-- VLOG2 (R196). Vector base-2 logarithm. -/
def execVlog2 (src : BitVec 9) (t : BitVec 3) (grd : BitVec 6) (s : State) : Out := s.execSlot (.vlog2 src t grd)

/-- VRED (R197). Vector reduction in the fixed tree. -/
def execVred (src : BitVec 9) (t : BitVec 3) (grd : BitVec 6) (s : State) : Out := s.execSlot (.vred src t grd)

/-- VSCAN (R198). Vector inclusive scan in the doubling order. -/
def execVscan (src : BitVec 9) (t : BitVec 3) (grd : BitVec 6) (s : State) : Out := s.execSlot (.vscan src t grd)

/-- VSHUF (R199). Vector shuffle by index. -/
def execVshuf (src : BitVec 9) (t : BitVec 3) (grd : BitVec 6) (s : State) : Out := s.execSlot (.vshuf src t grd)

/-- VBCAST (R199). Vector broadcast of one element. -/
def execVbcast (src : BitVec 9) (t : BitVec 3) (grd : BitVec 6) (s : State) : Out := s.execSlot (.vbcast src t grd)

/-- VPACKG (R202). Packs the live lane groups to the front. -/
def execVpackg (src : BitVec 9) (t : BitVec 3) (grd : BitVec 6) (s : State) : Out := s.execSlot (.vpackg src t grd)

/-- VCLMUL (R199). Vector carry-less multiply. -/
def execVclmul (src : BitVec 9) (t : BitVec 3) (grd : BitVec 6) (s : State) : Out := s.execSlot (.vclmul src t grd)

/-- VPXOR (R89). 2,048-bit prefix XOR with a carry in. -/
def execVpxor (src : BitVec 9) (t : BitVec 3) (grd : BitVec 6) (s : State) : Out := s.execSlot (.vpxor src t grd)

/-- VTOPK (R200). Starts a top-k list. -/
def execVtopk (src : BitVec 9) (t : BitVec 3) (grd : BitVec 6) (s : State) : Out := s.execSlot (.vtopk src t grd)

/-- VTOPKM (R200). Merges a vector into the top-k list. -/
def execVtopkm (src : BitVec 9) (t : BitVec 3) (grd : BitVec 6) (s : State) : Out := s.execSlot (.vtopkm src t grd)

/-- BMM (R201). Per-lane-group 8 x 8 matrix-vector product from a tile. -/
def execBmm (src : BitVec 9) (t : BitVec 3) (grd : BitVec 6) (s : State) : Out := s.execSlot (.bmm src t grd)

/-- VMASK (R204). Sets the VMASK selection. -/
def execVmask (src : BitVec 9) (t : BitVec 3) (grd : BitVec 6) (s : State) : Out := s.execSlot (.vmask src t grd)

end Sys2Proof.Machine
end

