-- ==== Sys2Proof/Machine/Dispatch.lean ====
section
/-! DEFINITION. One arm for each constructor of Instr: the call of its meaning. -/

namespace Sys2Proof.Machine

def exec (i : Instr) (s : State) : Host.Outcome State Fault Refusal :=
  match i with
  | .move vec src d grd => Sys2Proof.Machine.execMove vec src d grd s
  | .add src u w grd => Sys2Proof.Machine.execAdd src u w grd s
  | .sub src u w grd => Sys2Proof.Machine.execSub src u w grd s
  | .and src u w grd => Sys2Proof.Machine.execAnd src u w grd s
  | .or src u w grd => Sys2Proof.Machine.execOr src u w grd s
  | .xor src u w grd => Sys2Proof.Machine.execXor src u w grd s
  | .andn src u w grd => Sys2Proof.Machine.execAndn src u w grd s
  | .shl src u w grd => Sys2Proof.Machine.execShl src u w grd s
  | .shr src u w grd => Sys2Proof.Machine.execShr src u w grd s
  | .sar src u w grd => Sys2Proof.Machine.execSar src u w grd s
  | .rol src u w grd => Sys2Proof.Machine.execRol src u w grd s
  | .ror src u w grd => Sys2Proof.Machine.execRor src u w grd s
  | .min src u w grd => Sys2Proof.Machine.execMin src u w grd s
  | .max src u w grd => Sys2Proof.Machine.execMax src u w grd s
  | .minu src u w grd => Sys2Proof.Machine.execMinu src u w grd s
  | .maxu src u w grd => Sys2Proof.Machine.execMaxu src u w grd s
  | .clz src u w grd => Sys2Proof.Machine.execClz src u w grd s
  | .ctz src u w grd => Sys2Proof.Machine.execCtz src u w grd s
  | .popc src u w grd => Sys2Proof.Machine.execPopc src u w grd s
  | .mul src u w grd => Sys2Proof.Machine.execMul src u w grd s
  | .mulhs src u w grd => Sys2Proof.Machine.execMulhs src u w grd s
  | .mulhu src u w grd => Sys2Proof.Machine.execMulhu src u w grd s
  | .divs src u w grd => Sys2Proof.Machine.execDivs src u w grd s
  | .divu src u w grd => Sys2Proof.Machine.execDivu src u w grd s
  | .rems src u w grd => Sys2Proof.Machine.execRems src u w grd s
  | .remu src u w grd => Sys2Proof.Machine.execRemu src u w grd s
  | .addsat src u w grd => Sys2Proof.Machine.execAddsat src u w grd s
  | .subsat src u w grd => Sys2Proof.Machine.execSubsat src u w grd s
  | .clmul src u w grd => Sys2Proof.Machine.execClmul src u w grd s
  | .clmulh src u w grd => Sys2Proof.Machine.execClmulh src u w grd s
  | .pxor src u w grd => Sys2Proof.Machine.execPxor src u w grd s
  | .pext src u w grd => Sys2Proof.Machine.execPext src u w grd s
  | .pdep src u w grd => Sys2Proof.Machine.execPdep src u w grd s
  | .sext src u w grd => Sys2Proof.Machine.execSext src u w grd s
  | .zext src u w grd => Sys2Proof.Machine.execZext src u w grd s
  | .eq src u w grd => Sys2Proof.Machine.execEq src u w grd s
  | .ne src u w grd => Sys2Proof.Machine.execNe src u w grd s
  | .lt src u w grd => Sys2Proof.Machine.execLt src u w grd s
  | .le src u w grd => Sys2Proof.Machine.execLe src u w grd s
  | .ltu src u w grd => Sys2Proof.Machine.execLtu src u w grd s
  | .leu src u w grd => Sys2Proof.Machine.execLeu src u w grd s
  | .hmix src u w grd => Sys2Proof.Machine.execHmix src u w grd s
  | .bswap src u w grd => Sys2Proof.Machine.execBswap src u w grd s
  | .pass src u w grd => Sys2Proof.Machine.execPass src u w grd s
  | .abs src u w grd => Sys2Proof.Machine.execAbs src u w grd s
  | .setb src b grd => Sys2Proof.Machine.execSetb src b grd s
  | .addb src b grd => Sys2Proof.Machine.execAddb src b grd s
  | .seti src b grd => Sys2Proof.Machine.execSeti src b grd s
  | .setls src b grd => Sys2Proof.Machine.execSetls src b grd s
  | .setwrap src b grd => Sys2Proof.Machine.execSetwrap src b grd s
  | .rdb src b grd => Sys2Proof.Machine.execRdb src b grd s
  | .settrp src t grd => Sys2Proof.Machine.execSettrp src t grd s
  | .rstb src b grd => Sys2Proof.Machine.execRstb src b grd s
  | .jmp src grd => Sys2Proof.Machine.execJmp src grd s
  | .jmpr src grd => Sys2Proof.Machine.execJmpr src grd s
  | .call src grd => Sys2Proof.Machine.execCall src grd s
  | .ret src grd => Sys2Proof.Machine.execRet src grd s
  | .loop src l grd => Sys2Proof.Machine.execLoop src l grd s
  | .exit src grd => Sys2Proof.Machine.execExit src grd s
  | .trap src grd => Sys2Proof.Machine.execTrap src grd s
  | .tfence src grd => Sys2Proof.Machine.execTfence src grd s
  | .yieldp src grd => Sys2Proof.Machine.execYieldp src grd s
  | .brk src grd => Sys2Proof.Machine.execBrk src grd s
  | .phase src grd => Sys2Proof.Machine.execPhase src grd s
  | .rdsr src grd => Sys2Proof.Machine.execRdsr src grd s
  | .wrsr src grd => Sys2Proof.Machine.execWrsr src grd s
  | .clrstk src grd => Sys2Proof.Machine.execClrstk src grd s
  | .idle src grd => Sys2Proof.Machine.execIdle src grd s
  | .ld8s src a b grd => Sys2Proof.Machine.execLd8s src a b grd s
  | .ld8u src a b grd => Sys2Proof.Machine.execLd8u src a b grd s
  | .ld16s src a b grd => Sys2Proof.Machine.execLd16s src a b grd s
  | .ld16u src a b grd => Sys2Proof.Machine.execLd16u src a b grd s
  | .ld32s src a b grd => Sys2Proof.Machine.execLd32s src a b grd s
  | .ld32u src a b grd => Sys2Proof.Machine.execLd32u src a b grd s
  | .ld64 src a b grd => Sys2Proof.Machine.execLd64 src a b grd s
  | .st8 src a b grd => Sys2Proof.Machine.execSt8 src a b grd s
  | .st16 src a b grd => Sys2Proof.Machine.execSt16 src a b grd s
  | .st32 src a b grd => Sys2Proof.Machine.execSt32 src a b grd s
  | .st64 src a b grd => Sys2Proof.Machine.execSt64 src a b grd s
  | .ldv src a b grd => Sys2Proof.Machine.execLdv src a b grd s
  | .stv src a b grd => Sys2Proof.Machine.execStv src a b grd s
  | .ldvs src a b grd => Sys2Proof.Machine.execLdvs src a b grd s
  | .pref src a b grd => Sys2Proof.Machine.execPref src a b grd s
  | .waita src a b grd => Sys2Proof.Machine.execWaita src a b grd s
  | .aadd src a b grd => Sys2Proof.Machine.execAadd src a b grd s
  | .asub src a b grd => Sys2Proof.Machine.execAsub src a b grd s
  | .aand src a b grd => Sys2Proof.Machine.execAand src a b grd s
  | .aor src a b grd => Sys2Proof.Machine.execAor src a b grd s
  | .axor src a b grd => Sys2Proof.Machine.execAxor src a b grd s
  | .amin src a b grd => Sys2Proof.Machine.execAmin src a b grd s
  | .amax src a b grd => Sys2Proof.Machine.execAmax src a b grd s
  | .aminu src a b grd => Sys2Proof.Machine.execAminu src a b grd s
  | .amaxu src a b grd => Sys2Proof.Machine.execAmaxu src a b grd s
  | .axchg src a b grd => Sys2Proof.Machine.execAxchg src a b grd s
  | .acas src a b grd => Sys2Proof.Machine.execAcas src a b grd s
  | .aincw src a b grd => Sys2Proof.Machine.execAincw src a b grd s
  | .afadd src a b grd => Sys2Proof.Machine.execAfadd src a b grd s
  | .abar src a b grd => Sys2Proof.Machine.execAbar src a b grd s
  | .ldacq src b p grd => Sys2Proof.Machine.execLdacq src b p grd s
  | .strel src b p grd => Sys2Proof.Machine.execStrel src b p grd s
  | .fence src p grd => Sys2Proof.Machine.execFence src p grd s
  | .svfence src grd => Sys2Proof.Machine.execSvfence src grd s
  | .fencew src p grd => Sys2Proof.Machine.execFencew src p grd s
  | .swfence src p grd => Sys2Proof.Machine.execSwfence src p grd s
  | .vadd src t grd => Sys2Proof.Machine.execVadd src t grd s
  | .vsub src t grd => Sys2Proof.Machine.execVsub src t grd s
  | .vmul src t grd => Sys2Proof.Machine.execVmul src t grd s
  | .vmad src t grd => Sys2Proof.Machine.execVmad src t grd s
  | .vmin src t grd => Sys2Proof.Machine.execVmin src t grd s
  | .vmax src t grd => Sys2Proof.Machine.execVmax src t grd s
  | .vabs src t grd => Sys2Proof.Machine.execVabs src t grd s
  | .vneg src t grd => Sys2Proof.Machine.execVneg src t grd s
  | .vand src t grd => Sys2Proof.Machine.execVand src t grd s
  | .vor src t grd => Sys2Proof.Machine.execVor src t grd s
  | .vxor src t grd => Sys2Proof.Machine.execVxor src t grd s
  | .vshl src t grd => Sys2Proof.Machine.execVshl src t grd s
  | .vshr src t grd => Sys2Proof.Machine.execVshr src t grd s
  | .vcmpeq src t grd => Sys2Proof.Machine.execVcmpeq src t grd s
  | .vcmplt src t grd => Sys2Proof.Machine.execVcmplt src t grd s
  | .vcmple src t grd => Sys2Proof.Machine.execVcmple src t grd s
  | .vsel src t grd => Sys2Proof.Machine.execVsel src t grd s
  | .vrcp src t grd => Sys2Proof.Machine.execVrcp src t grd s
  | .vrsq src t grd => Sys2Proof.Machine.execVrsq src t grd s
  | .vexp2 src t grd => Sys2Proof.Machine.execVexp2 src t grd s
  | .vlog2 src t grd => Sys2Proof.Machine.execVlog2 src t grd s
  | .vred src t grd => Sys2Proof.Machine.execVred src t grd s
  | .vscan src t grd => Sys2Proof.Machine.execVscan src t grd s
  | .vshuf src t grd => Sys2Proof.Machine.execVshuf src t grd s
  | .vbcast src t grd => Sys2Proof.Machine.execVbcast src t grd s
  | .vpackg src t grd => Sys2Proof.Machine.execVpackg src t grd s
  | .vclmul src t grd => Sys2Proof.Machine.execVclmul src t grd s
  | .vpxor src t grd => Sys2Proof.Machine.execVpxor src t grd s
  | .vtopk src t grd => Sys2Proof.Machine.execVtopk src t grd s
  | .vtopkm src t grd => Sys2Proof.Machine.execVtopkm src t grd s
  | .bmm src t grd => Sys2Proof.Machine.execBmm src t grd s
  | .vmask src t grd => Sys2Proof.Machine.execVmask src t grd s
  | .xq src f grd => Sys2Proof.Machine.execXq src f grd s
  | .xqs src f grd => Sys2Proof.Machine.execXqs src f grd s
  | .xdq src f grd => Sys2Proof.Machine.execXdq src f grd s
  | .xsc src f grd => Sys2Proof.Machine.execXsc src f grd s
  | .xf2bf src grd => Sys2Proof.Machine.execXf2bf src grd s
  | .xbf2f src grd => Sys2Proof.Machine.execXbf2f src grd s
  | .xf2h src grd => Sys2Proof.Machine.execXf2h src grd s
  | .xh2f src grd => Sys2Proof.Machine.execXh2f src grd s
  | .xf2i src grd => Sys2Proof.Machine.execXf2i src grd s
  | .xi2f src grd => Sys2Proof.Machine.execXi2f src grd s
  | .xsetf src f grd => Sys2Proof.Machine.execXsetf src f grd s
  | .xgetf src f grd => Sys2Proof.Machine.execXgetf src f grd s
  | .xld src f grd => Sys2Proof.Machine.execXld src f grd s
  | .xst src f grd => Sys2Proof.Machine.execXst src f grd s
  | .wld src f grd => Sys2Proof.Machine.execWld src f grd s
  | .wclr src grd => Sys2Proof.Machine.execWclr src grd s
  | .mma src f grd => Sys2Proof.Machine.execMma src f grd s
  | .mmaq src f grd => Sys2Proof.Machine.execMmaq src f grd s
  | .mzero src grd => Sys2Proof.Machine.execMzero src grd s
  | .mrd src grd => Sys2Proof.Machine.execMrd src grd s
  | .mscl src grd => Sys2Proof.Machine.execMscl src grd s
  | .cpy2d src grd => Sys2Proof.Machine.execCpy2d src grd s
  | .cpym src grd => Sys2Proof.Machine.execCpym src grd s
  | .gath src grd => Sys2Proof.Machine.execGath src grd s
  | .scat src grd => Sys2Proof.Machine.execScat src grd s
  | .fill src grd => Sys2Proof.Machine.execFill src grd s
  | .kvs src grd => Sys2Proof.Machine.execKvs src grd s
  | .kvapp src grd => Sys2Proof.Machine.execKvapp src grd s
  | .kvfork src grd => Sys2Proof.Machine.execKvfork src grd s
  | .kvdrop src grd => Sys2Proof.Machine.execKvdrop src grd s
  | .nrf src grd => Sys2Proof.Machine.execNrf src grd s
  | .prism src grd => Sys2Proof.Machine.execPrism src grd s
  | .migr src grd => Sys2Proof.Machine.execMigr src grd s
  | .enq src grd => Sys2Proof.Machine.execEnq src grd s
  | .mreb src grd => Sys2Proof.Machine.execMreb src grd s
  | .score src grd => Sys2Proof.Machine.execScore src grd s
  | .rfill src grd => Sys2Proof.Machine.execRfill src grd s
  | .pslook src grd => Sys2Proof.Machine.execPslook src grd s
  | .psdep src grd => Sys2Proof.Machine.execPsdep src grd s
  | .psrel src grd => Sys2Proof.Machine.execPsrel src grd s
  | .pspin src grd => Sys2Proof.Machine.execPspin src grd s
  | .lpsub src grd => Sys2Proof.Machine.execLpsub src grd s
  | .lpdep src grd => Sys2Proof.Machine.execLpdep src grd s
  | .lpres src grd => Sys2Proof.Machine.execLpres src grd s
  | .lprb src grd => Sys2Proof.Machine.execLprb src grd s
  | .lpset src grd => Sys2Proof.Machine.execLpset src grd s
  | .bqpush src grd => Sys2Proof.Machine.execBqpush src grd s
  | .bqpop src grd => Sys2Proof.Machine.execBqpop src grd s
  | .bqreq src grd => Sys2Proof.Machine.execBqreq src grd s
  | .tlbinv src grd => Sys2Proof.Machine.execTlbinv src grd s
  | .ptwfence src grd => Sys2Proof.Machine.execPtwfence src grd s
  | .replay src grd => Sys2Proof.Machine.execReplay src grd s
  | .logrd src grd => Sys2Proof.Machine.execLogrd src grd s
  | .ctxsave src grd => Sys2Proof.Machine.execCtxsave src grd s
  | .ctxload src grd => Sys2Proof.Machine.execCtxload src grd s
  | .freezem src grd => Sys2Proof.Machine.execFreezem src grd s
  | .dispq src grd => Sys2Proof.Machine.execDispq src grd s
  | .halt src grd => Sys2Proof.Machine.execHalt src grd s
  | .waitf idx c grd => Sys2Proof.Machine.execWaitf idx c grd s
  | .postf idx c e r grd => Sys2Proof.Machine.execPostf idx c e r grd s
  | .waite idx grd => Sys2Proof.Machine.execWaite idx grd s
  | .sete idx grd => Sys2Proof.Machine.execSete idx grd s
  | .clre idx grd => Sys2Proof.Machine.execClre idx grd s
  | .waitt idx grd => Sys2Proof.Machine.execWaitt idx grd s
  | .barg idx grd => Sys2Proof.Machine.execBarg idx grd s
  | .barq idx grd => Sys2Proof.Machine.execBarq idx grd s
  | .waitl idx grd => Sys2Proof.Machine.execWaitl idx grd s
  | .ldk k b o grd => Sys2Proof.Machine.execLdk k b o grd s
  | .ldk1 k b o grd => Sys2Proof.Machine.execLdk1 k b o grd s
  | .mvk k j grd => Sys2Proof.Machine.execMvk k j grd s
  | .stk k b o grd => Sys2Proof.Machine.execStk k b o grd s
  | .kvStreamHold core seq => Sys2Proof.Machine.execKvStreamHold core seq s
  | .kvsTileReady core seq tile => Sys2Proof.Machine.execKvsTileReady core seq tile s
  | .streamHoldFall core seq => Sys2Proof.Machine.execStreamHoldFall core seq s
  | .flagPostArrival core flag n => Sys2Proof.Machine.execFlagPostArrival core flag n s
  | .eventBitWrite die ctx bit set => Sys2Proof.Machine.execEventBitWrite die ctx bit set s
  | .barrierRelease launch die group quad idx => Sys2Proof.Machine.execBarrierRelease launch die group quad idx s
  | .carafeStore slot off bytes => Sys2Proof.Machine.execCarafeStore slot off bytes s
  | .bridgeDelivery src dst => Sys2Proof.Machine.execBridgeDelivery src dst s
  | .prismReadAtOwner req => Sys2Proof.Machine.execPrismReadAtOwner req s
  | .prismDeposit req => Sys2Proof.Machine.execPrismDeposit req s
  | .prismAccepted req status => Sys2Proof.Machine.execPrismAccepted req status s
  | .prismFaultReturn req status => Sys2Proof.Machine.execPrismFaultReturn req status s
  | .mirrorDeltaApply region line shard delta => Sys2Proof.Machine.execMirrorDeltaApply region line shard delta s
  | .mirrorDeltaAck id pkg => Sys2Proof.Machine.execMirrorDeltaAck id pkg s
  | .memFlitReceive port flit => Sys2Proof.Machine.execMemFlitReceive port flit s
  | .bounceReceive port flit => Sys2Proof.Machine.execBounceReceive port flit s
  | .pageMove core seq => Sys2Proof.Machine.execPageMove core seq s
  | .loupeAdmission lseq => Sys2Proof.Machine.execLoupeAdmission lseq s
  | .loupeCommit lseq => Sys2Proof.Machine.execLoupeCommit lseq s
  | .portAttestation port peer secret nonces => Sys2Proof.Machine.execPortAttestation port peer secret nonces s
  | .gangFreezePropagate launch => Sys2Proof.Machine.execGangFreezePropagate launch s
  | .bundleIssue core => Sys2Proof.Machine.execBundleIssue core s
  | .trapEntryDeferredWrite core => Sys2Proof.Machine.execTrapEntryDeferredWrite core s
  | .heldSlotIssue core => Sys2Proof.Machine.execHeldSlotIssue core s
  | .resultLatchWrite core => Sys2Proof.Machine.execResultLatchWrite core s
  | .globalAccessReturn core id => Sys2Proof.Machine.execGlobalAccessReturn core id s
  | .specUnitResult core id => Sys2Proof.Machine.execSpecUnitResult core id s
  | .waitaRecheck core => Sys2Proof.Machine.execWaitaRecheck core s
  | .mmaResultWrite core => Sys2Proof.Machine.execMmaResultWrite core s
  | .mmaqResultWrite core => Sys2Proof.Machine.execMmaqResultWrite core s
  | .wldComplete core => Sys2Proof.Machine.execWldComplete core s
  | .commandBlockRead core seq => Sys2Proof.Machine.execCommandBlockRead core seq s
  | .commandStart core seq => Sys2Proof.Machine.execCommandStart core seq s
  | .commandComplete core seq => Sys2Proof.Machine.execCommandComplete core seq s
  | .cpymFollowOn core seq => Sys2Proof.Machine.execCpymFollowOn core seq s
  | .enqClaim core seq => Sys2Proof.Machine.execEnqClaim core seq s
  | .syncWaitSatisfied core => Sys2Proof.Machine.execSyncWaitSatisfied core s
  | .linkFifoWait core => Sys2Proof.Machine.execLinkFifoWait core s
  | .launchPacket die queue => Sys2Proof.Machine.execLaunchPacket die queue s
  | .nopPacket die queue => Sys2Proof.Machine.execNopPacket die queue s
  | .reservedPacket die queue => Sys2Proof.Machine.execReservedPacket die queue s
  | .launchEligible launch => Sys2Proof.Machine.execLaunchEligible launch s
  | .taskBind launch core => Sys2Proof.Machine.execTaskBind launch core s
  | .gangStart launch => Sys2Proof.Machine.execGangStart launch s
  | .launchComplete launch => Sys2Proof.Machine.execLaunchComplete launch s
  | .preemptionDecision die => Sys2Proof.Machine.execPreemptionDecision die s
  | .checkpointSave launch => Sys2Proof.Machine.execCheckpointSave launch s
  | .launchRestore launch => Sys2Proof.Machine.execLaunchRestore launch s
  | .kill launch => Sys2Proof.Machine.execKill launch s
  | .sliceEnd launch => Sys2Proof.Machine.execSliceEnd launch s
  | .classAging launch => Sys2Proof.Machine.execClassAging launch s
  | .tokenRefill die => Sys2Proof.Machine.execTokenRefill die s
  | .launchOverdue launch => Sys2Proof.Machine.execLaunchOverdue launch s
  | .carafeInterlockRelease slot => Sys2Proof.Machine.execCarafeInterlockRelease slot s
  | .baristaRequestServe slot reply token => Sys2Proof.Machine.execBaristaRequestServe slot reply token s
  | .powerWindowCheck core => Sys2Proof.Machine.execPowerWindowCheck core s
  | .fabricFrameFreeze => Sys2Proof.Machine.execFabricFrameFreeze s
  | .debugFreeze => Sys2Proof.Machine.execDebugFreeze s
  | .slotDeparture port => Sys2Proof.Machine.execSlotDeparture port s
  | .frameBoundary => Sys2Proof.Machine.execFrameBoundary s
  | .schedFlitReceive port flit => Sys2Proof.Machine.execSchedFlitReceive port flit s
  | .reductionInput plane port flit => Sys2Proof.Machine.execReductionInput plane port flit s
  | .reductionDeadline plane group => Sys2Proof.Machine.execReductionDeadline plane group s
  | .switchTableLoad plane table => Sys2Proof.Machine.execSwitchTableLoad plane table s
  | .scaleoutMem peer flit => Sys2Proof.Machine.execScaleoutMem peer flit s
  | .hostWrite off bytes => Sys2Proof.Machine.execHostWrite off bytes s
  | .hostRead off n => Sys2Proof.Machine.execHostRead off n s
  | .hostAtomicop off op a b => Sys2Proof.Machine.execHostAtomicop off op a b s
  | .regrd => Sys2Proof.Machine.execRegrd s
  | .regwr => Sys2Proof.Machine.execRegwr s
  | .registerWrite block die num val => Sys2Proof.Machine.execRegisterWrite block die num val s
  | .go => Sys2Proof.Machine.execGo s
  | .fwcommit => Sys2Proof.Machine.execFwcommit s
  | .start => Sys2Proof.Machine.execStart s
  | .attestationReport => Sys2Proof.Machine.execAttestationReport s
  | .reatt port => Sys2Proof.Machine.execReatt port s
  | .freeze => Sys2Proof.Machine.execFreeze s
  | .resume => Sys2Proof.Machine.execResume s
  | .load port => Sys2Proof.Machine.execLoad port s
  | .viewfinderUnlock sig => Sys2Proof.Machine.execViewfinderUnlock sig s
  | .viewfinderFreeze => Sys2Proof.Machine.execViewfinderFreeze s
  | .viewfinderRead sel off n => Sys2Proof.Machine.execViewfinderRead sel off n s
  | .idcode => Sys2Proof.Machine.execIdcode s
  | .coldStart image => Sys2Proof.Machine.execColdStart image s
  | .stageMemory ok => Sys2Proof.Machine.execStageMemory ok s
  | .stageCores ok => Sys2Proof.Machine.execStageCores ok s
  | .stageFull => Sys2Proof.Machine.execStageFull s
  | .storePerformedAtHome core id => Sys2Proof.Machine.execStorePerformedAtHome core id s
  | .cacheEviction kind owner line => Sys2Proof.Machine.execCacheEviction kind owner line s
  | .linkFramingAligned port => Sys2Proof.Machine.execLinkFramingAligned port s
  | .haltedCoreReturn core => Sys2Proof.Machine.execHaltedCoreReturn core s

end Sys2Proof.Machine
end

