-- ==== Sys2Proof/Machine/Place.lean ====
section
/-! DEFINITION. A package in which one task stands before a bundle (log 40): what a loader outside the machine brings about, so that
the very next step issues an instruction. -/

set_option linter.unusedVariables false

namespace Sys2Proof.Machine

/-- The address of the placed bundle. -/
def placeAddr : Nat := 0x10000

/-- A privileged context whose heap maps every address to itself. -/
def placeCtx : Ctx := { valid := true, priv := true, heapb := 0, heapl := u64 (2 ^ 52), heapo := 0 }

/-- An image of one task in one phase of one scratch unit. -/
def placeImage : Image :=
  { entry := placeAddr, cb := placeAddr, mode := 1, shape := 0, ttid := 0, levels := [onlyLevel], phases := [1], data := [], fmMask := 0,
    fmVals := [], ttRole := 0, ttStart := 0, fabric := false, planTtid := 0, plan := [] }

/-- A running TAGGED launch whose one task is bound. -/
def placeLaunch : Launch := { state := .running, tagged := true, est := 1, img := some placeImage, ntasks := 1, nextTask := 1 }

/-- The task's core at its start. -/
def placeCore : Core :=
  let g := rngFill 64 (rngSeed placeCtx.seed0 placeCtx.seed1 0) []
  { status := .run, tagged := true, pc := placeAddr, cb := placeAddr, rng := g.1, rbq := g.2 }

/-- The bytes of a bundle that holds a slot word alone: the header of the slot in which the word is an instruction, else of slot m0. -/
def placeBytes (nbits w : Nat) : List Byte :=
  match decodeTableWord nbits w with
  | some i => toBytes 4 (oneHeader i) ++ toBytes 4 w
  | none => toBytes 4 (2 ^ 23) ++ toBytes 4 w

/-- A state with a bundle at the place's address and core 0 before it. -/
def State.place0 (s : State) (bs : List Byte) : State :=
  { s with
    mem := memWrite s.mem placeAddr bs
    cores := Tbl.put s.cores 0 placeCore
    ctxs := Tbl.put s.ctxs 0 placeCtx
    launches := Tbl.put s.launches 0 placeLaunch
    nLaunch := s.nLaunch + 1
    agenda := []
    boot := { s.boot with frozen := false }
    sensed := true
    cur := 0 }

end Sys2Proof.Machine
end

