-- ==== Sys2Proof/Machine/Step.lean ====
section
/-! DEFINITION. One step of the package: the next event that is due; then, within the cycle, the settling of delays, the turns of the
cores in core-id order, and the end of the cycle. -/

namespace Sys2Proof.Machine

/-- The step. A held slot has its chance before the core's next bundle (R36). -/
def step (s : State) : Host.Outcome State Fault Refusal :=
  match s.agenda with
  | e :: r => if e.1 ≤ s.now then exec e.2 { s with agenda := r } else stepCycle s
  | [] => stepCycle s
where
  stepCycle (s : State) : Host.Outcome State Fault Refusal :=
    if s.boot.frozen then .next s.cycleEnd
    else if !s.sensed then .next s.sense
    else
      match s.nextCore with
      | none => .next s.cycleEnd
      | some c =>
        if (s.core c).held != [] && !(s.core c).heldTried then .next (s.heldTurn c)
        else .next (({ s with cur := c } : State).bundleTurn c)

/-- A state whose next step fetches and issues the instruction of a table word (log 40). -/
def State.withFetchWord (s : State) (nbits w : Nat) : State := s.place0 (placeBytes nbits w)

end Sys2Proof.Machine
end

