-- ==== Sys2Proof/Safety.lean ====
section
/-! DEFINITION. What counts as a safe run, and what the claims say about one issue: when an instruction stands clear to issue, and what
an issue may change of the package beside the effect of its instruction. -/

set_option linter.unusedVariables false

namespace Sys2Proof.Machine

/-! ## Runs -/

/-- The package goes on from a state. -/
def State.GoesOn (s : State) : Prop := ∃ t, step s = .next t

/-- The states that some number of steps reach. -/
inductive Reaches : State → State → Prop
  | refl (s : State) : Reaches s s
  | step {s t u : State} (h : Reaches s t) (n : step t = .next u) : Reaches s u

/-- A safe state: from every state that its run reaches, the package goes on. -/
def State.Safe (s : State) : Prop := ∀ t, Reaches s t → t.GoesOn

/-! ## An instruction alone in its bundle -/

/-- The slot that a bundle of one instruction has: its place, its guard read, its source sampled (R103 step 1), before the core's part in a
joint product of this cycle (R228). -/
def State.act1 (s : State) (i : Instr) : Act :=
  let k := (s.core s.cur).unjoined
  let pos := match i.kind with | .m => 0 | .w => 8 | .sync => 12 | .k => 13 | .event => 15
  { i := i,
    ic := { c := s.cur, pre := k, limm := 0, pc := k.pc, slot := pos, re := false, tv := s.srcVal k s.cur 0 pos i,
            nextPc := (k.pc + 8) % 2 ^ 56 } }

/-- The core that issues, and the value that the instruction's source has. -/
abbrev State.me (s : State) : Core := s.core s.cur
abbrev State.src1 (s : State) (i : Instr) : U64 := (s.act1 i).ic.t
abbrev State.vsrc1 (s : State) (i : Instr) : V := (s.act1 i).ic.tv

/-- What stands clear to issue: the core runs and no other core of its gang stops (R342); the instruction is one (R92 to R100), legal
on this core (R98, R116), its guard holds (R93); no slot is held (R36), no unit is sticky (R110), the bundle is at its first issue; no link queue is in the way (R98), nothing that the instruction reads or writes is
still to come (R35, R36, R109). -/
structure State.Clear (s : State) (i : Instr) : Prop where
  runs : s.me.status = .run
  going : s.me.tagged = true ∨ (s.launch s.me.launch).stopping = false
  formed : i.wf = true
  guard : i.holds s.me.p = true
  role : s.roleStop s.cur (oneSlot i).slots = none
  link : s.linkBlocked s.cur [s.act1 i] = false
  noHeld : s.me.held = []
  noL : s.me.stL = none
  noX : s.me.stX = none
  noM : s.me.stM = none
  first : s.me.rep = 0
  waits : (s.latchMove (s.act1 i)).actWait (s.act1 i) = .go
  onTime : (s.coreCtx s.cur).schk = true → (s.act1 i).ic.pre.early ((s.latchMove (s.act1 i)).core s.cur).unjoined i = false

/-! ## What one issue may change -/

/-- From `k`, the core when its trigger has acted, to `k'`, the core when the bundle has ended: the row pointers of the tile registers `tiles`, which
the bundle reads or writes a row of, move on by one (R52), the strides of a loop level that ends here are applied and its count goes down (R137), the pc goes on (R133), a unit's sticky state is set (R101), and the
issue is counted. Every other register of the core is as it was. -/
structure Core.Bookkept (k k' : Core) (tiles : List Nat) : Prop where
  frame : k' = { k with
    pc := k'.pc, t := k'.t, b := k'.b, loops := k'.loops, stL := k'.stL, stX := k'.stX, stM := k'.stM, mTrig := k'.mTrig
    rep := k'.rep, stall := k'.stall, restarted := k'.restarted, hold := k'.hold, drainTo := k'.drainTo, xfer := k'.xfer
    bundles := k'.bundles, weight := k'.weight, turn := k'.turn }
  rows : ∀ n, (k'.t.getD n {}).rows = (k.t.getD n {}).rows ∧ (k'.t.getD n {}).ready = (k.t.getD n {}).ready ∧
    (k'.t.getD n {}).thr = (k.t.getD n {}).thr ∧ (k'.t.getD n {}).engw = (k.t.getD n {}).engw
  ptrs : ∀ n, n < k.t.length → (k'.t.getD n {}).ptr = (k.t.getD n {}).ptr + (if n ∈ tiles then 1 else 0)
  counted : k'.bundles = k.bundles + 1
  ended : k'.rep = 0 ∧ k'.stall = none ∧ k'.restarted = false ∧ k'.hold = none ∧ k'.drainTo = none ∧ k'.xfer = none
  goesOn : k.atBodyEnd k.pc = false → k'.pc = k.xfer.getD ((k.pc + 8) % 2 ^ 56) ∧ k'.b = k.b ∧ k'.loops = k.loops

/-- Of the package, only the issuing core changes, and an inbound link queue that the instruction pops (R98); `fresh` is the model's
own counter. -/
structure State.OnlyCore (s t : State) (i : Instr) : Prop where
  rest : t = { s with cores := t.cores, ports := t.ports, fresh := t.fresh }
  others : ∀ d, d ≠ s.cur → t.core d = s.core d
  queues : popOf i = none → t.ports = s.ports

end Sys2Proof.Machine
end

