-- ==== Sys2Proof/Certificates/Slice0/Obligations.lean ====
section
/-! DEFINITION. The statements for the provers. Most speak of one instruction that stands clear to issue on the core `s.cur`
(`State.Clear`), and of the state that it leaves: of the package only the issuing core changes (`State.OnlyCore`), and of the core only
what the statement names and what the end of a bundle changes (`Core.Bookkept`). -/

set_option linter.unusedVariables false

namespace Sys2Proof.Claims

open Sys2Proof.Machine

/-! ## Forms that the statements share -/

/-- Instruction `i`, standing clear, issues at once and leaves the registers `k`, but for what the end of its bundle changes. -/
def Gives (s : State) (i : Instr) (k : Core) : Prop :=
  s.Clear i → ∃ t, exec i s = .next t ∧ s.OnlyCore t i ∧ k.Bookkept (t.core s.cur) i.rowTiles

/-- An operation of au or c acts on the core as the bundle's end has left it (R130, R133). -/
def GivesLast (s : State) (i : Instr) (f : Core → Core) : Prop :=
  s.Clear i → ∃ t k, exec i s = .next t ∧ s.OnlyCore t i ∧ s.me.Bookkept k i.rowTiles ∧ t.core s.cur = { f k with turn := true }

/-- Instruction `i`, standing clear, takes no effect and is stopped (R338 to R342). -/
def Stops (s : State) (i : Instr) (st : Stop) : Prop := s.Clear i → exec i s = .next ((s.stopAt s.cur st).turned s.cur)

/-- The illegal-operation fault of the slot that `i` stands in. -/
def illegalOp (s : State) (i : Instr) : Stop := { cause := 4, slot := (s.act1 i).ic.slot }

/-- A scalar result of latency `lat` for result latch `i`, triggered now: it lands at the end of cycle t + lat − 1 (R106). -/
def resultS (s : State) (lat i : Nat) (v : U64) : Pend := { due := s.me.clk + lat - 1, seq := s.me.next, trig := true, eff := .sres i v }

/-- The core with one more scalar result on its way. -/
def withResult (s : State) (lat i : Nat) (v : U64) : Core :=
  { s.me with pend := s.me.pend ++ [resultS s lat i v], next := s.me.next + 1 }

/-- Bytes from a location up that a write changes at once: in no Mirror region (R333, R335), behind no write that waits there, and not in the
table of region descriptors. -/
def Open (s : State) (loc n : Nat) : Prop :=
  loc + n ≤ 2 ^ 64 ∧ (∀ j, j < n → s.regionOf (loc + j) = none) ∧ s.behindStalled loc n = false ∧ (loc + n ≤ s.mirbase ∨ s.mirbase + 4096 ≤ loc)

/-- Bytes that a step stores, and no other: every byte outside them reads as before. -/
def Wrote (s t : State) (loc : Nat) (bs : List Byte) : Prop :=
  Memory.wf s.mem = true →
    (∀ j, j < bs.length → memGet t.mem (loc + j) = bs.getD j 0) ∧
    (∀ x, x < loc ∨ loc + bs.length ≤ x → memGet t.mem x = memGet s.mem x)

/-- The core with an arithmetic event of slot m0 (R68): the sticky bit, and the bundle's address in the slot's record if it is clear. -/
def withArith (k : Core) (ev : Bool) : Core :=
  if ev then { k with arith := true, recs := if k.recs.getD 0 none = none then k.recs.set 0 (some k.pc) else k.recs } else k

end Sys2Proof.Claims

open Sys2Proof Sys2Proof.Machine Sys2Proof.Claims

/-! ## Plain moves (R94) -/

/-- MOVE on the scalar bus (R94, R50, R6): a g register takes the source, a p register its bit 0, an operand latch the source; ss0 is
read-only, and ss3 keeps bits 5 to 0 (R302). That the trap state ss4 to ss11 takes no write either is the model's choice (log 100). -/
def Sys2Proof.Claims.ScalarMoveWritesItsDestination : Prop :=
  ∀ (s : State) (src d : BitVec 9) (g : BitVec 6),
    (d.toNat < 0x40 → Gives s (.move false src d g) { s.me with g := s.me.g.set d.toNat (s.src1 (.move false src d g)) }) ∧
    (0x40 ≤ d.toNat → d.toNat < 0x58 → Gives s (.move false src d g)
      { s.me with p :=
          if (s.src1 (.move false src d g)).getLsbD 0 then s.me.p ||| BitVec.ofNat 24 (2 ^ (d.toNat - 0x40))
          else s.me.p &&& ~~~ (BitVec.ofNat 24 (2 ^ (d.toNat - 0x40))) }) ∧
    (0x60 ≤ d.toNat → d.toNat < 0x6D → Gives s (.move false src d g)
      { s.me with sop := s.me.sop.set (d.toNat - 0x60) (s.src1 (.move false src d g)) }) ∧
    (d.toNat = 0x70 ∨ 0x74 ≤ d.toNat ∧ d.toNat ≤ 0x7B → Gives s (.move false src d g) s.me) ∧
    (d.toNat = 0x73 → Gives s (.move false src d g)
      { s.me with ss := s.me.ss.set 3 (BitVec.ofNat 64 ((s.src1 (.move false src d g)).toNat % 64)) }) ∧
    (d.toNat = 0x71 ∨ d.toNat = 0x72 ∨ 0x7C ≤ d.toNat ∧ d.toNat < 0x80 → Gives s (.move false src d g)
      { s.me with ss := s.me.ss.set (d.toNat - 0x70) (s.src1 (.move false src d g)) })

/-- MOVE on the vector bus (R94, R51, R52, R59, R221): a v register takes the source, a tile register its row at the pointer, a q register
bit 0 of each lane, an operand latch the source, lgl bits 3 to 0 of lanes 0, 8 to 56; a move to m.a also fills one row of the A-row buffer.
A bundle that reads or writes a row of a tile register moves its row pointer on by one (`Core.Bookkept`, R52). Of a tile register whose tag an
engine has cleared, the model notes which rows the thread writes; that is the model's way to R53's free values (log 4). -/
def Sys2Proof.Claims.VectorMoveWritesItsDestination : Prop :=
  ∀ (s : State) (src d : BitVec 9) (g : BitVec 6),
    let x := s.vsrc1 (.move true src d g)
    (d.toNat < 0x20 → Gives s (.move true src d g) { s.me with v := s.me.v.set d.toNat x }) ∧
    (0x20 ≤ d.toNat → d.toNat < 0x30 →
      let n := d.toNat - 0x20
      let tile := s.me.t.getD n {}
      Gives s (.move true src d g) { s.me with t := s.me.t.set n { tile with
        rows := tile.rows.set tile.ptr.toNat x
        thr := if tile.ready then tile.thr else (tile.ptr.toNat, x) :: tile.thr } }) ∧
    (0x30 ≤ d.toNat → d.toNat < 0x38 → Gives s (.move true src d g) { s.me with q := s.me.q.set (d.toNat - 0x30) (vecMask x) }) ∧
    (0x40 ≤ d.toNat → d.toNat < 0x45 → d.toNat ≠ 0x43 → Gives s (.move true src d g) { s.me with vop := s.me.vop.set (d.toNat - 0x40) x }) ∧
    (d.toNat = 0x43 → Gives s (.move true src d g) (({ s.me with vop := s.me.vop.set 3 x } : Core).pushA x)) ∧
    (d.toNat = 0x45 → Gives s (.move true src d g) { s.me with lgl := vecLgl x })

/-- R94: plain moves of the scalar bus and of the vector bus write their destination, and a row pointer that a move uses moves on by one (R52).
That ss4 to ss11 are read-only, and the note of the rows that the thread writes, are the model's choice (logs 4, 100). -/
def Obligations.MovesWriteTheirDestination : Prop := Sys2Proof.Claims.ScalarMoveWritesItsDestination ∧ Sys2Proof.Claims.VectorMoveWritesItsDestination


/-! ## a0 and a1 (R124 to R128) -/

namespace Sys2Proof.Claims

/-- The operands of R124: the unit's operand latch and the trigger value, in n bits. -/
def aluX (s : State) (u w : BitVec 1) : Nat := (s.me.sop.getD u.toNat 0).toNat % 2 ^ aluN w
def aluY (s : State) (i : Instr) (w : BitVec 1) : Nat := (s.src1 i).toNat % 2 ^ aluN w

/-- ALU operation `i` puts the n-bit pattern f(x, y, n) on its way to its unit's latch, sign-extended in the 32-bit form; `ev` says when
the arithmetic event of R126 occurs. -/
def AluGives (s : State) (i : Instr) (u w : BitVec 1) (lat : Nat) (f : Nat → Nat → Nat → Nat) (ev : Nat → Nat → Nat → Bool) : Prop :=
  Gives s i (withArith (withResult s lat u.toNat (aluWiden (f (aluX s u w) (aluY s i w) (aluN w)) (aluN w)))
    (ev (aluX s u w) (aluY s i w) (aluN w)))

def never (x y n : Nat) : Bool := false

end Sys2Proof.Claims

/-- R124, R125, R128: every ALU operation without a division completes at its issue, with its function and latency, and records no
event. What the functions give is stated apart. -/
def Obligations.AluOperationsComplete : Prop :=
  ∀ (s : State) (src : BitVec 9) (u w : BitVec 1) (g : BitVec 6),
    AluGives s (.add src u w g) u w 1 aluAdd never ∧
    AluGives s (.sub src u w g) u w 1 aluSub never ∧
    AluGives s (.and src u w g) u w 1 aluAnd never ∧
    AluGives s (.or src u w g) u w 1 aluOr never ∧
    AluGives s (.xor src u w g) u w 1 aluXor never ∧
    AluGives s (.andn src u w g) u w 1 aluAndn never ∧
    AluGives s (.shl src u w g) u w 1 aluShl never ∧
    AluGives s (.shr src u w g) u w 1 aluShr never ∧
    AluGives s (.sar src u w g) u w 1 aluSar never ∧
    AluGives s (.rol src u w g) u w 1 aluRol never ∧
    AluGives s (.ror src u w g) u w 1 aluRor never ∧
    AluGives s (.min src u w g) u w 1 aluMin never ∧
    AluGives s (.max src u w g) u w 1 aluMax never ∧
    AluGives s (.minu src u w g) u w 1 aluMinu never ∧
    AluGives s (.maxu src u w g) u w 1 aluMaxu never ∧
    AluGives s (.clz src u w g) u w 1 aluClz never ∧
    AluGives s (.ctz src u w g) u w 1 aluCtz never ∧
    AluGives s (.popc src u w g) u w 1 aluPopc never ∧
    AluGives s (.mul src u w g) u w 3 aluMul never ∧
    AluGives s (.mulhs src u w g) u w 3 aluMulhs never ∧
    AluGives s (.mulhu src u w g) u w 3 aluMulhu never ∧
    AluGives s (.addsat src u w g) u w 1 aluAddsat never ∧
    AluGives s (.subsat src u w g) u w 1 aluSubsat never ∧
    AluGives s (.clmul src u w g) u w 2 aluClmul never ∧
    AluGives s (.clmulh src u w g) u w 2 aluClmulh never ∧
    AluGives s (.pxor src u w g) u w 1 aluPxor never ∧
    AluGives s (.pext src u w g) u w 2 aluPext never ∧
    AluGives s (.pdep src u w g) u w 2 aluPdep never ∧
    AluGives s (.sext src u w g) u w 1 aluSext never ∧
    AluGives s (.zext src u w g) u w 1 aluZext never ∧
    AluGives s (.eq src u w g) u w 1 aluEq never ∧
    AluGives s (.ne src u w g) u w 1 aluNe never ∧
    AluGives s (.lt src u w g) u w 1 aluLt never ∧
    AluGives s (.le src u w g) u w 1 aluLe never ∧
    AluGives s (.ltu src u w g) u w 1 aluLtu never ∧
    AluGives s (.leu src u w g) u w 1 aluLeu never ∧
    AluGives s (.hmix src u w g) u w 3 aluHmix never ∧
    AluGives s (.bswap src u w g) u w 1 aluBswap never ∧
    AluGives s (.pass src u w g) u w 1 aluPass never ∧
    AluGives s (.abs src u w g) u w 1 aluAbs never

/-- R126: DIVS, DIVU, REMS and REMU complete with latency 20 and the results of R126. Division by zero, and signed division of the most
negative value by −1, set the arithmetic sticky bit and write the slot's record, and nothing else does. -/
def Obligations.DivisionCompletes : Prop :=
  ∀ (s : State) (src : BitVec 9) (u w : BitVec 1) (g : BitVec 6),
    AluGives s (.divs src u w g) u w 20
      (fun x y n => if y = 0 then 2 ^ n - 1 else if x = 2 ^ (n - 1) ∧ y = 2 ^ n - 1 then 2 ^ (n - 1)
        else wrapU (Int.tdiv (signed x n) (signed y n)) n)
      (fun x y n => y == 0 || x == 2 ^ (n - 1) && y == 2 ^ n - 1) ∧
    AluGives s (.divu src u w g) u w 20 (fun x y n => if y = 0 then 2 ^ n - 1 else x / y) (fun _ y _ => y == 0) ∧
    AluGives s (.rems src u w g) u w 20
      (fun x y n => if y = 0 then x else if x = 2 ^ (n - 1) ∧ y = 2 ^ n - 1 then 0
        else wrapU (signed x n - signed y n * Int.tdiv (signed x n) (signed y n)) n)
      (fun x y n => y == 0 || x == 2 ^ (n - 1) && y == 2 ^ n - 1) ∧
    AluGives s (.remu src u w g) u w 20 (fun x y n => if y = 0 then x else x % y) (fun _ y _ => y == 0)

namespace Sys2Proof.Claims

/-- The functions of R125 on n-bit words. -/
def AluTable (n : Nat) (x y : BitVec n) : Prop :=
  let f (h : Nat → Nat → Nat → Nat) : Nat := h x.toNat y.toNat n
  let sh := y.toNat % n
  f aluAdd = (x + y).toNat ∧ f aluSub = (x - y).toNat ∧ f aluAnd = (x &&& y).toNat ∧ f aluOr = (x ||| y).toNat ∧
  f aluXor = (x ^^^ y).toNat ∧ f aluAndn = (x &&& ~~~y).toNat ∧ f aluShl = (x <<< sh).toNat ∧ f aluShr = (x >>> sh).toNat ∧
  f aluSar = (x.sshiftRight sh).toNat ∧ f aluRol = (x.rotateLeft sh).toNat ∧ f aluRor = (x.rotateRight sh).toNat ∧
  f aluMin = (if x.sle y then x else y).toNat ∧ f aluMax = (if x.sle y then y else x).toNat ∧
  f aluMinu = (if x ≤ y then x else y).toNat ∧ f aluMaxu = (if x ≤ y then y else x).toNat ∧
  f aluMul = (x * y).toNat ∧ f aluMulhs = (BitVec.ofInt n (x.toInt * y.toInt / 2 ^ n)).toNat ∧ f aluMulhu = x.toNat * y.toNat / 2 ^ n ∧
  f aluEq = (if x = y then 1 else 0) ∧ f aluNe = (if x = y then 0 else 1) ∧
  f aluLt = (if x.slt y then 1 else 0) ∧ f aluLe = (if x.sle y then 1 else 0) ∧
  f aluLtu = (if x < y then 1 else 0) ∧ f aluLeu = (if x ≤ y then 1 else 0) ∧
  f aluPass = y.toNat ∧ f aluAbs = y.abs.toNat ∧
  f aluAddsat = (BitVec.ofInt n (max (-(2 ^ (n - 1))) (min (2 ^ (n - 1) - 1) (x.toInt + y.toInt)))).toNat ∧
  f aluSubsat = (BitVec.ofInt n (max (-(2 ^ (n - 1))) (min (2 ^ (n - 1) - 1) (x.toInt - y.toInt)))).toNat

end Sys2Proof.Claims

/-- R125: the functions of the plain ALU operations are the table's, for 64-bit and for 32-bit operands. -/
def Sys2Proof.Claims.AluFunctionsAreTheTables : Prop := (∀ x y : BitVec 64, AluTable 64 x y) ∧ (∀ x y : BitVec 32, AluTable 32 x y)

/-- R125, R127: bit by bit, the counts of zeros and ones, byte swap, the extensions, and the carry-less and bit-field operations. The bits
of PEXT and PDEP are told by how many mask bits stand below. -/
def Sys2Proof.Claims.BitFieldFunctionsAreTheTables : Prop :=
  ∀ n, (n = 32 ∨ n = 64) → ∀ x y : BitVec n,
    let ones (i : Nat) : Nat := ((List.range i).filter (fun j => y.getLsbD j)).length
    (aluPopc x.toNat y.toNat n = ones n) ∧
    (∀ i, i < n → (aluCtz x.toNat y.toNat n = i ↔ y.getLsbD i ∧ ∀ j, j < i → ¬ y.getLsbD j)) ∧
    (aluCtz x.toNat y.toNat n = n ↔ y = 0) ∧
    (∀ i, i < n → (aluClz x.toNat y.toNat n = n - 1 - i ↔ y.getLsbD i ∧ ∀ j, i < j → ¬ y.getLsbD j)) ∧
    (aluClz x.toNat y.toNat n = n ↔ y = 0) ∧
    (∀ i, bitAt (aluPxor x.toNat y.toNat n) i = (decide (i < n) && (((List.range (i + 1)).filter (fun j => y.getLsbD j)).length % 2 == 1))) ∧
    (∀ i, bitAt (aluClmul x.toNat y.toNat n) i =
      (decide (i < n) && (((List.range (i + 1)).filter (fun j => y.getLsbD j && x.getLsbD (i - j))).length % 2 == 1))) ∧
    (∀ i, bitAt (aluClmulh x.toNat y.toNat n) i =
      (((List.range n).filter (fun j => y.getLsbD j && decide (j ≤ n + i) && x.getLsbD (n + i - j))).length % 2 == 1)) ∧
    (∀ i, i < n → y.getLsbD i → bitAt (aluPext x.toNat y.toNat n) (ones i) = x.getLsbD i) ∧
    (∀ j, ones n ≤ j → bitAt (aluPext x.toNat y.toNat n) j = false) ∧
    (∀ i, bitAt (aluPdep x.toNat y.toNat n) i = (decide (i < n) && y.getLsbD i && x.getLsbD (ones i))) ∧
    (∀ i, bitAt (aluBswap x.toNat y.toNat n) i = (decide (i < n) && y.getLsbD (8 * (n / 8 - 1 - i / 8) + i % 8))) ∧
    (let k := y.toNat % 128
     (∀ i, bitAt (aluZext x.toNat y.toNat n) i = (decide (i < k) && x.getLsbD i)) ∧
     (∀ i, bitAt (aluSext x.toNat y.toNat n) i = (decide (i < n) && (if i < k then x.getLsbD i else k != 0 && x.getLsbD (k - 1)))))

/-- R125, R127: the functions of a0 and a1. -/
def Obligations.ScalarFunctionsAreTheTables : Prop := Sys2Proof.Claims.AluFunctionsAreTheTables ∧ Sys2Proof.Claims.BitFieldFunctionsAreTheTables


/-! ## au (R129 to R131) -/

namespace Sys2Proof.Claims

/-- VAL moved by a signed amount, wrapped as R56 says. -/
def movedVal (b : BaseReg) (d : Int) : U64 :=
  if b.wrap = 0 then BitVec.ofInt 64 (b.val.toNat + d)
  else BitVec.ofInt 64 (b.org.toNat + ((b.val.toNat - b.org.toNat + d : Int) % (b.wrap.toNat : Int)))

/-- An au operation that gives base register `n` the fields `f` of what the bundle's end has left in it (R130). -/
def BaseGives (s : State) (i : Instr) (n : BitVec 4) (f : BaseReg → BaseReg) : Prop :=
  GivesLast s i (fun k => { k with b := k.b.set n.toNat (f (k.b.getD n.toNat {})) })

/-- What an operation gives when its operands are legal, else the illegal-operation fault of its slot. -/
def GivesIf (s : State) (i : Instr) (legal : Prop) (result : Prop) : Prop :=
  (legal → result) ∧ (¬legal → Stops s i (illegalOp s i))

end Sys2Proof.Claims

/-- R129, R130: the operations of au, each with its limits. -/
def Obligations.AddressUnitOperationsComplete : Prop :=
  ∀ (s : State) (src : BitVec 9) (n : BitVec 4) (g : BitVec 6),
    (let x := s.src1 (.setb src n g)
     BaseGives s (.setb src n g) n (fun b => { b with val := x })) ∧
    (let x := s.src1 (.addb src n g)
     BaseGives s (.addb src n g) n (fun b => { b with val := movedVal b x.toInt })) ∧
    (let x := s.src1 (.seti src n g)
     GivesIf s (.seti src n g) (-(2 ^ 31) ≤ x.toInt ∧ x.toInt ≤ 2 ^ 31 - 1)
       (BaseGives s (.seti src n g) n (fun b => { b with stp := BitVec.ofInt 32 x.toInt }))) ∧
    (let x := s.src1 (.setls src n g)
     let lvl := (s.me.sop.getD 4 0).toNat
     GivesIf s (.setls src n g) (lvl ≤ 7) (BaseGives s (.setls src n g) n (fun b => { b with ls := b.ls.set lvl x }))) ∧
    (let x := s.src1 (.setwrap src n g)
     GivesIf s (.setwrap src n g) (x.toNat ≤ 2 ^ 32 - 1)
       (BaseGives s (.setwrap src n g) n (fun b =>
         { b with wrap := BitVec.ofNat 32 x.toNat, org := if x.toNat ≠ 0 then b.val else b.org }))) ∧
    (let x := s.src1 (.rstb src n g)
     BaseGives s (.rstb src n g) n (fun b => { b with val := x, org := x })) ∧
    (let x := s.src1 (.settrp src n g)
     GivesLast s (.settrp src n g) (fun k =>
       { k with t := k.t.set n.toNat { (k.t.getD n.toNat {}) with ptr := BitVec.ofNat 5 (x.toNat % 32) } })) ∧
    (let x := (s.src1 (.rdb src n g)).toNat
     let b := s.me.b.getD n.toNat {}
     let v : U64 := if x = 0 then b.val else if x = 1 then BitVec.ofInt 64 b.stp.toInt else if x = 2 then BitVec.ofNat 64 b.wrap.toNat
       else if x = 3 then b.org else b.ls.getD (x - 8) 0
     GivesIf s (.rdb src n g) (x ≤ 3 ∨ 8 ≤ x ∧ x ≤ 15)
       (GivesLast s (.rdb src n g) (fun k =>
         { k with pend := k.pend ++ [resultS s 1 4 v], next := k.next + 1 })))

/-! ## c (R132 to R144) -/

namespace Sys2Proof.Claims

/-- A transfer or LOOP is not in a delay bundle and not at the end of an active loop body (R134, R137). -/
def MayTransfer (s : State) : Prop := s.me.xfer = none ∧ ¬ ∃ l ∈ s.me.loops, l.active = true ∧ l.fin = s.me.pc

/-- The core leaves for a target after one more bundle (R133). -/
def leavingFor (k : Core) (target : Nat) : Core := { k with xfer := some (target % 2 ^ 56) }

end Sys2Proof.Claims

/-- R133 to R135: the transfers set the target that follows their delay bundle; RET pops the return stack and CLRSTK empties it; an
illegal target, place or stack depth is an illegal-operation fault. -/
def Sys2Proof.Claims.TransfersSetTheirTarget : Prop :=
  ∀ (s : State) (src : BitVec 9) (g : BitVec 6),
    (let x := (s.src1 (.jmp src g)).toNat
     GivesIf s (.jmp src g) (x < 2 ^ 32 ∧ (s.me.cb + x) % 4 = 0 ∧ MayTransfer s)
       (GivesLast s (.jmp src g) (fun k => leavingFor k (s.me.cb + x)))) ∧
    (let x := (s.src1 (.jmpr src g)).toNat
     GivesIf s (.jmpr src g) (x < 2 ^ 56 ∧ x % 4 = 0 ∧ MayTransfer s) (GivesLast s (.jmpr src g) (fun k => leavingFor k x))) ∧
    (∀ a r, s.me.rstack = a :: r →
      GivesIf s (.ret src g) (a % 4 = 0 ∧ MayTransfer s)
        (GivesLast s (.ret src g) (fun k => { leavingFor k a with rstack := r }))) ∧
    (s.me.rstack = [] → Stops s (.ret src g) (illegalOp s (.ret src g))) ∧
    GivesLast s (.clrstk src g) (fun k => { k with rstack := [] })

/-- R135: CALL leaves for its target, pushes the address of the bundle after the delay bundle and puts it on the way to c.r. Where the
delay bundle's header can be fetched, that address is the delay bundle's plus its length. With 8 entries CALL is illegal. -/
def Sys2Proof.Claims.CallPushesItsReturnAddress : Prop :=
  ∀ (s : State) (src : BitVec 9) (g : BitVec 6),
    let x := (s.src1 (.call src g)).toNat
    let i : Instr := .call src g
    (x < 2 ^ 32 ∧ (s.me.cb + x) % 4 = 0 ∧ MayTransfer s ∧ s.me.rstack.length < 8 → s.Clear i →
      ∃ t s1 ra, exec i s = .next t ∧ s.OnlyCore s1 i ∧ s.me.Bookkept (s1.core s.cur) i.rowTiles ∧ s.OnlyCore t i ∧
        (∀ bs, (s1.fetchBytes s.cur ((s.me.pc + 8) % 2 ^ 56) 4).2 = .ok bs →
          ra = ((s.me.pc + 8) % 2 ^ 56 + bundleLen (ofBytes bs)) % 2 ^ 56) ∧
        t.core s.cur = { s1.core s.cur with
          xfer := some ((s.me.cb + x) % 2 ^ 56)
          rstack := ra :: s.me.rstack
          pend := s.me.pend ++ [resultS s 1 5 (BitVec.ofNat 64 ra)]
          next := s.me.next + 1
          turn := true }) ∧
    (¬(x < 2 ^ 32 ∧ (s.me.cb + x) % 4 = 0 ∧ MayTransfer s ∧ s.me.rstack.length < 8) → Stops s i (illegalOp s i))

/-- R133 to R135: JMP, JMPR, RET, CLRSTK and CALL. -/
def Obligations.TransfersAndCallsSetTheirTarget : Prop := Sys2Proof.Claims.TransfersSetTheirTarget ∧ Sys2Proof.Claims.CallPushesItsReturnAddress


/-- R136, R31: LOOP with a trip count makes its level active from the next bundle to the body end; c.o = 0 takes the loop table's trip
count of a temporal level, and 0 elsewhere. With 0 trips the body is skipped: no stride is applied, and the bundle after the body end, where
the body end's header can be fetched, issues one cycle later. A value out of range, a body end below the body start, or a place where no LOOP
may stand is illegal. -/
def Sys2Proof.Claims.LoopOpensItsLevel : Prop :=
  ∀ (s : State) (src : BitVec 9) (l : BitVec 3) (g : BitVec 6),
    let i : Instr := .loop src l g
    let x := (s.src1 i).toNat
    let o := (s.me.sop.getD 5 0).toNat
    let start := (s.me.pc + 8) % 2 ^ 56
    let legal : Prop := x < 2 ^ 32 ∧ x % 4 = 0 ∧ o < 2 ^ 32 ∧ start ≤ s.me.cb + x ∧ MayTransfer s
    (legal → o ≠ 0 → GivesLast s i (fun k =>
      { k with loops := k.loops.set l.toNat { active := true, remaining := o, start := start, fin := (s.me.cb + x) % 2 ^ 56 } })) ∧
    (legal → o = 0 → s.Clear i → ∃ t, exec i s = .next t ∧ s.OnlyCore t i ∧
      let trip := match (s.launch s.me.launch).img with
        | some im => (match im.levels[l.toNat]? with | some lv => if lv.kind = 0 then lv.trip else 0 | none => 0)
        | none => 0
      (trip ≠ 0 → (t.core s.cur).loops.getD l.toNat {} =
        if l.toNat < (t.core s.cur).loops.length then { active := true, remaining := trip, start := start, fin := (s.me.cb + x) % 2 ^ 56 }
        else {}) ∧
      (trip = 0 → ((t.core s.cur).loops.getD l.toNat {}).active = false ∧ (t.core s.cur).hold = some (s.me.lcyc + 2) ∧
        ∃ s1, s.OnlyCore s1 i ∧ s.me.Bookkept (s1.core s.cur) i.rowTiles ∧ (t.core s.cur).b = (s1.core s.cur).b ∧
          ∀ bs, (s1.fetchBytes s.cur ((s.me.cb + x) % 2 ^ 56) 4).2 = .ok bs →
            (t.core s.cur).pc = ((s.me.cb + x) % 2 ^ 56 + bundleLen (ofBytes bs)) % 2 ^ 56)) ∧
    (¬legal → Stops s i (illegalOp s i))

/-- R138, R139, R303: EXIT ends the task; TRAP takes the software trap, resuming at the bundle that would issue next, with the trap code; BRK
asks for a debug freeze when the context has the debug attribute, and else does nothing. That the freeze comes with the next cycle, of the three
that R346 allows, is the model's choice (log 116). -/
def Sys2Proof.Claims.ExitTrapAndBreakComplete : Prop :=
  ∀ (s : State) (src : BitVec 9) (g : BitVec 6),
    (s.Clear (.exit src g) → ∃ t k, exec (.exit src g) s = .next t ∧ s.me.Bookkept k [] ∧
      t.core s.cur = { k with status := .drain, stL := none, stX := none, stM := none, turn := true } ∧ t.mem = s.mem ∧
      (∀ d, d ≠ s.cur → t.core d = s.core d) ∧
      (t.launch s.me.launch) = { s.launch s.me.launch with exits := (s.launch s.me.launch).exits + 1 }) ∧
    (s.Clear (.trap src g) → ∃ t s1, exec (.trap src g) s = .next t ∧ s.OnlyCore s1 (.trap src g) ∧ s.me.Bookkept (s1.core s.cur) [] ∧
      (let st : Stop := { cause := 0x0F, slot := 0, info := (s.src1 (.trap src g)).toNat % 65536, baddr := some s.me.pc, resume := some (s1.core s.cur).pc }
       t.core s.cur = { (s1.takeStop s.cur st).core s.cur with softTick := true, turn := true })) ∧
    (s.Clear (.brk src g) → ∃ t, exec (.brk src g) s = .next t ∧ s.me.Bookkept (t.core s.cur) [] ∧ t.mem = s.mem ∧
      ((s.coreCtx s.cur).debug = true → (s.now + 1, Instr.debugFreeze) ∈ t.agenda) ∧
      ((s.coreCtx s.cur).debug = false → s.OnlyCore t (.brk src g)))

/-- R143: RDSR puts the status register's value on its way to c.r, WRSR writes under the access codes, and a reserved index is illegal. -/
def Obligations.StatusRegistersReadAndWrite : Prop :=
  ∀ (s : State) (src : BitVec 9) (g : BitVec 6),
    (let x := (s.src1 (.rdsr src g)).toNat
     let flag (b : Bool) (n : Nat) : Nat := if b then 2 ^ n else 0
     let v : Nat :=
       if x = 0 then flag s.me.inv 0 + flag s.me.arith 1
       else if x = 1 then ((List.range 14).map (fun j => flag (s.me.recs.getD j none).isSome j)).sum
       else if x = 2 then s.me.vmsel.toNat
       else if x = 3 then s.me.rstack.length
       else if x = 4 then s.me.cfo.toNat
       else if x = 5 then flag (s.coreCtx s.cur).schk 0 + flag (s.coreCtx s.cur).erc 1
       else if x = 6 then ((List.range s.me.loops.length).map (fun j => flag (s.me.loops.getD j {}).active j)).sum
       else ((s.me.recs.getD (x - 16) none).getD 0) % 2 ^ 56
     GivesIf s (.rdsr src g) (x ≤ 6 ∨ 16 ≤ x ∧ x ≤ 29)
       (GivesLast s (.rdsr src g) (fun k => { k with pend := k.pend ++ [resultS s 1 5 (BitVec.ofNat 64 v)], next := k.next + 1 }))) ∧
    (let x := (s.src1 (.wrsr src g)).toNat
     let v := s.me.sop.getD 5 0
     GivesIf s (.wrsr src g) (x ≤ 6 ∨ 16 ≤ x ∧ x ≤ 29)
       (GivesLast s (.wrsr src g) (fun k =>
         if x = 0 then { k with inv := k.inv && !v.getLsbD 0, arith := k.arith && !v.getLsbD 1 }
         else if x = 1 then { k with recs := (List.range 14).map (fun j => if v.getLsbD j then none else k.recs.getD j none) }
         else if x = 4 then { k with cfo := k.cfo &&& ~~~ (BitVec.ofNat 32 v.toNat) }
         else k)))

/-- R113, R141, R144, R140: IDLE clears the sticky state of the unit that c.o names; YIELDP puts 1 on its way to c.r at the first YIELDP
after a restore and 0 at any other; TFENCE completes when no record is set, and else takes the arithmetic trap with the first record's
address. -/
def Sys2Proof.Claims.IdleYieldpAndTfenceComplete : Prop :=
  ∀ (s : State) (src : BitVec 9) (g : BitVec 6),
    (let o := (s.me.sop.getD 5 0).toNat
     (o = 0 → GivesLast s (.idle src g) (fun k => { k with stL := none })) ∧
     (o = 1 → GivesLast s (.idle src g) (fun k => { k with stX := none })) ∧
     (o = 2 → GivesLast s (.idle src g) (fun k => { k with stM := none })) ∧
     (2 < o → Stops s (.idle src g) (illegalOp s (.idle src g)))) ∧
    GivesLast s (.yieldp src g) (fun k =>
      { k with pend := k.pend ++ [resultS s 1 5 (if s.me.yieldFlag then 1 else 0)], next := k.next + 1, yieldFlag := false }) ∧
    ((∀ r ∈ s.me.recs, r = none) → GivesLast s (.tfence src g) (fun k => k)) ∧
    (∀ n a, (∀ j, j < n → s.me.recs.getD j none = none) → s.me.recs[n]? = some (some a) →
      Stops s (.tfence src g) { cause := 0x0E, slot := 0, faddr := a, info := s.me.recset })

/-- R113, R138 to R141, R144, R303: EXIT, TRAP, BRK, IDLE, YIELDP and TFENCE. -/
def Sys2Proof.Claims.ControlOperationsComplete : Prop := Sys2Proof.Claims.ExitTrapAndBreakComplete ∧ Sys2Proof.Claims.IdleYieldpAndTfenceComplete


/-- R113, R136 to R141, R144, R303: LOOP, and the operations of c that end, stop or test a task. That the clocks stop in the cycle after a BRK,
of the 3 that R346 allows, is the model's choice (log 116). -/
def Obligations.LoopAndControlOperationsComplete : Prop := Sys2Proof.Claims.LoopOpensItsLevel ∧ Sys2Proof.Claims.ControlOperationsComplete


/-- R142: PHASE to the current phase changes nothing. To another phase of the image, with no tile of a leaving unit at ENGINE, it enters the
phase and lets the next bundle issue when the drain of 128 + 4 × D cycles is over, D being the dirty lines that leave L1. Out of range, or
with such a tile, it is illegal. Which lines leave L1 is the model's choice (log 13), and with it D. -/
def Obligations.PhaseEntersThePhase : Prop :=
  ∀ (s : State) (src : BitVec 9) (g : BitVec 6),
    let i : Instr := .phase src g
    let x := (s.src1 i).toNat
    let count := match (s.launch s.me.launch).img with | some im => im.phases.length | none => 0
    let units := s.phaseUnits s.me.launch x
    let left := s.me.l1.drop (512 * (sramUnits s.cur - units))
    (x < count → x = s.me.phase → GivesLast s i (fun k => k)) ∧
    (x < count → x ≠ s.me.phase → (∀ tile ∈ s.me.eng, tile / 16 < units) → s.Clear i →
      ∃ t, exec i s = .next t ∧ (t.core s.cur).phase = x ∧
        (t.core s.cur).drainTo = some (s.now + 1 + 128 + 4 * (left.filter (fun p => p.2.dirty != 0)).length)) ∧
    (count ≤ x ∨ (x ≠ s.me.phase ∧ ∃ tile ∈ s.me.eng, units ≤ tile / 16) → Stops s i (illegalOp s i))

/-! ## l, at, ra and fe (R167 to R186, R322, R323) -/

namespace Sys2Proof.Claims

/-- The state at which a trigger of `i` acts: only the sticky state of its unit is set (R101). -/
def atTrigger (s : State) (i : Instr) : State := s.setCore s.cur (s.me.setStickyOf (s.act1 i) true)

/-- ea := (VAL + s(offset)) mod 2^64 (R167). -/
def effAddr (s : State) (i : Instr) (b : BitVec 4) : Nat :=
  (((s.me.b.getD b.toNat {}).val.toNat + (s.src1 i).toInt : Int) % 2 ^ 64).toNat

/-- The lanes that VMASK selects (R190). -/
def lanesOn (s : State) : Nat := if s.me.vmsel.toNat < 8 then (s.me.q.getD s.me.vmsel.toNat 0).toNat else 2 ^ 64 - 1

/-- The bytes of a vector access: 4 for each lane that is on (R172). -/
def laneRuns (s : State) (ea : Nat) : List (Nat × Nat × Nat) :=
  (List.range 64).filterMap (fun j => if bitAt (lanesOn s) j then some (4 * j, (ea + 4 * j) % 2 ^ 64, 4) else none)

/-- The data latches of l. -/
def dataL (s : State) : V := (s.me.sop.getD 2 0).setWidth 2048

/-- Translation and rights of an access: what each run of bytes comes to. -/
def lookups (s : State) (i : Instr) (r : Req) : List (Except (Cause × Nat) (List Piece)) :=
  ((atTrigger s i).xlateChunks s.cur { r := r.isRead, w := r.isWrite } (r.log = some 0) r.chunks).2

/-- The same with alignment: a run that is not aligned has that fault before any other (R169, R339). -/
def runFaults (s : State) (i : Instr) (r : Req) : List (Except (Cause × Nat) (List Piece)) :=
  (r.chunks.zip (lookups s i r)).map (fun q => if q.1.2.1 % r.align = 0 then q.2 else .error (.align, q.1.2.1))

/-- The access is aligned (R169), and every byte has a place and the rights (R63, R319). -/
def Allowed (s : State) (i : Instr) (r : Req) : Prop := firstFault (fun _ => true) (runFaults s i r) = none

/-- What an issue that puts an access in flight may change: of the package the core, the translations that its group has learnt and
the model's counter; of the core the access, the translations and what the end of a bundle changes. -/
structure Flown (s t : State) (i : Instr) (o : MOp) (f : Core → Core) : Prop where
  rest : t = { s with cores := t.cores, dies := t.dies, ports := t.ports, fresh := t.fresh }
  others : ∀ d, d ≠ s.cur → t.core d = s.core d
  dies : ∀ d, t.die d = { s.die d with gtlb := (t.die d).gtlb }
  queues : popOf i = none → t.ports = s.ports
  flight : (f { s.me with mops := s.me.mops ++ [o], next := s.me.next + 1, tlb := (t.core s.cur).tlb }).Bookkept (t.core s.cur) i.rowTiles

/-- The operation that an access puts in flight. Its time is the schedule's in the own scratch, else the implementation's (R106, R155); off
the schedule its single-copy-atomic units come about in no order among themselves (R152). -/
def flightOf (s : State) (i : Instr) (r : Req) (o : MOp) : Prop :=
  o = { id := s.me.next, op := i, slot := (s.act1 i).ic.slot, pc := s.me.pc, re := false, latch := r.latch, cls := r.cls, cyc := s.me.clk,
        due := o.due, fixed := o.fixed, ret := o.ret, scope := r.scope, isRead := r.isRead, isWrite := r.isWrite, ea := u64 r.ea,
        lcl := r.chunks.all (fun q => bitAt q.2.1 63), pieces := o.pieces, data := r.data, data2 := r.data2, fm := r.fm,
        k := r.k, aux := r.aux, logged := false, junk := !s.me.tagged && s.me.meetsEngine r.chunks, perf := false, val := r.known.getD 0,
        bundle := s.me.bundles } ∧
  o.pieces = (if o.fixed then okPieces (lookups s i r) else s.splitPieces r (okPieces (lookups s i r))) ∧
  ((∀ p ∈ okPieces (lookups s i r), ∃ off, placeOf p.loc = .scratch s.cur off) → (∀ q ∈ r.chunks, bitAt q.2.1 63 = true) → r.wideScope = false →
    o.fixed = true ∧ o.due = s.me.clk + r.perfAt ∧ o.ret = s.me.clk + r.latchAt)

/-- An access that is allowed, and not a store to a line that a side log holds (R323), is in flight after its issue. -/
def Flies (s : State) (i : Instr) (r : Req) (f : Core → Core := fun k => k) : Prop :=
  s.Clear i → Allowed s i r → (r.log.isSome → s.me.lineLogged r.lines = false) → ∃ t o, exec i s = .next t ∧ flightOf s i r o ∧ Flown s t i o f

/-- A read of n bytes, of l. -/
def readL (s : State) (i : Instr) (n : Nat) (a : BitVec 2) (b : BitVec 4) : Req :=
  { op := i, latch := 1, cls := a.toNat, isRead := true, ea := effAddr s i b, chunks := [(0, effAddr s i b, n)], perfAt := 5, latchAt := 5 }

/-- A store of n bytes of l.d, of l. -/
def storeL (s : State) (i : Instr) (n : Nat) (a : BitVec 2) (b : BitVec 4) : Req :=
  { op := i, cls := a.toNat, isWrite := true, ea := effAddr s i b, chunks := [(0, effAddr s i b, n)], perfAt := 4, latchAt := 4,
    data := dataL s, log := some 0 }

/-- The vector forms of l. -/
def vecReadL (s : State) (i : Instr) (a : BitVec 2) (b : BitVec 4) (runs : List (Nat × Nat × Nat)) : Req :=
  { op := i, latch := 2, cls := a.toNat, isRead := true, align := 4, ea := effAddr s i b, chunks := runs, perfAt := 5, latchAt := 5,
    units := true }
def vecStoreL (s : State) (i : Instr) (a : BitVec 2) (b : BitVec 4) : Req :=
  { op := i, cls := a.toNat, isWrite := true, align := 4, ea := effAddr s i b, chunks := laneRuns s (effAddr s i b), perfAt := 4,
    latchAt := 4, data := s.me.vop.getD 4 0, log := some 0, units := true }

/-- The runs of LDVS: lane j at ea + j × l.d. -/
def strideRuns (s : State) (ea : Nat) : List (Nat × Nat × Nat) :=
  (List.range 64).filterMap (fun j =>
    if bitAt (lanesOn s) j then some (4 * j, ((ea + j * (s.me.sop.getD 2 0).toInt : Int) % 2 ^ 64).toNat, 4) else none)

/-- An atomic of n bytes. -/
def atomic (s : State) (i : Instr) (n : Nat) (a : BitVec 2) (b : BitVec 4) : Req :=
  { op := i, latch := 3, cls := a.toNat, isRead := true, isWrite := true, align := n, ea := effAddr s i b,
    chunks := [(0, effAddr s i b, n)], perfAt := 9, latchAt := 9, data := dataL s, data2 := s.me.sop.getD 3 0 }

/-- The widest release scope of a task (R314): SURVIVABLE orders what PACKAGE does, and is noted as itself too (R10). -/
def withRelease (k : Core) (p : Nat) : Core :=
  { k with relScope := max k.relScope (if p = 7 then 4 else p), relSurv := k.relSurv || p == 7 }

/-- LDACQ and STREL. Only scope CORE on local scratch keeps the schedule's cycle (R155, R183). -/
def acquire (s : State) (i : Instr) (b : BitVec 4) (p : BitVec 3) : Req :=
  { op := i, latch := 1, scope := (if p = 7 then 4 else p.toNat), isRead := true, align := 8, ea := effAddr s i b,
    chunks := [(0, effAddr s i b, 8)], perfAt := 5, latchAt := 5, wideScope := !(bitAt (effAddr s i b) 63 && p == 0) }
def releaseStore (s : State) (i : Instr) (b : BitVec 4) (p : BitVec 3) : Req :=
  { op := i, scope := p.toNat, isWrite := true, align := 8, ea := effAddr s i b, chunks := [(0, effAddr s i b, 8)], perfAt := 4,
    latchAt := 4, data := dataL s, log := some 1, wideScope := !(bitAt (effAddr s i b) 63 && p == 0) }

/-- The stop of an access with a fault. -/
def addressFault (s : State) (i : Instr) (c : Cause) (a : Nat) : Stop := { cause := causeCode c, slot := (s.act1 i).ic.slot, faddr := a }

/-- An access that no side log takes: the fault of the first of its runs that has one stops it, with its cause and address (R169, R172,
R338, R339). -/
def FaultsAt (s : State) (i : Instr) (r : Req) : Prop :=
  ∀ f a, firstFault (fun _ => true) (runFaults s i r) = some (f, a) → Stops s i (addressFault s i f a)

end Sys2Proof.Claims

/-- R167, R169, R171, R172: every load of l goes into flight with its address, its bytes and its latch. -/
def Sys2Proof.Claims.LoadsGoIntoFlight : Prop :=
  ∀ (s : State) (src : BitVec 9) (a : BitVec 2) (b : BitVec 4) (g : BitVec 6),
    Flies s (.ld8s src a b g) (readL s (.ld8s src a b g) 1 a b) ∧
    Flies s (.ld8u src a b g) (readL s (.ld8u src a b g) 1 a b) ∧
    Flies s (.ld16s src a b g) (readL s (.ld16s src a b g) 2 a b) ∧
    Flies s (.ld16u src a b g) (readL s (.ld16u src a b g) 2 a b) ∧
    Flies s (.ld32s src a b g) (readL s (.ld32s src a b g) 4 a b) ∧
    Flies s (.ld32u src a b g) (readL s (.ld32u src a b g) 4 a b) ∧
    Flies s (.ld64 src a b g) (readL s (.ld64 src a b g) 8 a b) ∧
    (let i : Instr := .ldv src a b g
     Flies s i (vecReadL s i a b (laneRuns s (effAddr s i b)))) ∧
    (let i : Instr := .ldvs src a b g
     Flies s i (vecReadL s i a b (strideRuns s (effAddr s i b))))

/-- R167, R170, R171, R172: every plain store goes into flight with its address and its data; nothing is written yet. -/
def Sys2Proof.Claims.StoresGoIntoFlight : Prop :=
  ∀ (s : State) (src : BitVec 9) (a : BitVec 2) (b : BitVec 4) (g : BitVec 6),
    Flies s (.st8 src a b g) (storeL s (.st8 src a b g) 1 a b) ∧
    Flies s (.st16 src a b g) (storeL s (.st16 src a b g) 2 a b) ∧
    Flies s (.st32 src a b g) (storeL s (.st32 src a b g) 4 a b) ∧
    Flies s (.st64 src a b g) (storeL s (.st64 src a b g) 8 a b) ∧
    Flies s (.stv src a b g) (vecStoreL s (.stv src a b g) a b)

/-- R167, R169 to R172: the loads and the plain stores of l. -/
def Obligations.LoadsAndStoresGoIntoFlight : Prop := Sys2Proof.Claims.LoadsGoIntoFlight ∧ Sys2Proof.Claims.StoresGoIntoFlight


/-- R177, R178, R180: every atomic goes into flight on 8 bytes, AFADD on 4. A target in host memory is allowed to AADD, AXCHG and ACAS
alone, where the host's root accepts atomics, and is else the atomic-target fault. -/
def Sys2Proof.Claims.AtomicsGoIntoFlight : Prop :=
  ∀ (s : State) (src : BitVec 9) (a : BitVec 2) (b : BitVec 4) (g : BitVec 6),
    let AtomGives (i : Instr) (n : Nat) (travels : Bool) : Prop :=
      let r := atomic s i n a b
      ((∀ p ∈ okPieces (lookups s i r), ∀ h, placeOf p.loc = .host h → travels = true ∧ Config.hostAtomics = true) → Flies s i r) ∧
      (Allowed s i r → (∃ p ∈ okPieces (lookups s i r), ∃ h, placeOf p.loc = .host h) → (travels = false ∨ Config.hostAtomics = false) →
        Stops s i { cause := 0x0B, slot := (s.act1 i).ic.slot, faddr := r.ea })
    AtomGives (.aadd src a b g) 8 true ∧
    AtomGives (.asub src a b g) 8 false ∧
    AtomGives (.aand src a b g) 8 false ∧
    AtomGives (.aor src a b g) 8 false ∧
    AtomGives (.axor src a b g) 8 false ∧
    AtomGives (.amin src a b g) 8 false ∧
    AtomGives (.amax src a b g) 8 false ∧
    AtomGives (.aminu src a b g) 8 false ∧
    AtomGives (.amaxu src a b g) 8 false ∧
    AtomGives (.axchg src a b g) 8 true ∧
    AtomGives (.acas src a b g) 8 true ∧
    AtomGives (.aincw src a b g) 8 false ∧
    AtomGives (.afadd src a b g) 4 false ∧
    AtomGives (.abar src a b g) 8 false

/-- R182, R183: LDACQ and STREL go into flight with their scope; STREL widens the widest release scope of the task. -/
def Sys2Proof.Claims.AcquireAndReleaseGoIntoFlight : Prop :=
  ∀ (s : State) (src : BitVec 9) (b : BitVec 4) (p : BitVec 3) (g : BitVec 6),
    Flies s (.ldacq src b p g) (acquire s (.ldacq src b p g) b p) ∧
    Flies s (.strel src b p g) (releaseStore s (.strel src b p g) b p) (fun k => withRelease k p.toNat)

/-- R177, R178, R180, R182, R183: the atomics, LDACQ and STREL. -/
def Sys2Proof.Claims.AtomicsAcquiresAndReleasesGoIntoFlight : Prop := Sys2Proof.Claims.AtomicsGoIntoFlight ∧ Sys2Proof.Claims.AcquireAndReleaseGoIntoFlight


/-- R169, R338, R339: a load, an atomic or an LDACQ whose address is misaligned, out of range, unmapped or without the right takes no
effect and stops with that cause and the address. -/
def Obligations.ReadsAndAtomicsStopOnAddressFaults : Prop :=
  ∀ (s : State) (src : BitVec 9) (a : BitVec 2) (b : BitVec 4) (p : BitVec 3) (g : BitVec 6),
    FaultsAt s (.ld8s src a b g) (readL s (.ld8s src a b g) 1 a b) ∧
    FaultsAt s (.ld8u src a b g) (readL s (.ld8u src a b g) 1 a b) ∧
    FaultsAt s (.ld16s src a b g) (readL s (.ld16s src a b g) 2 a b) ∧
    FaultsAt s (.ld16u src a b g) (readL s (.ld16u src a b g) 2 a b) ∧
    FaultsAt s (.ld32s src a b g) (readL s (.ld32s src a b g) 4 a b) ∧
    FaultsAt s (.ld32u src a b g) (readL s (.ld32u src a b g) 4 a b) ∧
    FaultsAt s (.ld64 src a b g) (readL s (.ld64 src a b g) 8 a b) ∧
    FaultsAt s (.ldv src a b g) (vecReadL s (.ldv src a b g) a b (laneRuns s (effAddr s (.ldv src a b g) b))) ∧
    FaultsAt s (.ldvs src a b g) (vecReadL s (.ldvs src a b g) a b (strideRuns s (effAddr s (.ldvs src a b g) b))) ∧
    FaultsAt s (.ldacq src b p g) (acquire s (.ldacq src b p g) b p) ∧
    FaultsAt s (.aadd src a b g) (atomic s (.aadd src a b g) 8 a b) ∧
    FaultsAt s (.asub src a b g) (atomic s (.asub src a b g) 8 a b) ∧
    FaultsAt s (.aand src a b g) (atomic s (.aand src a b g) 8 a b) ∧
    FaultsAt s (.aor src a b g) (atomic s (.aor src a b g) 8 a b) ∧
    FaultsAt s (.axor src a b g) (atomic s (.axor src a b g) 8 a b) ∧
    FaultsAt s (.amin src a b g) (atomic s (.amin src a b g) 8 a b) ∧
    FaultsAt s (.amax src a b g) (atomic s (.amax src a b g) 8 a b) ∧
    FaultsAt s (.aminu src a b g) (atomic s (.aminu src a b g) 8 a b) ∧
    FaultsAt s (.amaxu src a b g) (atomic s (.amaxu src a b g) 8 a b) ∧
    FaultsAt s (.axchg src a b g) (atomic s (.axchg src a b g) 8 a b) ∧
    FaultsAt s (.acas src a b g) (atomic s (.acas src a b g) 8 a b) ∧
    FaultsAt s (.aincw src a b g) (atomic s (.aincw src a b g) 8 a b) ∧
    FaultsAt s (.afadd src a b g) (atomic s (.afadd src a b g) 4 a b) ∧
    FaultsAt s (.abar src a b g) (atomic s (.abar src a b g) 8 a b)

namespace Sys2Proof.Claims

/-- The entry that a store leaves in side log w (R322). -/
def logEntry (s : State) (r : Req) (w : Nat) : LogEnt :=
  { valid := true, ea := r.ea % 2 ^ 56, kind := logKind r.op, ac := if w = 0 then r.cls else 0, scope := if w = 0 then 0 else r.scope,
    data := r.data, lanes := BitVec.ofNat 64 (laneMask r), badr := s.me.pc, order := s.me.logOrd % 2 ^ 32, mop := s.me.next,
    bundle := s.me.bundles }

/-- The core with one more entry, in place n of side log w. -/
def withEntry (s : State) (r : Req) (w n : Nat) (k : Core) : Core :=
  let k1 : Core := { k with logOrd := k.logOrd + 1, next := k.next + 1 }
  if w = 0 then { k1 with logL := k.logL.set n (logEntry s r w) } else withRelease { k1 with logA := k.logA.set n (logEntry s r w) } r.scope

def logAt (k : Core) (w : Nat) : List LogEnt := if w = 0 then k.logL else k.logA

/-- Place n is the first free one of side log w, or there is none. -/
def FirstFree (s : State) (w n : Nat) : Prop :=
  n < 32 ∧ ((logAt s.me w).getD n {}).valid = false ∧ ∀ j, j < n → ((logAt s.me w).getD j {}).valid = true
def LogFull (s : State) (w : Nat) : Prop := ∀ j, j < 32 → ((logAt s.me w).getD j {}).valid = true

/-- What a store that misses memory comes to: the faults that stop it, whatever else it would touch (R170: of every page of the access), the
log that takes it at once behind an entry for its line, and the log that takes it with a notice when its page has no translation. -/
def StoreElse (s : State) (i : Instr) (r : Req) (w : Nat) : Prop :=
  let hard := (atTrigger s i).storeStop s.cur { r := r.isRead, w := r.isWrite } (r.log = some 0) r.chunks
  let aligned : Prop := ∀ q ∈ r.chunks, q.2.1 % r.align = 0
  (∀ q, r.chunks.find? (fun q => q.2.1 % r.align != 0) = some q → Stops s i (addressFault s i .align q.2.1)) ∧
  (∀ f a, aligned → s.me.lineLogged r.lines = false → firstFault (fun _ => true) (lookups s i r) = some (f, a) →
    (LogFull s w → Stops s i (addressFault s i f a)) ∧
    (∀ n g b, FirstFree s w n → hard = some (g, b) → Stops s i (addressFault s i g b)) ∧
    (∀ n, FirstFree s w n → hard = none → s.me.ss.length = 16 → s.Clear i → ∃ t, exec i s = .next t ∧
      logAt (t.core s.cur) w = logAt (withEntry s r w n s.me) w ∧ (t.core s.cur).mops = s.me.mops ∧
      ((t.core s.cur).ss.getD 4 0).toNat % 256 = 0x10 ∧ (t.core s.cur).ss.getD 7 0 = u64 r.ea ∧ (t.core s.cur).ss.getD 8 0 = u64 (n + 32 * w) ∧
      (t.core s.cur).status = .run ∧
      ((s.die (dieOf s.cur)).trapqn = 0 → t.mem = s.mem ∧ ∀ d, d ≠ s.cur → t.core d = s.core d))) ∧
  (aligned → s.me.lineLogged r.lines = true →
    (LogFull s w → Stops s i (addressFault s i .xlate r.ea)) ∧
    (∀ n, FirstFree s w n → s.Clear i → ∃ t, exec i s = .next t ∧ t.mem = s.mem ∧ (withEntry s r w n s.me).Bookkept (t.core s.cur) i.rowTiles ∧
      (∀ d, d ≠ s.cur → t.core d = s.core d)))

end Sys2Proof.Claims

/-- R169, R170, R322, R323: a plain store or STREL that does not go into flight stops, or a side log takes it. -/
def Obligations.StoresThatMissStopOrAreLogged : Prop :=
  ∀ (s : State) (src : BitVec 9) (a : BitVec 2) (b : BitVec 4) (p : BitVec 3) (g : BitVec 6),
    StoreElse s (.st8 src a b g) (storeL s (.st8 src a b g) 1 a b) 0 ∧
    StoreElse s (.st16 src a b g) (storeL s (.st16 src a b g) 2 a b) 0 ∧
    StoreElse s (.st32 src a b g) (storeL s (.st32 src a b g) 4 a b) 0 ∧
    StoreElse s (.st64 src a b g) (storeL s (.st64 src a b g) 8 a b) 0 ∧
    StoreElse s (.stv src a b g) (vecStoreL s (.stv src a b g) a b) 0 ∧
    StoreElse s (.strel src b p g) (releaseStore s (.strel src b p g) b p) 1

/-- R173 to R176: PREF goes into flight for a global line that may be cached and that it may read, and else does nothing; it never stops. A
woken WAITA puts an access in flight that holds the word it read at its home on this package, and keeps every register; a WAITA that faults
stops. -/
def Sys2Proof.Claims.PrefetchAndWaitComplete : Prop :=
  ∀ (s : State) (src : BitVec 9) (a : BitVec 2) (b : BitVec 4) (g : BitVec 6),
    (let i : Instr := .pref src a b g
     let ea := effAddr s i b
     let r : Req := { op := i, cls := a.toNat, isRead := true, ea := ea, chunks := [(0, ea, 1)], perfAt := 5, latchAt := 5,
                      aux := (s.me.sop.getD 2 0).toNat % 2 }
     (∀ p, lookups s i r = [.ok [p]] → bitAt ea 63 = false → cacheable s.cur p.loc = true → Flies s i r) ∧
     ((∀ p, lookups s i r = [.ok [p]] → bitAt ea 63 = true ∨ cacheable s.cur p.loc = false) → Gives s i s.me)) ∧
    (let i : Instr := .waita src a b g
     let ea := effAddr s i b
     let r : Req := { op := i, latch := 1, cls := a.toNat, isRead := true, align := 8, ea := ea, chunks := [(0, ea, 8)], perfAt := 5, latchAt := 5 }
     let s0 := atTrigger s i
     let z := s0.xlateChunk s.cur { r := true } false (0, ea, 8)
     (ea % 8 = 0 → ∀ ps, z.2 = .ok ps → (∀ p ∈ ps, p.loc < 2 ^ 64) → s.Clear i → ∃ t o, exec i s = .next t ∧ (t.core s.cur).mops.getLast? = some o ∧
       o.op = i ∧ o.latch = 1 ∧ o.isWrite = false ∧ o.val = (u64 (assemble (z.1.viewHome s.cur ps)).toNat).setWidth 2048 ∧
       (t.core s.cur).g = s.me.g ∧ (t.core s.cur).p = s.me.p ∧ (t.core s.cur).v = s.me.v ∧ (t.core s.cur).sres = s.me.sres) ∧
     FaultsAt s i r)

namespace Sys2Proof.Claims

/-- A fence in flight (R184, R185). -/
def fence (s : State) (i : Instr) (scope : Nat) (h : U64) : MOp :=
  { id := s.me.next, op := i, slot := 0, pc := s.me.pc, re := false, latch := 0, cls := 4, cyc := s.me.clk, due := s.now, fixed := false,
    ret := 0, scope := scope, isRead := false, isWrite := false, ea := 0, lcl := false, pieces := [], data := 0, data2 := h, fm := 0, k := 0,
    aux := 0, logged := false, junk := false, perf := false, val := 0, bundle := s.me.bundles }

/-- The core with a fence in flight, and the widest release scope of its task (R314). -/
def withFence (s : State) (i : Instr) (scope : Nat) (h : U64) : Core :=
  withRelease { s.me with mops := s.me.mops ++ [fence s i scope h], next := s.me.next + 1 } scope

end Sys2Proof.Claims

/-- R184, R157: the fences go into flight at their scope, SVFENCE at SURVIVABLE; SWFENCE takes the handle in trigger[15:0], and is illegal
below GROUP or at SURVIVABLE. -/
def Sys2Proof.Claims.FencesGoIntoFlight : Prop :=
  ∀ (s : State) (src : BitVec 9) (p : BitVec 3) (g : BitVec 6),
    Gives s (.fence src p g) (withFence s (.fence src p g) p.toNat 0) ∧
    Gives s (.fencew src p g) (withFence s (.fencew src p g) p.toNat 0) ∧
    Gives s (.svfence src g) (withFence s (.svfence src g) 7 0) ∧
    GivesIf s (.swfence src p g) (2 ≤ p.toNat ∧ p.toNat ≠ 7)
      (Gives s (.swfence src p g) (withFence s (.swfence src p g) p.toNat (BitVec.ofNat 64 ((s.src1 (.swfence src p g)).toNat % 65536))))

/-- R157, R173 to R176, R184: PREF, WAITA and the fences. -/
def Sys2Proof.Claims.PrefetchesWaitsAndFencesComplete : Prop := Sys2Proof.Claims.PrefetchAndWaitComplete ∧ Sys2Proof.Claims.FencesGoIntoFlight


/-- R157, R173 to R178, R180, R182 to R184: the atomics, LDACQ, STREL, PREF, WAITA and the fences. -/
def Obligations.AtomicsWaitsAndFencesGoIntoFlight : Prop := Sys2Proof.Claims.AtomicsAcquiresAndReleasesGoIntoFlight ∧ Sys2Proof.Claims.PrefetchesWaitsAndFencesComplete


/-! ## What accesses do when they perform (R151 to R157, R171, R172, R177, R180) -/

namespace Sys2Proof.Claims

/-- The number whose little-endian bytes lie from a location up. -/
def wordAt (s : State) (loc n : Nat) : Nat := ((List.range n).map (fun j => (s.rd (loc + j)).toNat * 2 ^ (8 * j))).sum

/-- A scratch location of core c, with n bytes below the end of the core's scratch window; nothing caches it, and no engine owns it. -/
def InScratch (s : State) (c loc n : Nat) : Prop :=
  ∃ off, loc = scratchLoc c off ∧ coreIdOk c = true ∧ off + n ≤ 2 ^ 21 ∧ ∀ j, j < n → (s.core c).eng.contains ((off + j) / 4096) = false

/-- An access of core c in flight on bytes of its own scratch, alone, on the schedule, and due. An operation that orders others has drained
what it must (R157, R181), a TIMED one before its issue. -/
structure Due (s : State) (c : Nat) (o : MOp) (loc n : Nat) (ps : List Piece) : Prop where
  alone : (s.core c).mops = [o]
  ticks : s.clkTicks c = true
  fixed : o.fixed = true
  due : o.due ≤ (s.core c).clk
  back : o.ret ≤ (s.core c).clk
  late : o.cyc + 5 ≤ (s.core c).clk
  waits : o.perf = false
  clean : o.junk = false
  place : o.pieces = ps
  held : (s.core c).held = []
  staged : o.orders = true → (s.core c).tagged = true → o.stage = 2 ∧ o.scope ≠ 7
  home : InScratch s c loc n
  logs : (s.core c).logsEmpty = true
  mem : Memory.wf s.mem = true
  clear : Open s loc n

/-- One piece of n bytes. -/
def whole (loc n : Nat) : List Piece := [{ off := 0, len := n, loc := loc }]

/-- The pieces of a vector access: 4 bytes at f i for each lane i of a mask (R172). -/
def lanesAt (f : Nat → Nat) (m : Nat) : List Piece :=
  (List.range 64).filterMap (fun i => if bitAt m i then some { off := 4 * i, len := 4, loc := f i } else none)

/-- Those of 256 consecutive bytes. -/
def lanePieces (loc m : Nat) : List Piece := lanesAt (fun i => loc + 4 * i) m

/-- A load of core c in flight on bytes of one line of HBM, alone, off the schedule, due at the end of this cycle, and its result due. -/
structure DueGlobal (s : State) (c : Nat) (o : MOp) (loc n : Nat) : Prop where
  alone : (s.core c).mops = [o]
  held : (s.core c).held = []
  free : o.fixed = false
  due : o.due ≤ s.now
  back : o.ret ≤ s.now
  late : o.cyc + 5 ≤ (s.core c).clk
  waits : o.perf = false
  clean : o.junk = false
  place : o.pieces = whole loc n
  inHbm : ∀ j, j < n → placeOf (loc + j) = .hbm
  oneLine : loc % 128 + n ≤ 128
  cached : s.l1Cap c ≠ 0

/-- The number whose little-endian bytes a line holds from a byte up. -/
def lineWord (l : CLine) (i n : Nat) : Nat := ((List.range n).map (fun j => (l.byte (i + j)).toNat * 2 ^ (8 * j))).sum

end Sys2Proof.Claims

/-- R107, R155, R171, R172: a load of l on the schedule returns the bytes of its address: sign-extended for the signed forms, zero-extended for
the others, and memory is as it was; LDV and LDVS put the 4 bytes of each lane that is on into its lane of l.vr, and 0 into the others.
R146, R147: a load of global memory returns the bytes that the core's L1 line holds, where they are dirty or the line is filled after the
core's mark; with no copy of the line it returns those of the home on its die. -/
def Obligations.LoadsReturnTheBytesOfTheirAddress : Prop :=
  ∀ (s : State) (c loc : Nat) (o : MOp) (src : BitVec 9) (a : BitVec 2) (b : BitVec 4) (g : BitVec 6),
    let Loads (i : Instr) (n : Nat) (v : U64) : Prop :=
      o.op = i → o.latch = 1 → o.isRead = true → o.isWrite = false → Due s c o loc n (whole loc n) →
        ∃ t, exec (.globalAccessReturn c o.id) s = .next t ∧ t.mem = s.mem ∧ (∀ d, d ≠ c → t.core d = s.core d) ∧
          t.core c = { s.core c with sres := (s.core c).sres.set 2 v, mops := [] }
    Loads (.ld8s src a b g) 1 (BitVec.ofInt 64 (BitVec.ofNat 8 (wordAt s loc 1)).toInt) ∧
    Loads (.ld8u src a b g) 1 (BitVec.ofNat 64 (wordAt s loc 1)) ∧
    Loads (.ld16s src a b g) 2 (BitVec.ofInt 64 (BitVec.ofNat 16 (wordAt s loc 2)).toInt) ∧
    Loads (.ld16u src a b g) 2 (BitVec.ofNat 64 (wordAt s loc 2)) ∧
    Loads (.ld32s src a b g) 4 (BitVec.ofInt 64 (BitVec.ofNat 32 (wordAt s loc 4)).toInt) ∧
    Loads (.ld32u src a b g) 4 (BitVec.ofNat 64 (wordAt s loc 4)) ∧
    Loads (.ld64 src a b g) 8 (BitVec.ofNat 64 (wordAt s loc 8)) ∧
    (let Lanes (f : Nat → Nat) (m : Nat) : Prop :=
       o.latch = 2 → o.isRead = true → o.isWrite = false → ∃ t, exec (.globalAccessReturn c o.id) s = .next t ∧ t.mem = s.mem ∧
         (∀ d, d ≠ c → t.core d = s.core d) ∧
         t.core c = { s.core c with
           vres := (s.core c).vres.set 3 (BitVec.ofNat 2048
             ((List.range 64).map (fun i => if bitAt m i then wordAt s (f i) 4 * 2 ^ (32 * i) else 0)).sum)
           mops := [] }
     (∀ m, o.op = .ldv src a b g → Due s c o loc 256 (lanePieces loc m) → Lanes (fun i => loc + 4 * i) m) ∧
     (∀ m f, o.op = .ldvs src a b g → Due s c o (scratchLoc c 0) 0 (lanesAt f m) → (∀ i, i < 64 → bitAt m i = true → InScratch s c (f i) 4) →
       Lanes f m)) ∧
    (let Global (i : Instr) (n : Nat) (v : Nat → U64) : Prop :=
       o.op = i → o.latch = 1 → o.isRead = true → o.isWrite = false → DueGlobal s c o loc n → ∀ x,
         ((∃ l, Tbl.find? (s.core c).l1 (lineOf loc) = some l ∧ x = lineWord l (loc % 128) n ∧
            ∀ j, j < n → l.isDirty (loc % 128 + j) = true ∨ (l.fresh (s.core c).l1Mark = true ∧ l.avail ≤ s.now)) ∨
          ((s.core c).l1 = [] ∧ Tbl.getD s.qsb (quadOf c) [] = [] ∧ s.stalled = [] ∧ homeDie (128 * lineOf loc) = some (dieOf c) ∧
            (s.core c).l1Mark ≤ (s.core c).fills ∧ x = wordAt s loc n)) →
         ∃ t, exec (.globalAccessReturn c o.id) s = .next t ∧ t.mem = s.mem ∧ (∀ d, d ≠ c → t.core d = s.core d) ∧
           (t.core c).sres = (s.core c).sres.set 2 (v x) ∧ (t.core c).mops = [] ∧ (t.core c).g = (s.core c).g
     Global (.ld8s src a b g) 1 (fun x => BitVec.ofInt 64 (BitVec.ofNat 8 x).toInt) ∧
     Global (.ld8u src a b g) 1 (fun x => BitVec.ofNat 64 x) ∧
     Global (.ld16s src a b g) 2 (fun x => BitVec.ofInt 64 (BitVec.ofNat 16 x).toInt) ∧
     Global (.ld16u src a b g) 2 (fun x => BitVec.ofNat 64 x) ∧
     Global (.ld32s src a b g) 4 (fun x => BitVec.ofInt 64 (BitVec.ofNat 32 x).toInt) ∧
     Global (.ld32u src a b g) 4 (fun x => BitVec.ofNat 64 x) ∧
     Global (.ld64 src a b g) 8 (fun x => BitVec.ofNat 64 x))

/-- R149, R155, R171: a plain store on the schedule writes the low bytes of l.d to its address and changes no other byte. -/
def Obligations.StoresWriteTheirBytesAndNoOther : Prop :=
  ∀ (s : State) (c loc : Nat) (o : MOp) (src : BitVec 9) (a : BitVec 2) (b : BitVec 4) (g : BitVec 6),
    let Stores (i : Instr) (n : Nat) : Prop :=
      o.op = i → o.isRead = false → o.isWrite = true → Due s c o loc n (whole loc n) →
        ∃ t, exec (.storePerformedAtHome c o.id) s = .next t ∧
          (∀ j, j < n → t.rd (loc + j) = BitVec.ofNat 8 (o.data.toNat / 2 ^ (8 * j))) ∧
          (∀ x, x < loc ∨ loc + n ≤ x → memGet t.mem x = memGet s.mem x) ∧
          (t.core c).mops = [{ o with perf := true }] ∧ (∀ d, d ≠ c → t.core d = s.core d)
    Stores (.st8 src a b g) 1 ∧ Stores (.st16 src a b g) 2 ∧ Stores (.st32 src a b g) 4 ∧ Stores (.st64 src a b g) 8 ∧
    (∀ m, o.op = .stv src a b g → o.isRead = false → o.isWrite = true → Due s c o loc 256 (lanePieces loc m) →
      ∃ t, exec (.storePerformedAtHome c o.id) s = .next t ∧
        (∀ i j, i < 64 → j < 4 → t.rd (loc + 4 * i + j) =
          if bitAt m i then BitVec.ofNat 8 (o.data.toNat / 2 ^ (8 * (4 * i + j))) else s.rd (loc + 4 * i + j)) ∧
        (∀ x, x < loc ∨ loc + 256 ≤ x → memGet t.mem x = memGet s.mem x) ∧
        (t.core c).mops = [{ o with perf := true }] ∧ (∀ d, d ≠ c → t.core d = s.core d))

namespace Sys2Proof.Claims

/-- The word that an arrival of n bytes leaves of a byte-barrier word x, if it writes one (R180). -/
def barWord (x n : Nat) : Option Nat :=
  if x / 2 ^ 48 = 0 then (if n = 0 then none else if n < x then some (x - n) else if n = x then some (2 ^ 48) else some (2 ^ 49))
  else if n = 0 ∨ 2 < x / 2 ^ 48 then none else some (2 ^ 49)

/-- The arrival writes a record: the word is no barrier, or it is overrun (R180). -/
def barOver (x n : Nat) : Bool := 2 < x / 2 ^ 48 || (n != 0 && !(x / 2 ^ 48 == 0 && decide (n ≤ x)))

/-- An atomic whose word is x leaves y, if it writes, and puts x into at.r for a read that is due (R107, R177). In TAGGED mode it reads as it writes;
in TIMED mode it writes what it leaves of the word that it read with the reads of the cycle (R155). An invalid event sets the sticky bit, and
with `rec` besides it writes the slot's record if that is clear (R68, R180). -/
def AtomLeaves (s : State) (c loc n : Nat) (o : MOp) (i : Instr) (y : Nat → Option Nat) (inv : Nat → Bool := fun _ => false)
    (mark : Nat → Bool := fun _ => false) : Prop :=
  o.op = i → o.isRead = true → o.isWrite = true → ((s.core c).tagged = true ∨ o.val = BitVec.ofNat 2048 (wordAt s loc n)) →
    Due s c o loc n (whole loc n) →
    ∃ t, exec (.storePerformedAtHome c o.id) s = .next t ∧
      wordAt t loc n = (y (wordAt s loc n)).getD (wordAt s loc n) ∧
      (∀ x, x < loc ∨ loc + n ≤ x → memGet t.mem x = memGet s.mem x) ∧
      (∃ o', (t.core c).mops = [o'] ∧ o'.perf = true ∧ o'.val = BitVec.ofNat 2048 (wordAt s loc n)) ∧
      (o.latch = 3 → o.cyc + 10 ≤ (s.core c).clk → (t.core c).readSres 3 = BitVec.ofNat 64 (wordAt s loc n)) ∧
      (t.core c).inv = ((s.core c).inv || inv (wordAt s loc n)) ∧ (t.core c).arith = (s.core c).arith ∧
      (t.core c).recs = (if (inv (wordAt s loc n) || mark (wordAt s loc n)) = true ∧ (s.core c).recs.getD o.slot none = none then
        (s.core c).recs.set o.slot (some o.pc) else (s.core c).recs)

end Sys2Proof.Claims

/-- R177, R180: each atomic reads its word and writes what the table of R177 says, as one access; at.r takes the word it read. An AFADD with an
invalid sum is an invalid event. An arrival on a byte-barrier word that is overrun, or of which it makes one, writes the slot's record and sets no
sticky bit. -/
def Obligations.AtomicsReadAndWriteTheirWord : Prop :=
  ∀ (s : State) (c loc : Nat) (o : MOp) (src : BitVec 9) (a : BitVec 2) (b : BitVec 4) (g : BitVec 6),
    let d : BitVec 64 := BitVec.ofNat 64 o.data.toNat
    let L (i : Instr) (y : BitVec 64 → BitVec 64) : Prop := AtomLeaves s c loc 8 o i (fun x => some (y (BitVec.ofNat 64 x)).toNat)
    L (.aadd src a b g) (fun x => x + d) ∧ L (.asub src a b g) (fun x => x - d) ∧ L (.aand src a b g) (fun x => x &&& d) ∧
    L (.aor src a b g) (fun x => x ||| d) ∧ L (.axor src a b g) (fun x => x ^^^ d) ∧
    L (.amin src a b g) (fun x => if x.sle d then x else d) ∧ L (.amax src a b g) (fun x => if x.sle d then d else x) ∧
    L (.aminu src a b g) (fun x => if x ≤ d then x else d) ∧ L (.amaxu src a b g) (fun x => if x ≤ d then d else x) ∧
    L (.axchg src a b g) (fun _ => d) ∧
    L (.aincw src a b g) (fun x => if d = 0 then x + 1 else BitVec.ofNat 64 ((x.toNat + 1) % d.toNat)) ∧
    AtomLeaves s c loc 8 o (.acas src a b g) (fun x => if x = d.toNat then some o.data2.toNat else none) ∧
    AtomLeaves s c loc 8 o (.abar src a b g) (fun x => barWord x (d.toNat % 2 ^ 48)) (fun _ => false)
      (fun x => barOver x (d.toNat % 2 ^ 48)) ∧
    AtomLeaves s c loc 4 o (.afadd src a b g) (fun x => some (encF32 (Machine.Num.add (decF32 x) (decF32 (d.toNat % 2 ^ 32))).1))
      (fun x => (Machine.Num.add (decF32 x) (decF32 (d.toNat % 2 ^ 32))).2)

/-! ## v (R187 to R204) -/

namespace Sys2Proof.Claims

/-- What a vector operation samples (R187, R190): a is the trigger value, b, c and the control word are v.o1, v.o2 and v.so. -/
def sampled (s : State) (i : Instr) (t : BitVec 3) : VIn :=
  let tile := s.me.t.getD ((s.me.sop.getD 8 0).toNat % 16) {}
  { t := t.toNat, a := s.vsrc1 i, b := s.me.vop.getD 0 0, c := s.me.vop.getD 1 0, ctl := s.me.sop.getD 8 0, active := lanesOn s,
    vr := s.me.readVres 0, vr2 := s.me.readVres 4, rows := (List.range 8).map (fun r => tile.rows.getD ((tile.ptr.toNat + r) % 32) 0),
    lgl := s.me.lgl }

/-- The newest value on its way to a vector result latch, else the one it holds. -/
def newest (k : Core) (n : Nat) : V :=
  ((k.pend.filterMap (fun p => match p.eff with | .vres j v => if j = n then some v else none | _ => none)).getLast?).getD (k.readVres n)

/-- One more result on its way, of latency lat. -/
def onItsWay (k : Core) (lat : Nat) (e : Eff) : Core :=
  { k with pend := k.pend ++ [{ due := k.clk + lat - 1, seq := k.next, trig := true, eff := e }], next := k.next + 1 }

/-- The core with an invalid event of a slot (R68): the sticky bit, and the bundle's address in the slot's record if it is clear. -/
def withInvalid (k : Core) (slot : Nat) (ev : Bool) : Core :=
  if ev then { k with inv := true, recs := if k.recs.getD slot none = none then k.recs.set slot (some k.pc) else k.recs } else k

/-- The core with the results of a vector operation on their way, and its invalid event (R191, R68). -/
def withVector (k : Core) (lat : Nat) (o : VOut) : Core :=
  let k1 := match o.r with | some v => onItsWay k lat (.vres 0 v) | none => k
  let k2 := match o.r2 with | some v => onItsWay k1 lat (.vres 4 v) | none => k1
  let k3 := match o.s with | some v => onItsWay k2 lat (.sres 8 v) | none => k2
  withInvalid k3 8 o.inv

/-- A vector operation with the lane types and control fields that its row lists (R188, R189), its latency (R191) and its function. -/
def VecGives (s : State) (i : Instr) (t : BitVec 3) (legal : Prop) (lat : Nat) (f : VIn → VOut) : Prop :=
  GivesIf s i legal (Gives s i (withVector s.me lat (f (sampled s i t))))

end Sys2Proof.Claims

/-- R187 to R204: every operation of v completes at its issue with its lane types, its latency and its results, or is an illegal
operation; VMASK sets the selection, and BMM moves its tile's row pointer on by 8. In TAGGED mode the list that VTOPKM merges with may be the
one in the latches or the one on its way, and which it is stays free (R109, R191). -/
def Obligations.VectorOperationsComplete : Prop :=
  ∀ (s : State) (src : BitVec 9) (t : BitVec 3) (g : BitVec 6),
    VecGives s (.vadd src t g) t (True) 2 vAdd ∧
    VecGives s (.vsub src t g) t (True) 2 vSub ∧
    VecGives s (.vmul src t g) t (True) 4 vMul ∧
    VecGives s (.vmad src t g) t (True) 4 vMad ∧
    VecGives s (.vmin src t g) t (True) 2 vMin ∧
    VecGives s (.vmax src t g) t (True) 2 vMax ∧
    VecGives s (.vabs src t g) t (True) 2 vAbs ∧
    VecGives s (.vneg src t g) t (True) 2 vNeg ∧
    VecGives s (.vand src t g) t (True) 2 vAnd ∧
    VecGives s (.vor src t g) t (True) 2 vOr ∧
    VecGives s (.vxor src t g) t (True) 2 vXor ∧
    VecGives s (.vshl src t g) t (t.toNat < 6) 2 vShl ∧
    VecGives s (.vshr src t g) t (t.toNat < 6) 2 vShr ∧
    VecGives s (.vcmpeq src t g) t (True) 2 vCmpeq ∧
    VecGives s (.vcmplt src t g) t (True) 2 vCmplt ∧
    VecGives s (.vcmple src t g) t (True) 2 vCmple ∧
    VecGives s (.vsel src t g) t (True) 2 vSel ∧
    VecGives s (.vrcp src t g) t (t.toNat = 6 ∨ t.toNat = 7) 8 vRcp ∧
    VecGives s (.vrsq src t g) t (t.toNat = 6 ∨ t.toNat = 7) 8 vRsq ∧
    VecGives s (.vexp2 src t g) t (t.toNat = 6 ∨ t.toNat = 7) 8 vExp2 ∧
    VecGives s (.vlog2 src t g) t (t.toNat = 6 ∨ t.toNat = 7) 8 vLog2 ∧
    VecGives s (.vred src t g) t ((s.me.sop.getD 8 0).toNat % 16 < 6) 6 vRed ∧
    VecGives s (.vscan src t g) t ((s.me.sop.getD 8 0).toNat % 16 < 6) 6 vScan ∧
    VecGives s (.vshuf src t g) t (True) 2 vShuf ∧
    VecGives s (.vbcast src t g) t (True) 2 vBcast ∧
    VecGives s (.vpackg src t g) t (t.toNat = 0) 2 vPackg ∧
    VecGives s (.vclmul src t g) t (t.toNat = 1 ∨ t.toNat = 3 ∨ t.toNat = 5) 4 vClmul ∧
    VecGives s (.vpxor src t g) t (t.toNat = 0) 2 vPxor ∧
    VecGives s (.vtopk src t g) t (t.toNat = 0 ∨ t.toNat = 1 ∨ t.toNat = 6) 12 vTopk ∧
    (let i : Instr := .vtopkm src t g
     GivesIf s i (t.toNat = 0 ∨ t.toNat = 1 ∨ t.toNat = 6) (∃ a b, (a = s.me.readVres 0 ∨ s.me.tagged = true ∧ a = newest s.me 0) ∧
       (b = s.me.readVres 4 ∨ s.me.tagged = true ∧ b = newest s.me 4) ∧
       Gives s i (withVector s.me 12 (vTopkm { sampled s i t with vr := a, vr2 := b })))) ∧
    (let i : Instr := .bmm src t g
     let n := (s.me.sop.getD 8 0).toNat % 16
     let k := withVector s.me 10 (vBmm (sampled s i t))
     GivesIf s i (t.toNat = 6) (Gives s i { k with t := k.t.set n { (k.t.getD n {}) with ptr := (k.t.getD n {}).ptr + 8 } })) ∧
    (let i : Instr := .vmask src t g
     let m := (s.me.sop.getD 8 0).toNat % 16
     GivesIf s i (t.toNat = 0 ∧ m < 9) (Gives s i { s.me with vmsel := BitVec.ofNat 4 m }))

namespace Sys2Proof.Claims

/-- Element j of a result. -/
def resultAt (x : VIn) (o : VOut) (j : Nat) : Nat := elem (ltW x.t) (o.r.getD 0) j

/-- The pattern of an integer under the narrowing of R192: clamped to the type with control[63], else modulo 2^w. -/
def narrowed (x : VIn) (r : Int) : Nat :=
  let w := ltW x.t
  let lo : Int := if ltSigned x.t then -(2 ^ (w - 1)) else 0
  let hi : Int := if ltSigned x.t then 2 ^ (w - 1) - 1 else 2 ^ w - 1
  ((if x.ctl.getLsbD 63 then max lo (min hi r) else r) % 2 ^ w).toNat

/-- An element as an integer of its type. -/
def asInt (x : VIn) (e : Nat) : Int := if ltSigned x.t ∧ 2 ^ (ltW x.t - 1) ≤ e then (e : Int) - 2 ^ ltW x.t else e

end Sys2Proof.Claims

/-- R190, R192, R194, R195, R199: lane by lane, the integer functions of v. Arithmetic is exact and then narrowed, comparisons give all
ones or zero and count the lanes in which they hold, and a lane that VMASK leaves out takes v.o2. -/
def Obligations.VectorIntegerFunctionsAreTheTables : Prop :=
  ∀ (x : VIn) (j : Nat), x.t < 6 → j < 2048 / ltW x.t →
    let w := ltW x.t
    let on (j : Nat) : Bool := x.active.testBit (j * w / 32)
    let a := elem w x.a j
    let b := elem w x.b j
    let c := elem w x.c j
    let A := asInt x a
    let B := asInt x b
    let C := asInt x c
    let ones := 2 ^ w - 1
    let count (p : Nat → Nat → Bool) : Nat := ((List.range (2048 / w)).filter (fun n => on n && p (elem w x.a n) (elem w x.b n))).length
    (on j = true →
      resultAt x (vAdd x) j = narrowed x (A + B) ∧ resultAt x (vSub x) j = narrowed x (A - B) ∧ resultAt x (vMul x) j = narrowed x (A * B) ∧
      resultAt x (vMad x) j = narrowed x (A * B + C) ∧ resultAt x (vMin x) j = (if B < A then b else a) ∧
      resultAt x (vMax x) j = (if A < B then b else a) ∧ resultAt x (vAbs x) j = narrowed x |A| ∧ resultAt x (vNeg x) j = narrowed x (-A) ∧
      resultAt x (vAnd x) j = a &&& b ∧ resultAt x (vOr x) j = a ||| b ∧ resultAt x (vXor x) j = a ^^^ b ∧
      resultAt x (vShl x) j = narrowed x (A * 2 ^ (b % w)) ∧ resultAt x (vShr x) j = (A / 2 ^ (b % w) % 2 ^ w).toNat ∧
      resultAt x (vCmpeq x) j = (if a = b then ones else 0) ∧ resultAt x (vCmplt x) j = (if A < B then ones else 0) ∧
      resultAt x (vCmple x) j = (if A ≤ B then ones else 0) ∧ resultAt x (vSel x) j = (if c = 0 then b else a) ∧
      resultAt x (vShuf x) j = elem w x.a (b % (2048 / w)) ∧ resultAt x (vBcast x) j = elem w x.a (x.ctl.toNat % 256 % (2048 / w))) ∧
    (on j = false → ∀ f ∈ [vAdd, vSub, vMul, vMad, vMin, vMax, vAbs, vNeg, vAnd, vOr, vXor, vShl, vShr, vCmpeq, vCmplt, vCmple, vSel, vShuf,
      vBcast], resultAt x (f x) j = c) ∧
    (vCmpeq x).s = some (BitVec.ofNat 64 (count (fun p q => p == q))) ∧
    (vCmplt x).s = some (BitVec.ofNat 64 (count (fun p q => decide (asInt x p < asInt x q)))) ∧
    (vCmple x).s = some (BitVec.ofNat 64 (count (fun p q => decide (asInt x p ≤ asInt x q)))) ∧
    (vAdd x).inv = false ∧ (vMul x).inv = false ∧ (vMad x).inv = false

/-! ## x (R205 to R214) -/

namespace Sys2Proof.Claims

/-- CTRL (R206) and its fields. -/
def ctrl (s : State) : U64 := s.me.sop.getD 7 0
def ctrlBits (s : State) (lo n : Nat) : Nat := (ctrl s).toNat / 2 ^ lo % 2 ^ n

/-- The reserved bits of CTRL are 0, and RM is a code of 0 to 3 for an operation that rounds by it. -/
def CtrlLegal (s : State) (rounds : Bool) : Prop :=
  ctrlBits s 3 1 = 0 ∧ ctrlBits s 10 2 = 0 ∧ ctrlBits s 21 3 = 0 ∧ ctrlBits s 30 2 = 0 ∧ (rounds = true → ctrlBits s 0 3 < 4)

/-- The rounding mode of RM (R70). -/
def ctrlRound (s : State) : Rnd :=
  match ctrlBits s 0 3 with
  | 0 => .rne
  | 1 => .rz
  | 2 => .ru
  | _ => .rd

/-- The format register and the scale register that an operation reads, the bits of a container, the first chunk. -/
def format (s : State) (f : BitVec 4) : BitVec 32 := s.me.fm.getD f.toNat 0
def scales (s : State) : BitVec 1024 := s.me.k.getD (ctrlBits s 16 5) 0
def firstChunk (s : State) (c : Nat) : Nat := ctrlBits s 12 4 % (2048 / (64 * c))

/-- The place that a result for x.r takes among the operations of x behind an XLD in flight, so that a read takes the results in order of
issue (R107). -/
def markOf (k : Core) (i : Instr) (v : V) : MOp :=
  { id := k.next, op := i, slot := 8, pc := k.pc, re := false, latch := 4, cls := 4, cyc := k.clk, due := k.clk, fixed := true,
    ret := k.clk + 3, scope := 0, isRead := false, isWrite := false, ea := 0, lcl := false, pieces := [], data := 0, data2 := 0, fm := 0,
    k := 0, aux := 0, logged := false, junk := false, perf := true, val := v }

/-- What x.r comes to hold by the results on their way. -/
def soonX (k : Core) : V :=
  k.pend.foldl (fun q p => match p.eff with | .vres 1 v => v | .xchunk c ch codes => chunkPut q c ch codes | _ => q) (k.vres.getD 1 0)

/-- The operation of x whose result a chunk issued now is put into: the latest that a read four cycles on is due for (R107, R210; which one
is the model's choice, log 96). -/
def joined (k : Core) : Option MOp := (k.mops.filter (fun o => o.latch = 4 && decide (o.cyc + o.dueLat ≤ k.clk + 4))).getLast?

/-- A chunk behind an XLD in flight: with the rest of the latch that it is put into, once that is there. -/
def chunkMark (k : Core) (i : Instr) (c ch : Nat) (codes : List Nat) : MOp :=
  match joined k with
  | none => markOf k i (chunkPut (soonX k) c ch codes)
  | some b =>
    if b.perf then markOf k i (chunkPut b.val c ch codes)
    else { markOf k i 0 with perf := false, fixed := false, data := BitVec.ofNat 2048 (packNat c codes), aux := 32 * c + ch, mark := b.id }

/-- A result for x.r: behind an XLD in flight among the operations of x, else on its way by itself. -/
def intoX (k : Core) (m : MOp) (e : Eff) : Core :=
  if k.mops.any (fun o => o.latch = 4) then { k with mops := k.mops ++ [m], next := k.next + 1 } else onItsWay k 4 e

/-- 64 codes on their way into one chunk of x.r, with their invalid event. -/
def intoChunk (k : Core) (i : Instr) (c ch : Nat) (r : List Nat × Bool) : Core :=
  withInvalid (intoX k (chunkMark k i c ch r.1) (.xchunk c ch r.1)) 8 r.2

/-- A whole x.r of 64 words on its way. -/
def intoWhole (k : Core) (i : Instr) (r : List Nat × Bool) : Core :=
  withInvalid (intoX k (markOf k i (pack 32 r.1)) (.vres 1 (pack 32 r.1))) 8 r.2

/-- The generator has moved on, and the first word of the random-bit queue is gone (R73, R74). -/
def afterRandom (k : Core) : Core × U64 :=
  match k.rbq with
  | w :: r => ({ k with rng := (rngNext k.rng).1, rbq := r ++ [(rngNext k.rng).2] }, w)
  | [] => ({ k with rng := (rngNext k.rng).1 }, (rngNext k.rng).2)

end Sys2Proof.Claims

/-- R205 to R213: every conversion of x completes at its issue with its result on the way, or is illegal by CTRL; XSETF writes a legal
format into its register and nothing else, and XGETF reads one into x.s. The place of a result behind an XLD in flight is the model's choice
(log 96). -/
def Obligations.ConversionsComplete : Prop :=
  ∀ (s : State) (src : BitVec 9) (f : BitVec 4) (g : BitVec 6),
    let fm := format s f
    let c := containerBits fm
    let eb := ctrlBits s 24 6
    (let i : Instr := .xq src f g
     GivesIf s i (CtrlLegal s true)
       (Gives s i (intoChunk s.me i c (firstChunk s c) (cvtQ (s.vsrc1 i) fm (ctrlRound s) (scales s) eb (firstChunk s c))))) ∧
    (let i : Instr := .xqs src f g
     GivesIf s i (CtrlLegal s false) (Gives s i (intoChunk (afterRandom s.me).1 i c (firstChunk s c)
       (cvtQS (s.vsrc1 i) fm (afterRandom s.me).2 (scales s) eb (firstChunk s c))))) ∧
    (let i : Instr := .xdq src f g
     GivesIf s i (CtrlLegal s false) (Gives s i (intoWhole s.me i
       (cvtDQ ((List.range 64).map (fun e => chunkGet (s.vsrc1 i) c (firstChunk s c) e)) fm (scales s) eb (firstChunk s c), false)))) ∧
    (let i : Instr := .xsc src f g
     let z := fmtBlk fm
     let scs := cvtSC (s.vsrc1 i) fm
     let k1 := ((List.range scs.length).zip scs).foldl (fun k q =>
       onItsWay k 4 (.kent (ctrlBits s 16 5) ((eb + firstChunk s c * (64 / z) + q.1) % 64) q.2)) s.me
     GivesIf s i (CtrlLegal s false ∧ z ≠ 0) (Gives s i (onItsWay k1 4 (.sres 7 (u64 (packNat 16 scs)))))) ∧
    (let i : Instr := .xf2bf src g
     GivesIf s i (CtrlLegal s true) (Gives s i (intoChunk s.me i 16 (firstChunk s 16) (cvtF2BF (s.vsrc1 i) (ctrlRound s))))) ∧
    (let i : Instr := .xf2h src g
     GivesIf s i (CtrlLegal s true) (Gives s i (intoChunk s.me i 16 (firstChunk s 16) (cvtF2H (s.vsrc1 i) (ctrlRound s))))) ∧
    (let i : Instr := .xbf2f src g
     GivesIf s i (CtrlLegal s false) (Gives s i (intoWhole s.me i (cvtBF2F (s.vsrc1 i) (firstChunk s 16))))) ∧
    (let i : Instr := .xh2f src g
     GivesIf s i (CtrlLegal s false) (Gives s i (intoWhole s.me i (cvtH2F (s.vsrc1 i) (firstChunk s 16))))) ∧
    (let i : Instr := .xf2i src g
     GivesIf s i (CtrlLegal s true) (Gives s i (intoWhole s.me i (cvtF2I (s.vsrc1 i) (ctrlRound s))))) ∧
    (let i : Instr := .xi2f src g
     GivesIf s i (CtrlLegal s true) (Gives s i (intoWhole s.me i (cvtI2F (s.vsrc1 i) (ctrlRound s))))) ∧
    (let i : Instr := .xsetf src f g
     let w := (ctrl s).toNat % 2 ^ 32
     let S := w % 2
     let E := w / 2 % 8
     let M := w / 16 % 8
     let spec := w / 2 ^ 16 % 4
     GivesIf s i (2 ≤ S + E + M ∧ S + E + M ≤ 8 ∧ (spec = 1 → 1 ≤ E) ∧ (spec = 2 → S = 1) ∧ spec ≠ 3 ∧ w / 2 ^ 7 % 2 = 0 ∧ w / 2 ^ 20 = 0)
       (Gives s i { s.me with fm := s.me.fm.set f.toNat (BitVec.ofNat 32 w) })) ∧
    (let i : Instr := .xgetf src f g
     Gives s i (onItsWay s.me 4 (.sres 7 (BitVec.ofNat 64 fm.toNat))))

/-! ## The values of floats, reductions and conversions -/

namespace Sys2Proof.Claims

/-- A code of a format within its width (R57). -/
def codeWidth (f : Fmt) : Nat := f.s + f.e + f.m

/-- The sign bit of a code that has one, and whether the exponent field of a code is all ones (R75). -/
def signCode (f : Fmt) (c : Nat) : Bool := f.s == 1 && decide (1 ≤ f.e) && (c / 2 ^ (f.e + f.m)) % 2 == 1
def topExponent (f : Fmt) (c : Nat) : Bool := (c / 2 ^ f.m) % 2 ^ f.e == 2 ^ f.e - 1

/-- Codes of infinities, of NaNs and of finite values (R75). -/
def infCode (f : Fmt) (neg : Bool) (c : Nat) : Bool :=
  f.spec == 1 && decide (1 ≤ f.m) && decide (c < 2 ^ codeWidth f) && topExponent f c && c % 2 ^ f.m == 0 && signCode f c == neg
def isInf (f : Fmt) (c : Nat) : Bool := infCode f false c || infCode f true c
def nanCode (f : Fmt) (c : Nat) : Bool :=
  (f.spec == 2 && c == 2 ^ (codeWidth f - 1)) || (f.spec == 1 && topExponent f c && !(decide (1 ≤ f.m) && c % 2 ^ f.m == 0))
def finiteCode (f : Fmt) (c : Nat) : Bool := decide (c < 2 ^ codeWidth f) && !nanCode f c && !isInf f c

/-- The value of a code (R75). An infinity counts as the point of the grid after the greatest finite value, as rounding has it (R71). -/
def codeVal (f : Fmt) (c : Nat) : ℚ :=
  if f.e = 0 then (((c % 2 ^ f.m : Nat) : ℚ) - (if f.s = 1 ∧ c / 2 ^ f.m % 2 = 1 then 2 ^ f.m else 0)) * 2 ^ (-f.bias)
  else
    let x := c / 2 ^ f.m % 2 ^ f.e
    let n := c % 2 ^ f.m
    (if signCode f c then -1 else 1) * (if x = 0 then (n : ℚ) * 2 ^ (1 - f.bias - f.m) else ((2 ^ f.m + n : Nat) : ℚ) * 2 ^ ((x : Int) - f.bias - f.m))

/-- What a rounding mode may answer: a finite value, and the infinities that it overflows to (R71). -/
def roundable (f : Fmt) (md : Rnd) (c : Nat) : Bool :=
  finiteCode f c || (match md with | .rne => isInf f c | .ru => infCode f false c | .rd => infCode f true c | _ => false)

/-- A code is a value rounded by a mode (R70, R71), with the sign of a zero result (R67, R76): `neg` is the sign of an exact zero. -/
def RoundsTo (f : Fmt) (md : Rnd) (v : ℚ) (neg : Bool) (c : Nat) : Prop :=
  let d (c : Nat) : ℚ := |codeVal f c - v|
  roundable f md c = true ∧
  (codeVal f c = 0 → c = if (v < 0 ∨ v = 0 ∧ neg = true) ∧ f.s = 1 ∧ 1 ≤ f.e ∧ f.spec ≠ 2 then 2 ^ (f.e + f.m) else 0) ∧
  match md with
  | .rne => ∀ c', roundable f md c' = true → d c < d c' ∨ d c = d c' ∧ (codeVal f c' = codeVal f c ∨ c % 2 = 0)
  | .rz => |codeVal f c| ≤ |v| ∧ 0 ≤ codeVal f c * v ∧
      ∀ c', roundable f md c' = true → |codeVal f c'| ≤ |v| → 0 ≤ codeVal f c' * v → |codeVal f c'| ≤ |codeVal f c|
  | .ru => (v ≤ codeVal f c ∧ ∀ c', roundable f md c' = true → v ≤ codeVal f c' → codeVal f c ≤ codeVal f c') ∨
      ∀ c', roundable f md c' = true → codeVal f c' < v ∧ codeVal f c' ≤ codeVal f c
  | .rd => (codeVal f c ≤ v ∧ ∀ c', roundable f md c' = true → codeVal f c' ≤ v → codeVal f c' ≤ codeVal f c) ∨
      ∀ c', roundable f md c' = true → v < codeVal f c' ∧ codeVal f c ≤ codeVal f c'
  | .sr _ => True

/-- The canonical NaN of a wide format (R67), and a signalling NaN. -/
def canonical (f : Fmt) : Nat := (2 ^ f.e - 1) * 2 ^ f.m + 2 ^ (f.m - 1)
def signalling (f : Fmt) (c : Nat) : Bool := nanCode f c && c / 2 ^ (f.m - 1) % 2 == 0

/-- The infinity and the zero of a sign, and a code with its sign changed. -/
def infinity (f : Fmt) (neg : Bool) : Nat := (if neg then 2 ^ (f.e + f.m) else 0) + (2 ^ f.e - 1) * 2 ^ f.m
def zeroCode (f : Fmt) (neg : Bool) : Nat := if neg then 2 ^ (f.e + f.m) else 0
def flipped (f : Fmt) (c : Nat) : Nat := (c + 2 ^ (f.e + f.m)) % 2 ^ codeWidth f

/-- A sum, a product, the lesser and the greater of two codes of a wide format (R67, R193). -/
def SumIs (f : Fmt) (a b r : Nat) : Prop :=
  (nanCode f a = true ∨ nanCode f b = true → r = canonical f) ∧
  (isInf f a = true → isInf f b = true → r = if a = b then a else canonical f) ∧
  (isInf f a = true → finiteCode f b = true → r = a) ∧ (finiteCode f a = true → isInf f b = true → r = b) ∧
  (finiteCode f a = true → finiteCode f b = true → RoundsTo f .rne (codeVal f a + codeVal f b) (signCode f a && signCode f b) r)
def ProductIs (f : Fmt) (a b r : Nat) : Prop :=
  (nanCode f a = true ∨ nanCode f b = true → r = canonical f) ∧
  (nanCode f a = false → nanCode f b = false → (isInf f a = true ∨ isInf f b = true) →
    r = if codeVal f a = 0 ∨ codeVal f b = 0 then canonical f else infinity f (signCode f a != signCode f b)) ∧
  (finiteCode f a = true → finiteCode f b = true → RoundsTo f .rne (codeVal f a * codeVal f b) (signCode f a != signCode f b) r)
def LesserIs (f : Fmt) (a b r : Nat) : Prop :=
  r = if nanCode f a ∨ nanCode f b then canonical f
    else if codeVal f a < codeVal f b ∨ codeVal f a = codeVal f b ∧ signCode f a = true then a else b
def GreaterIs (f : Fmt) (a b r : Nat) : Prop :=
  r = if nanCode f a ∨ nanCode f b then canonical f
    else if codeVal f b < codeVal f a ∨ codeVal f a = codeVal f b ∧ signCode f b = true then a else b

/-- R125, R74, R273: HMIX mixes a 64-bit word by two multiplications and three shifts, and a 32-bit word by its own constants. -/
def HashesAreTheTables : Prop :=
  (∀ (x : Nat) (y : BitVec 64),
    let k1 := (y ^^^ (y >>> 33)) * 0xFF51AFD7ED558CCD#64
    let k2 := (k1 ^^^ (k1 >>> 33)) * 0xC4CEB9FE1A85EC53#64
    aluHmix x y.toNat 64 = (k2 ^^^ (k2 >>> 33)).toNat) ∧
  (∀ (x : Nat) (y : BitVec 32),
    let k1 := (y ^^^ (y >>> 16)) * 0x85EBCA6B#32
    let k2 := (k1 ^^^ (k1 >>> 13)) * 0xC2B2AE35#32
    aluHmix x y.toNat 32 = (k2 ^^^ (k2 >>> 16)).toNat)

/-- R190, R193, R195, R196, R67, R68: lane by lane, v on F32 and BF16. Arithmetic and the reciprocal functions give the exact value rounded once;
of VEXP2 the values at integers, and of VLOG2 those at powers of two, are stated, and of all of them the special cases. -/
def FloatFunctionsRoundOnce : Prop :=
  ∀ (x : VIn) (j : Nat), x.t = 6 ∨ x.t = 7 → j < 2048 / ltW x.t →
    let w := ltW x.t
    let f := if x.t = 7 then fmtBF16 else fmtF32
    let on (j : Nat) : Bool := x.active.testBit (j * w / 32)
    let a := elem w x.a j
    let b := elem w x.b j
    let c := elem w x.c j
    let A := codeVal f a
    let B := codeVal f b
    let C := codeVal f c
    let ones := 2 ^ w - 1
    let fin (c : Nat) : Prop := finiteCode f c = true
    let numbers : Prop := nanCode f a = false ∧ nanCode f b = false
    (on j = true →
      SumIs f a b (resultAt x (vAdd x) j) ∧ SumIs f a (flipped f b) (resultAt x (vSub x) j) ∧ ProductIs f a b (resultAt x (vMul x) j) ∧
      (fin a → fin b → fin c → RoundsTo f .rne (A * B + C) ((signCode f a != signCode f b) && signCode f c) (resultAt x (vMad x) j)) ∧
      (nanCode f a = true ∨ nanCode f b = true ∨ nanCode f c = true → resultAt x (vMad x) j = canonical f) ∧
      LesserIs f a b (resultAt x (vMin x) j) ∧ GreaterIs f a b (resultAt x (vMax x) j) ∧
      resultAt x (vAbs x) j = (if nanCode f a then canonical f else if signCode f a then flipped f a else a) ∧
      resultAt x (vNeg x) j = (if nanCode f a then canonical f else flipped f a) ∧
      (resultAt x (vCmpeq x) j = ones ↔ numbers ∧ A = B) ∧ (resultAt x (vCmpeq x) j = ones ∨ resultAt x (vCmpeq x) j = 0) ∧
      (resultAt x (vCmplt x) j = ones ↔ numbers ∧ A < B) ∧ (resultAt x (vCmplt x) j = ones ∨ resultAt x (vCmplt x) j = 0) ∧
      (resultAt x (vCmple x) j = ones ↔ numbers ∧ A ≤ B) ∧ (resultAt x (vCmple x) j = ones ∨ resultAt x (vCmple x) j = 0) ∧
      resultAt x (vAnd x) j = a &&& b ∧ resultAt x (vOr x) j = a ||| b ∧ resultAt x (vXor x) j = a ^^^ b ∧
      resultAt x (vSel x) j = (if c = 0 then b else a) ∧ resultAt x (vShuf x) j = elem w x.a (b % (2048 / w)) ∧
      resultAt x (vBcast x) j = elem w x.a (x.ctl.toNat % 256 % (2048 / w)) ∧
      (nanCode f a = true → ∀ g ∈ [vRcp, vRsq, vExp2, vLog2], resultAt x (g x) j = canonical f) ∧
      (fin a → A ≠ 0 → RoundsTo f .rne (1 / A) false (resultAt x (vRcp x) j)) ∧
      (fin a → A = 0 → resultAt x (vRcp x) j = infinity f (signCode f a) ∧ resultAt x (vRsq x) j = infinity f (signCode f a) ∧
        resultAt x (vLog2 x) j = infinity f true) ∧
      (isInf f a = true → resultAt x (vRcp x) j = zeroCode f (signCode f a)) ∧
      (a = infinity f false → resultAt x (vRsq x) j = 0 ∧ resultAt x (vExp2 x) j = infinity f false ∧ resultAt x (vLog2 x) j = infinity f false) ∧
      (a = infinity f true → resultAt x (vExp2 x) j = 0) ∧
      (nanCode f a = false → A < 0 → resultAt x (vRsq x) j = canonical f ∧ (vRsq x).inv = true ∧
        resultAt x (vLog2 x) j = canonical f ∧ (vLog2 x).inv = true) ∧
      (fin a → 0 < A →
        let r := resultAt x (vRsq x) j
        finiteCode f r = true ∧ signCode f r = false ∧ ∀ c', finiteCode f c' = true → signCode f c' = false →
          let mid := (codeVal f r + codeVal f c') / 2
          (codeVal f c' < codeVal f r → mid * mid * A < 1 ∨ mid * mid * A = 1 ∧ r % 2 = 0) ∧
          (codeVal f r < codeVal f c' → 1 < mid * mid * A ∨ mid * mid * A = 1 ∧ r % 2 = 0)) ∧
      (∀ n : Int, fin a → A = n → RoundsTo f .rne (2 ^ n) false (resultAt x (vExp2 x) j)) ∧
      (∀ n : Int, fin a → A = 2 ^ n → RoundsTo f .rne n false (resultAt x (vLog2 x) j))) ∧
    (on j = false → ∀ g ∈ [vAdd, vSub, vMul, vMad, vMin, vMax, vAbs, vNeg, vAnd, vOr, vXor, vCmpeq, vCmplt, vCmple, vSel, vShuf, vBcast,
      vRcp, vRsq, vExp2, vLog2], resultAt x (g x) j = c) ∧
    ((∀ n, n < 2048 / w → on n = true → fin (elem w x.a n) ∧ fin (elem w x.b n) ∧ fin (elem w x.c n)) →
      ∀ g ∈ [vAdd, vSub, vMul, vMad, vMin, vMax, vAbs, vNeg, vCmpeq, vCmplt, vCmple, vRcp, vExp2], (g x).inv = false) ∧
    (on j = true → signalling f a = true → ∀ g ∈ [vAdd, vSub, vMul, vMad, vMin, vMax, vAbs, vNeg, vCmpeq, vCmplt, vCmple, vRcp, vRsq, vExp2,
      vLog2], (g x).inv = true)

/-- The operation that ROP names, on two elements (R197). -/
def Combines (x : VIn) (a b r : Nat) : Prop :=
  let f := if x.t = 7 then fmtBF16 else fmtF32
  match x.ctl.toNat % 16 with
  | 0 => if x.t < 6 then r = narrowed x (asInt x a + asInt x b) else SumIs f a b r
  | 1 => if x.t < 6 then r = (if asInt x b < asInt x a then b else a) else LesserIs f a b r
  | 2 => if x.t < 6 then r = (if asInt x a < asInt x b then b else a) else GreaterIs f a b r
  | 3 => r = a &&& b
  | 4 => r = a ||| b
  | _ => r = a ^^^ b

/-- Its empty value (R197). -/
def emptyOf (x : VIn) : Nat :=
  let w := ltW x.t
  let f := if x.t = 7 then fmtBF16 else fmtF32
  match x.ctl.toNat % 16 with
  | 1 => if 6 ≤ x.t then infinity f false else if ltSigned x.t then 2 ^ (w - 1) - 1 else 2 ^ w - 1
  | 2 => if 6 ≤ x.t then infinity f true else if ltSigned x.t then 2 ^ (w - 1) else 0
  | 3 => 2 ^ w - 1
  | _ => 0

/-- The node of R87's tree that stands over 2^d elements from i·2^d on. -/
def treeNode (f : Nat → Nat → Nat) (el : Nat → Option Nat) : Nat → Nat → Option Nat
  | 0, i => el i
  | d + 1, i =>
    match treeNode f el d (2 * i), treeNode f el d (2 * i + 1) with
    | none, y => y
    | some p, none => some p
    | some p, some q => some (f p q)

/-- Element i of R88's scan after d levels. -/
def scanned (f : Nat → Nat → Nat) (el : Nat → Nat) : Nat → Nat → Nat
  | 0, i => el i
  | d + 1, i => if i < 2 ^ d then scanned f el d i else f (scanned f el d (i - 2 ^ d)) (scanned f el d i)

/-- R87, R88, R197, R198: VRED gives every element the root of its tree over the active elements, or the empty value, and v.s that value extended
by type; VSCAN gives each active element the doubling scan, in which inactive elements stand as the empty value, and leaves v.o2 in the others. -/
def ReductionsAndScansAreTrees : Prop :=
  ∀ (x : VIn) (f : Nat → Nat → Nat) (d : Nat), x.t < 8 → x.ctl.toNat % 16 < 6 → 2 ^ d = 2048 / ltW x.t →
    let w := ltW x.t
    let on (j : Nat) : Bool := x.active.testBit (j * w / 32)
    (∀ a b, a < 2 ^ w → b < 2 ^ w → f a b < 2 ^ w ∧ Combines x a b (f a b)) →
    (let r := (treeNode f (fun i => if on i then some (elem w x.a i) else none) d 0).getD (emptyOf x)
     (∀ j, j < 2 ^ d → resultAt x (vRed x) j = r) ∧
     (vRed x).s = some (if ltSigned x.t = true ∧ 2 ^ (w - 1) ≤ r then BitVec.ofInt 64 ((r : Int) - 2 ^ w) else BitVec.ofNat 64 r)) ∧
    ∀ j, j < 2 ^ d → resultAt x (vScan x) j =
      if on j then scanned f (fun i => if on i then elem w x.a i else emptyOf x) d j else elem w x.c j

/-- Whether a value stands above another in a top-k list (R200): by type, and on F32 every NaN below all numbers and −0 below +0. -/
def above (t a b : Nat) : Bool :=
  if t = 6 then
    !nanCode fmtF32 a && (nanCode fmtF32 b || decide (codeVal fmtF32 b < codeVal fmtF32 a) ||
      codeVal fmtF32 b == codeVal fmtF32 a && signCode fmtF32 b && !signCode fmtF32 a)
  else if t = 0 then (BitVec.ofNat 32 b).slt (BitVec.ofNat 32 a)
  else decide (b < a)

/-- The order of candidates, each a value, a position and a rank. -/
def ahead (t : Nat) (c d : Nat × Nat × Nat) : Bool :=
  above t c.1 d.1 || !above t d.1 c.1 && (decide (c.2.1 < d.2.1) || c.2.1 == d.2.1 && decide (c.2.2 < d.2.2))

/-- The first of some candidates stand in the lanes from 0 on, and the rest of the lanes is empty (R200). -/
def ListsFirst (x : VIn) (o : VOut) (cands : List (Nat × Nat × Nat)) : Prop :=
  let m := Nat.min (Nat.min (x.ctl.toNat % 128) 64) cands.length
  let lane (v : Option V) (j : Nat) : Nat := elem 32 (v.getD 0) j
  o.s = some (BitVec.ofNat 64 m) ∧ o.inv = false ∧
  ∃ best : List (Nat × Nat × Nat), best.length = m ∧ best.Pairwise (fun c d => ahead x.t c d = true) ∧ (∀ c ∈ best, c ∈ cands) ∧
    (∀ c ∈ cands, c ∉ best → ∀ d ∈ best, ahead x.t d c = true) ∧
    (∀ j, j < m → lane o.r j = (best.getD j (0, 0, 0)).1 ∧ lane o.r2 j = (best.getD j (0, 0, 0)).2.1) ∧
    (∀ j, m ≤ j → j < 64 → lane o.r j = (if x.t = 6 then 0xFF800000 else if x.t = 0 then 0x80000000 else 0) ∧ lane o.r2 j = 0xFFFFFFFF)

/-- R200: VTOPK takes the first K of its active lanes, and VTOPKM those of the list in v.r and v.r2 and of its active lanes; an entry whose position
is 2^32 − 1 is none. -/
def TopListsAreOrdered : Prop :=
  ∀ (x : VIn), x.t = 0 ∨ x.t = 1 ∨ x.t = 6 →
    let new := ((List.range 64).filter (fun i => x.active.testBit i && elem 32 x.b i != 0xFFFFFFFF)).map (fun i => (elem 32 x.a i, elem 32 x.b i, 64 + i))
    let old := ((List.range 64).filter (fun i => elem 32 x.vr2 i != 0xFFFFFFFF)).map (fun i => (elem 32 x.vr i, elem 32 x.vr2 i, i))
    ListsFirst x (vTopk x) new ∧ ListsFirst x (vTopkm x) (old ++ new)

/-- The scale of element e in chunk ch (R80, R208): 1 without blocks, else the value of its entry, finite and not 0. -/
def ScaledBy (fm : BitVec 32) (k : BitVec 1024) (eb ch e : Nat) (σ : ℚ) : Prop :=
  let z := fm.toNat / 2 ^ 18 % 4
  let entry := k.toNat / 2 ^ (16 * ((eb + ch * (64 / (8 * 2 ^ z)) + e / (8 * 2 ^ z)) % 64)) % 2 ^ 16
  (z = 0 ∧ σ = 1) ∨ (z ≠ 0 ∧ 1 ≤ entry / 128 ∧ entry / 128 ≤ 510 ∧ σ = (1 + ((entry % 128 : Nat) : ℚ) / 128) * 2 ^ ((entry / 128 : Nat) - 255 : Int))

/-- The value of a scale code that is finite and not 0 (R80). -/
def scaleVal (c : Nat) : ℚ := (1 + ((c % 128 : Nat) : ℚ) / 128) * 2 ^ ((c / 128 : Nat) - 255 : Int)

/-- R71, R72, R75, R76, R80, R81, R208, R210: XQ rounds each element over its scale to a code by the mode; XQS to the code below or above in
magnitude, by the random byte of the element; XDQ gives the exact product of code and scale, rounded once. -/
def QuantizingRoundsOnce : Prop :=
  ∀ (v : V) (fm : BitVec 32) (md : Rnd) (w : U64) (k : BitVec 1024) (eb ch e : Nat) (codes : List Nat) (σ : ℚ), fmtLegal fm.toNat = true → e < 64 →
    (∀ u, md ≠ .sr u) → ScaledBy fm k eb ch e σ →
    let f := fmtOf fm
    let a := elem 32 v e
    let A := codeVal fmtF32 a
    let c := (cvtQ v fm md k eb ch).1.getD e 0
    let cs := (cvtQS v fm w k eb ch).1.getD e 0
    let x := codes.getD e 0 % 2 ^ codeWidth f
    let y := (cvtDQ codes fm k eb ch).getD e 0
    (finiteCode fmtF32 a = true → RoundsTo f md (A / σ) (signCode fmtF32 a) c) ∧
    (nanCode fmtF32 a = true → ∀ z ∈ [c, cs],
      (f.spec = 0 → finiteCode f z = true ∧ ∀ z', finiteCode f z' = true → codeVal f z' ≤ codeVal f z) ∧
      (f.spec = 1 → z = 2 ^ (f.e + f.m) - 1) ∧ (f.spec = 2 → z = 2 ^ (codeWidth f - 1))) ∧
    (isInf fmtF32 a = true → f.spec = 1 → 1 ≤ f.m → f.s = 1 → ∀ z ∈ [c, cs], z = infinity f (signCode fmtF32 a)) ∧
    (∀ lo hi, finiteCode fmtF32 a = true → A ≠ 0 → RoundsTo f .rz (A / σ) false lo → finiteCode f hi = true → 0 < codeVal f hi * A →
      |A / σ| < |codeVal f hi| → (∀ c', finiteCode f c' = true → 0 < codeVal f c' * A → |A / σ| < |codeVal f c'| → |codeVal f hi| ≤ |codeVal f c'|) →
      codeVal f cs = if 256 * |codeVal f hi| ≤ 256 * |A / σ| + rndByte w e * (|codeVal f hi| - |codeVal f lo|) then codeVal f hi else codeVal f lo) ∧
    (∀ lo, finiteCode fmtF32 a = true → RoundsTo f .rz (A / σ) false lo → (∀ c', finiteCode f c' = true → 0 < codeVal f c' * A →
      |codeVal f c'| ≤ |A / σ|) → codeVal f cs = codeVal f lo) ∧
    (finiteCode f x = true → RoundsTo fmtF32 .rne (codeVal f x * σ) (signCode f x) y) ∧
    (nanCode f x = true → y = canonical fmtF32) ∧ (isInf f x = true → y = infinity fmtF32 (signCode f x)) ∧
    ((∀ n, n < 64 → finiteCode fmtF32 (elem 32 v n) = true ∧ ∃ σ, ScaledBy fm k eb ch n σ) →
      (cvtQ v fm md k eb ch).2 = false ∧ (cvtQS v fm w k eb ch).2 = false)

/-- R211: a block with a NaN takes the NaN-scale; one of zeros 0, or with an infinity 1; and one with a greatest magnitude the least scale under
which that magnitude stays within the format, or the greatest scale. -/
def ScalesFitTheirBlock : Prop :=
  ∀ (v : V) (fm : BitVec 32) (b : Nat) (mx : ℚ), fmtLegal fm.toNat = true → fm.toNat / 2 ^ 18 % 4 ≠ 0 →
    let f := fmtOf fm
    let z := 8 * 2 ^ (fm.toNat / 2 ^ 18 % 4)
    let el (i : Nat) : Nat := elem 32 v (b * z + i)
    let sb := (cvtSC v fm).getD b 0
    b < 64 / z → (∃ c, finiteCode f c = true ∧ codeVal f c = mx) → (∀ c, finiteCode f c = true → codeVal f c ≤ mx) → 0 < mx →
    ((∃ i, i < z ∧ nanCode fmtF32 (el i) = true) → sb = 0xFF80) ∧
    ((∀ i, i < z → nanCode fmtF32 (el i) = false) →
      ((∀ i, i < z → finiteCode fmtF32 (el i) = true → codeVal fmtF32 (el i) = 0) →
        sb = if ∃ i, i < z ∧ isInf fmtF32 (el i) = true then 0x7F80 else 0) ∧
      (∀ n, n < z → finiteCode fmtF32 (el n) = true → codeVal fmtF32 (el n) ≠ 0 →
        (∀ i, i < z → finiteCode fmtF32 (el i) = true → |codeVal fmtF32 (el i)| ≤ |codeVal fmtF32 (el n)|) →
        let q := |codeVal fmtF32 (el n)| / mx
        (q ≤ scaleVal 0xFF7F → 0x80 ≤ sb ∧ sb ≤ 0xFF7F ∧ q ≤ scaleVal sb ∧ ∀ c, 0x80 ≤ c → c < sb → scaleVal c < q) ∧
        (scaleVal 0xFF7F < q → sb = 0xFF7F)))

/-- R212, R67 to R69: the wide conversions of x. Between floats a value is rounded once, or kept; an integer is rounded by the mode and clamped, with
the invalid event for a NaN and for what lies outside. -/
def WideConversionsRoundOnce : Prop :=
  ∀ (v : V) (md : Rnd) (ch e : Nat), e < 64 → ch < 2 → (∀ u, md ≠ .sr u) →
    let a := elem 32 v e
    let A := codeVal fmtF32 a
    let h := elem 16 v (64 * ch + e)
    let fin : Prop := finiteCode fmtF32 a = true
    let narrows (f : Fmt) (l : List Nat × Bool) : Prop :=
      (fin → RoundsTo f md A (signCode fmtF32 a) (l.1.getD e 0)) ∧ (nanCode fmtF32 a = true → l.1.getD e 0 = canonical f) ∧
      (isInf fmtF32 a = true → l.1.getD e 0 = infinity f (signCode fmtF32 a))
    let widens (f : Fmt) (l : List Nat × Bool) : Prop :=
      (finiteCode f h = true → finiteCode fmtF32 (l.1.getD e 0) = true ∧ codeVal fmtF32 (l.1.getD e 0) = codeVal f h ∧
        signCode fmtF32 (l.1.getD e 0) = signCode f h) ∧
      (nanCode f h = true → l.1.getD e 0 = canonical fmtF32) ∧ (isInf f h = true → l.1.getD e 0 = infinity fmtF32 (signCode f h))
    let rounded (n : Int) : Prop :=
      match md with
      | .rne => |A - n| < 1 / 2 ∨ |A - n| = 1 / 2 ∧ n % 2 = 0
      | .rz => |(n : ℚ)| ≤ |A| ∧ |A| < |(n : ℚ)| + 1 ∧ 0 ≤ n * A
      | .ru => A ≤ n ∧ (n : ℚ) < A + 1
      | .rd => n ≤ A ∧ A < n + 1
      | .sr _ => False
    let i := (cvtF2I v md).1.getD e 0
    narrows fmtBF16 (cvtF2BF v md) ∧ narrows fmtF16 (cvtF2H v md) ∧ widens fmtBF16 (cvtBF2F v ch) ∧ widens fmtF16 (cvtH2F v ch) ∧
    RoundsTo fmtF32 md (BitVec.ofNat 32 a).toInt false ((cvtI2F v md).1.getD e 0) ∧
    (∀ n : Int, fin → rounded n →
      i = (if n < -(2 ^ 31) then 2 ^ 31 else if 2 ^ 31 - 1 < n then 2 ^ 31 - 1 else (n % 2 ^ 32).toNat) ∧
      ((n < -(2 ^ 31) ∨ 2 ^ 31 - 1 < n) → (cvtF2I v md).2 = true)) ∧
    (nanCode fmtF32 a = true → i = 0 ∧ (cvtF2I v md).2 = true) ∧
    (isInf fmtF32 a = true → i = (if signCode fmtF32 a then 2 ^ 31 else 2 ^ 31 - 1) ∧ (cvtF2I v md).2 = true) ∧
    ((∀ n, n < 64 → finiteCode fmtF32 (elem 32 v n) = true ∧ |codeVal fmtF32 (elem 32 v n)| < 2 ^ 31 - 1) → (cvtF2I v md).2 = false)

end Sys2Proof.Claims

/-- R66 to R72, R75, R76, R80, R81, R87, R88, R193 to R198, R200, R210 to R212: the values of HMIX, of v on floats, of reductions, scans and top-k
lists, and of the conversions of x. -/
def Obligations.FloatsListsAndConversionsHaveTheirValues : Prop :=
  Sys2Proof.Claims.HashesAreTheTables ∧ Sys2Proof.Claims.FloatFunctionsRoundOnce ∧ Sys2Proof.Claims.ReductionsAndScansAreTrees ∧
  Sys2Proof.Claims.TopListsAreOrdered ∧ Sys2Proof.Claims.QuantizingRoundsOnce ∧ Sys2Proof.Claims.ScalesFitTheirBlock ∧
  Sys2Proof.Claims.WideConversionsRoundOnce


/-! ## Accesses of x -/

namespace Sys2Proof.Claims

/-- ea of XLD and XST: the base register and the signed offset of CTRL (R214). -/
def convAddr (s : State) : Nat :=
  let off : Int := (BitVec.ofNat 32 (ctrlBits s 32 32)).toInt
  (((s.me.b.getD (ctrlBits s 4 4) {}).val.toNat + off : Int) % 2 ^ 64).toNat

end Sys2Proof.Claims

/-- R214: XLD puts a read of 64 containers in flight, to be dequantized into x.r; XST quantizes at its issue and puts the store of its 64
containers in flight. Both are aligned to their size, fault as loads do, and are illegal by CTRL. -/
def Sys2Proof.Claims.ConverterAccessesGoIntoFlight : Prop :=
  ∀ (s : State) (src : BitVec 9) (f : BitVec 4) (g : BitVec 6),
    let fm := format s f
    let c := containerBits fm
    let eb := ctrlBits s 24 6
    let ea := convAddr s
    (let i : Instr := .xld src f g
     let r : Req := { op := i, latch := 4, cls := ctrlBits s 8 2, isRead := true, align := 8 * c, ea := ea, chunks := [(0, ea, 8 * c)],
                      perfAt := 5, latchAt := 9, fm := fm, k := scales s, aux := eb * 16 + firstChunk s c }
     GivesIf s i (CtrlLegal s false) (Flies s i r ∧ FaultsAt s i r)) ∧
    (let i : Instr := .xst src f g
     let q := cvtQ (s.vsrc1 i) fm (ctrlRound s) (scales s) eb (firstChunk s c)
     let r : Req := { op := i, cls := ctrlBits s 8 2, isWrite := true, align := 8 * c, ea := ea, chunks := [(0, ea, 8 * c)],
                      perfAt := 7, latchAt := 7, data := BitVec.ofNat 2048 (packNat c q.1) }
     GivesIf s i (CtrlLegal s true) (Flies s i r (fun k => withInvalid k 8 q.2) ∧ FaultsAt s i r))

/-! ## m and the scale slot (R216 to R234) -/

namespace Sys2Proof.Claims

/-- MCTRL (R220) and its fields: the handle, the accumulator tile and the first scale register. -/
def mctrl (s : State) : Nat := (s.me.sop.getD 9 0).toNat
def mHandleOf (s : State) : Nat := mctrl s % 2 ^ 16
def mAccOf (s : State) : Nat := mctrl s / 2 ^ 16 % 16
def mKaOf (s : State) : Nat := mctrl s / 2 ^ 26 % 32

/-- Whether a resident block is the one that a handle names: macro, unit and tag (R217). -/
def named (h : Nat) (b : WBlock) : Bool := b.mac == h / 2 ^ 12 % 16 && b.unit == h / 2 ^ 6 % 64 && b.tag == h % 2 ^ 6

/-- The fault of a handle that names no block. -/
def noBlockStop : Stop := { cause := 0x0A, slot := 8 }

/-- One operand of a product: a core's A-row buffer with its format and scales from a first scale register on, and a block. -/
def operandOf (k : Core) (ka : Nat) (fm : BitVec 32) (b : WBlock) : MmaOp :=
  { fa := fm, buf := k.arow, scaleA := fun x => kEntry (k.k.getD (ka + x / 64) 0) (x % 64), fb := b.fmt, codes := b.codes, scales := b.scales }

def operand (s : State) (fm : BitVec 32) (b : WBlock) : MmaOp := operandOf s.me (mKaOf s) fm b

/-- The accumulator input: the newest product in flight on the tile, else the tile (R227). -/
def accumulator (k : Core) (n : Nat) : List V :=
  match (k.mma.filter (fun f => f.acc == n)).getLast? with
  | some f => f.res
  | none => (k.t.getD n {}).rows

/-- A product in flight: it lands in its accumulator `after` cycles behind its planes (R227, R228). -/
def productOf (k : Core) (acc mac : Nat) (fm : BitVec 32) (after : Nat) (res : List V) (quad : Bool) : MmaFly :=
  { acc := acc, cyc := k.clk, planes := planes fm, due := k.clk + 8 * planes fm + after, mac := mac, res := res, quad := quad }

/-- The checks of R226 on a block and the A format. -/
def Multiplies (s : State) (fm : BitVec 32) (b : WBlock) : Prop :=
  fmtBlk fm = fmtBlk b.fmt ∧ (fmtBlk fm ≠ 0 → mKaOf s + nbOf fm / 2 ≤ 32)

end Sys2Proof.Claims

/-- R225: WCLR evicts the block that HANDLE names: its units become free and its record, history included, is dropped. Of R220 to R231,
as far as stated below: MZERO, MRD, MSCL and MMA complete at their issue on the block that the handle names; a handle that names none, a
block size that differs and scale registers past k31 stop. -/
def Sys2Proof.Claims.MatrixOperationsComplete : Prop :=
  ∀ (s : State) (src : BitVec 9) (f : BitVec 4) (g : BitVec 6),
    let h := mHandleOf s
    let n := mAccOf s
    Gives s (.mzero src g) { s.me with t := s.me.t.set n { (s.me.t.getD n {}) with
      rows := List.replicate 32 0
      thr := if (s.me.t.getD n {}).ready then (s.me.t.getD n {}).thr
        else (List.range 32).map (fun r => (r, 0)) ++ (s.me.t.getD n {}).thr } } ∧
    Gives s (.wclr src g) { s.me with blocks := if mctrl s / 2 ^ 31 % 2 = 1 then [] else s.me.blocks.filter (fun b => !named h b) } ∧
    (s.me.blocks.find? (named h) = none →
      Stops s (.mrd src g) noBlockStop ∧ Stops s (.mscl src g) noBlockStop ∧ Stops s (.mma src f g) noBlockStop) ∧
    (∀ b, s.me.blocks.find? (named h) = some b →
      Gives s (.mrd src g) (onItsWay s.me 4 (.vres 2 (mrdRow b.fmt b.codes b.scales (mctrl s / 2 ^ 57)))) ∧
      (let nb := nbOf b.fmt
       let scs := (List.range nb).flatMap (fun i => (List.range 64).map (fun j => kEntry (s.me.k.getD (mKaOf s + i) 0) j))
       GivesIf s (.mscl src g) (nb ≠ 0 ∧ mKaOf s + nb ≤ 32)
         (Gives s (.mscl src g) { s.me with
           blocks := s.me.blocks.map (fun q => if q.mac == b.mac && q.unit == b.unit then
             { q with scales := scs, scl := true, nf := blockNF q.fmt q.codes scs } else q) })) ∧
      (let fm := format s f
       let r := mmaTile [operand s fm b] (accumulator s.me n)
       GivesIf s (.mma src f g) (Multiplies s fm b)
         (Gives s (.mma src f g) (withInvalid { s.me with mma := s.me.mma ++ [productOf s.me n (h / 2 ^ 12) fm 5 r.1 false], aptr := 0 } 8 r.2))))

/-- R220, R223, R224: WLD puts the read of its block in flight, with the block to be placed when its bytes are there; a unit that is not a
multiple of the block's units is illegal, and its address is aligned to 64 bytes and faults as a load's. -/
def Sys2Proof.Claims.WeightLoadGoesIntoFlight : Prop :=
  ∀ (s : State) (src : BitVec 9) (f : BitVec 4) (g : BitVec 6),
    let i : Instr := .wld src f g
    let fm := format s f
    let h := mHandleOf s
    let ea := (s.me.b.getD (mctrl s / 2 ^ 20 % 16) {}).val.toNat
    let bytes := 1024 * containerBits fm + 128 * nbOf fm
    let cls := mctrl s / 2 ^ 24 % 4
    let r : Req := { op := i, latch := 5, cls := cls, isRead := true, align := 64, ea := ea, chunks := [(0, ea, bytes)], perfAt := 5,
                     latchAt := 7 + (bytes + 255) / 256, fm := fm }
    let blk : WBlock := { mac := h / 2 ^ 12, unit := h / 2 ^ 6 % 64, tag := h % 64, fmt := fm, codes := 0, scales := [], nf := false,
                          src := u64 ea, cls := cls, oc := mctrl s / 2 ^ 56 % 2 == 1, oph := mctrl s / 2 ^ 32 % 2 ^ 16,
                          opg := mctrl s / 2 ^ 48 % 2 ^ 8, scl := false }
    let fits : Prop := h / 2 ^ 6 % 64 % (containerBits fm / 2) = 0
    GivesIf s i fits
      ((s.Clear i → Allowed s i r → ∃ t o, exec i s = .next t ∧ flightOf s i r o ∧
        Flown s t i o (fun k => { k with wld := k.wld ++ [{ blk := blk, usable := o.ret + 1, fixed := o.fixed, mop := o.id }] })) ∧
       FaultsAt s i r)

/-- R214, R224: XLD, XST and WLD. -/
def Obligations.ConverterAndWeightAccessesGoIntoFlight : Prop := Sys2Proof.Claims.ConverterAccessesGoIntoFlight ∧ Sys2Proof.Claims.WeightLoadGoesIntoFlight


/-- R228: MMAQ is illegal outside a TIMED gang with its whole quad. When all four members stand before an MMAQ with one A format and
nothing in the way, the first of them to issue puts the joint product, summed on member 0's accumulator, in flight on all four; a member
whose joint issue has come about takes its own part. -/
def Sys2Proof.Claims.QuadProductIsJoint : Prop :=
  ∀ (s : State) (src : BitVec 9) (f : BitVec 4) (g : BitVec 6),
    let i : Instr := .mmaq src f g
    let gang : Prop := s.me.tagged = false ∧ ∀ q ∈ quadCores s.cur, (s.core q).bound = true ∧ (s.core q).launch = s.me.launch
    let part (q : Nat) : Option (U64 × BitVec 32 × MmaOp) :=
      if q = s.cur then s.mmaqPart s.cur (oneSlot i) else (s.readyBundle q).bind (fun b => s.mmaqPart q b)
    (¬gang → Stops s i (illegalOp s i)) ∧
    (gang → s.me.mmaq ≠ some (2 * s.me.lcyc) → s.me.mmaq ≠ some (2 * s.me.lcyc + 1) → ∀ p0 p1 p2 p3,
      (quadCores s.cur).map part = [some p0, some p1, some p2, some p3] → (p1.2.1 = p0.2.1 ∧ p2.2.1 = p0.2.1 ∧ p3.2.1 = p0.2.1) →
      s.Clear i → ∃ t, exec i s = .next t ∧
        (let r := mmaTile [p0.2.2, p1.2.2, p2.2.2, p3.2.2] (accumulator (s.core ((quadCores s.cur).getD 0 0)) (mAcc p0.1))
         ∀ q p, (q, p) ∈ (quadCores s.cur).zip [p0, p1, p2, p3] →
           (t.core q).mma = (s.core q).mma ++ [productOf (s.core q) (mAcc p.1) (hMac (mHandle p.1)) p0.2.1 29 r.1 true])) ∧
    (∀ b, gang → s.me.blocks.find? (named (mHandleOf s)) = some b → Multiplies s (format s f) b →
      (s.me.mmaq = some (2 * s.me.lcyc) → Gives s i { s.me with aptr := 0 }) ∧
      (s.me.mmaq = some (2 * s.me.lcyc + 1) → Gives s i (withInvalid { s.me with aptr := 0 } 8 true)))

/-- R225 and, as far as stated, R220 to R233: the operations of m. That the flags of a product are recorded at its issue is the model's reading
(log 18), as is that an invalid joint sum marks all four members (R84, R228; log 107). -/
def Obligations.MatrixAndQuadOperationsComplete : Prop := Sys2Proof.Claims.MatrixOperationsComplete ∧ Sys2Proof.Claims.QuadProductIsJoint


/-- R233, R234: LDK, LDK1 and STK go into flight at VAL + 2 × offset on local scratch, and fault elsewhere; MVK copies a scale register
at the end of cycle t + 5. -/
def Obligations.ScaleSlotsComplete : Prop :=
  ∀ (s : State) (k j : BitVec 5) (b : BitVec 4) (o : BitVec 13) (g : BitVec 6),
    let ea := (((s.me.b.getD b.toNat {}).val.toNat + 2 * o.toInt : Int) % 2 ^ 64).toNat
    let OnScratch (i : Instr) (r : Req) : Prop :=
      (ea % 2 = 1 → Stops s i (addressFault s i .align ea)) ∧
      (ea % 2 = 0 → ea < 2 ^ 63 → Stops s i (addressFault s i .range ea)) ∧
      (ea % 2 = 0 → 2 ^ 63 ≤ ea → Flies s i r ∧ FaultsAt s i r)
    (let i : Instr := .ldk k b o g
     OnScratch i { op := i, latch := 6, cls := 0, isRead := true, align := 2, ea := ea, chunks := [(0, ea, 128)], perfAt := 5, latchAt := 5,
                   aux := k.toNat }) ∧
    (let i : Instr := .ldk1 k b o g
     OnScratch i { op := i, latch := 6, cls := 0, isRead := true, align := 2, ea := ea, chunks := [(0, ea, 2)], perfAt := 5, latchAt := 5,
                   aux := k.toNat }) ∧
    (let i : Instr := .stk k b o g
     OnScratch i { op := i, cls := 0, isWrite := true, align := 2, ea := ea, chunks := [(0, ea, 128)], perfAt := 4, latchAt := 4,
                   data := (s.me.k.getD k.toNat 0).setWidth 2048 }) ∧
    Gives s (.mvk k j g) { s.me with
      pend := s.me.pend ++ [{ due := s.me.clk + 5, seq := s.me.next, trig := false, eff := .kreg k.toNat (s.me.k.getD j.toNat 0) }]
      next := s.me.next + 1 }

/-! ## Commands and the speculation units (R237 to R240, R291) -/

namespace Sys2Proof.Claims

/-- 64 bytes at a local address lie in the scratch of the current phase (R63, R142). -/
def BlockInScratch (s : State) (ea : Nat) : Prop := 2 ^ 63 ≤ ea ∧ ea < 2 ^ 63 + 2 ^ 21 ∧ ea % 2 ^ 21 + 64 ≤ s.scratchLen s.cur

/-- The command that an acceptance queues (R238). -/
def commandOf (s : State) (i : Instr) : Cmd :=
  { seq := s.me.seq.toNat, tag := (s.me.sop.getD 6 0).setWidth 32, op := i, pc := s.me.pc, blkAddr := (s.src1 i).toNat % 2 ^ 21, acc := s.me.ecyc,
    accNow := s.now, clk := s.me.clk, rdcMark := s.me.rdcMark }

/-- A command is accepted, or its block's address stops it. -/
def Accepts (s : State) (i : Instr) : Prop :=
  let ea := (s.src1 i).toNat
  (ea % 64 ≠ 0 → Stops s i (addressFault s i .align ea)) ∧
  (ea % 64 = 0 → ¬BlockInScratch s ea → Stops s i (addressFault s i .range ea)) ∧
  (ea % 64 = 0 → BlockInScratch s ea → Gives s i { withResult s 1 6 (s.me.seq.setWidth 64) with
    cmds := s.me.cmds ++ [commandOf s i]
    seq := s.me.seq + 1
    eng := s.me.eng ++ [ea % 2 ^ 21 / 4096] })

/-- An operation of lp, bq or ps is accepted on Nared; its block, if it has one, is in scratch, and the block's tile goes to ENGINE. -/
def SpecAccepts (s : State) (i : Instr) (latch : Nat) (block : Bool) (arg : U64) : Prop :=
  let ea := (s.src1 i).toNat
  (dieOf s.cur = 1 → Stops s i (illegalOp s i)) ∧
  (dieOf s.cur ≠ 1 → block = true → ea % 64 ≠ 0 → Stops s i (addressFault s i .align ea)) ∧
  (dieOf s.cur ≠ 1 → block = true → ea % 64 = 0 → ¬BlockInScratch s ea → Stops s i (addressFault s i .range ea)) ∧
  (dieOf s.cur ≠ 1 → (block = true → ea % 64 = 0 ∧ BlockInScratch s ea) → s.Clear i → ∃ t o, exec i s = .next t ∧ s.OnlyCore t i ∧
    s.now + 5 ≤ o.due ∧
    o = { id := s.me.next, op := i, latch := latch, bundle := s.me.pc, due := o.due, perf := false, val := 0,
          blk := if block then some (ea % 2 ^ 21) else none, trig := s.src1 i, arg := arg, cyc := s.now, clk := s.me.clk, blkv := none } ∧
    ({ s.me with sops := s.me.sops ++ [o], next := s.me.next + 1, eng := if block then s.me.eng ++ [ea % 2 ^ 21 / 4096] else s.me.eng } : Core).Bookkept
      (t.core s.cur) i.rowTiles)

end Sys2Proof.Claims

/-- R237, R238: every engine command is accepted at its issue with a block in scratch: d.r takes SEQ, the command stands in the queue, and
its block's tile belongs to ENGINE. -/
def Sys2Proof.Claims.CommandsAreAccepted : Prop :=
  ∀ (s : State) (src : BitVec 9) (g : BitVec 6),
    Accepts s (.cpy2d src g) ∧ Accepts s (.cpym src g) ∧ Accepts s (.gath src g) ∧ Accepts s (.scat src g) ∧
    Accepts s (.fill src g) ∧ Accepts s (.kvs src g) ∧ Accepts s (.kvapp src g) ∧ Accepts s (.kvfork src g) ∧
    Accepts s (.kvdrop src g) ∧ Accepts s (.nrf src g) ∧ Accepts s (.prism src g) ∧ Accepts s (.migr src g) ∧
    Accepts s (.enq src g) ∧ Accepts s (.mreb src g) ∧ Accepts s (.score src g) ∧ Accepts s (.rfill src g)

/-- R291: every operation of ps, lp and bq is accepted at its issue on Nared, and is illegal on the other die. -/
def Sys2Proof.Claims.SpeculationOperationsAreAccepted : Prop :=
  ∀ (s : State) (src : BitVec 9) (g : BitVec 6),
    SpecAccepts s (.pslook src g) 9 true 0 ∧
    SpecAccepts s (.psdep src g) 9 true 0 ∧
    SpecAccepts s (.psrel src g) 9 true 0 ∧
    SpecAccepts s (.pspin src g) 9 true 0 ∧
    SpecAccepts s (.lpsub src g) 10 true 0 ∧
    SpecAccepts s (.lpdep src g) 10 false 0 ∧
    SpecAccepts s (.lpres src g) 10 true (s.me.sop.getD 11 0) ∧
    SpecAccepts s (.lprb src g) 10 false 0 ∧
    SpecAccepts s (.lpset src g) 10 true 0 ∧
    SpecAccepts s (.bqpush src g) 11 true 0 ∧
    SpecAccepts s (.bqpop src g) 11 true (s.me.sop.getD 12 0) ∧
    SpecAccepts s (.bqreq src g) 11 true (s.me.sop.getD 12 0)

/-- R237, R238, R291: the commands of d and the operations of ps, lp and bq. -/
def Obligations.CommandsAndSpeculationOperationsAreAccepted : Prop := Sys2Proof.Claims.CommandsAreAccepted ∧ Sys2Proof.Claims.SpeculationOperationsAreAccepted


/-! ## Privileged operations (R116, R301 to R305, R321, R324, R343 to R345) -/

namespace Sys2Proof.Claims

/-- Registers and latches that software sees are as they were, beside the privileged ones. -/
def SameRegisters (k k' : Core) : Prop :=
  k'.g = k.g ∧ k'.p = k.p ∧ k'.v = k.v ∧ k'.q = k.q ∧ k'.k = k.k ∧ k'.fm = k.fm ∧ k'.lgl = k.lgl ∧ k'.sop = k.sop ∧ k'.vop = k.vop ∧
  k'.sres = k.sres ∧ k'.vres = k.vres ∧ k'.recs = k.recs ∧ k'.vmsel = k.vmsel

/-- A privileged operation completes with `r` in ss0, and leaves the other registers. -/
def Answers (s t : State) (i : Instr) (r : Nat) : Prop :=
  exec i s = .next t ∧ (t.core s.cur).ss = s.me.ss.set 0 (BitVec.ofNat 64 r) ∧ SameRegisters s.me (t.core s.cur)

/-- The context that CTXSEL names, and the argument register. -/
def selected (s : State) : Nat := dieOf s.cur * 64 + (s.me.ss.getD 3 0).toNat % 64
def argument (s : State) : Nat := (s.me.ss.getD 1 0).toNat

/-- No copy of a core, nor its quad's store buffer, holds dirty bytes. -/
def Clean (s : State) (c : Nat) : Prop := (∀ l ∈ (s.core c).l1, l.2.dirty = 0) ∧ Tbl.getD s.qsb (quadOf c) [] = []

/-- A core number of the own die. -/
def CoreOfDie (s : State) (id : Nat) : Prop := coreIdOk id = true ∧ dieOf id = dieOf s.cur

/-- The operand of a privileged operation is one that its definition allows: else it is an illegal operation (R303, R321, R324, R343). -/
def OperandAllowed (s : State) (i : Instr) : Prop :=
  let x := (s.src1 i).toNat
  match i with
  | .tlbinv _ _ => x % 4 ≠ 3 ∧ x / 4 % 2 ^ 14 = 0
  | .replay _ _ => CoreOfDie s (x % 2 ^ 12) ∧ x / 2 ^ 12 % 4 < 2
  | .logrd _ _ => CoreOfDie s (x % 2 ^ 12) ∧ x / 2 ^ 12 % 4 < 2
  | .ctxsave _ _ => x % 64 = 0
  | .ctxload _ _ => x % 64 = 0
  | .freezem _ _ => x / 2 ^ 20 = 0
  | _ => True

end Sys2Proof.Claims

/-- R116, R117, R302: in a context without PRIV, a slot that names a privileged latch or triggers sys does not issue: the privilege fault of
its slot stops the task before any effect. An operand that its operation does not allow is an illegal operation (R303), which comes before the
privilege fault (R117, R339): that order for a limit of an operand, and for the reserved bits of FREEZEM, is the model's reading (logs 14, 57). -/
def Obligations.PrivilegedSlotsStopWithoutPrivilege : Prop :=
  ∀ (s : State) (i : Instr), i.wf = true → s.me.status = .run → (s.coreCtx s.cur).priv = false → popOf i = none → pushOf i = none →
    s.me.stL = none → s.me.stX = none → s.me.stM = none →
    (∀ src d g, i = .move false src d g → (0x70 ≤ src.toNat ∧ src.toNat < 0x80 ∨ 0x70 ≤ d.toNat ∧ d.toNat < 0x80) →
      exec i s = .next ((s.stopAt s.cur { cause := 5, slot := 0 }).turned s.cur)) ∧
    (∀ src g, i ∈ [.tlbinv src g, .ptwfence src g, .replay src g, .logrd src g, .ctxsave src g, .ctxload src g, .dispq src g, .freezem src g,
        .halt src g] →
      (i.holds s.me.p = true → OperandAllowed s i) → exec i s = .next ((s.stopAt s.cur { cause := 5, slot := 0 }).turned s.cur)) ∧
    (∀ src g, i ∈ [.tlbinv src g, .replay src g, .logrd src g, .ctxsave src g, .ctxload src g, .freezem src g] →
      i.holds s.me.p = true → ¬OperandAllowed s i →
      exec i s = .next ((s.stopAt s.cur { cause := 4, slot := 0 }).turned s.cur))

/-- R321, R322, R324, R303: TLBINV drops the translations that its operand selects from every TLB of the die. PTWFENCE completes once every
earlier store of the task has performed and no log holds one; the dirty bytes of the core's copies go home, and on Eplia across the bridge. REPLAY
performs an entry at its home, keeps and counts one that refaults, and freezes the task at a protection or range fault; ss0 counts both. LOGRD reads a word of a log entry; HALT ends the task and takes its core out of dispatch. -/
def Obligations.TranslationLogAndHaltOperationsComplete : Prop :=
  ∀ (s : State) (src : BitVec 9) (g : BitVec 6),
    (let i : Instr := .tlbinv src g
     let x := (s.src1 i).toNat
     let hit (e : TlbEnt) : Bool :=
       x % 4 == 2 || (e.ctx == selected s && (x % 4 == 1 || e.vpage == x / 2 ^ 16 % 2 ^ 40 * 65536 / 2 ^ e.bits))
     (x % 4 = 3 ∨ x / 4 % 2 ^ 14 ≠ 0 → Stops s i (illegalOp s i)) ∧
     (¬(x % 4 = 3 ∨ x / 4 % 2 ^ 14 ≠ 0) → s.Clear i → ∃ t, Answers s t i 0 ∧ t.mem = s.mem ∧
       (∀ c, (t.core c).tlb = if dieOf c = dieOf s.cur then (s.core c).tlb.filter (fun e => !hit e) else (s.core c).tlb) ∧
       (t.die (dieOf s.cur)).gtlb = (s.die (dieOf s.cur)).gtlb.map (fun q => (q.1, q.2.filter (fun e => !hit e))))) ∧
    (let i : Instr := .ptwfence src g
     s.Clear i → (s.me.sysw = none → s.me.logsEmpty = true ∧ ∀ o ∈ s.me.mops, (o.isWrite = true ∨ o.orders = true) → o.perf = true) ∧
       ∃ t, Answers s t i 0 ∧ ∀ line l d, s.me.l1 = [(line, l)] → Tbl.getD s.qsb (quadOf s.cur) [] = [] →
         (∀ j, j < 128 → homeDie (128 * line + j) = some d) → Open s (128 * line) 128 →
         (d = dieOf s.cur → Memory.wf s.mem = true → ∀ j, j < 128 →
           memGet t.mem (128 * line + j) = if l.isDirty j then l.byte j else memGet s.mem (128 * line + j)) ∧
         (d = 0 → dieOf s.cur = 1 → 1 < s.dies.length → (s.die 1).rdc = [] → ∀ j, j < 128 → l.isDirty j = true → ∃ m ∈ t.bridge,
           m.due = s.now + 40 ∧ m.loc ≤ 128 * line + j ∧ 128 * line + j < m.loc + m.bytes.length ∧
           m.bytes.getD (128 * line + j - m.loc) 0 = l.byte j)) ∧
    (let i : Instr := .replay src g
     let id := (s.src1 i).toNat % 2 ^ 12
     let unit := (s.src1 i).toNat / 2 ^ 12 % 4
     let k := s.core id
     GivesIf s i (CoreOfDie s id ∧ unit < 2) (s.Clear i → ∃ t r, Answers s t i r ∧ ((∀ e ∈ logAt k unit, e.valid = false) → r = 0) ∧
       ∀ j, j < 32 → (logAt k unit).length = 32 →
         let e := (logAt k unit).getD j {}
         let now := (logAt (t.core id) unit).getD j {}
         e.valid = true → e.going = false → (∀ n, n ≠ j → ((logAt k unit).getD n {}).valid = false) → (∀ x ∈ logAt k (1 - unit), x.valid = false) →
         (Clean s s.cur ∧ Clean s id) →
         (s.logPieces k.ctx e.spans = .error .xlate → r = 2 ^ 16 ∧ now = { e with refaulted := true, nref := Nat.min (e.nref + 1) 255 }) ∧
         (∀ f, s.logPieces k.ctx e.spans = .error f → f ≠ .xlate → r = 0 ∧ now = e ∧ (k.status = .run → (t.core id).freezeReq = true)) ∧
         (∀ p, s.logPieces k.ctx e.spans = .ok [p] → e.kind ≠ 5 → homeDie p.loc = some (dieOf id) → (∀ a b, placeOf p.loc ≠ .carafe a b) →
           s.engineTile p.loc = false → s.engineTile (p.loc + (p.len - 1)) = false → Open s p.loc p.len →
           r = 1 ∧ now = { e with valid := false } ∧
           Wrote s t p.loc ((List.range p.len).map (fun n => BitVec.ofNat 8 (e.data.toNat / 2 ^ (8 * (p.off + n)))))))) ∧
    (let i : Instr := .logrd src g
     let id := (s.src1 i).toNat % 2 ^ 12
     let unit := (s.src1 i).toNat / 2 ^ 12 % 4
     let e := (logAt (s.core id) unit).getD ((s.src1 i).toNat / 2 ^ 16 % 32) {}
     GivesIf s i (CoreOfDie s id ∧ unit < 2)
       (Gives s i { s.me with ss := s.me.ss.set 0 (BitVec.ofNat 64 (e.word (argument s % 4))) })) ∧
    (let i : Instr := .halt src g
     s.Clear i → ∃ t, Answers s t i 0 ∧ (t.core s.cur).status = .drain ∧ (t.core s.cur).haltEnd = true ∧ t.mem = s.mem ∧
       (t.launch s.me.launch).exits = (s.launch s.me.launch).exits + 1)

/-- R301, R305: CTXSAVE and CTXLOAD on a 64-byte aligned address, and DISPQ. A context with a launch is busy, a record with a value outside
its limits is bad, and neither changes the context; a queue is bound once. That a context in use answers BUSY whatever its record holds is the
model's reading (log 58), and so is that DISPQ keeps the lines of the descriptor as they are translated at the bind (log 26). -/
def Obligations.ContextAndQueueOperationsComplete : Prop :=
  ∀ (s : State) (src : BitVec 9) (g : BitVec 6),
    (let i : Instr := .ctxsave src g
     let z := (atTrigger s i).xlateChunk s.cur { w := true } false (0, (s.src1 i).toNat, 512)
     ((s.src1 i).toNat % 64 ≠ 0 → Stops s i (illegalOp s i)) ∧
     ((s.src1 i).toNat % 64 = 0 → ∀ f a, z.2 = .error (f, a) → Stops s i (addressFault s i f a)) ∧
     ((s.src1 i).toNat % 64 = 0 → ∀ ps, z.2 = .ok ps → s.Clear i → ∃ t, Answers s t i 0 ∧ t.ctxs = s.ctxs ∧
       (∀ p, ps = [p] → Open s (p.loc / 128 * 128) 640 → Memory.wf s.mem = true → ∀ j, j < 512 → memGet t.mem (p.loc + j) = (s.ctx (selected s)).bytes.getD j 0))) ∧
    (let i : Instr := .ctxload src g
     let z := (atTrigger s i).xlateChunk s.cur { r := true } false (0, (s.src1 i).toNat, 512)
     ((s.src1 i).toNat % 64 ≠ 0 → Stops s i (illegalOp s i)) ∧
     ((s.src1 i).toNat % 64 = 0 → ∀ f a, z.2 = .error (f, a) → Stops s i (addressFault s i f a)) ∧
     ((s.src1 i).toNat % 64 = 0 → ∀ ps, z.2 = .ok ps → s.Clear i →
       let bs := ((z.1.readHome s.cur ps).2.map (fun q => q.2)).flatten
       let x := (s.ctx (selected s)).load (fun n => ofBytes ((bs.drop (8 * n)).take 8))
       ∃ t, Answers s t i (if s.ctxBusy (selected s) = true then 3 else if x.loadOk = true then 0 else 1) ∧
         t.ctx (selected s) = (if s.ctxBusy (selected s) = false ∧ x.loadOk = true then x else s.ctx (selected s)) ∧
         ∀ c, c ≠ selected s → t.ctx c = s.ctx c)) ∧
    (let i : Instr := .dispq src g
     let q := argument s % 256
     let d := dieOf s.cur
     let bound := (Tbl.find? (s.die d).queues q).isSome
     let z := (atTrigger s i).xlateChunk s.cur { r := true, w := true } false (0, (s.src1 i).toNat, 192)
     (argument s / 256 % 2 = 0 → s.Clear i → ∃ t, Answers s t i (if bound then 0 else 1) ∧
       (bound = true → d < s.dies.length → (t.die d).queues = Tbl.del (s.die d).queues q) ∧ (bound = false → t.dies = s.dies)) ∧
     (argument s / 256 % 2 = 1 → ∀ f a, z.2 = .error (f, a) → Stops s i (addressFault s i f a)) ∧
     (argument s / 256 % 2 = 1 → ∀ ps, z.2 = .ok ps → s.Clear i →
       let h := (z.1.readHome s.cur ps).1
       let lines := (pieceLoc ps 0, pieceLoc ps 64, pieceLoc ps 128)
       let good := (s.src1 i).toNat % 64 = 0 ∧ descOk h.mem lines.1 = true
       ∃ t, Answers s t i (if bound = true then 3 else if good then 0 else 1) ∧
         (bound = false → good → d < s.dies.length → (t.die d).queues = Tbl.put (s.die d).queues q lines)))

/-- R343 to R345: FREEZEM with reserved bits is illegal; else it completes with 0, or with 1 for an agent that it does not find. A freeze
of a running core of the die is asked for; a release with ACTION 0 of a stopped one resumes its task, its records cleared when t[17] is
set. The illegal operation for reserved bits, and the answer 1 to a freeze of a core that runs no task, are the model's choice (log 57). -/
def Obligations.FreezeAndReleaseAct : Prop :=
  ∀ (s : State) (src : BitVec 9) (g : BitVec 6),
    let i : Instr := .freezem src g
    let x := (s.src1 i).toNat
    let id := x % 2 ^ 12
    let core : Prop := x / 2 ^ 12 % 16 = 0 ∧ CoreOfDie s id ∧ id ≠ s.cur
    let asks : Prop := x / 2 ^ 16 % 2 = 1
    (x / 2 ^ 20 ≠ 0 → Stops s i (illegalOp s i)) ∧
    (x / 2 ^ 20 = 0 → s.Clear i → ∃ t r, Answers s t i r ∧ r ≤ 1) ∧
    (x / 2 ^ 20 = 0 → core → asks → (s.core id).status = .run → s.Clear i → ∃ t, Answers s t i 0 ∧
      t.core id = { s.core id with freezeReq := true }) ∧
    (x / 2 ^ 20 = 0 → core → ¬asks → (s.core id).status = .stopped → x / 2 ^ 18 % 4 = 0 → s.Clear i → ∃ t, Answers s t i 0 ∧
      t.core id = { s.core id with
        status := .run
        trapWait := false
        relBy := some (s.now, s.cur)
        recs := if x / 2 ^ 17 % 2 = 1 then List.replicate 14 none else (s.core id).recs
        drec := if x / 2 ^ 17 % 2 = 1 then 0 else (s.core id).drec }) ∧
    (x / 2 ^ 20 = 0 → core → (s.core id).status = .idle → s.Clear i → ∃ t, Answers s t i 1 ∧ t.core id = s.core id)

/-! ## The synchronisation slot and the links (R98, R264 to R270) -/

namespace Sys2Proof.Claims

/-- No copy of the core stands dirty before a home: its L1 holds no dirty line, and the quad's store buffer is empty. -/
def CleanCopies (s : State) : Prop := (∀ l ∈ s.me.l1, l.2.dirty = 0) ∧ Tbl.getD s.qsb (quadOf s.cur) [] = []

/-- An operation of the sync slot in flight: it performs behind every earlier access of the thread (R159). -/
def syncOf (s : State) (i : Instr) (scope delay aux : Nat) : MOp :=
  { id := s.me.next, op := i, slot := 12, pc := s.me.pc, re := false, latch := 0, cls := 4, cyc := s.me.clk, due := s.now + delay, fixed := false,
    ret := 0, scope := scope, isRead := false, isWrite := false, ea := 0, lcl := false, pieces := [], data := 0, data2 := 0, fm := 0, k := 0,
    aux := aux, logged := false, junk := false, perf := false, val := 0, bundle := s.me.bundles }

def withSync (s : State) (i : Instr) (scope delay aux : Nat) : Core :=
  { s.me with mops := s.me.mops ++ [syncOf s i scope delay aux], next := s.me.next + 1 }

/-- An acquire of the die's scope or less: every line of L1 must be filled again before it is read (R157). -/
def Acquires (s : State) (i : Instr) (k : Core) : Prop :=
  (s.Clear i → ∃ t, exec i s = .next t ∧ SameRegisters s.me (t.core s.cur) ∧ (t.core s.cur).cf = k.cf ∧ (t.core s.cur).l1Mark = k.fills ∧
    (t.core s.cur).rdcMark = k.rdcMark) ∧
  (CleanCopies s → Gives s i { k with l1Mark := k.fills })

end Sys2Proof.Claims

/-- R264 to R268, R270: WAITF whose flag has n takes n, and acquires unless n is 0; WAITE whose event is set acquires and leaves the event;
SETE, CLRE and POSTF go into flight, a post to a register that names no core of the shape is illegal; WAITT clears its flag on Nared and is
illegal on the other die; WAITL changes nothing, and off an edge core it is an illegal latch. -/
def Sys2Proof.Claims.SyncSlotsComplete : Prop :=
  ∀ (s : State) (n c : BitVec 8) (e : BitVec 1) (r : BitVec 5) (g : BitVec 6),
    (let i : Instr := .waitf n c g
     let k : Core := { s.me with cf := s.me.cf.set n.toNat (s.me.cf.getD n.toNat 0 - c.setWidth 16) }
     if c = 0 then Gives s i k else Acquires s i k) ∧
    Acquires s (.waite n g) s.me ∧
    Gives s (.sete n g) (withSync s (.sete n g) 3 2 n.toNat) ∧
    Gives s (.clre n g) (withSync s (.clre n g) 0 2 n.toNat) ∧
    (let i : Instr := .postf n c e r g
     let x := (s.me.g.getD r.toNat 0).toNat
     let target := if e = 1 then s.cur else x
     GivesIf s i (e = 1 ∨ x < 4096 ∧ s.shapeCore s.cur (dieOf s.cur) x = true)
       (Gives s i (withSync s i (scopeOf2 s.cur target) (coreDist s.cur target) target))) ∧
    (let i : Instr := .waitt n g
     (dieOf s.cur = 1 → Stops s i (illegalOp s i)) ∧
     (dieOf s.cur ≠ 1 → s.Clear i → ∃ t, exec i s = .next t ∧ SameRegisters s.me (t.core s.cur) ∧
       t.ctx s.me.ctx = { s.coreCtx s.cur with tflags := (s.coreCtx s.cur).tflags &&& ~~~ (BitVec.ofNat 256 (2 ^ n.toNat)) } ∧
       (∀ x, x ≠ s.me.ctx → t.ctx x = s.ctx x) ∧ (t.core s.cur).l1Mark = s.me.fills)) ∧
    (let i : Instr := .waitl n g
     ((edgePort s.cur).isSome = true → Gives s i s.me) ∧
     ((edgePort s.cur).isSome = false → i.wf = true → s.me.status = .run →
       exec i s = .next ((s.stopAt s.cur { cause := 3, slot := 12 }).turned s.cur)))

/-- R269, R299: a barrier bundle whose release has come issues, counts afresh and acquires at its scope; the first to arrive of several
TAGGED participants waits with its arrival marked. -/
def Sys2Proof.Claims.BarriersIssueOnceReleased : Prop :=
  ∀ (s : State) (idx : BitVec 8) (g : BitVec 6),
    let Leaves (i : Instr) (kind : Nat) : Prop :=
      (∀ at_, s.me.barrier = some (16 + kind, idx.toNat, at_) → (s.me.tagged = true ∨ at_ ≤ s.me.lcyc) → s.Clear i → ∃ t, exec i s = .next t ∧
        SameRegisters s.me (t.core s.cur) ∧ (t.core s.cur).barrier = none ∧ (t.core s.cur).l1Mark = s.me.fills ∧
        (t.core s.cur).bundles = s.me.bundles + 1) ∧
      (s.me.tagged = true → s.me.barrier = none → (∃ d ∈ s.barCores s.cur kind, d ≠ s.cur ∧ (s.core d).barrier = none) → s.Clear i →
        exec i s = .next ((s.modCore s.cur (fun k => { k with barrier := some (kind, idx.toNat, s.now) })).turned s.cur))
    Leaves (.barq idx g) 0 ∧ Leaves (.barg idx g) 1


/-- R95, R98: a scalar slot pops its inbound queue once at its issue, and MOVE to a queue code appends to the outbound queue; nothing else
of the link changes. -/
def Sys2Proof.Claims.LinkQueuesPopAndPush : Prop :=
  ∀ (s : State) (p : Nat) (src d : BitVec 9) (g : BitVec 6), edgePort s.cur = some p →
    (∀ n, src.toNat = 0x80 + n → n < 8 → d.toNat < 0x40 → s.Clear (.move false src d g) → ∃ t, exec (.move false src d g) s = .next t ∧
      ({ s.me with g := s.me.g.set d.toNat (((s.port p).inq.getD n []).headD 0) } : Core).Bookkept (t.core s.cur) (Instr.move false src d g).rowTiles ∧
      t.port p = { s.port p with inq := (s.port p).inq.set n (((s.port p).inq.getD n []).drop 1) }) ∧
    (∀ n, d.toNat = 0x80 + n → n < 8 → src.toNat < 0x40 → s.Clear (.move false src d g) → ∃ t, exec (.move false src d g) s = .next t ∧
      s.me.Bookkept (t.core s.cur) (Instr.move false src d g).rowTiles ∧
      t.port p = { s.port p with outq := (s.port p).outq.set n ((s.port p).outq.getD n [] ++ [s.me.g.getD src.toNat 0]) })

/-- R95, R98, R264 to R270, R299: the operations of the sync slot, the barriers, and the link queues. -/
def Obligations.SyncSlotsBarriersAndLinkQueuesAct : Prop :=
  Sys2Proof.Claims.SyncSlotsComplete ∧ Sys2Proof.Claims.BarriersIssueOnceReleased ∧ Sys2Proof.Claims.LinkQueuesPopAndPush

/-- R93: a word with a reserved guard is an illegal bundle in every slot, and the guard of a word that decodes holds as the table says. -/
def Sys2Proof.Claims.GuardsHoldAsTheTableSays : Prop :=
  (∀ (s : State) (c : Nat) (i : Instr) (w : Nat), i.kind ≠ .event → w < 2 ^ 32 → (24 ≤ w % 64 ∧ w % 64 ≤ 30 ∨ 56 ≤ w % 64 ∧ w % 64 ≤ 62) →
    ∃ p, s.decodeOn c (toBytes 4 (oneHeader i) ++ toBytes 4 w) = .error { cause := 2, slot := p }) ∧
  (∀ (kind : SlotKind) (w : Nat) (i : Instr) (p : BitVec 24), w < 2 ^ 32 → decodeSlot kind w = some i →
    i.holds p = (if w % 64 < 24 then p.getLsbD (w % 64) else if 32 ≤ w % 64 ∧ w % 64 < 56 then !p.getLsbD (w % 64 - 32) else w % 64 == 31))

/-- R93: a slot whose guard does not hold has no effect: a bundle of one such slot issues and only the end of the bundle comes about. -/
def Sys2Proof.Claims.FailedGuardHasNoEffect : Prop :=
  ∀ (s : State) (i : Instr), i.wf = true → i.kind ≠ .event → s.me.status = .run → (s.me.tagged = true ∨ (s.launch s.me.launch).stopping = false) →
    s.roleStop s.cur (oneSlot i).slots = none → s.me.held = [] → s.me.stL = none → s.me.stX = none → s.me.stM = none → s.me.rep = 0 →
    i.holds s.me.p = false →
    ∃ t, s.execSlot i = .next t ∧ s.me.Bookkept (t.core s.cur) i.rowTiles ∧ (∀ d, d ≠ s.cur → t.core d = s.core d) ∧
      t = { s with cores := t.cores, fresh := t.fresh }


/-- R93: guards decode by the table, hold by the predicate at issue, and a slot whose guard fails has no effect. -/
def Obligations.GuardsDecideTheSlot : Prop := Sys2Proof.Claims.GuardsHoldAsTheTableSays ∧ Sys2Proof.Claims.FailedGuardHasNoEffect


/-! ## Every form of c, at, ra, fe, v, d, ps, lp and bq completes -/

namespace Sys2Proof.Claims

/-- Instruction `i`, standing clear, issues: the step answers a next state in which the core has counted the issue, and of which P holds. -/
def Completes (s : State) (i : Instr) (P : State → Prop := fun _ => True) : Prop :=
  s.Clear i → ∃ t, exec i s = .next t ∧ (t.core s.cur).bundles = s.me.bundles + 1 ∧ P t

/-- A scalar result of latency 1 is on its way to a result latch (R106). -/
def OnTheWay (s t : State) (latch : Nat) : Prop := ∃ v, resultS s 1 latch v ∈ (t.core s.cur).pend

/-- An access or fence of `i` has joined those in flight. -/
def InFlight (s t : State) (i : Instr) : Prop := ∃ o ∈ (t.core s.cur).mops, o.op = i ∧ o.id = s.me.next ∧ o.perf = false

/-- An atomic's target is no host memory, or host memory that takes atomics of that kind (R178). -/
def HostTakes (s : State) (i : Instr) (r : Req) (travels : Bool) : Prop :=
  ∀ p ∈ okPieces (lookups s i r), ∀ h, placeOf p.loc = .host h → travels = true ∧ Config.hostAtomics = true

end Sys2Proof.Claims

/-- R136, R138 to R141, R144: LOOP with legal operands opens its level, or with 0 trips skips the body; EXIT ends the task; TRAP is taken;
TFENCE with no record set, YIELDP, BRK, and IDLE with a unit number 0 to 2 complete. R173 to R178, R182, R184: PREF always completes; a WAITA
that finds its word different, an atomic, LDACQ and STREL that are allowed, and the fences, SWFENCE from GROUP to HOST, go into flight. -/
def Sys2Proof.Claims.ControlAndOrderingFormsComplete : Prop :=
  ∀ (s : State) (src : BitVec 9) (l p : BitVec 3) (a : BitVec 2) (b : BitVec 4) (g : BitVec 6),
    (let i : Instr := .loop src l g
     let x := (s.src1 i).toNat
     let o := (s.me.sop.getD 5 0).toNat
     let trip := if o ≠ 0 then o else s.tableTrip s.cur l.toNat
     let legal : Prop := x < 2 ^ 32 ∧ x % 4 = 0 ∧ o < 2 ^ 32 ∧ (s.me.pc + 8) % 2 ^ 56 ≤ s.me.cb + x ∧ MayTransfer s
     (legal → trip ≠ 0 → Completes s i (fun t => (t.core s.cur).loops = s.me.loops.set l.toNat
        { active := true, remaining := trip, start := (s.me.pc + 8) % 2 ^ 56, fin := (s.me.cb + x) % 2 ^ 56 })) ∧
     (legal → trip = 0 → Completes s i (fun t => (t.core s.cur).loops = s.me.loops.set l.toNat {}))) ∧
    Completes s (.exit src g) (fun t => (t.core s.cur).status = .drain) ∧
    Completes s (.trap src g) (fun t => (t.core s.cur).status ≠ .run ∧
      (s.me.ss.length = 16 → ((t.core s.cur).ss.getD 4 0).toNat % 256 = 0x0F)) ∧
    ((∀ r ∈ s.me.recs, r = none) → Completes s (.tfence src g) (fun t => (t.core s.cur).status = .run)) ∧
    Completes s (.yieldp src g) (fun t => OnTheWay s t 5) ∧
    Completes s (.brk src g) (fun t => (s.coreCtx s.cur).debug = true → (s.now + 1, Instr.debugFreeze) ∈ t.agenda) ∧
    ((s.me.sop.getD 5 0).toNat ≤ 2 → Completes s (.idle src g) (fun t => (t.core s.cur).status = .run)) ∧
    Completes s (.pref src a b g) (fun t => t.mem = s.mem ∧ (t.core s.cur).sres = s.me.sres) ∧
    (let i : Instr := .waita src a b g
     let ea := effAddr s i b
     Allowed s i { op := i, latch := 1, cls := a.toNat, isRead := true, align := 8, ea := ea, chunks := [(0, ea, 8)], perfAt := 5, latchAt := 5 } →
       Completes s i (fun t => InFlight s t i)) ∧
    (let Atom (i : Instr) (n : Nat) (travels : Bool) : Prop :=
       Allowed s i (atomic s i n a b) → HostTakes s i (atomic s i n a b) travels → Completes s i (fun t => InFlight s t i)
     Atom (.aadd src a b g) 8 true ∧ Atom (.asub src a b g) 8 false ∧ Atom (.aand src a b g) 8 false ∧ Atom (.aor src a b g) 8 false ∧
     Atom (.axor src a b g) 8 false ∧ Atom (.amin src a b g) 8 false ∧ Atom (.amax src a b g) 8 false ∧ Atom (.aminu src a b g) 8 false ∧
     Atom (.amaxu src a b g) 8 false ∧ Atom (.axchg src a b g) 8 true ∧ Atom (.acas src a b g) 8 true ∧ Atom (.aincw src a b g) 8 false ∧
     Atom (.afadd src a b g) 4 false ∧ Atom (.abar src a b g) 8 false) ∧
    (let i : Instr := .ldacq src b p g
     Allowed s i (acquire s i b p) → Completes s i (fun t => InFlight s t i)) ∧
    (let i : Instr := .strel src b p g
     let r := releaseStore s i b p
     Allowed s i r → s.me.lineLogged r.lines = false → Completes s i (fun t => InFlight s t i)) ∧
    Completes s (.fence src p g) (fun t => InFlight s t (.fence src p g)) ∧
    Completes s (.fencew src p g) (fun t => InFlight s t (.fencew src p g)) ∧
    Completes s (.svfence src g) (fun t => InFlight s t (.svfence src g)) ∧
    (2 ≤ p.toNat → p.toNat ≠ 7 → Completes s (.swfence src p g) (fun t => InFlight s t (.swfence src p g)))

namespace Sys2Proof.Claims

/-- A vector operation with a lane type that its row lists issues, and a result for v.r is on its way, to be written after its latency. -/
def VecCompletes (s : State) (i : Instr) (lat : Nat) : Prop :=
  Completes s i (fun t => ∃ q ∈ (t.core s.cur).pend, q.due = s.me.clk + lat - 1 ∧ ∃ v, q.eff = .vres 0 v)

end Sys2Proof.Claims

/-- R187 to R204: every operation of v, with a lane type and control fields that its row lists, completes: its result is on its way to v.r
with the latency of R191, and VMASK sets the selection. -/
def Sys2Proof.Claims.VectorFormsComplete : Prop :=
  ∀ (s : State) (src : BitVec 9) (t : BitVec 3) (g : BitVec 6),
    let c := (s.me.sop.getD 8 0).toNat % 16
    let float : Prop := t.toNat = 6 ∨ t.toNat = 7
    let list : Prop := t.toNat = 0 ∨ t.toNat = 1 ∨ t.toNat = 6
    VecCompletes s (.vadd src t g) 2 ∧ VecCompletes s (.vsub src t g) 2 ∧ VecCompletes s (.vmul src t g) 4 ∧ VecCompletes s (.vmad src t g) 4 ∧
    VecCompletes s (.vmin src t g) 2 ∧ VecCompletes s (.vmax src t g) 2 ∧ VecCompletes s (.vabs src t g) 2 ∧ VecCompletes s (.vneg src t g) 2 ∧
    VecCompletes s (.vand src t g) 2 ∧ VecCompletes s (.vor src t g) 2 ∧ VecCompletes s (.vxor src t g) 2 ∧
    (t.toNat < 6 → VecCompletes s (.vshl src t g) 2) ∧ (t.toNat < 6 → VecCompletes s (.vshr src t g) 2) ∧
    VecCompletes s (.vcmpeq src t g) 2 ∧ VecCompletes s (.vcmplt src t g) 2 ∧ VecCompletes s (.vcmple src t g) 2 ∧ VecCompletes s (.vsel src t g) 2 ∧
    (float → VecCompletes s (.vrcp src t g) 8) ∧ (float → VecCompletes s (.vrsq src t g) 8) ∧ (float → VecCompletes s (.vexp2 src t g) 8) ∧
    (float → VecCompletes s (.vlog2 src t g) 8) ∧ (c < 6 → VecCompletes s (.vred src t g) 6) ∧ (c < 6 → VecCompletes s (.vscan src t g) 6) ∧
    VecCompletes s (.vshuf src t g) 2 ∧ VecCompletes s (.vbcast src t g) 2 ∧ (t.toNat = 0 → VecCompletes s (.vpackg src t g) 2) ∧
    (t.toNat = 1 ∨ t.toNat = 3 ∨ t.toNat = 5 → VecCompletes s (.vclmul src t g) 4) ∧ (t.toNat = 0 → VecCompletes s (.vpxor src t g) 2) ∧
    (list → VecCompletes s (.vtopk src t g) 12) ∧ (list → VecCompletes s (.vtopkm src t g) 12) ∧ (t.toNat = 6 → VecCompletes s (.bmm src t g) 10) ∧
    (t.toNat = 0 → c < 9 → Completes s (.vmask src t g) (fun u => (u.core s.cur).vmsel = BitVec.ofNat 4 c))

namespace Sys2Proof.Claims

/-- A block address in scratch, a multiple of 64 (R237, R291). -/
def BlockAt (s : State) (i : Instr) : Prop := (s.src1 i).toNat % 64 = 0 ∧ BlockInScratch s (s.src1 i).toNat

/-- A command whose block stands right is accepted: d.r takes its number, and it is the queue's last. -/
def CommandCompletes (s : State) (i : Instr) : Prop :=
  BlockAt s i → Completes s i (fun t => OnTheWay s t 6 ∧ (t.core s.cur).seq = s.me.seq + 1 ∧
    ∃ q, (t.core s.cur).cmds = s.me.cmds ++ [q] ∧ q.op = i ∧ q.seq = s.me.seq.toNat)

/-- An operation of ps, lp or bq on Nared, with its block right where it has one, is outstanding. -/
def SpecCompletes (s : State) (i : Instr) (block : Bool) : Prop :=
  dieOf s.cur ≠ 1 → (block = true → BlockAt s i) →
    Completes s i (fun t => ∃ o, (t.core s.cur).sops = s.me.sops ++ [o] ∧ o.op = i ∧ o.perf = false)

end Sys2Proof.Claims

/-- R237, R238: every engine command whose block stands in scratch, aligned, is accepted and queued. R290, R291: so is every operation of ps,
lp and bq on Nared. -/
def Sys2Proof.Claims.CommandAndSpeculationFormsComplete : Prop :=
  ∀ (s : State) (src : BitVec 9) (g : BitVec 6),
    (∀ i ∈ [Instr.cpy2d src g, .cpym src g, .gath src g, .scat src g, .fill src g, .kvs src g, .kvapp src g, .kvfork src g, .kvdrop src g,
      .nrf src g, .prism src g, .migr src g, .enq src g, .mreb src g, .score src g, .rfill src g], CommandCompletes s i) ∧
    (∀ i ∈ [Instr.pslook src g, .psdep src g, .psrel src g, .pspin src g, .lpsub src g, .lpres src g, .lpset src g, .bqpush src g, .bqpop src g,
      .bqreq src g], SpecCompletes s i true) ∧
    (∀ i ∈ [Instr.lpdep src g, .lprb src g], SpecCompletes s i false)

/-- R136 to R144, R173 to R178, R182 to R204, R237, R238, R290, R291: every form named in the three parts completes at its issue.
That the clocks stop in the cycle after a BRK, of the 3 that R346 allows, is the model's choice (log 116). -/
def Obligations.FormsComplete : Prop :=
  Sys2Proof.Claims.ControlAndOrderingFormsComplete ∧ Sys2Proof.Claims.VectorFormsComplete ∧ Sys2Proof.Claims.CommandAndSpeculationFormsComplete

/-! ## Sticky units, repeats and body ends (R101, R110, R112, R113, R137) -/

namespace Sys2Proof.Claims

/-- `i` stands clear but for the sticky state of a unit that it does not trigger, and the re-issue of that unit waits for nothing. -/
structure ClearBut (s : State) (i : Instr) (u : FUnit) (st : Sticky) : Prop where
  clear : (s.modCore s.cur (fun k => k.setSticky u none)).Clear i
  sticky : s.me.stickyOf u = some st
  other : unitOf i ≠ u
  goes : (s.latchMove (s.act1 i)).actWait (reAct s.cur s.me 0 ((s.me.pc + 8) % 2 ^ 56) st) = .go

/-- A base register whose VAL has stepped by its STEP (R56). -/
def stepped (x : BaseReg) : BaseReg := { x with val := movedVal x x.stp.toInt }

/-- A number is the address of 8 bytes of the core's own scratch, aligned (R62, R169). -/
def OwnWord (s : State) (ea : Nat) : Prop :=
  ∃ off, ea = 2 ^ 63 + off ∧ off % 8 = 0 ∧ off + 8 ≤ s.scratchLen s.cur ∧ off + 8 ≤ 2 ^ 21 ∧ coreIdOk s.cur = true

/-- A re-issue of a sticky access whose base register is n puts one more access in flight, from the stepped VAL and the trigger value. -/
def Reissued (s t : State) (st : Sticky) (n : Nat) (o : MOp) : Prop :=
  (t.core s.cur).mops = s.me.mops ++ [o] ∧ o.op = st.op ∧ o.re = true ∧ o.slot = st.slot ∧ o.cyc = s.me.clk ∧
  o.ea = BitVec.ofInt 64 ((stepped (s.me.b.getD n {})).val.toNat + (st.tv.setWidth 64).toInt) ∧
  (t.core s.cur).b = s.me.b.set n (stepped (s.me.b.getD n {}))

end Sys2Proof.Claims

/-- R101: the issue of a trigger of l, x or m leaves that unit sticky, with its operation, trigger value and slot, or not sticky, as the table
says; no other unit's sticky state is set. -/
def Sys2Proof.Claims.TriggersLeaveTheirUnitSticky : Prop :=
  (∀ (s : State) (i : Instr), s.Clear i → (unitOf i = .l ∨ unitOf i = .x ∨ unitOf i = .m) → ∀ t, exec i s = .next t →
    (t.core s.cur).bundles = s.me.bundles + 1 →
    (∀ u, u ≠ unitOf i → (t.core s.cur).stickyOf u = none) ∧
    (stickyOp i = false → (t.core s.cur).stickyOf (unitOf i) = none) ∧
    (stickyOp i = true → ∃ st, (t.core s.cur).stickyOf (unitOf i) = some st ∧ st.op = i ∧ st.tv = s.vsrc1 i ∧ st.slot = (s.act1 i).ic.slot)) ∧
  (∀ i, stickyOp i = true ↔ (unitOf i = .l ∧ ∀ src a b g, i ≠ .waita src a b g) ∨
    (unitOf i = .x ∧ ∀ src f g, i ≠ .xsetf src f g ∧ i ≠ .xgetf src f g) ∨ ∃ src g, i = .mrd src g)

/-- R110, R113: beside a bundle that does not trigger it, here a move between g registers, a sticky unit issues its operation again: LD64 and
ST64 from the stepped base register and the last trigger value, ST64 with the data latch as it stands, MRD the next row of the block that its
latch names. It stays sticky. IDLE ends that, once the unit has issued again in its own bundle. -/
def Sys2Proof.Claims.StickyUnitsIssueAgain : Prop :=
  ∀ (s : State) (src d : BitVec 9) (g : BitVec 6) (st : Sticky) (src' : BitVec 9) (a : BitVec 2) (b : BitVec 4) (g' : BitVec 6),
    let i : Instr := .move false src d g
    let ea := (BitVec.ofInt 64 ((stepped (s.me.b.getD b.toNat {})).val.toNat + (st.tv.setWidth 64).toInt)).toNat
    let moved := s.me.g.set d.toNat (s.src1 i)
    d.toNat < 0x40 → s.me.atBodyEnd s.me.pc = false → b.toNat < s.me.b.length →
    (ClearBut s i .l st → st.op = .ld64 src' a b g' → OwnWord s ea → ∃ t o, exec i s = .next t ∧ Reissued s t st b.toNat o ∧ o.latch = 1 ∧
      (t.core s.cur).stL = some st ∧ (t.core s.cur).g = moved) ∧
    (ClearBut s i .l st → st.op = .st64 src' a b g' → OwnWord s ea → s.me.logsEmpty = true →
      ∃ t o, exec i s = .next t ∧ Reissued s t st b.toNat o ∧ o.isWrite = true ∧ o.data = (s.me.sop.getD 2 0).setWidth 2048 ∧
        (t.core s.cur).stL = some st ∧ (t.core s.cur).g = moved) ∧
    (∀ blk, ClearBut s i .m st → st.op = .mrd src' g' → s.me.blocks.find? (named (mHandleOf s)) = some blk →
      ∃ t, exec i s = .next t ∧ (t.core s.cur).g = moved ∧
        (∃ q ∈ (t.core s.cur).pend, q.due = s.me.clk + 3 ∧ q.eff = .vres 2 (mrdRow blk.fmt blk.codes blk.scales ((st.idx + 1) % 128))) ∧
        (t.core s.cur).stM = some { st with idx := (st.idx + 1) % 128 }) ∧
    (let e : Instr := .idle src g
     ClearBut s e .l st → st.op = .ld64 src' a b g' → OwnWord s ea → s.me.sop.getD 5 0 = 0 → s.me.atBodyEnd s.me.pc = false →
       ∃ t o, exec e s = .next t ∧ Reissued s t st b.toNat o ∧ (t.core s.cur).stL = none)

/-- R112, R113, in TIMED mode: an issue of a bundle that triggers neither au nor c is followed by the next of its REP issues at the same address,
with STOP not yet taken, or ends the bundle, which clears the sticky state of all units if it has STOP. In a later issue a sticky trigger is a
re-issue. -/
def Sys2Proof.Claims.BundlesRepeatAndStop : Prop :=
  ∀ (s u t : State) (c : Nat) (q : Bundle),
    let k := s.core c
    let k' := t.core c
    k.tagged = false → (s.fetchBundle c).2 = .ok q → (∀ b ∈ q.slots, unitOf b.i ∈ [FUnit.plain, .a0, .a1, .v, .l, .x, .m]) → k.xfer = none →
    k.atBodyEnd k.pc = false → s.tryBundle c = (u, .issue t) →
    k'.bundles = k.bundles + 1 ∧
    (k.rep < q.rep → k'.rep = k.rep + 1 ∧ k'.pc = k.pc ∧
      ∀ y, (∀ b ∈ q.slots, unitOf b.i ≠ y) → (k'.stickyOf y).isSome = (k.stickyOf y).isSome) ∧
    (q.rep ≤ k.rep → k'.rep = 0 ∧ k'.pc = (k.pc + q.len) % 2 ^ 56 ∧ (q.stop = true → k'.stL = none ∧ k'.stX = none ∧ k'.stM = none)) ∧
    (∀ x src a b g st, q.slots = [x] → x.i = .ld64 src a b g → x.i.holds k.p = true → 0 < k.rep → k.stX = none → k.stM = none →
      k.stL = some st → st.op = x.i → b.toNat < k.b.length →
      ∃ o, k'.mops = k.mops ++ [o] ∧ o.re = true ∧ o.ea = BitVec.ofInt 64 ((stepped (k.b.getD b.toNat {})).val.toNat + (st.tv.setWidth 64).toInt) ∧
        k'.b = k.b.set b.toNat (stepped (k.b.getD b.toNat {})))

/-- R130, R137: at an active level's body end its strides are applied and its trips fall by 1: with trips left its body start is next, else it is
inactive and what follows the body is next. Of two levels that end there the higher is taken first, and one that goes on stops the walk. -/
def Sys2Proof.Claims.BodyEndsIterate : Prop :=
  ∀ (s : State) (src d : BitVec 9) (g : BitVec 6) (n : Nat) (l : LoopRec),
    let i : Instr := .move false src d g
    let k := s.me
    let strided (m : Nat) (bs : List BaseReg) : List BaseReg := bs.map (fun x => { x with val := movedVal x (x.ls.getD m 0).toInt })
    let here (m : Nat) : Prop := (k.loops.getD m {}).active = true ∧ (k.loops.getD m {}).fin = k.pc
    s.Clear i → d.toNat < 0x40 → k.xfer = none → k.loops.length = 8 → n < 8 → k.loops.getD n {} = l → l.active = true → l.fin = k.pc →
    ((∀ m, m < 8 → m ≠ n → ¬here m) →
      (1 < l.remaining → ∃ t, exec i s = .next t ∧ (t.core s.cur).pc = l.start ∧ (t.core s.cur).b = strided n k.b ∧
        (t.core s.cur).loops = k.loops.set n { l with remaining := l.remaining - 1 } ∧ (t.core s.cur).g = k.g.set d.toNat (s.src1 i)) ∧
      (l.remaining ≤ 1 → ∃ t, exec i s = .next t ∧ (t.core s.cur).pc = (k.pc + 8) % 2 ^ 56 ∧ (t.core s.cur).b = strided n k.b ∧
        (t.core s.cur).loops = k.loops.set n { l with remaining := 0, active := false })) ∧
    (∀ m, m < n → here m → (∀ j, j < 8 → j ≠ n → j ≠ m → ¬here j) →
      (1 < l.remaining → ∃ t, exec i s = .next t ∧ (t.core s.cur).pc = l.start ∧ (t.core s.cur).b = strided n k.b ∧
        (t.core s.cur).loops = k.loops.set n { l with remaining := l.remaining - 1 }) ∧
      (l.remaining ≤ 1 → 1 < (k.loops.getD m {}).remaining → ∃ t, exec i s = .next t ∧ (t.core s.cur).pc = (k.loops.getD m {}).start ∧
        (t.core s.cur).b = strided m (strided n k.b) ∧
        (t.core s.cur).loops = (k.loops.set n { l with remaining := 0, active := false }).set m
          { (k.loops.getD m {}) with remaining := (k.loops.getD m {}).remaining - 1 }))

/-- R101, R110, R112, R113, R130, R137: sticky units, repeats and body ends. -/
def Obligations.StickyUnitsRepeatsAndBodyEndsAct : Prop :=
  Sys2Proof.Claims.TriggersLeaveTheirUnitSticky ∧ Sys2Proof.Claims.StickyUnitsIssueAgain ∧ Sys2Proof.Claims.BundlesRepeatAndStop ∧
  Sys2Proof.Claims.BodyEndsIterate

/-! ## Results, held slots and waits as time goes on (R36, R98, R106, R174, R224, R227, R228, R265, R291) -/

namespace Sys2Proof.Claims

/-- A wait of a kind of slot, tried again: the held slot of that kind has its chance, or the bundle that holds such a slot. -/
def TriesAgain (s : State) (c : Nat) (p : Instr → Bool) (e : Instr) : Prop :=
  ((∃ h ∈ (s.core c).held, p h.op = true) → ∃ t, exec e s = .next t ∧ exec (.heldSlotIssue c) s = .next t) ∧
  (∀ q, s.cur = c → (∀ h ∈ (s.core c).held, p h.op = false) → (s.fetchBundle c).2 = .ok q → (∃ b ∈ q.slots, p b.i = true) →
    ∃ t, exec e s = .next t ∧ exec (.bundleIssue c) s = .next t) ∧
  (∀ q, (∀ h ∈ (s.core c).held, p h.op = false) → (s.fetchBundle c).2 = .ok q → (∀ b ∈ q.slots, p b.i = false) → exec e s = .next s)

/-- The sres value that the results due now leave in latch i: the last of them in order of issue. -/
def lastDue (k : Core) (i : Nat) (old : U64) : U64 :=
  k.pend.foldl (fun v p => if p.due ≤ k.clk then (match p.eff with | .sres j x => if j = i then x else v | _ => v) else v) old

end Sys2Proof.Claims

/-- R106, R210, R211, R223, R224, R227, R228, R234: at the end of a core's cycle the results that are due land in their latch, chunk or scale
register, in order of issue, and those of a later cycle stay. An XLD's result reaches x.r before the chunk of a later conversion, which is then
put into it (R107, R210; log 96). A product due now writes all 32 rows of its accumulator at once, an MMA's by the
one event and an MMAQ's by the other; a weight block that is usable from the next cycle is placed, and the blocks that it overlaps are no
longer resident. That it takes its place, and evicts what it overlaps, only when it becomes usable is the model's reading (log 60); the note of the
rows that a thread's product writes while an engine fills the tile is its way to R53's free values (log 4). -/
def Obligations.ResultsProductsAndBlocksLand : Prop :=
  ∀ (s : State) (c : Nat), s.clkTicks c = true →
    let k := s.core c
    let noneToX : Prop := (∀ o ∈ k.mops, o.latch ≠ 4) ∧ (k.mops.map (fun o => o.id)).Nodup
    let Lands (e : Eff) (f : Core → Core) : Prop := ∀ p, noneToX → k.pend = [p] → p.eff = e → p.due ≤ k.clk →
      exec (.resultLatchWrite c) s = .next (s.modCore c (fun k => f { k with pend := [] }))
    (∀ i v, Lands (.sres i v) (fun k => { k with sres := k.sres.set i v })) ∧
    (∀ i v, Lands (.vres i v) (fun k => { k with vres := k.vres.set i v })) ∧
    (∀ w ch codes, Lands (.xchunk w ch codes) (fun k => { k with vres := k.vres.set 1 (chunkPut (k.vres.getD 1 0) w ch codes) })) ∧
    (∀ r i v, Lands (.kent r i v) (fun k => { k with k := k.k.set r (kPut (k.k.getD r 0) i v) })) ∧
    (∀ r v, Lands (.kreg r v) (fun k => { k with k := k.k.set r v })) ∧
    (∃ t, exec (.resultLatchWrite c) s = .next t ∧ (t.core c).pend = k.pend.filter (fun p => decide (k.clk < p.due)) ∧
      (∀ i, i < k.sres.length → (t.core c).sres.getD i 0 = lastDue k i (k.sres.getD i 0)) ∧
      (t.core c).g = k.g ∧ (noneToX → (t.core c).mops = k.mops) ∧ (∀ d, d ≠ c → t.core d = s.core d) ∧ t = { s with cores := t.cores }) ∧
    (∀ o m src f g, o.op = .xld src f g → o.latch = 4 → o.isRead = true → o.perf = true → (o.fixed = true → o.ret ≤ k.clk) → o.cyc + 10 ≤ k.clk + 1 →
      m.latch = 4 → m.isRead = false → m.perf = false → m.fixed = false → m.mark = o.id → (∀ a b d, m.op ≠ .xld a b d) → m.cyc + 3 ≤ k.clk →
      m.id ≠ o.id → k.mops = [o, m] → k.held = [] → k.pend = [] →
      exec (.resultLatchWrite c) s = .next (s.modCore c (fun k =>
        { k with mops := [], vres := k.vres.set 1 (chunkPut o.val (m.aux / 32) (m.aux % 32) (codesOf m.data.toNat (m.aux / 32))) }))) ∧
    (let Writes (e : Instr) (quad : Bool) : Prop :=
       (∀ f, k.mma = [f] → f.quad = quad → f.due ≤ k.clk →
         exec e s = .next (s.modCore c (fun k =>
           let tile := k.t.getD f.acc {}
           { k with mma := [], t := k.t.set f.acc { tile with
             rows := f.res, thr := if tile.ready then tile.thr else (List.range 32).zip f.res ++ tile.thr } }))) ∧
       (∀ f, k.mma = [f] → (f.quad ≠ quad ∨ k.clk < f.due) → ∃ t, exec e s = .next t ∧ t.core c = k)
     Writes (.mmaResultWrite c) false ∧ Writes (.mmaqResultWrite c) true ∧
     (∀ w, k.frz = false → k.wld = [w] → (∀ o ∈ k.mops, o.id = w.mop → o.perf = true) → w.usable ≤ k.clk + 1 →
       exec (.wldComplete c) s = .next (s.modCore c (fun k =>
         ({ k with wld := [], blocks := k.blocks.filter (fun b => !b.overlaps w.blk) ++ [w.blk] } : Core).keepCodes w.blk))) ∧
     (∀ w, k.wld = [w] → k.clk + 1 < w.usable → ∃ t, exec (.wldComplete c) s = .next t ∧ t.core c = k))

/-- R36, R98, R174, R265: in its turn, a held scalar move between registers writes its destination with the source as it stands, and is held
no longer; a held move from a tile register that is not ready stays held. A WAITA, a sync slot or a link slot that waits is tried again, by
itself when it is held and else with its bundle; a core whose bundle holds no such slot is left as it is. -/
def Obligations.HeldSlotsAndWaitsAreTriedAgain : Prop :=
  (∀ (s : State) (c : Nat) (h : Held) (src d : BitVec 9) (g : BitVec 6),
    let k := s.core c
    k.status = .run → k.frz = false → k.held = [h] → h.gone = false → h.re = false → h.st = none →
    (h.op = .move false src d g → src.toNat < 0x40 → d.toNat < 0x40 → (s.coreCtx c).schk = false →
      exec (.heldSlotIssue c) s = .next (s.modCore c (fun k =>
        { k with g := k.g.set d.toNat (k.g.getD src.toNat 0), held := [{ h with gone := true }], heldTried := true }))) ∧
    (h.op = .move true src d g → 0x20 ≤ src.toNat → src.toNat < 0x30 → (k.t.getD (src.toNat - 0x20) {}).ready = false →
      exec (.heldSlotIssue c) s = .next (s.modCore c (fun k => { k with heldTried := true })))) ∧
  (∀ (s : State) (c : Nat),
    TriesAgain s c isWaita (.waitaRecheck c) ∧ TriesAgain s c isSync (.syncWaitSatisfied c) ∧ TriesAgain s c linkSlot (.linkFifoWait c))

/-! ## Taking a stop (R338 to R342) -/

namespace Sys2Proof.Claims

/-- The trap record of R340 for a stop of core c. -/
def recordOf (s : State) (c : Nat) (st : Stop) : List U64 :=
  let k := s.core c
  let l := s.launch k.launch
  let w (n : Nat) : U64 := BitVec.ofNat 64 n
  let bit (b : Bool) (n : Nat) : Nat := if b then 2 ^ n else 0
  [w (st.cause + st.sub * 2 ^ 8 + st.slot * 2 ^ 16 + st.runit * 2 ^ 20 + bit st.fx 22 + bit (!k.tagged) 23 + 2 ^ 24 + bit st.held 25 + k.rep * 2 ^ 26),
    w ((st.baddr.getD k.pc) % 2 ^ 56), w (st.resume.getD k.pc % 2 ^ 56), w st.faddr, w st.info, w k.lcyc,
    w (c + (k.ctx % 64) * 2 ^ 12 + dieOf c * 2 ^ 18 + l.queue * 2 ^ 32 + (l.ticket % 2 ^ 24) * 2 ^ 40), k.drec]

/-- An entry of die d's trap queue, a release store at DIE scope (R341, R151): at the home where that is on the die, and else in the die's
remote-data cache, dirty. -/
def QueuedAt (s t : State) (d loc : Nat) (bs : List Byte) : Prop :=
  (homeDie loc = some d → Open s loc 64 → Wrote s t loc bs) ∧
  (homeDie loc ≠ some d → homeDie loc ≠ none → (∀ j, j < 64 → homeDie (loc + j) = homeDie loc) → loc % 64 = 0 → t.mem = s.mem ∧
    ∀ j, j < 64 → (Tbl.getD (t.die d).rdc (lineOf loc) {}).isDirty (loc % 128 + j) = true ∧
      (Tbl.getD (t.die d).rdc (lineOf loc) {}).byte (loc % 128 + j) = bs.getD j 0)

end Sys2Proof.Claims

/-- R338 to R342: a core whose next bundle raises a stop takes it: the record stands in ss4 to ss11, the task is stopped with every other
register as it was, and the pc is the resume address. With room in the die's trap queue the record is its next entry, TRAPQW counts it and
the queue's event is set; without room the entry waits and is written once there is room; with no queue a TAGGED task ends and its launch is
FAULTED. Stated of the first entry of its cycle. An entry whose place is a Mirror parity range is lost and counted, which is the model's choice
(R333, log 12). A protection fault also tells the management core (R345). Where a core of a TIMED gang stops, the stops that the cycle began with
are taken, and the gang's other cores do nothing (R342). -/
def Obligations.StopsAreTaken : Prop :=
  (∀ (s u : State) (c : Nat) (st : Stop),
    let k := u.core c
    let d := dieOf c
    let x := u.die d
    let at_ := x.trapqbase + 64 * (x.trapqw % x.trapqn)
    let free : Prop := u.isParity at_ = false
    let l := s.launch (s.core c).launch
    s.cur = c → (s.core c).status = .run → ((s.core c).tagged = true ∨ (l.delayed = false ∧ l.stopping = false)) →
    s.tryBundle c = (u, .stop st) → k.ss.length = 16 → d < u.dies.length →
      ∃ t, exec (.bundleIssue c) s = .next t ∧
        (t.core c).ss = k.ss.take 4 ++ recordOf u c st ++ k.ss.drop 12 ∧
        (t.core c).pc = st.resume.getD k.pc ∧ (t.core c).g = k.g ∧ (t.core c).p = k.p ∧ (t.core c).v = k.v ∧ (t.core c).q = k.q ∧
        (t.core c).t = k.t ∧ (t.core c).k = k.k ∧ (t.core c).b = k.b ∧ (t.core c).sres = k.sres ∧ (t.core c).vres = k.vres ∧
        (t.core c).sop = k.sop ∧ (t.core c).vop = k.vop ∧ (t.core c).mops = k.mops ∧ (t.core c).rep = k.rep ∧
        (x.trapqn ≠ 0 → (t.core c).status = .stopped) ∧
        (st.cause = 9 → (u.mbox.ntw + 2 ^ 64 - u.mbox.ntr) % 2 ^ 64 ≠ 63 → t.mbox.ntw = u.mbox.ntw + 1) ∧
        (x.trapqn ≠ 0 → x.trapCyc ≠ u.now + 1 → (x.trapqw + 2 ^ 32 - x.trapqr) % 2 ^ 32 ≠ x.trapqn → free →
          QueuedAt u t d at_ ((recordOf u c st).flatMap (fun w => toBytes 8 w.toNat)) ∧
          (t.die d).trapqw = (x.trapqw + 1) % 2 ^ 32 ∧
          (x.trapev < 256 → (t.ctx (ctxKey d x.trapctx)).ev.getLsbD x.trapev = true)) ∧
        (x.trapqn ≠ 0 → x.trapCyc ≠ u.now + 1 → (x.trapqw + 2 ^ 32 - x.trapqr) % 2 ^ 32 ≠ x.trapqn → ¬free →
          t.mem = u.mem ∧ (t.die d).trapqw = x.trapqw ∧ (t.die d).tqlost = Nat.min (x.tqlost + 1) (2 ^ 32 - 1)) ∧
        (x.trapqn ≠ 0 → x.trapCyc ≠ u.now + 1 → (x.trapqw + 2 ^ 32 - x.trapqr) % 2 ^ 32 = x.trapqn →
          (t.core c).trapWait = true ∧ (t.core c).trapWs = recordOf u c st ∧ t.mem = u.mem ∧ (t.die d).trapqw = x.trapqw ∧
          (t.die d).tqlost = x.tqlost) ∧
        (x.trapqn = 0 → k.tagged = true → (t.core c).status = .drain ∧ (t.launch k.launch).faulted = true ∧ t.mem = u.mem)) ∧
  (∀ (s : State) (c : Nat), s.cur = c → (s.core c).status = .run → (s.core c).tagged = false →
    (s.launch (s.core c).launch).stopping = true →
    (∀ st, (s.launch (s.core c).launch).stops.find? (fun p => p.1 == c) = some (c, st) →
      exec (.bundleIssue c) s = .next ((s.stopAt c st).turned c)) ∧
    ((∀ p ∈ (s.launch (s.core c).launch).stops, p.1 ≠ c) →
      exec (.bundleIssue c) s = .next (s.modCore c (fun k => { k with turn := true })))) ∧
  (∀ (s : State) (c : Nat),
    let k := s.core c
    let d := dieOf c
    let x := s.die d
    let at_ := x.trapqbase + 64 * (x.trapqw % x.trapqn)
    (k.trapWait = true → x.trapqn ≠ 0 → (x.trapqw + 2 ^ 32 - x.trapqr) % 2 ^ 32 ≠ x.trapqn → s.isParity at_ = false →
      d < s.dies.length → k.trapWs.length = 8 →
      ∃ t, exec (.trapEntryDeferredWrite c) s = .next t ∧
        QueuedAt s t d at_ (k.trapWs.flatMap (fun w => toBytes 8 w.toNat)) ∧
        (t.die d).trapqw = (x.trapqw + 1) % 2 ^ 32 ∧ (t.core c).trapWait = false ∧ (t.core c).ss = k.ss ∧ (t.core c).status = k.status) ∧
    (k.trapWait = false ∨ x.trapqn = 0 ∨ (x.trapqw + 2 ^ 32 - x.trapqr) % 2 ^ 32 = x.trapqn → exec (.trapEntryDeferredWrite c) s = .next s))

/-! ## Engine commands as time goes on (R235, R238 to R246, R252, R263, R282, R326) -/

namespace Sys2Proof.Claims

/-- A command of core c in the queue. -/
def Queued (s : State) (c : Nat) (cmd : Cmd) : Prop := (s.core c).cmd? cmd.seq = some cmd

/-- The command block that a command names, as scratch holds it. -/
def blockOf (s : State) (c : Nat) (cmd : Cmd) : BitVec 512 := BitVec.ofNat 512 (ofBytes (s.rdBytes (scratchLoc c cmd.blkAddr) 64))

/-- Tiles go back to the thread. -/
def tilesBack (eng tiles : List Nat) : List Nat := tiles.foldl (fun l t => l.erase t) eng

/-- The core with a completed command gone: its tiles are the thread's, the tags of its tile registers are set, with the thread's or the
engine's value in a lane that both have written (R53), which the number n picks. -/
def completed (k : Core) (cmd : Cmd) (n : Nat) : Core :=
  { ({ k with eng := tilesBack k.eng cmd.tiles } : Core).freeTiles with
    cmds := k.cmds.filter (fun q => q.seq != cmd.seq)
    t := (List.range 16).map (fun i =>
      let x := k.t.getD i {}
      if cmd.tregs.contains i && !x.ready then x.filled (16 * n + i) else x) }

/-- Of the package, only what the core holds has changed, and the model's own counter. -/
def CoreOnly (s t : State) (c : Nat) (k : Core) : Prop :=
  t = { s with cores := t.cores, fresh := t.fresh } ∧ t.core c = k ∧ ∀ d, d ≠ c → t.core d = s.core d

/-- An address of a context's heap window that an engine may write, and the location that it names (R62). -/
def HeapLoc (s : State) (c va loc : Nat) : Prop :=
  let x := s.coreCtx c
  x.heapb.toNat ≤ va ∧ va < x.heapb.toNat + x.heapl.toNat ∧ va < 2 ^ 56 ∧ loc = (va + x.heapo.toNat) % 2 ^ 52 ∧ placeOf loc = .hbm ∧
  s.physCheck loc { w := true } = none ∧ homeDie loc = some (dieOf c)

end Sys2Proof.Claims

/-- R238, R239, R246: the block of a command is read once four cycles have passed since its acceptance and the stores up to it are in. A valid
one gives its tiles to the engine, its own tile back to the thread, and clears the tags of the tile registers that it fills; a bad one completes
with status 1 and names nothing. A command that may start does so in the next cycle; with ORD it does not while an earlier one is in the queue. -/
def Obligations.CommandsAreReadAndStarted : Prop :=
  ∀ (s : State) (c : Nat) (cmd : Cmd), Queued s c cmd →
    let k := s.core c
    let b := blockOf s c cmd
    let valid : Bool := s.commonOk c b && ownOk cmd.op b && s.poolOk c cmd.op b
    let stored : Prop := k.tagged = true → ∀ o ∈ k.mops, o.isWrite = true → o.fixed = true → o.perf = false → cmd.clk + 4 < o.due
    (cmd.block = none → cmd.acc + 4 ≤ k.ecyc → stored → valid = true → ∃ t cmd', exec (.commandBlockRead c cmd.seq) s = .next t ∧
      (t.core c).cmd? cmd.seq = some cmd' ∧ cmd'.block = some b ∧ cmd'.tiles = s.cmdTiles c cmd.op b ∧ cmd'.tregs = tregsOf cmd.op b ∧
      cmd'.status = cmd.status ∧ cmd'.start = cmd.start ∧
      (t.core c).eng = (k.eng ++ s.cmdTiles c cmd.op b).erase (cmd.blkAddr / 4096) ∧
      (∀ n, n < 16 → ((t.core c).t.getD n {}).ready = ((k.t.getD n {}).ready && !(tregsOf cmd.op b).contains n) ∧
        ((t.core c).t.getD n {}).rows = (k.t.getD n {}).rows) ∧
      t = { s with cores := t.cores }) ∧
    (cmd.block = none → cmd.acc + 4 ≤ k.ecyc → stored → valid = false → ∃ t cmd', exec (.commandBlockRead c cmd.seq) s = .next t ∧
      (t.core c).cmd? cmd.seq = some cmd' ∧ cmd'.status = 1 ∧ cmd'.tiles = [cmd.blkAddr / 4096] ∧ cmd'.tregs = cmd.tregs ∧
      (t.core c).eng = k.eng ∧ (t.core c).t = k.t ∧ t = { s with cores := t.cores }) ∧
    ((cmd.block ≠ none ∨ k.ecyc < cmd.acc + 4) → exec (.commandBlockRead c cmd.seq) s = .next s) ∧
    (k.mayStart cmd = true → ∃ t due, exec (.commandStart c cmd.seq) s = .next t ∧
      (t.core c).cmd? cmd.seq = some { cmd with start := some (k.ecyc + 1), due := due } ∧
      (cmd.lane = 0 → due = k.ecyc + cmd.svc.getD 1) ∧ (cmd.lane ≠ 0 → s.now + 1 + s.crossFloor c cmd ≤ due) ∧
      t = { s with cores := t.cores, fresh := t.fresh }) ∧
    (∀ b, cmd.block = some b → bOrd b = true → k.before cmd.seq ≠ [] → exec (.commandStart c cmd.seq) s = .next s)

/-- R242, R241, R244: at completion the tiles return, the tags of the tile registers are set and the command leaves the queue. With no
notification and no completion word nothing else happens; a WORD notification stores its value in the target's scratch; a FLAG notification posts
1 to the flag of the target, held for a task that is saved (R60); an EVENT notification sets its bit of the context's EV with the writes of the
next cycle, after the threads' (log 17); a target with no task makes the status PROT, which freezes the core's lanes (R345). A completion word
holds the status in bits 7 to 0, the count in bits 31 to 8 and the tag, or SEQ for a tag of 0, in bits 63 to 32; with ABR the payload bytes
arrive on a byte barrier, and an arrival that records makes the status OVERRUN (R180); an error status sets a clear D record. A completion word at
SURVIVABLE waits for the acknowledgement of the parity deltas that it follows (R151, R164). -/
def Obligations.CommandsComplete : Prop :=
  ∀ (s : State) (c : Nat) (cmd : Cmd) (b : BitVec 512), Queued s c cmd → cmd.block = some b → cmd.ended = true →
    let k := s.core c
    let here : Prop := cmd.fin = 0 ∧ ∀ o ∈ s.outs, o.who ≠ .command c cmd.seq
    (cmd.fin = 2 → bCwscope b = 7 → s.deltasAcked cmd.mark = false → exec (.commandComplete c cmd.seq) s = .next s) ∧
    (here → bNotify b = 0 → bCwaddr b = 0 → statusIsError cmd.status = false →
      ∃ t, exec (.commandComplete c cmd.seq) s = .next t ∧ CoreOnly s t c (completed k cmd s.fresh)) ∧
    (here → bNotify b = 1 → s.notifyOk c b = true → bCwaddr b = 0 → statusIsError cmd.status = false →
      (s.core (bNcore b)).bound = true → (s.core (bNcore b)).launch = k.launch → bNoff b + 8 ≤ s.scratchLen (bNcore b) →
      s.engineTile (scratchLoc (bNcore b) (bNoff b)) = false → s.engineTile (scratchLoc (bNcore b) (bNoff b + 7)) = false →
      Open s (scratchLoc (bNcore b) (bNoff b)) 8 → ∃ t, exec (.commandComplete c cmd.seq) s = .next t ∧
        Wrote s t (scratchLoc (bNcore b) (bNoff b)) (toBytes 8 (bNval b)) ∧ t.core c = completed k cmd s.fresh) ∧
    (here → bNotify b = 3 → s.notifyOk c b = true → bCwaddr b = 0 → statusIsError cmd.status = false →
      ∃ t, exec (.commandComplete c cmd.seq) s = .next t ∧ t.evLate = s.evLate ++ [(k.ctx, bNidx b)] ∧ t.mem = s.mem ∧
        t.core c = completed k cmd s.fresh) ∧
    (here → bNotify b = 2 → s.notifyOk c b = true → bCwaddr b = 0 → statusIsError cmd.status = false →
      (s.core (bNcore b)).bound = false → (∃ y ∈ (s.launch k.launch).saved, y.2.1 = bNcore b) →
      ∃ t, exec (.commandComplete c cmd.seq) s = .next t ∧ t.core c = completed k cmd s.fresh ∧
        t.launch k.launch = { s.launch k.launch with postsHeld := (s.launch k.launch).postsHeld ++ [(bNcore b, bNidx b, 1)] }) ∧
    (here → (bNotify b = 1 ∨ bNotify b = 2) → s.notifyOk c b = true → bCwaddr b = 0 → statusIsError cmd.status = false →
      (s.core (bNcore b)).bound = false → (∀ l ∈ s.launches, l.1 = k.launch → ∀ y ∈ l.2.saved, y.2.1 ≠ bNcore b) → k.drec = 0 →
      ∃ t, exec (.commandComplete c cmd.seq) s = .next t ∧ (t.core c).drec = BitVec.ofNat 64 (cmd.pc % 2 ^ 56 + 3 * 2 ^ 56) ∧
        (t.core c).engFrozen = true ∧ (t.core c).cmds = (completed k cmd s.fresh).cmds ∧ ((s.die (dieOf c)).trapqn = 0 → t.mem = s.mem)) ∧
    (here → bNotify b = 2 → s.notifyOk c b = true → bNcore b ≠ c → bCwaddr b = 0 → statusIsError cmd.status = false →
      (s.core (bNcore b)).bound = true → (s.core (bNcore b)).launch = k.launch →
      let q := s.core (bNcore b)
      ∃ t, exec (.commandComplete c cmd.seq) s = .next t ∧ t = { s with cores := t.cores, fresh := t.fresh } ∧
        t.core c = completed k cmd s.fresh ∧ (∀ d, d ≠ c → d ≠ bNcore b → t.core d = s.core d) ∧
        t.core (bNcore b) = { q with
          cf := q.cf.set (bNidx b) (BitVec.ofNat 16 (Nat.min ((q.cf.getD (bNidx b) 0).toNat + 1) 0xFFFF))
          cfo := if 0xFFFF < (q.cf.getD (bNidx b) 0).toNat + 1 then q.cfo ||| BitVec.ofNat 32 (2 ^ bNidx b) else q.cfo }) ∧
    (∀ loc, here → bNotify b = 0 → HeapLoc s c (bCwaddr b) loc → bCwaddr b ≠ 0 → cwOk b = true → bAbr b = false → s.writeHeld k.ctx (bCwaddr b) 8 = false →
      Open s loc 8 → scopeRank (bCwscope b) < 4 → statusIsError cmd.status = false → ∃ t, exec (.commandComplete c cmd.seq) s = .next t ∧
        Wrote s t loc (toBytes 8 (cmd.status + Nat.min cmd.count (2 ^ 24 - 1) * 2 ^ 8 + (if cmd.tag = 0 then cmd.seq else cmd.tag.toNat) * 2 ^ 32)) ∧
        t.core c = completed k cmd s.fresh) ∧
    (∀ loc, here → bNotify b = 0 → HeapLoc s c (bCwaddr b) loc → s.physCheck loc { r := true, w := true } = none → bCwaddr b ≠ 0 →
      cwOk b = true → bAbr b = true → s.writeHeld k.ctx (bCwaddr b) 8 = false → Open s loc 8 → scopeRank (bCwscope b) < 4 →
      statusIsError cmd.status = false →
      let y := wordAt s loc 8
      let n := cmd.pay % 2 ^ 48
      ∃ t, exec (.commandComplete c cmd.seq) s = .next t ∧
        ((barOver y n = false ∨ (s.die (dieOf c)).trapqn = 0) → Wrote s t loc (toBytes 8 ((barWord y n).getD y))) ∧
        (barOver y n = false → t.core c = completed k cmd s.fresh) ∧
        (barOver y n = true → k.drec = 0 → (t.core c).drec = BitVec.ofNat 64 (cmd.pc % 2 ^ 56 + 5 * 2 ^ 56) ∧
          (t.core c).cmds = (completed k cmd s.fresh).cmds)) ∧
    (here → bNotify b = 0 → bCwaddr b = 0 → statusIsError cmd.status = true → cmd.status ≠ 3 → k.drec = 0 →
      ∃ t, exec (.commandComplete c cmd.seq) s = .next t ∧ (t.core c).drec = BitVec.ofNat 64 (cmd.pc % 2 ^ 56 + cmd.status * 2 ^ 56) ∧
        (t.core c).cmds = (completed k cmd s.fresh).cmds ∧ (t.core c).status = k.status) ∧
    (s.lateEvents.evLate = [] ∧ ∀ e ∈ s.evLate, e.2 < 256 → (s.lateEvents.ctx e.1).ev.getLsbD e.2 = true)

namespace Sys2Proof.Claims

/-- Bytes of one page of a context's heap window, which lie in populated HBM (R62, R315), and their location. -/
def InHeap (s : State) (ctx va n loc : Nat) : Prop :=
  let x := s.ctx ctx
  x.heapb.toNat ≤ va ∧ va + n ≤ x.heapb.toNat + x.heapl.toNat ∧ va + n ≤ 2 ^ 56 ∧ va % 65536 + n ≤ 65536 ∧ loc = (va + x.heapo.toNat) % 2 ^ 52 ∧
    ∀ j, j < n → placeOf (loc + j) = .hbm

/-- The pool of core c's context whose descriptor stands at an address, in one page of heap (R280). -/
structure PoolAt (s : State) (c desc loc : Nat) (p : Pool) : Prop where
  place : InHeap s (s.core c).ctx desc 64 loc
  aligned : desc % 64 = 0
  ctx : p.ctx = (s.core c).ctx
  core : p.core = c
  desc : p.desc = desc
  itab : p.itab = wordAt s loc 8 ∧ p.itab % 64 = 0
  hat : p.hat = wordAt s (loc + 8) 8 ∧ p.hat % 64 = 0
  blocks : p.blkbase = wordAt s (loc + 16) 8 ∧ p.blkbase % 65536 = 0
  nblk : p.nblk = wordAt s (loc + 24) 4 ∧ 0 < p.nblk ∧ p.nblk ≤ 2 ^ 31
  nalias : p.nalias = wordAt s (loc + 28) 4
  nbkt : p.nbkt = wordAt s (loc + 32) 4 ∧ ∃ e, p.nbkt = 2 ^ e
  ppb : wordAt s (loc + 36) 4 < 3 ∧ p.ppb = 16 * 2 ^ wordAt s (loc + 36) 4
  pevt : p.pevt = wordAt s (loc + 56) 8 ∧ p.pevt < 256

/-- Entry i of a pool's inverted table stands at a location, with a reserved bit of 0 (R279). -/
def EntryAt (s : State) (p : Pool) (i loc : Nat) : Prop := InHeap s p.ctx (p.itab + 16 * i) 16 loc ∧ wordAt s loc 16 / 2 ^ 63 % 2 = 0

/-- The fields of an entry: its key, its state and what bits 95 to 64 hold, the HOLD of a block (R279). -/
def entryKey (s : State) (loc : Nat) : Nat × Nat := (wordAt s loc 16 % 2 ^ 24, wordAt s loc 16 / 2 ^ 24 % 2 ^ 24)
def entrySt (s : State) (loc : Nat) : Nat := wordAt s loc 16 / 2 ^ 60 % 8
def entryHold (s : State) (loc : Nat) : Nat := wordAt s loc 16 / 2 ^ 64 % 2 ^ 32

/-- The eight slots of the bucket of a key (R281). -/
def SlotsAt (s : State) (p : Pool) (sq lb : Nat) (f : Nat → Nat) : Prop :=
  ∃ loc, InHeap s p.ctx (p.hat + 32 * p.bucket sq lb) 32 loc ∧ ∀ j, j < 8 → f j = wordAt s (loc + 4 * j) 4

/-- The rows of a stream's positions from i to j, of the block at a location, stand in its tile registers (R252, R280). -/
def Streamed (s t : State) (c : Nat) (b : BitVec 512) (p : Pool) (bl i j : Nat) : Prop :=
  ∀ n, i ≤ n → n < j → ((t.core c).t.getD (kvsTile b n) {}).rows.getD (n % 32) 0 =
    BitVec.ofNat 2048 (wordAt s (bl + ((bfld b 4 55 32 + n) % p.ppb) * p.esize + bfld b 5 20 20 * (p.esize / 2) + bfld b 5 47 32) 256)

end Sys2Proof.Claims

/-- R235: the follow-on of a CPYM waits for a cycle free of a thread trigger of m and of the conflicts of R232. Then a product of the A-row
buffer with the block that its control word names goes into flight as an MMA's does, or the read of a weight block as a WLD's from the destination
address, with the formats and rows that the cycle began with, and the command waits for its end; a handle that names no block, a block size that
differs, scale registers past k31 and a unit that is no multiple of the block's end the command with FOLLOW. -/
def Sys2Proof.Claims.FollowOnIssues : Prop :=
  ∀ (s : State) (c : Nat) (cmd : Cmd) (b : BitVec 512) (src : BitVec 9) (g : BitVec 6), Queued s c cmd → cmd.block = some b → cmd.finished = false →
    cmd.op = .cpym src g → cmd.phase = 1 →
    let k := s.core c
    let h := bfld b 7 15 0
    let acc := bfld b 7 19 16
    let fm := k.fm.getD (bFfm b) 0
    let fails : Prop := ∃ t, exec (.cpymFollowOn c cmd.seq) s = .next t ∧ t.mem = s.mem ∧ (t.core c).mma = k.mma ∧ (t.core c).wld = k.wld ∧
      (t.core c).cmd? cmd.seq = some { cmd with status := if statusIsError cmd.status then cmd.status else 13, finished := true }
    ((k.mTrig = true ∨ s.followConflict c cmd (bFop b) (BitVec.ofNat 64 (bfld b 7 63 0)) = true) → exec (.cpymFollowOn c cmd.seq) s = .next s) ∧
    (k.mTrig = false → k.found = none → k.wld = [] → k.cmds = [cmd] → (∀ f ∈ k.mma, f.cyc + 8 * f.planes ≤ k.clk) →
      (bFop b ≠ 1 → (k.t.getD acc {}).ready = true →
        (∀ w, k.blocks.find? (named h) = some w → fmtBlk fm = fmtBlk w.fmt → (fmtBlk fm ≠ 0 → bfld b 7 30 26 + nbOf fm / 2 ≤ 32) →
          let r := mmaTile [operandOf k (bfld b 7 30 26) fm w] (accumulator k acc)
          ∃ t, exec (.cpymFollowOn c cmd.seq) s = .next t ∧ t.mem = s.mem ∧ (t.core c).aptr = 0 ∧ (t.core c).t = k.t ∧
            (t.core c).mma = k.mma ++ [{ productOf k acc (h / 2 ^ 12) fm 5 r.1 false with eng := true }] ∧
            (t.core c).cmd? cmd.seq = some { cmd with phase := 2, work := [acc, k.clk + 8 * planes fm + 5] }) ∧
        (k.blocks.find? (named h) = none → fails) ∧
        (∀ w, k.blocks.find? (named h) = some w → (fmtBlk fm ≠ fmtBlk w.fmt ∨ (fmtBlk fm ≠ 0 ∧ 32 < bfld b 7 30 26 + nbOf fm / 2)) → fails)) ∧
      (∀ off, bFop b = 1 → bDst b = 2 ^ 63 + off → off % 64 = 0 → off + wldBytes fm ≤ s.scratchLen c → off + wldBytes fm ≤ 2 ^ 21 →
        coreIdOk c = true →
        (h / 2 ^ 6 % 64 % (containerBits fm / 2) = 0 → ∃ t o, exec (.cpymFollowOn c cmd.seq) s = .next t ∧ t.mem = s.mem ∧
          (t.core c).mops = k.mops ++ [o] ∧ o.id = k.next ∧ o.due = k.clk + 5 ∧ o.fixed = true ∧ o.ea = BitVec.ofNat 64 (bDst b) ∧
          (t.core c).wld = [{
            blk := { mac := h / 2 ^ 12, unit := h / 2 ^ 6 % 64, tag := h % 64, fmt := fm, codes := 0, scales := [], nf := false,
                     src := BitVec.ofNat 64 (bDst b), cls := bfld b 7 25 24, oc := bfld b 7 56 56 == 1, oph := bfld b 7 47 32,
                     opg := bfld b 7 55 48, scl := false }
            usable := k.clk + 8 + (wldBytes fm + 255) / 256, fixed := true, mop := k.next, eng := true }] ∧
          (t.core c).cmd? cmd.seq = some { cmd with phase := 2, work := [k.next] }) ∧
        (h / 2 ^ 6 % 64 % (containerBits fm / 2) ≠ 0 → fails)))

/-- R263, R306: with room for its packets, an ENQ to a queue in its die's heap moves WIDX on by their number and lands them, from its own scratch,
at the slots that it has claimed, the ticket in bits 63 to 16 of word 0 of the first; COUNT is the first slot, and no other byte changes.
Without room it sleeps. -/
def Sys2Proof.Claims.QueueClaimsLand : Prop :=
  ∀ (s : State) (c : Nat) (cmd : Cmd) (b : BitVec 512) (src : BitVec 9) (g : BitVec 6) (ql off : Nat) (pl : Nat → Nat), Queued s c cmd →
    cmd.block = some b → cmd.finished = false → cmd.op = .enq src g → cmd.start.isSome = true → cmd.got = [] → dieOf c = 0 → coreIdOk c = true →
    let n := bfld b 5 1 0
    let base := wordAt s ql 8 % 2 ^ 56
    let slots := wordAt s (ql + 8) 8 % 2 ^ 17
    let claim := wordAt s (ql + 64) 8
    let room := (claim + 2 ^ 64 - wordAt s (ql + 128) 8) % 2 ^ 64
    InHeap s (s.core c).ctx (bfld b 3 63 0) 192 ql → Open s ql 192 → slots ≠ 0 → (n = 1 ∨ n = 2) →
    (room < slots - (n - 1) → bDst b = 2 ^ 63 + off → off + 64 * n ≤ s.scratchLen c → off + 64 * n ≤ 2 ^ 21 →
      (∀ i, i < n → InHeap s (s.core c).ctx (base + 64 * ((claim + i) % slots)) 64 (pl i) ∧ Open s (pl i) 64 ∧
        (pl i + 64 ≤ ql + 64 ∨ ql + 72 ≤ pl i)) →
      (n = 2 → pl 0 + 64 ≤ pl 1 ∨ pl 1 + 64 ≤ pl 0) → Memory.wf s.mem = true →
      let word0 := wordAt s (scratchLoc c off) 8 % 2 ^ 16 + claim % 2 ^ 48 * 2 ^ 16
      ∃ t cmd', exec (.enqClaim c cmd.seq) s = .next t ∧ (t.core c).cmd? cmd.seq = some cmd' ∧ cmd'.finished = true ∧ cmd'.status = cmd.status ∧
        cmd'.count = claim % slots ∧ cmd'.pay = 64 * n ∧ wordAt t (ql + 64) 8 = (claim + n) % 2 ^ 64 ∧
        wordAt t (pl 0) 8 = word0 ∧
        (∀ i j, i < n → j < 64 → (i ≠ 0 ∨ 8 ≤ j) → t.rd (pl i + j) = s.rd (scratchLoc c off + 64 * i + j)) ∧
        (∀ x, (x < ql + 64 ∨ ql + 72 ≤ x) → (∀ i, i < n → x < pl i ∨ pl i + 64 ≤ x) → memGet t.mem x = memGet s.mem x)) ∧
    (slots - (n - 1) ≤ room → exec (.enqClaim c cmd.seq) s = .next (s.setCmd c { cmd with due := s.now + 1 }))

/-- R252, R282: a KVS finds the block of its next position and raises its HOLD; its rows then stream up to the last row of a tile or of the block,
and an event goes on from there. It waits for the next cycle while it is frozen or HOLD stands at 255; a key with no entry ends it with NOTFOUND.
The last row of a tile sets the tile's ready tag, and the rows behind it stream. The hold then falls, freeing a DEFERRED block whose HOLD
reaches 0, and the stream ends when no position is left. Stated of a pool in heap, of an entry in its bucket, and of a stream without scores. -/
def Sys2Proof.Claims.StreamsHoldAndLetGo : Prop :=
  ∀ (s : State) (c : Nat) (cmd : Cmd) (b : BitVec 512) (src : BitVec 9) (g : BitVec 6) (p : Pool) (dl : Nat),
    Queued s c cmd → cmd.block = some b → cmd.op = .kvs src g → cmd.start.isSome = true → PoolAt s c (bfld b 3 55 0) dl p →
    let k := s.core c
    let sq := bfld b 4 23 0
    let lb := (bfld b 4 55 32 + cmd.count) / p.ppb
    let readable (blk bl : Nat) : Prop := InHeap s p.ctx (p.blkbase + 65536 * blk) 65536 bl ∧ bfld b 5 47 32 + 256 ≤ p.esize / 2 ∧ k.t.length = 16 ∧
      ∀ n, n < 16 → (k.t.getD n {}).thr = [] ∧ (k.t.getD n {}).rows.length = 32
    (cmd.finished = false → cmd.work = [] → k.frz = true →
      exec (.kvStreamHold c cmd.seq) s = .next (s.at_ (s.now + 1) (.kvStreamHold c cmd.seq))) ∧
    (∀ f, cmd.finished = false → cmd.work = [] → k.frz = false → bfld b 5 47 32 < p.esize / 2 → SlotsAt s p sq lb f →
      (∀ j, j < 8 → f j = 2 ^ 32 - 1) → statusIsError cmd.status = false →
      exec (.kvStreamHold c cmd.seq) s = .next (s.setCmd c { cmd with status := 7, finished := true })) ∧
    (∀ f j el, cmd.finished = false → cmd.work = [] → k.frz = false → bfld b 5 47 32 < p.esize / 2 → SlotsAt s p sq lb f →
      j < 7 → f j ≠ 2 ^ 32 - 1 → (∀ i, i < j → f i = 2 ^ 32 - 1) → f 7 = 2 ^ 32 - 1 → EntryAt s p (f j) el → entryKey s el = (sq, lb) →
      entrySt s el = 1 → entryHold s el % 256 = 255 →
      exec (.kvStreamHold c cmd.seq) s = .next (s.at_ (s.now + 1) (.kvStreamHold c cmd.seq))) ∧
    (∀ f j el bl, cmd.finished = false → cmd.work = [] → k.frz = false → SlotsAt s p sq lb f →
      j < 7 → f j ≠ 2 ^ 32 - 1 → (∀ i, i < j → f i = 2 ^ 32 - 1) → f 7 = 2 ^ 32 - 1 → EntryAt s p (f j) el → entryKey s el = (sq, lb) →
      entrySt s el = 1 → entryHold s el % 256 < 255 → Open s el 16 → readable (f j) bl → (el + 16 ≤ bl ∨ bl + 65536 ≤ el) → (el + 16 ≤ dl ∨ dl + 64 ≤ el) →
      bfld b 6 55 0 = 0 → cmd.count < kvsNpos b →
      ∃ t cmd' e, exec (.kvStreamHold c cmd.seq) s = .next t ∧ Wrote s t el (toBytes 16 (wordAt s el 16 + 2 ^ 64)) ∧
        (t.core c).cmd? cmd.seq = some cmd' ∧ cmd'.work = [f j] ∧ cmd'.status = cmd.status ∧ cmd'.finished = false ∧ cmd.count ≤ cmd'.count ∧
        (Memory.wf s.mem = true → Streamed s t c b p bl cmd.count cmd'.count) ∧
        (kvsTileEnd b cmd'.count = true ∨ kvsSameBlock b p cmd.count cmd'.count = false) ∧
        e ∈ t.agenda ∧ s.now < e.1 ∧ e.2 = (if kvsSameBlock b p cmd.count cmd'.count then Instr.kvsTileReady c cmd.seq (kvsTile b cmd'.count)
          else .streamHoldFall c cmd.seq)) ∧
    (∀ blk bl, cmd.finished = false → cmd.work = [blk] → k.frz = false → kvsTileEnd b cmd.count = true → bfld b 6 55 0 = 0 → cmd.count < kvsNpos b →
      readable blk bl →
      ∃ t cmd', exec (.kvsTileReady c cmd.seq (kvsTile b cmd.count)) s = .next t ∧ t.mem = s.mem ∧
        (t.core c).cmd? cmd.seq = some cmd' ∧ cmd'.count > cmd.count ∧ cmd'.status = cmd.status ∧ cmd'.work = [blk] ∧
        ((t.core c).t.getD (kvsTile b cmd.count) {}).ready = true ∧ Streamed s t c b p bl cmd.count cmd'.count) ∧
    (∀ blk tile, cmd.finished = false → cmd.work = [blk] → tile = kvsTile b cmd.count → k.frz = true →
      exec (.kvsTileReady c cmd.seq tile) s = .next (s.at_ (s.now + 1) (.kvsTileReady c cmd.seq tile))) ∧
    (∀ blk, cmd.work = [blk] → k.frz = true → exec (.streamHoldFall c cmd.seq) s = .next (s.at_ (s.now + 1) (.streamHoldFall c cmd.seq))) ∧
    (∀ blk el, cmd.work = [blk] → k.frz = false → EntryAt s p blk el → Open s el 16 → 0 < entryHold s el →
      (entrySt s el ≠ 2 ∨ 1 < entryHold s el) →
      ∃ t cmd', exec (.streamHoldFall c cmd.seq) s = .next t ∧ (t.core c).cmd? cmd.seq = some cmd' ∧ cmd'.work = [] ∧
        Wrote s t el (toBytes 16 (wordAt s el 16 - 2 ^ 64)) ∧ (cmd'.finished = true ↔ cmd.finished = true ∨ kvsNpos b ≤ cmd.count)) ∧
    (∀ blk el, cmd.work = [blk] → k.frz = false → EntryAt s p blk el → Open s el 16 → Open s dl 64 → (el + 16 ≤ dl ∨ dl + 64 ≤ el) →
      entrySt s el = 2 → entryHold s el = 1 → blk < 2 ^ 32 → wordAt s (dl + 40) 4 + 1 < 2 ^ 32 → Memory.wf s.mem = true →
      ∃ t cmd', exec (.streamHoldFall c cmd.seq) s = .next t ∧ (t.core c).cmd? cmd.seq = some cmd' ∧ cmd'.work = [] ∧
        wordAt t el 16 = wordAt s el 16 % 2 ^ 48 + wordAt s (dl + 48) 4 * 2 ^ 96 ∧ wordAt t (dl + 48) 4 = blk ∧
        wordAt t (dl + 40) 4 = wordAt s (dl + 40) 4 + 1 ∧
        (∀ x, (x < el ∨ el + 16 ≤ x) → (x < dl + 40 ∨ dl + 44 ≤ x) → (x < dl + 48 ∨ dl + 52 ≤ x) → memGet t.mem x = memGet s.mem x))

/-- R235, R252, R263, R282: the commands that act in several steps. -/
def Obligations.CommandsProceedInSteps : Prop :=
  Sys2Proof.Claims.FollowOnIssues ∧ Sys2Proof.Claims.QueueClaimsLand ∧ Sys2Proof.Claims.StreamsHoldAndLetGo


namespace Sys2Proof.Claims

/-- No cache holds a copy, and no access, transfer or request is on its way. -/
structure Quiet (s : State) : Prop where
  cores : ∀ q ∈ s.cores, q.2.l1 = [] ∧ q.2.mops = []
  qsb : s.qsb = []
  rdc : ∀ d ∈ s.dies, d.rdc = []
  bridge : s.bridge = []
  stalled : s.stalled = []
  outs : s.outs = []

/-- The frame pool of a context for frames of a kind (R325), whose count stands in heap. -/
def FramePool (s : State) (ctx kind va loc : Nat) : Prop :=
  va = word64 s.mem ((s.die (ctx / 64)).mctlbase + 64 * (ctx % 64) + 8 * kind) % 2 ^ 56 ∧ InHeap s ctx va 8 loc ∧ Open s loc 8

/-- Ranges of bytes that do not meet. -/
def Apart (a n b m : Nat) : Prop := a + n ≤ b ∨ b + m ≤ a

/-- n bytes that an engine of core c reaches at an address, in one page: of the core's own scratch, or of heap in HBM by a core of Nared. -/
def ReachesAt (s : State) (c ea n loc : Nat) : Prop :=
  coreIdOk c = true ∧ ((∃ off, ea = 2 ^ 63 + off ∧ off % 65536 + n ≤ 65536 ∧ off + n ≤ s.scratchLen c ∧ off + n ≤ 2 ^ 21 ∧ loc = scratchLoc c off) ∨
    (dieOf c = 0 ∧ InHeap s (s.core c).ctx ea n loc))

/-- Bytes that it reaches and writes at once, in tiles of the core's own scratch that the engine owns and no one else has written (R161). -/
def WritesAt (s : State) (c ea n loc : Nat) : Prop :=
  ReachesAt s c ea n loc ∧ Open s loc n ∧ (2 ^ 63 ≤ ea → (s.core c).raceW = [] ∧ ∀ j, j < n → s.engineTile (loc + j) = true)

/-- The bytes of a location. -/
def bytesAt (s : State) (loc n : Nat) : List Byte := (List.range n).map (fun j => s.rd (loc + j))

/-- The address of a row, with a 32-bit signed stride (R249). -/
def rowPlace (base stride row : Nat) : Nat := (((base : Int) + row * (BitVec.ofNat 32 stride).toInt) % 2 ^ 64).toNat

/-- A command with one more row behind it: `k` counted, `n` bytes written. -/
def oneRowOn (cmd : Cmd) (rows k n : Nat) : Cmd :=
  { cmd with rowsDone := cmd.rowsDone + 1, count := cmd.count + k, pay := cmd.pay + n, finished := decide (rows ≤ cmd.rowsDone + 1) }

/-- A step of a command leaves it so in its queue. -/
def Steps (c : Nat) (cmd : Cmd) (r : State × Cmd) (cmd' : Cmd) : Prop := r.2 = cmd' ∧ (r.1.core c).cmd? cmd.seq = some cmd'

/-- R249, R250: each row of CPY2D, CPYM, FILL, GATH and SCAT writes its bytes at its destination and no other byte, and is counted: a copy in
bytes, a gather or scatter in rows. A CPYM whose follow-on takes the A-row buffer packs its rows there. An index of 2^32 − 1 skips its row. -/
def RowsLand : Prop :=
  ∀ (s : State) (c : Nat) (cmd : Cmd) (b : BitVec 512) (src : BitVec 9) (g : BitVec 6) (sl dl : Nat), Queued s c cmd → cmd.raced = [] →
    cmd.snap = [] →
    let n := bfld b 5 23 0
    let rows := bfld b 5 63 32
    let row := cmd.rowsDone
    let from_ := rowPlace (bfld b 3 63 0) (bfld b 6 31 0) row
    let to_ := rowPlace (bfld b 4 63 0) (bfld b 6 63 32) row
    let r := s.cmdRow c cmd b
    let copied : Prop := ReachesAt s c from_ n sl → WritesAt s c to_ n dl → s.copyOverlap c cmd.op b = false →
      Wrote s r.1 dl (bytesAt s sl n) ∧ Steps c cmd r (oneRowOn cmd rows n n)
    let listed (moved : Nat → Prop) : Prop := ∀ il, ReachesAt s c (bfld b 6 63 0 + 4 * row) 4 il →
      (wordAt s il 4 = 2 ^ 32 - 1 → r.1.mem = s.mem ∧ Steps c cmd r (oneRowOn cmd (bfld b 7 31 0) 0 0)) ∧
      (wordAt s il 4 ≠ 2 ^ 32 - 1 → moved (wordAt s il 4 * bfld b 7 63 32))
    let landed : Prop := Wrote s r.1 dl (bytesAt s sl n) ∧ Steps c cmd r (oneRowOn cmd (bfld b 7 31 0) 1 n)
    0 < n →
    (cmd.op = .cpy2d src g → bfld b 7 24 24 = 0 → copied) ∧
    (cmd.op = .cpym src g → bfld b 5 27 24 ≠ 3 → copied) ∧
    (cmd.op = .cpym src g → bfld b 5 27 24 = 3 → ReachesAt s c from_ n sl → (row + 1) * n ≤ 4096 →
      r.1.mem = s.mem ∧ Steps c cmd r (oneRowOn cmd rows n n) ∧
      ∀ i, i < 4096 → (r.1.core c).arow.toNat / 2 ^ (8 * i) % 256 =
        (if row * n ≤ i ∧ i < (row + 1) * n then (s.rd (sl + (i - row * n))).toNat else (s.core c).arow.toNat / 2 ^ (8 * i) % 256)) ∧
    (cmd.op = .fill src g → WritesAt s c to_ n dl →
      Wrote s r.1 dl ((List.range n).map (fun i => BitVec.ofNat 8 (bfld b 3 63 0 / 2 ^ (8 * (i % 8))))) ∧ Steps c cmd r (oneRowOn cmd rows n n)) ∧
    (cmd.op = .gath src g → listed (fun far =>
      ReachesAt s c ((bfld b 3 63 0 + far) % 2 ^ 64) n sl → WritesAt s c ((bfld b 4 63 0 + row * n) % 2 ^ 64) n dl → landed)) ∧
    (cmd.op = .scat src g → listed (fun far =>
      ReachesAt s c ((bfld b 3 63 0 + row * n) % 2 ^ 64) n sl → WritesAt s c ((bfld b 4 63 0 + far) % 2 ^ 64) n dl → landed))

/-- R256, R257, R258: SCORE copies its scores out and leaves them decayed; NRF writes the records of its pass from FIRST on in ascending node
index, packed; RFILL gives each empty lane group the record that is its own, and the group's length, and leaves the other lanes. -/
def TablesAndRecordsLand : Prop :=
  ∀ (s : State) (c : Nat) (cmd : Cmd) (b : BitVec 512), Queued s c cmd → cmd.raced = [] → cmd.finished = false → cmd.count = 0 →
    (∀ src g tl dl, cmd.op = .score src g →
      let n := bfld b 5 15 0
      let r := s.scoreRun c cmd b
      let decayed (i : Nat) : Nat := encF32 (Machine.Num.mul (decF32 (wordAt s (tl + 4 * i) 4)) (decF32 (bfld b 7 31 0))).1
      WritesAt s c (bfld b 3 55 0 + 4 * bfld b 4 55 32) (4 * n) tl → WritesAt s c (bfld b 6 63 0) (4 * n) dl → Apart tl (4 * n) dl (4 * n) →
      Memory.wf s.mem = true → r.2 = { cmd with count := n, pay := cmd.pay + 4 * n } ∧
      (∀ i, i < n → wordAt r.1 (dl + 4 * i) 4 = wordAt s (tl + 4 * i) 4 ∧ wordAt r.1 (tl + 4 * i) 4 = decayed i) ∧
      ∀ x, (x < tl ∨ tl + 4 * n ≤ x) → (x < dl ∨ dl + 4 * n ≤ x) → memGet r.1.mem x = memGet s.mem x) ∧
    (∀ src g dl (ns : List Node), cmd.op = .nrf src g →
      let q := bfld b 3 15 0
      let k := Nat.min ns.length (bfld b 5 12 0)
      let r := s.nrfRun c cmd b
      (s.slot q).st ≠ .unbound → (s.slot q).ctx = (s.core c).ctx → dieOf c = 0 → ns.Pairwise (fun x y => x.node < y.node) →
      (((s.nodesOf q).filter (fun y => y.pass == bfld b 3 18 16 && decide (bfld b 3 43 32 ≤ y.node))).map (fun y => y.node)).Nodup →
      (∀ y, y ∈ ns ↔ y ∈ s.nodesOf q ∧ y.pass = bfld b 3 18 16 ∧ bfld b 3 43 32 ≤ y.node) →
      (0 < k → WritesAt s c (bfld b 4 63 0) (32 * k) dl) →
      Wrote s r.1 dl ((ns.take k).flatMap (fun y => toBytes 32 y.bytes.toNat)) ∧
      r.2 = { cmd with count := k, pay := 32 * k, finished := true }) ∧
    (∀ src g, cmd.op = .nrf src g → ((s.slot (bfld b 3 15 0)).st = .unbound ∨ (s.slot (bfld b 3 15 0)).ctx ≠ (s.core c).ctx) →
      statusIsError cmd.status = false → s.nrfRun c cmd b = (s, { cmd with status := 3, finished := true })) ∧
    (∀ src g sl, cmd.op = .rfill src g →
      let k := s.core c
      let tm := bfld b 5 3 0
      let row0 := bfld b 5 8 4
      let tx := bfld b 5 15 12
      let rx := bfld b 5 20 16
      let gs := cmd.work.take (bfld b 4 15 0)
      let r := s.rfillRun c cmd b
      let k' := r.1.core c
      let lane (x : Core) (t row l : Nat) : Nat := elem 32 ((x.t.getD t {}).rows.getD row 0) l
      cmd.work.Nodup → (∀ j ∈ cmd.work, j < 8) → row0 ≤ 24 → (tm = tx → rx < row0 ∨ row0 + 8 ≤ rx) → k.t.length = 16 →
      (∀ t, t < 16 → (k.t.getD t {}).rows.length = 32) → ReachesAt s c (bfld b 3 63 0) (320 * gs.length) sl →
      r.1.mem = s.mem ∧ r.2 = { cmd with count := gs.length, pay := cmd.pay + 288 * gs.length } ∧
      (∀ j i l, j < gs.length → i < 8 → l < 8 →
        lane k' tm (row0 + i) (8 * gs.getD j 0 + l) = wordAt s (sl + 320 * j + 32 * i + 4 * l) 4 ∧
        lane k' tx rx (8 * gs.getD j 0 + l) = wordAt s (sl + 320 * j + 256 + 4 * l) 4 ∧
        k'.lgl.toNat / 16 ^ (gs.getD j 0) % 16 = Nat.min (wordAt s (sl + 320 * j + 288) 4) 8) ∧
      (∀ t row l, t < 16 → row < 32 → l < 64 → (l / 8 ∉ gs ∨ ¬(t = tm ∧ row0 ≤ row ∧ row < row0 + 8 ∨ t = tx ∧ row = rx)) →
        lane k' t row l = lane k t row l) ∧
      (∀ j, j < 8 → j ∉ gs → k'.lgl.toNat / 16 ^ j % 16 = k.lgl.toNat / 16 ^ j % 16))

/-- REF of an entry (R279). -/
def entryRef (s : State) (loc : Nat) : Nat := wordAt s loc 16 / 2 ^ 48 % 2 ^ 12

/-- The bucket of a key holds an entry's number in slot j, none in those before it, and no chain. -/
def SlotHolds (s : State) (p : Pool) (sq lb i j : Nat) : Prop :=
  ∃ f, SlotsAt s p sq lb f ∧ j < 7 ∧ f j = i ∧ i < p.size ∧ (∀ h, h < j → f h = 2 ^ 32 - 1) ∧ f 7 = 2 ^ 32 - 1

/-- Every key of a sequence from a logical block on stands in one of the given entries. -/
def KeysOnlyIn (s : State) (p : Pool) (sq first : Nat) (is : List Nat) : Prop :=
  ∀ i, i < p.size → i ∉ is → ∃ el, EntryAt s p i el ∧ ¬((entrySt s el = 1 ∨ entrySt s el = 4) ∧ (entryKey s el).1 = sq ∧ first ≤ (entryKey s el).2)

/-- R253 to R255, R279 to R282: KVAPP writes its entry in a block that the key holds alone; for a key without one it takes the head of the free
list, and a dry pool ends it with POOLDRY. KVFORK gives the child an alias and the block a reference; KVDROP frees a block that no other key
refers to and no stream holds. Stated of a pool in heap, of buckets without a chain, and of one block of a sequence. -/
def PoolCommandsWrite : Prop :=
  ∀ (s : State) (c : Nat) (cmd : Cmd) (b : BitVec 512) (p : Pool) (dl : Nat), Queued s c cmd → PoolAt s c (bfld b 3 55 0) dl p → cmd.status = 0 →
    bfld b 4 55 32 + cmd.count < 2 ^ 24 →
    let sq := bfld b 4 23 0
    let pos := bfld b 4 55 32 + cmd.count
    let lb := pos / p.ppb
    let e := 65536 / p.ppb
    (∀ src g i j el bl sl, cmd.op = .kvapp src g → SlotHolds s p sq lb i j → EntryAt s p i el → entryKey s el = (sq, lb) → entrySt s el = 1 →
      entryRef s el = 1 → ReachesAt s c ((bfld b 6 63 0 + cmd.count * e) % 2 ^ 64) e sl →
      InHeap s p.ctx (p.blkbase + 65536 * i + pos % p.ppb * e) e bl → Open s bl e →
      let r := s.kvappStep c cmd b
      Wrote s r.1 bl (bytesAt s sl e) ∧
      r.2 = { cmd with count := cmd.count + 1, pay := cmd.pay + e, finished := decide (bfld b 5 15 0 ≤ cmd.count + 1) }) ∧
    (∀ src g hl el bl sl, cmd.op = .kvapp src g → InHeap s p.ctx (p.hat + 32 * p.bucket sq lb) 32 hl →
      (∀ j, j < 8 → wordAt s (hl + 4 * j) 4 = 2 ^ 32 - 1) →
      ReachesAt s c ((bfld b 6 63 0 + cmd.count * e) % 2 ^ 64) e sl →
      let r := s.kvappStep c cmd b
      let i := wordAt s (dl + 48) 4
      (i = 2 ^ 32 - 1 → r.1.mem = s.mem ∧ r.2 = { cmd with status := 8, finished := true }) ∧
      (i < p.nblk → EntryAt s p i el → InHeap s p.ctx (p.blkbase + 65536 * i + pos % p.ppb * e) e bl → Open s bl e → Open s el 16 → Open s hl 32 →
        Open s dl 64 → Apart el 16 hl 32 → Apart el 16 dl 64 → Apart hl 32 dl 64 → Apart bl e el 16 → Apart bl e hl 32 → Apart bl e dl 64 →
        0 < wordAt s (dl + 40) 4 → Memory.wf s.mem = true →
        r.2 = { cmd with count := cmd.count + 1, pay := cmd.pay + e, finished := decide (bfld b 5 15 0 ≤ cmd.count + 1) } ∧
        wordAt r.1 el 16 = sq + lb * 2 ^ 24 + 2 ^ 48 + 2 ^ 60 + (2 ^ 32 - 1) * 2 ^ 96 ∧ wordAt r.1 hl 4 = i ∧
        wordAt r.1 (dl + 48) 4 = wordAt s el 16 / 2 ^ 96 ∧ wordAt r.1 (dl + 40) 4 = wordAt s (dl + 40) 4 - 1 ∧
        (∀ j, j < e → r.1.rd (bl + j) = s.rd (sl + j)))) ∧
    (∀ src g i j el hl al h, cmd.op = .kvfork src g → 0 < bfld b 4 55 32 → bfld b 4 55 32 ≤ p.ppb → KeysOnlyIn s p (bfld b 5 23 0) 0 [] →
      SlotHolds s p sq 0 i j → EntryAt s p i el → entryKey s el = (sq, 0) → entrySt s el = 1 → entryRef s el < 4095 →
      h = wordAt s (dl + 52) 4 → p.nblk ≤ h → h < p.size → h ≠ 2 ^ 32 - 1 → EntryAt s p h al →
      InHeap s p.ctx (p.hat + 32 * p.bucket (bfld b 5 23 0) 0) 32 hl → wordAt s hl 4 = 2 ^ 32 - 1 → wordAt s (hl + 28) 4 = 2 ^ 32 - 1 →
      Open s el 16 → Open s al 16 → Open s hl 32 → Open s dl 64 → Apart el 16 al 16 → Apart el 16 hl 32 → Apart el 16 dl 64 → Apart al 16 hl 32 →
      Apart al 16 dl 64 → Apart hl 32 dl 64 → Memory.wf s.mem = true →
      let r := s.kvforkRun c cmd b
      r.2 = { cmd with count := 1, pay := 0, finished := true } ∧
      wordAt r.1 al 16 = bfld b 5 23 0 + 4 * 2 ^ 60 + i * 2 ^ 64 + (2 ^ 32 - 1) * 2 ^ 96 ∧ wordAt r.1 hl 4 = h ∧
      wordAt r.1 (dl + 52) 4 = wordAt s al 16 / 2 ^ 96 ∧ wordAt r.1 el 16 = wordAt s el 16 + 2 ^ 48 ∧
      ∀ x, (x < el ∨ el + 16 ≤ x) → (x < al ∨ al + 16 ≤ x) → (x < hl ∨ hl + 4 ≤ x) → (x < dl + 52 ∨ dl + 56 ≤ x) →
        memGet r.1.mem x = memGet s.mem x) ∧
    (∀ src g i j el hl k, cmd.op = .kvdrop src g → EntryAt s p i el → entryKey s el = (sq, k) → (bfld b 4 55 32 + p.ppb - 1) / p.ppb ≤ k →
      KeysOnlyIn s p sq ((bfld b 4 55 32 + p.ppb - 1) / p.ppb) [i] → SlotHolds s p sq k i j → i < p.nblk →
      InHeap s p.ctx (p.hat + 32 * p.bucket sq k) 32 hl → entrySt s el = 1 → entryRef s el = 1 → entryHold s el = 0 →
      Open s el 16 → Open s hl 32 → Open s dl 64 → Apart el 16 hl 32 → Apart el 16 dl 64 → Apart hl 32 dl 64 → wordAt s (dl + 40) 4 + 1 < 2 ^ 32 →
      Memory.wf s.mem = true →
      let r := s.kvdropRun c cmd b
      r.2 = { cmd with count := 1, finished := true } ∧
      wordAt r.1 el 16 = wordAt s el 16 % 2 ^ 48 + wordAt s (dl + 48) 4 * 2 ^ 96 ∧ wordAt r.1 (hl + 4 * j) 4 = 2 ^ 32 - 1 ∧
      wordAt r.1 (dl + 48) 4 = i ∧ wordAt r.1 (dl + 40) 4 = wordAt s (dl + 40) 4 + 1 ∧
      ∀ x, (x < el ∨ el + 16 ≤ x) → (x < hl + 4 * j ∨ hl + 4 * j + 4 ≤ x) → (x < dl + 40 ∨ dl + 44 ≤ x) → (x < dl + 48 ∨ dl + 52 ≤ x) →
        memGet r.1.mem x = memGet s.mem x)

/-- R262, R334: a line of a MREB with every data shard surviving gives a lost parity shard back: byte by byte, the sum over GF(2^8) of the data
shards' bytes times the code's coefficients lands at DST. With too few survivors the command stops with status LOST. -/
def LostShardsAreRebuilt : Prop :=
  ∀ (s : State) (c : Nat) (cmd : Cmd) (b : BitVec 512) (src : BitVec 9) (g : BitVec 6) (da dl i lost : Nat), Queued s c cmd → cmd.raced = [] →
    cmd.op = .mreb src g → cmd.status = 0 → i < 64 → da = s.mirbase + 64 * i → ReachesAt s c (bfld b 3 63 0) 64 da →
    let r := readRegion s.mem da i
    let line := bfld b 5 63 0 + cmd.count
    let t := s.mrebLine c cmd b
    lost < r.k + r.m → r.shards.getD lost 0 = bfld b 4 15 0 → (∀ h, h < lost → r.shards.getD h 0 ≠ bfld b 4 15 0) → s.stripeReady r lost = true →
    bfld b 7 63 0 ≠ 0 → (bfld b 7 63 0 + 64 * cmd.count < 2 ^ 63 ∨ 2 ^ 63 ≤ bfld b 7 63 0) → WritesAt s c ((bfld b 7 63 0 + 64 * cmd.count) % 2 ^ 64) 64 dl → r.k ≤ lost →
    ((∀ h, h < r.k → r.lost / 2 ^ h % 2 = 0) →
      Wrote s t.1 dl ((List.range 64).map (fun j => (List.range r.k).foldl (fun (a : Byte) h =>
        a ^^^ BitVec.ofNat 8 (gfMul (cauchy (lost - r.k) h) (s.rd (s.shardLoc r h line + j)).toNat)) 0)) ∧
      t.2 = { cmd with count := cmd.count + 1, pay := cmd.pay + 64, finished := decide (bfld b 6 31 0 ≤ cmd.count + 1) }) ∧
    (∀ h, h < r.k → r.lost / 2 ^ h % 2 = 1 → t = (s, { cmd with status := 14, finished := true }))

end Sys2Proof.Claims

/-- R249, R250, R253 to R258, R262: the data that the engine's commands write. -/
def Obligations.EngineCommandsWriteTheirData : Prop :=
  Sys2Proof.Claims.RowsLand ∧ Sys2Proof.Claims.TablesAndRecordsLand ∧ Sys2Proof.Claims.PoolCommandsWrite ∧ Sys2Proof.Claims.LostShardsAreRebuilt


/-- R326 to R328, R325, R261: a MIGR that may act walks its page. One that has no level-0 leaf, of a heap range or past 2^56, ends with PROT; one
at its target counts as moved; one in motion elsewhere is tried again in the next cycle; one that is pinned in this window is skipped with PINNED.
Else the leaf takes MIG, with the window's PIN, MCNT and MWIN. Once no store is on its way the page lands: its 64 KiB stand in the frame popped
from the pool, the leaf names that frame with MIG clear, and the fourth move of a window pins it; after its deadline it is LATE and SLIP
counts it. A dry pool leaves the page, with POOLDRY. The old frame is then pushed onto the pool of its kind, and the next page follows, or the
end. Stated of pages that are not shared and frames of this package, with caches empty at the landing. -/
def Obligations.PagesMoveStepByStep : Prop :=
  ∀ (s : State) (c : Nat) (cmd : Cmd) (b : BitVec 512) (src : BitVec 9) (g : BitVec 6),
    Queued s c cmd → cmd.block = some b → cmd.op = .migr src g → cmd.start.isSome = true → cmd.finished = false → cmd.got = [] → s.answered = [] →
    let again := exec (.pageMove c cmd.seq) s = .next (s.at_ (s.now + 1) (.pageMove c cmd.seq))
    let ctx := (s.core c).ctx
    let x := s.ctx ctx
    let va := (bfld b 3 63 0 + 65536 * cmd.rowsDone) % 2 ^ 64
    let walked := walkLoc s.mem va 3 x.ptbase
    let tgt := bfld b 4 19 16
    let heap : Prop := x.heapb.toNat ≤ va ∧ va < x.heapb.toNat + x.heapl.toNat
    let last : Prop := bfld b 4 15 0 ≤ cmd.rowsDone + 1
    let win := s.now / 2 ^ 32 % 16
    ((s.core c).frz = true ∨ s.poolFirst c cmd b = false → again) ∧
    ((s.core c).frz = false → s.poolFirst c cmd b = true →
      (cmd.phase = 0 → cmd.work = [] →
        ((2 ^ 56 ≤ va ∨ heap ∨ walked = none ∨ (∃ loc e n, walked = some (loc, e, n) ∧ n ≠ 16)) → last → cmd.status = 0 →
          exec (.pageMove c cmd.seq) s = .next (s.setCmd c { cmd with rowsDone := cmd.rowsDone + 1, status := 3, finished := true })) ∧
        (∀ loc e, va < 2 ^ 56 → ¬heap → walked = some (loc, e, 16) → Open s loc 8 →
          let there : Prop := frameKind e = tgt ∧ (tgt ≠ 2 ∨ fld e 63 52 = bfld b 4 35 20)
          (there → last → cmd.status = 0 →
            exec (.pageMove c cmd.seq) s = .next (s.setCmd c { cmd with rowsDone := cmd.rowsDone + 1, count := cmd.count + 1, finished := true })) ∧
          (¬there → bitAt e 7 = true → again) ∧
          (¬there → bitAt e 7 = false → bitAt e 9 = false → fld e 15 12 = win → bitAt e 8 = true → last → cmd.status = 0 → Memory.wf s.mem = true →
            ∃ t, exec (.pageMove c cmd.seq) s = .next t ∧ (∀ y, memGet t.mem y = memGet s.mem y) ∧
              (t.core c).cmd? cmd.seq = some { cmd with rowsDone := cmd.rowsDone + 1, status := 12, finished := true }) ∧
          (¬there → bitAt e 7 = false → bitAt e 9 = false → (fld e 15 12 ≠ win ∨ bitAt e 8 = false) → Memory.wf s.mem = true →
            ∃ t, exec (.pageMove c cmd.seq) s = .next t ∧ (t.core c).cmd? cmd.seq = some { cmd with phase := 1, work := [loc] } ∧
              (s.now + 1, Instr.pageMove c cmd.seq) ∈ t.agenda ∧
              (∀ n, n < 64 → bitAt (word64 t.mem loc) n = (if n = 7 then true else if n = 8 then false
                else if n = 10 ∨ n = 11 then (fld e 15 12 == win && bitAt e n) else if 12 ≤ n ∧ n ≤ 15 then bitAt win (n - 12) else bitAt e n)) ∧
              (∀ y, (y < loc ∨ loc + 8 ≤ y) → memGet t.mem y = memGet s.mem y)))) ∧
      (∀ loc pool pl, cmd.phase = 1 → cmd.work = [loc] → Quiet s → Open s loc 8 → FramePool s ctx tgt pool pl → Apart loc 8 pl 8 → Memory.wf s.mem = true →
        let e := word64 s.mem loc
        let n := wordAt s pl 8
        let late : Bool := bfld b 5 47 0 != 0 && decide (bfld b 5 47 0 < s.now / 1024 - cmd.accNow / 1024)
        let from_ := fld e 51 16 * 65536
        (n = 0 → ∃ t, exec (.pageMove c cmd.seq) s = .next t ∧ (s.now + 1, Instr.pageMove c cmd.seq) ∈ t.agenda ∧
          (t.core c).cmd? cmd.seq = some { cmd with phase := 4, work := [loc, 0, 8, 0, 0] } ∧
          (∀ i, i < 64 → bitAt (word64 t.mem loc) i = (i != 7 && bitAt e i)) ∧
          (∀ y, (y < loc ∨ loc + 8 ≤ y) → memGet t.mem y = memGet s.mem y)) ∧
        (∀ el, n ≠ 0 → InHeap s ctx (pool + 8 * n) 8 el → bitAt e 6 = false → tgt < 2 →
          let f := wordAt s el 8
          let dst := fld f 51 16 * 65536
          (∀ j, j < 65536 → placeOf (dst + j) = (if tgt = 0 then .hbm else .tier2)) → (∀ j, j < 65536 → placeOf (from_ + j) = .hbm ∨ placeOf (from_ + j) = .tier2) →
          Open s dst 65536 → Apart dst 65536 from_ 65536 → Apart dst 65536 loc 8 → Apart dst 65536 pl 8 → Apart loc 8 from_ 65536 → Apart pl 8 from_ 65536 →
          ∃ t, exec (.pageMove c cmd.seq) s = .next t ∧ (s.now + 1, Instr.pageMove c cmd.seq) ∈ t.agenda ∧
            (t.core c).cmd? cmd.seq = some { cmd with
              phase := 4, work := [loc, fld e 51 16 * 2 ^ 16 + fld e 63 52 * 2 ^ 52 + 1, if late then 11 else 0, 1, 0] } ∧
            (∀ j, j < 65536 → memGet t.mem (dst + j) = memGet s.mem (from_ + j)) ∧ wordAt t pl 8 = n - 1 ∧
            (∀ i, i < 64 → bitAt (word64 t.mem loc) i = (if i = 6 ∨ i = 7 ∨ 52 ≤ i then false else if 16 ≤ i then bitAt f i
              else if i = 8 then (fld e 11 10 == 3 || bitAt e 8) else if i = 10 ∨ i = 11 then bitAt ((fld e 11 10 + 1) % 4) (i - 10) else bitAt e i)) ∧
            (t.ctx ctx).slip = (if late then Nat.min (x.slip + 1) (2 ^ 16 - 1) else x.slip) ∧
            t.pincnt = (if fld e 11 10 = 3 then Nat.min (s.pincnt + 1) (2 ^ 32 - 1) else s.pincnt) ∧
            (∀ y, (y < dst ∨ dst + 65536 ≤ y) → (y < loc ∨ loc + 8 ≤ y) → (y < pl ∨ pl + 8 ≤ y) → memGet t.mem y = memGet s.mem y))) ∧
      (∀ loc fr status moved pool pl el, cmd.phase = 4 → cmd.work = [loc, fr, status, moved, 0] → s.outs = [] → cmd.status = 0 →
        let done : Cmd := { cmd with rowsDone := cmd.rowsDone + 1, phase := 0, work := [], count := cmd.count + moved, pay := cmd.pay + moved * 65536,
                                     status := status, finished := decide (bfld b 4 15 0 ≤ cmd.rowsDone + 1) }
        (fr = 0 → ∃ t, exec (.pageMove c cmd.seq) s = .next t ∧ t.mem = s.mem ∧ (t.core c).cmd? cmd.seq = some done ∧
          (¬last → ∃ q ∈ t.agenda, s.now < q.1 ∧ q.2 = .pageMove c cmd.seq)) ∧
        (fr ≠ 0 → FramePool s ctx (frameKind (fr - 1)) pool pl → InHeap s ctx (pool + 8 * (wordAt s pl 8 + 1)) 8 el → Open s el 8 → Apart el 8 pl 8 →
          fr ≤ 2 ^ 64 → wordAt s pl 8 + 1 < 2 ^ 64 → Memory.wf s.mem = true →
          ∃ t, exec (.pageMove c cmd.seq) s = .next t ∧ (t.core c).cmd? cmd.seq = some done ∧ wordAt t pl 8 = wordAt s pl 8 + 1 ∧
            wordAt t el 8 = fr - 1 ∧
            (∀ y, (y < pl ∨ pl + 8 ≤ y) → (y < el ∨ el + 8 ≤ y) → memGet t.mem y = memGet s.mem y))))

/-! ## Posts, events, barriers, evictions and power (R60, R61, R146 to R150, R266 to R269, R347 to R350) -/

/-- R60, R61, R266, R267, R269: a post lands on a bound core's flag, saturating at 0xFFFF with its overflow bit set; on a saved task's core
it is held for the task, and elsewhere it is dropped. An event write sets or clears its one bit, and a bit that becomes set fires the MSI-X
vectors that name it: the vector's message goes out, or, while it is masked, its pending bit stands (the layout of the vector table is PCI
Express's, log 105). A barrier's release marks every TAGGED arrival of its launch, span and index, and no other core. -/
def Obligations.PostsEventsAndBarriersLand : Prop :=
  (∀ (s : State) (c flag n : Nat),
    ((s.core c).bound = true → exec (.flagPostArrival c flag n) s = .next (s.modCore c (fun k => { k with
      cf := k.cf.set flag (BitVec.ofNat 16 (Nat.min ((k.cf.getD flag 0).toNat + n) 0xFFFF))
      cfo := if 0xFFFF < (k.cf.getD flag 0).toNat + n then k.cfo ||| BitVec.ofNat 32 (2 ^ flag) else k.cfo }))) ∧
    (∀ l, (s.core c).bound = false → s.savedOn none c = some l →
      exec (.flagPostArrival c flag n) s = .next (s.modLaunch l (fun x => { x with postsHeld := x.postsHeld ++ [(c, flag, n)] }))) ∧
    ((s.core c).bound = false → (∀ l ∈ s.launches, ∀ q ∈ l.2.saved, q.2.1 ≠ c) → exec (.flagPostArrival c flag n) s = .next s)) ∧
  (∀ (s : State) (die ctx bit : Nat) (set : Bool), bit < 256 → ∃ t, exec (.eventBitWrite die ctx bit set) s = .next t ∧
    (t.ctx (die * 64 + ctx)).ev.getLsbD bit = set ∧
    (∀ j, j ≠ bit → (t.ctx (die * 64 + ctx)).ev.getLsbD j = (s.ctx (die * 64 + ctx)).ev.getLsbD j) ∧
    (∀ x, x ≠ die * 64 + ctx → t.ctx x = s.ctx x) ∧ t.cores = s.cores ∧ t.mem = s.mem ∧
    (∀ v, v < 64 → set = true → die < 2 → ctx < 64 → (s.ctx (die * 64 + ctx)).ev.getLsbD bit = false →
      (s.host.irqmap.getD v 0).toNat = 0x8000 + bit * 2 ^ 7 + die * 2 ^ 6 + ctx →
      let data := s.host.msixTable.getD (2 * v + 1) 0
      (data.getLsbD 32 = true → t.host.msix.getLsbD v = true) ∧
      (data.getLsbD 32 = false → (v, (s.host.msixTable.getD (2 * v) 0).toNat, data.toNat % 2 ^ 32) ∈ t.host.msixSent))) ∧
  (∀ (s : State) (l die group quad idx : Nat), ∃ t, exec (.barrierRelease l die group quad idx) s = .next t ∧ ∀ c,
    let k := s.core c
    let kind := if quad < 16 then 0 else 1
    let arrived : Prop := k.launch = l ∧ k.tagged = true ∧ dieOf c = die ∧ groupOf c = group ∧ (16 ≤ quad ∨ fld c 5 2 = quad) ∧
      ∃ a, k.barrier = some (kind, idx, a)
    (arrived → t.core c = { k with barrier := some (16 + kind, idx, s.now) }) ∧ (¬arrived → t.core c = k))

/-- R146, R149, R150: an evicted line leaves its copy, its dirty bytes move on toward the home and its clean bytes change nothing: from L1 to
the quad's store buffer, from the buffer to the home of a line of the own die, and from the RDC over the bridge, to arrive 40 cycles later
(R12). That a line leaves by an event of its own, and which one
leaves first, is the model's choice (log 11). -/
def Obligations.EvictedLinesMoveOn : Prop :=
  ∀ (s : State) (owner line : Nat) (l : CLine), Memory.wf s.mem = true →
    let Homes (t : State) : Prop :=
      (∀ i, i < 128 → memGet t.mem (128 * line + i) = if l.isDirty i then l.byte i else memGet s.mem (128 * line + i)) ∧
      (∀ x, (x < 128 * line ∨ 128 * line + 128 ≤ x) → memGet t.mem x = memGet s.mem x)
    ((s.core owner).l1 = [(line, l)] → Tbl.getD s.qsb (quadOf owner) [] = [] → ∃ t, exec (.cacheEviction 0 owner line) s = .next t ∧
      (t.core owner).l1 = [] ∧ t.mem = s.mem ∧
      ∀ i, i < 128 → (Tbl.getD (Tbl.getD t.qsb (quadOf owner) []) line {}).isDirty i = l.isDirty i ∧
        (l.isDirty i = true → (Tbl.getD (Tbl.getD t.qsb (quadOf owner) []) line {}).byte i = l.byte i)) ∧
    (Tbl.getD s.qsb (quadOf owner) [] = [(line, l)] →
      (∀ i, i < 128 → homeDie (128 * line + i) = some (dieOf owner)) → Open s (128 * line) 128 →
      ∃ t, exec (.cacheEviction 1 owner line) s = .next t ∧ Tbl.getD t.qsb (quadOf owner) [] = [] ∧ Homes t) ∧
    ((s.die owner).rdc = [(line, l)] → ∃ t, exec (.cacheEviction 2 owner line) s = .next t ∧ (t.die owner).rdc = [] ∧ t.mem = s.mem ∧
      (∀ i, i < 128 → l.isDirty i = true → ∃ m ∈ t.bridge, m.due = s.now + 40 ∧ m.loc ≤ 128 * line + i ∧ 128 * line + i < m.loc + m.bytes.length ∧
        m.bytes.getD (128 * line + i - m.loc) 0 = l.byte i) ∧
      (∀ m ∈ t.bridge, m ∉ s.bridge → 128 * line ≤ m.loc ∧ ∀ j, j < m.bytes.length → l.isDirty (m.loc + j - 128 * line) = true))

/-- R347 to R351: each cycle a core's window takes the cycle's weight: none in a frozen cycle, else the base, what was issued, and what is in
flight. A sum within PLIM freezes nothing; a sum over it freezes the next cycle of a TAGGED core, or of one that runs no task, the next cycle
of every core of a gang on one die, the cycle 41 after this one's end of a co-timetabled pair, and its crossing leaves a freeze pending under a
fabric timetable. Over HLIM while such a freeze is raised or pending, the core freezes at once until the sum is within PLIM, and every core of
its gang, partner or timetable takes TIMING with SUB 8. At its cycle a freeze takes effect on every core of its gang. A pending freeze of a
fabric timetable freezes every timetabled core for one whole frame. -/
def Sys2Proof.Claims.PowerWindowsFreezeCores : Prop :=
  ∀ (s : State) (c : Nat),
    let k := s.core c
    let l := s.launch k.launch
    let planes := (k.mma.filter (fun f => decide (k.clk < f.cyc + 8 * f.planes))).length
    let laneL : Bool := k.cmds.any (fun q => q.lane == 0 && !q.finished && q.start.any (fun st => decide (st ≤ k.ecyc)))
    let charged := if k.frz then 0 else 4 + k.weight + 280 * planes + 60 * k.wld.length + if laneL then 24 else 0
    let win := (charged :: k.window).take 64
    let fab : Bool := k.bound && l.hasFabric
    let limit := if fab then Tbl.getD (s.die (dieOf c)).plimFrame (groupOf c) 23040 else Tbl.getD (s.die (dieOf c)).plim (groupOf c) 23040
    let hard := Tbl.getD (s.die (dieOf c)).hlim (groupOf c) 28160
    let seen (q : Core) : Core := { q with window := win, weight := 0, crossed := fab && decide (limit < win.sum) }
    let throttles : Prop := ∃ t, exec (.powerWindowCheck c) s = .next t ∧ (t.core c).throttled = true ∧ (t.core c).freezeNext = true ∧
      (∀ d, (d ∈ s.pairCores k.launch ∨ (l.hasFabric = true ∧ (s.core d).bound = true ∧ (s.launch (s.core d).launch).hasFabric = true ∧
        (s.launch (s.core d).launch).ttid = l.ttid)) → (t.core d).timingSub = 8) ∧
      (dieOf c < s.dies.length → (t.die (dieOf c)).thrcnt = Nat.min ((s.die (dieOf c)).thrcnt + 1) (2 ^ 32 - 1))
    (win.sum ≤ limit → exec (.powerWindowCheck c) s = .next (s.modCore c (fun q => { seen q with throttled := false }))) ∧
    (limit < win.sum → k.throttled = true → exec (.powerWindowCheck c) s = .next (s.modCore c (fun q => { seen q with freezeNext := true }))) ∧
    (limit < win.sum → k.throttled = false →
      (fab = false → (k.tagged = true ∨ k.bound = false) →
        exec (.powerWindowCheck c) s = .next (s.modCore c (fun q => { seen q with freezeNext := true }))) ∧
      (fab = false → k.tagged = false → k.bound = true → s.isPair k.launch = false → ∃ t, exec (.powerWindowCheck c) s = .next t ∧
        (∀ d ∈ s.coresOf k.launch, (t.core d).freezeNext = true) ∧ (∀ d, d ≠ c → d ∉ s.coresOf k.launch → t.core d = s.core d)) ∧
      (fab = false → k.tagged = false → k.bound = true → s.isPair k.launch = true →
        (let at_ := k.lcyc + (if s.lcycTicks c then 42 else 41)
         (win.sum ≤ hard ∨ l.frzAt = []) → ∃ t, exec (.powerWindowCheck c) s = .next t ∧ at_ ∈ (t.launch k.launch).frzAt ∧
          (∀ q, l.partner = some q → at_ ∈ (t.launch q).frzAt) ∧ t.core c = seen k) ∧
        (hard < win.sum → l.frzAt ≠ [] → throttles)) ∧
      (fab = true → k.crossed = false → s.pendFreeze = none → ∃ t, exec (.powerWindowCheck c) s = .next t ∧ t.pendFreeze = some s.now ∧
        t.core c = seen k) ∧
      (fab = true → hard < win.sum → s.pendFreeze ≠ none → throttles) ∧
      (fab = true → (k.crossed = true ∧ s.pendFreeze = none ∨ win.sum ≤ hard ∧ s.pendFreeze ≠ none) →
        exec (.powerWindowCheck c) s = .next (s.modCore c seen))) ∧
    (∀ n,
      (s.gangCycle n ∈ (s.launch n).frzAt → ∃ t, exec (.gangFreezePropagate n) s = .next t ∧ (∀ d ∈ s.coresOf n, (t.core d).frz = true) ∧
        s.gangCycle n ∉ (t.launch n).frzAt ∧ (∀ d, d ∉ s.coresOf n → t.core d = s.core d)) ∧
      (s.gangCycle n ∉ (s.launch n).frzAt → exec (.gangFreezePropagate n) s = .next s)) ∧
    (∀ a, s.pendFreeze = some a → a + 128 ≤ s.now + 1 → s.framePos = 0 → s.frameFreeze = 0 →
      exec .fabricFrameFreeze s = .next { s with frameFreeze := 512, pendFreeze := none, pdefcnt := Nat.min (s.pdefcnt + 1) (2 ^ 32 - 1) })

/-- R347: the weight of what a slot triggers is the table's, and an issue charges the bundle 16, each move slot 2 and what it triggers. -/
def Sys2Proof.Claims.WeightsAreTheTable : Prop :=
  (∀ (i : Instr),
    let long : Prop := ∃ src u w g, i ∈ [Instr.mul src u w g, .mulhs src u w g, .mulhu src u w g, .divs src u w g, .divu src u w g, .rems src u w g,
      .remu src u w g]
    ((unitOf i = .a0 ∨ unitOf i = .a1) → (long → opWeight i = 10) ∧ (¬long → opWeight i = 4)) ∧
    ((unitOf i = .au ∨ unitOf i = .c ∨ unitOf i = .sync ∨ unitOf i = .k ∨ unitOf i = .fe) → opWeight i = 3) ∧
    (let vec : Prop := ∃ src a b g, i = .ldv src a b g ∨ i = .stv src a b g ∨ i = .ldvs src a b g
     unitOf i = .l → (vec → opWeight i = 48) ∧ (¬vec → opWeight i = 12)) ∧
    ((unitOf i = .at ∨ unitOf i = .ra) → opWeight i = 14) ∧
    (let w96 : Prop := ∃ src t g, i = .vmul src t g ∨ i = .vmad src t g ∨ i = .bmm src t g
     let w112 : Prop := ∃ src t g, i = .vrcp src t g ∨ i = .vrsq src t g ∨ i = .vexp2 src t g ∨ i = .vlog2 src t g ∨ i = .vred src t g ∨ i = .vscan src t g
     let w80 : Prop := ∃ src t g, i = .vtopk src t g ∨ i = .vtopkm src t g
     unitOf i = .v → (w96 → opWeight i = 96) ∧ (w112 → opWeight i = 112) ∧ (w80 → opWeight i = 80) ∧ (¬w96 → ¬w112 → ¬w80 → opWeight i = 48)) ∧
    (unitOf i = .x → opWeight i = 40) ∧
    ((∃ src g, i = .mrd src g) → opWeight i = 40) ∧ ((∃ src g, i = .mzero src g) → opWeight i = 24) ∧
    ((unitOf i = .d ∨ unitOf i = .ps ∨ unitOf i = .lp ∨ unitOf i = .bq ∨ unitOf i = .sys) → opWeight i = 6) ∧ (unitOf i = .plain → opWeight i = 0)) ∧
  (∀ (s : State) (src d : BitVec 9) (u w : BitVec 1) (n : BitVec 4) (g : BitVec 6),
    let Charges (i : Instr) (x : Nat) : Prop := s.Clear i → ∃ t, exec i s = .next t ∧ (t.core s.cur).weight = s.me.weight + x
    (src.toNat < 0x40 → d.toNat < 0x40 → Charges (.move false src d g) 18) ∧ (src.toNat < 0x40 → Charges (.add src u w g) 22) ∧
    (src.toNat < 0x40 → Charges (.mul src u w g) 28) ∧ (src.toNat < 0x40 → Charges (.setb src n g) 21) ∧ (src.toNat < 0x40 → Charges (.mzero src g) 42) ∧
    (0x80 ≤ src.toNat → src.toNat < 0x88 → d.toNat < 0x40 → Charges (.move false src d g) 26))

/-- R34, R342: before a TIMED gang's cycle, a wait on any core delays the gang and its partner; with none, a stop on any core stops all of
them, and only those that stop do so. -/
def Sys2Proof.Claims.GangsWaitAndStopTogether : Prop :=
  ∀ (s : State) (l : Nat),
    let cs := s.pairCores l
    let n (c : Nat) : Nat := s.coreSense c
    let x := (s.senseGang l).launch l
    ((∃ c ∈ cs, n c = 1 ∨ 3 ≤ n c) → x.delayed = true ∧ x.stopping = false ∧ x.stops = []) ∧
    ((∀ c ∈ cs, n c = 0 ∨ n c = 2) → (∃ c ∈ cs, n c = 2) → x.delayed = false ∧ x.stopping = true ∧
      ∀ c st, (c, st) ∈ x.stops ↔ c ∈ cs ∧ (s.core c).status = .run ∧ (s.tryBundle c).2 = .stop st) ∧
    ((∀ c ∈ cs, n c = 0) → x.delayed = false ∧ x.stopping = false ∧ x.stops = []) ∧
    (∀ c, (s.core c).status = .run → (s.core c).frz = false → s.bridgeLocked c = false →
      ((∃ st, (s.tryBundle c).2 = .stop st) → n c = 2) ∧ ((∃ t, (s.tryBundle c).2 = .issue t) → n c = 0) ∧ ((∃ t, (s.tryBundle c).2 = .idle t) → n c = 0) ∧
      ((∃ t, (s.tryBundle c).2 = .delay t) → n c = 1 ∨ 3 ≤ n c)) ∧
    (∀ c, (s.core c).status = .run → (s.core c).frz = true → n c = 1)

/-- R34, R342, R347 to R351: power windows and freezes, the weights, and the waits and stops of gangs. -/
def Obligations.PowerWindowsFreezeCores : Prop :=
  Sys2Proof.Claims.PowerWindowsFreezeCores ∧ Sys2Proof.Claims.WeightsAreTheTable ∧ Sys2Proof.Claims.GangsWaitAndStopTogether

/-! ## The dispatcher (R25 to R47, R301 to R314) -/

namespace Sys2Proof.Claims

/-- A store of a die's own logic at PACKAGE scope or wider: at once at a home on its die, and across the bridge to one on the other. -/
def Stored (s t : State) (d loc : Nat) (bs : List Byte) : Prop :=
  (homeDie loc = some d → Open s loc bs.length → Wrote s t loc bs) ∧
  (∀ e, homeDie loc = some e → e ≠ d → ∃ m ∈ t.bridge, m.loc = loc ∧ m.due = s.now + 40 ∧ m.bytes = bs)

/-- RIDX of a queue stands at n, in the dispatcher and in the descriptor. -/
def IndexAt (s t : State) (d q : Nat) (x : Queue) (n : Nat) : Prop :=
  Tbl.find? (t.die d).ridx q = some (BitVec.ofNat 64 n) ∧ Stored s t d x.rloc (toBytes 8 n)

/-- The bits of packet A, and of B's two words of events, that a launch keeps (R307). -/
structure Enqueued (l : Launch) (d q : Nat) (x : Queue) (a b : List Nat) : Prop where
  state : l.state = .waiting
  place : l.die = d ∧ l.queue = q ∧ l.ctx = x.ctx
  ticket : l.ticket = a.getD 0 0 / 2 ^ 16 % 2 ^ 48
  image : l.image = a.getD 1 0 % 2 ^ 56
  args : l.args = a.getD 2 0 % 2 ^ 56
  est : l.est = a.getD 3 0 % 2 ^ 48
  cls : l.cls = a.getD 3 0 / 2 ^ 48 % 8 ∧ l.effcls = l.cls
  flags : l.ckpt = (a.getD 3 0).testBit 51 ∧ l.killok = (a.getD 3 0).testBit 52 ∧ l.tagged = (a.getD 3 0).testBit 53
  shape : l.shape = a.getD 3 0 / 2 ^ 55 % 4 ∧ l.cwscope = a.getD 3 0 / 2 ^ 57 % 8
  cwaddr : l.cwaddr = a.getD 4 0 % 2 ^ 56
  ttid : l.ttid = a.getD 5 0 % 2 ^ 32
  wait : l.wait = BitVec.ofNat 256 (b.getD 0 0 + b.getD 1 0 * 2 ^ 64 + b.getD 2 0 * 2 ^ 128 + b.getD 3 0 * 2 ^ 192)
  set : l.set = BitVec.ofNat 256 (b.getD 4 0 + b.getD 5 0 * 2 ^ 64 + b.getD 6 0 * 2 ^ 128 + b.getD 7 0 * 2 ^ 192)

/-- A launch that is done: its SET bits are on their way, to be set before the tests of the coming cycle (log 17), and its completion word, if
it has one, of PACKAGE scope or wider, holds status and exit count (R27). -/
def Finished (s t : State) (li status : Nat) : Prop :=
  let l := s.launch li
  (t.launch li).state = .done ∧ (∀ i, i < 256 → l.set.getLsbD i = true → (l.ctx, i) ∈ t.evLate) ∧
  (l.cwaddr = 0 → t.mem = s.mem) ∧
  (∀ loc, l.cwaddr ≠ 0 → 4 ≤ l.cwscope → l.cwscope < 7 → s.xlateCtx l.ctx l.cwaddr { w := true } = .ok loc →
    (∀ p q, placeOf loc ≠ .carafe p q) → Stored s t l.die loc (toBytes 8 (status + l.exits * 256)))

end Sys2Proof.Claims

/-- R25, R305 to R307: a NOP packet moves RIDX on by one; a packet of reserved TYPE too, and QERR counts it; a LAUNCH takes two slots, and is
enqueued with the fields of its packets, or DONE at once as a bad launch, which sets no event bit. With no packet of the queue's ticket nothing happens. -/
def Obligations.PacketsAreTaken : Prop :=
  ∀ (s : State) (d q : Nat), d < s.dies.length →
    (s.nextPacket d q = none → exec (.nopPacket d q) s = .next s ∧ exec (.reservedPacket d q) s = .next s ∧ exec (.launchPacket d q) s = .next s) ∧
    (∀ x a, s.nextPacket d q = some (x, a) →
      let type := a.getD 0 0 % 256
      (type = 2 → ∃ t, exec (.nopPacket d q) s = .next t ∧ IndexAt s t d q x ((x.ridx + 1) % 2 ^ 64) ∧ t.launches = s.launches ∧ t.ctxs = s.ctxs) ∧
      (type ≠ 1 → type ≠ 2 → ∃ t, exec (.reservedPacket d q) s = .next t ∧ IndexAt s t d q x ((x.ridx + 1) % 2 ^ 64) ∧
        (t.ctx x.ctx).qerr = Nat.min ((s.ctx x.ctx).qerr + 1) 65535 ∧ t.launches = s.launches) ∧
      (∀ b, type = 1 → s.packet x (x.ridx + 1) = some b →
        let l := launchOf d q x.ctx s.nLaunch (fun i => a.getD i 0) (fun i => b.getD i 0)
        let img := s.readImage x.ctx l.image 24
        let bad := s.badLaunch l (a.getD 0 0) (fld (a.getD 3 0) 54 54) img
        ∃ t, exec (.launchPacket d q) s = .next t ∧ t.nLaunch = s.nLaunch + 1 ∧
          Tbl.find? (t.die d).ridx q = some (BitVec.ofNat 64 ((x.ridx + 2) % 2 ^ 64)) ∧
          (bad = false → IndexAt s t d q x ((x.ridx + 2) % 2 ^ 64) ∧ Enqueued (t.launch s.nLaunch) d q x a b ∧ (t.launch s.nLaunch).img = img) ∧
          (bad = true → (t.launch s.nLaunch).state = .done ∧ t.ctxs = s.ctxs ∧ t.evLate = s.evLate)))

/-- R26, R27, R33, R34, R308: a waiting launch whose events are all set is eligible; a TAGGED task binds to a free core, and a gang that
holds all its cores starts on all of them, each at the image's entry with logical cycle 0; a task that has ended leaves its core once what it
stored has reached its homes, and when the last task has ended the launch is done. -/
def Obligations.LaunchesStartAndEnd : Prop :=
  ∀ (s : State) (li c : Nat),
    let l := s.launch li
    (l.state = .waiting → (s.ctx l.ctx).ev &&& l.wait = l.wait →
      exec (.launchEligible li) s = .next (s.modLaunch li (fun x => { x with state := .eligible }))) ∧
    ((l.state ≠ .waiting ∨ (s.ctx l.ctx).ev &&& l.wait ≠ l.wait) → exec (.launchEligible li) s = .next s) ∧
    (∀ im bs, (l.state = .eligible ∧ s.fabricGate l = 0 ∨ l.state = .running) → l.tagged = true → l.nextTask < l.ntasks → c < 2048 / 2 ^ l.shape →
      s.mayTake li c = true → l.img = some im → s.objGet (s.taskCtx l (dieOf c)) l.args 256 = some bs →
      ∃ t, exec (.taskBind li c) s = .next t ∧ (t.launch li).state = .running ∧ (t.launch li).nextTask = l.nextTask + 1 ∧
        (t.core c).status = .run ∧ (t.core c).launch = li ∧ (t.core c).tid = l.nextTask ∧ (t.core c).tagged = true ∧
        (t.core c).ctx = s.taskCtx l (dieOf c) ∧ (t.core c).pc = im.entry ∧ (t.core c).cb = im.cb ∧ (t.core c).lcyc = 0 ∧ (t.core c).phase = 0 ∧
        (∀ j, j < 64 → (t.core c).g.getD j 0 = if j < 16 then BitVec.ofNat 64 (le bs (8 * (16 + j)) 8) else 0) ∧
        (t.core c).p = 0 ∧ (∀ r ∈ (t.core c).v, r = 0) ∧ (t.core c).held = [] ∧ (t.core c).mops = []) ∧
    (s.mayTake li c = false → exec (.taskBind li c) s = .next s) ∧
    (∀ im, l.state = .reserving → s.held li = true → s.fabricGate l = 0 → l.ttid = 0 → l.img = some im → im.hasDies = false →
      ∃ t, exec (.gangStart li) s = .next t ∧ (t.launch li).state = .running ∧ (t.launch li).nextTask = l.ntasks ∧
        ∀ d ∈ s.needs li, (t.core d).bound = true ∧ (t.core d).launch = li ∧ (t.core d).pc = im.entry ∧ (t.core d).lcyc = 0) ∧
    (l.state = .reserving → s.held li = false → exec (.gangStart li) s = .next s) ∧
    (l.state = .running → s.coresOf li = [] → l.ended = l.ntasks → ∃ t, exec (.launchComplete li) s = .next t ∧
      Finished s t li (if l.faulted then 3 else 0)) ∧
    (l.state = .running → l.tagged = true → s.coresOf li = [c] → (s.core c).launch = li → s.ended c = true → (s.endDrain c).leaves c = true →
      l.ended + 1 < l.ntasks →
      ∃ t, exec (.launchComplete li) s = .next t ∧ (t.core c).bound = false ∧ (t.launch li).ended = l.ended + 1 ∧ (t.launch li).state = .running)

/-- R39, R40, R42, R310 to R314: a pre-emption pays its tokens and has its victim save, or kills it, and one that may only wait, or that the
tokens do not cover, does nothing. A save, once what the tasks have stored has reached its homes, frees the cores with each task kept; a restore
brings it back, at the pc and the logical cycle of its image's header (R312), with its registers while the device's own part of the image stands
as it was written, whose bytes the model leaves free (log 43), or ends the launch where the save area cannot be read. That a newcomer's victims
are those that hold what it lacks is the model's reading (log 42), as are one space of core numbers for all partitions (log 41) and the time that
a save and a restore take (log 45). A kill ends every task at once; a slice that ends has its launch save at no cost. -/
def Obligations.LaunchesGiveWayAndComeBack : Prop :=
  ∀ (s : State) (d li c : Nat),
    let l := s.launch li
    let k := s.core c
    (∀ n v, s.newcomer d = some n → s.victims n [] (s.candidates n) = some [v] → (s.launch v).state = .running → (s.launch v).partner = none →
      let x := (s.launch n).ctx
      let pays (t : State) : Prop := (t.ctx x).tokens = (s.ctx x).tokens - s.cost d n v
      (s.choice d v = 3 ∨ (s.ctx x).tokens < s.cost d n v → exec (.preemptionDecision d) s = .next s) ∧
      (s.choice d v = 1 → s.cost d n v ≤ (s.ctx x).tokens → ∃ t, exec (.preemptionDecision d) s = .next t ∧ (t.launch v).state = .saving ∧ pays t ∧
        t.cores = s.cores) ∧
      (s.choice d v = 2 → s.cost d n v ≤ (s.ctx x).tokens → ∃ t, exec (.preemptionDecision d) s = .next t ∧ (t.launch v).state = .killing ∧
        (t.launch v).killed = true ∧ pays t)) ∧
    (s.newcomer d = none → exec (.preemptionDecision d) s = .next s) ∧
    (l.state = .saving → s.saveReady li = true → (s.saveFence li).fenced li = true → s.byTask li = [c] → k.launch = li →
      ∃ t k', exec (.checkpointSave li) s = .next t ∧ (t.launch li).state = .saved ∧ (t.launch li).saved = l.saved ++ [(k.tid, c, k')] ∧
        SameRegisters k k' ∧ k'.pc = k.pc ∧ k'.lcyc = k.lcyc ∧ k'.t = k.t ∧ k'.b = k.b ∧ k'.loops = k.loops ∧ (t.core c).bound = false) ∧
    (l.state = .saving → s.saveReady li = true → (s.saveFence li).fenced li = false → ∃ t, exec (.checkpointSave li) s = .next t ∧
      (t.launch li).state = .saving ∧ (t.launch li).saved = l.saved ∧ SameRegisters k (t.core c) ∧ (t.core c).status = k.status) ∧
    (l.state = .saving → s.saveReady li = false → l.saveStage = 0 → exec (.checkpointSave li) s = .next s) ∧
    (∀ k', l.state = .restoring → l.restoreAt ≤ s.now → l.saved = [(k'.tid, c, k')] → l.postsHeld = [] → k'.blocks = [] →
      (s.areaReadable l k'.ctx = true →
        s.bodyKept k'.ctx (s.ctx k'.ctx).savebase (k'.imageSize l - 65536 * k'.scratchUnits l - 64) k'.imageKey = true →
        ∃ t, exec (.launchRestore li) s = .next t ∧ (t.launch li).state = .running ∧ (t.launch li).saved = [] ∧
        SameRegisters k' (t.core c) ∧ (t.core c).pc = s.headWord k'.ctx (s.ctx k'.ctx).savebase 4 % 2 ^ 56 ∧
        (t.core c).lcyc = s.headWord k'.ctx (s.ctx k'.ctx).savebase 3 ∧ (t.core c).status = k'.status ∧ (t.core c).yieldFlag = true) ∧
      (s.areaReadable l k'.ctx = false → ∃ t, exec (.launchRestore li) s = .next t ∧ Finished s t li 3)) ∧
    (l.state = .restoring → s.now < l.restoreAt → exec (.launchRestore li) s = .next s) ∧
    (l.state = .running → ∃ t, exec (.kill li) s = .next t ∧ (t.launch li).state = .killing ∧ (t.launch li).killed = true ∧
      ∀ e ∈ s.coresOf li, (t.core e).status = .drain ∧ (t.core e).cmds = [] ∧ (t.core e).held = [] ∧ (t.core e).pend = [] ∧ (t.core e).mma = []) ∧
    (l.state ≠ .running → exec (.kill li) s = .next s) ∧
    (l.state = .running → l.partner = none → (s.ctx l.ctx).slice ≠ 0 → (s.sliceOf li).1 ≤ s.runCount li - l.sliceBase → s.rival li = true →
      s.choice l.die li = 1 → ∃ t, exec (.sliceEnd li) s = .next t ∧ (t.launch li).state = .saving ∧
        (t.ctx l.ctx).tokens = (s.ctx l.ctx).tokens ∧ t.cores = s.cores) ∧
    (l.state = .running → ((s.ctx l.ctx).slice = 0 ∨ s.rival li = false) → exec (.sliceEnd li) s = .next s)

/-- R47, R301, R303, R309: a waiting launch gains one class with every 2^24 cycles, up to 7; at a multiple of 2^20 cycles every context of a
die gains TOKRATE tokens, up to TOKMAX; a launch whose run count passes EST is overdue and its context counts it, and the management core is
told of one that permits neither checkpoint nor kill, which is the model's reading of R47 (log 52); a core that left dispatch through HALT comes
back. -/
def Obligations.LaunchesAgeAndCountersRun : Prop :=
  ∀ (s : State) (li d c : Nat),
    let l := s.launch li
    (l.waits = true → exec (.classAging li) s = .next (s.modLaunch li (fun x => { x with
      waited := x.waited + 1, effcls := if (x.waited + 1) % 2 ^ 24 = 0 then Nat.min 7 (x.effcls + 1) else x.effcls }))) ∧
    (l.waits = false → ∃ t, exec (.classAging li) s = .next t ∧ ∀ n, t.launch n = s.launch n) ∧
    (s.now % 2 ^ 20 = 0 → ∃ t, exec (.tokenRefill d) s = .next t ∧
      (∀ i, i < 64 → t.ctx (64 * d + i) =
        { s.ctx (64 * d + i) with tokens := Nat.min (s.ctx (64 * d + i)).tokmax ((s.ctx (64 * d + i)).tokens + (s.ctx (64 * d + i)).tokrate) }) ∧
      (∀ x, (x < 64 * d ∨ 64 * d + 64 ≤ x) → t.ctx x = s.ctx x) ∧ t = { s with ctxs := t.ctxs }) ∧
    (s.now % 2 ^ 20 ≠ 0 → exec (.tokenRefill d) s = .next s) ∧
    (l.state = .running → l.overdue = false → l.est < s.runCount li →
      ∃ t, exec (.launchOverdue li) s = .next t ∧ (t.launch li).overdue = true ∧ (t.ctx l.ctx).overdue = Nat.min ((s.ctx l.ctx).overdue + 1) 65535 ∧
        (l.ckpt = true ∨ l.killok = true → t.mbox = s.mbox) ∧
        (l.ckpt = false → l.killok = false → (s.mbox.ntw + 2 ^ 64 - s.mbox.ntr) % 2 ^ 64 ≠ 63 → t.mbox.ntw = s.mbox.ntw + 1)) ∧
    ((l.state ≠ .running ∨ l.overdue = true ∨ s.runCount li ≤ l.est) → exec (.launchOverdue li) s = .next s) ∧
    exec (.haltedCoreReturn c) s =
      .next (s.modDie (dieOf c) (fun x => { x with outCores := x.outCores.filter (fun p => p != c % 2048) }))

/-! ## The speculation complex (R12, R15, R274, R275, R278, R285, R286, R291, R293) -/

namespace Sys2Proof.Claims

/-- A command block that asks for no notification and no completion word. -/
def Silent (b : BitVec 512) : Prop := bNotify b = 0 ∧ bCwaddr b = 0

/-- A step of slot q that has ended without a commit: its records and reservations are gone and the step number has risen. -/
def StepLost (s t : State) (q outcome : Nat) (st : LoupeState) : Prop :=
  (t.slot q).st = st ∧ (t.slot q).stepNo = ((s.slot q).stepNo + 1) % 2 ^ 32 ∧ (t.slot q).admission = none ∧ (t.slot q).verified = none ∧
  (t.slot q).branches = [] ∧ (t.slot q).len = (s.slot q).len ∧
  ∃ r, (t.slot q).res = some r ∧ r.stepNo = (s.slot q).stepNo ∧ r.outcome = outcome ∧ r.len = (s.slot q).len

end Sys2Proof.Claims

/-- R12, R15, R274, R275, R293: a store on an occupied Carafe slot is interlocked, as is one behind an interlocked store of its slot or of its
core, and lands as a store once the slot is free; 32 bytes on a
free slot are a record, which is counted as early or bad and dropped, or taken for its step. A transfer of the bridge arrives 40 cycles after it
left, first those of its pair that left first. The Barista core's answer to a request stands in its slot with the token-ready flag set; a sampler's
token waits until the commit that asked for it has published the next depth (R19). That the answer frees the slot of a BQPUSH, which wants no
reply, is the model's choice (log 115). -/
def Obligations.CarafeBridgeAndBaristaAct : Prop :=
  ∀ (s : State) (j off : Nat) (bs : List Byte),
    let first (off : Nat) : CarafeMsg :=
      (s.carafeOut.find? (fun m => m.slot == j && m.off == off && m.bytes == bs)).getD { slot := j, off := off, bytes := bs }
    let behind (m : CarafeMsg) : Prop := ∃ q ∈ s.interlocked, q.slot = j ∨
      ∃ c op i op' i', m.who = .access c op i ∧ q.who = .access c op' i'
    (((s.carafeSlot j).taken = true ∨ behind (first off)) → exec (.carafeStore j off bs) s =
       .next { s with carafeOut := s.carafeOut.erase (first off), interlocked := s.interlocked ++ [first off] }) ∧
    (s.carafeSlot j = {} → ¬behind (first 0) → bs.length = 32 →
      let r := parseNode j (BitVec.ofNat 256 (ofBytes bs))
      ∃ t, exec (.carafeStore j 0 bs) s = .next t ∧ t.mem = s.mem ∧
        (s.recEarly r = true → t.carafeSlot j = {} ∧ t.earlyCnt = Nat.min (s.earlyCnt + 1) (2 ^ 32 - 1) ∧ t.badCnt = s.badCnt ∧ ∀ q, t.slot q = s.slot q) ∧
        (s.recEarly r = false → s.recBad r = true → t.carafeSlot j = {} ∧ t.badCnt = Nat.min (s.badCnt + 1) (2 ^ 32 - 1) ∧
          t.earlyCnt = s.earlyCnt ∧ ∀ q, t.slot q = s.slot q) ∧
        (s.recEarly r = false → s.recBad r = false → (t.carafeSlot j).taken = true ∧ (t.carafeSlot j).bytes = BitVec.ofNat 256 (ofBytes bs) ∧
          (t.slot r.lseq).recs = (s.slot r.lseq).recs ++ [j] ∧ t.earlyCnt = s.earlyCnt ∧ t.badCnt = s.badCnt)) ∧
    ((s.carafeSlot j).taken = true → exec (.carafeInterlockRelease j) s = .next s) ∧
    (∀ m, m.slot = j → (s.carafeSlot j).taken = false → s.interlocked = [m] → s.carafeOut = [] →
      ∃ t, exec (.carafeInterlockRelease j) s = .next t ∧
        exec (.carafeStore j m.off m.bytes) { s with interlocked := [], carafeOut := [m] } = .next t) ∧
    (∀ src dst m, s.bridge.find? (fun m => m.src == src && m.dst == dst) = some m →
      (s.now < m.due → exec (.bridgeDelivery src dst) s = .next s) ∧
      (m.due ≤ s.now → s.inRebuild m.loc = true → exec (.bridgeDelivery src dst) s = .next (s.at_ (s.now + 1) (.bridgeDelivery src dst))) ∧
      (m.due ≤ s.now → m.lseq = none → m.bytes ≠ [] → Open s m.loc m.bytes.length → s.engineTile m.loc = false → s.engineTile (m.loc + (m.bytes.length - 1)) = false → ∃ t, exec (.bridgeDelivery src dst) s = .next t ∧ Wrote s t m.loc m.bytes ∧ t.bridge = s.bridge.erase m)) ∧
    (∀ (reply : BitVec 512) (token : BitVec 24),
      let x := s.bqSlot j
      let open_ : Prop := x.used = true ∧ x.replied = false ∧ j ∈ s.bqOrder
      (¬open_ → exec (.baristaRequestServe j reply token) s = .next s) ∧
      (open_ → x.sampler = false → ∃ t, exec (.baristaRequestServe j reply token) s = .next t ∧ j ∉ t.bqOrder ∧ t.mem = s.mem ∧
        (x.noReply = true → t.bqSlot j = {}) ∧
        (x.noReply = false → t.bqSlot j = { x with replied := true, reply := reply } ∧
          ∀ f, x.flag = some f → f < 256 → (t.ctx x.ctx).tflags.getLsbD f = true)) ∧
      (open_ → x.sampler = true → (s.slot x.lseq).wst ≠ 0 → ∃ t n, exec (.baristaRequestServe j reply token) s = .next t ∧
        t = s.at_ n (.baristaRequestServe j reply token) ∧ s.now < n) ∧
      (open_ → x.sampler = true → (s.slot x.lseq).wst = 0 → (s.slot x.lseq).tflag < 256 → ∃ t, exec (.baristaRequestServe j reply token) s = .next t ∧ t.bqSlot j = {} ∧
        (t.ctx x.ctx).tflags.getLsbD (s.slot x.lseq).tflag = true ∧ j ∉ t.bqOrder))

/-- R278, R285, R286, R289, R291: an operation of lp, bq or ps that is due performs, its status and handle go to its result latch and the
block's tile back to the thread. An admission of a complete tree reserves and numbers its leaves, is refused, or fails; a commit waits for FIN,
then advances LEN and KVSEQ and sends word 0 of DPOS, or is abandoned. When word 0 has been written AR takes its new value and word 1 leaves, and
when that has been written the step has ended, with its result record. -/
def Obligations.LoupeStepsAdvance : Prop :=
  (∀ (s : State) (c : Nat) (o : SpecOp), (s.core c).sops = [o] → o.perf = false →
    (∀ r, (o.blk = none ∨ o.blkv.isSome = true) → o.due ≤ s.now → (s.modCore c (fun k => k.setSop o)).specRun c o = some r →
      (r.1.core c).sops = [o] → (∀ h ∈ (r.1.core c).held, h.gone = true ∨ h.src ≠ some o.id) →
      exec (.specUnitResult c o.id) s = .next (r.1.modCore c (fun k => ({ k with
        sops := []
        sres := k.sres.set o.latch (BitVec.ofNat 64 (r.2.1 + r.2.2 * 2 ^ 32))
        eng := match o.blk with | some off => k.eng.erase (off / 4096) | none => k.eng } : Core).freeTiles))) ∧
    (s.now < o.due → ∃ t, exec (.specUnitResult c o.id) s = .next t ∧ (t.core c).sres = (s.core c).sres ∧ (t.core c).eng = (s.core c).eng ∧
      t.mem = s.mem)) ∧
  (∀ (s : State) (q : Nat) (sub : LpSub),
    let x := s.slot q
    (x.st = .drafting → x.admission = some sub → treeComplete (s.nodesOf q) = false → exec (.loupeAdmission q) s = .next s) ∧
    (x.st = .drafting → x.admission = some sub → treeComplete (s.nodesOf q) = true → Silent sub.block →
      (∀ e, s.admitPlan q sub = .fail e → exec (.loupeAdmission q) s = .next (s.setSlot q { x with admission := none })) ∧
      (∀ stalled, s.admitPlan q sub = .refuse stalled → ∃ t, exec (.loupeAdmission q) s = .next t ∧
        StepLost s t q (if stalled then 2 else 1) (if stalled then .stalled else .drafting)) ∧
      (∀ ms br u, s.admitPlan q sub = .keep ms br u → ∃ t, exec (.loupeAdmission q) s = .next t ∧ (t.slot q).st = .admitted ∧
        (t.slot q).admission = none ∧ (t.slot q).branches = br ∧ (t.slot q).recs = x.recs.filter (fun j => ms.any (fun y => y.slot == j)) ∧
        (t.slot q).curMode = x.modeSet ∧ (t.slot q).curTopk = x.topk ∧ (t.slot q).curTopp = x.topp ∧ (t.slot q).curSeed = x.seed)) ∧
    (x.st = .committing → x.verified = some sub → x.wst = 0 →
      (∀ tok, s.tokAt x.ctx x.tokbuf (x.len - 1) = .ok (tok, false) → exec (.loupeCommit q) s = .next (s.at_ (s.now + 1) (.loupeCommit q))) ∧
      (∀ tok, s.tokAt x.ctx x.tokbuf (x.len - 1) = .ok (tok, true) → s.pagesMoving x.ctx x.dposaddr 16 = true →
        exec (.loupeCommit q) s = .next (s.at_ (s.now + 1) (.loupeCommit q))) ∧
      (∀ tok, s.tokAt x.ctx x.tokbuf (x.len - 1) = .ok (tok, true) → x.sampler = false → s.pagesMoving x.ctx x.dposaddr 16 = false →
        (∀ e, s.commitPlan q sub = .error e → e ≠ kvWaits → s.abandonWaits q = false → Silent sub.block → ∃ t, exec (.loupeCommit q) s = .next t ∧ StepLost s t q 3 .drafting) ∧
        (∀ u z kvseq, s.commitPlan q sub = .ok (u, z, kvseq) → ∃ t, exec (.loupeCommit q) s = .next t ∧ t.mem = u.mem ∧
          (t.slot q).st = .committing ∧ (t.slot q).len = x.len + z.n + 1 ∧ (t.slot q).kvseq = kvseq ∧
          (t.slot q).ar = x.ar ∧ (t.slot q).res = x.res ∧ (t.slot q).wst = 1 ∧
          (let r := (t.slot q).pend
           r.ar = (if bitAt z.flags 1 then x.ar else nextAr x.ar z.n ((s.nodesOf q).foldl (fun m y => Nat.max m y.depth) 0)) ∧
           r.outcome = 0 ∧ r.n = z.n ∧ r.token = z.t ∧ r.len = x.len + z.n + 1 ∧ r.kvseq = kvseq) ∧
          (∀ loc, (u.setSlot q (t.slot q)).vLoc x.ctx x.dposaddr { w := true } = .ok loc → ∃ m, t.bridge = u.bridge ++ [m] ∧
            m.loc = loc ∧ m.due = u.now + 40 ∧ m.lseq = some q ∧ m.bytes = toBytes 8 ((x.len + z.n) % 2 ^ 40 + z.t * 2 ^ 40))))) ∧
    (∀ src dst m, s.bridge.find? (fun m => m.src == src && m.dst == dst) = some m → m.due ≤ s.now → s.inRebuild m.loc = false →
      m.lseq = some q → x.st = .committing →
      (x.wst = 1 → ∃ t n, exec (.bridgeDelivery src dst) s = .next t ∧
        t.slot q = { x with ar := x.pend.ar, wst := 2, dw := (s.ctx x.ctx).depthFor x.pend.ar } ∧
        t.bridge = s.bridge.erase m ++ [n] ∧ n.loc = m.loc + 8 ∧ n.due = s.now + 40 ∧ n.lseq = some q) ∧
      (x.wst = 2 → x.verified = some sub → Silent sub.block → ∃ t, exec (.bridgeDelivery src dst) s = .next t ∧
        (t.slot q).st = .drafting ∧ (t.slot q).stepNo = (x.stepNo + 1) % 2 ^ 32 ∧ (t.slot q).res = some x.pend ∧ (t.slot q).len = x.len ∧
        (t.slot q).depth = x.dw.1 ∧ (t.slot q).width = x.dw.2 ∧ (t.slot q).wst = 0)))

/-! ## Prism and Mirror (R165, R259, R260, R330 to R335) -/

/-- R165, R260, R331, R332, R334, R335: the owner of a Prism read answers 4 for a read that no export covers, and else 0 with the bytes on
their way; the issuer's command completes with the answer; a window, as its entry stood when the first data arrived, takes the bytes, or
refuses them with a fault return, which sets the issuer's D record, and status 4 in a valid window; after a refusal at O the window gets status 6;
then the completion word is written into the window, behind the bytes, at SURVIVABLE once the
parity deltas are acknowledged; both cross the bridge to a home on Eplia. That C writes its word whatever CNOT is, is the model's reading (log 36); the count that A's
word shows is free (log 4). A parity package applies a delta with the coefficient of the code and counts it, and an acknowledgement retires it. -/
def Obligations.PrismAndMirrorAct : Prop :=
  (∀ (s : State) (r : Nat) (x : PrismReq), s.preq r = some x →
    (x.phase ≠ 0 → exec (.prismReadAtOwner r) s = .next s) ∧
    (x.phase = 0 → x.apkg = s.pkgnum → x.rpkg = s.pkgnum →
      (s.exportFor x = none → ∃ t a b, exec (.prismReadAtOwner r) s = .next t ∧ t.preq r = some { x with phase := 1, ostat := 6 } ∧
        (a, Instr.prismAccepted r 4) ∈ t.agenda ∧ (b, Instr.prismDeposit r) ∈ t.agenda ∧ s.now < a ∧ s.now < b ∧ t.mem = s.mem) ∧
      (∀ va ctx bs, s.exportFor x = some (va, ctx) → s.prismBytes ctx (pagesOf (bfld x.block 5 55 32)) va (bfld x.block 5 55 32) = (bs, none) →
        ∃ t a b, exec (.prismReadAtOwner r) s = .next t ∧ t.preq r = some { x with phase := 1, bytes := bs, ostat := 0 } ∧
          (a, Instr.prismAccepted r 0) ∈ t.agenda ∧ (b, Instr.prismDeposit r) ∈ t.agenda ∧ s.now < a ∧ s.now < b ∧ t.mem = s.mem)) ∧
    (∀ status cmd, x.apkg = s.pkgnum → (s.core x.core).cmd? x.seq = some cmd → cmd.finished = false →
      ∃ t cmd', exec (.prismAccepted r status) s = .next t ∧ (t.core x.core).cmd? x.seq = some cmd' ∧ cmd'.finished = true ∧
        (statusIsError cmd.status = false → cmd'.status = status) ∧ t.mem = s.mem) ∧
    (∀ status, x.apkg = s.pkgnum → (s.core x.core).bound = true → (s.core x.core).drec = 0 →
      ∃ t, exec (.prismFaultReturn r status) s = .next t ∧ (t.core x.core).drec = BitVec.ofNat 64 (x.pc % 2 ^ 56 + status * 2 ^ 56)) ∧
    (let y : PrismReq := { x with win := some (x.win.getD (s.rwWords x)) }
     let off := bfld x.block 5 31 0
     let valid : Prop := bitAt (y.rw 1) 32 = true
     let granted : Prop := valid ∧ x.matches_ (y.rw 2) = true ∧ off + bfld x.block 5 55 32 ≤ y.rw 1 % 2 ^ 32
     let settled (t : State) (status n : Nat) : Prop := ∃ z, t.preq r = some z ∧ z.cstat = status ∧ z.cn = n ∧ z.bytes = [] ∧ z.win = y.win ∧
       (z.phase = 2 ∨ z.phase = 3)
     (∀ b loc, x.phase = 1 → x.bytes = [b] → x.ostat = 0 → bfld x.block 6 1 0 = 0 → granted → s.depositHeld y off 1 = false →
       s.prismFrozen y = false → s.rwPart y off 1 = some (loc, 1) → y.rw 1 % 2 ^ 32 < bfld x.block 6 63 32 + 8 →
       ∃ t, exec (.prismDeposit r) s = .next t ∧ settled t 0 1 ∧
         (homeDie loc ≠ some 1 → Open s loc 1 → s.engineTile loc = false → Wrote s t loc [b]) ∧
         (homeDie loc = some 1 → ∃ m ∈ t.bridge, m.loc = loc ∧ m.due = s.now + 40 ∧ m.bytes = [b])) ∧
     (x.phase = 1 → x.bytes ≠ [] → ¬granted → x.apkg = s.pkgnum → ∃ t a, exec (.prismDeposit r) s = .next t ∧
       (a, Instr.prismFaultReturn r 4) ∈ t.agenda ∧ s.now < a ∧ (valid → settled t 4 0) ∧ (¬valid → t.mem = s.mem)) ∧
     (x.phase = 1 → x.bytes = [] → x.ostat ≠ 0 → valid → ∃ t, exec (.prismDeposit r) s = .next t ∧ settled t 6 0) ∧
     (x.phase = 1 → x.bytes ≠ [] → granted → (s.depositHeld y off x.bytes.length = true ∨ s.prismFrozen y = true) →
       ∃ t, exec (.prismDeposit r) s = .next t ∧ t.preq r = some y ∧ t.mem = s.mem ∧ (s.now + 1, Instr.prismDeposit r) ∈ t.agenda)) ∧
    (x.phase = 2 → x.win.isSome = true →
      let off := bfld x.block 6 63 32
      let waits : Prop := bfld x.block 6 4 2 = 7 ∧ s.deltasAcked x.mark = false ∨ s.depositHeld x off 8 = true ∨ s.prismFrozen x = true ∨
        ∃ m ∈ s.bridge, m.src = noCore ∧ m.id < x.bmark
      let word := toBytes 8 (x.cstat + Nat.min x.cn (2 ^ 24 - 1) * 2 ^ 8 + x.tag * 2 ^ 32)
      (waits → exec (.prismDeposit r) s = .next (s.at_ (s.now + 1) (.prismDeposit r))) ∧
      (∀ loc, ¬waits → bfld x.block 6 1 0 = 0 → off + 8 ≤ x.rw 1 % 2 ^ 32 → s.rwPart x off 8 = some (loc, 8) →
        ∃ t, exec (.prismDeposit r) s = .next t ∧ t.preq r = some { x with phase := 3 } ∧
          (homeDie loc ≠ some 1 → Open s loc 8 → s.engineTile loc = false → s.engineTile (loc + 7) = false → Wrote s t loc word) ∧
          (homeDie loc = some 1 → ∃ m ∈ t.bridge, m.loc = loc ∧ m.due = s.now + 40 ∧ m.bytes = word)))) ∧
  (∀ (s : State) (region line shard id pkg : Nat) (delta : BitVec 512),
    let g := readRegion s.mem (s.mirbase + 64 * region) region
    let loc := g.pbase + 64 * line
    let held : Prop := g.st ≠ 0 ∧ g.k ≤ g.role ∧ shard < g.k ∧ 64 * line < g.len ∧ region < 64
    (held → ∃ t, exec (.mirrorDeltaApply region line shard delta) s = .next t ∧
      (Memory.wf s.mem = true →
        (∀ i, i < 64 → memGet t.mem (loc + i) =
          s.rd (loc + i) ^^^ BitVec.ofNat 8 (gfMul (cauchy (g.role - g.k) shard) (delta.toNat / 2 ^ (8 * i) % 256))) ∧
        (∀ a, a < loc ∨ loc + 64 ≤ a → memGet t.mem a = memGet s.mem a)) ∧
      Tbl.getD t.parCnt (parKey s.pkgnum region line shard) 0 = (Tbl.getD s.parCnt (parKey s.pkgnum region line shard) 0 + 1) % 65536) ∧
    (¬held → exec (.mirrorDeltaApply region line shard delta) s = .next s) ∧
    (∃ t, exec (.mirrorDeltaAck id pkg) s = .next t ∧ t.mem = s.mem ∧
      (∀ d ∈ t.deltas, d.waiting ≠ [] ∧ (d.id = id → pkg ∉ d.waiting)) ∧ (∀ d ∈ s.deltas, d.id ≠ id → d.waiting ≠ [] → d ∈ t.deltas)))

/-! ## The links (R359 to R373) -/

namespace Sys2Proof.Claims

/-- A port on which flits leave in this cycle: enabled, aligned, attested, not locked, at the start of a slot, with no repeat to send. -/
def MaySend (s : State) (p : Nat) : Prop :=
  (s.port p).en = true ∧ (s.port p).aligned = true ∧ (s.port p).attested = true ∧ (s.port p).lock = false ∧ s.framePos % 2 = 0 ∧
  s.slotNow ∉ (s.port p).replay

/-- A flit leaves in the current slot, numbered on its port and sealed under the port's key and counter, which rises (R370, R371). -/
def Sends (s t : State) (p : Nat) (f : Flit) : Prop :=
  let x := s.port p
  let f1 : Flit := { f with pseq := x.pseq }
  let c := gcmSeal x.txKey x.txSalt x.txCnt (flitHeader f1) f1.payload
  Tbl.find? (t.port p).sent s.slotNow = some (f1, { f1 with payload := c.1, tag := c.2 }) ∧
  (t.port p).txCnt = (x.txCnt + 1) % 2 ^ 64 ∧ (t.port p).pseq = (x.pseq + 1) % 2 ^ 16 ∧ (t.port p).inq = x.inq

/-- The pair's next MEM flit in order, with none kept for later; behind its request number, of 8 bytes, the flit stores bytes to HBM. -/
def StoresInOrder (s : State) (f : Flit) (loc : Nat) (bs : List Byte) : Prop :=
  let q := Tbl.getD s.pairs f.spkg {}
  f.info.toNat % 2 ^ 32 = q.recvSeq % 2 ^ 32 ∧ q.early = [] ∧ flitOp f = 0 ∧ flitAddr f = loc ∧ (flitBytes f).drop 8 = bs ∧ bs ≠ [] ∧
  placeOf loc = .hbm ∧ placeOf (loc + (bs.length - 1)) = .hbm ∧ Open s loc bs.length

/-- A flit takes its place in its pair's queue, marked REPLAYED: behind what this package returns, and before every later flit of the pair (R363). -/
def GoesOutAgain (s t : State) (g : Flit) : Prop :=
  let q := Tbl.getD s.pairs g.dpkg {}
  let age (h : Flit) : Nat := (h.info.toNat % 2 ^ 32 + 2 ^ 32 - q.sendSeq % 2 ^ 32) % 2 ^ 32
  ∀ a b, q.queue = a ++ b → (∀ h ∈ a, h.kind = 3 ∨ age h ≤ age g) → (∀ h, b.head? = some h → h.kind ≠ 3 ∧ age g < age h) →
    Tbl.getD t.pairs g.dpkg {} = { q with queue := a ++ { g with flags := 1 } :: b }

/-- The flit that a switch sees behind one that arrives at its input: one of this package's own is the plain flit of the slot in which it was
sent, if it came as it was sealed. -/
def SeenAt (s : State) (plane port slot : Nat) (f q : Flit) : Prop :=
  port ≠ Config.switchPort plane ∧ q = f ∨
  port = Config.switchPort plane ∧ Tbl.find? (s.port plane).sent slot = some (q, f) ∧ q.kind = f.kind

end Sys2Proof.Claims

/-- R359 to R364, R370, R371: a slot sends the pair's next MEM flit, the words of a SCHED entry whose timetable is open, or an idle flit. A
flit with a wrong tag is counted, and a second failure locks the link; a right SCHED flit's words join its queue, one that the RX table does not
expect is a plan error; a MEM flit performs in its pair's order, is kept when early and dropped when repeated; a request to read is answered,
a frozen port refuses a request with PROT (R344), and a write to a region in REBUILD bounces (R335), in the next MEM slot to its sender; a
bounced flit goes out again before the later flits of its pair; a flit of a reserved type is discarded and counted. The payload of a MEM flit, for
which R363 and R364 give no layout, is the model's (log 30), as is the replay of a SCHED or MEM flit (log 70). -/
def Obligations.FlitsDepartAndArrive : Prop :=
  ∀ (s : State) (p : Nat) (f : Flit),
    let x := s.port p
    let e := (x.tx.getD s.slotNow 0).toNat
    ((x.en = false ∨ x.aligned = false ∨ x.attested = false ∨ s.framePos % 2 = 1) → exec (.slotDeparture p) s = .next s) ∧
    (MaySend s p → bitAt e 0 = false → ∀ r, (Tbl.getD s.pairs (fld e 31 16) {}).queue = f :: r → ∃ t, exec (.slotDeparture p) s = .next t ∧
      Sends s t p f ∧ (Tbl.getD t.pairs (fld e 31 16) {}).queue = r) ∧
    (MaySend s p → bitAt e 0 = false → (Tbl.getD s.pairs (fld e 31 16) {}).queue = [] → ∃ t, exec (.slotDeparture p) s = .next t ∧
      Sends s t p { dpkg := fld e 31 16, spkg := s.pkgnum, kind := 0, flags := 0, pseq := 0, info := 0, payload := 0, tag := 0 }) ∧
    (MaySend s p → bitAt e 0 = true → bitAt e 10 = false → s.openTable (fld e 63 32) = true → s.frameFreeze = 0 → s.boot.frozen = false →
      fld e 3 1 < x.outq.length →
      let ws := (x.outq.getD (fld e 3 1) []).take (Nat.min 32 (fld e 9 4 + 1))
      ∃ t g, exec (.slotDeparture p) s = .next t ∧ Sends s t p g ∧ g.kind = 1 ∧ g.dpkg = fld e 31 16 ∧ g.flags = ws.length ∧
        (∀ i, i < 32 → BitVec.ofNat 64 (g.payload.toNat / 2 ^ (64 * i)) = ws.getD i 0) ∧
        g.info.toNat % 2 ^ 32 = s.framecnt % 2 ^ 32 ∧ fld g.info.toNat 39 32 = s.slotNow % 256 ∧
        (t.port p).outq.getD (fld e 3 1) [] = (x.outq.getD (fld e 3 1) []).drop ws.length) ∧
    (x.attested = true → x.lock = false →
      let slot := s.slotOfArrival
      let cnt := (Tbl.find? x.rxFailed slot).getD x.rxCnt
      Config.gcmTag x.rxKey x.rxSalt cnt (flitHeader f) f.payload ≠ f.tag →
      ∃ t, exec (.schedFlitReceive p f) s = .next t ∧ exec (.memFlitReceive p f) s = .next t ∧ exec (.bounceReceive p f) s = .next t ∧
        (t.port p).lnkerr = Nat.min (x.lnkerr + 1) (2 ^ 32 - 1) ∧ (t.port p).inq = x.inq ∧ t.mem = s.mem ∧
        (t.port p).lock = (Tbl.find? x.rxFailed slot).isSome) ∧
    (∀ u g, s.openFlit p f = (u, some g) →
      let slot := s.slotOfArrival
      let d := (x.rx.getD slot 0).toNat
      let q := Tbl.getD s.pairs g.spkg {}
      (g.kind = 1 → bitAt d 0 = true → fld d 31 16 = g.spkg → s.openTable (fld d 63 32) = true → fld g.info.toNat 39 32 = slot →
        fld d 3 1 < (u.port p).inq.length →
        let ws := (List.range (Nat.min 32 (fld g.flags 5 0))).map (fun i => BitVec.ofNat 64 (g.payload.toNat / 2 ^ (64 * i)))
        let old := (u.port p).inq.getD (fld d 3 1) []
        ∃ t, exec (.schedFlitReceive p f) s = .next t ∧ (t.port p).inq.getD (fld d 3 1) [] = old ++ ws.take (64 - old.length) ∧ t.mem = s.mem) ∧
      (g.kind = 1 → (bitAt d 0 = false ∨ fld d 31 16 ≠ g.spkg) → ∃ t, exec (.schedFlitReceive p f) s = .next t ∧
        (t.port p).planerr = Nat.min ((u.port p).planerr + 1) (2 ^ 32 - 1) ∧ (t.port p).inq = (u.port p).inq) ∧
      (6 ≤ g.kind → ∃ t, exec (.schedFlitReceive p f) s = .next t ∧ exec (.memFlitReceive p f) s = .next t ∧ exec (.bounceReceive p f) s = .next t ∧
        (t.port p).planerr = Nat.min ((u.port p).planerr + 1) (2 ^ 32 - 1) ∧ (t.port p).inq = (u.port p).inq ∧ t.pairs = u.pairs) ∧
      (∀ loc bs, g.kind = 2 → StoresInOrder u g loc bs → (u.port p).frozen = false →
        ∃ t, exec (.memFlitReceive p f) s = .next t ∧ Wrote s t loc bs ∧ (Tbl.getD t.pairs g.spkg {}).recvSeq = q.recvSeq + 1) ∧
      (g.kind = 2 → q.recvSeq % 2 ^ 32 < g.info.toNat % 2 ^ 32 → g.info.toNat % 2 ^ 32 - q.recvSeq % 2 ^ 32 < 2 ^ 31 → u.cannotTake g = false →
        (∀ h ∈ q.early, h.info ≠ g.info) → ∃ t, exec (.memFlitReceive p f) s = .next t ∧ t.mem = s.mem ∧
          Tbl.getD t.pairs g.spkg {} = { q with early := q.early ++ [g] }) ∧
      (g.kind = 2 → g.info.toNat % 2 ^ 32 < q.recvSeq % 2 ^ 32 → q.recvSeq % 2 ^ 32 - g.info.toNat % 2 ^ 32 ≤ 2 ^ 31 → u.cannotTake g = false →
        exec (.memFlitReceive p f) s = .next u) ∧
      (∀ loc n, g.kind = 2 → g.info.toNat % 2 ^ 32 = q.recvSeq % 2 ^ 32 → q.early = [] → flitOp g = 11 → flitAddr g = loc → placeOf loc = .hbm →
        placeOf (loc + (n - 1)) = .hbm → s.isParity loc = false → s.isParity (loc + (n - 1)) = false → ofBytes (((flitBytes g).drop 8).take 1) = n →
        (u.port p).frozen = false → ∃ t h, exec (.memFlitReceive p f) s = .next t ∧ t.mem = s.mem ∧ h.kind = 2 ∧ h.dpkg = g.spkg ∧
          h.payload = memPayload 12 loc ((flitBytes g).take 8 ++ s.rdBytes loc n) ∧
          Tbl.getD t.pairs g.spkg {} = { q with recvSeq := q.recvSeq + 1, sendSeq := q.sendSeq + 1, queue := q.queue ++ [h] }) ∧
      (g.kind = 2 → g.info.toNat % 2 ^ 32 = q.recvSeq % 2 ^ 32 → q.early = [] → u.cannotTake g = false → flitOp g ∈ [0, 11, 13] →
        (u.port p).frozen = true → ∃ t h, exec (.memFlitReceive p f) s = .next t ∧ t.mem = s.mem ∧ h.kind = 2 ∧ h.dpkg = g.spkg ∧
          h.payload = memPayload 3 (flitAddr g) ((flitBytes g).take 8 ++ [9]) ∧ (Tbl.getD t.pairs g.spkg {}).queue = q.queue ++ [h]) ∧
      (g.kind = 2 → flitOp g ∈ [0, 13] → u.inRebuild (flitAddr g) = true → ∃ t, exec (.memFlitReceive p f) s = .next t ∧ t.mem = s.mem ∧
        ∀ a b, q.queue = a ++ b → (∀ h ∈ a, h.kind = 3) → (∀ h, b.head? = some h → h.kind ≠ 3) →
          Tbl.getD t.pairs g.spkg {} = { q with queue := a ++ { g with kind := 3, dpkg := g.spkg, spkg := s.pkgnum } :: b }) ∧
      (g.kind = 3 → ∃ t, exec (.bounceReceive p f) s = .next t ∧ GoesOutAgain s t { g with kind := 2, dpkg := g.spkg, spkg := s.pkgnum }))

/-- R361, R367 to R369, R372, R373: loads asked for with LOAD take effect at the next frame boundary, as new keys and switch tables do; the
switch passes a flit by its plain connections, accepts a contribution in its window and counts a late one; a flit that did not come as it was
sealed is asked for again, and the second failure locks the link; at the deadline the sum of the ranks present, added in rank order, goes to every
output, with the mask of the missing ranks and PARTIAL; a table that breaks its limits is refused; MEM traffic for a package outside the domain
leaves over the transport by the port group and to the endpoint of its PEERTAB entry, and arrives in order, or goes out again where it bounced; a
port that gains alignment in LINKS starts the frames. The payload of a MEM flit is the model's (log 30), and that an output which two inputs would
take in one slot carries the first is its choice (log 117). -/
def Obligations.FramesSwitchesAndScaleOut : Prop :=
  ∀ (s : State) (p : Nat),
    exec (.load p) s = .next (s.setPort p { s.port p with loadReq := true }) ∧
    (s.framePos ≠ 0 → exec .frameBoundary s = .next s) ∧
    (s.framePos = 0 → ∃ t, exec .frameBoundary s = .next t ∧ t.mem = s.mem ∧
      ((s.port p).loadReq = true → (t.port p).loadReq = false ∧
        (t.port p).tx = (List.range 256).map (fun i => BitVec.ofNat 64 (word64 s.mem (s.slotbase + 8192 * p + 8 * i))) ∧
        (t.port p).rx = (List.range 256).map (fun i => BitVec.ofNat 64 (word64 s.mem (s.slotbase + 8192 * p + 4096 + 8 * i)))) ∧
      ((s.port p).loadReq = false → (t.port p).tx = (s.port p).tx ∧ (t.port p).rx = (s.port p).rx) ∧
      (∀ k, (s.port p).newKeys = some k → (t.port p).newKeys = none ∧ (t.port p).lock = false ∧ (t.port p).txCnt = 0 ∧ (t.port p).rxCnt = 0 ∧
        (t.port p).attested = true ∧ (t.port p).reatt = false ∧ (t.port p).replay = [] ∧
        (t.port p).txKey = k.extractLsb' 0 256 ∧ (t.port p).rxKey = k.extractLsb' 288 256) ∧
      (∀ d, d < s.dies.length → (t.die d).plimFrame = (s.die d).plim) ∧
      (∀ w, Tbl.find? s.switches p = some w →
        let due := w.nextTables.filter (fun tb => decide (tb.frame ≤ s.framecnt))
        (∀ tb, due.getLast? = some tb → (Tbl.getD t.switches p {}).table = some tb) ∧ (due = [] → (Tbl.getD t.switches p {}).table = w.table) ∧
        (Tbl.getD t.switches p {}).nextTables = w.nextTables.filter (fun tb => decide (s.framecnt < tb.frame)))) ∧
    (s.boot.stage < 3 → exec (.linkFramingAligned p) s = .next s) ∧
    (3 ≤ s.boot.stage → ∃ t, exec (.linkFramingAligned p) s = .next t ∧ t.port p = { s.port p with aligned := true } ∧ t.frameRun = true ∧
      (s.frameRun = false → t.framecnt = 0 ∧ t.framePos = 0) ∧ (s.frameRun = true → t.framecnt = s.framecnt ∧ t.framePos = s.framePos)) ∧
    (∀ (w : Switch) (tb : SwitchTable), Tbl.getD s.switches p {} = w →
      (w.refuses tb = true → ∃ t, exec (.switchTableLoad p tb) s = .next t ∧ Tbl.getD t.switches p {} = { w with refused := w.refused + 1 }) ∧
      (w.refuses tb = false → ∃ t, exec (.switchTableLoad p tb) s = .next t ∧
        ∀ a b, w.nextTables = a ++ b → (∀ x ∈ a, x.frame ≤ tb.frame) → (∀ x, b.head? = some x → tb.frame < x.frame) →
          Tbl.getD t.switches p {} = { w with nextTables := a ++ tb :: b })) ∧
    (∀ (w : Switch) (tb : SwitchTable) (g : Nat) (r : RedGroup) (port : Nat) (f q : Flit) (e : Int), Tbl.getD s.switches p {} = w →
      w.table = some tb → tb.groups[g]? = some r → f.kind = 4 →
      let slot := fld f.info.toNat 39 32
      let age : Int := e * 256 + (if s.frameFreeze = 0 then (s.slotNow : Int) else -1) - slot
      let rank := r.ranks.findIdx (fun q => q == port)
      tb.groups.findIdx? (fun h => h.slot == slot && h.ranks.contains port) = some g → SeenAt s p port slot f q →
      ((s.framecnt : Int) - fld f.info.toNat 31 0 - e) % 2 ^ 32 = 0 → -(2 ^ 31) ≤ e → e < 2 ^ 31 →
      (0 ≤ age → age < 256 → (∀ a ∈ w.acc, ¬(a.1 = g ∧ a.2.1 = rank)) → ∃ t, exec (.reductionInput p port f) s = .next t ∧
        Tbl.getD t.switches p {} = { w with acc := w.acc ++ [(g, rank, q.payload)] }) ∧
      (256 ≤ age → ∃ t, exec (.reductionInput p port f) s = .next t ∧
        Tbl.getD t.switches p {} = { w with redlate := Tbl.put w.redlate g (Tbl.getD w.redlate g 0 + 1) })) ∧
    (∀ (w : Switch) (tb : SwitchTable) (port o : Nat) (f q : Flit), Tbl.getD s.switches p {} = w → w.table = some tb → f.kind = 1 →
      SeenAt s p port (fld f.info.toNat 39 32) f q → (fld f.info.toNat 39 32, port, o) ∈ tb.plain → (∀ e ∈ w.emitted, e.1 ≠ o) →
      ∃ t, exec (.reductionInput p port f) s = .next t ∧ (o, q) ∈ (Tbl.getD t.switches p {}).emitted) ∧
    (∀ f : Flit, (f.kind = 1 ∨ f.kind = 4) →
      let x := s.port p
      let slot := fld f.info.toNat 39 32
      (∀ q, Tbl.find? x.sent slot ≠ some (q, f)) → x.lock = false →
      (slot ∉ x.replayed → slot ∉ x.replay → exec (.reductionInput p (Config.switchPort p) f) s = .next (s.setPort p { x with replay := slot :: x.replay })) ∧
      (slot ∈ x.replayed → ∃ t, exec (.reductionInput p (Config.switchPort p) f) s = .next t ∧ (t.port p).lock = true ∧ (t.port p).replay = [])) ∧
    (∀ (w : Switch) (tb : SwitchTable) (g : Nat) (r : RedGroup), Tbl.getD s.switches p {} = w → w.table = some tb → tb.groups[g]? = some r →
      let acc := (w.acc.filter (fun a => a.1 == g)).map (fun a => a.2)
      let present := (List.range r.ranks.length).filterMap (fun i => (acc.find? (fun a => a.1 == i)).map (fun a => a.2))
      let width := if r.elem = 1 then 16 else 32
      let fmt := if r.elem = 1 then 7 else 6
      ∃ t, exec (.reductionDeadline p g) s = .next t ∧ (Tbl.getD t.switches p {}).acc = w.acc.filter (fun a => a.1 != g) ∧
        ∀ o ∈ r.outs, (∀ e ∈ w.emitted, e.1 ≠ o) → ∃ q : Flit, (o, q) ∈ (Tbl.getD t.switches p {}).emitted ∧ q.kind = 5 ∧
          (∀ i, i < r.ranks.length → i < 64 → (q.info.getLsbD i = true ↔ ∀ a ∈ acc, a.1 ≠ i)) ∧
          (r.ranks.length ≤ 64 → (q.flags = 1 ∧ q.info ≠ 0 ∨ q.flags = 0 ∧ q.info = 0)) ∧
          (present = [] → q.payload = 0) ∧ (∀ v, present = [v] → q.payload = v) ∧
          (∀ v rest i, present = v :: rest → rest ≠ [] → i < 2048 / width → elem width q.payload i =
            if r.elem = 2 then (present.map (fun u => elem 32 u i)).sum % 2 ^ 32
            else rest.foldl (fun x u => encWide (ltFmt fmt) (roundNum (ltFmt fmt) .rne (Machine.Num.add (decode (ltFmt fmt) x) (decode (ltFmt fmt) (elem width u i))).1))
              (elem width v i))) ∧
    (∀ (peer : Nat) (f h : Flit) (r : List Flit), 3 ≤ s.boot.stage → f.spkg = s.pkgnum → s.upPath peer = false → s.hasPath peer = true →
      (Tbl.getD s.pairs peer {}).queue = h :: r → ∃ t, exec (.scaleoutMem peer f) s = .next t ∧ (Tbl.getD t.pairs peer {}).queue = r ∧ t.mem = s.mem ∧
        t.netOut = some (fld (word64 s.mem (s.peertab + 16 * peer)) 2 1, BitVec.ofNat 64 (word64 s.mem (s.peertab + 16 * peer + 8)), h)) ∧
    (∀ (peer loc : Nat) (f : Flit) (bs : List Byte), 3 ≤ s.boot.stage → f.spkg ≠ s.pkgnum → f.dpkg = s.pkgnum → f.kind = 2 →
      StoresInOrder s f loc bs → ∃ t, exec (.scaleoutMem peer f) s = .next t ∧ Wrote s t loc bs) ∧
    (∀ (peer : Nat) (f : Flit), 3 ≤ s.boot.stage → f.spkg ≠ s.pkgnum → f.dpkg = s.pkgnum → f.kind = 3 → ∃ t, exec (.scaleoutMem peer f) s = .next t ∧
      GoesOutAgain s t { f with kind := 2, dpkg := f.spkg, spkg := s.pkgnum }) ∧
    (∀ (peer : Nat) (f : Flit), s.boot.stage < 3 → exec (.scaleoutMem peer f) s = .next s)

/-! ## The host and the management registers (R6, R353 to R357, R380) -/

namespace Sys2Proof.Claims

/-- An offset of BAR0 in a window that names a location of HBM, on a path that answers (R344, R373). -/
def HostHbm (s : State) (off loc : Nat) (writable : Bool) : Prop :=
  off < 2 ^ 38 ∧ 2 ≤ s.boot.stage ∧ s.host.frozen = false ∧ s.hostWindow off = some (loc, writable) ∧ placeOf loc = .hbm

/-- A host request is next, and its location is in no region in REBUILD: those wait, and what comes behind them (R335). -/
def HostTurn (s : State) (loc : Nat) : Prop := s.host.held = [] ∧ s.inRebuild loc = false

/-- The mailbox after a command has been served. -/
def Served (m m' : Mailbox) (status data : Nat) : Prop :=
  m' = { m with rsp := [BitVec.ofNat 64 status, BitVec.ofNat 64 data, 0, 0, 0, 0, 0, 0], doneseq := m.curseq, busy := false }

end Sys2Proof.Claims

/-- R353, R354, R373: a host write through an open writable window stores its bytes, a read returns them, an AtomicOp exchanges a 64-bit word
and returns the old one; a write to a region in REBUILD waits (R335), and a frozen path drops writes and reads as ones (R344); a closed window
freezes the host path and reads as ones, and before CORES nothing answers. R6, R355, R380: a DOORBELL takes the command as it stands, or is dropped
while one is served; REGRD
returns a register of its block, REGWR writes one, a number that none has gives status 1, and a write follows the fields' access codes. -/
def Obligations.HostAndRegistersAnswer : Prop :=
  ∀ (s : State),
    (∀ (off loc : Nat) (bs : List Byte), HostHbm s off loc true → HostTurn s loc → bs ≠ [] → placeOf (loc + (bs.length - 1)) = .hbm →
      Open s loc bs.length → ∃ t, exec (.hostWrite off bs) s = .next t ∧ Wrote s t loc bs ∧ t.host = s.host) ∧
    (∀ (off loc : Nat) (bs : List Byte), HostHbm s off loc true → ¬HostTurn s loc → bs ≠ [] → placeOf (loc + (bs.length - 1)) = .hbm →
      s.isParity loc = false → s.isParity (loc + (bs.length - 1)) = false → exec (.hostWrite off bs) s = .next { s with host :=
        { s.host with held := s.host.held ++ [{ loc := loc, bytes := bs }] } }) ∧
    (∀ (off n : Nat) (bs : List Byte), s.host.frozen = true → exec (.hostWrite off bs) s = .next s ∧
      exec (.hostRead off n) s = .next { s with host := { s.host with completion := List.replicate n (0xFF : Byte) } }) ∧
    (∀ (off : Nat) (bs : List Byte), off < 2 ^ 38 → s.boot.stage < 2 → exec (.hostWrite off bs) s = .next s) ∧
    (∀ (off n : Nat) (bs : List Byte), off < 2 ^ 38 → 2 ≤ s.boot.stage → s.host.frozen = false → s.hostWindow off = none →
      (∃ t, exec (.hostWrite off bs) s = .next t ∧ t.host.frozen = true) ∧
      (∃ t, exec (.hostRead off n) s = .next t ∧ t.host.frozen = true ∧ t.host.completion = List.replicate n (0xFF : Byte))) ∧
    (∀ (off loc n : Nat) (writable : Bool), HostHbm s off loc writable → ∃ t, exec (.hostRead off n) s = .next t ∧ t.mem = s.mem ∧
      t.host.completion = (List.range n).map (fun i => s.rd (loc + i))) ∧
    (∀ (off n : Nat), off < 2 ^ 38 → s.boot.stage < 2 → ∃ t, exec (.hostRead off n) s = .next t ∧
      t.host.completion = List.replicate n (0xFF : Byte) ∧ t.mem = s.mem) ∧
    (∀ (off loc op : Nat) (a b : U64), HostHbm s off loc true → HostTurn s loc → Open s loc 8 → op < 3 →
      let old := BitVec.ofNat 64 (ofBytes (s.rdBytes loc 8))
      let new := if op = 0 then old + a else if op = 1 then a else if old = a then b else old
      ∃ t, exec (.hostAtomicop off op a b) s = .next t ∧ Wrote s t loc (toBytes 8 new.toNat) ∧ t.host.completion = s.rdBytes loc 8) ∧
    (∀ bs : List Byte, bs.length = 4 → s.host.frozen = false →
      let m := s.mbox
      (m.busy = true → ∃ t, exec (.hostWrite (2 ^ 38) bs) s = .next t ∧ t = { s with mbox := { m with ovr := true } }) ∧
      (m.busy = false → ∃ t a, exec (.hostWrite (2 ^ 38) bs) s = .next t ∧ s.now < a ∧
        t.mbox = { m with busy := true, ovr := false, curseq := ofBytes bs, cmd := m.cmdReg } ∧
        (a, if (m.cmdReg.getD 0 0).toNat % 256 = 2 then Instr.regwr else Instr.regrd) ∈ t.agenda)) ∧
    (let m := s.mbox
     (m.busy = true → m.op ≠ 2 → 2 ≤ s.boot.stage → m.op = 1 → (∀ v, s.regRead m.block m.die m.num = some v →
        ∃ t, exec .regrd s = .next t ∧ Served m t.mbox 0 v) ∧
        (s.regRead m.block m.die m.num = none → ∃ t, exec .regrd s = .next t ∧ Served m t.mbox 1 0)) ∧
     (m.busy = true → m.op ≠ 1 → m.op ≠ 2 → ∃ t, exec .regrd s = .next t ∧ Served m t.mbox 1 0) ∧
     (m.busy = true → m.op = 2 → 2 ≤ s.boot.stage → (s.regRead m.block m.die m.num).isSome = true →
        ∃ t u, exec .regwr s = .next t ∧ exec (.registerWrite m.block m.die m.num (m.cmd.getD 1 0)) s = .next u ∧ Served u.mbox t.mbox 0 0 ∧
          t = { u with mbox := t.mbox }) ∧
     (m.busy = true → m.op = 2 → (s.boot.stage < 2 ∨ s.regRead m.block m.die m.num = none) → ∃ t, exec .regwr s = .next t ∧
        Served m t.mbox 1 0 ∧ t = { s with mbox := t.mbox })) ∧
    (∀ (d n : Nat) (v : U64), d < s.dies.length →
      (∃ t, exec (.registerWrite 1 d 0 v) s = .next t ∧ t.regRead 1 d 0 = some (v.toNat % 2 ^ 52)) ∧
      (∃ t, exec (.registerWrite 1 d 2 v) s = .next t ∧ (t.die d).enable = v.getLsbD 0) ∧
      (∃ t, exec (.registerWrite 2 d 0 v) s = .next t ∧ t.regRead 2 d 0 = some (v.toNat % 2 ^ 52) ∧ t.dies = s.dies) ∧
      (n < groupsOf d → ∃ t, exec (.registerWrite 3 d (7 + n) v) s = .next t ∧ t.regRead 3 d (7 + n) = some (v.toNat % 2 ^ 20)) ∧
      (∃ t, exec (.registerWrite 3 d 6 v) s = .next t ∧ t.regRead 3 d 6 = some ((s.die d).tqlost &&& ((2 ^ 64 - 1) ^^^ v.toNat % 2 ^ 32))) ∧
      (exec (.registerWrite 3 d 2 v) s = .next s) ∧
      (∃ t, exec (.registerWrite 4 d 0 v) s = .next t ∧ t.pkgnum = v.toNat % 2 ^ 12 ∧ t.pkgSet = true) ∧
      (n < 32 → ∃ t, exec (.registerWrite 4 d (4 + n) v) s = .next t ∧ (t.port n).en = v.getLsbD 0 ∧
        (v.getLsbD 1 = true → (t.port n).loadReq = true)) ∧
      (exec (.registerWrite 4 d 1 v) s = .next s) ∧
      (exec (.registerWrite 0 d 0 v) s = .next s))

/-! ## Bring-up, attestation and debug (R346, R373 to R380) -/

/-- R373, R374, R375: cold start enters SAFE with every register at its cold value but the fused rollback counter, and the firmware's check decides
what follows: memory training, which zeroes every memory and derives the identity key pair, core self-test, GO with PKGNUM set, and FULL once every enabled port is attested or locked. FWCOMMIT raises
ROLLBACK in FULL. That HBM and LPDDR-6 stand at zero after MEMORY, as every SRAM does, is the model's choice (log 1). -/
def Sys2Proof.Claims.BringUpGoesStageByStage : Prop :=
  ∀ (s : State) (img : List Byte) (ok : Bool),
    (∃ t, exec (.coldStart img) s = .next t ∧ t.boot.stage = 0 ∧ t.boot.err = fwCheck img s.boot.rollback.toNat ∧
      (t.boot.verified = true ↔ t.boot.err = 0) ∧ t.boot.rollback = s.boot.rollback ∧ t.mem = [] ∧ t.cores = [] ∧ t.launches = [] ∧ t.ctxs = [] ∧
      t.dies = [{}, {}] ∧ t.ports = [] ∧ t.now = 0 ∧ t.pkgSet = false) ∧
    (s.boot.stage = 0 → s.boot.verified = true → exec (.stageMemory true) s = .next { s with mem := [], boot := { s.boot with
      stage := 1, memReady := true
      idKey := some (Config.falconKeygen (Config.shake256 (toBytes 32 Config.deviceSecret.toNat ++ [0x4B, 0x5A, 0x58, 0x2D, 0x49, 0x44]))) } }) ∧
    (s.boot.stage = 0 → s.boot.verified = true → exec (.stageMemory false) s = .next { s with boot := { s.boot with stage := 1, err := 6 } }) ∧
    ((s.boot.stage ≠ 0 ∨ s.boot.verified = false) → exec (.stageMemory ok) s = .next s) ∧
    (s.boot.stage = 1 → s.boot.memReady = true →
      exec (.stageCores ok) s = .next { s with boot := { s.boot with stage := 2, coresReady := ok, err := if ok then s.boot.err else 7 } }) ∧
    ((s.boot.stage ≠ 1 ∨ s.boot.memReady = false) → exec (.stageCores ok) s = .next s) ∧
    (s.boot.stage = 2 → s.boot.coresReady = true → s.pkgSet = true → exec .go s = .next { s with boot := { s.boot with stage := 3 } }) ∧
    ((s.boot.stage < 2 ∨ s.pkgSet = false) → exec .go s = .next { s with boot := { s.boot with err := 8 } }) ∧
    (s.boot.stage = 3 → (∀ q ∈ s.ports, q.2.en = true → q.2.attested = true ∨ q.2.lock = true) →
      exec .stageFull s = .next { s with boot := { s.boot with stage := 4 } }) ∧
    ((s.boot.stage ≠ 3 ∨ ∃ q ∈ s.ports, q.2.en = true ∧ q.2.attested = false ∧ q.2.lock = false) → exec .stageFull s = .next s) ∧
    (s.boot.stage = 4 → exec .fwcommit s = .next { s with boot := { s.boot with rollback := BitVec.ofNat 32 s.boot.version } }) ∧
    (s.boot.stage ≠ 4 → exec .fwcommit s = .next s)

/-- R346, R375 to R379: START asks for a report, which is written at ATTADDR in HBM and sets DONE, or sets ERR; a port's attestation derives
its keys, at the next frame boundary where it had keys or was locked, or locks it; a debug freeze stops the clocks until RESUME, which stops
timetabled cores with TIMING 9; the debug port answers IDCODE
always, reads state only when unlocked and frozen, and a failed unlock changes the nonce. The layouts of a report and of a readout's selector are the
model's (logs 33, 34, 106), and so is that the clocks stop in the very next cycle, of the 3 that R346 allows (log 116). -/
def Sys2Proof.Claims.AttestationAndDebugAct : Prop :=
  ∀ (s : State) (p : Nat),
    (s.boot.attBusy = true → exec .start s = .next { s with boot := { s.boot with attOvr := true } }) ∧
    (s.boot.attBusy = false → ∃ t a, exec .start s = .next t ∧ t.boot = { s.boot with attBusy := true } ∧ (a, Instr.attestationReport) ∈ t.agenda ∧ s.now < a) ∧
    (s.boot.attBusy = true → placeOf s.boot.attaddr = .hbm → placeOf (s.boot.attaddr + 2047) = .hbm → Open s s.boot.attaddr 2048 →
      ∃ t, exec .attestationReport s = .next t ∧
      Wrote s t s.boot.attaddr s.reportBytes ∧ t.boot = { s.boot with attBusy := false, attDone := true }) ∧
    (s.boot.attBusy = true → (placeOf s.boot.attaddr ≠ .hbm ∨ s.isParity s.boot.attaddr = true) →
      exec .attestationReport s = .next { s with boot := { s.boot with attBusy := false, attErr := true } }) ∧
    exec (.reatt p) s = .next (s.setPort p { s.port p with reatt := true }) ∧
    (∀ (ok : Bool) (peer : List Byte) (secret : BitVec 256) (nonces : BitVec 512), 3 ≤ s.boot.stage → (s.port p).en = true → (s.port p).aligned = true →
      let x : Port := { s.port p with ident := s.identity nonces }
      let k := Config.shakeKeys secret nonces
      let good : Prop := ok = true ∧ Config.identityOk peer nonces = true
      let first : Prop := x.attested = false ∧ x.lock = false
      (good → first → exec (.portAttestation p ⟨ok, peer⟩ secret nonces) s = .next (s.setPort p { x with
        attested := true, txKey := k.extractLsb' 0 256, txSalt := k.extractLsb' 256 32, rxKey := k.extractLsb' 288 256,
        rxSalt := k.extractLsb' 544 32, txCnt := 0, rxCnt := 0 })) ∧
      (good → ¬first → x.reatt = true → exec (.portAttestation p ⟨ok, peer⟩ secret nonces) s = .next (s.setPort p { x with newKeys := some k })) ∧
      (¬good → (first ∨ x.reatt = true) → ∃ t, exec (.portAttestation p ⟨ok, peer⟩ secret nonces) s = .next t ∧
        t.port p = { x with lock := true, reatt := false, newKeys := none }) ∧
      (¬first → x.reatt = false → exec (.portAttestation p ⟨ok, peer⟩ secret nonces) s = .next s)) ∧
    exec .freeze s = .next (s.at_ (s.now + 1) .debugFreeze) ∧
    (s.boot.unlocked = true → exec .viewfinderFreeze s = .next (s.at_ (s.now + 1) .debugFreeze)) ∧
    (s.boot.unlocked = false → exec .viewfinderFreeze s = .next s) ∧
    exec .debugFreeze s = .next { s with boot := { s.boot with frozen := true, frzKey := s.fresh }, fresh := s.fresh + 1 } ∧
    (s.boot.frozen = false → exec .resume s = .next s) ∧
    (s.boot.frozen = true → ∃ t, exec .resume s = .next t ∧ t.boot = { s.boot with frozen := false } ∧ t.mem = s.mem ∧
      (∀ c ∈ s.fabricCores, (t.core c).timingSub = 9) ∧ (∀ c, c ∉ s.fabricCores → t.core c = s.core c)) ∧
    exec .idcode s = .next { s with boot := { s.boot with vfOut := toBytes 4 Config.idcode.toNat } } ∧
    (∀ sig : List Byte,
      let good := Config.falconVerifyHash Config.dbgKeyHash (toBytes 8 Config.serial.toNat ++ toBytes 8 s.boot.dbgnonce.toNat) sig
      exec (.viewfinderUnlock sig) s = .next { s with boot :=
        if good then { s.boot with unlocked := true }
        else { s.boot with nonceIdx := s.boot.nonceIdx + 1, dbgnonce := Config.dbgNonce (s.boot.nonceIdx + 1) } }) ∧
    (∀ sel off n, ∃ t, exec (.viewfinderRead sel off n) s = .next t ∧ t.mem = s.mem ∧ t.cores = s.cores ∧
      (bitAt sel 30 = true → n ≤ 8 → t.boot.vfOut = (toBytes 8 (s.boot.stage + s.boot.err * 256)).take n) ∧
      (bitAt sel 30 = false → s.boot.unlocked = false → t.boot.vfOut = []) ∧
      (bitAt sel 30 = false → s.boot.unlocked = true → s.boot.frozen = false → t.boot.vfOut = List.replicate n (0xFF : Byte)) ∧
      (bitAt sel 30 = false → bitAt sel 31 = false → s.boot.unlocked = true → s.boot.frozen = true → n = 8 → off < 512 → off % 8 = 0 →
        (s.core (sel % 2 ^ 12)).g.length = 64 →
        t.boot.vfOut = toBytes 8 ((s.core (sel % 2 ^ 12)).g.getD (off / 8) 0).toNat))

/-- R346, R373 to R379: bring-up, attestation and debug. -/
def Obligations.BringUpAttestationAndDebugAct : Prop := Sys2Proof.Claims.BringUpGoesStageByStage ∧ Sys2Proof.Claims.AttestationAndDebugAct


/-! ## The machine as a whole (R6, R48, R90 to R117, R352, R371, R380) -/

/-- R6, R48, R49, R267, R301, R352, R373: at reset memory lists nothing and is in its canonical form; every core runs no task and holds the
cold values: zero, but all ones in q, format 0x71 in fm, 8 in every field of lgl, 0x7F80 in every scale entry, ready tags set, VMASK at
all lanes; contexts are not valid, dispatchers, ports and bring-up stand at their cold values. That a core which no task is bound to yet holds
these values, and that no core is fused off, is the model's choice (logs 1, 2, 8, 89). -/
def Obligations.ResetHoldsTheColdValues : Prop :=
  let s := State.reset
  s.now = 0 ∧ s.mem = [] ∧ Memory.wf s.mem = true ∧ s.agenda = [] ∧ s.launches = [] ∧
  (∀ c, (s.core c).status = .idle ∧ (s.core c).g = List.replicate 64 0 ∧ (s.core c).p = 0 ∧ (s.core c).v = List.replicate 32 0 ∧
    (s.core c).q = List.replicate 8 (-1) ∧ (s.core c).fm = List.replicate 16 0x71 ∧ (s.core c).lgl = 0x88888888 ∧
    (s.core c).cf = List.replicate 32 0 ∧ (s.core c).ss = List.replicate 16 0 ∧ (s.core c).sop = List.replicate 13 0 ∧
    (s.core c).vop = List.replicate 5 0 ∧ (s.core c).sres = List.replicate 12 0 ∧ (s.core c).vres = List.replicate 5 0 ∧
    (s.core c).vmsel = 8 ∧ (s.core c).rstack = [] ∧ (s.core c).recs = List.replicate 14 none ∧ (s.core c).drec = 0 ∧
    (s.core c).rbq = [] ∧ (s.core c).blocks = [] ∧ (s.core c).eng = [] ∧
    (∀ n, n < 16 → ((s.core c).t.getD n {}).rows = List.replicate 32 0 ∧ ((s.core c).t.getD n {}).ptr = 0 ∧ ((s.core c).t.getD n {}).ready = true ∧
      (s.core c).b.getD n {} = { val := 0, stp := 0, ls := List.replicate 8 0, wrap := 0, org := 0 }) ∧
    (∀ n j, n < 32 → j < 64 → ((s.core c).k.getD n 0).toNat / 2 ^ (16 * j) % 2 ^ 16 = 0x7F80) ∧
    (∀ l ∈ (s.core c).loops, l.active = false)) ∧
  (∀ x, (s.ctx x).valid = false ∧ (s.ctx x).priv = false ∧ (s.ctx x).ev = 0 ∧ (s.ctx x).tokens = 0) ∧
  (∀ d, d < 2 → (s.die d).enable = false ∧ (s.die d).trapqn = 0 ∧ s.regRead 3 d 7 = some 23040 ∧ s.regRead 3 d (7 + groupsOf d) = some 28160) ∧
  (∀ p, (s.port p).en = false ∧ (s.port p).lock = false ∧ (s.port p).attested = false) ∧
  s.boot.stage = 0 ∧ s.boot.frozen = false ∧ s.boot.unlocked = false ∧ s.pkgnum = 0 ∧ s.pkgSet = false ∧ s.framecnt = 0

/-- R92 to R101: words written out from the encodings, and the instructions that they stand for, on each bus and in each slot. -/
def Obligations.WordsDecodeToTheirInstructions : Prop :=
  decodeM 0x8130909F = .ok (.seti 0x102 4 31) ∧ decodeM 0x313003DF = .ok (.clz 0x062 0 0 31) ∧ decodeM 0x2C31199F = .ok (.ld64 0x058 0 6 31) ∧
  decodeM 0x2C30C4DF = .ok (.yieldp 0x058 31) ∧ decodeM 0x01B3095F = .ok (.strel 0x003 2 2 31) ∧ decodeM 0x2C3341DF = .ok (.svfence 0x058 31) ∧
  decodeM 0x2CB3801F = .ok (.cpy2d 0x059 31) ∧ decodeM 0x00000000 = .ok (.move false 0 0 0) ∧
  decodeW 0x01B0019F = .ok (.vadd 0x003 6 31) ∧ decodeW 0x02B0485F = .ok (.xdq 0x005 1 31) ∧ decodeW 0x22B0889F = .ok (.mma 0x045 2 31) ∧
  decodeSync 0x1030281F = .ok (.waitf 3 2 31) ∧ decodeSync 0x5C80081F = .ok (.sete 200 31) ∧
  decodeK 0x1218001F = .ok (.ldk1 4 3 0 31) ∧ decodeK 0x3218081F = .ok (.stk 4 3 32 31) ∧
  decodeM 0x00000018 = .error .bundle ∧ decodeM 0x36000000 = .error .latch ∧ decodeM 0x00000040 = .error .op ∧
  decodeBundle [0x00, 0x05, 0x08, 0x00, 0x03, 0x28, 0x30, 0x10, 0x9F, 0x40, 0xB0, 0x01] =
    .ok { stop := false, rep := 0, stall := 2, slots := [{ pos := 12, i := .waitf 3 2 3 }, { pos := 8, i := .xq 0x003 2 31 }], limm := 0, len := 12 }

/-- R90 to R101, R116: decoding the word of a well-formed instruction gives it back, alone and as the one slot of a bundle; and a word that
decodes is the word of the well-formed instruction that it decodes to, so that no two words of a slot mean the same. -/
def Obligations.DecodeOfEncodeIsTheInstruction : Prop :=
  (∀ i : Instr, i.wf = true → i.kind ≠ .event →
    encode i < 2 ^ 32 ∧ decodeSlot i.kind (encode i) = some i ∧ decodeBundle (oneSlotBytes i) = .ok (oneSlot i)) ∧
  (∀ (kind : SlotKind) (w : Nat) (i : Instr), w < 2 ^ 32 → decodeSlot kind w = some i → i.wf = true ∧ i.kind = kind ∧ encode i = w)

/-- A step is the next due event; else, in this order, the end of a cycle in a debug freeze, the settling of the gangs' delays, and the turn
of the next core that runs and has had none: its held slots, then its bundle; with no core left, the end of the cycle. When the bundle is
one well-formed instruction, and nothing stands before its issue, the step is `exec` of that instruction after the fetch. The order of the steps within one cycle is the
model's (log 7); so is the load of the first program from outside (log 40). -/
def Obligations.StepRunsTheDecodedInstruction : Prop :=
  ∀ s : State,
    (∀ e r, s.agenda = e :: r → e.1 ≤ s.now → step s = exec e.2 { s with agenda := r }) ∧
    ((∀ e r, s.agenda = e :: r → s.now < e.1) →
      (s.boot.frozen = true → step s = .next s.cycleEnd) ∧
      (s.boot.frozen = false → s.sensed = false → step s = .next s.sense) ∧
      (s.boot.frozen = false → s.sensed = true → s.nextCore = none → step s = .next s.cycleEnd) ∧
      (∀ c, s.boot.frozen = false → s.sensed = true → s.nextCore = some c →
        ((s.core c).held ≠ [] → (s.core c).heldTried = false → step s = exec (.heldSlotIssue c) s) ∧
        ((s.core c).held = [] ∨ (s.core c).heldTried = true →
          step s = exec (.bundleIssue c) s ∧
          (∀ u i, (s.core c).status = .run → ((s.core c).tagged = true ∨ (s.launch (s.core c).launch).delayed = false) →
            ({ s with cur := c } : State).gate c = none → ({ s with cur := c } : State).fetchBundle c = (u, .ok (oneSlot i)) → i.wf = true →
            i.kind ≠ .event → ((s.core c).tagged = true ∨ (s.launch (s.core c).launch).stopping = false) → (u.core c).timingSub = 0 → (u.core c).idles (oneSlot i) = 0 →
            ((u.core c).held = [] ∨ linkStop c (oneSlot i).slots = none) → step s = exec i u))))

/-- No step is refused; every event's meaning answers a next state, and so does a step whose due event is no slot instruction. -/
def Obligations.EveryStepGoesOn : Prop :=
  ∀ s : State, (∀ r, step s ≠ .refused r) ∧ (∀ i : Instr, i.kind = .event → ∃ t, exec i s = .next t) ∧
    ((∀ e r, s.agenda = e :: r → e.1 ≤ s.now → e.2.kind = .event) → s.GoesOn)

/-- The memory's canonical form, with addresses strictly rising and no zero byte listed, is kept by every step. That
an unlisted byte reads 0 is the model's choice (log 1). -/
def Obligations.EveryStepKeepsMemoryCanonical : Prop :=
  ∀ s t : State, Memory.wf s.mem = true → step s = .next t → Memory.wf t.mem = true
end

