-- ==== Sys2Proof/Laws/Core.lean ====
section
/-! SUPPORT. What each update of a core leaves as it was: one lemma for each field of a core and each update. -/

set_option linter.unusedVariables false

namespace Sys2Proof.Machine


@[simp] theorem core_later_status (k : Core) (lat : Nat) (re : Bool) (e : Eff) : (k.later lat re e).status = k.status := rfl
@[simp] theorem core_later_launch (k : Core) (lat : Nat) (re : Bool) (e : Eff) : (k.later lat re e).launch = k.launch := rfl
@[simp] theorem core_later_tid (k : Core) (lat : Nat) (re : Bool) (e : Eff) : (k.later lat re e).tid = k.tid := rfl
@[simp] theorem core_later_tcx (k : Core) (lat : Nat) (re : Bool) (e : Eff) : (k.later lat re e).tcx = k.tcx := rfl
@[simp] theorem core_later_ctx (k : Core) (lat : Nat) (re : Bool) (e : Eff) : (k.later lat re e).ctx = k.ctx := rfl
@[simp] theorem core_later_tagged (k : Core) (lat : Nat) (re : Bool) (e : Eff) : (k.later lat re e).tagged = k.tagged := rfl
@[simp] theorem core_later_pc (k : Core) (lat : Nat) (re : Bool) (e : Eff) : (k.later lat re e).pc = k.pc := rfl
@[simp] theorem core_later_cb (k : Core) (lat : Nat) (re : Bool) (e : Eff) : (k.later lat re e).cb = k.cb := rfl
@[simp] theorem core_later_lcyc (k : Core) (lat : Nat) (re : Bool) (e : Eff) : (k.later lat re e).lcyc = k.lcyc := rfl
@[simp] theorem core_later_clk (k : Core) (lat : Nat) (re : Bool) (e : Eff) : (k.later lat re e).clk = k.clk := rfl
@[simp] theorem core_later_phase (k : Core) (lat : Nat) (re : Bool) (e : Eff) : (k.later lat re e).phase = k.phase := rfl
@[simp] theorem core_later_g (k : Core) (lat : Nat) (re : Bool) (e : Eff) : (k.later lat re e).g = k.g := rfl
@[simp] theorem core_later_p (k : Core) (lat : Nat) (re : Bool) (e : Eff) : (k.later lat re e).p = k.p := rfl
@[simp] theorem core_later_v (k : Core) (lat : Nat) (re : Bool) (e : Eff) : (k.later lat re e).v = k.v := rfl
@[simp] theorem core_later_q (k : Core) (lat : Nat) (re : Bool) (e : Eff) : (k.later lat re e).q = k.q := rfl
@[simp] theorem core_later_t (k : Core) (lat : Nat) (re : Bool) (e : Eff) : (k.later lat re e).t = k.t := rfl
@[simp] theorem core_later_k (k : Core) (lat : Nat) (re : Bool) (e : Eff) : (k.later lat re e).k = k.k := rfl
@[simp] theorem core_later_b (k : Core) (lat : Nat) (re : Bool) (e : Eff) : (k.later lat re e).b = k.b := rfl
@[simp] theorem core_later_fm (k : Core) (lat : Nat) (re : Bool) (e : Eff) : (k.later lat re e).fm = k.fm := rfl
@[simp] theorem core_later_lgl (k : Core) (lat : Nat) (re : Bool) (e : Eff) : (k.later lat re e).lgl = k.lgl := rfl
@[simp] theorem core_later_cf (k : Core) (lat : Nat) (re : Bool) (e : Eff) : (k.later lat re e).cf = k.cf := rfl
@[simp] theorem core_later_cfo (k : Core) (lat : Nat) (re : Bool) (e : Eff) : (k.later lat re e).cfo = k.cfo := rfl
@[simp] theorem core_later_ss (k : Core) (lat : Nat) (re : Bool) (e : Eff) : (k.later lat re e).ss = k.ss := rfl
@[simp] theorem core_later_sres (k : Core) (lat : Nat) (re : Bool) (e : Eff) : (k.later lat re e).sres = k.sres := rfl
@[simp] theorem core_later_vres (k : Core) (lat : Nat) (re : Bool) (e : Eff) : (k.later lat re e).vres = k.vres := rfl
@[simp] theorem core_later_sop (k : Core) (lat : Nat) (re : Bool) (e : Eff) : (k.later lat re e).sop = k.sop := rfl
@[simp] theorem core_later_vop (k : Core) (lat : Nat) (re : Bool) (e : Eff) : (k.later lat re e).vop = k.vop := rfl
@[simp] theorem core_later_stL (k : Core) (lat : Nat) (re : Bool) (e : Eff) : (k.later lat re e).stL = k.stL := rfl
@[simp] theorem core_later_stX (k : Core) (lat : Nat) (re : Bool) (e : Eff) : (k.later lat re e).stX = k.stX := rfl
@[simp] theorem core_later_stM (k : Core) (lat : Nat) (re : Bool) (e : Eff) : (k.later lat re e).stM = k.stM := rfl
@[simp] theorem core_later_vmsel (k : Core) (lat : Nat) (re : Bool) (e : Eff) : (k.later lat re e).vmsel = k.vmsel := rfl
@[simp] theorem core_later_rstack (k : Core) (lat : Nat) (re : Bool) (e : Eff) : (k.later lat re e).rstack = k.rstack := rfl
@[simp] theorem core_later_loops (k : Core) (lat : Nat) (re : Bool) (e : Eff) : (k.later lat re e).loops = k.loops := rfl
@[simp] theorem core_later_inv (k : Core) (lat : Nat) (re : Bool) (e : Eff) : (k.later lat re e).inv = k.inv := rfl
@[simp] theorem core_later_arith (k : Core) (lat : Nat) (re : Bool) (e : Eff) : (k.later lat re e).arith = k.arith := rfl
@[simp] theorem core_later_recs (k : Core) (lat : Nat) (re : Bool) (e : Eff) : (k.later lat re e).recs = k.recs := rfl
@[simp] theorem core_later_rng (k : Core) (lat : Nat) (re : Bool) (e : Eff) : (k.later lat re e).rng = k.rng := rfl
@[simp] theorem core_later_rbq (k : Core) (lat : Nat) (re : Bool) (e : Eff) : (k.later lat re e).rbq = k.rbq := rfl
@[simp] theorem core_later_arow (k : Core) (lat : Nat) (re : Bool) (e : Eff) : (k.later lat re e).arow = k.arow := rfl
@[simp] theorem core_later_aptr (k : Core) (lat : Nat) (re : Bool) (e : Eff) : (k.later lat re e).aptr = k.aptr := rfl
@[simp] theorem core_later_drec (k : Core) (lat : Nat) (re : Bool) (e : Eff) : (k.later lat re e).drec = k.drec := rfl
@[simp] theorem core_later_seq (k : Core) (lat : Nat) (re : Bool) (e : Eff) : (k.later lat re e).seq = k.seq := rfl
@[simp] theorem core_later_rep (k : Core) (lat : Nat) (re : Bool) (e : Eff) : (k.later lat re e).rep = k.rep := rfl
@[simp] theorem core_later_stall (k : Core) (lat : Nat) (re : Bool) (e : Eff) : (k.later lat re e).stall = k.stall := rfl
@[simp] theorem core_later_restarted (k : Core) (lat : Nat) (re : Bool) (e : Eff) : (k.later lat re e).restarted = k.restarted := rfl
@[simp] theorem core_later_xfer (k : Core) (lat : Nat) (re : Bool) (e : Eff) : (k.later lat re e).xfer = k.xfer := rfl
@[simp] theorem core_later_bundles (k : Core) (lat : Nat) (re : Bool) (e : Eff) : (k.later lat re e).bundles = k.bundles := rfl
@[simp] theorem core_later_met (k : Core) (lat : Nat) (re : Bool) (e : Eff) : (k.later lat re e).met = k.met := rfl
@[simp] theorem core_later_hold (k : Core) (lat : Nat) (re : Bool) (e : Eff) : (k.later lat re e).hold = k.hold := rfl
@[simp] theorem core_later_drainTo (k : Core) (lat : Nat) (re : Bool) (e : Eff) : (k.later lat re e).drainTo = k.drainTo := rfl
@[simp] theorem core_later_yieldFlag (k : Core) (lat : Nat) (re : Bool) (e : Eff) : (k.later lat re e).yieldFlag = k.yieldFlag := rfl
@[simp] theorem core_later_held (k : Core) (lat : Nat) (re : Bool) (e : Eff) : (k.later lat re e).held = k.held := rfl
@[simp] theorem core_later_heldTried (k : Core) (lat : Nat) (re : Bool) (e : Eff) : (k.later lat re e).heldTried = k.heldTried := rfl
@[simp] theorem core_later_softTick (k : Core) (lat : Nat) (re : Bool) (e : Eff) : (k.later lat re e).softTick = k.softTick := rfl
@[simp] theorem core_later_mops (k : Core) (lat : Nat) (re : Bool) (e : Eff) : (k.later lat re e).mops = k.mops := rfl
@[simp] theorem core_later_sops (k : Core) (lat : Nat) (re : Bool) (e : Eff) : (k.later lat re e).sops = k.sops := rfl
@[simp] theorem core_later_mma (k : Core) (lat : Nat) (re : Bool) (e : Eff) : (k.later lat re e).mma = k.mma := rfl
@[simp] theorem core_later_mmaq (k : Core) (lat : Nat) (re : Bool) (e : Eff) : (k.later lat re e).mmaq = k.mmaq := rfl
@[simp] theorem core_later_wld (k : Core) (lat : Nat) (re : Bool) (e : Eff) : (k.later lat re e).wld = k.wld := rfl
@[simp] theorem core_later_blocks (k : Core) (lat : Nat) (re : Bool) (e : Eff) : (k.later lat re e).blocks = k.blocks := rfl
@[simp] theorem core_later_cmds (k : Core) (lat : Nat) (re : Bool) (e : Eff) : (k.later lat re e).cmds = k.cmds := rfl
@[simp] theorem core_later_eng (k : Core) (lat : Nat) (re : Bool) (e : Eff) : (k.later lat re e).eng = k.eng := rfl
@[simp] theorem core_later_engFrozen (k : Core) (lat : Nat) (re : Bool) (e : Eff) : (k.later lat re e).engFrozen = k.engFrozen := rfl
@[simp] theorem core_later_ecyc (k : Core) (lat : Nat) (re : Bool) (e : Eff) : (k.later lat re e).ecyc = k.ecyc := rfl
@[simp] theorem core_later_mTrig (k : Core) (lat : Nat) (re : Bool) (e : Eff) : (k.later lat re e).mTrig = k.mTrig := rfl
@[simp] theorem core_later_l1 (k : Core) (lat : Nat) (re : Bool) (e : Eff) : (k.later lat re e).l1 = k.l1 := rfl
@[simp] theorem core_later_l1Mark (k : Core) (lat : Nat) (re : Bool) (e : Eff) : (k.later lat re e).l1Mark = k.l1Mark := rfl
@[simp] theorem core_later_rdcMark (k : Core) (lat : Nat) (re : Bool) (e : Eff) : (k.later lat re e).rdcMark = k.rdcMark := rfl
@[simp] theorem core_later_fills (k : Core) (lat : Nat) (re : Bool) (e : Eff) : (k.later lat re e).fills = k.fills := rfl
@[simp] theorem core_later_tlb (k : Core) (lat : Nat) (re : Bool) (e : Eff) : (k.later lat re e).tlb = k.tlb := rfl
@[simp] theorem core_later_logL (k : Core) (lat : Nat) (re : Bool) (e : Eff) : (k.later lat re e).logL = k.logL := rfl
@[simp] theorem core_later_logA (k : Core) (lat : Nat) (re : Bool) (e : Eff) : (k.later lat re e).logA = k.logA := rfl
@[simp] theorem core_later_logOrd (k : Core) (lat : Nat) (re : Bool) (e : Eff) : (k.later lat re e).logOrd = k.logOrd := rfl
@[simp] theorem core_later_window (k : Core) (lat : Nat) (re : Bool) (e : Eff) : (k.later lat re e).window = k.window := rfl
@[simp] theorem core_later_weight (k : Core) (lat : Nat) (re : Bool) (e : Eff) : (k.later lat re e).weight = k.weight := rfl
@[simp] theorem core_later_freezeNext (k : Core) (lat : Nat) (re : Bool) (e : Eff) : (k.later lat re e).freezeNext = k.freezeNext := rfl
@[simp] theorem core_later_frz (k : Core) (lat : Nat) (re : Bool) (e : Eff) : (k.later lat re e).frz = k.frz := rfl
@[simp] theorem core_later_found (k : Core) (lat : Nat) (re : Bool) (e : Eff) : (k.later lat re e).found = k.found := rfl
@[simp] theorem core_later_poll (k : Core) (lat : Nat) (re : Bool) (e : Eff) : (k.later lat re e).poll = k.poll := rfl
@[simp] theorem core_later_crossed (k : Core) (lat : Nat) (re : Bool) (e : Eff) : (k.later lat re e).crossed = k.crossed := rfl
@[simp] theorem core_later_mac (k : Core) (lat : Nat) (re : Bool) (e : Eff) : (k.later lat re e).mac = k.mac := rfl
@[simp] theorem core_later_imageKey (k : Core) (lat : Nat) (re : Bool) (e : Eff) : (k.later lat re e).imageKey = k.imageKey := rfl
@[simp] theorem core_later_frzcnt (k : Core) (lat : Nat) (re : Bool) (e : Eff) : (k.later lat re e).frzcnt = k.frzcnt := rfl
@[simp] theorem core_later_throttled (k : Core) (lat : Nat) (re : Bool) (e : Eff) : (k.later lat re e).throttled = k.throttled := rfl
@[simp] theorem core_later_timingSub (k : Core) (lat : Nat) (re : Bool) (e : Eff) : (k.later lat re e).timingSub = k.timingSub := rfl
@[simp] theorem core_later_turn (k : Core) (lat : Nat) (re : Bool) (e : Eff) : (k.later lat re e).turn = k.turn := rfl
@[simp] theorem core_later_barrier (k : Core) (lat : Nat) (re : Bool) (e : Eff) : (k.later lat re e).barrier = k.barrier := rfl
@[simp] theorem core_later_cmdWait (k : Core) (lat : Nat) (re : Bool) (e : Eff) : (k.later lat re e).cmdWait = k.cmdWait := rfl
@[simp] theorem core_later_trapWait (k : Core) (lat : Nat) (re : Bool) (e : Eff) : (k.later lat re e).trapWait = k.trapWait := rfl
@[simp] theorem core_later_trapWs (k : Core) (lat : Nat) (re : Bool) (e : Eff) : (k.later lat re e).trapWs = k.trapWs := rfl
@[simp] theorem core_later_relBy (k : Core) (lat : Nat) (re : Bool) (e : Eff) : (k.later lat re e).relBy = k.relBy := rfl
@[simp] theorem core_later_freezeReq (k : Core) (lat : Nat) (re : Bool) (e : Eff) : (k.later lat re e).freezeReq = k.freezeReq := rfl
@[simp] theorem core_later_relScope (k : Core) (lat : Nat) (re : Bool) (e : Eff) : (k.later lat re e).relScope = k.relScope := rfl
@[simp] theorem core_later_relSurv (k : Core) (lat : Nat) (re : Bool) (e : Eff) : (k.later lat re e).relSurv = k.relSurv := rfl
@[simp] theorem core_later_haltEnd (k : Core) (lat : Nat) (re : Bool) (e : Eff) : (k.later lat re e).haltEnd = k.haltEnd := rfl
@[simp] theorem core_later_endMark (k : Core) (lat : Nat) (re : Bool) (e : Eff) : (k.later lat re e).endMark = k.endMark := rfl
@[simp] theorem core_later_stale (k : Core) (lat : Nat) (re : Bool) (e : Eff) : (k.later lat re e).stale = k.stale := rfl
@[simp] theorem core_later_hist (k : Core) (lat : Nat) (re : Bool) (e : Eff) : (k.later lat re e).hist = k.hist := rfl
@[simp] theorem core_later_seen (k : Core) (lat : Nat) (re : Bool) (e : Eff) : (k.later lat re e).seen = k.seen := rfl
@[simp] theorem core_later_foreign (k : Core) (lat : Nat) (re : Bool) (e : Eff) : (k.later lat re e).foreign = k.foreign := rfl
@[simp] theorem core_later_engW (k : Core) (lat : Nat) (re : Bool) (e : Eff) : (k.later lat re e).engW = k.engW := rfl
@[simp] theorem core_later_raceW (k : Core) (lat : Nat) (re : Bool) (e : Eff) : (k.later lat re e).raceW = k.raceW := rfl
@[simp] theorem core_later_icache (k : Core) (lat : Nat) (re : Bool) (e : Eff) : (k.later lat re e).icache = k.icache := rfl
@[simp] theorem core_later_sysw (k : Core) (lat : Nat) (re : Bool) (e : Eff) : (k.later lat re e).sysw = k.sysw := rfl

@[simp] theorem core_flag_status (k : Core) (inv ari : Bool) (slot pc : Nat) : (k.flag inv ari slot pc).status = k.status := by unfold Core.flag; split <;> rfl
@[simp] theorem core_flag_launch (k : Core) (inv ari : Bool) (slot pc : Nat) : (k.flag inv ari slot pc).launch = k.launch := by unfold Core.flag; split <;> rfl
@[simp] theorem core_flag_tid (k : Core) (inv ari : Bool) (slot pc : Nat) : (k.flag inv ari slot pc).tid = k.tid := by unfold Core.flag; split <;> rfl
@[simp] theorem core_flag_tcx (k : Core) (inv ari : Bool) (slot pc : Nat) : (k.flag inv ari slot pc).tcx = k.tcx := by unfold Core.flag; split <;> rfl
@[simp] theorem core_flag_ctx (k : Core) (inv ari : Bool) (slot pc : Nat) : (k.flag inv ari slot pc).ctx = k.ctx := by unfold Core.flag; split <;> rfl
@[simp] theorem core_flag_tagged (k : Core) (inv ari : Bool) (slot pc : Nat) : (k.flag inv ari slot pc).tagged = k.tagged := by unfold Core.flag; split <;> rfl
@[simp] theorem core_flag_pc (k : Core) (inv ari : Bool) (slot pc : Nat) : (k.flag inv ari slot pc).pc = k.pc := by unfold Core.flag; split <;> rfl
@[simp] theorem core_flag_cb (k : Core) (inv ari : Bool) (slot pc : Nat) : (k.flag inv ari slot pc).cb = k.cb := by unfold Core.flag; split <;> rfl
@[simp] theorem core_flag_lcyc (k : Core) (inv ari : Bool) (slot pc : Nat) : (k.flag inv ari slot pc).lcyc = k.lcyc := by unfold Core.flag; split <;> rfl
@[simp] theorem core_flag_clk (k : Core) (inv ari : Bool) (slot pc : Nat) : (k.flag inv ari slot pc).clk = k.clk := by unfold Core.flag; split <;> rfl
@[simp] theorem core_flag_phase (k : Core) (inv ari : Bool) (slot pc : Nat) : (k.flag inv ari slot pc).phase = k.phase := by unfold Core.flag; split <;> rfl
@[simp] theorem core_flag_g (k : Core) (inv ari : Bool) (slot pc : Nat) : (k.flag inv ari slot pc).g = k.g := by unfold Core.flag; split <;> rfl
@[simp] theorem core_flag_p (k : Core) (inv ari : Bool) (slot pc : Nat) : (k.flag inv ari slot pc).p = k.p := by unfold Core.flag; split <;> rfl
@[simp] theorem core_flag_v (k : Core) (inv ari : Bool) (slot pc : Nat) : (k.flag inv ari slot pc).v = k.v := by unfold Core.flag; split <;> rfl
@[simp] theorem core_flag_q (k : Core) (inv ari : Bool) (slot pc : Nat) : (k.flag inv ari slot pc).q = k.q := by unfold Core.flag; split <;> rfl
@[simp] theorem core_flag_t (k : Core) (inv ari : Bool) (slot pc : Nat) : (k.flag inv ari slot pc).t = k.t := by unfold Core.flag; split <;> rfl
@[simp] theorem core_flag_k (k : Core) (inv ari : Bool) (slot pc : Nat) : (k.flag inv ari slot pc).k = k.k := by unfold Core.flag; split <;> rfl
@[simp] theorem core_flag_b (k : Core) (inv ari : Bool) (slot pc : Nat) : (k.flag inv ari slot pc).b = k.b := by unfold Core.flag; split <;> rfl
@[simp] theorem core_flag_fm (k : Core) (inv ari : Bool) (slot pc : Nat) : (k.flag inv ari slot pc).fm = k.fm := by unfold Core.flag; split <;> rfl
@[simp] theorem core_flag_lgl (k : Core) (inv ari : Bool) (slot pc : Nat) : (k.flag inv ari slot pc).lgl = k.lgl := by unfold Core.flag; split <;> rfl
@[simp] theorem core_flag_cf (k : Core) (inv ari : Bool) (slot pc : Nat) : (k.flag inv ari slot pc).cf = k.cf := by unfold Core.flag; split <;> rfl
@[simp] theorem core_flag_cfo (k : Core) (inv ari : Bool) (slot pc : Nat) : (k.flag inv ari slot pc).cfo = k.cfo := by unfold Core.flag; split <;> rfl
@[simp] theorem core_flag_ss (k : Core) (inv ari : Bool) (slot pc : Nat) : (k.flag inv ari slot pc).ss = k.ss := by unfold Core.flag; split <;> rfl
@[simp] theorem core_flag_sres (k : Core) (inv ari : Bool) (slot pc : Nat) : (k.flag inv ari slot pc).sres = k.sres := by unfold Core.flag; split <;> rfl
@[simp] theorem core_flag_vres (k : Core) (inv ari : Bool) (slot pc : Nat) : (k.flag inv ari slot pc).vres = k.vres := by unfold Core.flag; split <;> rfl
@[simp] theorem core_flag_sop (k : Core) (inv ari : Bool) (slot pc : Nat) : (k.flag inv ari slot pc).sop = k.sop := by unfold Core.flag; split <;> rfl
@[simp] theorem core_flag_vop (k : Core) (inv ari : Bool) (slot pc : Nat) : (k.flag inv ari slot pc).vop = k.vop := by unfold Core.flag; split <;> rfl
@[simp] theorem core_flag_stL (k : Core) (inv ari : Bool) (slot pc : Nat) : (k.flag inv ari slot pc).stL = k.stL := by unfold Core.flag; split <;> rfl
@[simp] theorem core_flag_stX (k : Core) (inv ari : Bool) (slot pc : Nat) : (k.flag inv ari slot pc).stX = k.stX := by unfold Core.flag; split <;> rfl
@[simp] theorem core_flag_stM (k : Core) (inv ari : Bool) (slot pc : Nat) : (k.flag inv ari slot pc).stM = k.stM := by unfold Core.flag; split <;> rfl
@[simp] theorem core_flag_vmsel (k : Core) (inv ari : Bool) (slot pc : Nat) : (k.flag inv ari slot pc).vmsel = k.vmsel := by unfold Core.flag; split <;> rfl
@[simp] theorem core_flag_rstack (k : Core) (inv ari : Bool) (slot pc : Nat) : (k.flag inv ari slot pc).rstack = k.rstack := by unfold Core.flag; split <;> rfl
@[simp] theorem core_flag_loops (k : Core) (inv ari : Bool) (slot pc : Nat) : (k.flag inv ari slot pc).loops = k.loops := by unfold Core.flag; split <;> rfl
@[simp] theorem core_flag_rng (k : Core) (inv ari : Bool) (slot pc : Nat) : (k.flag inv ari slot pc).rng = k.rng := by unfold Core.flag; split <;> rfl
@[simp] theorem core_flag_rbq (k : Core) (inv ari : Bool) (slot pc : Nat) : (k.flag inv ari slot pc).rbq = k.rbq := by unfold Core.flag; split <;> rfl
@[simp] theorem core_flag_arow (k : Core) (inv ari : Bool) (slot pc : Nat) : (k.flag inv ari slot pc).arow = k.arow := by unfold Core.flag; split <;> rfl
@[simp] theorem core_flag_aptr (k : Core) (inv ari : Bool) (slot pc : Nat) : (k.flag inv ari slot pc).aptr = k.aptr := by unfold Core.flag; split <;> rfl
@[simp] theorem core_flag_drec (k : Core) (inv ari : Bool) (slot pc : Nat) : (k.flag inv ari slot pc).drec = k.drec := by unfold Core.flag; split <;> rfl
@[simp] theorem core_flag_seq (k : Core) (inv ari : Bool) (slot pc : Nat) : (k.flag inv ari slot pc).seq = k.seq := by unfold Core.flag; split <;> rfl
@[simp] theorem core_flag_rep (k : Core) (inv ari : Bool) (slot pc : Nat) : (k.flag inv ari slot pc).rep = k.rep := by unfold Core.flag; split <;> rfl
@[simp] theorem core_flag_stall (k : Core) (inv ari : Bool) (slot pc : Nat) : (k.flag inv ari slot pc).stall = k.stall := by unfold Core.flag; split <;> rfl
@[simp] theorem core_flag_restarted (k : Core) (inv ari : Bool) (slot pc : Nat) : (k.flag inv ari slot pc).restarted = k.restarted := by unfold Core.flag; split <;> rfl
@[simp] theorem core_flag_xfer (k : Core) (inv ari : Bool) (slot pc : Nat) : (k.flag inv ari slot pc).xfer = k.xfer := by unfold Core.flag; split <;> rfl
@[simp] theorem core_flag_bundles (k : Core) (inv ari : Bool) (slot pc : Nat) : (k.flag inv ari slot pc).bundles = k.bundles := by unfold Core.flag; split <;> rfl
@[simp] theorem core_flag_met (k : Core) (inv ari : Bool) (slot pc : Nat) : (k.flag inv ari slot pc).met = k.met := by unfold Core.flag; split <;> rfl
@[simp] theorem core_flag_hold (k : Core) (inv ari : Bool) (slot pc : Nat) : (k.flag inv ari slot pc).hold = k.hold := by unfold Core.flag; split <;> rfl
@[simp] theorem core_flag_drainTo (k : Core) (inv ari : Bool) (slot pc : Nat) : (k.flag inv ari slot pc).drainTo = k.drainTo := by unfold Core.flag; split <;> rfl
@[simp] theorem core_flag_yieldFlag (k : Core) (inv ari : Bool) (slot pc : Nat) : (k.flag inv ari slot pc).yieldFlag = k.yieldFlag := by unfold Core.flag; split <;> rfl
@[simp] theorem core_flag_held (k : Core) (inv ari : Bool) (slot pc : Nat) : (k.flag inv ari slot pc).held = k.held := by unfold Core.flag; split <;> rfl
@[simp] theorem core_flag_heldTried (k : Core) (inv ari : Bool) (slot pc : Nat) : (k.flag inv ari slot pc).heldTried = k.heldTried := by unfold Core.flag; split <;> rfl
@[simp] theorem core_flag_softTick (k : Core) (inv ari : Bool) (slot pc : Nat) : (k.flag inv ari slot pc).softTick = k.softTick := by unfold Core.flag; split <;> rfl
@[simp] theorem core_flag_mops (k : Core) (inv ari : Bool) (slot pc : Nat) : (k.flag inv ari slot pc).mops = k.mops := by unfold Core.flag; split <;> rfl
@[simp] theorem core_flag_sops (k : Core) (inv ari : Bool) (slot pc : Nat) : (k.flag inv ari slot pc).sops = k.sops := by unfold Core.flag; split <;> rfl
@[simp] theorem core_flag_pend (k : Core) (inv ari : Bool) (slot pc : Nat) : (k.flag inv ari slot pc).pend = k.pend := by unfold Core.flag; split <;> rfl
@[simp] theorem core_flag_next (k : Core) (inv ari : Bool) (slot pc : Nat) : (k.flag inv ari slot pc).next = k.next := by unfold Core.flag; split <;> rfl
@[simp] theorem core_flag_mma (k : Core) (inv ari : Bool) (slot pc : Nat) : (k.flag inv ari slot pc).mma = k.mma := by unfold Core.flag; split <;> rfl
@[simp] theorem core_flag_mmaq (k : Core) (inv ari : Bool) (slot pc : Nat) : (k.flag inv ari slot pc).mmaq = k.mmaq := by unfold Core.flag; split <;> rfl
@[simp] theorem core_flag_wld (k : Core) (inv ari : Bool) (slot pc : Nat) : (k.flag inv ari slot pc).wld = k.wld := by unfold Core.flag; split <;> rfl
@[simp] theorem core_flag_blocks (k : Core) (inv ari : Bool) (slot pc : Nat) : (k.flag inv ari slot pc).blocks = k.blocks := by unfold Core.flag; split <;> rfl
@[simp] theorem core_flag_cmds (k : Core) (inv ari : Bool) (slot pc : Nat) : (k.flag inv ari slot pc).cmds = k.cmds := by unfold Core.flag; split <;> rfl
@[simp] theorem core_flag_eng (k : Core) (inv ari : Bool) (slot pc : Nat) : (k.flag inv ari slot pc).eng = k.eng := by unfold Core.flag; split <;> rfl
@[simp] theorem core_flag_engFrozen (k : Core) (inv ari : Bool) (slot pc : Nat) : (k.flag inv ari slot pc).engFrozen = k.engFrozen := by unfold Core.flag; split <;> rfl
@[simp] theorem core_flag_ecyc (k : Core) (inv ari : Bool) (slot pc : Nat) : (k.flag inv ari slot pc).ecyc = k.ecyc := by unfold Core.flag; split <;> rfl
@[simp] theorem core_flag_mTrig (k : Core) (inv ari : Bool) (slot pc : Nat) : (k.flag inv ari slot pc).mTrig = k.mTrig := by unfold Core.flag; split <;> rfl
@[simp] theorem core_flag_l1 (k : Core) (inv ari : Bool) (slot pc : Nat) : (k.flag inv ari slot pc).l1 = k.l1 := by unfold Core.flag; split <;> rfl
@[simp] theorem core_flag_l1Mark (k : Core) (inv ari : Bool) (slot pc : Nat) : (k.flag inv ari slot pc).l1Mark = k.l1Mark := by unfold Core.flag; split <;> rfl
@[simp] theorem core_flag_rdcMark (k : Core) (inv ari : Bool) (slot pc : Nat) : (k.flag inv ari slot pc).rdcMark = k.rdcMark := by unfold Core.flag; split <;> rfl
@[simp] theorem core_flag_fills (k : Core) (inv ari : Bool) (slot pc : Nat) : (k.flag inv ari slot pc).fills = k.fills := by unfold Core.flag; split <;> rfl
@[simp] theorem core_flag_tlb (k : Core) (inv ari : Bool) (slot pc : Nat) : (k.flag inv ari slot pc).tlb = k.tlb := by unfold Core.flag; split <;> rfl
@[simp] theorem core_flag_logL (k : Core) (inv ari : Bool) (slot pc : Nat) : (k.flag inv ari slot pc).logL = k.logL := by unfold Core.flag; split <;> rfl
@[simp] theorem core_flag_logA (k : Core) (inv ari : Bool) (slot pc : Nat) : (k.flag inv ari slot pc).logA = k.logA := by unfold Core.flag; split <;> rfl
@[simp] theorem core_flag_logOrd (k : Core) (inv ari : Bool) (slot pc : Nat) : (k.flag inv ari slot pc).logOrd = k.logOrd := by unfold Core.flag; split <;> rfl
@[simp] theorem core_flag_window (k : Core) (inv ari : Bool) (slot pc : Nat) : (k.flag inv ari slot pc).window = k.window := by unfold Core.flag; split <;> rfl
@[simp] theorem core_flag_weight (k : Core) (inv ari : Bool) (slot pc : Nat) : (k.flag inv ari slot pc).weight = k.weight := by unfold Core.flag; split <;> rfl
@[simp] theorem core_flag_freezeNext (k : Core) (inv ari : Bool) (slot pc : Nat) : (k.flag inv ari slot pc).freezeNext = k.freezeNext := by unfold Core.flag; split <;> rfl
@[simp] theorem core_flag_frz (k : Core) (inv ari : Bool) (slot pc : Nat) : (k.flag inv ari slot pc).frz = k.frz := by unfold Core.flag; split <;> rfl
@[simp] theorem core_flag_found (k : Core) (inv ari : Bool) (slot pc : Nat) : (k.flag inv ari slot pc).found = k.found := by unfold Core.flag; split <;> rfl
@[simp] theorem core_flag_poll (k : Core) (inv ari : Bool) (slot pc : Nat) : (k.flag inv ari slot pc).poll = k.poll := by unfold Core.flag; split <;> rfl
@[simp] theorem core_flag_crossed (k : Core) (inv ari : Bool) (slot pc : Nat) : (k.flag inv ari slot pc).crossed = k.crossed := by unfold Core.flag; split <;> rfl
@[simp] theorem core_flag_mac (k : Core) (inv ari : Bool) (slot pc : Nat) : (k.flag inv ari slot pc).mac = k.mac := by unfold Core.flag; split <;> rfl
@[simp] theorem core_flag_imageKey (k : Core) (inv ari : Bool) (slot pc : Nat) : (k.flag inv ari slot pc).imageKey = k.imageKey := by unfold Core.flag; split <;> rfl
@[simp] theorem core_flag_frzcnt (k : Core) (inv ari : Bool) (slot pc : Nat) : (k.flag inv ari slot pc).frzcnt = k.frzcnt := by unfold Core.flag; split <;> rfl
@[simp] theorem core_flag_throttled (k : Core) (inv ari : Bool) (slot pc : Nat) : (k.flag inv ari slot pc).throttled = k.throttled := by unfold Core.flag; split <;> rfl
@[simp] theorem core_flag_timingSub (k : Core) (inv ari : Bool) (slot pc : Nat) : (k.flag inv ari slot pc).timingSub = k.timingSub := by unfold Core.flag; split <;> rfl
@[simp] theorem core_flag_turn (k : Core) (inv ari : Bool) (slot pc : Nat) : (k.flag inv ari slot pc).turn = k.turn := by unfold Core.flag; split <;> rfl
@[simp] theorem core_flag_barrier (k : Core) (inv ari : Bool) (slot pc : Nat) : (k.flag inv ari slot pc).barrier = k.barrier := by unfold Core.flag; split <;> rfl
@[simp] theorem core_flag_cmdWait (k : Core) (inv ari : Bool) (slot pc : Nat) : (k.flag inv ari slot pc).cmdWait = k.cmdWait := by unfold Core.flag; split <;> rfl
@[simp] theorem core_flag_trapWait (k : Core) (inv ari : Bool) (slot pc : Nat) : (k.flag inv ari slot pc).trapWait = k.trapWait := by unfold Core.flag; split <;> rfl
@[simp] theorem core_flag_trapWs (k : Core) (inv ari : Bool) (slot pc : Nat) : (k.flag inv ari slot pc).trapWs = k.trapWs := by unfold Core.flag; split <;> rfl
@[simp] theorem core_flag_relBy (k : Core) (inv ari : Bool) (slot pc : Nat) : (k.flag inv ari slot pc).relBy = k.relBy := by unfold Core.flag; split <;> rfl
@[simp] theorem core_flag_freezeReq (k : Core) (inv ari : Bool) (slot pc : Nat) : (k.flag inv ari slot pc).freezeReq = k.freezeReq := by unfold Core.flag; split <;> rfl
@[simp] theorem core_flag_relScope (k : Core) (inv ari : Bool) (slot pc : Nat) : (k.flag inv ari slot pc).relScope = k.relScope := by unfold Core.flag; split <;> rfl
@[simp] theorem core_flag_relSurv (k : Core) (inv ari : Bool) (slot pc : Nat) : (k.flag inv ari slot pc).relSurv = k.relSurv := by unfold Core.flag; split <;> rfl
@[simp] theorem core_flag_haltEnd (k : Core) (inv ari : Bool) (slot pc : Nat) : (k.flag inv ari slot pc).haltEnd = k.haltEnd := by unfold Core.flag; split <;> rfl
@[simp] theorem core_flag_endMark (k : Core) (inv ari : Bool) (slot pc : Nat) : (k.flag inv ari slot pc).endMark = k.endMark := by unfold Core.flag; split <;> rfl
@[simp] theorem core_flag_stale (k : Core) (inv ari : Bool) (slot pc : Nat) : (k.flag inv ari slot pc).stale = k.stale := by unfold Core.flag; split <;> rfl
@[simp] theorem core_flag_hist (k : Core) (inv ari : Bool) (slot pc : Nat) : (k.flag inv ari slot pc).hist = k.hist := by unfold Core.flag; split <;> rfl
@[simp] theorem core_flag_seen (k : Core) (inv ari : Bool) (slot pc : Nat) : (k.flag inv ari slot pc).seen = k.seen := by unfold Core.flag; split <;> rfl
@[simp] theorem core_flag_foreign (k : Core) (inv ari : Bool) (slot pc : Nat) : (k.flag inv ari slot pc).foreign = k.foreign := by unfold Core.flag; split <;> rfl
@[simp] theorem core_flag_engW (k : Core) (inv ari : Bool) (slot pc : Nat) : (k.flag inv ari slot pc).engW = k.engW := by unfold Core.flag; split <;> rfl
@[simp] theorem core_flag_raceW (k : Core) (inv ari : Bool) (slot pc : Nat) : (k.flag inv ari slot pc).raceW = k.raceW := by unfold Core.flag; split <;> rfl
@[simp] theorem core_flag_icache (k : Core) (inv ari : Bool) (slot pc : Nat) : (k.flag inv ari slot pc).icache = k.icache := by unfold Core.flag; split <;> rfl
@[simp] theorem core_flag_sysw (k : Core) (inv ari : Bool) (slot pc : Nat) : (k.flag inv ari slot pc).sysw = k.sysw := by unfold Core.flag; split <;> rfl

@[simp] theorem core_setBase_status (k : Core) (n : Nat) (x : BaseReg) : (k.setBase n x).status = k.status := rfl
@[simp] theorem core_setBase_launch (k : Core) (n : Nat) (x : BaseReg) : (k.setBase n x).launch = k.launch := rfl
@[simp] theorem core_setBase_tid (k : Core) (n : Nat) (x : BaseReg) : (k.setBase n x).tid = k.tid := rfl
@[simp] theorem core_setBase_tcx (k : Core) (n : Nat) (x : BaseReg) : (k.setBase n x).tcx = k.tcx := rfl
@[simp] theorem core_setBase_ctx (k : Core) (n : Nat) (x : BaseReg) : (k.setBase n x).ctx = k.ctx := rfl
@[simp] theorem core_setBase_tagged (k : Core) (n : Nat) (x : BaseReg) : (k.setBase n x).tagged = k.tagged := rfl
@[simp] theorem core_setBase_pc (k : Core) (n : Nat) (x : BaseReg) : (k.setBase n x).pc = k.pc := rfl
@[simp] theorem core_setBase_cb (k : Core) (n : Nat) (x : BaseReg) : (k.setBase n x).cb = k.cb := rfl
@[simp] theorem core_setBase_lcyc (k : Core) (n : Nat) (x : BaseReg) : (k.setBase n x).lcyc = k.lcyc := rfl
@[simp] theorem core_setBase_clk (k : Core) (n : Nat) (x : BaseReg) : (k.setBase n x).clk = k.clk := rfl
@[simp] theorem core_setBase_phase (k : Core) (n : Nat) (x : BaseReg) : (k.setBase n x).phase = k.phase := rfl
@[simp] theorem core_setBase_g (k : Core) (n : Nat) (x : BaseReg) : (k.setBase n x).g = k.g := rfl
@[simp] theorem core_setBase_p (k : Core) (n : Nat) (x : BaseReg) : (k.setBase n x).p = k.p := rfl
@[simp] theorem core_setBase_v (k : Core) (n : Nat) (x : BaseReg) : (k.setBase n x).v = k.v := rfl
@[simp] theorem core_setBase_q (k : Core) (n : Nat) (x : BaseReg) : (k.setBase n x).q = k.q := rfl
@[simp] theorem core_setBase_t (k : Core) (n : Nat) (x : BaseReg) : (k.setBase n x).t = k.t := rfl
@[simp] theorem core_setBase_k (k : Core) (n : Nat) (x : BaseReg) : (k.setBase n x).k = k.k := rfl
@[simp] theorem core_setBase_fm (k : Core) (n : Nat) (x : BaseReg) : (k.setBase n x).fm = k.fm := rfl
@[simp] theorem core_setBase_lgl (k : Core) (n : Nat) (x : BaseReg) : (k.setBase n x).lgl = k.lgl := rfl
@[simp] theorem core_setBase_cf (k : Core) (n : Nat) (x : BaseReg) : (k.setBase n x).cf = k.cf := rfl
@[simp] theorem core_setBase_cfo (k : Core) (n : Nat) (x : BaseReg) : (k.setBase n x).cfo = k.cfo := rfl
@[simp] theorem core_setBase_ss (k : Core) (n : Nat) (x : BaseReg) : (k.setBase n x).ss = k.ss := rfl
@[simp] theorem core_setBase_sres (k : Core) (n : Nat) (x : BaseReg) : (k.setBase n x).sres = k.sres := rfl
@[simp] theorem core_setBase_vres (k : Core) (n : Nat) (x : BaseReg) : (k.setBase n x).vres = k.vres := rfl
@[simp] theorem core_setBase_sop (k : Core) (n : Nat) (x : BaseReg) : (k.setBase n x).sop = k.sop := rfl
@[simp] theorem core_setBase_vop (k : Core) (n : Nat) (x : BaseReg) : (k.setBase n x).vop = k.vop := rfl
@[simp] theorem core_setBase_stL (k : Core) (n : Nat) (x : BaseReg) : (k.setBase n x).stL = k.stL := rfl
@[simp] theorem core_setBase_stX (k : Core) (n : Nat) (x : BaseReg) : (k.setBase n x).stX = k.stX := rfl
@[simp] theorem core_setBase_stM (k : Core) (n : Nat) (x : BaseReg) : (k.setBase n x).stM = k.stM := rfl
@[simp] theorem core_setBase_vmsel (k : Core) (n : Nat) (x : BaseReg) : (k.setBase n x).vmsel = k.vmsel := rfl
@[simp] theorem core_setBase_rstack (k : Core) (n : Nat) (x : BaseReg) : (k.setBase n x).rstack = k.rstack := rfl
@[simp] theorem core_setBase_loops (k : Core) (n : Nat) (x : BaseReg) : (k.setBase n x).loops = k.loops := rfl
@[simp] theorem core_setBase_inv (k : Core) (n : Nat) (x : BaseReg) : (k.setBase n x).inv = k.inv := rfl
@[simp] theorem core_setBase_arith (k : Core) (n : Nat) (x : BaseReg) : (k.setBase n x).arith = k.arith := rfl
@[simp] theorem core_setBase_recs (k : Core) (n : Nat) (x : BaseReg) : (k.setBase n x).recs = k.recs := rfl
@[simp] theorem core_setBase_rng (k : Core) (n : Nat) (x : BaseReg) : (k.setBase n x).rng = k.rng := rfl
@[simp] theorem core_setBase_rbq (k : Core) (n : Nat) (x : BaseReg) : (k.setBase n x).rbq = k.rbq := rfl
@[simp] theorem core_setBase_arow (k : Core) (n : Nat) (x : BaseReg) : (k.setBase n x).arow = k.arow := rfl
@[simp] theorem core_setBase_aptr (k : Core) (n : Nat) (x : BaseReg) : (k.setBase n x).aptr = k.aptr := rfl
@[simp] theorem core_setBase_drec (k : Core) (n : Nat) (x : BaseReg) : (k.setBase n x).drec = k.drec := rfl
@[simp] theorem core_setBase_seq (k : Core) (n : Nat) (x : BaseReg) : (k.setBase n x).seq = k.seq := rfl
@[simp] theorem core_setBase_rep (k : Core) (n : Nat) (x : BaseReg) : (k.setBase n x).rep = k.rep := rfl
@[simp] theorem core_setBase_stall (k : Core) (n : Nat) (x : BaseReg) : (k.setBase n x).stall = k.stall := rfl
@[simp] theorem core_setBase_restarted (k : Core) (n : Nat) (x : BaseReg) : (k.setBase n x).restarted = k.restarted := rfl
@[simp] theorem core_setBase_xfer (k : Core) (n : Nat) (x : BaseReg) : (k.setBase n x).xfer = k.xfer := rfl
@[simp] theorem core_setBase_bundles (k : Core) (n : Nat) (x : BaseReg) : (k.setBase n x).bundles = k.bundles := rfl
@[simp] theorem core_setBase_met (k : Core) (n : Nat) (x : BaseReg) : (k.setBase n x).met = k.met := rfl
@[simp] theorem core_setBase_hold (k : Core) (n : Nat) (x : BaseReg) : (k.setBase n x).hold = k.hold := rfl
@[simp] theorem core_setBase_drainTo (k : Core) (n : Nat) (x : BaseReg) : (k.setBase n x).drainTo = k.drainTo := rfl
@[simp] theorem core_setBase_yieldFlag (k : Core) (n : Nat) (x : BaseReg) : (k.setBase n x).yieldFlag = k.yieldFlag := rfl
@[simp] theorem core_setBase_held (k : Core) (n : Nat) (x : BaseReg) : (k.setBase n x).held = k.held := rfl
@[simp] theorem core_setBase_heldTried (k : Core) (n : Nat) (x : BaseReg) : (k.setBase n x).heldTried = k.heldTried := rfl
@[simp] theorem core_setBase_softTick (k : Core) (n : Nat) (x : BaseReg) : (k.setBase n x).softTick = k.softTick := rfl
@[simp] theorem core_setBase_mops (k : Core) (n : Nat) (x : BaseReg) : (k.setBase n x).mops = k.mops := rfl
@[simp] theorem core_setBase_sops (k : Core) (n : Nat) (x : BaseReg) : (k.setBase n x).sops = k.sops := rfl
@[simp] theorem core_setBase_pend (k : Core) (n : Nat) (x : BaseReg) : (k.setBase n x).pend = k.pend := rfl
@[simp] theorem core_setBase_next (k : Core) (n : Nat) (x : BaseReg) : (k.setBase n x).next = k.next := rfl
@[simp] theorem core_setBase_mma (k : Core) (n : Nat) (x : BaseReg) : (k.setBase n x).mma = k.mma := rfl
@[simp] theorem core_setBase_mmaq (k : Core) (n : Nat) (x : BaseReg) : (k.setBase n x).mmaq = k.mmaq := rfl
@[simp] theorem core_setBase_wld (k : Core) (n : Nat) (x : BaseReg) : (k.setBase n x).wld = k.wld := rfl
@[simp] theorem core_setBase_blocks (k : Core) (n : Nat) (x : BaseReg) : (k.setBase n x).blocks = k.blocks := rfl
@[simp] theorem core_setBase_cmds (k : Core) (n : Nat) (x : BaseReg) : (k.setBase n x).cmds = k.cmds := rfl
@[simp] theorem core_setBase_eng (k : Core) (n : Nat) (x : BaseReg) : (k.setBase n x).eng = k.eng := rfl
@[simp] theorem core_setBase_engFrozen (k : Core) (n : Nat) (x : BaseReg) : (k.setBase n x).engFrozen = k.engFrozen := rfl
@[simp] theorem core_setBase_ecyc (k : Core) (n : Nat) (x : BaseReg) : (k.setBase n x).ecyc = k.ecyc := rfl
@[simp] theorem core_setBase_mTrig (k : Core) (n : Nat) (x : BaseReg) : (k.setBase n x).mTrig = k.mTrig := rfl
@[simp] theorem core_setBase_l1 (k : Core) (n : Nat) (x : BaseReg) : (k.setBase n x).l1 = k.l1 := rfl
@[simp] theorem core_setBase_l1Mark (k : Core) (n : Nat) (x : BaseReg) : (k.setBase n x).l1Mark = k.l1Mark := rfl
@[simp] theorem core_setBase_rdcMark (k : Core) (n : Nat) (x : BaseReg) : (k.setBase n x).rdcMark = k.rdcMark := rfl
@[simp] theorem core_setBase_fills (k : Core) (n : Nat) (x : BaseReg) : (k.setBase n x).fills = k.fills := rfl
@[simp] theorem core_setBase_tlb (k : Core) (n : Nat) (x : BaseReg) : (k.setBase n x).tlb = k.tlb := rfl
@[simp] theorem core_setBase_logL (k : Core) (n : Nat) (x : BaseReg) : (k.setBase n x).logL = k.logL := rfl
@[simp] theorem core_setBase_logA (k : Core) (n : Nat) (x : BaseReg) : (k.setBase n x).logA = k.logA := rfl
@[simp] theorem core_setBase_logOrd (k : Core) (n : Nat) (x : BaseReg) : (k.setBase n x).logOrd = k.logOrd := rfl
@[simp] theorem core_setBase_window (k : Core) (n : Nat) (x : BaseReg) : (k.setBase n x).window = k.window := rfl
@[simp] theorem core_setBase_weight (k : Core) (n : Nat) (x : BaseReg) : (k.setBase n x).weight = k.weight := rfl
@[simp] theorem core_setBase_freezeNext (k : Core) (n : Nat) (x : BaseReg) : (k.setBase n x).freezeNext = k.freezeNext := rfl
@[simp] theorem core_setBase_frz (k : Core) (n : Nat) (x : BaseReg) : (k.setBase n x).frz = k.frz := rfl
@[simp] theorem core_setBase_found (k : Core) (n : Nat) (x : BaseReg) : (k.setBase n x).found = k.found := rfl
@[simp] theorem core_setBase_poll (k : Core) (n : Nat) (x : BaseReg) : (k.setBase n x).poll = k.poll := rfl
@[simp] theorem core_setBase_crossed (k : Core) (n : Nat) (x : BaseReg) : (k.setBase n x).crossed = k.crossed := rfl
@[simp] theorem core_setBase_mac (k : Core) (n : Nat) (x : BaseReg) : (k.setBase n x).mac = k.mac := rfl
@[simp] theorem core_setBase_imageKey (k : Core) (n : Nat) (x : BaseReg) : (k.setBase n x).imageKey = k.imageKey := rfl
@[simp] theorem core_setBase_frzcnt (k : Core) (n : Nat) (x : BaseReg) : (k.setBase n x).frzcnt = k.frzcnt := rfl
@[simp] theorem core_setBase_throttled (k : Core) (n : Nat) (x : BaseReg) : (k.setBase n x).throttled = k.throttled := rfl
@[simp] theorem core_setBase_timingSub (k : Core) (n : Nat) (x : BaseReg) : (k.setBase n x).timingSub = k.timingSub := rfl
@[simp] theorem core_setBase_turn (k : Core) (n : Nat) (x : BaseReg) : (k.setBase n x).turn = k.turn := rfl
@[simp] theorem core_setBase_barrier (k : Core) (n : Nat) (x : BaseReg) : (k.setBase n x).barrier = k.barrier := rfl
@[simp] theorem core_setBase_cmdWait (k : Core) (n : Nat) (x : BaseReg) : (k.setBase n x).cmdWait = k.cmdWait := rfl
@[simp] theorem core_setBase_trapWait (k : Core) (n : Nat) (x : BaseReg) : (k.setBase n x).trapWait = k.trapWait := rfl
@[simp] theorem core_setBase_trapWs (k : Core) (n : Nat) (x : BaseReg) : (k.setBase n x).trapWs = k.trapWs := rfl
@[simp] theorem core_setBase_relBy (k : Core) (n : Nat) (x : BaseReg) : (k.setBase n x).relBy = k.relBy := rfl
@[simp] theorem core_setBase_freezeReq (k : Core) (n : Nat) (x : BaseReg) : (k.setBase n x).freezeReq = k.freezeReq := rfl
@[simp] theorem core_setBase_relScope (k : Core) (n : Nat) (x : BaseReg) : (k.setBase n x).relScope = k.relScope := rfl
@[simp] theorem core_setBase_relSurv (k : Core) (n : Nat) (x : BaseReg) : (k.setBase n x).relSurv = k.relSurv := rfl
@[simp] theorem core_setBase_haltEnd (k : Core) (n : Nat) (x : BaseReg) : (k.setBase n x).haltEnd = k.haltEnd := rfl
@[simp] theorem core_setBase_endMark (k : Core) (n : Nat) (x : BaseReg) : (k.setBase n x).endMark = k.endMark := rfl
@[simp] theorem core_setBase_stale (k : Core) (n : Nat) (x : BaseReg) : (k.setBase n x).stale = k.stale := rfl
@[simp] theorem core_setBase_hist (k : Core) (n : Nat) (x : BaseReg) : (k.setBase n x).hist = k.hist := rfl
@[simp] theorem core_setBase_seen (k : Core) (n : Nat) (x : BaseReg) : (k.setBase n x).seen = k.seen := rfl
@[simp] theorem core_setBase_foreign (k : Core) (n : Nat) (x : BaseReg) : (k.setBase n x).foreign = k.foreign := rfl
@[simp] theorem core_setBase_engW (k : Core) (n : Nat) (x : BaseReg) : (k.setBase n x).engW = k.engW := rfl
@[simp] theorem core_setBase_raceW (k : Core) (n : Nat) (x : BaseReg) : (k.setBase n x).raceW = k.raceW := rfl
@[simp] theorem core_setBase_icache (k : Core) (n : Nat) (x : BaseReg) : (k.setBase n x).icache = k.icache := rfl
@[simp] theorem core_setBase_sysw (k : Core) (n : Nat) (x : BaseReg) : (k.setBase n x).sysw = k.sysw := rfl

@[simp] theorem core_moveLatchM_status (k : Core) (d : Nat) (x : U64) : (k.moveLatchM d x).status = k.status := rfl
@[simp] theorem core_moveLatchM_launch (k : Core) (d : Nat) (x : U64) : (k.moveLatchM d x).launch = k.launch := rfl
@[simp] theorem core_moveLatchM_tid (k : Core) (d : Nat) (x : U64) : (k.moveLatchM d x).tid = k.tid := rfl
@[simp] theorem core_moveLatchM_tcx (k : Core) (d : Nat) (x : U64) : (k.moveLatchM d x).tcx = k.tcx := rfl
@[simp] theorem core_moveLatchM_ctx (k : Core) (d : Nat) (x : U64) : (k.moveLatchM d x).ctx = k.ctx := rfl
@[simp] theorem core_moveLatchM_tagged (k : Core) (d : Nat) (x : U64) : (k.moveLatchM d x).tagged = k.tagged := rfl
@[simp] theorem core_moveLatchM_pc (k : Core) (d : Nat) (x : U64) : (k.moveLatchM d x).pc = k.pc := rfl
@[simp] theorem core_moveLatchM_cb (k : Core) (d : Nat) (x : U64) : (k.moveLatchM d x).cb = k.cb := rfl
@[simp] theorem core_moveLatchM_lcyc (k : Core) (d : Nat) (x : U64) : (k.moveLatchM d x).lcyc = k.lcyc := rfl
@[simp] theorem core_moveLatchM_clk (k : Core) (d : Nat) (x : U64) : (k.moveLatchM d x).clk = k.clk := rfl
@[simp] theorem core_moveLatchM_phase (k : Core) (d : Nat) (x : U64) : (k.moveLatchM d x).phase = k.phase := rfl
@[simp] theorem core_moveLatchM_g (k : Core) (d : Nat) (x : U64) : (k.moveLatchM d x).g = k.g := rfl
@[simp] theorem core_moveLatchM_p (k : Core) (d : Nat) (x : U64) : (k.moveLatchM d x).p = k.p := rfl
@[simp] theorem core_moveLatchM_v (k : Core) (d : Nat) (x : U64) : (k.moveLatchM d x).v = k.v := rfl
@[simp] theorem core_moveLatchM_q (k : Core) (d : Nat) (x : U64) : (k.moveLatchM d x).q = k.q := rfl
@[simp] theorem core_moveLatchM_t (k : Core) (d : Nat) (x : U64) : (k.moveLatchM d x).t = k.t := rfl
@[simp] theorem core_moveLatchM_k (k : Core) (d : Nat) (x : U64) : (k.moveLatchM d x).k = k.k := rfl
@[simp] theorem core_moveLatchM_b (k : Core) (d : Nat) (x : U64) : (k.moveLatchM d x).b = k.b := rfl
@[simp] theorem core_moveLatchM_fm (k : Core) (d : Nat) (x : U64) : (k.moveLatchM d x).fm = k.fm := rfl
@[simp] theorem core_moveLatchM_lgl (k : Core) (d : Nat) (x : U64) : (k.moveLatchM d x).lgl = k.lgl := rfl
@[simp] theorem core_moveLatchM_cf (k : Core) (d : Nat) (x : U64) : (k.moveLatchM d x).cf = k.cf := rfl
@[simp] theorem core_moveLatchM_cfo (k : Core) (d : Nat) (x : U64) : (k.moveLatchM d x).cfo = k.cfo := rfl
@[simp] theorem core_moveLatchM_ss (k : Core) (d : Nat) (x : U64) : (k.moveLatchM d x).ss = k.ss := rfl
@[simp] theorem core_moveLatchM_sres (k : Core) (d : Nat) (x : U64) : (k.moveLatchM d x).sres = k.sres := rfl
@[simp] theorem core_moveLatchM_vres (k : Core) (d : Nat) (x : U64) : (k.moveLatchM d x).vres = k.vres := rfl
@[simp] theorem core_moveLatchM_vop (k : Core) (d : Nat) (x : U64) : (k.moveLatchM d x).vop = k.vop := rfl
@[simp] theorem core_moveLatchM_stL (k : Core) (d : Nat) (x : U64) : (k.moveLatchM d x).stL = k.stL := rfl
@[simp] theorem core_moveLatchM_stX (k : Core) (d : Nat) (x : U64) : (k.moveLatchM d x).stX = k.stX := rfl
@[simp] theorem core_moveLatchM_stM (k : Core) (d : Nat) (x : U64) : (k.moveLatchM d x).stM = k.stM := rfl
@[simp] theorem core_moveLatchM_vmsel (k : Core) (d : Nat) (x : U64) : (k.moveLatchM d x).vmsel = k.vmsel := rfl
@[simp] theorem core_moveLatchM_rstack (k : Core) (d : Nat) (x : U64) : (k.moveLatchM d x).rstack = k.rstack := rfl
@[simp] theorem core_moveLatchM_loops (k : Core) (d : Nat) (x : U64) : (k.moveLatchM d x).loops = k.loops := rfl
@[simp] theorem core_moveLatchM_inv (k : Core) (d : Nat) (x : U64) : (k.moveLatchM d x).inv = k.inv := rfl
@[simp] theorem core_moveLatchM_arith (k : Core) (d : Nat) (x : U64) : (k.moveLatchM d x).arith = k.arith := rfl
@[simp] theorem core_moveLatchM_recs (k : Core) (d : Nat) (x : U64) : (k.moveLatchM d x).recs = k.recs := rfl
@[simp] theorem core_moveLatchM_rng (k : Core) (d : Nat) (x : U64) : (k.moveLatchM d x).rng = k.rng := rfl
@[simp] theorem core_moveLatchM_rbq (k : Core) (d : Nat) (x : U64) : (k.moveLatchM d x).rbq = k.rbq := rfl
@[simp] theorem core_moveLatchM_arow (k : Core) (d : Nat) (x : U64) : (k.moveLatchM d x).arow = k.arow := rfl
@[simp] theorem core_moveLatchM_aptr (k : Core) (d : Nat) (x : U64) : (k.moveLatchM d x).aptr = k.aptr := rfl
@[simp] theorem core_moveLatchM_drec (k : Core) (d : Nat) (x : U64) : (k.moveLatchM d x).drec = k.drec := rfl
@[simp] theorem core_moveLatchM_seq (k : Core) (d : Nat) (x : U64) : (k.moveLatchM d x).seq = k.seq := rfl
@[simp] theorem core_moveLatchM_rep (k : Core) (d : Nat) (x : U64) : (k.moveLatchM d x).rep = k.rep := rfl
@[simp] theorem core_moveLatchM_stall (k : Core) (d : Nat) (x : U64) : (k.moveLatchM d x).stall = k.stall := rfl
@[simp] theorem core_moveLatchM_restarted (k : Core) (d : Nat) (x : U64) : (k.moveLatchM d x).restarted = k.restarted := rfl
@[simp] theorem core_moveLatchM_xfer (k : Core) (d : Nat) (x : U64) : (k.moveLatchM d x).xfer = k.xfer := rfl
@[simp] theorem core_moveLatchM_bundles (k : Core) (d : Nat) (x : U64) : (k.moveLatchM d x).bundles = k.bundles := rfl
@[simp] theorem core_moveLatchM_met (k : Core) (d : Nat) (x : U64) : (k.moveLatchM d x).met = k.met := rfl
@[simp] theorem core_moveLatchM_hold (k : Core) (d : Nat) (x : U64) : (k.moveLatchM d x).hold = k.hold := rfl
@[simp] theorem core_moveLatchM_drainTo (k : Core) (d : Nat) (x : U64) : (k.moveLatchM d x).drainTo = k.drainTo := rfl
@[simp] theorem core_moveLatchM_yieldFlag (k : Core) (d : Nat) (x : U64) : (k.moveLatchM d x).yieldFlag = k.yieldFlag := rfl
@[simp] theorem core_moveLatchM_held (k : Core) (d : Nat) (x : U64) : (k.moveLatchM d x).held = k.held := rfl
@[simp] theorem core_moveLatchM_heldTried (k : Core) (d : Nat) (x : U64) : (k.moveLatchM d x).heldTried = k.heldTried := rfl
@[simp] theorem core_moveLatchM_softTick (k : Core) (d : Nat) (x : U64) : (k.moveLatchM d x).softTick = k.softTick := rfl
@[simp] theorem core_moveLatchM_mops (k : Core) (d : Nat) (x : U64) : (k.moveLatchM d x).mops = k.mops := rfl
@[simp] theorem core_moveLatchM_sops (k : Core) (d : Nat) (x : U64) : (k.moveLatchM d x).sops = k.sops := rfl
@[simp] theorem core_moveLatchM_pend (k : Core) (d : Nat) (x : U64) : (k.moveLatchM d x).pend = k.pend := rfl
@[simp] theorem core_moveLatchM_next (k : Core) (d : Nat) (x : U64) : (k.moveLatchM d x).next = k.next := rfl
@[simp] theorem core_moveLatchM_mma (k : Core) (d : Nat) (x : U64) : (k.moveLatchM d x).mma = k.mma := rfl
@[simp] theorem core_moveLatchM_mmaq (k : Core) (d : Nat) (x : U64) : (k.moveLatchM d x).mmaq = k.mmaq := rfl
@[simp] theorem core_moveLatchM_wld (k : Core) (d : Nat) (x : U64) : (k.moveLatchM d x).wld = k.wld := rfl
@[simp] theorem core_moveLatchM_blocks (k : Core) (d : Nat) (x : U64) : (k.moveLatchM d x).blocks = k.blocks := rfl
@[simp] theorem core_moveLatchM_cmds (k : Core) (d : Nat) (x : U64) : (k.moveLatchM d x).cmds = k.cmds := rfl
@[simp] theorem core_moveLatchM_eng (k : Core) (d : Nat) (x : U64) : (k.moveLatchM d x).eng = k.eng := rfl
@[simp] theorem core_moveLatchM_engFrozen (k : Core) (d : Nat) (x : U64) : (k.moveLatchM d x).engFrozen = k.engFrozen := rfl
@[simp] theorem core_moveLatchM_ecyc (k : Core) (d : Nat) (x : U64) : (k.moveLatchM d x).ecyc = k.ecyc := rfl
@[simp] theorem core_moveLatchM_mTrig (k : Core) (d : Nat) (x : U64) : (k.moveLatchM d x).mTrig = k.mTrig := rfl
@[simp] theorem core_moveLatchM_l1 (k : Core) (d : Nat) (x : U64) : (k.moveLatchM d x).l1 = k.l1 := rfl
@[simp] theorem core_moveLatchM_l1Mark (k : Core) (d : Nat) (x : U64) : (k.moveLatchM d x).l1Mark = k.l1Mark := rfl
@[simp] theorem core_moveLatchM_rdcMark (k : Core) (d : Nat) (x : U64) : (k.moveLatchM d x).rdcMark = k.rdcMark := rfl
@[simp] theorem core_moveLatchM_fills (k : Core) (d : Nat) (x : U64) : (k.moveLatchM d x).fills = k.fills := rfl
@[simp] theorem core_moveLatchM_tlb (k : Core) (d : Nat) (x : U64) : (k.moveLatchM d x).tlb = k.tlb := rfl
@[simp] theorem core_moveLatchM_logL (k : Core) (d : Nat) (x : U64) : (k.moveLatchM d x).logL = k.logL := rfl
@[simp] theorem core_moveLatchM_logA (k : Core) (d : Nat) (x : U64) : (k.moveLatchM d x).logA = k.logA := rfl
@[simp] theorem core_moveLatchM_logOrd (k : Core) (d : Nat) (x : U64) : (k.moveLatchM d x).logOrd = k.logOrd := rfl
@[simp] theorem core_moveLatchM_window (k : Core) (d : Nat) (x : U64) : (k.moveLatchM d x).window = k.window := rfl
@[simp] theorem core_moveLatchM_weight (k : Core) (d : Nat) (x : U64) : (k.moveLatchM d x).weight = k.weight := rfl
@[simp] theorem core_moveLatchM_freezeNext (k : Core) (d : Nat) (x : U64) : (k.moveLatchM d x).freezeNext = k.freezeNext := rfl
@[simp] theorem core_moveLatchM_frz (k : Core) (d : Nat) (x : U64) : (k.moveLatchM d x).frz = k.frz := rfl
@[simp] theorem core_moveLatchM_found (k : Core) (d : Nat) (x : U64) : (k.moveLatchM d x).found = k.found := rfl
@[simp] theorem core_moveLatchM_poll (k : Core) (d : Nat) (x : U64) : (k.moveLatchM d x).poll = k.poll := rfl
@[simp] theorem core_moveLatchM_crossed (k : Core) (d : Nat) (x : U64) : (k.moveLatchM d x).crossed = k.crossed := rfl
@[simp] theorem core_moveLatchM_mac (k : Core) (d : Nat) (x : U64) : (k.moveLatchM d x).mac = k.mac := rfl
@[simp] theorem core_moveLatchM_imageKey (k : Core) (d : Nat) (x : U64) : (k.moveLatchM d x).imageKey = k.imageKey := rfl
@[simp] theorem core_moveLatchM_frzcnt (k : Core) (d : Nat) (x : U64) : (k.moveLatchM d x).frzcnt = k.frzcnt := rfl
@[simp] theorem core_moveLatchM_throttled (k : Core) (d : Nat) (x : U64) : (k.moveLatchM d x).throttled = k.throttled := rfl
@[simp] theorem core_moveLatchM_timingSub (k : Core) (d : Nat) (x : U64) : (k.moveLatchM d x).timingSub = k.timingSub := rfl
@[simp] theorem core_moveLatchM_turn (k : Core) (d : Nat) (x : U64) : (k.moveLatchM d x).turn = k.turn := rfl
@[simp] theorem core_moveLatchM_barrier (k : Core) (d : Nat) (x : U64) : (k.moveLatchM d x).barrier = k.barrier := rfl
@[simp] theorem core_moveLatchM_cmdWait (k : Core) (d : Nat) (x : U64) : (k.moveLatchM d x).cmdWait = k.cmdWait := rfl
@[simp] theorem core_moveLatchM_trapWait (k : Core) (d : Nat) (x : U64) : (k.moveLatchM d x).trapWait = k.trapWait := rfl
@[simp] theorem core_moveLatchM_trapWs (k : Core) (d : Nat) (x : U64) : (k.moveLatchM d x).trapWs = k.trapWs := rfl
@[simp] theorem core_moveLatchM_relBy (k : Core) (d : Nat) (x : U64) : (k.moveLatchM d x).relBy = k.relBy := rfl
@[simp] theorem core_moveLatchM_freezeReq (k : Core) (d : Nat) (x : U64) : (k.moveLatchM d x).freezeReq = k.freezeReq := rfl
@[simp] theorem core_moveLatchM_relScope (k : Core) (d : Nat) (x : U64) : (k.moveLatchM d x).relScope = k.relScope := rfl
@[simp] theorem core_moveLatchM_relSurv (k : Core) (d : Nat) (x : U64) : (k.moveLatchM d x).relSurv = k.relSurv := rfl
@[simp] theorem core_moveLatchM_haltEnd (k : Core) (d : Nat) (x : U64) : (k.moveLatchM d x).haltEnd = k.haltEnd := rfl
@[simp] theorem core_moveLatchM_endMark (k : Core) (d : Nat) (x : U64) : (k.moveLatchM d x).endMark = k.endMark := rfl
@[simp] theorem core_moveLatchM_stale (k : Core) (d : Nat) (x : U64) : (k.moveLatchM d x).stale = k.stale := rfl
@[simp] theorem core_moveLatchM_hist (k : Core) (d : Nat) (x : U64) : (k.moveLatchM d x).hist = k.hist := rfl
@[simp] theorem core_moveLatchM_seen (k : Core) (d : Nat) (x : U64) : (k.moveLatchM d x).seen = k.seen := rfl
@[simp] theorem core_moveLatchM_foreign (k : Core) (d : Nat) (x : U64) : (k.moveLatchM d x).foreign = k.foreign := rfl
@[simp] theorem core_moveLatchM_engW (k : Core) (d : Nat) (x : U64) : (k.moveLatchM d x).engW = k.engW := rfl
@[simp] theorem core_moveLatchM_raceW (k : Core) (d : Nat) (x : U64) : (k.moveLatchM d x).raceW = k.raceW := rfl
@[simp] theorem core_moveLatchM_icache (k : Core) (d : Nat) (x : U64) : (k.moveLatchM d x).icache = k.icache := rfl
@[simp] theorem core_moveLatchM_sysw (k : Core) (d : Nat) (x : U64) : (k.moveLatchM d x).sysw = k.sysw := rfl

@[simp] theorem core_pushA_status (k : Core) (v : V) : (k.pushA v).status = k.status := rfl
@[simp] theorem core_pushA_launch (k : Core) (v : V) : (k.pushA v).launch = k.launch := rfl
@[simp] theorem core_pushA_tid (k : Core) (v : V) : (k.pushA v).tid = k.tid := rfl
@[simp] theorem core_pushA_tcx (k : Core) (v : V) : (k.pushA v).tcx = k.tcx := rfl
@[simp] theorem core_pushA_ctx (k : Core) (v : V) : (k.pushA v).ctx = k.ctx := rfl
@[simp] theorem core_pushA_tagged (k : Core) (v : V) : (k.pushA v).tagged = k.tagged := rfl
@[simp] theorem core_pushA_pc (k : Core) (v : V) : (k.pushA v).pc = k.pc := rfl
@[simp] theorem core_pushA_cb (k : Core) (v : V) : (k.pushA v).cb = k.cb := rfl
@[simp] theorem core_pushA_lcyc (k : Core) (v : V) : (k.pushA v).lcyc = k.lcyc := rfl
@[simp] theorem core_pushA_clk (k : Core) (v : V) : (k.pushA v).clk = k.clk := rfl
@[simp] theorem core_pushA_phase (k : Core) (v : V) : (k.pushA v).phase = k.phase := rfl
@[simp] theorem core_pushA_g (k : Core) (v : V) : (k.pushA v).g = k.g := rfl
@[simp] theorem core_pushA_p (k : Core) (v : V) : (k.pushA v).p = k.p := rfl
@[simp] theorem core_pushA_v (k : Core) (v : V) : (k.pushA v).v = k.v := rfl
@[simp] theorem core_pushA_q (k : Core) (v : V) : (k.pushA v).q = k.q := rfl
@[simp] theorem core_pushA_t (k : Core) (v : V) : (k.pushA v).t = k.t := rfl
@[simp] theorem core_pushA_k (k : Core) (v : V) : (k.pushA v).k = k.k := rfl
@[simp] theorem core_pushA_b (k : Core) (v : V) : (k.pushA v).b = k.b := rfl
@[simp] theorem core_pushA_fm (k : Core) (v : V) : (k.pushA v).fm = k.fm := rfl
@[simp] theorem core_pushA_lgl (k : Core) (v : V) : (k.pushA v).lgl = k.lgl := rfl
@[simp] theorem core_pushA_cf (k : Core) (v : V) : (k.pushA v).cf = k.cf := rfl
@[simp] theorem core_pushA_cfo (k : Core) (v : V) : (k.pushA v).cfo = k.cfo := rfl
@[simp] theorem core_pushA_ss (k : Core) (v : V) : (k.pushA v).ss = k.ss := rfl
@[simp] theorem core_pushA_sres (k : Core) (v : V) : (k.pushA v).sres = k.sres := rfl
@[simp] theorem core_pushA_vres (k : Core) (v : V) : (k.pushA v).vres = k.vres := rfl
@[simp] theorem core_pushA_sop (k : Core) (v : V) : (k.pushA v).sop = k.sop := rfl
@[simp] theorem core_pushA_vop (k : Core) (v : V) : (k.pushA v).vop = k.vop := rfl
@[simp] theorem core_pushA_stL (k : Core) (v : V) : (k.pushA v).stL = k.stL := rfl
@[simp] theorem core_pushA_stX (k : Core) (v : V) : (k.pushA v).stX = k.stX := rfl
@[simp] theorem core_pushA_stM (k : Core) (v : V) : (k.pushA v).stM = k.stM := rfl
@[simp] theorem core_pushA_vmsel (k : Core) (v : V) : (k.pushA v).vmsel = k.vmsel := rfl
@[simp] theorem core_pushA_rstack (k : Core) (v : V) : (k.pushA v).rstack = k.rstack := rfl
@[simp] theorem core_pushA_loops (k : Core) (v : V) : (k.pushA v).loops = k.loops := rfl
@[simp] theorem core_pushA_inv (k : Core) (v : V) : (k.pushA v).inv = k.inv := rfl
@[simp] theorem core_pushA_arith (k : Core) (v : V) : (k.pushA v).arith = k.arith := rfl
@[simp] theorem core_pushA_recs (k : Core) (v : V) : (k.pushA v).recs = k.recs := rfl
@[simp] theorem core_pushA_rng (k : Core) (v : V) : (k.pushA v).rng = k.rng := rfl
@[simp] theorem core_pushA_rbq (k : Core) (v : V) : (k.pushA v).rbq = k.rbq := rfl
@[simp] theorem core_pushA_drec (k : Core) (v : V) : (k.pushA v).drec = k.drec := rfl
@[simp] theorem core_pushA_seq (k : Core) (v : V) : (k.pushA v).seq = k.seq := rfl
@[simp] theorem core_pushA_rep (k : Core) (v : V) : (k.pushA v).rep = k.rep := rfl
@[simp] theorem core_pushA_stall (k : Core) (v : V) : (k.pushA v).stall = k.stall := rfl
@[simp] theorem core_pushA_restarted (k : Core) (v : V) : (k.pushA v).restarted = k.restarted := rfl
@[simp] theorem core_pushA_xfer (k : Core) (v : V) : (k.pushA v).xfer = k.xfer := rfl
@[simp] theorem core_pushA_bundles (k : Core) (v : V) : (k.pushA v).bundles = k.bundles := rfl
@[simp] theorem core_pushA_met (k : Core) (v : V) : (k.pushA v).met = k.met := rfl
@[simp] theorem core_pushA_hold (k : Core) (v : V) : (k.pushA v).hold = k.hold := rfl
@[simp] theorem core_pushA_drainTo (k : Core) (v : V) : (k.pushA v).drainTo = k.drainTo := rfl
@[simp] theorem core_pushA_yieldFlag (k : Core) (v : V) : (k.pushA v).yieldFlag = k.yieldFlag := rfl
@[simp] theorem core_pushA_held (k : Core) (v : V) : (k.pushA v).held = k.held := rfl
@[simp] theorem core_pushA_heldTried (k : Core) (v : V) : (k.pushA v).heldTried = k.heldTried := rfl
@[simp] theorem core_pushA_softTick (k : Core) (v : V) : (k.pushA v).softTick = k.softTick := rfl
@[simp] theorem core_pushA_mops (k : Core) (v : V) : (k.pushA v).mops = k.mops := rfl
@[simp] theorem core_pushA_sops (k : Core) (v : V) : (k.pushA v).sops = k.sops := rfl
@[simp] theorem core_pushA_pend (k : Core) (v : V) : (k.pushA v).pend = k.pend := rfl
@[simp] theorem core_pushA_next (k : Core) (v : V) : (k.pushA v).next = k.next := rfl
@[simp] theorem core_pushA_mma (k : Core) (v : V) : (k.pushA v).mma = k.mma := rfl
@[simp] theorem core_pushA_mmaq (k : Core) (v : V) : (k.pushA v).mmaq = k.mmaq := rfl
@[simp] theorem core_pushA_wld (k : Core) (v : V) : (k.pushA v).wld = k.wld := rfl
@[simp] theorem core_pushA_blocks (k : Core) (v : V) : (k.pushA v).blocks = k.blocks := rfl
@[simp] theorem core_pushA_cmds (k : Core) (v : V) : (k.pushA v).cmds = k.cmds := rfl
@[simp] theorem core_pushA_eng (k : Core) (v : V) : (k.pushA v).eng = k.eng := rfl
@[simp] theorem core_pushA_engFrozen (k : Core) (v : V) : (k.pushA v).engFrozen = k.engFrozen := rfl
@[simp] theorem core_pushA_ecyc (k : Core) (v : V) : (k.pushA v).ecyc = k.ecyc := rfl
@[simp] theorem core_pushA_mTrig (k : Core) (v : V) : (k.pushA v).mTrig = k.mTrig := rfl
@[simp] theorem core_pushA_l1 (k : Core) (v : V) : (k.pushA v).l1 = k.l1 := rfl
@[simp] theorem core_pushA_l1Mark (k : Core) (v : V) : (k.pushA v).l1Mark = k.l1Mark := rfl
@[simp] theorem core_pushA_rdcMark (k : Core) (v : V) : (k.pushA v).rdcMark = k.rdcMark := rfl
@[simp] theorem core_pushA_fills (k : Core) (v : V) : (k.pushA v).fills = k.fills := rfl
@[simp] theorem core_pushA_tlb (k : Core) (v : V) : (k.pushA v).tlb = k.tlb := rfl
@[simp] theorem core_pushA_logL (k : Core) (v : V) : (k.pushA v).logL = k.logL := rfl
@[simp] theorem core_pushA_logA (k : Core) (v : V) : (k.pushA v).logA = k.logA := rfl
@[simp] theorem core_pushA_logOrd (k : Core) (v : V) : (k.pushA v).logOrd = k.logOrd := rfl
@[simp] theorem core_pushA_window (k : Core) (v : V) : (k.pushA v).window = k.window := rfl
@[simp] theorem core_pushA_weight (k : Core) (v : V) : (k.pushA v).weight = k.weight := rfl
@[simp] theorem core_pushA_freezeNext (k : Core) (v : V) : (k.pushA v).freezeNext = k.freezeNext := rfl
@[simp] theorem core_pushA_frz (k : Core) (v : V) : (k.pushA v).frz = k.frz := rfl
@[simp] theorem core_pushA_found (k : Core) (v : V) : (k.pushA v).found = k.found := rfl
@[simp] theorem core_pushA_poll (k : Core) (v : V) : (k.pushA v).poll = k.poll := rfl
@[simp] theorem core_pushA_crossed (k : Core) (v : V) : (k.pushA v).crossed = k.crossed := rfl
@[simp] theorem core_pushA_mac (k : Core) (v : V) : (k.pushA v).mac = k.mac := rfl
@[simp] theorem core_pushA_imageKey (k : Core) (v : V) : (k.pushA v).imageKey = k.imageKey := rfl
@[simp] theorem core_pushA_frzcnt (k : Core) (v : V) : (k.pushA v).frzcnt = k.frzcnt := rfl
@[simp] theorem core_pushA_throttled (k : Core) (v : V) : (k.pushA v).throttled = k.throttled := rfl
@[simp] theorem core_pushA_timingSub (k : Core) (v : V) : (k.pushA v).timingSub = k.timingSub := rfl
@[simp] theorem core_pushA_turn (k : Core) (v : V) : (k.pushA v).turn = k.turn := rfl
@[simp] theorem core_pushA_barrier (k : Core) (v : V) : (k.pushA v).barrier = k.barrier := rfl
@[simp] theorem core_pushA_cmdWait (k : Core) (v : V) : (k.pushA v).cmdWait = k.cmdWait := rfl
@[simp] theorem core_pushA_trapWait (k : Core) (v : V) : (k.pushA v).trapWait = k.trapWait := rfl
@[simp] theorem core_pushA_trapWs (k : Core) (v : V) : (k.pushA v).trapWs = k.trapWs := rfl
@[simp] theorem core_pushA_relBy (k : Core) (v : V) : (k.pushA v).relBy = k.relBy := rfl
@[simp] theorem core_pushA_freezeReq (k : Core) (v : V) : (k.pushA v).freezeReq = k.freezeReq := rfl
@[simp] theorem core_pushA_relScope (k : Core) (v : V) : (k.pushA v).relScope = k.relScope := rfl
@[simp] theorem core_pushA_relSurv (k : Core) (v : V) : (k.pushA v).relSurv = k.relSurv := rfl
@[simp] theorem core_pushA_haltEnd (k : Core) (v : V) : (k.pushA v).haltEnd = k.haltEnd := rfl
@[simp] theorem core_pushA_endMark (k : Core) (v : V) : (k.pushA v).endMark = k.endMark := rfl
@[simp] theorem core_pushA_stale (k : Core) (v : V) : (k.pushA v).stale = k.stale := rfl
@[simp] theorem core_pushA_hist (k : Core) (v : V) : (k.pushA v).hist = k.hist := rfl
@[simp] theorem core_pushA_seen (k : Core) (v : V) : (k.pushA v).seen = k.seen := rfl
@[simp] theorem core_pushA_foreign (k : Core) (v : V) : (k.pushA v).foreign = k.foreign := rfl
@[simp] theorem core_pushA_engW (k : Core) (v : V) : (k.pushA v).engW = k.engW := rfl
@[simp] theorem core_pushA_raceW (k : Core) (v : V) : (k.pushA v).raceW = k.raceW := rfl
@[simp] theorem core_pushA_icache (k : Core) (v : V) : (k.pushA v).icache = k.icache := rfl
@[simp] theorem core_pushA_sysw (k : Core) (v : V) : (k.pushA v).sysw = k.sysw := rfl

@[simp] theorem core_applyStrides_status (k : Core) (n : Nat) : (k.applyStrides n).status = k.status := rfl
@[simp] theorem core_applyStrides_launch (k : Core) (n : Nat) : (k.applyStrides n).launch = k.launch := rfl
@[simp] theorem core_applyStrides_tid (k : Core) (n : Nat) : (k.applyStrides n).tid = k.tid := rfl
@[simp] theorem core_applyStrides_tcx (k : Core) (n : Nat) : (k.applyStrides n).tcx = k.tcx := rfl
@[simp] theorem core_applyStrides_ctx (k : Core) (n : Nat) : (k.applyStrides n).ctx = k.ctx := rfl
@[simp] theorem core_applyStrides_tagged (k : Core) (n : Nat) : (k.applyStrides n).tagged = k.tagged := rfl
@[simp] theorem core_applyStrides_pc (k : Core) (n : Nat) : (k.applyStrides n).pc = k.pc := rfl
@[simp] theorem core_applyStrides_cb (k : Core) (n : Nat) : (k.applyStrides n).cb = k.cb := rfl
@[simp] theorem core_applyStrides_lcyc (k : Core) (n : Nat) : (k.applyStrides n).lcyc = k.lcyc := rfl
@[simp] theorem core_applyStrides_clk (k : Core) (n : Nat) : (k.applyStrides n).clk = k.clk := rfl
@[simp] theorem core_applyStrides_phase (k : Core) (n : Nat) : (k.applyStrides n).phase = k.phase := rfl
@[simp] theorem core_applyStrides_g (k : Core) (n : Nat) : (k.applyStrides n).g = k.g := rfl
@[simp] theorem core_applyStrides_p (k : Core) (n : Nat) : (k.applyStrides n).p = k.p := rfl
@[simp] theorem core_applyStrides_v (k : Core) (n : Nat) : (k.applyStrides n).v = k.v := rfl
@[simp] theorem core_applyStrides_q (k : Core) (n : Nat) : (k.applyStrides n).q = k.q := rfl
@[simp] theorem core_applyStrides_t (k : Core) (n : Nat) : (k.applyStrides n).t = k.t := rfl
@[simp] theorem core_applyStrides_k (k : Core) (n : Nat) : (k.applyStrides n).k = k.k := rfl
@[simp] theorem core_applyStrides_fm (k : Core) (n : Nat) : (k.applyStrides n).fm = k.fm := rfl
@[simp] theorem core_applyStrides_lgl (k : Core) (n : Nat) : (k.applyStrides n).lgl = k.lgl := rfl
@[simp] theorem core_applyStrides_cf (k : Core) (n : Nat) : (k.applyStrides n).cf = k.cf := rfl
@[simp] theorem core_applyStrides_cfo (k : Core) (n : Nat) : (k.applyStrides n).cfo = k.cfo := rfl
@[simp] theorem core_applyStrides_ss (k : Core) (n : Nat) : (k.applyStrides n).ss = k.ss := rfl
@[simp] theorem core_applyStrides_sres (k : Core) (n : Nat) : (k.applyStrides n).sres = k.sres := rfl
@[simp] theorem core_applyStrides_vres (k : Core) (n : Nat) : (k.applyStrides n).vres = k.vres := rfl
@[simp] theorem core_applyStrides_sop (k : Core) (n : Nat) : (k.applyStrides n).sop = k.sop := rfl
@[simp] theorem core_applyStrides_vop (k : Core) (n : Nat) : (k.applyStrides n).vop = k.vop := rfl
@[simp] theorem core_applyStrides_stL (k : Core) (n : Nat) : (k.applyStrides n).stL = k.stL := rfl
@[simp] theorem core_applyStrides_stX (k : Core) (n : Nat) : (k.applyStrides n).stX = k.stX := rfl
@[simp] theorem core_applyStrides_stM (k : Core) (n : Nat) : (k.applyStrides n).stM = k.stM := rfl
@[simp] theorem core_applyStrides_vmsel (k : Core) (n : Nat) : (k.applyStrides n).vmsel = k.vmsel := rfl
@[simp] theorem core_applyStrides_rstack (k : Core) (n : Nat) : (k.applyStrides n).rstack = k.rstack := rfl
@[simp] theorem core_applyStrides_loops (k : Core) (n : Nat) : (k.applyStrides n).loops = k.loops := rfl
@[simp] theorem core_applyStrides_inv (k : Core) (n : Nat) : (k.applyStrides n).inv = k.inv := rfl
@[simp] theorem core_applyStrides_arith (k : Core) (n : Nat) : (k.applyStrides n).arith = k.arith := rfl
@[simp] theorem core_applyStrides_recs (k : Core) (n : Nat) : (k.applyStrides n).recs = k.recs := rfl
@[simp] theorem core_applyStrides_rng (k : Core) (n : Nat) : (k.applyStrides n).rng = k.rng := rfl
@[simp] theorem core_applyStrides_rbq (k : Core) (n : Nat) : (k.applyStrides n).rbq = k.rbq := rfl
@[simp] theorem core_applyStrides_arow (k : Core) (n : Nat) : (k.applyStrides n).arow = k.arow := rfl
@[simp] theorem core_applyStrides_aptr (k : Core) (n : Nat) : (k.applyStrides n).aptr = k.aptr := rfl
@[simp] theorem core_applyStrides_drec (k : Core) (n : Nat) : (k.applyStrides n).drec = k.drec := rfl
@[simp] theorem core_applyStrides_seq (k : Core) (n : Nat) : (k.applyStrides n).seq = k.seq := rfl
@[simp] theorem core_applyStrides_rep (k : Core) (n : Nat) : (k.applyStrides n).rep = k.rep := rfl
@[simp] theorem core_applyStrides_stall (k : Core) (n : Nat) : (k.applyStrides n).stall = k.stall := rfl
@[simp] theorem core_applyStrides_restarted (k : Core) (n : Nat) : (k.applyStrides n).restarted = k.restarted := rfl
@[simp] theorem core_applyStrides_xfer (k : Core) (n : Nat) : (k.applyStrides n).xfer = k.xfer := rfl
@[simp] theorem core_applyStrides_bundles (k : Core) (n : Nat) : (k.applyStrides n).bundles = k.bundles := rfl
@[simp] theorem core_applyStrides_met (k : Core) (n : Nat) : (k.applyStrides n).met = k.met := rfl
@[simp] theorem core_applyStrides_hold (k : Core) (n : Nat) : (k.applyStrides n).hold = k.hold := rfl
@[simp] theorem core_applyStrides_drainTo (k : Core) (n : Nat) : (k.applyStrides n).drainTo = k.drainTo := rfl
@[simp] theorem core_applyStrides_yieldFlag (k : Core) (n : Nat) : (k.applyStrides n).yieldFlag = k.yieldFlag := rfl
@[simp] theorem core_applyStrides_held (k : Core) (n : Nat) : (k.applyStrides n).held = k.held := rfl
@[simp] theorem core_applyStrides_heldTried (k : Core) (n : Nat) : (k.applyStrides n).heldTried = k.heldTried := rfl
@[simp] theorem core_applyStrides_softTick (k : Core) (n : Nat) : (k.applyStrides n).softTick = k.softTick := rfl
@[simp] theorem core_applyStrides_mops (k : Core) (n : Nat) : (k.applyStrides n).mops = k.mops := rfl
@[simp] theorem core_applyStrides_sops (k : Core) (n : Nat) : (k.applyStrides n).sops = k.sops := rfl
@[simp] theorem core_applyStrides_pend (k : Core) (n : Nat) : (k.applyStrides n).pend = k.pend := rfl
@[simp] theorem core_applyStrides_next (k : Core) (n : Nat) : (k.applyStrides n).next = k.next := rfl
@[simp] theorem core_applyStrides_mma (k : Core) (n : Nat) : (k.applyStrides n).mma = k.mma := rfl
@[simp] theorem core_applyStrides_mmaq (k : Core) (n : Nat) : (k.applyStrides n).mmaq = k.mmaq := rfl
@[simp] theorem core_applyStrides_wld (k : Core) (n : Nat) : (k.applyStrides n).wld = k.wld := rfl
@[simp] theorem core_applyStrides_blocks (k : Core) (n : Nat) : (k.applyStrides n).blocks = k.blocks := rfl
@[simp] theorem core_applyStrides_cmds (k : Core) (n : Nat) : (k.applyStrides n).cmds = k.cmds := rfl
@[simp] theorem core_applyStrides_eng (k : Core) (n : Nat) : (k.applyStrides n).eng = k.eng := rfl
@[simp] theorem core_applyStrides_engFrozen (k : Core) (n : Nat) : (k.applyStrides n).engFrozen = k.engFrozen := rfl
@[simp] theorem core_applyStrides_ecyc (k : Core) (n : Nat) : (k.applyStrides n).ecyc = k.ecyc := rfl
@[simp] theorem core_applyStrides_mTrig (k : Core) (n : Nat) : (k.applyStrides n).mTrig = k.mTrig := rfl
@[simp] theorem core_applyStrides_l1 (k : Core) (n : Nat) : (k.applyStrides n).l1 = k.l1 := rfl
@[simp] theorem core_applyStrides_l1Mark (k : Core) (n : Nat) : (k.applyStrides n).l1Mark = k.l1Mark := rfl
@[simp] theorem core_applyStrides_rdcMark (k : Core) (n : Nat) : (k.applyStrides n).rdcMark = k.rdcMark := rfl
@[simp] theorem core_applyStrides_fills (k : Core) (n : Nat) : (k.applyStrides n).fills = k.fills := rfl
@[simp] theorem core_applyStrides_tlb (k : Core) (n : Nat) : (k.applyStrides n).tlb = k.tlb := rfl
@[simp] theorem core_applyStrides_logL (k : Core) (n : Nat) : (k.applyStrides n).logL = k.logL := rfl
@[simp] theorem core_applyStrides_logA (k : Core) (n : Nat) : (k.applyStrides n).logA = k.logA := rfl
@[simp] theorem core_applyStrides_logOrd (k : Core) (n : Nat) : (k.applyStrides n).logOrd = k.logOrd := rfl
@[simp] theorem core_applyStrides_window (k : Core) (n : Nat) : (k.applyStrides n).window = k.window := rfl
@[simp] theorem core_applyStrides_weight (k : Core) (n : Nat) : (k.applyStrides n).weight = k.weight := rfl
@[simp] theorem core_applyStrides_freezeNext (k : Core) (n : Nat) : (k.applyStrides n).freezeNext = k.freezeNext := rfl
@[simp] theorem core_applyStrides_frz (k : Core) (n : Nat) : (k.applyStrides n).frz = k.frz := rfl
@[simp] theorem core_applyStrides_found (k : Core) (n : Nat) : (k.applyStrides n).found = k.found := rfl
@[simp] theorem core_applyStrides_poll (k : Core) (n : Nat) : (k.applyStrides n).poll = k.poll := rfl
@[simp] theorem core_applyStrides_crossed (k : Core) (n : Nat) : (k.applyStrides n).crossed = k.crossed := rfl
@[simp] theorem core_applyStrides_mac (k : Core) (n : Nat) : (k.applyStrides n).mac = k.mac := rfl
@[simp] theorem core_applyStrides_imageKey (k : Core) (n : Nat) : (k.applyStrides n).imageKey = k.imageKey := rfl
@[simp] theorem core_applyStrides_frzcnt (k : Core) (n : Nat) : (k.applyStrides n).frzcnt = k.frzcnt := rfl
@[simp] theorem core_applyStrides_throttled (k : Core) (n : Nat) : (k.applyStrides n).throttled = k.throttled := rfl
@[simp] theorem core_applyStrides_timingSub (k : Core) (n : Nat) : (k.applyStrides n).timingSub = k.timingSub := rfl
@[simp] theorem core_applyStrides_turn (k : Core) (n : Nat) : (k.applyStrides n).turn = k.turn := rfl
@[simp] theorem core_applyStrides_barrier (k : Core) (n : Nat) : (k.applyStrides n).barrier = k.barrier := rfl
@[simp] theorem core_applyStrides_cmdWait (k : Core) (n : Nat) : (k.applyStrides n).cmdWait = k.cmdWait := rfl
@[simp] theorem core_applyStrides_trapWait (k : Core) (n : Nat) : (k.applyStrides n).trapWait = k.trapWait := rfl
@[simp] theorem core_applyStrides_trapWs (k : Core) (n : Nat) : (k.applyStrides n).trapWs = k.trapWs := rfl
@[simp] theorem core_applyStrides_relBy (k : Core) (n : Nat) : (k.applyStrides n).relBy = k.relBy := rfl
@[simp] theorem core_applyStrides_freezeReq (k : Core) (n : Nat) : (k.applyStrides n).freezeReq = k.freezeReq := rfl
@[simp] theorem core_applyStrides_relScope (k : Core) (n : Nat) : (k.applyStrides n).relScope = k.relScope := rfl
@[simp] theorem core_applyStrides_relSurv (k : Core) (n : Nat) : (k.applyStrides n).relSurv = k.relSurv := rfl
@[simp] theorem core_applyStrides_haltEnd (k : Core) (n : Nat) : (k.applyStrides n).haltEnd = k.haltEnd := rfl
@[simp] theorem core_applyStrides_endMark (k : Core) (n : Nat) : (k.applyStrides n).endMark = k.endMark := rfl
@[simp] theorem core_applyStrides_stale (k : Core) (n : Nat) : (k.applyStrides n).stale = k.stale := rfl
@[simp] theorem core_applyStrides_hist (k : Core) (n : Nat) : (k.applyStrides n).hist = k.hist := rfl
@[simp] theorem core_applyStrides_seen (k : Core) (n : Nat) : (k.applyStrides n).seen = k.seen := rfl
@[simp] theorem core_applyStrides_foreign (k : Core) (n : Nat) : (k.applyStrides n).foreign = k.foreign := rfl
@[simp] theorem core_applyStrides_engW (k : Core) (n : Nat) : (k.applyStrides n).engW = k.engW := rfl
@[simp] theorem core_applyStrides_raceW (k : Core) (n : Nat) : (k.applyStrides n).raceW = k.raceW := rfl
@[simp] theorem core_applyStrides_icache (k : Core) (n : Nat) : (k.applyStrides n).icache = k.icache := rfl
@[simp] theorem core_applyStrides_sysw (k : Core) (n : Nat) : (k.applyStrides n).sysw = k.sysw := rfl

@[simp] theorem core_setOp_status (k : Core) (o : MOp) : (k.setOp o).status = k.status := rfl
@[simp] theorem core_setOp_launch (k : Core) (o : MOp) : (k.setOp o).launch = k.launch := rfl
@[simp] theorem core_setOp_tid (k : Core) (o : MOp) : (k.setOp o).tid = k.tid := rfl
@[simp] theorem core_setOp_tcx (k : Core) (o : MOp) : (k.setOp o).tcx = k.tcx := rfl
@[simp] theorem core_setOp_ctx (k : Core) (o : MOp) : (k.setOp o).ctx = k.ctx := rfl
@[simp] theorem core_setOp_tagged (k : Core) (o : MOp) : (k.setOp o).tagged = k.tagged := rfl
@[simp] theorem core_setOp_pc (k : Core) (o : MOp) : (k.setOp o).pc = k.pc := rfl
@[simp] theorem core_setOp_cb (k : Core) (o : MOp) : (k.setOp o).cb = k.cb := rfl
@[simp] theorem core_setOp_lcyc (k : Core) (o : MOp) : (k.setOp o).lcyc = k.lcyc := rfl
@[simp] theorem core_setOp_clk (k : Core) (o : MOp) : (k.setOp o).clk = k.clk := rfl
@[simp] theorem core_setOp_phase (k : Core) (o : MOp) : (k.setOp o).phase = k.phase := rfl
@[simp] theorem core_setOp_g (k : Core) (o : MOp) : (k.setOp o).g = k.g := rfl
@[simp] theorem core_setOp_p (k : Core) (o : MOp) : (k.setOp o).p = k.p := rfl
@[simp] theorem core_setOp_v (k : Core) (o : MOp) : (k.setOp o).v = k.v := rfl
@[simp] theorem core_setOp_q (k : Core) (o : MOp) : (k.setOp o).q = k.q := rfl
@[simp] theorem core_setOp_t (k : Core) (o : MOp) : (k.setOp o).t = k.t := rfl
@[simp] theorem core_setOp_k (k : Core) (o : MOp) : (k.setOp o).k = k.k := rfl
@[simp] theorem core_setOp_b (k : Core) (o : MOp) : (k.setOp o).b = k.b := rfl
@[simp] theorem core_setOp_fm (k : Core) (o : MOp) : (k.setOp o).fm = k.fm := rfl
@[simp] theorem core_setOp_lgl (k : Core) (o : MOp) : (k.setOp o).lgl = k.lgl := rfl
@[simp] theorem core_setOp_cf (k : Core) (o : MOp) : (k.setOp o).cf = k.cf := rfl
@[simp] theorem core_setOp_cfo (k : Core) (o : MOp) : (k.setOp o).cfo = k.cfo := rfl
@[simp] theorem core_setOp_ss (k : Core) (o : MOp) : (k.setOp o).ss = k.ss := rfl
@[simp] theorem core_setOp_sres (k : Core) (o : MOp) : (k.setOp o).sres = k.sres := rfl
@[simp] theorem core_setOp_vres (k : Core) (o : MOp) : (k.setOp o).vres = k.vres := rfl
@[simp] theorem core_setOp_sop (k : Core) (o : MOp) : (k.setOp o).sop = k.sop := rfl
@[simp] theorem core_setOp_vop (k : Core) (o : MOp) : (k.setOp o).vop = k.vop := rfl
@[simp] theorem core_setOp_stL (k : Core) (o : MOp) : (k.setOp o).stL = k.stL := rfl
@[simp] theorem core_setOp_stX (k : Core) (o : MOp) : (k.setOp o).stX = k.stX := rfl
@[simp] theorem core_setOp_stM (k : Core) (o : MOp) : (k.setOp o).stM = k.stM := rfl
@[simp] theorem core_setOp_vmsel (k : Core) (o : MOp) : (k.setOp o).vmsel = k.vmsel := rfl
@[simp] theorem core_setOp_rstack (k : Core) (o : MOp) : (k.setOp o).rstack = k.rstack := rfl
@[simp] theorem core_setOp_loops (k : Core) (o : MOp) : (k.setOp o).loops = k.loops := rfl
@[simp] theorem core_setOp_inv (k : Core) (o : MOp) : (k.setOp o).inv = k.inv := rfl
@[simp] theorem core_setOp_arith (k : Core) (o : MOp) : (k.setOp o).arith = k.arith := rfl
@[simp] theorem core_setOp_recs (k : Core) (o : MOp) : (k.setOp o).recs = k.recs := rfl
@[simp] theorem core_setOp_rng (k : Core) (o : MOp) : (k.setOp o).rng = k.rng := rfl
@[simp] theorem core_setOp_rbq (k : Core) (o : MOp) : (k.setOp o).rbq = k.rbq := rfl
@[simp] theorem core_setOp_arow (k : Core) (o : MOp) : (k.setOp o).arow = k.arow := rfl
@[simp] theorem core_setOp_aptr (k : Core) (o : MOp) : (k.setOp o).aptr = k.aptr := rfl
@[simp] theorem core_setOp_drec (k : Core) (o : MOp) : (k.setOp o).drec = k.drec := rfl
@[simp] theorem core_setOp_seq (k : Core) (o : MOp) : (k.setOp o).seq = k.seq := rfl
@[simp] theorem core_setOp_rep (k : Core) (o : MOp) : (k.setOp o).rep = k.rep := rfl
@[simp] theorem core_setOp_stall (k : Core) (o : MOp) : (k.setOp o).stall = k.stall := rfl
@[simp] theorem core_setOp_restarted (k : Core) (o : MOp) : (k.setOp o).restarted = k.restarted := rfl
@[simp] theorem core_setOp_xfer (k : Core) (o : MOp) : (k.setOp o).xfer = k.xfer := rfl
@[simp] theorem core_setOp_bundles (k : Core) (o : MOp) : (k.setOp o).bundles = k.bundles := rfl
@[simp] theorem core_setOp_met (k : Core) (o : MOp) : (k.setOp o).met = k.met := rfl
@[simp] theorem core_setOp_hold (k : Core) (o : MOp) : (k.setOp o).hold = k.hold := rfl
@[simp] theorem core_setOp_drainTo (k : Core) (o : MOp) : (k.setOp o).drainTo = k.drainTo := rfl
@[simp] theorem core_setOp_yieldFlag (k : Core) (o : MOp) : (k.setOp o).yieldFlag = k.yieldFlag := rfl
@[simp] theorem core_setOp_held (k : Core) (o : MOp) : (k.setOp o).held = k.held := rfl
@[simp] theorem core_setOp_heldTried (k : Core) (o : MOp) : (k.setOp o).heldTried = k.heldTried := rfl
@[simp] theorem core_setOp_softTick (k : Core) (o : MOp) : (k.setOp o).softTick = k.softTick := rfl
@[simp] theorem core_setOp_sops (k : Core) (o : MOp) : (k.setOp o).sops = k.sops := rfl
@[simp] theorem core_setOp_pend (k : Core) (o : MOp) : (k.setOp o).pend = k.pend := rfl
@[simp] theorem core_setOp_next (k : Core) (o : MOp) : (k.setOp o).next = k.next := rfl
@[simp] theorem core_setOp_mma (k : Core) (o : MOp) : (k.setOp o).mma = k.mma := rfl
@[simp] theorem core_setOp_mmaq (k : Core) (o : MOp) : (k.setOp o).mmaq = k.mmaq := rfl
@[simp] theorem core_setOp_wld (k : Core) (o : MOp) : (k.setOp o).wld = k.wld := rfl
@[simp] theorem core_setOp_blocks (k : Core) (o : MOp) : (k.setOp o).blocks = k.blocks := rfl
@[simp] theorem core_setOp_cmds (k : Core) (o : MOp) : (k.setOp o).cmds = k.cmds := rfl
@[simp] theorem core_setOp_eng (k : Core) (o : MOp) : (k.setOp o).eng = k.eng := rfl
@[simp] theorem core_setOp_engFrozen (k : Core) (o : MOp) : (k.setOp o).engFrozen = k.engFrozen := rfl
@[simp] theorem core_setOp_ecyc (k : Core) (o : MOp) : (k.setOp o).ecyc = k.ecyc := rfl
@[simp] theorem core_setOp_mTrig (k : Core) (o : MOp) : (k.setOp o).mTrig = k.mTrig := rfl
@[simp] theorem core_setOp_l1 (k : Core) (o : MOp) : (k.setOp o).l1 = k.l1 := rfl
@[simp] theorem core_setOp_l1Mark (k : Core) (o : MOp) : (k.setOp o).l1Mark = k.l1Mark := rfl
@[simp] theorem core_setOp_rdcMark (k : Core) (o : MOp) : (k.setOp o).rdcMark = k.rdcMark := rfl
@[simp] theorem core_setOp_fills (k : Core) (o : MOp) : (k.setOp o).fills = k.fills := rfl
@[simp] theorem core_setOp_tlb (k : Core) (o : MOp) : (k.setOp o).tlb = k.tlb := rfl
@[simp] theorem core_setOp_logL (k : Core) (o : MOp) : (k.setOp o).logL = k.logL := rfl
@[simp] theorem core_setOp_logA (k : Core) (o : MOp) : (k.setOp o).logA = k.logA := rfl
@[simp] theorem core_setOp_logOrd (k : Core) (o : MOp) : (k.setOp o).logOrd = k.logOrd := rfl
@[simp] theorem core_setOp_window (k : Core) (o : MOp) : (k.setOp o).window = k.window := rfl
@[simp] theorem core_setOp_weight (k : Core) (o : MOp) : (k.setOp o).weight = k.weight := rfl
@[simp] theorem core_setOp_freezeNext (k : Core) (o : MOp) : (k.setOp o).freezeNext = k.freezeNext := rfl
@[simp] theorem core_setOp_frz (k : Core) (o : MOp) : (k.setOp o).frz = k.frz := rfl
@[simp] theorem core_setOp_found (k : Core) (o : MOp) : (k.setOp o).found = k.found := rfl
@[simp] theorem core_setOp_poll (k : Core) (o : MOp) : (k.setOp o).poll = k.poll := rfl
@[simp] theorem core_setOp_crossed (k : Core) (o : MOp) : (k.setOp o).crossed = k.crossed := rfl
@[simp] theorem core_setOp_mac (k : Core) (o : MOp) : (k.setOp o).mac = k.mac := rfl
@[simp] theorem core_setOp_imageKey (k : Core) (o : MOp) : (k.setOp o).imageKey = k.imageKey := rfl
@[simp] theorem core_setOp_frzcnt (k : Core) (o : MOp) : (k.setOp o).frzcnt = k.frzcnt := rfl
@[simp] theorem core_setOp_throttled (k : Core) (o : MOp) : (k.setOp o).throttled = k.throttled := rfl
@[simp] theorem core_setOp_timingSub (k : Core) (o : MOp) : (k.setOp o).timingSub = k.timingSub := rfl
@[simp] theorem core_setOp_turn (k : Core) (o : MOp) : (k.setOp o).turn = k.turn := rfl
@[simp] theorem core_setOp_barrier (k : Core) (o : MOp) : (k.setOp o).barrier = k.barrier := rfl
@[simp] theorem core_setOp_cmdWait (k : Core) (o : MOp) : (k.setOp o).cmdWait = k.cmdWait := rfl
@[simp] theorem core_setOp_trapWait (k : Core) (o : MOp) : (k.setOp o).trapWait = k.trapWait := rfl
@[simp] theorem core_setOp_trapWs (k : Core) (o : MOp) : (k.setOp o).trapWs = k.trapWs := rfl
@[simp] theorem core_setOp_relBy (k : Core) (o : MOp) : (k.setOp o).relBy = k.relBy := rfl
@[simp] theorem core_setOp_freezeReq (k : Core) (o : MOp) : (k.setOp o).freezeReq = k.freezeReq := rfl
@[simp] theorem core_setOp_relScope (k : Core) (o : MOp) : (k.setOp o).relScope = k.relScope := rfl
@[simp] theorem core_setOp_relSurv (k : Core) (o : MOp) : (k.setOp o).relSurv = k.relSurv := rfl
@[simp] theorem core_setOp_haltEnd (k : Core) (o : MOp) : (k.setOp o).haltEnd = k.haltEnd := rfl
@[simp] theorem core_setOp_endMark (k : Core) (o : MOp) : (k.setOp o).endMark = k.endMark := rfl
@[simp] theorem core_setOp_stale (k : Core) (o : MOp) : (k.setOp o).stale = k.stale := rfl
@[simp] theorem core_setOp_hist (k : Core) (o : MOp) : (k.setOp o).hist = k.hist := rfl
@[simp] theorem core_setOp_seen (k : Core) (o : MOp) : (k.setOp o).seen = k.seen := rfl
@[simp] theorem core_setOp_foreign (k : Core) (o : MOp) : (k.setOp o).foreign = k.foreign := rfl
@[simp] theorem core_setOp_engW (k : Core) (o : MOp) : (k.setOp o).engW = k.engW := rfl
@[simp] theorem core_setOp_raceW (k : Core) (o : MOp) : (k.setOp o).raceW = k.raceW := rfl
@[simp] theorem core_setOp_icache (k : Core) (o : MOp) : (k.setOp o).icache = k.icache := rfl
@[simp] theorem core_setOp_sysw (k : Core) (o : MOp) : (k.setOp o).sysw = k.sysw := rfl

@[simp] theorem core_setCmd_status (k : Core) (x : Cmd) : (k.setCmd x).status = k.status := rfl
@[simp] theorem core_setCmd_launch (k : Core) (x : Cmd) : (k.setCmd x).launch = k.launch := rfl
@[simp] theorem core_setCmd_tid (k : Core) (x : Cmd) : (k.setCmd x).tid = k.tid := rfl
@[simp] theorem core_setCmd_tcx (k : Core) (x : Cmd) : (k.setCmd x).tcx = k.tcx := rfl
@[simp] theorem core_setCmd_ctx (k : Core) (x : Cmd) : (k.setCmd x).ctx = k.ctx := rfl
@[simp] theorem core_setCmd_tagged (k : Core) (x : Cmd) : (k.setCmd x).tagged = k.tagged := rfl
@[simp] theorem core_setCmd_pc (k : Core) (x : Cmd) : (k.setCmd x).pc = k.pc := rfl
@[simp] theorem core_setCmd_cb (k : Core) (x : Cmd) : (k.setCmd x).cb = k.cb := rfl
@[simp] theorem core_setCmd_lcyc (k : Core) (x : Cmd) : (k.setCmd x).lcyc = k.lcyc := rfl
@[simp] theorem core_setCmd_clk (k : Core) (x : Cmd) : (k.setCmd x).clk = k.clk := rfl
@[simp] theorem core_setCmd_phase (k : Core) (x : Cmd) : (k.setCmd x).phase = k.phase := rfl
@[simp] theorem core_setCmd_g (k : Core) (x : Cmd) : (k.setCmd x).g = k.g := rfl
@[simp] theorem core_setCmd_p (k : Core) (x : Cmd) : (k.setCmd x).p = k.p := rfl
@[simp] theorem core_setCmd_v (k : Core) (x : Cmd) : (k.setCmd x).v = k.v := rfl
@[simp] theorem core_setCmd_q (k : Core) (x : Cmd) : (k.setCmd x).q = k.q := rfl
@[simp] theorem core_setCmd_t (k : Core) (x : Cmd) : (k.setCmd x).t = k.t := rfl
@[simp] theorem core_setCmd_k (k : Core) (x : Cmd) : (k.setCmd x).k = k.k := rfl
@[simp] theorem core_setCmd_b (k : Core) (x : Cmd) : (k.setCmd x).b = k.b := rfl
@[simp] theorem core_setCmd_fm (k : Core) (x : Cmd) : (k.setCmd x).fm = k.fm := rfl
@[simp] theorem core_setCmd_lgl (k : Core) (x : Cmd) : (k.setCmd x).lgl = k.lgl := rfl
@[simp] theorem core_setCmd_cf (k : Core) (x : Cmd) : (k.setCmd x).cf = k.cf := rfl
@[simp] theorem core_setCmd_cfo (k : Core) (x : Cmd) : (k.setCmd x).cfo = k.cfo := rfl
@[simp] theorem core_setCmd_ss (k : Core) (x : Cmd) : (k.setCmd x).ss = k.ss := rfl
@[simp] theorem core_setCmd_sres (k : Core) (x : Cmd) : (k.setCmd x).sres = k.sres := rfl
@[simp] theorem core_setCmd_vres (k : Core) (x : Cmd) : (k.setCmd x).vres = k.vres := rfl
@[simp] theorem core_setCmd_sop (k : Core) (x : Cmd) : (k.setCmd x).sop = k.sop := rfl
@[simp] theorem core_setCmd_vop (k : Core) (x : Cmd) : (k.setCmd x).vop = k.vop := rfl
@[simp] theorem core_setCmd_stL (k : Core) (x : Cmd) : (k.setCmd x).stL = k.stL := rfl
@[simp] theorem core_setCmd_stX (k : Core) (x : Cmd) : (k.setCmd x).stX = k.stX := rfl
@[simp] theorem core_setCmd_stM (k : Core) (x : Cmd) : (k.setCmd x).stM = k.stM := rfl
@[simp] theorem core_setCmd_vmsel (k : Core) (x : Cmd) : (k.setCmd x).vmsel = k.vmsel := rfl
@[simp] theorem core_setCmd_rstack (k : Core) (x : Cmd) : (k.setCmd x).rstack = k.rstack := rfl
@[simp] theorem core_setCmd_loops (k : Core) (x : Cmd) : (k.setCmd x).loops = k.loops := rfl
@[simp] theorem core_setCmd_inv (k : Core) (x : Cmd) : (k.setCmd x).inv = k.inv := rfl
@[simp] theorem core_setCmd_arith (k : Core) (x : Cmd) : (k.setCmd x).arith = k.arith := rfl
@[simp] theorem core_setCmd_recs (k : Core) (x : Cmd) : (k.setCmd x).recs = k.recs := rfl
@[simp] theorem core_setCmd_rng (k : Core) (x : Cmd) : (k.setCmd x).rng = k.rng := rfl
@[simp] theorem core_setCmd_rbq (k : Core) (x : Cmd) : (k.setCmd x).rbq = k.rbq := rfl
@[simp] theorem core_setCmd_arow (k : Core) (x : Cmd) : (k.setCmd x).arow = k.arow := rfl
@[simp] theorem core_setCmd_aptr (k : Core) (x : Cmd) : (k.setCmd x).aptr = k.aptr := rfl
@[simp] theorem core_setCmd_drec (k : Core) (x : Cmd) : (k.setCmd x).drec = k.drec := rfl
@[simp] theorem core_setCmd_seq (k : Core) (x : Cmd) : (k.setCmd x).seq = k.seq := rfl
@[simp] theorem core_setCmd_rep (k : Core) (x : Cmd) : (k.setCmd x).rep = k.rep := rfl
@[simp] theorem core_setCmd_stall (k : Core) (x : Cmd) : (k.setCmd x).stall = k.stall := rfl
@[simp] theorem core_setCmd_restarted (k : Core) (x : Cmd) : (k.setCmd x).restarted = k.restarted := rfl
@[simp] theorem core_setCmd_xfer (k : Core) (x : Cmd) : (k.setCmd x).xfer = k.xfer := rfl
@[simp] theorem core_setCmd_bundles (k : Core) (x : Cmd) : (k.setCmd x).bundles = k.bundles := rfl
@[simp] theorem core_setCmd_met (k : Core) (x : Cmd) : (k.setCmd x).met = k.met := rfl
@[simp] theorem core_setCmd_hold (k : Core) (x : Cmd) : (k.setCmd x).hold = k.hold := rfl
@[simp] theorem core_setCmd_drainTo (k : Core) (x : Cmd) : (k.setCmd x).drainTo = k.drainTo := rfl
@[simp] theorem core_setCmd_yieldFlag (k : Core) (x : Cmd) : (k.setCmd x).yieldFlag = k.yieldFlag := rfl
@[simp] theorem core_setCmd_held (k : Core) (x : Cmd) : (k.setCmd x).held = k.held := rfl
@[simp] theorem core_setCmd_heldTried (k : Core) (x : Cmd) : (k.setCmd x).heldTried = k.heldTried := rfl
@[simp] theorem core_setCmd_softTick (k : Core) (x : Cmd) : (k.setCmd x).softTick = k.softTick := rfl
@[simp] theorem core_setCmd_mops (k : Core) (x : Cmd) : (k.setCmd x).mops = k.mops := rfl
@[simp] theorem core_setCmd_sops (k : Core) (x : Cmd) : (k.setCmd x).sops = k.sops := rfl
@[simp] theorem core_setCmd_pend (k : Core) (x : Cmd) : (k.setCmd x).pend = k.pend := rfl
@[simp] theorem core_setCmd_next (k : Core) (x : Cmd) : (k.setCmd x).next = k.next := rfl
@[simp] theorem core_setCmd_mma (k : Core) (x : Cmd) : (k.setCmd x).mma = k.mma := rfl
@[simp] theorem core_setCmd_mmaq (k : Core) (x : Cmd) : (k.setCmd x).mmaq = k.mmaq := rfl
@[simp] theorem core_setCmd_wld (k : Core) (x : Cmd) : (k.setCmd x).wld = k.wld := rfl
@[simp] theorem core_setCmd_blocks (k : Core) (x : Cmd) : (k.setCmd x).blocks = k.blocks := rfl
@[simp] theorem core_setCmd_eng (k : Core) (x : Cmd) : (k.setCmd x).eng = k.eng := rfl
@[simp] theorem core_setCmd_engFrozen (k : Core) (x : Cmd) : (k.setCmd x).engFrozen = k.engFrozen := rfl
@[simp] theorem core_setCmd_ecyc (k : Core) (x : Cmd) : (k.setCmd x).ecyc = k.ecyc := rfl
@[simp] theorem core_setCmd_mTrig (k : Core) (x : Cmd) : (k.setCmd x).mTrig = k.mTrig := rfl
@[simp] theorem core_setCmd_l1 (k : Core) (x : Cmd) : (k.setCmd x).l1 = k.l1 := rfl
@[simp] theorem core_setCmd_l1Mark (k : Core) (x : Cmd) : (k.setCmd x).l1Mark = k.l1Mark := rfl
@[simp] theorem core_setCmd_rdcMark (k : Core) (x : Cmd) : (k.setCmd x).rdcMark = k.rdcMark := rfl
@[simp] theorem core_setCmd_fills (k : Core) (x : Cmd) : (k.setCmd x).fills = k.fills := rfl
@[simp] theorem core_setCmd_tlb (k : Core) (x : Cmd) : (k.setCmd x).tlb = k.tlb := rfl
@[simp] theorem core_setCmd_logL (k : Core) (x : Cmd) : (k.setCmd x).logL = k.logL := rfl
@[simp] theorem core_setCmd_logA (k : Core) (x : Cmd) : (k.setCmd x).logA = k.logA := rfl
@[simp] theorem core_setCmd_logOrd (k : Core) (x : Cmd) : (k.setCmd x).logOrd = k.logOrd := rfl
@[simp] theorem core_setCmd_window (k : Core) (x : Cmd) : (k.setCmd x).window = k.window := rfl
@[simp] theorem core_setCmd_weight (k : Core) (x : Cmd) : (k.setCmd x).weight = k.weight := rfl
@[simp] theorem core_setCmd_freezeNext (k : Core) (x : Cmd) : (k.setCmd x).freezeNext = k.freezeNext := rfl
@[simp] theorem core_setCmd_frz (k : Core) (x : Cmd) : (k.setCmd x).frz = k.frz := rfl
@[simp] theorem core_setCmd_found (k : Core) (x : Cmd) : (k.setCmd x).found = k.found := rfl
@[simp] theorem core_setCmd_poll (k : Core) (x : Cmd) : (k.setCmd x).poll = k.poll := rfl
@[simp] theorem core_setCmd_crossed (k : Core) (x : Cmd) : (k.setCmd x).crossed = k.crossed := rfl
@[simp] theorem core_setCmd_mac (k : Core) (x : Cmd) : (k.setCmd x).mac = k.mac := rfl
@[simp] theorem core_setCmd_imageKey (k : Core) (x : Cmd) : (k.setCmd x).imageKey = k.imageKey := rfl
@[simp] theorem core_setCmd_frzcnt (k : Core) (x : Cmd) : (k.setCmd x).frzcnt = k.frzcnt := rfl
@[simp] theorem core_setCmd_throttled (k : Core) (x : Cmd) : (k.setCmd x).throttled = k.throttled := rfl
@[simp] theorem core_setCmd_timingSub (k : Core) (x : Cmd) : (k.setCmd x).timingSub = k.timingSub := rfl
@[simp] theorem core_setCmd_turn (k : Core) (x : Cmd) : (k.setCmd x).turn = k.turn := rfl
@[simp] theorem core_setCmd_barrier (k : Core) (x : Cmd) : (k.setCmd x).barrier = k.barrier := rfl
@[simp] theorem core_setCmd_cmdWait (k : Core) (x : Cmd) : (k.setCmd x).cmdWait = k.cmdWait := rfl
@[simp] theorem core_setCmd_trapWait (k : Core) (x : Cmd) : (k.setCmd x).trapWait = k.trapWait := rfl
@[simp] theorem core_setCmd_trapWs (k : Core) (x : Cmd) : (k.setCmd x).trapWs = k.trapWs := rfl
@[simp] theorem core_setCmd_relBy (k : Core) (x : Cmd) : (k.setCmd x).relBy = k.relBy := rfl
@[simp] theorem core_setCmd_freezeReq (k : Core) (x : Cmd) : (k.setCmd x).freezeReq = k.freezeReq := rfl
@[simp] theorem core_setCmd_relScope (k : Core) (x : Cmd) : (k.setCmd x).relScope = k.relScope := rfl
@[simp] theorem core_setCmd_relSurv (k : Core) (x : Cmd) : (k.setCmd x).relSurv = k.relSurv := rfl
@[simp] theorem core_setCmd_haltEnd (k : Core) (x : Cmd) : (k.setCmd x).haltEnd = k.haltEnd := rfl
@[simp] theorem core_setCmd_endMark (k : Core) (x : Cmd) : (k.setCmd x).endMark = k.endMark := rfl
@[simp] theorem core_setCmd_stale (k : Core) (x : Cmd) : (k.setCmd x).stale = k.stale := rfl
@[simp] theorem core_setCmd_hist (k : Core) (x : Cmd) : (k.setCmd x).hist = k.hist := rfl
@[simp] theorem core_setCmd_seen (k : Core) (x : Cmd) : (k.setCmd x).seen = k.seen := rfl
@[simp] theorem core_setCmd_foreign (k : Core) (x : Cmd) : (k.setCmd x).foreign = k.foreign := rfl
@[simp] theorem core_setCmd_engW (k : Core) (x : Cmd) : (k.setCmd x).engW = k.engW := rfl
@[simp] theorem core_setCmd_raceW (k : Core) (x : Cmd) : (k.setCmd x).raceW = k.raceW := rfl
@[simp] theorem core_setCmd_icache (k : Core) (x : Cmd) : (k.setCmd x).icache = k.icache := rfl
@[simp] theorem core_setCmd_sysw (k : Core) (x : Cmd) : (k.setCmd x).sysw = k.sysw := rfl

@[simp] theorem core_setSop_status (k : Core) (o : SpecOp) : (k.setSop o).status = k.status := rfl
@[simp] theorem core_setSop_launch (k : Core) (o : SpecOp) : (k.setSop o).launch = k.launch := rfl
@[simp] theorem core_setSop_tid (k : Core) (o : SpecOp) : (k.setSop o).tid = k.tid := rfl
@[simp] theorem core_setSop_tcx (k : Core) (o : SpecOp) : (k.setSop o).tcx = k.tcx := rfl
@[simp] theorem core_setSop_ctx (k : Core) (o : SpecOp) : (k.setSop o).ctx = k.ctx := rfl
@[simp] theorem core_setSop_tagged (k : Core) (o : SpecOp) : (k.setSop o).tagged = k.tagged := rfl
@[simp] theorem core_setSop_pc (k : Core) (o : SpecOp) : (k.setSop o).pc = k.pc := rfl
@[simp] theorem core_setSop_cb (k : Core) (o : SpecOp) : (k.setSop o).cb = k.cb := rfl
@[simp] theorem core_setSop_lcyc (k : Core) (o : SpecOp) : (k.setSop o).lcyc = k.lcyc := rfl
@[simp] theorem core_setSop_clk (k : Core) (o : SpecOp) : (k.setSop o).clk = k.clk := rfl
@[simp] theorem core_setSop_phase (k : Core) (o : SpecOp) : (k.setSop o).phase = k.phase := rfl
@[simp] theorem core_setSop_g (k : Core) (o : SpecOp) : (k.setSop o).g = k.g := rfl
@[simp] theorem core_setSop_p (k : Core) (o : SpecOp) : (k.setSop o).p = k.p := rfl
@[simp] theorem core_setSop_v (k : Core) (o : SpecOp) : (k.setSop o).v = k.v := rfl
@[simp] theorem core_setSop_q (k : Core) (o : SpecOp) : (k.setSop o).q = k.q := rfl
@[simp] theorem core_setSop_t (k : Core) (o : SpecOp) : (k.setSop o).t = k.t := rfl
@[simp] theorem core_setSop_k (k : Core) (o : SpecOp) : (k.setSop o).k = k.k := rfl
@[simp] theorem core_setSop_b (k : Core) (o : SpecOp) : (k.setSop o).b = k.b := rfl
@[simp] theorem core_setSop_fm (k : Core) (o : SpecOp) : (k.setSop o).fm = k.fm := rfl
@[simp] theorem core_setSop_lgl (k : Core) (o : SpecOp) : (k.setSop o).lgl = k.lgl := rfl
@[simp] theorem core_setSop_cf (k : Core) (o : SpecOp) : (k.setSop o).cf = k.cf := rfl
@[simp] theorem core_setSop_cfo (k : Core) (o : SpecOp) : (k.setSop o).cfo = k.cfo := rfl
@[simp] theorem core_setSop_ss (k : Core) (o : SpecOp) : (k.setSop o).ss = k.ss := rfl
@[simp] theorem core_setSop_sres (k : Core) (o : SpecOp) : (k.setSop o).sres = k.sres := rfl
@[simp] theorem core_setSop_vres (k : Core) (o : SpecOp) : (k.setSop o).vres = k.vres := rfl
@[simp] theorem core_setSop_sop (k : Core) (o : SpecOp) : (k.setSop o).sop = k.sop := rfl
@[simp] theorem core_setSop_vop (k : Core) (o : SpecOp) : (k.setSop o).vop = k.vop := rfl
@[simp] theorem core_setSop_stL (k : Core) (o : SpecOp) : (k.setSop o).stL = k.stL := rfl
@[simp] theorem core_setSop_stX (k : Core) (o : SpecOp) : (k.setSop o).stX = k.stX := rfl
@[simp] theorem core_setSop_stM (k : Core) (o : SpecOp) : (k.setSop o).stM = k.stM := rfl
@[simp] theorem core_setSop_vmsel (k : Core) (o : SpecOp) : (k.setSop o).vmsel = k.vmsel := rfl
@[simp] theorem core_setSop_rstack (k : Core) (o : SpecOp) : (k.setSop o).rstack = k.rstack := rfl
@[simp] theorem core_setSop_loops (k : Core) (o : SpecOp) : (k.setSop o).loops = k.loops := rfl
@[simp] theorem core_setSop_inv (k : Core) (o : SpecOp) : (k.setSop o).inv = k.inv := rfl
@[simp] theorem core_setSop_arith (k : Core) (o : SpecOp) : (k.setSop o).arith = k.arith := rfl
@[simp] theorem core_setSop_recs (k : Core) (o : SpecOp) : (k.setSop o).recs = k.recs := rfl
@[simp] theorem core_setSop_rng (k : Core) (o : SpecOp) : (k.setSop o).rng = k.rng := rfl
@[simp] theorem core_setSop_rbq (k : Core) (o : SpecOp) : (k.setSop o).rbq = k.rbq := rfl
@[simp] theorem core_setSop_arow (k : Core) (o : SpecOp) : (k.setSop o).arow = k.arow := rfl
@[simp] theorem core_setSop_aptr (k : Core) (o : SpecOp) : (k.setSop o).aptr = k.aptr := rfl
@[simp] theorem core_setSop_drec (k : Core) (o : SpecOp) : (k.setSop o).drec = k.drec := rfl
@[simp] theorem core_setSop_seq (k : Core) (o : SpecOp) : (k.setSop o).seq = k.seq := rfl
@[simp] theorem core_setSop_rep (k : Core) (o : SpecOp) : (k.setSop o).rep = k.rep := rfl
@[simp] theorem core_setSop_stall (k : Core) (o : SpecOp) : (k.setSop o).stall = k.stall := rfl
@[simp] theorem core_setSop_restarted (k : Core) (o : SpecOp) : (k.setSop o).restarted = k.restarted := rfl
@[simp] theorem core_setSop_xfer (k : Core) (o : SpecOp) : (k.setSop o).xfer = k.xfer := rfl
@[simp] theorem core_setSop_bundles (k : Core) (o : SpecOp) : (k.setSop o).bundles = k.bundles := rfl
@[simp] theorem core_setSop_met (k : Core) (o : SpecOp) : (k.setSop o).met = k.met := rfl
@[simp] theorem core_setSop_hold (k : Core) (o : SpecOp) : (k.setSop o).hold = k.hold := rfl
@[simp] theorem core_setSop_drainTo (k : Core) (o : SpecOp) : (k.setSop o).drainTo = k.drainTo := rfl
@[simp] theorem core_setSop_yieldFlag (k : Core) (o : SpecOp) : (k.setSop o).yieldFlag = k.yieldFlag := rfl
@[simp] theorem core_setSop_held (k : Core) (o : SpecOp) : (k.setSop o).held = k.held := rfl
@[simp] theorem core_setSop_heldTried (k : Core) (o : SpecOp) : (k.setSop o).heldTried = k.heldTried := rfl
@[simp] theorem core_setSop_softTick (k : Core) (o : SpecOp) : (k.setSop o).softTick = k.softTick := rfl
@[simp] theorem core_setSop_mops (k : Core) (o : SpecOp) : (k.setSop o).mops = k.mops := rfl
@[simp] theorem core_setSop_pend (k : Core) (o : SpecOp) : (k.setSop o).pend = k.pend := rfl
@[simp] theorem core_setSop_next (k : Core) (o : SpecOp) : (k.setSop o).next = k.next := rfl
@[simp] theorem core_setSop_mma (k : Core) (o : SpecOp) : (k.setSop o).mma = k.mma := rfl
@[simp] theorem core_setSop_mmaq (k : Core) (o : SpecOp) : (k.setSop o).mmaq = k.mmaq := rfl
@[simp] theorem core_setSop_wld (k : Core) (o : SpecOp) : (k.setSop o).wld = k.wld := rfl
@[simp] theorem core_setSop_blocks (k : Core) (o : SpecOp) : (k.setSop o).blocks = k.blocks := rfl
@[simp] theorem core_setSop_cmds (k : Core) (o : SpecOp) : (k.setSop o).cmds = k.cmds := rfl
@[simp] theorem core_setSop_eng (k : Core) (o : SpecOp) : (k.setSop o).eng = k.eng := rfl
@[simp] theorem core_setSop_engFrozen (k : Core) (o : SpecOp) : (k.setSop o).engFrozen = k.engFrozen := rfl
@[simp] theorem core_setSop_ecyc (k : Core) (o : SpecOp) : (k.setSop o).ecyc = k.ecyc := rfl
@[simp] theorem core_setSop_mTrig (k : Core) (o : SpecOp) : (k.setSop o).mTrig = k.mTrig := rfl
@[simp] theorem core_setSop_l1 (k : Core) (o : SpecOp) : (k.setSop o).l1 = k.l1 := rfl
@[simp] theorem core_setSop_l1Mark (k : Core) (o : SpecOp) : (k.setSop o).l1Mark = k.l1Mark := rfl
@[simp] theorem core_setSop_rdcMark (k : Core) (o : SpecOp) : (k.setSop o).rdcMark = k.rdcMark := rfl
@[simp] theorem core_setSop_fills (k : Core) (o : SpecOp) : (k.setSop o).fills = k.fills := rfl
@[simp] theorem core_setSop_tlb (k : Core) (o : SpecOp) : (k.setSop o).tlb = k.tlb := rfl
@[simp] theorem core_setSop_logL (k : Core) (o : SpecOp) : (k.setSop o).logL = k.logL := rfl
@[simp] theorem core_setSop_logA (k : Core) (o : SpecOp) : (k.setSop o).logA = k.logA := rfl
@[simp] theorem core_setSop_logOrd (k : Core) (o : SpecOp) : (k.setSop o).logOrd = k.logOrd := rfl
@[simp] theorem core_setSop_window (k : Core) (o : SpecOp) : (k.setSop o).window = k.window := rfl
@[simp] theorem core_setSop_weight (k : Core) (o : SpecOp) : (k.setSop o).weight = k.weight := rfl
@[simp] theorem core_setSop_freezeNext (k : Core) (o : SpecOp) : (k.setSop o).freezeNext = k.freezeNext := rfl
@[simp] theorem core_setSop_frz (k : Core) (o : SpecOp) : (k.setSop o).frz = k.frz := rfl
@[simp] theorem core_setSop_found (k : Core) (o : SpecOp) : (k.setSop o).found = k.found := rfl
@[simp] theorem core_setSop_poll (k : Core) (o : SpecOp) : (k.setSop o).poll = k.poll := rfl
@[simp] theorem core_setSop_crossed (k : Core) (o : SpecOp) : (k.setSop o).crossed = k.crossed := rfl
@[simp] theorem core_setSop_mac (k : Core) (o : SpecOp) : (k.setSop o).mac = k.mac := rfl
@[simp] theorem core_setSop_imageKey (k : Core) (o : SpecOp) : (k.setSop o).imageKey = k.imageKey := rfl
@[simp] theorem core_setSop_frzcnt (k : Core) (o : SpecOp) : (k.setSop o).frzcnt = k.frzcnt := rfl
@[simp] theorem core_setSop_throttled (k : Core) (o : SpecOp) : (k.setSop o).throttled = k.throttled := rfl
@[simp] theorem core_setSop_timingSub (k : Core) (o : SpecOp) : (k.setSop o).timingSub = k.timingSub := rfl
@[simp] theorem core_setSop_turn (k : Core) (o : SpecOp) : (k.setSop o).turn = k.turn := rfl
@[simp] theorem core_setSop_barrier (k : Core) (o : SpecOp) : (k.setSop o).barrier = k.barrier := rfl
@[simp] theorem core_setSop_cmdWait (k : Core) (o : SpecOp) : (k.setSop o).cmdWait = k.cmdWait := rfl
@[simp] theorem core_setSop_trapWait (k : Core) (o : SpecOp) : (k.setSop o).trapWait = k.trapWait := rfl
@[simp] theorem core_setSop_trapWs (k : Core) (o : SpecOp) : (k.setSop o).trapWs = k.trapWs := rfl
@[simp] theorem core_setSop_relBy (k : Core) (o : SpecOp) : (k.setSop o).relBy = k.relBy := rfl
@[simp] theorem core_setSop_freezeReq (k : Core) (o : SpecOp) : (k.setSop o).freezeReq = k.freezeReq := rfl
@[simp] theorem core_setSop_relScope (k : Core) (o : SpecOp) : (k.setSop o).relScope = k.relScope := rfl
@[simp] theorem core_setSop_relSurv (k : Core) (o : SpecOp) : (k.setSop o).relSurv = k.relSurv := rfl
@[simp] theorem core_setSop_haltEnd (k : Core) (o : SpecOp) : (k.setSop o).haltEnd = k.haltEnd := rfl
@[simp] theorem core_setSop_endMark (k : Core) (o : SpecOp) : (k.setSop o).endMark = k.endMark := rfl
@[simp] theorem core_setSop_stale (k : Core) (o : SpecOp) : (k.setSop o).stale = k.stale := rfl
@[simp] theorem core_setSop_hist (k : Core) (o : SpecOp) : (k.setSop o).hist = k.hist := rfl
@[simp] theorem core_setSop_seen (k : Core) (o : SpecOp) : (k.setSop o).seen = k.seen := rfl
@[simp] theorem core_setSop_foreign (k : Core) (o : SpecOp) : (k.setSop o).foreign = k.foreign := rfl
@[simp] theorem core_setSop_engW (k : Core) (o : SpecOp) : (k.setSop o).engW = k.engW := rfl
@[simp] theorem core_setSop_raceW (k : Core) (o : SpecOp) : (k.setSop o).raceW = k.raceW := rfl
@[simp] theorem core_setSop_icache (k : Core) (o : SpecOp) : (k.setSop o).icache = k.icache := rfl
@[simp] theorem core_setSop_sysw (k : Core) (o : SpecOp) : (k.setSop o).sysw = k.sysw := rfl

@[simp] theorem core_heldGone_status (k : Core) (l : List Held) : (k.heldGone l).status = k.status := rfl
@[simp] theorem core_heldGone_launch (k : Core) (l : List Held) : (k.heldGone l).launch = k.launch := rfl
@[simp] theorem core_heldGone_tid (k : Core) (l : List Held) : (k.heldGone l).tid = k.tid := rfl
@[simp] theorem core_heldGone_tcx (k : Core) (l : List Held) : (k.heldGone l).tcx = k.tcx := rfl
@[simp] theorem core_heldGone_ctx (k : Core) (l : List Held) : (k.heldGone l).ctx = k.ctx := rfl
@[simp] theorem core_heldGone_tagged (k : Core) (l : List Held) : (k.heldGone l).tagged = k.tagged := rfl
@[simp] theorem core_heldGone_pc (k : Core) (l : List Held) : (k.heldGone l).pc = k.pc := rfl
@[simp] theorem core_heldGone_cb (k : Core) (l : List Held) : (k.heldGone l).cb = k.cb := rfl
@[simp] theorem core_heldGone_lcyc (k : Core) (l : List Held) : (k.heldGone l).lcyc = k.lcyc := rfl
@[simp] theorem core_heldGone_clk (k : Core) (l : List Held) : (k.heldGone l).clk = k.clk := rfl
@[simp] theorem core_heldGone_phase (k : Core) (l : List Held) : (k.heldGone l).phase = k.phase := rfl
@[simp] theorem core_heldGone_g (k : Core) (l : List Held) : (k.heldGone l).g = k.g := rfl
@[simp] theorem core_heldGone_p (k : Core) (l : List Held) : (k.heldGone l).p = k.p := rfl
@[simp] theorem core_heldGone_v (k : Core) (l : List Held) : (k.heldGone l).v = k.v := rfl
@[simp] theorem core_heldGone_q (k : Core) (l : List Held) : (k.heldGone l).q = k.q := rfl
@[simp] theorem core_heldGone_t (k : Core) (l : List Held) : (k.heldGone l).t = k.t := rfl
@[simp] theorem core_heldGone_k (k : Core) (l : List Held) : (k.heldGone l).k = k.k := rfl
@[simp] theorem core_heldGone_b (k : Core) (l : List Held) : (k.heldGone l).b = k.b := rfl
@[simp] theorem core_heldGone_fm (k : Core) (l : List Held) : (k.heldGone l).fm = k.fm := rfl
@[simp] theorem core_heldGone_lgl (k : Core) (l : List Held) : (k.heldGone l).lgl = k.lgl := rfl
@[simp] theorem core_heldGone_cf (k : Core) (l : List Held) : (k.heldGone l).cf = k.cf := rfl
@[simp] theorem core_heldGone_cfo (k : Core) (l : List Held) : (k.heldGone l).cfo = k.cfo := rfl
@[simp] theorem core_heldGone_ss (k : Core) (l : List Held) : (k.heldGone l).ss = k.ss := rfl
@[simp] theorem core_heldGone_sres (k : Core) (l : List Held) : (k.heldGone l).sres = k.sres := rfl
@[simp] theorem core_heldGone_vres (k : Core) (l : List Held) : (k.heldGone l).vres = k.vres := rfl
@[simp] theorem core_heldGone_sop (k : Core) (l : List Held) : (k.heldGone l).sop = k.sop := rfl
@[simp] theorem core_heldGone_vop (k : Core) (l : List Held) : (k.heldGone l).vop = k.vop := rfl
@[simp] theorem core_heldGone_stL (k : Core) (l : List Held) : (k.heldGone l).stL = k.stL := rfl
@[simp] theorem core_heldGone_stX (k : Core) (l : List Held) : (k.heldGone l).stX = k.stX := rfl
@[simp] theorem core_heldGone_stM (k : Core) (l : List Held) : (k.heldGone l).stM = k.stM := rfl
@[simp] theorem core_heldGone_vmsel (k : Core) (l : List Held) : (k.heldGone l).vmsel = k.vmsel := rfl
@[simp] theorem core_heldGone_rstack (k : Core) (l : List Held) : (k.heldGone l).rstack = k.rstack := rfl
@[simp] theorem core_heldGone_loops (k : Core) (l : List Held) : (k.heldGone l).loops = k.loops := rfl
@[simp] theorem core_heldGone_inv (k : Core) (l : List Held) : (k.heldGone l).inv = k.inv := rfl
@[simp] theorem core_heldGone_arith (k : Core) (l : List Held) : (k.heldGone l).arith = k.arith := rfl
@[simp] theorem core_heldGone_recs (k : Core) (l : List Held) : (k.heldGone l).recs = k.recs := rfl
@[simp] theorem core_heldGone_rng (k : Core) (l : List Held) : (k.heldGone l).rng = k.rng := rfl
@[simp] theorem core_heldGone_rbq (k : Core) (l : List Held) : (k.heldGone l).rbq = k.rbq := rfl
@[simp] theorem core_heldGone_arow (k : Core) (l : List Held) : (k.heldGone l).arow = k.arow := rfl
@[simp] theorem core_heldGone_aptr (k : Core) (l : List Held) : (k.heldGone l).aptr = k.aptr := rfl
@[simp] theorem core_heldGone_drec (k : Core) (l : List Held) : (k.heldGone l).drec = k.drec := rfl
@[simp] theorem core_heldGone_seq (k : Core) (l : List Held) : (k.heldGone l).seq = k.seq := rfl
@[simp] theorem core_heldGone_rep (k : Core) (l : List Held) : (k.heldGone l).rep = k.rep := rfl
@[simp] theorem core_heldGone_stall (k : Core) (l : List Held) : (k.heldGone l).stall = k.stall := rfl
@[simp] theorem core_heldGone_restarted (k : Core) (l : List Held) : (k.heldGone l).restarted = k.restarted := rfl
@[simp] theorem core_heldGone_xfer (k : Core) (l : List Held) : (k.heldGone l).xfer = k.xfer := rfl
@[simp] theorem core_heldGone_bundles (k : Core) (l : List Held) : (k.heldGone l).bundles = k.bundles := rfl
@[simp] theorem core_heldGone_met (k : Core) (l : List Held) : (k.heldGone l).met = k.met := rfl
@[simp] theorem core_heldGone_hold (k : Core) (l : List Held) : (k.heldGone l).hold = k.hold := rfl
@[simp] theorem core_heldGone_drainTo (k : Core) (l : List Held) : (k.heldGone l).drainTo = k.drainTo := rfl
@[simp] theorem core_heldGone_yieldFlag (k : Core) (l : List Held) : (k.heldGone l).yieldFlag = k.yieldFlag := rfl
@[simp] theorem core_heldGone_heldTried (k : Core) (l : List Held) : (k.heldGone l).heldTried = k.heldTried := rfl
@[simp] theorem core_heldGone_softTick (k : Core) (l : List Held) : (k.heldGone l).softTick = k.softTick := rfl
@[simp] theorem core_heldGone_mops (k : Core) (l : List Held) : (k.heldGone l).mops = k.mops := rfl
@[simp] theorem core_heldGone_sops (k : Core) (l : List Held) : (k.heldGone l).sops = k.sops := rfl
@[simp] theorem core_heldGone_pend (k : Core) (l : List Held) : (k.heldGone l).pend = k.pend := rfl
@[simp] theorem core_heldGone_next (k : Core) (l : List Held) : (k.heldGone l).next = k.next := rfl
@[simp] theorem core_heldGone_mma (k : Core) (l : List Held) : (k.heldGone l).mma = k.mma := rfl
@[simp] theorem core_heldGone_mmaq (k : Core) (l : List Held) : (k.heldGone l).mmaq = k.mmaq := rfl
@[simp] theorem core_heldGone_wld (k : Core) (l : List Held) : (k.heldGone l).wld = k.wld := rfl
@[simp] theorem core_heldGone_blocks (k : Core) (l : List Held) : (k.heldGone l).blocks = k.blocks := rfl
@[simp] theorem core_heldGone_cmds (k : Core) (l : List Held) : (k.heldGone l).cmds = k.cmds := rfl
@[simp] theorem core_heldGone_eng (k : Core) (l : List Held) : (k.heldGone l).eng = k.eng := rfl
@[simp] theorem core_heldGone_engFrozen (k : Core) (l : List Held) : (k.heldGone l).engFrozen = k.engFrozen := rfl
@[simp] theorem core_heldGone_ecyc (k : Core) (l : List Held) : (k.heldGone l).ecyc = k.ecyc := rfl
@[simp] theorem core_heldGone_mTrig (k : Core) (l : List Held) : (k.heldGone l).mTrig = k.mTrig := rfl
@[simp] theorem core_heldGone_l1 (k : Core) (l : List Held) : (k.heldGone l).l1 = k.l1 := rfl
@[simp] theorem core_heldGone_l1Mark (k : Core) (l : List Held) : (k.heldGone l).l1Mark = k.l1Mark := rfl
@[simp] theorem core_heldGone_rdcMark (k : Core) (l : List Held) : (k.heldGone l).rdcMark = k.rdcMark := rfl
@[simp] theorem core_heldGone_fills (k : Core) (l : List Held) : (k.heldGone l).fills = k.fills := rfl
@[simp] theorem core_heldGone_tlb (k : Core) (l : List Held) : (k.heldGone l).tlb = k.tlb := rfl
@[simp] theorem core_heldGone_logL (k : Core) (l : List Held) : (k.heldGone l).logL = k.logL := rfl
@[simp] theorem core_heldGone_logA (k : Core) (l : List Held) : (k.heldGone l).logA = k.logA := rfl
@[simp] theorem core_heldGone_logOrd (k : Core) (l : List Held) : (k.heldGone l).logOrd = k.logOrd := rfl
@[simp] theorem core_heldGone_window (k : Core) (l : List Held) : (k.heldGone l).window = k.window := rfl
@[simp] theorem core_heldGone_weight (k : Core) (l : List Held) : (k.heldGone l).weight = k.weight := rfl
@[simp] theorem core_heldGone_freezeNext (k : Core) (l : List Held) : (k.heldGone l).freezeNext = k.freezeNext := rfl
@[simp] theorem core_heldGone_frz (k : Core) (l : List Held) : (k.heldGone l).frz = k.frz := rfl
@[simp] theorem core_heldGone_found (k : Core) (l : List Held) : (k.heldGone l).found = k.found := rfl
@[simp] theorem core_heldGone_poll (k : Core) (l : List Held) : (k.heldGone l).poll = k.poll := rfl
@[simp] theorem core_heldGone_crossed (k : Core) (l : List Held) : (k.heldGone l).crossed = k.crossed := rfl
@[simp] theorem core_heldGone_mac (k : Core) (l : List Held) : (k.heldGone l).mac = k.mac := rfl
@[simp] theorem core_heldGone_imageKey (k : Core) (l : List Held) : (k.heldGone l).imageKey = k.imageKey := rfl
@[simp] theorem core_heldGone_frzcnt (k : Core) (l : List Held) : (k.heldGone l).frzcnt = k.frzcnt := rfl
@[simp] theorem core_heldGone_throttled (k : Core) (l : List Held) : (k.heldGone l).throttled = k.throttled := rfl
@[simp] theorem core_heldGone_timingSub (k : Core) (l : List Held) : (k.heldGone l).timingSub = k.timingSub := rfl
@[simp] theorem core_heldGone_turn (k : Core) (l : List Held) : (k.heldGone l).turn = k.turn := rfl
@[simp] theorem core_heldGone_barrier (k : Core) (l : List Held) : (k.heldGone l).barrier = k.barrier := rfl
@[simp] theorem core_heldGone_cmdWait (k : Core) (l : List Held) : (k.heldGone l).cmdWait = k.cmdWait := rfl
@[simp] theorem core_heldGone_trapWait (k : Core) (l : List Held) : (k.heldGone l).trapWait = k.trapWait := rfl
@[simp] theorem core_heldGone_trapWs (k : Core) (l : List Held) : (k.heldGone l).trapWs = k.trapWs := rfl
@[simp] theorem core_heldGone_relBy (k : Core) (l : List Held) : (k.heldGone l).relBy = k.relBy := rfl
@[simp] theorem core_heldGone_freezeReq (k : Core) (l : List Held) : (k.heldGone l).freezeReq = k.freezeReq := rfl
@[simp] theorem core_heldGone_relScope (k : Core) (l : List Held) : (k.heldGone l).relScope = k.relScope := rfl
@[simp] theorem core_heldGone_relSurv (k : Core) (l : List Held) : (k.heldGone l).relSurv = k.relSurv := rfl
@[simp] theorem core_heldGone_haltEnd (k : Core) (l : List Held) : (k.heldGone l).haltEnd = k.haltEnd := rfl
@[simp] theorem core_heldGone_endMark (k : Core) (l : List Held) : (k.heldGone l).endMark = k.endMark := rfl
@[simp] theorem core_heldGone_stale (k : Core) (l : List Held) : (k.heldGone l).stale = k.stale := rfl
@[simp] theorem core_heldGone_hist (k : Core) (l : List Held) : (k.heldGone l).hist = k.hist := rfl
@[simp] theorem core_heldGone_seen (k : Core) (l : List Held) : (k.heldGone l).seen = k.seen := rfl
@[simp] theorem core_heldGone_foreign (k : Core) (l : List Held) : (k.heldGone l).foreign = k.foreign := rfl
@[simp] theorem core_heldGone_engW (k : Core) (l : List Held) : (k.heldGone l).engW = k.engW := rfl
@[simp] theorem core_heldGone_raceW (k : Core) (l : List Held) : (k.heldGone l).raceW = k.raceW := rfl
@[simp] theorem core_heldGone_icache (k : Core) (l : List Held) : (k.heldGone l).icache = k.icache := rfl
@[simp] theorem core_heldGone_sysw (k : Core) (l : List Held) : (k.heldGone l).sysw = k.sysw := rfl

@[simp] theorem core_markReady_status (k : Core) (n m : Nat) : (k.markReady n m).status = k.status := rfl
@[simp] theorem core_markReady_launch (k : Core) (n m : Nat) : (k.markReady n m).launch = k.launch := rfl
@[simp] theorem core_markReady_tid (k : Core) (n m : Nat) : (k.markReady n m).tid = k.tid := rfl
@[simp] theorem core_markReady_tcx (k : Core) (n m : Nat) : (k.markReady n m).tcx = k.tcx := rfl
@[simp] theorem core_markReady_ctx (k : Core) (n m : Nat) : (k.markReady n m).ctx = k.ctx := rfl
@[simp] theorem core_markReady_tagged (k : Core) (n m : Nat) : (k.markReady n m).tagged = k.tagged := rfl
@[simp] theorem core_markReady_pc (k : Core) (n m : Nat) : (k.markReady n m).pc = k.pc := rfl
@[simp] theorem core_markReady_cb (k : Core) (n m : Nat) : (k.markReady n m).cb = k.cb := rfl
@[simp] theorem core_markReady_lcyc (k : Core) (n m : Nat) : (k.markReady n m).lcyc = k.lcyc := rfl
@[simp] theorem core_markReady_clk (k : Core) (n m : Nat) : (k.markReady n m).clk = k.clk := rfl
@[simp] theorem core_markReady_phase (k : Core) (n m : Nat) : (k.markReady n m).phase = k.phase := rfl
@[simp] theorem core_markReady_g (k : Core) (n m : Nat) : (k.markReady n m).g = k.g := rfl
@[simp] theorem core_markReady_p (k : Core) (n m : Nat) : (k.markReady n m).p = k.p := rfl
@[simp] theorem core_markReady_v (k : Core) (n m : Nat) : (k.markReady n m).v = k.v := rfl
@[simp] theorem core_markReady_q (k : Core) (n m : Nat) : (k.markReady n m).q = k.q := rfl
@[simp] theorem core_markReady_k (k : Core) (n m : Nat) : (k.markReady n m).k = k.k := rfl
@[simp] theorem core_markReady_b (k : Core) (n m : Nat) : (k.markReady n m).b = k.b := rfl
@[simp] theorem core_markReady_fm (k : Core) (n m : Nat) : (k.markReady n m).fm = k.fm := rfl
@[simp] theorem core_markReady_lgl (k : Core) (n m : Nat) : (k.markReady n m).lgl = k.lgl := rfl
@[simp] theorem core_markReady_cf (k : Core) (n m : Nat) : (k.markReady n m).cf = k.cf := rfl
@[simp] theorem core_markReady_cfo (k : Core) (n m : Nat) : (k.markReady n m).cfo = k.cfo := rfl
@[simp] theorem core_markReady_ss (k : Core) (n m : Nat) : (k.markReady n m).ss = k.ss := rfl
@[simp] theorem core_markReady_sres (k : Core) (n m : Nat) : (k.markReady n m).sres = k.sres := rfl
@[simp] theorem core_markReady_vres (k : Core) (n m : Nat) : (k.markReady n m).vres = k.vres := rfl
@[simp] theorem core_markReady_sop (k : Core) (n m : Nat) : (k.markReady n m).sop = k.sop := rfl
@[simp] theorem core_markReady_vop (k : Core) (n m : Nat) : (k.markReady n m).vop = k.vop := rfl
@[simp] theorem core_markReady_stL (k : Core) (n m : Nat) : (k.markReady n m).stL = k.stL := rfl
@[simp] theorem core_markReady_stX (k : Core) (n m : Nat) : (k.markReady n m).stX = k.stX := rfl
@[simp] theorem core_markReady_stM (k : Core) (n m : Nat) : (k.markReady n m).stM = k.stM := rfl
@[simp] theorem core_markReady_vmsel (k : Core) (n m : Nat) : (k.markReady n m).vmsel = k.vmsel := rfl
@[simp] theorem core_markReady_rstack (k : Core) (n m : Nat) : (k.markReady n m).rstack = k.rstack := rfl
@[simp] theorem core_markReady_loops (k : Core) (n m : Nat) : (k.markReady n m).loops = k.loops := rfl
@[simp] theorem core_markReady_inv (k : Core) (n m : Nat) : (k.markReady n m).inv = k.inv := rfl
@[simp] theorem core_markReady_arith (k : Core) (n m : Nat) : (k.markReady n m).arith = k.arith := rfl
@[simp] theorem core_markReady_recs (k : Core) (n m : Nat) : (k.markReady n m).recs = k.recs := rfl
@[simp] theorem core_markReady_rng (k : Core) (n m : Nat) : (k.markReady n m).rng = k.rng := rfl
@[simp] theorem core_markReady_rbq (k : Core) (n m : Nat) : (k.markReady n m).rbq = k.rbq := rfl
@[simp] theorem core_markReady_arow (k : Core) (n m : Nat) : (k.markReady n m).arow = k.arow := rfl
@[simp] theorem core_markReady_aptr (k : Core) (n m : Nat) : (k.markReady n m).aptr = k.aptr := rfl
@[simp] theorem core_markReady_drec (k : Core) (n m : Nat) : (k.markReady n m).drec = k.drec := rfl
@[simp] theorem core_markReady_seq (k : Core) (n m : Nat) : (k.markReady n m).seq = k.seq := rfl
@[simp] theorem core_markReady_rep (k : Core) (n m : Nat) : (k.markReady n m).rep = k.rep := rfl
@[simp] theorem core_markReady_stall (k : Core) (n m : Nat) : (k.markReady n m).stall = k.stall := rfl
@[simp] theorem core_markReady_restarted (k : Core) (n m : Nat) : (k.markReady n m).restarted = k.restarted := rfl
@[simp] theorem core_markReady_xfer (k : Core) (n m : Nat) : (k.markReady n m).xfer = k.xfer := rfl
@[simp] theorem core_markReady_bundles (k : Core) (n m : Nat) : (k.markReady n m).bundles = k.bundles := rfl
@[simp] theorem core_markReady_met (k : Core) (n m : Nat) : (k.markReady n m).met = k.met := rfl
@[simp] theorem core_markReady_hold (k : Core) (n m : Nat) : (k.markReady n m).hold = k.hold := rfl
@[simp] theorem core_markReady_drainTo (k : Core) (n m : Nat) : (k.markReady n m).drainTo = k.drainTo := rfl
@[simp] theorem core_markReady_yieldFlag (k : Core) (n m : Nat) : (k.markReady n m).yieldFlag = k.yieldFlag := rfl
@[simp] theorem core_markReady_held (k : Core) (n m : Nat) : (k.markReady n m).held = k.held := rfl
@[simp] theorem core_markReady_heldTried (k : Core) (n m : Nat) : (k.markReady n m).heldTried = k.heldTried := rfl
@[simp] theorem core_markReady_softTick (k : Core) (n m : Nat) : (k.markReady n m).softTick = k.softTick := rfl
@[simp] theorem core_markReady_mops (k : Core) (n m : Nat) : (k.markReady n m).mops = k.mops := rfl
@[simp] theorem core_markReady_sops (k : Core) (n m : Nat) : (k.markReady n m).sops = k.sops := rfl
@[simp] theorem core_markReady_pend (k : Core) (n m : Nat) : (k.markReady n m).pend = k.pend := rfl
@[simp] theorem core_markReady_next (k : Core) (n m : Nat) : (k.markReady n m).next = k.next := rfl
@[simp] theorem core_markReady_mma (k : Core) (n m : Nat) : (k.markReady n m).mma = k.mma := rfl
@[simp] theorem core_markReady_mmaq (k : Core) (n m : Nat) : (k.markReady n m).mmaq = k.mmaq := rfl
@[simp] theorem core_markReady_wld (k : Core) (n m : Nat) : (k.markReady n m).wld = k.wld := rfl
@[simp] theorem core_markReady_blocks (k : Core) (n m : Nat) : (k.markReady n m).blocks = k.blocks := rfl
@[simp] theorem core_markReady_cmds (k : Core) (n m : Nat) : (k.markReady n m).cmds = k.cmds := rfl
@[simp] theorem core_markReady_eng (k : Core) (n m : Nat) : (k.markReady n m).eng = k.eng := rfl
@[simp] theorem core_markReady_engFrozen (k : Core) (n m : Nat) : (k.markReady n m).engFrozen = k.engFrozen := rfl
@[simp] theorem core_markReady_ecyc (k : Core) (n m : Nat) : (k.markReady n m).ecyc = k.ecyc := rfl
@[simp] theorem core_markReady_mTrig (k : Core) (n m : Nat) : (k.markReady n m).mTrig = k.mTrig := rfl
@[simp] theorem core_markReady_l1 (k : Core) (n m : Nat) : (k.markReady n m).l1 = k.l1 := rfl
@[simp] theorem core_markReady_l1Mark (k : Core) (n m : Nat) : (k.markReady n m).l1Mark = k.l1Mark := rfl
@[simp] theorem core_markReady_rdcMark (k : Core) (n m : Nat) : (k.markReady n m).rdcMark = k.rdcMark := rfl
@[simp] theorem core_markReady_fills (k : Core) (n m : Nat) : (k.markReady n m).fills = k.fills := rfl
@[simp] theorem core_markReady_tlb (k : Core) (n m : Nat) : (k.markReady n m).tlb = k.tlb := rfl
@[simp] theorem core_markReady_logL (k : Core) (n m : Nat) : (k.markReady n m).logL = k.logL := rfl
@[simp] theorem core_markReady_logA (k : Core) (n m : Nat) : (k.markReady n m).logA = k.logA := rfl
@[simp] theorem core_markReady_logOrd (k : Core) (n m : Nat) : (k.markReady n m).logOrd = k.logOrd := rfl
@[simp] theorem core_markReady_window (k : Core) (n m : Nat) : (k.markReady n m).window = k.window := rfl
@[simp] theorem core_markReady_weight (k : Core) (n m : Nat) : (k.markReady n m).weight = k.weight := rfl
@[simp] theorem core_markReady_freezeNext (k : Core) (n m : Nat) : (k.markReady n m).freezeNext = k.freezeNext := rfl
@[simp] theorem core_markReady_frz (k : Core) (n m : Nat) : (k.markReady n m).frz = k.frz := rfl
@[simp] theorem core_markReady_found (k : Core) (n m : Nat) : (k.markReady n m).found = k.found := rfl
@[simp] theorem core_markReady_poll (k : Core) (n m : Nat) : (k.markReady n m).poll = k.poll := rfl
@[simp] theorem core_markReady_crossed (k : Core) (n m : Nat) : (k.markReady n m).crossed = k.crossed := rfl
@[simp] theorem core_markReady_mac (k : Core) (n m : Nat) : (k.markReady n m).mac = k.mac := rfl
@[simp] theorem core_markReady_imageKey (k : Core) (n m : Nat) : (k.markReady n m).imageKey = k.imageKey := rfl
@[simp] theorem core_markReady_frzcnt (k : Core) (n m : Nat) : (k.markReady n m).frzcnt = k.frzcnt := rfl
@[simp] theorem core_markReady_throttled (k : Core) (n m : Nat) : (k.markReady n m).throttled = k.throttled := rfl
@[simp] theorem core_markReady_timingSub (k : Core) (n m : Nat) : (k.markReady n m).timingSub = k.timingSub := rfl
@[simp] theorem core_markReady_turn (k : Core) (n m : Nat) : (k.markReady n m).turn = k.turn := rfl
@[simp] theorem core_markReady_barrier (k : Core) (n m : Nat) : (k.markReady n m).barrier = k.barrier := rfl
@[simp] theorem core_markReady_cmdWait (k : Core) (n m : Nat) : (k.markReady n m).cmdWait = k.cmdWait := rfl
@[simp] theorem core_markReady_trapWait (k : Core) (n m : Nat) : (k.markReady n m).trapWait = k.trapWait := rfl
@[simp] theorem core_markReady_trapWs (k : Core) (n m : Nat) : (k.markReady n m).trapWs = k.trapWs := rfl
@[simp] theorem core_markReady_relBy (k : Core) (n m : Nat) : (k.markReady n m).relBy = k.relBy := rfl
@[simp] theorem core_markReady_freezeReq (k : Core) (n m : Nat) : (k.markReady n m).freezeReq = k.freezeReq := rfl
@[simp] theorem core_markReady_relScope (k : Core) (n m : Nat) : (k.markReady n m).relScope = k.relScope := rfl
@[simp] theorem core_markReady_relSurv (k : Core) (n m : Nat) : (k.markReady n m).relSurv = k.relSurv := rfl
@[simp] theorem core_markReady_haltEnd (k : Core) (n m : Nat) : (k.markReady n m).haltEnd = k.haltEnd := rfl
@[simp] theorem core_markReady_endMark (k : Core) (n m : Nat) : (k.markReady n m).endMark = k.endMark := rfl
@[simp] theorem core_markReady_stale (k : Core) (n m : Nat) : (k.markReady n m).stale = k.stale := rfl
@[simp] theorem core_markReady_hist (k : Core) (n m : Nat) : (k.markReady n m).hist = k.hist := rfl
@[simp] theorem core_markReady_seen (k : Core) (n m : Nat) : (k.markReady n m).seen = k.seen := rfl
@[simp] theorem core_markReady_foreign (k : Core) (n m : Nat) : (k.markReady n m).foreign = k.foreign := rfl
@[simp] theorem core_markReady_engW (k : Core) (n m : Nat) : (k.markReady n m).engW = k.engW := rfl
@[simp] theorem core_markReady_raceW (k : Core) (n m : Nat) : (k.markReady n m).raceW = k.raceW := rfl
@[simp] theorem core_markReady_icache (k : Core) (n m : Nat) : (k.markReady n m).icache = k.icache := rfl
@[simp] theorem core_markReady_sysw (k : Core) (n m : Nat) : (k.markReady n m).sysw = k.sysw := rfl

end Sys2Proof.Machine
end

