-- ==== Sys2Proof/Laws/State.lean ====
section
/-! SUPPORT. What each update of the package's state leaves as it was: one lemma for each field of the state and each update, and
what the sparse tables hold after a write. -/

set_option linter.unusedVariables false

namespace Sys2Proof.Machine

/-! ## Sparse tables -/

theorem tbl_find_put_same {α : Type} (t : Tbl α) (i : Nat) (a : α) : Tbl.find? (Tbl.put t i a) i = some a := by
  induction t with
  | nil => simp [Tbl.put, Tbl.find?]
  | cons p r ih =>
    obtain ⟨j, b⟩ := p
    simp only [Tbl.put]
    split
    · simp [Tbl.find?]
    · split
      · simp [Tbl.find?]
      · simp_all [Tbl.find?]

theorem tbl_find_put_ne {α : Type} (t : Tbl α) (i j : Nat) (a : α) (h : j ≠ i) : Tbl.find? (Tbl.put t i a) j = Tbl.find? t j := by
  induction t with
  | nil => simp [Tbl.put, Tbl.find?, h]
  | cons p r ih =>
    obtain ⟨n, b⟩ := p
    simp only [Tbl.put]
    split
    · simp [Tbl.find?, h]
    · split
      · simp_all [Tbl.find?]
      · simp_all [Tbl.find?]

@[simp] theorem tbl_getD_put_same {α : Type} (t : Tbl α) (i : Nat) (a d : α) : Tbl.getD (Tbl.put t i a) i d = a := by
  simp [Tbl.getD, tbl_find_put_same]

theorem tbl_getD_put_ne {α : Type} (t : Tbl α) (i j : Nat) (a d : α) (h : j ≠ i) : Tbl.getD (Tbl.put t i a) j d = Tbl.getD t j d := by
  simp [Tbl.getD, tbl_find_put_ne t i j a h]

@[simp] theorem core_setCore_same (s : State) (c : Nat) (k : Core) : (s.setCore c k).core c = k := tbl_getD_put_same _ _ _ _
@[simp] theorem core_modCore_same (s : State) (c : Nat) (f : Core → Core) : (s.modCore c f).core c = f (s.core c) := tbl_getD_put_same _ _ _ _
theorem core_setCore_ne (s : State) (c d : Nat) (k : Core) (h : d ≠ c) : (s.setCore c k).core d = s.core d :=
  tbl_getD_put_ne _ _ _ _ _ h
theorem core_modCore_ne (s : State) (c d : Nat) (f : Core → Core) (h : d ≠ c) : (s.modCore c f).core d = s.core d :=
  core_setCore_ne s c d _ h
@[simp] theorem ctx_setCtx_same (s : State) (i : Nat) (x : Ctx) : (s.setCtx i x).ctx i = x := tbl_getD_put_same _ _ _ _
@[simp] theorem ctx_modCtx_same (s : State) (i : Nat) (f : Ctx → Ctx) : (s.modCtx i f).ctx i = f (s.ctx i) := tbl_getD_put_same _ _ _ _
theorem ctx_setCtx_ne (s : State) (i j : Nat) (x : Ctx) (h : j ≠ i) : (s.setCtx i x).ctx j = s.ctx j :=
  tbl_getD_put_ne _ _ _ _ _ h
@[simp] theorem launch_setLaunch_same (s : State) (i : Nat) (x : Launch) : (s.setLaunch i x).launch i = x :=
  tbl_getD_put_same _ _ _ _
@[simp] theorem launch_modLaunch_same (s : State) (i : Nat) (f : Launch → Launch) : (s.modLaunch i f).launch i = f (s.launch i) :=
  tbl_getD_put_same _ _ _ _
@[simp] theorem port_setPort_same (s : State) (i : Nat) (x : Port) : (s.setPort i x).port i = x := tbl_getD_put_same _ _ _ _
@[simp] theorem slot_setSlot_same (s : State) (i : Nat) (x : LoupeSlot) : (s.setSlot i x).slot i = x := tbl_getD_put_same _ _ _ _

theorem tbl_put_put {α : Type} (t : Tbl α) (i : Nat) (a b : α) : Tbl.put (Tbl.put t i a) i b = Tbl.put t i b := by
  induction t with
  | nil => simp [Tbl.put]
  | cons p r ih =>
    obtain ⟨j, x⟩ := p
    simp only [Tbl.put]
    split
    · simp [Tbl.put]
    · split
      · simp [Tbl.put]
      · rename_i h1 h2
        simp [Tbl.put, h1, h2, ih]

@[simp] theorem setCore_setCore (s : State) (c : Nat) (k l : Core) : (s.setCore c k).setCore c l = s.setCore c l := by
  simp only [State.setCore, tbl_put_put]
@[simp] theorem modCore_setCore (s : State) (c : Nat) (k : Core) (f : Core → Core) : (s.setCore c k).modCore c f = s.setCore c (f k) := by
  rw [State.modCore, core_setCore_same, setCore_setCore]

/-! ## Updates of the state, field by field -/

@[simp] theorem setCore_now (s : State) (c : Nat) (k : Core) : (s.setCore c k).now = s.now := rfl
@[simp] theorem setCore_mem (s : State) (c : Nat) (k : Core) : (s.setCore c k).mem = s.mem := rfl
@[simp] theorem setCore_ctxs (s : State) (c : Nat) (k : Core) : (s.setCore c k).ctxs = s.ctxs := rfl
@[simp] theorem setCore_launches (s : State) (c : Nat) (k : Core) : (s.setCore c k).launches = s.launches := rfl
@[simp] theorem setCore_nLaunch (s : State) (c : Nat) (k : Core) : (s.setCore c k).nLaunch = s.nLaunch := rfl
@[simp] theorem setCore_dies (s : State) (c : Nat) (k : Core) : (s.setCore c k).dies = s.dies := rfl
@[simp] theorem setCore_qsb (s : State) (c : Nat) (k : Core) : (s.setCore c k).qsb = s.qsb := rfl
@[simp] theorem setCore_carafe (s : State) (c : Nat) (k : Core) : (s.setCore c k).carafe = s.carafe := rfl
@[simp] theorem setCore_carafeOut (s : State) (c : Nat) (k : Core) : (s.setCore c k).carafeOut = s.carafeOut := rfl
@[simp] theorem setCore_interlocked (s : State) (c : Nat) (k : Core) : (s.setCore c k).interlocked = s.interlocked := rfl
@[simp] theorem setCore_earlyCnt (s : State) (c : Nat) (k : Core) : (s.setCore c k).earlyCnt = s.earlyCnt := rfl
@[simp] theorem setCore_badCnt (s : State) (c : Nat) (k : Core) : (s.setCore c k).badCnt = s.badCnt := rfl
@[simp] theorem setCore_bridge (s : State) (c : Nat) (k : Core) : (s.setCore c k).bridge = s.bridge := rfl
@[simp] theorem setCore_nBridge (s : State) (c : Nat) (k : Core) : (s.setCore c k).nBridge = s.nBridge := rfl
@[simp] theorem setCore_outs (s : State) (c : Nat) (k : Core) : (s.setCore c k).outs = s.outs := rfl
@[simp] theorem setCore_nOut (s : State) (c : Nat) (k : Core) : (s.setCore c k).nOut = s.nOut := rfl
@[simp] theorem setCore_stalled (s : State) (c : Nat) (k : Core) : (s.setCore c k).stalled = s.stalled := rfl
@[simp] theorem setCore_answered (s : State) (c : Nat) (k : Core) : (s.setCore c k).answered = s.answered := rfl
@[simp] theorem setCore_netOut (s : State) (c : Nat) (k : Core) : (s.setCore c k).netOut = s.netOut := rfl
@[simp] theorem setCore_winIdle (s : State) (c : Nat) (k : Core) : (s.setCore c k).winIdle = s.winIdle := rfl
@[simp] theorem setCore_evLate (s : State) (c : Nat) (k : Core) : (s.setCore c k).evLate = s.evLate := rfl
@[simp] theorem setCore_loupe (s : State) (c : Nat) (k : Core) : (s.setCore c k).loupe = s.loupe := rfl
@[simp] theorem setCore_lpOut (s : State) (c : Nat) (k : Core) : (s.setCore c k).lpOut = s.lpOut := rfl
@[simp] theorem setCore_barista (s : State) (c : Nat) (k : Core) : (s.setCore c k).barista = s.barista := rfl
@[simp] theorem setCore_bqOrder (s : State) (c : Nat) (k : Core) : (s.setCore c k).bqOrder = s.bqOrder := rfl
@[simp] theorem setCore_prism (s : State) (c : Nat) (k : Core) : (s.setCore c k).prism = s.prism := rfl
@[simp] theorem setCore_nPrism (s : State) (c : Nat) (k : Core) : (s.setCore c k).nPrism = s.nPrism := rfl
@[simp] theorem setCore_deltas (s : State) (c : Nat) (k : Core) : (s.setCore c k).deltas = s.deltas := rfl
@[simp] theorem setCore_nDelta (s : State) (c : Nat) (k : Core) : (s.setCore c k).nDelta = s.nDelta := rfl
@[simp] theorem setCore_parCnt (s : State) (c : Nat) (k : Core) : (s.setCore c k).parCnt = s.parCnt := rfl
@[simp] theorem setCore_ports (s : State) (c : Nat) (k : Core) : (s.setCore c k).ports = s.ports := rfl
@[simp] theorem setCore_switches (s : State) (c : Nat) (k : Core) : (s.setCore c k).switches = s.switches := rfl
@[simp] theorem setCore_pairs (s : State) (c : Nat) (k : Core) : (s.setCore c k).pairs = s.pairs := rfl
@[simp] theorem setCore_pkgnum (s : State) (c : Nat) (k : Core) : (s.setCore c k).pkgnum = s.pkgnum := rfl
@[simp] theorem setCore_pkgSet (s : State) (c : Nat) (k : Core) : (s.setCore c k).pkgSet = s.pkgSet := rfl
@[simp] theorem setCore_framecnt (s : State) (c : Nat) (k : Core) : (s.setCore c k).framecnt = s.framecnt := rfl
@[simp] theorem setCore_framePos (s : State) (c : Nat) (k : Core) : (s.setCore c k).framePos = s.framePos := rfl
@[simp] theorem setCore_frameRun (s : State) (c : Nat) (k : Core) : (s.setCore c k).frameRun = s.frameRun := rfl
@[simp] theorem setCore_flat (s : State) (c : Nat) (k : Core) : (s.setCore c k).flat = s.flat := rfl
@[simp] theorem setCore_slotbase (s : State) (c : Nat) (k : Core) : (s.setCore c k).slotbase = s.slotbase := rfl
@[simp] theorem setCore_peertab (s : State) (c : Nat) (k : Core) : (s.setCore c k).peertab = s.peertab := rfl
@[simp] theorem setCore_pdefcnt (s : State) (c : Nat) (k : Core) : (s.setCore c k).pdefcnt = s.pdefcnt := rfl
@[simp] theorem setCore_pendFreeze (s : State) (c : Nat) (k : Core) : (s.setCore c k).pendFreeze = s.pendFreeze := rfl
@[simp] theorem setCore_frameFreeze (s : State) (c : Nat) (k : Core) : (s.setCore c k).frameFreeze = s.frameFreeze := rfl
@[simp] theorem setCore_expbase (s : State) (c : Nat) (k : Core) : (s.setCore c k).expbase = s.expbase := rfl
@[simp] theorem setCore_expn (s : State) (c : Nat) (k : Core) : (s.setCore c k).expn = s.expn := rfl
@[simp] theorem setCore_rwtbase (s : State) (c : Nat) (k : Core) : (s.setCore c k).rwtbase = s.rwtbase := rfl
@[simp] theorem setCore_mirbase (s : State) (c : Nat) (k : Core) : (s.setCore c k).mirbase = s.mirbase := rfl
@[simp] theorem setCore_pincnt (s : State) (c : Nat) (k : Core) : (s.setCore c k).pincnt = s.pincnt := rfl
@[simp] theorem setCore_boot (s : State) (c : Nat) (k : Core) : (s.setCore c k).boot = s.boot := rfl
@[simp] theorem setCore_mbox (s : State) (c : Nat) (k : Core) : (s.setCore c k).mbox = s.mbox := rfl
@[simp] theorem setCore_host (s : State) (c : Nat) (k : Core) : (s.setCore c k).host = s.host := rfl
@[simp] theorem setCore_agenda (s : State) (c : Nat) (k : Core) : (s.setCore c k).agenda = s.agenda := rfl
@[simp] theorem setCore_sensed (s : State) (c : Nat) (k : Core) : (s.setCore c k).sensed = s.sensed := rfl
@[simp] theorem setCore_cur (s : State) (c : Nat) (k : Core) : (s.setCore c k).cur = s.cur := rfl
@[simp] theorem setCore_fresh (s : State) (c : Nat) (k : Core) : (s.setCore c k).fresh = s.fresh := rfl
@[simp] theorem setCore_look_ctx (s : State) (c : Nat) (k : Core) (n0 : Nat) : (s.setCore c k).ctx n0 = s.ctx n0 := rfl
@[simp] theorem setCore_look_launch (s : State) (c : Nat) (k : Core) (n0 : Nat) : (s.setCore c k).launch n0 = s.launch n0 := rfl
@[simp] theorem setCore_look_die (s : State) (c : Nat) (k : Core) (n0 : Nat) : (s.setCore c k).die n0 = s.die n0 := rfl
@[simp] theorem setCore_look_port (s : State) (c : Nat) (k : Core) (n0 : Nat) : (s.setCore c k).port n0 = s.port n0 := rfl
@[simp] theorem setCore_look_slot (s : State) (c : Nat) (k : Core) (n0 : Nat) : (s.setCore c k).slot n0 = s.slot n0 := rfl

@[simp] theorem modCore_now (s : State) (c : Nat) (f : Core → Core) : (s.modCore c f).now = s.now := rfl
@[simp] theorem modCore_mem (s : State) (c : Nat) (f : Core → Core) : (s.modCore c f).mem = s.mem := rfl
@[simp] theorem modCore_ctxs (s : State) (c : Nat) (f : Core → Core) : (s.modCore c f).ctxs = s.ctxs := rfl
@[simp] theorem modCore_launches (s : State) (c : Nat) (f : Core → Core) : (s.modCore c f).launches = s.launches := rfl
@[simp] theorem modCore_nLaunch (s : State) (c : Nat) (f : Core → Core) : (s.modCore c f).nLaunch = s.nLaunch := rfl
@[simp] theorem modCore_dies (s : State) (c : Nat) (f : Core → Core) : (s.modCore c f).dies = s.dies := rfl
@[simp] theorem modCore_qsb (s : State) (c : Nat) (f : Core → Core) : (s.modCore c f).qsb = s.qsb := rfl
@[simp] theorem modCore_carafe (s : State) (c : Nat) (f : Core → Core) : (s.modCore c f).carafe = s.carafe := rfl
@[simp] theorem modCore_carafeOut (s : State) (c : Nat) (f : Core → Core) : (s.modCore c f).carafeOut = s.carafeOut := rfl
@[simp] theorem modCore_interlocked (s : State) (c : Nat) (f : Core → Core) : (s.modCore c f).interlocked = s.interlocked := rfl
@[simp] theorem modCore_earlyCnt (s : State) (c : Nat) (f : Core → Core) : (s.modCore c f).earlyCnt = s.earlyCnt := rfl
@[simp] theorem modCore_badCnt (s : State) (c : Nat) (f : Core → Core) : (s.modCore c f).badCnt = s.badCnt := rfl
@[simp] theorem modCore_bridge (s : State) (c : Nat) (f : Core → Core) : (s.modCore c f).bridge = s.bridge := rfl
@[simp] theorem modCore_nBridge (s : State) (c : Nat) (f : Core → Core) : (s.modCore c f).nBridge = s.nBridge := rfl
@[simp] theorem modCore_outs (s : State) (c : Nat) (f : Core → Core) : (s.modCore c f).outs = s.outs := rfl
@[simp] theorem modCore_nOut (s : State) (c : Nat) (f : Core → Core) : (s.modCore c f).nOut = s.nOut := rfl
@[simp] theorem modCore_stalled (s : State) (c : Nat) (f : Core → Core) : (s.modCore c f).stalled = s.stalled := rfl
@[simp] theorem modCore_answered (s : State) (c : Nat) (f : Core → Core) : (s.modCore c f).answered = s.answered := rfl
@[simp] theorem modCore_netOut (s : State) (c : Nat) (f : Core → Core) : (s.modCore c f).netOut = s.netOut := rfl
@[simp] theorem modCore_winIdle (s : State) (c : Nat) (f : Core → Core) : (s.modCore c f).winIdle = s.winIdle := rfl
@[simp] theorem modCore_evLate (s : State) (c : Nat) (f : Core → Core) : (s.modCore c f).evLate = s.evLate := rfl
@[simp] theorem modCore_loupe (s : State) (c : Nat) (f : Core → Core) : (s.modCore c f).loupe = s.loupe := rfl
@[simp] theorem modCore_lpOut (s : State) (c : Nat) (f : Core → Core) : (s.modCore c f).lpOut = s.lpOut := rfl
@[simp] theorem modCore_barista (s : State) (c : Nat) (f : Core → Core) : (s.modCore c f).barista = s.barista := rfl
@[simp] theorem modCore_bqOrder (s : State) (c : Nat) (f : Core → Core) : (s.modCore c f).bqOrder = s.bqOrder := rfl
@[simp] theorem modCore_prism (s : State) (c : Nat) (f : Core → Core) : (s.modCore c f).prism = s.prism := rfl
@[simp] theorem modCore_nPrism (s : State) (c : Nat) (f : Core → Core) : (s.modCore c f).nPrism = s.nPrism := rfl
@[simp] theorem modCore_deltas (s : State) (c : Nat) (f : Core → Core) : (s.modCore c f).deltas = s.deltas := rfl
@[simp] theorem modCore_nDelta (s : State) (c : Nat) (f : Core → Core) : (s.modCore c f).nDelta = s.nDelta := rfl
@[simp] theorem modCore_parCnt (s : State) (c : Nat) (f : Core → Core) : (s.modCore c f).parCnt = s.parCnt := rfl
@[simp] theorem modCore_ports (s : State) (c : Nat) (f : Core → Core) : (s.modCore c f).ports = s.ports := rfl
@[simp] theorem modCore_switches (s : State) (c : Nat) (f : Core → Core) : (s.modCore c f).switches = s.switches := rfl
@[simp] theorem modCore_pairs (s : State) (c : Nat) (f : Core → Core) : (s.modCore c f).pairs = s.pairs := rfl
@[simp] theorem modCore_pkgnum (s : State) (c : Nat) (f : Core → Core) : (s.modCore c f).pkgnum = s.pkgnum := rfl
@[simp] theorem modCore_pkgSet (s : State) (c : Nat) (f : Core → Core) : (s.modCore c f).pkgSet = s.pkgSet := rfl
@[simp] theorem modCore_framecnt (s : State) (c : Nat) (f : Core → Core) : (s.modCore c f).framecnt = s.framecnt := rfl
@[simp] theorem modCore_framePos (s : State) (c : Nat) (f : Core → Core) : (s.modCore c f).framePos = s.framePos := rfl
@[simp] theorem modCore_frameRun (s : State) (c : Nat) (f : Core → Core) : (s.modCore c f).frameRun = s.frameRun := rfl
@[simp] theorem modCore_flat (s : State) (c : Nat) (f : Core → Core) : (s.modCore c f).flat = s.flat := rfl
@[simp] theorem modCore_slotbase (s : State) (c : Nat) (f : Core → Core) : (s.modCore c f).slotbase = s.slotbase := rfl
@[simp] theorem modCore_peertab (s : State) (c : Nat) (f : Core → Core) : (s.modCore c f).peertab = s.peertab := rfl
@[simp] theorem modCore_pdefcnt (s : State) (c : Nat) (f : Core → Core) : (s.modCore c f).pdefcnt = s.pdefcnt := rfl
@[simp] theorem modCore_pendFreeze (s : State) (c : Nat) (f : Core → Core) : (s.modCore c f).pendFreeze = s.pendFreeze := rfl
@[simp] theorem modCore_frameFreeze (s : State) (c : Nat) (f : Core → Core) : (s.modCore c f).frameFreeze = s.frameFreeze := rfl
@[simp] theorem modCore_expbase (s : State) (c : Nat) (f : Core → Core) : (s.modCore c f).expbase = s.expbase := rfl
@[simp] theorem modCore_expn (s : State) (c : Nat) (f : Core → Core) : (s.modCore c f).expn = s.expn := rfl
@[simp] theorem modCore_rwtbase (s : State) (c : Nat) (f : Core → Core) : (s.modCore c f).rwtbase = s.rwtbase := rfl
@[simp] theorem modCore_mirbase (s : State) (c : Nat) (f : Core → Core) : (s.modCore c f).mirbase = s.mirbase := rfl
@[simp] theorem modCore_pincnt (s : State) (c : Nat) (f : Core → Core) : (s.modCore c f).pincnt = s.pincnt := rfl
@[simp] theorem modCore_boot (s : State) (c : Nat) (f : Core → Core) : (s.modCore c f).boot = s.boot := rfl
@[simp] theorem modCore_mbox (s : State) (c : Nat) (f : Core → Core) : (s.modCore c f).mbox = s.mbox := rfl
@[simp] theorem modCore_host (s : State) (c : Nat) (f : Core → Core) : (s.modCore c f).host = s.host := rfl
@[simp] theorem modCore_agenda (s : State) (c : Nat) (f : Core → Core) : (s.modCore c f).agenda = s.agenda := rfl
@[simp] theorem modCore_sensed (s : State) (c : Nat) (f : Core → Core) : (s.modCore c f).sensed = s.sensed := rfl
@[simp] theorem modCore_cur (s : State) (c : Nat) (f : Core → Core) : (s.modCore c f).cur = s.cur := rfl
@[simp] theorem modCore_fresh (s : State) (c : Nat) (f : Core → Core) : (s.modCore c f).fresh = s.fresh := rfl
@[simp] theorem modCore_look_ctx (s : State) (c : Nat) (f : Core → Core) (n0 : Nat) : (s.modCore c f).ctx n0 = s.ctx n0 := rfl
@[simp] theorem modCore_look_launch (s : State) (c : Nat) (f : Core → Core) (n0 : Nat) : (s.modCore c f).launch n0 = s.launch n0 := rfl
@[simp] theorem modCore_look_die (s : State) (c : Nat) (f : Core → Core) (n0 : Nat) : (s.modCore c f).die n0 = s.die n0 := rfl
@[simp] theorem modCore_look_port (s : State) (c : Nat) (f : Core → Core) (n0 : Nat) : (s.modCore c f).port n0 = s.port n0 := rfl
@[simp] theorem modCore_look_slot (s : State) (c : Nat) (f : Core → Core) (n0 : Nat) : (s.modCore c f).slot n0 = s.slot n0 := rfl

@[simp] theorem setCtx_now (s : State) (i : Nat) (x : Ctx) : (s.setCtx i x).now = s.now := rfl
@[simp] theorem setCtx_mem (s : State) (i : Nat) (x : Ctx) : (s.setCtx i x).mem = s.mem := rfl
@[simp] theorem setCtx_cores (s : State) (i : Nat) (x : Ctx) : (s.setCtx i x).cores = s.cores := rfl
@[simp] theorem setCtx_launches (s : State) (i : Nat) (x : Ctx) : (s.setCtx i x).launches = s.launches := rfl
@[simp] theorem setCtx_nLaunch (s : State) (i : Nat) (x : Ctx) : (s.setCtx i x).nLaunch = s.nLaunch := rfl
@[simp] theorem setCtx_dies (s : State) (i : Nat) (x : Ctx) : (s.setCtx i x).dies = s.dies := rfl
@[simp] theorem setCtx_qsb (s : State) (i : Nat) (x : Ctx) : (s.setCtx i x).qsb = s.qsb := rfl
@[simp] theorem setCtx_carafe (s : State) (i : Nat) (x : Ctx) : (s.setCtx i x).carafe = s.carafe := rfl
@[simp] theorem setCtx_carafeOut (s : State) (i : Nat) (x : Ctx) : (s.setCtx i x).carafeOut = s.carafeOut := rfl
@[simp] theorem setCtx_interlocked (s : State) (i : Nat) (x : Ctx) : (s.setCtx i x).interlocked = s.interlocked := rfl
@[simp] theorem setCtx_earlyCnt (s : State) (i : Nat) (x : Ctx) : (s.setCtx i x).earlyCnt = s.earlyCnt := rfl
@[simp] theorem setCtx_badCnt (s : State) (i : Nat) (x : Ctx) : (s.setCtx i x).badCnt = s.badCnt := rfl
@[simp] theorem setCtx_bridge (s : State) (i : Nat) (x : Ctx) : (s.setCtx i x).bridge = s.bridge := rfl
@[simp] theorem setCtx_nBridge (s : State) (i : Nat) (x : Ctx) : (s.setCtx i x).nBridge = s.nBridge := rfl
@[simp] theorem setCtx_outs (s : State) (i : Nat) (x : Ctx) : (s.setCtx i x).outs = s.outs := rfl
@[simp] theorem setCtx_nOut (s : State) (i : Nat) (x : Ctx) : (s.setCtx i x).nOut = s.nOut := rfl
@[simp] theorem setCtx_stalled (s : State) (i : Nat) (x : Ctx) : (s.setCtx i x).stalled = s.stalled := rfl
@[simp] theorem setCtx_answered (s : State) (i : Nat) (x : Ctx) : (s.setCtx i x).answered = s.answered := rfl
@[simp] theorem setCtx_netOut (s : State) (i : Nat) (x : Ctx) : (s.setCtx i x).netOut = s.netOut := rfl
@[simp] theorem setCtx_winIdle (s : State) (i : Nat) (x : Ctx) : (s.setCtx i x).winIdle = s.winIdle := rfl
@[simp] theorem setCtx_evLate (s : State) (i : Nat) (x : Ctx) : (s.setCtx i x).evLate = s.evLate := rfl
@[simp] theorem setCtx_loupe (s : State) (i : Nat) (x : Ctx) : (s.setCtx i x).loupe = s.loupe := rfl
@[simp] theorem setCtx_lpOut (s : State) (i : Nat) (x : Ctx) : (s.setCtx i x).lpOut = s.lpOut := rfl
@[simp] theorem setCtx_barista (s : State) (i : Nat) (x : Ctx) : (s.setCtx i x).barista = s.barista := rfl
@[simp] theorem setCtx_bqOrder (s : State) (i : Nat) (x : Ctx) : (s.setCtx i x).bqOrder = s.bqOrder := rfl
@[simp] theorem setCtx_prism (s : State) (i : Nat) (x : Ctx) : (s.setCtx i x).prism = s.prism := rfl
@[simp] theorem setCtx_nPrism (s : State) (i : Nat) (x : Ctx) : (s.setCtx i x).nPrism = s.nPrism := rfl
@[simp] theorem setCtx_deltas (s : State) (i : Nat) (x : Ctx) : (s.setCtx i x).deltas = s.deltas := rfl
@[simp] theorem setCtx_nDelta (s : State) (i : Nat) (x : Ctx) : (s.setCtx i x).nDelta = s.nDelta := rfl
@[simp] theorem setCtx_parCnt (s : State) (i : Nat) (x : Ctx) : (s.setCtx i x).parCnt = s.parCnt := rfl
@[simp] theorem setCtx_ports (s : State) (i : Nat) (x : Ctx) : (s.setCtx i x).ports = s.ports := rfl
@[simp] theorem setCtx_switches (s : State) (i : Nat) (x : Ctx) : (s.setCtx i x).switches = s.switches := rfl
@[simp] theorem setCtx_pairs (s : State) (i : Nat) (x : Ctx) : (s.setCtx i x).pairs = s.pairs := rfl
@[simp] theorem setCtx_pkgnum (s : State) (i : Nat) (x : Ctx) : (s.setCtx i x).pkgnum = s.pkgnum := rfl
@[simp] theorem setCtx_pkgSet (s : State) (i : Nat) (x : Ctx) : (s.setCtx i x).pkgSet = s.pkgSet := rfl
@[simp] theorem setCtx_framecnt (s : State) (i : Nat) (x : Ctx) : (s.setCtx i x).framecnt = s.framecnt := rfl
@[simp] theorem setCtx_framePos (s : State) (i : Nat) (x : Ctx) : (s.setCtx i x).framePos = s.framePos := rfl
@[simp] theorem setCtx_frameRun (s : State) (i : Nat) (x : Ctx) : (s.setCtx i x).frameRun = s.frameRun := rfl
@[simp] theorem setCtx_flat (s : State) (i : Nat) (x : Ctx) : (s.setCtx i x).flat = s.flat := rfl
@[simp] theorem setCtx_slotbase (s : State) (i : Nat) (x : Ctx) : (s.setCtx i x).slotbase = s.slotbase := rfl
@[simp] theorem setCtx_peertab (s : State) (i : Nat) (x : Ctx) : (s.setCtx i x).peertab = s.peertab := rfl
@[simp] theorem setCtx_pdefcnt (s : State) (i : Nat) (x : Ctx) : (s.setCtx i x).pdefcnt = s.pdefcnt := rfl
@[simp] theorem setCtx_pendFreeze (s : State) (i : Nat) (x : Ctx) : (s.setCtx i x).pendFreeze = s.pendFreeze := rfl
@[simp] theorem setCtx_frameFreeze (s : State) (i : Nat) (x : Ctx) : (s.setCtx i x).frameFreeze = s.frameFreeze := rfl
@[simp] theorem setCtx_expbase (s : State) (i : Nat) (x : Ctx) : (s.setCtx i x).expbase = s.expbase := rfl
@[simp] theorem setCtx_expn (s : State) (i : Nat) (x : Ctx) : (s.setCtx i x).expn = s.expn := rfl
@[simp] theorem setCtx_rwtbase (s : State) (i : Nat) (x : Ctx) : (s.setCtx i x).rwtbase = s.rwtbase := rfl
@[simp] theorem setCtx_mirbase (s : State) (i : Nat) (x : Ctx) : (s.setCtx i x).mirbase = s.mirbase := rfl
@[simp] theorem setCtx_pincnt (s : State) (i : Nat) (x : Ctx) : (s.setCtx i x).pincnt = s.pincnt := rfl
@[simp] theorem setCtx_boot (s : State) (i : Nat) (x : Ctx) : (s.setCtx i x).boot = s.boot := rfl
@[simp] theorem setCtx_mbox (s : State) (i : Nat) (x : Ctx) : (s.setCtx i x).mbox = s.mbox := rfl
@[simp] theorem setCtx_host (s : State) (i : Nat) (x : Ctx) : (s.setCtx i x).host = s.host := rfl
@[simp] theorem setCtx_agenda (s : State) (i : Nat) (x : Ctx) : (s.setCtx i x).agenda = s.agenda := rfl
@[simp] theorem setCtx_sensed (s : State) (i : Nat) (x : Ctx) : (s.setCtx i x).sensed = s.sensed := rfl
@[simp] theorem setCtx_cur (s : State) (i : Nat) (x : Ctx) : (s.setCtx i x).cur = s.cur := rfl
@[simp] theorem setCtx_fresh (s : State) (i : Nat) (x : Ctx) : (s.setCtx i x).fresh = s.fresh := rfl
@[simp] theorem setCtx_look_core (s : State) (i : Nat) (x : Ctx) (n0 : Nat) : (s.setCtx i x).core n0 = s.core n0 := rfl
@[simp] theorem setCtx_look_launch (s : State) (i : Nat) (x : Ctx) (n0 : Nat) : (s.setCtx i x).launch n0 = s.launch n0 := rfl
@[simp] theorem setCtx_look_die (s : State) (i : Nat) (x : Ctx) (n0 : Nat) : (s.setCtx i x).die n0 = s.die n0 := rfl
@[simp] theorem setCtx_look_port (s : State) (i : Nat) (x : Ctx) (n0 : Nat) : (s.setCtx i x).port n0 = s.port n0 := rfl
@[simp] theorem setCtx_look_slot (s : State) (i : Nat) (x : Ctx) (n0 : Nat) : (s.setCtx i x).slot n0 = s.slot n0 := rfl

@[simp] theorem modCtx_now (s : State) (i : Nat) (f : Ctx → Ctx) : (s.modCtx i f).now = s.now := rfl
@[simp] theorem modCtx_mem (s : State) (i : Nat) (f : Ctx → Ctx) : (s.modCtx i f).mem = s.mem := rfl
@[simp] theorem modCtx_cores (s : State) (i : Nat) (f : Ctx → Ctx) : (s.modCtx i f).cores = s.cores := rfl
@[simp] theorem modCtx_launches (s : State) (i : Nat) (f : Ctx → Ctx) : (s.modCtx i f).launches = s.launches := rfl
@[simp] theorem modCtx_nLaunch (s : State) (i : Nat) (f : Ctx → Ctx) : (s.modCtx i f).nLaunch = s.nLaunch := rfl
@[simp] theorem modCtx_dies (s : State) (i : Nat) (f : Ctx → Ctx) : (s.modCtx i f).dies = s.dies := rfl
@[simp] theorem modCtx_qsb (s : State) (i : Nat) (f : Ctx → Ctx) : (s.modCtx i f).qsb = s.qsb := rfl
@[simp] theorem modCtx_carafe (s : State) (i : Nat) (f : Ctx → Ctx) : (s.modCtx i f).carafe = s.carafe := rfl
@[simp] theorem modCtx_carafeOut (s : State) (i : Nat) (f : Ctx → Ctx) : (s.modCtx i f).carafeOut = s.carafeOut := rfl
@[simp] theorem modCtx_interlocked (s : State) (i : Nat) (f : Ctx → Ctx) : (s.modCtx i f).interlocked = s.interlocked := rfl
@[simp] theorem modCtx_earlyCnt (s : State) (i : Nat) (f : Ctx → Ctx) : (s.modCtx i f).earlyCnt = s.earlyCnt := rfl
@[simp] theorem modCtx_badCnt (s : State) (i : Nat) (f : Ctx → Ctx) : (s.modCtx i f).badCnt = s.badCnt := rfl
@[simp] theorem modCtx_bridge (s : State) (i : Nat) (f : Ctx → Ctx) : (s.modCtx i f).bridge = s.bridge := rfl
@[simp] theorem modCtx_nBridge (s : State) (i : Nat) (f : Ctx → Ctx) : (s.modCtx i f).nBridge = s.nBridge := rfl
@[simp] theorem modCtx_outs (s : State) (i : Nat) (f : Ctx → Ctx) : (s.modCtx i f).outs = s.outs := rfl
@[simp] theorem modCtx_nOut (s : State) (i : Nat) (f : Ctx → Ctx) : (s.modCtx i f).nOut = s.nOut := rfl
@[simp] theorem modCtx_stalled (s : State) (i : Nat) (f : Ctx → Ctx) : (s.modCtx i f).stalled = s.stalled := rfl
@[simp] theorem modCtx_answered (s : State) (i : Nat) (f : Ctx → Ctx) : (s.modCtx i f).answered = s.answered := rfl
@[simp] theorem modCtx_netOut (s : State) (i : Nat) (f : Ctx → Ctx) : (s.modCtx i f).netOut = s.netOut := rfl
@[simp] theorem modCtx_winIdle (s : State) (i : Nat) (f : Ctx → Ctx) : (s.modCtx i f).winIdle = s.winIdle := rfl
@[simp] theorem modCtx_evLate (s : State) (i : Nat) (f : Ctx → Ctx) : (s.modCtx i f).evLate = s.evLate := rfl
@[simp] theorem modCtx_loupe (s : State) (i : Nat) (f : Ctx → Ctx) : (s.modCtx i f).loupe = s.loupe := rfl
@[simp] theorem modCtx_lpOut (s : State) (i : Nat) (f : Ctx → Ctx) : (s.modCtx i f).lpOut = s.lpOut := rfl
@[simp] theorem modCtx_barista (s : State) (i : Nat) (f : Ctx → Ctx) : (s.modCtx i f).barista = s.barista := rfl
@[simp] theorem modCtx_bqOrder (s : State) (i : Nat) (f : Ctx → Ctx) : (s.modCtx i f).bqOrder = s.bqOrder := rfl
@[simp] theorem modCtx_prism (s : State) (i : Nat) (f : Ctx → Ctx) : (s.modCtx i f).prism = s.prism := rfl
@[simp] theorem modCtx_nPrism (s : State) (i : Nat) (f : Ctx → Ctx) : (s.modCtx i f).nPrism = s.nPrism := rfl
@[simp] theorem modCtx_deltas (s : State) (i : Nat) (f : Ctx → Ctx) : (s.modCtx i f).deltas = s.deltas := rfl
@[simp] theorem modCtx_nDelta (s : State) (i : Nat) (f : Ctx → Ctx) : (s.modCtx i f).nDelta = s.nDelta := rfl
@[simp] theorem modCtx_parCnt (s : State) (i : Nat) (f : Ctx → Ctx) : (s.modCtx i f).parCnt = s.parCnt := rfl
@[simp] theorem modCtx_ports (s : State) (i : Nat) (f : Ctx → Ctx) : (s.modCtx i f).ports = s.ports := rfl
@[simp] theorem modCtx_switches (s : State) (i : Nat) (f : Ctx → Ctx) : (s.modCtx i f).switches = s.switches := rfl
@[simp] theorem modCtx_pairs (s : State) (i : Nat) (f : Ctx → Ctx) : (s.modCtx i f).pairs = s.pairs := rfl
@[simp] theorem modCtx_pkgnum (s : State) (i : Nat) (f : Ctx → Ctx) : (s.modCtx i f).pkgnum = s.pkgnum := rfl
@[simp] theorem modCtx_pkgSet (s : State) (i : Nat) (f : Ctx → Ctx) : (s.modCtx i f).pkgSet = s.pkgSet := rfl
@[simp] theorem modCtx_framecnt (s : State) (i : Nat) (f : Ctx → Ctx) : (s.modCtx i f).framecnt = s.framecnt := rfl
@[simp] theorem modCtx_framePos (s : State) (i : Nat) (f : Ctx → Ctx) : (s.modCtx i f).framePos = s.framePos := rfl
@[simp] theorem modCtx_frameRun (s : State) (i : Nat) (f : Ctx → Ctx) : (s.modCtx i f).frameRun = s.frameRun := rfl
@[simp] theorem modCtx_flat (s : State) (i : Nat) (f : Ctx → Ctx) : (s.modCtx i f).flat = s.flat := rfl
@[simp] theorem modCtx_slotbase (s : State) (i : Nat) (f : Ctx → Ctx) : (s.modCtx i f).slotbase = s.slotbase := rfl
@[simp] theorem modCtx_peertab (s : State) (i : Nat) (f : Ctx → Ctx) : (s.modCtx i f).peertab = s.peertab := rfl
@[simp] theorem modCtx_pdefcnt (s : State) (i : Nat) (f : Ctx → Ctx) : (s.modCtx i f).pdefcnt = s.pdefcnt := rfl
@[simp] theorem modCtx_pendFreeze (s : State) (i : Nat) (f : Ctx → Ctx) : (s.modCtx i f).pendFreeze = s.pendFreeze := rfl
@[simp] theorem modCtx_frameFreeze (s : State) (i : Nat) (f : Ctx → Ctx) : (s.modCtx i f).frameFreeze = s.frameFreeze := rfl
@[simp] theorem modCtx_expbase (s : State) (i : Nat) (f : Ctx → Ctx) : (s.modCtx i f).expbase = s.expbase := rfl
@[simp] theorem modCtx_expn (s : State) (i : Nat) (f : Ctx → Ctx) : (s.modCtx i f).expn = s.expn := rfl
@[simp] theorem modCtx_rwtbase (s : State) (i : Nat) (f : Ctx → Ctx) : (s.modCtx i f).rwtbase = s.rwtbase := rfl
@[simp] theorem modCtx_mirbase (s : State) (i : Nat) (f : Ctx → Ctx) : (s.modCtx i f).mirbase = s.mirbase := rfl
@[simp] theorem modCtx_pincnt (s : State) (i : Nat) (f : Ctx → Ctx) : (s.modCtx i f).pincnt = s.pincnt := rfl
@[simp] theorem modCtx_boot (s : State) (i : Nat) (f : Ctx → Ctx) : (s.modCtx i f).boot = s.boot := rfl
@[simp] theorem modCtx_mbox (s : State) (i : Nat) (f : Ctx → Ctx) : (s.modCtx i f).mbox = s.mbox := rfl
@[simp] theorem modCtx_host (s : State) (i : Nat) (f : Ctx → Ctx) : (s.modCtx i f).host = s.host := rfl
@[simp] theorem modCtx_agenda (s : State) (i : Nat) (f : Ctx → Ctx) : (s.modCtx i f).agenda = s.agenda := rfl
@[simp] theorem modCtx_sensed (s : State) (i : Nat) (f : Ctx → Ctx) : (s.modCtx i f).sensed = s.sensed := rfl
@[simp] theorem modCtx_cur (s : State) (i : Nat) (f : Ctx → Ctx) : (s.modCtx i f).cur = s.cur := rfl
@[simp] theorem modCtx_fresh (s : State) (i : Nat) (f : Ctx → Ctx) : (s.modCtx i f).fresh = s.fresh := rfl
@[simp] theorem modCtx_look_core (s : State) (i : Nat) (f : Ctx → Ctx) (n0 : Nat) : (s.modCtx i f).core n0 = s.core n0 := rfl
@[simp] theorem modCtx_look_launch (s : State) (i : Nat) (f : Ctx → Ctx) (n0 : Nat) : (s.modCtx i f).launch n0 = s.launch n0 := rfl
@[simp] theorem modCtx_look_die (s : State) (i : Nat) (f : Ctx → Ctx) (n0 : Nat) : (s.modCtx i f).die n0 = s.die n0 := rfl
@[simp] theorem modCtx_look_port (s : State) (i : Nat) (f : Ctx → Ctx) (n0 : Nat) : (s.modCtx i f).port n0 = s.port n0 := rfl
@[simp] theorem modCtx_look_slot (s : State) (i : Nat) (f : Ctx → Ctx) (n0 : Nat) : (s.modCtx i f).slot n0 = s.slot n0 := rfl

@[simp] theorem setDie_now (s : State) (d : Nat) (x : Die) : (s.setDie d x).now = s.now := rfl
@[simp] theorem setDie_mem (s : State) (d : Nat) (x : Die) : (s.setDie d x).mem = s.mem := rfl
@[simp] theorem setDie_cores (s : State) (d : Nat) (x : Die) : (s.setDie d x).cores = s.cores := rfl
@[simp] theorem setDie_ctxs (s : State) (d : Nat) (x : Die) : (s.setDie d x).ctxs = s.ctxs := rfl
@[simp] theorem setDie_launches (s : State) (d : Nat) (x : Die) : (s.setDie d x).launches = s.launches := rfl
@[simp] theorem setDie_nLaunch (s : State) (d : Nat) (x : Die) : (s.setDie d x).nLaunch = s.nLaunch := rfl
@[simp] theorem setDie_qsb (s : State) (d : Nat) (x : Die) : (s.setDie d x).qsb = s.qsb := rfl
@[simp] theorem setDie_carafe (s : State) (d : Nat) (x : Die) : (s.setDie d x).carafe = s.carafe := rfl
@[simp] theorem setDie_carafeOut (s : State) (d : Nat) (x : Die) : (s.setDie d x).carafeOut = s.carafeOut := rfl
@[simp] theorem setDie_interlocked (s : State) (d : Nat) (x : Die) : (s.setDie d x).interlocked = s.interlocked := rfl
@[simp] theorem setDie_earlyCnt (s : State) (d : Nat) (x : Die) : (s.setDie d x).earlyCnt = s.earlyCnt := rfl
@[simp] theorem setDie_badCnt (s : State) (d : Nat) (x : Die) : (s.setDie d x).badCnt = s.badCnt := rfl
@[simp] theorem setDie_bridge (s : State) (d : Nat) (x : Die) : (s.setDie d x).bridge = s.bridge := rfl
@[simp] theorem setDie_nBridge (s : State) (d : Nat) (x : Die) : (s.setDie d x).nBridge = s.nBridge := rfl
@[simp] theorem setDie_outs (s : State) (d : Nat) (x : Die) : (s.setDie d x).outs = s.outs := rfl
@[simp] theorem setDie_nOut (s : State) (d : Nat) (x : Die) : (s.setDie d x).nOut = s.nOut := rfl
@[simp] theorem setDie_stalled (s : State) (d : Nat) (x : Die) : (s.setDie d x).stalled = s.stalled := rfl
@[simp] theorem setDie_answered (s : State) (d : Nat) (x : Die) : (s.setDie d x).answered = s.answered := rfl
@[simp] theorem setDie_netOut (s : State) (d : Nat) (x : Die) : (s.setDie d x).netOut = s.netOut := rfl
@[simp] theorem setDie_winIdle (s : State) (d : Nat) (x : Die) : (s.setDie d x).winIdle = s.winIdle := rfl
@[simp] theorem setDie_evLate (s : State) (d : Nat) (x : Die) : (s.setDie d x).evLate = s.evLate := rfl
@[simp] theorem setDie_loupe (s : State) (d : Nat) (x : Die) : (s.setDie d x).loupe = s.loupe := rfl
@[simp] theorem setDie_lpOut (s : State) (d : Nat) (x : Die) : (s.setDie d x).lpOut = s.lpOut := rfl
@[simp] theorem setDie_barista (s : State) (d : Nat) (x : Die) : (s.setDie d x).barista = s.barista := rfl
@[simp] theorem setDie_bqOrder (s : State) (d : Nat) (x : Die) : (s.setDie d x).bqOrder = s.bqOrder := rfl
@[simp] theorem setDie_prism (s : State) (d : Nat) (x : Die) : (s.setDie d x).prism = s.prism := rfl
@[simp] theorem setDie_nPrism (s : State) (d : Nat) (x : Die) : (s.setDie d x).nPrism = s.nPrism := rfl
@[simp] theorem setDie_deltas (s : State) (d : Nat) (x : Die) : (s.setDie d x).deltas = s.deltas := rfl
@[simp] theorem setDie_nDelta (s : State) (d : Nat) (x : Die) : (s.setDie d x).nDelta = s.nDelta := rfl
@[simp] theorem setDie_parCnt (s : State) (d : Nat) (x : Die) : (s.setDie d x).parCnt = s.parCnt := rfl
@[simp] theorem setDie_ports (s : State) (d : Nat) (x : Die) : (s.setDie d x).ports = s.ports := rfl
@[simp] theorem setDie_switches (s : State) (d : Nat) (x : Die) : (s.setDie d x).switches = s.switches := rfl
@[simp] theorem setDie_pairs (s : State) (d : Nat) (x : Die) : (s.setDie d x).pairs = s.pairs := rfl
@[simp] theorem setDie_pkgnum (s : State) (d : Nat) (x : Die) : (s.setDie d x).pkgnum = s.pkgnum := rfl
@[simp] theorem setDie_pkgSet (s : State) (d : Nat) (x : Die) : (s.setDie d x).pkgSet = s.pkgSet := rfl
@[simp] theorem setDie_framecnt (s : State) (d : Nat) (x : Die) : (s.setDie d x).framecnt = s.framecnt := rfl
@[simp] theorem setDie_framePos (s : State) (d : Nat) (x : Die) : (s.setDie d x).framePos = s.framePos := rfl
@[simp] theorem setDie_frameRun (s : State) (d : Nat) (x : Die) : (s.setDie d x).frameRun = s.frameRun := rfl
@[simp] theorem setDie_flat (s : State) (d : Nat) (x : Die) : (s.setDie d x).flat = s.flat := rfl
@[simp] theorem setDie_slotbase (s : State) (d : Nat) (x : Die) : (s.setDie d x).slotbase = s.slotbase := rfl
@[simp] theorem setDie_peertab (s : State) (d : Nat) (x : Die) : (s.setDie d x).peertab = s.peertab := rfl
@[simp] theorem setDie_pdefcnt (s : State) (d : Nat) (x : Die) : (s.setDie d x).pdefcnt = s.pdefcnt := rfl
@[simp] theorem setDie_pendFreeze (s : State) (d : Nat) (x : Die) : (s.setDie d x).pendFreeze = s.pendFreeze := rfl
@[simp] theorem setDie_frameFreeze (s : State) (d : Nat) (x : Die) : (s.setDie d x).frameFreeze = s.frameFreeze := rfl
@[simp] theorem setDie_expbase (s : State) (d : Nat) (x : Die) : (s.setDie d x).expbase = s.expbase := rfl
@[simp] theorem setDie_expn (s : State) (d : Nat) (x : Die) : (s.setDie d x).expn = s.expn := rfl
@[simp] theorem setDie_rwtbase (s : State) (d : Nat) (x : Die) : (s.setDie d x).rwtbase = s.rwtbase := rfl
@[simp] theorem setDie_mirbase (s : State) (d : Nat) (x : Die) : (s.setDie d x).mirbase = s.mirbase := rfl
@[simp] theorem setDie_pincnt (s : State) (d : Nat) (x : Die) : (s.setDie d x).pincnt = s.pincnt := rfl
@[simp] theorem setDie_boot (s : State) (d : Nat) (x : Die) : (s.setDie d x).boot = s.boot := rfl
@[simp] theorem setDie_mbox (s : State) (d : Nat) (x : Die) : (s.setDie d x).mbox = s.mbox := rfl
@[simp] theorem setDie_host (s : State) (d : Nat) (x : Die) : (s.setDie d x).host = s.host := rfl
@[simp] theorem setDie_agenda (s : State) (d : Nat) (x : Die) : (s.setDie d x).agenda = s.agenda := rfl
@[simp] theorem setDie_sensed (s : State) (d : Nat) (x : Die) : (s.setDie d x).sensed = s.sensed := rfl
@[simp] theorem setDie_cur (s : State) (d : Nat) (x : Die) : (s.setDie d x).cur = s.cur := rfl
@[simp] theorem setDie_fresh (s : State) (d : Nat) (x : Die) : (s.setDie d x).fresh = s.fresh := rfl
@[simp] theorem setDie_look_core (s : State) (d : Nat) (x : Die) (n0 : Nat) : (s.setDie d x).core n0 = s.core n0 := rfl
@[simp] theorem setDie_look_ctx (s : State) (d : Nat) (x : Die) (n0 : Nat) : (s.setDie d x).ctx n0 = s.ctx n0 := rfl
@[simp] theorem setDie_look_launch (s : State) (d : Nat) (x : Die) (n0 : Nat) : (s.setDie d x).launch n0 = s.launch n0 := rfl
@[simp] theorem setDie_look_port (s : State) (d : Nat) (x : Die) (n0 : Nat) : (s.setDie d x).port n0 = s.port n0 := rfl
@[simp] theorem setDie_look_slot (s : State) (d : Nat) (x : Die) (n0 : Nat) : (s.setDie d x).slot n0 = s.slot n0 := rfl

@[simp] theorem modDie_now (s : State) (d : Nat) (f : Die → Die) : (s.modDie d f).now = s.now := rfl
@[simp] theorem modDie_mem (s : State) (d : Nat) (f : Die → Die) : (s.modDie d f).mem = s.mem := rfl
@[simp] theorem modDie_cores (s : State) (d : Nat) (f : Die → Die) : (s.modDie d f).cores = s.cores := rfl
@[simp] theorem modDie_ctxs (s : State) (d : Nat) (f : Die → Die) : (s.modDie d f).ctxs = s.ctxs := rfl
@[simp] theorem modDie_launches (s : State) (d : Nat) (f : Die → Die) : (s.modDie d f).launches = s.launches := rfl
@[simp] theorem modDie_nLaunch (s : State) (d : Nat) (f : Die → Die) : (s.modDie d f).nLaunch = s.nLaunch := rfl
@[simp] theorem modDie_qsb (s : State) (d : Nat) (f : Die → Die) : (s.modDie d f).qsb = s.qsb := rfl
@[simp] theorem modDie_carafe (s : State) (d : Nat) (f : Die → Die) : (s.modDie d f).carafe = s.carafe := rfl
@[simp] theorem modDie_carafeOut (s : State) (d : Nat) (f : Die → Die) : (s.modDie d f).carafeOut = s.carafeOut := rfl
@[simp] theorem modDie_interlocked (s : State) (d : Nat) (f : Die → Die) : (s.modDie d f).interlocked = s.interlocked := rfl
@[simp] theorem modDie_earlyCnt (s : State) (d : Nat) (f : Die → Die) : (s.modDie d f).earlyCnt = s.earlyCnt := rfl
@[simp] theorem modDie_badCnt (s : State) (d : Nat) (f : Die → Die) : (s.modDie d f).badCnt = s.badCnt := rfl
@[simp] theorem modDie_bridge (s : State) (d : Nat) (f : Die → Die) : (s.modDie d f).bridge = s.bridge := rfl
@[simp] theorem modDie_nBridge (s : State) (d : Nat) (f : Die → Die) : (s.modDie d f).nBridge = s.nBridge := rfl
@[simp] theorem modDie_outs (s : State) (d : Nat) (f : Die → Die) : (s.modDie d f).outs = s.outs := rfl
@[simp] theorem modDie_nOut (s : State) (d : Nat) (f : Die → Die) : (s.modDie d f).nOut = s.nOut := rfl
@[simp] theorem modDie_stalled (s : State) (d : Nat) (f : Die → Die) : (s.modDie d f).stalled = s.stalled := rfl
@[simp] theorem modDie_answered (s : State) (d : Nat) (f : Die → Die) : (s.modDie d f).answered = s.answered := rfl
@[simp] theorem modDie_netOut (s : State) (d : Nat) (f : Die → Die) : (s.modDie d f).netOut = s.netOut := rfl
@[simp] theorem modDie_winIdle (s : State) (d : Nat) (f : Die → Die) : (s.modDie d f).winIdle = s.winIdle := rfl
@[simp] theorem modDie_evLate (s : State) (d : Nat) (f : Die → Die) : (s.modDie d f).evLate = s.evLate := rfl
@[simp] theorem modDie_loupe (s : State) (d : Nat) (f : Die → Die) : (s.modDie d f).loupe = s.loupe := rfl
@[simp] theorem modDie_lpOut (s : State) (d : Nat) (f : Die → Die) : (s.modDie d f).lpOut = s.lpOut := rfl
@[simp] theorem modDie_barista (s : State) (d : Nat) (f : Die → Die) : (s.modDie d f).barista = s.barista := rfl
@[simp] theorem modDie_bqOrder (s : State) (d : Nat) (f : Die → Die) : (s.modDie d f).bqOrder = s.bqOrder := rfl
@[simp] theorem modDie_prism (s : State) (d : Nat) (f : Die → Die) : (s.modDie d f).prism = s.prism := rfl
@[simp] theorem modDie_nPrism (s : State) (d : Nat) (f : Die → Die) : (s.modDie d f).nPrism = s.nPrism := rfl
@[simp] theorem modDie_deltas (s : State) (d : Nat) (f : Die → Die) : (s.modDie d f).deltas = s.deltas := rfl
@[simp] theorem modDie_nDelta (s : State) (d : Nat) (f : Die → Die) : (s.modDie d f).nDelta = s.nDelta := rfl
@[simp] theorem modDie_parCnt (s : State) (d : Nat) (f : Die → Die) : (s.modDie d f).parCnt = s.parCnt := rfl
@[simp] theorem modDie_ports (s : State) (d : Nat) (f : Die → Die) : (s.modDie d f).ports = s.ports := rfl
@[simp] theorem modDie_switches (s : State) (d : Nat) (f : Die → Die) : (s.modDie d f).switches = s.switches := rfl
@[simp] theorem modDie_pairs (s : State) (d : Nat) (f : Die → Die) : (s.modDie d f).pairs = s.pairs := rfl
@[simp] theorem modDie_pkgnum (s : State) (d : Nat) (f : Die → Die) : (s.modDie d f).pkgnum = s.pkgnum := rfl
@[simp] theorem modDie_pkgSet (s : State) (d : Nat) (f : Die → Die) : (s.modDie d f).pkgSet = s.pkgSet := rfl
@[simp] theorem modDie_framecnt (s : State) (d : Nat) (f : Die → Die) : (s.modDie d f).framecnt = s.framecnt := rfl
@[simp] theorem modDie_framePos (s : State) (d : Nat) (f : Die → Die) : (s.modDie d f).framePos = s.framePos := rfl
@[simp] theorem modDie_frameRun (s : State) (d : Nat) (f : Die → Die) : (s.modDie d f).frameRun = s.frameRun := rfl
@[simp] theorem modDie_flat (s : State) (d : Nat) (f : Die → Die) : (s.modDie d f).flat = s.flat := rfl
@[simp] theorem modDie_slotbase (s : State) (d : Nat) (f : Die → Die) : (s.modDie d f).slotbase = s.slotbase := rfl
@[simp] theorem modDie_peertab (s : State) (d : Nat) (f : Die → Die) : (s.modDie d f).peertab = s.peertab := rfl
@[simp] theorem modDie_pdefcnt (s : State) (d : Nat) (f : Die → Die) : (s.modDie d f).pdefcnt = s.pdefcnt := rfl
@[simp] theorem modDie_pendFreeze (s : State) (d : Nat) (f : Die → Die) : (s.modDie d f).pendFreeze = s.pendFreeze := rfl
@[simp] theorem modDie_frameFreeze (s : State) (d : Nat) (f : Die → Die) : (s.modDie d f).frameFreeze = s.frameFreeze := rfl
@[simp] theorem modDie_expbase (s : State) (d : Nat) (f : Die → Die) : (s.modDie d f).expbase = s.expbase := rfl
@[simp] theorem modDie_expn (s : State) (d : Nat) (f : Die → Die) : (s.modDie d f).expn = s.expn := rfl
@[simp] theorem modDie_rwtbase (s : State) (d : Nat) (f : Die → Die) : (s.modDie d f).rwtbase = s.rwtbase := rfl
@[simp] theorem modDie_mirbase (s : State) (d : Nat) (f : Die → Die) : (s.modDie d f).mirbase = s.mirbase := rfl
@[simp] theorem modDie_pincnt (s : State) (d : Nat) (f : Die → Die) : (s.modDie d f).pincnt = s.pincnt := rfl
@[simp] theorem modDie_boot (s : State) (d : Nat) (f : Die → Die) : (s.modDie d f).boot = s.boot := rfl
@[simp] theorem modDie_mbox (s : State) (d : Nat) (f : Die → Die) : (s.modDie d f).mbox = s.mbox := rfl
@[simp] theorem modDie_host (s : State) (d : Nat) (f : Die → Die) : (s.modDie d f).host = s.host := rfl
@[simp] theorem modDie_agenda (s : State) (d : Nat) (f : Die → Die) : (s.modDie d f).agenda = s.agenda := rfl
@[simp] theorem modDie_sensed (s : State) (d : Nat) (f : Die → Die) : (s.modDie d f).sensed = s.sensed := rfl
@[simp] theorem modDie_cur (s : State) (d : Nat) (f : Die → Die) : (s.modDie d f).cur = s.cur := rfl
@[simp] theorem modDie_fresh (s : State) (d : Nat) (f : Die → Die) : (s.modDie d f).fresh = s.fresh := rfl
@[simp] theorem modDie_look_core (s : State) (d : Nat) (f : Die → Die) (n0 : Nat) : (s.modDie d f).core n0 = s.core n0 := rfl
@[simp] theorem modDie_look_ctx (s : State) (d : Nat) (f : Die → Die) (n0 : Nat) : (s.modDie d f).ctx n0 = s.ctx n0 := rfl
@[simp] theorem modDie_look_launch (s : State) (d : Nat) (f : Die → Die) (n0 : Nat) : (s.modDie d f).launch n0 = s.launch n0 := rfl
@[simp] theorem modDie_look_port (s : State) (d : Nat) (f : Die → Die) (n0 : Nat) : (s.modDie d f).port n0 = s.port n0 := rfl
@[simp] theorem modDie_look_slot (s : State) (d : Nat) (f : Die → Die) (n0 : Nat) : (s.modDie d f).slot n0 = s.slot n0 := rfl

@[simp] theorem setLaunch_now (s : State) (i : Nat) (x : Launch) : (s.setLaunch i x).now = s.now := rfl
@[simp] theorem setLaunch_mem (s : State) (i : Nat) (x : Launch) : (s.setLaunch i x).mem = s.mem := rfl
@[simp] theorem setLaunch_cores (s : State) (i : Nat) (x : Launch) : (s.setLaunch i x).cores = s.cores := rfl
@[simp] theorem setLaunch_ctxs (s : State) (i : Nat) (x : Launch) : (s.setLaunch i x).ctxs = s.ctxs := rfl
@[simp] theorem setLaunch_nLaunch (s : State) (i : Nat) (x : Launch) : (s.setLaunch i x).nLaunch = s.nLaunch := rfl
@[simp] theorem setLaunch_dies (s : State) (i : Nat) (x : Launch) : (s.setLaunch i x).dies = s.dies := rfl
@[simp] theorem setLaunch_qsb (s : State) (i : Nat) (x : Launch) : (s.setLaunch i x).qsb = s.qsb := rfl
@[simp] theorem setLaunch_carafe (s : State) (i : Nat) (x : Launch) : (s.setLaunch i x).carafe = s.carafe := rfl
@[simp] theorem setLaunch_carafeOut (s : State) (i : Nat) (x : Launch) : (s.setLaunch i x).carafeOut = s.carafeOut := rfl
@[simp] theorem setLaunch_interlocked (s : State) (i : Nat) (x : Launch) : (s.setLaunch i x).interlocked = s.interlocked := rfl
@[simp] theorem setLaunch_earlyCnt (s : State) (i : Nat) (x : Launch) : (s.setLaunch i x).earlyCnt = s.earlyCnt := rfl
@[simp] theorem setLaunch_badCnt (s : State) (i : Nat) (x : Launch) : (s.setLaunch i x).badCnt = s.badCnt := rfl
@[simp] theorem setLaunch_bridge (s : State) (i : Nat) (x : Launch) : (s.setLaunch i x).bridge = s.bridge := rfl
@[simp] theorem setLaunch_nBridge (s : State) (i : Nat) (x : Launch) : (s.setLaunch i x).nBridge = s.nBridge := rfl
@[simp] theorem setLaunch_outs (s : State) (i : Nat) (x : Launch) : (s.setLaunch i x).outs = s.outs := rfl
@[simp] theorem setLaunch_nOut (s : State) (i : Nat) (x : Launch) : (s.setLaunch i x).nOut = s.nOut := rfl
@[simp] theorem setLaunch_stalled (s : State) (i : Nat) (x : Launch) : (s.setLaunch i x).stalled = s.stalled := rfl
@[simp] theorem setLaunch_answered (s : State) (i : Nat) (x : Launch) : (s.setLaunch i x).answered = s.answered := rfl
@[simp] theorem setLaunch_netOut (s : State) (i : Nat) (x : Launch) : (s.setLaunch i x).netOut = s.netOut := rfl
@[simp] theorem setLaunch_winIdle (s : State) (i : Nat) (x : Launch) : (s.setLaunch i x).winIdle = s.winIdle := rfl
@[simp] theorem setLaunch_evLate (s : State) (i : Nat) (x : Launch) : (s.setLaunch i x).evLate = s.evLate := rfl
@[simp] theorem setLaunch_loupe (s : State) (i : Nat) (x : Launch) : (s.setLaunch i x).loupe = s.loupe := rfl
@[simp] theorem setLaunch_lpOut (s : State) (i : Nat) (x : Launch) : (s.setLaunch i x).lpOut = s.lpOut := rfl
@[simp] theorem setLaunch_barista (s : State) (i : Nat) (x : Launch) : (s.setLaunch i x).barista = s.barista := rfl
@[simp] theorem setLaunch_bqOrder (s : State) (i : Nat) (x : Launch) : (s.setLaunch i x).bqOrder = s.bqOrder := rfl
@[simp] theorem setLaunch_prism (s : State) (i : Nat) (x : Launch) : (s.setLaunch i x).prism = s.prism := rfl
@[simp] theorem setLaunch_nPrism (s : State) (i : Nat) (x : Launch) : (s.setLaunch i x).nPrism = s.nPrism := rfl
@[simp] theorem setLaunch_deltas (s : State) (i : Nat) (x : Launch) : (s.setLaunch i x).deltas = s.deltas := rfl
@[simp] theorem setLaunch_nDelta (s : State) (i : Nat) (x : Launch) : (s.setLaunch i x).nDelta = s.nDelta := rfl
@[simp] theorem setLaunch_parCnt (s : State) (i : Nat) (x : Launch) : (s.setLaunch i x).parCnt = s.parCnt := rfl
@[simp] theorem setLaunch_ports (s : State) (i : Nat) (x : Launch) : (s.setLaunch i x).ports = s.ports := rfl
@[simp] theorem setLaunch_switches (s : State) (i : Nat) (x : Launch) : (s.setLaunch i x).switches = s.switches := rfl
@[simp] theorem setLaunch_pairs (s : State) (i : Nat) (x : Launch) : (s.setLaunch i x).pairs = s.pairs := rfl
@[simp] theorem setLaunch_pkgnum (s : State) (i : Nat) (x : Launch) : (s.setLaunch i x).pkgnum = s.pkgnum := rfl
@[simp] theorem setLaunch_pkgSet (s : State) (i : Nat) (x : Launch) : (s.setLaunch i x).pkgSet = s.pkgSet := rfl
@[simp] theorem setLaunch_framecnt (s : State) (i : Nat) (x : Launch) : (s.setLaunch i x).framecnt = s.framecnt := rfl
@[simp] theorem setLaunch_framePos (s : State) (i : Nat) (x : Launch) : (s.setLaunch i x).framePos = s.framePos := rfl
@[simp] theorem setLaunch_frameRun (s : State) (i : Nat) (x : Launch) : (s.setLaunch i x).frameRun = s.frameRun := rfl
@[simp] theorem setLaunch_flat (s : State) (i : Nat) (x : Launch) : (s.setLaunch i x).flat = s.flat := rfl
@[simp] theorem setLaunch_slotbase (s : State) (i : Nat) (x : Launch) : (s.setLaunch i x).slotbase = s.slotbase := rfl
@[simp] theorem setLaunch_peertab (s : State) (i : Nat) (x : Launch) : (s.setLaunch i x).peertab = s.peertab := rfl
@[simp] theorem setLaunch_pdefcnt (s : State) (i : Nat) (x : Launch) : (s.setLaunch i x).pdefcnt = s.pdefcnt := rfl
@[simp] theorem setLaunch_pendFreeze (s : State) (i : Nat) (x : Launch) : (s.setLaunch i x).pendFreeze = s.pendFreeze := rfl
@[simp] theorem setLaunch_frameFreeze (s : State) (i : Nat) (x : Launch) : (s.setLaunch i x).frameFreeze = s.frameFreeze := rfl
@[simp] theorem setLaunch_expbase (s : State) (i : Nat) (x : Launch) : (s.setLaunch i x).expbase = s.expbase := rfl
@[simp] theorem setLaunch_expn (s : State) (i : Nat) (x : Launch) : (s.setLaunch i x).expn = s.expn := rfl
@[simp] theorem setLaunch_rwtbase (s : State) (i : Nat) (x : Launch) : (s.setLaunch i x).rwtbase = s.rwtbase := rfl
@[simp] theorem setLaunch_mirbase (s : State) (i : Nat) (x : Launch) : (s.setLaunch i x).mirbase = s.mirbase := rfl
@[simp] theorem setLaunch_pincnt (s : State) (i : Nat) (x : Launch) : (s.setLaunch i x).pincnt = s.pincnt := rfl
@[simp] theorem setLaunch_boot (s : State) (i : Nat) (x : Launch) : (s.setLaunch i x).boot = s.boot := rfl
@[simp] theorem setLaunch_mbox (s : State) (i : Nat) (x : Launch) : (s.setLaunch i x).mbox = s.mbox := rfl
@[simp] theorem setLaunch_host (s : State) (i : Nat) (x : Launch) : (s.setLaunch i x).host = s.host := rfl
@[simp] theorem setLaunch_agenda (s : State) (i : Nat) (x : Launch) : (s.setLaunch i x).agenda = s.agenda := rfl
@[simp] theorem setLaunch_sensed (s : State) (i : Nat) (x : Launch) : (s.setLaunch i x).sensed = s.sensed := rfl
@[simp] theorem setLaunch_cur (s : State) (i : Nat) (x : Launch) : (s.setLaunch i x).cur = s.cur := rfl
@[simp] theorem setLaunch_fresh (s : State) (i : Nat) (x : Launch) : (s.setLaunch i x).fresh = s.fresh := rfl
@[simp] theorem setLaunch_look_core (s : State) (i : Nat) (x : Launch) (n0 : Nat) : (s.setLaunch i x).core n0 = s.core n0 := rfl
@[simp] theorem setLaunch_look_ctx (s : State) (i : Nat) (x : Launch) (n0 : Nat) : (s.setLaunch i x).ctx n0 = s.ctx n0 := rfl
@[simp] theorem setLaunch_look_die (s : State) (i : Nat) (x : Launch) (n0 : Nat) : (s.setLaunch i x).die n0 = s.die n0 := rfl
@[simp] theorem setLaunch_look_port (s : State) (i : Nat) (x : Launch) (n0 : Nat) : (s.setLaunch i x).port n0 = s.port n0 := rfl
@[simp] theorem setLaunch_look_slot (s : State) (i : Nat) (x : Launch) (n0 : Nat) : (s.setLaunch i x).slot n0 = s.slot n0 := rfl

@[simp] theorem modLaunch_now (s : State) (i : Nat) (f : Launch → Launch) : (s.modLaunch i f).now = s.now := rfl
@[simp] theorem modLaunch_mem (s : State) (i : Nat) (f : Launch → Launch) : (s.modLaunch i f).mem = s.mem := rfl
@[simp] theorem modLaunch_cores (s : State) (i : Nat) (f : Launch → Launch) : (s.modLaunch i f).cores = s.cores := rfl
@[simp] theorem modLaunch_ctxs (s : State) (i : Nat) (f : Launch → Launch) : (s.modLaunch i f).ctxs = s.ctxs := rfl
@[simp] theorem modLaunch_nLaunch (s : State) (i : Nat) (f : Launch → Launch) : (s.modLaunch i f).nLaunch = s.nLaunch := rfl
@[simp] theorem modLaunch_dies (s : State) (i : Nat) (f : Launch → Launch) : (s.modLaunch i f).dies = s.dies := rfl
@[simp] theorem modLaunch_qsb (s : State) (i : Nat) (f : Launch → Launch) : (s.modLaunch i f).qsb = s.qsb := rfl
@[simp] theorem modLaunch_carafe (s : State) (i : Nat) (f : Launch → Launch) : (s.modLaunch i f).carafe = s.carafe := rfl
@[simp] theorem modLaunch_carafeOut (s : State) (i : Nat) (f : Launch → Launch) : (s.modLaunch i f).carafeOut = s.carafeOut := rfl
@[simp] theorem modLaunch_interlocked (s : State) (i : Nat) (f : Launch → Launch) : (s.modLaunch i f).interlocked = s.interlocked := rfl
@[simp] theorem modLaunch_earlyCnt (s : State) (i : Nat) (f : Launch → Launch) : (s.modLaunch i f).earlyCnt = s.earlyCnt := rfl
@[simp] theorem modLaunch_badCnt (s : State) (i : Nat) (f : Launch → Launch) : (s.modLaunch i f).badCnt = s.badCnt := rfl
@[simp] theorem modLaunch_bridge (s : State) (i : Nat) (f : Launch → Launch) : (s.modLaunch i f).bridge = s.bridge := rfl
@[simp] theorem modLaunch_nBridge (s : State) (i : Nat) (f : Launch → Launch) : (s.modLaunch i f).nBridge = s.nBridge := rfl
@[simp] theorem modLaunch_outs (s : State) (i : Nat) (f : Launch → Launch) : (s.modLaunch i f).outs = s.outs := rfl
@[simp] theorem modLaunch_nOut (s : State) (i : Nat) (f : Launch → Launch) : (s.modLaunch i f).nOut = s.nOut := rfl
@[simp] theorem modLaunch_stalled (s : State) (i : Nat) (f : Launch → Launch) : (s.modLaunch i f).stalled = s.stalled := rfl
@[simp] theorem modLaunch_answered (s : State) (i : Nat) (f : Launch → Launch) : (s.modLaunch i f).answered = s.answered := rfl
@[simp] theorem modLaunch_netOut (s : State) (i : Nat) (f : Launch → Launch) : (s.modLaunch i f).netOut = s.netOut := rfl
@[simp] theorem modLaunch_winIdle (s : State) (i : Nat) (f : Launch → Launch) : (s.modLaunch i f).winIdle = s.winIdle := rfl
@[simp] theorem modLaunch_evLate (s : State) (i : Nat) (f : Launch → Launch) : (s.modLaunch i f).evLate = s.evLate := rfl
@[simp] theorem modLaunch_loupe (s : State) (i : Nat) (f : Launch → Launch) : (s.modLaunch i f).loupe = s.loupe := rfl
@[simp] theorem modLaunch_lpOut (s : State) (i : Nat) (f : Launch → Launch) : (s.modLaunch i f).lpOut = s.lpOut := rfl
@[simp] theorem modLaunch_barista (s : State) (i : Nat) (f : Launch → Launch) : (s.modLaunch i f).barista = s.barista := rfl
@[simp] theorem modLaunch_bqOrder (s : State) (i : Nat) (f : Launch → Launch) : (s.modLaunch i f).bqOrder = s.bqOrder := rfl
@[simp] theorem modLaunch_prism (s : State) (i : Nat) (f : Launch → Launch) : (s.modLaunch i f).prism = s.prism := rfl
@[simp] theorem modLaunch_nPrism (s : State) (i : Nat) (f : Launch → Launch) : (s.modLaunch i f).nPrism = s.nPrism := rfl
@[simp] theorem modLaunch_deltas (s : State) (i : Nat) (f : Launch → Launch) : (s.modLaunch i f).deltas = s.deltas := rfl
@[simp] theorem modLaunch_nDelta (s : State) (i : Nat) (f : Launch → Launch) : (s.modLaunch i f).nDelta = s.nDelta := rfl
@[simp] theorem modLaunch_parCnt (s : State) (i : Nat) (f : Launch → Launch) : (s.modLaunch i f).parCnt = s.parCnt := rfl
@[simp] theorem modLaunch_ports (s : State) (i : Nat) (f : Launch → Launch) : (s.modLaunch i f).ports = s.ports := rfl
@[simp] theorem modLaunch_switches (s : State) (i : Nat) (f : Launch → Launch) : (s.modLaunch i f).switches = s.switches := rfl
@[simp] theorem modLaunch_pairs (s : State) (i : Nat) (f : Launch → Launch) : (s.modLaunch i f).pairs = s.pairs := rfl
@[simp] theorem modLaunch_pkgnum (s : State) (i : Nat) (f : Launch → Launch) : (s.modLaunch i f).pkgnum = s.pkgnum := rfl
@[simp] theorem modLaunch_pkgSet (s : State) (i : Nat) (f : Launch → Launch) : (s.modLaunch i f).pkgSet = s.pkgSet := rfl
@[simp] theorem modLaunch_framecnt (s : State) (i : Nat) (f : Launch → Launch) : (s.modLaunch i f).framecnt = s.framecnt := rfl
@[simp] theorem modLaunch_framePos (s : State) (i : Nat) (f : Launch → Launch) : (s.modLaunch i f).framePos = s.framePos := rfl
@[simp] theorem modLaunch_frameRun (s : State) (i : Nat) (f : Launch → Launch) : (s.modLaunch i f).frameRun = s.frameRun := rfl
@[simp] theorem modLaunch_flat (s : State) (i : Nat) (f : Launch → Launch) : (s.modLaunch i f).flat = s.flat := rfl
@[simp] theorem modLaunch_slotbase (s : State) (i : Nat) (f : Launch → Launch) : (s.modLaunch i f).slotbase = s.slotbase := rfl
@[simp] theorem modLaunch_peertab (s : State) (i : Nat) (f : Launch → Launch) : (s.modLaunch i f).peertab = s.peertab := rfl
@[simp] theorem modLaunch_pdefcnt (s : State) (i : Nat) (f : Launch → Launch) : (s.modLaunch i f).pdefcnt = s.pdefcnt := rfl
@[simp] theorem modLaunch_pendFreeze (s : State) (i : Nat) (f : Launch → Launch) : (s.modLaunch i f).pendFreeze = s.pendFreeze := rfl
@[simp] theorem modLaunch_frameFreeze (s : State) (i : Nat) (f : Launch → Launch) : (s.modLaunch i f).frameFreeze = s.frameFreeze := rfl
@[simp] theorem modLaunch_expbase (s : State) (i : Nat) (f : Launch → Launch) : (s.modLaunch i f).expbase = s.expbase := rfl
@[simp] theorem modLaunch_expn (s : State) (i : Nat) (f : Launch → Launch) : (s.modLaunch i f).expn = s.expn := rfl
@[simp] theorem modLaunch_rwtbase (s : State) (i : Nat) (f : Launch → Launch) : (s.modLaunch i f).rwtbase = s.rwtbase := rfl
@[simp] theorem modLaunch_mirbase (s : State) (i : Nat) (f : Launch → Launch) : (s.modLaunch i f).mirbase = s.mirbase := rfl
@[simp] theorem modLaunch_pincnt (s : State) (i : Nat) (f : Launch → Launch) : (s.modLaunch i f).pincnt = s.pincnt := rfl
@[simp] theorem modLaunch_boot (s : State) (i : Nat) (f : Launch → Launch) : (s.modLaunch i f).boot = s.boot := rfl
@[simp] theorem modLaunch_mbox (s : State) (i : Nat) (f : Launch → Launch) : (s.modLaunch i f).mbox = s.mbox := rfl
@[simp] theorem modLaunch_host (s : State) (i : Nat) (f : Launch → Launch) : (s.modLaunch i f).host = s.host := rfl
@[simp] theorem modLaunch_agenda (s : State) (i : Nat) (f : Launch → Launch) : (s.modLaunch i f).agenda = s.agenda := rfl
@[simp] theorem modLaunch_sensed (s : State) (i : Nat) (f : Launch → Launch) : (s.modLaunch i f).sensed = s.sensed := rfl
@[simp] theorem modLaunch_cur (s : State) (i : Nat) (f : Launch → Launch) : (s.modLaunch i f).cur = s.cur := rfl
@[simp] theorem modLaunch_fresh (s : State) (i : Nat) (f : Launch → Launch) : (s.modLaunch i f).fresh = s.fresh := rfl
@[simp] theorem modLaunch_look_core (s : State) (i : Nat) (f : Launch → Launch) (n0 : Nat) : (s.modLaunch i f).core n0 = s.core n0 := rfl
@[simp] theorem modLaunch_look_ctx (s : State) (i : Nat) (f : Launch → Launch) (n0 : Nat) : (s.modLaunch i f).ctx n0 = s.ctx n0 := rfl
@[simp] theorem modLaunch_look_die (s : State) (i : Nat) (f : Launch → Launch) (n0 : Nat) : (s.modLaunch i f).die n0 = s.die n0 := rfl
@[simp] theorem modLaunch_look_port (s : State) (i : Nat) (f : Launch → Launch) (n0 : Nat) : (s.modLaunch i f).port n0 = s.port n0 := rfl
@[simp] theorem modLaunch_look_slot (s : State) (i : Nat) (f : Launch → Launch) (n0 : Nat) : (s.modLaunch i f).slot n0 = s.slot n0 := rfl

@[simp] theorem setPort_now (s : State) (p : Nat) (x : Port) : (s.setPort p x).now = s.now := rfl
@[simp] theorem setPort_mem (s : State) (p : Nat) (x : Port) : (s.setPort p x).mem = s.mem := rfl
@[simp] theorem setPort_cores (s : State) (p : Nat) (x : Port) : (s.setPort p x).cores = s.cores := rfl
@[simp] theorem setPort_ctxs (s : State) (p : Nat) (x : Port) : (s.setPort p x).ctxs = s.ctxs := rfl
@[simp] theorem setPort_launches (s : State) (p : Nat) (x : Port) : (s.setPort p x).launches = s.launches := rfl
@[simp] theorem setPort_nLaunch (s : State) (p : Nat) (x : Port) : (s.setPort p x).nLaunch = s.nLaunch := rfl
@[simp] theorem setPort_dies (s : State) (p : Nat) (x : Port) : (s.setPort p x).dies = s.dies := rfl
@[simp] theorem setPort_qsb (s : State) (p : Nat) (x : Port) : (s.setPort p x).qsb = s.qsb := rfl
@[simp] theorem setPort_carafe (s : State) (p : Nat) (x : Port) : (s.setPort p x).carafe = s.carafe := rfl
@[simp] theorem setPort_carafeOut (s : State) (p : Nat) (x : Port) : (s.setPort p x).carafeOut = s.carafeOut := rfl
@[simp] theorem setPort_interlocked (s : State) (p : Nat) (x : Port) : (s.setPort p x).interlocked = s.interlocked := rfl
@[simp] theorem setPort_earlyCnt (s : State) (p : Nat) (x : Port) : (s.setPort p x).earlyCnt = s.earlyCnt := rfl
@[simp] theorem setPort_badCnt (s : State) (p : Nat) (x : Port) : (s.setPort p x).badCnt = s.badCnt := rfl
@[simp] theorem setPort_bridge (s : State) (p : Nat) (x : Port) : (s.setPort p x).bridge = s.bridge := rfl
@[simp] theorem setPort_nBridge (s : State) (p : Nat) (x : Port) : (s.setPort p x).nBridge = s.nBridge := rfl
@[simp] theorem setPort_outs (s : State) (p : Nat) (x : Port) : (s.setPort p x).outs = s.outs := rfl
@[simp] theorem setPort_nOut (s : State) (p : Nat) (x : Port) : (s.setPort p x).nOut = s.nOut := rfl
@[simp] theorem setPort_stalled (s : State) (p : Nat) (x : Port) : (s.setPort p x).stalled = s.stalled := rfl
@[simp] theorem setPort_answered (s : State) (p : Nat) (x : Port) : (s.setPort p x).answered = s.answered := rfl
@[simp] theorem setPort_netOut (s : State) (p : Nat) (x : Port) : (s.setPort p x).netOut = s.netOut := rfl
@[simp] theorem setPort_winIdle (s : State) (p : Nat) (x : Port) : (s.setPort p x).winIdle = s.winIdle := rfl
@[simp] theorem setPort_evLate (s : State) (p : Nat) (x : Port) : (s.setPort p x).evLate = s.evLate := rfl
@[simp] theorem setPort_loupe (s : State) (p : Nat) (x : Port) : (s.setPort p x).loupe = s.loupe := rfl
@[simp] theorem setPort_lpOut (s : State) (p : Nat) (x : Port) : (s.setPort p x).lpOut = s.lpOut := rfl
@[simp] theorem setPort_barista (s : State) (p : Nat) (x : Port) : (s.setPort p x).barista = s.barista := rfl
@[simp] theorem setPort_bqOrder (s : State) (p : Nat) (x : Port) : (s.setPort p x).bqOrder = s.bqOrder := rfl
@[simp] theorem setPort_prism (s : State) (p : Nat) (x : Port) : (s.setPort p x).prism = s.prism := rfl
@[simp] theorem setPort_nPrism (s : State) (p : Nat) (x : Port) : (s.setPort p x).nPrism = s.nPrism := rfl
@[simp] theorem setPort_deltas (s : State) (p : Nat) (x : Port) : (s.setPort p x).deltas = s.deltas := rfl
@[simp] theorem setPort_nDelta (s : State) (p : Nat) (x : Port) : (s.setPort p x).nDelta = s.nDelta := rfl
@[simp] theorem setPort_parCnt (s : State) (p : Nat) (x : Port) : (s.setPort p x).parCnt = s.parCnt := rfl
@[simp] theorem setPort_switches (s : State) (p : Nat) (x : Port) : (s.setPort p x).switches = s.switches := rfl
@[simp] theorem setPort_pairs (s : State) (p : Nat) (x : Port) : (s.setPort p x).pairs = s.pairs := rfl
@[simp] theorem setPort_pkgnum (s : State) (p : Nat) (x : Port) : (s.setPort p x).pkgnum = s.pkgnum := rfl
@[simp] theorem setPort_pkgSet (s : State) (p : Nat) (x : Port) : (s.setPort p x).pkgSet = s.pkgSet := rfl
@[simp] theorem setPort_framecnt (s : State) (p : Nat) (x : Port) : (s.setPort p x).framecnt = s.framecnt := rfl
@[simp] theorem setPort_framePos (s : State) (p : Nat) (x : Port) : (s.setPort p x).framePos = s.framePos := rfl
@[simp] theorem setPort_frameRun (s : State) (p : Nat) (x : Port) : (s.setPort p x).frameRun = s.frameRun := rfl
@[simp] theorem setPort_flat (s : State) (p : Nat) (x : Port) : (s.setPort p x).flat = s.flat := rfl
@[simp] theorem setPort_slotbase (s : State) (p : Nat) (x : Port) : (s.setPort p x).slotbase = s.slotbase := rfl
@[simp] theorem setPort_peertab (s : State) (p : Nat) (x : Port) : (s.setPort p x).peertab = s.peertab := rfl
@[simp] theorem setPort_pdefcnt (s : State) (p : Nat) (x : Port) : (s.setPort p x).pdefcnt = s.pdefcnt := rfl
@[simp] theorem setPort_pendFreeze (s : State) (p : Nat) (x : Port) : (s.setPort p x).pendFreeze = s.pendFreeze := rfl
@[simp] theorem setPort_frameFreeze (s : State) (p : Nat) (x : Port) : (s.setPort p x).frameFreeze = s.frameFreeze := rfl
@[simp] theorem setPort_expbase (s : State) (p : Nat) (x : Port) : (s.setPort p x).expbase = s.expbase := rfl
@[simp] theorem setPort_expn (s : State) (p : Nat) (x : Port) : (s.setPort p x).expn = s.expn := rfl
@[simp] theorem setPort_rwtbase (s : State) (p : Nat) (x : Port) : (s.setPort p x).rwtbase = s.rwtbase := rfl
@[simp] theorem setPort_mirbase (s : State) (p : Nat) (x : Port) : (s.setPort p x).mirbase = s.mirbase := rfl
@[simp] theorem setPort_pincnt (s : State) (p : Nat) (x : Port) : (s.setPort p x).pincnt = s.pincnt := rfl
@[simp] theorem setPort_boot (s : State) (p : Nat) (x : Port) : (s.setPort p x).boot = s.boot := rfl
@[simp] theorem setPort_mbox (s : State) (p : Nat) (x : Port) : (s.setPort p x).mbox = s.mbox := rfl
@[simp] theorem setPort_host (s : State) (p : Nat) (x : Port) : (s.setPort p x).host = s.host := rfl
@[simp] theorem setPort_agenda (s : State) (p : Nat) (x : Port) : (s.setPort p x).agenda = s.agenda := rfl
@[simp] theorem setPort_sensed (s : State) (p : Nat) (x : Port) : (s.setPort p x).sensed = s.sensed := rfl
@[simp] theorem setPort_cur (s : State) (p : Nat) (x : Port) : (s.setPort p x).cur = s.cur := rfl
@[simp] theorem setPort_fresh (s : State) (p : Nat) (x : Port) : (s.setPort p x).fresh = s.fresh := rfl
@[simp] theorem setPort_look_core (s : State) (p : Nat) (x : Port) (n0 : Nat) : (s.setPort p x).core n0 = s.core n0 := rfl
@[simp] theorem setPort_look_ctx (s : State) (p : Nat) (x : Port) (n0 : Nat) : (s.setPort p x).ctx n0 = s.ctx n0 := rfl
@[simp] theorem setPort_look_launch (s : State) (p : Nat) (x : Port) (n0 : Nat) : (s.setPort p x).launch n0 = s.launch n0 := rfl
@[simp] theorem setPort_look_die (s : State) (p : Nat) (x : Port) (n0 : Nat) : (s.setPort p x).die n0 = s.die n0 := rfl
@[simp] theorem setPort_look_slot (s : State) (p : Nat) (x : Port) (n0 : Nat) : (s.setPort p x).slot n0 = s.slot n0 := rfl

@[simp] theorem setSlot_now (s : State) (i : Nat) (x : LoupeSlot) : (s.setSlot i x).now = s.now := rfl
@[simp] theorem setSlot_mem (s : State) (i : Nat) (x : LoupeSlot) : (s.setSlot i x).mem = s.mem := rfl
@[simp] theorem setSlot_cores (s : State) (i : Nat) (x : LoupeSlot) : (s.setSlot i x).cores = s.cores := rfl
@[simp] theorem setSlot_ctxs (s : State) (i : Nat) (x : LoupeSlot) : (s.setSlot i x).ctxs = s.ctxs := rfl
@[simp] theorem setSlot_launches (s : State) (i : Nat) (x : LoupeSlot) : (s.setSlot i x).launches = s.launches := rfl
@[simp] theorem setSlot_nLaunch (s : State) (i : Nat) (x : LoupeSlot) : (s.setSlot i x).nLaunch = s.nLaunch := rfl
@[simp] theorem setSlot_dies (s : State) (i : Nat) (x : LoupeSlot) : (s.setSlot i x).dies = s.dies := rfl
@[simp] theorem setSlot_qsb (s : State) (i : Nat) (x : LoupeSlot) : (s.setSlot i x).qsb = s.qsb := rfl
@[simp] theorem setSlot_carafe (s : State) (i : Nat) (x : LoupeSlot) : (s.setSlot i x).carafe = s.carafe := rfl
@[simp] theorem setSlot_carafeOut (s : State) (i : Nat) (x : LoupeSlot) : (s.setSlot i x).carafeOut = s.carafeOut := rfl
@[simp] theorem setSlot_interlocked (s : State) (i : Nat) (x : LoupeSlot) : (s.setSlot i x).interlocked = s.interlocked := rfl
@[simp] theorem setSlot_earlyCnt (s : State) (i : Nat) (x : LoupeSlot) : (s.setSlot i x).earlyCnt = s.earlyCnt := rfl
@[simp] theorem setSlot_badCnt (s : State) (i : Nat) (x : LoupeSlot) : (s.setSlot i x).badCnt = s.badCnt := rfl
@[simp] theorem setSlot_bridge (s : State) (i : Nat) (x : LoupeSlot) : (s.setSlot i x).bridge = s.bridge := rfl
@[simp] theorem setSlot_nBridge (s : State) (i : Nat) (x : LoupeSlot) : (s.setSlot i x).nBridge = s.nBridge := rfl
@[simp] theorem setSlot_outs (s : State) (i : Nat) (x : LoupeSlot) : (s.setSlot i x).outs = s.outs := rfl
@[simp] theorem setSlot_nOut (s : State) (i : Nat) (x : LoupeSlot) : (s.setSlot i x).nOut = s.nOut := rfl
@[simp] theorem setSlot_stalled (s : State) (i : Nat) (x : LoupeSlot) : (s.setSlot i x).stalled = s.stalled := rfl
@[simp] theorem setSlot_answered (s : State) (i : Nat) (x : LoupeSlot) : (s.setSlot i x).answered = s.answered := rfl
@[simp] theorem setSlot_netOut (s : State) (i : Nat) (x : LoupeSlot) : (s.setSlot i x).netOut = s.netOut := rfl
@[simp] theorem setSlot_winIdle (s : State) (i : Nat) (x : LoupeSlot) : (s.setSlot i x).winIdle = s.winIdle := rfl
@[simp] theorem setSlot_evLate (s : State) (i : Nat) (x : LoupeSlot) : (s.setSlot i x).evLate = s.evLate := rfl
@[simp] theorem setSlot_lpOut (s : State) (i : Nat) (x : LoupeSlot) : (s.setSlot i x).lpOut = s.lpOut := rfl
@[simp] theorem setSlot_barista (s : State) (i : Nat) (x : LoupeSlot) : (s.setSlot i x).barista = s.barista := rfl
@[simp] theorem setSlot_bqOrder (s : State) (i : Nat) (x : LoupeSlot) : (s.setSlot i x).bqOrder = s.bqOrder := rfl
@[simp] theorem setSlot_prism (s : State) (i : Nat) (x : LoupeSlot) : (s.setSlot i x).prism = s.prism := rfl
@[simp] theorem setSlot_nPrism (s : State) (i : Nat) (x : LoupeSlot) : (s.setSlot i x).nPrism = s.nPrism := rfl
@[simp] theorem setSlot_deltas (s : State) (i : Nat) (x : LoupeSlot) : (s.setSlot i x).deltas = s.deltas := rfl
@[simp] theorem setSlot_nDelta (s : State) (i : Nat) (x : LoupeSlot) : (s.setSlot i x).nDelta = s.nDelta := rfl
@[simp] theorem setSlot_parCnt (s : State) (i : Nat) (x : LoupeSlot) : (s.setSlot i x).parCnt = s.parCnt := rfl
@[simp] theorem setSlot_ports (s : State) (i : Nat) (x : LoupeSlot) : (s.setSlot i x).ports = s.ports := rfl
@[simp] theorem setSlot_switches (s : State) (i : Nat) (x : LoupeSlot) : (s.setSlot i x).switches = s.switches := rfl
@[simp] theorem setSlot_pairs (s : State) (i : Nat) (x : LoupeSlot) : (s.setSlot i x).pairs = s.pairs := rfl
@[simp] theorem setSlot_pkgnum (s : State) (i : Nat) (x : LoupeSlot) : (s.setSlot i x).pkgnum = s.pkgnum := rfl
@[simp] theorem setSlot_pkgSet (s : State) (i : Nat) (x : LoupeSlot) : (s.setSlot i x).pkgSet = s.pkgSet := rfl
@[simp] theorem setSlot_framecnt (s : State) (i : Nat) (x : LoupeSlot) : (s.setSlot i x).framecnt = s.framecnt := rfl
@[simp] theorem setSlot_framePos (s : State) (i : Nat) (x : LoupeSlot) : (s.setSlot i x).framePos = s.framePos := rfl
@[simp] theorem setSlot_frameRun (s : State) (i : Nat) (x : LoupeSlot) : (s.setSlot i x).frameRun = s.frameRun := rfl
@[simp] theorem setSlot_flat (s : State) (i : Nat) (x : LoupeSlot) : (s.setSlot i x).flat = s.flat := rfl
@[simp] theorem setSlot_slotbase (s : State) (i : Nat) (x : LoupeSlot) : (s.setSlot i x).slotbase = s.slotbase := rfl
@[simp] theorem setSlot_peertab (s : State) (i : Nat) (x : LoupeSlot) : (s.setSlot i x).peertab = s.peertab := rfl
@[simp] theorem setSlot_pdefcnt (s : State) (i : Nat) (x : LoupeSlot) : (s.setSlot i x).pdefcnt = s.pdefcnt := rfl
@[simp] theorem setSlot_pendFreeze (s : State) (i : Nat) (x : LoupeSlot) : (s.setSlot i x).pendFreeze = s.pendFreeze := rfl
@[simp] theorem setSlot_frameFreeze (s : State) (i : Nat) (x : LoupeSlot) : (s.setSlot i x).frameFreeze = s.frameFreeze := rfl
@[simp] theorem setSlot_expbase (s : State) (i : Nat) (x : LoupeSlot) : (s.setSlot i x).expbase = s.expbase := rfl
@[simp] theorem setSlot_expn (s : State) (i : Nat) (x : LoupeSlot) : (s.setSlot i x).expn = s.expn := rfl
@[simp] theorem setSlot_rwtbase (s : State) (i : Nat) (x : LoupeSlot) : (s.setSlot i x).rwtbase = s.rwtbase := rfl
@[simp] theorem setSlot_mirbase (s : State) (i : Nat) (x : LoupeSlot) : (s.setSlot i x).mirbase = s.mirbase := rfl
@[simp] theorem setSlot_pincnt (s : State) (i : Nat) (x : LoupeSlot) : (s.setSlot i x).pincnt = s.pincnt := rfl
@[simp] theorem setSlot_boot (s : State) (i : Nat) (x : LoupeSlot) : (s.setSlot i x).boot = s.boot := rfl
@[simp] theorem setSlot_mbox (s : State) (i : Nat) (x : LoupeSlot) : (s.setSlot i x).mbox = s.mbox := rfl
@[simp] theorem setSlot_host (s : State) (i : Nat) (x : LoupeSlot) : (s.setSlot i x).host = s.host := rfl
@[simp] theorem setSlot_agenda (s : State) (i : Nat) (x : LoupeSlot) : (s.setSlot i x).agenda = s.agenda := rfl
@[simp] theorem setSlot_sensed (s : State) (i : Nat) (x : LoupeSlot) : (s.setSlot i x).sensed = s.sensed := rfl
@[simp] theorem setSlot_cur (s : State) (i : Nat) (x : LoupeSlot) : (s.setSlot i x).cur = s.cur := rfl
@[simp] theorem setSlot_fresh (s : State) (i : Nat) (x : LoupeSlot) : (s.setSlot i x).fresh = s.fresh := rfl
@[simp] theorem setSlot_look_core (s : State) (i : Nat) (x : LoupeSlot) (n0 : Nat) : (s.setSlot i x).core n0 = s.core n0 := rfl
@[simp] theorem setSlot_look_ctx (s : State) (i : Nat) (x : LoupeSlot) (n0 : Nat) : (s.setSlot i x).ctx n0 = s.ctx n0 := rfl
@[simp] theorem setSlot_look_launch (s : State) (i : Nat) (x : LoupeSlot) (n0 : Nat) : (s.setSlot i x).launch n0 = s.launch n0 := rfl
@[simp] theorem setSlot_look_die (s : State) (i : Nat) (x : LoupeSlot) (n0 : Nat) : (s.setSlot i x).die n0 = s.die n0 := rfl
@[simp] theorem setSlot_look_port (s : State) (i : Nat) (x : LoupeSlot) (n0 : Nat) : (s.setSlot i x).port n0 = s.port n0 := rfl

@[simp] theorem modBoot_now (s : State) (f : Boot → Boot) : (s.modBoot f).now = s.now := rfl
@[simp] theorem modBoot_mem (s : State) (f : Boot → Boot) : (s.modBoot f).mem = s.mem := rfl
@[simp] theorem modBoot_cores (s : State) (f : Boot → Boot) : (s.modBoot f).cores = s.cores := rfl
@[simp] theorem modBoot_ctxs (s : State) (f : Boot → Boot) : (s.modBoot f).ctxs = s.ctxs := rfl
@[simp] theorem modBoot_launches (s : State) (f : Boot → Boot) : (s.modBoot f).launches = s.launches := rfl
@[simp] theorem modBoot_nLaunch (s : State) (f : Boot → Boot) : (s.modBoot f).nLaunch = s.nLaunch := rfl
@[simp] theorem modBoot_dies (s : State) (f : Boot → Boot) : (s.modBoot f).dies = s.dies := rfl
@[simp] theorem modBoot_qsb (s : State) (f : Boot → Boot) : (s.modBoot f).qsb = s.qsb := rfl
@[simp] theorem modBoot_carafe (s : State) (f : Boot → Boot) : (s.modBoot f).carafe = s.carafe := rfl
@[simp] theorem modBoot_carafeOut (s : State) (f : Boot → Boot) : (s.modBoot f).carafeOut = s.carafeOut := rfl
@[simp] theorem modBoot_interlocked (s : State) (f : Boot → Boot) : (s.modBoot f).interlocked = s.interlocked := rfl
@[simp] theorem modBoot_earlyCnt (s : State) (f : Boot → Boot) : (s.modBoot f).earlyCnt = s.earlyCnt := rfl
@[simp] theorem modBoot_badCnt (s : State) (f : Boot → Boot) : (s.modBoot f).badCnt = s.badCnt := rfl
@[simp] theorem modBoot_bridge (s : State) (f : Boot → Boot) : (s.modBoot f).bridge = s.bridge := rfl
@[simp] theorem modBoot_nBridge (s : State) (f : Boot → Boot) : (s.modBoot f).nBridge = s.nBridge := rfl
@[simp] theorem modBoot_outs (s : State) (f : Boot → Boot) : (s.modBoot f).outs = s.outs := rfl
@[simp] theorem modBoot_nOut (s : State) (f : Boot → Boot) : (s.modBoot f).nOut = s.nOut := rfl
@[simp] theorem modBoot_stalled (s : State) (f : Boot → Boot) : (s.modBoot f).stalled = s.stalled := rfl
@[simp] theorem modBoot_answered (s : State) (f : Boot → Boot) : (s.modBoot f).answered = s.answered := rfl
@[simp] theorem modBoot_netOut (s : State) (f : Boot → Boot) : (s.modBoot f).netOut = s.netOut := rfl
@[simp] theorem modBoot_winIdle (s : State) (f : Boot → Boot) : (s.modBoot f).winIdle = s.winIdle := rfl
@[simp] theorem modBoot_evLate (s : State) (f : Boot → Boot) : (s.modBoot f).evLate = s.evLate := rfl
@[simp] theorem modBoot_loupe (s : State) (f : Boot → Boot) : (s.modBoot f).loupe = s.loupe := rfl
@[simp] theorem modBoot_lpOut (s : State) (f : Boot → Boot) : (s.modBoot f).lpOut = s.lpOut := rfl
@[simp] theorem modBoot_barista (s : State) (f : Boot → Boot) : (s.modBoot f).barista = s.barista := rfl
@[simp] theorem modBoot_bqOrder (s : State) (f : Boot → Boot) : (s.modBoot f).bqOrder = s.bqOrder := rfl
@[simp] theorem modBoot_prism (s : State) (f : Boot → Boot) : (s.modBoot f).prism = s.prism := rfl
@[simp] theorem modBoot_nPrism (s : State) (f : Boot → Boot) : (s.modBoot f).nPrism = s.nPrism := rfl
@[simp] theorem modBoot_deltas (s : State) (f : Boot → Boot) : (s.modBoot f).deltas = s.deltas := rfl
@[simp] theorem modBoot_nDelta (s : State) (f : Boot → Boot) : (s.modBoot f).nDelta = s.nDelta := rfl
@[simp] theorem modBoot_parCnt (s : State) (f : Boot → Boot) : (s.modBoot f).parCnt = s.parCnt := rfl
@[simp] theorem modBoot_ports (s : State) (f : Boot → Boot) : (s.modBoot f).ports = s.ports := rfl
@[simp] theorem modBoot_switches (s : State) (f : Boot → Boot) : (s.modBoot f).switches = s.switches := rfl
@[simp] theorem modBoot_pairs (s : State) (f : Boot → Boot) : (s.modBoot f).pairs = s.pairs := rfl
@[simp] theorem modBoot_pkgnum (s : State) (f : Boot → Boot) : (s.modBoot f).pkgnum = s.pkgnum := rfl
@[simp] theorem modBoot_pkgSet (s : State) (f : Boot → Boot) : (s.modBoot f).pkgSet = s.pkgSet := rfl
@[simp] theorem modBoot_framecnt (s : State) (f : Boot → Boot) : (s.modBoot f).framecnt = s.framecnt := rfl
@[simp] theorem modBoot_framePos (s : State) (f : Boot → Boot) : (s.modBoot f).framePos = s.framePos := rfl
@[simp] theorem modBoot_frameRun (s : State) (f : Boot → Boot) : (s.modBoot f).frameRun = s.frameRun := rfl
@[simp] theorem modBoot_flat (s : State) (f : Boot → Boot) : (s.modBoot f).flat = s.flat := rfl
@[simp] theorem modBoot_slotbase (s : State) (f : Boot → Boot) : (s.modBoot f).slotbase = s.slotbase := rfl
@[simp] theorem modBoot_peertab (s : State) (f : Boot → Boot) : (s.modBoot f).peertab = s.peertab := rfl
@[simp] theorem modBoot_pdefcnt (s : State) (f : Boot → Boot) : (s.modBoot f).pdefcnt = s.pdefcnt := rfl
@[simp] theorem modBoot_pendFreeze (s : State) (f : Boot → Boot) : (s.modBoot f).pendFreeze = s.pendFreeze := rfl
@[simp] theorem modBoot_frameFreeze (s : State) (f : Boot → Boot) : (s.modBoot f).frameFreeze = s.frameFreeze := rfl
@[simp] theorem modBoot_expbase (s : State) (f : Boot → Boot) : (s.modBoot f).expbase = s.expbase := rfl
@[simp] theorem modBoot_expn (s : State) (f : Boot → Boot) : (s.modBoot f).expn = s.expn := rfl
@[simp] theorem modBoot_rwtbase (s : State) (f : Boot → Boot) : (s.modBoot f).rwtbase = s.rwtbase := rfl
@[simp] theorem modBoot_mirbase (s : State) (f : Boot → Boot) : (s.modBoot f).mirbase = s.mirbase := rfl
@[simp] theorem modBoot_pincnt (s : State) (f : Boot → Boot) : (s.modBoot f).pincnt = s.pincnt := rfl
@[simp] theorem modBoot_mbox (s : State) (f : Boot → Boot) : (s.modBoot f).mbox = s.mbox := rfl
@[simp] theorem modBoot_host (s : State) (f : Boot → Boot) : (s.modBoot f).host = s.host := rfl
@[simp] theorem modBoot_agenda (s : State) (f : Boot → Boot) : (s.modBoot f).agenda = s.agenda := rfl
@[simp] theorem modBoot_sensed (s : State) (f : Boot → Boot) : (s.modBoot f).sensed = s.sensed := rfl
@[simp] theorem modBoot_cur (s : State) (f : Boot → Boot) : (s.modBoot f).cur = s.cur := rfl
@[simp] theorem modBoot_fresh (s : State) (f : Boot → Boot) : (s.modBoot f).fresh = s.fresh := rfl
@[simp] theorem modBoot_look_core (s : State) (f : Boot → Boot) (n0 : Nat) : (s.modBoot f).core n0 = s.core n0 := rfl
@[simp] theorem modBoot_look_ctx (s : State) (f : Boot → Boot) (n0 : Nat) : (s.modBoot f).ctx n0 = s.ctx n0 := rfl
@[simp] theorem modBoot_look_launch (s : State) (f : Boot → Boot) (n0 : Nat) : (s.modBoot f).launch n0 = s.launch n0 := rfl
@[simp] theorem modBoot_look_die (s : State) (f : Boot → Boot) (n0 : Nat) : (s.modBoot f).die n0 = s.die n0 := rfl
@[simp] theorem modBoot_look_port (s : State) (f : Boot → Boot) (n0 : Nat) : (s.modBoot f).port n0 = s.port n0 := rfl
@[simp] theorem modBoot_look_slot (s : State) (f : Boot → Boot) (n0 : Nat) : (s.modBoot f).slot n0 = s.slot n0 := rfl

@[simp] theorem setCarafe_now (s : State) (j : Nat) (x : CarafeSlot) : (s.setCarafe j x).now = s.now := rfl
@[simp] theorem setCarafe_mem (s : State) (j : Nat) (x : CarafeSlot) : (s.setCarafe j x).mem = s.mem := rfl
@[simp] theorem setCarafe_cores (s : State) (j : Nat) (x : CarafeSlot) : (s.setCarafe j x).cores = s.cores := rfl
@[simp] theorem setCarafe_ctxs (s : State) (j : Nat) (x : CarafeSlot) : (s.setCarafe j x).ctxs = s.ctxs := rfl
@[simp] theorem setCarafe_launches (s : State) (j : Nat) (x : CarafeSlot) : (s.setCarafe j x).launches = s.launches := rfl
@[simp] theorem setCarafe_nLaunch (s : State) (j : Nat) (x : CarafeSlot) : (s.setCarafe j x).nLaunch = s.nLaunch := rfl
@[simp] theorem setCarafe_dies (s : State) (j : Nat) (x : CarafeSlot) : (s.setCarafe j x).dies = s.dies := rfl
@[simp] theorem setCarafe_qsb (s : State) (j : Nat) (x : CarafeSlot) : (s.setCarafe j x).qsb = s.qsb := rfl
@[simp] theorem setCarafe_carafeOut (s : State) (j : Nat) (x : CarafeSlot) : (s.setCarafe j x).carafeOut = s.carafeOut := rfl
@[simp] theorem setCarafe_interlocked (s : State) (j : Nat) (x : CarafeSlot) : (s.setCarafe j x).interlocked = s.interlocked := rfl
@[simp] theorem setCarafe_earlyCnt (s : State) (j : Nat) (x : CarafeSlot) : (s.setCarafe j x).earlyCnt = s.earlyCnt := rfl
@[simp] theorem setCarafe_badCnt (s : State) (j : Nat) (x : CarafeSlot) : (s.setCarafe j x).badCnt = s.badCnt := rfl
@[simp] theorem setCarafe_bridge (s : State) (j : Nat) (x : CarafeSlot) : (s.setCarafe j x).bridge = s.bridge := rfl
@[simp] theorem setCarafe_nBridge (s : State) (j : Nat) (x : CarafeSlot) : (s.setCarafe j x).nBridge = s.nBridge := rfl
@[simp] theorem setCarafe_outs (s : State) (j : Nat) (x : CarafeSlot) : (s.setCarafe j x).outs = s.outs := rfl
@[simp] theorem setCarafe_nOut (s : State) (j : Nat) (x : CarafeSlot) : (s.setCarafe j x).nOut = s.nOut := rfl
@[simp] theorem setCarafe_stalled (s : State) (j : Nat) (x : CarafeSlot) : (s.setCarafe j x).stalled = s.stalled := rfl
@[simp] theorem setCarafe_answered (s : State) (j : Nat) (x : CarafeSlot) : (s.setCarafe j x).answered = s.answered := rfl
@[simp] theorem setCarafe_netOut (s : State) (j : Nat) (x : CarafeSlot) : (s.setCarafe j x).netOut = s.netOut := rfl
@[simp] theorem setCarafe_winIdle (s : State) (j : Nat) (x : CarafeSlot) : (s.setCarafe j x).winIdle = s.winIdle := rfl
@[simp] theorem setCarafe_evLate (s : State) (j : Nat) (x : CarafeSlot) : (s.setCarafe j x).evLate = s.evLate := rfl
@[simp] theorem setCarafe_loupe (s : State) (j : Nat) (x : CarafeSlot) : (s.setCarafe j x).loupe = s.loupe := rfl
@[simp] theorem setCarafe_lpOut (s : State) (j : Nat) (x : CarafeSlot) : (s.setCarafe j x).lpOut = s.lpOut := rfl
@[simp] theorem setCarafe_barista (s : State) (j : Nat) (x : CarafeSlot) : (s.setCarafe j x).barista = s.barista := rfl
@[simp] theorem setCarafe_bqOrder (s : State) (j : Nat) (x : CarafeSlot) : (s.setCarafe j x).bqOrder = s.bqOrder := rfl
@[simp] theorem setCarafe_prism (s : State) (j : Nat) (x : CarafeSlot) : (s.setCarafe j x).prism = s.prism := rfl
@[simp] theorem setCarafe_nPrism (s : State) (j : Nat) (x : CarafeSlot) : (s.setCarafe j x).nPrism = s.nPrism := rfl
@[simp] theorem setCarafe_deltas (s : State) (j : Nat) (x : CarafeSlot) : (s.setCarafe j x).deltas = s.deltas := rfl
@[simp] theorem setCarafe_nDelta (s : State) (j : Nat) (x : CarafeSlot) : (s.setCarafe j x).nDelta = s.nDelta := rfl
@[simp] theorem setCarafe_parCnt (s : State) (j : Nat) (x : CarafeSlot) : (s.setCarafe j x).parCnt = s.parCnt := rfl
@[simp] theorem setCarafe_ports (s : State) (j : Nat) (x : CarafeSlot) : (s.setCarafe j x).ports = s.ports := rfl
@[simp] theorem setCarafe_switches (s : State) (j : Nat) (x : CarafeSlot) : (s.setCarafe j x).switches = s.switches := rfl
@[simp] theorem setCarafe_pairs (s : State) (j : Nat) (x : CarafeSlot) : (s.setCarafe j x).pairs = s.pairs := rfl
@[simp] theorem setCarafe_pkgnum (s : State) (j : Nat) (x : CarafeSlot) : (s.setCarafe j x).pkgnum = s.pkgnum := rfl
@[simp] theorem setCarafe_pkgSet (s : State) (j : Nat) (x : CarafeSlot) : (s.setCarafe j x).pkgSet = s.pkgSet := rfl
@[simp] theorem setCarafe_framecnt (s : State) (j : Nat) (x : CarafeSlot) : (s.setCarafe j x).framecnt = s.framecnt := rfl
@[simp] theorem setCarafe_framePos (s : State) (j : Nat) (x : CarafeSlot) : (s.setCarafe j x).framePos = s.framePos := rfl
@[simp] theorem setCarafe_frameRun (s : State) (j : Nat) (x : CarafeSlot) : (s.setCarafe j x).frameRun = s.frameRun := rfl
@[simp] theorem setCarafe_flat (s : State) (j : Nat) (x : CarafeSlot) : (s.setCarafe j x).flat = s.flat := rfl
@[simp] theorem setCarafe_slotbase (s : State) (j : Nat) (x : CarafeSlot) : (s.setCarafe j x).slotbase = s.slotbase := rfl
@[simp] theorem setCarafe_peertab (s : State) (j : Nat) (x : CarafeSlot) : (s.setCarafe j x).peertab = s.peertab := rfl
@[simp] theorem setCarafe_pdefcnt (s : State) (j : Nat) (x : CarafeSlot) : (s.setCarafe j x).pdefcnt = s.pdefcnt := rfl
@[simp] theorem setCarafe_pendFreeze (s : State) (j : Nat) (x : CarafeSlot) : (s.setCarafe j x).pendFreeze = s.pendFreeze := rfl
@[simp] theorem setCarafe_frameFreeze (s : State) (j : Nat) (x : CarafeSlot) : (s.setCarafe j x).frameFreeze = s.frameFreeze := rfl
@[simp] theorem setCarafe_expbase (s : State) (j : Nat) (x : CarafeSlot) : (s.setCarafe j x).expbase = s.expbase := rfl
@[simp] theorem setCarafe_expn (s : State) (j : Nat) (x : CarafeSlot) : (s.setCarafe j x).expn = s.expn := rfl
@[simp] theorem setCarafe_rwtbase (s : State) (j : Nat) (x : CarafeSlot) : (s.setCarafe j x).rwtbase = s.rwtbase := rfl
@[simp] theorem setCarafe_mirbase (s : State) (j : Nat) (x : CarafeSlot) : (s.setCarafe j x).mirbase = s.mirbase := rfl
@[simp] theorem setCarafe_pincnt (s : State) (j : Nat) (x : CarafeSlot) : (s.setCarafe j x).pincnt = s.pincnt := rfl
@[simp] theorem setCarafe_boot (s : State) (j : Nat) (x : CarafeSlot) : (s.setCarafe j x).boot = s.boot := rfl
@[simp] theorem setCarafe_mbox (s : State) (j : Nat) (x : CarafeSlot) : (s.setCarafe j x).mbox = s.mbox := rfl
@[simp] theorem setCarafe_host (s : State) (j : Nat) (x : CarafeSlot) : (s.setCarafe j x).host = s.host := rfl
@[simp] theorem setCarafe_agenda (s : State) (j : Nat) (x : CarafeSlot) : (s.setCarafe j x).agenda = s.agenda := rfl
@[simp] theorem setCarafe_sensed (s : State) (j : Nat) (x : CarafeSlot) : (s.setCarafe j x).sensed = s.sensed := rfl
@[simp] theorem setCarafe_cur (s : State) (j : Nat) (x : CarafeSlot) : (s.setCarafe j x).cur = s.cur := rfl
@[simp] theorem setCarafe_fresh (s : State) (j : Nat) (x : CarafeSlot) : (s.setCarafe j x).fresh = s.fresh := rfl
@[simp] theorem setCarafe_look_core (s : State) (j : Nat) (x : CarafeSlot) (n0 : Nat) : (s.setCarafe j x).core n0 = s.core n0 := rfl
@[simp] theorem setCarafe_look_ctx (s : State) (j : Nat) (x : CarafeSlot) (n0 : Nat) : (s.setCarafe j x).ctx n0 = s.ctx n0 := rfl
@[simp] theorem setCarafe_look_launch (s : State) (j : Nat) (x : CarafeSlot) (n0 : Nat) : (s.setCarafe j x).launch n0 = s.launch n0 := rfl
@[simp] theorem setCarafe_look_die (s : State) (j : Nat) (x : CarafeSlot) (n0 : Nat) : (s.setCarafe j x).die n0 = s.die n0 := rfl
@[simp] theorem setCarafe_look_port (s : State) (j : Nat) (x : CarafeSlot) (n0 : Nat) : (s.setCarafe j x).port n0 = s.port n0 := rfl
@[simp] theorem setCarafe_look_slot (s : State) (j : Nat) (x : CarafeSlot) (n0 : Nat) : (s.setCarafe j x).slot n0 = s.slot n0 := rfl

@[simp] theorem setBq_now (s : State) (j : Nat) (x : BqSlot) : (s.setBq j x).now = s.now := rfl
@[simp] theorem setBq_mem (s : State) (j : Nat) (x : BqSlot) : (s.setBq j x).mem = s.mem := rfl
@[simp] theorem setBq_cores (s : State) (j : Nat) (x : BqSlot) : (s.setBq j x).cores = s.cores := rfl
@[simp] theorem setBq_ctxs (s : State) (j : Nat) (x : BqSlot) : (s.setBq j x).ctxs = s.ctxs := rfl
@[simp] theorem setBq_launches (s : State) (j : Nat) (x : BqSlot) : (s.setBq j x).launches = s.launches := rfl
@[simp] theorem setBq_nLaunch (s : State) (j : Nat) (x : BqSlot) : (s.setBq j x).nLaunch = s.nLaunch := rfl
@[simp] theorem setBq_dies (s : State) (j : Nat) (x : BqSlot) : (s.setBq j x).dies = s.dies := rfl
@[simp] theorem setBq_qsb (s : State) (j : Nat) (x : BqSlot) : (s.setBq j x).qsb = s.qsb := rfl
@[simp] theorem setBq_carafe (s : State) (j : Nat) (x : BqSlot) : (s.setBq j x).carafe = s.carafe := rfl
@[simp] theorem setBq_carafeOut (s : State) (j : Nat) (x : BqSlot) : (s.setBq j x).carafeOut = s.carafeOut := rfl
@[simp] theorem setBq_interlocked (s : State) (j : Nat) (x : BqSlot) : (s.setBq j x).interlocked = s.interlocked := rfl
@[simp] theorem setBq_earlyCnt (s : State) (j : Nat) (x : BqSlot) : (s.setBq j x).earlyCnt = s.earlyCnt := rfl
@[simp] theorem setBq_badCnt (s : State) (j : Nat) (x : BqSlot) : (s.setBq j x).badCnt = s.badCnt := rfl
@[simp] theorem setBq_bridge (s : State) (j : Nat) (x : BqSlot) : (s.setBq j x).bridge = s.bridge := rfl
@[simp] theorem setBq_nBridge (s : State) (j : Nat) (x : BqSlot) : (s.setBq j x).nBridge = s.nBridge := rfl
@[simp] theorem setBq_outs (s : State) (j : Nat) (x : BqSlot) : (s.setBq j x).outs = s.outs := rfl
@[simp] theorem setBq_nOut (s : State) (j : Nat) (x : BqSlot) : (s.setBq j x).nOut = s.nOut := rfl
@[simp] theorem setBq_stalled (s : State) (j : Nat) (x : BqSlot) : (s.setBq j x).stalled = s.stalled := rfl
@[simp] theorem setBq_answered (s : State) (j : Nat) (x : BqSlot) : (s.setBq j x).answered = s.answered := rfl
@[simp] theorem setBq_netOut (s : State) (j : Nat) (x : BqSlot) : (s.setBq j x).netOut = s.netOut := rfl
@[simp] theorem setBq_winIdle (s : State) (j : Nat) (x : BqSlot) : (s.setBq j x).winIdle = s.winIdle := rfl
@[simp] theorem setBq_evLate (s : State) (j : Nat) (x : BqSlot) : (s.setBq j x).evLate = s.evLate := rfl
@[simp] theorem setBq_loupe (s : State) (j : Nat) (x : BqSlot) : (s.setBq j x).loupe = s.loupe := rfl
@[simp] theorem setBq_lpOut (s : State) (j : Nat) (x : BqSlot) : (s.setBq j x).lpOut = s.lpOut := rfl
@[simp] theorem setBq_bqOrder (s : State) (j : Nat) (x : BqSlot) : (s.setBq j x).bqOrder = s.bqOrder := rfl
@[simp] theorem setBq_prism (s : State) (j : Nat) (x : BqSlot) : (s.setBq j x).prism = s.prism := rfl
@[simp] theorem setBq_nPrism (s : State) (j : Nat) (x : BqSlot) : (s.setBq j x).nPrism = s.nPrism := rfl
@[simp] theorem setBq_deltas (s : State) (j : Nat) (x : BqSlot) : (s.setBq j x).deltas = s.deltas := rfl
@[simp] theorem setBq_nDelta (s : State) (j : Nat) (x : BqSlot) : (s.setBq j x).nDelta = s.nDelta := rfl
@[simp] theorem setBq_parCnt (s : State) (j : Nat) (x : BqSlot) : (s.setBq j x).parCnt = s.parCnt := rfl
@[simp] theorem setBq_ports (s : State) (j : Nat) (x : BqSlot) : (s.setBq j x).ports = s.ports := rfl
@[simp] theorem setBq_switches (s : State) (j : Nat) (x : BqSlot) : (s.setBq j x).switches = s.switches := rfl
@[simp] theorem setBq_pairs (s : State) (j : Nat) (x : BqSlot) : (s.setBq j x).pairs = s.pairs := rfl
@[simp] theorem setBq_pkgnum (s : State) (j : Nat) (x : BqSlot) : (s.setBq j x).pkgnum = s.pkgnum := rfl
@[simp] theorem setBq_pkgSet (s : State) (j : Nat) (x : BqSlot) : (s.setBq j x).pkgSet = s.pkgSet := rfl
@[simp] theorem setBq_framecnt (s : State) (j : Nat) (x : BqSlot) : (s.setBq j x).framecnt = s.framecnt := rfl
@[simp] theorem setBq_framePos (s : State) (j : Nat) (x : BqSlot) : (s.setBq j x).framePos = s.framePos := rfl
@[simp] theorem setBq_frameRun (s : State) (j : Nat) (x : BqSlot) : (s.setBq j x).frameRun = s.frameRun := rfl
@[simp] theorem setBq_flat (s : State) (j : Nat) (x : BqSlot) : (s.setBq j x).flat = s.flat := rfl
@[simp] theorem setBq_slotbase (s : State) (j : Nat) (x : BqSlot) : (s.setBq j x).slotbase = s.slotbase := rfl
@[simp] theorem setBq_peertab (s : State) (j : Nat) (x : BqSlot) : (s.setBq j x).peertab = s.peertab := rfl
@[simp] theorem setBq_pdefcnt (s : State) (j : Nat) (x : BqSlot) : (s.setBq j x).pdefcnt = s.pdefcnt := rfl
@[simp] theorem setBq_pendFreeze (s : State) (j : Nat) (x : BqSlot) : (s.setBq j x).pendFreeze = s.pendFreeze := rfl
@[simp] theorem setBq_frameFreeze (s : State) (j : Nat) (x : BqSlot) : (s.setBq j x).frameFreeze = s.frameFreeze := rfl
@[simp] theorem setBq_expbase (s : State) (j : Nat) (x : BqSlot) : (s.setBq j x).expbase = s.expbase := rfl
@[simp] theorem setBq_expn (s : State) (j : Nat) (x : BqSlot) : (s.setBq j x).expn = s.expn := rfl
@[simp] theorem setBq_rwtbase (s : State) (j : Nat) (x : BqSlot) : (s.setBq j x).rwtbase = s.rwtbase := rfl
@[simp] theorem setBq_mirbase (s : State) (j : Nat) (x : BqSlot) : (s.setBq j x).mirbase = s.mirbase := rfl
@[simp] theorem setBq_pincnt (s : State) (j : Nat) (x : BqSlot) : (s.setBq j x).pincnt = s.pincnt := rfl
@[simp] theorem setBq_boot (s : State) (j : Nat) (x : BqSlot) : (s.setBq j x).boot = s.boot := rfl
@[simp] theorem setBq_mbox (s : State) (j : Nat) (x : BqSlot) : (s.setBq j x).mbox = s.mbox := rfl
@[simp] theorem setBq_host (s : State) (j : Nat) (x : BqSlot) : (s.setBq j x).host = s.host := rfl
@[simp] theorem setBq_agenda (s : State) (j : Nat) (x : BqSlot) : (s.setBq j x).agenda = s.agenda := rfl
@[simp] theorem setBq_sensed (s : State) (j : Nat) (x : BqSlot) : (s.setBq j x).sensed = s.sensed := rfl
@[simp] theorem setBq_cur (s : State) (j : Nat) (x : BqSlot) : (s.setBq j x).cur = s.cur := rfl
@[simp] theorem setBq_fresh (s : State) (j : Nat) (x : BqSlot) : (s.setBq j x).fresh = s.fresh := rfl
@[simp] theorem setBq_look_core (s : State) (j : Nat) (x : BqSlot) (n0 : Nat) : (s.setBq j x).core n0 = s.core n0 := rfl
@[simp] theorem setBq_look_ctx (s : State) (j : Nat) (x : BqSlot) (n0 : Nat) : (s.setBq j x).ctx n0 = s.ctx n0 := rfl
@[simp] theorem setBq_look_launch (s : State) (j : Nat) (x : BqSlot) (n0 : Nat) : (s.setBq j x).launch n0 = s.launch n0 := rfl
@[simp] theorem setBq_look_die (s : State) (j : Nat) (x : BqSlot) (n0 : Nat) : (s.setBq j x).die n0 = s.die n0 := rfl
@[simp] theorem setBq_look_port (s : State) (j : Nat) (x : BqSlot) (n0 : Nat) : (s.setBq j x).port n0 = s.port n0 := rfl
@[simp] theorem setBq_look_slot (s : State) (j : Nat) (x : BqSlot) (n0 : Nat) : (s.setBq j x).slot n0 = s.slot n0 := rfl

@[simp] theorem setPreq_now (s : State) (r : Nat) (x : PrismReq) : (s.setPreq r x).now = s.now := rfl
@[simp] theorem setPreq_mem (s : State) (r : Nat) (x : PrismReq) : (s.setPreq r x).mem = s.mem := rfl
@[simp] theorem setPreq_cores (s : State) (r : Nat) (x : PrismReq) : (s.setPreq r x).cores = s.cores := rfl
@[simp] theorem setPreq_ctxs (s : State) (r : Nat) (x : PrismReq) : (s.setPreq r x).ctxs = s.ctxs := rfl
@[simp] theorem setPreq_launches (s : State) (r : Nat) (x : PrismReq) : (s.setPreq r x).launches = s.launches := rfl
@[simp] theorem setPreq_nLaunch (s : State) (r : Nat) (x : PrismReq) : (s.setPreq r x).nLaunch = s.nLaunch := rfl
@[simp] theorem setPreq_dies (s : State) (r : Nat) (x : PrismReq) : (s.setPreq r x).dies = s.dies := rfl
@[simp] theorem setPreq_qsb (s : State) (r : Nat) (x : PrismReq) : (s.setPreq r x).qsb = s.qsb := rfl
@[simp] theorem setPreq_carafe (s : State) (r : Nat) (x : PrismReq) : (s.setPreq r x).carafe = s.carafe := rfl
@[simp] theorem setPreq_carafeOut (s : State) (r : Nat) (x : PrismReq) : (s.setPreq r x).carafeOut = s.carafeOut := rfl
@[simp] theorem setPreq_interlocked (s : State) (r : Nat) (x : PrismReq) : (s.setPreq r x).interlocked = s.interlocked := rfl
@[simp] theorem setPreq_earlyCnt (s : State) (r : Nat) (x : PrismReq) : (s.setPreq r x).earlyCnt = s.earlyCnt := rfl
@[simp] theorem setPreq_badCnt (s : State) (r : Nat) (x : PrismReq) : (s.setPreq r x).badCnt = s.badCnt := rfl
@[simp] theorem setPreq_bridge (s : State) (r : Nat) (x : PrismReq) : (s.setPreq r x).bridge = s.bridge := rfl
@[simp] theorem setPreq_nBridge (s : State) (r : Nat) (x : PrismReq) : (s.setPreq r x).nBridge = s.nBridge := rfl
@[simp] theorem setPreq_outs (s : State) (r : Nat) (x : PrismReq) : (s.setPreq r x).outs = s.outs := rfl
@[simp] theorem setPreq_nOut (s : State) (r : Nat) (x : PrismReq) : (s.setPreq r x).nOut = s.nOut := rfl
@[simp] theorem setPreq_stalled (s : State) (r : Nat) (x : PrismReq) : (s.setPreq r x).stalled = s.stalled := rfl
@[simp] theorem setPreq_answered (s : State) (r : Nat) (x : PrismReq) : (s.setPreq r x).answered = s.answered := rfl
@[simp] theorem setPreq_netOut (s : State) (r : Nat) (x : PrismReq) : (s.setPreq r x).netOut = s.netOut := rfl
@[simp] theorem setPreq_winIdle (s : State) (r : Nat) (x : PrismReq) : (s.setPreq r x).winIdle = s.winIdle := rfl
@[simp] theorem setPreq_evLate (s : State) (r : Nat) (x : PrismReq) : (s.setPreq r x).evLate = s.evLate := rfl
@[simp] theorem setPreq_loupe (s : State) (r : Nat) (x : PrismReq) : (s.setPreq r x).loupe = s.loupe := rfl
@[simp] theorem setPreq_lpOut (s : State) (r : Nat) (x : PrismReq) : (s.setPreq r x).lpOut = s.lpOut := rfl
@[simp] theorem setPreq_barista (s : State) (r : Nat) (x : PrismReq) : (s.setPreq r x).barista = s.barista := rfl
@[simp] theorem setPreq_bqOrder (s : State) (r : Nat) (x : PrismReq) : (s.setPreq r x).bqOrder = s.bqOrder := rfl
@[simp] theorem setPreq_nPrism (s : State) (r : Nat) (x : PrismReq) : (s.setPreq r x).nPrism = s.nPrism := rfl
@[simp] theorem setPreq_deltas (s : State) (r : Nat) (x : PrismReq) : (s.setPreq r x).deltas = s.deltas := rfl
@[simp] theorem setPreq_nDelta (s : State) (r : Nat) (x : PrismReq) : (s.setPreq r x).nDelta = s.nDelta := rfl
@[simp] theorem setPreq_parCnt (s : State) (r : Nat) (x : PrismReq) : (s.setPreq r x).parCnt = s.parCnt := rfl
@[simp] theorem setPreq_ports (s : State) (r : Nat) (x : PrismReq) : (s.setPreq r x).ports = s.ports := rfl
@[simp] theorem setPreq_switches (s : State) (r : Nat) (x : PrismReq) : (s.setPreq r x).switches = s.switches := rfl
@[simp] theorem setPreq_pairs (s : State) (r : Nat) (x : PrismReq) : (s.setPreq r x).pairs = s.pairs := rfl
@[simp] theorem setPreq_pkgnum (s : State) (r : Nat) (x : PrismReq) : (s.setPreq r x).pkgnum = s.pkgnum := rfl
@[simp] theorem setPreq_pkgSet (s : State) (r : Nat) (x : PrismReq) : (s.setPreq r x).pkgSet = s.pkgSet := rfl
@[simp] theorem setPreq_framecnt (s : State) (r : Nat) (x : PrismReq) : (s.setPreq r x).framecnt = s.framecnt := rfl
@[simp] theorem setPreq_framePos (s : State) (r : Nat) (x : PrismReq) : (s.setPreq r x).framePos = s.framePos := rfl
@[simp] theorem setPreq_frameRun (s : State) (r : Nat) (x : PrismReq) : (s.setPreq r x).frameRun = s.frameRun := rfl
@[simp] theorem setPreq_flat (s : State) (r : Nat) (x : PrismReq) : (s.setPreq r x).flat = s.flat := rfl
@[simp] theorem setPreq_slotbase (s : State) (r : Nat) (x : PrismReq) : (s.setPreq r x).slotbase = s.slotbase := rfl
@[simp] theorem setPreq_peertab (s : State) (r : Nat) (x : PrismReq) : (s.setPreq r x).peertab = s.peertab := rfl
@[simp] theorem setPreq_pdefcnt (s : State) (r : Nat) (x : PrismReq) : (s.setPreq r x).pdefcnt = s.pdefcnt := rfl
@[simp] theorem setPreq_pendFreeze (s : State) (r : Nat) (x : PrismReq) : (s.setPreq r x).pendFreeze = s.pendFreeze := rfl
@[simp] theorem setPreq_frameFreeze (s : State) (r : Nat) (x : PrismReq) : (s.setPreq r x).frameFreeze = s.frameFreeze := rfl
@[simp] theorem setPreq_expbase (s : State) (r : Nat) (x : PrismReq) : (s.setPreq r x).expbase = s.expbase := rfl
@[simp] theorem setPreq_expn (s : State) (r : Nat) (x : PrismReq) : (s.setPreq r x).expn = s.expn := rfl
@[simp] theorem setPreq_rwtbase (s : State) (r : Nat) (x : PrismReq) : (s.setPreq r x).rwtbase = s.rwtbase := rfl
@[simp] theorem setPreq_mirbase (s : State) (r : Nat) (x : PrismReq) : (s.setPreq r x).mirbase = s.mirbase := rfl
@[simp] theorem setPreq_pincnt (s : State) (r : Nat) (x : PrismReq) : (s.setPreq r x).pincnt = s.pincnt := rfl
@[simp] theorem setPreq_boot (s : State) (r : Nat) (x : PrismReq) : (s.setPreq r x).boot = s.boot := rfl
@[simp] theorem setPreq_mbox (s : State) (r : Nat) (x : PrismReq) : (s.setPreq r x).mbox = s.mbox := rfl
@[simp] theorem setPreq_host (s : State) (r : Nat) (x : PrismReq) : (s.setPreq r x).host = s.host := rfl
@[simp] theorem setPreq_agenda (s : State) (r : Nat) (x : PrismReq) : (s.setPreq r x).agenda = s.agenda := rfl
@[simp] theorem setPreq_sensed (s : State) (r : Nat) (x : PrismReq) : (s.setPreq r x).sensed = s.sensed := rfl
@[simp] theorem setPreq_cur (s : State) (r : Nat) (x : PrismReq) : (s.setPreq r x).cur = s.cur := rfl
@[simp] theorem setPreq_fresh (s : State) (r : Nat) (x : PrismReq) : (s.setPreq r x).fresh = s.fresh := rfl
@[simp] theorem setPreq_look_core (s : State) (r : Nat) (x : PrismReq) (n0 : Nat) : (s.setPreq r x).core n0 = s.core n0 := rfl
@[simp] theorem setPreq_look_ctx (s : State) (r : Nat) (x : PrismReq) (n0 : Nat) : (s.setPreq r x).ctx n0 = s.ctx n0 := rfl
@[simp] theorem setPreq_look_launch (s : State) (r : Nat) (x : PrismReq) (n0 : Nat) : (s.setPreq r x).launch n0 = s.launch n0 := rfl
@[simp] theorem setPreq_look_die (s : State) (r : Nat) (x : PrismReq) (n0 : Nat) : (s.setPreq r x).die n0 = s.die n0 := rfl
@[simp] theorem setPreq_look_port (s : State) (r : Nat) (x : PrismReq) (n0 : Nat) : (s.setPreq r x).port n0 = s.port n0 := rfl
@[simp] theorem setPreq_look_slot (s : State) (r : Nat) (x : PrismReq) (n0 : Nat) : (s.setPreq r x).slot n0 = s.slot n0 := rfl

@[simp] theorem tick1_now (s : State) : (s.tick1).now = s.now := rfl
@[simp] theorem tick1_mem (s : State) : (s.tick1).mem = s.mem := rfl
@[simp] theorem tick1_cores (s : State) : (s.tick1).cores = s.cores := rfl
@[simp] theorem tick1_ctxs (s : State) : (s.tick1).ctxs = s.ctxs := rfl
@[simp] theorem tick1_launches (s : State) : (s.tick1).launches = s.launches := rfl
@[simp] theorem tick1_nLaunch (s : State) : (s.tick1).nLaunch = s.nLaunch := rfl
@[simp] theorem tick1_dies (s : State) : (s.tick1).dies = s.dies := rfl
@[simp] theorem tick1_qsb (s : State) : (s.tick1).qsb = s.qsb := rfl
@[simp] theorem tick1_carafe (s : State) : (s.tick1).carafe = s.carafe := rfl
@[simp] theorem tick1_carafeOut (s : State) : (s.tick1).carafeOut = s.carafeOut := rfl
@[simp] theorem tick1_interlocked (s : State) : (s.tick1).interlocked = s.interlocked := rfl
@[simp] theorem tick1_earlyCnt (s : State) : (s.tick1).earlyCnt = s.earlyCnt := rfl
@[simp] theorem tick1_badCnt (s : State) : (s.tick1).badCnt = s.badCnt := rfl
@[simp] theorem tick1_bridge (s : State) : (s.tick1).bridge = s.bridge := rfl
@[simp] theorem tick1_nBridge (s : State) : (s.tick1).nBridge = s.nBridge := rfl
@[simp] theorem tick1_outs (s : State) : (s.tick1).outs = s.outs := rfl
@[simp] theorem tick1_nOut (s : State) : (s.tick1).nOut = s.nOut := rfl
@[simp] theorem tick1_stalled (s : State) : (s.tick1).stalled = s.stalled := rfl
@[simp] theorem tick1_answered (s : State) : (s.tick1).answered = s.answered := rfl
@[simp] theorem tick1_netOut (s : State) : (s.tick1).netOut = s.netOut := rfl
@[simp] theorem tick1_winIdle (s : State) : (s.tick1).winIdle = s.winIdle := rfl
@[simp] theorem tick1_evLate (s : State) : (s.tick1).evLate = s.evLate := rfl
@[simp] theorem tick1_loupe (s : State) : (s.tick1).loupe = s.loupe := rfl
@[simp] theorem tick1_lpOut (s : State) : (s.tick1).lpOut = s.lpOut := rfl
@[simp] theorem tick1_barista (s : State) : (s.tick1).barista = s.barista := rfl
@[simp] theorem tick1_bqOrder (s : State) : (s.tick1).bqOrder = s.bqOrder := rfl
@[simp] theorem tick1_prism (s : State) : (s.tick1).prism = s.prism := rfl
@[simp] theorem tick1_nPrism (s : State) : (s.tick1).nPrism = s.nPrism := rfl
@[simp] theorem tick1_deltas (s : State) : (s.tick1).deltas = s.deltas := rfl
@[simp] theorem tick1_nDelta (s : State) : (s.tick1).nDelta = s.nDelta := rfl
@[simp] theorem tick1_parCnt (s : State) : (s.tick1).parCnt = s.parCnt := rfl
@[simp] theorem tick1_ports (s : State) : (s.tick1).ports = s.ports := rfl
@[simp] theorem tick1_switches (s : State) : (s.tick1).switches = s.switches := rfl
@[simp] theorem tick1_pairs (s : State) : (s.tick1).pairs = s.pairs := rfl
@[simp] theorem tick1_pkgnum (s : State) : (s.tick1).pkgnum = s.pkgnum := rfl
@[simp] theorem tick1_pkgSet (s : State) : (s.tick1).pkgSet = s.pkgSet := rfl
@[simp] theorem tick1_framecnt (s : State) : (s.tick1).framecnt = s.framecnt := rfl
@[simp] theorem tick1_framePos (s : State) : (s.tick1).framePos = s.framePos := rfl
@[simp] theorem tick1_frameRun (s : State) : (s.tick1).frameRun = s.frameRun := rfl
@[simp] theorem tick1_flat (s : State) : (s.tick1).flat = s.flat := rfl
@[simp] theorem tick1_slotbase (s : State) : (s.tick1).slotbase = s.slotbase := rfl
@[simp] theorem tick1_peertab (s : State) : (s.tick1).peertab = s.peertab := rfl
@[simp] theorem tick1_pdefcnt (s : State) : (s.tick1).pdefcnt = s.pdefcnt := rfl
@[simp] theorem tick1_pendFreeze (s : State) : (s.tick1).pendFreeze = s.pendFreeze := rfl
@[simp] theorem tick1_frameFreeze (s : State) : (s.tick1).frameFreeze = s.frameFreeze := rfl
@[simp] theorem tick1_expbase (s : State) : (s.tick1).expbase = s.expbase := rfl
@[simp] theorem tick1_expn (s : State) : (s.tick1).expn = s.expn := rfl
@[simp] theorem tick1_rwtbase (s : State) : (s.tick1).rwtbase = s.rwtbase := rfl
@[simp] theorem tick1_mirbase (s : State) : (s.tick1).mirbase = s.mirbase := rfl
@[simp] theorem tick1_pincnt (s : State) : (s.tick1).pincnt = s.pincnt := rfl
@[simp] theorem tick1_boot (s : State) : (s.tick1).boot = s.boot := rfl
@[simp] theorem tick1_mbox (s : State) : (s.tick1).mbox = s.mbox := rfl
@[simp] theorem tick1_host (s : State) : (s.tick1).host = s.host := rfl
@[simp] theorem tick1_agenda (s : State) : (s.tick1).agenda = s.agenda := rfl
@[simp] theorem tick1_sensed (s : State) : (s.tick1).sensed = s.sensed := rfl
@[simp] theorem tick1_cur (s : State) : (s.tick1).cur = s.cur := rfl
@[simp] theorem tick1_look_core (s : State) (n0 : Nat) : (s.tick1).core n0 = s.core n0 := rfl
@[simp] theorem tick1_look_ctx (s : State) (n0 : Nat) : (s.tick1).ctx n0 = s.ctx n0 := rfl
@[simp] theorem tick1_look_launch (s : State) (n0 : Nat) : (s.tick1).launch n0 = s.launch n0 := rfl
@[simp] theorem tick1_look_die (s : State) (n0 : Nat) : (s.tick1).die n0 = s.die n0 := rfl
@[simp] theorem tick1_look_port (s : State) (n0 : Nat) : (s.tick1).port n0 = s.port n0 := rfl
@[simp] theorem tick1_look_slot (s : State) (n0 : Nat) : (s.tick1).slot n0 = s.slot n0 := rfl

@[simp] theorem at_now (s : State) (n : Nat) (i : Instr) : (s.at_ n i).now = s.now := rfl
@[simp] theorem at_mem (s : State) (n : Nat) (i : Instr) : (s.at_ n i).mem = s.mem := rfl
@[simp] theorem at_cores (s : State) (n : Nat) (i : Instr) : (s.at_ n i).cores = s.cores := rfl
@[simp] theorem at_ctxs (s : State) (n : Nat) (i : Instr) : (s.at_ n i).ctxs = s.ctxs := rfl
@[simp] theorem at_launches (s : State) (n : Nat) (i : Instr) : (s.at_ n i).launches = s.launches := rfl
@[simp] theorem at_nLaunch (s : State) (n : Nat) (i : Instr) : (s.at_ n i).nLaunch = s.nLaunch := rfl
@[simp] theorem at_dies (s : State) (n : Nat) (i : Instr) : (s.at_ n i).dies = s.dies := rfl
@[simp] theorem at_qsb (s : State) (n : Nat) (i : Instr) : (s.at_ n i).qsb = s.qsb := rfl
@[simp] theorem at_carafe (s : State) (n : Nat) (i : Instr) : (s.at_ n i).carafe = s.carafe := rfl
@[simp] theorem at_carafeOut (s : State) (n : Nat) (i : Instr) : (s.at_ n i).carafeOut = s.carafeOut := rfl
@[simp] theorem at_interlocked (s : State) (n : Nat) (i : Instr) : (s.at_ n i).interlocked = s.interlocked := rfl
@[simp] theorem at_earlyCnt (s : State) (n : Nat) (i : Instr) : (s.at_ n i).earlyCnt = s.earlyCnt := rfl
@[simp] theorem at_badCnt (s : State) (n : Nat) (i : Instr) : (s.at_ n i).badCnt = s.badCnt := rfl
@[simp] theorem at_bridge (s : State) (n : Nat) (i : Instr) : (s.at_ n i).bridge = s.bridge := rfl
@[simp] theorem at_nBridge (s : State) (n : Nat) (i : Instr) : (s.at_ n i).nBridge = s.nBridge := rfl
@[simp] theorem at_outs (s : State) (n : Nat) (i : Instr) : (s.at_ n i).outs = s.outs := rfl
@[simp] theorem at_nOut (s : State) (n : Nat) (i : Instr) : (s.at_ n i).nOut = s.nOut := rfl
@[simp] theorem at_stalled (s : State) (n : Nat) (i : Instr) : (s.at_ n i).stalled = s.stalled := rfl
@[simp] theorem at_answered (s : State) (n : Nat) (i : Instr) : (s.at_ n i).answered = s.answered := rfl
@[simp] theorem at_netOut (s : State) (n : Nat) (i : Instr) : (s.at_ n i).netOut = s.netOut := rfl
@[simp] theorem at_winIdle (s : State) (n : Nat) (i : Instr) : (s.at_ n i).winIdle = s.winIdle := rfl
@[simp] theorem at_evLate (s : State) (n : Nat) (i : Instr) : (s.at_ n i).evLate = s.evLate := rfl
@[simp] theorem at_loupe (s : State) (n : Nat) (i : Instr) : (s.at_ n i).loupe = s.loupe := rfl
@[simp] theorem at_lpOut (s : State) (n : Nat) (i : Instr) : (s.at_ n i).lpOut = s.lpOut := rfl
@[simp] theorem at_barista (s : State) (n : Nat) (i : Instr) : (s.at_ n i).barista = s.barista := rfl
@[simp] theorem at_bqOrder (s : State) (n : Nat) (i : Instr) : (s.at_ n i).bqOrder = s.bqOrder := rfl
@[simp] theorem at_prism (s : State) (n : Nat) (i : Instr) : (s.at_ n i).prism = s.prism := rfl
@[simp] theorem at_nPrism (s : State) (n : Nat) (i : Instr) : (s.at_ n i).nPrism = s.nPrism := rfl
@[simp] theorem at_deltas (s : State) (n : Nat) (i : Instr) : (s.at_ n i).deltas = s.deltas := rfl
@[simp] theorem at_nDelta (s : State) (n : Nat) (i : Instr) : (s.at_ n i).nDelta = s.nDelta := rfl
@[simp] theorem at_parCnt (s : State) (n : Nat) (i : Instr) : (s.at_ n i).parCnt = s.parCnt := rfl
@[simp] theorem at_ports (s : State) (n : Nat) (i : Instr) : (s.at_ n i).ports = s.ports := rfl
@[simp] theorem at_switches (s : State) (n : Nat) (i : Instr) : (s.at_ n i).switches = s.switches := rfl
@[simp] theorem at_pairs (s : State) (n : Nat) (i : Instr) : (s.at_ n i).pairs = s.pairs := rfl
@[simp] theorem at_pkgnum (s : State) (n : Nat) (i : Instr) : (s.at_ n i).pkgnum = s.pkgnum := rfl
@[simp] theorem at_pkgSet (s : State) (n : Nat) (i : Instr) : (s.at_ n i).pkgSet = s.pkgSet := rfl
@[simp] theorem at_framecnt (s : State) (n : Nat) (i : Instr) : (s.at_ n i).framecnt = s.framecnt := rfl
@[simp] theorem at_framePos (s : State) (n : Nat) (i : Instr) : (s.at_ n i).framePos = s.framePos := rfl
@[simp] theorem at_frameRun (s : State) (n : Nat) (i : Instr) : (s.at_ n i).frameRun = s.frameRun := rfl
@[simp] theorem at_flat (s : State) (n : Nat) (i : Instr) : (s.at_ n i).flat = s.flat := rfl
@[simp] theorem at_slotbase (s : State) (n : Nat) (i : Instr) : (s.at_ n i).slotbase = s.slotbase := rfl
@[simp] theorem at_peertab (s : State) (n : Nat) (i : Instr) : (s.at_ n i).peertab = s.peertab := rfl
@[simp] theorem at_pdefcnt (s : State) (n : Nat) (i : Instr) : (s.at_ n i).pdefcnt = s.pdefcnt := rfl
@[simp] theorem at_pendFreeze (s : State) (n : Nat) (i : Instr) : (s.at_ n i).pendFreeze = s.pendFreeze := rfl
@[simp] theorem at_frameFreeze (s : State) (n : Nat) (i : Instr) : (s.at_ n i).frameFreeze = s.frameFreeze := rfl
@[simp] theorem at_expbase (s : State) (n : Nat) (i : Instr) : (s.at_ n i).expbase = s.expbase := rfl
@[simp] theorem at_expn (s : State) (n : Nat) (i : Instr) : (s.at_ n i).expn = s.expn := rfl
@[simp] theorem at_rwtbase (s : State) (n : Nat) (i : Instr) : (s.at_ n i).rwtbase = s.rwtbase := rfl
@[simp] theorem at_mirbase (s : State) (n : Nat) (i : Instr) : (s.at_ n i).mirbase = s.mirbase := rfl
@[simp] theorem at_pincnt (s : State) (n : Nat) (i : Instr) : (s.at_ n i).pincnt = s.pincnt := rfl
@[simp] theorem at_boot (s : State) (n : Nat) (i : Instr) : (s.at_ n i).boot = s.boot := rfl
@[simp] theorem at_mbox (s : State) (n : Nat) (i : Instr) : (s.at_ n i).mbox = s.mbox := rfl
@[simp] theorem at_host (s : State) (n : Nat) (i : Instr) : (s.at_ n i).host = s.host := rfl
@[simp] theorem at_sensed (s : State) (n : Nat) (i : Instr) : (s.at_ n i).sensed = s.sensed := rfl
@[simp] theorem at_cur (s : State) (n : Nat) (i : Instr) : (s.at_ n i).cur = s.cur := rfl
@[simp] theorem at_fresh (s : State) (n : Nat) (i : Instr) : (s.at_ n i).fresh = s.fresh := rfl
@[simp] theorem at_look_core (s : State) (n : Nat) (i : Instr) (n0 : Nat) : (s.at_ n i).core n0 = s.core n0 := rfl
@[simp] theorem at_look_ctx (s : State) (n : Nat) (i : Instr) (n0 : Nat) : (s.at_ n i).ctx n0 = s.ctx n0 := rfl
@[simp] theorem at_look_launch (s : State) (n : Nat) (i : Instr) (n0 : Nat) : (s.at_ n i).launch n0 = s.launch n0 := rfl
@[simp] theorem at_look_die (s : State) (n : Nat) (i : Instr) (n0 : Nat) : (s.at_ n i).die n0 = s.die n0 := rfl
@[simp] theorem at_look_port (s : State) (n : Nat) (i : Instr) (n0 : Nat) : (s.at_ n i).port n0 = s.port n0 := rfl
@[simp] theorem at_look_slot (s : State) (n : Nat) (i : Instr) (n0 : Nat) : (s.at_ n i).slot n0 = s.slot n0 := rfl

@[simp] theorem turned_now (s : State) (c : Nat) : (s.turned c).now = s.now := rfl
@[simp] theorem turned_mem (s : State) (c : Nat) : (s.turned c).mem = s.mem := rfl
@[simp] theorem turned_ctxs (s : State) (c : Nat) : (s.turned c).ctxs = s.ctxs := rfl
@[simp] theorem turned_launches (s : State) (c : Nat) : (s.turned c).launches = s.launches := rfl
@[simp] theorem turned_nLaunch (s : State) (c : Nat) : (s.turned c).nLaunch = s.nLaunch := rfl
@[simp] theorem turned_dies (s : State) (c : Nat) : (s.turned c).dies = s.dies := rfl
@[simp] theorem turned_qsb (s : State) (c : Nat) : (s.turned c).qsb = s.qsb := rfl
@[simp] theorem turned_carafe (s : State) (c : Nat) : (s.turned c).carafe = s.carafe := rfl
@[simp] theorem turned_carafeOut (s : State) (c : Nat) : (s.turned c).carafeOut = s.carafeOut := rfl
@[simp] theorem turned_interlocked (s : State) (c : Nat) : (s.turned c).interlocked = s.interlocked := rfl
@[simp] theorem turned_earlyCnt (s : State) (c : Nat) : (s.turned c).earlyCnt = s.earlyCnt := rfl
@[simp] theorem turned_badCnt (s : State) (c : Nat) : (s.turned c).badCnt = s.badCnt := rfl
@[simp] theorem turned_bridge (s : State) (c : Nat) : (s.turned c).bridge = s.bridge := rfl
@[simp] theorem turned_nBridge (s : State) (c : Nat) : (s.turned c).nBridge = s.nBridge := rfl
@[simp] theorem turned_outs (s : State) (c : Nat) : (s.turned c).outs = s.outs := rfl
@[simp] theorem turned_nOut (s : State) (c : Nat) : (s.turned c).nOut = s.nOut := rfl
@[simp] theorem turned_stalled (s : State) (c : Nat) : (s.turned c).stalled = s.stalled := rfl
@[simp] theorem turned_answered (s : State) (c : Nat) : (s.turned c).answered = s.answered := rfl
@[simp] theorem turned_netOut (s : State) (c : Nat) : (s.turned c).netOut = s.netOut := rfl
@[simp] theorem turned_winIdle (s : State) (c : Nat) : (s.turned c).winIdle = s.winIdle := rfl
@[simp] theorem turned_evLate (s : State) (c : Nat) : (s.turned c).evLate = s.evLate := rfl
@[simp] theorem turned_loupe (s : State) (c : Nat) : (s.turned c).loupe = s.loupe := rfl
@[simp] theorem turned_lpOut (s : State) (c : Nat) : (s.turned c).lpOut = s.lpOut := rfl
@[simp] theorem turned_barista (s : State) (c : Nat) : (s.turned c).barista = s.barista := rfl
@[simp] theorem turned_bqOrder (s : State) (c : Nat) : (s.turned c).bqOrder = s.bqOrder := rfl
@[simp] theorem turned_prism (s : State) (c : Nat) : (s.turned c).prism = s.prism := rfl
@[simp] theorem turned_nPrism (s : State) (c : Nat) : (s.turned c).nPrism = s.nPrism := rfl
@[simp] theorem turned_deltas (s : State) (c : Nat) : (s.turned c).deltas = s.deltas := rfl
@[simp] theorem turned_nDelta (s : State) (c : Nat) : (s.turned c).nDelta = s.nDelta := rfl
@[simp] theorem turned_parCnt (s : State) (c : Nat) : (s.turned c).parCnt = s.parCnt := rfl
@[simp] theorem turned_ports (s : State) (c : Nat) : (s.turned c).ports = s.ports := rfl
@[simp] theorem turned_switches (s : State) (c : Nat) : (s.turned c).switches = s.switches := rfl
@[simp] theorem turned_pairs (s : State) (c : Nat) : (s.turned c).pairs = s.pairs := rfl
@[simp] theorem turned_pkgnum (s : State) (c : Nat) : (s.turned c).pkgnum = s.pkgnum := rfl
@[simp] theorem turned_pkgSet (s : State) (c : Nat) : (s.turned c).pkgSet = s.pkgSet := rfl
@[simp] theorem turned_framecnt (s : State) (c : Nat) : (s.turned c).framecnt = s.framecnt := rfl
@[simp] theorem turned_framePos (s : State) (c : Nat) : (s.turned c).framePos = s.framePos := rfl
@[simp] theorem turned_frameRun (s : State) (c : Nat) : (s.turned c).frameRun = s.frameRun := rfl
@[simp] theorem turned_flat (s : State) (c : Nat) : (s.turned c).flat = s.flat := rfl
@[simp] theorem turned_slotbase (s : State) (c : Nat) : (s.turned c).slotbase = s.slotbase := rfl
@[simp] theorem turned_peertab (s : State) (c : Nat) : (s.turned c).peertab = s.peertab := rfl
@[simp] theorem turned_pdefcnt (s : State) (c : Nat) : (s.turned c).pdefcnt = s.pdefcnt := rfl
@[simp] theorem turned_pendFreeze (s : State) (c : Nat) : (s.turned c).pendFreeze = s.pendFreeze := rfl
@[simp] theorem turned_frameFreeze (s : State) (c : Nat) : (s.turned c).frameFreeze = s.frameFreeze := rfl
@[simp] theorem turned_expbase (s : State) (c : Nat) : (s.turned c).expbase = s.expbase := rfl
@[simp] theorem turned_expn (s : State) (c : Nat) : (s.turned c).expn = s.expn := rfl
@[simp] theorem turned_rwtbase (s : State) (c : Nat) : (s.turned c).rwtbase = s.rwtbase := rfl
@[simp] theorem turned_mirbase (s : State) (c : Nat) : (s.turned c).mirbase = s.mirbase := rfl
@[simp] theorem turned_pincnt (s : State) (c : Nat) : (s.turned c).pincnt = s.pincnt := rfl
@[simp] theorem turned_boot (s : State) (c : Nat) : (s.turned c).boot = s.boot := rfl
@[simp] theorem turned_mbox (s : State) (c : Nat) : (s.turned c).mbox = s.mbox := rfl
@[simp] theorem turned_host (s : State) (c : Nat) : (s.turned c).host = s.host := rfl
@[simp] theorem turned_agenda (s : State) (c : Nat) : (s.turned c).agenda = s.agenda := rfl
@[simp] theorem turned_sensed (s : State) (c : Nat) : (s.turned c).sensed = s.sensed := rfl
@[simp] theorem turned_cur (s : State) (c : Nat) : (s.turned c).cur = s.cur := rfl
@[simp] theorem turned_fresh (s : State) (c : Nat) : (s.turned c).fresh = s.fresh := rfl
@[simp] theorem turned_look_ctx (s : State) (c : Nat) (n0 : Nat) : (s.turned c).ctx n0 = s.ctx n0 := rfl
@[simp] theorem turned_look_launch (s : State) (c : Nat) (n0 : Nat) : (s.turned c).launch n0 = s.launch n0 := rfl
@[simp] theorem turned_look_die (s : State) (c : Nat) (n0 : Nat) : (s.turned c).die n0 = s.die n0 := rfl
@[simp] theorem turned_look_port (s : State) (c : Nat) (n0 : Nat) : (s.turned c).port n0 = s.port n0 := rfl
@[simp] theorem turned_look_slot (s : State) (c : Nat) (n0 : Nat) : (s.turned c).slot n0 = s.slot n0 := rfl

end Sys2Proof.Machine
end

