-- ==== Sys2Proof/Laws/Issue.lean ====
section
/-! SUPPORT. What one issue of an instruction that stands clear does: it is the instruction's trigger between the operand moves and the
end of the bundle, for a unit before the end and for au and c after it. -/

set_option linter.unusedVariables false

namespace Sys2Proof.Machine

/-! ## The one act -/

theorem actsOf_oneSlot (s : State) (i : Instr) (h : i.holds s.me.p = true) (hr : s.me.rep = 0) : s.actsOf s.cur (oneSlot i) = [s.act1 i] := by
  have h' : i.holds (s.core s.cur).unjoined.p = true := h
  have hr' : (s.core s.cur).unjoined.rep = 0 := hr
  cases hk : i.kind <;> simp [State.actsOf, oneSlot, hk, h', hr', State.act1]

theorem reissues_none (k : Core) (c : Nat) (q : Bundle) (acts : List Act) (hl : k.stL = none) (hx : k.stX = none) (hm : k.stM = none) :
    k.reissues c q acts = [] := by
  simp [Core.reissues, Core.stickyOf, hl, hx, hm]

theorem skew_none (k : Core) (h : k.held = []) : k.skew = 0 := by simp [Core.skew, h]

theorem latchMoves_act1 (s : State) (i : Instr) : s.latchMoves [s.act1 i] = s.latchMove (s.act1 i) := rfl

theorem early_none (s : State) (i : Instr) (h : s.Clear i) : (s.latchMove (s.act1 i)).earlyStops [s.act1 i] = [] := by
  have hc : ((s.latchMove (s.act1 i)).coreCtx s.cur).schk = (s.coreCtx s.cur).schk := by
    have hx : ((s.latchMove (s.act1 i)).core s.cur).ctx = (s.core s.cur).ctx ∧ (s.latchMove (s.act1 i)).ctxs = s.ctxs := by
      unfold State.latchMove
      split
      · split
        · exact ⟨by simp [State.act1, Core.moveLatchM], rfl⟩
        · exact ⟨rfl, rfl⟩
      · split
        · refine ⟨?_, rfl⟩
          simp only [State.act1, core_modCore_same, Core.moveLatchW]
          split <;> rfl
        · exact ⟨rfl, rfl⟩
      · exact ⟨rfl, rfl⟩
    simp only [State.coreCtx, State.ctx, hx.1, hx.2]
  have ho := h.onTime
  unfold State.earlyStops
  simp only [List.filterMap_cons, List.filterMap_nil]
  have e : (s.act1 i).ic.c = s.cur := rfl
  have e3 : (s.act1 i).i = i := rfl
  rw [e, e3, hc]
  split
  · rfl
  · rename_i heq
    split at heq
    · rename_i hh
      simp only [Bool.and_eq_true] at hh
      have := ho hh.1.2
      rw [this] at hh
      simp at hh
    · simp at heq

@[simp] theorem heldRows_nil (k : Core) (acts : List Act) : k.heldRows acts [] = k := rfl

theorem mustWait_none (s : State) (c : Nat) (q : Bundle) (acts res : List Act) (h : (s.core c).held = []) : s.mustWait c q acts res = false := by
  unfold State.mustWait
  simp only [h, List.isEmpty_nil, Bool.not_true, Bool.false_and]

theorem issueTagged_one (s : State) (c : Nat) (q : Bundle) (a : Act) (hh : (s.core c).held = []) (hb : barOf a.i = none)
    (hw : (s.latchMoves [a]).actWait a = .go) (he : (s.latchMoves [a]).earlyStops [a] = []) :
    s.issueTagged c q [a] [] = s.issueNow c q [a] [] [] [] := by
  have h1 : (s.core c).skew = 0 := skew_none _ hh
  have h3 : s.barTagged c [a] = (true, s) := by unfold State.barTagged; simp only [List.findSome?_cons, hb, List.findSome?_nil]
  have h4 : ([a].filter (fun a => !((s.latchMoves [a]).actWait a).isGo)) = [] := by simp [hw, Wait.isGo]
  unfold State.issueTagged
  simp only [List.append_nil]
  rw [if_neg (by rw [h1]; decide)]
  have h5 : ([a].filter (fun x => !((s.latchMoves [a]).actWait x).isGo)) = [] := by
    rw [List.filter_cons_of_neg (by rw [hw]; simp [Wait.isGo])]; rfl
  rw [h5]
  split
  · simp only [List.isEmpty_nil, Bool.not_true, Bool.false_eq_true, if_false, h3, if_true, he]
  · have h6 : s.toHold c [a] [] = [] := by
      unfold State.toHold
      simp only [List.append_nil, h5]
      rw [show [a].length = 1 from rfl, holdSet]
      simp [dragged]
    rw [h6]
    simp only [List.map_nil, List.all_nil, List.filter_true, he, List.filter_nil]

theorem issueTimed_one (s : State) (c : Nat) (q : Bundle) (a : Act) (hb : barOf a.i = none) (hq : isMmaq a.i = false)
    (hw : (s.latchMoves [a]).actWait a = .go) (he : (s.latchMoves [a]).earlyStops [a] = []) :
    s.issueTimed c q [a] [] = s.issueNow c q [a] [] [] [] := by
  have h1 : (s.latchMoves [a]).waitsOf [a] = .go := by
    unfold State.waitsOf
    rw [List.foldl_cons, List.foldl_nil, hw]; rfl
  have h2 : (s.latchMoves [a]).missStops [a] = [] := by
    unfold State.missStops
    rw [List.filterMap_cons_none (by rw [hw])]; rfl
  have h3 : s.joinMmaq c q [a] = s := by
    unfold State.joinMmaq
    have h : [a].any (fun a => isMmaq a.i) = false := by simp [hq]
    rw [h]
    simp only [Bool.false_and, Bool.false_eq_true, if_false]
  have h4 : [a].findSome? (fun a => (barOf a.i).map (fun b => (a, b))) = none := by
    simp only [List.findSome?_cons, hb, Option.map_none, List.findSome?_nil]
  unfold State.issueTimed
  simp only [List.append_nil, h1, h4, h3, he, h2]

/-- An instruction that stands clear issues at once; what it comes to is the issue of its one act. -/
theorem execSlot_clear (s : State) (i : Instr) (h : s.Clear i) (hb : barOf i = none) (hq : isMmaq i = false) :
    s.execSlot i = .next (s.settle s.cur (s.issueNow s.cur (oneSlot i) [s.act1 i] [] [] [])) := by
  have ht : s.trySlot s.cur i = s.issueNow s.cur (oneSlot i) [s.act1 i] [] [] [] := by
    unfold State.trySlot
    rw [if_pos h.formed]
    unfold State.issue
    have hr : (s.core s.cur).reissues s.cur (oneSlot i) [s.act1 i] = [] := reissues_none _ _ _ _ h.noL h.noX h.noM
    have hrole := h.role
    unfold State.roleStop at hrole
    have hl : linkStop s.cur (oneSlot i).slots = none := by
      cases hx : linkStop s.cur (oneSlot i).slots
      · rfl
      · rw [hx] at hrole; simp at hrole
    have hp : s.privStop s.cur (oneSlot i).slots = none := by rw [hl] at hrole; simpa using hrole
    simp only [hl, hp, actsOf_oneSlot s i h.guard h.first, h.link, hr, mustWait_none s s.cur _ _ _ h.noHeld, Bool.and_false, Bool.false_eq_true, if_false]
    split
    · exact issueTagged_one s s.cur _ (s.act1 i) h.noHeld hb h.waits (early_none s i h)
    · exact issueTimed_one s s.cur _ (s.act1 i) hb hq h.waits (early_none s i h)
  unfold State.execSlot
  rw [h.runs, ht]

/-! ## The states of one issue -/

/-- The state at which the trigger acts: operand moves are made and the sticky state is set (R101, R103 step 2). -/
def State.ready1 (s : State) (i : Instr) : State := (s.latchMove (s.act1 i)).modCore s.cur (fun k => k.setStickyOf (s.act1 i) true)

/-- The end of the bundle on a core. -/
def Core.close1 (k : Core) (i : Instr) (w : Nat) : Core :=
  { k.endIssue (oneSlot i) with bundles := k.bundles + 1, held := k.held, weight := k.weight + w }

/-- After the trigger: pops, register moves, row pointers, the end of the bundle (R98, R103 step 3, R113, R137). -/
def State.closed1 (s s1 : State) (i : Instr) : State :=
  (((s1.pops s.cur [s.act1 i]).regMove (s.act1 i)).modCore s.cur (fun k => k.rowSteps [s.act1 i])).modCore s.cur (fun k =>
    k.close1 i (issueWeight (oneSlot i) [s.act1 i] []))

/-- What an issue leaves: a bundle of a TAGGED task takes a free value's turn, and the core's turn in the cycle is over. -/
def State.fin1 (s t : State) : State := (if s.me.tagged then t.tick1 else t).turned s.cur

theorem settle_issue (s : State) (t : State) : s.settle s.cur (.issue t) = t.turned s.cur := rfl

theorem firing_one (s : State) (i : Instr) : firing [s.act1 i] [] = [s.act1 i] := by
  simp [firing, State.act1]

/-- Only `c.idle` touches what its bundle holds. -/
theorem idleHeld_other (s t : State) (i : Instr) (n : Nat) (h : isIdle i = false) : t.idleHeld s.cur n [s.act1 i] = t := by
  have : (s.act1 i).i = i := rfl
  unfold State.idleHeld
  simp [this, h]

theorem isIdle_control (s : State) (i : Instr) (hu : isAuOrC (s.act1 i) = false) : isIdle i = false := by
  unfold isIdle
  split
  · rename_i a b
    have : isAuOrC (s.act1 (.idle a b)) = true := rfl
    rw [this] at hu
    cases hu
  · rfl

/-- The trigger of a unit other than au and c. -/
theorem exec_unit (s : State) (i : Instr) (h : s.Clear i) (hb : barOf i = none) (hq : isMmaq i = false)
    (hu : isAuOrC (s.act1 i) = false) (s1 : State) (hf : fireSlot i (s.act1 i).ic (s.ready1 i) = .ok s1) :
    s.execSlot i = .next (s.fin1 (s.closed1 s1 i)) := by
  rw [execSlot_clear s i h hb hq]
  have hfi : firing [s.act1 i] [] = [s.act1 i] := firing_one s i
  have hau : [s.act1 i].filter (isUnit .au) = [] := by
    apply List.filter_cons_of_neg
    unfold isAuOrC at hu
    unfold isUnit
    split at hu <;> simp_all
  have hc : [s.act1 i].filter (isUnit .c) = [] := by
    apply List.filter_cons_of_neg
    unfold isAuOrC at hu
    unfold isUnit
    split at hu <;> simp_all
  have hn : [s.act1 i].filter (fun a => !isAuOrC a) = [s.act1 i] := by simp [hu]
  have hz : s.issueActs s.cur [s.act1 i] [] (fun _ => true) =
      (((s1.pops s.cur [s.act1 i]).regMove (s.act1 i)).modCore s.cur (fun k => k.rowSteps [s.act1 i]), []) := by
    have hr : runActs (s.ready1 i) [s.act1 i] = (s1, []) := by
      have hf' : fireSlot (s.act1 i).i (s.act1 i).ic (s.ready1 i) = .ok s1 := hf
      simp only [runActs, hf']
    unfold State.issueActs
    simp only [hfi, hn]
    have : (s.latchMoves [s.act1 i]).modCore s.cur (fun k => [s.act1 i].foldl (fun q a => q.setStickyOf a true) k) = s.ready1 i := rfl
    rw [this, hr]
    rfl
  have hin : s.issueNow s.cur (oneSlot i) [s.act1 i] [] [] [] =
      .issue (if s.me.tagged then (s.closed1 s1 i).tick1 else s.closed1 s1 i) := by
    unfold State.issueNow
    simp only [hz, hau, hc, runActs, List.append_nil, leastStop, idleHeld_other s _ i _ (isIdle_control s i hu)]
    rfl
  rw [hin, settle_issue s]
  unfold State.fin1
  rfl

/-- A trigger of au or c acts when everything else of the issue has. -/
theorem exec_control (s : State) (i : Instr) (h : s.Clear i) (hb : barOf i = none) (hq : isMmaq i = false)
    (hi : isIdle i = false) (hu : isAuOrC (s.act1 i) = true) (t : State) (hf : fireSlot i (s.act1 i).ic (s.closed1 (s.ready1 i) i) = .ok t) :
    s.execSlot i = .next (s.fin1 t) := by
  rw [execSlot_clear s i h hb hq]
  have hfi : firing [s.act1 i] [] = [s.act1 i] := firing_one s i
  have hn : [s.act1 i].filter (fun a => !isAuOrC a) = [] := by simp [hu]
  have hz : s.issueActs s.cur [s.act1 i] [] (fun _ => true) =
      ((((s.ready1 i).pops s.cur [s.act1 i]).regMove (s.act1 i)).modCore s.cur (fun k => k.rowSteps [s.act1 i]), []) := by
    unfold State.issueActs
    simp only [hfi, hn, runActs]
    rfl
  have hf' : fireSlot (s.act1 i).i (s.act1 i).ic (s.closed1 (s.ready1 i) i) = .ok t := hf
  have hcl : (((((s.ready1 i).pops s.cur [s.act1 i]).regMove (s.act1 i)).modCore s.cur (fun k => k.rowSteps [s.act1 i])).modCore s.cur (fun k =>
      { k.endIssue (oneSlot i) with
        bundles := k.bundles + 1
        held := k.held ++ []
        weight := k.weight + issueWeight (oneSlot i) [s.act1 i] [] })) = s.closed1 (s.ready1 i) i := by
    simp only [List.append_nil]
    rfl
  have hin : s.issueNow s.cur (oneSlot i) [s.act1 i] [] [] [] = .issue (if s.me.tagged then t.tick1 else t) := by
    unfold State.issueNow
    simp only [hz, heldRows_nil, hcl]
    unfold isAuOrC at hu
    split at hu
    · rename_i hx
      have h1 : [s.act1 i].filter (isUnit .au) = [s.act1 i] := by simp [isUnit, hx]
      have h2 : [s.act1 i].filter (isUnit .c) = [] := by simp [isUnit, hx]
      simp only [h1, h2, runActs, hf', List.append_nil, leastStop, idleHeld_other s _ i _ hi]
    · rename_i hx
      have h1 : [s.act1 i].filter (isUnit .au) = [] := by simp [isUnit, hx]
      have h2 : [s.act1 i].filter (isUnit .c) = [s.act1 i] := by simp [isUnit, hx]
      simp only [h1, h2, runActs, hf', List.append_nil, leastStop, idleHeld_other s _ i _ hi]
    · simp at hu
  rw [hin, settle_issue s]
  unfold State.fin1
  rfl

/-! ## What the end of the bundle keeps -/

theorem tgetD_set (l : List TileReg) (n m : Nat) (x : TileReg) :
    (l.set n x).getD m {} = if n = m ∧ n < l.length then x else l.getD m {} := by
  simp only [List.getD_eq_getElem?_getD, List.getElem?_set]
  split
  · subst_vars
    split <;> simp_all
  · simp_all

theorem rowSteps_eq (k : Core) (acts : List Act) : k.rowSteps acts = { k with t := (k.rowSteps acts).t } := by
  unfold Core.rowSteps
  generalize actTiles acts = l
  induction l generalizing k with
  | nil => rfl
  | cons n r ih =>
    simp only [List.foldl_cons]
    rw [ih]
    rfl

theorem rowSteps_rows (k : Core) (acts : List Act) (n : Nat) :
    ((k.rowSteps acts).t.getD n {}).rows = (k.t.getD n {}).rows ∧ ((k.rowSteps acts).t.getD n {}).ready = (k.t.getD n {}).ready ∧
      ((k.rowSteps acts).t.getD n {}).thr = (k.t.getD n {}).thr ∧ ((k.rowSteps acts).t.getD n {}).engw = (k.t.getD n {}).engw := by
  unfold Core.rowSteps
  generalize actTiles acts = l
  induction l generalizing k with
  | nil => exact ⟨rfl, rfl, rfl, rfl⟩
  | cons m r ih =>
    simp only [List.foldl_cons]
    obtain ⟨h1, h2, h3, h4⟩ := ih (k.rowStep m)
    rw [h1, h2, h3, h4]
    simp only [Core.rowStep, tgetD_set]
    split
    · rename_i hh; obtain ⟨rfl, _⟩ := hh; exact ⟨rfl, rfl, rfl, rfl⟩
    · exact ⟨rfl, rfl, rfl, rfl⟩

/-- A tile register named once among those that move on does so by one row. -/
theorem rowStep_ptrs (l : List Nat) (hl : l.Nodup) (k : Core) (n : Nat) (hn : n < k.t.length) :
    ((l.foldl Core.rowStep k).t.getD n {}).ptr = (k.t.getD n {}).ptr + (if n ∈ l then 1 else 0) := by
  induction l generalizing k with
  | nil => simp
  | cons m r ih =>
    rw [List.nodup_cons] at hl
    rw [List.foldl_cons, ih hl.2 (k.rowStep m) (by simpa [Core.rowStep] using hn)]
    simp only [Core.rowStep, tgetD_set, List.mem_cons]
    by_cases hm : n = m
    · subst hm
      simp [hn, hl.1]
    · simp [hm, Ne.symm hm]

/-- A slot names at most two tile registers by row: its source and its destination. -/
theorem rowTiles_two (i : Instr) : i.rowTiles.eraseDups.Nodup := by
  unfold Instr.rowTiles
  split
  · dsimp only
    split <;> split <;> simp [List.eraseDups_cons]
    rw [List.filter_cons]
    split <;> simp [List.eraseDups_cons]
  · simp

theorem rowSteps_ptrs (s : State) (i : Instr) (k : Core) (n : Nat) (hn : n < k.t.length) :
    ((k.rowSteps [s.act1 i]).t.getD n {}).ptr = (k.t.getD n {}).ptr + (if n ∈ i.rowTiles then 1 else 0) := by
  have e : actTiles [s.act1 i] = i.rowTiles.eraseDups := by simp [actTiles, State.act1]
  unfold Core.rowSteps
  rw [e, rowStep_ptrs _ (rowTiles_two i) k n hn]
  simp only [List.mem_eraseDups]

theorem bodyEnds_eq (k : Core) (pc n : Nat) : (k.bodyEnds pc n).1 = { k with b := (k.bodyEnds pc n).1.b, loops := (k.bodyEnds pc n).1.loops } := by
  induction n generalizing k with
  | zero => rfl
  | succ n ih =>
    unfold Core.bodyEnds
    dsimp only
    split
    · split
      · rfl
      · have := ih { k.applyStrides n with loops := (k.applyStrides n).loops.set n { k.loops.getD n {} with remaining := 0, active := false } }
        rw [this]
        rfl
    · exact ih k

theorem bodyEnds_none (k : Core) (pc n : Nat) (h : k.atBodyEnd pc = false) : k.bodyEnds pc n = (k, none) := by
  induction n with
  | zero => rfl
  | succ n ih =>
    unfold Core.bodyEnds
    dsimp only
    have hn : ¬((k.loops.getD n {}).active = true ∧ (k.loops.getD n {}).fin = pc) := by
      unfold Core.atBodyEnd at h
      rw [List.any_eq_false] at h
      intro hc
      rw [List.getD_eq_getElem?_getD] at hc
      cases he : k.loops[n]? with
      | none => rw [he] at hc; simp at hc
      | some l =>
        rw [he] at hc
        have := h l (List.mem_of_getElem? he)
        simp_all
    rw [if_neg hn]
    exact ih

theorem close1_kept (s : State) (k : Core) (i : Instr) (w : Nat) (hr : k.rep = 0) :
    k.Bookkept (((k.rowSteps [s.act1 i]).close1 i w)) i.rowTiles := by
  generalize ha : s.act1 i = a
  have ep := fun n h => rowSteps_ptrs s i k n h
  rw [ha] at ep
  have hq : (oneSlot i).rep = 0 ∧ (oneSlot i).stop = false ∧ (oneSlot i).len = 8 := ⟨rfl, rfl, rfl⟩
  obtain ⟨hq1, hq2, hq3⟩ := hq
  have e0 := rowSteps_eq k [a]
  have er := rowSteps_rows k [a]
  generalize hx : k.rowSteps [a] = x at *
  have hxr : x.rep = 0 := by rw [e0]; exact hr
  have e1 : x.endIssue (oneSlot i) = { (x.bodyEnds x.pc 8).1 with rep := 0, stall := none, restarted := false, hold := none, drainTo := none, pc := match x.xfer with | some t => t | none => (x.bodyEnds x.pc 8).2.getD ((x.pc + 8) % 2 ^ 56), xfer := none } := by
    unfold Core.endIssue
    rw [if_neg (by rw [hxr, hq1]; decide)]
    simp only [hq2, hq3, Bool.false_eq_true, if_false]
    try rfl
  have e2 := bodyEnds_eq x x.pc 8
  refine ⟨?_, ?_, ?_, ?_, ?_, ?_⟩
  · unfold Core.close1
    rw [e1, e2, e0]
  · intro n
    unfold Core.close1
    rw [e1, e2]
    exact er n
  · intro n hn
    unfold Core.close1
    rw [e1, e2]
    exact ep n hn
  · unfold Core.close1
    rw [e0]
  · unfold Core.close1
    rw [e1]
    exact ⟨rfl, rfl, rfl, rfl, rfl, rfl⟩
  · intro hb
    have hb' : x.atBodyEnd x.pc = false := by rw [e0]; exact hb
    have e3 := bodyEnds_none x x.pc 8 hb'
    unfold Core.close1
    rw [e1, e3]
    refine ⟨?_, ?_, ?_⟩
    · have : x.xfer = k.xfer := by rw [e0]
      have hp : x.pc = k.pc := by rw [e0]
      simp only [this, hp, Option.getD_none]
      cases k.xfer <;> rfl
    · rw [e0]
    · rw [e0]

theorem pops_core (s : State) (c : Nat) (acts : List Act) :
    s.pops c acts = { s with ports := (s.pops c acts).ports } := by
  unfold State.pops
  generalize (acts.filterMap (fun a => if a.ic.re then none else popOf a.i)).eraseDups = l
  induction l generalizing s with
  | nil => rfl
  | cons n r ih =>
    simp only [List.foldl_cons]
    rw [ih]
    unfold State.popLink
    split <;> rfl

theorem pops_none (s : State) (i : Instr) (s1 : State) (h : popOf i = none) : s1.pops s.cur [s.act1 i] = s1 := by
  unfold State.pops
  have : popOf (s.act1 i).i = none := h
  simp [this]

theorem regMove_trigger (s : State) (i : Instr) (s1 : State) (hp : i.isPlain = false) : s1.regMove (s.act1 i) = s1 := by
  have : (s.act1 i).i = i := rfl
  unfold State.regMove
  rw [this]
  split
  · rfl
  · split <;> first | rfl | simp [Instr.isPlain] at hp

theorem latchMove_trigger (s : State) (i : Instr) (hp : i.isPlain = false) : s.latchMove (s.act1 i) = s := by
  have : (s.act1 i).i = i := rfl
  unfold State.latchMove
  rw [this]
  split <;> first | rfl | simp [Instr.isPlain] at hp

/-- The state at which a trigger acts: only the sticky state of the issuing core differs. -/
theorem ready1_trigger (s : State) (i : Instr) (hp : i.isPlain = false) :
    s.ready1 i = s.setCore s.cur (s.me.setStickyOf (s.act1 i) true) := by
  unfold State.ready1
  rw [latchMove_trigger s i hp]
  rfl

theorem setStickyOf_eq (k : Core) (a : Act) (keep : Bool) :
    k.setStickyOf a keep = { k with stL := (k.setStickyOf a keep).stL, stX := (k.setStickyOf a keep).stX,
                                    stM := (k.setStickyOf a keep).stM, mTrig := (k.setStickyOf a keep).mTrig } := by
  unfold Core.setStickyOf Core.setSticky
  dsimp only
  split
  · rfl
  · split <;> (try split) <;> rfl

theorem closed1_core (s s1 : State) (i : Instr) (hp : i.isPlain = false) :
    (s.closed1 s1 i).core s.cur = ((s1.core s.cur).rowSteps [s.act1 i]).close1 i (issueWeight (oneSlot i) [s.act1 i] []) := by
  unfold State.closed1
  rw [regMove_trigger s i _ hp, pops_core s1]
  simp only [core_modCore_same]
  rfl

theorem closed1_kept (s s1 : State) (i : Instr) (hp : i.isPlain = false) (hr : (s1.core s.cur).rep = 0) :
    (s1.core s.cur).Bookkept ((s.closed1 s1 i).core s.cur) i.rowTiles := by
  rw [closed1_core s s1 i hp]
  exact close1_kept s _ _ _ hr

theorem fin1_core (s t : State) : (s.fin1 t).core s.cur = { t.core s.cur with turn := true } := by
  unfold State.fin1
  split <;> exact core_modCore_same _ _ _

theorem fin1_kept (s t : State) (k : Core) (l : List Nat) (h : k.Bookkept (t.core s.cur) l) : k.Bookkept ((s.fin1 t).core s.cur) l := by
  rw [fin1_core]
  obtain ⟨h1, h2, h3, h4, h5, h6⟩ := h
  refine ⟨?_, h2, h3, h4, h5, h6⟩
  rw [h1]

/-- From a state of the trigger that differs in the issuing core only. -/
theorem fin1_only (s t : State) (i : Instr) (h : s.OnlyCore t i) : s.OnlyCore (s.fin1 t) i := by
  obtain ⟨h1, h2, h3⟩ := h
  have hc : ∀ d, d ≠ s.cur → (s.fin1 t).core d = t.core d := by
    intro d hd
    unfold State.fin1
    split
    · exact core_modCore_ne _ _ _ _ hd
    · exact core_modCore_ne _ _ _ _ hd
  have hp : (s.fin1 t).ports = t.ports := by unfold State.fin1; split <;> rfl
  refine ⟨?_, fun d hd => (hc d hd).trans (h2 d hd), fun q => hp.trans (h3 q)⟩
  have : s.fin1 t = { t with cores := (s.fin1 t).cores, fresh := (s.fin1 t).fresh } := by unfold State.fin1; split <;> rfl
  rw [this, h1]

theorem closed1_only (s s1 : State) (i : Instr) (hp : i.isPlain = false) (h : s.OnlyCore s1 i) : s.OnlyCore (s.closed1 s1 i) i := by
  obtain ⟨h1, h2, h3⟩ := h
  unfold State.closed1
  rw [regMove_trigger s i _ hp]
  have e := pops_core s1 s.cur [s.act1 i]
  have en : popOf i = none → (s1.pops s.cur [s.act1 i]).ports = s1.ports := fun q => by rw [pops_none s i s1 q]
  generalize s1.pops s.cur [s.act1 i] = x at *
  refine ⟨?_, ?_, ?_⟩
  · rw [e, h1]; rfl
  · intro d hd
    rw [core_modCore_ne _ _ _ _ hd, core_modCore_ne _ _ _ _ hd, e]
    exact h2 d hd
  · intro q
    exact (en q).trans (h3 q)

/-- A trigger that changes the issuing core alone, to `k`. -/
theorem onlyCore_setCore (s : State) (k : Core) (i : Instr) : s.OnlyCore (s.setCore s.cur k) i :=
  ⟨rfl, fun _ hd => core_setCore_ne _ _ _ _ hd, fun _ => rfl⟩

theorem bookkept_of_sticky (k k' : Core) (l : List Nat) (a : Act) (b : Bool) (h : (k.setStickyOf a b).Bookkept k' l) : k.Bookkept k' l := by
  have e := setStickyOf_eq k a b
  generalize k.setStickyOf a b = x at *
  obtain ⟨h1, h2, h3, h4, h5, h6⟩ := h
  rw [e] at h1 h2 h3 h4 h6
  exact ⟨h1, h2, h3, h4, h5, h6⟩

/-- A trigger of a unit other than au and c that changes the issuing core alone. -/
theorem exec_trigger (s : State) (i : Instr) (h : s.Clear i) (hp : i.isPlain = false) (hb : barOf i = none) (hq : isMmaq i = false)
    (hu : isAuOrC (s.act1 i) = false) (s1 : State)
    (hf : fireSlot i (s.act1 i).ic (s.setCore s.cur (s.me.setStickyOf (s.act1 i) true)) = .ok s1) (ho : s.OnlyCore s1 i)
    (hr : (s1.core s.cur).rep = 0) :
    ∃ t, s.execSlot i = .next t ∧ (s1.core s.cur).Bookkept (t.core s.cur) i.rowTiles ∧ s.OnlyCore t i := by
  refine ⟨_, exec_unit s i h hb hq hu s1 (by rw [ready1_trigger s i hp]; exact hf), ?_, ?_⟩
  · exact fin1_kept _ _ _ _ (closed1_kept s s1 i hp hr)
  · exact fin1_only _ _ _ (closed1_only s s1 i hp ho)

/-- A trigger of au or c that changes the issuing core alone: it acts on the core as the bundle's end leaves it. -/
theorem exec_control_trigger (s : State) (i : Instr) (h : s.Clear i) (hp : i.isPlain = false) (hb : barOf i = none)
    (hq : isMmaq i = false) (hi : isIdle i = false) (hu : isAuOrC (s.act1 i) = true) :
    ∃ s1 : State, s.me.Bookkept (s1.core s.cur) i.rowTiles ∧ s.OnlyCore s1 i ∧
      ∀ t, fireSlot i (s.act1 i).ic s1 = .ok t → s.execSlot i = .next (s.fin1 t) := by
  refine ⟨s.closed1 (s.ready1 i) i, ?_, ?_, fun t hf => exec_control s i h hb hq hi hu t hf⟩
  · have hr : ((s.ready1 i).core s.cur).rep = 0 := by
      rw [ready1_trigger s i hp, core_setCore_same, setStickyOf_eq]
      exact h.first
    have := closed1_kept s (s.ready1 i) i hp hr
    rw [ready1_trigger s i hp, core_setCore_same] at this
    rw [ready1_trigger s i hp]
    exact bookkept_of_sticky _ _ _ _ _ this
  · rw [ready1_trigger s i hp]
    exact closed1_only s _ i hp (onlyCore_setCore s _ i)

/-- A trigger of a unit other than au and c that gives the issuing core the registers `k`. -/
theorem exec_gives (s : State) (i : Instr) (h : s.Clear i) (hp : i.isPlain = false) (hb : barOf i = none) (hq : isMmaq i = false)
    (hu : isAuOrC (s.act1 i) = false) (k : Core)
    (hf : fireSlot i (s.act1 i).ic (s.setCore s.cur (s.me.setStickyOf (s.act1 i) true)) = .ok (s.setCore s.cur k)) (hr : k.rep = 0) :
    ∃ t, s.execSlot i = .next t ∧ s.OnlyCore t i ∧ k.Bookkept (t.core s.cur) i.rowTiles := by
  obtain ⟨t, h1, h2, h3⟩ := exec_trigger s i h hp hb hq hu _ hf (onlyCore_setCore _ _ _) (by rw [core_setCore_same]; exact hr)
  rw [core_setCore_same] at h2
  exact ⟨t, h1, h3, h2⟩

theorem setSticky_scalar (k : Core) (a : Act) (b : Bool) (h : unitOf a.i ≠ .l ∧ unitOf a.i ≠ .x ∧ unitOf a.i ≠ .m) : k.setStickyOf a b = k := by
  unfold Core.setStickyOf
  dsimp only
  split
  · rfl
  · split <;> simp_all

/-- A trigger that stops takes no effect: its stop is what the attempt comes to (R103, R339). -/
theorem exec_unit_stop (s : State) (i : Instr) (h : s.Clear i) (hb : barOf i = none) (hq : isMmaq i = false)
    (hu : isAuOrC (s.act1 i) = false) (st : Stop) (hf : fireSlot i (s.act1 i).ic (s.ready1 i) = .error st) :
    s.execSlot i = .next ((s.stopAt s.cur st).turned s.cur) := by
  rw [execSlot_clear s i h hb hq]
  have hfi : firing [s.act1 i] [] = [s.act1 i] := firing_one s i
  have hau : [s.act1 i].filter (isUnit .au) = [] := by
    apply List.filter_cons_of_neg
    unfold isAuOrC at hu
    unfold isUnit
    split at hu <;> simp_all
  have hc : [s.act1 i].filter (isUnit .c) = [] := by
    apply List.filter_cons_of_neg
    unfold isAuOrC at hu
    unfold isUnit
    split at hu <;> simp_all
  have hn : [s.act1 i].filter (fun a => !isAuOrC a) = [s.act1 i] := by simp [hu]
  have hre : (s.act1 i).ic.re = false := rfl
  have hz : (s.issueActs s.cur [s.act1 i] [] (fun _ => true)).2 = [rankStop (s.act1 i) st] := by
    have hr : (runActs (s.ready1 i) [s.act1 i]).2 = [rankStop (s.act1 i) st] := by
      have hf' : fireSlot (s.act1 i).i (s.act1 i).ic (s.ready1 i) = .error st := hf
      simp only [runActs, hf']
    unfold State.issueActs
    simp only [hfi, hn]
    exact hr
  have hin : s.issueNow s.cur (oneSlot i) [s.act1 i] [] [] [] = .stop st := by
    unfold State.issueNow
    simp only [hz, hau, hc, runActs, List.append_nil, List.nil_append, leastStop, rankStop, hre, Bool.false_eq_true, if_false]
  rw [hin]
  rfl

theorem exec_control_stop (s : State) (i : Instr) (h : s.Clear i) (hb : barOf i = none) (hq : isMmaq i = false)
    (hu : isAuOrC (s.act1 i) = true) (st : Stop) (hf : fireSlot i (s.act1 i).ic (s.closed1 (s.ready1 i) i) = .error st) :
    s.execSlot i = .next ((s.stopAt s.cur st).turned s.cur) := by
  rw [execSlot_clear s i h hb hq]
  have hfi : firing [s.act1 i] [] = [s.act1 i] := firing_one s i
  have hn : [s.act1 i].filter (fun a => !isAuOrC a) = [] := by simp [hu]
  have hre : (s.act1 i).ic.re = false := rfl
  have hz : s.issueActs s.cur [s.act1 i] [] (fun _ => true) =
      ((((s.ready1 i).pops s.cur [s.act1 i]).regMove (s.act1 i)).modCore s.cur (fun k => k.rowSteps [s.act1 i]), []) := by
    unfold State.issueActs
    simp only [hfi, hn, runActs]
    rfl
  have hf' : fireSlot (s.act1 i).i (s.act1 i).ic (s.closed1 (s.ready1 i) i) = .error st := hf
  have hcl : (((((s.ready1 i).pops s.cur [s.act1 i]).regMove (s.act1 i)).modCore s.cur (fun k => k.rowSteps [s.act1 i])).modCore s.cur (fun k =>
      { k.endIssue (oneSlot i) with
        bundles := k.bundles + 1
        held := k.held ++ []
        weight := k.weight + issueWeight (oneSlot i) [s.act1 i] [] })) = s.closed1 (s.ready1 i) i := by
    simp only [List.append_nil]
    rfl
  have hin : s.issueNow s.cur (oneSlot i) [s.act1 i] [] [] [] = .stop st := by
    unfold State.issueNow
    simp only [hz, heldRows_nil, hcl]
    unfold isAuOrC at hu
    split at hu
    · rename_i hx
      have h1 : [s.act1 i].filter (isUnit .au) = [s.act1 i] := by simp [isUnit, hx]
      have h2 : [s.act1 i].filter (isUnit .c) = [] := by simp [isUnit, hx]
      simp only [h1, h2, runActs, hf', List.append_nil, List.nil_append, leastStop, rankStop, hre, Bool.false_eq_true, if_false]
    · rename_i hx
      have h1 : [s.act1 i].filter (isUnit .au) = [] := by simp [isUnit, hx]
      have h2 : [s.act1 i].filter (isUnit .c) = [s.act1 i] := by simp [isUnit, hx]
      simp only [h1, h2, runActs, hf', List.append_nil, List.nil_append, leastStop, rankStop, hre, Bool.false_eq_true, if_false]
    · simp at hu
  rw [hin]
  rfl

/-- The registers of the issuing core after a plain move (R94). -/
def State.moved (s : State) (vec : Bool) (src d : BitVec 9) (g : BitVec 6) : Core :=
  if vec then
    (if isLatchW d.toNat then s.me.moveLatchW d.toNat (s.vsrc1 (.move vec src d g))
     else s.me.moveRegW s.me d.toNat (s.vsrc1 (.move vec src d g)))
  else
    (if isLatchM d.toNat then s.me.moveLatchM d.toNat (s.src1 (.move vec src d g))
     else s.me.moveRegM d.toNat (s.src1 (.move vec src d g)))

theorem moved_rep (s : State) (vec : Bool) (src d : BitVec 9) (g : BitVec 6) : (s.moved vec src d g).rep = s.me.rep := by
  unfold State.moved Core.moveLatchW Core.moveRegW Core.moveLatchM Core.moveRegM Core.writeSs
  repeat' split
  all_goals rfl

/-- What a plain move to anything but a link queue does. -/
theorem exec_move (s : State) (vec : Bool) (src d : BitVec 9) (g : BitVec 6) (h : s.Clear (.move vec src d g))
    (hl : vec = true ∨ inLink d.toNat = false) :
    ∃ t, s.execSlot (.move vec src d g) = .next t ∧ s.OnlyCore t (.move vec src d g) ∧
      (s.moved vec src d g).Bookkept (t.core s.cur) (Instr.rowTiles (.move vec src d g)) := by
  have hu : unitOf (s.act1 (.move vec src d g)).i = .plain := rfl
  have hau : isAuOrC (s.act1 (.move vec src d g)) = false := by unfold isAuOrC; rw [hu]
  have h1 := exec_unit s _ h rfl rfl hau (s.ready1 (.move vec src d g)) rfl
  have hst : ∀ k : Core, k.setStickyOf (s.act1 (.move vec src d g)) true = k := fun k =>
    setSticky_scalar k _ _ (by rw [hu]; exact ⟨by decide, by decide, by decide⟩)
  have hx : ∃ s2 : State, (s.ready1 (.move vec src d g)).pops s.cur [s.act1 (.move vec src d g)] = s2 ∧
      s2 = { s with cores := s2.cores, ports := s2.ports } ∧ (∀ c, c ≠ s.cur → s2.core c = s.core c) ∧
      (popOf (.move vec src d g) = none → s2.ports = s.ports) ∧
      ((s2.regMove (s.act1 (.move vec src d g))) = s2.setCore s.cur (s.moved vec src d g) ∨
        ((s2.regMove (s.act1 (.move vec src d g))) = s2 ∧ s2.core s.cur = s.moved vec src d g)) := by
    refine ⟨_, rfl, ?_⟩
    have hr : s.ready1 (.move vec src d g) = (s.latchMove (s.act1 (.move vec src d g))).modCore s.cur (fun k => k) := by
      unfold State.ready1
      congr 1
    have hlat : ∃ k, s.latchMove (s.act1 (.move vec src d g)) = s.setCore s.cur k ∧ k = (if vec then (if isLatchW d.toNat then s.me.moveLatchW d.toNat (s.vsrc1 (.move vec src d g)) else s.me) else (if isLatchM d.toNat then s.me.moveLatchM d.toNat (s.src1 (.move vec src d g)) else s.me)) ∨ (s.latchMove (s.act1 (.move vec src d g)) = s ∧ s.me = k ∧ k = (if vec then (if isLatchW d.toNat then s.me.moveLatchW d.toNat (s.vsrc1 (.move vec src d g)) else s.me) else (if isLatchM d.toNat then s.me.moveLatchM d.toNat (s.src1 (.move vec src d g)) else s.me))) := by
      unfold State.latchMove
      cases vec
      · simp only [State.act1, Bool.false_eq_true, if_false]
        by_cases hd : isLatchM d.toNat = true
        · simp only [hd, if_true]; exact ⟨_, .inl ⟨rfl, rfl⟩⟩
        · simp only [hd, Bool.false_eq_true, if_false]; exact ⟨s.me, .inr (by simp)⟩
      · simp only [State.act1, if_true]
        by_cases hd : isLatchW d.toNat = true
        · simp only [hd, if_true]; exact ⟨_, .inl ⟨rfl, rfl⟩⟩
        · simp only [hd, Bool.false_eq_true, if_false]; exact ⟨s.me, .inr (by simp)⟩
    have hrc : ∃ k, s.ready1 (.move vec src d g) = s.setCore s.cur k ∧ k = (if vec then (if isLatchW d.toNat then s.me.moveLatchW d.toNat (s.vsrc1 (.move vec src d g)) else s.me) else (if isLatchM d.toNat then s.me.moveLatchM d.toNat (s.src1 (.move vec src d g)) else s.me)) := by
      obtain ⟨k, hk | hk⟩ := hlat
      · refine ⟨k, ?_, hk.2⟩
        rw [hr, hk.1, modCore_setCore]
      · refine ⟨k, ?_, hk.2.2⟩
        rw [hr, hk.1, ← hk.2.1]
        rfl
    obtain ⟨k, hk1, hk2⟩ := hrc
    have e := pops_core (s.ready1 (.move vec src d g)) s.cur [s.act1 (.move vec src d g)]
    have en : popOf (.move vec src d g) = none →
        ((s.ready1 (.move vec src d g)).pops s.cur [s.act1 (.move vec src d g)]).ports = (s.ready1 (.move vec src d g)).ports := by
      intro q; rw [pops_none s _ _ q]
    generalize (s.ready1 (.move vec src d g)).pops s.cur [s.act1 (.move vec src d g)] = s2 at *
    rw [hk1] at e en
    have hc : s2.core s.cur = k := by rw [e]; exact core_setCore_same s s.cur k
    refine ⟨by rw [e]; rfl, ?_, en, ?_⟩
    · intro c hcn
      rw [e]
      exact core_setCore_ne _ _ _ _ hcn
    · unfold State.regMove State.moved
      simp only [State.act1, Bool.false_eq_true, if_false]
      cases vec
      · simp only [Bool.false_eq_true, if_false, false_or] at *
        by_cases hd : isLatchM d.toNat = true
        · simp only [hd, if_true] at hk2 ⊢
          exact .inr ⟨trivial, hc.trans hk2⟩
        · simp only [hd, hl, Bool.false_eq_true, if_false] at hk2 ⊢
          refine .inl ?_
          unfold State.modCore
          rw [hc, hk2]
          rfl
      · simp only [if_true] at *
        by_cases hd : isLatchW d.toNat = true
        · simp only [hd, if_true] at hk2 ⊢
          exact .inr ⟨trivial, hc.trans hk2⟩
        · simp only [hd, Bool.false_eq_true, if_false] at hk2 ⊢
          refine .inl ?_
          unfold State.modCore
          rw [hc, hk2]
          rfl
  obtain ⟨s2, e1, e2, e3, e4, e5⟩ := hx
  have hrep := moved_rep s vec src d g
  have hrep0 : (s.moved vec src d g).rep = 0 := hrep.trans h.first
  have hcl : ∃ s3 : State, s.closed1 (s.ready1 (.move vec src d g)) (.move vec src d g) =
      (s3.modCore s.cur (fun k => k.rowSteps [s.act1 (.move vec src d g)])).modCore s.cur (fun k =>
        k.close1 (.move vec src d g) (issueWeight (oneSlot (.move vec src d g)) [s.act1 (.move vec src d g)] [])) ∧
      s3 = { s with cores := s3.cores, ports := s3.ports } ∧ (∀ c, c ≠ s.cur → s3.core c = s.core c) ∧
      (popOf (.move vec src d g) = none → s3.ports = s.ports) ∧ s3.core s.cur = s.moved vec src d g := by
    unfold State.closed1
    rw [e1]
    rcases e5 with e5 | ⟨e5, e6⟩
    · rw [e5]
      refine ⟨_, rfl, ?_, ?_, e4, core_setCore_same _ _ _⟩
      · rw [e2]; rfl
      · intro c hc
        rw [core_setCore_ne _ _ _ _ hc]
        exact e3 c hc
    · rw [e5]
      exact ⟨_, rfl, e2, e3, e4, e6⟩
  obtain ⟨s3, c1, c2, c3, c4, c5⟩ := hcl
  refine ⟨_, h1, fin1_only _ _ _ ?_, fin1_kept _ _ _ _ ?_⟩
  · rw [c1]
    refine ⟨?_, ?_, c4⟩
    · rw [c2]; rfl
    · intro c hc
      rw [core_modCore_ne _ _ _ _ hc, core_modCore_ne _ _ _ _ hc]
      exact c3 c hc
  · rw [c1]
    simp only [core_modCore_same, c5]
    exact close1_kept s _ _ _ hrep0

end Sys2Proof.Machine
end

