-- ==== Sys2Proof/Laws/Access.lean ====
section
/-! SUPPORT. What translation may change, and what the issue of an access does: it puts one operation in flight, or stops. -/

set_option linter.unusedVariables false

namespace Sys2Proof.Machine

/-- From `s` to `t` only translations of core `c` and of the dies' groups differ. -/
structure State.Learnt (s t : State) (c : Nat) : Prop where
  rest : t = { s with cores := t.cores, dies := t.dies }
  others : ∀ d, d ≠ c → t.core d = s.core d
  here : t.core c = { s.core c with tlb := (t.core c).tlb }
  dies : ∀ d, t.die d = { s.die d with gtlb := (t.die d).gtlb }

theorem Learnt.refl (s : State) (c : Nat) : s.Learnt s c := ⟨rfl, fun _ _ => rfl, rfl, fun _ => rfl⟩

theorem Learnt.trans {s t u : State} {c : Nat} (h : s.Learnt t c) (k : t.Learnt u c) : s.Learnt u c := by
  obtain ⟨a1, a2, a3, a4⟩ := h
  obtain ⟨b1, b2, b3, b4⟩ := k
  refine ⟨?_, fun d hd => (b2 d hd).trans (a2 d hd), ?_, fun d => ?_⟩
  · rw [b1, a1]
  · rw [b3, a3]
  · rw [b4, a4]

theorem learnt_core (s : State) (c : Nat) (x : List TlbEnt) : s.Learnt (s.modCore c (fun k => { k with tlb := x })) c := by
  refine ⟨rfl, fun d hd => core_modCore_ne _ _ _ _ hd, ?_, fun _ => rfl⟩
  rw [core_modCore_same]

theorem die_modDie (s : State) (d e : Nat) (f : Die → Die) :
    (s.modDie d f).die e = if d = e ∧ d < s.dies.length then f (s.die d) else s.die e := by
  simp only [State.die, State.modDie, State.setDie, List.getD_eq_getElem?_getD, List.getElem?_set]
  split
  · subst_vars
    split <;> simp_all
  · simp_all

theorem learnt_die (s : State) (c d : Nat) (x : Tbl (List TlbEnt)) : s.Learnt (s.modDie d (fun y => { y with gtlb := x })) c := by
  refine ⟨rfl, fun _ _ => rfl, rfl, fun e => ?_⟩
  rw [die_modDie]
  split
  · rename_i h; rw [h.1]
  · rfl

theorem learnt_tlbLook (s : State) (c ctx va : Nat) : s.Learnt (s.tlbLook c ctx va).1 c := by
  unfold State.tlbLook
  dsimp only
  split
  · exact Learnt.refl _ _
  · split
    · exact learnt_core _ _ _
    · split
      · exact Learnt.refl _ _
      · exact Learnt.trans (learnt_core _ _ _) (learnt_die _ _ _ _)

theorem learnt_xlate (s : State) (c ea : Nat) (n : Need) : s.Learnt (s.xlate c ea n).1 c := by
  unfold State.xlate
  dsimp only
  split
  · split <;> exact Learnt.refl _ _
  · split
    · exact Learnt.refl _ _
    · split
      · split <;> exact Learnt.refl _ _
      · have h := learnt_tlbLook s c (s.core c).ctx (fld ea 55 0)
        split
        · exact h
        · split
          · exact h
          · split <;> exact h

theorem learnt_xlateSpan (s : State) (c : Nat) (n : Need) (fuel ea off len : Nat) : s.Learnt (s.xlateSpan c n fuel ea off len).1 c := by
  induction fuel generalizing s ea off len with
  | zero => exact Learnt.refl _ _
  | succ f ih =>
    unfold State.xlateSpan
    dsimp only
    have h := learnt_xlate s c (ea % 2 ^ 64) n
    split
    · exact Learnt.refl _ _
    · split
      · exact h
      · split
        · exact h
        · split
          · exact h
          · split <;> exact Learnt.trans h (ih _ _ _ _)

theorem learnt_xlateChunk (s : State) (c : Nat) (n : Need) (p : Bool) (q : Nat × Nat × Nat) : s.Learnt (s.xlateChunk c n p q).1 c := by
  unfold State.xlateChunk
  dsimp only
  have h := learnt_xlateSpan s c n 3 q.2.1 0 q.2.2
  split
  · split <;> exact h
  · exact h

theorem learnt_xlateChunks (s : State) (c : Nat) (n : Need) (p : Bool) (l : List (Nat × Nat × Nat)) : s.Learnt (s.xlateChunks c n p l).1 c := by
  induction l generalizing s with
  | nil => exact Learnt.refl _ _
  | cons q r ih =>
    unfold State.xlateChunks
    exact Learnt.trans (learnt_xlateChunk _ _ _ _ _) (ih _)

/-- The operation that `launchOp` puts in flight. -/
def State.flight (s : State) (ic : Ic) (r : Req) (ps0 : List Piece) (junk : Bool) : MOp :=
  let k := s.core ic.c
  let lcl := r.chunks.all (fun q => bitAt q.2.1 63)
  let d := if r.wideScope then none else s.distances ic.c lcl ps0
  let ps := if d.isSome then ps0 else s.splitPieces r ps0
  { id := k.next, op := r.op, slot := ic.slot, pc := ic.pc, re := ic.re, latch := r.latch, cls := r.cls, cyc := k.clk,
    due := match d with | some x => k.clk + r.perfAt + x | none => s.lat (s.now + r.perfAt),
    fixed := d.isSome,
    ret := match d with | some x => k.clk + r.latchAt + 2 * x | none => 0,
    scope := r.scope, isRead := r.isRead, isWrite := r.isWrite, ea := u64 r.ea, lcl := lcl, pieces := ps, data := r.data,
    data2 := r.data2, fm := r.fm, k := r.k, aux := r.aux, logged := false, junk := junk, perf := false,
    val := r.known.getD 0, bundle := ic.bundle.getD k.bundles }

theorem launchOp_eq (s : State) (ic : Ic) (r : Req) (ps : List Piece) (junk : Bool) :
    s.launchOp ic r ps junk = (s.modCore ic.c (fun k => { k with mops := k.mops ++ [s.flight ic r ps junk], next := k.next + 1 })).tick1 := rfl

/-- The issue of an access that has no fault and that no side log holds back. -/
theorem access_ok (s : State) (ic : Ic) (r : Req)
    (hf : firstFault (fun _ => true) (r.faults (s.xlateChunks ic.c r.need (r.log = some 0) r.chunks).2) = none)
    (hl : r.log.isSome → (s.core ic.c).lineLogged r.lines = false) :
    s.access ic r = .ok ((s.xlateChunks ic.c r.need (r.log = some 0) r.chunks).1.launchOp ic r
      (okPieces (s.xlateChunks ic.c r.need (r.log = some 0) r.chunks).2) (!(s.core ic.c).tagged && ic.pre.meetsEngine r.chunks)) := by
  have hff : ∀ (p : Cause → Bool) l, firstFault (fun _ => true) l = none → firstFault p l = none := by
    intro p l
    induction l with
    | nil => intro _; rfl
    | cons x t ih =>
      intro h
      cases x with
      | error e => simp [firstFault] at h
      | ok ps => exact ih h
  unfold State.access
  dsimp only
  split
  · rw [hf]
  · rename_i w hw
    rw [hl (by rw [hw]; rfl), hff _ _ hf, hf]
    simp

/-- An access that no side log takes stops with its first fault. -/
theorem access_faults (s : State) (ic : Ic) (r : Req) (hn : r.log = none) (f : Cause) (a : Nat)
    (hf : firstFault (fun _ => true) (r.faults (s.xlateChunks ic.c r.need (r.log = some 0) r.chunks).2) = some (f, a)) :
    s.access ic r = .error (addrStop ic f a) := by
  unfold State.access
  dsimp only
  rw [hn] at hf ⊢
  simp only [hf]

end Sys2Proof.Machine
end

