-- ==== Sys2Proof/Laws/Memory.lean ====
section
/-! SUPPORT. Memory: a read after a write, what a write leaves as it was, and that every memory operation keeps the canonical form. -/

set_option linter.unusedVariables false

namespace Sys2Proof.Machine

/-! ## The canonical form -/

theorem memWfFrom_weaken (lo : Option Nat) (b : Nat) (m : List Host.Cell) (h : memWfFrom (some b) m = true) (hl : ∀ l, lo = some l → l ≤ b) :
    memWfFrom lo m = true := by
  cases m with
  | nil => rfl
  | cons p r =>
    obtain ⟨a, v⟩ := p
    simp only [memWfFrom, Bool.and_eq_true, decide_eq_true_eq] at h ⊢
    refine ⟨⟨?_, h.1.2⟩, h.2⟩
    cases lo with
    | none => rfl
    | some l => have := hl l rfl; simp; omega

/-- In a well-formed list whose addresses all lie above `b`, an address up to `b` is not listed. -/
theorem memGet_below (b : Nat) (m : List Host.Cell) (h : memWfFrom (some b) m = true) (a : Nat) (ha : a ≤ b) : memGet m a = unlisted := by
  cases m with
  | nil => rfl
  | cons p r =>
    obtain ⟨c, v⟩ := p
    simp only [memWfFrom, Bool.and_eq_true, decide_eq_true_eq] at h
    simp only [memGet]
    rw [if_neg (by omega), if_pos (by omega)]

theorem aboveBound (lo : Option Nat) (a : Nat) :
    (∀ l, lo = some l → l < a) → (match lo with | none => true | some l => decide (l < a)) = true := by
  intro ha
  cases lo with
  | none => rfl
  | some l => simpa using ha l rfl

theorem memPut_wf (lo : Option Nat) (m : List Host.Cell) (a : Nat) (v : Byte) (h : memWfFrom lo m = true) (ha : ∀ l, lo = some l → l < a) :
    memWfFrom lo (memPut m a v) = true := by
  induction m generalizing lo with
  | nil =>
    simp only [memPut]
    split
    · rfl
    · have hlo := aboveBound lo a ha
      simp_all [memWfFrom]
      try exact hlo
  | cons p r ih =>
    obtain ⟨b, w⟩ := p
    have hlo := aboveBound lo a ha
    have h' := h
    simp only [memWfFrom, Bool.and_eq_true] at h'
    simp only [memPut]
    by_cases hab : a < b
    · rw [if_pos hab]
      by_cases hv : v = unlisted
      · rw [if_pos hv]; exact h
      · rw [if_neg hv]
        simp only [memWfFrom, Bool.and_eq_true]
        refine ⟨⟨hlo, by simpa using hv⟩, ⟨by simpa using hab, h'.1.2⟩, h'.2⟩
    · rw [if_neg hab]
      by_cases he : a = b
      · rw [if_pos he]
        subst he
        by_cases hv : v = unlisted
        · rw [if_pos hv]
          exact memWfFrom_weaken lo a r h'.2 (fun l hl => Nat.le_of_lt (ha l hl))
        · rw [if_neg hv]
          simp only [memWfFrom, Bool.and_eq_true]
          exact ⟨⟨hlo, by simpa using hv⟩, h'.2⟩
      · rw [if_neg he]
        simp only [memWfFrom, Bool.and_eq_true]
        have hba : b < a := by omega
        exact ⟨h'.1, ih (some b) h'.2 (fun l hl => by cases hl; exact hba)⟩

theorem memory_put_wf (m : List Host.Cell) (a : Nat) (v : Byte) (h : Memory.wf m = true) : Memory.wf (memPut m a v) = true :=
  memPut_wf none m a v h (fun l hl => by cases hl)

theorem memory_write_wf (m : List Host.Cell) (a : Nat) (bs : List Byte) (h : Memory.wf m = true) : Memory.wf (memWrite m a bs) = true := by
  induction bs generalizing m a with
  | nil => exact h
  | cons b r ih => exact ih _ _ (memory_put_wf m a b h)

/-- A part of a well-formed list is well-formed. -/
theorem memWfFrom_filter (p : Host.Cell → Bool) (lo : Option Nat) (m : List Host.Cell) (h : memWfFrom lo m = true) :
    memWfFrom lo (m.filter p) = true := by
  induction m generalizing lo with
  | nil => rfl
  | cons q r ih =>
    obtain ⟨a, v⟩ := q
    have h' := h
    simp only [memWfFrom, Bool.and_eq_true] at h'
    by_cases hp : p (a, v) = true
    · rw [List.filter_cons_of_pos hp]
      simp only [memWfFrom, Bool.and_eq_true]
      exact ⟨h'.1, ih _ h'.2⟩
    · rw [List.filter_cons_of_neg (by simpa using hp)]
      refine memWfFrom_weaken lo a _ (ih _ h'.2) (fun l hl => ?_)
      subst hl
      simpa using Nat.le_of_lt (by simpa using h'.1.1)

theorem memory_filter_wf (p : Host.Cell → Bool) (m : List Host.Cell) (h : Memory.wf m = true) : Memory.wf (m.filter p) = true :=
  memWfFrom_filter p none m h

theorem memory_puts_wf (cells : List Host.Cell) (m : List Host.Cell) (h : Memory.wf m = true) :
    Memory.wf (cells.foldl (fun m p => memPut m p.1 p.2) m) = true := by
  induction cells generalizing m with
  | nil => exact h
  | cons p r ih => exact ih _ (memory_put_wf m p.1 p.2 h)

/-! ## Reads after writes -/

theorem memGet_put_same' (lo : Option Nat) (m : List Host.Cell) (a : Nat) (v : Byte) (h : memWfFrom lo m = true) : memGet (memPut m a v) a = v := by
  induction m generalizing lo with
  | nil =>
    simp only [memPut]
    split
    · simp_all [memGet]
    · simp [memGet]
  | cons p r ih =>
    obtain ⟨b, w⟩ := p
    simp only [memWfFrom, Bool.and_eq_true] at h
    simp only [memPut]
    by_cases hab : a < b
    · rw [if_pos hab]
      by_cases hv : v = unlisted
      · rw [if_pos hv]
        simp only [memGet]
        rw [if_neg (by omega), if_pos hab, hv]
      · rw [if_neg hv]; simp [memGet]
    · rw [if_neg hab]
      by_cases he : a = b
      · rw [if_pos he]
        subst he
        by_cases hv : v = unlisted
        · rw [if_pos hv, memGet_below a r h.2 a (Nat.le_refl a), hv]
        · rw [if_neg hv]; simp [memGet]
      · rw [if_neg he]
        simp only [memGet]
        rw [if_neg he, if_neg hab]
        exact ih _ h.2

theorem memGet_put_same (m : List Host.Cell) (a : Nat) (v : Byte) (h : Memory.wf m = true) : memGet (memPut m a v) a = v :=
  memGet_put_same' none m a v h

theorem memGet_put_ne' (lo : Option Nat) (m : List Host.Cell) (a x : Nat) (v : Byte) (h : memWfFrom lo m = true) (hx : x ≠ a) :
    memGet (memPut m a v) x = memGet m x := by
  induction m generalizing lo with
  | nil =>
    simp only [memPut]
    split
    · rfl
    · simp [memGet, hx]
  | cons p r ih =>
    obtain ⟨b, w⟩ := p
    simp only [memWfFrom, Bool.and_eq_true] at h
    simp only [memPut]
    by_cases hab : a < b
    · rw [if_pos hab]
      by_cases hv : v = unlisted
      · rw [if_pos hv]
      · rw [if_neg hv]
        simp only [memGet]
        rw [if_neg hx]
        by_cases hxa : x < a
        · rw [if_pos hxa, if_neg (by omega), if_pos (by omega)]
        · rw [if_neg hxa]
    · rw [if_neg hab]
      by_cases he : a = b
      · rw [if_pos he]
        subst he
        by_cases hv : v = unlisted
        · rw [if_pos hv]
          simp only [memGet]
          rw [if_neg hx]
          by_cases hxa : x < a
          · rw [if_pos hxa, memGet_below a r h.2 x (by omega)]
          · rw [if_neg hxa]
        · rw [if_neg hv]
          simp only [memGet]
          rw [if_neg hx]
          split <;> simp_all
      · rw [if_neg he]
        simp only [memGet]
        split
        · rfl
        · split
          · rfl
          · exact ih _ h.2

theorem memGet_put_ne (m : List Host.Cell) (a x : Nat) (v : Byte) (h : Memory.wf m = true) (hx : x ≠ a) : memGet (memPut m a v) x = memGet m x :=
  memGet_put_ne' none m a x v h hx

/-- A write leaves every address outside its bytes as it was. -/
theorem memGet_write_out (m : List Host.Cell) (a x : Nat) (bs : List Byte) (h : Memory.wf m = true) (hx : x < a ∨ a + bs.length ≤ x) :
    memGet (memWrite m a bs) x = memGet m x := by
  induction bs generalizing m a with
  | nil => rfl
  | cons b r ih =>
    simp only [List.length_cons] at hx
    simp only [memWrite]
    rw [ih _ _ (memory_put_wf m a b h) (by omega), memGet_put_ne m a x b h (by omega)]

/-- A write gives each address its byte. -/
theorem memGet_write_in (m : List Host.Cell) (a j : Nat) (bs : List Byte) (h : Memory.wf m = true) (hj : j < bs.length) :
    memGet (memWrite m a bs) (a + j) = bs.getD j 0 := by
  induction bs generalizing m a j with
  | nil => simp at hj
  | cons b r ih =>
    simp only [memWrite]
    cases j with
    | zero =>
      simp only [Nat.add_zero]
      rw [memGet_write_out _ (a + 1) a r (memory_put_wf m a b h) (by omega), memGet_put_same m a b h]
      rfl
    | succ j =>
      have hj' : j < r.length := by simpa using hj
      rw [show a + (j + 1) = (a + 1) + j by omega, ih _ _ _ (memory_put_wf m a b h) hj']
      simp

theorem memRead_length (m : List Host.Cell) (a n : Nat) : (memRead m a n).length = n := by
  induction n generalizing a with
  | zero => rfl
  | succ n ih => simp [memRead, ih]

theorem memRead_getD (m : List Host.Cell) (a n j : Nat) (hj : j < n) : (memRead m a n).getD j 0 = memGet m (a + j) := by
  induction n generalizing a j with
  | zero => omega
  | succ n ih =>
    cases j with
    | zero => rfl
    | succ j =>
      have hj' : j < n := by omega
      simp only [memRead, List.getD_cons_succ]
      rw [ih (a + 1) j hj', show a + 1 + j = a + (j + 1) by omega]

/-- A read of what has just been written is what was written. -/
theorem memRead_write (m : List Host.Cell) (a : Nat) (bs : List Byte) (h : Memory.wf m = true) : memRead (memWrite m a bs) a bs.length = bs := by
  apply List.ext_getElem
  · rw [memRead_length]
  · intro j h1 h2
    have e := memGet_write_in m a j bs h h2
    have r := memRead_getD (memWrite m a bs) a bs.length j h2
    simp only [List.getD, List.getElem?_eq_getElem h1, List.getElem?_eq_getElem h2, Option.getD_some] at e r
    rw [r, e]

/-! ## Writes at the home -/

theorem foldl_mem {α : Type} (f : State → α → State) (l : List α) (h : ∀ s a, (f s a).mem = s.mem) (s : State) : (l.foldl f s).mem = s.mem := by
  induction l generalizing s with
  | nil => rfl
  | cons a r ih => rw [List.foldl_cons, ih, h]

@[simp] theorem queueMem_mem (s : State) (pkg : Nat) (x : BitVec 2048) : (s.queueMem pkg x).mem = s.mem := rfl

@[simp] theorem addDelta_mem (s : State) (c loc : Nat) (d : BitVec 512) : (s.addDelta c loc d).mem = s.mem := by
  unfold State.addDelta
  split
  · rfl
  · split
    · exact foldl_mem _ _ (fun s a => queueMem_mem _ _ _) _
    · rfl

@[simp] theorem sendStore_mem (s : State) (who : Waiter) (loc : Nat) (bs : List Byte) : (s.sendStore who loc bs).mem = s.mem := by
  unfold State.sendStore
  split
  · dsimp only
    exact foldl_mem _ _ (fun t (c : Nat × List Byte) => (rfl : (t.request who _ 0 (_ + 128 * c.1) c.2).mem = t.mem)) _
  · rfl

/-- Bytes put at their home are written to memory, and nothing else is. -/
@[simp] theorem homePut_mem (s : State) (c loc : Nat) (bs : List Byte) : (s.homePut c loc bs).mem = memWrite s.mem loc bs := by
  unfold State.homePut
  dsimp only
  split
  · rfl
  · rw [foldl_mem _ _ (fun s a => addDelta_mem _ _ _ _)]

@[simp] theorem stall_mem (s : State) (c loc : Nat) (virt : Option (Nat × Nat)) (bs : List Byte) : (s.stall c loc virt bs).mem = s.mem := rfl

/-- All that a write at the home can do to memory: its bytes are there, or nothing has changed, as with one that leaves for another package, that
waits, or that no store may make. -/
theorem homeWrite_mem (s : State) (c loc : Nat) (bs : List Byte) :
    (s.homeWrite c loc bs).mem = s.mem ∨ (s.homeWrite c loc bs).mem = memWrite s.mem loc bs := by
  unfold State.homeWrite
  repeat' split
  all_goals simp

/-- Outside the Mirror regions, a write behind which nothing waits puts its bytes there. -/
theorem homeWrite_puts (s : State) (c loc : Nat) (bs : List Byte) (hl : loc < 2 ^ 64) (hr : s.regionOf loc = none)
    (hb : s.behindStalled loc bs.length = false) : s.homeWrite c loc bs = s.homePut c loc bs := by
  unfold State.homeWrite
  rw [if_neg (by omega), hr, hb]
  rfl

theorem homeWrite_wf (s : State) (c loc : Nat) (bs : List Byte) (h : Memory.wf s.mem = true) : Memory.wf (s.homeWrite c loc bs).mem = true := by
  rcases homeWrite_mem s c loc bs with e | e <;> rw [e]
  · exact h
  · exact memory_write_wf s.mem loc bs h

end Sys2Proof.Machine
end

