-- ==== Sys2Proof/Laws/PerInstr.lean ====
section
/-! SUPPORT. Facts about the syntax of every instruction, one lemma per constructor: its word has 32 bits. -/

set_option linter.unusedVariables false

namespace Sys2Proof

theorem moveWord_lt (src : BitVec 9) (dst opc : Nat) (g : BitVec 6) (hd : dst < 512) (ho : opc < 256) : moveWord src dst opc g < 2 ^ 32 := by
  have hs := src.isLt
  have hg := g.isLt
  unfold moveWord
  omega

theorem syncWord_lt (op i c self r : Nat) (g : BitVec 6) (ho : op < 16) (hi : i < 256) (hc : c < 256) (hs : self < 2) (hr : r < 32) :
    syncWord op i c self r g < 2 ^ 32 := by
  have hg := g.isLt
  unfold syncWord
  omega

theorem kWord_lt (op : Nat) (k : BitVec 5) (b o : Nat) (g : BitVec 6) (ho : op < 16) (hb : b < 16) (hof : o < 8192) : kWord op k b o g < 2 ^ 32 := by
  have hk := k.isLt
  have hg := g.isLt
  unfold kWord
  omega

end Sys2Proof

namespace Sys2Proof.Laws.Width

/-- An instruction's word is a 32-bit word. -/
def Statement (i : Instr) : Prop := encode i < 2 ^ 32

theorem width_zero : 0 < 2 ^ 32 := by decide

theorem bundleIssue (core : Nat) : Statement (.bundleIssue core) := width_zero
theorem trapEntryDeferredWrite (core : Nat) : Statement (.trapEntryDeferredWrite core) := width_zero
theorem heldSlotIssue (core : Nat) : Statement (.heldSlotIssue core) := width_zero
theorem resultLatchWrite (core : Nat) : Statement (.resultLatchWrite core) := width_zero
theorem globalAccessReturn (core : Nat) (id : Nat) : Statement (.globalAccessReturn core id) := width_zero
theorem specUnitResult (core : Nat) (id : Nat) : Statement (.specUnitResult core id) := width_zero
theorem waitaRecheck (core : Nat) : Statement (.waitaRecheck core) := width_zero
theorem mmaResultWrite (core : Nat) : Statement (.mmaResultWrite core) := width_zero
theorem mmaqResultWrite (core : Nat) : Statement (.mmaqResultWrite core) := width_zero
theorem wldComplete (core : Nat) : Statement (.wldComplete core) := width_zero
theorem move (vec : Bool) (src : BitVec 9) (d : BitVec 9) (grd : BitVec 6) : Statement (.move vec src d grd) := moveWord_lt _ _ _ _ (by have h1 := d.isLt; omega) (by have h1 := d.isLt; omega)
theorem add (src : BitVec 9) (u : BitVec 1) (w : BitVec 1) (grd : BitVec 6) : Statement (.add src u w grd) := moveWord_lt _ _ _ _ (by have h1 := u.isLt; have h2 := w.isLt; omega) (by have h1 := u.isLt; have h2 := w.isLt; omega)
theorem sub (src : BitVec 9) (u : BitVec 1) (w : BitVec 1) (grd : BitVec 6) : Statement (.sub src u w grd) := moveWord_lt _ _ _ _ (by have h1 := u.isLt; have h2 := w.isLt; omega) (by have h1 := u.isLt; have h2 := w.isLt; omega)
theorem and (src : BitVec 9) (u : BitVec 1) (w : BitVec 1) (grd : BitVec 6) : Statement (.and src u w grd) := moveWord_lt _ _ _ _ (by have h1 := u.isLt; have h2 := w.isLt; omega) (by have h1 := u.isLt; have h2 := w.isLt; omega)
theorem or (src : BitVec 9) (u : BitVec 1) (w : BitVec 1) (grd : BitVec 6) : Statement (.or src u w grd) := moveWord_lt _ _ _ _ (by have h1 := u.isLt; have h2 := w.isLt; omega) (by have h1 := u.isLt; have h2 := w.isLt; omega)
theorem xor (src : BitVec 9) (u : BitVec 1) (w : BitVec 1) (grd : BitVec 6) : Statement (.xor src u w grd) := moveWord_lt _ _ _ _ (by have h1 := u.isLt; have h2 := w.isLt; omega) (by have h1 := u.isLt; have h2 := w.isLt; omega)
theorem andn (src : BitVec 9) (u : BitVec 1) (w : BitVec 1) (grd : BitVec 6) : Statement (.andn src u w grd) := moveWord_lt _ _ _ _ (by have h1 := u.isLt; have h2 := w.isLt; omega) (by have h1 := u.isLt; have h2 := w.isLt; omega)
theorem shl (src : BitVec 9) (u : BitVec 1) (w : BitVec 1) (grd : BitVec 6) : Statement (.shl src u w grd) := moveWord_lt _ _ _ _ (by have h1 := u.isLt; have h2 := w.isLt; omega) (by have h1 := u.isLt; have h2 := w.isLt; omega)
theorem shr (src : BitVec 9) (u : BitVec 1) (w : BitVec 1) (grd : BitVec 6) : Statement (.shr src u w grd) := moveWord_lt _ _ _ _ (by have h1 := u.isLt; have h2 := w.isLt; omega) (by have h1 := u.isLt; have h2 := w.isLt; omega)
theorem sar (src : BitVec 9) (u : BitVec 1) (w : BitVec 1) (grd : BitVec 6) : Statement (.sar src u w grd) := moveWord_lt _ _ _ _ (by have h1 := u.isLt; have h2 := w.isLt; omega) (by have h1 := u.isLt; have h2 := w.isLt; omega)
theorem rol (src : BitVec 9) (u : BitVec 1) (w : BitVec 1) (grd : BitVec 6) : Statement (.rol src u w grd) := moveWord_lt _ _ _ _ (by have h1 := u.isLt; have h2 := w.isLt; omega) (by have h1 := u.isLt; have h2 := w.isLt; omega)
theorem ror (src : BitVec 9) (u : BitVec 1) (w : BitVec 1) (grd : BitVec 6) : Statement (.ror src u w grd) := moveWord_lt _ _ _ _ (by have h1 := u.isLt; have h2 := w.isLt; omega) (by have h1 := u.isLt; have h2 := w.isLt; omega)
theorem min (src : BitVec 9) (u : BitVec 1) (w : BitVec 1) (grd : BitVec 6) : Statement (.min src u w grd) := moveWord_lt _ _ _ _ (by have h1 := u.isLt; have h2 := w.isLt; omega) (by have h1 := u.isLt; have h2 := w.isLt; omega)
theorem max (src : BitVec 9) (u : BitVec 1) (w : BitVec 1) (grd : BitVec 6) : Statement (.max src u w grd) := moveWord_lt _ _ _ _ (by have h1 := u.isLt; have h2 := w.isLt; omega) (by have h1 := u.isLt; have h2 := w.isLt; omega)
theorem minu (src : BitVec 9) (u : BitVec 1) (w : BitVec 1) (grd : BitVec 6) : Statement (.minu src u w grd) := moveWord_lt _ _ _ _ (by have h1 := u.isLt; have h2 := w.isLt; omega) (by have h1 := u.isLt; have h2 := w.isLt; omega)
theorem maxu (src : BitVec 9) (u : BitVec 1) (w : BitVec 1) (grd : BitVec 6) : Statement (.maxu src u w grd) := moveWord_lt _ _ _ _ (by have h1 := u.isLt; have h2 := w.isLt; omega) (by have h1 := u.isLt; have h2 := w.isLt; omega)
theorem clz (src : BitVec 9) (u : BitVec 1) (w : BitVec 1) (grd : BitVec 6) : Statement (.clz src u w grd) := moveWord_lt _ _ _ _ (by have h1 := u.isLt; have h2 := w.isLt; omega) (by have h1 := u.isLt; have h2 := w.isLt; omega)
theorem ctz (src : BitVec 9) (u : BitVec 1) (w : BitVec 1) (grd : BitVec 6) : Statement (.ctz src u w grd) := moveWord_lt _ _ _ _ (by have h1 := u.isLt; have h2 := w.isLt; omega) (by have h1 := u.isLt; have h2 := w.isLt; omega)
theorem popc (src : BitVec 9) (u : BitVec 1) (w : BitVec 1) (grd : BitVec 6) : Statement (.popc src u w grd) := moveWord_lt _ _ _ _ (by have h1 := u.isLt; have h2 := w.isLt; omega) (by have h1 := u.isLt; have h2 := w.isLt; omega)
theorem mul (src : BitVec 9) (u : BitVec 1) (w : BitVec 1) (grd : BitVec 6) : Statement (.mul src u w grd) := moveWord_lt _ _ _ _ (by have h1 := u.isLt; have h2 := w.isLt; omega) (by have h1 := u.isLt; have h2 := w.isLt; omega)
theorem mulhs (src : BitVec 9) (u : BitVec 1) (w : BitVec 1) (grd : BitVec 6) : Statement (.mulhs src u w grd) := moveWord_lt _ _ _ _ (by have h1 := u.isLt; have h2 := w.isLt; omega) (by have h1 := u.isLt; have h2 := w.isLt; omega)
theorem mulhu (src : BitVec 9) (u : BitVec 1) (w : BitVec 1) (grd : BitVec 6) : Statement (.mulhu src u w grd) := moveWord_lt _ _ _ _ (by have h1 := u.isLt; have h2 := w.isLt; omega) (by have h1 := u.isLt; have h2 := w.isLt; omega)
theorem divs (src : BitVec 9) (u : BitVec 1) (w : BitVec 1) (grd : BitVec 6) : Statement (.divs src u w grd) := moveWord_lt _ _ _ _ (by have h1 := u.isLt; have h2 := w.isLt; omega) (by have h1 := u.isLt; have h2 := w.isLt; omega)
theorem divu (src : BitVec 9) (u : BitVec 1) (w : BitVec 1) (grd : BitVec 6) : Statement (.divu src u w grd) := moveWord_lt _ _ _ _ (by have h1 := u.isLt; have h2 := w.isLt; omega) (by have h1 := u.isLt; have h2 := w.isLt; omega)
theorem rems (src : BitVec 9) (u : BitVec 1) (w : BitVec 1) (grd : BitVec 6) : Statement (.rems src u w grd) := moveWord_lt _ _ _ _ (by have h1 := u.isLt; have h2 := w.isLt; omega) (by have h1 := u.isLt; have h2 := w.isLt; omega)
theorem remu (src : BitVec 9) (u : BitVec 1) (w : BitVec 1) (grd : BitVec 6) : Statement (.remu src u w grd) := moveWord_lt _ _ _ _ (by have h1 := u.isLt; have h2 := w.isLt; omega) (by have h1 := u.isLt; have h2 := w.isLt; omega)
theorem addsat (src : BitVec 9) (u : BitVec 1) (w : BitVec 1) (grd : BitVec 6) : Statement (.addsat src u w grd) := moveWord_lt _ _ _ _ (by have h1 := u.isLt; have h2 := w.isLt; omega) (by have h1 := u.isLt; have h2 := w.isLt; omega)
theorem subsat (src : BitVec 9) (u : BitVec 1) (w : BitVec 1) (grd : BitVec 6) : Statement (.subsat src u w grd) := moveWord_lt _ _ _ _ (by have h1 := u.isLt; have h2 := w.isLt; omega) (by have h1 := u.isLt; have h2 := w.isLt; omega)
theorem clmul (src : BitVec 9) (u : BitVec 1) (w : BitVec 1) (grd : BitVec 6) : Statement (.clmul src u w grd) := moveWord_lt _ _ _ _ (by have h1 := u.isLt; have h2 := w.isLt; omega) (by have h1 := u.isLt; have h2 := w.isLt; omega)
theorem clmulh (src : BitVec 9) (u : BitVec 1) (w : BitVec 1) (grd : BitVec 6) : Statement (.clmulh src u w grd) := moveWord_lt _ _ _ _ (by have h1 := u.isLt; have h2 := w.isLt; omega) (by have h1 := u.isLt; have h2 := w.isLt; omega)
theorem pxor (src : BitVec 9) (u : BitVec 1) (w : BitVec 1) (grd : BitVec 6) : Statement (.pxor src u w grd) := moveWord_lt _ _ _ _ (by have h1 := u.isLt; have h2 := w.isLt; omega) (by have h1 := u.isLt; have h2 := w.isLt; omega)
theorem pext (src : BitVec 9) (u : BitVec 1) (w : BitVec 1) (grd : BitVec 6) : Statement (.pext src u w grd) := moveWord_lt _ _ _ _ (by have h1 := u.isLt; have h2 := w.isLt; omega) (by have h1 := u.isLt; have h2 := w.isLt; omega)
theorem pdep (src : BitVec 9) (u : BitVec 1) (w : BitVec 1) (grd : BitVec 6) : Statement (.pdep src u w grd) := moveWord_lt _ _ _ _ (by have h1 := u.isLt; have h2 := w.isLt; omega) (by have h1 := u.isLt; have h2 := w.isLt; omega)
theorem sext (src : BitVec 9) (u : BitVec 1) (w : BitVec 1) (grd : BitVec 6) : Statement (.sext src u w grd) := moveWord_lt _ _ _ _ (by have h1 := u.isLt; have h2 := w.isLt; omega) (by have h1 := u.isLt; have h2 := w.isLt; omega)
theorem zext (src : BitVec 9) (u : BitVec 1) (w : BitVec 1) (grd : BitVec 6) : Statement (.zext src u w grd) := moveWord_lt _ _ _ _ (by have h1 := u.isLt; have h2 := w.isLt; omega) (by have h1 := u.isLt; have h2 := w.isLt; omega)
theorem eq (src : BitVec 9) (u : BitVec 1) (w : BitVec 1) (grd : BitVec 6) : Statement (.eq src u w grd) := moveWord_lt _ _ _ _ (by have h1 := u.isLt; have h2 := w.isLt; omega) (by have h1 := u.isLt; have h2 := w.isLt; omega)
theorem ne (src : BitVec 9) (u : BitVec 1) (w : BitVec 1) (grd : BitVec 6) : Statement (.ne src u w grd) := moveWord_lt _ _ _ _ (by have h1 := u.isLt; have h2 := w.isLt; omega) (by have h1 := u.isLt; have h2 := w.isLt; omega)
theorem lt (src : BitVec 9) (u : BitVec 1) (w : BitVec 1) (grd : BitVec 6) : Statement (.lt src u w grd) := moveWord_lt _ _ _ _ (by have h1 := u.isLt; have h2 := w.isLt; omega) (by have h1 := u.isLt; have h2 := w.isLt; omega)
theorem le (src : BitVec 9) (u : BitVec 1) (w : BitVec 1) (grd : BitVec 6) : Statement (.le src u w grd) := moveWord_lt _ _ _ _ (by have h1 := u.isLt; have h2 := w.isLt; omega) (by have h1 := u.isLt; have h2 := w.isLt; omega)
theorem ltu (src : BitVec 9) (u : BitVec 1) (w : BitVec 1) (grd : BitVec 6) : Statement (.ltu src u w grd) := moveWord_lt _ _ _ _ (by have h1 := u.isLt; have h2 := w.isLt; omega) (by have h1 := u.isLt; have h2 := w.isLt; omega)
theorem leu (src : BitVec 9) (u : BitVec 1) (w : BitVec 1) (grd : BitVec 6) : Statement (.leu src u w grd) := moveWord_lt _ _ _ _ (by have h1 := u.isLt; have h2 := w.isLt; omega) (by have h1 := u.isLt; have h2 := w.isLt; omega)
theorem hmix (src : BitVec 9) (u : BitVec 1) (w : BitVec 1) (grd : BitVec 6) : Statement (.hmix src u w grd) := moveWord_lt _ _ _ _ (by have h1 := u.isLt; have h2 := w.isLt; omega) (by have h1 := u.isLt; have h2 := w.isLt; omega)
theorem bswap (src : BitVec 9) (u : BitVec 1) (w : BitVec 1) (grd : BitVec 6) : Statement (.bswap src u w grd) := moveWord_lt _ _ _ _ (by have h1 := u.isLt; have h2 := w.isLt; omega) (by have h1 := u.isLt; have h2 := w.isLt; omega)
theorem pass (src : BitVec 9) (u : BitVec 1) (w : BitVec 1) (grd : BitVec 6) : Statement (.pass src u w grd) := moveWord_lt _ _ _ _ (by have h1 := u.isLt; have h2 := w.isLt; omega) (by have h1 := u.isLt; have h2 := w.isLt; omega)
theorem abs (src : BitVec 9) (u : BitVec 1) (w : BitVec 1) (grd : BitVec 6) : Statement (.abs src u w grd) := moveWord_lt _ _ _ _ (by have h1 := u.isLt; have h2 := w.isLt; omega) (by have h1 := u.isLt; have h2 := w.isLt; omega)
theorem setb (src : BitVec 9) (b : BitVec 4) (grd : BitVec 6) : Statement (.setb src b grd) := moveWord_lt _ _ _ _ (by have h1 := b.isLt; omega) (by have h1 := b.isLt; omega)
theorem addb (src : BitVec 9) (b : BitVec 4) (grd : BitVec 6) : Statement (.addb src b grd) := moveWord_lt _ _ _ _ (by have h1 := b.isLt; omega) (by have h1 := b.isLt; omega)
theorem seti (src : BitVec 9) (b : BitVec 4) (grd : BitVec 6) : Statement (.seti src b grd) := moveWord_lt _ _ _ _ (by have h1 := b.isLt; omega) (by have h1 := b.isLt; omega)
theorem setls (src : BitVec 9) (b : BitVec 4) (grd : BitVec 6) : Statement (.setls src b grd) := moveWord_lt _ _ _ _ (by have h1 := b.isLt; omega) (by have h1 := b.isLt; omega)
theorem setwrap (src : BitVec 9) (b : BitVec 4) (grd : BitVec 6) : Statement (.setwrap src b grd) := moveWord_lt _ _ _ _ (by have h1 := b.isLt; omega) (by have h1 := b.isLt; omega)
theorem rdb (src : BitVec 9) (b : BitVec 4) (grd : BitVec 6) : Statement (.rdb src b grd) := moveWord_lt _ _ _ _ (by have h1 := b.isLt; omega) (by have h1 := b.isLt; omega)
theorem settrp (src : BitVec 9) (t : BitVec 4) (grd : BitVec 6) : Statement (.settrp src t grd) := moveWord_lt _ _ _ _ (by have h1 := t.isLt; omega) (by have h1 := t.isLt; omega)
theorem rstb (src : BitVec 9) (b : BitVec 4) (grd : BitVec 6) : Statement (.rstb src b grd) := moveWord_lt _ _ _ _ (by have h1 := b.isLt; omega) (by have h1 := b.isLt; omega)
theorem jmp (src : BitVec 9) (grd : BitVec 6) : Statement (.jmp src grd) := moveWord_lt _ _ _ _ (by omega) (by omega)
theorem jmpr (src : BitVec 9) (grd : BitVec 6) : Statement (.jmpr src grd) := moveWord_lt _ _ _ _ (by omega) (by omega)
theorem call (src : BitVec 9) (grd : BitVec 6) : Statement (.call src grd) := moveWord_lt _ _ _ _ (by omega) (by omega)
theorem ret (src : BitVec 9) (grd : BitVec 6) : Statement (.ret src grd) := moveWord_lt _ _ _ _ (by omega) (by omega)
theorem loop (src : BitVec 9) (l : BitVec 3) (grd : BitVec 6) : Statement (.loop src l grd) := moveWord_lt _ _ _ _ (by have h1 := l.isLt; omega) (by have h1 := l.isLt; omega)
theorem exit (src : BitVec 9) (grd : BitVec 6) : Statement (.exit src grd) := moveWord_lt _ _ _ _ (by omega) (by omega)
theorem trap (src : BitVec 9) (grd : BitVec 6) : Statement (.trap src grd) := moveWord_lt _ _ _ _ (by omega) (by omega)
theorem tfence (src : BitVec 9) (grd : BitVec 6) : Statement (.tfence src grd) := moveWord_lt _ _ _ _ (by omega) (by omega)
theorem yieldp (src : BitVec 9) (grd : BitVec 6) : Statement (.yieldp src grd) := moveWord_lt _ _ _ _ (by omega) (by omega)
theorem brk (src : BitVec 9) (grd : BitVec 6) : Statement (.brk src grd) := moveWord_lt _ _ _ _ (by omega) (by omega)
theorem phase (src : BitVec 9) (grd : BitVec 6) : Statement (.phase src grd) := moveWord_lt _ _ _ _ (by omega) (by omega)
theorem rdsr (src : BitVec 9) (grd : BitVec 6) : Statement (.rdsr src grd) := moveWord_lt _ _ _ _ (by omega) (by omega)
theorem wrsr (src : BitVec 9) (grd : BitVec 6) : Statement (.wrsr src grd) := moveWord_lt _ _ _ _ (by omega) (by omega)
theorem clrstk (src : BitVec 9) (grd : BitVec 6) : Statement (.clrstk src grd) := moveWord_lt _ _ _ _ (by omega) (by omega)
theorem idle (src : BitVec 9) (grd : BitVec 6) : Statement (.idle src grd) := moveWord_lt _ _ _ _ (by omega) (by omega)
theorem ld8s (src : BitVec 9) (a : BitVec 2) (b : BitVec 4) (grd : BitVec 6) : Statement (.ld8s src a b grd) := moveWord_lt _ _ _ _ (by have h1 := a.isLt; have h2 := b.isLt; omega) (by have h1 := a.isLt; have h2 := b.isLt; omega)
theorem ld8u (src : BitVec 9) (a : BitVec 2) (b : BitVec 4) (grd : BitVec 6) : Statement (.ld8u src a b grd) := moveWord_lt _ _ _ _ (by have h1 := a.isLt; have h2 := b.isLt; omega) (by have h1 := a.isLt; have h2 := b.isLt; omega)
theorem ld16s (src : BitVec 9) (a : BitVec 2) (b : BitVec 4) (grd : BitVec 6) : Statement (.ld16s src a b grd) := moveWord_lt _ _ _ _ (by have h1 := a.isLt; have h2 := b.isLt; omega) (by have h1 := a.isLt; have h2 := b.isLt; omega)
theorem ld16u (src : BitVec 9) (a : BitVec 2) (b : BitVec 4) (grd : BitVec 6) : Statement (.ld16u src a b grd) := moveWord_lt _ _ _ _ (by have h1 := a.isLt; have h2 := b.isLt; omega) (by have h1 := a.isLt; have h2 := b.isLt; omega)
theorem ld32s (src : BitVec 9) (a : BitVec 2) (b : BitVec 4) (grd : BitVec 6) : Statement (.ld32s src a b grd) := moveWord_lt _ _ _ _ (by have h1 := a.isLt; have h2 := b.isLt; omega) (by have h1 := a.isLt; have h2 := b.isLt; omega)
theorem ld32u (src : BitVec 9) (a : BitVec 2) (b : BitVec 4) (grd : BitVec 6) : Statement (.ld32u src a b grd) := moveWord_lt _ _ _ _ (by have h1 := a.isLt; have h2 := b.isLt; omega) (by have h1 := a.isLt; have h2 := b.isLt; omega)
theorem ld64 (src : BitVec 9) (a : BitVec 2) (b : BitVec 4) (grd : BitVec 6) : Statement (.ld64 src a b grd) := moveWord_lt _ _ _ _ (by have h1 := a.isLt; have h2 := b.isLt; omega) (by have h1 := a.isLt; have h2 := b.isLt; omega)
theorem st8 (src : BitVec 9) (a : BitVec 2) (b : BitVec 4) (grd : BitVec 6) : Statement (.st8 src a b grd) := moveWord_lt _ _ _ _ (by have h1 := a.isLt; have h2 := b.isLt; omega) (by have h1 := a.isLt; have h2 := b.isLt; omega)
theorem st16 (src : BitVec 9) (a : BitVec 2) (b : BitVec 4) (grd : BitVec 6) : Statement (.st16 src a b grd) := moveWord_lt _ _ _ _ (by have h1 := a.isLt; have h2 := b.isLt; omega) (by have h1 := a.isLt; have h2 := b.isLt; omega)
theorem st32 (src : BitVec 9) (a : BitVec 2) (b : BitVec 4) (grd : BitVec 6) : Statement (.st32 src a b grd) := moveWord_lt _ _ _ _ (by have h1 := a.isLt; have h2 := b.isLt; omega) (by have h1 := a.isLt; have h2 := b.isLt; omega)
theorem st64 (src : BitVec 9) (a : BitVec 2) (b : BitVec 4) (grd : BitVec 6) : Statement (.st64 src a b grd) := moveWord_lt _ _ _ _ (by have h1 := a.isLt; have h2 := b.isLt; omega) (by have h1 := a.isLt; have h2 := b.isLt; omega)
theorem ldv (src : BitVec 9) (a : BitVec 2) (b : BitVec 4) (grd : BitVec 6) : Statement (.ldv src a b grd) := moveWord_lt _ _ _ _ (by have h1 := a.isLt; have h2 := b.isLt; omega) (by have h1 := a.isLt; have h2 := b.isLt; omega)
theorem stv (src : BitVec 9) (a : BitVec 2) (b : BitVec 4) (grd : BitVec 6) : Statement (.stv src a b grd) := moveWord_lt _ _ _ _ (by have h1 := a.isLt; have h2 := b.isLt; omega) (by have h1 := a.isLt; have h2 := b.isLt; omega)
theorem ldvs (src : BitVec 9) (a : BitVec 2) (b : BitVec 4) (grd : BitVec 6) : Statement (.ldvs src a b grd) := moveWord_lt _ _ _ _ (by have h1 := a.isLt; have h2 := b.isLt; omega) (by have h1 := a.isLt; have h2 := b.isLt; omega)
theorem pref (src : BitVec 9) (a : BitVec 2) (b : BitVec 4) (grd : BitVec 6) : Statement (.pref src a b grd) := moveWord_lt _ _ _ _ (by have h1 := a.isLt; have h2 := b.isLt; omega) (by have h1 := a.isLt; have h2 := b.isLt; omega)
theorem waita (src : BitVec 9) (a : BitVec 2) (b : BitVec 4) (grd : BitVec 6) : Statement (.waita src a b grd) := moveWord_lt _ _ _ _ (by have h1 := a.isLt; have h2 := b.isLt; omega) (by have h1 := a.isLt; have h2 := b.isLt; omega)
theorem aadd (src : BitVec 9) (a : BitVec 2) (b : BitVec 4) (grd : BitVec 6) : Statement (.aadd src a b grd) := moveWord_lt _ _ _ _ (by have h1 := a.isLt; have h2 := b.isLt; omega) (by have h1 := a.isLt; have h2 := b.isLt; omega)
theorem asub (src : BitVec 9) (a : BitVec 2) (b : BitVec 4) (grd : BitVec 6) : Statement (.asub src a b grd) := moveWord_lt _ _ _ _ (by have h1 := a.isLt; have h2 := b.isLt; omega) (by have h1 := a.isLt; have h2 := b.isLt; omega)
theorem aand (src : BitVec 9) (a : BitVec 2) (b : BitVec 4) (grd : BitVec 6) : Statement (.aand src a b grd) := moveWord_lt _ _ _ _ (by have h1 := a.isLt; have h2 := b.isLt; omega) (by have h1 := a.isLt; have h2 := b.isLt; omega)
theorem aor (src : BitVec 9) (a : BitVec 2) (b : BitVec 4) (grd : BitVec 6) : Statement (.aor src a b grd) := moveWord_lt _ _ _ _ (by have h1 := a.isLt; have h2 := b.isLt; omega) (by have h1 := a.isLt; have h2 := b.isLt; omega)
theorem axor (src : BitVec 9) (a : BitVec 2) (b : BitVec 4) (grd : BitVec 6) : Statement (.axor src a b grd) := moveWord_lt _ _ _ _ (by have h1 := a.isLt; have h2 := b.isLt; omega) (by have h1 := a.isLt; have h2 := b.isLt; omega)
theorem amin (src : BitVec 9) (a : BitVec 2) (b : BitVec 4) (grd : BitVec 6) : Statement (.amin src a b grd) := moveWord_lt _ _ _ _ (by have h1 := a.isLt; have h2 := b.isLt; omega) (by have h1 := a.isLt; have h2 := b.isLt; omega)
theorem amax (src : BitVec 9) (a : BitVec 2) (b : BitVec 4) (grd : BitVec 6) : Statement (.amax src a b grd) := moveWord_lt _ _ _ _ (by have h1 := a.isLt; have h2 := b.isLt; omega) (by have h1 := a.isLt; have h2 := b.isLt; omega)
theorem aminu (src : BitVec 9) (a : BitVec 2) (b : BitVec 4) (grd : BitVec 6) : Statement (.aminu src a b grd) := moveWord_lt _ _ _ _ (by have h1 := a.isLt; have h2 := b.isLt; omega) (by have h1 := a.isLt; have h2 := b.isLt; omega)
theorem amaxu (src : BitVec 9) (a : BitVec 2) (b : BitVec 4) (grd : BitVec 6) : Statement (.amaxu src a b grd) := moveWord_lt _ _ _ _ (by have h1 := a.isLt; have h2 := b.isLt; omega) (by have h1 := a.isLt; have h2 := b.isLt; omega)
theorem axchg (src : BitVec 9) (a : BitVec 2) (b : BitVec 4) (grd : BitVec 6) : Statement (.axchg src a b grd) := moveWord_lt _ _ _ _ (by have h1 := a.isLt; have h2 := b.isLt; omega) (by have h1 := a.isLt; have h2 := b.isLt; omega)
theorem acas (src : BitVec 9) (a : BitVec 2) (b : BitVec 4) (grd : BitVec 6) : Statement (.acas src a b grd) := moveWord_lt _ _ _ _ (by have h1 := a.isLt; have h2 := b.isLt; omega) (by have h1 := a.isLt; have h2 := b.isLt; omega)
theorem aincw (src : BitVec 9) (a : BitVec 2) (b : BitVec 4) (grd : BitVec 6) : Statement (.aincw src a b grd) := moveWord_lt _ _ _ _ (by have h1 := a.isLt; have h2 := b.isLt; omega) (by have h1 := a.isLt; have h2 := b.isLt; omega)
theorem afadd (src : BitVec 9) (a : BitVec 2) (b : BitVec 4) (grd : BitVec 6) : Statement (.afadd src a b grd) := moveWord_lt _ _ _ _ (by have h1 := a.isLt; have h2 := b.isLt; omega) (by have h1 := a.isLt; have h2 := b.isLt; omega)
theorem abar (src : BitVec 9) (a : BitVec 2) (b : BitVec 4) (grd : BitVec 6) : Statement (.abar src a b grd) := moveWord_lt _ _ _ _ (by have h1 := a.isLt; have h2 := b.isLt; omega) (by have h1 := a.isLt; have h2 := b.isLt; omega)
theorem ldacq (src : BitVec 9) (b : BitVec 4) (p : BitVec 3) (grd : BitVec 6) : Statement (.ldacq src b p grd) := moveWord_lt _ _ _ _ (by have h1 := b.isLt; have h2 := p.isLt; omega) (by have h1 := b.isLt; have h2 := p.isLt; omega)
theorem strel (src : BitVec 9) (b : BitVec 4) (p : BitVec 3) (grd : BitVec 6) : Statement (.strel src b p grd) := moveWord_lt _ _ _ _ (by have h1 := b.isLt; have h2 := p.isLt; omega) (by have h1 := b.isLt; have h2 := p.isLt; omega)
theorem fence (src : BitVec 9) (p : BitVec 3) (grd : BitVec 6) : Statement (.fence src p grd) := moveWord_lt _ _ _ _ (by have h1 := p.isLt; omega) (by have h1 := p.isLt; omega)
theorem svfence (src : BitVec 9) (grd : BitVec 6) : Statement (.svfence src grd) := moveWord_lt _ _ _ _ (by omega) (by omega)
theorem fencew (src : BitVec 9) (p : BitVec 3) (grd : BitVec 6) : Statement (.fencew src p grd) := moveWord_lt _ _ _ _ (by have h1 := p.isLt; omega) (by have h1 := p.isLt; omega)
theorem swfence (src : BitVec 9) (p : BitVec 3) (grd : BitVec 6) : Statement (.swfence src p grd) := moveWord_lt _ _ _ _ (by have h1 := p.isLt; omega) (by have h1 := p.isLt; omega)
theorem vadd (src : BitVec 9) (t : BitVec 3) (grd : BitVec 6) : Statement (.vadd src t grd) := moveWord_lt _ _ _ _ (by have h1 := t.isLt; omega) (by have h1 := t.isLt; omega)
theorem vsub (src : BitVec 9) (t : BitVec 3) (grd : BitVec 6) : Statement (.vsub src t grd) := moveWord_lt _ _ _ _ (by have h1 := t.isLt; omega) (by have h1 := t.isLt; omega)
theorem vmul (src : BitVec 9) (t : BitVec 3) (grd : BitVec 6) : Statement (.vmul src t grd) := moveWord_lt _ _ _ _ (by have h1 := t.isLt; omega) (by have h1 := t.isLt; omega)
theorem vmad (src : BitVec 9) (t : BitVec 3) (grd : BitVec 6) : Statement (.vmad src t grd) := moveWord_lt _ _ _ _ (by have h1 := t.isLt; omega) (by have h1 := t.isLt; omega)
theorem vmin (src : BitVec 9) (t : BitVec 3) (grd : BitVec 6) : Statement (.vmin src t grd) := moveWord_lt _ _ _ _ (by have h1 := t.isLt; omega) (by have h1 := t.isLt; omega)
theorem vmax (src : BitVec 9) (t : BitVec 3) (grd : BitVec 6) : Statement (.vmax src t grd) := moveWord_lt _ _ _ _ (by have h1 := t.isLt; omega) (by have h1 := t.isLt; omega)
theorem vabs (src : BitVec 9) (t : BitVec 3) (grd : BitVec 6) : Statement (.vabs src t grd) := moveWord_lt _ _ _ _ (by have h1 := t.isLt; omega) (by have h1 := t.isLt; omega)
theorem vneg (src : BitVec 9) (t : BitVec 3) (grd : BitVec 6) : Statement (.vneg src t grd) := moveWord_lt _ _ _ _ (by have h1 := t.isLt; omega) (by have h1 := t.isLt; omega)
theorem vand (src : BitVec 9) (t : BitVec 3) (grd : BitVec 6) : Statement (.vand src t grd) := moveWord_lt _ _ _ _ (by have h1 := t.isLt; omega) (by have h1 := t.isLt; omega)
theorem vor (src : BitVec 9) (t : BitVec 3) (grd : BitVec 6) : Statement (.vor src t grd) := moveWord_lt _ _ _ _ (by have h1 := t.isLt; omega) (by have h1 := t.isLt; omega)
theorem vxor (src : BitVec 9) (t : BitVec 3) (grd : BitVec 6) : Statement (.vxor src t grd) := moveWord_lt _ _ _ _ (by have h1 := t.isLt; omega) (by have h1 := t.isLt; omega)
theorem vshl (src : BitVec 9) (t : BitVec 3) (grd : BitVec 6) : Statement (.vshl src t grd) := moveWord_lt _ _ _ _ (by have h1 := t.isLt; omega) (by have h1 := t.isLt; omega)
theorem vshr (src : BitVec 9) (t : BitVec 3) (grd : BitVec 6) : Statement (.vshr src t grd) := moveWord_lt _ _ _ _ (by have h1 := t.isLt; omega) (by have h1 := t.isLt; omega)
theorem vcmpeq (src : BitVec 9) (t : BitVec 3) (grd : BitVec 6) : Statement (.vcmpeq src t grd) := moveWord_lt _ _ _ _ (by have h1 := t.isLt; omega) (by have h1 := t.isLt; omega)
theorem vcmplt (src : BitVec 9) (t : BitVec 3) (grd : BitVec 6) : Statement (.vcmplt src t grd) := moveWord_lt _ _ _ _ (by have h1 := t.isLt; omega) (by have h1 := t.isLt; omega)
theorem vcmple (src : BitVec 9) (t : BitVec 3) (grd : BitVec 6) : Statement (.vcmple src t grd) := moveWord_lt _ _ _ _ (by have h1 := t.isLt; omega) (by have h1 := t.isLt; omega)
theorem vsel (src : BitVec 9) (t : BitVec 3) (grd : BitVec 6) : Statement (.vsel src t grd) := moveWord_lt _ _ _ _ (by have h1 := t.isLt; omega) (by have h1 := t.isLt; omega)
theorem vrcp (src : BitVec 9) (t : BitVec 3) (grd : BitVec 6) : Statement (.vrcp src t grd) := moveWord_lt _ _ _ _ (by have h1 := t.isLt; omega) (by have h1 := t.isLt; omega)
theorem vrsq (src : BitVec 9) (t : BitVec 3) (grd : BitVec 6) : Statement (.vrsq src t grd) := moveWord_lt _ _ _ _ (by have h1 := t.isLt; omega) (by have h1 := t.isLt; omega)
theorem vexp2 (src : BitVec 9) (t : BitVec 3) (grd : BitVec 6) : Statement (.vexp2 src t grd) := moveWord_lt _ _ _ _ (by have h1 := t.isLt; omega) (by have h1 := t.isLt; omega)
theorem vlog2 (src : BitVec 9) (t : BitVec 3) (grd : BitVec 6) : Statement (.vlog2 src t grd) := moveWord_lt _ _ _ _ (by have h1 := t.isLt; omega) (by have h1 := t.isLt; omega)
theorem vred (src : BitVec 9) (t : BitVec 3) (grd : BitVec 6) : Statement (.vred src t grd) := moveWord_lt _ _ _ _ (by have h1 := t.isLt; omega) (by have h1 := t.isLt; omega)
theorem vscan (src : BitVec 9) (t : BitVec 3) (grd : BitVec 6) : Statement (.vscan src t grd) := moveWord_lt _ _ _ _ (by have h1 := t.isLt; omega) (by have h1 := t.isLt; omega)
theorem vshuf (src : BitVec 9) (t : BitVec 3) (grd : BitVec 6) : Statement (.vshuf src t grd) := moveWord_lt _ _ _ _ (by have h1 := t.isLt; omega) (by have h1 := t.isLt; omega)
theorem vbcast (src : BitVec 9) (t : BitVec 3) (grd : BitVec 6) : Statement (.vbcast src t grd) := moveWord_lt _ _ _ _ (by have h1 := t.isLt; omega) (by have h1 := t.isLt; omega)
theorem vpackg (src : BitVec 9) (t : BitVec 3) (grd : BitVec 6) : Statement (.vpackg src t grd) := moveWord_lt _ _ _ _ (by have h1 := t.isLt; omega) (by have h1 := t.isLt; omega)
theorem vclmul (src : BitVec 9) (t : BitVec 3) (grd : BitVec 6) : Statement (.vclmul src t grd) := moveWord_lt _ _ _ _ (by have h1 := t.isLt; omega) (by have h1 := t.isLt; omega)
theorem vpxor (src : BitVec 9) (t : BitVec 3) (grd : BitVec 6) : Statement (.vpxor src t grd) := moveWord_lt _ _ _ _ (by have h1 := t.isLt; omega) (by have h1 := t.isLt; omega)
theorem vtopk (src : BitVec 9) (t : BitVec 3) (grd : BitVec 6) : Statement (.vtopk src t grd) := moveWord_lt _ _ _ _ (by have h1 := t.isLt; omega) (by have h1 := t.isLt; omega)
theorem vtopkm (src : BitVec 9) (t : BitVec 3) (grd : BitVec 6) : Statement (.vtopkm src t grd) := moveWord_lt _ _ _ _ (by have h1 := t.isLt; omega) (by have h1 := t.isLt; omega)
theorem bmm (src : BitVec 9) (t : BitVec 3) (grd : BitVec 6) : Statement (.bmm src t grd) := moveWord_lt _ _ _ _ (by have h1 := t.isLt; omega) (by have h1 := t.isLt; omega)
theorem vmask (src : BitVec 9) (t : BitVec 3) (grd : BitVec 6) : Statement (.vmask src t grd) := moveWord_lt _ _ _ _ (by have h1 := t.isLt; omega) (by have h1 := t.isLt; omega)
theorem xq (src : BitVec 9) (f : BitVec 4) (grd : BitVec 6) : Statement (.xq src f grd) := moveWord_lt _ _ _ _ (by have h1 := f.isLt; omega) (by have h1 := f.isLt; omega)
theorem xqs (src : BitVec 9) (f : BitVec 4) (grd : BitVec 6) : Statement (.xqs src f grd) := moveWord_lt _ _ _ _ (by have h1 := f.isLt; omega) (by have h1 := f.isLt; omega)
theorem xdq (src : BitVec 9) (f : BitVec 4) (grd : BitVec 6) : Statement (.xdq src f grd) := moveWord_lt _ _ _ _ (by have h1 := f.isLt; omega) (by have h1 := f.isLt; omega)
theorem xsc (src : BitVec 9) (f : BitVec 4) (grd : BitVec 6) : Statement (.xsc src f grd) := moveWord_lt _ _ _ _ (by have h1 := f.isLt; omega) (by have h1 := f.isLt; omega)
theorem xf2bf (src : BitVec 9) (grd : BitVec 6) : Statement (.xf2bf src grd) := moveWord_lt _ _ _ _ (by omega) (by omega)
theorem xbf2f (src : BitVec 9) (grd : BitVec 6) : Statement (.xbf2f src grd) := moveWord_lt _ _ _ _ (by omega) (by omega)
theorem xf2h (src : BitVec 9) (grd : BitVec 6) : Statement (.xf2h src grd) := moveWord_lt _ _ _ _ (by omega) (by omega)
theorem xh2f (src : BitVec 9) (grd : BitVec 6) : Statement (.xh2f src grd) := moveWord_lt _ _ _ _ (by omega) (by omega)
theorem xf2i (src : BitVec 9) (grd : BitVec 6) : Statement (.xf2i src grd) := moveWord_lt _ _ _ _ (by omega) (by omega)
theorem xi2f (src : BitVec 9) (grd : BitVec 6) : Statement (.xi2f src grd) := moveWord_lt _ _ _ _ (by omega) (by omega)
theorem xsetf (src : BitVec 9) (f : BitVec 4) (grd : BitVec 6) : Statement (.xsetf src f grd) := moveWord_lt _ _ _ _ (by have h1 := f.isLt; omega) (by have h1 := f.isLt; omega)
theorem xgetf (src : BitVec 9) (f : BitVec 4) (grd : BitVec 6) : Statement (.xgetf src f grd) := moveWord_lt _ _ _ _ (by have h1 := f.isLt; omega) (by have h1 := f.isLt; omega)
theorem xld (src : BitVec 9) (f : BitVec 4) (grd : BitVec 6) : Statement (.xld src f grd) := moveWord_lt _ _ _ _ (by have h1 := f.isLt; omega) (by have h1 := f.isLt; omega)
theorem xst (src : BitVec 9) (f : BitVec 4) (grd : BitVec 6) : Statement (.xst src f grd) := moveWord_lt _ _ _ _ (by have h1 := f.isLt; omega) (by have h1 := f.isLt; omega)
theorem wld (src : BitVec 9) (f : BitVec 4) (grd : BitVec 6) : Statement (.wld src f grd) := moveWord_lt _ _ _ _ (by have h1 := f.isLt; omega) (by have h1 := f.isLt; omega)
theorem wclr (src : BitVec 9) (grd : BitVec 6) : Statement (.wclr src grd) := moveWord_lt _ _ _ _ (by omega) (by omega)
theorem mma (src : BitVec 9) (f : BitVec 4) (grd : BitVec 6) : Statement (.mma src f grd) := moveWord_lt _ _ _ _ (by have h1 := f.isLt; omega) (by have h1 := f.isLt; omega)
theorem mmaq (src : BitVec 9) (f : BitVec 4) (grd : BitVec 6) : Statement (.mmaq src f grd) := moveWord_lt _ _ _ _ (by have h1 := f.isLt; omega) (by have h1 := f.isLt; omega)
theorem mzero (src : BitVec 9) (grd : BitVec 6) : Statement (.mzero src grd) := moveWord_lt _ _ _ _ (by omega) (by omega)
theorem mrd (src : BitVec 9) (grd : BitVec 6) : Statement (.mrd src grd) := moveWord_lt _ _ _ _ (by omega) (by omega)
theorem mscl (src : BitVec 9) (grd : BitVec 6) : Statement (.mscl src grd) := moveWord_lt _ _ _ _ (by omega) (by omega)
theorem cpy2d (src : BitVec 9) (grd : BitVec 6) : Statement (.cpy2d src grd) := moveWord_lt _ _ _ _ (by omega) (by omega)
theorem cpym (src : BitVec 9) (grd : BitVec 6) : Statement (.cpym src grd) := moveWord_lt _ _ _ _ (by omega) (by omega)
theorem gath (src : BitVec 9) (grd : BitVec 6) : Statement (.gath src grd) := moveWord_lt _ _ _ _ (by omega) (by omega)
theorem scat (src : BitVec 9) (grd : BitVec 6) : Statement (.scat src grd) := moveWord_lt _ _ _ _ (by omega) (by omega)
theorem fill (src : BitVec 9) (grd : BitVec 6) : Statement (.fill src grd) := moveWord_lt _ _ _ _ (by omega) (by omega)
theorem kvs (src : BitVec 9) (grd : BitVec 6) : Statement (.kvs src grd) := moveWord_lt _ _ _ _ (by omega) (by omega)
theorem kvapp (src : BitVec 9) (grd : BitVec 6) : Statement (.kvapp src grd) := moveWord_lt _ _ _ _ (by omega) (by omega)
theorem kvfork (src : BitVec 9) (grd : BitVec 6) : Statement (.kvfork src grd) := moveWord_lt _ _ _ _ (by omega) (by omega)
theorem kvdrop (src : BitVec 9) (grd : BitVec 6) : Statement (.kvdrop src grd) := moveWord_lt _ _ _ _ (by omega) (by omega)
theorem nrf (src : BitVec 9) (grd : BitVec 6) : Statement (.nrf src grd) := moveWord_lt _ _ _ _ (by omega) (by omega)
theorem prism (src : BitVec 9) (grd : BitVec 6) : Statement (.prism src grd) := moveWord_lt _ _ _ _ (by omega) (by omega)
theorem migr (src : BitVec 9) (grd : BitVec 6) : Statement (.migr src grd) := moveWord_lt _ _ _ _ (by omega) (by omega)
theorem enq (src : BitVec 9) (grd : BitVec 6) : Statement (.enq src grd) := moveWord_lt _ _ _ _ (by omega) (by omega)
theorem mreb (src : BitVec 9) (grd : BitVec 6) : Statement (.mreb src grd) := moveWord_lt _ _ _ _ (by omega) (by omega)
theorem score (src : BitVec 9) (grd : BitVec 6) : Statement (.score src grd) := moveWord_lt _ _ _ _ (by omega) (by omega)
theorem rfill (src : BitVec 9) (grd : BitVec 6) : Statement (.rfill src grd) := moveWord_lt _ _ _ _ (by omega) (by omega)
theorem commandBlockRead (core : Nat) (seq : Nat) : Statement (.commandBlockRead core seq) := width_zero
theorem commandStart (core : Nat) (seq : Nat) : Statement (.commandStart core seq) := width_zero
theorem commandComplete (core : Nat) (seq : Nat) : Statement (.commandComplete core seq) := width_zero
theorem cpymFollowOn (core : Nat) (seq : Nat) : Statement (.cpymFollowOn core seq) := width_zero
theorem enqClaim (core : Nat) (seq : Nat) : Statement (.enqClaim core seq) := width_zero
theorem kvStreamHold (core : Nat) (seq : Nat) : Statement (.kvStreamHold core seq) := width_zero
theorem pslook (src : BitVec 9) (grd : BitVec 6) : Statement (.pslook src grd) := moveWord_lt _ _ _ _ (by omega) (by omega)
theorem psdep (src : BitVec 9) (grd : BitVec 6) : Statement (.psdep src grd) := moveWord_lt _ _ _ _ (by omega) (by omega)
theorem psrel (src : BitVec 9) (grd : BitVec 6) : Statement (.psrel src grd) := moveWord_lt _ _ _ _ (by omega) (by omega)
theorem pspin (src : BitVec 9) (grd : BitVec 6) : Statement (.pspin src grd) := moveWord_lt _ _ _ _ (by omega) (by omega)
theorem lpsub (src : BitVec 9) (grd : BitVec 6) : Statement (.lpsub src grd) := moveWord_lt _ _ _ _ (by omega) (by omega)
theorem lpdep (src : BitVec 9) (grd : BitVec 6) : Statement (.lpdep src grd) := moveWord_lt _ _ _ _ (by omega) (by omega)
theorem lpres (src : BitVec 9) (grd : BitVec 6) : Statement (.lpres src grd) := moveWord_lt _ _ _ _ (by omega) (by omega)
theorem lprb (src : BitVec 9) (grd : BitVec 6) : Statement (.lprb src grd) := moveWord_lt _ _ _ _ (by omega) (by omega)
theorem lpset (src : BitVec 9) (grd : BitVec 6) : Statement (.lpset src grd) := moveWord_lt _ _ _ _ (by omega) (by omega)
theorem bqpush (src : BitVec 9) (grd : BitVec 6) : Statement (.bqpush src grd) := moveWord_lt _ _ _ _ (by omega) (by omega)
theorem bqpop (src : BitVec 9) (grd : BitVec 6) : Statement (.bqpop src grd) := moveWord_lt _ _ _ _ (by omega) (by omega)
theorem bqreq (src : BitVec 9) (grd : BitVec 6) : Statement (.bqreq src grd) := moveWord_lt _ _ _ _ (by omega) (by omega)
theorem tlbinv (src : BitVec 9) (grd : BitVec 6) : Statement (.tlbinv src grd) := moveWord_lt _ _ _ _ (by omega) (by omega)
theorem ptwfence (src : BitVec 9) (grd : BitVec 6) : Statement (.ptwfence src grd) := moveWord_lt _ _ _ _ (by omega) (by omega)
theorem replay (src : BitVec 9) (grd : BitVec 6) : Statement (.replay src grd) := moveWord_lt _ _ _ _ (by omega) (by omega)
theorem logrd (src : BitVec 9) (grd : BitVec 6) : Statement (.logrd src grd) := moveWord_lt _ _ _ _ (by omega) (by omega)
theorem ctxsave (src : BitVec 9) (grd : BitVec 6) : Statement (.ctxsave src grd) := moveWord_lt _ _ _ _ (by omega) (by omega)
theorem ctxload (src : BitVec 9) (grd : BitVec 6) : Statement (.ctxload src grd) := moveWord_lt _ _ _ _ (by omega) (by omega)
theorem freezem (src : BitVec 9) (grd : BitVec 6) : Statement (.freezem src grd) := moveWord_lt _ _ _ _ (by omega) (by omega)
theorem dispq (src : BitVec 9) (grd : BitVec 6) : Statement (.dispq src grd) := moveWord_lt _ _ _ _ (by omega) (by omega)
theorem halt (src : BitVec 9) (grd : BitVec 6) : Statement (.halt src grd) := moveWord_lt _ _ _ _ (by omega) (by omega)
theorem waitf (i : BitVec 8) (c : BitVec 8) (grd : BitVec 6) : Statement (.waitf i c grd) := syncWord_lt _ _ _ _ _ _ (by have h0 := i.isLt; have h1 := c.isLt; omega) (by have h0 := i.isLt; have h1 := c.isLt; omega) (by have h0 := i.isLt; have h1 := c.isLt; omega) (by have h0 := i.isLt; have h1 := c.isLt; omega) (by have h0 := i.isLt; have h1 := c.isLt; omega)
theorem postf (i : BitVec 8) (c : BitVec 8) (e : BitVec 1) (r : BitVec 5) (grd : BitVec 6) : Statement (.postf i c e r grd) := syncWord_lt _ _ _ _ _ _ (by have h0 := i.isLt; have h1 := c.isLt; have h2 := e.isLt; have h3 := r.isLt; omega) (by have h0 := i.isLt; have h1 := c.isLt; have h2 := e.isLt; have h3 := r.isLt; omega) (by have h0 := i.isLt; have h1 := c.isLt; have h2 := e.isLt; have h3 := r.isLt; omega) (by have h0 := i.isLt; have h1 := c.isLt; have h2 := e.isLt; have h3 := r.isLt; omega) (by have h0 := i.isLt; have h1 := c.isLt; have h2 := e.isLt; have h3 := r.isLt; omega)
theorem waite (i : BitVec 8) (grd : BitVec 6) : Statement (.waite i grd) := syncWord_lt _ _ _ _ _ _ (by have h0 := i.isLt; omega) (by have h0 := i.isLt; omega) (by have h0 := i.isLt; omega) (by have h0 := i.isLt; omega) (by have h0 := i.isLt; omega)
theorem sete (i : BitVec 8) (grd : BitVec 6) : Statement (.sete i grd) := syncWord_lt _ _ _ _ _ _ (by have h0 := i.isLt; omega) (by have h0 := i.isLt; omega) (by have h0 := i.isLt; omega) (by have h0 := i.isLt; omega) (by have h0 := i.isLt; omega)
theorem clre (i : BitVec 8) (grd : BitVec 6) : Statement (.clre i grd) := syncWord_lt _ _ _ _ _ _ (by have h0 := i.isLt; omega) (by have h0 := i.isLt; omega) (by have h0 := i.isLt; omega) (by have h0 := i.isLt; omega) (by have h0 := i.isLt; omega)
theorem waitt (i : BitVec 8) (grd : BitVec 6) : Statement (.waitt i grd) := syncWord_lt _ _ _ _ _ _ (by have h0 := i.isLt; omega) (by have h0 := i.isLt; omega) (by have h0 := i.isLt; omega) (by have h0 := i.isLt; omega) (by have h0 := i.isLt; omega)
theorem barg (i : BitVec 8) (grd : BitVec 6) : Statement (.barg i grd) := syncWord_lt _ _ _ _ _ _ (by have h0 := i.isLt; omega) (by have h0 := i.isLt; omega) (by have h0 := i.isLt; omega) (by have h0 := i.isLt; omega) (by have h0 := i.isLt; omega)
theorem barq (i : BitVec 8) (grd : BitVec 6) : Statement (.barq i grd) := syncWord_lt _ _ _ _ _ _ (by have h0 := i.isLt; omega) (by have h0 := i.isLt; omega) (by have h0 := i.isLt; omega) (by have h0 := i.isLt; omega) (by have h0 := i.isLt; omega)
theorem waitl (i : BitVec 8) (grd : BitVec 6) : Statement (.waitl i grd) := syncWord_lt _ _ _ _ _ _ (by have h0 := i.isLt; omega) (by have h0 := i.isLt; omega) (by have h0 := i.isLt; omega) (by have h0 := i.isLt; omega) (by have h0 := i.isLt; omega)
theorem syncWaitSatisfied (core : Nat) : Statement (.syncWaitSatisfied core) := width_zero
theorem flagPostArrival (core : Nat) (flag : Nat) (n : Nat) : Statement (.flagPostArrival core flag n) := width_zero
theorem eventBitWrite (die : Nat) (ctx : Nat) (bit : Nat) (set : Bool) : Statement (.eventBitWrite die ctx bit set) := width_zero
theorem barrierRelease (launch : Nat) (die : Nat) (group : Nat) (quad : Nat) (idx : Nat) : Statement (.barrierRelease launch die group quad idx) := width_zero
theorem ldk (k : BitVec 5) (b : BitVec 4) (o : BitVec 13) (grd : BitVec 6) : Statement (.ldk k b o grd) := kWord_lt _ _ _ _ _ (by have h0 := k.isLt; have h1 := b.isLt; have h2 := o.isLt; omega) (by have h0 := k.isLt; have h1 := b.isLt; have h2 := o.isLt; omega) (by have h0 := k.isLt; have h1 := b.isLt; have h2 := o.isLt; omega)
theorem ldk1 (k : BitVec 5) (b : BitVec 4) (o : BitVec 13) (grd : BitVec 6) : Statement (.ldk1 k b o grd) := kWord_lt _ _ _ _ _ (by have h0 := k.isLt; have h1 := b.isLt; have h2 := o.isLt; omega) (by have h0 := k.isLt; have h1 := b.isLt; have h2 := o.isLt; omega) (by have h0 := k.isLt; have h1 := b.isLt; have h2 := o.isLt; omega)
theorem mvk (k : BitVec 5) (j : BitVec 5) (grd : BitVec 6) : Statement (.mvk k j grd) := kWord_lt _ _ _ _ _ (by have h0 := k.isLt; have h1 := j.isLt; omega) (by have h0 := k.isLt; have h1 := j.isLt; omega) (by have h0 := k.isLt; have h1 := j.isLt; omega)
theorem stk (k : BitVec 5) (b : BitVec 4) (o : BitVec 13) (grd : BitVec 6) : Statement (.stk k b o grd) := kWord_lt _ _ _ _ _ (by have h0 := k.isLt; have h1 := b.isLt; have h2 := o.isLt; omega) (by have h0 := k.isLt; have h1 := b.isLt; have h2 := o.isLt; omega) (by have h0 := k.isLt; have h1 := b.isLt; have h2 := o.isLt; omega)
theorem linkFifoWait (core : Nat) : Statement (.linkFifoWait core) := width_zero
theorem launchPacket (die : Nat) (queue : Nat) : Statement (.launchPacket die queue) := width_zero
theorem nopPacket (die : Nat) (queue : Nat) : Statement (.nopPacket die queue) := width_zero
theorem reservedPacket (die : Nat) (queue : Nat) : Statement (.reservedPacket die queue) := width_zero
theorem launchEligible (launch : Nat) : Statement (.launchEligible launch) := width_zero
theorem taskBind (launch : Nat) (core : Nat) : Statement (.taskBind launch core) := width_zero
theorem gangStart (launch : Nat) : Statement (.gangStart launch) := width_zero
theorem launchComplete (launch : Nat) : Statement (.launchComplete launch) := width_zero
theorem preemptionDecision (die : Nat) : Statement (.preemptionDecision die) := width_zero
theorem checkpointSave (launch : Nat) : Statement (.checkpointSave launch) := width_zero
theorem launchRestore (launch : Nat) : Statement (.launchRestore launch) := width_zero
theorem kill (launch : Nat) : Statement (.kill launch) := width_zero
theorem sliceEnd (launch : Nat) : Statement (.sliceEnd launch) := width_zero
theorem classAging (launch : Nat) : Statement (.classAging launch) := width_zero
theorem tokenRefill (die : Nat) : Statement (.tokenRefill die) := width_zero
theorem launchOverdue (launch : Nat) : Statement (.launchOverdue launch) := width_zero
theorem carafeStore (slot : Nat) (off : Nat) (bytes : List Byte) : Statement (.carafeStore slot off bytes) := width_zero
theorem carafeInterlockRelease (slot : Nat) : Statement (.carafeInterlockRelease slot) := width_zero
theorem loupeAdmission (lseq : Nat) : Statement (.loupeAdmission lseq) := width_zero
theorem loupeCommit (lseq : Nat) : Statement (.loupeCommit lseq) := width_zero
theorem baristaRequestServe (slot : Nat) (reply : BitVec 512) (token : BitVec 24) : Statement (.baristaRequestServe slot reply token) := width_zero
theorem bridgeDelivery (src : Nat) (dst : Nat) : Statement (.bridgeDelivery src dst) := width_zero
theorem prismReadAtOwner (req : Nat) : Statement (.prismReadAtOwner req) := width_zero
theorem prismDeposit (req : Nat) : Statement (.prismDeposit req) := width_zero
theorem prismAccepted (req : Nat) (status : Nat) : Statement (.prismAccepted req status) := width_zero
theorem pageMove (core : Nat) (seq : Nat) : Statement (.pageMove core seq) := width_zero
theorem mirrorDeltaApply (region : Nat) (line : Nat) (shard : Nat) (delta : BitVec 512) : Statement (.mirrorDeltaApply region line shard delta) := width_zero
theorem mirrorDeltaAck (id : Nat) (pkg : Nat) : Statement (.mirrorDeltaAck id pkg) := width_zero
theorem powerWindowCheck (core : Nat) : Statement (.powerWindowCheck core) := width_zero
theorem gangFreezePropagate (launch : Nat) : Statement (.gangFreezePropagate launch) := width_zero
theorem fabricFrameFreeze : Statement (.fabricFrameFreeze ) := width_zero
theorem debugFreeze : Statement (.debugFreeze ) := width_zero
theorem slotDeparture (port : Nat) : Statement (.slotDeparture port) := width_zero
theorem frameBoundary : Statement (.frameBoundary ) := width_zero
theorem schedFlitReceive (port : Nat) (flit : Flit) : Statement (.schedFlitReceive port flit) := width_zero
theorem memFlitReceive (port : Nat) (flit : Flit) : Statement (.memFlitReceive port flit) := width_zero
theorem bounceReceive (port : Nat) (flit : Flit) : Statement (.bounceReceive port flit) := width_zero
theorem reductionInput (plane : Nat) (port : Nat) (flit : Flit) : Statement (.reductionInput plane port flit) := width_zero
theorem reductionDeadline (plane : Nat) (group : Nat) : Statement (.reductionDeadline plane group) := width_zero
theorem switchTableLoad (plane : Nat) (table : SwitchTable) : Statement (.switchTableLoad plane table) := width_zero
theorem scaleoutMem (peer : Nat) (flit : Flit) : Statement (.scaleoutMem peer flit) := width_zero
theorem hostWrite (off : Nat) (bytes : List Byte) : Statement (.hostWrite off bytes) := width_zero
theorem hostRead (off : Nat) (n : Nat) : Statement (.hostRead off n) := width_zero
theorem hostAtomicop (off : Nat) (op : Nat) (a : U64) (b : U64) : Statement (.hostAtomicop off op a b) := width_zero
theorem regrd : Statement (.regrd ) := width_zero
theorem regwr : Statement (.regwr ) := width_zero
theorem registerWrite (block : Nat) (die : Nat) (num : Nat) (val : U64) : Statement (.registerWrite block die num val) := width_zero
theorem go : Statement (.go ) := width_zero
theorem fwcommit : Statement (.fwcommit ) := width_zero
theorem start : Statement (.start ) := width_zero
theorem attestationReport : Statement (.attestationReport ) := width_zero
theorem reatt (port : Nat) : Statement (.reatt port) := width_zero
theorem portAttestation (port : Nat) (peer : PeerAnswer) (secret : BitVec 256) (nonces : BitVec 512) :
    Statement (.portAttestation port peer secret nonces) := width_zero
theorem freeze : Statement (.freeze ) := width_zero
theorem resume : Statement (.resume ) := width_zero
theorem load (port : Nat) : Statement (.load port) := width_zero
theorem viewfinderUnlock (sig : List Byte) : Statement (.viewfinderUnlock sig) := width_zero
theorem viewfinderFreeze : Statement (.viewfinderFreeze ) := width_zero
theorem viewfinderRead (sel : Nat) (off : Nat) (n : Nat) : Statement (.viewfinderRead sel off n) := width_zero
theorem idcode : Statement (.idcode ) := width_zero
theorem coldStart (image : List Byte) : Statement (.coldStart image) := width_zero
theorem stageMemory (ok : Bool) : Statement (.stageMemory ok) := width_zero
theorem stageCores (ok : Bool) : Statement (.stageCores ok) := width_zero
theorem stageFull : Statement (.stageFull ) := width_zero
theorem storePerformedAtHome (core : Nat) (id : Nat) : Statement (.storePerformedAtHome core id) := width_zero
theorem cacheEviction (kind : Nat) (owner : Nat) (line : Nat) : Statement (.cacheEviction kind owner line) := width_zero
theorem kvsTileReady (core : Nat) (seq : Nat) (tile : Nat) : Statement (.kvsTileReady core seq tile) := width_zero
theorem streamHoldFall (core : Nat) (seq : Nat) : Statement (.streamHoldFall core seq) := width_zero
theorem prismFaultReturn (req : Nat) (status : Nat) : Statement (.prismFaultReturn req status) := width_zero
theorem linkFramingAligned (port : Nat) : Statement (.linkFramingAligned port) := width_zero
theorem haltedCoreReturn (core : Nat) : Statement (.haltedCoreReturn core) := width_zero

end Sys2Proof.Laws.Width
end

