-- ==== Sys2Proof/Tests/Slice0.lean ====
section
/-! SUPPORT. Checks by hand: ill-formed terms that the checks refuse, words of the spec's encoding tables with the instructions that they
stand for, and the worked examples of the spec. -/

set_option linter.unusedVariables false
set_option Elab.async false
set_option maxRecDepth 20000

namespace Sys2Proof.Tests

open Sys2Proof Sys2Proof.Machine

/-! ## Ill-formed terms, one for each check -/

/-- R93: guards 24 to 30 and 56 to 62 are reserved. -/
theorem smoke_guard : (Instr.add 1 0 0 24).wf = false ∧ (Instr.add 1 0 0 62).wf = false ∧ (Instr.add 1 0 0 23).wf = true := by decide

/-- R95: source codes 0x06C to 0x06F and 0x088 to 0x0FF are reserved on the scalar bus. -/
theorem smoke_source_m : (Instr.add 0x6C 0 0 31).wf = false ∧ (Instr.add 0x88 0 0 31).wf = false ∧ (Instr.add 0x100 0 0 31).wf = true := by decide

/-- R96: source codes 0x038 to 0x03F and 0x047 to 0x0FF are reserved on the vector bus. -/
theorem smoke_source_w : (Instr.vadd 0x38 6 31).wf = false ∧ (Instr.vadd 0x47 6 31).wf = false ∧ (Instr.vadd 0x46 6 31).wf = true := by decide

/-- R95, R96: destinations of a plain move. -/
theorem smoke_destination : (Instr.move false 1 0x58 31).wf = false ∧ (Instr.move true 1 0x46 31).wf = false ∧
    (Instr.move false 1 0x57 31).wf = true := by decide

/-- R99: a flag is 0 to 31, a barrier index 0 to 3, a link queue 0 to 7, and an event post names no core. -/
theorem smoke_sync : (Instr.waitf 32 1 31).wf = false ∧ (Instr.postf 32 1 0 0 31).wf = false ∧ (Instr.postf 3 1 1 1 31).wf = false ∧
    (Instr.barg 4 31).wf = false ∧ (Instr.barq 4 31).wf = false ∧ (Instr.waitl 8 31).wf = false := by decide

/-- R101: FENCE at scope 7 is SVFENCE, an instruction of its own. -/
theorem smoke_fence : (Instr.fence 0x58 7 31).wf = false ∧ (Instr.fence 0x58 6 31).wf = true := by decide

/-! ## Words of the encoding tables

Each word is a row's fixed bits with values put into its fields, in the bit places that the table of encodings gives them. -/

theorem test_decode_m_move :
    [0x00104003].map (decodeSlot .m) =
    [some (.move false 0 65 3)] := by rfl

theorem test_decode_w_move :
    [0x00104003].map (decodeSlot .w) =
    [some (.move true 0 65 3)] := by rfl

theorem test_decode_m_a0_0 :
    [0x0BB00023, 0xF830007F, 0x02B0609F, 0x003000C3, 0x0BB00123, 0xF830617F, 0x02B0619F, 0x003001C3, 0x0BB06223, 0xF830627F, 0x02B0029F, 0x003062C3, 0x0BB06323, 0xF830037F, 0x02B0039F, 0x003063C3].map (decodeSlot .m) =
    [some (.add 23 0 0 35), some (.sub 496 0 0 63), some (.and 5 1 1 31), some (.or 0 0 0 3), some (.xor 23 0 0 35), some (.andn 496 1 1 63), some (.shl 5 1 1 31), some (.shr 0 0 0 3), some (.sar 23 1 1 35), some (.rol 496 1 1 63), some (.ror 5 0 0 31), some (.min 0 1 1 3), some (.max 23 1 1 35), some (.minu 496 0 0 63), some (.maxu 5 0 0 31), some (.clz 0 1 1 3)] := by rfl

theorem test_decode_m_a0_1 :
    [0x0BB00423, 0xF830047F, 0x02B0649F, 0x003064C3, 0x0BB00523, 0xF830657F, 0x02B0659F, 0x003005C3, 0x0BB06623, 0xF830667F, 0x02B0069F, 0x003006C3, 0x0BB06723, 0xF830077F, 0x02B0079F, 0x003067C3].map (decodeSlot .m) =
    [some (.ctz 23 0 0 35), some (.popc 496 0 0 63), some (.mul 5 1 1 31), some (.mulhs 0 1 1 3), some (.mulhu 23 0 0 35), some (.divs 496 1 1 63), some (.divu 5 1 1 31), some (.rems 0 0 0 3), some (.remu 23 1 1 35), some (.addsat 496 1 1 63), some (.subsat 5 0 0 31), some (.clmul 0 0 0 3), some (.clmulh 23 1 1 35), some (.pxor 496 0 0 63), some (.pext 5 0 0 31), some (.pdep 0 1 1 3)] := by rfl

theorem test_decode_m_a0_2 :
    [0x0BB06823, 0xF830087F, 0x02B0689F, 0x003068C3, 0x0BB00923, 0xF830697F, 0x02B0699F, 0x003009C3, 0x0BB00A23, 0xF8306A7F, 0x02B00A9F, 0x00300AC3].map (decodeSlot .m) =
    [some (.sext 23 1 1 35), some (.zext 496 0 0 63), some (.eq 5 1 1 31), some (.ne 0 1 1 3), some (.lt 23 0 0 35), some (.le 496 1 1 63), some (.ltu 5 1 1 31), some (.leu 0 0 0 3), some (.hmix 23 0 0 35), some (.bswap 496 1 1 63), some (.pass 5 0 0 31), some (.abs 0 0 0 3)] := by rfl

theorem test_decode_m_au :
    [0x0BB0AC23, 0xF830B87F, 0x02B0889F, 0x003094C3, 0x0BB0A523, 0xF830B17F, 0x02B0BD9F, 0x00308DC3].map (decodeSlot .m) =
    [some (.setb 23 11 35), some (.addb 496 14 63), some (.seti 5 2 31), some (.setls 0 5 3), some (.setwrap 23 9 35), some (.rdb 496 12 63), some (.settrp 5 15 31), some (.rstb 0 3 3)] := by rfl

theorem test_decode_m_c :
    [0x0BB0C023, 0xF830C07F, 0x02B0C09F, 0x0030C0C3, 0x0BB0C323, 0xF830C43F, 0x02B0C45F, 0x0030C483, 0x0BB0C4E3, 0xF830C53F, 0x02B0C55F, 0x0030C583, 0x0BB0C5E3, 0xF830C67F, 0x02B0C69F].map (decodeSlot .m) =
    [some (.jmp 23 35), some (.jmpr 496 63), some (.call 5 31), some (.ret 0 3), some (.loop 23 4 35), some (.exit 496 63), some (.trap 5 31), some (.tfence 0 3), some (.yieldp 23 35), some (.brk 496 63), some (.phase 5 31), some (.rdsr 0 3), some (.wrsr 23 35), some (.clrstk 496 63), some (.idle 5 31)] := by rfl

theorem test_decode_m_l :
    [0x00316403, 0x0BB13063, 0xF83100BF, 0x02B1CCDF, 0x00319903, 0x0BB1A963, 0xF83175BF, 0x02B145DF, 0x00311203, 0x0BB1DE63, 0xF831EEBF, 0x02B1BADF, 0x00318B03, 0x0BB15763, 0xF83123BF, 0x02B133DF].map (decodeSlot .m) =
    [some (.ld8s 0 1 9 3), some (.ld8u 23 0 12 35), some (.ld16s 496 0 0 63), some (.ld16u 5 3 3 31), some (.ld32s 0 2 6 3), some (.ld32u 23 2 10 35), some (.ld64 496 1 13 63), some (.st8 5 1 1 31), some (.st16 0 0 4 3), some (.st32 23 3 7 35), some (.st64 496 3 11 63), some (.ldv 5 2 14 31), some (.stv 0 2 2 3), some (.ldvs 23 1 5 35), some (.pref 496 0 8 63), some (.waita 5 0 12 31)] := by rfl

theorem test_decode_m_at :
    [0x0032FC03, 0x0BB28863, 0xF83298BF, 0x02B264DF, 0x00327503, 0x0BB20163, 0xF832CDBF, 0x02B2DDDF, 0x0032AA03, 0x0BB27663, 0xF83246BF, 0x02B212DF, 0x00322303, 0x0BB2EF63].map (decodeSlot .m) =
    [some (.aadd 0 3 15 3), some (.asub 23 2 2 35), some (.aand 496 2 6 63), some (.aor 5 1 9 31), some (.axor 0 1 13 3), some (.amin 23 0 0 35), some (.amax 496 3 3 63), some (.aminu 5 3 7 31), some (.amaxu 0 2 10 3), some (.axchg 23 1 13 35), some (.acas 496 1 1 63), some (.aincw 5 0 4 31), some (.afadd 0 0 8 3), some (.abar 23 3 11 35)] := by rfl

theorem test_decode_m_ra :
    [0xF8333B3F, 0x02B3095F].map (decodeSlot .m) =
    [some (.ldacq 496 14 6 63), some (.strel 5 2 2 31)] := by rfl

theorem test_decode_m_fe :
    [0x00334143, 0x0BB341E3, 0xF833433F, 0x02B345DF].map (decodeSlot .m) =
    [some (.fence 0 5 3), some (.svfence 23 35), some (.fencew 496 4 63), some (.swfence 5 7 31)] := by rfl

theorem test_decode_w_v_0 :
    [0x003000C3, 0x0BB003A3, 0xF830047F, 0x02B0075F, 0x00300803, 0x0BB00B23, 0xF8300DFF, 0x02B00E9F, 0x00301183, 0x0BB01263, 0xF830157F, 0x02B0161F, 0x003018C3, 0x0BB01BE3, 0xF8301CBF, 0x02B01F5F].map (decodeSlot .w) =
    [some (.vadd 0 3 3), some (.vsub 23 6 35), some (.vmul 496 1 63), some (.vmad 5 5 31), some (.vmin 0 0 3), some (.vmax 23 4 35), some (.vabs 496 7 63), some (.vneg 5 2 31), some (.vand 0 6 3), some (.vor 23 1 35), some (.vxor 496 5 63), some (.vshl 5 0 31), some (.vshr 0 3 3), some (.vcmpeq 23 7 35), some (.vcmplt 496 2 63), some (.vcmple 5 5 31)] := by rfl

theorem test_decode_w_v_1 :
    [0x00302043, 0x0BB02323, 0xF830243F, 0x02B026DF, 0x00302983, 0x0BB02AA3, 0xF8302D7F, 0x02B02E5F, 0x00303103, 0x0BB033E3, 0xF83034FF, 0x02B0379F, 0x00303843, 0x0BB03B63, 0xF8303C3F, 0x02B03F1F].map (decodeSlot .w) =
    [some (.vsel 0 1 3), some (.vrcp 23 4 35), some (.vrsq 496 0 63), some (.vexp2 5 3 31), some (.vlog2 0 6 3), some (.vred 23 2 35), some (.vscan 496 5 63), some (.vshuf 5 1 31), some (.vbcast 0 4 3), some (.vpackg 23 7 35), some (.vclmul 496 3 63), some (.vpxor 5 6 31), some (.vtopk 0 1 3), some (.vtopkm 23 5 35), some (.bmm 496 0 63), some (.vmask 5 4 31)] := by rfl

theorem test_decode_w_x :
    [0x003043C3, 0x0BB044A3, 0xF83049BF, 0x02B04E5F, 0x00305003, 0x0BB05423, 0xF830583F, 0x02B05C1F, 0x00306003, 0x0BB06423, 0xF830687F, 0x02B06D1F, 0x00307203, 0x0BB076E3].map (decodeSlot .w) =
    [some (.xq 0 15 3), some (.xqs 23 2 35), some (.xdq 496 6 63), some (.xsc 5 9 31), some (.xf2bf 0 3), some (.xbf2f 23 35), some (.xf2h 496 63), some (.xh2f 5 31), some (.xf2i 0 3), some (.xi2f 23 35), some (.xsetf 496 1 63), some (.xgetf 5 4 31), some (.xld 0 8 3), some (.xst 23 11 35)] := by rfl

theorem test_decode_w_m :
    [0xF83083BF, 0x02B0841F, 0x00308943, 0x0BB08E23, 0xF830903F, 0x02B0941F, 0x00309803].map (decodeSlot .w) =
    [some (.wld 496 14 63), some (.wclr 5 31), some (.mma 0 5 3), some (.mmaq 23 8 35), some (.mzero 496 63), some (.mrd 5 31), some (.mscl 0 3)] := by rfl

theorem test_decode_m_d :
    [0x0BB38023, 0xF833807F, 0x02B3809F, 0x003380C3, 0x0BB38123, 0xF833817F, 0x02B3819F, 0x003381C3, 0x0BB38223, 0xF833827F, 0x02B3829F, 0x003382C3, 0x0BB38323, 0xF833837F, 0x02B3839F, 0x003383C3].map (decodeSlot .m) =
    [some (.cpy2d 23 35), some (.cpym 496 63), some (.gath 5 31), some (.scat 0 3), some (.fill 23 35), some (.kvs 496 63), some (.kvapp 5 31), some (.kvfork 0 3), some (.kvdrop 23 35), some (.nrf 496 63), some (.prism 5 31), some (.migr 0 3), some (.enq 23 35), some (.mreb 496 63), some (.score 5 31), some (.rfill 0 3)] := by rfl

theorem test_decode_m_ps :
    [0x0BB3C023, 0xF833C07F, 0x02B3C09F, 0x0033C0C3].map (decodeSlot .m) =
    [some (.pslook 23 35), some (.psdep 496 63), some (.psrel 5 31), some (.pspin 0 3)] := by rfl

theorem test_decode_m_lp :
    [0x0BB40023, 0xF834007F, 0x02B4009F, 0x003400C3, 0x0BB40123].map (decodeSlot .m) =
    [some (.lpsub 23 35), some (.lpdep 496 63), some (.lpres 5 31), some (.lprb 0 3), some (.lpset 23 35)] := by rfl

theorem test_decode_m_bq :
    [0xF834403F, 0x02B4405F, 0x00344083].map (decodeSlot .m) =
    [some (.bqpush 496 63), some (.bqpop 5 31), some (.bqreq 0 3)] := by rfl

theorem test_decode_m_sys :
    [0x0BB48023, 0xF834807F, 0x02B4809F, 0x003480C3, 0x0BB48123, 0xF834817F, 0x02B4819F, 0x003481C3, 0x0BB48223].map (decodeSlot .m) =
    [some (.tlbinv 23 35), some (.ptwfence 496 63), some (.replay 5 31), some (.logrd 0 3), some (.ctxsave 23 35), some (.ctxload 496 63), some (.freezem 5 31), some (.dispq 0 3), some (.halt 23 35)] := by rfl

theorem test_decode_sync_sync :
    [0x11D6383F, 0x21E575DF, 0x4C800803, 0x5C800823, 0x6C80083F, 0x7C80081F, 0x80300803, 0x90200823, 0xA070083F].map (decodeSlot .sync) =
    [some (.waitf 29 99 63), some (.postf 30 87 0 23 31), some (.waite 200 3), some (.sete 200 35), some (.clre 200 63), some (.waitt 200 31), some (.barg 3 3), some (.barq 2 35), some (.waitl 7 63)] := by rfl

theorem test_decode_k_ks :
    [0x09127C9F, 0x12AE3943, 0x2C000623, 0x3665B33F].map (decodeSlot .k) =
    [some (.ldk 18 2 2546 31), some (.ldk1 5 5 6373 3), some (.mvk 24 24 35), some (.stk 12 12 5836 63)] := by rfl


/-! ## Worked examples of the spec -/

/-- The values of the bit-field and 32-bit forms after R128. -/
theorem test_bit_fields :
    aluClmul 0xB 6 64 = 0x3A ∧ aluPxor 0 0x44 64 = 0x3C ∧ aluPext 0xF0F0 0xFF0 64 = 0xF ∧ aluPdep 0xB5 0xF0F 64 = 0xB05 ∧
      aluWiden (aluAdd 0x7FFFFFFF 1 32) 32 = 0xFFFFFFFF80000000 ∧ aluWiden (aluDivs 0x80000000 0xFFFFFFFFFFFFFFFF 32) 32 = 0xFFFFFFFF80000000 ∧
      aluSext 0xF0 8 64 = 0xFFFFFFFFFFFFFFF0 := by decide +kernel

/-- R126: division by zero, and the most negative value by −1. -/
theorem test_division : aluDivs 7 0 64 = 2 ^ 64 - 1 ∧ aluRems 7 0 64 = 7 ∧ aluDivs (2 ^ 63) (2 ^ 64 - 1) 64 = 2 ^ 63 ∧
    aluRems (2 ^ 63) (2 ^ 64 - 1) 64 = 0 ∧ aluRems (2 ^ 64 - 7) 2 64 = 2 ^ 64 - 1 := by decide +kernel

/-- The format E2M1 with BIAS 1 under a SPEC. -/
def e2m1 (spec : Nat) : Fmt := { s := 1, e := 2, m := 1, bias := 1, spec := spec }

/-- The five values into E2M1 before R80: 2.5, 5.0, 7.5 and −0.2. -/
theorem test_into_e2m1 :
    (encNarrowFin (e2m1 0) .rne false 5 2 0).1 = 4 ∧ (encNarrowFin (e2m1 0) .ru false 5 2 0).1 = 5 ∧ (encNarrowFin (e2m1 0) .rne false 5 1 0).1 = 6 ∧
    (encNarrowFin (e2m1 0) (.sr 0x80) false 5 2 0).1 = 5 ∧ (encNarrowFin (e2m1 0) (.sr 0x7F) false 5 2 0).1 = 4 ∧
    (encNarrowFin (e2m1 0) .rne false 15 2 0).1 = 7 ∧ (encNarrowFin (e2m1 1) .rne false 15 2 0).1 = 6 ∧
    (encNarrowFin (e2m1 0) .rne true 1 5 0).1 = 8 ∧ (encNarrowFin (e2m1 2) .rne true 1 5 0).1 = 0 := by decide +kernel

/-- The circular history buffer after R56: the eighth step wraps, and ADDB of −4 then goes back. -/
theorem test_wrap :
    let b : BaseReg := { val := 0x800000000000200E, stp := 2, wrap := 16, org := 0x8000000000002000 }
    b.stepOnce.val = 0x8000000000002000 ∧ (b.stepOnce.move (-4)).val = 0x800000000000200C := by decide +kernel

/-- The tile task 37 after R31: its coordinates and its base registers. -/
theorem test_coordinates :
    let level (kind trip s1 s2 : Nat) : LoopLevel :=
      { kind := kind, trip := trip, strides := [0, BitVec.ofNat 64 s1, BitVec.ofNat 64 s2] ++ List.replicate 13 0 }
    let im : Image := { placeImage with levels := [level 1 4 0x40000 0, level 1 16 0x1000 0x40, level 0 8 0x100 0] }
    im.nTasks = 64 ∧ im.tcx 37 = 0x50002 ∧ im.baseStart 37 1 0x4000000000 = 0x4000085000 ∧ im.baseStart 37 2 0x4100000000 = 0x4100000140 := by
  decide +kernel

/-- Ties, zeros and NaN after R200: VTOPK with K = 8. -/
theorem test_topk :
    let x : VIn := {
      t := 6, a := pack 32 [0x40400000, 0x40A00000, 0x40A00000, 0x7FC00000, 0x80000000, 0, 0x40A00000, 0x3F800000],
      b := pack 32 [10, 12, 4, 7, 8, 9, 4, 3], c := 0, ctl := 8, active := 0xFF, vr := 0, vr2 := 0, rows := [], lgl := 0 }
    let o := vTopk x
    (o.r.map (fun r => (List.range 8).map (elem 32 r))) =
      some [0x40A00000, 0x40A00000, 0x40A00000, 0x40400000, 0x3F800000, 0, 0x80000000, 0x7FC00000] ∧
    (o.r2.map (fun r => (List.range 8).map (elem 32 r))) = some [4, 4, 12, 10, 3, 9, 8, 7] ∧ o.s = some 8 := by decide +kernel

/-- Three steps of AR after R289. -/
theorem test_acceptance_rate : nextAr 0x8000 3 4 = 0x8400 ∧ nextAr 0x8400 0 5 = 0x7BC0 ∧ nextAr 0x7BC0 5 5 = 0x8403 := by decide +kernel

/-- One delta after R336: c(0, 0) is 0xD8. -/
theorem test_cauchy : cauchy 0 0 = 0xD8 ∧ gfMul 0x10 0xD8 = 1 := by decide +kernel

/-! ## The next step runs the table word -/

/-- The word that R129 gives for `#2 -> au.seti, b4` is the first instruction of the placed bundle, and STEP of b4 becomes 2. -/
theorem test_fetch_word :
    (match step (State.reset.withFetchWord 32 0x8130909F) with | .next t => ((t.core 0).b.getD 4 {}).stp == 2 | _ => false) = true := by
  decide +kernel

end Sys2Proof.Tests
end

