-- ==== Sys2Proof/Tests/Witness.lean ====
section
/-! SUPPORT. For every statement that has hypotheses, states and operands that meet them together, clause by clause. -/

set_option linter.unusedVariables false
set_option Elab.async false
set_option maxRecDepth 100000

namespace Sys2Proof.Tests

open Sys2Proof.Machine Sys2Proof.Claims

/-! ## The bench: one task on core 0, alone -/

/-- The conditions of `State.Clear`, as a test. -/
def clearB (s : State) (i : Instr) : Bool :=
  (s.me.status == .run) && (s.me.tagged || !(s.launch s.me.launch).stopping) && i.wf && i.holds s.me.p &&
  (s.roleStop s.cur (oneSlot i).slots).isNone && !s.linkBlocked s.cur [s.act1 i] && s.me.held.isEmpty && s.me.stL.isNone && s.me.stX.isNone &&
  s.me.stM.isNone && (s.me.rep == 0) && ((s.latchMove (s.act1 i)).actWait (s.act1 i) == .go) &&
  (!(s.coreCtx s.cur).schk || !(s.act1 i).ic.pre.early ((s.latchMove (s.act1 i)).core s.cur).unjoined i)

theorem clear_of (s : State) (i : Instr) (h : clearB s i = true) : s.Clear i := by
  simp only [clearB, Bool.and_eq_true, Bool.or_eq_true, Bool.not_eq_true', beq_iff_eq, Option.isNone_iff_eq_none, List.isEmpty_iff] at h
  obtain ⟨⟨⟨⟨⟨⟨⟨⟨⟨⟨⟨⟨h1, h2⟩, h3⟩, h4⟩, h5⟩, h6⟩, h7⟩, h8⟩, h9⟩, h10⟩, h11⟩, h12⟩, h13⟩ := h
  exact ⟨h1, h2, h3, h4, h5, h6, h7, h8, h9, h10, h11, h12, fun hs => h13.resolve_left (by simp [hs])⟩

/-- A core with a task in one scratch unit, every base register 256 bytes into its scratch. -/
def benchCore : Core :=
  { status := .run, tagged := true, pc := 0x10000, cb := 0x10000, b := List.replicate 16 { val := u64 (2 ^ 63 + 256) } }

def bench (k : Core) : State :=
  { State.reset with cores := [(0, k)], ctxs := [(0, placeCtx)], launches := [(0, placeLaunch)], nLaunch := 1, sensed := true }

/-- Every instruction of a list stands clear on the bench. -/
def clears (k : Core) (l : List Instr) : Bool := l.all (clearB (bench k))

/-- The bench with a value in g1, the source that the tests name. -/
def withG (v : U64) : Core := { benchCore with g := benchCore.g.set 1 v }

/-- Bytes that no write waits on are open where nothing is listed in the table of regions. -/
theorem open_of (s : State) (loc n : Nat) (h : (s.noRegions && s.stalled.isEmpty && decide (loc + n ≤ 2 ^ 64) && decide (s.mirbase + 4096 ≤ loc)) = true) :
    Open s loc n := by
  simp only [Bool.and_eq_true, decide_eq_true_eq, List.isEmpty_iff] at h
  obtain ⟨⟨⟨hr, hs⟩, hn⟩, hm⟩ := h
  exact ⟨hn, fun j _ => by rw [State.regionOf, if_pos hr], by rw [State.behindStalled, hs]; rfl, .inr hm⟩

theorem hbm_of (loc n : Nat) (h : loc + n ≤ 64 * 10 ^ 9) : ∀ j, j < n → placeOf (loc + j) = .hbm := by
  intro j hj
  have h1 : loc + j < 64 * 10 ^ 9 := by omega
  unfold placeOf
  rw [if_neg (by omega), if_neg (by omega), if_neg (by unfold scratchBase; omega), if_neg (by unfold carafeBase; omega), if_neg (by omega),
    if_pos ⟨by omega, by omega⟩]

/-- Bytes of a heap window that names every location by itself. -/
def heapB (s : State) (ctx va n : Nat) : Bool :=
  decide ((s.ctx ctx).heapb.toNat ≤ va) && decide (va + n ≤ (s.ctx ctx).heapb.toNat + (s.ctx ctx).heapl.toNat) && decide ((s.ctx ctx).heapo.toNat = 0)
    && decide (va + n ≤ 64 * 10 ^ 9) && decide (va % 65536 + n ≤ 65536)

theorem inHeap_of (s : State) (ctx va n : Nat) (h : heapB s ctx va n = true) : InHeap s ctx va n va := by
  simp only [heapB, Bool.and_eq_true, decide_eq_true_eq] at h
  obtain ⟨⟨⟨⟨hb, hl⟩, ho⟩, hn⟩, hp⟩ := h
  exact ⟨hb, hl, by omega, hp, by rw [ho]; omega, hbm_of va n hn⟩

theorem reaches_of (s : State) (c ea n : Nat) (h : (coreIdOk c && dieOf c == 0 && heapB s (s.core c).ctx ea n) = true) : ReachesAt s c ea n ea := by
  simp only [Bool.and_eq_true, beq_iff_eq] at h
  exact ⟨h.1.1, .inr ⟨h.1.2, inHeap_of _ _ _ _ h.2⟩⟩

theorem writes_of (s : State) (c ea n : Nat) (h : (coreIdOk c && dieOf c == 0 && heapB s (s.core c).ctx ea n) = true)
    (ho : (s.noRegions && s.stalled.isEmpty && decide (ea + n ≤ 2 ^ 64) && decide (s.mirbase + 4096 ≤ ea)) = true) : WritesAt s c ea n ea :=
  ⟨reaches_of s c ea n h, open_of s ea n ho, fun hb => by
    simp only [heapB, Bool.and_eq_true, decide_eq_true_eq] at h
    omega⟩

/-- An unconditional slot. -/
abbrev always : BitVec 6 := 31

/-! ## Moves, a0, a1, au and c -/

theorem witness_moves_scalar :
    clears benchCore ((List.range 128).filterMap (fun d => if dstOkM d then some (.move false 1 (BitVec.ofNat 9 d) always) else none)) = true := by
  decide +kernel

theorem witness_moves_vector :
    clears benchCore ((List.range 70).filterMap (fun d => if dstOkW d then some (.move true 1 (BitVec.ofNat 9 d) always) else none)) = true := by
  decide +kernel

/-- Every operation of a0 and a1 at both widths, the divisions among them. -/
theorem witness_alu :
    clears benchCore ([(0, 0), (1, 1)].flatMap (fun q =>
      let u : BitVec 1 := q.1
      let w : BitVec 1 := q.2
      [.add 1 u w always, .sub 1 u w always, .and 1 u w always, .or 1 u w always, .xor 1 u w always, .andn 1 u w always, .shl 1 u w always,
        .shr 1 u w always, .sar 1 u w always, .rol 1 u w always, .ror 1 u w always, .min 1 u w always, .max 1 u w always, .minu 1 u w always,
        .maxu 1 u w always, .clz 1 u w always, .ctz 1 u w always, .popc 1 u w always, .mul 1 u w always, .mulhs 1 u w always,
        .mulhu 1 u w always, .divs 1 u w always, .divu 1 u w always, .rems 1 u w always, .remu 1 u w always, .addsat 1 u w always,
        .subsat 1 u w always, .clmul 1 u w always, .clmulh 1 u w always, .pxor 1 u w always, .pext 1 u w always, .pdep 1 u w always,
        .sext 1 u w always, .zext 1 u w always, .eq 1 u w always, .ne 1 u w always, .lt 1 u w always, .le 1 u w always, .ltu 1 u w always,
        .leu 1 u w always, .hmix 1 u w always, .bswap 1 u w always, .pass 1 u w always, .abs 1 u w always])) = true := by
  decide +kernel

/-- Bits that are set and lie below others, and none, for the counts and the bit-field operations. -/
theorem witness_bit_fields :
    let y : BitVec 32 := 0x50
    (y.getLsbD 4 = true ∧ (∀ j, j < 4 → ¬ y.getLsbD j) ∧ 4 < 32) ∧ (y.getLsbD 6 = true ∧ ∀ j, j < 32 → 6 < j → ¬ y.getLsbD j) ∧
      (0 : BitVec 64) = 0 ∧ ((List.range 32).filter (fun j => y.getLsbD j)).length ≤ 2 := by
  decide

theorem witness_address_unit_legal :
    clears (withG 5) [.setb 1 2 always, .addb 1 2 always, .seti 1 2 always, .setls 1 2 always, .setwrap 1 2 always, .rstb 1 2 always,
      .settrp 1 2 always] = true ∧
    clears (withG 3) [.rdb 1 2 always] = true ∧ clears (withG 15) [.rdb 1 2 always] = true ∧
    ((bench (withG 5)).src1 (.seti 1 2 always)).toInt ≤ 2 ^ 31 - 1 ∧ ((bench (withG 5)).me.sop.getD 4 0).toNat ≤ 7 := by
  decide +kernel

theorem witness_address_unit_illegal :
    (let k := withG (u64 (2 ^ 40)); clears k [.seti 1 2 always, .setwrap 1 2 always, .rdb 1 2 always] = true ∧
      2 ^ 31 - 1 < ((bench k).src1 (.seti 1 2 always)).toInt ∧ 2 ^ 32 - 1 < ((bench k).src1 (.setwrap 1 2 always)).toNat) ∧
    (let k := { benchCore with sop := benchCore.sop.set 4 8 }; clears k [.setls 1 2 always] = true ∧ 7 < ((bench k).me.sop.getD 4 0).toNat) ∧
    (let k := withG 4; clears k [.rdb 1 2 always] = true ∧ ((bench k).src1 (.rdb 1 2 always)).toNat = 4) := by
  decide +kernel

/-- A core of which no loop is active. -/
theorem mayTransfer_of (s : State) (h : s.me.xfer = none) (hl : ∀ l ∈ s.me.loops, l.active = false) : MayTransfer s :=
  ⟨h, fun ⟨l, hm, ha, _⟩ => by simp [hl l hm] at ha⟩

theorem witness_transfers_legal :
    (let k := withG 8; clears k [.jmp 1 always, .jmpr 1 always, .call 1 always, .clrstk 1 always] = true ∧ MayTransfer (bench k) ∧
      (bench k).me.rstack.length < 8 ∧ ((bench k).src1 (.jmp 1 always)).toNat = 8) ∧
    (let k := { benchCore with rstack := [0x2000] }; clears k [.ret 1 always] = true ∧ (bench k).me.rstack = [0x2000] ∧ MayTransfer (bench k)) := by
  refine ⟨⟨by decide +kernel, mayTransfer_of _ rfl (by decide +kernel), by decide +kernel, by decide +kernel⟩, by decide +kernel, rfl,
    mayTransfer_of _ rfl (by decide +kernel)⟩

theorem witness_transfers_illegal :
    (let k := withG 6; clears k [.jmp 1 always, .jmpr 1 always, .call 1 always] = true ∧ ((bench k).src1 (.jmp 1 always)).toNat % 4 = 2) ∧
    (let k := { benchCore with rstack := [0x2001] }; clears k [.ret 1 always] = true ∧ (bench k).me.rstack = [0x2001]) ∧
    (clears benchCore [.ret 1 always] = true ∧ (bench benchCore).me.rstack = []) ∧
    (let k := { withG 8 with xfer := some 0x3000 }; clears k [.jmp 1 always, .call 1 always, .loop 1 0 always] = true ∧ ¬ MayTransfer (bench k)) := by
  refine ⟨by decide +kernel, by decide +kernel, by decide +kernel, by decide +kernel, fun h => ?_⟩
  have := h.1
  revert this
  decide +kernel

theorem witness_call_header : ∃ bs, ((bench (withG 8)).fetchBytes 0 0x10008 4).2 = .ok bs := ⟨[0, 0, 0, 0], by decide +kernel⟩

theorem witness_loop :
    (let k := { withG 8 with sop := benchCore.sop.set 5 3 }; clears k [.loop 1 2 always] = true ∧ MayTransfer (bench k) ∧
      ((bench k).me.sop.getD 5 0).toNat = 3) ∧
    (clears (withG 8) [.loop 1 2 always] = true ∧ MayTransfer (bench (withG 8)) ∧ ((bench (withG 8)).me.sop.getD 5 0).toNat = 0 ∧
      (bench (withG 8)).tableTrip 0 2 = 0) ∧
    (clears (withG 6) [.loop 1 2 always] = true ∧ ((bench (withG 6)).src1 (.loop 1 2 always)).toNat % 4 = 2) :=
  ⟨⟨by decide +kernel, mayTransfer_of _ rfl (by decide +kernel), by decide +kernel⟩,
    ⟨by decide +kernel, mayTransfer_of _ rfl (by decide +kernel), by decide +kernel⟩, by decide +kernel⟩

/-- The bench under a debug context. -/
def debugBench (k : Core) : State := { bench k with ctxs := [(0, { placeCtx with debug := true })] }

theorem witness_control :
    clears benchCore [.exit 1 always, .trap 1 always, .brk 1 always, .yieldp 1 always, .tfence 1 always] = true ∧
    (clearB (debugBench benchCore) (.brk 1 always) = true ∧ ((debugBench benchCore).coreCtx 0).debug = true) ∧
    [0, 1, 2, 3].all (fun o => clears { benchCore with sop := benchCore.sop.set 5 o } [.idle 1 always]) = true ∧
    (∀ r ∈ (bench benchCore).me.recs, r = none) ∧
    (let k := { benchCore with recs := benchCore.recs.set 2 (some 0x40) }; clears k [.tfence 1 always] = true ∧
      (∀ j, j < 2 → (bench k).me.recs.getD j none = none) ∧ (bench k).me.recs[2]? = some (some 0x40)) := by
  decide +kernel

theorem witness_status :
    [0, 6, 16, 29, 7, 15, 30].all (fun x => clears (withG x) [.rdsr 1 always, .wrsr 1 always]) = true ∧
    [0, 6, 16, 29, 7, 15, 30].map (fun x => ((bench (withG x)).src1 (.rdsr 1 always)).toNat) = [0, 6, 16, 29, 7, 15, 30] := by
  decide +kernel

/-- An image of two phases, of one and of two scratch units. -/
def twoPhases (k : Core) : State := { bench k with launches := [(0, { placeLaunch with img := some { placeImage with phases := [1, 2] } })] }

theorem witness_phase :
    (let s := twoPhases (withG 0); clearB s (.phase 1 always) = true ∧ (s.src1 (.phase 1 always)).toNat = 0 ∧ s.me.phase = 0) ∧
    (let s := twoPhases (withG 1); clearB s (.phase 1 always) = true ∧ (s.src1 (.phase 1 always)).toNat = 1 ∧ s.me.eng = []) ∧
    (let s := twoPhases (withG 2); clearB s (.phase 1 always) = true ∧ (s.src1 (.phase 1 always)).toNat = 2) ∧
    (let s := twoPhases { withG 0 with phase := 1, eng := [20] }; clearB s (.phase 1 always) = true ∧ s.phaseUnits 0 0 = 1) := by
  decide +kernel


/-! ## Accesses of l, at and ra -/

/-- Every base register holds `v`. -/
def withB (v : Nat) : Core := { benchCore with b := List.replicate 16 { val := u64 v } }

/-- An access stands clear, is allowed, and no log holds a line of it. -/
def fliesB (s : State) (i : Instr) (r : Req) : Bool :=
  clearB s i && (firstFault (fun _ => true) (runFaults s i r)).isNone && !s.me.lineLogged r.lines

theorem allowed_of (s : State) (i : Instr) (r : Req) (h : fliesB s i r = true) : s.Clear i ∧ Allowed s i r ∧ s.me.lineLogged r.lines = false := by
  simp only [fliesB, Bool.and_eq_true, Option.isNone_iff_eq_none, Bool.not_eq_true'] at h
  exact ⟨clear_of s i h.1.1, h.1.2, h.2⟩

/-- Scratch, and a global address of the heap. -/
def places : List Core := [benchCore, withB 0x40000]

theorem witness_loads_and_stores :
    places.all (fun k =>
      let s := bench k
      let ld (n : Nat) (i : Instr) : Bool := fliesB s i (readL s i n 1 2)
      let st (n : Nat) (i : Instr) : Bool := fliesB s i (storeL s i n 1 2)
      ld 1 (.ld8s 0 1 2 always) && ld 1 (.ld8u 0 1 2 always) && ld 2 (.ld16s 0 1 2 always) && ld 2 (.ld16u 0 1 2 always) &&
      ld 4 (.ld32s 0 1 2 always) && ld 4 (.ld32u 0 1 2 always) && ld 8 (.ld64 0 1 2 always) && st 1 (.st8 0 1 2 always) &&
      st 2 (.st16 0 1 2 always) && st 4 (.st32 0 1 2 always) && st 8 (.st64 0 1 2 always) &&
      (let i : Instr := .ldv 0 1 2 always; fliesB s i (vecReadL s i 1 2 (laneRuns s (effAddr s i 2)))) &&
      (let i : Instr := .ldvs 0 1 2 always; fliesB s i (vecReadL s i 1 2 (strideRuns s (effAddr s i 2)))) &&
      (let i : Instr := .stv 0 1 2 always; fliesB s i (vecStoreL s i 1 2))) = true := by
  decide +kernel

/-- On its own scratch an access keeps the schedule. -/
theorem witness_on_schedule :
    (let s := bench benchCore; let i : Instr := .ld64 0 1 2 always; let r := readL s i 8 1 2
     (∀ p ∈ okPieces (lookups s i r), ∃ off, placeOf p.loc = .scratch s.cur off) ∧ (∀ q ∈ r.chunks, bitAt q.2.1 63 = true) ∧ r.wideScope = false) := by
  refine ⟨fun p hp => ⟨256, ?_⟩, by decide +kernel, rfl⟩
  revert p
  decide +kernel

theorem witness_atomics :
    places.all (fun k =>
      let s := bench k
      let at_ (n : Nat) (i : Instr) : Bool := fliesB s i (atomic s i n 1 2) &&
        (okPieces (lookups s i (atomic s i n 1 2))).all (fun p => match placeOf p.loc with | .host _ => false | _ => true)
      at_ 8 (.aadd 0 1 2 always) && at_ 8 (.asub 0 1 2 always) && at_ 8 (.aand 0 1 2 always) && at_ 8 (.aor 0 1 2 always) &&
      at_ 8 (.axor 0 1 2 always) && at_ 8 (.amin 0 1 2 always) && at_ 8 (.amax 0 1 2 always) && at_ 8 (.aminu 0 1 2 always) &&
      at_ 8 (.amaxu 0 1 2 always) && at_ 8 (.axchg 0 1 2 always) && at_ 8 (.acas 0 1 2 always) && at_ 8 (.aincw 0 1 2 always) &&
      at_ 4 (.afadd 0 1 2 always) && at_ 8 (.abar 0 1 2 always) &&
      (let i : Instr := .ldacq 0 2 2 always; fliesB s i (acquire s i 2 2)) &&
      (let i : Instr := .strel 0 2 2 always; fliesB s i (releaseStore s i 2 2))) = true := by
  decide +kernel

/-- Misaligned, out of range, and of no page. -/
theorem witness_address_faults :
    (let s := bench (withB 0x40001); let i : Instr := .ld64 0 1 2 always; let r := atomic s (.aadd 0 1 2 always) 8 1 2
     clearB s i = true ∧ clearB s (.aadd 0 1 2 always) = true ∧ (r.chunks.find? (fun q => q.2.1 % r.align != 0)).isSome = true) ∧
    (let s := bench (withB (2 ^ 63 + 0x10000)); let i : Instr := .ld64 0 1 2 always; let r := readL s i 8 1 2
     clearB s i = true ∧ (∀ q ∈ r.chunks, q.2.1 % r.align = 0) ∧ firstFault (fun _ => true) (lookups s i r) = some (.range, 2 ^ 63 + 0x10000)) ∧
    (let s := bench (withB (2 ^ 55)); let i : Instr := .ldacq 0 2 7 always; let r := acquire s i 2 7
     clearB s i = true ∧ (∀ q ∈ r.chunks, q.2.1 % r.align = 0) ∧ firstFault (fun _ => true) (lookups s i r) = some (.xlate, 2 ^ 55)) := by
  decide +kernel

/-- A side log with an entry for the line of address 2^55, and full logs. -/
def logged (k : Core) : Core := { k with logL := k.logL.set 0 { valid := true, ea := 2 ^ 55, kind := 3 } }
def fullLogs (k : Core) : Core :=
  { k with logL := List.replicate 32 { valid := true, ea := 2 ^ 54, kind := 3 }, logA := List.replicate 32 { valid := true, ea := 2 ^ 54, kind := 3 } }

theorem witness_stores_that_miss :
    (let s := bench (withB (2 ^ 55 + 2)); let i : Instr := .stv 0 1 2 always; let r := vecStoreL s i 1 2
     clearB s i = true ∧ (r.chunks.find? (fun q => q.2.1 % r.align != 0)).isSome = true) ∧
    (let s := bench (withB (2 ^ 63 + 0x10000)); let i : Instr := .st64 0 1 2 always; let r := storeL s i 8 1 2
     clearB s i = true ∧ s.me.lineLogged r.lines = false ∧ firstFault (fun _ => true) (lookups s i r) = some (.range, 2 ^ 63 + 0x10000) ∧
       (atTrigger s i).storeStop 0 { w := true } true r.chunks = some (.range, 2 ^ 63 + 0x10000) ∧ FirstFree s 0 0) ∧
    (let s := bench (withB (2 ^ 55)); let i : Instr := .st64 0 1 2 always; let r := storeL s i 8 1 2
     clearB s i = true ∧ (∀ q ∈ r.chunks, q.2.1 % r.align = 0) ∧ s.me.lineLogged r.lines = false ∧
       (atTrigger s i).storeStop 0 { w := true } true r.chunks = none ∧ firstFault (fun _ => true) (lookups s i r) = some (.xlate, 2 ^ 55) ∧
       FirstFree s 0 0 ∧ s.me.ss.length = 16 ∧ (s.die (dieOf s.cur)).trapqn = 0) ∧
    (let s := bench (fullLogs (withB (2 ^ 55))); let i : Instr := .strel 0 2 2 always; let r := releaseStore s i 2 2
     clearB s i = true ∧ (∀ q ∈ r.chunks, q.2.1 % r.align = 0) ∧ s.me.lineLogged r.lines = false ∧
       firstFault (fun _ => true) (lookups s i r) = some (.xlate, 2 ^ 55) ∧ LogFull s 1) ∧
    (let s := bench (logged (withB (2 ^ 55))); let i : Instr := .st64 0 1 2 always; let r := storeL s i 8 1 2
     clearB s i = true ∧ (∀ q ∈ r.chunks, q.2.1 % r.align = 0) ∧ s.me.lineLogged r.lines = true ∧ FirstFree s 0 1) ∧
    (let s := bench (fullLogs (withB (2 ^ 54))); let i : Instr := .st64 0 1 2 always; let r := storeL s i 8 1 2
     clearB s i = true ∧ (∀ q ∈ r.chunks, q.2.1 % r.align = 0) ∧ s.me.lineLogged r.lines = true ∧ LogFull s 0) := by
  unfold FirstFree LogFull
  decide +kernel

theorem witness_prefetch_and_wait :
    (let s := bench (withB 0x40000); let i : Instr := .pref 0 1 2 always
     let r : Req := { op := i, cls := 1, isRead := true, ea := 0x40000, chunks := [(0, 0x40000, 1)], perfAt := 5, latchAt := 5 }
     fliesB s i r = true ∧ ∃ p, lookups s i r = [.ok [p]] ∧ cacheable s.cur p.loc = true) ∧
    (let s := bench benchCore; let i : Instr := .pref 0 1 2 always
     clearB s i = true ∧ bitAt (effAddr s i 2) 63 = true) ∧
    (let s := bench { withB 0x40000 with sop := benchCore.sop.set 2 5 }; let i : Instr := .waita 0 1 2 always
     fliesB s i { op := i, latch := 1, cls := 0, isRead := true, align := 8, ea := effAddr s i 2, chunks := [(0, effAddr s i 2, 8)], perfAt := 5,
                  latchAt := 5 } = true ∧ effAddr s i 2 % 8 = 0 ∧ ∃ ps, ((atTrigger s i).xlateChunk s.cur { r := true } false (0, effAddr s i 2, 8)).2 = .ok ps) ∧
    (let s := bench (withB 0x40004); let i : Instr := .waita 0 1 2 always; clearB s i = true ∧ effAddr s i 2 % 8 = 4) := by
  refine ⟨⟨by decide +kernel, ⟨{ off := 0, len := 1, loc := 0x40000 }, by decide +kernel, by decide +kernel⟩⟩, by decide +kernel,
    ⟨by decide +kernel, by decide +kernel, [{ off := 0, len := 8, loc := 0x40000 }], by decide +kernel⟩, by decide +kernel⟩

theorem witness_fences :
    clears (withG 5) [.fence 1 2 always, .fence 1 4 always, .fencew 1 7 always, .svfence 1 always, .swfence 1 2 always, .swfence 1 1 always,
      .swfence 1 7 always] = true := by
  decide +kernel

/-! ## Accesses as they perform -/

/-- An access of an instruction in flight on bytes of core 0's scratch, due. -/
def flyingOn (i : Instr) (latch : Nat) (ps : List Piece) (rd wr : Bool) : MOp :=
  { id := 3, op := i, slot := 0, pc := 0x10000, re := false, latch := latch, cls := 0, cyc := 1, due := 6, fixed := true, ret := 6, scope := 0,
    isRead := rd, isWrite := wr, ea := 0, lcl := true, pieces := ps, data := 0x1234, data2 := 7,
    fm := 0, k := 0, aux := 0, logged := false, junk := false, perf := false, val := 0, stage := 2 }

/-- One on `n` bytes at offset 256. -/
def flying (i : Instr) (latch n : Nat) (rd wr : Bool) : MOp := flyingOn i latch (whole (scratchLoc 0 256) n) rd wr

def dueBench (o : MOp) : State := bench { benchCore with mops := [o], clk := 20 }

theorem due_on (i : Instr) (latch n off : Nat) (ps : List Piece) (rd wr : Bool) (h : off + n ≤ 4096) :
    Due (dueBench (flyingOn i latch ps rd wr)) 0 (flyingOn i latch ps rd wr) (scratchLoc 0 off) n ps where
  alone := rfl
  ticks := rfl
  fixed := rfl
  due := (by decide : 6 ≤ 20)
  back := (by decide : 6 ≤ 20)
  late := (by decide : 1 + 5 ≤ 20)
  waits := rfl
  clean := rfl
  place := rfl
  held := rfl
  staged := fun _ _ => ⟨rfl, show (0 : Nat) ≠ 7 by decide⟩
  home := ⟨off, rfl, by decide, by omega, fun j hj => rfl⟩
  logs := rfl
  mem := rfl
  clear := by
    have h0 : scratchLoc 0 off = scratchLoc 0 0 + off := rfl
    have h1 : scratchLoc 0 0 + 4096 ≤ 2 ^ 64 := by decide
    have h2 : 4096 ≤ scratchLoc 0 0 := by decide
    exact ⟨by omega, fun _ _ => rfl, rfl, .inr (show 0 + 4096 ≤ scratchLoc 0 off by omega)⟩

theorem due_of (i : Instr) (latch n : Nat) (rd wr : Bool) (h : n ≤ 256) :
    Due (dueBench (flying i latch n rd wr)) 0 (flying i latch n rd wr) (scratchLoc 0 256) n (whole (scratchLoc 0 256) n) :=
  due_on i latch n 256 _ rd wr (by omega)

theorem witness_loads_return (i : Instr) (n : Nat) (h : n ≤ 8) :
    let o := flying i 1 n true false
    o.op = i ∧ o.latch = 1 ∧ o.isRead = true ∧ o.isWrite = false ∧ Due (dueBench o) 0 o (scratchLoc 0 256) n (whole (scratchLoc 0 256) n) :=
  ⟨rfl, rfl, rfl, rfl, due_of i 1 n true false (by omega)⟩

/-- LDV with lanes on and off, and LDVS with lanes 0 and 3 on, eight bytes apart. -/
theorem witness_vector_loads_return (src : BitVec 9) (a : BitVec 2) (b : BitVec 4) (g : BitVec 6) (m : Nat) :
    (let o := flyingOn (.ldv src a b g) 2 (lanePieces (scratchLoc 0 256) m) true false
     o.op = .ldv src a b g ∧ o.latch = 2 ∧ o.isRead = true ∧ o.isWrite = false ∧
       Due (dueBench o) 0 o (scratchLoc 0 256) 256 (lanePieces (scratchLoc 0 256) m)) ∧
    (let f (i : Nat) : Nat := scratchLoc 0 (8 * i)
     let o := flyingOn (.ldvs src a b g) 2 (lanesAt f 9) true false
     o.op = .ldvs src a b g ∧ o.latch = 2 ∧ o.isRead = true ∧ o.isWrite = false ∧ Due (dueBench o) 0 o (scratchLoc 0 0) 0 (lanesAt f 9) ∧
       ∀ i, i < 64 → bitAt 9 i = true → InScratch (dueBench o) 0 (f i) 4) :=
  ⟨⟨rfl, rfl, rfl, rfl, due_on _ 2 256 256 _ true false (by omega)⟩, rfl, rfl, rfl, rfl, due_on _ 2 0 0 _ true false (by omega),
    fun i hi _ => ⟨8 * i, rfl, by decide, by omega, fun j hj => rfl⟩⟩

/-- A load of eight bytes of HBM on its way, with a copy of the line in L1 and without one. -/
def globalLoad (i : Instr) : MOp :=
  { flyingOn i 1 (whole 0x40000 8) true false with fixed := false, due := 0, ret := 0 }
def globalBench (i : Instr) (l1 : Tbl CLine) : State := bench { benchCore with mops := [globalLoad i], clk := 20, l1 := l1 }

theorem witness_global_loads (i : Instr) (l1 : Tbl CLine) : DueGlobal (globalBench i l1) 0 (globalLoad i) 0x40000 8 where
  alone := rfl
  held := rfl
  free := rfl
  due := Nat.le_refl _
  back := Nat.le_refl _
  late := (by decide : 1 + 5 ≤ 20)
  waits := rfl
  clean := rfl
  place := rfl
  inHbm := by decide
  oneLine := by decide
  cached := by
    show 512 * (sramUnits 0 - State.phaseUnits _ 0 0) ≠ 0
    rw [show State.phaseUnits (globalBench i l1) 0 0 = State.phaseUnits (bench benchCore) 0 0 from rfl]
    decide +kernel

theorem witness_global_copies (i : Instr) :
    (let l : CLine := { stamp := 1 }
     let s := globalBench i [(lineOf 0x40000, l)]
     Tbl.find? (s.core 0).l1 (lineOf 0x40000) = some l ∧ ∀ j, j < 8 → l.isDirty (0x40000 % 128 + j) = true ∨ (l.fresh (s.core 0).l1Mark = true ∧ l.avail ≤ s.now)) ∧
    (let s := globalBench i []
     (s.core 0).l1 = [] ∧ Tbl.getD s.qsb (quadOf 0) [] = [] ∧ s.stalled = [] ∧ homeDie (128 * lineOf 0x40000) = some (dieOf 0) ∧
       (s.core 0).l1Mark ≤ (s.core 0).fills) :=
  ⟨⟨rfl, fun j hj => .inr ⟨rfl, Nat.le_refl _⟩⟩, rfl, rfl, rfl, by decide, Nat.le_refl _⟩

theorem witness_stores_write (i : Instr) (n : Nat) (h : n ≤ 256) :
    let o := flying i 0 n false true
    o.op = i ∧ o.isRead = false ∧ o.isWrite = true ∧ Due (dueBench o) 0 o (scratchLoc 0 256) n (whole (scratchLoc 0 256) n) :=
  ⟨rfl, rfl, rfl, due_of i 0 n false true h⟩

theorem witness_vector_stores_write (src : BitVec 9) (a : BitVec 2) (b : BitVec 4) (g : BitVec 6) (m : Nat) :
    let o := flyingOn (.stv src a b g) 0 (lanePieces (scratchLoc 0 256) m) false true
    o.op = .stv src a b g ∧ o.isRead = false ∧ o.isWrite = true ∧ Due (dueBench o) 0 o (scratchLoc 0 256) 256 (lanePieces (scratchLoc 0 256) m) :=
  ⟨rfl, rfl, rfl, due_on _ 0 256 256 _ false true (by omega)⟩

theorem witness_atomics_write (i : Instr) (n : Nat) (h : n ≤ 8) :
    let o := flying i 3 n true true
    o.op = i ∧ o.isRead = true ∧ o.isWrite = true ∧ ((dueBench o).core 0).tagged = true ∧ o.latch = 3 ∧ o.cyc + 10 ≤ ((dueBench o).core 0).clk ∧
      Due (dueBench o) 0 o (scratchLoc 0 256) n (whole (scratchLoc 0 256) n) :=
  ⟨rfl, rfl, rfl, rfl, rfl, (by decide : 1 + 10 ≤ 20), due_of i 3 n true true (by omega)⟩


/-! ## v, x, m and the scale slot -/

def withVso (v : U64) : Core := { benchCore with sop := benchCore.sop.set 8 v }

theorem witness_vector_legal :
    clears benchCore ([(0 : BitVec 3), 7].flatMap (fun t =>
      [.vadd 1 t always, .vsub 1 t always, .vmul 1 t always, .vmad 1 t always, .vmin 1 t always, .vmax 1 t always, .vabs 1 t always,
        .vneg 1 t always, .vand 1 t always, .vor 1 t always, .vxor 1 t always, .vcmpeq 1 t always, .vcmplt 1 t always, .vcmple 1 t always,
        .vsel 1 t always, .vshuf 1 t always, .vbcast 1 t always, .vred 1 t always, .vscan 1 t always])) = true ∧
    clears benchCore [.vshl 1 5 always, .vshr 1 0 always, .vrcp 1 6 always, .vrcp 1 7 always, .vrsq 1 6 always, .vexp2 1 7 always,
      .vlog2 1 6 always, .vpackg 1 0 always, .vclmul 1 1 always, .vclmul 1 3 always, .vclmul 1 5 always, .vpxor 1 0 always,
      .vtopk 1 0 always, .vtopk 1 6 always, .vtopkm 1 1 always, .bmm 1 6 always] = true ∧
    clears (withVso 8) [.vmask 1 0 always] = true ∧ clears (withVso 5) [.vred 1 0 always, .vscan 1 0 always] = true ∧
    ((bench (withVso 8)).me.sop.getD 8 0).toNat % 16 = 8 := by
  decide +kernel

theorem witness_vector_illegal :
    clears benchCore [.vshl 1 6 always, .vshr 1 7 always, .vrcp 1 5 always, .vrsq 1 0 always, .vexp2 1 3 always, .vlog2 1 4 always,
      .vpackg 1 1 always, .vclmul 1 0 always, .vclmul 1 7 always, .vpxor 1 2 always, .vtopk 1 2 always, .vtopkm 1 7 always, .bmm 1 7 always,
      .vmask 1 1 always] = true ∧
    clears (withVso 6) [.vred 1 0 always, .vscan 1 0 always] = true ∧ clears (withVso 9) [.vmask 1 0 always] = true ∧
    ((bench (withVso 9)).me.sop.getD 8 0).toNat % 16 = 9 := by
  decide +kernel

/-- Lanes on and off, at both ends of the type codes. -/
theorem witness_vector_functions :
    let x (t active : Nat) : VIn := { t := t, a := 1, b := 2, c := 3, ctl := 0, active := active, vr := 0, vr2 := 0, rows := [], lgl := 0 }
    ((x 5 1).t < 6 ∧ 0 < 2048 / ltW (x 5 1).t ∧ (x 5 1).active.testBit (0 * ltW (x 5 1).t / 32) = true) ∧
    ((x 0 1).t < 6 ∧ 63 < 2048 / ltW (x 0 1).t ∧ (x 0 1).active.testBit (63 * ltW (x 0 1).t / 32) = false) ∧
    (∀ t, t = 0 ∨ t = 1 ∨ t = 6 → (x t 5).t = 0 ∨ (x t 5).t = 1 ∨ (x t 5).t = 6) :=
  ⟨by decide +kernel, by decide +kernel, fun _ h => h⟩

/-- Floats of every class, in lanes that are on and off. -/
theorem witness_float_functions :
    let x (t a active : Nat) : VIn :=
      { t := t, a := pack (ltW t) [a], b := pack (ltW t) [a], c := 0, ctl := 0, active := active, vr := 0, vr2 := 0, rows := [], lgl := 0 }
    let el (t a : Nat) : Nat := elem (ltW t) (x t a 1).a 0
    (∀ t, t = 6 ∨ t = 7 → 0 < 2048 / ltW t ∧ (x t 0 1).active.testBit (0 * ltW t / 32) = true ∧ (x t 0 2).active.testBit (0 * ltW t / 32) = false) ∧
    (finiteCode fmtF32 (el 6 0x3F800000) = true ∧ codeVal fmtF32 (el 6 0x3F800000) = (1 : Int) ∧ codeVal fmtF32 (el 6 0x3F800000) = 2 ^ (0 : Int) ∧
      finiteCode fmtBF16 (el 7 0x3F80) = true ∧ codeVal fmtBF16 (el 7 0x3F80) = (1 : Int)) ∧
    (finiteCode fmtF32 (el 6 0x80000000) = true ∧ codeVal fmtF32 (el 6 0x80000000) = 0 ∧ signCode fmtF32 (el 6 0x80000000) = true) ∧
    (nanCode fmtF32 (el 6 0xBF800000) = false ∧ codeVal fmtF32 (el 6 0xBF800000) < 0) ∧
    (el 6 0x7F800000 = infinity fmtF32 false ∧ isInf fmtF32 (el 6 0x7F800000) = true ∧ el 6 0xFF800000 = infinity fmtF32 true ∧
      isInf fmtF32 (el 6 0xFF800000) = true) ∧
    (nanCode fmtF32 (el 6 0x7FC00000) = true ∧ signalling fmtF32 (el 6 0x7F800001) = true ∧ signalling fmtBF16 (el 7 0x7F81) = true) := by
  refine ⟨fun t ht => ?_, by decide +kernel, by decide +kernel, by decide +kernel, by decide +kernel, by decide +kernel⟩
  obtain rfl | rfl := ht <;> decide +kernel

/-- The operations of ROP on integers, and the bitwise ones on floats. -/
theorem witness_reductions (t : Nat) (ht : t < 8) (ctl : U64) (h : ctl.toNat % 16 < 6) (hf : t < 6 ∨ 3 ≤ ctl.toNat % 16) (active : Nat) :
    let x : VIn := { t := t, a := 0, b := 0, c := 0, ctl := ctl, active := active, vr := 0, vr2 := 0, rows := [], lgl := 0 }
    (∃ d, 2 ^ d = 2048 / ltW x.t) ∧
    ∃ f : Nat → Nat → Nat, ∀ a b, a < 2 ^ ltW x.t → b < 2 ^ ltW x.t → f a b < 2 ^ ltW x.t ∧ Combines x a b (f a b) := by
  intro x
  have hw : ltW t = 32 ∨ ltW t = 16 ∨ ltW t = 8 := by unfold ltW; split <;> [simp; (split <;> simp)]
  have hp : (0 : Int) < 2 ^ ltW t := by positivity
  refine ⟨by obtain h | h | h := hw <;> (show ∃ d, 2 ^ d = 2048 / ltW t; rw [h]); exacts [⟨6, rfl⟩, ⟨7, rfl⟩, ⟨8, rfl⟩], ?_⟩
  let f (a b : Nat) : Nat := match ctl.toNat % 16 with
    | 0 => narrowed x (asInt x a + asInt x b)
    | 1 => if asInt x b < asInt x a then b else a
    | 2 => if asInt x a < asInt x b then b else a
    | 3 => a &&& b
    | 4 => a ||| b
    | _ => a ^^^ b
  refine ⟨f, fun a b ha hb => ?_⟩
  have hn : narrowed x (asInt x a + asInt x b) < 2 ^ ltW t := by
    unfold narrowed
    refine (Int.toNat_lt (Int.emod_nonneg _ hp.ne')).2 ?_
    simpa using Int.emod_lt_of_pos _ hp
  obtain hc | hc | hc | hc | hc | hc : ctl.toNat % 16 = 0 ∨ ctl.toNat % 16 = 1 ∨ ctl.toNat % 16 = 2 ∨ ctl.toNat % 16 = 3 ∨ ctl.toNat % 16 = 4 ∨
    ctl.toNat % 16 = 5 := by omega
  · have := hf.resolve_right (by omega)
    simp only [f, hc, Combines, x, if_pos this]
    exact ⟨hn, trivial⟩
  · have := hf.resolve_right (by omega)
    simp only [f, hc, Combines, x, if_pos this]
    exact ⟨by split <;> assumption, trivial⟩
  · have := hf.resolve_right (by omega)
    simp only [f, hc, Combines, x, if_pos this]
    exact ⟨by split <;> assumption, trivial⟩
  · simp only [f, hc, Combines, x]
    exact ⟨Nat.and_lt_two_pow _ hb, trivial⟩
  · simp only [f, hc, Combines, x]
    exact ⟨Nat.or_lt_two_pow ha hb, trivial⟩
  · simp only [f, hc, Combines, x]
    exact ⟨Nat.xor_lt_two_pow ha hb, trivial⟩

/-- A format of one sign and one integer bit, and its codes 0, 1, −2 and −1. -/
def tiny : BitVec 32 := 0x11

theorem tiny_codes (md : Rnd) (p : Nat → Prop) (h : p 0 ∧ p 1 ∧ p 2 ∧ p 3) (c : Nat) (hc : roundable (fmtOf tiny) md c = true) : p c := by
  have hi (b : Bool) : infCode (fmtOf tiny) b c = false := by simp [infCode, show (fmtOf tiny).spec = 0 from by decide]
  have h4 : c < 4 := by
    have : roundable (fmtOf tiny) md c = finiteCode (fmtOf tiny) c := by
      unfold roundable isInf
      cases md <;> simp [hi]
    rw [this, finiteCode] at hc
    simp only [Bool.and_eq_true, decide_eq_true_eq] at hc
    exact hc.1.1
  obtain ⟨h0, h1, h2, h3⟩ := h
  interval_cases c <;> assumption

theorem witness_quantizing :
    (fmtLegal tiny.toNat = true ∧ ScaledBy tiny 0 0 0 5 1 ∧ (∀ u, Rnd.rne ≠ .sr u)) ∧
    (fmtLegal 0x40011 = true ∧ ScaledBy 0x40011 (BitVec.ofNat 1024 0x7F80) 0 0 5 1) ∧
    (fmtLegal 0x10027 = true ∧ (fmtOf 0x10027).spec = 1 ∧ 1 ≤ (fmtOf 0x10027).m ∧ (fmtOf 0x10027).s = 1) ∧ (fmtLegal 0x20017 = true ∧ (fmtOf 0x20017).spec = 2) ∧
    (let f := fmtOf tiny
     let A := codeVal fmtF32 0x3F000000
     finiteCode fmtF32 0x3F000000 = true ∧ A ≠ 0 ∧ RoundsTo f .rz (A / 1) false 0 ∧ finiteCode f 1 = true ∧ 0 < codeVal f 1 * A ∧
       |A / 1| < |codeVal f 1|) ∧
    (let f := fmtOf tiny
     let A := codeVal fmtF32 0x41000000
     finiteCode fmtF32 0x41000000 = true ∧ RoundsTo f .rz (A / 1) false 1 ∧ ∀ c', finiteCode f c' = true → 0 < codeVal f c' * A → |codeVal f c'| ≤ |A / 1|) ∧
    (finiteCode (fmtOf tiny) 3 = true ∧ nanCode (fmtOf 0x20017) 16 = true ∧ isInf (fmtOf 0x10027) 0x1C = true) := by
  refine ⟨⟨by decide, .inl ⟨by decide, rfl⟩, fun u h => nomatch h⟩, ⟨by decide, .inr ?_⟩, by decide, by decide, ?_, ?_, by decide +kernel⟩
  · decide +kernel
  · refine ⟨by decide +kernel, by decide +kernel, ⟨by decide +kernel, by decide +kernel, by decide +kernel, by decide +kernel, ?_⟩, by decide +kernel,
      by decide +kernel, by decide +kernel⟩
    exact tiny_codes .rz (fun c' => |codeVal (fmtOf tiny) c'| ≤ |codeVal fmtF32 0x3F000000 / 1| → 0 ≤ codeVal (fmtOf tiny) c' * (codeVal fmtF32 0x3F000000 / 1) →
      |codeVal (fmtOf tiny) c'| ≤ |codeVal (fmtOf tiny) 0|) (by decide +kernel)
  · refine ⟨by decide +kernel, ⟨by decide +kernel, by decide +kernel, by decide +kernel, by decide +kernel, ?_⟩, fun c' hc => ?_⟩
    · exact tiny_codes .rz (fun c' => |codeVal (fmtOf tiny) c'| ≤ |codeVal fmtF32 0x41000000 / 1| → 0 ≤ codeVal (fmtOf tiny) c' * (codeVal fmtF32 0x41000000 / 1) →
        |codeVal (fmtOf tiny) c'| ≤ |codeVal (fmtOf tiny) 1|) (by decide +kernel)
    · exact tiny_codes .rz (fun c' => 0 < codeVal (fmtOf tiny) c' * codeVal fmtF32 0x41000000 → |codeVal (fmtOf tiny) c'| ≤ |codeVal fmtF32 0x41000000 / 1|)
        (by decide +kernel) c' (by simp [roundable, hc])

/-- A format with blocks of 16 and a greatest value of 1, and vectors of one block of each kind. -/
theorem witness_scales :
    fmtLegal 0x40011 = true ∧ (0x40011 / 2 ^ 18 % 4 ≠ 0) ∧ 0 < 64 / (8 * 2 ^ (0x40011 / 2 ^ 18 % 4)) ∧
    (∃ c, finiteCode (fmtOf 0x40011) c = true ∧ codeVal (fmtOf 0x40011) c = 1) ∧ (∀ c, finiteCode (fmtOf 0x40011) c = true → codeVal (fmtOf 0x40011) c ≤ 1) ∧
    nanCode fmtF32 (elem 32 (pack 32 [0x7FC00000]) 0) = true ∧ isInf fmtF32 (elem 32 (pack 32 [0x7F800000]) 0) = true ∧
    (∀ i, i < 16 → nanCode fmtF32 (elem 32 (pack 32 [0x7F800000]) i) = false ∧
      (finiteCode fmtF32 (elem 32 (pack 32 [0x7F800000]) i) = true → codeVal fmtF32 (elem 32 (pack 32 [0x7F800000]) i) = 0)) ∧
    (let el (i : Nat) : Nat := elem 32 (pack 32 [0x3F800000]) i
     finiteCode fmtF32 (el 0) = true ∧ codeVal fmtF32 (el 0) ≠ 0 ∧ (∀ i, i < 16 → |codeVal fmtF32 (el i)| ≤ |codeVal fmtF32 (el 0)|) ∧
       |codeVal fmtF32 (el 0)| / 1 ≤ scaleVal 0xFF7F) := by
  refine ⟨by decide, by decide, by decide, ⟨1, by decide +kernel, by decide +kernel⟩, fun c hc => ?_, by decide +kernel, by decide +kernel, by decide +kernel,
    by decide +kernel⟩
  exact tiny_codes .rz (fun c => codeVal (fmtOf tiny) c ≤ 1) (by decide +kernel) c (by
    simpa [roundable, show fmtOf tiny = fmtOf 0x40011 from by decide] using hc)

theorem witness_wide_conversions :
    [0x3F800000, 0x4F000000, 0x7FC00000, 0x7F800000].map (fun a => (finiteCode fmtF32 a, nanCode fmtF32 a, isInf fmtF32 a)) =
      [(true, false, false), (true, false, false), (false, true, false), (false, false, true)] ∧
    (|codeVal fmtF32 0x3F800000 - (1 : Int)| < 1 / 2 ∧ (2 : ℚ) ^ 31 - 1 < codeVal fmtF32 0x4F000000 ∧ codeVal fmtF32 0x4F000000 = ((2 ^ 31 : Int) : ℚ)) ∧
    [0x3C00, 0x7E00, 0x7C00].map (fun h => (finiteCode fmtF16 h, nanCode fmtF16 h, isInf fmtF16 h)) =
      [(true, false, false), (false, true, false), (false, false, true)] := by
  decide +kernel

def withCtrl (v : U64) : Core := { benchCore with sop := benchCore.sop.set 7 v }

theorem witness_conversions :
    (CtrlLegal (bench (withCtrl 3)) true ∧ ctrlBits (bench (withCtrl 3)) 0 3 = 3 ∧
      clears (withCtrl 3) [.xq 1 2 always, .xqs 1 2 always, .xdq 1 2 always, .xf2bf 1 always, .xf2h 1 always, .xbf2f 1 always, .xh2f 1 always,
        .xf2i 1 always, .xi2f 1 always, .xgetf 1 2 always] = true) ∧
    (¬ CtrlLegal (bench (withCtrl 8)) false ∧
      clears (withCtrl 8) [.xq 1 2 always, .xqs 1 2 always, .xdq 1 2 always, .xsc 1 2 always, .xf2bf 1 always, .xf2h 1 always, .xbf2f 1 always,
        .xh2f 1 always, .xf2i 1 always, .xi2f 1 always, .xld 1 2 always, .xst 1 2 always] = true) ∧
    (¬ CtrlLegal (bench (withCtrl 4)) true ∧ CtrlLegal (bench (withCtrl 4)) false ∧ clears (withCtrl 4) [.xq 1 2 always, .xdq 1 2 always] = true) ∧
    (let k := { benchCore with fm := List.replicate 16 0xC0071 }; CtrlLegal (bench k) false ∧ fmtBlk (format (bench k) 2) ≠ 0 ∧
      clears k [.xsc 1 2 always] = true) ∧
    (fmtBlk (format (bench benchCore) 2) = 0 ∧ clears benchCore [.xsc 1 2 always] = true) ∧
    (let w := (ctrl (bench (withCtrl 0x71))).toNat % 2 ^ 32
     2 ≤ w % 2 + w / 2 % 8 + w / 16 % 8 ∧ w % 2 + w / 2 % 8 + w / 16 % 8 ≤ 8 ∧ w / 2 ^ 16 % 4 = 0 ∧ w / 2 ^ 7 % 2 = 0 ∧ w / 2 ^ 20 = 0 ∧
       clears (withCtrl 0x71) [.xsetf 1 2 always] = true) ∧
    (ctrlBits (bench (withCtrl 0x30071)) 16 2 = 3 ∧ clears (withCtrl 0x30071) [.xsetf 1 2 always] = true) := by
  unfold CtrlLegal
  decide +kernel

theorem witness_converter_accesses :
    (let s := bench benchCore; let i : Instr := .xld 1 2 always; let c := containerBits (format s 2)
     fliesB s i { op := i, latch := 4, cls := 0, isRead := true, align := 8 * c, ea := convAddr s, chunks := [(0, convAddr s, 8 * c)],
                  perfAt := 5, latchAt := 9, fm := format s 2, k := scales s, aux := 0 } = true) ∧
    (let s := bench benchCore; let i : Instr := .xst 1 2 always; let c := containerBits (format s 2)
     fliesB s i { op := i, cls := 0, isWrite := true, align := 8 * c, ea := convAddr s, chunks := [(0, convAddr s, 8 * c)], perfAt := 7,
                  latchAt := 7, data := 0 } = true) ∧
    (let s := bench (withB (2 ^ 63 + 8)); convAddr s % (8 * containerBits (format s 2)) = 8 ∧ clearB s (.xld 1 2 always) = true ∧
      clearB s (.xst 1 2 always) = true) ∧
    (let s := bench (withB (2 ^ 63 + 0x10000)); let i : Instr := .xld 1 2 always; let c := containerBits (format s 2)
     let r : Req := { op := i, latch := 4, cls := 0, isRead := true, align := 8 * c, ea := convAddr s, chunks := [(0, convAddr s, 8 * c)],
                      perfAt := 5, latchAt := 9 }
     convAddr s % (8 * c) = 0 ∧ firstFault (fun _ => true) (lookups s i r) = some (.range, 2 ^ 63 + 0x10000)) := by
  decide +kernel

/-- A resident block under handle 0, of format `f`. -/
def block0 (f : BitVec 32) : WBlock :=
  { mac := 0, unit := 0, tag := 0, fmt := f, codes := 0, scales := [], nf := false, src := 0, cls := 0, oc := false, oph := 0, opg := 0, scl := false }

def withBlock (f : BitVec 32) : Core := { benchCore with blocks := [block0 f] }

theorem witness_matrix :
    clears benchCore [.mzero 1 always, .wclr 1 always, .mrd 1 always, .mscl 1 always, .mma 1 2 always] = true ∧
    (bench benchCore).me.blocks.find? (named 0) = none ∧
    (let k := withBlock 0x71; (bench k).me.blocks.find? (named (mHandleOf (bench k))) = some (block0 0x71) ∧
      clears k [.mrd 1 always, .mscl 1 always, .mma 1 2 always] = true ∧ nbOf (block0 0x71).fmt = 0 ∧ fmtBlk (format (bench k) 2) = fmtBlk (block0 0x71).fmt ∧
      fmtBlk (format (bench k) 2) = 0) ∧
    (let k := { withBlock 0xC0071 with fm := List.replicate 16 0xC0071 }; (bench k).me.blocks.find? (named (mHandleOf (bench k))) = some (block0 0xC0071) ∧
      clears k [.mscl 1 always, .mma 1 2 always] = true ∧ nbOf (block0 0xC0071).fmt ≠ 0 ∧ mKaOf (bench k) + nbOf (block0 0xC0071).fmt ≤ 32) ∧
    (let k := withBlock 0xC0071; clears k [.mma 1 2 always] = true ∧ fmtBlk (format (bench k) 2) ≠ fmtBlk (block0 0xC0071).fmt) := by
  decide +kernel

theorem witness_weight_load :
    (let s := bench benchCore; let i : Instr := .wld 1 2 always; let fm := format s 2; let n := 1024 * containerBits fm + 128 * nbOf fm
     let ea := (s.me.b.getD (mctrl s / 2 ^ 20 % 16) {}).val.toNat
     mHandleOf s / 2 ^ 6 % 64 % (containerBits fm / 2) = 0 ∧
       fliesB s i { op := i, latch := 5, cls := 0, isRead := true, align := 64, ea := ea, chunks := [(0, ea, n)], perfAt := 5, latchAt := 7 } = true) ∧
    (let s := bench { benchCore with sop := benchCore.sop.set 9 64 }; clearB s (.wld 1 2 always) = true ∧
      mHandleOf s / 2 ^ 6 % 64 % (containerBits (format s 2) / 2) ≠ 0) ∧
    (let s := bench (withB (2 ^ 63 + 8)); clearB s (.wld 1 2 always) = true ∧ (s.me.b.getD 0 {}).val.toNat % 64 = 8) := by
  decide +kernel

/-- A TIMED gang on the cores of quad 0, each before an MMAQ, with `m` as its joint-issue mark. -/
def quadBench (m : Option Nat) : State :=
  let k : Core := { withBlock 0x71 with tagged := false, pc := placeAddr, mmaq := m }
  { bench k with
    cores := [(0, k), (1, k), (2, k), (3, k)]
    launches := [(0, { placeLaunch with tagged := false })]
    mem := memWrite [] placeAddr (oneSlotBytes (.mmaq 0 2 always)) }

theorem witness_quad_alone : clears (withBlock 0x71) [.mmaq 0 2 always] = true ∧ (bench (withBlock 0x71)).me.tagged = true := by decide +kernel

theorem witness_quad :
    let s := quadBench none
    let i : Instr := .mmaq 0 2 always
    let part (q : Nat) : Option (U64 × BitVec 32 × MmaOp) :=
      if q = s.cur then s.mmaqPart s.cur (oneSlot i) else (s.readyBundle q).bind (fun b => s.mmaqPart q b)
    (s.me.tagged = false ∧ ∀ q ∈ quadCores s.cur, (s.core q).bound = true ∧ (s.core q).launch = s.me.launch) ∧
    s.me.mmaq ≠ some (2 * s.me.lcyc) ∧ s.me.mmaq ≠ some (2 * s.me.lcyc + 1) ∧ clearB s i = true ∧
    ((quadCores s.cur).map part).all (fun p => match p with | some x => x.2.1 == 0x71 | none => false) = true := by
  decide +kernel

theorem witness_quad_member :
    [0, 1].all (fun n => clearB (quadBench (some n)) (.mmaq 0 2 always) && ((quadBench (some n)).me.lcyc == 0)) = true ∧
    (quadBench (some 0)).me.blocks.find? (named (mHandleOf (quadBench (some 0)))) = some (block0 0x71) ∧
    fmtBlk (format (quadBench (some 0)) 2) = 0 := by
  decide +kernel

theorem witness_scale_slots :
    (let s := bench benchCore; let i : Instr := .ldk 3 2 5 always
     let r : Req := { op := i, latch := 6, cls := 0, isRead := true, align := 2, ea := 2 ^ 63 + 266, chunks := [(0, 2 ^ 63 + 266, 128)],
                      perfAt := 5, latchAt := 5, aux := 3 }
     fliesB s i r = true ∧ ((s.me.b.getD 2 {}).val.toNat + 2 * (5 : BitVec 13).toInt : Int) % 2 ^ 64 = 2 ^ 63 + 266) ∧
    (let s := bench benchCore
     [Instr.ldk1 3 2 0 always, .stk 3 2 0 always, .mvk 3 4 always].all (clearB s) = true) ∧
    (let s := bench (withB (2 ^ 63 + 1)); [Instr.ldk 3 2 0 always, .ldk1 3 2 0 always, .stk 3 2 0 always].all (clearB s) = true) ∧
    (let s := bench (withB 0x40000); [Instr.ldk 3 2 0 always, .ldk1 3 2 0 always, .stk 3 2 0 always].all (clearB s) = true) := by
  decide +kernel

/-! ## d, ps, lp, bq and sys -/

theorem witness_commands :
    (clears (withG (u64 (2 ^ 63 + 64))) [.cpy2d 1 always, .cpym 1 always, .gath 1 always, .scat 1 always, .fill 1 always, .kvs 1 always,
      .kvapp 1 always, .kvfork 1 always, .kvdrop 1 always, .nrf 1 always, .prism 1 always, .migr 1 always, .enq 1 always, .mreb 1 always,
      .score 1 always, .rfill 1 always, .pslook 1 always, .psdep 1 always, .psrel 1 always, .pspin 1 always, .lpsub 1 always, .lpdep 1 always,
      .lpres 1 always, .lprb 1 always, .lpset 1 always, .bqpush 1 always, .bqpop 1 always, .bqreq 1 always] = true ∧
      BlockInScratch (bench (withG (u64 (2 ^ 63 + 64)))) (2 ^ 63 + 64)) ∧
    clears (withG (u64 (2 ^ 63 + 65))) [.cpy2d 1 always, .pslook 1 always] = true ∧
    (clears (withG 64) [.cpy2d 1 always, .lpsub 1 always] = true ∧ ¬ BlockInScratch (bench (withG 64)) 64) := by
  unfold BlockInScratch
  decide +kernel

/-- The bench on a core of the other die, and a plain context. -/
def otherDie (k : Core) : State :=
  { bench k with cores := [(2049, { k with ctx := 64 })], ctxs := [(0, placeCtx), (64, placeCtx)], cur := 2049 }
def plainBench (k : Core) : State := { bench k with ctxs := [(0, { placeCtx with priv := false })] }

theorem witness_other_die :
    dieOf (otherDie benchCore).cur = 1 ∧
    [Instr.pslook 1 always, .lpdep 1 always, .bqpop 1 always, .waitt 9 always, .waitl 3 always].all (fun i =>
      clearB (otherDie (withG 64)) i || i == .waitl 3 always) = true := by
  decide +kernel

theorem witness_privileged :
    (plainBench benchCore).me.status = .run ∧ ((plainBench benchCore).coreCtx 0).priv = false ∧
    [Instr.move false 0x70 0 always, .move false 0 0x7F always, .tlbinv 0 always, .ptwfence 0 always, .replay 0 always, .logrd 0 always,
      .ctxsave 0 always, .ctxload 0 always, .dispq 0 always, .freezem 0 always, .halt 0 always].all
      (fun i => i.wf && (popOf i).isNone && (pushOf i).isNone) = true := by
  decide +kernel

theorem witness_privileged_operands :
    (let s := plainBench (withG 0)
     OperandAllowed s (.tlbinv 1 always) ∧ OperandAllowed s (.replay 1 always) ∧ OperandAllowed s (.logrd 1 always) ∧
       OperandAllowed s (.ctxsave 1 always) ∧ OperandAllowed s (.ctxload 1 always) ∧ OperandAllowed s (.freezem 1 always)) ∧
    (let s := plainBench (withG (u64 (2 ^ 20 + 2 ^ 13 + 7)))
     ¬OperandAllowed s (.tlbinv 1 always) ∧ ¬OperandAllowed s (.replay 1 always) ∧ ¬OperandAllowed s (.logrd 1 always) ∧
       ¬OperandAllowed s (.ctxsave 1 always) ∧ ¬OperandAllowed s (.ctxload 1 always) ∧ ¬OperandAllowed s (.freezem 1 always) ∧
       Instr.holds (.tlbinv 1 always) s.me.p = true) := by
  simp only [OperandAllowed, CoreOfDie]
  decide +kernel

theorem witness_system :
    clears (withG 0) [.tlbinv 1 always, .ptwfence 1 always, .replay 1 always, .logrd 1 always, .halt 1 always, .freezem 1 always] = true ∧
    clears (withG 3) [.tlbinv 1 always] = true ∧ clears (withG 8) [.tlbinv 1 always] = true ∧
    (CoreOfDie (bench (withG 0)) 0 ∧ (∀ e ∈ logAt ((bench (withG 0)).core 0) 0, e.valid = false)) ∧
    (clears (withG 0x2000) [.replay 1 always, .logrd 1 always] = true ∧ ((bench (withG 0x2000)).src1 (.replay 1 always)).toNat / 2 ^ 12 % 4 = 2) := by
  unfold CoreOfDie
  decide +kernel

/-- A core with a dirty byte of the line at 0x40000 in its L1. -/
def withDirty (k : Core) : Core := { k with l1 := [(lineOf 0x40000, ({} : CLine).putByte 1 7 true)] }

/-- Such a core of Eplia, its PTWFENCE at the end of its wait. -/
def drainedDie : State := otherDie { withDirty benchCore with sysw := some { bundle := 0, cut := [], outCut := 0, stage := 2 } }

theorem witness_write_back :
    [bench (withDirty benchCore), drainedDie].all (fun s =>
      clearB s (.ptwfence 0 always) && (s.me.sysw.isNone || dieOf s.cur == 1) && s.me.logsEmpty && s.me.mops.isEmpty && (s.me.l1 == [(lineOf 0x40000, ({} : CLine).putByte 1 7 true)]) && (Tbl.getD s.qsb (quadOf s.cur) []).isEmpty
      && decide (128 * lineOf 0x40000 = 0x40000) && decide (1 < s.dies.length) && (s.die 1).rdc.isEmpty && decide (s.mem = [])) = true ∧
    (∀ j, j < 128 → homeDie (0x40000 + j) = some 0) ∧ dieOf (bench (withDirty benchCore)).cur = 0 ∧ dieOf (drainedDie).cur = 1 ∧
    Open (bench (withDirty benchCore)) 0x40000 128 ∧ Open (drainedDie) 0x40000 128 := by
  refine ⟨by decide +kernel, by decide +kernel, by decide +kernel, by decide +kernel, open_of _ _ _ (by decide +kernel), open_of _ _ _ (by decide +kernel)⟩

/-- The bench with one store of core 0 in its log, to a virtual address. -/
def logBench (va : Nat) : State :=
  bench { benchCore with g := benchCore.g.set 1 0, logL := benchCore.logL.set 3 { valid := true, ea := va, kind := 3, data := 5 } }

theorem witness_replay :
    [2 ^ 55, 2 ^ 51, 0x40000].all (fun va =>
      let s := logBench va
      clearB s (.replay 1 always) && ((s.src1 (.replay 1 always)).toNat == 0) && ((logAt (s.core 0) 0).length == 32) && ((logAt (s.core 0) 0).getD 3 {}).valid
        && !((logAt (s.core 0) 0).getD 3 {}).going && (List.range 32).all (fun n => n == 3 || !((logAt (s.core 0) 0).getD n {}).valid)
        && (logAt (s.core 0) 1).all (fun x => !x.valid)) = true ∧
    (∀ va, coreIdOk 0 = true ∧ Clean (logBench va) 0) ∧ CoreOfDie (logBench 0) 0 ∧
    (let e (va : Nat) : LogEnt := (logAt ((logBench va).core 0) 0).getD 3 {}
     (logBench (2 ^ 55)).logPieces 0 (e (2 ^ 55)).spans = .error .xlate ∧ (logBench (2 ^ 51)).logPieces 0 (e (2 ^ 51)).spans = .error .range ∧
       (logBench (2 ^ 51)).me.status = .run ∧
       (logBench 0x40000).logPieces 0 (e 0x40000).spans = .ok [{ off := 0, len := 8, loc := 0x40000 }] ∧ (e 0x40000).kind ≠ 5 ∧
       homeDie 0x40000 = some (dieOf 0) ∧ placeOf 0x40000 = .hbm ∧ (logBench 0x40000).engineTile 0x40000 = false ∧
       (logBench 0x40000).engineTile 0x40007 = false) ∧
    Open (logBench 0x40000) 0x40000 8 := by
  refine ⟨by decide +kernel, fun va => ⟨by decide, nofun, by rfl⟩, ⟨by decide +kernel, by decide +kernel⟩, by decide +kernel, open_of _ _ _ (by decide +kernel)⟩

/-- The bench with the die's own context 5 selected, an argument, and an operand. -/
def sysBench (arg t : U64) : State := bench { withG t with ss := (benchCore.ss.set 1 arg).set 3 5 }

theorem witness_contexts :
    (clearB (sysBench 0 0x40000) (.ctxsave 1 always) = true ∧ clearB (sysBench 0 0x40000) (.ctxload 1 always) = true ∧ Memory.wf (sysBench 0 0).mem = true ∧
      ((atTrigger (sysBench 0 0x40000) (.ctxsave 1 always)).xlateChunk 0 { w := true } false (0, 0x40000, 512)).2 =
        .ok [{ off := 0, len := 512, loc := 0x40000 }]) ∧
    (clearB (sysBench 0 0x40020) (.ctxsave 1 always) = true ∧ clearB (sysBench 0 0x40020) (.ctxload 1 always) = true) ∧
    (clearB (sysBench 0 (u64 (2 ^ 55))) (.ctxload 1 always) = true ∧
      ((atTrigger (sysBench 0 (u64 (2 ^ 55))) (.ctxload 1 always)).xlateChunk 0 { r := true } false (0, 2 ^ 55, 512)).2 = .error (.xlate, 2 ^ 55)) ∧
    ((sysBench 0 0).ctxBusy 5 = false ∧ (sysBench 0 0).ctxBusy 0 = true) ∧ Open (sysBench 0 0x40000) (0x40000 / 128 * 128) 640 :=
  ⟨by decide +kernel, by decide +kernel, by decide +kernel, by decide +kernel, open_of _ _ _ (by decide +kernel)⟩

theorem witness_queues :
    (clearB (sysBench 7 0x40000) (.dispq 1 always) = true ∧ argument (sysBench 7 0) / 256 % 2 = 0) ∧
    (clearB (sysBench 263 0x40000) (.dispq 1 always) = true ∧ argument (sysBench 263 0) / 256 % 2 = 1 ∧
      ((atTrigger (sysBench 263 0x40000) (.dispq 1 always)).xlateChunk 0 { r := true, w := true } false (0, 0x40000, 192)).2 =
        .ok [{ off := 0, len := 192, loc := 0x40000 }]) ∧
    descOk (memWrite [] 0x40000 (toBytes 8 0x50000 ++ toBytes 8 (4 + 3 * 2 ^ 23))) 0x40000 = true ∧
    (clearB (sysBench 263 (u64 (2 ^ 55))) (.dispq 1 always) = true ∧
      ((atTrigger (sysBench 263 (u64 (2 ^ 55))) (.dispq 1 always)).xlateChunk 0 { r := true, w := true } false (0, 2 ^ 55, 192)).2 = .error (.xlate, 2 ^ 55)) := by
  decide +kernel

/-- The bench with core 1 in some status beside. -/
def freezeBench (st : CoreStatus) (t : U64) : State := let k := withG t; { bench k with cores := [(0, k), (1, { benchCore with status := st })] }

theorem witness_freeze :
    (clearB (freezeBench .run 0x10001) (.freezem 1 always) = true ∧ CoreOfDie (freezeBench .run 0x10001) 1 ∧ 0x10001 / 2 ^ 16 % 2 = 1) ∧
    clearB (freezeBench .stopped 1) (.freezem 1 always) = true ∧ clearB (freezeBench .idle 1) (.freezem 1 always) = true ∧
    clearB (freezeBench .run 0x100000) (.freezem 1 always) = true := by
  unfold CoreOfDie
  decide +kernel

/-! ## The sync slot, the links and guards -/

theorem witness_sync :
    (let k := { benchCore with cf := benchCore.cf.set 3 2 }; clears k [.waitf 3 2 always, .waitf 3 0 always] = true ∧ CleanCopies (bench k)) ∧
    clears (withG 1) [.sete 200 always, .clre 7 always, .postf 3 2 0 1 always, .postf 3 2 1 0 always] = true ∧
    (bench (withG 1)).shapeCore 0 0 1 = true ∧
    (clears (withG 4096) [.postf 3 2 0 1 always] = true ∧ ((bench (withG 4096)).me.g.getD 1 0).toNat = 4096) ∧
    (clearB { bench benchCore with ctxs := [(0, { placeCtx with ev := 4, tflags := 32 })] } (.waite 2 always) = true ∧
      clearB { bench benchCore with ctxs := [(0, { placeCtx with ev := 4, tflags := 32 })] } (.waitt 5 always) = true) ∧
    (clearB { bench benchCore with ports := [(0, { inq := (List.replicate 8 []).set 3 [9] })] } (.waitl 3 always) = true ∧
      (edgePort (bench benchCore).cur).isSome = true) ∧
    ((edgePort (otherDie benchCore).cur).isSome = false ∧ (otherDie benchCore).me.status = .run ∧ Instr.wf (.waitl 3 always) = true) := by
  unfold CleanCopies
  decide +kernel

theorem witness_barriers :
    [Instr.barq 2 always, .barg 2 always].all (fun i => clearB (bench { benchCore with
      barrier := some (16 + (if i == .barq 2 always then 0 else 1), 2, 0) }) i) = true ∧
    (let s : State := { bench benchCore with cores := [(0, benchCore), (1, benchCore)] }
     [Instr.barq 2 always, .barg 2 always].all (clearB s) = true ∧
       [0, 1].all (fun kind => (s.barCores 0 kind).any (fun d => d != 0 && (s.core d).barrier.isNone)) = true) := by
  decide +kernel

theorem witness_links :
    edgePort 0 = some 0 ∧
    clearB { bench benchCore with ports := [(0, { inq := (List.replicate 8 []).set 3 [9] })] } (.move false 0x83 5 always) = true ∧
    clearB (bench benchCore) (.move false 5 0x83 always) = true := by
  decide +kernel

theorem witness_guard :
    (bench benchCore).me.status = .run ∧ Instr.holds (.add 1 0 0 3) (bench benchCore).me.p = false ∧
    (bench benchCore).roleStop 0 (oneSlot (.add 1 0 0 3)).slots = none ∧ Instr.wf (.add 1 0 0 3) = true := by
  decide +kernel


/-! ## Sticky units, repeats and body ends -/

/-- The conditions of `ClearBut`, as a test. -/
def clearButB (s : State) (i : Instr) (u : FUnit) (st : Sticky) : Bool :=
  clearB (s.modCore s.cur (fun k => k.setSticky u none)) i && (s.me.stickyOf u == some st) && (unitOf i != u) &&
  ((s.latchMove (s.act1 i)).actWait (reAct s.cur s.me 0 ((s.me.pc + 8) % 2 ^ 56) st) == .go)

theorem clearBut_of (s : State) (i : Instr) (u : FUnit) (st : Sticky) (h : clearButB s i u st = true) : ClearBut s i u st := by
  simp only [clearButB, Bool.and_eq_true, beq_iff_eq, bne_iff_ne, ne_eq] at h
  exact ⟨clear_of _ _ h.1.1.1, h.1.1.2, h.1.2, h.2⟩

/-- The sticky state that a trigger leaves. -/
def stickyFor (i : Instr) : Sticky := { op := i, tv := 8, slot := 0, idx := 3 }

theorem witness_own_word : OwnWord (bench benchCore) (2 ^ 63 + 264) := ⟨264, by decide +kernel⟩

theorem witness_sticky :
    [Instr.ld64 1 0 2 always, .xq 1 2 always, .xgetf 1 2 always, .mzero 1 always, .mrd 1 always].all (fun i =>
      clearB (bench benchCore) i && [FUnit.l, .x, .m].contains (unitOf i)) = true ∧
    (let i : Instr := .move false 1 2 always; let k (u : Instr) : Core := { benchCore with stL := some (stickyFor u) }
     [Instr.ld64 1 0 2 always, .st64 1 0 2 always].all (fun u => clearButB (bench (k u)) i .l (stickyFor u) && (k u).logsEmpty
       && !(k u).atBodyEnd 0x10000) = true ∧
     clearButB (bench (k (.ld64 1 0 2 always))) (.idle 1 always) .l (stickyFor (.ld64 1 0 2 always)) = true ∧ benchCore.sop.getD 5 0 = 0) ∧
    (BitVec.ofInt 64 ((stepped (benchCore.b.getD 2 {})).val.toNat + ((8 : V).setWidth 64).toInt)).toNat = 2 ^ 63 + 264 ∧
    (let k := { withBlock 0x71 with stM := some (stickyFor (.mrd 1 always)) }
     clearButB (bench k) (.move false 1 2 always) .m (stickyFor (.mrd 1 always)) = true ∧
       (bench k).me.blocks.find? (named (mHandleOf (bench k))) = some (block0 0x71)) := by
  decide +kernel

theorem issue_of (s : State) (c : Nat) (h : (match (s.tryBundle c).2 with | .issue _ => true | _ => false) = true) :
    ∃ u t, s.tryBundle c = (u, .issue t) := by
  cases hr : s.tryBundle c with
  | mk u t =>
    rw [hr] at h
    cases t with
    | issue t => exact ⟨u, t, rfl⟩
    | _ => simp at h

/-- A TIMED core in issue `n` of a bundle of LD64 with REP 1 and STOP. -/
def repBench (n : Nat) : State :=
  { bench { benchCore with tagged := false, rep := n, stL := if n = 0 then none else some (stickyFor (.ld64 1 0 2 always)) } with
    launches := [(0, { placeLaunch with tagged := false })]
    mem := memWrite [] 0x10000 (toBytes 4 (2 ^ 23 + 2 ^ 13 + 2 ^ 31) ++ toBytes 4 (encode (.ld64 1 0 2 always))) }

theorem witness_repeat :
    [0, 1].all (fun n =>
      let s := repBench n
      !(s.core 0).tagged && ((s.core 0).rep == n) && (s.core 0).xfer.isNone && !(s.core 0).atBodyEnd (s.core 0).pc
      && (match (s.tryBundle 0).2 with | .issue _ => true | _ => false)
      && (match (s.fetchBundle 0).2 with
          | .ok q => (q.rep == 1) && q.stop && (q.slots == [{ pos := 0, i := .ld64 1 0 2 always }])
          | .error _ => false)
      && ((s.core 0).stL == if n = 0 then none else some (stickyFor (.ld64 1 0 2 always)))
      && (s.core 0).stX.isNone && (s.core 0).stM.isNone && Instr.holds (.ld64 1 0 2 always) (s.core 0).p) = true := by
  decide +kernel

/-- The bench with levels whose body ends here, each with its trips left. -/
def endBench (l : List (Nat × Nat)) : State :=
  bench { benchCore with loops := l.foldl (fun r x => r.set x.1 { active := true, remaining := x.2, start := 0x8000, fin := 0x10000 }) benchCore.loops }

theorem witness_body_ends :
    [[(3, 2)], [(3, 1)], [(3, 2), (1, 2)], [(3, 1), (1, 2)]].all (fun l =>
      let s := endBench l
      clearB s (.move false 1 2 always) && s.me.xfer.isNone && (s.me.loops.length == 8) && (s.me.loops.getD 3 {}).active
      && ((s.me.loops.getD 3 {}).fin == s.me.pc)
      && (List.range 8).all (fun m => l.any (fun x => x.1 == m) || !((s.me.loops.getD m {}).active && (s.me.loops.getD m {}).fin == s.me.pc))) = true := by
  decide +kernel

/-! ## Results, held slots, waits and stops -/

theorem pair_of_some {α β : Type} (o : Option (α × β)) (p : α → Bool) (h : (match o with | some x => p x.1 | none => false) = true) :
    ∃ a b, o = some (a, b) ∧ p a = true := by
  match o, h with
  | some (a, b), h => exact ⟨a, b, rfl, h⟩

/-- A result due now, one of each kind, and products and blocks due now and later. -/
theorem witness_results :
    (let due (e : Eff) : State := bench { benchCore with clk := 9, pend := [{ due := 9, seq := 0, trig := true, eff := e }] }
     [Eff.sres 1 5, .vres 2 5, .xchunk 8 1 [1, 2], .kent 3 4 5, .kreg 3 5].all (fun e =>
       (due e).clkTicks 0 && ((due e).core 0).pend.all (fun p => decide (p.due ≤ ((due e).core 0).clk))) = true) ∧
    (let fly (d : Nat) (q : Bool) : State := bench { benchCore with
       clk := 9, mma := [{ acc := 2, cyc := 0, planes := 1, due := d, mac := 0, res := List.replicate 32 0, quad := q }] }
     [(9, true), (9, false), (10, true), (10, false)].all (fun x => (fly x.1 x.2).clkTicks 0 && ((fly x.1 x.2).core 0).mma.length == 1) = true) ∧
    (let load (n : Nat) : State := bench { benchCore with clk := 9, wld := [{ blk := block0 0x71, usable := n, fixed := true, mop := 0 }] }
     [10, 11].all (fun n => (load n).clkTicks 0 && ((load n).core 0).mops.isEmpty && !((load n).core 0).frz) = true) := by
  decide +kernel

/-- An XLD's return that is due, and behind it a chunk of a later conversion that is put into it. -/
theorem witness_xld_before_chunk :
    let o : MOp := { flying (.xld 1 2 always) 4 8 true false with perf := true, ret := 9, cyc := 0 }
    let m : MOp := { markOf { benchCore with clk := 6 } (.xq 1 2 always) 0 with id := 4, perf := false, fixed := false, data := 5, aux := 32 * 8, mark := o.id }
    let s := bench { benchCore with clk := 9, mops := [o, m] }
    s.clkTicks 0 = true ∧ o.op = .xld 1 2 always ∧ o.latch = 4 ∧ o.isRead = true ∧ o.perf = true ∧ o.ret ≤ (s.core 0).clk ∧
      o.cyc + 10 ≤ (s.core 0).clk + 1 ∧ m.latch = 4 ∧ m.isRead = false ∧ m.perf = false ∧ m.fixed = false ∧ m.mark = o.id ∧
      m.op = .xq 1 2 always ∧ m.cyc + 3 ≤ (s.core 0).clk ∧ m.id ≠ o.id ∧ (s.core 0).mops = [o, m] ∧ (s.core 0).held = [] ∧ (s.core 0).pend = [] := by
  decide +kernel

/-- A held slot of an instruction. -/
def heldOf (i : Instr) (slot : Nat) : Held := { op := i, slot := slot, re := false, pc := 0x10000, limm := 0, st := none, bundle := 0, vals := [], ptrs := [] }

/-- Code at the bench's pc. -/
def withCode (k : Core) (i : Instr) : State := { bench k with mem := memWrite [] 0x10000 (oneSlotBytes i) }

/-- The bundle at core 0's pc is one slot of an instruction. -/
def fetches (s : State) (i : Instr) : Bool := match (s.fetchBundle 0).2 with | .ok q => q == oneSlot i | .error _ => false

theorem witness_held :
    (let s := bench { benchCore with held := [heldOf (.move false 1 2 always) 0] }
     (s.core 0).status = .run ∧ (s.core 0).frz = false ∧ (s.core 0).held = [heldOf (.move false 1 2 always) 0] ∧ (s.coreCtx 0).schk = false) ∧
    (let s := bench { benchCore with held := [heldOf (.move true 0x21 2 always) 8], t := benchCore.t.set 1 { ready := false } }
     (s.core 0).held = [heldOf (.move true 0x21 2 always) 8] ∧ ((s.core 0).t.getD 1 {}).ready = false) := by
  decide +kernel

theorem witness_tried_again :
    [(Instr.waita 0 1 2 always, 0), (.waitf 3 2 always, 1), (.waitl 2 always, 2)].all (fun x =>
      let p : Instr → Bool := if x.2 = 0 then isWaita else if x.2 = 1 then isSync else linkSlot
      let held := bench { benchCore with held := [heldOf x.1 0] }
      (held.core 0).held.any (fun h => p h.op) && fetches (withCode benchCore x.1) x.1 && (oneSlot x.1).slots.any (fun b => p b.i)
        && fetches (withCode benchCore (.add 1 0 0 always)) (.add 1 0 0 always) && (oneSlot (.add 1 0 0 always)).slots.all (fun b => !p b.i)) = true := by
  decide +kernel

theorem stop_of (s : State) (c : Nat) (h : (match (s.tryBundle c).2 with | .stop _ => true | _ => false) = true) :
    ∃ u st, s.tryBundle c = (u, .stop st) ∧ u = (s.tryBundle c).1 := by
  cases hr : s.tryBundle c with
  | mk u t =>
    rw [hr] at h
    cases t with
    | stop st => exact ⟨u, st, rfl, rfl⟩
    | _ => simp at h

/-- The bench before a privileged slot of a plain context, with a trap queue of some length. -/
def stopBench (n w : Nat) : State :=
  { withCode benchCore (.halt 0 always) with ctxs := [(0, { placeCtx with priv := false })], dies := [{ trapqbase := 0x50000, trapqn := n, trapqw := w }, {}] }

/-- With a Mirror region of k 2 and m 1 over all of HBM, of which this package holds parity. -/
def guarding (s : State) : State :=
  { s with mirbase := 2 ^ 41, mem := memWrite s.mem (2 ^ 41) ([0, 2 ^ 40, 2 + 2 ^ 4 + 2 * 2 ^ 8 + 2 ^ 12].flatMap (toBytes 8)) }

/-- A member of a TIMED gang in a cycle that began with stops on the cores of a list. -/
def stoppingBench (stops : List (Nat × Stop)) : State :=
  let s := bench { benchCore with tagged := false }
  { s with launches := [(0, { s.launch 0 with stopping := true, stops := stops })] }

/-- The place of a trap entry in a parity range; a gang's stop found and not found; and an entry of an Eplia core, whose place is on Nared. -/
theorem witness_more_stops :
    (let s := guarding (stopBench 4 1)
     let u := (s.tryBundle 0).1
     (match (s.tryBundle 0).2 with | .stop _ => true | _ => false) && u.isParity (0x50000 + 64) && ((u.die 0).trapqn == 4) && ((u.die 0).trapqw == 1)) = true ∧
    (let st : Stop := { cause := 2, slot := 0 }
     (stoppingBench [(0, st)]).core 0 = { benchCore with tagged := false } ∧ ((stoppingBench [(0, st)]).launch 0).stopping = true ∧
     ((stoppingBench [(0, st)]).launch 0).stops.find? (fun p => p.1 == 0) = some (0, st) ∧
     ((stoppingBench [(1, st)]).launch 0).stopping = true ∧ ∀ p ∈ ((stoppingBench [(1, st)]).launch 0).stops, p.1 ≠ 0) ∧
    (let c := 2048
     let s : State := { State.reset with cores := [(c, { trapWait := true, trapWs := List.replicate 8 7 })], dies := [{}, { trapqn := 4, trapqw := 1, trapqbase := 0x50000 }] }
     dieOf c = 1 ∧ (s.core c).trapWait = true ∧ ((s.die 1).trapqw + 2 ^ 32 - (s.die 1).trapqr) % 2 ^ 32 ≠ (s.die 1).trapqn ∧
       s.isParity (0x50000 + 64) = false ∧ homeDie (0x50000 + 64) = some 0 ∧ (∀ j, j < 64 → homeDie (0x50000 + 64 + j) = homeDie (0x50000 + 64))) := by
  decide +kernel

theorem witness_stops :
    [(0, 0), (4, 1), (4, 4)].all (fun q =>
      let s := stopBench q.1 q.2
      let u := (s.tryBundle 0).1
      (match (s.tryBundle 0).2 with | .stop _ => true | _ => false) && (s.core 0).tagged && ((u.core 0).ss.length == 16) && (u.dies.length == 2)
        && ((u.die 0).trapqn == q.1) && ((u.die 0).trapqw == q.2) && (u.core 0).tagged && ((u.die 0).trapCyc != u.now + 1)
        && !u.isParity (0x50000 + 64 * (q.2 % q.1))) = true ∧
    (let s : State := { bench { benchCore with trapWait := true, trapWs := List.replicate 8 7 } with dies := [{ trapqn := 4, trapqw := 1 }, {}] }
     (s.core 0).trapWait = true ∧ (s.die 0).trapqn ≠ 0 ∧ ((s.die 0).trapqw + 2 ^ 32 - (s.die 0).trapqr) % 2 ^ 32 ≠ (s.die 0).trapqn ∧
       s.isParity ((s.die 0).trapqbase + 64 * (1 % 4)) = false ∧ (s.die 0).trapqbase + 64 * (1 % 4) < 2 ^ 64) ∧
    (let s : State := { bench { benchCore with trapWait := true } with dies := [{ trapqn := 4, trapqw := 4 }, {}] }
     ((s.die 0).trapqw + 2 ^ 32 - (s.die 0).trapqr) % 2 ^ 32 = (s.die 0).trapqn) := by
  decide +kernel

/-! ## Engine commands -/

/-- A command block of eight words. -/
def words (l : List Nat) : BitVec 512 := BitVec.ofNat 512 (packNat 64 l)

/-- A command of `op` with number 1, its block at scratch 0. -/
def cmdOf (op : Instr) : Cmd := { seq := 1, tag := 0, op := op, pc := 0x10000, blkAddr := 0, acc := 0, rdcMark := 0, start := some 1 }

/-- The bench with one command in core 0's queue. -/
def cmdBench (cmd : Cmd) (m : List Host.Cell) : State := { bench { benchCore with cmds := [cmd], ecyc := 9, eng := [0] } with mem := m }

/-- FILL of four bytes of scratch, in words 4 and 5. -/
def fillBlock : BitVec 512 := words [0, 0, 0, 0, 2 ^ 63, 4 + 2 ^ 32, 0, 0]

theorem witness_command_read :
    (let cmd := { cmdOf (.fill 0 always) with start := none }
     let s := cmdBench cmd (memWrite [] (scratchLoc 0 0) (toBytes 64 fillBlock.toNat))
     Queued s 0 cmd ∧ cmd.block = none ∧ cmd.acc + 4 ≤ (s.core 0).ecyc ∧ (s.core 0).mops = [] ∧
       (s.commonOk 0 (blockOf s 0 cmd) && ownOk cmd.op (blockOf s 0 cmd) && s.poolOk 0 cmd.op (blockOf s 0 cmd)) = true) ∧
    (let cmd := { cmdOf (.fill 0 always) with start := none }
     let s := cmdBench cmd []
     Queued s 0 cmd ∧ (s.commonOk 0 (blockOf s 0 cmd) && ownOk cmd.op (blockOf s 0 cmd) && s.poolOk 0 cmd.op (blockOf s 0 cmd)) = false) ∧
    (let cmd := { cmdOf (.fill 0 always) with start := none, block := some fillBlock }
     let s := cmdBench cmd []
     Queued s 0 cmd ∧ (s.core 0).mayStart cmd = true ∧ cmd.lane = 0) ∧
    (let cmd := { cmdOf (.fill 0 always) with start := none, block := some fillBlock, lane := 1 }
     let s := cmdBench cmd []
     (s.core 0).mayStart cmd = true ∧ cmd.lane ≠ 0) ∧
    (let cmd := { cmdOf (.fill 0 always) with block := some (words [64, 0, 0, 0, 2 ^ 63, 4 + 2 ^ 32, 0, 0]) }
     let s : State := bench { benchCore with cmds := [{ cmd with seq := 0 }, cmd] }
     Queued s 0 cmd ∧ bOrd (words [64, 0, 0, 0, 2 ^ 63, 4 + 2 ^ 32, 0, 0]) = true ∧ (s.core 0).before 1 ≠ []) := by
  unfold Queued
  decide +kernel

/-- A finished FILL with block `b`. -/
def doneCmd (b : BitVec 512) (status : Nat) : Cmd := { cmdOf (.fill 0 always) with block := some b, finished := true, due := 2, status := status }

theorem witness_command_complete :
    (let cmd := doneCmd fillBlock 0; Queued (cmdBench cmd []) 0 cmd ∧ cmd.ended = true ∧ bNotify fillBlock = 0 ∧ bCwaddr fillBlock = 0 ∧ statusIsError 0 = false) ∧
    (let b := words [2 + 3 * 2 ^ 8 + 1 * 2 ^ 16, 0, 0, 0, 2 ^ 63, 4 + 2 ^ 32, 0, 0]
     let cmd := doneCmd b 0
     let s : State := { cmdBench cmd [] with cores := [(0, { benchCore with cmds := [cmd], ecyc := 9 }), (1, benchCore)] }
     Queued s 0 cmd ∧ bNotify b = 2 ∧ s.notifyOk 0 b = true ∧ bNcore b = 1 ∧ bCwaddr b = 0 ∧ (s.core 1).bound = true ∧
       (s.core 1).launch = (s.core 0).launch) ∧
    (let b := words [3 * 2 ^ 2, 0, 0x40000, 0, 2 ^ 63, 4 + 2 ^ 32, 0, 0]
     let cmd := doneCmd b 0
     let s := cmdBench cmd []
     Queued s 0 cmd ∧ bNotify b = 0 ∧ HeapLoc s 0 (bCwaddr b) 0x40000 ∧ bCwaddr b ≠ 0 ∧ cwOk b = true ∧ bfld b 2 63 56 = 0 ∧ bAbr b = false ∧
       scopeRank (bCwscope b) < 4) ∧
    (let cmd := doneCmd fillBlock 5; cmd.ended = true ∧ statusIsError 5 = true ∧ ((cmdBench cmd []).core 0).drec = 0) ∧
    (let s := cmdBench (doneCmd fillBlock 0) []
     (doneCmd fillBlock 0).fin = 0 ∧ s.outs = [] ∧ s.writeHeld (s.core 0).ctx 0x40000 8 = false) ∧
    (let b := words [7 * 2 ^ 2, 0, 0x40000, 0, 2 ^ 63, 4 + 2 ^ 32, 0, 0]
     let cmd := { doneCmd b 0 with fin := 2, mark := 5 }
     let s : State := { cmdBench cmd [] with deltas := [{ id := 4, region := 0, line := 0, shard := 0, waiting := [9], core := 0, delta := 0 }] }
     Queued s 0 cmd ∧ cmd.ended = true ∧ bCwscope b = 7 ∧ s.deltasAcked cmd.mark = false) := by
  unfold Queued HeapLoc
  decide +kernel

/-- A WORD for core 1 of the gang, an EVENT, a FLAG for core 5 with a task saved there and with none, and an arrival on a byte barrier. -/
def wordBlock : BitVec 512 := words [1 + 2 ^ 16 + 64 * 2 ^ 28, 9, 0, 0, 2 ^ 63, 4 + 2 ^ 32, 0, 0]
def eventBlock : BitVec 512 := words [3 + 7 * 2 ^ 8, 0, 0, 0, 2 ^ 63, 4 + 2 ^ 32, 0, 0]
def flagBlock : BitVec 512 := words [2 + 3 * 2 ^ 8 + 5 * 2 ^ 16, 0, 0, 0, 2 ^ 63, 4 + 2 ^ 32, 0, 0]
def arriveBlock : BitVec 512 := words [2 ^ 5 + 3 * 2 ^ 2, 0, 0x40000, 0, 2 ^ 63, 4 + 2 ^ 32, 0, 0]
def notifyBench (b : BitVec 512) (l : List (Nat × Nat × Core)) : State :=
  { cmdBench (doneCmd b 0) [] with
    cores := [(0, { benchCore with cmds := [doneCmd b 0], ecyc := 9 }), (1, benchCore)]
    launches := [(0, { placeLaunch with saved := l })] }
def arriveBench (y : Nat) : State := cmdBench { doneCmd arriveBlock 0 with pay := 8 } (memWrite [] 0x40000 (toBytes 8 y))

theorem witness_notifications :
    (let s := notifyBench wordBlock []
     Queued s 0 (doneCmd wordBlock 0) ∧ bNotify wordBlock = 1 ∧ s.notifyOk 0 wordBlock = true ∧ bNcore wordBlock = 1 ∧ bNoff wordBlock = 64 ∧
       bCwaddr wordBlock = 0 ∧ (s.core 1).bound = true ∧ (s.core 1).launch = (s.core 0).launch ∧ 64 + 8 ≤ s.scratchLen 1 ∧
       s.engineTile (scratchLoc 1 64) = false ∧ s.engineTile (scratchLoc 1 71) = false) ∧
    Open (notifyBench wordBlock []) (scratchLoc 1 64) 8 ∧
    (let s := notifyBench eventBlock []
     Queued s 0 (doneCmd eventBlock 0) ∧ bNotify eventBlock = 3 ∧ s.notifyOk 0 eventBlock = true ∧ bCwaddr eventBlock = 0) ∧
    [[], [(0, 5, benchCore)]].all (fun l =>
      let s := notifyBench flagBlock l
      (bNotify flagBlock == 2) && (bNcore flagBlock == 5) && (bCwaddr flagBlock == 0) && s.notifyOk 0 flagBlock && !(s.core 5).bound
        && ((s.core 0).drec == 0) && ((s.launch 0).saved.any (fun y => y.2.1 == 5) == !l.isEmpty)) = true ∧
    (let s := arriveBench 0
     Queued s 0 { doneCmd arriveBlock 0 with pay := 8 } ∧ HeapLoc s 0 (bCwaddr arriveBlock) 0x40000 ∧
       s.physCheck 0x40000 { r := true, w := true } = none ∧ cwOk arriveBlock = true ∧ bAbr arriveBlock = true ∧
       scopeRank (bCwscope arriveBlock) < 4 ∧ s.writeHeld 0 0x40000 8 = false) ∧
    [0, 16, 2 ^ 48].map (fun y => barOver y 8) = [true, false, true] ∧ Open (arriveBench 0) 0x40000 8 := by
  refine ⟨by unfold Queued; decide +kernel, open_of _ _ _ (by decide +kernel), by unfold Queued; decide +kernel, by decide +kernel,
    by unfold Queued HeapLoc; decide +kernel, by decide +kernel, open_of _ _ _ (by decide +kernel)⟩

/-- A CPYM whose copy has ended, with word 5 and word 7 of its block. -/
def cpymBlock (fop h : Nat) : BitVec 512 := words [0, 0, 0, 2 ^ 63, 2 ^ 63 + 64, 4 + fop * 2 ^ 24 + 2 ^ 32, 0, h]
def cpymCmd (fop h : Nat) : Cmd := { cmdOf (.cpym 0 always) with block := some (cpymBlock fop h), phase := 1 }
def cpymBench (k : Core) (fop h : Nat) : State := bench { k with cmds := [cpymCmd fop h] }

theorem witness_follow_on :
    [(2, 0), (1, 0), (1, 64), (2, 31 * 2 ^ 26)].all (fun x =>
      let s := cpymBench (withBlock 0x71) x.1 x.2
      ((s.core 0).cmd? 1 == some (cpymCmd x.1 x.2)) && !(cpymCmd x.1 x.2).finished && !(s.core 0).mTrig && (s.core 0).found.isNone
        && (s.core 0).wld.isEmpty && ((s.core 0).cmds == [cpymCmd x.1 x.2]) && (s.core 0).mma.isEmpty
        && ((s.core 0).t.getD (bfld (cpymBlock x.1 x.2) 7 19 16) {}).ready && (bFop (cpymBlock x.1 x.2) == x.1)
        && (bfld (cpymBlock x.1 x.2) 7 15 0 == x.2 % 65536)) = true ∧
    ((cpymBench { benchCore with mTrig := true } 2 0).core 0).mTrig = true ∧
    (benchCore.fm.getD (bFfm (cpymBlock 2 0)) 0 = 0x71 ∧ (withBlock 0x71).blocks.find? (named 0) = some (block0 0x71) ∧ fmtBlk 0x71 = 0) ∧
    benchCore.blocks.find? (named 0) = none ∧ fmtBlk 0x71 ≠ fmtBlk (block0 0xC0071).fmt ∧
    (fmtBlk 0x40071 ≠ 0 ∧ 32 < bfld (cpymBlock 2 (31 * 2 ^ 26)) 7 30 26 + nbOf 0x40071 / 2) ∧
    (let s := cpymBench (withBlock 0x71) 1 0
     bDst (cpymBlock 1 0) = 2 ^ 63 + 64 ∧ 64 + wldBytes 0x71 ≤ s.scratchLen 0 ∧ 64 + wldBytes 0x71 ≤ 2 ^ 21 ∧ coreIdOk 0 = true ∧
       0 / 2 ^ 6 % 64 % (containerBits 0x71 / 2) = 0 ∧ 64 / 2 ^ 6 % 64 % (containerBits 0x71 / 2) ≠ 0) := by
  decide +kernel

/-- An ENQ of `n` packets to the queue of four slots at 0x40000 whose write index stands at `w`. -/
def enqBlock (n : Nat) : BitVec 512 := words [0, 0, 0, 0x40000, 2 ^ 63 + 64, n, 0, 0]
def enqCmd (n : Nat) : Cmd := { cmdOf (.enq 0 always) with block := some (enqBlock n) }
def enqBench (n w : Nat) : State :=
  cmdBench (enqCmd n) (memWrite [] 0x40000 (toBytes 8 0x50000 ++ toBytes 8 (4 + 3 * 2 ^ 23) ++ List.replicate 48 0 ++ toBytes 8 w))

theorem witness_enq :
    [(1, 3), (2, 2), (2, 1), (1, 4), (2, 3)].map (fun x =>
      let s := enqBench x.1 x.2
      ((s.core 0).cmd? 1 == some (enqCmd x.1)) && (wordAt s 0x40000 8 % 2 ^ 56 == 0x50000) && (wordAt s 0x40008 8 % 2 ^ 17 == 4)
        && (bfld (enqBlock x.1) 5 1 0 == x.1) && (bfld (enqBlock x.1) 3 63 0 == 0x40000) && (bDst (enqBlock x.1) == 2 ^ 63 + 64)
        && decide (64 + 64 * x.1 ≤ s.scratchLen 0) && (wordAt s 0x40040 8 == x.2) && (wordAt s 0x40080 8 == 0) && (s.core 0).bound
        && decide ((wordAt s 0x40040 8 + 2 ^ 64 - wordAt s 0x40080 8) % 2 ^ 64 < 4 - (x.1 - 1))) = [true, true, true, false, false] ∧
    ((enqCmd 1).start.isSome = true ∧ (enqCmd 1).got = [] ∧ Memory.wf (enqBench 2 1).mem = true) ∧
    [(enqBench 1 3, 0x500C0), (enqBench 2 2, 0x50080), (enqBench 2 2, 0x500C0), (enqBench 2 1, 0x50040)].all (fun x =>
      heapB x.1 0 x.2 64 && heapB x.1 0 0x40000 192) = true ∧
    Open (enqBench 1 3) 0x40000 192 ∧ Open (enqBench 1 3) 0x500C0 64 :=
  ⟨by decide +kernel, by decide +kernel, by decide +kernel, open_of _ _ _ (by decide +kernel), open_of _ _ _ (by decide +kernel)⟩

/-- A pool of one block at 0x30000 and one alias, its table at 0x20000, its bucket at 0x21000 and its free list from `free` and `afree`. -/
def poolMem (slots : List Nat) (ent free afree : Nat) : List Host.Cell :=
  memWrite (memWrite (memWrite [] 0x10000 ([0x20000, 0x21000, 0x30000, 1 + 2 ^ 32, 1, 1, free + afree * 2 ^ 32].flatMap (toBytes 8))) 0x20000 (toBytes 16 ent))
    0x21000 ((slots ++ List.replicate (8 - slots.length) (2 ^ 32 - 1)).flatMap (toBytes 4))
def benchPool : Pool :=
  { ctx := 0, core := 0, desc := 0x10000, itab := 0x20000, hat := 0x21000, blkbase := 0x30000, nblk := 1, nalias := 1, nbkt := 1, ppb := 16, pevt := 0 }
def poolBench (cmd : Cmd) (m : List Host.Cell) : State := cmdBench cmd m

/-- The conditions of `PoolAt` on the bench, as a test. -/
theorem poolAt_of (cmd : Cmd) (m : List Host.Cell)
    (h : (let s := poolBench cmd m
          heapB s (s.core 0).ctx 0x10000 64 && ((s.core 0).ctx == 0) && (wordAt s 0x10000 8 == 0x20000) && (wordAt s 0x10008 8 == 0x21000)
            && (wordAt s 0x10010 8 == 0x30000) && (wordAt s 0x10018 4 == 1) && (wordAt s 0x1001C 4 == 1) && (wordAt s 0x10020 4 == 1)
            && (wordAt s 0x10024 4 == 0) && (wordAt s 0x10038 8 == 0)) = true) :
    PoolAt (poolBench cmd m) 0 0x10000 0x10000 benchPool := by
  simp only [Bool.and_eq_true, beq_iff_eq] at h
  obtain ⟨⟨⟨⟨⟨⟨⟨⟨⟨h0, h1⟩, h2⟩, h3⟩, h4⟩, h5⟩, h6⟩, h7⟩, h8⟩, h9⟩ := h
  exact { place := inHeap_of _ _ _ _ h0, aligned := by decide, ctx := h1.symm, core := rfl, desc := rfl, itab := ⟨h2.symm, by decide⟩,
          hat := ⟨h3.symm, by decide⟩, blocks := ⟨h4.symm, by decide⟩, nblk := ⟨h5.symm, by decide⟩, nalias := h6.symm,
          nbkt := ⟨h7.symm, 0, rfl⟩, ppb := ⟨by rw [h8]; decide, by rw [h8]; rfl⟩, pevt := ⟨h9.symm, by decide⟩ }

/-- A KV stream of one position, with the block that it holds, on an entry of state `st` and HOLD `hold`. -/
def kvsBlock : BitVec 512 := words [0, 0, 0, 0x10000, 0, 1, 0, 0]
def kvsCmd (w : List Nat) : Cmd := { cmdOf (.kvs 0 always) with block := some kvsBlock, work := w }
def kvsBench (w slots : List Nat) (st hold : Nat) : State :=
  poolBench (kvsCmd w) (poolMem slots (2 ^ 48 + st * 2 ^ 60 + hold * 2 ^ 64 + (2 ^ 32 - 1) * 2 ^ 96) (2 ^ 32 - 1) (2 ^ 32 - 1))

theorem witness_streams :
    [([], [], 0, 0), ([], [0], 1, 255), ([], [0], 1, 254), ([0], [0], 1, 1), ([0], [0], 2, 1), ([0], [0], 2, 2)].all
      (fun x : List Nat × List Nat × Nat × Nat =>
        let s := kvsBench x.1 x.2.1 x.2.2.1 x.2.2.2
        ((s.core 0).cmd? 1 == some (kvsCmd x.1)) && !(s.core 0).frz && heapB s 0 0x20000 16 && heapB s 0 0x21000 32 && heapB s 0 0x30000 65536
          && (entrySt s 0x20000 == x.2.2.1) && (entryHold s 0x20000 == x.2.2.2 || x.2.1 == []) && (entryKey s 0x20000 == (0, 0))
          && (wordAt s 0x20000 16 / 2 ^ 63 % 2 == 0) && ((List.range 8).all (fun j => wordAt s (0x21000 + 4 * j) 4 == x.2.1.getD j (2 ^ 32 - 1)))
          && ((s.core 0).t.length == 16) && (List.range 16).all (fun n => ((s.core 0).t.getD n {}).thr.isEmpty
            && ((s.core 0).t.getD n {}).rows.length == 32)) = true ∧
    (bfld kvsBlock 3 55 0 = 0x10000 ∧ bfld kvsBlock 4 23 0 = 0 ∧ bfld kvsBlock 5 47 32 + 256 ≤ benchPool.esize / 2 ∧ bfld kvsBlock 6 55 0 = 0 ∧
      0 < kvsNpos kvsBlock ∧ kvsTileEnd kvsBlock 0 = true ∧ benchPool.bucket 0 0 = 0 ∧ (kvsCmd []).finished = false) ∧
    PoolAt (kvsBench [] [0] 1 254) 0 0x10000 0x10000 benchPool ∧ PoolAt (kvsBench [0] [0] 2 1) 0 0x10000 0x10000 benchPool ∧
    Open (kvsBench [] [0] 1 254) 0x20000 16 ∧ Open (kvsBench [0] [0] 2 1) 0x20000 16 ∧ Open (kvsBench [0] [0] 2 1) 0x10000 64 ∧
    (wordAt (kvsBench [0] [0] 2 1) 0x10028 4 + 1 < 2 ^ 32 ∧ Memory.wf (kvsBench [0] [0] 2 1).mem = true) ∧
    (let s := bench { benchCore with cmds := [kvsCmd []], frz := true }; Queued s 0 (kvsCmd []) ∧ (s.core 0).frz = true) := by
  refine ⟨by decide +kernel, by decide +kernel, poolAt_of _ _ (by decide +kernel), poolAt_of _ _ (by decide +kernel),
    open_of _ _ _ (by decide +kernel), open_of _ _ _ (by decide +kernel), open_of _ _ _ (by decide +kernel), by decide +kernel,
    by unfold Queued; decide +kernel⟩

/-- Rows of four bytes: copied, filled, gathered and scattered, from 0x50000 to 0x60000, by the list at 0x70000. -/
def rowBlock (op : Instr) (fop : Nat) : BitVec 512 :=
  match op with
  | .gath _ _ => words [0, 0, 0, 0x50000, 0x60000, 4, 0x70000, 1 + 16 * 2 ^ 32]
  | .scat _ _ => words [0, 0, 0, 0x50000, 0x60000, 4, 0x70000, 1 + 16 * 2 ^ 32]
  | _ => words [0, 0, 0, 0x50000, 0x60000, 4 + fop * 2 ^ 24 + 2 ^ 32, 0, 0]
def rowCmd (op : Instr) (fop : Nat) : Cmd := { cmdOf op with block := some (rowBlock op fop) }
def rowBench (op : Instr) (fop idx : Nat) : State :=
  cmdBench (rowCmd op fop) (memWrite (memWrite [] 0x50000 (toBytes 4 0xDDCCBBAA)) 0x70000 (toBytes 4 idx))

theorem witness_rows :
    [(Instr.cpy2d 0 always, 0), (.cpym 0 always, 0), (.cpym 0 always, 3), (.fill 0 always, 0), (.gath 0 always, 0), (.scat 0 always, 0)].all (fun x =>
      let s := rowBench x.1 x.2 3
      ((s.core 0).cmd? 1 == some (rowCmd x.1 x.2)) && (rowCmd x.1 x.2).raced.isEmpty && (rowCmd x.1 x.2).snap.isEmpty
        && (bfld (rowBlock x.1 x.2) 5 23 0 == 4) && (x.1 != .cpy2d 0 always || bfld (rowBlock x.1 x.2) 7 24 24 == 0)
        && (x.1 != .cpym 0 always || bfld (rowBlock x.1 x.2) 5 27 24 == x.2)
        && !s.copyOverlap 0 x.1 (rowBlock x.1 x.2) && [0x50000, 0x50030, 0x60000, 0x60030, 0x70000].all (fun a =>
          coreIdOk 0 && dieOf 0 == 0 && heapB s (s.core 0).ctx a 4) && (wordAt s 0x70000 4 == 3)) = true ∧
    (rowPlace 0x50000 0 0 = 0x50000 ∧ rowPlace 0x50000 (2 ^ 32 - 4) 1 = 0x4FFFC) ∧
    wordAt (rowBench (.gath 0 always) 0 (2 ^ 32 - 1)) 0x70000 4 = 2 ^ 32 - 1 ∧
    ReachesAt (rowBench (.cpy2d 0 always) 0 3) 0 0x50000 4 0x50000 ∧ WritesAt (rowBench (.cpy2d 0 always) 0 3) 0 0x60000 4 0x60000 ∧
    ReachesAt (rowBench (.gath 0 always) 0 3) 0 0x50030 4 0x50030 ∧ WritesAt (rowBench (.scat 0 always) 0 3) 0 0x60030 4 0x60030 ∧
    WritesAt (rowBench (.fill 0 always) 0 3) 0 (2 ^ 63 + 64) 4 (scratchLoc 0 64) := by
  refine ⟨by decide +kernel, by decide +kernel, by decide +kernel,
    reaches_of _ _ _ _ (by decide +kernel), writes_of _ _ _ _ (by decide +kernel) (by decide +kernel),
    reaches_of _ _ _ _ (by decide +kernel), writes_of _ _ _ _ (by decide +kernel) (by decide +kernel),
    ⟨by decide, .inl ⟨64, by decide +kernel⟩⟩, open_of _ _ _ (by decide +kernel), fun _ => ⟨by decide +kernel, by decide +kernel⟩⟩

/-- SCORE of two scores at 0x50000 to 0x60000; NRF of the records of slot 3; and RFILL of lane groups 2 and 5. -/
def scoreBlock : BitVec 512 := words [0, 0, 0, 0x50000, 0, 2, 0x60000, 0x3F000000]
def nrfBlock : BitVec 512 := words [0, 0, 0, 3, 0x60000, 8, 0, 0]
def rfillBlock : BitVec 512 := words [0, 0, 0, 0x50000, 2, 1 + 8 * 2 ^ 4 + 2 * 2 ^ 12 + 3 * 2 ^ 16, 0, 0]
def tableBench (cmd : Cmd) : State :=
  { cmdBench cmd (memWrite [] 0x50000 (toBytes 4 0x40000000 ++ toBytes 4 0x3F800000)) with
    loupe := [(3, { st := .drafting, recs := [9] })], carafe := [(9, { bytes := BitVec.ofNat 256 (77 + 2 ^ 32) })] }

theorem witness_tables :
    (let cmd := { cmdOf (.score 0 always) with block := some scoreBlock }
     (tableBench cmd).core 0 = { benchCore with cmds := [cmd], ecyc := 9, eng := [0] } ∧ cmd.raced = [] ∧ bfld scoreBlock 5 15 0 = 2 ∧
       bfld scoreBlock 3 55 0 + 4 * bfld scoreBlock 4 55 32 = 0x50000 ∧ bfld scoreBlock 6 63 0 = 0x60000 ∧ Memory.wf (tableBench cmd).mem = true ∧
       WritesAt (tableBench cmd) 0 0x50000 8 0x50000 ∧ WritesAt (tableBench cmd) 0 0x60000 8 0x60000) ∧
    (let cmd := { cmdOf (.nrf 0 always) with block := some nrfBlock }
     let s := tableBench cmd
     bfld nrfBlock 3 15 0 = 3 ∧ (s.slot 3).st ≠ .unbound ∧ (s.slot 3).ctx = (s.core 0).ctx ∧
       s.nodesOf 3 = [parseNode 9 (BitVec.ofNat 256 (77 + 2 ^ 32))] ∧ (parseNode 9 (BitVec.ofNat 256 (77 + 2 ^ 32))).pass = bfld nrfBlock 3 18 16 ∧
       bfld nrfBlock 3 43 32 ≤ (parseNode 9 (BitVec.ofNat 256 (77 + 2 ^ 32))).node ∧ bfld nrfBlock 5 12 0 = 8 ∧ (s.slot 4).st = .unbound ∧
       WritesAt s 0 0x60000 32 0x60000) ∧
    (let cmd := { cmdOf (.rfill 0 always) with block := some rfillBlock, work := [2, 5] }
     let s := tableBench cmd
     bfld rfillBlock 4 15 0 = 2 ∧ cmd.work.Nodup ∧ (∀ j ∈ cmd.work, j < 8) ∧ bfld rfillBlock 5 8 4 ≤ 24 ∧ bfld rfillBlock 5 3 0 ≠ bfld rfillBlock 5 15 12 ∧
       (s.core 0).t.length = 16 ∧ (∀ t, t < 16 → ((s.core 0).t.getD t {}).rows.length = 32) ∧ ReachesAt s 0 0x50000 640 0x50000) := by
  refine ⟨⟨rfl, rfl, by decide +kernel, by decide +kernel, by decide +kernel, by decide +kernel, writes_of _ _ _ _ (by decide +kernel) (by decide +kernel),
      writes_of _ _ _ _ (by decide +kernel) (by decide +kernel)⟩,
    ⟨by decide +kernel, by decide +kernel, by decide +kernel, by decide +kernel, by decide +kernel, by decide +kernel, by decide +kernel, by decide +kernel,
      writes_of _ _ _ _ (by decide +kernel) (by decide +kernel)⟩,
    ⟨by decide +kernel, by decide, by decide, by decide +kernel, by decide +kernel, by decide +kernel, by decide +kernel, reaches_of _ _ _ _ (by decide +kernel)⟩⟩

/-- A KVAPP of one position from 0x90000; a KVFORK and a KVDROP of sequence 0. -/
def poolBlock (w4 w5 : Nat) : BitVec 512 := words [0, 0, 0, 0x10000, w4, w5, 0x90000, 0]
def poolCmd (op : Instr) (w4 w5 : Nat) : Cmd := { cmdOf op with block := some (poolBlock w4 w5) }
def kvEnt (sq lb ref st : Nat) : Nat := sq + lb * 2 ^ 24 + ref * 2 ^ 48 + st * 2 ^ 60 + (2 ^ 32 - 1) * 2 ^ 96

theorem slotHolds_of (cmd : Cmd) (m : List Host.Cell) (sq lb i j : Nat)
    (h : (let s := poolBench cmd m
          heapB s 0 0x21000 32 && decide (j < 7) && (wordAt s (0x21000 + 4 * j) 4 == i) && decide (i < 2) && (wordAt s (0x21000 + 28) 4 == 2 ^ 32 - 1)
            && (List.range j).all (fun h => wordAt s (0x21000 + 4 * h) 4 == 2 ^ 32 - 1)) = true) :
    SlotHolds (poolBench cmd m) benchPool sq lb i j := by
  simp only [Bool.and_eq_true, beq_iff_eq, decide_eq_true_eq, List.all_eq_true, List.mem_range] at h
  obtain ⟨⟨⟨⟨⟨h0, h1⟩, h2⟩, h3⟩, h4⟩, h5⟩ := h
  refine ⟨fun n => wordAt (poolBench cmd m) (0x21000 + 4 * n) 4, ⟨0x21000, ?_, fun _ _ => rfl⟩, h1, h2, h3, h5, h4⟩
  have : benchPool.hat + 32 * benchPool.bucket sq lb = 0x21000 := by simp [benchPool, Pool.bucket, Nat.mod_one]
  rw [this]
  exact inHeap_of _ _ _ _ h0

theorem entryAt_of (cmd : Cmd) (m : List Host.Cell) (i : Nat)
    (h : (let s := poolBench cmd m; heapB s 0 (0x20000 + 16 * i) 16 && (wordAt s (0x20000 + 16 * i) 16 / 2 ^ 63 % 2 == 0)) = true) :
    EntryAt (poolBench cmd m) benchPool i (0x20000 + 16 * i) := by
  simp only [Bool.and_eq_true, beq_iff_eq] at h
  exact ⟨inHeap_of _ _ _ _ h.1, h.2⟩

theorem keysOnlyIn_of (cmd : Cmd) (m : List Host.Cell) (sq first : Nat) (is : List Nat)
    (h : (let s := poolBench cmd m
          [0, 1].all (fun i => is.contains i || (heapB s 0 (0x20000 + 16 * i) 16 && (wordAt s (0x20000 + 16 * i) 16 / 2 ^ 63 % 2 == 0)
            && (decide (entrySt s (0x20000 + 16 * i) ≠ 1 ∧ entrySt s (0x20000 + 16 * i) ≠ 4) || (entryKey s (0x20000 + 16 * i)).1 != sq
              || decide ((entryKey s (0x20000 + 16 * i)).2 < first))))) = true) :
    KeysOnlyIn (poolBench cmd m) benchPool sq first is := by
  intro i hi hn
  have hi : i = 0 ∨ i = 1 := by have : benchPool.size = 2 := rfl; omega
  have hc : is.contains i = false := by simpa using hn
  simp only [List.all_eq_true] at h
  have := h i (by rcases hi with rfl | rfl <;> simp)
  simp only [hc, Bool.false_or, Bool.and_eq_true, Bool.or_eq_true, beq_iff_eq, bne_iff_ne, decide_eq_true_eq] at this
  refine ⟨_, entryAt_of cmd m i (by simp only [this.1.1, Bool.true_and, beq_iff_eq]; exact this.1.2), ?_⟩
  have h2 := this.2
  rintro ⟨a, b, c⟩
  rcases h2 with (⟨h1, h2⟩ | h) | h
  · exact a.elim h1 h2
  · exact h b
  · omega

theorem witness_pool_append :
    (let cmd := poolCmd (.kvapp 0 always) 0 1
     let m := poolMem [0] (kvEnt 0 0 1 1) (2 ^ 32 - 1) (2 ^ 32 - 1)
     let s := poolBench cmd m
     Queued s 0 cmd ∧ PoolAt s 0 0x10000 0x10000 benchPool ∧ cmd.status = 0 ∧ SlotHolds s benchPool 0 0 0 0 ∧ EntryAt s benchPool 0 0x20000 ∧
       (entryKey s 0x20000 = (0, 0) ∧ entrySt s 0x20000 = 1 ∧ entryRef s 0x20000 = 1) ∧ ReachesAt s 0 0x90000 4096 0x90000 ∧
       InHeap s 0 0x30000 4096 0x30000 ∧ Open s 0x30000 4096) ∧
    (let cmd := poolCmd (.kvapp 0 always) 0 1
     let m := poolMem [] (kvEnt 0 0 0 0) (2 ^ 32 - 1) (2 ^ 32 - 1)
     PoolAt (poolBench cmd m) 0 0x10000 0x10000 benchPool ∧ InHeap (poolBench cmd m) 0 0x21000 32 0x21000 ∧
       (∀ j, j < 8 → wordAt (poolBench cmd m) (0x21000 + 4 * j) 4 = 2 ^ 32 - 1) ∧ wordAt (poolBench cmd m) 0x10030 4 = 2 ^ 32 - 1) ∧
    (let cmd := poolCmd (.kvapp 0 always) 0 1
     let m := poolMem [] (kvEnt 0 0 0 0) 0 (2 ^ 32 - 1)
     PoolAt (poolBench cmd m) 0 0x10000 0x10000 benchPool ∧ wordAt (poolBench cmd m) 0x10030 4 = 0 ∧ EntryAt (poolBench cmd m) benchPool 0 0x20000 ∧
       0 < wordAt (poolBench cmd m) 0x10028 4 ∧ Memory.wf (poolBench cmd m).mem = true ∧ Open (poolBench cmd m) 0x21000 32 ∧
       Open (poolBench cmd m) 0x10000 64) := by
  refine ⟨⟨by unfold Queued; decide +kernel, poolAt_of _ _ (by decide +kernel), rfl, slotHolds_of _ _ _ _ _ _ (by decide +kernel),
      entryAt_of _ _ 0 (by decide +kernel), by decide +kernel, reaches_of _ _ _ _ (by decide +kernel), inHeap_of _ _ _ _ (by decide +kernel),
      open_of _ _ _ (by decide +kernel)⟩,
    ⟨poolAt_of _ _ (by decide +kernel), inHeap_of _ _ _ _ (by decide +kernel), by decide +kernel, by decide +kernel⟩,
    ⟨poolAt_of _ _ (by decide +kernel), by decide +kernel, entryAt_of _ _ 0 (by decide +kernel), by decide +kernel, by decide +kernel,
      open_of _ _ _ (by decide +kernel), open_of _ _ _ (by decide +kernel)⟩⟩

theorem witness_pool_fork_and_drop :
    (let cmd := poolCmd (.kvfork 0 always) (2 ^ 32) 7
     let m := poolMem [2 ^ 32 - 1, 0] (kvEnt 0 0 1 1) (2 ^ 32 - 1) 1
     let s := poolBench cmd m
     PoolAt s 0 0x10000 0x10000 benchPool ∧ bfld (poolBlock (2 ^ 32) 7) 4 55 32 = 1 ∧ bfld (poolBlock (2 ^ 32) 7) 5 23 0 = 7 ∧
       KeysOnlyIn s benchPool 7 0 [] ∧ SlotHolds s benchPool 0 0 0 1 ∧ EntryAt s benchPool 0 0x20000 ∧ EntryAt s benchPool 1 0x20010 ∧
       (entryKey s 0x20000 = (0, 0) ∧ entrySt s 0x20000 = 1 ∧ entryRef s 0x20000 < 4095 ∧ wordAt s 0x10034 4 = 1 ∧ benchPool.nblk ≤ 1 ∧
         1 < benchPool.size ∧ wordAt s 0x21000 4 = 2 ^ 32 - 1 ∧ wordAt s 0x2101C 4 = 2 ^ 32 - 1 ∧ Memory.wf s.mem = true) ∧
       Open s 0x20000 16 ∧ Open s 0x20010 16 ∧ Open s 0x21000 32 ∧ Open s 0x10000 64) ∧
    (let cmd := poolCmd (.kvdrop 0 always) 0 0
     let m := poolMem [2 ^ 32 - 1, 0] (kvEnt 0 0 1 1) (2 ^ 32 - 1) 1
     let s := poolBench cmd m
     PoolAt s 0 0x10000 0x10000 benchPool ∧ bfld (poolBlock 0 0) 4 55 32 = 0 ∧ KeysOnlyIn s benchPool 0 0 [0] ∧ SlotHolds s benchPool 0 0 0 1 ∧
       EntryAt s benchPool 0 0x20000 ∧ InHeap s 0 0x21000 32 0x21000 ∧
       (entryKey s 0x20000 = (0, 0) ∧ entrySt s 0x20000 = 1 ∧ entryRef s 0x20000 = 1 ∧ entryHold s 0x20000 = 0 ∧ wordAt s 0x10028 4 + 1 < 2 ^ 32)) := by
  refine ⟨⟨poolAt_of _ _ (by decide +kernel), by decide +kernel, by decide +kernel, keysOnlyIn_of _ _ _ _ _ (by decide +kernel),
      slotHolds_of _ _ _ _ _ _ (by decide +kernel), entryAt_of _ _ 0 (by decide +kernel), entryAt_of _ _ 1 (by decide +kernel), by decide +kernel,
      open_of _ _ _ (by decide +kernel), open_of _ _ _ (by decide +kernel), open_of _ _ _ (by decide +kernel), open_of _ _ _ (by decide +kernel)⟩,
    ⟨poolAt_of _ _ (by decide +kernel), by decide +kernel, keysOnlyIn_of _ _ _ _ _ (by decide +kernel), slotHolds_of _ _ _ _ _ _ (by decide +kernel),
      entryAt_of _ _ 0 (by decide +kernel), inHeap_of _ _ _ _ (by decide +kernel), by decide +kernel⟩⟩

/-- A MREB of one line of region 0, in REBUILD with two data shards and a parity shard on package 2, and its lost shards' bits. -/
def mrebBlock : BitVec 512 := words [0, 0, 0, 0x80000, 2, 0, 1, 0x60000]
def mrebCmd : Cmd := { cmdOf (.mreb 0 always) with block := some mrebBlock }
def mrebBench (lost : Nat) : State :=
  { cmdBench mrebCmd (memWrite [] 0x80000 ([0x900000, 0x10000, 2 + 2 ^ 4 + 3 * 2 ^ 12 + lost * 2 ^ 16, 0, 2 ^ 16 + 2 * 2 ^ 32].flatMap (toBytes 8)))
    with mirbase := 0x80000 }

theorem witness_mreb :
    [4, 5].all (fun lost =>
      let s := mrebBench lost
      let r := readRegion s.mem 0x80000 0
      ((s.core 0).cmd? 1 == some mrebCmd) && (r.k == 2) && (r.m == 1) && (r.shards.getD 2 0 == 2) && (r.shards.getD 0 0 == 0) && (r.shards.getD 1 0 == 1)
        && s.stripeReady r 2 && (s.mirbase == 0x80000) && ((r.lost % 2 == 1) == (lost == 5)) && (r.lost / 2 % 2 == 0)
        && (List.range 64).all (fun j => (s.regionOf (0x60000 + j)).isNone)) = true ∧
    (mrebCmd.raced = [] ∧ mrebCmd.status = 0 ∧ bfld mrebBlock 3 63 0 = 0x80000 ∧ bfld mrebBlock 4 15 0 = 2 ∧ bfld mrebBlock 7 63 0 = 0x60000) ∧
    ReachesAt (mrebBench 4) 0 0x80000 64 0x80000 ∧ WritesAt (mrebBench 4) 0 0x60000 64 0x60000 := by
  refine ⟨by decide +kernel, by decide +kernel, reaches_of _ _ _ _ (by decide +kernel), reaches_of _ _ _ _ (by decide +kernel),
    ⟨by decide, by decide +kernel, by decide +kernel, .inl (by decide)⟩, fun h => absurd h (by decide)⟩

/-- A migration of one page at `va` to tier 2, walked through four tables to the leaf `e`, with a heap window of 2^30 bytes and the context's
frame pools at 0x600000 and 0x610000. -/
def migrBlock (va : Nat) : BitVec 512 := words [0, 0, 0, va, 1 + 2 ^ 16, 0, 0, 0]
def migrCmd (va phase : Nat) (work : List Nat) : Cmd := { cmdOf (.migr 0 always) with block := some (migrBlock va), phase := phase, work := work }
def migrMem (e n0 n1 : Nat) : List Host.Cell :=
  memWrite (memWrite (memWrite (memWrite (memWrite (memWrite (memWrite [] 0x100008 (toBytes 8 0x200001)) 0x200000 (toBytes 8 0x300001)) 0x300000
    (toBytes 8 0x400001)) 0x400000 (toBytes 8 e)) 0x590000 (toBytes 8 0x600000 ++ toBytes 8 0x610000)) 0x600000 (toBytes 8 n0)) 0x610000
    (toBytes 8 n1 ++ toBytes 8 (2 ^ 40))
def migrBench (va e n0 n1 phase : Nat) (work : List Nat) : State :=
  { cmdBench (migrCmd va phase work) (migrMem e n0 n1) with
    ctxs := [(0, { placeCtx with heapl := u64 (2 ^ 30), ptbase := 0x100000 })]
    dies := [{ mctlbase := 0x590000 }, {}] }

/-- The page at 2^39 with its leaf `e`, before its walk; and with the MIGR that came before it on the same pool. -/
def pageBench (e : Nat) : State := migrBench (2 ^ 39) e 0 1 0 []

theorem witness_page_walk :
    [0x50003, 0x50083, 0x52103 - 0x2000, 2 ^ 40 + 3].map (fun e =>
      let s := pageBench e
      (((s.core 0).cmd? 1 == some (migrCmd (2 ^ 39) 0 [])) && s.poolFirst 0 (migrCmd (2 ^ 39) 0 []) (migrBlock (2 ^ 39)) && !(s.core 0).frz
        && (walkLoc s.mem (2 ^ 39) 3 (s.ctx 0).ptbase == some (0x400000, e, 16)) && Memory.wf s.mem && decide ((s.ctx 0).heapl.toNat ≤ 2 ^ 39)
        && !bitAt e 9 && s.answered.isEmpty, frameKind e, bitAt e 7, bitAt e 8 && fld e 15 12 == s.now / 2 ^ 32 % 16)) =
      [(true, 0, false, false), (true, 0, true, false), (true, 0, false, true), (true, 1, false, false)] ∧
    (bfld (migrBlock (2 ^ 39)) 4 19 16 = 1 ∧ bfld (migrBlock (2 ^ 39)) 4 15 0 = 1) ∧
    [2 ^ 56, 0x10000, 2 ^ 38].map (fun va =>
      let s := migrBench va 0x50003 0 1 0 []
      (decide (2 ^ 56 ≤ va), decide (va < (s.ctx 0).heapl.toNat), (walkLoc s.mem va 3 (s.ctx 0).ptbase).isNone)) =
      [(true, false, true), (false, true, true), (false, false, true)] ∧
    (let other : Cmd := { migrCmd (2 ^ 39) 0 [] with seq := 0 }
     let s : State := { pageBench 0x50003 with cores := [(0, { benchCore with cmds := [other, migrCmd (2 ^ 39) 0 []] })] }
     Queued s 0 (migrCmd (2 ^ 39) 0 []) ∧ s.poolFirst 0 (migrCmd (2 ^ 39) 0 []) (migrBlock (2 ^ 39)) = false) ∧
    Open (pageBench 0x50003) 0x400000 8 := by
  refine ⟨by decide +kernel, by decide +kernel, by decide +kernel, by unfold Queued; decide +kernel, open_of _ _ _ (by decide +kernel)⟩

theorem tier2_of (j : Nat) (h : j < 65536) : placeOf (2 ^ 40 + j) = .tier2 := by
  unfold placeOf
  rw [if_neg (by omega), if_neg (by omega), if_neg (by unfold scratchBase; omega), if_neg (by unfold carafeBase; omega), if_pos (by omega),
    if_pos ⟨by omega, by omega⟩]

theorem quiet_page (e n0 n1 phase : Nat) (work : List Nat) : Quiet (migrBench (2 ^ 39) e n0 n1 phase work) where
  cores := by
    intro q hq
    simp only [migrBench, cmdBench, bench, List.mem_singleton] at hq
    subst hq
    exact ⟨rfl, rfl⟩
  qsb := rfl
  rdc := by
    intro d hd
    simp only [migrBench, List.mem_cons, List.not_mem_nil, or_false] at hd
    rcases hd with rfl | rfl <;> rfl
  bridge := rfl
  stalled := rfl
  outs := rfl

theorem pool_of (s : State) (kind va : Nat) (h : (heapB s 0 va 8 && (word64 s.mem ((s.die 0).mctlbase + 8 * kind) % 2 ^ 56 == va) && s.noRegions
    && s.stalled.isEmpty && decide (s.mirbase + 4096 ≤ va)) = true) : FramePool s 0 kind va va := by
  simp only [Bool.and_eq_true, beq_iff_eq, decide_eq_true_eq] at h
  obtain ⟨⟨⟨⟨h0, h1⟩, h2⟩, h3⟩, h4⟩ := h
  refine ⟨by simpa using h1.symm, inHeap_of _ _ _ _ h0, open_of _ _ _ ?_⟩
  simp only [heapB, Bool.and_eq_true, decide_eq_true_eq] at h0
  simp only [h2, h3, Bool.true_and, Bool.and_eq_true, decide_eq_true_eq]
  omega

theorem witness_page_lands :
    (let s := migrBench (2 ^ 39) 0x50083 0 1 1 [0x400000]
     Queued s 0 (migrCmd (2 ^ 39) 1 [0x400000]) ∧ Open s 0x400000 8 ∧ FramePool s 0 1 0x610000 0x610000 ∧ Memory.wf s.mem = true ∧
       wordAt s 0x610000 8 = 1 ∧ InHeap s 0 (0x610000 + 8 * 1) 8 0x610008 ∧ bitAt (word64 s.mem 0x400000) 6 = false ∧ wordAt s 0x610008 8 = 2 ^ 40 ∧
       fld (2 ^ 40) 51 16 * 65536 = 2 ^ 40 ∧ fld (word64 s.mem 0x400000) 51 16 * 65536 = 0x50000 ∧ Open s (2 ^ 40) 65536) ∧
    (∀ j, j < 65536 → placeOf (0x50000 + j) = .hbm) ∧
    wordAt (migrBench (2 ^ 39) 0x50083 0 0 1 [0x400000]) 0x610000 8 = 0 := by
  refine ⟨⟨by unfold Queued; decide +kernel, open_of _ _ _ (by decide +kernel), pool_of _ _ _ (by decide +kernel), by decide +kernel, by decide +kernel,
    inHeap_of _ _ _ _ (by decide +kernel), by decide +kernel, by decide +kernel, by decide +kernel, by decide +kernel, open_of _ _ _ (by decide +kernel)⟩,
    hbm_of _ _ (by decide), by decide +kernel⟩

theorem witness_old_frame :
    (let w := [0x400000, 0x50001, 0, 1, 0]
     let s := migrBench (2 ^ 39) (2 ^ 40 + 3) 0 0 4 w
     Queued s 0 (migrCmd (2 ^ 39) 4 w) ∧ s.outs = [] ∧ frameKind (0x50001 - 1) = 0 ∧ FramePool s 0 0 0x600000 0x600000 ∧
       InHeap s 0 (0x600000 + 8 * (wordAt s 0x600000 8 + 1)) 8 0x600008 ∧ Open s 0x600008 8 ∧ wordAt s 0x600000 8 + 1 < 2 ^ 64) ∧
    (let w := [0x400000, 0, 8, 0, 0]; Queued (migrBench (2 ^ 39) 0x50003 0 0 4 w) 0 (migrCmd (2 ^ 39) 4 w)) := by
  refine ⟨⟨by unfold Queued; decide +kernel, by rfl, by decide +kernel, pool_of _ _ _ (by decide +kernel), ?_, open_of _ _ _ (by decide +kernel),
    by decide +kernel⟩, by unfold Queued; decide +kernel⟩
  have h : wordAt (migrBench (2 ^ 39) (2 ^ 40 + 3) 0 0 4 [0x400000, 0x50001, 0, 1, 0]) 0x600000 8 = 0 := by decide +kernel
  rw [h]
  exact inHeap_of _ _ _ _ (by decide +kernel)

/-- A fetch from a page that may not be executed: the protection fault that the management core is told of. -/
theorem witness_protection_stop :
    let s : State := { pageBench 0x50003 with cores := [(0, { benchCore with pc := 2 ^ 39 })] }
    (match (s.tryBundle 0).2 with | .stop st => st.cause == 9 | _ => false) = true ∧
      ((s.tryBundle 0).1.mbox.ntw + 2 ^ 64 - (s.tryBundle 0).1.mbox.ntr) % 2 ^ 64 ≠ 63 := by
  decide +kernel

/-! ## Posts, events, barriers, evictions and power -/

/-- A launch with a task saved on core 5. -/
def savedLaunch : Launch := { placeLaunch with saved := [(0, 5, benchCore)] }

theorem witness_posts :
    (let s := { bench { benchCore with cf := benchCore.cf.set 3 0xFFFE } with launches := [(0, savedLaunch)] }
     (s.core 0).bound = true ∧ (s.core 5).bound = false ∧ s.savedOn none 5 = some 0 ∧ (s.core 6).bound = false ∧
       ∀ l ∈ s.launches, ∀ q ∈ l.2.saved, q.2.1 ≠ 6) ∧
    (let s := { bench benchCore with host := { State.reset.host with irqmap := State.reset.host.irqmap.set 2 0x80C1 } }
     (s.ctx 65).ev.getLsbD 1 = false ∧ (s.host.irqmap.getD 2 0).toNat = 0x8000 + 1 * 2 ^ 7 + 1 * 2 ^ 6 + 1) ∧
    (let h := { State.reset.host with msixTable := (State.reset.host.msixTable.set 5 (2 ^ 32)).set 7 9 }
     (h.msixTable.getD 5 0).getLsbD 32 = true ∧ (h.msixTable.getD 7 0).getLsbD 32 = false) ∧
    (let k := (bench { benchCore with barrier := some (0, 3, 0) }).core 0
     k.launch = 0 ∧ k.tagged = true ∧ dieOf 0 = 0 ∧ groupOf 0 = 0 ∧ fld 0 5 2 = 0 ∧ k.barrier = some (0, 3, 0)) := by
  decide +kernel

/-- A line of which byte 1 is dirty. -/
def dirtyLine : CLine := ({} : CLine).putByte 1 7 true

theorem witness_evictions :
    (let s := bench { benchCore with l1 := [(0x400, dirtyLine)] }
     Memory.wf s.mem = true ∧ (s.core 0).l1 = [(0x400, dirtyLine)] ∧ Tbl.getD s.qsb (quadOf 0) [] = []) ∧
    (let s := { bench benchCore with qsb := [(quadOf 0, [(0x400, dirtyLine)])] }
     Memory.wf s.mem = true ∧ Tbl.getD s.qsb (quadOf 0) [] = [(0x400, dirtyLine)] ∧
       (List.range 128).all (fun i => homeDie (128 * 0x400 + i) == some (dieOf 0)) = true) ∧
    (let s := { bench benchCore with dies := [{ rdc := [(0x400, dirtyLine)] }, {}] }
     (s.die 0).rdc = [(0x400, dirtyLine)]) ∧
    Open { bench benchCore with qsb := [(quadOf 0, [(0x400, dirtyLine)])] } (128 * 0x400) 128 :=
  ⟨by decide +kernel, by decide +kernel, by decide +kernel, open_of _ _ _ (by decide +kernel)⟩

/-- A core at the end of a cycle of some weight. -/
def powerCore (w : Nat) (t : Bool) : Core := { benchCore with tagged := t, weight := w }

/-- An image of code at the bench's pc. -/
def image0 : Image :=
  let i : Image := {
    entry := 0x10000, cb := 0x10000, mode := 0, shape := 0, ttid := 0, levels := [], phases := [16384], data := [], fmMask := 0,
    fmVals := [], ttRole := 0, ttStart := 0, fabric := false, planTtid := 0, plan := [] }
  i

/-- A timetabled pair, one core on each die, and a launch of a fabric timetable. -/
def pairState : State :=
  { bench (powerCore 24000 false) with
    cores := [(0, powerCore 24000 false), (2048, { powerCore 0 false with launch := 1 })]
    launches := [(0, { placeLaunch with partner := some 1 }), (1, placeLaunch)] }
def fabricState : State :=
  { bench (powerCore 24000 false) with launches := [(0, { placeLaunch with img := some { image0 with fabric := true } })] }

theorem witness_power :
    (let s := bench (powerCore 40 true); ((s.core 0).cycleWeight :: (s.core 0).window).take 64 = [(s.core 0).cycleWeight] ∧ (s.core 0).cycleWeight ≤ 23040) ∧
    (∀ t : Bool, let s := bench (powerCore 24000 t); 23040 < (s.core 0).cycleWeight ∧ (s.core 0).cycleWeight ≤ 28160 ∧ (s.core 0).throttled = false ∧
      (s.launch 0).hasFabric = false ∧ (s.core 0).tagged = t ∧ s.isPair 0 = false) ∧
    (let s := pairState
     s.isPair 0 = true ∧ (s.launch 0).hasFabric = false ∧ (s.launch 0).frzAt = [] ∧ 23040 < (s.core 0).cycleWeight ∧ (s.core 0).throttled = false) ∧
    (let s := fabricState
     (s.launch 0).hasFabric = true ∧ s.pendFreeze = none ∧ Tbl.getD (s.die 0).plimFrame 0 23040 < (s.core 0).cycleWeight) ∧
    (let s := { bench { benchCore with lcyc := 50 } with launches := [(0, { placeLaunch with frzAt := [50] })] }
     s.gangCycle 0 ∈ (s.launch 0).frzAt ∧ s.gangCycle 0 ∉ (State.launch (bench { benchCore with lcyc := 50 }) 0).frzAt) ∧
    (let s := { bench benchCore with pendFreeze := some 100, now := 300 }
     s.pendFreeze = some 100 ∧ 100 + 128 ≤ s.now + 1 ∧ s.framePos = 0 ∧ s.frameFreeze = 0) := by
  decide +kernel

/-- The windows that go past HLIM, those that stay over PLIM, and one of a core that runs no task. -/
theorem witness_throttles :
    (let s := { pairState with
       cores := [(0, powerCore 30000 false), (2048, { powerCore 0 false with launch := 1 })]
       launches := [(0, { placeLaunch with partner := some 1, frzAt := [5] }), (1, placeLaunch)] }
     s.isPair 0 = true ∧ 28160 < (s.core 0).cycleWeight ∧ (s.launch 0).frzAt ≠ [] ∧ (s.core 0).throttled = false) ∧
    (let s := { fabricState with cores := [(0, powerCore 30000 false)], pendFreeze := some 0 }
     28160 < (s.core 0).cycleWeight ∧ s.pendFreeze ≠ none ∧ (s.launch 0).hasFabric = true ∧ (s.core 0).bound = true ∧
       (State.core { fabricState with pendFreeze := some 0 } 0).cycleWeight ≤ 28160) ∧
    (let s := { fabricState with cores := [(0, { powerCore 24000 false with crossed := true })] }
     (s.core 0).crossed = true ∧ s.pendFreeze = none) ∧
    (let s := bench { powerCore 24000 true with throttled := true }; (s.core 0).throttled = true ∧ 23040 < (s.core 0).cycleWeight) ∧
    (let s := bench { powerCore 24000 false with status := .idle }
     (s.core 0).bound = false ∧ 23040 < (s.core 0).cycleWeight ∧ (s.core 0).throttled = false) := by
  decide +kernel

theorem witness_weights :
    (let all := [Instr.add 1 0 0 always, .mul 1 0 0 always, .setb 1 2 always, .ldv 1 0 2 always, .ld64 1 0 2 always, .aadd 1 0 2 always, .vmul 1 6 always,
       .vrcp 1 6 always, .vtopk 1 0 always, .vadd 1 0 always, .xq 1 2 always, .mrd 1 always, .mzero 1 always, .fill 1 always, .move false 1 2 always]
     all.map unitOf = [.a0, .a0, .au, .l, .l, .at, .v, .v, .v, .v, .x, .m, .m, .d, .plain]) ∧
    clears benchCore [.move false 1 2 always, .add 1 0 0 always, .mul 1 0 0 always, .setb 1 2 always, .mzero 1 always] = true ∧
    clearB { bench benchCore with ports := [(0, { inq := (List.replicate 8 []).set 3 [9] })] } (.move false 0x83 5 always) = true := by
  decide +kernel

/-- A TIMED gang of core 0 before an instruction, in a plain context. -/
def senseBench (i : Instr) (z : Bool) : State :=
  { withCode { benchCore with tagged := false, frz := z } i with
    launches := [(0, { placeLaunch with tagged := false })], ctxs := [(0, { placeCtx with priv := false })] }

theorem witness_gangs :
    [(Instr.add 1 0 0 always, false), (.waitf 3 2 always, false), (.halt 0 always, false), (.add 1 0 0 always, true)].map (fun x =>
      let s := senseBench x.1 x.2
      ((s.core 0).status == .run, s.pairCores 0, s.coreSense 0, s.bridgeLocked 0)) =
      [(true, [0], 0, false), (true, [0], 3, false), (true, [0], 2, false), (true, [0], 1, false)] := by
  decide +kernel

/-! ## The dispatcher -/

/-- A kernel object of one code section, 128 bytes into it. -/
def objectBytes : List Byte :=
  toBytes 4 0x424F4B50 ++ toBytes 2 1 ++ toBytes 2 1 ++ toBytes 8 0 ++ List.replicate 48 0 ++ toBytes 4 1 ++ toBytes 4 0 ++ toBytes 4 128 ++ toBytes 4 64

/-- A queue of four slots at 0x60000 whose slot 0 holds packet words, and an object at 0x70000. -/
def queueBench (a : List Nat) : State :=
  { bench benchCore with
    mem := memWrite (memWrite (memWrite [] 0x50000 (toBytes 8 0x60000 ++ toBytes 8 4)) 0x60000 (a.flatMap (toBytes 8))) 0x70000 objectBytes
    dies := [{ queues := [(0, (0x50000, 0x50040, 0x50080))], enable := true }, {}]
    boot := { State.reset.boot with stage := 4 } }

/-- Packet A of a TAGGED launch with an estimate. -/
def packetA (est : Nat) : List Nat := [1, 0x70000, 0x80000, est + 2 ^ 53 + 3 * 2 ^ 57, 0, 0, 0, 0]

/-- The next packet of the queue has words and, for a launch, is refused or not. -/
def takesPacket (a : List Nat) : Bool :=
  match (queueBench a).nextPacket 0 0 with
  | some (x, w) => w == a && x.ridx == 0
  | none => false

def launchCase (est : Nat) (bad : Bool) : Bool :=
  let s := queueBench (packetA est)
  match s.nextPacket 0 0 with
  | none => false
  | some (x, a) =>
    match s.packet x (x.ridx + 1) with
    | none => false
    | some b =>
      let l := launchOf 0 0 x.ctx s.nLaunch (fun i => a.getD i 0) (fun i => b.getD i 0)
      let img := s.readImage x.ctx l.image 24
      a.getD 0 0 % 256 == 1 && Memory.wf s.mem && s.badLaunch l (a.getD 0 0) (fld (a.getD 3 0) 54 54) img == bad

theorem witness_packets :
    (queueBench [0, 0, 0, 0, 0, 0, 0, 0]).dies.length = 2 ∧ (bench benchCore).nextPacket 0 0 = none ∧
    takesPacket [2, 0, 0, 0, 0, 0, 0, 0] = true ∧ takesPacket [3, 0, 0, 0, 0, 0, 0, 0] = true ∧ launchCase 1 false = true ∧ launchCase 0 true = true := by
  decide +kernel

/-- The bench with launch 0 in a state, and core 0 with or without its task. -/
def launchBench (l : Launch) (k : Core) : State := { bench k with launches := [(0, l)] }
def idle0 : Core := { benchCore with status := .idle }
def gang0 : Launch := { placeLaunch with state := .reserving, tagged := false, nextTask := 0, img := some image0, reserved := [0] }

theorem witness_launches :
    (let s := launchBench { placeLaunch with state := .waiting } benchCore; (s.launch 0).state = .waiting ∧ (s.ctx 0).ev &&& (s.launch 0).wait = (s.launch 0).wait) ∧
    (let s := launchBench { placeLaunch with state := .waiting, wait := 1 } benchCore
     (s.launch 0).state = .waiting ∧ (s.ctx 0).ev &&& (s.launch 0).wait ≠ (s.launch 0).wait) ∧
    (let s := launchBench { placeLaunch with state := .eligible, nextTask := 0, img := some image0 } idle0
     let l := s.launch 0
     (l.state = .eligible ∧ l.tagged = true ∧ l.nextTask < l.ntasks) ∧ s.mayTake 0 0 = true ∧ s.fabricGate l = 0 ∧ 0 < 2048 / 2 ^ l.shape ∧
       (s.objGet (s.taskCtx l (dieOf 0)) l.args 256).isSome = true) ∧
    (launchBench placeLaunch benchCore).mayTake 0 0 = false ∧
    (let s := launchBench gang0 idle0; (s.launch 0).state = .reserving ∧ s.held 0 = true ∧ s.fabricGate (s.launch 0) = 0 ∧ (s.launch 0).ttid = 0 ∧ image0.hasDies = false) ∧
    (let s := launchBench gang0 benchCore; (s.launch 0).state = .reserving ∧ s.held 0 = false) ∧
    (let s := launchBench { placeLaunch with ended := 1 } idle0; (s.launch 0).state = .running ∧ s.coresOf 0 = [] ∧ (s.launch 0).ended = (s.launch 0).ntasks) ∧
    (let s := launchBench { placeLaunch with ntasks := 2 } { benchCore with status := .drain }
     (s.launch 0).state = .running ∧ s.coresOf 0 = [0] ∧ (s.core 0).launch = 0 ∧ s.ended 0 = true ∧ (s.endDrain 0).leaves 0 = true ∧
       (s.launch 0).ended + 1 < (s.launch 0).ntasks) := by
  decide +kernel

/-- A completion word at 0x90000. -/
theorem witness_finished :
    let s := launchBench { placeLaunch with ended := 1, cwaddr := 0x90000, cwscope := 4 } idle0
    (match s.xlateCtx 0 0x90000 { w := true } with | .ok loc => loc == 0x90000 | .error _ => false) = true ∧ placeOf 0x90000 = .hbm ∧
      homeDie 0x90000 = some (s.launch 0).die ∧ (s.launch 0).cwscope = 4 := by
  decide +kernel

/-- A waiting gang of class 7 that needs core 0, where a TAGGED launch of class 0 runs. -/
def rivals (v : Launch) (tokens : Nat) : State :=
  { bench benchCore with
    launches := [(0, v), (1, { gang0 with state := .eligible, order := 1, effcls := 7 })]
    nLaunch := 2
    ctxs := [(0, { placeCtx with tokens := tokens, savelen := 2 ^ 20, slice := 1 })] }

/-- A victim with 2^40 cycles to go. -/
def longLaunch : Launch := { placeLaunch with est := 2 ^ 40 }

def preempts (s : State) (choice : Nat) : Bool :=
  s.newcomer 0 == some 1 && s.victims 1 [] (s.candidates 1) == some [0] && (s.launch 0).state == .running && (s.launch 0).partner == none
    && s.choice 0 0 == choice

theorem witness_preemption :
    (let s := rivals longLaunch (2 ^ 30); preempts s 3 = true) ∧
    (let s := rivals { longLaunch with ckpt := true } 0; preempts s 1 = true ∧ (s.ctx 0).tokens < s.cost 0 1 0) ∧
    (let s := rivals { longLaunch with ckpt := true } (2 ^ 30); preempts s 1 = true ∧ s.cost 0 1 0 ≤ (s.ctx (s.launch 1).ctx).tokens) ∧
    (let s := rivals { longLaunch with killok := true } (2 ^ 30); preempts s 2 = true ∧ s.cost 0 1 0 ≤ (s.ctx (s.launch 1).ctx).tokens) ∧
    (bench benchCore).newcomer 0 = none := by
  decide +kernel

/-- The bench's task stands at the point of its save, in a launch that saves. -/
def savingBench (st : CoreStatus) : State := launchBench { placeLaunch with state := .saving } { benchCore with status := st }

/-- A launch whose one task has been saved on core 0 and is due to come back. -/
def restoringBench (at_ heap : Nat) : State :=
  { launchBench { placeLaunch with state := .restoring, restoreAt := at_, saved := [(0, 0, benchCore)] } idle0 with
    ctxs := [(0, { placeCtx with heapl := u64 heap, savebase := 0x100000 })] }

theorem witness_saves :
    (let s := savingBench .stopped
     (s.launch 0).state = .saving ∧ s.saveReady 0 = true ∧ (s.saveFence 0).fenced 0 = true ∧ s.byTask 0 = [0] ∧ (s.core 0).launch = 0) ∧
    (let m : BridgeMsg := { id := 0, src := rdcAgent 0, dst := 4097, due := 40, loc := 0x1000, bytes := [1], lseq := none }
     let s := { savingBench .stopped with bridge := [m], nBridge := 1 }
     (s.launch 0).state = .saving ∧ s.saveReady 0 = true ∧ (s.saveFence 0).fenced 0 = false) ∧
    (let s := launchBench { placeLaunch with state := .saving } { benchCore with mma := [{ acc := 0, cyc := 0, planes := 1, due := 1, mac := 0, res := [], quad := false }] }
     (s.launch 0).state = .saving ∧ s.saveReady 0 = false ∧ (s.launch 0).saveStage = 0) ∧
    (let s := restoringBench 0 (2 ^ 52); let l := s.launch 0
     l.state = .restoring ∧ l.restoreAt ≤ s.now ∧ l.saved = [(benchCore.tid, 0, benchCore)] ∧ l.postsHeld = [] ∧ benchCore.blocks = [] ∧
       s.areaReadable l benchCore.ctx = true) ∧
    (let s := restoringBench 0 0; s.areaReadable (s.launch 0) benchCore.ctx = false) ∧
    (let s := restoringBench 5 (2 ^ 52); (s.launch 0).state = .restoring ∧ s.now < (s.launch 0).restoreAt) ∧
    (launchBench placeLaunch benchCore).launch 0 = placeLaunch ∧ placeLaunch.state = .running ∧ (savingBench .run |>.launch 0).state ≠ .running := by
  decide +kernel

/-- The cells of a rising list with an index in a range, cut at a place within it. -/
theorem filter_cut (l : List (Nat × Byte)) (h : l.Pairwise (fun x y => x.1 < y.1)) (i a n : Nat) (ha : a ≤ n) :
    l.filter (fun p => decide (i ≤ p.1) && decide (p.1 < i + a)) ++ l.filter (fun p => decide (i + a ≤ p.1) && decide (p.1 < i + n)) =
      l.filter (fun p => decide (i ≤ p.1) && decide (p.1 < i + n)) := by
  induction l with
  | nil => rfl
  | cons x r ih =>
    have hr := ih h.of_cons
    by_cases hx : x.1 < i + a
    · by_cases hi : i ≤ x.1
      · simp only [List.filter_cons, hi, hx, show ¬(i + a ≤ x.1) from by omega, show x.1 < i + n from by omega, decide_true, decide_false,
          Bool.and_true, if_true, List.cons_append, hr, Bool.false_eq_true, if_false]
      · simp only [List.filter_cons, hi, show ¬(i + a ≤ x.1) from by omega, decide_false, Bool.false_and, Bool.false_eq_true, if_false, hr]
    · have hnone : r.filter (fun p => decide (i ≤ p.1) && decide (p.1 < i + a)) = [] := by
        refine List.filter_eq_nil_iff.2 (fun p hp => ?_)
        have := (List.pairwise_cons.1 h).1 p hp
        simp only [Bool.and_eq_true, decide_eq_true_eq]
        omega
      rw [hnone, List.nil_append] at hr
      simp only [List.filter_cons, hx, decide_false, Bool.and_false, Bool.false_eq_true, if_false, hnone, List.nil_append, hr]
      by_cases hi : i + a ≤ x.1
      · simp only [hi, show i ≤ x.1 from by omega]
      · omega

/-- An image part that stands as it was written, from 0x100040 on. -/
def keptCells : List (Nat × Byte) := ((List.range 151488).zip (bodyBytes 0 151488)).filter (fun p => p.2 != 0)
def keptMem : List Host.Cell := keptCells.map (fun p => (0x100040 + p.1, p.2))
def keptBench : State := { restoringBench 0 (2 ^ 52) with mem := keptMem }

theorem keptCells_rise : keptCells.Pairwise (fun x y => x.1 < y.1) := by
  refine List.Pairwise.filter _ ?_
  have h : (List.range 151488).Pairwise (· < ·) := List.pairwise_lt_range
  have hm : ((List.range 151488).zip (bodyBytes 0 151488)).map Prod.fst = List.range 151488 :=
    List.map_fst_zip (by simp [bodyBytes])
  rw [← hm, List.pairwise_map] at h
  exact h

theorem keptCells_bound (p : Nat × Byte) (hp : p ∈ keptCells) : p.1 < 151488 :=
  List.mem_range.1 (List.of_mem_zip (a := p.1) (b := p.2) (List.mem_filter.1 hp).1).1

theorem kept_part (i part : Nat) (h : keptBench.vLoc 0 (0x100040 + i) { r := true } = .ok (0x100040 + i)) (hp : placeOf (0x100040 + i) = .hbm)
    (fuel n : Nat) (hn : n ≠ 0) (hpart : Nat.min n (65536 - (0x100040 + i) % 65536) = part) :
    keptBench.cellsFrom 0 (fuel + 1) (0x100040 + i) n i =
      keptCells.filter (fun p => decide (i ≤ p.1) && decide (p.1 < i + part)) ++ keptBench.cellsFrom 0 fuel (0x100040 + (i + part)) (n - part) (i + part) := by
  rw [State.cellsFrom, if_neg hn]
  simp only [hpart, h, hp]
  refine congr (congrArg _ ?_) (by rw [Nat.add_assoc])
  · dsimp only [keptBench]
    rw [keptMem, List.filter_map, List.map_map]
    have hf : ((fun p : Nat × Byte => decide (0x100040 + i ≤ p.1) && decide (p.1 < 0x100040 + i + part)) ∘ fun p : Nat × Byte => (0x100040 + p.1, p.2)) =
        fun p : Nat × Byte => decide (i ≤ p.1) && decide (p.1 < i + part) := by
      funext p
      simp only [Function.comp_apply]
      congr 1 <;> exact decide_eq_decide.2 (by omega)
    rw [hf]
    refine (List.map_congr_left (g := id) fun p hp => ?_).trans (List.map_id _)
    have := (List.mem_filter.1 hp).2
    simp only [Bool.and_eq_true, decide_eq_true_eq] at this
    exact Prod.ext (by simp only [Function.comp_apply, id]; omega) rfl

/-- An image that has been left alone. -/
theorem witness_image_kept : keptBench.bodyKept 0 0x100000 151488 0 = true ∧
    (keptBench.launch 0).saved = [(benchCore.tid, 0, benchCore)] ∧ benchCore.imageKey = 0 ∧ (keptBench.ctx benchCore.ctx).savebase = 0x100000 ∧
    benchCore.imageSize (keptBench.launch 0) - 65536 * benchCore.scratchUnits (keptBench.launch 0) - 64 = 151488 ∧
    keptBench.areaReadable (keptBench.launch 0) benchCore.ctx = true := by
  refine ⟨?_, rfl, rfl, by decide +kernel, by decide +kernel, by decide +kernel⟩
  have h : keptBench.cellsFrom 0 (pagesOf 151488) (0x100000 + 64) 151488 0 = keptCells := by
    have h0 := kept_part 0 65472 (by decide +kernel) (by decide +kernel) 3 151488 (by decide) (by decide)
    have h1 := kept_part 65472 65536 (by decide +kernel) (by decide +kernel) 2 86016 (by decide) (by decide)
    have h2 := kept_part 131008 20480 (by decide +kernel) (by decide +kernel) 1 20480 (by decide) (by decide)
    have h3 : keptBench.cellsFrom 0 1 (0x100040 + 151488) 0 151488 = [] := rfl
    simp only [Nat.add_zero, Nat.zero_add, Nat.reduceAdd, Nat.reduceSub] at h0 h1 h2 h3
    rw [show pagesOf 151488 = 4 from rfl, show 0x100000 + 64 = 1048640 from rfl, h0, h1, h2, h3, List.append_nil]
    have c1 := filter_cut keptCells keptCells_rise 65472 65536 86016 (by decide)
    have c2 := filter_cut keptCells keptCells_rise 0 65472 151488 (by decide)
    simp only [Nat.zero_add, Nat.reduceAdd] at c1 c2
    rw [c1, c2]
    exact List.filter_eq_self.2 (fun p hp => by simpa using keptCells_bound p hp)
  unfold State.bodyKept
  rw [h]
  simp [keptCells]

/-- Launches of one class, one running past its slice and one waiting for its core. -/
def sliceBench (slice : Nat) : State :=
  { rivals { longLaunch with ckpt := true, runs := 2 ^ 30, effcls := 7 } 0 with ctxs := [(0, { placeCtx with savelen := 2 ^ 20, slice := slice })] }

theorem witness_slices :
    (let s := sliceBench 1; let l := s.launch 0
     l.state = .running ∧ l.partner = none ∧ (s.ctx l.ctx).slice ≠ 0 ∧ (s.sliceOf 0).1 ≤ s.runCount 0 - l.sliceBase ∧ s.rival 0 = true ∧ s.choice l.die 0 = 1) ∧
    (let s := sliceBench 0; (s.launch 0).state = .running ∧ (s.ctx (s.launch 0).ctx).slice = 0) ∧
    (launchBench placeLaunch benchCore).rival 0 = false := by
  decide +kernel

theorem witness_ages :
    (let s := launchBench { placeLaunch with state := .eligible } idle0; (s.launch 0).waits = true) ∧
    (launchBench placeLaunch benchCore |>.launch 0).waits = false ∧
    (bench benchCore).now % 2 ^ 20 = 0 ∧ ({ bench benchCore with now := 1 } : State).now % 2 ^ 20 ≠ 0 ∧
    (∀ p : Bool, let s := launchBench { placeLaunch with runs := 5, ckpt := p } benchCore; let l := s.launch 0
     l.state = .running ∧ l.overdue = false ∧ l.est < s.runCount 0 ∧ l.ckpt = p ∧ l.killok = false ∧ (s.mbox.ntw + 2 ^ 64 - s.mbox.ntr) % 2 ^ 64 ≠ 63) ∧
    (let s := launchBench placeLaunch benchCore; s.runCount 0 ≤ (s.launch 0).est) := by
  decide +kernel

/-! ## The speculation complex -/

/-- A state whose low terabyte of HBM is a Mirror region in REBUILD, in a data shard. -/
def rebuilding (s : State) : State :=
  { s with mirbase := 2 ^ 41, mem := memWrite s.mem (2 ^ 41) ([0, 2 ^ 40, 2 + 2 ^ 4 + 3 * 2 ^ 12].flatMap (toBytes 8)) }

/-- A complete draft tree of one node, for sequence 0 at step 0: 32 bytes of its record. -/
def nodeWord (step tok : Nat) : Nat := tok + 0xFFF * 2 ^ 44 + 2 ^ 63 + step * 2 ^ 80 + 5 * 2 ^ 96

def draftSlot : LoupeSlot := { st := .drafting, depth := 3, width := 3, len := 1, tokbuf := 0xA0000, dposaddr := 0xB0000, pool := 0x10000 }

def specBench (x : LoupeSlot) : State := { bench benchCore with loupe := [(0, x)] }

/-- A Carafe store of a record, on a free slot. -/
def lands (n : Nat) (early bad : Bool) : Bool :=
  let s := specBench draftSlot
  let bs := toBytes 32 n
  let r := parseNode 9 (BitVec.ofNat 256 (ofBytes bs))
  s.carafeSlot 9 == {} && s.interlocked.isEmpty && bs.length == 32 && s.recEarly r == early && s.recBad r == bad

theorem witness_carafe :
    lands (nodeWord 1 7) true false = true ∧ lands (nodeWord 0 7 + 2 ^ 200) false true = true ∧ lands (nodeWord 0 7) false false = true ∧
    (let s := { bench benchCore with carafe := [(9, { taken := true })] }; (s.carafeSlot 9).taken = true) ∧
    (let m : CarafeMsg := { slot := 9, off := 0, bytes := [1] }
     let s := { bench benchCore with interlocked := [m] }
     m.slot = 9 ∧ (s.carafeSlot 9).taken = false ∧ s.interlocked = [m] ∧ s.carafeOut = []) ∧
    (let q : CarafeMsg := { slot := 8, off := 0, bytes := [1], who := .access 0 1 0 }
     let m : CarafeMsg := { slot := 9, off := 0, bytes := [2], who := .access 0 2 0 }
     let s := { bench benchCore with interlocked := [q], carafeOut := [m] }
     q ∈ s.interlocked ∧ (s.carafeOut.find? (fun m => m.slot == 9 && m.off == 0 && m.bytes == [2])).getD { slot := 9, off := 0, bytes := [2] } = m ∧
       m.who = .access 0 2 0 ∧ q.who = .access 0 1 0) := by
  decide +kernel

theorem witness_bridge :
    let m (due : Nat) : BridgeMsg := { id := 0, src := 4097, dst := 4096, due := due, loc := 0x1000, bytes := [1], lseq := none }
    let s (due : Nat) : State := { bench benchCore with bridge := [m due] }
    ((∀ due, due < 2 → (s due).bridge.find? (fun m => m.src == 4097 && m.dst == 4096) = some (m due)) ∧ (s 0).now < 1 ∧ 0 ≤ (s 0).now ∧
      (s 0).engineTile 0x1000 = false ∧ (s 0).engineTile (0x1000 + 0) = false ∧ (rebuilding (s 0)).inRebuild 0x1000 = true ∧
      (rebuilding (s 0)).bridge = [m 0]) ∧ Open (s 0) 0x1000 1 :=
  ⟨by decide +kernel, open_of _ _ _ (by decide +kernel)⟩

theorem witness_barista :
    (let s (x : BqSlot) : State := { bench benchCore with barista := [(3, x)], bqOrder := [3] }
     (∀ r : Bool, let x := (s { used := true, noReply := r, flag := some 7 }).bqSlot 3
      (x.used = true ∧ x.replied = false ∧ 3 ∈ [3]) ∧ x.sampler = false ∧ x.noReply = r ∧ x.flag = some 7) ∧
     (let x := (s { used := true, sampler := true }).bqSlot 3
      (x.used = true ∧ x.replied = false) ∧ x.sampler = true ∧ ((s {}).slot x.lseq).tflag < 256 ∧ ((s {}).slot x.lseq).wst = 0 ∧
        (State.slot { s {} with loupe := [(0, { draftSlot with wst := 1 })] } x.lseq).wst ≠ 0)) ∧
    ((bench benchCore).bqSlot 3).used = false := by
  decide +kernel

/-- An operation of lp that reads depth and width of a slot. -/
def lpOp (due : Nat) : SpecOp :=
  let o : SpecOp := {
    id := 1, op := .lpdep 0 always, latch := 10, bundle := 0x10000, due := due, perf := false, val := 0, blk := none, trig := 0, arg := 0, cyc := 0, clk := 0,
    blkv := none }
  o

theorem witness_spec_result :
    (let s := bench { benchCore with sops := [lpOp 0] }
     (s.core 0).sops = [lpOp 0] ∧ (lpOp 0).perf = false ∧ (lpOp 0).blk = none ∧ (lpOp 0).due ≤ s.now ∧
       (match (s.modCore 0 (fun k => k.setSop (lpOp 0))).specRun 0 (lpOp 0) with
        | some r => (r.1.core 0).sops == [lpOp 0] && (r.1.core 0).held.isEmpty | none => false) = true) ∧
    (bench benchCore).now < (lpOp 5).due := by
  decide +kernel

/-- A pool of one block, free or not. -/
def specMem (free : Nat) : List Host.Cell :=
  let m := memWrite [] 0x10000 ([0x20000, 0x21000, 0x30000, 1, 1, free, 0xFFFFFFFF * 2 ^ 32, 0].flatMap (toBytes 8))
  let m := memWrite (memWrite m 0x20000 (toBytes 16 (0xFFFFFFFF * 2 ^ 96))) 0x21000 (List.replicate 32 255)
  memWrite m 0xA0000 (toBytes 4 (5 + 2 ^ 31))

/-- An admission of the one-node tree; `nb` is the length of its branch table. -/
def admitSub (nb : Nat) : LpSub := { core := 0, block := words [0, 0, 0, 0, 0, 0, 0xC0000, nb], seq := 0, pc := 0x10000 }

def admitBench (pol free nb : Nat) (complete : Bool) : State :=
  { specBench { draftSlot with poolpol := pol, recs := if complete then [9] else [], admission := some (admitSub nb) } with
    carafe := [(9, { taken := true, bytes := BitVec.ofNat 256 (nodeWord 0 7) })], mem := specMem free }

def admits (pol free nb : Nat) (p : Admit → Bool) : Bool :=
  let s := admitBench pol free nb true
  (s.slot 0).st == .drafting && (s.slot 0).admission == some (admitSub nb) && treeComplete (s.nodesOf 0) && p (s.admitPlan 0 (admitSub nb))

theorem witness_admission :
    (let s := admitBench 0 1 1 false; (s.slot 0).st = .drafting ∧ (s.slot 0).admission = some (admitSub 1) ∧ treeComplete (s.nodesOf 0) = false) ∧
    Silent (admitSub 1).block ∧ Silent (admitSub 0).block ∧
    admits 0 1 0 (fun a => match a with | .fail _ => true | _ => false) = true ∧
    (∀ stalled : Bool, admits (if stalled then 1 else 2) 0 1 (fun a => match a with | .refuse b => b == stalled | _ => false) = true) ∧
    admits 0 1 1 (fun a => match a with | .keep ms _ _ => ms.length == 1 | _ => false) = true := by
  unfold Silent
  decide +kernel

/-- A verification of an empty tree over a vocabulary of one token, with its probability table at `p`. -/
def verifySub (p : Nat) : LpSub := { core := 0, block := words [0, 0, 0, 2 ^ 16 + 2 ^ 32, p, 0xE0000, 0, 0], seq := 0, pc := 0x10000 }

def commitBench (p fin : Nat) : State :=
  { specBench { draftSlot with st := .committing, verified := some (verifySub p) } with
    mem := memWrite (memWrite (specMem 1) 0xA0000 (toBytes 4 (5 + fin * 2 ^ 31))) 0xD0000 (toBytes 4 0x3F800000) }

def commits (p fin : Nat) : Bool :=
  let s := commitBench p fin
  let x := s.slot 0
  x.st == .committing && x.verified == some (verifySub p) && x.wst == 0 && s.bridge.isEmpty && !x.sampler
    && (match s.tokAt x.ctx x.tokbuf (x.len - 1) with | .ok (_, f) => f == (fin == 1) | .error _ => false)

theorem witness_commit :
    commits 0xD0000 0 = true ∧
    (commits (2 ^ 53) 1 = true ∧ Silent (verifySub (2 ^ 53)).block ∧
      (match (commitBench (2 ^ 53) 1).commitPlan 0 (verifySub (2 ^ 53)) with | .ok _ => false | .error _ => true) = true) ∧
    (commits 0xD0000 1 = true ∧
      (match (commitBench 0xD0000 1).commitPlan 0 (verifySub 0xD0000) with
       | .ok (u, _, _) => (match (u.setSlot 0 (u.slot 0)).vLoc 0 0xB0000 { w := true } with | .ok loc => loc == 0xB0000 | .error _ => false)
       | .error _ => false) = true) := by
  unfold Silent
  decide +kernel

/-- Such a step whose DPOS lies in a page in motion. -/
theorem witness_commit_waits :
    let s : State := { commitBench 0xD0000 1 with
      loupe := [(0, { draftSlot with st := .committing, verified := some (verifySub 0xD0000), dposaddr := 2 ^ 39 })]
      ctxs := (pageBench 0x50083).ctxs
      mem := memWrite (pageBench 0x50083).mem 0xA0000 (toBytes 4 (5 + 2 ^ 31)) }
    let x := s.slot 0
    x.st = .committing ∧ x.wst = 0 ∧ s.pagesMoving x.ctx x.dposaddr 16 = true ∧
      (match s.tokAt x.ctx x.tokbuf (x.len - 1) with | .ok (_, f) => f | .error _ => false) = true ∧
      (commitBench 0xD0000 1).pagesMoving 0 0xB0000 16 = false ∧ (commitBench (2 ^ 53) 1).pagesMoving 0 0xB0000 16 = false ∧
      (commitBench (2 ^ 53) 1).abandonWaits 0 = false ∧
      (match (commitBench (2 ^ 53) 1).commitPlan 0 (verifySub (2 ^ 53)) with | .ok _ => false | .error e => e != kvWaits) = true := by
  decide +kernel

/-- A commit whose word 0, or word 1, is due over the bridge. -/
theorem witness_commit_words :
    [1, 2].all (fun w =>
      let m : BridgeMsg := { id := 0, src := 4097, dst := 4096, due := 0, loc := 0xB0000, bytes := toBytes 8 7, lseq := some 0 }
      let s := { specBench { draftSlot with st := .committing, verified := some (verifySub 0xD0000), wst := w } with bridge := [m] }
      s.bridge.find? (fun m => m.src == 4097 && m.dst == 4096) == some m && decide (m.due ≤ s.now) && (s.slot 0).st == .committing
        && (s.slot 0).wst == w && (s.slot 0).verified == some (verifySub 0xD0000)) = true ∧ Silent (verifySub 0xD0000).block := by
  unfold Silent
  decide +kernel

/-! ## Prism and Mirror -/

/-- A request for a number of bytes of the export at 0x1000, for window 0 of core 0. -/
def prismReq (n phase : Nat) (bs : List Byte) : PrismReq :=
  { core := 0, seq := 1, pc := 0x10000, block := words [0, 0, 0, 0x1000, 0, n * 2 ^ 32, 0, 0], phase := phase, bytes := bs }

/-- One export and one window, open or not, on the bench. -/
def prismBench (x : PrismReq) (expn window : Nat) (cmds : List Cmd) : State :=
  let any : Nat := 0xFFFF + 2 ^ 23
  { bench { benchCore with cmds := cmds } with
    mem := memWrite (memWrite [] 0x40000 ([0x1000, 64 + 3 * 2 ^ 48, 0x5000, any].flatMap (toBytes 8))) 0x60000
      ([0, 64 + window * 2 ^ 32, any, 0].flatMap (toBytes 8))
    expbase := 0x40000, expn := expn, rwtbase := 0x60000, prism := [(3, x)], nPrism := 4 }

theorem witness_prism :
    (let s := prismBench (prismReq 4 2 []) 1 1 []; s.preq 3 = some (prismReq 4 2 []) ∧ (prismReq 4 2 []).phase ≠ 0) ∧
    (let x := prismReq 4 0 []
     let s := prismBench x 0 1 []; s.preq 3 = some x ∧ x.phase = 0 ∧ x.apkg = s.pkgnum ∧ x.rpkg = s.pkgnum ∧ s.exportFor x = none) ∧
    (let x := prismReq 4 0 []
     let s := prismBench x 1 1 []
     s.exportFor x = some (0x5000, 0) ∧ s.prismBytes 0 (pagesOf (bfld x.block 5 55 32)) 0x5000 (bfld x.block 5 55 32) = ([0, 0, 0, 0], none)) ∧
    (let x := prismReq 4 1 []
     let cmd := cmdOf (.prism 0 always)
     let s := prismBench x 1 1 [cmd]
     s.preq 3 = some x ∧ x.apkg = s.pkgnum ∧ (s.core x.core).cmd? x.seq = some cmd ∧ cmd.finished = false ∧ statusIsError cmd.status = false ∧
       (s.core x.core).bound = true ∧ (s.core x.core).drec = 0) ∧
    (let x : PrismReq := { prismReq 1 1 [7] with block := words [0, 0, 0, 0x1000, 0, 2 ^ 32, 60 * 2 ^ 32, 0] }
     let s := prismBench x 1 1 []
     let y : PrismReq := { x with win := some (x.win.getD (s.rwWords x)) }
     (x.phase = 1 ∧ x.bytes = [7] ∧ x.ostat = 0 ∧ bfld x.block 6 1 0 = 0 ∧ bitAt (y.rw 1) 32 = true) ∧ x.matches_ (y.rw 2) = true ∧
       bfld x.block 5 31 0 + bfld x.block 5 55 32 ≤ y.rw 1 % 2 ^ 32 ∧ s.rwPart y (bfld x.block 5 31 0) 1 = some (scratchLoc 0 0, 1) ∧
       s.depositHeld y (bfld x.block 5 31 0) 1 = false ∧ s.prismFrozen y = false ∧ s.engineTile (scratchLoc 0 0) = false ∧
       y.rw 1 % 2 ^ 32 < bfld x.block 6 63 32 + 8 ∧ homeDie (scratchLoc 0 0) ≠ some 1) ∧
    (let x : PrismReq := { prismReq 1 1 [7] with block := words [0, 0, 0, 0x1000, 0, 2 ^ 32, 60 * 2 ^ 32, 0] }
     let s : State := { prismBench x 1 1 [] with boot := { State.reset.boot with frozen := true } }
     let y : PrismReq := { x with win := some (x.win.getD (s.rwWords x)) }
     x.phase = 1 ∧ x.bytes ≠ [] ∧ bitAt (y.rw 1) 32 = true ∧ x.matches_ (y.rw 2) = true ∧ s.prismFrozen y = true) ∧
    (let x : PrismReq := prismReq 100 1 [7]
     let s := prismBench x 1 1 []
     let y : PrismReq := { x with win := some (x.win.getD (s.rwWords x)) }
     x.phase = 1 ∧ x.bytes ≠ [] ∧ bitAt (y.rw 1) 32 = true ∧ ¬bfld x.block 5 31 0 + bfld x.block 5 55 32 ≤ y.rw 1 % 2 ^ 32) ∧
    (let x : PrismReq := { prismReq 1 1 [] with ostat := 6 }
     let s := prismBench x 1 1 []
     let y : PrismReq := { x with win := some (x.win.getD (s.rwWords x)) }
     x.phase = 1 ∧ x.bytes = [] ∧ x.ostat ≠ 0 ∧ bitAt (y.rw 1) 32 = true) ∧
    (let x := prismReq 1 1 [7]
     let s := prismBench x 1 0 []
     let y : PrismReq := { x with win := some (x.win.getD (s.rwWords x)) }
     x.phase = 1 ∧ x.bytes ≠ [] ∧ bitAt (y.rw 1) 32 = false ∧ x.apkg = s.pkgnum) := by
  decide +kernel

/-- A request whose bytes are deposited, with its completion word at offset 8 of the window, at a scope. -/
def wordReq (scope : Nat) : PrismReq :=
  { prismReq 1 2 [] with block := words [0, 0, 0, 0x1000, 0, 2 ^ 32, scope * 2 ^ 2 + 8 * 2 ^ 32, 0], win := some [0, 64 + 2 ^ 32, 0, 0], cn := 1, mark := 5 }

theorem witness_prism_word :
    (let x := wordReq 7
     let s := { prismBench x 1 1 [] with deltas := [{ id := 4, region := 0, line := 0, shard := 0, waiting := [9], core := 0, delta := 0 }] }
     s.preq 3 = some x ∧ x.phase = 2 ∧ x.win.isSome = true ∧ bfld x.block 6 4 2 = 7 ∧ s.deltasAcked x.mark = false) ∧
    (let x := wordReq 3
     let s := prismBench x 1 1 []
     x.phase = 2 ∧ x.win.isSome = true ∧ bfld x.block 6 4 2 ≠ 7 ∧ s.depositHeld x (bfld x.block 6 63 32) 8 = false ∧ s.prismFrozen x = false ∧
       s.bridge = [] ∧ bfld x.block 6 1 0 = 0 ∧ bfld x.block 6 63 32 + 8 ≤ x.rw 1 % 2 ^ 32 ∧
       s.rwPart x (bfld x.block 6 63 32) 8 = some (scratchLoc 0 8, 8) ∧ s.engineTile (scratchLoc 0 8) = false ∧
       s.engineTile (scratchLoc 0 8 + 7) = false) := by
  decide +kernel

/-- A region whose first parity shard is here, with two data shards, and deltas on their way. -/
theorem witness_mirror :
    let d (id : Nat) (l : List Nat) : DeltaOut := { id := id, region := 0, line := 0, shard := 0, waiting := l, core := 0, delta := 0 }
    let s := { bench benchCore with
               mem := memWrite [] 0x40000 ([0x100000, 0x1000, 2 + 2 ^ 4 + 2 * 2 ^ 8 + 2 ^ 12].flatMap (toBytes 8)), mirbase := 0x40000,
               deltas := [d 4 [9], d 5 [9]] }
    let g := readRegion s.mem (s.mirbase + 64 * 0) 0
    (g.st ≠ 0 ∧ g.k ≤ g.role ∧ 1 < g.k ∧ 64 * 63 < g.len) ∧ Memory.wf s.mem = true ∧ ¬64 * 64 < g.len ∧
      (∃ e ∈ s.deltas, e.id ≠ 4 ∧ e.waiting ≠ []) := by
  refine ⟨by decide +kernel, by decide +kernel, by decide +kernel, ?_⟩
  exact ⟨{ id := 5, region := 0, line := 0, shard := 0, waiting := [9], core := 0, delta := 0 }, by simp, by decide +kernel, by decide +kernel⟩

/-! ## The links -/

/-- Port 0 up, with a slot entry of its TX and of its RX table, and words to send. -/
def upPort (tx rx : U64) : Port :=
  let x : Port := { en := true, aligned := true, attested := true, tx := List.replicate 256 tx, rx := List.replicate 256 rx, outq := [[5, 6]] }
  x

def linkBench (x : Port) (pairs : Tbl PairSt) : State := { bench benchCore with ports := [(0, x)], pairs := pairs }

/-- The bench under an open fabric timetable 9. -/
def openBench (tx rx : U64) (pairs : Tbl PairSt) : State :=
  { linkBench (upPort tx rx) pairs with launches := [(0, { placeLaunch with ttid := 9, img := some { image0 with fabric := true } })] }

/-- A flit from package 2 that is not sealed yet. -/
def flitOf (kind flags : Nat) (info : U64) (payload : BitVec 2048) : Flit :=
  { dpkg := 0, spkg := 2, kind := kind, flags := flags, pseq := 0, info := info, payload := payload, tag := 0 }

/-- A flit as its sender seals it for a port that expects counter 0. -/
def sealedFor (x : Port) (g : Flit) : Flit :=
  let y := g.payload ^^^ Config.gcmStream x.rxKey x.rxSalt x.rxCnt
  { g with payload := y, tag := Config.gcmTag x.rxKey x.rxSalt x.rxCnt (flitHeader g) y }

/-- A sealed flit opens to what was sealed. -/
theorem opens (s : State) (p : Nat) (g : Flit) (ha : (s.port p).attested = true) (hl : (s.port p).lock = false) (hf : (s.port p).rxFailed = [])
    (ht : g.tag = 0) :
    s.openFlit p (sealedFor (s.port p) g) =
      (s.setPort p { s.port p with rxFailed := Tbl.del [] s.slotOfArrival, rxCnt := ((s.port p).rxCnt + 1) % 2 ^ 64 }, some g) := by
  obtain ⟨d, sp, k, fl, ps, i, pl, t⟩ := g
  simp only at ht
  subst ht
  have hx : ∀ a b : BitVec 2048, (a ^^^ b) ^^^ b = a := fun a b => by rw [BitVec.xor_assoc, BitVec.xor_self, BitVec.xor_zero]
  simp [State.openFlit, sealedFor, ha, hl, hf, Tbl.find?, hx, flitHeader]

/-- The state after port 0 of a state has opened a flit. -/
def opened (s : State) : State :=
  s.setPort 0 { s.port 0 with rxFailed := Tbl.del [] s.slotOfArrival, rxCnt := ((s.port 0).rxCnt + 1) % 2 ^ 64 }

/-- A port that opens, and a condition on the state after. -/
def opensWith (s : State) (g : Flit) (p : State → Bool) : Bool :=
  (s.port 0).attested && !(s.port 0).lock && (s.port 0).rxFailed.isEmpty && g.tag == 0 && p (opened s)

theorem opensWith_open (s : State) (g : Flit) (p : State → Bool) (h : opensWith s g p = true) :
    ∃ f, s.openFlit 0 f = (opened s, some g) ∧ p (opened s) = true := by
  simp only [opensWith, Bool.and_eq_true, Bool.not_eq_true', List.isEmpty_iff, beq_iff_eq] at h
  obtain ⟨⟨⟨⟨h1, h2⟩, h3⟩, h4⟩, h5⟩ := h
  exact ⟨_, opens s 0 g h1 h2 h3 h4, h5⟩

theorem witness_departs :
    (let s := linkBench { upPort 0 0 with en := false } []; (s.port 0).en = false) ∧
    (∀ b : Bool, let s := linkBench (upPort 0x20000 0) (if b then [(2, { queue := [flitOf 2 0 0 0] })] else [])
     MaySend s 0 ∧ bitAt ((s.port 0).tx.getD s.slotNow 0).toNat 0 = false ∧
       (Tbl.getD s.pairs (fld ((s.port 0).tx.getD s.slotNow 0).toNat 31 16) {}).queue = if b then [flitOf 2 0 0 0] else []) ∧
    (let s := openBench 0x900020011 0 []
     let e := ((s.port 0).tx.getD s.slotNow 0).toNat
     MaySend s 0 ∧ bitAt e 0 = true ∧ bitAt e 10 = false ∧ s.openTable (fld e 63 32) = true ∧ s.frameFreeze = 0 ∧ s.boot.frozen = false ∧
       fld e 3 1 < (s.port 0).outq.length) := by
  unfold MaySend
  decide +kernel

/-- A flit whose tag is wrong at a port, which has or has not failed in its slot before. -/
theorem witness_wrong_tag (x : Port) (ha : x.attested = true) (hl : x.lock = false) (s : State) (hs : s.port 0 = x) (g : Flit) :
    ∃ f : Flit, Config.gcmTag x.rxKey x.rxSalt ((Tbl.find? x.rxFailed s.slotOfArrival).getD x.rxCnt) (flitHeader f) f.payload ≠ f.tag :=
  ⟨{ g with tag := Config.gcmTag x.rxKey x.rxSalt ((Tbl.find? x.rxFailed s.slotOfArrival).getD x.rxCnt) (flitHeader g) g.payload + 1 }, by
    show Config.gcmTag _ _ _ (flitHeader g) g.payload ≠ Config.gcmTag _ _ _ (flitHeader g) g.payload + 1
    generalize Config.gcmTag _ _ _ (flitHeader g) g.payload = v
    bv_omega⟩

/-- A SCHED flit of three words for queue 0, expected in its slot. -/
theorem witness_sched_arrives : ∃ f : Flit, ∃ u : State,
    let s := openBench 0 0x900020001 []
    let g := flitOf 1 3 (BitVec.ofNat 64 (s.slotOfArrival * 2 ^ 32)) 7
    let d := ((s.port 0).rx.getD s.slotOfArrival 0).toNat
    s.openFlit 0 f = (u, some g) ∧ g.kind = 1 ∧ bitAt d 0 = true ∧ fld d 31 16 = g.spkg ∧ s.openTable (fld d 63 32) = true ∧
      fld g.info.toNat 39 32 = s.slotOfArrival ∧ fld d 3 1 < (u.port 0).inq.length := by
  obtain ⟨f, hf, hu⟩ := opensWith_open (openBench 0 0x900020001 []) (flitOf 1 3 (BitVec.ofNat 64 ((openBench 0 0x900020001 []).slotOfArrival * 2 ^ 32)) 7)
    (fun u => decide (0 < (u.port 0).inq.length)) (by decide +kernel)
  exact ⟨f, _, hf, by decide +kernel⟩

/-- The same flit at a port whose RX table does not expect it. -/
theorem witness_plan_error : ∃ f : Flit, ∃ u : State,
    let s := openBench 0 0 []
    s.openFlit 0 f = (u, some (flitOf 1 3 0 7)) ∧ bitAt ((s.port 0).rx.getD s.slotOfArrival 0).toNat 0 = false := by
  obtain ⟨f, hf, hu⟩ := opensWith_open (openBench 0 0 []) (flitOf 1 3 0 7) (fun _ => true) (by decide +kernel)
  exact ⟨f, _, hf, by decide +kernel⟩

/-- A MEM flit that stores one byte at 0x100000: the pair's next, one that is early, one that is a repeat. -/
def memFlit (n : Nat) : Flit := flitOf 2 0 (BitVec.ofNat 64 n) (BitVec.ofNat 2048 (0x100000 + 9 * 2 ^ 52 + 7 * 2 ^ 128))
def memBench : State := linkBench (upPort 0 0) [(2, { recvSeq := 5 })]

theorem stores_five (u : State) (h : u.pairs = [(2, { recvSeq := 5 })]) (ho : Open u 0x100000 1) : StoresInOrder u (memFlit 5) 0x100000 [7] := by
  have hq : Tbl.getD u.pairs (memFlit 5).spkg {} = { recvSeq := 5 } := by rw [h]; decide +kernel
  refine ⟨?_, ?_, by decide +kernel, by decide +kernel, by decide +kernel, by decide, by decide +kernel, by decide +kernel, ho⟩ <;> rw [hq]
  decide +kernel

theorem witness_mem_arrives : ∃ f : Flit, ∃ u : State, memBench.openFlit 0 f = (u, some (memFlit 5)) ∧ (memFlit 5).kind = 2 ∧
    StoresInOrder u (memFlit 5) 0x100000 [7] ∧ (u.port 0).frozen = false ∧ memBench.boot.frozen = false := by
  obtain ⟨f, hf, hu⟩ := opensWith_open memBench (memFlit 5) (fun _ => true) (by decide +kernel)
  exact ⟨f, _, hf, by decide +kernel, stores_five _ rfl (open_of _ _ _ (by decide +kernel)), by decide +kernel, by decide +kernel⟩

theorem witness_mem_early : ∃ f : Flit, ∃ u : State, memBench.openFlit 0 f = (u, some (memFlit 6)) ∧
    (Tbl.getD memBench.pairs 2 {}).recvSeq % 2 ^ 32 < (memFlit 6).info.toNat % 2 ^ 32 ∧ (Tbl.getD memBench.pairs 2 {}).early = [] ∧
      (memFlit 6).info.toNat % 2 ^ 32 - (Tbl.getD memBench.pairs 2 {}).recvSeq % 2 ^ 32 < 2 ^ 31 ∧ u.cannotTake (memFlit 6) = false := by
  obtain ⟨f, hf, hu⟩ := opensWith_open memBench (memFlit 6) (fun _ => true) (by decide +kernel)
  exact ⟨f, _, hf, by decide +kernel⟩

theorem witness_mem_repeat : ∃ f : Flit, ∃ u : State, memBench.openFlit 0 f = (u, some (memFlit 4)) ∧
    (memFlit 4).info.toNat % 2 ^ 32 < (Tbl.getD memBench.pairs 2 {}).recvSeq % 2 ^ 32 ∧ u.cannotTake (memFlit 4) = false := by
  obtain ⟨f, hf, hu⟩ := opensWith_open memBench (memFlit 4) (fun _ => true) (by decide +kernel)
  exact ⟨f, _, hf, by decide +kernel⟩

/-- A request to read 8 bytes at 0x100000, and a flit that stores into a region in REBUILD. -/
def readFlit : Flit := flitOf 2 0 (BitVec.ofNat 64 5) (BitVec.ofNat 2048 (0x100000 + 9 * 2 ^ 52 + 11 * 2 ^ 60 + 8 * 2 ^ 128))

theorem witness_mem_read (frozen : Bool) : ∃ f : Flit, ∃ u : State,
    let s := { memBench with ports := [(0, { upPort 0 0 with frozen := frozen })] }
    s.openFlit 0 f = (u, some readFlit) ∧ readFlit.info.toNat % 2 ^ 32 = (Tbl.getD s.pairs 2 {}).recvSeq % 2 ^ 32 ∧
      (Tbl.getD s.pairs 2 {}).early = [] ∧ flitOp readFlit = 11 ∧ flitAddr readFlit = 0x100000 ∧ placeOf 0x100000 = .hbm ∧
      placeOf (0x100000 + 7) = .hbm ∧ s.isParity 0x100000 = false ∧ s.isParity (0x100000 + 7) = false ∧
      ofBytes (((flitBytes readFlit).drop 8).take 1) = 8 ∧ (u.port 0).frozen = frozen ∧ u.cannotTake readFlit = false := by
  cases frozen
  · obtain ⟨f, hf, hu⟩ := opensWith_open { memBench with ports := [(0, { upPort 0 0 with frozen := false })] } readFlit
      (fun u => !(u.port 0).frozen && !u.cannotTake readFlit) (by decide +kernel)
    exact ⟨f, _, hf, by decide +kernel⟩
  · obtain ⟨f, hf, hu⟩ := opensWith_open { memBench with ports := [(0, { upPort 0 0 with frozen := true })] } readFlit
      (fun u => (u.port 0).frozen && !u.cannotTake readFlit) (by decide +kernel)
    exact ⟨f, _, hf, by decide +kernel⟩

theorem witness_mem_rebuild : ∃ f : Flit, ∃ u : State,
    (rebuilding memBench).openFlit 0 f = (u, some (memFlit 5)) ∧ flitOp (memFlit 5) = 0 ∧ u.inRebuild (flitAddr (memFlit 5)) = true := by
  obtain ⟨f, hf, hu⟩ := opensWith_open (rebuilding memBench) (memFlit 5) (fun u => u.inRebuild (flitAddr (memFlit 5))) (by decide +kernel)
  exact ⟨f, _, hf, by decide +kernel, hu⟩

theorem witness_reserved_type : ∃ f : Flit, ∃ u : State, memBench.openFlit 0 f = (u, some (flitOf 6 0 0 0)) ∧ 6 ≤ (flitOf 6 0 0 0).kind := by
  obtain ⟨f, hf, hu⟩ := opensWith_open memBench (flitOf 6 0 0 0) (fun _ => true) (by decide +kernel)
  exact ⟨f, _, hf, by decide⟩

theorem witness_bounce : ∃ f : Flit, ∃ u : State, memBench.openFlit 0 f = (u, some (flitOf 3 0 0 0)) ∧ (flitOf 3 0 0 0).kind = 3 := by
  obtain ⟨f, hf, hu⟩ := opensWith_open memBench (flitOf 3 0 0 0) (fun _ => true) (by decide +kernel)
  exact ⟨f, _, hf, rfl⟩

/-- A switch table of one plain connection and one reduction group of two ranks. -/
def groupOn (port : Nat) : SwitchTable :=
  { frame := 0, plain := [(1, port, 2)], groups := [{ slot := 0, ranks := [port, port + 1], elem := 0, outs := [3] }] }
def laterTable : SwitchTable := { frame := 9, plain := [], groups := [] }

theorem witness_frames :
    (let s := { linkBench { upPort 0 0 with loadReq := true, newKeys := some 1 } [] with switches := [(0, { nextTables := [groupOn 4, laterTable] })] }
     s.framePos = 0 ∧ (s.port 0).loadReq = true ∧ (s.port 0).newKeys = some 1 ∧ 0 < s.dies.length ∧
       Tbl.find? s.switches 0 = some { nextTables := [groupOn 4, laterTable] } ∧
       ([groupOn 4, laterTable].filter (fun tb => decide (tb.frame ≤ s.framecnt))).getLast? = some (groupOn 4)) ∧
    (let s := { bench benchCore with switches := [(0, { nextTables := [laterTable] })] }
     [laterTable].filter (fun tb => decide (tb.frame ≤ s.framecnt)) = []) ∧
    (let s := { bench benchCore with framePos := 1 }; s.framePos ≠ 0) ∧
    (∀ n, n < 4 → let s := { bench benchCore with boot := { State.reset.boot with stage := n }, frameRun := n == 0 }; s.boot.stage = n ∧ s.frameRun = (n == 0)) ∧
    (({ disabled := [4] } : Switch).refuses (groupOn 4) = true ∧ ({} : Switch).refuses (groupOn 4) = false ∧
      ({ nextTables := [laterTable] } : Switch).nextTables = [] ++ [laterTable] ∧ (groupOn 4).frame < laterTable.frame) ∧
    (let s := linkBench (upPort 0x90000 0) [(7, { queue := [memFlit 0] })]
     let t := { s with ports := [], peertab := 0x40000, mem := memWrite [] (0x40000 + 16 * 7) [1], boot := { State.reset.boot with stage := 3 } }
     t.upPath 7 = false ∧ t.hasPath 7 = true ∧ (Tbl.getD t.pairs 7 {}).queue = [memFlit 0] ∧ t.boot.stage = 3 ∧ ({ memFlit 0 with spkg := 0 } : Flit).spkg = t.pkgnum) ∧
    (memFlit 5).spkg ≠ memBench.pkgnum ∧ (memFlit 5).dpkg = memBench.pkgnum := by
  decide +kernel

theorem witness_scaleout_arrives : StoresInOrder { memBench with boot := { State.reset.boot with stage := 3 } } (memFlit 5) 0x100000 [7] :=
  stores_five _ rfl (open_of _ _ _ (by decide +kernel))

/-- A contribution to a group from a port that is not this package's own, in its window and after it; and one from its own port. -/
theorem witness_reduction (late : Bool) :
    let port := Config.switchPort 0 + 1
    let w : Switch := { table := some (groupOn port) }
    let s : State := { bench benchCore with switches := [(0, w)], framecnt := if late then 1 else 0 }
    let f := flitOf 4 0 0 0
    let e : Int := if late then 1 else 0
    let age : Int := e * 256 + (if s.frameFreeze = 0 then (s.slotNow : Int) else -1) - fld f.info.toNat 39 32
    Tbl.getD s.switches 0 {} = w ∧ (groupOn port).groups.findIdx? (fun h => h.slot == fld f.info.toNat 39 32 && h.ranks.contains port) = some 0 ∧
      SeenAt s 0 port (fld f.info.toNat 39 32) f f ∧ ((s.framecnt : Int) - fld f.info.toNat 31 0 - e) % 2 ^ 32 = 0 ∧ -(2 ^ 31) ≤ e ∧ e < 2 ^ 31 ∧
      (late = false → 0 ≤ age ∧ age < 256) ∧ (late = true → 256 ≤ age) := by
  have h1 : fld (flitOf 4 0 0 0).info.toNat 39 32 = 0 := by decide +kernel
  have h2 : fld (flitOf 4 0 0 0).info.toNat 31 0 = 0 := by decide +kernel
  refine ⟨rfl, ?_, .inl ⟨by omega, rfl⟩, ?_, ?_, ?_, ?_, ?_⟩
  · rw [h1]
    simp [groupOn, List.findIdx?_cons]
  · rw [h2]
    cases late <;> rfl
  · cases late <;> decide
  · cases late <;> decide
  · rintro rfl
    rw [h1]
    decide +kernel
  · rintro rfl
    rw [h1]
    decide +kernel

/-- A plain flit from this package's own port, as it was sealed and not; in its slot for the first time and for the second. -/
theorem witness_plain (again : Bool) :
    let port := Config.switchPort 0
    let f := flitOf 1 3 (2 ^ 32) 7
    let x : Port := { upPort 0 0 with sent := [(1, (f, f))], replayed := if again then [1] else [] }
    let w : Switch := { table := some (groupOn port) }
    let s : State := { linkBench x [] with switches := [(0, w)] }
    SeenAt s 0 port (fld f.info.toNat 39 32) f f ∧ (fld f.info.toNat 39 32, port, 2) ∈ (groupOn port).plain ∧ w.emitted = [] ∧
      (∀ q, Tbl.find? (s.port 0).sent 1 ≠ some (q, { f with flags := 4 })) ∧ (s.port 0).lock = false ∧ 1 ∉ (s.port 0).replay ∧
      (1 ∈ (s.port 0).replayed ↔ again = true) := by
  have h : fld (flitOf 1 3 (2 ^ 32) 7).info.toNat 39 32 = 1 := by decide +kernel
  intro port f x w s
  have h1 : fld f.info.toNat 39 32 = 1 := h
  rw [h1]
  refine ⟨.inr ⟨rfl, rfl, rfl⟩, by simp [groupOn], rfl, fun q h => ?_, rfl, List.not_mem_nil, ?_⟩
  · have : (flitOf 1 3 (2 ^ 32) 7, flitOf 1 3 (2 ^ 32) 7) = (q, { flitOf 1 3 (2 ^ 32) 7 with flags := 4 }) := Option.some.inj h
    have := congrArg (fun p => p.2.flags) this
    cases this
  · cases again
    · exact ⟨fun h => absurd h List.not_mem_nil, fun h => nomatch h⟩
    · exact ⟨fun _ => rfl, fun _ => List.mem_cons_self⟩

/-- A group of two ranks of which none, one and both have come by its deadline. -/
theorem witness_deadline :
    [[], [(0, 0, 5)], [(0, 0, 5), (0, 1, 6)]].all (fun acc : List (Nat × Nat × BitVec 2048) =>
      let w : Switch := { table := some (groupOn 4), acc := acc }
      let r : RedGroup := { slot := 0, ranks := [4, 5], elem := 0, outs := [3] }
      (groupOn 4).groups[0]? == some r && w.emitted.isEmpty && r.ranks.length == 2 &&
        ((List.range 2).filterMap (fun i => (((w.acc.filter (fun a => a.1 == 0)).map (fun a => a.2)).find? (fun a => a.1 == i)).map (fun a => a.2))).length
          == acc.length) = true := by
  decide +kernel

/-! ## The host, bring-up, attestation and debug -/

/-- The bench in a stage of bring-up, with host window 0 on HBM from 2^32 on, open, read-only or closed. -/
def hostBench (stage window : Nat) : State :=
  { bench benchCore with
    boot := { State.reset.boot with stage := stage }
    host := { State.reset.host with hwin := State.reset.host.hwin.set 0 (BitVec.ofNat 64 (window + 2 ^ 32)) } }

theorem witness_host :
    (let s := hostBench 2 3; HostHbm s 64 (2 ^ 32 + 64) true ∧ placeOf (2 ^ 32 + 64 + 7) = .hbm ∧ s.isParity (2 ^ 32 + 64) = false ∧
      s.isParity (2 ^ 32 + 64 + 7) = false) ∧
    HostTurn (hostBench 2 3) (2 ^ 32 + 64) ∧ (let s := rebuilding (hostBench 2 3); HostHbm s 64 (2 ^ 32 + 64) true ∧ ¬HostTurn s (2 ^ 32 + 64)) ∧
    (let s := hostBench 2 3; { s with host := { s.host with frozen := true } }.host.frozen = true) ∧
    (let s := hostBench 4 1; HostHbm s 64 (2 ^ 32 + 64) false) ∧
    (let s := hostBench 2 0; 2 ≤ s.boot.stage ∧ s.host.frozen = false ∧ s.hostWindow 64 = none) ∧ (hostBench 1 3).boot.stage < 2 := by
  unfold HostHbm HostTurn
  decide +kernel

/-- The bytes that the clauses of open windows store to, and a DOORBELL of a free and of a busy mailbox. -/
theorem witness_host_open :
    Open (hostBench 2 3) (2 ^ 32 + 64) 8 ∧
    ∀ busy : Bool, let s := hostBench 2 3
      let t := { s with mbox := { s.mbox with busy := busy } }
      t.host.frozen = false ∧ t.mbox.busy = busy ∧ (toBytes 4 7).length = 4 :=
  ⟨open_of _ _ _ (by decide +kernel), by decide +kernel⟩

/-- A mailbox command of an OP on a register of block 4. -/
def mboxBench (stage op num : Nat) : State :=
  { bench benchCore with
    boot := { State.reset.boot with stage := stage }
    mbox := { State.reset.mbox with busy := true, cmd := BitVec.ofNat 64 (op + 4 * 2 ^ 9 + num * 2 ^ 12) :: List.replicate 7 5 } }

theorem witness_mailbox :
    (let s := mboxBench 2 1 0; s.mbox.busy = true ∧ s.mbox.op = 1 ∧ 2 ≤ s.boot.stage ∧ (s.regRead s.mbox.block s.mbox.die s.mbox.num).isSome = true) ∧
    (let s := mboxBench 2 1 294; s.mbox.op = 1 ∧ s.regRead s.mbox.block s.mbox.die s.mbox.num = none) ∧
    (let s := mboxBench 2 9 0; s.mbox.busy = true ∧ s.mbox.op ≠ 1 ∧ s.mbox.op ≠ 2) ∧
    (let s := mboxBench 2 2 0; s.mbox.busy = true ∧ s.mbox.op = 2 ∧ 2 ≤ s.boot.stage ∧ (s.regRead s.mbox.block s.mbox.die s.mbox.num).isSome = true) ∧
    (let s := mboxBench 1 2 0; s.mbox.op = 2 ∧ s.boot.stage < 2) ∧
    0 < State.reset.dies.length ∧ 0 < groupsOf 0 ∧ 0 < groupsOf 1 := by
  decide +kernel

/-- The bench at a point of bring-up. -/
def bootBench (b : Boot) : State := { bench benchCore with boot := b }

theorem witness_stages :
    (let s := bootBench { verified := true }; s.boot.stage = 0 ∧ s.boot.verified = true) ∧
    (let s := bootBench { stage := 1, memReady := true }; s.boot.stage = 1 ∧ s.boot.memReady = true) ∧
    (let s := { bootBench { stage := 2, coresReady := true } with pkgSet := true }; s.boot.stage = 2 ∧ s.boot.coresReady = true ∧ s.pkgSet = true) ∧
    (let s := bootBench { stage := 3 }; s.boot.stage = 3 ∧ ∀ q ∈ s.ports, q.2.en = true → q.2.attested = true ∨ q.2.lock = true) ∧
    (let s := { bootBench { stage := 3 } with ports := [(0, { en := true })] }
     ∃ q ∈ s.ports, q.2.en = true ∧ q.2.attested = false ∧ q.2.lock = false) ∧
    (bootBench { stage := 4 }).boot.stage = 4 ∧ (bootBench {}).boot.stage ≠ 4 ∧ (bootBench {}).boot.verified = false := by
  decide +kernel

theorem witness_attestation :
    (let s := bootBench { stage := 4, attBusy := true, attaddr := 0x100000 }
     s.boot.attBusy = true ∧ placeOf s.boot.attaddr = .hbm ∧ placeOf (s.boot.attaddr + 2047) = .hbm) ∧
    (let s := bootBench { attBusy := true, attaddr := 2 ^ 51 }; placeOf s.boot.attaddr ≠ .hbm) ∧
    (∀ b : Bool, let s := { bootBench { stage := 3 } with ports := [(0, { en := true, aligned := true, reatt := b })] }
     3 ≤ s.boot.stage ∧ (s.port 0).en = true ∧ (s.port 0).aligned = true ∧ (s.port 0).attested = false ∧ (s.port 0).lock = false ∧ (s.port 0).reatt = b) ∧
    (bootBench {}).boot.attBusy = false := by
  decide +kernel

/-- The place of a report; and the same in a parity range. Whether an identity answers a nonce is a free value of Config, so the clauses of
`AttestationAndDebugAct` on a port divide on it: neither side is shut out. -/
theorem witness_report :
    Open (bootBench { stage := 4, attBusy := true, attaddr := 0x100000 }) 0x100000 2048 ∧
    (guarding (bootBench { stage := 4, attBusy := true, attaddr := 0x100000 })).isParity 0x100000 = true ∧
    (let s := { bootBench { frozen := true } with launches := [(0, { placeLaunch with img := some { image0 with fabric := true } })] }
     s.boot.frozen = true ∧ 0 ∈ s.fabricCores) :=
  ⟨open_of _ _ _ (by decide +kernel), by decide +kernel, by decide +kernel⟩

theorem witness_debug :
    (∀ u f : Bool, let s := bootBench { unlocked := u, frozen := f }
     s.boot.unlocked = u ∧ s.boot.frozen = f ∧ bitAt 0 30 = false ∧ bitAt 0 31 = false ∧ (s.core (0 % 2 ^ 12)).g.length = 64) ∧
    bitAt (2 ^ 30) 30 = true := by
  decide +kernel

/-! ## The machine as a whole -/

/-- The one instruction at the bench's pc, and nothing before its issue. -/
theorem witness_step :
    let i := Instr.add 1 0 0 always
    let s := withCode benchCore i
    s.agenda = [] ∧ s.boot.frozen = false ∧ s.sensed = true ∧ s.nextCore = some 0 ∧ (s.core 0).held = [] ∧ (s.core 0).status = .run ∧
      (s.core 0).tagged = true ∧ ({ s with cur := 0 } : State).gate 0 = none ∧
      (match ({ s with cur := 0 } : State).fetchBundle 0 with
       | (u, .ok q) => q == oneSlot i && (u.core 0).timingSub == 0 && (u.core 0).idles (oneSlot i) == 0 && (u.core 0).held.isEmpty
       | _ => false) = true ∧ i.wf = true ∧ i.kind ≠ .event := by
  decide +kernel

/-- A due event, a debug freeze, the settling of delays, a held slot, and the end of a cycle. -/
theorem witness_turns :
    (let s := { bench benchCore with agenda := [(0, .frameBoundary)] }; s.agenda = [(0, .frameBoundary)] ∧ 0 ≤ s.now) ∧
    (let s := { bench benchCore with agenda := [(1, .frameBoundary)], boot := { State.reset.boot with frozen := true } }; s.now < 1 ∧ s.boot.frozen = true) ∧
    (let s := { bench benchCore with sensed := false }; s.boot.frozen = false ∧ s.sensed = false) ∧
    (let s := bench { benchCore with turn := true }; s.sensed = true ∧ s.nextCore = none) ∧
    (let s := bench { benchCore with held := [heldOf (.move false 1 2 always) 0] }
     s.nextCore = some 0 ∧ (s.core 0).held ≠ [] ∧ (s.core 0).heldTried = false) := by
  decide +kernel

/-- Words with a reserved guard and words that decode, in a slot. -/
theorem witness_guards : (Instr.add 1 0 0 always).kind ≠ .event ∧ (24 ≤ 0x18 % 64 ∧ 0x18 % 64 ≤ 30) ∧ (56 ≤ 0x3E % 64 ∧ 0x3E % 64 ≤ 62) ∧
    [0x8130909F, 0x8130909F - 0x1F, 0x8130909F + 1, 0x8130909F + 0x20].all (fun w => (decodeSlot .m w).isSome) = true := by
  decide +kernel

/-- Instructions of each slot that are well formed, and a word of each slot that decodes. -/
theorem witness_encoding :
    [Instr.move false 1 2 always, .mma 0x45 2 31, .waitf 3 2 31, .stk 4 3 32 31].all (fun i => i.wf && i.kind != .event) = true ∧
    (decodeSlot .m 0x8130909F).isSome = true := by
  decide +kernel

theorem witness_canonical :
    Memory.wf (withCode benchCore (.add 1 0 0 always)).mem = true ∧
    (∃ t, step ({ bench benchCore with agenda := [(0, .frameBoundary)] } : State) = .next t) ∧
    ({ bench benchCore with agenda := [(0, .frameBoundary)] } : State).agenda = [(0, .frameBoundary)] ∧ (Instr.frameBoundary).kind = .event :=
  ⟨by decide +kernel, ⟨_, rfl⟩, rfl, rfl⟩

end Sys2Proof.Tests
end

section
/-! SUPPORT. The machine at reset (R6, R48, R49, R301, R352, R371, R373). -/

namespace Sys2Proof.Machine

open Sys2Proof.Claims

/-- No core is listed at reset, and no window has run yet: each is at the cold values of `Core`. -/
theorem reset_core (c : Nat) : State.reset.core c = {} := rfl

theorem reset_ctx (x : Nat) : State.reset.ctx x = {} := rfl

theorem reset_port (p : Nat) : State.reset.port p = {} := rfl

/-- Both dies stand at the cold values of `Die`, and so does an index that names none. -/
theorem reset_die (d : Nat) : State.reset.die d = {} := by
  match d with
  | 0 | 1 => rfl
  | _ + 2 => rfl

/-- Every scale register holds 0x7F80 in each of its 64 entries. -/
theorem reset_scale_entry {n j : Nat} (hn : n < 32) (hj : j < 64) :
    (({} : Core).k.getD n 0).toNat / 2 ^ (16 * j) % 2 ^ 16 = 0x7F80 := by
  have entries : ∀ j, j < 64 → (BitVec.ofNat 1024 (0x7F80 * ((2 ^ 1024 - 1) / (2 ^ 16 - 1)))).toNat / 2 ^ (16 * j) % 2 ^ 16 = 0x7F80 := by
    decide +kernel
  have hk : ({} : Core).k.getD n 0 = BitVec.ofNat 1024 (0x7F80 * ((2 ^ 1024 - 1) / (2 ^ 16 - 1))) := List.getD_replicate _ hn
  rw [hk]
  exact entries j hj

theorem reset_loops : ∀ l ∈ ({} : Core).loops, l.active = false := by
  intro l hl
  rw [List.eq_of_mem_replicate hl]

theorem reset_tile {n : Nat} (hn : n < 16) : ({} : Core).t.getD n {} = {} := List.getD_replicate _ hn

theorem reset_base {n : Nat} (hn : n < 16) : ({} : Core).b.getD n {} = {} := List.getD_replicate _ hn

/-- The power limits of R352 of a die: 23,040 in PLIM and 28,160 in HLIM of its first group. -/
theorem reset_limits {d : Nat} (hd : d < 2) :
    State.reset.regRead 3 d 7 = some 23040 ∧ State.reset.regRead 3 d (7 + groupsOf d) = some 28160 := by
  match d, hd with
  | 0, _ | 1, _ => exact ⟨rfl, rfl⟩

/-- Settles O55: nothing is listed at reset, so that each core, context and port is the cold record of its kind. -/
theorem resetHoldsTheColdValues : Obligations.ResetHoldsTheColdValues := by
  unfold Obligations.ResetHoldsTheColdValues
  intro s
  refine ⟨rfl, rfl, rfl, rfl, rfl, fun c => ?core, fun x => ?ctx, fun d hd => ?die, fun p => ?port, rfl, rfl, rfl, rfl, rfl, rfl⟩
  case core =>
    rw [reset_core c]
    refine ⟨rfl, rfl, rfl, rfl, rfl, rfl, rfl, rfl, rfl, rfl, rfl, rfl, rfl, rfl, rfl, rfl, rfl, rfl, rfl, rfl, fun n hn => ?_,
      fun n j hn hj => reset_scale_entry hn hj, reset_loops⟩
    rw [reset_tile hn, reset_base hn]
    exact ⟨rfl, rfl, rfl, rfl⟩
  case ctx =>
    rw [reset_ctx x]
    exact ⟨rfl, rfl, rfl, rfl⟩
  case die =>
    rw [reset_die d]
    exact ⟨rfl, rfl, reset_limits hd⟩
  case port =>
    rw [reset_port p]
    exact ⟨rfl, rfl, rfl⟩

end Sys2Proof.Machine
end

section
/-! SUPPORT. The host link: what the writes at a home, the bridge and the trap queue leave of it (R344, R353 to R355). -/

namespace Sys2Proof.Machine

/-! ## What leaves the host link as it was -/

/-- A fold of steps that each leave `g` as it was leaves it as it was. -/
theorem foldl_keeps {σ α β : Type} (g : σ → β) (f : σ → α → σ) (hf : ∀ s a, g (f s a) = g s) (l : List α) (s : σ) :
    g (l.foldl f s) = g s := by
  induction l generalizing s with
  | nil => rfl
  | cons a r ih => rw [List.foldl_cons, ih, hf]

@[simp] theorem queueMem_host (s : State) (pkg : Nat) (x : BitVec 2048) : (s.queueMem pkg x).host = s.host := rfl

@[simp] theorem addDelta_host (s : State) (c loc : Nat) (d : BitVec 512) : (s.addDelta c loc d).host = s.host := by
  unfold State.addDelta
  split
  · rfl
  · split
    · exact foldl_keeps State.host _ (fun t p => queueMem_host t p _) _ _
    · rfl

@[simp] theorem request_host (s : State) (who : Waiter) (pkg op pa : Nat) (bs : List Byte) : (s.request who pkg op pa bs).host = s.host := rfl

@[simp] theorem sendStore_host (s : State) (who : Waiter) (loc : Nat) (bs : List Byte) : (s.sendStore who loc bs).host = s.host := by
  unfold State.sendStore
  split
  · exact foldl_keeps State.host _ (fun t _ => request_host t who _ 0 _ _) _ _
  · rfl

@[simp] theorem unstale_host (s : State) (loc n : Nat) : (s.unstale loc n).host = s.host := by
  unfold State.unstale
  split <;> rfl

@[simp] theorem homePut_host (s : State) (c loc : Nat) (bs : List Byte) : (s.homePut c loc bs).host = s.host := by
  unfold State.homePut
  dsimp only
  split
  · exact unstale_host s loc bs.length
  · rw [foldl_keeps State.host _ (fun t _ => addDelta_host t c _ _)]
    exact unstale_host s loc bs.length

@[simp] theorem stall_host (s : State) (c loc : Nat) (virt : Option (Nat × Nat)) (bs : List Byte) : (s.stall c loc virt bs).host = s.host := rfl

@[simp] theorem homeWrite_host (s : State) (c loc : Nat) (bs : List Byte) : (s.homeWrite c loc bs).host = s.host := by
  unfold State.homeWrite
  repeat' split
  all_goals simp

@[simp] theorem bridgeSend_host (s : State) (src dst loc : Nat) (bs : List Byte) (lseq : Option Nat) :
    (s.bridgeSend src dst loc bs lseq).host = s.host := rfl

@[simp] theorem rdcClean_host (s : State) (d line : Nat) : (s.rdcClean d line).host = s.host := by
  unfold State.rdcClean
  split
  · rfl
  · exact foldl_keeps State.host _ (fun t _ => bridgeSend_host t _ _ _ _ _) _ _

@[simp] theorem rdcRoom_host (s : State) (d line : Nat) : (s.rdcRoom d line).host = s.host := by
  unfold State.rdcRoom
  split
  · exact rdcClean_host s d _
  · rfl

@[simp] theorem dieWrite_host (s : State) (c loc : Nat) (b : Byte) : (s.dieWrite c loc b).host = s.host := by
  unfold State.dieWrite
  dsimp only
  split <;> simp

@[simp] theorem dieWrites_host (s : State) (c loc : Nat) (bs : List Byte) : (s.dieWrites c loc bs).host = s.host := by
  unfold State.dieWrites
  split
  · exact homeWrite_host s c loc bs
  · exact foldl_keeps State.host _ (fun t (q : Nat × Byte) => dieWrite_host t c (loc + q.1) q.2) _ _

@[simp] theorem logicWrite_host (s : State) (d sc loc : Nat) (bs : List Byte) : (s.logicWrite d sc loc bs).host = s.host := by
  unfold State.logicWrite
  repeat' split
  all_goals simp

/-! ## What leaves the host path frozen or open as it was (R344): a trap-queue entry may fire a vector, and no more -/

@[simp] theorem fire_frozen (h : HostLink) (v : Nat) : (h.fire v).frozen = h.frozen := by
  unfold HostLink.fire
  split <;> rfl

@[simp] theorem msixFor_frozen (s : State) (ctx bit : Nat) : (s.msixFor ctx bit).host.frozen = s.host.frozen :=
  foldl_keeps HostLink.frozen _ fire_frozen _ _

@[simp] theorem setEvent_frozen (s : State) (ctx bit : Nat) : (s.setEvent ctx bit).host.frozen = s.host.frozen := by
  unfold State.setEvent
  dsimp only
  split
  · rfl
  · exact msixFor_frozen _ ctx bit

@[simp] theorem trapAppend_frozen (s : State) (d : Nat) (ws : List U64) : (s.trapAppend d ws).host.frozen = s.host.frozen := by
  unfold State.trapAppend
  dsimp only
  split <;> simp

@[simp] theorem trapOne_frozen (s : State) (d : Nat) (e : Nat × Bool × List U64) : (s.trapOne d e).host.frozen = s.host.frozen := by
  unfold State.trapOne
  repeat' split
  all_goals simp

@[simp] theorem trapEntry_frozen (s : State) (d c : Nat) (note : Bool) (ws : List U64) :
    (s.trapEntry d c note ws).host.frozen = s.host.frozen := by
  unfold State.trapEntry
  dsimp only
  repeat' split
  · rfl
  · simp
  · simp
  · exact foldl_keeps (fun t : State => t.host.frozen) _ (fun t e => trapOne_frozen t d e) _ _

@[simp] theorem notice_host (s : State) (kind w1 w3 : Nat) : (s.notice kind w1 w3).host = s.host := by
  rw [State.notice, apply_ite State.host, ite_self]

@[simp] theorem agentFreeze_frozen (s : State) (agent : Nat) : (s.agentFreeze agent).host.frozen = s.host.frozen := by
  simp [State.agentFreeze]

@[simp] theorem hostFreeze_frozen (s : State) : s.hostFreeze.host.frozen = true := agentFreeze_frozen _ _

end Sys2Proof.Machine
end

section
/-! SUPPORT. Host reads, writes and AtomicOps (R335, R344, R353, R354, R373). -/

namespace Sys2Proof.Machine

open Sys2Proof.Claims

/-! ## Events are their meanings -/

theorem exec_hostWrite (off : Nat) (bs : List Byte) (s : State) : exec (.hostWrite off bs) s = .next (s.hostWr off bs) := rfl
theorem exec_hostRead (off n : Nat) (s : State) : exec (.hostRead off n) s = .next (s.hostRd off n) := rfl
theorem exec_hostAtomicop (off op : Nat) (a b : U64) (s : State) : exec (.hostAtomicop off op a b) s = .next (s.hostAtomic off op a b) := rfl

/-! ## Places of HBM and open bytes -/

theorem scratchBase_le_of_scratch {loc id off : Nat} (h : placeOf loc = .scratch id off) : scratchBase ≤ loc := by
  unfold placeOf at h
  by_contra hlt
  rw [if_neg (by simp only [scratchBase] at hlt; omega), if_neg (by simp only [scratchBase] at hlt; omega), if_neg hlt] at h
  repeat' split at h
  all_goals cases h

/-- HBM lies below 2^40 (R315). -/
theorem hbm_lt {loc : Nat} (h : placeOf loc = .hbm) : loc < 2 ^ 40 := by
  unfold placeOf at h
  by_contra hge
  rw [if_pos (by omega : 2 ^ 40 ≤ loc)] at h
  repeat' split at h
  all_goals cases h

/-- No tile is owned by an engine below the scratch windows. -/
theorem engineTile_below (s : State) {loc : Nat} (h : loc < scratchBase) : s.engineTile loc = false := by
  unfold State.engineTile
  split
  · rename_i hp
    have := scratchBase_le_of_scratch hp
    omega
  · rfl

theorem regionOf_open {s : State} {loc n j : Nat} (ho : Open s loc n) (hj : j < n) : s.regionOf (loc + j) = none := by
  obtain ⟨_, hregion, _, _⟩ := ho
  exact hregion j hj

theorem isParity_open {s : State} {loc n j : Nat} (ho : Open s loc n) (hj : j < n) : s.isParity (loc + j) = false := by
  rw [State.isParity, regionOf_open ho hj]

theorem isParity_open_first {s : State} {loc n : Nat} (ho : Open s loc n) (hn : 0 < n) : s.isParity loc = false := isParity_open (j := 0) ho hn

/-- A write to open bytes below the scratch windows puts them at their home. -/
theorem landWrite_open {s : State} {loc : Nat} {bs : List Byte} (c : Nat) (hb : 0 < bs.length) (hl : loc + (bs.length - 1) < scratchBase)
    (ho : Open s loc bs.length) : s.landWrite c loc bs = s.homePut c loc bs := by
  have hr := regionOf_open ho hb
  obtain ⟨_, _, hbehind, _⟩ := ho
  have h64 : loc < 2 ^ 64 := by simp only [scratchBase] at hl; omega
  rw [State.landWrite, engineTile_below s (by omega : loc < scratchBase), engineTile_below s hl, if_neg (by simp)]
  exact homeWrite_puts s c loc bs h64 hr hbehind

theorem wrote_of_mem {s t : State} {loc : Nat} {bs : List Byte} (h : t.mem = memWrite s.mem loc bs) : Wrote s t loc bs := by
  intro hw
  rw [h]
  exact ⟨fun j hj => memGet_write_in s.mem loc j bs hw hj, fun x hx => memGet_write_out s.mem loc x bs hw hx⟩

theorem wrote_homePut (s : State) (c loc : Nat) (bs : List Byte) : Wrote s (s.homePut c loc bs) loc bs := wrote_of_mem (homePut_mem s c loc bs)

theorem rdBytes_eq_map (s : State) (loc n : Nat) : s.rdBytes loc n = (List.range n).map (fun i => s.rd (loc + i)) := by
  induction n generalizing loc with
  | zero => rfl
  | succ n ih =>
    rw [State.rdBytes, ih, List.range_succ_eq_map, List.map_cons, List.map_map]
    refine congrArg₂ List.cons rfl (List.map_congr_left fun i _ => ?_)
    exact congrArg s.rd (by simp only [Nat.succ_eq_add_one]; omega)

theorem toBytes_length (n x : Nat) : (toBytes n x).length = n := by
  induction n generalizing x with
  | zero => rfl
  | succ n ih => rw [toBytes, List.length_cons, ih]

/-! ## The turn of a host request (R335) -/

theorem hostTurn_iff (s : State) (loc : Nat) : HostTurn s loc ↔ (s.host.held.isEmpty && !s.inRebuild loc) = true := by
  simp [HostTurn]

theorem hostTake_next {s : State} {loc : Nat} (bs : List Byte) (op : Option (Nat × U64 × U64)) (h : HostTurn s loc) :
    s.hostTake { loc := loc, bytes := bs, atom := op } = s.hostAct { loc := loc, bytes := bs, atom := op } := by
  rw [State.hostTake, if_pos ((hostTurn_iff s loc).mp h)]

theorem hostTake_waits {s : State} {loc : Nat} (bs : List Byte) (op : Option (Nat × U64 × U64)) (h : ¬HostTurn s loc) :
    s.hostTake { loc := loc, bytes := bs, atom := op } =
      { s with host := { s.host with held := s.host.held ++ [{ loc := loc, bytes := bs, atom := op }] } } := by
  rw [State.hostTake, if_neg (fun hc => h ((hostTurn_iff s loc).mpr hc))]

/-! ## What a request to a place of HBM meets -/

theorem hostBad_hbm {s : State} {loc : Nat} (hp : placeOf loc = .hbm) (hn : s.isParity loc = false) : s.hostBad loc = false := by
  rw [State.hostBad, hp, hn]

theorem scratchShut_hbm {s : State} {loc : Nat} (hp : placeOf loc = .hbm) : s.scratchShut loc = false := by
  rw [State.scratchShut, hp]

theorem below_bar4 {off : Nat} (h : off < 2 ^ 38) : ¬bar4Base ≤ off := by simp only [bar4Base]; omega

theorem below_bar2 {off : Nat} (h : off < 2 ^ 38) : ¬bar2Base ≤ off := by simp only [bar2Base]; omega

theorem bar0Open_of {s : State} (h : 2 ≤ s.boot.stage) : s.bar0Open = true := decide_eq_true h

theorem bar0Open_early {s : State} (h : s.boot.stage < 2) : s.bar0Open = false := decide_eq_false (by omega)

/-! ## Writes -/

theorem hostWr_frozen {s : State} (off : Nat) (bs : List Byte) (h : s.host.frozen = true) : s.hostWr off bs = s := by
  rw [State.hostWr, if_pos h]

theorem hostWr_early {s : State} {off : Nat} (bs : List Byte) (ho : off < 2 ^ 38) (hs : s.boot.stage < 2) : s.hostWr off bs = s := by
  simp [State.hostWr, below_bar4 ho, below_bar2 ho, bar0Open_early hs]

theorem hostWr_closed {s : State} {off : Nat} (bs : List Byte) (ho : off < 2 ^ 38) (hs : 2 ≤ s.boot.stage) (hf : s.host.frozen = false)
    (hw : s.hostWindow off = none) : s.hostWr off bs = s.hostFreeze := by
  simp [State.hostWr, hf, below_bar4 ho, below_bar2 ho, bar0Open_of hs, hw]

/-- A write through an open writable window to HBM outside the parity ranges is taken as a request. -/
theorem hostWr_hbm {s : State} {off loc : Nat} {bs : List Byte} (h : HostHbm s off loc true) (hl : placeOf (loc + (bs.length - 1)) = .hbm)
    (hp : s.isParity loc = false) (hq : s.isParity (loc + (bs.length - 1)) = false) :
    s.hostWr off bs = s.hostTake { loc := loc, bytes := bs } := by
  obtain ⟨ho, hs, hf, hw, hb⟩ := h
  simp [State.hostWr, hf, below_bar4 ho, below_bar2 ho, bar0Open_of hs, hw, hostBad_hbm hb hp, hostBad_hbm hl hq, scratchShut_hbm hb]

/-! ## Reads -/

@[simp] theorem hostDone_frozen (s : State) (bs : List Byte) : (s.hostDone bs).host.frozen = s.host.frozen := rfl

theorem hostRd_frozen {s : State} (off n : Nat) (h : s.host.frozen = true) : s.hostRd off n = s.hostDone (List.replicate n 0xFF) := by
  rw [State.hostRd, if_pos h]

theorem hostRd_early {s : State} {off : Nat} (n : Nat) (ho : off < 2 ^ 38) (hs : s.boot.stage < 2) :
    s.hostRd off n = s.hostDone (List.replicate n 0xFF) := by
  simp [State.hostRd, below_bar4 ho, below_bar2 ho, bar0Open_early hs]

theorem hostRd_closed {s : State} {off : Nat} (n : Nat) (ho : off < 2 ^ 38) (hs : 2 ≤ s.boot.stage) (hf : s.host.frozen = false)
    (hw : s.hostWindow off = none) : s.hostRd off n = s.hostFreeze.hostDone (List.replicate n 0xFF) := by
  simp [State.hostRd, hf, below_bar4 ho, below_bar2 ho, bar0Open_of hs, hw]

theorem hostRd_hbm {s : State} {off loc : Nat} {writable : Bool} (n : Nat) (h : HostHbm s off loc writable) :
    s.hostRd off n = s.hostDone (s.rdBytes loc n) := by
  obtain ⟨ho, hs, hf, hw, hb⟩ := h
  simp [State.hostRd, hf, below_bar4 ho, below_bar2 ho, bar0Open_of hs, hw, hb, scratchShut_hbm hb]

/-! ## AtomicOps -/

theorem hostAtomic_hbm {s : State} {off loc : Nat} (op : Nat) (a b : U64) (h : HostHbm s off loc true) (hp : s.isParity loc = false) :
    s.hostAtomic off op a b = s.hostTake { loc := loc, bytes := [], atom := some (op, a, b) } := by
  obtain ⟨_, hs, hf, hw, hb⟩ := h
  simp [State.hostAtomic, hf, bar0Open_of hs, hw, hostBad_hbm hb hp, scratchShut_hbm hb]

/-- The word that an AtomicOp of R353 leaves: FetchAdd (0), Swap (1) or CAS (2). -/
def atomicNew (op : Nat) (old a b : U64) : U64 := if op = 0 then old + a else if op = 1 then a else if old = a then b else old

theorem hostAct_write (s : State) (loc : Nat) (bs : List Byte) : s.hostAct { loc := loc, bytes := bs } = s.landWrite noCore loc bs := rfl

theorem hostAct_atomic (s : State) {op : Nat} (loc : Nat) (a b : U64) (bs : List Byte) (hop : op < 3) :
    s.hostAct { loc := loc, bytes := bs, atom := some (op, a, b) } =
      (s.landWrite noCore loc (toBytes 8 (atomicNew op (u64 (ofBytes (s.rdBytes loc 8))) a b).toNat)).hostDone (s.rdBytes loc 8) := by
  match op, hop with
  | 0, _ => simp only [State.hostAct, atomicNew, if_pos]
  | 1, _ => simp only [State.hostAct, atomicNew, if_pos, Nat.one_ne_zero, if_false]
  | 2, _ => simp [State.hostAct, atomicNew]

/-! ## The clauses of R353 and R354 -/

/-- An open writable window stores the bytes at once (R354). -/
theorem hostWrite_stores {s : State} {off loc : Nat} {bs : List Byte} (h : HostHbm s off loc true) (ht : HostTurn s loc) (hb : bs ≠ [])
    (hl : placeOf (loc + (bs.length - 1)) = .hbm) (ho : Open s loc bs.length) :
    ∃ t, exec (.hostWrite off bs) s = .next t ∧ Wrote s t loc bs ∧ t.host = s.host := by
  have hlen : 0 < bs.length := List.length_pos_iff.mpr hb
  have hbelow : loc + (bs.length - 1) < scratchBase := by have := hbm_lt hl; simp only [scratchBase]; omega
  rw [exec_hostWrite, hostWr_hbm h hl (isParity_open_first ho hlen) (isParity_open (j := bs.length - 1) ho (by omega)),
    hostTake_next bs none ht, hostAct_write, landWrite_open noCore hlen hbelow ho]
  exact ⟨_, rfl, wrote_homePut s noCore loc bs, homePut_host s noCore loc bs⟩

/-- An AtomicOp answers the old word and leaves the new one (R353). -/
theorem hostAtomicop_exchanges {s : State} {off loc op : Nat} (a b : U64) (h : HostHbm s off loc true) (ht : HostTurn s loc)
    (ho : Open s loc 8) (hop : op < 3) :
    ∃ t, exec (.hostAtomicop off op a b) s = .next t ∧
      Wrote s t loc (toBytes 8 (atomicNew op (u64 (ofBytes (s.rdBytes loc 8))) a b).toNat) ∧ t.host.completion = s.rdBytes loc 8 := by
  have hlen := toBytes_length 8 (atomicNew op (u64 (ofBytes (s.rdBytes loc 8))) a b).toNat
  obtain ⟨_, _, _, _, hplace⟩ := id h
  have hbelow : loc + 7 < scratchBase := by have := hbm_lt hplace; simp only [scratchBase]; omega
  rw [exec_hostAtomicop, hostAtomic_hbm op a b h (isParity_open_first ho (by omega)), hostTake_next _ _ ht, hostAct_atomic s loc a b [] hop,
    landWrite_open noCore (by rw [hlen]; omega) (by rw [hlen]; exact hbelow) (by rw [hlen]; exact ho)]
  exact ⟨_, rfl, wrote_of_mem (homePut_mem s noCore loc _), rfl⟩

end Sys2Proof.Machine
end

section
/-! SUPPORT. The mailbox and its DOORBELL (R355, R380), and writes of management registers under their access codes (R6, R311, R337, R352, R371). -/

namespace Sys2Proof.Machine

open Sys2Proof.Claims

theorem exec_regrd (s : State) : exec .regrd s = .next s.regrd := rfl
theorem exec_regwr (s : State) : exec .regwr s = .next s.regwr := rfl
theorem exec_registerWrite (block d n : Nat) (v : U64) (s : State) :
    exec (.registerWrite block d n v) s = .next (s.regWrite block d n v.toNat) := rfl

/-! ## Fields of a word -/

theorem fld_low (x hi : Nat) : fld x hi 0 = x % 2 ^ (hi + 1) := by
  rw [fld, pow_zero, Nat.div_one, Nat.sub_zero]

theorem bitAt_toNat (v : U64) (i : Nat) : bitAt v.toNat i = v.getLsbD i := by
  rw [BitVec.getLsbD, Nat.testBit_eq_decide_div_mod_eq, bitAt]

theorem ofBytes_lt (bs : List Byte) : ofBytes bs < 256 ^ bs.length := by
  induction bs with
  | nil => decide
  | cons b r ih =>
    have hb : b.toNat < 256 := b.isLt
    rw [ofBytes, List.length_cons, pow_succ]
    omega

/-! ## The agenda -/

theorem mem_insertRank_self {α : Type} (rank : α → List Nat) (a : α) (l : List α) : a ∈ insertRank rank a l := by
  induction l with
  | nil => exact List.mem_singleton_self a
  | cons b r ih =>
    rw [insertRank]
    split
    · exact List.mem_cons_self
    · exact List.mem_cons_of_mem b ih

theorem mem_agenda_at (s : State) (cyc : Nat) (i : Instr) : (cyc, i) ∈ (s.at_ cyc i).agenda := mem_insertRank_self _ _ _

/-! ## The DOORBELL -/

/-- Four bytes at the bottom of BAR2 are a write to DOORBELL. -/
theorem hostWr_doorbell {s : State} {bs : List Byte} (hb : bs.length = 4) (hf : s.host.frozen = false) :
    s.hostWr (2 ^ 38) bs = s.doorbell (ofBytes bs) := by
  have hword : wordsAt 0 4 = [0] := rfl
  simp [State.hostWr, hf, bar4Base, bar2Base, State.mboxWrite, hb, hword, State.bar2Write, List.take_of_length_le (Nat.le_of_eq hb)]

theorem doorbell_busy {s : State} (v : Nat) (hm : s.mbox.busy = true) : s.doorbell v = { s with mbox := { s.mbox with ovr := true } } := by
  rw [State.doorbell, if_pos hm]

theorem doorbell_free {s : State} (v : Nat) (hm : s.mbox.busy = false) :
    s.doorbell v = (State.at_ { s with mbox := { s.mbox with busy := true, ovr := false, curseq := fld v 31 0, cmd := s.mbox.cmdReg } }
      (s.now + 1 + Config.latency s.fresh) (if fld (s.mbox.cmdReg.getD 0 0).toNat 7 0 = 2 then .regwr else .regrd)).tick1 := by
  rw [State.doorbell, if_neg (by simp [hm])]
  rfl

/-- A free mailbox takes CMD as it stands, and its event comes later (R355). -/
theorem doorbell_takes {s : State} {bs : List Byte} (hb : bs.length = 4) (hm : s.mbox.busy = false) :
    ∃ a, s.now < a ∧
      (s.doorbell (ofBytes bs)).mbox = { s.mbox with busy := true, ovr := false, curseq := ofBytes bs, cmd := s.mbox.cmdReg } ∧
      (a, if (s.mbox.cmdReg.getD 0 0).toNat % 256 = 2 then Instr.regwr else Instr.regrd) ∈ (s.doorbell (ofBytes bs)).agenda := by
  have hseq : fld (ofBytes bs) 31 0 = ofBytes bs := by
    have hlt := ofBytes_lt bs
    rw [hb] at hlt
    rw [fld_low]
    exact Nat.mod_eq_of_lt hlt
  rw [doorbell_free _ hm, hseq, fld_low]
  exact ⟨s.now + 1 + Config.latency s.fresh, by omega, rfl, mem_agenda_at _ _ _⟩

/-! ## What a command answers -/

theorem served_rspDone (s : State) (status data : Nat) : Served s.mbox (s.rspDone status data).mbox status data := rfl

theorem regrd_reads {s : State} {v : Nat} (hb : s.mbox.busy = true) (hop : s.mbox.op = 1) (hs : 2 ≤ s.boot.stage)
    (hv : s.regRead s.mbox.block s.mbox.die s.mbox.num = some v) : s.regrd = s.rspDone 0 v := by
  simp [State.regrd, State.mboxOpen, hb, hop, hs, hv]

theorem regrd_misses {s : State} (hb : s.mbox.busy = true) (hop : s.mbox.op = 1) (hs : 2 ≤ s.boot.stage)
    (hv : s.regRead s.mbox.block s.mbox.die s.mbox.num = none) : s.regrd = s.rspDone 1 0 := by
  simp [State.regrd, State.mboxOpen, hb, hop, hs, hv]

theorem regrd_otherOp {s : State} (hb : s.mbox.busy = true) (h1 : s.mbox.op ≠ 1) (h2 : s.mbox.op ≠ 2) : s.regrd = s.rspDone 1 0 := by
  simp [State.regrd, hb, h1, h2]

theorem regwr_writes {s : State} (hb : s.mbox.busy = true) (hop : s.mbox.op = 2) (hs : 2 ≤ s.boot.stage)
    (hv : (s.regRead s.mbox.block s.mbox.die s.mbox.num).isSome = true) :
    s.regwr = (s.regWrite s.mbox.block s.mbox.die s.mbox.num (s.mbox.cmd.getD 1 0).toNat).rspDone 0 0 := by
  have hn : s.regRead s.mbox.block s.mbox.die s.mbox.num ≠ none := Option.isSome_iff_ne_none.mp hv
  simp [State.regwr, State.mboxOpen, hb, hop, hs, hn]

theorem regwr_refuses {s : State} (hb : s.mbox.busy = true) (hop : s.mbox.op = 2)
    (h : s.boot.stage < 2 ∨ s.regRead s.mbox.block s.mbox.die s.mbox.num = none) : s.regwr = s.rspDone 1 0 := by
  rcases h with hs | hn
  · have hs' : ¬2 ≤ s.boot.stage := by omega
    simp [State.regwr, State.mboxOpen, hb, hop, hs']
  · simp [State.regwr, hb, hop, hn]

end Sys2Proof.Machine
end

section
/-! SUPPORT. Writes of management registers under their access codes (R6, R311, R337, R352, R371), and the host's and the registers'
answers together. -/

namespace Sys2Proof.Machine

open Sys2Proof.Claims

/-! ## Registers of a die: blocks 1 to 3 -/

theorem die_modDie_same {s : State} {d : Nat} (f : Die → Die) (hd : d < s.dies.length) : (s.modDie d f).die d = f (s.die d) := by
  rw [die_modDie, if_pos ⟨rfl, hd⟩]

theorem ctxbase_written {s : State} {d : Nat} (v : U64) (hd : d < s.dies.length) :
    (s.regWrite 1 d 0 v.toNat).regRead 1 d 0 = some (v.toNat % 2 ^ 52) := by
  change some ((s.modDie d _).die d).ctxbase = _
  rw [die_modDie_same _ hd, fld_low]

theorem enable_written {s : State} {d : Nat} (v : U64) (hd : d < s.dies.length) :
    ((s.regWrite 1 d 2 v.toNat).die d).enable = v.getLsbD 0 := by
  change ((s.modDie d _).die d).enable = _
  rw [die_modDie_same _ hd, bitAt_toNat]

theorem expbase_written (s : State) (d : Nat) (v : U64) : (s.regWrite 2 d 0 v.toNat).regRead 2 d 0 = some (v.toNat % 2 ^ 52) :=
  congrArg some (fld_low v.toNat 51)

/-- The numbers of PLIM of block 3 stand behind the seven registers of the trap queue (R352). -/
theorem wreg3_plim {s : State} {d n : Nat} (v : Nat) (hn : n < groupsOf d) :
    s.wreg3 d (7 + n) v = s.modDie d (fun x => { x with plim := Tbl.put x.plim n (fld v 19 0) }) := by
  rw [State.wreg3]
  · rw [if_neg (by omega), if_pos (by omega), Nat.add_sub_cancel_left]
  all_goals omega

theorem reg3_plim {s : State} {d n : Nat} (hn : n < groupsOf d) : s.reg3 d (7 + n) = some ((s.die d).plimOf n) := by
  rw [State.reg3]
  · rw [if_pos (by omega), Nat.add_sub_cancel_left]
  all_goals omega

theorem plim_written {s : State} {d n : Nat} (v : U64) (hd : d < s.dies.length) (hn : n < groupsOf d) :
    (s.regWrite 3 d (7 + n) v.toNat).regRead 3 d (7 + n) = some (v.toNat % 2 ^ 20) := by
  change (s.wreg3 d (7 + n) v.toNat).reg3 d (7 + n) = _
  rw [wreg3_plim _ hn, reg3_plim hn, die_modDie_same _ hd, Die.plimOf, tbl_getD_put_same, fld_low]

/-- TQLOST is W1C: each 1 clears its bit. -/
theorem tqlost_cleared {s : State} {d : Nat} (v : U64) (hd : d < s.dies.length) :
    (s.regWrite 3 d 6 v.toNat).regRead 3 d 6 = some ((s.die d).tqlost &&& ((2 ^ 64 - 1) ^^^ v.toNat % 2 ^ 32)) := by
  change some ((s.modDie d _).die d).tqlost = _
  rw [die_modDie_same _ hd, clr1, fld_low]

/-! ## Registers of the links: block 4 -/

theorem pkgnum_written (s : State) (d : Nat) (v : U64) :
    (s.regWrite 4 d 0 v.toNat).pkgnum = v.toNat % 2 ^ 12 ∧ (s.regWrite 4 d 0 v.toNat).pkgSet = true :=
  ⟨fld_low v.toNat 11, rfl⟩

/-- PORTCTL of port n holds EN, and LOAD asks for the port's tables (R361, R371). -/
theorem portctl_written {s : State} {d n : Nat} (v : U64) (hn : n < 32) :
    let x := (s.regWrite 4 d (4 + n) v.toNat).port n
    x.en = v.getLsbD 0 ∧ (v.getLsbD 1 = true → x.loadReq = true) := by
  have hw : s.regWrite 4 d (4 + n) v.toNat =
      if v.getLsbD 1 then (s.setPort n { s.port n with en := v.getLsbD 0 }).loadPort n else s.setPort n { s.port n with en := v.getLsbD 0 } := by
    change s.wreg4 (4 + n) v.toNat = _
    rw [State.wreg4, if_neg (by omega), if_neg (by omega), if_neg (by omega), if_pos (by omega)]
    simp only [Nat.add_sub_cancel_left, bitAt_toNat]
  intro x
  subst x
  rw [hw]
  split
  · exact ⟨by simp [State.loadPort], fun _ => by simp [State.loadPort]⟩
  · rename_i hload
    exact ⟨by simp, fun h => absurd h hload⟩

/-! ## The obligation -/

/-- Settles O53: each clause is the case of `State.hostWr`, `State.hostRd`, `State.hostAtomic`, `State.regrd`, `State.regwr` or
`State.regWrite` that its premises choose. -/
theorem hostAndRegistersAnswer : Obligations.HostAndRegistersAnswer := by
  unfold Obligations.HostAndRegistersAnswer
  intro s
  refine ⟨?write, ?writeWaits, ?frozen, ?writeEarly, ?closed, ?read, ?readEarly, ?atomic, ?doorbell, ?command, ?register⟩
  case write =>
    intro off loc bs h ht hb hl ho
    exact hostWrite_stores h ht hb hl ho
  case writeWaits =>
    intro off loc bs h ht _ hl hp hq
    rw [exec_hostWrite, hostWr_hbm h hl hp hq, hostTake_waits bs none ht]
  case frozen =>
    intro off n bs hf
    rw [exec_hostWrite, exec_hostRead, hostWr_frozen off bs hf, hostRd_frozen off n hf]
    exact ⟨rfl, rfl⟩
  case writeEarly =>
    intro off bs ho hs
    rw [exec_hostWrite, hostWr_early bs ho hs]
  case closed =>
    intro off n bs ho hs hf hw
    rw [exec_hostWrite, exec_hostRead, hostWr_closed bs ho hs hf hw, hostRd_closed n ho hs hf hw]
    exact ⟨⟨_, rfl, hostFreeze_frozen s⟩, ⟨_, rfl, (hostDone_frozen _ _).trans (hostFreeze_frozen s), rfl⟩⟩
  case read =>
    intro off loc n writable h
    rw [exec_hostRead, hostRd_hbm n h]
    exact ⟨_, rfl, rfl, rdBytes_eq_map s loc n⟩
  case readEarly =>
    intro off n ho hs
    rw [exec_hostRead, hostRd_early n ho hs]
    exact ⟨_, rfl, rfl, rfl⟩
  case atomic =>
    intro off loc op a b h ht ho hop
    exact hostAtomicop_exchanges a b h ht ho hop
  case doorbell =>
    intro bs hb hf
    rw [exec_hostWrite, hostWr_doorbell hb hf]
    refine ⟨fun hm => ⟨_, rfl, doorbell_busy _ hm⟩, fun hm => ?_⟩
    obtain ⟨a, hlater, hmbox, hagenda⟩ := doorbell_takes hb hm
    exact ⟨_, a, rfl, hlater, hmbox, hagenda⟩
  case command =>
    refine ⟨fun hb _ hs hop => ⟨fun v hv => ?_, fun hv => ?_⟩, fun hb h1 h2 => ?_, fun hb hop hs hv => ?_, fun hb hop h => ?_⟩
    · rw [exec_regrd, regrd_reads hb hop hs hv]
      exact ⟨_, rfl, served_rspDone s 0 v⟩
    · rw [exec_regrd, regrd_misses hb hop hs hv]
      exact ⟨_, rfl, served_rspDone s 1 0⟩
    · rw [exec_regrd, regrd_otherOp hb h1 h2]
      exact ⟨_, rfl, served_rspDone s 1 0⟩
    · rw [exec_regwr, regwr_writes hb hop hs hv]
      exact ⟨_, _, rfl, exec_registerWrite _ _ _ _ s, served_rspDone _ 0 0, rfl⟩
    · rw [exec_regwr, regwr_refuses hb hop h]
      exact ⟨_, rfl, served_rspDone s 1 0, rfl⟩
  case register =>
    intro d n v hd
    exact ⟨⟨_, exec_registerWrite .., ctxbase_written v hd⟩, ⟨_, exec_registerWrite .., enable_written v hd⟩,
      ⟨_, exec_registerWrite .., expbase_written s d v, rfl⟩, fun hn => ⟨_, exec_registerWrite .., plim_written v hd hn⟩,
      ⟨_, exec_registerWrite .., tqlost_cleared v hd⟩, exec_registerWrite .., ⟨_, exec_registerWrite .., pkgnum_written s d v⟩,
      fun hn => ⟨_, exec_registerWrite .., portctl_written v hn⟩, exec_registerWrite .., exec_registerWrite ..⟩

end Sys2Proof.Machine
end

section
/-! SUPPORT. What a write at a home leaves of the state, and bytes that stay open after it (R146, R333, R335). -/

namespace Sys2Proof.Machine

open Sys2Proof.Claims

/-! ## What a write at a home leaves as it was -/

/-- The state without what bytes put at their home change: memory, the marks of scratch bytes, and the deltas to parity packages (R335). -/
def State.besideHome (s : State) : State := { s with mem := [], cores := [], pairs := [], deltas := [], nDelta := 0 }

theorem addDelta_besideHome (s : State) (c loc : Nat) (d : BitVec 512) : (s.addDelta c loc d).besideHome = s.besideHome := by
  unfold State.addDelta
  split
  · rfl
  · split
    · exact foldl_keeps State.besideHome _ (fun t p => (rfl : (t.queueMem p _).besideHome = t.besideHome)) _ _
    · rfl

theorem unstale_besideHome (s : State) (loc n : Nat) : (s.unstale loc n).besideHome = s.besideHome := by
  unfold State.unstale
  split <;> rfl

theorem homePut_besideHome (s : State) (c loc : Nat) (bs : List Byte) : (s.homePut c loc bs).besideHome = s.besideHome := by
  unfold State.homePut
  dsimp only
  split
  · exact unstale_besideHome s loc bs.length
  · rw [foldl_keeps State.besideHome _ (fun t _ => addDelta_besideHome t c _ _)]
    exact unstale_besideHome s loc bs.length

@[simp] theorem homePut_bridge (s : State) (c loc : Nat) (bs : List Byte) : (s.homePut c loc bs).bridge = s.bridge :=
  (congrArg State.bridge (homePut_besideHome s c loc bs) :)
@[simp] theorem homePut_stalled (s : State) (c loc : Nat) (bs : List Byte) : (s.homePut c loc bs).stalled = s.stalled :=
  (congrArg State.stalled (homePut_besideHome s c loc bs) :)
@[simp] theorem homePut_mirbase (s : State) (c loc : Nat) (bs : List Byte) : (s.homePut c loc bs).mirbase = s.mirbase :=
  (congrArg State.mirbase (homePut_besideHome s c loc bs) :)
@[simp] theorem homePut_bqOrder (s : State) (c loc : Nat) (bs : List Byte) : (s.homePut c loc bs).bqOrder = s.bqOrder :=
  (congrArg State.bqOrder (homePut_besideHome s c loc bs) :)

@[simp] theorem sendStore_bqOrder (s : State) (who : Waiter) (loc : Nat) (bs : List Byte) : (s.sendStore who loc bs).bqOrder = s.bqOrder := by
  unfold State.sendStore
  split
  · exact foldl_keeps State.bqOrder _ (fun t p => (rfl : (t.request who _ 0 _ _).bqOrder = t.bqOrder)) _ _
  · rfl

@[simp] theorem stall_bqOrder (s : State) (c loc : Nat) (virt : Option (Nat × Nat)) (bs : List Byte) :
    (s.stall c loc virt bs).bqOrder = s.bqOrder := rfl

@[simp] theorem homeWrite_bqOrder (s : State) (c loc : Nat) (bs : List Byte) : (s.homeWrite c loc bs).bqOrder = s.bqOrder := by
  unfold State.homeWrite
  repeat' split
  all_goals simp

/-- A write at virtual addresses leaves the order of the Barista requests as it was. -/
theorem vWrite_bqOrder {s t : State} {c ctx fuel va : Nat} {bs : List Byte} (h : s.vWrite c ctx fuel va bs = .ok t) : t.bqOrder = s.bqOrder := by
  induction fuel generalizing s va bs with
  | zero =>
    rw [State.vWrite] at h
    cases h
    rfl
  | succ n ih =>
    rw [State.vWrite] at h
    split at h
    · cases h
      rfl
    · dsimp only at h
      split at h
      · cases h
      · rw [ih h]
        split
        · rfl
        · exact homeWrite_bqOrder _ _ _ _

/-! ## The table of region descriptors (R333) -/

/-- A condition on the addresses listed does not see a write of bytes that all meet it. -/
theorem memPut_all (p : Nat → Bool) (m : List Host.Cell) (a : Nat) (v : Byte) (ha : p a = true) :
    (memPut m a v).all (fun c => p c.1) = m.all (fun c => p c.1) := by
  induction m with
  | nil =>
    rw [memPut]
    split
    · rfl
    · simp [ha]
  | cons q r ih =>
    obtain ⟨b, w⟩ := q
    rw [memPut]
    split
    · split <;> simp [ha]
    · split
      · rename_i hab
        subst hab
        split <;> simp [ha]
      · rw [List.all_cons, List.all_cons, ih]

theorem memWrite_all (p : Nat → Bool) (m : List Host.Cell) (a : Nat) (bs : List Byte) (ha : ∀ j, j < bs.length → p (a + j) = true) :
    (memWrite m a bs).all (fun c => p c.1) = m.all (fun c => p c.1) := by
  induction bs generalizing m a with
  | nil => rfl
  | cons b r ih =>
    have hr : ∀ j, j < r.length → p (a + 1 + j) = true := fun j hj => by
      rw [Nat.add_right_comm]
      exact ha (j + 1) (Nat.succ_lt_succ hj)
    rw [memWrite, ih _ _ hr, memPut_all p m a b (ha 0 (Nat.succ_pos _))]

theorem memRead_congr {m m' : List Host.Cell} {a n : Nat} (h : ∀ x, a ≤ x → x < a + n → memGet m' x = memGet m x) :
    memRead m' a n = memRead m a n := by
  induction n generalizing a with
  | zero => rfl
  | succ n ih => rw [memRead, memRead, h a (by omega) (by omega), ih fun x h1 h2 => h x (by omega) (by omega)]

theorem word64_congr {m m' : List Host.Cell} {a b n : Nat} (hab : a ≤ b) (hbn : b + 8 ≤ a + n)
    (h : ∀ x, a ≤ x → x < a + n → memGet m' x = memGet m x) : word64 m' b = word64 m b := by
  rw [word64, word64, memRead_congr fun x h1 h2 => h x (by omega) (by omega)]

theorem readRegion_congr {m m' : List Host.Cell} {a : Nat} (i : Nat) (h : ∀ x, a ≤ x → x < a + 64 → memGet m' x = memGet m x) :
    readRegion m' a i = readRegion m a i := by
  have hshards : ((List.range 16).map fun r => fld (word64 m' (a + 32 + 8 * (r / 4))) (16 * (r % 4) + 15) (16 * (r % 4))) =
      (List.range 16).map fun r => fld (word64 m (a + 32 + 8 * (r / 4))) (16 * (r % 4) + 15) (16 * (r % 4)) := by
    refine List.map_congr_left fun r hr => ?_
    have hr' := List.mem_range.mp hr
    rw [word64_congr (n := 64) (by omega) (by omega) h]
  rw [readRegion, readRegion, hshards, word64_congr (n := 64) (by omega) (by omega) h, word64_congr (n := 64) (b := a + 8) (by omega) (by omega) h,
    word64_congr (n := 64) (b := a + 16) (by omega) (by omega) h]

/-- The regions are those that their table describes. -/
theorem regionOf_congr {s t : State} (hb : t.mirbase = s.mirbase) (hn : t.noRegions = s.noRegions)
    (h : ∀ x, s.mirbase ≤ x → x < s.mirbase + 4096 → memGet t.mem x = memGet s.mem x) (loc : Nat) : t.regionOf loc = s.regionOf loc := by
  have htable : ((List.range 64).map fun i => readRegion t.mem (s.mirbase + 64 * i) i) =
      (List.range 64).map fun i => readRegion s.mem (s.mirbase + 64 * i) i := by
    refine List.map_congr_left fun i hi => readRegion_congr i fun x h1 h2 => ?_
    have hi' := List.mem_range.mp hi
    exact h x (by omega) (by omega)
  rw [State.regionOf, State.regionOf, hn, hb, htable]

/-- Bytes outside the table of region descriptors. -/
def State.besideTable (s : State) (loc n : Nat) : Prop := loc + n ≤ s.mirbase ∨ s.mirbase + 4096 ≤ loc

theorem homePut_regionOf {s : State} {loc : Nat} {bs : List Byte} (c x : Nat) (hw : Memory.wf s.mem = true) (ht : s.besideTable loc bs.length) :
    (s.homePut c loc bs).regionOf x = s.regionOf x := by
  unfold State.besideTable at ht
  refine regionOf_congr (homePut_mirbase s c loc bs) ?_ (fun y h1 h2 => ?_) x
  · rw [State.noRegions, State.noRegions, homePut_mem, homePut_mirbase]
    refine memWrite_all (fun a => decide (a < s.mirbase) || decide (s.mirbase + 4096 ≤ a)) s.mem loc bs fun j hj => ?_
    simp only [Bool.or_eq_true, decide_eq_true_eq]
    omega
  · rw [homePut_mem, memGet_write_out s.mem loc y bs hw (by omega)]

/-- Open bytes stay open when bytes outside the table of region descriptors are put at their home. -/
theorem open_homePut {s : State} {a n loc : Nat} {bs : List Byte} (c : Nat) (hw : Memory.wf s.mem = true) (ht : s.besideTable loc bs.length)
    (ho : Open s a n) : Open (s.homePut c loc bs) a n := by
  obtain ⟨hlt, hregion, hbehind, htable⟩ := ho
  refine ⟨hlt, fun j hj => ?_, ?_, ?_⟩
  · rw [homePut_regionOf c _ hw ht, hregion j hj]
  · rw [State.behindStalled, homePut_stalled]
    exact hbehind
  · rw [homePut_mirbase]
    exact htable

/-- A part of open bytes is open. -/
theorem open_part {s : State} {a n loc m : Nat} (ho : Open s a n) (hlo : a ≤ loc) (hhi : loc + m ≤ a + n) : Open s loc m := by
  obtain ⟨hlt, hregion, hbehind, htable⟩ := ho
  refine ⟨by omega, fun j hj => ?_, ?_, by omega⟩
  · have := hregion (loc - a + j) (by omega)
    rwa [show a + (loc - a + j) = loc + j by omega] at this
  · simp only [State.behindStalled, List.any_eq_false, Bool.and_eq_true, decide_eq_true_eq, not_and] at hbehind ⊢
    rintro w hw ⟨hreal, hlow⟩ hhigh
    exact hbehind w hw ⟨hreal, by omega⟩ (by omega)

/-- A write to open bytes puts them at their home. -/
theorem homeWrite_open {s : State} {loc : Nat} {bs : List Byte} (c : Nat) (hb : bs ≠ []) (ho : Open s loc bs.length) :
    s.homeWrite c loc bs = s.homePut c loc bs := by
  have hlen : 0 < bs.length := List.length_pos_iff.mpr hb
  have hregion := regionOf_open ho hlen
  obtain ⟨hlt, _, hbehind, _⟩ := ho
  exact homeWrite_puts s c loc bs (by omega) hregion hbehind

end Sys2Proof.Machine
end

section
/-! SUPPORT. Lines of 128 bytes with their dirty bytes, the copies that hold them, and what an eviction passes on (R12, R146, R147, R149, R150). -/

namespace Sys2Proof.Machine

open Sys2Proof.Claims

/-! ## A byte put into a line -/

theorem byte_getLsbD (q : CLine) (i k : Nat) : (q.byte i).getLsbD k = (decide (k < 8) && q.data.getLsbD (8 * i + k)) := by
  rw [CLine.byte, BitVec.getLsbD_ofNat, Nat.testBit_shiftRight, BitVec.getLsbD]

theorem putByte_data_getLsbD (q : CLine) {i n : Nat} (b : Byte) (d : Bool) (hn : n < 1024) :
    (q.putByte i b d).data.getLsbD n = if 8 * i ≤ n ∧ n < 8 * i + 8 then b.getLsbD (n - 8 * i) else q.data.getLsbD n := by
  have hmask : Nat.testBit 255 (n - 8 * i) = decide (n - 8 * i < 8) := Nat.testBit_two_pow_sub_one 8 _
  simp only [CLine.putByte, BitVec.getLsbD_or, BitVec.getLsbD_and, BitVec.getLsbD_not, BitVec.getLsbD_ofNat, Nat.testBit_shiftLeft, hn, hmask,
    decide_true, Bool.true_and]
  by_cases h : 8 * i ≤ n
  · by_cases h8 : n - 8 * i < 8
    · simp [h, h8, (by omega : n < 8 * i + 8), BitVec.getLsbD]
    · have hb : b.toNat.testBit (n - 8 * i) = false := BitVec.getLsbD_of_ge b _ (by omega)
      rw [if_neg (by omega)]
      simp [h, h8, hb]
  · simp [h]

theorem putByte_byte_same (q : CLine) {i : Nat} (b : Byte) (d : Bool) (hi : i < 128) : (q.putByte i b d).byte i = b := by
  refine BitVec.eq_of_getLsbD_eq fun k hk => ?_
  rw [byte_getLsbD, putByte_data_getLsbD q b d (by omega), if_pos (by omega), Nat.add_sub_cancel_left, decide_eq_true hk, Bool.true_and]

theorem putByte_byte_ne (q : CLine) {i j : Nat} (b : Byte) (d : Bool) (hj : j < 128) (h : j ≠ i) : (q.putByte i b d).byte j = q.byte j := by
  refine BitVec.eq_of_getLsbD_eq fun k hk => ?_
  rw [byte_getLsbD, byte_getLsbD, putByte_data_getLsbD q b d (by omega), if_neg (by omega)]

theorem putByte_isDirty (q : CLine) {i j : Nat} (b : Byte) (hj : j < 128) :
    (q.putByte i b true).isDirty j = (decide (i = j) || q.isDirty j) := by
  rw [CLine.putByte, CLine.isDirty, if_pos rfl, BitVec.getLsbD_or, BitVec.getLsbD_ofNat, Nat.one_shiftLeft, Nat.testBit_two_pow, decide_eq_true hj,
    Bool.true_and, Bool.or_comm]
  rfl

/-! ## The dirty bytes of a line -/

theorem mem_dirties {l : CLine} {p : Nat × Byte} : p ∈ l.dirties ↔ p.1 < 128 ∧ l.isDirty p.1 = true ∧ p.2 = l.byte p.1 := by
  obtain ⟨i, b⟩ := p
  simp only [CLine.dirties, List.mem_filterMap, List.mem_range]
  constructor
  · rintro ⟨j, hj, h⟩
    split at h
    · rename_i hd
      cases h
      exact ⟨hj, hd, rfl⟩
    · cases h
  · rintro ⟨hi, hd, rfl⟩
    exact ⟨i, hi, by rw [if_pos hd]⟩

theorem lt_of_mem_dirties {l : CLine} {p : Nat × Byte} (h : p ∈ l.dirties) : p.1 < 128 :=
  let ⟨hlt, _, _⟩ := mem_dirties.mp h
  hlt

theorem isDirty_of_mem_dirties {l : CLine} {p : Nat × Byte} (h : p ∈ l.dirties) : l.isDirty p.1 = true :=
  let ⟨_, hdirty, _⟩ := mem_dirties.mp h
  hdirty

theorem byte_of_mem_dirties {l : CLine} {p : Nat × Byte} (h : p ∈ l.dirties) : p.2 = l.byte p.1 :=
  let ⟨_, _, hbyte⟩ := mem_dirties.mp h
  hbyte

theorem exists_mem_dirties {l : CLine} {i : Nat} (hi : i < 128) : (∃ p ∈ l.dirties, p.1 = i) ↔ l.isDirty i = true := by
  constructor
  · rintro ⟨p, hp, rfl⟩
    exact isDirty_of_mem_dirties hp
  · intro h
    exact ⟨(i, l.byte i), mem_dirties.mpr ⟨hi, h, rfl⟩, rfl⟩

/-- A dirty byte is put into a line. -/
def CLine.dirtied (q : CLine) (p : Nat × Byte) : CLine := q.putByte p.1 p.2 true

/-- The dirty bytes of `q` are those that `l` holds there. -/
def CLine.Agrees (q l : CLine) : Prop := ∀ i, i < 128 → q.isDirty i = true → q.byte i = l.byte i

theorem blank_isDirty (i : Nat) : CLine.blank.isDirty i = false := BitVec.getLsbD_zero

theorem blank_agrees (l : CLine) : CLine.blank.Agrees l := fun i _ h => by rw [blank_isDirty] at h; cases h

theorem dirtied_agrees {q l : CLine} {p : Nat × Byte} (hp : p ∈ l.dirties) (hq : q.Agrees l) : (q.dirtied p).Agrees l := by
  intro i hi hd
  by_cases h : i = p.1
  · rw [h, CLine.dirtied, putByte_byte_same q p.2 true (lt_of_mem_dirties hp), byte_of_mem_dirties hp]
  · rw [CLine.dirtied, putByte_isDirty q p.2 hi, decide_eq_false (Ne.symm h), Bool.false_or] at hd
    rw [CLine.dirtied, putByte_byte_ne q p.2 true hi h, hq i hi hd]

theorem dirtied_all_agrees {q l : CLine} {ps : List (Nat × Byte)} (hps : ∀ p ∈ ps, p ∈ l.dirties) (hq : q.Agrees l) :
    (ps.foldl CLine.dirtied q).Agrees l := by
  induction ps generalizing q with
  | nil => exact hq
  | cons p r ih => exact ih (fun x hx => hps x (List.mem_cons_of_mem p hx)) (dirtied_agrees (hps p List.mem_cons_self) hq)

theorem dirtied_all_isDirty (q : CLine) (ps : List (Nat × Byte)) {i : Nat} (hi : i < 128) :
    (ps.foldl CLine.dirtied q).isDirty i = true ↔ (∃ p ∈ ps, p.1 = i) ∨ q.isDirty i = true := by
  induction ps generalizing q with
  | nil => simp
  | cons p r ih =>
    rw [List.foldl_cons, ih, CLine.dirtied, putByte_isDirty q p.2 hi]
    rw [List.exists_mem_cons_iff, Bool.or_eq_true, decide_eq_true_eq, or_left_comm, or_assoc]

/-- A blank line that takes the dirty bytes of another holds those dirty, and no others. -/
theorem dirties_move (l : CLine) {i : Nat} (hi : i < 128) :
    (l.dirties.foldl CLine.dirtied .blank).isDirty i = l.isDirty i ∧
    (l.isDirty i = true → (l.dirties.foldl CLine.dirtied .blank).byte i = l.byte i) := by
  have hd : (l.dirties.foldl CLine.dirtied .blank).isDirty i = true ↔ l.isDirty i = true := by
    rw [dirtied_all_isDirty _ _ hi, exists_mem_dirties hi, blank_isDirty]
    simp
  exact ⟨Bool.eq_iff_iff.mpr hd, fun h => dirtied_all_agrees (fun _ hp => hp) (blank_agrees l) i hi (hd.mpr h)⟩

/-! ## From L1 to the quad's store buffer (R147) -/

/-- The state with a quad's store buffer replaced. -/
def State.withBuffer (s : State) (c : Nat) (b : Tbl CLine) : State := { s with qsb := Tbl.put s.qsb (quadOf c) b }

@[simp] theorem withBuffer_mem (s : State) (c : Nat) (b : Tbl CLine) : (s.withBuffer c b).mem = s.mem := rfl

@[simp] theorem withBuffer_core (s : State) (c d : Nat) (b : Tbl CLine) : (s.withBuffer c b).core d = s.core d := rfl

@[simp] theorem withBuffer_buffer (s : State) (c : Nat) (b : Tbl CLine) : Tbl.getD (s.withBuffer c b).qsb (quadOf c) [] = b :=
  tbl_getD_put_same _ _ _ _

@[simp] theorem withBuffer_withBuffer (s : State) (c : Nat) (b b' : Tbl CLine) : (s.withBuffer c b).withBuffer c b' = s.withBuffer c b' := by
  simp only [State.withBuffer, tbl_put_put]

/-- A byte enters a store buffer that is not full (R147): the buffer's line takes it. -/
theorem qsbWrite_room {s : State} {c : Nat} (loc : Nat) (x : Byte) (h : (Tbl.getD s.qsb (quadOf c) []).length < 64) :
    let b := Tbl.getD s.qsb (quadOf c) []
    s.qsbWrite c loc x = s.withBuffer c (Tbl.put b (lineOf loc) ((Tbl.getD b (lineOf loc) .blank).dirtied (loc % 128, x))) := by
  have hfull : ¬((Tbl.find? (Tbl.getD s.qsb (quadOf c) []) (lineOf loc)).isNone = true ∧ 64 ≤ (Tbl.getD s.qsb (quadOf c) []).length) := by omega
  simp only [State.qsbWrite, if_neg hfull, State.withBuffer, CLine.dirtied]

theorem lineOf_add {line i : Nat} (hi : i < 128) : lineOf (128 * line + i) = line := by rw [lineOf]; omega

theorem put_alone {α : Type} (i : Nat) (a b : α) : Tbl.put [(i, a)] i b = [(i, b)] := by simp [Tbl.put]

theorem del_alone {α : Type} (i : Nat) (a : α) : Tbl.del [(i, a)] i = [] := by simp [Tbl.del]

theorem getD_alone {α : Type} (i : Nat) (a d : α) : Tbl.getD [(i, a)] i d = a := by simp [Tbl.getD, Tbl.find?]

theorem find_alone {α : Type} (i : Nat) (a : α) : Tbl.find? [(i, a)] i = some a := by simp [Tbl.find?]

theorem qsbWrite_ofEmpty {s : State} {c line : Nat} {p : Nat × Byte} (hb : Tbl.getD s.qsb (quadOf c) [] = []) (hp : p.1 < 128) :
    s.qsbWrite c (128 * line + p.1) p.2 = s.withBuffer c [(line, CLine.blank.dirtied p)] := by
  rw [qsbWrite_room _ _ (by rw [hb]; decide), hb, lineOf_add hp, Nat.mul_add_mod, Nat.mod_eq_of_lt hp]
  rfl

theorem qsbWrite_ofLine (s : State) {c line : Nat} (q : CLine) {p : Nat × Byte} (hp : p.1 < 128) :
    (s.withBuffer c [(line, q)]).qsbWrite c (128 * line + p.1) p.2 = s.withBuffer c [(line, q.dirtied p)] := by
  rw [qsbWrite_room _ _ (by rw [withBuffer_buffer, List.length_singleton]; decide), withBuffer_buffer, lineOf_add hp, Nat.mul_add_mod, Nat.mod_eq_of_lt hp,
    withBuffer_withBuffer, put_alone, getD_alone]

theorem qsbWrites_ofLine (s : State) {c line : Nat} (q : CLine) {ps : List (Nat × Byte)} (hps : ∀ p ∈ ps, p.1 < 128) :
    ps.foldl (fun t p => t.qsbWrite c (128 * line + p.1) p.2) (s.withBuffer c [(line, q)]) =
      s.withBuffer c [(line, ps.foldl CLine.dirtied q)] := by
  induction ps generalizing q with
  | nil => rfl
  | cons p r ih =>
    rw [List.foldl_cons, qsbWrite_ofLine s q (hps p List.mem_cons_self), ih _ fun x hx => hps x (List.mem_cons_of_mem p hx), List.foldl_cons]

/-- Bytes of one line that enter an empty store buffer: it holds that line alone, or stays empty. -/
theorem qsbWrites_ofEmpty {s : State} {c line : Nat} {ps : List (Nat × Byte)} (hb : Tbl.getD s.qsb (quadOf c) [] = []) (hps : ∀ p ∈ ps, p.1 < 128) :
    ps.foldl (fun t p => t.qsbWrite c (128 * line + p.1) p.2) s =
      if ps = [] then s else s.withBuffer c [(line, ps.foldl CLine.dirtied .blank)] := by
  cases ps with
  | nil => rfl
  | cons p r =>
    rw [List.foldl_cons, qsbWrite_ofEmpty hb (hps p List.mem_cons_self),
      qsbWrites_ofLine s _ fun x hx => hps x (List.mem_cons_of_mem p hx), if_neg (List.cons_ne_nil p r), List.foldl_cons]

theorem l1Evict_alone {s : State} {c line : Nat} {l : CLine} (hl : (s.core c).l1 = [(line, l)]) :
    s.l1Evict c line = ((l.dirties.foldl (fun t p => t.qsbWrite c (128 * line + p.1) p.2) s).modCore c fun k =>
      { k with l1 := Tbl.put k.l1 line { l with dirty := 0 } }).modCore c fun k => { k with l1 := Tbl.del k.l1 line } := by
  rw [State.l1Evict, State.l1Clean, hl, find_alone]

/-- An L1's only line leaves for an empty store buffer, which then holds its dirty bytes and no other. -/
theorem l1Evict_passesOn {s : State} {c line : Nat} {l : CLine} (hl : (s.core c).l1 = [(line, l)]) (hb : Tbl.getD s.qsb (quadOf c) [] = []) :
    let t := s.l1Evict c line
    (t.core c).l1 = [] ∧ t.mem = s.mem ∧
    ∀ i, i < 128 → (Tbl.getD (Tbl.getD t.qsb (quadOf c) []) line {}).isDirty i = l.isDirty i ∧
      (l.isDirty i = true → (Tbl.getD (Tbl.getD t.qsb (quadOf c) []) line {}).byte i = l.byte i) := by
  have hps : ∀ p ∈ l.dirties, p.1 < 128 := fun p => lt_of_mem_dirties
  intro t
  subst t
  rw [l1Evict_alone hl, qsbWrites_ofEmpty hb hps]
  split
  · rename_i hnone
    refine ⟨by simp [hl, put_alone, del_alone], rfl, fun i hi => ?_⟩
    have hclean : l.isDirty i = false := by
      rw [← Bool.not_eq_true, ← exists_mem_dirties hi, hnone]
      simp
    simp only [modCore_qsb, hb]
    exact ⟨hclean.symm ▸ blank_isDirty i, fun h => absurd h (by simp [hclean])⟩
  · refine ⟨by simp [hl, put_alone, del_alone], rfl, fun i hi => ?_⟩
    simp only [modCore_qsb, withBuffer_buffer, getD_alone]
    exact dirties_move l hi

/-! ## From the store buffer to the home (R149) -/

theorem dieWrite_home {s : State} {c loc : Nat} (b : Byte) (hd : homeDie loc = some (dieOf c)) (ho : Open s loc 1) :
    s.dieWrite c loc b = s.homePut c loc [b] := by
  rw [State.dieWrite, if_pos (Or.inl hd)]
  exact homeWrite_open c (List.cons_ne_nil b []) ho

/-- Dirty bytes of a line homed on the own die go to memory one by one; what they leave out stays as it was. -/
theorem dieWrites_line {s : State} {c line : Nat} {l : CLine} {ps : List (Nat × Byte)} (hps : ∀ p ∈ ps, p ∈ l.dirties)
    (hd : ∀ i, i < 128 → homeDie (128 * line + i) = some (dieOf c)) (ho : Open s (128 * line) 128) (hw : Memory.wf s.mem = true) :
    let t := ps.foldl (fun t p => t.dieWrite c (128 * line + p.1) p.2) s
    (∀ i, (∃ p ∈ ps, p.1 = i) → memGet t.mem (128 * line + i) = l.byte i) ∧
    (∀ x, (∀ p ∈ ps, 128 * line + p.1 ≠ x) → memGet t.mem x = memGet s.mem x) := by
  induction ps generalizing s with
  | nil => exact ⟨fun i ⟨p, hp, _⟩ => absurd hp List.not_mem_nil, fun x _ => rfl⟩
  | cons p r ih =>
    have hp := hps p List.mem_cons_self
    have hp1 := lt_of_mem_dirties hp
    obtain ⟨_, _, _, htable⟩ := id ho
    have hput : s.dieWrite c (128 * line + p.1) p.2 = s.homePut c (128 * line + p.1) [p.2] :=
      dieWrite_home p.2 (hd p.1 hp1) (open_part ho (by omega) (by omega))
    have hbeside : s.besideTable (128 * line + p.1) [p.2].length := by simp only [State.besideTable, List.length_singleton]; omega
    have hmem : (s.homePut c (128 * line + p.1) [p.2]).mem = memPut s.mem (128 * line + p.1) p.2 := homePut_mem _ _ _ _
    obtain ⟨hin, hout⟩ := ih (s := s.homePut c (128 * line + p.1) [p.2]) (fun x hx => hps x (List.mem_cons_of_mem p hx))
      (open_homePut c hw hbeside ho) (by rw [hmem]; exact memory_put_wf _ _ _ hw)
    intro t
    subst t
    rw [List.foldl_cons, hput]
    refine ⟨fun i hi => ?_, fun x hx => ?_⟩
    · by_cases hr : ∃ q ∈ r, q.1 = i
      · exact hin i hr
      · obtain ⟨q, hq, rfl⟩ := hi
        have hqp : q = p := (List.mem_cons.mp hq).resolve_right fun h => hr ⟨q, h, rfl⟩
        subst hqp
        rw [hout _ fun z hz hzq => hr ⟨z, hz, by omega⟩, hmem, memGet_put_same _ _ _ hw, byte_of_mem_dirties hp]
    · rw [hout x fun q hq => hx q (List.mem_cons_of_mem p hq), hmem, memGet_put_ne _ _ _ _ hw (hx p List.mem_cons_self).symm]

theorem qsbFlush_alone {s : State} {c line : Nat} {l : CLine} (hb : Tbl.getD s.qsb (quadOf c) [] = [(line, l)]) :
    s.qsbFlush c line = (l.dirties.foldl (fun t p => t.dieWrite c (128 * line + p.1) p.2) s).withBuffer c [] := by
  rw [State.qsbFlush]
  dsimp only
  rw [hb, find_alone]
  dsimp only
  rw [del_alone, State.withBuffer]

/-- A store buffer's only line, homed on the own die, leaves: memory takes its dirty bytes and keeps every other. -/
theorem qsbFlush_passesOn {s : State} {c line : Nat} {l : CLine} (hb : Tbl.getD s.qsb (quadOf c) [] = [(line, l)])
    (hd : ∀ i, i < 128 → homeDie (128 * line + i) = some (dieOf c)) (ho : Open s (128 * line) 128) (hw : Memory.wf s.mem = true) :
    let t := s.qsbFlush c line
    Tbl.getD t.qsb (quadOf c) [] = [] ∧
    (∀ i, i < 128 → memGet t.mem (128 * line + i) = if l.isDirty i then l.byte i else memGet s.mem (128 * line + i)) ∧
    (∀ x, (x < 128 * line ∨ 128 * line + 128 ≤ x) → memGet t.mem x = memGet s.mem x) := by
  obtain ⟨hin, hout⟩ := dieWrites_line (fun p hp => hp) hd ho hw (l := l)
  intro t
  subst t
  rw [qsbFlush_alone hb, withBuffer_mem]
  refine ⟨withBuffer_buffer _ c [], fun i hi => ?_, fun x hx => hout x fun p hp hpx => ?_⟩
  · split
    · rename_i hdirty
      exact hin i ((exists_mem_dirties hi).mpr hdirty)
    · rename_i hclean
      exact hout _ fun p hp hpi => hclean ((exists_mem_dirties hi).mp ⟨p, hp, by omega⟩)
  · have := lt_of_mem_dirties hp
    omega

/-! ## From the RDC over the bridge (R12, R150) -/

/-- The runs of a list hold its bytes at its offsets, and no other. -/
theorem mem_runsOf (ps : List (Nat × Byte)) (i : Nat) (b : Byte) :
    (∃ r ∈ runsOf ps, r.1 ≤ i ∧ r.2[i - r.1]? = some b) ↔ (i, b) ∈ ps := by
  induction ps with
  | nil => simp [runsOf]
  | cons p ps ih =>
    obtain ⟨k, a⟩ := p
    have hstart (bs : List Byte) : (k ≤ i ∧ (a :: bs)[i - k]? = some b) ↔ (i = k ∧ b = a) ∨ (k + 1 ≤ i ∧ bs[i - (k + 1)]? = some b) := by
      rcases Nat.lt_trichotomy i k with h | rfl | h
      · constructor <;> intro hh <;> omega
      · simp [eq_comm]
      · rw [show i - k = i - (k + 1) + 1 by omega, List.getElem?_cons_succ]
        constructor
        · exact fun hh => .inr ⟨h, hh.2⟩
        · rintro (hh | hh)
          · omega
          · exact ⟨by omega, hh.2⟩
    rw [List.mem_cons, Prod.mk.injEq, ← ih, runsOf]
    split
    · rename_i j bs q hq
      split
      · rename_i hj
        subst hj
        simp only [hq, List.exists_mem_cons_iff, hstart, or_assoc]
      · simp only [hq, List.exists_mem_cons_iff, hstart, List.getElem?_nil, reduceCtorEq, and_false, or_false]
    · rename_i hq
      simp only [hq, List.exists_mem_cons_iff, hstart, List.getElem?_nil, reduceCtorEq, and_false, or_false]

/-- Bytes of a run that leaves over the bridge now, as the `n`-th transfer (R12). -/
def State.crossing (s : State) (src dst base : Nat) (r : (Nat × List Byte) × Nat) : BridgeMsg :=
  { id := r.2, src := src, dst := dst, due := s.now + 40, loc := base + r.1.1, bytes := r.1.2, lseq := none }

/-- Runs that leave over the bridge stand behind what is on it. -/
theorem bridgeSends (s : State) (src dst base : Nat) (rs : List (Nat × List Byte)) :
    let t := rs.foldl (fun (t : State) r => t.bridgeSend src dst (base + r.1) r.2 none) s
    t.bridge = s.bridge ++ (rs.zipIdx s.nBridge).map (s.crossing src dst base) ∧ t.mem = s.mem ∧ t.dies = s.dies := by
  induction rs generalizing s with
  | nil => simp
  | cons r rs ih =>
    obtain ⟨hbridge, hmem, hdies⟩ := ih (s.bridgeSend src dst (base + r.1) r.2 none)
    intro t
    subst t
    rw [List.foldl_cons]
    refine ⟨hbridge.trans ?_, hmem.trans rfl, hdies.trans rfl⟩
    rw [List.zipIdx_cons, List.map_cons, List.append_cons]
    rfl

theorem mem_crossings {s : State} {src dst base : Nat} {rs : List (Nat × List Byte)} {m : BridgeMsg}
    (h : m ∈ (rs.zipIdx s.nBridge).map (s.crossing src dst base)) : ∃ r ∈ rs, m.loc = base + r.1 ∧ m.bytes = r.2 := by
  obtain ⟨⟨r, n⟩, hr, rfl⟩ := List.mem_map.mp h
  exact ⟨r, List.fst_mem_of_mem_zipIdx hr, rfl, rfl⟩

theorem exists_crossing {s : State} {rs : List (Nat × List Byte)} {r : Nat × List Byte} (src dst base : Nat) (hr : r ∈ rs) :
    ∃ m ∈ (rs.zipIdx s.nBridge).map (s.crossing src dst base), m.due = s.now + 40 ∧ m.loc = base + r.1 ∧ m.bytes = r.2 := by
  obtain ⟨n, hn, rfl⟩ := List.mem_iff_getElem.mp hr
  refine ⟨s.crossing src dst base (rs[n], s.nBridge + n), List.mem_map_of_mem ?_, rfl, rfl, rfl⟩
  rw [List.mk_add_mem_zipIdx_iff_getElem?]
  exact List.getElem?_eq_getElem hn

theorem rdc_inDies {s : State} {d : Nat} (h : (s.die d).rdc ≠ []) : d < s.dies.length := by
  by_contra hge
  exact h (by rw [State.die, List.getD_eq_default _ _ (by omega)])

theorem rdcEvict_alone {s : State} {d line : Nat} {l : CLine} (hl : (s.die d).rdc = [(line, l)]) :
    s.rdcEvict d line = (((runsOf l.dirties).foldl (fun t r => t.bridgeSend (rdcAgent d) (agentOf (128 * line)) (128 * line + r.1) r.2 none) s).modDie d
      fun x => { x with rdc := Tbl.put x.rdc line { l with dirty := 0 } }).modDie d fun x => { x with rdc := Tbl.del x.rdc line } := by
  rw [State.rdcEvict, State.rdcClean, hl, find_alone]

/-- An RDC's only line leaves: its dirty bytes are on the bridge, to arrive 40 cycles later, and nothing else has gone there. -/
theorem rdcEvict_passesOn {s : State} {d line : Nat} {l : CLine} (hl : (s.die d).rdc = [(line, l)]) :
    let t := s.rdcEvict d line
    (t.die d).rdc = [] ∧ t.mem = s.mem ∧
    (∀ i, i < 128 → l.isDirty i = true → ∃ m ∈ t.bridge, m.due = s.now + 40 ∧ m.loc ≤ 128 * line + i ∧ 128 * line + i < m.loc + m.bytes.length ∧
      m.bytes.getD (128 * line + i - m.loc) 0 = l.byte i) ∧
    (∀ m ∈ t.bridge, m ∉ s.bridge → 128 * line ≤ m.loc ∧ ∀ j, j < m.bytes.length → l.isDirty (m.loc + j - 128 * line) = true) := by
  have hd : d < s.dies.length := rdc_inDies (by rw [hl]; exact List.cons_ne_nil _ _)
  obtain ⟨hbridge, hmem, hdies⟩ := bridgeSends s (rdcAgent d) (agentOf (128 * line)) (128 * line) (runsOf l.dirties)
  intro t
  subst t
  rw [rdcEvict_alone hl]
  refine ⟨?_, hmem, fun i hi hdirty => ?_, fun m hm hnew => ?_⟩
  · rw [die_modDie_same _ (by simpa [State.modDie, State.setDie, hdies] using hd), die_modDie_same _ (by rw [hdies]; exact hd), State.die, hdies]
    dsimp only
    rw [show (s.dies.getD d {}).rdc = [(line, l)] from hl, put_alone, del_alone]
  · obtain ⟨r, hr, hlo, hbyte⟩ := (mem_runsOf l.dirties i (l.byte i)).mpr (mem_dirties.mpr ⟨hi, hdirty, rfl⟩)
    obtain ⟨m, hm, hdue, hloc, hbytes⟩ := exists_crossing (s := s) (rdcAgent d) (agentOf (128 * line)) (128 * line) hr
    obtain ⟨hlt, _⟩ := List.getElem?_eq_some_iff.mp hbyte
    refine ⟨m, hbridge ▸ List.mem_append_right _ hm, hdue, by omega, by rw [hbytes]; omega, ?_⟩
    rw [hbytes, hloc, show 128 * line + i - (128 * line + r.1) = i - r.1 by omega, List.getD_eq_getElem?_getD, hbyte, Option.getD_some]
  · have hm' := (List.mem_append.mp (hbridge ▸ hm)).resolve_left hnew
    obtain ⟨r, hr, hloc, hbytes⟩ := mem_crossings hm'
    refine ⟨by omega, fun j hj => ?_⟩
    rw [hbytes] at hj
    have hrun := (mem_runsOf l.dirties (r.1 + j) r.2[j]).mp ⟨r, hr, by omega, by rw [Nat.add_sub_cancel_left]; exact List.getElem?_eq_getElem hj⟩
    rw [hloc, show 128 * line + r.1 + j - 128 * line = r.1 + j by omega]
    exact isDirty_of_mem_dirties hrun

/-! ## The obligation -/

theorem exec_cacheEviction (kind owner line : Nat) (s : State) : exec (.cacheEviction kind owner line) s = .next (s.evict kind owner line) := rfl

/-- Settles O42: an L1 line's dirty bytes enter the store buffer one by one, a buffer's line is written home byte by byte, and an RDC line crosses
in runs. -/
theorem evictedLinesMoveOn : Obligations.EvictedLinesMoveOn := by
  unfold Obligations.EvictedLinesMoveOn
  intro s owner line l hw
  refine ⟨fun hl hb => ?l1, fun hb hd ho => ?buffer, fun hl => ?rdc⟩
  case l1 => exact ⟨_, exec_cacheEviction 0 owner line s, l1Evict_passesOn hl hb⟩
  case buffer => exact ⟨_, exec_cacheEviction 1 owner line s, qsbFlush_passesOn hb hd ho hw⟩
  case rdc => exact ⟨_, exec_cacheEviction 2 owner line s, rdcEvict_passesOn hl⟩

end Sys2Proof.Machine
end

section
/-! SUPPORT. Carafe's stores and interlocks, the bridge's arrivals, and the Barista core's answers (R12, R15, R19, R274, R275, R293). -/

namespace Sys2Proof.Machine

open Sys2Proof.Claims

/-! ## Events are their meanings -/

theorem exec_carafeStore (j off : Nat) (bs : List Byte) (s : State) : exec (.carafeStore j off bs) s = .next (s.carafeArrive j off bs) := rfl
theorem exec_carafeInterlockRelease (j : Nat) (s : State) : exec (.carafeInterlockRelease j) s = .next (s.carafeRelease j) := rfl
theorem exec_bridgeDelivery (src dst : Nat) (s : State) : exec (.bridgeDelivery src dst) s = .next (s.bridgeArrive src dst) := rfl
theorem exec_baristaRequestServe (j : Nat) (reply : BitVec 512) (token : BitVec 24) (s : State) :
    exec (.baristaRequestServe j reply token) s = .next (s.bqServe j reply token.toNat) := rfl

/-! ## A store arrives at Carafe (R15) -/

theorem carafeMsg_fields (s : State) (j off : Nat) (bs : List Byte) :
    (s.carafeMsg j off bs).slot = j ∧ (s.carafeMsg j off bs).off = off ∧ (s.carafeMsg j off bs).bytes = bs := by
  rw [State.carafeMsg]
  cases h : s.carafeOut.find? (fun m => m.slot == j && m.off == off && m.bytes == bs) with
  | none => exact ⟨rfl, rfl, rfl⟩
  | some m => simpa [and_assoc] using List.find?_some h

theorem carafeMsg_only {s : State} {m : CarafeMsg} (h : s.carafeOut = [m]) : s.carafeMsg m.slot m.off m.bytes = m := by
  simp [State.carafeMsg, h]

theorem samePair_iff (q m : CarafeMsg) : q.samePair m = true ↔ ∃ c op i op' i', m.who = .access c op i ∧ q.who = .access c op' i' := by
  unfold CarafeMsg.samePair
  split
  · rename_i c op i d op' i' hq hm
    simp only [hq, hm, beq_iff_eq, Waiter.access.injEq]
    constructor
    · rintro rfl
      exact ⟨_, _, _, _, _, ⟨rfl, rfl, rfl⟩, rfl, rfl, rfl⟩
    · rintro ⟨_, _, _, _, _, ⟨rfl, _, _⟩, rfl, _, _⟩
      rfl
  · rename_i hne
    constructor
    · exact fun h => nomatch h
    · rintro ⟨c, op, i, op', i', hm, hq⟩
      exact (hne _ _ _ _ _ _ hq hm).elim

/-- A store behind an interlocked one of its slot or of its core (R12, R15). -/
def Behind (s : State) (m : CarafeMsg) : Prop :=
  ∃ q ∈ s.interlocked, q.slot = m.slot ∨ ∃ c op i op' i', m.who = .access c op i ∧ q.who = .access c op' i'

theorem interlocks_iff (s : State) (m : CarafeMsg) :
    ((s.carafeSlot m.slot).taken || s.interlocked.any (fun q => q.slot == m.slot || q.samePair m)) = true ↔
      (s.carafeSlot m.slot).taken = true ∨ Behind s m := by
  simp only [Bool.or_eq_true, List.any_eq_true, beq_iff_eq, samePair_iff, Behind]

theorem carafeLand_waits {s : State} {m : CarafeMsg} (h : (s.carafeSlot m.slot).taken = true ∨ Behind s m) :
    s.carafeLand m = { s with interlocked := s.interlocked ++ [m] } := by
  rw [State.carafeLand, if_pos ((interlocks_iff s m).mpr h)]

theorem carafeLand_lands {s : State} {m : CarafeMsg} (h : ¬((s.carafeSlot m.slot).taken = true ∨ Behind s m)) :
    s.carafeLand m = (s.carafeBytes (s.arrivalCyc m) m.slot m.off m.bytes).carafeDone m := by
  rw [State.carafeLand, if_neg (mt (interlocks_iff s m).mp h)]

/-! ## A record of 32 bytes (R274, R275) -/

/-- A Carafe slot that 32 bytes have filled. -/
def CarafeSlot.filled (bs : List Byte) : CarafeSlot := { bytes := BitVec.ofNat 256 (ofBytes bs), have_ := BitVec.allOnes 32 }

/-- 32 bytes on a free slot are a record, which is early, bad or taken. -/
theorem carafeBytes_record {s : State} {j : Nat} {bs : List Byte} (arr : Nat) (hs : s.carafeSlot j = {}) (hb : bs.length = 32) :
    let r := parseNode j (BitVec.ofNat 256 (ofBytes bs))
    s.carafeBytes arr j 0 bs =
      if s.recEarly r then { s.setCarafe j {} with earlyCnt := sat32 (s.earlyCnt + 1) }
      else if s.recBad r then { s.setCarafe j {} with badCnt := sat32 (s.badCnt + 1) }
      else
        let q := s.slot r.lseq
        let s1 := (s.setCarafe j { CarafeSlot.filled bs with taken := true, stepNo := q.stepNo, arrival := arr }).setSlot r.lseq { q with recs := q.recs ++ [j] }
        if q.admission.isSome && treeComplete (s1.nodesOf r.lseq) then
          (s1.at_ (s1.now + 1 + Config.latency s1.fresh) (.loupeAdmission r.lseq)).tick1
        else s1 := by
  have hhave : (0 : BitVec 32) ||| BitVec.ofNat 32 ((2 ^ 32 - 1) * 2 ^ 0) = BitVec.allOnes 32 := by decide
  have hbytes (x : BitVec 256) : (0 : BitVec 256) &&& x ||| BitVec.ofNat 256 (ofBytes bs * 2 ^ (8 * 0)) = BitVec.ofNat 256 (ofBytes bs) := by simp
  rw [State.carafeBytes, hs, hb]
  dsimp only
  rw [hhave, hbytes, if_neg (fun h => h rfl)]
  rfl

@[simp] theorem carafeSlot_setCarafe_same (s : State) (j : Nat) (x : CarafeSlot) : (s.setCarafe j x).carafeSlot j = x := tbl_getD_put_same _ _ _ _

/-- What a landed store's access and core are told is not seen by Carafe or by Loupe. -/
theorem carafeDone_beside (s : State) (m : CarafeMsg) : ∃ cs, s.carafeDone m = { s with cores := cs } := by
  rw [State.carafeDone]
  split
  · exact ⟨_, rfl⟩
  · exact ⟨_, rfl⟩

/-- The record of a landing store: dropped and counted as early or bad, or taken for its step. -/
def RecordLands (s t : State) (j : Nat) (bs : List Byte) : Prop :=
  let r := parseNode j (BitVec.ofNat 256 (ofBytes bs))
  t.mem = s.mem ∧
  (s.recEarly r = true → t.carafeSlot j = {} ∧ t.earlyCnt = Nat.min (s.earlyCnt + 1) (2 ^ 32 - 1) ∧ t.badCnt = s.badCnt ∧ ∀ q, t.slot q = s.slot q) ∧
  (s.recEarly r = false → s.recBad r = true → t.carafeSlot j = {} ∧ t.badCnt = Nat.min (s.badCnt + 1) (2 ^ 32 - 1) ∧
    t.earlyCnt = s.earlyCnt ∧ ∀ q, t.slot q = s.slot q) ∧
  (s.recEarly r = false → s.recBad r = false → (t.carafeSlot j).taken = true ∧ (t.carafeSlot j).bytes = BitVec.ofNat 256 (ofBytes bs) ∧
    (t.slot r.lseq).recs = (s.slot r.lseq).recs ++ [j] ∧ t.earlyCnt = s.earlyCnt ∧ t.badCnt = s.badCnt)

theorem carafeBytes_lands {s : State} {j : Nat} {bs : List Byte} (arr : Nat) (hs : s.carafeSlot j = {}) (hb : bs.length = 32) :
    RecordLands s (s.carafeBytes arr j 0 bs) j bs := by
  have hrec := carafeBytes_record arr hs hb
  dsimp only at hrec
  unfold RecordLands
  intro r
  cases he : s.recEarly r with
  | true =>
    rw [if_pos he] at hrec
    rw [hrec]
    exact ⟨rfl, fun _ => ⟨carafeSlot_setCarafe_same s j {}, rfl, rfl, fun _ => rfl⟩, nofun, nofun⟩
  | false =>
    rw [if_neg (Bool.eq_false_iff.mp he)] at hrec
    cases hbad : s.recBad r with
    | true =>
      rw [if_pos hbad] at hrec
      rw [hrec]
      exact ⟨rfl, nofun, fun _ _ => ⟨carafeSlot_setCarafe_same s j {}, rfl, rfl, fun _ => rfl⟩, nofun⟩
    | false =>
      rw [if_neg (Bool.eq_false_iff.mp hbad)] at hrec
      rw [hrec]
      refine ⟨?_, nofun, nofun, fun _ _ => ?_⟩
      · split <;> rfl
      · have hslot := carafeSlot_setCarafe_same s j { CarafeSlot.filled bs with taken := true, stepNo := (s.slot r.lseq).stepNo, arrival := arr }
        have hrecs (u : State) (x : LoupeSlot) : ((u.setSlot r.lseq x).slot r.lseq).recs = x.recs := by rw [slot_setSlot_same]
        split <;>
          exact ⟨congrArg CarafeSlot.taken hslot, congrArg CarafeSlot.bytes hslot, hrecs _ _, rfl, rfl⟩

/-- A store of 32 bytes on a free slot, behind no interlocked one, lands as a record. -/
theorem carafeArrive_lands {s : State} {j : Nat} {bs : List Byte} (hs : s.carafeSlot j = {}) (hn : ¬Behind s (s.carafeMsg j 0 bs))
    (hb : bs.length = 32) : RecordLands s (s.carafeArrive j 0 bs) j bs := by
  obtain ⟨hslot, hoff, hbytes⟩ := carafeMsg_fields s j 0 bs
  have hfree : ¬((s.carafeSlot (s.carafeMsg j 0 bs).slot).taken = true ∨ Behind s (s.carafeMsg j 0 bs)) := by
    rw [hslot, hs]
    rintro (h | h)
    · cases h
    · exact hn h
  rw [State.carafeArrive, carafeLand_lands (s := { s with carafeOut := s.carafeOut.erase (s.carafeMsg j 0 bs) }) hfree, hslot, hoff, hbytes]
  obtain ⟨cs, hdone⟩ := carafeDone_beside (State.carafeBytes { s with carafeOut := s.carafeOut.erase (s.carafeMsg j 0 bs) }
    (s.arrivalCyc (s.carafeMsg j 0 bs)) j 0 bs) (s.carafeMsg j 0 bs)
  have hlands := carafeBytes_lands (s := { s with carafeOut := s.carafeOut.erase (s.carafeMsg j 0 bs) })
    (s.arrivalCyc (s.carafeMsg j 0 bs)) hs hb
  exact hdone ▸ hlands

theorem carafeArrive_waits {s : State} {j off : Nat} {bs : List Byte}
    (h : (s.carafeSlot j).taken = true ∨ Behind s (s.carafeMsg j off bs)) :
    s.carafeArrive j off bs =
      { s with carafeOut := s.carafeOut.erase (s.carafeMsg j off bs), interlocked := s.interlocked ++ [s.carafeMsg j off bs] } := by
  obtain ⟨hslot, _, _⟩ := carafeMsg_fields s j off bs
  rw [State.carafeArrive, carafeLand_waits (s := { s with carafeOut := s.carafeOut.erase (s.carafeMsg j off bs) }) (by rw [hslot]; exact h)]

/-! ## A slot frees -/

theorem carafeRelease_occupied {s : State} {j : Nat} (h : (s.carafeSlot j).taken = true) : s.carafeRelease j = s := by
  rw [State.carafeRelease, if_pos h]

/-- The only interlocked store lands on its free slot as it would on arriving there. -/
theorem carafeRelease_only {s : State} {m : CarafeMsg} (hfree : (s.carafeSlot m.slot).taken = false) (hm : s.interlocked = [m])
    (hout : s.carafeOut = []) :
    s.carafeRelease m.slot = State.carafeArrive { s with interlocked := [], carafeOut := [m] } m.slot m.off m.bytes := by
  have herase : [m].erase m = s.carafeOut := by rw [hout, List.erase_cons_head]
  rw [State.carafeRelease, if_neg (Bool.eq_false_iff.mp hfree), hm, State.carafeArrive, carafeMsg_only (s := { s with interlocked := [], carafeOut := [m] }) rfl]
  dsimp only
  rw [herase]
  rfl

/-! ## The bridge delivers (R12) -/

section
variable {s : State} {src dst : Nat} {m : BridgeMsg} (hm : s.bridge.find? (fun m => m.src == src && m.dst == dst) = some m)
include hm

theorem bridgeArrive_early (h : s.now < m.due) : s.bridgeArrive src dst = s := by
  rw [State.bridgeArrive, hm]
  exact if_pos h

theorem bridgeArrive_rebuild (h : m.due ≤ s.now) (hr : s.inRebuild m.loc = true) :
    s.bridgeArrive src dst = s.at_ (s.now + 1) (.bridgeDelivery src dst) := by
  rw [State.bridgeArrive, hm]
  exact (if_neg (Nat.not_lt.mpr h)).trans (if_pos hr)

/-- A transfer that ends no commit and comes to open bytes outside ENGINE tiles puts its bytes at their home. -/
theorem bridgeArrive_open (h : m.due ≤ s.now) (hq : m.lseq = none) (hb : m.bytes ≠ []) (ho : Open s m.loc m.bytes.length)
    (hfirst : s.engineTile m.loc = false) (hlast : s.engineTile (m.loc + (m.bytes.length - 1)) = false) :
    s.bridgeArrive src dst = State.homePut { s with bridge := s.bridge.erase m } noCore m.loc m.bytes := by
  have hr : s.inRebuild m.loc = false := by rw [State.inRebuild, ← Nat.add_zero m.loc, regionOf_open ho (List.length_pos_iff.mpr hb)]
  have hland : State.landWrite { s with bridge := s.bridge.erase m } noCore m.loc m.bytes =
      State.homeWrite { s with bridge := s.bridge.erase m } noCore m.loc m.bytes := by
    refine if_neg ?_
    change ¬(s.engineTile m.loc || s.engineTile (m.loc + (m.bytes.length - 1))) = true
    rw [hfirst, hlast]
    decide
  rw [State.bridgeArrive, hm]
  refine (if_neg (Nat.not_lt.mpr h)).trans ((if_neg (Bool.eq_false_iff.mp hr)).trans ?_)
  rw [hq, hland]
  exact homeWrite_open (s := { s with bridge := s.bridge.erase m }) noCore hb ho

end

/-! ## The Barista core answers (R19, R293) -/

/-- A request that waits for its answer. -/
def BqOpen (s : State) (j : Nat) : Prop := (s.bqSlot j).used = true ∧ (s.bqSlot j).replied = false ∧ j ∈ s.bqOrder

theorem bqOpen_iff (s : State) (j : Nat) :
    ((!(s.bqSlot j).used || (s.bqSlot j).replied || !s.bqOrder.contains j) = true) ↔ ¬BqOpen s j := by
  simp only [BqOpen, Bool.or_eq_true, Bool.not_eq_true', ← Bool.not_eq_true, List.contains_iff_mem]
  tauto

@[simp] theorem bqSlot_setBq_same (s : State) (j : Nat) (x : BqSlot) : (s.setBq j x).bqSlot j = x := tbl_getD_put_same _ _ _ _

/-- The requests without one that has been answered. -/
def State.bqLeft (s : State) (j : Nat) : State := { s with bqOrder := s.bqOrder.filter (fun i => i != j) }

theorem notMem_bqLeft (s : State) (j : Nat) : j ∉ (s.bqLeft j).bqOrder := by simp [State.bqLeft]

theorem getLsbD_setFlag (w : BitVec 256) {f : Nat} (hf : f < 256) : (w ||| BitVec.ofNat 256 (2 ^ f)).getLsbD f = true := by
  rw [BitVec.getLsbD_or, BitVec.getLsbD_ofNat, Nat.testBit_two_pow_self, decide_eq_true hf, Bool.and_self, Bool.or_true]

/-- A token-ready flag of a context is set (R268). -/
def State.tokenReady (s : State) (ctx f : Nat) : State := s.modCtx ctx fun c => { c with tflags := c.tflags ||| BitVec.ofNat 256 (2 ^ f) }

theorem tokenReady_set (s : State) (ctx : Nat) {f : Nat} (hf : f < 256) : ((s.tokenReady ctx f).ctx ctx).tflags.getLsbD f = true := by
  rw [State.tokenReady, ctx_modCtx_same]
  exact getLsbD_setFlag _ hf

/-- The flag that a request names is set, if it names one. -/
def State.flagReady (s : State) (ctx : Nat) : Option Nat → State
  | some f => s.tokenReady ctx f
  | none => s

theorem flagReady_bqSlot (s : State) (ctx : Nat) (flag : Option Nat) (j : Nat) : (s.flagReady ctx flag).bqSlot j = s.bqSlot j := by
  cases flag <;> rfl

theorem flagReady_bqOrder (s : State) (ctx : Nat) (flag : Option Nat) : (s.flagReady ctx flag).bqOrder = s.bqOrder := by
  cases flag <;> rfl

theorem flagReady_mem (s : State) (ctx : Nat) (flag : Option Nat) : (s.flagReady ctx flag).mem = s.mem := by
  cases flag <;> rfl

/-- A sampler's token goes to the TOKBUF entry that its request names (R284, R293), or is lost to a fault there. -/
def State.tokbufPut (s : State) (x : BqSlot) (token : Nat) : State :=
  match s.vWrite noCore x.ctx 2 ((s.slot x.lseq).tokbuf + 4 * fld x.req.toNat 191 128) (toBytes 4 (token % 2 ^ 24 + 2 ^ 31)) with
  | .ok t => t
  | .error _ => s

theorem tokbufPut_bqOrder (s : State) (x : BqSlot) (token : Nat) : (s.tokbufPut x token).bqOrder = s.bqOrder := by
  rw [State.tokbufPut]
  split
  · rename_i ht
    exact vWrite_bqOrder ht
  · rfl

section
variable {s : State} {j : Nat} (reply : BitVec 512) (token : Nat)

theorem bqServe_closed (h : ¬BqOpen s j) : s.bqServe j reply token = s := by
  rw [State.bqServe]
  exact if_pos ((bqOpen_iff s j).mpr h)

variable (h : BqOpen s j)
include h

theorem bqServe_noReply (hs : (s.bqSlot j).sampler = false) (hr : (s.bqSlot j).noReply = true) :
    s.bqServe j reply token = (s.bqLeft j).setBq j {} := by
  rw [State.bqServe]
  refine (if_neg fun hc => (bqOpen_iff s j).mp hc h).trans ?_
  simp [hs, hr, State.bqLeft]

theorem bqServe_reply (hs : (s.bqSlot j).sampler = false) (hr : (s.bqSlot j).noReply = false) :
    s.bqServe j reply token =
      ((s.bqLeft j).setBq j { s.bqSlot j with replied := true, reply := reply }).flagReady (s.bqSlot j).ctx (s.bqSlot j).flag := by
  rw [State.bqServe]
  refine (if_neg fun hc => (bqOpen_iff s j).mp hc h).trans ?_
  simp only [hs, hr, Bool.false_and, Bool.false_eq_true, if_false]
  cases (s.bqSlot j).flag <;> rfl

theorem bqServe_samplerWaits (hs : (s.bqSlot j).sampler = true) (hw : (s.slot (s.bqSlot j).lseq).wst ≠ 0) :
    s.bqServe j reply token = s.at_ (s.now + 1) (.baristaRequestServe j reply (BitVec.ofNat 24 token)) := by
  rw [State.bqServe]
  refine (if_neg fun hc => (bqOpen_iff s j).mp hc h).trans (if_pos ?_)
  simp [hs, hw]

theorem bqServe_sampler (hs : (s.bqSlot j).sampler = true) (hw : (s.slot (s.bqSlot j).lseq).wst = 0) :
    s.bqServe j reply token =
      (((s.bqLeft j).tokbufPut (s.bqSlot j) token).setBq j {}).tokenReady (s.bqSlot j).ctx (s.slot (s.bqSlot j).lseq).tflag := by
  rw [State.bqServe]
  refine (if_neg fun hc => (bqOpen_iff s j).mp hc h).trans ?_
  simp only [hs, hw, bne_self_eq_false, Bool.and_false, Bool.false_eq_true, if_false, if_true]
  rfl

end

/-! ## The obligation -/

/-- Settles O48: each event is the case of `State.carafeLand`, `State.carafeRelease`, `State.bridgeArrive` or `State.bqServe` that its premises
choose. -/
theorem carafeBridgeAndBaristaAct : Obligations.CarafeBridgeAndBaristaAct := by
  unfold Obligations.CarafeBridgeAndBaristaAct
  intro s j off bs first behind
  have hbehind (off : Nat) : behind (first off) ↔ Behind s (s.carafeMsg j off bs) := by
    simp only [behind, Behind, (carafeMsg_fields s j off bs).1]
    rfl
  refine ⟨fun h => ?waits, fun hs hn hb => ?record, fun h => ?occupied, ?released, fun src dst m hm => ⟨fun h => ?early, fun h hr => ?rebuild,
    fun h hq hb ho h1 h2 => ?arrives⟩, fun reply token => ⟨fun h => ?closed, fun h hs => ?answer, fun h hs hw => ?asks, fun h hs hw hf => ?token⟩⟩
  case waits =>
    rw [exec_carafeStore, carafeArrive_waits (h.imp_right (hbehind off).mp)]
    rfl
  case record => exact ⟨_, exec_carafeStore j 0 bs s, carafeArrive_lands hs (mt (hbehind 0).mpr hn) hb⟩
  case occupied => rw [exec_carafeInterlockRelease, carafeRelease_occupied h]
  case released =>
    rintro m rfl hfree hm hout
    exact ⟨_, exec_carafeInterlockRelease m.slot s, by rw [exec_carafeStore, carafeRelease_only hfree hm hout]⟩
  case early => rw [exec_bridgeDelivery, bridgeArrive_early hm h]
  case rebuild => rw [exec_bridgeDelivery, bridgeArrive_rebuild hm h hr]
  case arrives =>
    rw [exec_bridgeDelivery, bridgeArrive_open hm h hq hb ho h1 h2]
    exact ⟨_, rfl, wrote_homePut { s with bridge := s.bridge.erase m } noCore m.loc m.bytes, homePut_bridge _ _ _ _⟩
  case closed => rw [exec_baristaRequestServe, bqServe_closed reply _ h]
  case answer =>
    refine ⟨_, exec_baristaRequestServe j reply token s, ?_⟩
    rcases Bool.eq_false_or_eq_true (s.bqSlot j).noReply with hr | hr
    · rw [bqServe_noReply reply _ h hs hr]
      exact ⟨notMem_bqLeft s j, rfl, fun _ => bqSlot_setBq_same _ _ _, fun hr' => absurd (hr.symm.trans hr') nofun⟩
    · rw [bqServe_reply reply _ h hs hr, flagReady_bqOrder, flagReady_bqSlot, flagReady_mem]
      refine ⟨notMem_bqLeft s j, rfl, fun hr' => absurd (hr.symm.trans hr') nofun, fun _ => ⟨bqSlot_setBq_same _ _ _, fun f hflag hf => ?_⟩⟩
      rw [hflag]
      exact tokenReady_set _ _ hf
  case asks =>
    refine ⟨_, s.now + 1, exec_baristaRequestServe j reply token s, ?_, Nat.lt_succ_self _⟩
    rw [bqServe_samplerWaits reply _ h hs hw, BitVec.ofNat_toNat, BitVec.setWidth_eq]
  case token =>
    refine ⟨_, exec_baristaRequestServe j reply token s, ?_⟩
    rw [bqServe_sampler reply _ h hs hw]
    refine ⟨bqSlot_setBq_same _ _ _, tokenReady_set _ _ hf, ?_⟩
    change j ∉ ((s.bqLeft j).tokbufPut (s.bqSlot j) token.toNat).bqOrder
    rw [tokbufPut_bqOrder]
    exact notMem_bqLeft s j

end Sys2Proof.Machine
end

section
/-! SUPPORT. What the dispatcher counts (R47, R301, R303, R309). -/

namespace Sys2Proof.Machine

open Sys2Proof.Claims

theorem exec_classAging (li : Nat) (s : State) : exec (.classAging li) s = .next (s.age li) := rfl
theorem exec_tokenRefill (d : Nat) (s : State) : exec (.tokenRefill d) s = .next (if s.now % 2 ^ 20 = 0 then s.refill d else s) := rfl
theorem exec_launchOverdue (li : Nat) (s : State) : exec (.launchOverdue li) s = .next (s.overdueCheck li) := rfl
theorem exec_haltedCoreReturn (c : Nat) (s : State) : exec (.haltedCoreReturn c) s = .next (s.returnCore c) := rfl

theorem launch_modLaunch (s : State) (i j : Nat) (f : Launch → Launch) :
    (s.modLaunch i f).launch j = if j = i then f (s.launch j) else s.launch j := by
  split
  · next h => rw [h, launch_modLaunch_same]
  · next h => exact tbl_getD_put_ne _ _ _ _ _ h

theorem ctx_modCtx (s : State) (i j : Nat) (f : Ctx → Ctx) : (s.modCtx i f).ctx j = if j = i then f (s.ctx j) else s.ctx j := by
  split
  · next h => rw [h, ctx_modCtx_same]
  · next h => exact tbl_getD_put_ne _ _ _ _ _ h

theorem core_modCore (s : State) (c d : Nat) (f : Core → Core) : (s.modCore c f).core d = if d = c then f (s.core d) else s.core d := by
  split
  · next h => rw [h, core_modCore_same]
  · next h => exact core_modCore_ne _ _ _ _ h

/-! ## Aging -/

theorem age_waits {s : State} {li : Nat} (h : (s.launch li).waits = true) :
    s.age li = s.modLaunch li (fun x => { x with
      waited := x.waited + 1, effcls := if (x.waited + 1) % 2 ^ 24 = 0 then Nat.min 7 (x.effcls + 1) else x.effcls }) := by
  rw [State.age, State.modLaunch, if_pos h]
  rfl

theorem age_settled {s : State} {li : Nat} (h : (s.launch li).waits = false) (n : Nat) : (s.age li).launch n = s.launch n := by
  rw [State.age, launch_modLaunch]
  split
  · next hn => rw [hn, if_neg (Bool.eq_false_iff.mp h)]
  · rfl

/-! ## Tokens -/

/-- A context with the tokens of one refill (R301). -/
def Ctx.refilled (x : Ctx) : Ctx := { x with tokens := Nat.min x.tokmax (x.tokens + x.tokrate) }

/-- One context of a refill: one that is not listed has no tokens, and gets none. -/
def State.refillOne (s : State) (d i : Nat) : State :=
  if (Tbl.find? s.ctxs (ctxKey d i)).isSome then s.modCtx (ctxKey d i) Ctx.refilled else s

theorem refill_eq (s : State) (d : Nat) : s.refill d = (List.range 64).foldl (fun t i => t.refillOne d i) s := rfl

theorem refillOne_ctx (s : State) (d i x : Nat) :
    (s.refillOne d i).ctx x = if x = ctxKey d i then (s.ctx x).refilled else s.ctx x := by
  rw [State.refillOne]
  split
  · exact ctx_modCtx _ _ _ _
  · next h =>
    split
    · next hx =>
      rw [Option.not_isSome_iff_eq_none] at h
      rw [hx, State.ctx, Tbl.getD, h]
      rfl
    · rfl

/-- The package but for its contexts. -/
def State.besideCtxs (s : State) : State := { s with ctxs := [] }

theorem eq_of_besideCtxs {s t : State} (h : t.besideCtxs = s.besideCtxs) : t = { s with ctxs := t.ctxs } :=
  calc
    t = { t.besideCtxs with ctxs := t.ctxs } := rfl
    _ = { s.besideCtxs with ctxs := t.ctxs } := by rw [h]

theorem refillOne_besideCtxs (s : State) (d i : Nat) : (s.refillOne d i).besideCtxs = s.besideCtxs := by
  rw [State.refillOne]
  split <;> rfl

/-- Contexts of a die that are refilled one after another, each once. -/
theorem refills_ctx (d x : Nat) (is : List Nat) (hn : is.Nodup) (s : State) :
    (is.foldl (fun t i => t.refillOne d i) s).ctx x = if ∃ i ∈ is, x = ctxKey d i then (s.ctx x).refilled else s.ctx x := by
  induction is generalizing s with
  | nil => simp
  | cons i is ih =>
    obtain ⟨hi, hn⟩ := List.nodup_cons.mp hn
    rw [List.foldl_cons, ih hn, refillOne_ctx]
    by_cases hx : x = ctxKey d i
    · have hlater : ¬∃ j ∈ is, x = ctxKey d j := by
        rintro ⟨j, hj, hxj⟩
        rw [hx, ctxKey, ctxKey, Nat.add_left_cancel_iff] at hxj
        exact hi (hxj ▸ hj)
      rw [if_neg hlater, if_pos hx, if_pos ⟨i, List.mem_cons_self, hx⟩]
    · simp only [hx, if_false, List.exists_mem_cons_iff, false_or]

theorem refill_ctx (s : State) (d x : Nat) :
    (s.refill d).ctx x = if 64 * d ≤ x ∧ x < 64 * d + 64 then (s.ctx x).refilled else s.ctx x := by
  have hkey : (∃ i ∈ List.range 64, x = ctxKey d i) ↔ 64 * d ≤ x ∧ x < 64 * d + 64 := by
    simp only [List.mem_range, ctxKey]
    exact ⟨fun ⟨i, hi, hx⟩ => by omega, fun h => ⟨x - 64 * d, by omega, by omega⟩⟩
  rw [refill_eq, refills_ctx d x _ List.nodup_range s]
  exact if_congr hkey rfl rfl

theorem refill_besideCtxs (s : State) (d : Nat) : (s.refill d).besideCtxs = s.besideCtxs :=
  foldl_keeps State.besideCtxs _ (fun t i => refillOne_besideCtxs t d i) _ s

/-! ## Overdue launches -/

theorem notice_launch (s : State) (kind w1 w3 li : Nat) : (s.notice kind w1 w3).launch li = s.launch li := by
  rw [State.notice]
  split <;> rfl

theorem notice_ctx (s : State) (kind w1 w3 x : Nat) : (s.notice kind w1 w3).ctx x = s.ctx x := by
  rw [State.notice]
  split <;> rfl

theorem notice_taken {s : State} (kind w1 w3 : Nat) (h : (s.mbox.ntw + 2 ^ 64 - s.mbox.ntr) % 2 ^ 64 ≠ 63) :
    (s.notice kind w1 w3).mbox.ntw = s.mbox.ntw + 1 := by
  rw [State.notice, if_neg h]

/-- A launch is overdue, and its context has counted it. -/
def State.overdueNow (s : State) (li : Nat) : State :=
  (s.modLaunch li (fun x => { x with overdue := true })).modCtx (s.launch li).ctx (fun x => { x with overdue := sat16 (x.overdue + 1) })

theorem overdueCheck_late {s : State} {li : Nat} (hs : (s.launch li).state = .running) (ho : (s.launch li).overdue = false)
    (he : (s.launch li).est < s.runCount li) :
    s.overdueCheck li = if (s.launch li).ckpt || (s.launch li).killok then s.overdueNow li else (s.overdueNow li).notice 4 (launchName (s.launch li)) 0 := by
  simp only [State.overdueCheck, hs, ho, he, Bool.not_false, decide_true, Bool.and_self, if_true, State.overdueNow]

theorem overdueCheck_idle {s : State} {li : Nat}
    (h : (s.launch li).state ≠ .running ∨ (s.launch li).overdue = true ∨ s.runCount li ≤ (s.launch li).est) : s.overdueCheck li = s := by
  rw [State.overdueCheck]
  dsimp only
  split
  · next hs =>
    refine if_neg ?_
    simp only [Bool.and_eq_true, Bool.not_eq_true', decide_eq_true_eq, not_and, Nat.not_lt]
    intro ho
    rcases h with h | h | h
    · exact absurd hs h
    · rw [ho] at h
      cases h
    · exact h
  · rfl

/-- Settles O47: aging and refill touch one table each, an overdue launch is marked, counted and, where nothing else may be done, told. -/
theorem launchesAgeAndCountersRun : Obligations.LaunchesAgeAndCountersRun := by
  unfold Obligations.LaunchesAgeAndCountersRun
  intro s li d c l
  refine ⟨fun h => ?ages, fun h => ⟨_, exec_classAging li s, age_settled h⟩, fun h => ?refills, fun h => ?early, fun hs ho he => ?late,
    fun h => ?inTime, exec_haltedCoreReturn c s⟩
  case ages => rw [exec_classAging, age_waits h]
  case refills =>
    refine ⟨s.refill d, by rw [exec_tokenRefill, if_pos h], fun i hi => ?_, fun x hx => ?_, eq_of_besideCtxs (refill_besideCtxs s d)⟩
    · rw [refill_ctx, if_pos (by omega)]
      rfl
    · rw [refill_ctx, if_neg (by omega)]
  case early => rw [exec_tokenRefill, if_neg h]
  case late =>
    have hl : ((s.overdueNow li).launch li).overdue = true := by
      rw [State.overdueNow, modCtx_look_launch, launch_modLaunch_same]
    have hm : (s.overdueNow li).mbox = s.mbox := rfl
    have hx : ((s.overdueNow li).ctx l.ctx).overdue = Nat.min ((s.ctx l.ctx).overdue + 1) 65535 := by
      simp only [l, State.overdueNow, ctx_modCtx_same, modLaunch_look_ctx, sat16]
    rw [exec_launchOverdue, overdueCheck_late hs ho he]
    refine ⟨_, rfl, ?_⟩
    split
    · next h => exact ⟨hl, hx, fun _ => rfl, fun hc hk => by simp [l, hc, hk] at h⟩
    · next h =>
      refine ⟨?_, ?_, fun hp => absurd hp (by simpa using h), fun _ _ hroom => ?_⟩
      · rw [notice_launch, hl]
      · rw [notice_ctx, hx]
      · rw [← hm] at hroom ⊢
        exact notice_taken _ _ _ hroom
  case inTime => rw [exec_launchOverdue, overdueCheck_idle h]

end Sys2Proof.Machine
end

section
/-! SUPPORT. What stores and notices leave of the package (R146 to R151, R335, R357): the launches and contexts, the dispatchers, and each core but
for its copies of memory. -/

namespace Sys2Proof.Machine

open Sys2Proof.Claims

/-- A core but for its copies of memory and what its scratch has held. -/
def Core.besideCopies (k : Core) : Core := { k with l1 := [], l1Mark := 0, rdcMark := 0, fills := 0, stale := [], foreign := [], hist := [] }

/-- A die but for its remote-data cache. -/
def Die.besideRdc (d : Die) : Die := { d with rdc := [], rdcFill := 0 }

/-- The package but for its cores, for the bytes of memory, what is on its way to them, and the notices. -/
def State.besideStores (s : State) : State :=
  { s with
    mem := [], cores := [], pairs := [], deltas := [], nDelta := 0, qsb := [], bridge := [], nBridge := 0, agenda := [], stalled := [],
    outs := [], nOut := 0, mbox := {}, dies := s.dies.map Die.besideRdc }

/-- A step that makes stores and gives notices, and does nothing else. -/
structure State.StoresOnly (s t : State) : Prop where
  rest : t.besideStores = s.besideStores
  cores : ∀ c, (t.core c).besideCopies = (s.core c).besideCopies

namespace State.StoresOnly

theorem refl (s : State) : s.StoresOnly s := ⟨rfl, fun _ => rfl⟩

theorem trans {s t u : State} (h : s.StoresOnly t) (h' : t.StoresOnly u) : s.StoresOnly u :=
  ⟨h'.rest.trans h.rest, fun c => (h'.cores c).trans (h.cores c)⟩

/-- Steps one after another. -/
theorem foldl {α : Type} {f : State → α → State} (hf : ∀ (s : State) a, s.StoresOnly (f s a)) (l : List α) (s : State) : s.StoresOnly (l.foldl f s) := by
  induction l generalizing s with
  | nil => exact refl s
  | cons a r ih => exact (hf s a).trans (ih _)

section
variable {s t : State} (h : s.StoresOnly t)
include h

theorem launches : t.launches = s.launches := (congrArg State.launches h.rest :)
theorem launch (li : Nat) : t.launch li = s.launch li := (congrArg (fun u : State => u.launch li) h.rest :)
theorem ctxs : t.ctxs = s.ctxs := (congrArg State.ctxs h.rest :)
theorem evLate : t.evLate = s.evLate := (congrArg State.evLate h.rest :)
theorem nLaunch : t.nLaunch = s.nLaunch := (congrArg State.nLaunch h.rest :)

theorem dies : t.dies.map Die.besideRdc = s.dies.map Die.besideRdc := (congrArg State.dies h.rest :)

theorem dies_length : t.dies.length = s.dies.length := by
  rw [← List.length_map Die.besideRdc, h.dies, List.length_map]

theorem die (d : Nat) : (t.die d).besideRdc = (s.die d).besideRdc := by
  have hd (u : State) : (u.die d).besideRdc = (u.dies.map Die.besideRdc).getD d (Die.besideRdc {}) := (List.getD_map ..).symm
  rw [hd, hd, h.dies]

theorem ridx (d : Nat) : (t.die d).ridx = (s.die d).ridx := (congrArg Die.ridx (h.die d) :)

end

end State.StoresOnly

/-! ## One step of each kind -/

theorem modCore_storesOnly {f : Core → Core} (hf : ∀ k, (f k).besideCopies = k.besideCopies) (s : State) (c : Nat) :
    s.StoresOnly (s.modCore c f) := by
  refine ⟨rfl, fun d => ?_⟩
  rw [core_modCore]
  split
  · exact hf _
  · rfl

theorem modDie_storesOnly {f : Die → Die} (hf : ∀ x, (f x).besideRdc = x.besideRdc) (s : State) (d : Nat) : s.StoresOnly (s.modDie d f) := by
  refine ⟨?_, fun _ => rfl⟩
  have hd : (s.modDie d f).dies.map Die.besideRdc = s.dies.map Die.besideRdc := by
    change (s.dies.set d (f (s.dies.getD d {}))).map Die.besideRdc = _
    rw [List.map_set, hf]
    by_cases h : d < s.dies.length
    · rw [List.getD_eq_getElem _ _ h, ← List.getElem_map Die.besideRdc (h := by simpa using h), List.set_getElem_self]
    · exact List.set_eq_of_length_le (by simpa using h)
  exact congrArg (fun l => ({ s.besideStores with dies := l } : State)) hd

theorem notice_storesOnly (s : State) (kind w1 w3 : Nat) : s.StoresOnly (s.notice kind w1 w3) := by
  rw [State.notice]
  split <;> exact ⟨rfl, fun _ => rfl⟩

theorem queueMem_storesOnly (s : State) (pkg : Nat) (x : BitVec 2048) : s.StoresOnly (s.queueMem pkg x) := ⟨rfl, fun _ => rfl⟩

theorem request_storesOnly (s : State) (who : Waiter) (pkg op pa : Nat) (bs : List Byte) : s.StoresOnly (s.request who pkg op pa bs) :=
  ⟨rfl, fun _ => rfl⟩

theorem bridgeSend_storesOnly (s : State) (src dst loc : Nat) (bs : List Byte) (lseq : Option Nat) : s.StoresOnly (s.bridgeSend src dst loc bs lseq) :=
  ⟨rfl, fun _ => rfl⟩

theorem stall_storesOnly (s : State) (c loc : Nat) (virt : Option (Nat × Nat)) (bs : List Byte) : s.StoresOnly (s.stall c loc virt bs) :=
  ⟨rfl, fun _ => rfl⟩

/-! ## At the home -/

theorem addDelta_storesOnly (s : State) (c loc : Nat) (x : BitVec 512) : s.StoresOnly (s.addDelta c loc x) := by
  unfold State.addDelta
  split
  · exact .refl s
  · split
    · refine State.StoresOnly.trans ?_ (.foldl (fun t p => ?_) _ _)
      · exact ⟨rfl, fun _ => rfl⟩
      · exact queueMem_storesOnly t p _
    · exact .refl s

theorem sendStore_storesOnly (s : State) (who : Waiter) (loc : Nat) (bs : List Byte) : s.StoresOnly (s.sendStore who loc bs) := by
  unfold State.sendStore
  split
  · exact .foldl (fun t _ => request_storesOnly t who _ _ _ _) _ s
  · exact .refl s

theorem unstale_storesOnly (s : State) (loc n : Nat) : s.StoresOnly (s.unstale loc n) := by
  unfold State.unstale
  split
  · exact modCore_storesOnly (fun _ => by rfl) s _
  · exact .refl s

theorem homePut_storesOnly (s : State) (c loc : Nat) (bs : List Byte) : s.StoresOnly (s.homePut c loc bs) := by
  have hput : s.StoresOnly { s.unstale loc bs.length with mem := memWrite s.mem loc bs } :=
    (unstale_storesOnly s loc bs.length).trans ⟨rfl, fun _ => rfl⟩
  unfold State.homePut
  dsimp only
  split
  · exact hput
  · exact hput.trans (.foldl (fun t _ => addDelta_storesOnly t c _ _) _ _)

theorem homeWrite_storesOnly (s : State) (c loc : Nat) (bs : List Byte) : s.StoresOnly (s.homeWrite c loc bs) := by
  unfold State.homeWrite
  repeat' split
  · exact sendStore_storesOnly s .none loc bs
  · exact stall_storesOnly s c loc none bs
  · exact homePut_storesOnly s c loc bs
  · exact .refl s
  · exact stall_storesOnly s c loc none bs
  · exact homePut_storesOnly s c loc bs

/-! ## The die's point -/

theorem rdcClean_storesOnly (s : State) (d line : Nat) : s.StoresOnly (s.rdcClean d line) := by
  unfold State.rdcClean
  split
  · exact .refl s
  · exact (State.StoresOnly.foldl (fun t r => bridgeSend_storesOnly t _ _ _ _ none) _ s).trans (modDie_storesOnly (fun _ => by rfl) _ d)

theorem rdcEvict_storesOnly (s : State) (d line : Nat) : s.StoresOnly (s.rdcEvict d line) :=
  (rdcClean_storesOnly s d line).trans (modDie_storesOnly (fun _ => by rfl) _ d)

theorem rdcRoom_storesOnly (s : State) (d line : Nat) : s.StoresOnly (s.rdcRoom d line) := by
  unfold State.rdcRoom
  split
  · exact rdcEvict_storesOnly s d _
  · exact .refl s

theorem rdcDrain_storesOnly (s : State) (d : Nat) : s.StoresOnly (s.rdcDrain d) := by
  refine .foldl (fun t p => ?_) _ s
  split
  · exact .refl t
  · exact rdcClean_storesOnly t d _

theorem dieWrite_storesOnly (s : State) (c loc : Nat) (b : Byte) : s.StoresOnly (s.dieWrite c loc b) := by
  unfold State.dieWrite
  dsimp only
  split
  · exact homeWrite_storesOnly s c loc [b]
  · exact (rdcRoom_storesOnly s _ _).trans (modDie_storesOnly (fun _ => by rfl) _ _)

theorem dieWrites_storesOnly (s : State) (c loc : Nat) (bs : List Byte) : s.StoresOnly (s.dieWrites c loc bs) := by
  unfold State.dieWrites
  split
  · exact homeWrite_storesOnly s c loc bs
  · exact .foldl (fun t _ => dieWrite_storesOnly t c _ _) _ s

theorem logicWrite_storesOnly (s : State) (d sc loc : Nat) (bs : List Byte) : s.StoresOnly (s.logicWrite d sc loc bs) := by
  unfold State.logicWrite
  repeat' split
  · exact homeWrite_storesOnly s noCore loc bs
  · exact dieWrites_storesOnly s _ loc bs
  · exact bridgeSend_storesOnly s _ _ loc bs none

/-! ## The quad store buffer and the L1 -/

theorem qsbFlush_storesOnly (s : State) (c line : Nat) : s.StoresOnly (s.qsbFlush c line) := by
  unfold State.qsbFlush
  dsimp only
  split
  · exact .refl s
  · exact (State.StoresOnly.foldl (fun t _ => dieWrite_storesOnly t c _ _) _ s).trans ⟨rfl, fun _ => rfl⟩

theorem qsbDrain_storesOnly (s : State) (c : Nat) : s.StoresOnly (s.qsbDrain c) := by
  unfold State.qsbDrain
  exact .foldl (fun t p => qsbFlush_storesOnly t c _) _ s

theorem qsbWrite_storesOnly (s : State) (c loc : Nat) (b : Byte) : s.StoresOnly (s.qsbWrite c loc b) := by
  have hroom (p : Prop) [Decidable p] (line : Nat) : s.StoresOnly (if p then s.qsbFlush c line else s) := by
    split
    · exact qsbFlush_storesOnly s c line
    · exact .refl s
  exact (hroom _ _).trans ⟨rfl, fun _ => rfl⟩

theorem l1Clean_storesOnly (s : State) (c line : Nat) : s.StoresOnly (s.l1Clean c line) := by
  unfold State.l1Clean
  split
  · exact .refl s
  · exact (State.StoresOnly.foldl (fun t _ => qsbWrite_storesOnly t c _ _) _ s).trans (modCore_storesOnly (fun _ => by rfl) _ c)

theorem l1Evict_storesOnly (s : State) (c line : Nat) : s.StoresOnly (s.l1Evict c line) :=
  (l1Clean_storesOnly s c line).trans (modCore_storesOnly (fun _ => by rfl) _ c)

theorem l1Drain_storesOnly (s : State) (c : Nat) : s.StoresOnly (s.l1Drain c) := by
  refine .foldl (fun t p => ?_) _ s
  split
  · exact .refl t
  · exact l1Clean_storesOnly t c _

theorem drainTo_storesOnly (s : State) (c sc : Nat) (rel : Bool) : s.StoresOnly (s.drainTo c sc rel) := by
  have hl : s.StoresOnly (if 1 ≤ scopeRank sc then s.l1Drain c else s) := by
    split
    · exact l1Drain_storesOnly s c
    · exact .refl s
  have hq : s.StoresOnly (if 2 ≤ scopeRank sc then State.qsbDrain (if 1 ≤ scopeRank sc then s.l1Drain c else s) c
      else if 1 ≤ scopeRank sc then s.l1Drain c else s) := by
    split
    · exact hl.trans (qsbDrain_storesOnly _ c)
    · exact hl
  unfold State.drainTo
  dsimp only
  split
  · exact hq.trans (rdcDrain_storesOnly _ _)
  · exact hq

theorem setMarks_storesOnly (s : State) (c sc : Nat) : s.StoresOnly (s.setMarks c sc) := by
  unfold State.setMarks
  exact modCore_storesOnly (fun _ => by rfl) s c

end Sys2Proof.Machine
end

section
/-! SUPPORT. The packets that the dispatcher takes (R25, R305 to R307). -/

namespace Sys2Proof.Machine

open Sys2Proof.Claims

theorem exec_nopPacket (d q : Nat) (s : State) : exec (.nopPacket d q) s = .next (s.takeNop d q) := rfl
theorem exec_reservedPacket (d q : Nat) (s : State) : exec (.reservedPacket d q) s = .next (s.takeReserved d q) := rfl
theorem exec_launchPacket (d q : Nat) (s : State) : exec (.launchPacket d q) s = .next (s.takeLaunch d q) := rfl

/-! ## A store of the die's own logic -/

/-- What a store has done is seen in memory and on the bridge alone. -/
theorem stored_congr {s t u : State} {d loc : Nat} {bs : List Byte} (h : Stored s t d loc bs) (hm : u.mem = t.mem) (hb : u.bridge = t.bridge) :
    Stored s u d loc bs := by
  rw [Stored, Wrote, hm, hb]
  exact h

theorem toBytes_ne_nil {n : Nat} (v : Nat) (hn : 0 < n) : toBytes n v ≠ [] :=
  List.ne_nil_of_length_pos (by rwa [toBytes_length])

theorem logicWrite_stored (s : State) (d sc loc : Nat) {bs : List Byte} (hbs : bs ≠ []) (hsc : 4 ≤ scopeRank sc) :
    Stored s (s.logicWrite d sc loc bs) d loc bs := by
  refine ⟨fun hd ho => ?_, fun e he hne => ?_⟩
  · rw [State.logicWrite, if_pos (.inl hd), homeWrite_open _ hbs ho]
    exact wrote_homePut _ _ _ _
  · rw [State.logicWrite, if_neg (by simp [he, hne]), if_neg (by omega)]
    exact ⟨_, List.mem_append_right _ List.mem_cons_self, rfl, rfl, rfl⟩

/-! ## RIDX -/

theorem setRidx_indexAt {s : State} {d : Nat} (q : Nat) (x : Queue) (n : Nat) (hd : d < s.dies.length) :
    IndexAt s (s.setRidx d q x n) d q x ((x.ridx + n) % 2 ^ 64) := by
  constructor
  · have hlen : d < (s.logicWrite d 4 x.rloc (toBytes 8 ((x.ridx + n) % 2 ^ 64))).dies.length := by rwa [(logicWrite_storesOnly ..).dies_length]
    rw [State.setRidx, die_modDie_same _ hlen]
    exact tbl_find_put_same _ _ _
  · exact stored_congr (logicWrite_stored s d 4 x.rloc (toBytes_ne_nil _ (by decide)) (by decide)) rfl rfl

theorem setRidx_launches (s : State) (d q : Nat) (x : Queue) (n : Nat) : (s.setRidx d q x n).launches = s.launches :=
  ((logicWrite_storesOnly ..).launches :)

theorem setRidx_ctxs (s : State) (d q : Nat) (x : Queue) (n : Nat) : (s.setRidx d q x n).ctxs = s.ctxs :=
  ((logicWrite_storesOnly ..).ctxs :)

theorem setRidx_evLate (s : State) (d q : Nat) (x : Queue) (n : Nat) : (s.setRidx d q x n).evLate = s.evLate :=
  ((logicWrite_storesOnly ..).evLate :)

/-- Only memory, the bridge and the dispatcher's own table say where RIDX stands. -/
theorem indexAt_congr {s t u : State} {d q n : Nat} {x : Queue} (h : IndexAt s t d q x n) (hr : (u.die d).ridx = (t.die d).ridx)
    (hm : u.mem = t.mem) (hb : u.bridge = t.bridge) : IndexAt s u d q x n := by
  obtain ⟨hridx, hst⟩ := h
  exact ⟨by rw [hr, hridx], stored_congr hst hm hb⟩

/-! ## One packet -/

theorem packetType_eq (w : List Nat) : packetType w = w.getD 0 0 % 256 := fld_low _ _

section
variable {s : State} {d q : Nat}

theorem takeNop_none (h : s.nextPacket d q = none) : s.takeNop d q = s := by rw [State.takeNop, h]
theorem takeReserved_none (h : s.nextPacket d q = none) : s.takeReserved d q = s := by rw [State.takeReserved, h]
theorem takeLaunch_none (h : s.nextPacket d q = none) : s.takeLaunch d q = s := by rw [State.takeLaunch, h]

variable {x : Queue} {a : List Nat} (h : s.nextPacket d q = some (x, a))
include h

theorem takeNop_some (ht : packetType a = 2) : s.takeNop d q = s.setRidx d q x 1 := by
  rw [State.takeNop, h]
  exact if_pos ht

theorem takeReserved_some (h1 : packetType a ≠ 1) (h2 : packetType a ≠ 2) :
    s.takeReserved d q = (s.setRidx d q x 1).modCtx x.ctx (fun c => { c with qerr := sat16 (c.qerr + 1) }) := by
  rw [State.takeReserved, h]
  exact if_neg (by simp [h1, h2])

/-- The launch of two packets, as it is enqueued. -/
def Launch.enqueued (l : Launch) (img : Option Image) : Launch :=
  { l with state := .waiting, img := img, viaEvents := l.wait != 0, ntasks := match img with | some im => im.nTasks | none => 0 }

/-- Both packets of a launch are taken, and its number with them. -/
def State.launchTaken (s : State) (d q : Nat) (x : Queue) : State := { s.setRidx d q x 2 with nLaunch := s.nLaunch + 1 }

theorem takeLaunch_some {b : List Nat} (ht : packetType a = 1) (hb : s.packet x (x.ridx + 1) = some b) {l : Launch}
    (hl : l = launchOf d q x.ctx s.nLaunch (fun i => a.getD i 0) (fun i => b.getD i 0)) :
    s.takeLaunch d q =
      if s.badLaunch l (a.getD 0 0) (fld (a.getD 3 0) 54 54) (s.readImage x.ctx l.image 24) then ((s.launchTaken d q x).setLaunch s.nLaunch l).complete s.nLaunch 2
      else (s.launchTaken d q x).setLaunch s.nLaunch (l.enqueued (s.readImage x.ctx l.image 24)) := by
  rw [State.takeLaunch, h]
  dsimp only
  rw [if_neg (not_not_intro ht), hb, hl]
  rfl

end

/-! ## A launch that is refused -/

theorem writeCw_storesOnly (s : State) (l : Launch) (status : Nat) : s.StoresOnly (s.writeCw l status) := by
  unfold State.writeCw
  repeat' split
  · exact .refl s
  · exact notice_storesOnly ..
  · exact logicWrite_storesOnly ..
  · exact notice_storesOnly ..

/-- A launch that leaves: what it held for itself goes. -/
def Launch.over (l : Launch) : Launch := { l with state := .done, reserved := [], saved := [], postsHeld := [] }

theorem complete_bad (s : State) (li : Nat) : ∃ t, s.StoresOnly t ∧ s.complete li 2 = t.modLaunch li Launch.over :=
  ⟨_, writeCw_storesOnly s (s.launch li) 2, rfl⟩

/-! ## The fields of a launch -/

theorem bitAt_eq_testBit (x i : Nat) : bitAt x i = x.testBit i := by rw [Nat.testBit_eq_decide_div_mod_eq, bitAt]

theorem launchOf_enqueued (d q n : Nat) (x : Queue) (a b : List Nat) (img : Option Image) :
    Enqueued ((launchOf d q x.ctx n (fun i => a.getD i 0) (fun i => b.getD i 0)).enqueued img) d q x a b where
  state := rfl
  place := ⟨rfl, rfl, rfl⟩
  ticket := rfl
  image := fld_low _ _
  args := fld_low _ _
  est := fld_low _ _
  cls := ⟨rfl, rfl⟩
  flags := ⟨bitAt_eq_testBit _ _, bitAt_eq_testBit _ _, bitAt_eq_testBit _ _⟩
  shape := ⟨rfl, rfl⟩
  cwaddr := fld_low _ _
  ttid := fld_low _ _
  wait := rfl
  set := rfl

/-- Settles O44: each packet moves RIDX by one store of the die's logic; a bad launch then makes stores and notices only. -/
theorem packetsAreTaken : Obligations.PacketsAreTaken := by
  unfold Obligations.PacketsAreTaken
  intro s d q hd
  refine ⟨fun h => ⟨?_, ?_, ?_⟩, fun x a h => ⟨fun ht => ?nop, fun h1 h2 => ?reserved, fun b ht hb => ?launch⟩⟩
  · rw [exec_nopPacket, takeNop_none h]
  · rw [exec_reservedPacket, takeReserved_none h]
  · rw [exec_launchPacket, takeLaunch_none h]
  case nop =>
    rw [← packetType_eq] at ht
    rw [exec_nopPacket, takeNop_some h ht]
    exact ⟨_, rfl, setRidx_indexAt q x 1 hd, setRidx_launches .., setRidx_ctxs ..⟩
  case reserved =>
    rw [← packetType_eq] at h1 h2
    rw [exec_reservedPacket, takeReserved_some h h1 h2]
    refine ⟨_, rfl, indexAt_congr (setRidx_indexAt q x 1 hd) rfl rfl rfl, ?_, setRidx_launches s d q x 1⟩
    rw [ctx_modCtx_same, State.ctx, setRidx_ctxs]
    rfl
  case launch =>
    intro l img bad
    rw [← packetType_eq] at ht
    rw [exec_launchPacket, takeLaunch_some h ht hb (l := l) rfl]
    have hindex : IndexAt s (s.launchTaken d q x) d q x ((x.ridx + 2) % 2 ^ 64) := indexAt_congr (setRidx_indexAt q x 2 hd) rfl rfl rfl
    split
    · next hbad =>
      obtain ⟨u, hst, hu⟩ := complete_bad ((s.launchTaken d q x).setLaunch s.nLaunch l) s.nLaunch
      rw [hu]
      refine ⟨_, rfl, hst.nLaunch, ?_, fun hgood => absurd hbad (Bool.eq_false_iff.mp hgood), fun _ => ⟨?_, ?_, ?_⟩⟩
      · exact (congrArg (fun r => Tbl.find? r q) (hst.ridx d)).trans hindex.1
      · rw [launch_modLaunch_same]
        rfl
      · exact hst.ctxs.trans (setRidx_ctxs s d q x 2)
      · exact hst.evLate.trans (setRidx_evLate s d q x 2)
    · next hgood =>
      refine ⟨_, rfl, rfl, hindex.1, fun _ => ⟨indexAt_congr hindex rfl rfl rfl, ?_, ?_⟩, fun hbad => absurd hbad hgood⟩
      · rw [launch_setLaunch_same]
        exact launchOf_enqueued ..
      · rw [launch_setLaunch_same]
        rfl

end Sys2Proof.Machine
end

section
/-! SUPPORT. Launches start on their cores and end (R26 to R28, R33, R34, R308). -/

namespace Sys2Proof.Machine

open Sys2Proof.Claims

theorem exec_launchEligible (li : Nat) (s : State) : exec (.launchEligible li) s = .next (s.eligible li) := rfl
theorem exec_taskBind (li c : Nat) (s : State) : exec (.taskBind li c) s = .next (s.bindTask li c) := rfl
theorem exec_gangStart (li : Nat) (s : State) : exec (.gangStart li) s = .next (s.gangStart li) := rfl
theorem exec_launchComplete (li : Nat) (s : State) : exec (.launchComplete li) s = .next (s.launchEnd li) := rfl

/-! ## Eligible -/

theorem eligible_waiting {s : State} {li : Nat} (h : (s.launch li).state = .waiting) :
    s.eligible li = if (s.ctx (s.launch li).ctx).ev &&& (s.launch li).wait = (s.launch li).wait then s.modLaunch li (fun x => { x with state := .eligible })
      else s := by
  rw [State.eligible, h]

theorem eligible_settled {s : State} {li : Nat} (h : (s.launch li).state ≠ .waiting) : s.eligible li = s := by
  rw [State.eligible]
  split
  · next hw => exact absurd hw h
  · rfl

/-! ## A task starts -/

/-- Word j of an argument block; of one that cannot be read, 0. -/
def argWord (args : Option (List Byte)) (j : Nat) : Nat :=
  match args with
  | some bs => le bs (8 * j) 8
  | none => 0

/-- The argument block of a task of a launch on a core's die. -/
def State.argsAt (s : State) (li c : Nat) : Option (List Byte) := s.objGet (s.taskCtx (s.launch li) (dieOf c)) (s.launch li).args 256

/-- A step that starts task i of a launch on core c: besides stores, that core holds the task's state at its start, and nothing else has changed. -/
structure State.Starts (s t : State) (im : Image) (li c i : Nat) (hold : Option Nat) : Prop where
  launch : ∀ n, t.launch n = s.launch n
  core : ∃ k x g, (t.core c).besideCopies =
    (taskStart k x im li i (s.taskCtx (s.launch li) (dieOf c)) (s.launch li).tagged (argWord (s.argsAt li c)) g hold).besideCopies
  others : ∀ d, d ≠ c → (t.core d).besideCopies = (s.core d).besideCopies

theorem State.Starts.storesOnly {s t u : State} {im : Image} {li c i : Nat} {hold : Option Nat} (h : s.Starts t im li c i hold) (hu : t.StoresOnly u) :
    s.Starts u im li c i hold where
  launch n := (hu.launch n).trans (h.launch n)
  core := let ⟨k, x, g, hk⟩ := h.core; ⟨k, x, g, (hu.cores c).trans hk⟩
  others d hd := (hu.cores d).trans (h.others d hd)

/-- The lines beyond what a task leaves of its L1 go. -/
def State.makeRoom (s : State) (c : Nat) (im : Image) : State :=
  ((s.core c).leaving (512 * (sramUnits c - im.phases.headD 0))).foldl (fun t p => t.l1Evict c p.1) s

/-- A core takes the state of a task of a launch of s at its start. -/
def State.placeTask (t s : State) (im : Image) (li c i : Nat) (hold : Option Nat) : State :=
  let x := s.taskCtx (s.launch li) (dieOf c)
  (t.modCore c (fun k => taskStart k (t.ctx x) im li i x (s.launch li).tagged (argWord (s.argsAt li c)) t.fresh hold)).tick1

/-- The image's data records enter a core's scratch. -/
def State.putData (t : State) (im : Image) (c : Nat) : State := im.data.foldl (fun t r => t.homeWrite c (scratchLoc c r.1) r.2) t

/-- A launch that became eligible through events acquires (R28). -/
def State.acquired (t : State) (l : Launch) (c : Nat) : State := if l.viaEvents then (t.drainTo c 4 false).setMarks c 4 else t

theorem makeRoom_storesOnly (s : State) (c : Nat) (im : Image) : s.StoresOnly (s.makeRoom c im) := by
  unfold State.makeRoom
  exact .foldl (fun t _ => l1Evict_storesOnly t c _) _ s

theorem putData_storesOnly (s : State) (im : Image) (c : Nat) : s.StoresOnly (s.putData im c) := by
  unfold State.putData
  exact .foldl (fun t _ => homeWrite_storesOnly t c _ _) _ s

theorem acquired_storesOnly (s : State) (l : Launch) (c : Nat) : s.StoresOnly (s.acquired l c) := by
  unfold State.acquired
  split
  · exact (drainTo_storesOnly s c 4 false).trans (setMarks_storesOnly _ c 4)
  · exact .refl s

theorem placeTask_starts {s t : State} (hs : s.StoresOnly t) (im : Image) (li c i : Nat) (hold : Option Nat) :
    s.Starts (t.placeTask s im li c i hold) im li c i hold where
  launch n := hs.launch n
  core := by
    refine ⟨t.core c, t.ctx (s.taskCtx (s.launch li) (dieOf c)), t.fresh, ?_⟩
    rw [State.placeTask, tick1_look_core, core_modCore_same]
  others d hd := by
    rw [State.placeTask, tick1_look_core, core_modCore_ne _ _ _ _ hd, hs.cores]

theorem startTask_eq {s : State} {li : Nat} {im : Image} (him : (s.launch li).img = some im) (c i : Nat) (hold : Option Nat) :
    s.startTask li c i hold =
      let t := (((s.makeRoom c im).placeTask s im li c i hold).putData im c).acquired (s.launch li) c
      if (s.argsAt li c).isNone then t.endFaulted c else t := by
  rw [State.startTask, him]
  rfl

theorem startTask_starts {s : State} {li : Nat} {im : Image} (him : (s.launch li).img = some im) (c i : Nat) (hold : Option Nat) :
    ∃ t, s.Starts t im li c i hold ∧ s.startTask li c i hold = if (s.argsAt li c).isNone then t.endFaulted c else t :=
  ⟨_, ((placeTask_starts (makeRoom_storesOnly s c im) im li c i hold).storesOnly (putData_storesOnly _ im c)).storesOnly (acquired_storesOnly _ _ c),
    startTask_eq him c i hold⟩

theorem seenBy_kept {α : Type} (f : Core → α) (hf : ∀ k x h ic fo, f { k with seen := x, hist := h, icache := ic, foreign := fo } = f k)
    (k : Core) (li ctx : Nat) : f (k.seenBy li ctx) = f k := by
  rw [Core.seenBy]
  split
  · rfl
  · exact hf _ _ _ _ _

/-! ## A task binds -/

theorem bindTask_free {s : State} {li c : Nat} (hs : (s.launch li).state = .eligible ∧ s.fabricGate (s.launch li) = 0 ∨ (s.launch li).state = .running)
    (ht : (s.launch li).tagged = true) (hn : (s.launch li).nextTask < (s.launch li).ntasks) (hc : c < 2048 / 2 ^ (s.launch li).shape)
    (hm : s.mayTake li c = true) :
    s.bindTask li c = (s.startTask li c (s.launch li).nextTask none).modLaunch li (fun x => { x with state := .running, nextTask := x.nextTask + 1 }) := by
  have hc' : c < shapeCores 0 (s.launch li).shape := hc
  have ha : ((s.launch li).tagged && ((s.launch li).state == .running || s.fabricGate (s.launch li) == 0) &&
      decide ((s.launch li).nextTask < (s.launch li).ntasks) && decide (c < shapeCores 0 (s.launch li).shape) && s.mayTake li c) = true := by
    rcases hs with ⟨_, hg⟩ | hs
    · simp [ht, hn, hc', hm, hg]
    · simp [ht, hn, hc', hm, hs]
  rw [State.bindTask]
  rw [if_pos ha]
  rcases hs with ⟨hs, _⟩ | hs <;> rw [hs]

theorem bindTask_taken {s : State} {li c : Nat} (hm : s.mayTake li c = false) : s.bindTask li c = s := by
  rw [State.bindTask]
  simp only [hm, Bool.and_false]
  split <;> rfl

/-- A task's state at its start, as R30, R33, R48, R49 and R58 name it: what a bind sets, and what it clears. -/
theorem taskStart_cleared (k : Core) (x : Ctx) (im : Image) (li i ctx : Nat) (tagged : Bool) (args : Nat → Nat) (gen : Nat) (hold : Option Nat) :
    let q := taskStart k x im li i ctx tagged args gen hold
    q.lcyc = 0 ∧ q.phase = 0 ∧ q.p = 0 ∧ (∀ r ∈ q.v, r = 0) ∧ q.held = [] ∧ q.mops = [] := by
  have kept {α : Type} (f : Core → α) (hf : ∀ k x h ic fo, f { k with seen := x, hist := h, icache := ic, foreign := fo } = f k) :
      f (k.emptied.seenBy li ctx) = f k.emptied := seenBy_kept f hf _ li ctx
  refine ⟨kept Core.lcyc fun _ _ _ _ _ => rfl, kept Core.phase fun _ _ _ _ _ => rfl, kept Core.p fun _ _ _ _ _ => rfl, ?_,
    kept Core.held fun _ _ _ _ _ => rfl, kept Core.mops fun _ _ _ _ _ => rfl⟩
  have hv : (taskStart k x im li i ctx tagged args gen hold).v = k.emptied.v := kept Core.v fun _ _ _ _ _ => rfl
  intro r hr
  rw [hv] at hr
  exact List.eq_of_mem_replicate hr

theorem taskStart_g (k : Core) (x : Ctx) (im : Image) (li i ctx : Nat) (tagged : Bool) (args : Nat → Nat) (gen : Nat) (hold : Option Nat) {j : Nat}
    (hj : j < 64) : (taskStart k x im li i ctx tagged args gen hold).g.getD j 0 = if j < 16 then u64 (args (16 + j)) else 0 := by
  have hg : (taskStart k x im li i ctx tagged args gen hold).g = (List.range 64).map (fun j => if j < 16 then u64 (args (16 + j)) else 0) := rfl
  rw [hg, List.getD_eq_getElem _ _ (by simpa using hj), List.getElem_map, List.getElem_range]

/-! ## A gang starts -/

/-- A core holds a task of a launch as a gang's start leaves it. -/
def Core.gangPlaced (k : Core) (li : Nat) (im : Image) : Prop := k.bound = true ∧ k.launch = li ∧ k.pc = im.entry ∧ k.lcyc = 0

theorem gangPlaced_congr {k q : Core} (h : q.besideCopies = k.besideCopies) (li : Nat) (im : Image) : q.gangPlaced li im ↔ k.gangPlaced li im := by
  change q.besideCopies.gangPlaced li im ↔ k.besideCopies.gangPlaced li im
  rw [h]

theorem taskStart_gangPlaced (k : Core) (x : Ctx) (im : Image) (li i ctx : Nat) (tagged : Bool) (args : Nat → Nat) (gen : Nat) (hold : Option Nat) :
    (taskStart k x im li i ctx tagged args gen hold).gangPlaced li im :=
  ⟨rfl, rfl, rfl, (taskStart_cleared k x im li i ctx tagged args gen hold).1⟩

theorem endFaulted_core (s : State) (c d : Nat) :
    (s.endFaulted c).core d = if d = c then { s.core d with status := .drain, held := [], trapWait := false } else s.core d := by
  rw [State.endFaulted, modLaunch_look_core, core_modCore]

/-- A launch but for whether a task of it has faulted. -/
def Launch.besideFault (l : Launch) : Launch := { l with faulted := false }

theorem endFaulted_besideFault (s : State) (c n : Nat) : ((s.endFaulted c).launch n).besideFault = (s.launch n).besideFault := by
  rw [State.endFaulted, launch_modLaunch]
  split <;> rfl

theorem startTask_besideFault {s : State} {li : Nat} {im : Image} (him : (s.launch li).img = some im) (c i : Nat) (hold : Option Nat) (n : Nat) :
    ((s.startTask li c i hold).launch n).besideFault = (s.launch n).besideFault := by
  obtain ⟨t, hst, ht⟩ := startTask_starts him c i hold
  rw [ht, ← hst.launch n]
  split
  · exact endFaulted_besideFault t c n
  · rfl

/-- One task of a gang: its core is placed, also where its arguments cannot be read, and every other stays as it is. -/
theorem startTask_gangPlaced {s : State} {li : Nat} {im : Image} (him : (s.launch li).img = some im) (c i : Nat) (hold : Option Nat) :
    ∀ d, (d = c ∨ (s.core d).gangPlaced li im) → ((s.startTask li c i hold).core d).gangPlaced li im := by
  intro d hd
  obtain ⟨t, hst, ht⟩ := startTask_starts him c i hold
  obtain ⟨k, x, g, hk⟩ := hst.core
  have hplaced : (t.core d).gangPlaced li im := by
    by_cases h : d = c
    · rw [h, gangPlaced_congr hk]
      exact taskStart_gangPlaced ..
    · rw [gangPlaced_congr (hst.others d h)]
      exact hd.resolve_left h
  rw [ht]
  split
  · have ⟨_, hl, hpc, hcyc⟩ := hplaced
    rw [endFaulted_core]
    split
    · exact ⟨rfl, hl, hpc, hcyc⟩
    · exact hplaced
  · exact hplaced

/-- The tasks of a gang one after another: every core of the list is placed, and the launch is what it was. -/
theorem startTasks_gangPlaced {li : Nat} {im : Image} (hold : Option Nat) (ps : List (Nat × Nat)) (s : State) (him : (s.launch li).img = some im) :
    let t := ps.foldl (fun t p => t.startTask li p.2 p.1 hold) s
    (t.launch li).besideFault = (s.launch li).besideFault ∧
      ∀ d, (d ∈ ps.map Prod.snd ∨ (s.core d).gangPlaced li im) → (t.core d).gangPlaced li im := by
  induction ps generalizing s with
  | nil => exact ⟨rfl, fun d hd => by simpa using hd⟩
  | cons p ps ih =>
    have hkept := startTask_besideFault him p.2 p.1 hold li
    obtain ⟨hfault, hplaced⟩ := ih (s.startTask li p.2 p.1 hold) ((congrArg Launch.img hkept :).trans him)
    refine ⟨hfault.trans hkept, fun d hd => hplaced d ?_⟩
    rw [List.map_cons, List.mem_cons, or_right_comm] at hd
    exact hd.symm.imp id (startTask_gangPlaced him p.2 p.1 hold d)

theorem runGang_starts {s : State} {li : Nat} {im : Image} (him : (s.launch li).img = some im) (hold : Option Nat) :
    ((s.runGang li hold).launch li).state = .running ∧ ((s.runGang li hold).launch li).nextTask = (s.launch li).ntasks ∧
      ∀ d ∈ s.needs li, ((s.runGang li hold).core d).gangPlaced li im := by
  obtain ⟨hfault, hplaced⟩ := startTasks_gangPlaced hold ((List.range (s.needs li).length).zip (s.needs li)) s him
  rw [State.runGang, launch_modLaunch_same]
  refine ⟨rfl, (congrArg Launch.ntasks hfault :), fun d hd => ?_⟩
  rw [modLaunch_look_core]
  refine hplaced d (.inl ?_)
  rwa [List.map_snd_zip (by simp)]

theorem gangStart_held {s : State} {li : Nat} {im : Image} (hs : (s.launch li).state = .reserving) (hh : s.held li = true)
    (hg : s.fabricGate (s.launch li) = 0) (ht : (s.launch li).ttid = 0) (him : (s.launch li).img = some im) (hd : im.hasDies = false) :
    s.gangStart li = (s.runGang li none).modLaunch li (fun x => { x with partner := none }) := by
  rw [State.gangStart, hs]
  simp [hh, hg, ht, him, hd]

theorem gangStart_unheld {s : State} {li : Nat} (hs : (s.launch li).state = .reserving) (hh : s.held li = false) : s.gangStart li = s := by
  rw [State.gangStart, hs]
  simp [hh]

/-! ## A launch is done -/

/-- The event bits that a launch sets when it is done. -/
def Launch.setBits (l : Launch) (is : List Nat) : List (Nat × Nat) := (is.filter (fun i => l.set.getLsbD i)).map (fun i => (l.ctx, i))

theorem lateEvents_of_set (l : Launch) (is : List Nat) (s : State) :
    is.foldl (fun t i => if l.set.getLsbD i then t.lateEvent l.ctx i else t) s = { s with evLate := s.evLate ++ l.setBits is } := by
  induction is generalizing s with
  | nil => simp [Launch.setBits]
  | cons i is ih =>
    rw [List.foldl_cons, ih]
    by_cases hb : l.set.getLsbD i = true
    · simp [hb, Launch.setBits, State.lateEvent]
    · simp [hb, Launch.setBits]

theorem applySet_eq (s : State) (l : Launch) : s.applySet l = { s with evLate := s.evLate ++ l.setBits (List.range 256) } := lateEvents_of_set l _ s

theorem mem_setBits {l : Launch} {i : Nat} (hi : i < 256) (h : l.set.getLsbD i = true) : (l.ctx, i) ∈ l.setBits (List.range 256) :=
  List.mem_map.mpr ⟨i, List.mem_filter.mpr ⟨List.mem_range.mpr hi, h⟩, rfl⟩

theorem complete_good (s : State) (li : Nat) {status : Nat} (h : status ≠ 2) :
    s.complete li status = ((s.applySet (s.launch li)).writeCw (s.launch li) status).modLaunch li Launch.over := by
  rw [State.complete, if_neg h]
  rfl

theorem writeCw_stored {s : State} {l : Launch} {loc : Nat} (status : Nat) (ha : l.cwaddr ≠ 0) (hsc : 4 ≤ scopeRank l.cwscope)
    (hx : s.xlateCtx l.ctx l.cwaddr { w := true } = .ok loc) (hp : ∀ p q, placeOf loc ≠ .carafe p q) :
    Stored s (s.writeCw l status) l.die loc (toBytes 8 (status + l.exits * 256)) := by
  rw [State.writeCw, if_neg ha, hx]
  dsimp only
  split
  · next hc => exact absurd hc (hp _ _)
  · exact logicWrite_stored _ _ _ _ (toBytes_ne_nil _ (by decide)) hsc

/-- A launch that ends other than refused is done as R27 says. -/
theorem complete_finished (s : State) (li : Nat) {status : Nat} (h : status ≠ 2) : Finished s (s.complete li status) li status := by
  rw [complete_good s li h, applySet_eq]
  refine ⟨?_, fun i hi hbit => ?_, fun ha => ?_, fun loc ha h4 h7 hx hp => ?_⟩
  · rw [launch_modLaunch_same]
    rfl
  · have hlate := (writeCw_storesOnly { s with evLate := s.evLate ++ (s.launch li).setBits (List.range 256) } (s.launch li) status).evLate
    change (_, i) ∈ State.evLate (State.writeCw _ _ _)
    rw [hlate]
    exact List.mem_append_right _ (mem_setBits hi hbit)
  · rw [State.writeCw, if_pos ha]
    rfl
  · have hsc : 4 ≤ scopeRank (s.launch li).cwscope := by
      rw [scopeRank, if_neg (by omega)]
      exact h4
    exact writeCw_stored (s := { s with evLate := s.evLate ++ (s.launch li).setBits (List.range 256) }) status ha hsc hx hp

theorem launchEnd_all {s : State} {li : Nat} (hs : (s.launch li).state = .running) (hc : s.coresOf li = []) (he : (s.launch li).ended = (s.launch li).ntasks) :
    s.launchEnd li = s.complete li (if (s.launch li).faulted then 3 else 0) := by
  rw [State.launchEnd]
  simp only [hc, hs, List.filter_nil, List.foldl_nil, List.all_nil, if_true, ite_self, he]

/-! ## A task leaves its core -/

theorem endDrain_core (s : State) (c : Nat) : ((s.endDrain c).core c).launch = (s.core c).launch := by
  rw [State.endDrain]
  split
  · rfl
  · rw [core_modCore_same]
    exact (congrArg Core.launch ((drainTo_storesOnly s c 4 true).cores c) :)

theorem endDrain_launch (s : State) (c n : Nat) : (s.endDrain c).launch n = s.launch n := by
  rw [State.endDrain]
  split
  · rfl
  · rw [modCore_look_launch]
    exact (drainTo_storesOnly s c 4 true).launch n

/-- After HALT the physical core of a task is out of dispatch. -/
def State.haltOut (s : State) (c : Nat) : State :=
  match s.physCore (s.core c).ctx c with
  | some p => if (s.core c).haltEnd then s.modDie (dieOf c) (fun d => { d with outCores := p :: d.outCores }) else s
  | none => s

/-- One more task of a launch has ended. -/
def Launch.oneEnded (l : Launch) : Launch := { l with ended := l.ended + 1 }

theorem haltOut_launches (s : State) (c : Nat) : (s.haltOut c).launches = s.launches := by
  unfold State.haltOut
  repeat' split
  all_goals rfl

theorem freeCore_eq (s : State) (c : Nat) :
    s.freeCore c = ((s.haltOut c).modCore c Core.emptied).modLaunch (s.core c).launch Launch.oneEnded := rfl

theorem freeCore_core (s : State) (c : Nat) : ((s.freeCore c).core c).bound = false := by
  rw [freeCore_eq, modLaunch_look_core, core_modCore_same]
  rfl

theorem freeCore_launch (s : State) (c : Nat) {li : Nat} (hl : (s.core c).launch = li) : (s.freeCore c).launch li = (s.launch li).oneEnded := by
  have hsame : (s.haltOut c).launch li = s.launch li := by rw [State.launch, haltOut_launches, State.launch]
  rw [freeCore_eq, hl, launch_modLaunch_same, modCore_look_launch, hsame]

theorem launchEnd_one {s : State} {li c : Nat} (hs : (s.launch li).state = .running) (ht : (s.launch li).tagged = true) (hc : s.coresOf li = [c])
    (he : s.ended c = true) (hl : (s.endDrain c).leaves c = true) (hn : (((s.endDrain c).freeCore c).launch li).ended ≠ (s.launch li).ntasks) :
    s.launchEnd li = (s.endDrain c).freeCore c := by
  rw [State.launchEnd]
  simp only [hc, hs, ht, List.filter_cons, he, hl, if_true, List.filter_nil, List.foldl_cons, List.foldl_nil, hn, if_false]

/-- Settles O45: a start is a step that makes stores and sets one core, and a launch that is done has set its bits and stored its word. -/
theorem launchesStartAndEnd : Obligations.LaunchesStartAndEnd := by
  unfold Obligations.LaunchesStartAndEnd
  intro s li c l
  refine ⟨fun hs hw => ?eligible, fun h => ?waits, fun im bs hs ht hn hc hm him hargs => ?bind, fun hm => ?taken,
    fun im hs hh hg ht him hd => ?gang, fun hs hh => ?unheld, fun hs hc he => ?done, fun hs ht hc hl he hleave hn => ?leaves⟩
  case eligible => rw [exec_launchEligible, eligible_waiting hs, if_pos hw]
  case waits =>
    rw [exec_launchEligible]
    by_cases hs : l.state = .waiting
    · rw [eligible_waiting hs, if_neg (h.resolve_left (not_not_intro hs))]
    · rw [eligible_settled hs]
  case bind =>
    obtain ⟨t, hst, ht'⟩ := startTask_starts him c l.nextTask none
    obtain ⟨k, x, g, hk⟩ := hst.core
    have hread : s.argsAt li c = some bs := hargs
    rw [hread] at hk ht'
    replace ht' : s.startTask li c l.nextTask none = t := ht'
    obtain ⟨hcyc, hphase, hp, hv, hheld, hmops⟩ := taskStart_cleared k x im li l.nextTask (s.taskCtx l (dieOf c)) l.tagged (argWord (some bs)) g none
    rw [exec_taskBind, bindTask_free hs ht hn hc hm, ht']
    refine ⟨_, rfl, by rw [launch_modLaunch_same], by rw [launch_modLaunch_same]; exact congrArg (fun r : Launch => r.nextTask + 1) (hst.launch li), ?_⟩
    rw [modLaunch_look_core]
    refine ⟨(congrArg Core.status hk :), (congrArg Core.launch hk :), (congrArg Core.tid hk :), (congrArg Core.tagged hk :).trans ht,
      (congrArg Core.ctx hk :), (congrArg Core.pc hk :), (congrArg Core.cb hk :), (congrArg Core.lcyc hk :).trans hcyc,
      (congrArg Core.phase hk :).trans hphase, fun j hj => ?_, (congrArg Core.p hk :).trans hp, ?_, (congrArg Core.held hk :).trans hheld,
      (congrArg Core.mops hk :).trans hmops⟩
    · rw [show (t.core c).g = _ from (congrArg Core.g hk :)]
      exact taskStart_g k x im li l.nextTask (s.taskCtx l (dieOf c)) l.tagged (argWord (some bs)) g none hj
    · rw [show (t.core c).v = _ from (congrArg Core.v hk :)]
      exact hv
  case taken => rw [exec_taskBind, bindTask_taken hm]
  case gang =>
    obtain ⟨hstate, hnext, hplaced⟩ := runGang_starts him none
    rw [exec_gangStart, gangStart_held hs hh hg ht him hd]
    refine ⟨_, rfl, ?_, ?_, fun d hneed => ?_⟩
    · rw [launch_modLaunch_same]
      exact hstate
    · rw [launch_modLaunch_same]
      exact hnext
    · rw [modLaunch_look_core]
      exact hplaced d hneed
  case unheld => rw [exec_gangStart, gangStart_unheld hs hh]
  case done =>
    rw [exec_launchComplete, launchEnd_all hs hc he]
    refine ⟨_, rfl, complete_finished s li ?_⟩
    split <;> decide
  case leaves =>
    have hfree := freeCore_launch (s.endDrain c) c ((endDrain_core s c).trans hl)
    rw [endDrain_launch] at hfree
    have hended : (((s.endDrain c).freeCore c).launch li).ended = l.ended + 1 := by
      rw [hfree]
      rfl
    rw [exec_launchComplete, launchEnd_one hs ht hc he hleave (by rw [hended]; exact Nat.ne_of_lt hn)]
    exact ⟨_, rfl, freeCore_core _ c, hended, by rw [hfree]; exact hs⟩

end Sys2Proof.Machine
end

section
/-! SUPPORT. What a checkpoint saves (R314), and a package in which it saves one task twice. -/

namespace Sys2Proof.Machine

open Sys2Proof.Claims

theorem exec_checkpointSave (li : Nat) (s : State) : exec (.checkpointSave li) s = .next (s.checkpoint li) := rfl

theorem checkpoint_fenced {s : State} {li : Nat} (hs : (s.launch li).state = .saving) (hr : s.saveReady li = true)
    (hf : (s.saveFence li).fenced li = true) : s.checkpoint li = (s.saveFence li).saveNow li := by
  rw [State.checkpoint, hs, if_pos hr, if_pos hf]

/-! ## Images and the report leave the launches -/

theorem vWrite_storesOnly {s t : State} {c ctx fuel va : Nat} {bs : List Byte} (h : s.vWrite c ctx fuel va bs = .ok t) : s.StoresOnly t := by
  induction fuel generalizing s va bs with
  | zero =>
    cases h
    exact .refl _
  | succ fuel ih =>
    rw [State.vWrite] at h
    split at h
    · cases h
      exact .refl _
    · dsimp only at h
      split at h
      · cases h
      · refine State.StoresOnly.trans ?_ (ih h)
        split
        · exact stall_storesOnly ..
        · exact homeWrite_storesOnly ..

/-- A write at an address of a core's context; one that faults is not made. -/
def State.vWriteAt (t : State) (c a : Nat) (b : List Byte) : State :=
  match t.vWrite noCore (t.core c).ctx 2 a b with
  | .ok u => u
  | .error _ => t

theorem vWriteAt_storesOnly (t : State) (c a : Nat) (b : List Byte) : t.StoresOnly (t.vWriteAt c a b) := by
  unfold State.vWriteAt
  split
  · next h => exact vWrite_storesOnly h
  · exact .refl t

theorem putImage_eq (s : State) (c va : Nat) :
    s.putImage c va = ((((List.range ((s.imageBytes c).length / 64 + 1)).foldl
      (fun t i => t.vWriteAt c (va + 64 * i) (((s.imageBytes c).drop (64 * i)).take 64)) s)).modCore c (fun k => { k with imageKey := s.fresh })).tick1 := rfl

theorem putImage_launches (s : State) (c va : Nat) : (s.putImage c va).launches = s.launches := by
  rw [putImage_eq]
  exact (State.StoresOnly.foldl (fun t _ => vWriteAt_storesOnly t c _ _) _ s).launches

theorem putImages_launches (s : State) (li ctx : Nat) : (s.putImages li ctx).launches = s.launches := by
  rw [State.putImages]
  exact foldl_keeps (fun t : State × Nat => t.1.launches) _ (fun t c => putImage_launches t.1 c t.2) _ _

theorem report_launches (s : State) (l : Launch) (code : Nat) : (s.report l code).launches = s.launches := by
  unfold State.report
  dsimp only
  repeat' split
  · rfl
  · exact (logicWrite_storesOnly ..).launches
  · rfl

/-! ## How many tasks are saved -/

theorem saveTasks_length (li : Nat) (cs : List Nat) (s : State) :
    ((cs.foldl (fun t c => t.saveTask li c) s).launch li).saved.length = (s.launch li).saved.length + cs.length := by
  induction cs generalizing s with
  | nil => rfl
  | cons c cs ih =>
    rw [List.foldl_cons, ih, State.saveTask, modCore_look_launch, launch_modLaunch_same, List.length_append, List.length_cons, List.length_nil,
      List.length_cons]
    omega

theorem saveNow_length (s : State) (li : Nat) : ((s.saveNow li).launch li).saved.length = (s.launch li).saved.length + (s.byTask li).length := by
  have himages (xs : List Nat) : (xs.foldl (fun t x => t.putImages li x) s).launches = s.launches :=
    foldl_keeps State.launches _ (fun t x => putImages_launches t li x) xs s
  rw [State.saveNow, launch_modLaunch_same]
  dsimp only
  rw [saveTasks_length, State.launch, report_launches, himages, State.launch]

/-! ## A core table out of order -/

/-- Core 3 holds a stopped task of a launch that saves, and a line with a dirty byte; it stands behind core 7 in the table of cores, where a
lookup finds it and a write, which keeps the table rising, puts a second entry before it. -/
def unsortedCores : State :=
  { State.reset with cores := [(7, {}), (3, { status := .stopped, l1 := [(0, { dirty := 1 })] })], launches := [(0, { state := .saving })] }

theorem unsortedCores_saves : (unsortedCores.launch 0).state = .saving ∧ unsortedCores.saveReady 0 = true ∧
    (unsortedCores.saveFence 0).fenced 0 = true ∧ unsortedCores.byTask 0 = [3] ∧ (unsortedCores.core 3).launch = 0 := by
  decide +kernel

/-- The fence writes core 3 back: the table names it twice, and so does the list of tasks to save. -/
theorem unsortedCores_twice : (unsortedCores.launch 0).saved = [] ∧ ((unsortedCores.saveFence 0).launch 0).saved = [] ∧
    (unsortedCores.saveFence 0).byTask 0 = [3, 3] := by
  decide +kernel

/-- Refutes O46: in a package whose table of cores is out of order, a save whose fence writes a line back keeps its one task twice. -/
theorem not_launchesGiveWayAndComeBack : ¬ Obligations.LaunchesGiveWayAndComeBack := by
  unfold Obligations.LaunchesGiveWayAndComeBack
  intro h
  obtain ⟨hstate, hready, hfenced, htask, hlaunch⟩ := unsortedCores_saves
  obtain ⟨hnone, hsaved, htwice⟩ := unsortedCores_twice
  obtain ⟨_, _, hsave, _⟩ := h unsortedCores 0 0 3
  obtain ⟨t, k', hexec, _, hone, _⟩ := hsave hstate hready hfenced htask hlaunch
  rw [exec_checkpointSave, checkpoint_fenced hstate hready hfenced] at hexec
  have ht : (unsortedCores.saveFence 0).saveNow 0 = t := Host.Outcome.next.inj hexec
  have htwo := saveNow_length (unsortedCores.saveFence 0) 0
  rw [ht, hone, hnone, hsaved, htwice] at htwo
  simp at htwo

end Sys2Proof.Machine
end

section
/-! SUPPORT. A trigger of c acts on the core as its bundle's end has left it (R113, R132 to R144). -/

namespace Sys2Proof.Machine

open Sys2Proof.Claims

theorem exec_loop (src : BitVec 9) (l : BitVec 3) (g : BitVec 6) (s : State) : exec (.loop src l g) s = s.execSlot (.loop src l g) := rfl
theorem exec_exit (src : BitVec 9) (g : BitVec 6) (s : State) : exec (.exit src g) s = s.execSlot (.exit src g) := rfl
theorem exec_trap (src : BitVec 9) (g : BitVec 6) (s : State) : exec (.trap src g) s = s.execSlot (.trap src g) := rfl
theorem exec_brk (src : BitVec 9) (g : BitVec 6) (s : State) : exec (.brk src g) s = s.execSlot (.brk src g) := rfl
theorem exec_idle (src : BitVec 9) (g : BitVec 6) (s : State) : exec (.idle src g) s = s.execSlot (.idle src g) := rfl
theorem exec_yieldp (src : BitVec 9) (g : BitVec 6) (s : State) : exec (.yieldp src g) s = s.execSlot (.yieldp src g) := rfl
theorem exec_tfence (src : BitVec 9) (g : BitVec 6) (s : State) : exec (.tfence src g) s = s.execSlot (.tfence src g) := rfl

/-! ## The state that a trigger of c finds -/

/-- A state as the bundle of i has left it: what the trigger of i, of au or c, acts on. -/
structure State.Ended (s s1 : State) (i : Instr) : Prop where
  only : s.OnlyCore s1 i
  kept : s.me.Bookkept (s1.core s.cur) i.rowTiles

/-- An operation of c in a slot of a bus: no barrier, no joint product. -/
structure State.ControlOp (s : State) (i : Instr) : Prop where
  trigger : i.isPlain = false
  noBar : barOf i = none
  single : isMmaq i = false
  unit : isAuOrC (s.act1 i) = true

theorem closed1_ended {s : State} {i : Instr} (h : s.Clear i) (hp : i.isPlain = false) : s.Ended (s.closed1 (s.ready1 i) i) i := by
  rw [ready1_trigger s i hp]
  refine ⟨closed1_only s _ i hp (onlyCore_setCore s _ i), bookkept_of_sticky _ _ _ (s.act1 i) true ?_⟩
  have hrep : ((s.setCore s.cur (s.me.setStickyOf (s.act1 i) true)).core s.cur).rep = 0 := by
    rw [core_setCore_same, setStickyOf_eq]
    exact h.first
  have hkept := closed1_kept s (s.setCore s.cur (s.me.setStickyOf (s.act1 i) true)) i hp hrep
  rwa [core_setCore_same] at hkept

/-- What the trigger's state comes to is what the instruction comes to. -/
theorem execSlot_ended {s : State} {i : Instr} (hc : s.ControlOp i) (hi : isIdle i = false) (h : s.Clear i) :
    ∃ s1, s.Ended s1 i ∧ ∀ t, fireSlot i (s.act1 i).ic s1 = .ok t → s.execSlot i = .next (s.fin1 t) :=
  ⟨_, closed1_ended h hc.trigger, fun t hf => exec_control s i h hc.noBar hc.single hi hc.unit t hf⟩

/-- A trigger that gives the core the registers f k, k being what its bundle has left. -/
theorem givesLast_of_fire {s : State} {i : Instr} {f : Core → Core} (hx : exec i s = s.execSlot i) (hc : s.ControlOp i) (hi : isIdle i = false)
    (hf : ∀ s1, s.Ended s1 i → ∃ t, fireSlot i (s.act1 i).ic s1 = .ok t ∧ s.OnlyCore t i ∧ t.core s.cur = f (s1.core s.cur)) : GivesLast s i f := by
  intro h
  obtain ⟨s1, he, hexec⟩ := execSlot_ended hc hi h
  obtain ⟨t, hfire, honly, hcore⟩ := hf s1 he
  refine ⟨s.fin1 t, s1.core s.cur, hx.trans (hexec t hfire), fin1_only s t i honly, he.kept, ?_⟩
  rw [fin1_core, hcore]

/-- A trigger that stops. -/
theorem stops_of_fire {s : State} {i : Instr} {st : Stop} (hx : exec i s = s.execSlot i) (hc : s.ControlOp i)
    (hf : ∀ s1, s.Ended s1 i → fireSlot i (s.act1 i).ic s1 = .error st) : Stops s i st :=
  fun h => hx.trans (exec_control_stop s i h hc.noBar hc.single hc.unit st (hf _ (closed1_ended h hc.trigger)))

theorem onlyCore_modCore {s t : State} {i : Instr} (h : s.OnlyCore t i) (f : Core → Core) : s.OnlyCore (t.modCore s.cur f) i where
  rest := by
    rw [h.rest]
    rfl
  others d hd := (core_modCore_ne t s.cur d f hd).trans (h.others d hd)
  queues hp := h.queues hp

/-- A trigger that changes the registers of its core alone. -/
theorem givesLast_of_modCore {s : State} {i : Instr} {f : Core → Core} (hx : exec i s = s.execSlot i) (hc : s.ControlOp i) (hi : isIdle i = false)
    (hf : ∀ s1, s.Ended s1 i → fireSlot i (s.act1 i).ic s1 = .ok (s1.modCore s.cur f)) : GivesLast s i f :=
  givesLast_of_fire hx hc hi fun s1 he => ⟨_, hf s1 he, onlyCore_modCore he.only f, core_modCore_same s1 s.cur f⟩

namespace State.Ended

section
variable {s s1 : State} {i : Instr} (h : s.Ended s1 i)
include h

theorem sop : (s1.core s.cur).sop = s.me.sop := (congrArg Core.sop h.kept.frame :)
theorem launch : (s1.core s.cur).launch = s.me.launch := (congrArg Core.launch h.kept.frame :)
theorem ctx : (s1.core s.cur).ctx = s.me.ctx := (congrArg Core.ctx h.kept.frame :)
theorem clk : (s1.core s.cur).clk = s.me.clk := (congrArg Core.clk h.kept.frame :)
theorem next : (s1.core s.cur).next = s.me.next := (congrArg Core.next h.kept.frame :)
theorem lcyc : (s1.core s.cur).lcyc = s.me.lcyc := (congrArg Core.lcyc h.kept.frame :)
theorem held : (s1.core s.cur).held = s.me.held := (congrArg Core.held h.kept.frame :)
theorem yieldFlag : (s1.core s.cur).yieldFlag = s.me.yieldFlag := (congrArg Core.yieldFlag h.kept.frame :)

theorem launches : s1.launches = s.launches := (congrArg State.launches h.only.rest :)
theorem ctxs : s1.ctxs = s.ctxs := (congrArg State.ctxs h.only.rest :)
theorem mem : s1.mem = s.mem := (congrArg State.mem h.only.rest :)
theorem now : s1.now = s.now := (congrArg State.now h.only.rest :)

theorem coreCtx : s1.coreCtx s.cur = s.coreCtx s.cur := by rw [State.coreCtx, State.ctx, h.ctxs, h.ctx]; rfl

theorem tableTrip (l : Nat) : s1.tableTrip s.cur l = s.tableTrip s.cur l := by
  rw [State.tableTrip, State.launch, h.launches, h.launch]
  rfl

end

end State.Ended

/-! ## LOOP -/

theorem noTransfer_iff (s : State) (i : Instr) : (s.act1 i).ic.noTransfer = false ↔ MayTransfer s := by
  change (s.me.xfer.isSome || s.me.loops.any (fun l => l.active && l.fin == s.me.pc)) = false ↔ _
  simp [MayTransfer]

/-- A LOOP that R136 allows. -/
def State.LoopLegal (s : State) (i : Instr) : Prop :=
  (s.src1 i).toNat < 2 ^ 32 ∧ (s.src1 i).toNat % 4 = 0 ∧ (s.me.sop.getD 5 0).toNat < 2 ^ 32 ∧ (s.me.pc + 8) % 2 ^ 56 ≤ s.me.cb + (s.src1 i).toNat ∧ MayTransfer s

/-- The level that a LOOP opens. -/
def State.loopOpened (s : State) (i : Instr) (trip : Nat) : LoopRec :=
  { active := true, remaining := trip, start := (s.me.pc + 8) % 2 ^ 56, fin := (s.me.cb + (s.src1 i).toNat) % 2 ^ 56 }

def Core.openLoop (n : Nat) (r : LoopRec) (k : Core) : Core := { k with loops := k.loops.set n r }

/-- A LOOP whose body is skipped: the bundle after the body end issues one cycle later. -/
def State.loopSkipped (s1 s : State) (i : Instr) (l : Nat) : State :=
  (s1.modCore s.cur (fun k => { k with
    pc := s1.afterBundle s.cur ((s.me.cb + (s.src1 i).toNat) % 2 ^ 56), hold := some (k.lcyc + 2), loops := k.loops.set l {} })).tick1

theorem loop_control (s : State) (src : BitVec 9) (l : BitVec 3) (g : BitVec 6) : s.ControlOp (.loop src l g) := ⟨rfl, rfl, rfl, rfl⟩

section
variable {s s1 : State} {src : BitVec 9} {l : BitVec 3} {g : BitVec 6} (h : s.Ended s1 (.loop src l g))
include h

theorem fireLoop_cases :
    fireSlot (.loop src l g) (s.act1 (.loop src l g)).ic s1 =
      if (s.act1 (.loop src l g)).ic.noTransfer || decide (2 ^ 32 ≤ (s.me.sop.getD 5 0).toNat) || decide (2 ^ 32 ≤ (s.src1 (.loop src l g)).toNat) ||
          (s.src1 (.loop src l g)).toNat % 4 != 0 || decide (s.me.cb + (s.src1 (.loop src l g)).toNat < (s.me.pc + 8) % 2 ^ 56) then
        .error (illegalOp s (.loop src l g))
      else
        let trip := if (s.me.sop.getD 5 0).toNat ≠ 0 then (s.me.sop.getD 5 0).toNat else s.tableTrip s.cur l.toNat
        if trip = 0 then .ok (s1.loopSkipped s (.loop src l g) l.toNat)
        else .ok (s1.modCore s.cur (Core.openLoop l.toNat (s.loopOpened (.loop src l g) trip))) := by
  rw [← h.sop, ← h.tableTrip]
  rfl

theorem fireLoop_legal (hl : s.LoopLegal (.loop src l g)) :
    fireSlot (.loop src l g) (s.act1 (.loop src l g)).ic s1 =
      let trip := if (s.me.sop.getD 5 0).toNat ≠ 0 then (s.me.sop.getD 5 0).toNat else s.tableTrip s.cur l.toNat
      if trip = 0 then .ok (s1.loopSkipped s (.loop src l g) l.toNat)
      else .ok (s1.modCore s.cur (Core.openLoop l.toNat (s.loopOpened (.loop src l g) trip))) := by
  obtain ⟨hx, h4, ho, hstart, hmay⟩ := hl
  have hmay := (noTransfer_iff s (.loop src l g)).mpr hmay
  rw [fireLoop_cases h, if_neg]
  simp only [hmay, h4, Bool.false_or, Bool.or_eq_true, decide_eq_true_eq, bne_self_eq_false]
  simp only [Bool.false_eq_true, or_false, not_or, Nat.not_le, Nat.not_lt]
  exact ⟨⟨ho, hx⟩, hstart⟩

theorem fireLoop_counted (hl : s.LoopLegal (.loop src l g)) (ho : (s.me.sop.getD 5 0).toNat ≠ 0) :
    fireSlot (.loop src l g) (s.act1 (.loop src l g)).ic s1 =
      .ok (s1.modCore s.cur (Core.openLoop l.toNat (s.loopOpened (.loop src l g) (s.me.sop.getD 5 0).toNat))) := by
  rw [fireLoop_legal h hl, if_pos ho]
  exact if_neg ho

theorem fireLoop_table (hl : s.LoopLegal (.loop src l g)) (ho : (s.me.sop.getD 5 0).toNat = 0) (ht : s.tableTrip s.cur l.toNat ≠ 0) :
    fireSlot (.loop src l g) (s.act1 (.loop src l g)).ic s1 =
      .ok (s1.modCore s.cur (Core.openLoop l.toNat (s.loopOpened (.loop src l g) (s.tableTrip s.cur l.toNat)))) := by
  rw [fireLoop_legal h hl, if_neg (not_not_intro ho)]
  exact if_neg ht

theorem fireLoop_skips (hl : s.LoopLegal (.loop src l g)) (ho : (s.me.sop.getD 5 0).toNat = 0) (ht : s.tableTrip s.cur l.toNat = 0) :
    fireSlot (.loop src l g) (s.act1 (.loop src l g)).ic s1 = .ok (s1.loopSkipped s (.loop src l g) l.toNat) := by
  rw [fireLoop_legal h hl, if_neg (not_not_intro ho)]
  exact if_pos ht

theorem fireLoop_illegal (hl : ¬ s.LoopLegal (.loop src l g)) :
    fireSlot (.loop src l g) (s.act1 (.loop src l g)).ic s1 = .error (illegalOp s (.loop src l g)) := by
  rw [fireLoop_cases h]
  refine if_pos (by_contra fun hno => hl ?_)
  simp only [Bool.or_eq_true, not_or, decide_eq_true_eq, bne_iff_ne, Nat.not_le, Nat.not_lt, ne_eq, not_not, Bool.not_eq_true] at hno
  obtain ⟨⟨⟨⟨hmay, ho⟩, hx⟩, h4⟩, hstart⟩ := hno
  exact ⟨hx, h4, ho, hstart, (noTransfer_iff s _).mp hmay⟩

end

theorem loops_getD_set (ls : List LoopRec) (n : Nat) (x : LoopRec) : (ls.set n x).getD n {} = if n < (ls.set n x).length then x else {} := by
  rw [List.length_set, List.getD_eq_getElem?_getD, List.getElem?_set_self']
  split
  · next h => simp [h]
  · next h => simp [Nat.le_of_not_lt h]

theorem loops_getD_reset (ls : List LoopRec) (n : Nat) : (ls.set n {}).getD n {} = {} := by
  rw [loops_getD_set, ite_self]

theorem afterBundle_ok {s : State} {c a : Nat} {bs : List Byte} (h : (s.fetchBytes c a 4).2 = .ok bs) :
    s.afterBundle c a = (a + bundleLen (ofBytes bs)) % 2 ^ 56 := by
  rw [State.afterBundle, h]

theorem loopSkipped_core (s1 s : State) (i : Instr) (l : Nat) :
    (s1.loopSkipped s i l).core s.cur = { s1.core s.cur with
      pc := s1.afterBundle s.cur ((s.me.cb + (s.src1 i).toNat) % 2 ^ 56), hold := some ((s1.core s.cur).lcyc + 2)
      loops := (s1.core s.cur).loops.set l {} } := by
  rw [State.loopSkipped, tick1_look_core, core_modCore_same]

theorem onlyCore_tick1 {s t : State} {i : Instr} (h : s.OnlyCore t i) : s.OnlyCore t.tick1 i where
  rest := by
    rw [h.rest]
    rfl
  others d hd := h.others d hd
  queues hp := h.queues hp

theorem loopOpensItsLevel : LoopOpensItsLevel := by
  intro s src l g i x o start legal
  refine ⟨fun hl ho => ?opens, fun hl ho hclear => ?table, fun hl => ?illegal⟩
  case opens => exact givesLast_of_modCore (exec_loop src l g s) (loop_control s src l g) rfl fun s1 he => fireLoop_counted he hl ho
  case illegal => exact stops_of_fire (exec_loop src l g s) (loop_control s src l g) fun s1 he => fireLoop_illegal he hl
  case table =>
    obtain ⟨s1, he, hexec⟩ := execSlot_ended (loop_control s src l g) rfl hclear
    change legal at hl
    rw [exec_loop]
    by_cases htrip : s.tableTrip s.cur l.toNat = 0
    · refine ⟨_, hexec _ (fireLoop_skips he hl ho htrip), fin1_only _ _ _ (onlyCore_tick1 (onlyCore_modCore he.only _)), fun h => absurd htrip h, fun _ => ?_⟩
      rw [fin1_core, loopSkipped_core]
      refine ⟨by rw [loops_getD_reset], by rw [he.lcyc], s1, he.only, he.kept, rfl, fun bs hbs => ?_⟩
      exact afterBundle_ok hbs
    · refine ⟨_, hexec _ (fireLoop_table he hl ho htrip), fin1_only _ _ _ (onlyCore_modCore he.only _), fun _ => ?_, fun h => absurd h htrip⟩
      rw [fin1_core, core_modCore_same]
      exact loops_getD_set _ _ _

/-! ## EXIT, TRAP and BRK -/

section
variable {s s1 : State} {src : BitVec 9} {g : BitVec 6}

theorem exit_control (s : State) (src : BitVec 9) (g : BitVec 6) : s.ControlOp (.exit src g) := ⟨rfl, rfl, rfl, rfl⟩
theorem trap_control (s : State) (src : BitVec 9) (g : BitVec 6) : s.ControlOp (.trap src g) := ⟨rfl, rfl, rfl, rfl⟩
theorem brk_control (s : State) (src : BitVec 9) (g : BitVec 6) : s.ControlOp (.brk src g) := ⟨rfl, rfl, rfl, rfl⟩

/-- A core whose task has reached its EXIT. -/
def Core.exited (k : Core) : Core := { k with status := .drain, stL := none, stX := none, stM := none }

/-- One more task of a launch has come to EXIT. -/
def Launch.oneExit (l : Launch) : Launch := { l with exits := l.exits + 1 }

theorem fireExit_eq (s s1 : State) (src : BitVec 9) (g : BitVec 6) :
    fireSlot (.exit src g) (s.act1 (.exit src g)).ic s1 = .ok ((s1.modCore s.cur Core.exited).modLaunch s.me.launch Launch.oneExit) := rfl

/-- The stop that TRAP takes: the software trap, resuming where the bundle has left the core. -/
def State.softTrap (s1 s : State) (i : Instr) : Stop :=
  { cause := 0x0F, slot := 0, info := fld (s.src1 i).toNat 15 0, baddr := some s.me.pc, resume := some (s1.core s.cur).pc }

theorem softTrap_eq (s1 s : State) (i : Instr) : s1.softTrap s i =
    { cause := 0x0F, slot := 0, info := (s.src1 i).toNat % 65536, baddr := some s.me.pc, resume := some (s1.core s.cur).pc } := by
  have hinfo : fld (s.src1 i).toNat 15 0 = (s.src1 i).toNat % 65536 := fld_low _ _
  rw [State.softTrap, hinfo]

theorem fireTrap_eq (s s1 : State) (src : BitVec 9) (g : BitVec 6) :
    fireSlot (.trap src g) (s.act1 (.trap src g)).ic s1 =
      .ok ((s1.takeStop s.cur (s1.softTrap s (.trap src g))).modCore s.cur (fun k => { k with softTick := true })) := rfl

theorem fireBrk_eq (s s1 : State) (src : BitVec 9) (g : BitVec 6) :
    fireSlot (.brk src g) (s.act1 (.brk src g)).ic s1 = .ok (if (s1.coreCtx s.cur).debug then s1.at_ (s1.now + 1) .debugFreeze else s1) := rfl

theorem fin1_mem (s t : State) : (s.fin1 t).mem = t.mem := by
  unfold State.fin1
  split <;> rfl

theorem fin1_agenda (s t : State) : (s.fin1 t).agenda = t.agenda := by
  unfold State.fin1
  split <;> rfl

theorem fin1_launch (s t : State) (n : Nat) : (s.fin1 t).launch n = t.launch n := by
  unfold State.fin1
  split <;> rfl

theorem fin1_core_ne (s t : State) {d : Nat} (hd : d ≠ s.cur) : (s.fin1 t).core d = t.core d := by
  unfold State.fin1 State.turned
  split <;> exact core_modCore_ne _ _ _ _ hd

theorem exitTrapAndBreakComplete : ExitTrapAndBreakComplete := by
  intro s src g
  refine ⟨fun h => ?exit, fun h => ?trap, fun h => ?brk⟩
  case exit =>
    obtain ⟨s1, he, hexec⟩ := execSlot_ended (exit_control s src g) rfl h
    refine ⟨_, s1.core s.cur, (exec_exit src g s).trans (hexec _ (fireExit_eq s s1 src g)), he.kept, ?_, ?_, fun d hd => ?_, ?_⟩
    · rw [fin1_core, modLaunch_look_core, core_modCore_same]
      rfl
    · rw [fin1_mem]
      exact he.mem
    · rw [fin1_core_ne _ _ hd, modLaunch_look_core, core_modCore_ne _ _ _ _ hd, he.only.others d hd]
    · rw [fin1_launch, launch_modLaunch_same, modCore_look_launch, State.launch, he.launches]
      rfl
  case trap =>
    obtain ⟨s1, he, hexec⟩ := execSlot_ended (trap_control s src g) rfl h
    refine ⟨_, s1, (exec_trap src g s).trans (hexec _ (fireTrap_eq s s1 src g)), he.only, he.kept, ?_⟩
    rw [fin1_core, core_modCore_same, softTrap_eq]
  case brk =>
    obtain ⟨s1, he, hexec⟩ := execSlot_ended (brk_control s src g) rfl h
    refine ⟨_, (exec_brk src g s).trans (hexec _ (fireBrk_eq s s1 src g)), fin1_kept _ _ _ _ ?_, ?_, fun hd => ?_, fun hd => fin1_only _ _ _ ?_⟩
    · split <;> exact he.kept
    · rw [fin1_mem]
      split <;> exact he.mem
    · rw [fin1_agenda, he.coreCtx, if_pos hd, he.now]
      exact mem_agenda_at _ _ _
    · rw [he.coreCtx, if_neg (Bool.eq_false_iff.mp hd)]
      exact he.only

end

/-! ## IDLE, YIELDP and TFENCE -/

theorem idle_control (s : State) (src : BitVec 9) (g : BitVec 6) : s.ControlOp (.idle src g) := ⟨rfl, rfl, rfl, rfl⟩
theorem yieldp_control (s : State) (src : BitVec 9) (g : BitVec 6) : s.ControlOp (.yieldp src g) := ⟨rfl, rfl, rfl, rfl⟩
theorem tfence_control (s : State) (src : BitVec 9) (g : BitVec 6) : s.ControlOp (.tfence src g) := ⟨rfl, rfl, rfl, rfl⟩

theorem fireYieldp_eq (s s1 : State) (src : BitVec 9) (g : BitVec 6) :
    fireSlot (.yieldp src g) (s.act1 (.yieldp src g)).ic s1 =
      .ok ((s1.modCore s.cur (fun k => k.later 1 false (.sres 5 (if (s1.core s.cur).yieldFlag then 1 else 0)))).modCore s.cur
        (fun k => { k with yieldFlag := false })) := rfl

theorem fireTfence_eq (s s1 : State) (src : BitVec 9) (g : BitVec 6) :
    fireSlot (.tfence src g) (s.act1 (.tfence src g)).ic s1 =
      match s.me.recs.find? (fun r => r.isSome) with
      | some (some a) => .error { cause := 0x0E, slot := 0, faddr := a, info := s.me.recset }
      | _ => .ok s1 := rfl

theorem fireTfence_unset {s : State} (s1 : State) (src : BitVec 9) (g : BitVec 6) (h : ∀ r ∈ s.me.recs, r = none) :
    fireSlot (.tfence src g) (s.act1 (.tfence src g)).ic s1 = .ok s1 := by
  have hfind : s.me.recs.find? (fun r => r.isSome) = none := List.find?_eq_none.mpr fun r hr => by simp [h r hr]
  rw [fireTfence_eq, hfind]

/-- The first record that is set. -/
theorem find_first_set {rs : List (Option Nat)} {n a : Nat} (hbelow : ∀ j, j < n → rs.getD j none = none) (hn : rs[n]? = some (some a)) :
    rs.find? (fun r => r.isSome) = some (some a) := by
  obtain ⟨hlen, hget⟩ := List.getElem?_eq_some_iff.mp hn
  refine List.find?_eq_some_iff_getElem.mpr ⟨rfl, n, hlen, hget, fun j hj => ?_⟩
  have hj' := hbelow j hj
  rw [List.getD_eq_getElem _ _ (by omega)] at hj'
  simp [hj']

theorem fireTfence_set {s : State} (s1 : State) (src : BitVec 9) (g : BitVec 6) {n a : Nat} (hbelow : ∀ j, j < n → s.me.recs.getD j none = none)
    (hn : s.me.recs[n]? = some (some a)) :
    fireSlot (.tfence src g) (s.act1 (.tfence src g)).ic s1 = .error { cause := 0x0E, slot := 0, faddr := a, info := s.me.recset } := by
  rw [fireTfence_eq, find_first_set hbelow hn]

theorem idleHeld_idle (t : State) (s : State) (src : BitVec 9) (g : BitVec 6) (n : Nat) :
    t.idleHeld s.cur n [s.act1 (.idle src g)] = t.modCore s.cur (fun k => k.idleHeld n) := rfl

/-- The issue of one act of c up to its trigger: units, moves and the end of the bundle. -/
theorem issueActs_control (s : State) (i : Instr) (hu : isAuOrC (s.act1 i) = true) :
    s.issueActs s.cur [s.act1 i] [] (fun _ => true) =
      ((((s.ready1 i).pops s.cur [s.act1 i]).regMove (s.act1 i)).modCore s.cur (fun k => k.rowSteps [s.act1 i]), []) := by
  have hnone : [s.act1 i].filter (fun a => !isAuOrC a) = [] := by simp [hu]
  unfold State.issueActs
  simp only [firing_one, hnone, runActs]
  rfl

/-- IDLE lets go of what its bundle holds as well (R113). -/
theorem exec_idle_fires {s : State} {src : BitVec 9} {g : BitVec 6} (h : s.Clear (.idle src g)) {t : State}
    (hf : fireSlot (.idle src g) (s.act1 (.idle src g)).ic (s.closed1 (s.ready1 (.idle src g)) (.idle src g)) = .ok t) :
    s.execSlot (.idle src g) = .next (s.fin1 (t.modCore s.cur (fun k => k.idleHeld s.me.bundles))) := by
  rw [execSlot_clear s _ h rfl rfl]
  have hfire : fireSlot (s.act1 (.idle src g)).i (s.act1 (.idle src g)).ic (s.closed1 (s.ready1 (.idle src g)) (.idle src g)) = .ok t := hf
  have hclosed : ((((s.ready1 (.idle src g)).pops s.cur [s.act1 (.idle src g)]).regMove (s.act1 (.idle src g))).modCore s.cur
        (fun k => k.rowSteps [s.act1 (.idle src g)])).modCore s.cur (fun k =>
      { k.endIssue (oneSlot (.idle src g)) with
        bundles := k.bundles + 1
        held := k.held
        weight := k.weight + issueWeight (oneSlot (.idle src g)) [s.act1 (.idle src g)] [] }) =
      s.closed1 (s.ready1 (.idle src g)) (.idle src g) := rfl
  have hau : [s.act1 (.idle src g)].filter (isUnit .au) = [] := rfl
  have hc : [s.act1 (.idle src g)].filter (isUnit .c) = [s.act1 (.idle src g)] := rfl
  have hissue : s.issueNow s.cur (oneSlot (.idle src g)) [s.act1 (.idle src g)] [] [] [] =
      .issue (if s.me.tagged then (t.modCore s.cur (fun k => k.idleHeld s.me.bundles)).tick1 else t.modCore s.cur (fun k => k.idleHeld s.me.bundles)) := by
    unfold State.issueNow
    simp only [issueActs_control s (.idle src g) rfl, heldRows_nil, List.append_nil, hclosed, hau, hc, runActs, hfire, leastStop, idleHeld_idle]
  rw [hissue, settle_issue]
  rfl

theorem idleHeld_none {k : Core} (h : k.held = []) (n : Nat) : k.idleHeld n = k := by
  rw [Core.idleHeld, h, List.map_nil, ← h]

theorem givesLast_idle {s : State} {src : BitVec 9} {g : BitVec 6} {f : Core → Core} (hheld : ∀ k : Core, (f k).held = k.held)
    (hf : ∀ s1, s.Ended s1 (.idle src g) → fireSlot (.idle src g) (s.act1 (.idle src g)).ic s1 = .ok (s1.modCore s.cur f)) : GivesLast s (.idle src g) f := by
  intro h
  have he := closed1_ended h rfl
  generalize hs1 : s.closed1 (s.ready1 (.idle src g)) (.idle src g) = s1 at he
  have hfire := hf s1 he
  rw [← hs1] at hfire
  refine ⟨_, s1.core s.cur, (exec_idle src g s).trans (exec_idle_fires h hfire), fin1_only _ _ _ ?_, he.kept, ?_⟩
  · rw [hs1]
    exact onlyCore_modCore (onlyCore_modCore he.only f) _
  · rw [fin1_core, core_modCore_same, hs1, core_modCore_same, idleHeld_none]
    rw [hheld, he.held, h.noHeld]

theorem fireIdle_eq {s s1 : State} {src : BitVec 9} {g : BitVec 6} (h : s.Ended s1 (.idle src g)) :
    fireSlot (.idle src g) (s.act1 (.idle src g)).ic s1 =
      let o := (s.me.sop.getD 5 0).toNat
      if o = 0 then .ok (s1.modCore s.cur (fun k => { k with stL := none }))
      else if o = 1 then .ok (s1.modCore s.cur (fun k => { k with stX := none }))
      else if o = 2 then .ok (s1.modCore s.cur (fun k => { k with stM := none }))
      else .error (illegalOp s (.idle src g)) := by
  rw [← h.sop]
  rfl

theorem idleYieldpAndTfenceComplete : IdleYieldpAndTfenceComplete := by
  intro s src g
  refine ⟨⟨fun ho => ?loads, fun ho => ?gathers, fun ho => ?products, fun ho => ?illegal⟩, ?yieldp, fun h => ?unset, fun n a hbelow hn => ?set⟩
  case loads =>
    refine givesLast_idle (fun _ => rfl) fun s1 he => ?_
    rw [fireIdle_eq he]
    exact if_pos ho
  case gathers =>
    refine givesLast_idle (fun _ => rfl) fun s1 he => ?_
    simp only [fireIdle_eq he, ho, one_ne_zero, if_true, if_false]
  case products =>
    refine givesLast_idle (fun _ => rfl) fun s1 he => ?_
    simp only [fireIdle_eq he, ho, OfNat.ofNat_ne_zero, OfNat.ofNat_ne_one, if_true, if_false]
  case illegal =>
    refine stops_of_fire (exec_idle src g s) (idle_control s src g) fun s1 he => ?_
    rw [fireIdle_eq he]
    exact (if_neg (by omega)).trans ((if_neg (by omega)).trans (if_neg (by omega)))
  case yieldp =>
    refine givesLast_of_fire (exec_yieldp src g s) (yieldp_control s src g) rfl fun s1 he =>
      ⟨_, fireYieldp_eq s s1 src g, onlyCore_modCore (onlyCore_modCore he.only _) _, ?_⟩
    rw [core_modCore_same, core_modCore_same, he.yieldFlag, resultS, ← he.clk, ← he.next]
    rfl
  case unset =>
    exact givesLast_of_fire (exec_tfence src g s) (tfence_control s src g) rfl fun s1 he => ⟨s1, fireTfence_unset s1 src g h, he.only, rfl⟩
  case set => exact stops_of_fire (exec_tfence src g s) (tfence_control s src g) fun s1 _ => fireTfence_set s1 src g hbelow hn

/-- Settles O8: each operation of c is its trigger on the core that its bundle has left, and that trigger does what its rule says or stops. -/
theorem loopAndControlOperationsComplete : Obligations.LoopAndControlOperationsComplete :=
  ⟨loopOpensItsLevel, exitTrapAndBreakComplete, idleYieldpAndTfenceComplete⟩

end Sys2Proof.Machine
end

section
/-! SUPPORT. A core that holds one slot: its turn (R36, R38, R381). -/

namespace Sys2Proof.Machine

open Sys2Proof.Claims

theorem exec_heldSlotIssue (c : Nat) (s : State) : exec (.heldSlotIssue c) s = .next (s.heldTurn c) := rfl
theorem exec_bundleIssue (c : Nat) (s : State) : exec (.bundleIssue c) s = .next (({ s with cur := c } : State).bundleTurn c) := rfl
theorem exec_waitaRecheck (c : Nat) (s : State) : exec (.waitaRecheck c) s = .next (s.recheck c isWaita) := rfl
theorem exec_syncWaitSatisfied (c : Nat) (s : State) : exec (.syncWaitSatisfied c) s = .next (s.recheck c isSync) := rfl
theorem exec_linkFifoWait (c : Nat) (s : State) : exec (.linkFifoWait c) s = .next (s.recheck c linkSlot) := rfl

/-! ## A wait that is tried again -/

theorem recheck_held {s : State} {c : Nat} {p : Instr → Bool} (h : ∃ x ∈ (s.core c).held, p x.op = true) : s.recheck c p = s.heldTurn c := by
  rw [State.recheck, if_pos (List.any_eq_true.mpr h)]

theorem recheck_bundle {s : State} {c : Nat} {p : Instr → Bool} {q : Bundle} (h : ∀ x ∈ (s.core c).held, p x.op = false)
    (hq : (s.fetchBundle c).2 = .ok q) : s.recheck c p = if q.slots.any (fun b => p b.i) then s.bundleTurn c else s := by
  rw [State.recheck, if_neg (by simpa using h), hq]

theorem triesAgain_of_recheck {s : State} {c : Nat} {p : Instr → Bool} {e : Instr} (he : exec e s = .next (s.recheck c p)) : TriesAgain s c p e := by
  refine ⟨fun h => ⟨_, he, ?_⟩, fun q hcur h hq hb => ⟨_, he, ?_⟩, fun q h hq hb => ?_⟩
  · rw [exec_heldSlotIssue, recheck_held h]
  · rw [exec_bundleIssue, recheck_bundle h hq, if_pos (List.any_eq_true.mpr hb), ← hcur]
  · rw [he, recheck_bundle h hq, if_neg (by simpa using hb)]

/-! ## Which held slots are ready -/

theorem dragged_nil (k : Core) (a : Act) : dragged k [] a = false := rfl

theorem holdSet_nil (k : Core) (all : List Act) (n : Nat) : holdSet k all n [] = [] := by
  cases n with
  | zero => rfl
  | succ n =>
    rw [holdSet]
    simp only [dragged_nil, Bool.and_false, List.filter_false, List.isEmpty_nil, if_true]

theorem staying_none (s : State) (c : Nat) (l : List Held) : s.staying c l [] = [] := by
  rw [State.staying]
  simp only [State.heldActs, List.map_nil, holdSet_nil, List.any_nil, List.filter_false]

theorem staying_self (s : State) (c : Nat) (h : Held) : s.staying c [h] [h] = [h] := by
  rw [State.staying]
  simp [State.heldActs, holdSet, sameAct]

section
variable {s : State} {c : Nat} {h : Held} (hheld : (s.core c).held = [h]) (hgone : h.gone = false)
include hheld hgone

theorem heldReady_go (hw : ((s.latchMoves [s.heldAct c h]).actWait (s.heldAct c h)).isGo = true) : s.heldReady c = [h] := by
  rw [State.heldReady, hheld]
  simp [hgone, State.heldActs, hw, staying_none]

theorem heldReady_stuck (hw : ((s.latchMoves [s.heldAct c h]).actWait (s.heldAct c h)).isGo = false) : s.heldReady c = [] := by
  rw [State.heldReady, hheld]
  simp [hgone, State.heldActs, hw, staying_self]

end

/-! ## The turn of one held slot -/

/-- The turn has come to its end: what is still held has waited a cycle. -/
def Core.tried (k : Core) : Core := { k with heldTried := true }

section
variable {s : State} {c : Nat} {h : Held} (hrun : (s.core c).status = .run) (hfrz : (s.core c).frz = false)
include hrun hfrz

theorem heldTurn_issues (hready : s.heldReady c = [h]) (hstop : s.heldStop c [h] h = none)
    (hgone : ∀ x ∈ ((s.runHeld c [h]).core c).held, x.gone = true) : s.heldTurn c = (s.runHeld c [h]).modCore c Core.tried := by
  have hgroup : s.heldGroup c [h] = (s.runHeld c [h], none) := by
    rw [State.heldGroup]
    simp [hstop, staying_none]
  have hone : [h.bundle].eraseDups = [h.bundle] := rfl
  have hrest : ((s.runHeld c [h]).core c).held.filter (fun x => !x.gone) = [] := List.filter_eq_nil_iff.mpr fun x hx => by simp [hgone x hx]
  rw [State.heldTurn, hrun]
  simp [hfrz, hready, hone, hgroup, hrest]
  rfl

theorem heldTurn_waits (hheld : (s.core c).held = [h]) (hgone : h.gone = false) (hready : s.heldReady c = [])
    (hstep : stepSlot h.op (s.heldAct c h).ic s = s) : s.heldTurn c = s.modCore c Core.tried := by
  have hstep' : stepSlot (s.heldAct c h).i (s.heldAct c h).ic s = s := hstep
  rw [State.heldTurn, hrun]
  simp [hfrz, hready, hheld, hgone, hstep']
  rfl

end

/-! ## A held move between g registers -/

/-- A core with a value in a g register. -/
def Core.putG (n : Nat) (x : U64) (k : Core) : Core := { k with g := k.g.set n x }

/-- An act that moves one g register to another. -/
structure Act.GMove (a : Act) (src d : BitVec 9) (g : BitVec 6) : Prop where
  op : a.i = .move false src d g
  first : a.ic.re = false
  held : a.ic.bval.isSome = true
  src_lt : src.toNat < 0x40
  dst_lt : d.toNat < 0x40

theorem idleHeld_no_idle (t : State) (c n : Nat) {acts : List Act} (h : ∀ a ∈ acts, isIdle a.i = false) : t.idleHeld c n acts = t := by
  rw [State.idleHeld, if_neg (by simpa using h)]

/-- Acts that fire without an effect. -/
theorem runActs_quiet {s : State} {l : List Act} (h : ∀ a ∈ l, fireSlot a.i a.ic s = .ok s) : runActs s l = (s, []) := by
  induction l with
  | nil => rfl
  | cons a l ih =>
    rw [runActs, h a List.mem_cons_self]
    exact ih fun b hb => h b (List.mem_cons_of_mem a hb)

theorem modCore_self (s : State) (c : Nat) : s.modCore c (fun k => k) = s.setCore c (s.core c) := rfl

section
variable {a : Act} {src d : BitVec 9} {g : BitVec 6} (h : a.GMove src d g)
include h

theorem gMove_latchMove (s : State) : s.latchMove a = s := by
  have hd : isLatchM d.toNat = false := by
    have := h.dst_lt
    simp [isLatchM]
    omega
  rw [State.latchMove, h.op]
  simp [hd]

theorem gMove_latchMoves (s : State) : s.latchMoves [a] = s := by
  rw [State.latchMoves, List.foldl_cons, List.foldl_nil, gMove_latchMove h, ite_self]

theorem gMove_go (s : State) : s.actWait a = .go := by
  have hsrc : a.ic.pre.srcWait a.i = .go := by
    have := h.src_lt
    rw [h.op]
    change (if src.toNat = 0x62 then _ else if src.toNat = 0x63 then _ else if 0x69 ≤ src.toNat ∧ src.toNat < 0x6C then _ else Wait.go) = Wait.go
    rw [if_neg (by omega), if_neg (by omega), if_neg (by omega)]
  rw [State.actWait, State.sideWait, hsrc, h.first, h.op]
  rfl

theorem gMove_pop : popOf a.i = none := by
  have hl : inLink src.toNat = false := by
    have := h.src_lt
    simp [inLink]
    omega
  rw [h.op]
  change (if inLink src.toNat then _ else none) = none
  simp [hl]

theorem gMove_push : pushOf a.i = none := by
  have hl : inLink d.toNat = false := by
    have := h.dst_lt
    simp [inLink]
    omega
  rw [h.op]
  change (if inLink d.toNat then _ else none) = none
  simp [hl]

theorem gMove_pops (s : State) (c : Nat) : s.pops c [a] = s := by
  rw [State.pops]
  simp [gMove_pop h]

theorem gMove_regMove (s : State) : s.regMove a = s.modCore a.ic.c (Core.putG d.toNat a.ic.t) := by
  have hd := h.dst_lt
  have hm : isLatchM d.toNat = false := by
    simp [isLatchM]
    omega
  have hl : inLink d.toNat = false := by
    simp [inLink]
    omega
  rw [State.regMove, h.op]
  simp [h.first, hm, hl, Core.moveRegM, hd]
  rfl

theorem gMove_sticky (k : Core) (b : Bool) : k.setStickyOf a b = k := by
  refine setSticky_scalar k a b ?_
  rw [h.op]
  exact ⟨nofun, nofun, nofun⟩

theorem gMove_rows (k : Core) : k.rowSteps [a] = k := by
  simp [Core.rowSteps, actTiles, h.held]

theorem gMove_fires (s : State) : fireSlot a.i a.ic s = .ok s := by
  rw [h.op]
  rfl

/-- Its effects alone: the destination takes what the source holds. -/
theorem gMove_issueHeld (s : State) (keep : Act → Bool) :
    s.issueHeld a.ic.c [a] [] keep = (s.modCore a.ic.c (Core.putG d.toNat a.ic.t), []) := by
  have hquiet {l : List Act} (hl : ∀ b ∈ l, b = a) (t : State) : runActs t l = (t, []) := runActs_quiet fun b hb => by rw [hl b hb, gMove_fires h]
  have hfire : ∀ b ∈ (firing [a] []).filter (fun x => !isAuOrC x), b = a := by
    simp only [firing, List.append_nil, List.mem_filter, List.mem_singleton]
    exact fun b hb => hb.1.1
  have hunit (u : FUnit) : ∀ b ∈ [a].filter (isUnit u), b = a := fun b hb => List.mem_singleton.mp (List.mem_filter.mp hb).1
  have hacts : s.issueActs a.ic.c [a] [] keep = (s.modCore a.ic.c (Core.putG d.toNat a.ic.t), []) := by
    rw [State.issueActs]
    simp only [gMove_latchMoves h, List.foldl_cons, List.foldl_nil, gMove_sticky h, hquiet hfire, gMove_pops h, gMove_regMove h, gMove_rows h,
      modCore_self, modCore_setCore, core_setCore_same, setCore_setCore]
    rfl
  rw [State.issueHeld]
  simp only [hacts, hquiet (hunit .au), hquiet (hunit .c), List.append_nil]

theorem gMove_weight : actsWeight [a] [] = 0 := by
  have hop : opWeight a.i = 0 := by
    rw [h.op]
    rfl
  have hown : [a].filter (fun b => !b.ic.re) = [a] := by simp [h.first]
  have hlink : linkWords [a] = 0 := by simp [linkWords, hown, gMove_pop h, gMove_push h]
  have hfire : firing [a] [] = [] ∨ firing [a] [] = [a] := by
    cases hb : a.ic.again <;> simp [firing, hb]
  rw [actsWeight, hlink]
  rcases hfire with hf | hf <;> simp [hf, hop]

end

theorem setWidth_widened (x : U64) : (x.setWidth 2048).setWidth 64 = x := by
  rw [BitVec.setWidth_setWidth_of_le _ (by decide), BitVec.setWidth_eq]

/-- A g register is read as it stands, however early. -/
theorem srcVal_g (s : State) (k : Core) (c : Nat) (limm : U64) (slot : Nat) {src d : BitVec 9} {g : BitVec 6} (hs : src.toNat < 0x40) :
    s.srcVal k c limm slot (.move false src d g) = (k.g.getD src.toNat 0).setWidth 2048 := by
  have hunder : k.undersized (.move false src d g) = false := by
    change k.underM src.toNat = false
    rw [Core.underM, if_neg (by omega), if_neg (by omega), if_neg (by omega)]
  rw [State.srcVal, hunder, Bool.and_false, Bool.false_and]
  change (readM k c limm _ src.toNat).setWidth 2048 = _
  rw [readM, if_pos hs]

section
variable {s : State} {c : Nat} {h : Held} {src d : BitVec 9} {g : BitVec 6} (hop : h.op = .move false src d g) (hre : h.re = false)
  (hs : src.toNat < 0x40) (hd : d.toNat < 0x40)
include hop hre hs hd

theorem heldAct_gMove : (s.heldAct c h).GMove src d g := ⟨hop, hre, rfl, hs, hd⟩

theorem heldStop_gMove (hschk : (s.coreCtx c).schk = false) : s.heldStop c [h] h = none := by
  have ha := heldAct_gMove (s := s) (c := c) hop hre hs hd
  have hearly : s.earlyStops [s.heldAct c h] = [] := by
    have hc : (s.coreCtx (s.heldAct c h).ic.c).schk = false := hschk
    simp [State.earlyStops, hc]
  have hissue (keep : Act → Bool) : (s.issueHeld c [s.heldAct c h] [] keep).2 = [] := congrArg Prod.snd (gMove_issueHeld ha s keep)
  rw [State.heldStop]
  simp [hre, State.heldActs, gMove_latchMoves ha, hearly, hissue, leastStop]

theorem runHeld_gMove (hheld : (s.core c).held = [h]) (hst : h.st = none) :
    s.runHeld c [h] = s.modCore c (fun k => { k with g := k.g.set d.toNat (k.g.getD src.toNat 0), held := [{ h with gone := true }] }) := by
  have ha := heldAct_gMove (s := s) (c := c) hop hre hs hd
  have hval : (s.heldAct c h).ic.t = (s.core c).g.getD src.toNat 0 := by
    change (match h.st with | some st => st.tv | none => s.srcVal ((s.core c).atHeld h) c h.limm h.slot h.op).setWidth 64 = _
    rw [hst, hop]
    dsimp only
    rw [srcVal_g s _ c _ _ hs, setWidth_widened]
    rfl
  have hissue (keep : Act → Bool) : (s.issueHeld c [s.heldAct c h] [] keep).1 = s.modCore c (Core.putG d.toNat ((s.core c).g.getD src.toNat 0)) := by
    rw [← hval]
    exact congrArg Prod.fst (gMove_issueHeld ha s keep)
  have hidle (t : State) (n : Nat) (p : Act → Bool) : t.idleHeld c n ([s.heldAct c h].filter p) = t := by
    refine idleHeld_no_idle t c n fun b hb => ?_
    rw [List.mem_singleton.mp (List.mem_filter.mp hb).1, ha.op]
    rfl
  have hcore : ((Core.putG d.toNat ((s.core c).g.getD src.toNat 0) (s.core c)).heldGone [h]).addWeight 0 =
      { s.core c with g := (s.core c).g.set d.toNat ((s.core c).g.getD src.toNat 0), held := [{ h with gone := true }] } := by
    simp [Core.heldGone, Core.putG, Core.addWeight, hheld]
  have hown : [h].filter (fun x => !x.re) = [h] := by simp [hre]
  have hagain : [h].filter (fun x => x.re) = [] := by simp [hre]
  rw [State.runHeld]
  simp only [hown, hagain, State.heldActs, List.map_cons, List.map_nil, hissue, List.foldl_cons, List.foldl_nil, hidle, gMove_weight ha]
  change (s.setCore c _).modCore c _ = _
  rw [modCore_setCore, hcore]
  rfl

end

/-! ## A held move from a tile that is not ready -/

theorem wait_and_miss (n : Nat) (w : Wait) : ((Wait.miss n).and w).isGo = false := by
  cases w <;> rfl

theorem wait_and_stuck {a : Wait} (b : Wait) (h : a.isGo = false) : (a.and b).isGo = false := by
  cases a with
  | go => cases h
  | miss n => exact wait_and_miss n b
  | wait => cases b <;> rfl
  | fixedWait => cases b <;> rfl

theorem tileMove_stuck {s : State} {c : Nat} {h : Held} {src d : BitVec 9} {g : BitVec 6} (hop : h.op = .move true src d g) (hre : h.re = false)
    (hlo : 0x20 ≤ src.toNat) (hhi : src.toNat < 0x30) (htile : ((s.core c).t.getD (src.toNat - 0x20) {}).ready = false) (t : State) :
    (t.actWait (s.heldAct c h)).isGo = false := by
  have hready : (((s.core c).atHeld h).t.getD (src.toNat - 0x20) {}).ready = false := by
    rw [Core.atHeld, List.getD_eq_getElem _ _ (by simp; omega), List.getElem_map, List.getElem_range]
    exact htile
  have hsrc : (s.heldAct c h).ic.pre.srcWait (s.heldAct c h).i = .miss 1 := by
    change ((s.core c).atHeld h).srcWait h.op = _
    rw [hop]
    change (if src.toNat = 0x43 then _ else if src.toNat = 0x41 then _ else if 0x20 ≤ src.toNat ∧ src.toNat < 0x30 then
      ((s.core c).atHeld h).tileWait (src.toNat - 0x20) else Wait.go) = _
    rw [if_neg (by omega), if_neg (by omega), if_pos ⟨hlo, hhi⟩, Core.tileWait, hready]
    rfl
  have hfirst : (s.heldAct c h).ic.re = false := hre
  rw [State.actWait, State.sideWait, hsrc, hfirst]
  exact wait_and_stuck _ (wait_and_miss 1 _)

/-- Settles O34: the turn of a core that holds one slot is the issue of that slot, or a cycle of its wait. -/
theorem heldSlotsAndWaitsAreTriedAgain : Obligations.HeldSlotsAndWaitsAreTriedAgain := by
  unfold Obligations.HeldSlotsAndWaitsAreTriedAgain
  refine ⟨fun s c h src d g hrun hfrz hheld hgone hre hst => ⟨fun hop hs hd hschk => ?move, fun hop hlo hhi htile => ?tile⟩, fun s c =>
    ⟨triesAgain_of_recheck (exec_waitaRecheck c s), triesAgain_of_recheck (exec_syncWaitSatisfied c s), triesAgain_of_recheck (exec_linkFifoWait c s)⟩⟩
  case move =>
    have ha := heldAct_gMove (s := s) (c := c) hop hre hs hd
    have hready : s.heldReady c = [h] := heldReady_go hheld hgone (by rw [gMove_go ha]; rfl)
    have hissued := runHeld_gMove hop hre hs hd hheld hst
    rw [exec_heldSlotIssue, heldTurn_issues hrun hfrz hready (heldStop_gMove hop hre hs hd hschk), hissued]
    · change Host.Outcome.next ((s.setCore c _).modCore c Core.tried) = _
      rw [modCore_setCore]
      rfl
    · rw [hissued, core_modCore_same]
      simp
  case tile =>
    rw [exec_heldSlotIssue, heldTurn_waits hrun hfrz hheld hgone (heldReady_stuck hheld hgone (tileMove_stuck hop hre hlo hhi htile _)) (by rw [hop]; rfl)]
    rfl

end Sys2Proof.Machine
end

section
/-! SUPPORT. What an issue and its triggers weigh (R347). -/

namespace Sys2Proof.Machine

open Sys2Proof.Claims

/-! ## The weight of a trigger -/

/-- The weights of a0 and a1, of l and of v. -/
def aluWeight : Instr → Nat
  | .mul _ _ _ _ | .mulhs _ _ _ _ | .mulhu _ _ _ _ | .divs _ _ _ _ | .divu _ _ _ _ | .rems _ _ _ _ | .remu _ _ _ _ => 10
  | _ => 4

def accessWeight : Instr → Nat
  | .ldv _ _ _ _ | .stv _ _ _ _ | .ldvs _ _ _ _ => 48
  | _ => 12

def laneWeight : Instr → Nat
  | .vmul _ _ _ | .vmad _ _ _ | .bmm _ _ _ => 96
  | .vrcp _ _ _ | .vrsq _ _ _ | .vexp2 _ _ _ | .vlog2 _ _ _ | .vred _ _ _ | .vscan _ _ _ => 112
  | .vtopk _ _ _ | .vtopkm _ _ _ => 80
  | _ => 48

section
variable {i : Instr}

theorem opWeight_alu (hu : unitOf i = .a0 ∨ unitOf i = .a1) : opWeight i = aluWeight i := by
  unfold opWeight
  rcases hu with hu | hu <;> rw [hu] <;> cases i <;> rfl

theorem opWeight_l (hu : unitOf i = .l) : opWeight i = accessWeight i := by
  unfold opWeight
  rw [hu]
  cases i <;> rfl

theorem opWeight_v (hu : unitOf i = .v) : opWeight i = laneWeight i := by
  unfold opWeight
  rw [hu]
  cases i <;> rfl

theorem opWeight_long (hu : unitOf i = .a0 ∨ unitOf i = .a1) {src : BitVec 9} {u w : BitVec 1} {g : BitVec 6}
    (h : i ∈ [Instr.mul src u w g, .mulhs src u w g, .mulhu src u w g, .divs src u w g, .divu src u w g, .rems src u w g, .remu src u w g]) :
    opWeight i = 10 := by
  simp only [List.mem_cons, List.not_mem_nil, or_false] at h
  rw [opWeight_alu hu]
  rcases h with rfl | rfl | rfl | rfl | rfl | rfl | rfl <;> rfl

theorem opWeight_short (hu : unitOf i = .a0 ∨ unitOf i = .a1) (h : ¬∃ src u w g, i ∈ [Instr.mul src u w g, .mulhs src u w g, .mulhu src u w g,
    .divs src u w g, .divu src u w g, .rems src u w g, .remu src u w g]) : opWeight i = 4 := by
  rw [opWeight_alu hu]
  unfold aluWeight
  split
  any_goals rfl
  all_goals simp at h

theorem opWeight_small (hu : unitOf i = .au ∨ unitOf i = .c ∨ unitOf i = .sync ∨ unitOf i = .k ∨ unitOf i = .fe) : opWeight i = 3 := by
  unfold opWeight
  rcases hu with hu | hu | hu | hu | hu <;> rw [hu]

theorem opWeight_vector (h : ∃ src a b g, i = .ldv src a b g ∨ i = .stv src a b g ∨ i = .ldvs src a b g) : opWeight i = 48 := by
  obtain ⟨src, a, b, g, rfl | rfl | rfl⟩ := h <;> rfl

theorem opWeight_access (hu : unitOf i = .l) (h : ¬∃ src a b g, i = .ldv src a b g ∨ i = .stv src a b g ∨ i = .ldvs src a b g) : opWeight i = 12 := by
  rw [opWeight_l hu]
  unfold accessWeight
  split
  any_goals rfl
  all_goals simp at h

theorem opWeight_atomic (hu : unitOf i = .at ∨ unitOf i = .ra) : opWeight i = 14 := by
  unfold opWeight
  rcases hu with hu | hu <;> rw [hu]

theorem opWeight_multiply (h : ∃ src t g, i = .vmul src t g ∨ i = .vmad src t g ∨ i = .bmm src t g) : opWeight i = 96 := by
  obtain ⟨src, t, g, rfl | rfl | rfl⟩ := h <;> rfl

theorem opWeight_deep (h : ∃ src t g, i = .vrcp src t g ∨ i = .vrsq src t g ∨ i = .vexp2 src t g ∨ i = .vlog2 src t g ∨ i = .vred src t g ∨ i = .vscan src t g) :
    opWeight i = 112 := by
  obtain ⟨src, t, g, rfl | rfl | rfl | rfl | rfl | rfl⟩ := h <;> rfl

theorem opWeight_list (h : ∃ src t g, i = .vtopk src t g ∨ i = .vtopkm src t g) : opWeight i = 80 := by
  obtain ⟨src, t, g, rfl | rfl⟩ := h <;> rfl

theorem opWeight_lanes (hu : unitOf i = .v) (h96 : ¬∃ src t g, i = .vmul src t g ∨ i = .vmad src t g ∨ i = .bmm src t g)
    (h112 : ¬∃ src t g, i = .vrcp src t g ∨ i = .vrsq src t g ∨ i = .vexp2 src t g ∨ i = .vlog2 src t g ∨ i = .vred src t g ∨ i = .vscan src t g)
    (h80 : ¬∃ src t g, i = .vtopk src t g ∨ i = .vtopkm src t g) : opWeight i = 48 := by
  rw [opWeight_v hu]
  unfold laneWeight
  split
  any_goals rfl
  all_goals simp at h96 h112 h80

theorem opWeight_x (hu : unitOf i = .x) : opWeight i = 40 := by
  unfold opWeight
  rw [hu]

theorem opWeight_command (hu : unitOf i = .d ∨ unitOf i = .ps ∨ unitOf i = .lp ∨ unitOf i = .bq ∨ unitOf i = .sys) : opWeight i = 6 := by
  unfold opWeight
  rcases hu with hu | hu | hu | hu | hu <;> rw [hu]

theorem opWeight_plain (hu : unitOf i = .plain) : opWeight i = 0 := by
  unfold opWeight
  rw [hu]

end

/-! ## What an issue charges -/

theorem pops_weight (t : State) (acts : List Act) (c : Nat) : ((t.pops c acts).core c).weight = (t.core c).weight := by
  rw [pops_core]
  rfl

theorem moveRegM_weight (k : Core) (n : Nat) (x : U64) : (k.moveRegM n x).weight = k.weight := by
  unfold Core.moveRegM Core.writeSs
  repeat' split
  all_goals rfl

theorem rowSteps_weight (k : Core) (acts : List Act) : (k.rowSteps acts).weight = k.weight := by rw [rowSteps_eq]

theorem setStickyOf_weight (k : Core) (a : Act) (b : Bool) : (k.setStickyOf a b).weight = k.weight := by rw [setStickyOf_eq]

theorem modCore_weight {f : Core → Core} (hf : ∀ k, (f k).weight = k.weight) (t : State) (d c : Nat) :
    ((t.modCore d f).core c).weight = (t.core c).weight := by
  rw [core_modCore]
  split
  · exact hf _
  · rfl

theorem moveLatchW_weight (k : Core) (n : Nat) (x : V) : (k.moveLatchW n x).weight = k.weight := by
  unfold Core.moveLatchW
  split <;> rfl

theorem moveRegW_weight (k pre : Core) (n : Nat) (x : V) : (k.moveRegW pre n x).weight = k.weight := by
  unfold Core.moveRegW
  repeat' split
  all_goals rfl

theorem latchMove_weight (t : State) (a : Act) (c : Nat) : ((t.latchMove a).core c).weight = (t.core c).weight := by
  unfold State.latchMove
  split
  · split
    · exact modCore_weight (fun _ => by rfl) t _ c
    · rfl
  · split
    · exact modCore_weight (fun k => moveLatchW_weight k _ _) t _ c
    · rfl
  · rfl

theorem pushLink_weight (t : State) (e n : Nat) (x : U64) (c : Nat) : ((t.pushLink e n x).core c).weight = (t.core c).weight := by
  unfold State.pushLink
  split <;> rfl

theorem regMove_weight (t : State) (a : Act) (c : Nat) : ((t.regMove a).core c).weight = (t.core c).weight := by
  unfold State.regMove
  split
  · rfl
  · split
    · split
      · rfl
      · split
        · exact pushLink_weight t _ _ _ c
        · exact modCore_weight (fun k => moveRegM_weight k _ _) t _ c
    · split
      · rfl
      · exact modCore_weight (fun k => moveRegW_weight k _ _ _) t _ c
    · rfl

theorem ready1_weight (s : State) (i : Instr) : ((s.ready1 i).core s.cur).weight = s.me.weight := by
  rw [State.ready1, core_modCore_same, setStickyOf_weight, latchMove_weight]

theorem closed1_weight (s s1 : State) (i : Instr) :
    ((s.closed1 s1 i).core s.cur).weight = (s1.core s.cur).weight + issueWeight (oneSlot i) [s.act1 i] [] := by
  rw [State.closed1, core_modCore_same, core_modCore_same, Core.close1]
  change (((((s1.pops s.cur [s.act1 i]).regMove (s.act1 i)).core s.cur).rowSteps [s.act1 i])).weight + _ = _
  rw [rowSteps_weight, regMove_weight, pops_weight]

theorem fin1_weight (s t : State) : ((s.fin1 t).core s.cur).weight = (t.core s.cur).weight := by rw [fin1_core]

theorem aluOp_weight (t : State) (ic : Ic) (u w : BitVec 1) (f : Nat → Nat → Nat → Nat) (lat : Nat) (ev : Nat → Nat → Nat → Bool) (c : Nat) :
    ((t.aluOp ic u w f lat ev).core c).weight = (t.core c).weight := by
  have hflag (k : Core) (inv ari : Bool) (n pc : Nat) : (k.flag inv ari n pc).weight = k.weight := by
    unfold Core.flag
    split <;> rfl
  exact (modCore_weight (fun k => hflag k _ _ _ _) _ _ c).trans (modCore_weight (fun _ => by rfl) t _ c)

/-! ## The weight of one slot -/

theorem linkWords_none {s : State} {i : Instr} (h : popOf i = none) (h' : pushOf i = none) : linkWords [s.act1 i] = 0 := by
  have hown : [s.act1 i].filter (fun a => !a.ic.re) = [s.act1 i] := rfl
  have hi : (s.act1 i).i = i := rfl
  simp [linkWords, hown, hi, h, h']

theorem linkWords_pop {s : State} {i : Instr} {n : Nat} (h : popOf i = some n) (h' : pushOf i = none) : linkWords [s.act1 i] = 1 := by
  have hown : [s.act1 i].filter (fun a => !a.ic.re) = [s.act1 i] := rfl
  have hi : (s.act1 i).i = i := rfl
  have hone : [n].eraseDups = [n] := rfl
  simp [linkWords, hown, hi, h, h', hone]

theorem issueWeight_one {s : State} {i : Instr} (hk : i.kind = .m ∨ i.kind = .w) :
    issueWeight (oneSlot i) [s.act1 i] [] = 18 + opWeight i + 8 * linkWords [s.act1 i] := by
  have hact : actsWeight [s.act1 i] [] = opWeight i + 8 * linkWords [s.act1 i] := by
    rw [actsWeight, firing_one, List.foldl_cons, List.foldl_nil, Nat.zero_add]
    rfl
  rw [issueWeight, hact]
  rcases hk with hk | hk <;> simp [oneSlot, hk] <;> omega

theorem popOf_low {i : Instr} {x : BitVec 9} (hk : i.kind = .m) (hx : i.srcCode = some x) (h : x.toNat < 0x80) : popOf i = none := by
  have hl : inLink x.toNat = false := by
    simp [inLink]
    omega
  rw [popOf, hk, hx]
  simp [hl]

theorem popOf_link {i : Instr} {x : BitVec 9} (hk : i.kind = .m) (hx : i.srcCode = some x) (h : 0x80 ≤ x.toNat) (h' : x.toNat < 0x88) :
    popOf i = some (x.toNat - 0x80) := by
  have hl : inLink x.toNat = true := by
    simp [inLink]
    omega
  rw [popOf, hk, hx]
  simp [hl]

theorem pushOf_low {src d : BitVec 9} {g : BitVec 6} (h : d.toNat < 0x40) : pushOf (.move false src d g) = none := by
  have hl : inLink d.toNat = false := by
    simp [inLink]
    omega
  change (if inLink d.toNat then _ else none) = none
  simp [hl]

/-! ## The charges of R347 -/

/-- An issue of i, standing clear, adds n to the cycle's weight. -/
def State.Charges (s : State) (i : Instr) (n : Nat) : Prop := s.Clear i → ∃ t, exec i s = .next t ∧ (t.core s.cur).weight = s.me.weight + n

theorem charges_unit {s : State} {i : Instr} {s1 : State} {n : Nat} (hx : exec i s = s.execSlot i) (hb : barOf i = none) (hq : isMmaq i = false)
    (hu : isAuOrC (s.act1 i) = false) (hf : fireSlot i (s.act1 i).ic (s.ready1 i) = .ok s1)
    (hw : (s1.core s.cur).weight = ((s.ready1 i).core s.cur).weight) (hn : issueWeight (oneSlot i) [s.act1 i] [] = n) : s.Charges i n := by
  refine fun h => ⟨_, hx.trans (exec_unit s i h hb hq hu s1 hf), ?_⟩
  rw [fin1_weight, closed1_weight, hw, ready1_weight, hn]

theorem charges_control {s : State} {i : Instr} {s1 : State} {n : Nat} (hx : exec i s = s.execSlot i) (hb : barOf i = none) (hq : isMmaq i = false)
    (hi : isIdle i = false) (hu : isAuOrC (s.act1 i) = true) (hf : fireSlot i (s.act1 i).ic (s.closed1 (s.ready1 i) i) = .ok s1)
    (hw : (s1.core s.cur).weight = ((s.closed1 (s.ready1 i) i).core s.cur).weight) (hn : issueWeight (oneSlot i) [s.act1 i] [] = n) : s.Charges i n := by
  refine fun h => ⟨_, hx.trans (exec_control s i h hb hq hi hu s1 hf), ?_⟩
  rw [fin1_weight, hw, closed1_weight, ready1_weight, hn]

theorem unitOf_act1_alu {s : State} {i : Instr} (h : unitOf i = .a0 ∨ unitOf i = .a1) : isAuOrC (s.act1 i) = false := by
  have hi : (s.act1 i).i = i := rfl
  rw [isAuOrC, hi]
  rcases h with h | h <;> rw [h]

theorem unitOf_add (src : BitVec 9) (u w : BitVec 1) (g : BitVec 6) : unitOf (.add src u w g) = .a0 ∨ unitOf (.add src u w g) = .a1 := by
  change (if u = 0 then FUnit.a0 else FUnit.a1) = _ ∨ (if u = 0 then FUnit.a0 else FUnit.a1) = _
  split
  · exact .inl rfl
  · exact .inr rfl

theorem unitOf_mul (src : BitVec 9) (u w : BitVec 1) (g : BitVec 6) : unitOf (.mul src u w g) = .a0 ∨ unitOf (.mul src u w g) = .a1 :=
  unitOf_add src u w g

theorem charges_move (s : State) {src d : BitVec 9} (g : BitVec 6) {n : Nat} (hn : issueWeight (oneSlot (.move false src d g)) [s.act1 (.move false src d g)] [] = n) :
    s.Charges (.move false src d g) n :=
  charges_unit rfl rfl rfl rfl rfl rfl hn

theorem charges_alu {s : State} {i : Instr} {ic : Ic} {u w : BitVec 1} {f : Nat → Nat → Nat → Nat} {lat : Nat} {ev : Nat → Nat → Nat → Bool} {n : Nat}
    (hx : exec i s = s.execSlot i) (hb : barOf i = none) (hq : isMmaq i = false) (hu : unitOf i = .a0 ∨ unitOf i = .a1)
    (hf : fireSlot i (s.act1 i).ic (s.ready1 i) = .ok ((s.ready1 i).aluOp ic u w f lat ev)) (hn : issueWeight (oneSlot i) [s.act1 i] [] = n) : s.Charges i n :=
  charges_unit hx hb hq (unitOf_act1_alu hu) hf (aluOp_weight _ ic u w f lat ev _) hn

theorem weightsAreTheTable : WeightsAreTheTable := by
  refine ⟨fun i => ⟨fun hu => ⟨fun ⟨_, _, _, _, h⟩ => opWeight_long hu h, opWeight_short hu⟩, opWeight_small, fun hu => ⟨opWeight_vector, opWeight_access hu⟩,
    opWeight_atomic, fun hu => ⟨opWeight_multiply, opWeight_deep, opWeight_list, opWeight_lanes hu⟩, opWeight_x, ?_, ?_, opWeight_command, opWeight_plain⟩,
    fun s src d u w n g => ⟨fun hs hd => ?move, fun hs => ?add, fun hs => ?mul, fun hs => ?setb, fun hs => ?mzero, fun hlo hhi hd => ?pop⟩⟩
  · rintro ⟨src, g, rfl⟩
    rfl
  · rintro ⟨src, g, rfl⟩
    rfl
  case move =>
    refine charges_move s g ?_
    rw [issueWeight_one (.inl rfl), linkWords_none (popOf_low (x := src) rfl rfl (by omega)) (pushOf_low hd)]
    rfl
  case add =>
    refine charges_alu rfl rfl rfl (unitOf_add src u w g) rfl ?_
    rw [issueWeight_one (.inl rfl), linkWords_none (popOf_low (x := src) rfl rfl (by omega)) rfl, opWeight_alu (unitOf_add src u w g)]
    rfl
  case mul =>
    refine charges_alu rfl rfl rfl (unitOf_mul src u w g) rfl ?_
    rw [issueWeight_one (.inl rfl), linkWords_none (popOf_low (x := src) rfl rfl (by omega)) rfl, opWeight_alu (unitOf_mul src u w g)]
    rfl
  case setb =>
    refine charges_control rfl rfl rfl rfl rfl rfl (modCore_weight (fun _ => by rfl) _ _ _) ?_
    rw [issueWeight_one (.inl rfl), linkWords_none (popOf_low (x := src) rfl rfl (by omega)) rfl]
    rfl
  case mzero =>
    refine charges_unit rfl rfl rfl rfl rfl (modCore_weight (fun _ => by rfl) _ _ _) ?_
    rw [issueWeight_one (.inr rfl), linkWords_none rfl rfl]
    rfl
  case pop =>
    refine charges_move s g ?_
    rw [issueWeight_one (.inl rfl), linkWords_pop (popOf_link (x := src) rfl rfl hlo hhi) (pushOf_low hd)]
    rfl

end Sys2Proof.Machine
end

section
/-! SUPPORT. What a gang senses before its cycle (R34, R342). -/

namespace Sys2Proof.Machine

open Sys2Proof.Claims

/-! ## One core -/

theorem delayKind_waits (s : State) (c : Nat) : s.delayKind c = 1 ∨ 3 ≤ s.delayKind c := by
  rw [State.delayKind]
  dsimp only
  repeat' split
  all_goals decide

section
variable {s : State} {c : Nat} (hrun : (s.core c).status = .run)
include hrun

theorem coreSense_frozen (hf : (s.core c).frz = true) : s.coreSense c = 1 := by
  rw [State.coreSense, hrun, hf]
  rfl

theorem coreSense_tries (hf : (s.core c).frz = false) (hb : s.bridgeLocked c = false) :
    s.coreSense c = match (s.tryBundle c).2 with | .delay _ => s.delayKind c | .stop _ => 2 | _ => 0 := by
  rw [State.coreSense, hrun, hf, hb]
  rfl

end

/-! ## The gang -/

/-- The stops of those of some cores that would stop in this cycle. -/
def State.stopsOf (s : State) (cs : List Nat) : List (Nat × Stop) :=
  cs.filterMap (fun c => match (s.core c).status, (s.tryBundle c).2 with | .run, .stop st => some (c, st) | _, _ => none)

theorem mem_stopsOf {s : State} {cs : List Nat} {c : Nat} {st : Stop} :
    (c, st) ∈ s.stopsOf cs ↔ c ∈ cs ∧ (s.core c).status = .run ∧ (s.tryBundle c).2 = .stop st := by
  rw [State.stopsOf, List.mem_filterMap]
  constructor
  · rintro ⟨d, hd, he⟩
    split at he
    · next hrun hstop =>
      cases he
      exact ⟨hd, hrun, hstop⟩
    · cases he
  · rintro ⟨hc, hrun, hstop⟩
    exact ⟨c, hc, by rw [hrun, hstop]⟩

/-- A wait of some core. -/
def State.anyWaits (s : State) (cs : List Nat) : Bool := (cs.map (fun c => s.coreSense c)).any (fun n => n == 1 || decide (3 ≤ n))

/-- A stop of some core, and no wait. -/
def State.anyStops (s : State) (cs : List Nat) : Bool := !s.anyWaits cs && (cs.map (fun c => s.coreSense c)).contains 2

theorem senseGang_launch (s : State) (l : Nat) :
    ((s.senseGang l).launch l).delayed = s.anyWaits (s.pairCores l) ∧ ((s.senseGang l).launch l).stopping = s.anyStops (s.pairCores l) ∧
      ((s.senseGang l).launch l).stops = if s.anyStops (s.pairCores l) then s.stopsOf (s.pairCores l) else [] := by
  rw [State.senseGang, launch_modLaunch_same]
  exact ⟨rfl, rfl, rfl⟩

theorem anyWaits_iff {s : State} {cs : List Nat} : s.anyWaits cs = true ↔ ∃ c ∈ cs, s.coreSense c = 1 ∨ 3 ≤ s.coreSense c := by
  simp [State.anyWaits]

theorem anyWaits_none {s : State} {cs : List Nat} (h : ∀ c ∈ cs, s.coreSense c = 0 ∨ s.coreSense c = 2) : s.anyWaits cs = false := by
  refine Bool.eq_false_iff.mpr fun hw => ?_
  obtain ⟨c, hc, hn⟩ := anyWaits_iff.mp hw
  have := h c hc
  omega

theorem anyStops_iff {s : State} {cs : List Nat} (h : s.anyWaits cs = false) : s.anyStops cs = true ↔ ∃ c ∈ cs, s.coreSense c = 2 := by
  simp [State.anyStops, h]

theorem gangsWaitAndStopTogether : GangsWaitAndStopTogether := by
  intro s l cs n x
  obtain ⟨hdelayed, hstopping, hstops⟩ := senseGang_launch s l
  refine ⟨fun h => ?waits, fun h hstop => ?stops, fun h => ?goes,
    fun c hrun hf hb => ⟨fun ⟨t, ht⟩ => ?one, fun ⟨t, ht⟩ => ?two, fun ⟨t, ht⟩ => ?three, fun ⟨t, ht⟩ => ?four⟩, fun c hrun hf => coreSense_frozen hrun hf⟩
  case waits =>
    have hw : s.anyWaits cs = true := anyWaits_iff.mpr h
    have hno : s.anyStops cs = false := by rw [State.anyStops, hw]; rfl
    exact ⟨hdelayed.trans hw, hstopping.trans hno, hstops.trans (if_neg (Bool.eq_false_iff.mp hno))⟩
  case stops =>
    have hw : s.anyWaits cs = false := anyWaits_none h
    have hyes : s.anyStops cs = true := (anyStops_iff hw).mpr hstop
    refine ⟨hdelayed.trans hw, hstopping.trans hyes, fun c st => ?_⟩
    change (c, st) ∈ ((s.senseGang l).launch l).stops ↔ _
    rw [hstops, if_pos hyes]
    exact mem_stopsOf
  case goes =>
    have hw : s.anyWaits cs = false := anyWaits_none fun c hc => .inl (h c hc)
    have hno : s.anyStops cs = false := by
      refine Bool.eq_false_iff.mpr fun hyes => ?_
      obtain ⟨c, hc, h2⟩ := (anyStops_iff hw).mp hyes
      have h0 : s.coreSense c = 0 := h c hc
      omega
    exact ⟨hdelayed.trans hw, hstopping.trans hno, hstops.trans (if_neg (Bool.eq_false_iff.mp hno))⟩
  case one => exact (coreSense_tries hrun hf hb).trans (by rw [ht])
  case two => exact (coreSense_tries hrun hf hb).trans (by rw [ht])
  case three => exact (coreSense_tries hrun hf hb).trans (by rw [ht])
  case four =>
    have hk : n c = s.delayKind c := (coreSense_tries hrun hf hb).trans (by rw [ht])
    rw [hk]
    exact delayKind_waits s c

end Sys2Proof.Machine
end

section
/-! SUPPORT. Power windows, freezes and throttles (R347 to R351). -/

namespace Sys2Proof.Machine

open Sys2Proof.Claims

theorem exec_powerWindowCheck (c : Nat) (s : State) : exec (.powerWindowCheck c) s = .next (s.windowCheck c) := rfl
theorem exec_gangFreezePropagate (l : Nat) (s : State) : exec (.gangFreezePropagate l) s = .next (s.gangFreeze l) := rfl
theorem exec_fabricFrameFreeze (s : State) : exec .fabricFrameFreeze s = .next s.frameFreezeNow := rfl

/-! ## Entries of a table -/

theorem mem_put_same {α : Type} (t : Tbl α) (i : Nat) (a : α) : (i, a) ∈ Tbl.put t i a := by
  induction t with
  | nil => exact List.mem_singleton.mpr rfl
  | cons p r ih =>
    obtain ⟨j, b⟩ := p
    rw [Tbl.put]
    split
    · exact List.mem_cons_self
    · split
      · exact List.mem_cons_self
      · exact List.mem_cons_of_mem _ ih

theorem mem_put_ne {α : Type} {t : Tbl α} {i j : Nat} {b : α} (a : α) (hj : j ≠ i) (h : (j, b) ∈ t) : (j, b) ∈ Tbl.put t i a := by
  induction t with
  | nil => cases h
  | cons p r ih =>
    obtain ⟨n, x⟩ := p
    rw [Tbl.put]
    split
    · exact List.mem_cons_of_mem _ h
    · rcases List.mem_cons.mp h with he | hr
      · split
        · next hin => cases he; exact absurd hin.symm hj
        · exact he ▸ List.mem_cons_self
      · split
        · exact List.mem_cons_of_mem _ hr
        · exact List.mem_cons_of_mem _ (ih hr)

theorem mem_of_find {α : Type} {t : Tbl α} {i : Nat} {a : α} (h : Tbl.find? t i = some a) : (i, a) ∈ t := by
  induction t with
  | nil => cases h
  | cons p r ih =>
    obtain ⟨j, b⟩ := p
    rw [Tbl.find?] at h
    split at h
    · next hij =>
      cases h
      exact hij ▸ List.mem_cons_self
    · exact List.mem_cons_of_mem _ (ih h)

/-- A core that runs a task stands in the table. -/
theorem mem_cores_of_bound {s : State} {d : Nat} (h : (s.core d).bound = true) : (d, s.core d) ∈ s.cores := by
  cases hf : Tbl.find? s.cores d with
  | none =>
    rw [State.core, Tbl.getD, hf] at h
    cases h
  | some k =>
    have hk : s.core d = k := by rw [State.core, Tbl.getD, hf]; rfl
    rw [hk]
    exact mem_of_find hf

theorem mem_coresOf {s : State} {d l : Nat} : d ∈ s.coresOf l ↔ ∃ k, (d, k) ∈ s.cores ∧ k.bound = true ∧ k.launch = l := by
  simp only [State.coresOf, List.mem_filterMap, Prod.exists, Option.ite_none_right_eq_some, Option.some.injEq, Bool.and_eq_true, decide_eq_true_eq]
  constructor
  · rintro ⟨e, k, hk, hb, rfl⟩
    exact ⟨k, hk, hb⟩
  · rintro ⟨k, hk, hb⟩
    exact ⟨d, k, hk, hb, rfl⟩

theorem mem_pairCores {s : State} {d l : Nat} :
    d ∈ s.pairCores l ↔ d ∈ s.coresOf l ∨ ∃ q, (s.launch l).partner = some q ∧ q ≠ l ∧ d ∈ s.coresOf q := by
  rw [State.pairCores, List.mem_append]
  refine or_congr_right ?_
  cases hp : (s.launch l).partner with
  | none => simp
  | some q =>
    by_cases hq : q = l
    · simp [hq]
    · simp [hq]

/-! ## Several cores at once -/

/-- A step that each of some cores takes, once or more. -/
theorem modCores_core {f : Core → Core} (hf : ∀ k, f (f k) = f k) (cs : List Nat) (s : State) (d : Nat) :
    (cs.foldl (fun t c => t.modCore c f) s).core d = if d ∈ cs then f (s.core d) else s.core d := by
  induction cs generalizing s with
  | nil => rfl
  | cons c cs ih =>
    rw [List.foldl_cons, ih, core_modCore]
    by_cases hd : d = c
    · simp [hd, hf]
    · simp [hd]

theorem modCores_dies (f : Core → Core) (cs : List Nat) (s : State) : (cs.foldl (fun t c => t.modCore c f) s).dies = s.dies :=
  foldl_keeps State.dies (fun t c => t.modCore c f) (fun _ _ => rfl) cs s

/-! ## The window of a core -/

def State.windowOf (s : State) (c : Nat) : List Nat := ((s.core c).cycleWeight :: (s.core c).window).take 64

def State.underFabric (s : State) (c : Nat) : Bool := (s.core c).bound && (s.launch (s.core c).launch).hasFabric

def State.limitOf (s : State) (c : Nat) : Nat :=
  if s.underFabric c then Tbl.getD (s.die (dieOf c)).plimFrame (groupOf c) 23040 else Tbl.getD (s.die (dieOf c)).plim (groupOf c) 23040

def State.hardOf (s : State) (c : Nat) : Nat := Tbl.getD (s.die (dieOf c)).hlim (groupOf c) 28160

/-- A core that has looked at its window. -/
def State.seenBy (s : State) (c : Nat) (q : Core) : Core :=
  { q with window := s.windowOf c, weight := 0, crossed := s.underFabric c && decide (s.limitOf c < (s.windowOf c).sum) }

def State.windowed (s : State) (c : Nat) : State := s.modCore c (s.seenBy c)

def Core.freezes (k : Core) : Core := { k with freezeNext := true }

/-- The cycle of a pair that a freeze raised now comes with. -/
def State.raiseAt (s : State) (c : Nat) : Nat := (s.core c).lcyc + if s.lcycTicks c then 42 else 41

/-- A freeze raised in a launch and its partner. -/
def State.raised (t : State) (l n : Nat) (partner : Option Nat) : State :=
  match partner with
  | some q => (t.modLaunch l (fun x => x.raise n)).modLaunch q (fun x => x.raise n)
  | none => t.modLaunch l (fun x => x.raise n)

theorem windowCheck_eq (s : State) (c : Nat) :
    s.windowCheck c =
      if (s.windowOf c).sum ≤ s.limitOf c then (s.windowed c).modCore c (fun k => { k with throttled := false })
      else if (s.core c).throttled then (s.windowed c).modCore c Core.freezes
      else if s.underFabric c then
        (if decide (s.hardOf c < (s.windowOf c).sum) && s.pendFreeze.isSome then (s.windowed c).throttle c
        else if (s.core c).crossed || s.pendFreeze.isSome then s.windowed c
        else { s.windowed c with pendFreeze := some s.now })
      else if (s.core c).tagged || !(s.core c).bound then (s.windowed c).modCore c Core.freezes
      else if s.isPair (s.core c).launch then
        (if decide (s.hardOf c < (s.windowOf c).sum) && !(s.launch (s.core c).launch).frzAt.isEmpty then (s.windowed c).throttle c
        else (s.windowed c).raised (s.core c).launch (s.raiseAt c) (s.launch (s.core c).launch).partner)
      else (s.windowed c).freezeCores (s.coresOf (s.core c).launch) := by
  have hsum (l : List Nat) : l.foldl (fun n x => n + x) 0 = l.sum := List.sum_eq_foldl.symm
  unfold State.windowCheck
  simp only [hsum]
  rfl

/-! ## A hard throttle -/

/-- The cores that a throttle of launch l stops: the cores of its gang and partner, and those under its fabric timetable. -/
def State.stopsWith (s : State) (l d : Nat) : Prop :=
  d ∈ s.pairCores l ∨ ((s.launch l).hasFabric = true ∧ (s.core d).bound = true ∧ (s.launch (s.core d).launch).hasFabric = true ∧
    (s.launch (s.core d).launch).ttid = (s.launch l).ttid)

theorem mem_timetabled_of_pair {s : State} {l d : Nat} (h : d ∈ s.pairCores l) : d ∈ s.timetabled l := by
  rw [State.timetabled]
  split
  · exact List.mem_eraseDups.mpr (List.mem_append_right _ h)
  · exact h

theorem mem_timetabled_of_fabric {s : State} {l d : Nat} {k : Core} (hl : (s.launch l).hasFabric = true) (hk : (d, k) ∈ s.cores) (hb : k.bound = true)
    (hf : (s.launch k.launch).hasFabric = true) (ht : (s.launch k.launch).ttid = (s.launch l).ttid) : d ∈ s.timetabled l := by
  rw [State.timetabled, if_pos hl]
  refine List.mem_eraseDups.mpr (List.mem_append_left _ (List.mem_map.mpr ⟨(d, k), List.mem_filter.mpr ⟨hk, ?_⟩, rfl⟩))
  simp [hb, hf, ht]

theorem windowed_core (s : State) (c d : Nat) : (s.windowed c).core d = if d = c then s.seenBy c (s.core d) else s.core d := core_modCore _ _ _ _

/-- Every other core keeps its entry. -/
theorem mem_windowed_ne {s : State} {c d : Nat} {k : Core} (hd : d ≠ c) (h : (d, k) ∈ s.cores) : (d, k) ∈ (s.windowed c).cores := mem_put_ne _ hd h

theorem mem_windowed_same (s : State) (c : Nat) : (c, s.seenBy c (s.core c)) ∈ (s.windowed c).cores := mem_put_same _ _ _

section
variable {s : State} {c : Nat} (hb : (s.core c).bound = true)
include hb

theorem self_mem_windowed : c ∈ (s.windowed c).coresOf (s.core c).launch := mem_coresOf.mpr ⟨_, mem_windowed_same s c, hb, rfl⟩

/-- Looking at the window takes no core from a throttle, also where the table of cores names it twice. -/
theorem mem_timetabled_windowed {d : Nat} (h : s.stopsWith (s.core c).launch d) : d ∈ (s.windowed c).timetabled (s.core c).launch := by
  by_cases hd : d = c
  · rw [hd]
    exact mem_timetabled_of_pair (mem_pairCores.mpr (.inl (self_mem_windowed hb)))
  · have hkeep {l : Nat} (hm : d ∈ s.coresOf l) : d ∈ (s.windowed c).coresOf l := by
      obtain ⟨k, hk, hkl⟩ := mem_coresOf.mp hm
      exact mem_coresOf.mpr ⟨k, mem_windowed_ne hd hk, hkl⟩
    rcases h with h | ⟨hl, hdb, hf, ht⟩
    · refine mem_timetabled_of_pair (mem_pairCores.mpr ?_)
      rcases mem_pairCores.mp h with h | ⟨q, hq, hne, h⟩
      · exact .inl (hkeep h)
      · exact .inr ⟨q, hq, hne, hkeep h⟩
    · exact mem_timetabled_of_fabric hl (mem_windowed_ne hd (mem_cores_of_bound hdb)) hdb hf ht

end

def Core.mistimed (k : Core) : Core := { k with timingSub := 8 }
def Core.hardFrozen (k : Core) : Core := { k with throttled := true, freezeNext := true }
def Die.oneThrottle (d : Die) : Die := { d with thrcnt := sat32 (d.thrcnt + 1) }

/-- What a throttle of a core does, by a state t that it starts from. -/
theorem throttle_spec {t : State} {c : Nat} (h : (t.core c).throttled = false) :
    ((t.throttle c).core c).throttled = true ∧ ((t.throttle c).core c).freezeNext = true ∧
      (∀ d ∈ t.timetabled (t.core c).launch, ((t.throttle c).core d).timingSub = 8) ∧
      (dieOf c < t.dies.length → ((t.throttle c).die (dieOf c)).thrcnt = Nat.min ((t.die (dieOf c)).thrcnt + 1) (2 ^ 32 - 1)) := by
  have heq : t.throttle c = (((t.timetabled (t.core c).launch).foldl (fun u i => u.modCore i Core.mistimed) t).modDie (dieOf c)
      Die.oneThrottle).modCore c Core.hardFrozen := by
    rw [State.throttle, h]
    rfl
  have hdies := modCores_dies Core.mistimed (t.timetabled (t.core c).launch) t
  have hcores := modCores_core (f := Core.mistimed) (fun _ => rfl) (t.timetabled (t.core c).launch) t
  generalize (t.timetabled (t.core c).launch).foldl (fun u i => u.modCore i Core.mistimed) t = u at heq hdies hcores
  rw [heq]
  refine ⟨by rw [core_modCore_same]; rfl, by rw [core_modCore_same]; rfl, fun d hd => ?_, fun hlen => ?_⟩
  · have hsub : (u.core d).timingSub = 8 := by
      rw [hcores, if_pos hd]
      rfl
    rw [core_modCore, modDie_look_core]
    split <;> exact hsub
  · rw [modCore_look_die, die_modDie_same _ (by rwa [hdies]), State.die, hdies]
    rfl

/-- The claim of a throttle, for the state that a look at the window leaves. -/
theorem windowed_throttles {s : State} {c : Nat} (hb : (s.core c).bound = true) (ht : (s.core c).throttled = false) :
    let t := (s.windowed c).throttle c
    (t.core c).throttled = true ∧ (t.core c).freezeNext = true ∧ (∀ d, s.stopsWith (s.core c).launch d → (t.core d).timingSub = 8) ∧
      (dieOf c < s.dies.length → (t.die (dieOf c)).thrcnt = Nat.min ((s.die (dieOf c)).thrcnt + 1) (2 ^ 32 - 1)) := by
  have hself : (s.windowed c).core c = s.seenBy c (s.core c) := core_modCore_same _ _ _
  have hl : ((s.windowed c).core c).launch = (s.core c).launch := by rw [hself]; rfl
  obtain ⟨h1, h2, h3, h4⟩ := throttle_spec (t := s.windowed c) (c := c) (by rw [hself]; exact ht)
  rw [hl] at h3
  exact ⟨h1, h2, fun d hd => h3 d (mem_timetabled_windowed hb hd), h4⟩

/-! ## Raised and propagated freezes -/

theorem mem_raise (l : Launch) (n : Nat) : n ∈ (l.raise n).frzAt := by
  rw [Launch.raise]
  split
  · next h => exact List.contains_iff_mem.mp h
  · exact List.mem_append_right _ List.mem_cons_self

theorem raised_launch (t : State) (l n : Nat) (partner : Option Nat) :
    n ∈ ((t.raised l n partner).launch l).frzAt ∧ ∀ q, partner = some q → n ∈ ((t.raised l n partner).launch q).frzAt := by
  have hfirst : n ∈ ((t.modLaunch l (fun x => x.raise n)).launch l).frzAt := by
    rw [launch_modLaunch_same]
    exact mem_raise _ _
  cases partner with
  | none => exact ⟨hfirst, nofun⟩
  | some q =>
    constructor
    · rw [State.raised, launch_modLaunch]
      split
      · exact mem_raise _ _
      · exact hfirst
    · intro p hp
      cases hp
      rw [State.raised, launch_modLaunch_same]
      exact mem_raise _ _

theorem raised_core (t : State) (l n : Nat) (partner : Option Nat) (d : Nat) : (t.raised l n partner).core d = t.core d := by
  cases partner <;> rfl

def Core.frozen (k : Core) : Core := { k with frz := true }

theorem gangFreeze_due {s : State} {n : Nat} (h : s.gangCycle n ∈ (s.launch n).frzAt) :
    s.gangFreeze n = ((s.coresOf n).foldl (fun t c => t.modCore c Core.frozen) s).modLaunch n (fun x =>
      { x with frzAt := x.frzAt.filter (fun m => m != s.gangCycle n) }) := by
  rw [State.gangFreeze, if_pos (List.contains_iff_mem.mpr h)]
  rfl

theorem gangFreeze_early {s : State} {n : Nat} (h : s.gangCycle n ∉ (s.launch n).frzAt) : s.gangFreeze n = s := by
  rw [State.gangFreeze, if_neg (by simpa using h)]

theorem gangFreeze_core {s : State} {n : Nat} (h : s.gangCycle n ∈ (s.launch n).frzAt) (d : Nat) :
    (s.gangFreeze n).core d = if d ∈ s.coresOf n then (s.core d).frozen else s.core d := by
  rw [gangFreeze_due h, modLaunch_look_core, modCores_core (f := Core.frozen) (fun _ => rfl)]

theorem gangFreeze_done {s : State} {n : Nat} (h : s.gangCycle n ∈ (s.launch n).frzAt) : s.gangCycle n ∉ ((s.gangFreeze n).launch n).frzAt := by
  rw [gangFreeze_due h, launch_modLaunch_same]
  simp

theorem frameFreezeNow_due {s : State} {a : Nat} (hp : s.pendFreeze = some a) (ha : a + 128 ≤ s.now + 1) (hpos : s.framePos = 0) (hf : s.frameFreeze = 0) :
    s.frameFreezeNow = { s with frameFreeze := 512, pendFreeze := none, pdefcnt := sat32 (s.pdefcnt + 1) } := by
  rw [State.frameFreezeNow, State.freezeDue, hp]
  simp [ha, hpos, hf]

theorem freezeCores_core (t : State) (cs : List Nat) (d : Nat) : (t.freezeCores cs).core d = if d ∈ cs then (t.core d).freezes else t.core d :=
  modCores_core (f := Core.freezes) (fun _ => rfl) cs t d

/-! ## What the check comes to -/

section
variable {s : State} {c : Nat}

theorem windowCheck_within (h : (s.windowOf c).sum ≤ s.limitOf c) : s.windowCheck c = (s.windowed c).modCore c (fun k => { k with throttled := false }) := by
  rw [windowCheck_eq, if_pos h]

variable (h : s.limitOf c < (s.windowOf c).sum)
include h

theorem windowCheck_throttled (ht : (s.core c).throttled = true) : s.windowCheck c = (s.windowed c).modCore c Core.freezes := by
  rw [windowCheck_eq, if_neg (Nat.not_le.mpr h), if_pos ht]

variable (ht : (s.core c).throttled = false)
include ht

theorem windowCheck_fabric (hf : s.underFabric c = true) :
    s.windowCheck c =
      if decide (s.hardOf c < (s.windowOf c).sum) && s.pendFreeze.isSome then (s.windowed c).throttle c
      else if (s.core c).crossed || s.pendFreeze.isSome then s.windowed c
      else { s.windowed c with pendFreeze := some s.now } := by
  rw [windowCheck_eq, if_neg (Nat.not_le.mpr h), if_neg (Bool.eq_false_iff.mp ht), if_pos hf]

theorem windowCheck_alone (hf : s.underFabric c = false) (ha : (s.core c).tagged = true ∨ (s.core c).bound = false) :
    s.windowCheck c = (s.windowed c).modCore c Core.freezes := by
  rw [windowCheck_eq, if_neg (Nat.not_le.mpr h), if_neg (Bool.eq_false_iff.mp ht), if_neg (Bool.eq_false_iff.mp hf), if_pos (by simpa using ha)]

theorem windowCheck_gang (hf : s.underFabric c = false) (hg : (s.core c).tagged = false) (hb : (s.core c).bound = true) :
    s.windowCheck c =
      if s.isPair (s.core c).launch then
        (if decide (s.hardOf c < (s.windowOf c).sum) && !(s.launch (s.core c).launch).frzAt.isEmpty then (s.windowed c).throttle c
        else (s.windowed c).raised (s.core c).launch (s.raiseAt c) (s.launch (s.core c).launch).partner)
      else (s.windowed c).freezeCores (s.coresOf (s.core c).launch) := by
  rw [windowCheck_eq, if_neg (Nat.not_le.mpr h), if_neg (Bool.eq_false_iff.mp ht), if_neg (Bool.eq_false_iff.mp hf), if_neg (by simp [hg, hb])]

end

/-- The weight of a cycle as R347 adds it up. -/
theorem cycleWeight_eq (k : Core) :
    k.cycleWeight =
      if k.frz then 0
      else 4 + k.weight + 280 * (k.mma.filter (fun f => decide (k.clk < f.cyc + 8 * f.planes))).length + 60 * k.wld.length +
        if k.cmds.any (fun q => q.lane == 0 && !q.finished && q.start.any (fun st => decide (st ≤ k.ecyc))) then 24 else 0 := by
  have hlane : (fun q : Cmd => q.lane == 0 && !q.finished && (match q.start with | some st => decide (st ≤ k.ecyc) | none => false)) =
      fun q => q.lane == 0 && !q.finished && q.start.any (fun st => decide (st ≤ k.ecyc)) := by
    funext q
    cases q.start <;> rfl
  have hfly : k.flyWeight = 280 * (k.mma.filter (fun f => decide (k.clk < f.cyc + 8 * f.planes))).length + 60 * k.wld.length +
      if k.cmds.any (fun q => q.lane == 0 && !q.finished && q.start.any (fun st => decide (st ≤ k.ecyc))) then 24 else 0 := by
    rw [← hlane]
    rfl
  rw [Core.cycleWeight, hfly]
  split
  · rfl
  · omega

theorem windowsFreezeCores : PowerWindowsFreezeCores := by
  intro s c k l planes laneL charged win fab limit hard seen throttles
  have hwin : win = s.windowOf c := by
    rw [State.windowOf, cycleWeight_eq]
  clear_value win
  subst hwin
  have hseen : s.modCore c seen = s.windowed c := rfl
  have hself : (s.windowed c).core c = seen k := core_modCore_same _ _ _
  have hthrottle (hb : k.bound = true) (ht : k.throttled = false) (hx : s.windowCheck c = (s.windowed c).throttle c) : throttles :=
    ⟨_, by rw [exec_powerWindowCheck, hx], windowed_throttles hb ht⟩
  rw [exec_powerWindowCheck]
  refine ⟨fun h => ?within, fun h ht => ?throttled, fun h ht => ⟨fun hf ha => ?alone, fun hf hg hb hp => ?gang, fun hf hg hb hp => ⟨fun hw => ?raises, fun hw hz => ?pairOver⟩,
    fun hf hx hp => ?crosses, fun hf hw hp => ?fabricOver, fun hf hx => ?waits⟩, fun n => ⟨fun h => ?propagates, fun h => ?early⟩, fun a hp ha hpos hz => ?frame⟩
  case within =>
    rw [windowCheck_within h]
    exact congrArg Host.Outcome.next (modCore_setCore s c _ _)
  case throttled =>
    rw [windowCheck_throttled h ht]
    exact congrArg Host.Outcome.next (modCore_setCore s c _ _)
  case alone =>
    rw [windowCheck_alone h ht hf ha]
    exact congrArg Host.Outcome.next (modCore_setCore s c _ _)
  case gang =>
    have hx : s.windowCheck c = (s.windowed c).freezeCores (s.coresOf k.launch) := by rw [windowCheck_gang h ht hf hg hb, if_neg (Bool.eq_false_iff.mp hp)]
    rw [hx]
    refine ⟨_, rfl, fun d hd => ?_, fun d hd hn => ?_⟩
    · rw [freezeCores_core, if_pos hd]
      rfl
    · rw [freezeCores_core, if_neg hn, windowed_core, if_neg hd]
  case raises =>
    have hx : s.windowCheck c = (s.windowed c).raised k.launch (s.raiseAt c) l.partner := by
      rw [windowCheck_gang h ht hf hg hb, if_pos hp, if_neg]
      simp only [Bool.and_eq_true, decide_eq_true_eq, Bool.not_eq_true', List.isEmpty_eq_false_iff, not_and, not_not]
      exact fun hover => hw.resolve_left (Nat.not_le.mpr hover)
    obtain ⟨hl, hq⟩ := raised_launch (s.windowed c) k.launch (s.raiseAt c) l.partner
    rw [hx]
    exact ⟨_, rfl, hl, hq, (raised_core _ _ _ _ c).trans hself⟩
  case pairOver =>
    refine hthrottle hb ht ?_
    rw [windowCheck_gang h ht hf hg hb, if_pos hp, if_pos]
    simp only [Bool.and_eq_true, decide_eq_true_eq, Bool.not_eq_true', List.isEmpty_eq_false_iff]
    exact ⟨hw, hz⟩
  case crosses =>
    have hx' : (s.core c).crossed = false := hx
    have hcheck : s.windowCheck c = { s.windowed c with pendFreeze := some s.now } := by
      rw [windowCheck_fabric h ht hf, hp, hx']
      simp
    rw [hcheck]
    exact ⟨_, rfl, rfl, hself⟩
  case fabricOver =>
    have hb : k.bound = true := (Bool.and_eq_true_iff.mp hf).1
    refine hthrottle hb ht ?_
    rw [windowCheck_fabric h ht hf, if_pos]
    simp only [Bool.and_eq_true, decide_eq_true_eq, Option.isSome_iff_ne_none]
    exact ⟨hw, hp⟩
  case waits =>
    have hcheck : s.windowCheck c = s.windowed c := by
      rw [windowCheck_fabric h ht hf]
      rcases hx with ⟨hc, hp⟩ | ⟨hw, hp⟩
      · have hc' : (s.core c).crossed = true := hc
        simp [hp, hc']
      · have hw' : ¬ s.hardOf c < (s.windowOf c).sum := Nat.not_lt.mpr hw
        simp [hw', Option.isSome_iff_ne_none.mpr hp]
    rw [hcheck]
    rfl
  case propagates =>
    refine ⟨_, exec_gangFreezePropagate n s, fun d hd => ?_, gangFreeze_done h, fun d hd => ?_⟩
    · rw [gangFreeze_core h, if_pos hd]
      rfl
    · rw [gangFreeze_core h, if_neg hd]
  case early => rw [exec_gangFreezePropagate, gangFreeze_early h]
  case frame =>
    rw [exec_fabricFrameFreeze, frameFreezeNow_due hp ha hpos hz]
    rfl

/-- Settles O43: the branches of the window's check, the table of weights, and what a gang senses. -/
theorem powerWindowsFreezeCores : Obligations.PowerWindowsFreezeCores :=
  ⟨windowsFreezeCores, weightsAreTheTable, gangsWaitAndStopTogether⟩

end Sys2Proof.Machine
end

section
/-! SUPPORT. Posts, event writes and barrier releases as they land (R60, R61, R266, R267, R269). -/

namespace Sys2Proof.Machine

theorem exec_flagPostArrival (c flag n : Nat) (s : State) : exec (.flagPostArrival c flag n) s = .next (s.postLand none c flag n) := rfl
theorem exec_eventBitWrite (die ctx bit : Nat) (set : Bool) (s : State) :
    exec (.eventBitWrite die ctx bit set) s = .next (s.eventWrite (ctxKey die ctx) bit set) := rfl
theorem exec_barrierRelease (l die group quad idx : Nat) (s : State) :
    exec (.barrierRelease l die group quad idx) s = .next (s.barRelease l die group quad idx) := rfl

/-! ## Where a post lands (R60, R266) -/

theorem postLand_bound {s : State} {c : Nat} (flag n : Nat) (hb : (s.core c).bound = true) :
    s.postLand none c flag n = s.modCore c (fun k => k.post flag n) := by
  simp [State.postLand, hb]

theorem postLand_saved {s : State} {c l : Nat} (flag n : Nat) (hb : (s.core c).bound = false) (hl : s.savedOn none c = some l) :
    s.postLand none c flag n = s.modLaunch l (fun x => { x with postsHeld := x.postsHeld ++ [(c, flag, n)] }) := by
  simp [State.postLand, hb, hl]

theorem postLand_dropped {s : State} {c : Nat} (flag n : Nat) (hb : (s.core c).bound = false) (hl : s.savedOn none c = none) :
    s.postLand none c flag n = s := by
  simp [State.postLand, hb, hl]

theorem savedOn_eq_none {s : State} {c : Nat} (h : ∀ l ∈ s.launches, ∀ q ∈ l.2.saved, q.2.1 ≠ c) : s.savedOn none c = none := by
  rw [State.savedOn, Option.map_eq_none_iff, List.find?_eq_none]
  intro l hl hsaved
  obtain ⟨q, hq, hc⟩ := List.any_eq_true.mp (Bool.and_eq_true_iff.mp hsaved).2
  exact h l hl q hq (beq_iff_eq.mp hc)

/-! ## One bit of the event word (R61) -/

theorem getLsbD_setFlag_ne (w : BitVec 256) {f j : Nat} (hj : j ≠ f) : (w ||| BitVec.ofNat 256 (2 ^ f)).getLsbD j = w.getLsbD j := by
  rw [BitVec.getLsbD_or, BitVec.getLsbD_ofNat, Nat.testBit_two_pow_of_ne hj.symm, Bool.and_false, Bool.or_false]

theorem getLsbD_clearFlag (w : BitVec 256) (f : Nat) : (w &&& ~~~ BitVec.ofNat 256 (2 ^ f)).getLsbD f = false := by
  rw [BitVec.getLsbD_and, BitVec.getLsbD_not, BitVec.getLsbD_ofNat, Nat.testBit_two_pow_self]
  cases decide (f < 256) <;> simp

theorem getLsbD_clearFlag_ne (w : BitVec 256) {f j : Nat} (hj : j ≠ f) :
    (w &&& ~~~ BitVec.ofNat 256 (2 ^ f)).getLsbD j = w.getLsbD j := by
  rw [BitVec.getLsbD_and, BitVec.getLsbD_not, BitVec.getLsbD_ofNat, Nat.testBit_two_pow_of_ne hj.symm, Bool.and_false, Bool.not_false,
    Bool.and_true]
  by_cases h : j < 256
  · simp [h]
  · simp [BitVec.getLsbD_of_ge w j (Nat.le_of_not_lt h)]

/-- A context after a write of one event bit. -/
def Ctx.putEvent (x : Ctx) (bit : Nat) (set : Bool) : Ctx :=
  { x with ev := if set then x.ev ||| BitVec.ofNat 256 (2 ^ bit) else x.ev &&& ~~~ BitVec.ofNat 256 (2 ^ bit) }

theorem putEvent_getLsbD_same (x : Ctx) {bit : Nat} (set : Bool) (hb : bit < 256) : (x.putEvent bit set).ev.getLsbD bit = set := by
  cases set with
  | true => exact getLsbD_setFlag x.ev hb
  | false => exact getLsbD_clearFlag x.ev bit

theorem putEvent_getLsbD_ne (x : Ctx) {bit j : Nat} (set : Bool) (hj : j ≠ bit) :
    (x.putEvent bit set).ev.getLsbD j = x.ev.getLsbD j := by
  cases set with
  | true => exact getLsbD_setFlag_ne x.ev hj
  | false => exact getLsbD_clearFlag_ne x.ev hj

/-- But for the messages of the host link, an event write is a write of its context's one bit. -/
theorem eventWrite_besideHost (s : State) (ctx : Nat) {bit : Nat} (set : Bool) (hb : bit < 256) :
    { s.eventWrite ctx bit set with host := s.host } = s.modCtx ctx (fun x => x.putEvent bit set) := by
  rw [State.eventWrite, Nat.mod_eq_of_lt hb]
  cases set with
  | true =>
    simp only [if_true, State.setEvent]
    split <;> rfl
  | false => rfl

theorem eventWrite_ctx (s : State) (ctx : Nat) {bit : Nat} (set : Bool) (hb : bit < 256) (x : Nat) :
    (s.eventWrite ctx bit set).ctx x = if x = ctx then (s.ctx x).putEvent bit set else s.ctx x :=
  (congrArg (fun t : State => t.ctx x) (eventWrite_besideHost s ctx set hb)).trans (ctx_modCtx _ _ _ _)

theorem eventWrite_cores (s : State) (ctx : Nat) {bit : Nat} (set : Bool) (hb : bit < 256) : (s.eventWrite ctx bit set).cores = s.cores :=
  (congrArg State.cores (eventWrite_besideHost s ctx set hb) :)

theorem eventWrite_mem (s : State) (ctx : Nat) {bit : Nat} (set : Bool) (hb : bit < 256) : (s.eventWrite ctx bit set).mem = s.mem :=
  (congrArg State.mem (eventWrite_besideHost s ctx set hb) :)

/-! ## MSI-X vectors that fire (R357) -/

/-- What one element of a fold brings about stands at its end, if every other step keeps it and keeps what that element needs. -/
theorem foldl_establishes {σ α : Type} {f : σ → α → σ} {Pre Post : σ → Prop} {a : α} (hpre : ∀ s b, Pre s → Pre (f s b))
    (ha : ∀ s, Pre s → Post (f s a)) (hpost : ∀ s b, Post s → Post (f s b)) {l : List α} (hl : a ∈ l) {s : σ} (hs : Pre s) :
    Post (l.foldl f s) := by
  obtain ⟨before, after, rfl⟩ := List.append_of_mem hl
  rw [List.foldl_append, List.foldl_cons]
  have hreached : Pre (before.foldl f s) := List.foldlRecOn before f hs (fun t ht b _ => hpre t b ht)
  exact List.foldlRecOn after f (ha _ hreached) (fun t ht b _ => hpost t b ht)

theorem fire_masked {h : HostLink} {v : Nat} (hm : bitAt (h.vector v 1) 32 = true) :
    h.fire v = { h with msix := h.msix ||| BitVec.ofNat 64 (2 ^ v) } := by
  rw [HostLink.fire, if_pos hm]

theorem fire_unmasked {h : HostLink} {v : Nat} (hm : bitAt (h.vector v 1) 32 = false) :
    h.fire v = { h with msixSent := h.msixSent ++ [(v, h.vector v 0, fld (h.vector v 1) 31 0)] } := by
  rw [HostLink.fire, hm, if_neg Bool.false_ne_true]

@[simp] theorem fire_msixTable (h : HostLink) (v : Nat) : (h.fire v).msixTable = h.msixTable := by
  unfold HostLink.fire
  split <;> rfl

theorem fire_vector (h : HostLink) (v u i : Nat) : (h.fire v).vector u i = h.vector u i := by
  rw [HostLink.vector, HostLink.vector, fire_msixTable]

theorem fire_keeps_pending {h : HostLink} {v : Nat} (u : Nat) (hv : h.msix.getLsbD v = true) : (h.fire u).msix.getLsbD v = true := by
  unfold HostLink.fire
  split
  · rw [BitVec.getLsbD_or, hv, Bool.true_or]
  · exact hv

theorem fire_keeps_sent {h : HostLink} {m : Nat × Nat × Nat} (u : Nat) (hm : m ∈ h.msixSent) : m ∈ (h.fire u).msixSent := by
  unfold HostLink.fire
  split
  · exact hm
  · exact List.mem_append_left _ hm

theorem fires_pending {h : HostLink} {vs : List Nat} {v : Nat} (hv : v ∈ vs) (h64 : v < 64) (hm : bitAt (h.vector v 1) 32 = true) :
    (vs.foldl HostLink.fire h).msix.getLsbD v = true := by
  refine foldl_establishes (Pre := fun g : HostLink => bitAt (g.vector v 1) 32 = true) (Post := fun g : HostLink => g.msix.getLsbD v = true)
    (fun g u hg => ?_) (fun g hg => ?_) (fun g u hg => fire_keeps_pending u hg) hv hm
  · rw [fire_vector, hg]
  · rw [fire_masked hg, BitVec.getLsbD_or, BitVec.getLsbD_ofNat, Nat.testBit_two_pow_self, decide_eq_true h64, Bool.and_self, Bool.or_true]

theorem fires_sent {h : HostLink} {vs : List Nat} {v : Nat} (hv : v ∈ vs) (hm : bitAt (h.vector v 1) 32 = false) :
    (v, h.vector v 0, fld (h.vector v 1) 31 0) ∈ (vs.foldl HostLink.fire h).msixSent := by
  refine foldl_establishes (Pre := fun g : HostLink => ∀ i, g.vector v i = h.vector v i)
    (Post := fun g : HostLink => (v, h.vector v 0, fld (h.vector v 1) 31 0) ∈ g.msixSent)
    (fun g u hg i => ?_) (fun g hg => ?_) (fun g u hg => fire_keeps_sent u hg) hv (fun _ => rfl)
  · rw [fire_vector, hg]
  · rw [fire_unmasked (by rw [hg, hm]), hg, hg]
    exact List.mem_append_right _ List.mem_cons_self

theorem mem_irqsOf {s : State} {die ctx bit v : Nat} (hb : bit < 256) (hv : v < 64) (hd : die < 2) (hc : ctx < 64)
    (hm : (s.host.irqmap.getD v 0).toNat = 0x8000 + bit * 2 ^ 7 + die * 2 ^ 6 + ctx) : v ∈ s.irqsOf (ctxKey die ctx) bit := by
  rw [State.irqsOf, List.mem_filter, List.mem_range]
  refine ⟨hv, ?_⟩
  simp only [hm, bitAt, fld, ctxKey, Bool.and_eq_true, beq_iff_eq, decide_eq_true_eq]
  omega

/-- A bit that becomes set fires every vector that names it. -/
theorem eventWrite_fires {s : State} {ctx bit : Nat} (hb : bit < 256) (hclear : (s.ctx ctx).ev.getLsbD bit = false) :
    (s.eventWrite ctx bit true).host = (s.irqsOf ctx bit).foldl HostLink.fire s.host := by
  rw [State.eventWrite, if_pos rfl, Nat.mod_eq_of_lt hb, State.setEvent]
  simp only [hclear]
  rfl

theorem eventWrite_pending {s : State} {ctx bit v : Nat} (hb : bit < 256) (hclear : (s.ctx ctx).ev.getLsbD bit = false)
    (hv : v ∈ s.irqsOf ctx bit) (h64 : v < 64) (hm : (s.host.msixTable.getD (2 * v + 1) 0).getLsbD 32 = true) :
    (s.eventWrite ctx bit true).host.msix.getLsbD v = true := by
  rw [eventWrite_fires hb hclear]
  exact fires_pending hv h64 ((bitAt_toNat _ 32).trans hm)

theorem eventWrite_sent {s : State} {ctx bit v : Nat} (hb : bit < 256) (hclear : (s.ctx ctx).ev.getLsbD bit = false)
    (hv : v ∈ s.irqsOf ctx bit) (hm : (s.host.msixTable.getD (2 * v + 1) 0).getLsbD 32 = false) :
    (v, (s.host.msixTable.getD (2 * v) 0).toNat, (s.host.msixTable.getD (2 * v + 1) 0).toNat % 2 ^ 32) ∈
      (s.eventWrite ctx bit true).host.msixSent := by
  rw [eventWrite_fires hb hclear, ← fld_low _ 31]
  exact fires_sent hv ((bitAt_toNat _ 32).trans hm)

/-! ## The arrivals that a barrier's release marks (R269) -/

theorem find_mapEntries {α : Type} (g : Nat → α → α) (t : Tbl α) (i : Nat) :
    Tbl.find? (t.map (fun q => (q.1, g q.1 q.2))) i = (Tbl.find? t i).map (g i) := by
  induction t with
  | nil => rfl
  | cons p r ih =>
    obtain ⟨j, a⟩ := p
    rw [List.map_cons, Tbl.find?, Tbl.find?, ih]
    split
    · next h => rw [h, Option.map_some]
    · rfl

/-- An update of every entry of a table, which leaves the cold entry as it is, is an update of what the table holds. -/
theorem getD_mapEntries {α : Type} {g : Nat → α → α} {d : α} {i : Nat} (hd : g i d = d) (t : Tbl α) :
    Tbl.getD (t.map (fun q => (q.1, g q.1 q.2))) i d = g i (Tbl.getD t i d) := by
  rw [Tbl.getD, find_mapEntries, Tbl.getD]
  cases Tbl.find? t i with
  | none => exact hd.symm
  | some a => rfl

/-- The kind of a barrier whose span has this quad number: 0 of a quad, 1 of a group. -/
def spanKind (quad : Nat) : Nat := if quad < 16 then 0 else 1

/-- A core stands in a barrier's span. -/
def inSpan (die group quad c : Nat) : Bool := dieOf c == die && groupOf c == group && (spanKind quad == 1 || fld c 5 2 == quad)

theorem inSpan_iff {die group quad c : Nat} :
    inSpan die group quad c = true ↔ dieOf c = die ∧ groupOf c = group ∧ (16 ≤ quad ∨ fld c 5 2 = quad) := by
  have hkind : spanKind quad = 1 ↔ 16 ≤ quad := by
    unfold spanKind
    split <;> omega
  simp only [inSpan, Bool.and_eq_true, Bool.or_eq_true, beq_iff_eq, hkind, and_assoc]

/-- What a release makes of an arrival's mark. -/
def Core.marked (k : Core) (kind idx now : Nat) : Core :=
  match k.barrier with
  | some (a, i, _) => if a = kind && i = idx then { k with barrier := some (relKind kind, idx, now) } else k
  | none => k

theorem marked_of_arrival {k : Core} {kind idx a : Nat} (now : Nat) (h : k.barrier = some (kind, idx, a)) :
    k.marked kind idx now = { k with barrier := some (16 + kind, idx, now) } := by
  simp [Core.marked, h, relKind, Nat.add_comm]

theorem marked_of_no_arrival {k : Core} {kind idx : Nat} (now : Nat) (h : ∀ a, k.barrier ≠ some (kind, idx, a)) :
    k.marked kind idx now = k := by
  unfold Core.marked
  split
  · next b i a hk =>
    refine if_neg fun hbi => ?_
    simp only [Bool.and_eq_true, decide_eq_true_eq] at hbi
    obtain ⟨rfl, rfl⟩ := hbi
    exact h a hk
  · rfl

/-- What a release makes of a core. -/
def Core.releasedBy (l die group quad idx now c : Nat) (k : Core) : Core :=
  if k.launch = l && k.tagged && inSpan die group quad c then k.marked (spanKind quad) idx now else k

theorem releasedBy_of_barrier_none {l die group quad idx c : Nat} {k : Core} (now : Nat) (h : k.barrier = none) :
    k.releasedBy l die group quad idx now c = k := by
  rw [Core.releasedBy, marked_of_no_arrival now (fun a ha => by simp [h] at ha), ite_self]

theorem barRelease_eq (s : State) (l die group quad idx : Nat) :
    s.barRelease l die group quad idx =
      { s with cores := s.cores.map (fun q => (q.1, q.2.releasedBy l die group quad idx s.now q.1)) } := by
  refine congrArg (fun cs => { s with cores := cs }) (List.map_congr_left fun q _ => ?_)
  obtain ⟨c, k⟩ := q
  by_cases hin : (k.launch = l && k.tagged && inSpan die group quad c) = true
  · rw [Core.releasedBy, if_pos hin]
    refine (if_pos hin).trans ?_
    unfold Core.marked
    cases hb : k.barrier with
    | none => rfl
    | some b => exact (apply_ite (Prod.mk c) _ _ _).symm
  · rw [Core.releasedBy, if_neg hin]
    exact if_neg hin

theorem barRelease_core (s : State) (l die group quad idx c : Nat) :
    (s.barRelease l die group quad idx).core c = (s.core c).releasedBy l die group quad idx s.now c := by
  rw [barRelease_eq]
  refine getD_mapEntries (g := fun i k => k.releasedBy l die group quad idx s.now i) ?_ s.cores
  exact releasedBy_of_barrier_none s.now rfl

/-- A TAGGED arrival of a launch at the barrier of a span and an index. -/
def Core.ArrivedAt (l die group quad idx c : Nat) (k : Core) : Prop :=
  k.launch = l ∧ k.tagged = true ∧ dieOf c = die ∧ groupOf c = group ∧ (16 ≤ quad ∨ fld c 5 2 = quad) ∧
    ∃ a, k.barrier = some (spanKind quad, idx, a)

theorem arrivedAt_iff {l die group quad idx c : Nat} {k : Core} :
    k.ArrivedAt l die group quad idx c ↔
      (k.launch = l && k.tagged && inSpan die group quad c) = true ∧ ∃ a, k.barrier = some (spanKind quad, idx, a) := by
  simp only [Core.ArrivedAt, Bool.and_eq_true, decide_eq_true_eq, inSpan_iff, and_assoc]

theorem releasedBy_of_arrived {l die group quad idx c : Nat} {k : Core} (now : Nat) (h : k.ArrivedAt l die group quad idx c) :
    k.releasedBy l die group quad idx now c = { k with barrier := some (16 + spanKind quad, idx, now) } := by
  obtain ⟨hin, a, ha⟩ := arrivedAt_iff.mp h
  rw [Core.releasedBy, if_pos hin, marked_of_arrival now ha]

theorem releasedBy_of_not_arrived {l die group quad idx c : Nat} {k : Core} (now : Nat) (h : ¬k.ArrivedAt l die group quad idx c) :
    k.releasedBy l die group quad idx now c = k := by
  unfold Core.releasedBy
  split
  · next hin => exact marked_of_no_arrival now fun a ha => h (arrivedAt_iff.mpr ⟨hin, a, ha⟩)
  · rfl

/-! ## The obligation -/

/-- Settles O41: a post is a case of `State.postLand`, an event write a write of one context whose vectors fire one by one, and a release an
update of each core of the table. -/
theorem postsEventsAndBarriersLand : Obligations.PostsEventsAndBarriersLand := by
  refine ⟨fun s c flag n => ⟨fun hb => ?_, fun l hb hl => ?_, fun hb hnone => ?_⟩, fun s die ctx bit set hb => ?_,
    fun s l die group quad idx => ⟨_, exec_barrierRelease l die group quad idx s, fun c => ⟨fun h => ?_, fun h => ?_⟩⟩⟩
  · rw [exec_flagPostArrival, postLand_bound flag n hb]
    rfl
  · rw [exec_flagPostArrival, postLand_saved flag n hb hl]
  · rw [exec_flagPostArrival, postLand_dropped flag n hb (savedOn_eq_none hnone)]
  · have hctx := eventWrite_ctx s (ctxKey die ctx) set hb
    have hsame := (hctx (ctxKey die ctx)).trans (if_pos rfl)
    refine ⟨_, exec_eventBitWrite die ctx bit set s, ?_, fun j hj => ?_, fun x hx => (hctx x).trans (if_neg hx),
      eventWrite_cores s _ set hb, eventWrite_mem s _ set hb, ?_⟩
    · exact (congrArg (fun x : Ctx => x.ev.getLsbD bit) hsame).trans (putEvent_getLsbD_same _ set hb)
    · exact (congrArg (fun x : Ctx => x.ev.getLsbD j) hsame).trans (putEvent_getLsbD_ne _ set hj)
    · rintro v hv rfl hd hc hclear hmap
      have hv' := mem_irqsOf hb hv hd hc hmap
      exact ⟨fun hmask => eventWrite_pending hb hclear hv' hv hmask, fun hmask => eventWrite_sent hb hclear hv' hmask⟩
  · exact (barRelease_core s l die group quad idx c).trans (releasedBy_of_arrived s.now h)
  · exact (barRelease_core s l die group quad idx c).trans (releasedBy_of_not_arrived s.now h)

end Sys2Proof.Machine
end
section
/-! SUPPORT. One trigger of a unit, alone in its bundle, acts on the core as its operand moves have left it (R101, R103): what it gives, or
its stop. -/

namespace Sys2Proof.Machine

open Sys2Proof.Claims

/-- An operation of a unit other than au and c in a slot of a bus: no plain move, no barrier. -/
structure State.UnitOp (s : State) (i : Instr) : Prop where
  trigger : i.isPlain = false
  noBar : barOf i = none
  unit : isAuOrC (s.act1 i) = false

/-- A core with the sticky state that a trigger of i on s sets (R101). -/
abbrev State.arms (s : State) (i : Instr) (k : Core) : Core := k.setStickyOf (s.act1 i) true

theorem filter_au_unit {a : Act} (hu : isAuOrC a = false) : [a].filter (isUnit .au) = [] := by
  refine List.filter_cons_of_neg ?_
  cases h : unitOf a.i <;> simp_all [isAuOrC, isUnit]

theorem filter_c_unit {a : Act} (hu : isAuOrC a = false) : [a].filter (isUnit .c) = [] := by
  refine List.filter_cons_of_neg ?_
  cases h : unitOf a.i <;> simp_all [isAuOrC, isUnit]

/-! ## The issue of one act, on any state -/

section
variable {s : State} {i : Instr} (hc : s.UnitOp i) (u : State)
include hc

theorem latchMoves_unit : u.latchMoves [s.act1 i] = u := by
  have hp := hc.trigger
  change u.latchMove (s.act1 i) = u
  cases i with
  | move _ _ _ _ => cases hp
  | _ => rfl

theorem issueActs_unit {z : State × List (Nat × Stop)} (hz : runActs (u.modCore s.cur (s.arms i)) [s.act1 i] = z) :
    u.issueActs s.cur [s.act1 i] [] (fun _ => true) =
      (((z.1.pops s.cur [s.act1 i]).regMove (s.act1 i)).modCore s.cur (fun k => k.rowSteps [s.act1 i]), z.2) := by
  have hall : [s.act1 i].filter (fun a => !isAuOrC a) = [s.act1 i] := by simp [hc.unit]
  unfold State.issueActs
  simp only [firing_one, hall, latchMoves_unit hc u]
  rw [← hz]
  rfl

variable {u}

/-- A trigger that fires: the bundle ends on what it leaves. -/
theorem issueNow_fires {t : State} (hf : fireSlot i (s.act1 i).ic (u.modCore s.cur (s.arms i)) = .ok t) :
    u.issueNow s.cur (oneSlot i) [s.act1 i] [] [] [] =
      .issue (if (u.core s.cur).tagged then (s.closed1 t i).tick1 else s.closed1 t i) := by
  have hrun : runActs (u.modCore s.cur (s.arms i)) [s.act1 i] = (t, []) := by
    have hf' : fireSlot (s.act1 i).i (s.act1 i).ic (u.modCore s.cur (s.arms i)) = .ok t := hf
    simp only [runActs, hf']
  unfold State.issueNow
  simp only [issueActs_unit hc u hrun, filter_au_unit hc.unit, filter_c_unit hc.unit, runActs, List.append_nil, leastStop,
    idleHeld_other s _ i _ (isIdle_control s i hc.unit)]
  rfl

/-- A trigger that stops: its stop is what the issue comes to. -/
theorem issueNow_stops {st : Stop} (hf : fireSlot i (s.act1 i).ic (u.modCore s.cur (s.arms i)) = .error st) :
    u.issueNow s.cur (oneSlot i) [s.act1 i] [] [] [] = .stop st := by
  have hrun : runActs (u.modCore s.cur (s.arms i)) [s.act1 i] = (u.modCore s.cur (s.arms i), [rankStop (s.act1 i) st]) := by
    have hf' : fireSlot (s.act1 i).i (s.act1 i).ic (u.modCore s.cur (s.arms i)) = .error st := hf
    simp only [runActs, hf']
  have hre : (s.act1 i).ic.re = false := rfl
  unfold State.issueNow
  simp only [issueActs_unit hc u hrun, filter_au_unit hc.unit, filter_c_unit hc.unit, runActs, List.append_nil, List.nil_append, leastStop,
    rankStop, hre, Bool.false_eq_true, if_false]

end

/-! ## What a clear issue comes to -/

theorem issueTimed_joins (s : State) (c : Nat) (q : Bundle) (a : Act) (hb : barOf a.i = none)
    (hw : (s.latchMoves [a]).actWait a = .go) (he : (s.latchMoves [a]).earlyStops [a] = []) :
    s.issueTimed c q [a] [] = (s.joinMmaq c q [a]).issueNow c q [a] [] [] [] := by
  have hgo : (s.latchMoves [a]).waitsOf [a] = .go := by
    rw [State.waitsOf, List.foldl_cons, List.foldl_nil, hw]
    rfl
  have hmiss : (s.latchMoves [a]).missStops [a] = [] := by
    rw [State.missStops, List.filterMap_cons_none (by rw [hw]), List.filterMap_nil]
  have hbar : [a].findSome? (fun a => (barOf a.i).map (fun b => (a, b))) = none := by
    simp only [List.findSome?_cons, hb, Option.map_none, List.findSome?_nil]
  unfold State.issueTimed
  simp only [List.append_nil, hgo, hbar, he, hmiss]

theorem roleStop_none {s : State} {c : Nat} {l : List BSlot} (h : s.roleStop c l = none) : linkStop c l = none ∧ s.privStop c l = none := by
  unfold State.roleStop at h
  cases hlink : linkStop c l with
  | none => exact ⟨rfl, by simpa [hlink] using h⟩
  | some st => simp [hlink] at h

/-- An MMAQ of a TIMED gang issues when its joint issue has been looked for (R228); any other instruction issues on the state as it is. -/
theorem execSlot_joins {s : State} {i : Instr} (h : s.Clear i) (hb : barOf i = none) :
    s.execSlot i = .next (s.settle s.cur
      ((if s.me.tagged then s else s.joinMmaq s.cur (oneSlot i) [s.act1 i]).issueNow s.cur (oneSlot i) [s.act1 i] [] [] [])) := by
  obtain ⟨hlink, hpriv⟩ := roleStop_none h.role
  have hre : (s.core s.cur).reissues s.cur (oneSlot i) [s.act1 i] = [] := reissues_none _ _ _ _ h.noL h.noX h.noM
  have htry : s.trySlot s.cur i =
      (if s.me.tagged then s else s.joinMmaq s.cur (oneSlot i) [s.act1 i]).issueNow s.cur (oneSlot i) [s.act1 i] [] [] [] := by
    rw [State.trySlot, if_pos h.formed, State.issue]
    simp only [hlink, hpriv, actsOf_oneSlot s i h.guard h.first, h.link, hre, mustWait_none s s.cur _ _ _ h.noHeld, Bool.and_false,
      Bool.false_eq_true, if_false]
    split
    · exact issueTagged_one s s.cur _ (s.act1 i) h.noHeld hb h.waits (early_none s i h)
    · exact issueTimed_joins s s.cur _ (s.act1 i) hb h.waits (early_none s i h)
  rw [State.execSlot, h.runs, htry]

/-- No joint issue is to be looked for: the operation is another, or its gang is none of R228, or the product stands already. -/
def State.NoJoin (s : State) (i : Instr) : Prop :=
  isMmaq i = false ∨ s.quadGang s.cur = false ∨ s.me.mmaq = some (2 * s.me.lcyc) ∨ s.me.mmaq = some (2 * s.me.lcyc + 1)

theorem joinMmaq_none {s : State} {i : Instr} (hj : s.NoJoin i) (q : Bundle) : s.joinMmaq s.cur q [s.act1 i] = s := by
  rw [State.joinMmaq]
  refine if_neg fun hall => ?_
  simp only [Bool.and_eq_true, bne_iff_ne, List.any_cons, List.any_nil, Bool.or_false] at hall
  obtain ⟨⟨⟨hm, hg⟩, h0⟩, h1⟩ := hall
  obtain h | h | h | h := hj
  · exact Bool.false_ne_true (h.symm.trans hm)
  · exact Bool.false_ne_true (h.symm.trans hg)
  · exact h0 h
  · exact h1 h

/-- K is the core k but for the sticky states, which a trigger sets (R101). -/
def Core.Armed (K k : Core) : Prop := ∃ l x m t, K = { k with stL := l, stX := x, stM := m, mTrig := t }

theorem arms_armed (s : State) (i : Instr) (k : Core) : (s.arms i k).Armed k := ⟨_, _, _, _, setStickyOf_eq k _ _⟩

/-- The end of a bundle sets the sticky states itself. -/
theorem bookkept_of_armed {k l k' : Core} {tiles : List Nat} (hl : l.Armed k) (h : l.Bookkept k' tiles) : k.Bookkept k' tiles := by
  obtain ⟨_, _, _, _, rfl⟩ := hl
  obtain ⟨hframe, hrows, hptrs, hcount, hend, hon⟩ := h
  exact ⟨hframe, hrows, hptrs, hcount, hend, hon⟩

section
variable {s : State} {i : Instr} (hx : exec i s = s.execSlot i) (hc : s.UnitOp i) (hj : s.NoJoin i)
include hx hc hj

theorem exec_issues (h : s.Clear i) : exec i s = .next (s.settle s.cur (s.issueNow s.cur (oneSlot i) [s.act1 i] [] [] [])) := by
  rw [hx, execSlot_joins h hc.noBar, joinMmaq_none hj, ite_self]

/-- A trigger that gives the core, as its sticky states stand, the registers k. -/
theorem gives_of_fire {k : Core} (hrep : k.rep = s.me.rep)
    (hf : ∀ K : Core, K.Armed s.me → ∃ l, fireSlot i (s.act1 i).ic (s.setCore s.cur K) = .ok (s.setCore s.cur l) ∧ l.Armed k) : Gives s i k := by
  intro h
  obtain ⟨l, hfire, hl⟩ := hf _ (arms_armed s i s.me)
  have hrun := issueNow_fires hc (u := s) hfire
  have hrep' : ((s.setCore s.cur l).core s.cur).rep = 0 := by
    obtain ⟨_, _, _, _, rfl⟩ := hl
    rw [core_setCore_same]
    exact hrep.trans h.first
  have hkept := closed1_kept s (s.setCore s.cur l) i hc.trigger hrep'
  rw [core_setCore_same] at hkept
  refine ⟨s.fin1 (s.closed1 (s.setCore s.cur l) i), ?_, fin1_only _ _ _ (closed1_only s _ i hc.trigger (onlyCore_setCore s l i)),
    fin1_kept _ _ _ _ (bookkept_of_armed hl hkept)⟩
  rw [exec_issues hx hc hj h, hrun, settle_issue]
  rfl

/-- A trigger that stops. -/
theorem stops_of_unit {st : Stop} (hf : ∀ K : Core, K.Armed s.me → fireSlot i (s.act1 i).ic (s.setCore s.cur K) = .error st) : Stops s i st := by
  intro h
  rw [exec_issues hx hc hj h, issueNow_stops hc (u := s) (hf _ (arms_armed s i s.me))]
  rfl

end

end Sys2Proof.Machine
end

section
/-! SUPPORT. The operations of m on one core (R216 to R232). -/

namespace Sys2Proof.Machine

open Sys2Proof.Claims

theorem exec_mzero (src : BitVec 9) (g : BitVec 6) (s : State) : exec (.mzero src g) s = s.execSlot (.mzero src g) := rfl
theorem exec_wclr (src : BitVec 9) (g : BitVec 6) (s : State) : exec (.wclr src g) s = s.execSlot (.wclr src g) := rfl
theorem exec_mrd (src : BitVec 9) (g : BitVec 6) (s : State) : exec (.mrd src g) s = s.execSlot (.mrd src g) := rfl
theorem exec_mscl (src : BitVec 9) (g : BitVec 6) (s : State) : exec (.mscl src g) s = s.execSlot (.mscl src g) := rfl
theorem exec_mma (src : BitVec 9) (f : BitVec 4) (g : BitVec 6) (s : State) : exec (.mma src f g) s = s.execSlot (.mma src f g) := rfl
theorem exec_mmaq (src : BitVec 9) (f : BitVec 4) (g : BitVec 6) (s : State) : exec (.mmaq src f g) s = s.execSlot (.mmaq src f g) := rfl

theorem mzero_unitOp (s : State) (src : BitVec 9) (g : BitVec 6) : s.UnitOp (.mzero src g) := ⟨rfl, rfl, rfl⟩
theorem wclr_unitOp (s : State) (src : BitVec 9) (g : BitVec 6) : s.UnitOp (.wclr src g) := ⟨rfl, rfl, rfl⟩
theorem mrd_unitOp (s : State) (src : BitVec 9) (g : BitVec 6) : s.UnitOp (.mrd src g) := ⟨rfl, rfl, rfl⟩
theorem mscl_unitOp (s : State) (src : BitVec 9) (g : BitVec 6) : s.UnitOp (.mscl src g) := ⟨rfl, rfl, rfl⟩
theorem mma_unitOp (s : State) (src : BitVec 9) (f : BitVec 4) (g : BitVec 6) : s.UnitOp (.mma src f g) := ⟨rfl, rfl, rfl⟩
theorem mmaq_unitOp (s : State) (src : BitVec 9) (f : BitVec 4) (g : BitVec 6) : s.UnitOp (.mmaq src f g) := ⟨rfl, rfl, rfl⟩

/-! ## MCTRL and handles (R217, R220) -/

theorem mHandle_mctrl (s : State) : mHandle (s.me.sop.getD 9 0) = mHandleOf s := fld_low _ 15
theorem mAcc_mctrl (s : State) : mAcc (s.me.sop.getD 9 0) = mAccOf s := rfl
theorem mKA_mctrl (s : State) : mKA (s.me.sop.getD 9 0) = mKaOf s := rfl

theorem mAll_mctrl (s : State) : mAll (s.me.sop.getD 9 0) = decide (mctrl s / 2 ^ 31 % 2 = 1) := rfl

theorem mRow_mctrl (s : State) : mRow (s.me.sop.getD 9 0) = mctrl s / 2 ^ 57 := by
  have hlt : mctrl s < 2 ^ 64 := (s.me.sop.getD 9 0).isLt
  change mctrl s / 2 ^ 57 % 2 ^ 7 = _
  omega

theorem hMac_handle (s : State) : hMac (mHandleOf s) = mHandleOf s / 2 ^ 12 := by
  have hlt : mHandleOf s < 2 ^ 16 := Nat.mod_lt _ (by decide)
  change mHandleOf s / 2 ^ 12 % 2 ^ 4 = _
  omega

theorem named_eq (h : Nat) (b : WBlock) : (b.mac == hMac h && b.unit == hUnit h && b.tag == hTag h) = named h b := by
  rw [named, hMac, hUnit, hTag, fld_low]
  rfl

theorem blockOf_eq (k : Core) (h : Nat) : k.blockOf h = k.blocks.find? (named h) := by
  rw [Core.blockOf, funext (named_eq h)]

/-! ## MZERO and WCLR (R225, R229) -/

theorem zip_range_replicate {α : Type} (n : Nat) (a : α) : (List.range n).zip (List.replicate n a) = (List.range n).map (fun r => (r, a)) := by
  refine List.ext_getElem (by simp) fun j hj hj' => ?_
  simp

theorem gives_mzero (s : State) (src : BitVec 9) (g : BitVec 6) :
    Gives s (.mzero src g) { s.me with t := s.me.t.set (mAccOf s) (s.me.t.getD (mAccOf s) {}).zeroed } := by
  refine gives_of_fire (exec_mzero src g s) (mzero_unitOp s src g) (.inl rfl) rfl ?_
  rintro _ ⟨l, x, m, t, rfl⟩
  refine ⟨_, ?_, l, x, m, t, rfl⟩
  change fireMzero _ _ = _
  rw [fireMzero, State.mctl]
  simp only [State.act1, core_setCore_same, modCore_setCore, mAcc_mctrl]

theorem gives_wclr (s : State) (src : BitVec 9) (g : BitVec 6) :
    Gives s (.wclr src g) { s.me with
      blocks := if mctrl s / 2 ^ 31 % 2 = 1 then [] else s.me.blocks.filter (fun b => !named (mHandleOf s) b) } := by
  refine gives_of_fire (exec_wclr src g s) (wclr_unitOp s src g) (.inl rfl) rfl ?_
  rintro _ ⟨l, x, m, t, rfl⟩
  refine ⟨_, ?_, l, x, m, t, rfl⟩
  change fireWclr _ _ = _
  rw [fireWclr, State.mctl]
  simp only [State.act1, core_setCore_same, modCore_setCore, named_eq, mHandle_mctrl, mAll_mctrl, decide_eq_true_eq]

/-! ## The block that the handle names (R217, R230, R231) -/

section
variable {s : State} (src : BitVec 9) (f : BitVec 4) (g : BitVec 6)

/-- The resident blocks with the scales of block b replaced from the scale registers (R231). -/
def rescaled (s : State) (b : WBlock) : List WBlock :=
  let scs := (List.range (nbOf b.fmt)).flatMap (fun i => (List.range 64).map (fun j => kEntry (s.me.k.getD (mKaOf s + i) 0) j))
  s.me.blocks.map (fun q => if q.mac == b.mac && q.unit == b.unit then { q with scales := scs, scl := true, nf := blockNF q.fmt q.codes scs } else q)

/-- The accumulator with the product of a core's A-row buffer and a block, and its invalid event (R226). -/
def productSum (s : State) (f : BitVec 4) (b : WBlock) : List V × Bool :=
  mmaTile [operand s (format s f) b] (accumulator s.me (mAccOf s))

/-- A core with that product in flight (R221, R227). -/
def withProduct (s : State) (f : BitVec 4) (b : WBlock) (k : Core) : Core :=
  { k with
    mma := k.mma ++ [productOf s.me (mAccOf s) (mHandleOf s / 2 ^ 12) (format s f) 5 (productSum s f b).1 false]
    aptr := 0 }

section
variable {k : Core} {ks : List (BitVec 1024)} {ic : Ic} {x : U64} {fm : BitVec 32} {b : WBlock}

theorem mmaOp_none (hs : ic.slot = 8) (hb : k.blocks.find? (named (mHandle x)) = none) : k.mmaOp ks ic x fm = .error noBlockStop := by
  rw [Core.mmaOp, blockOf_eq, hb]
  simp only [noBlock, hs, noBlockStop]

/-- A block and an A format that pass the checks of R226, with the first scale register that a control word names. -/
def Matches (x : U64) (fm : BitVec 32) (b : WBlock) : Prop := fmtBlk fm = fmtBlk b.fmt ∧ (fmtBlk fm ≠ 0 → mKA x + nbOf fm / 2 ≤ 32)

theorem mmaOp_legal (hb : k.blocks.find? (named (mHandle x)) = some b) (h : Matches x fm b) :
    k.mmaOp ks ic x fm =
      .ok { fa := fm, buf := k.arow, scaleA := scaleAOf ks (mKA x), fb := b.fmt, codes := b.codes, scales := b.scales } := by
  rw [Core.mmaOp, blockOf_eq, hb]
  exact (if_neg (not_not_intro h.1)).trans (if_neg fun hka => absurd (h.2 hka.1) (Nat.not_le.mpr hka.2))

theorem mmaOp_illegal (hb : k.blocks.find? (named (mHandle x)) = some b) (h : ¬Matches x fm b) : k.mmaOp ks ic x fm = .error (illOp ic) := by
  rw [Core.mmaOp, blockOf_eq, hb]
  by_cases hfmt : fmtBlk fm = fmtBlk b.fmt
  · refine (if_neg (not_not_intro hfmt)).trans (if_pos ?_)
    by_contra hka
    exact h ⟨hfmt, fun h0 => Nat.le_of_not_lt fun hlt => hka ⟨h0, hlt⟩⟩
  · exact if_pos hfmt

end

theorem fireMrd_armed {K : Core} (hK : K.Armed s.me) :
    fireSlot (.mrd src g) (s.act1 (.mrd src g)).ic (s.setCore s.cur K) =
      match s.me.blocks.find? (named (mHandleOf s)) with
      | none => .error noBlockStop
      | some b => .ok (s.setCore s.cur { onItsWay K 4 (.vres 2 (mrdRow b.fmt b.codes b.scales (mctrl s / 2 ^ 57))) with
          stM := K.stM.map (fun t => { t with idx := mctrl s / 2 ^ 57 }) }) := by
  obtain ⟨l, x, m, t, rfl⟩ := hK
  change fireMrd _ _ = _
  rw [fireMrd, State.mctl]
  simp only [State.act1, core_setCore_same, mHandle_mctrl, mRow_mctrl, blockOf_eq, Bool.false_eq_true, if_false, State.laterV, modCore_setCore]
  cases s.me.blocks.find? (named (mHandleOf s)) <;> rfl

theorem fireMscl_armed {K : Core} (hK : K.Armed s.me) :
    fireSlot (.mscl src g) (s.act1 (.mscl src g)).ic (s.setCore s.cur K) =
      match s.me.blocks.find? (named (mHandleOf s)) with
      | none => .error noBlockStop
      | some b =>
        if nbOf b.fmt = 0 ∨ 32 < mKaOf s + nbOf b.fmt then .error (illegalOp s (.mscl src g))
        else .ok (s.setCore s.cur { K with blocks := rescaled s b }) := by
  obtain ⟨l, x, m, t, rfl⟩ := hK
  change fireMscl _ _ = _
  rw [fireMscl, State.mctl]
  simp only [State.act1, core_setCore_same, mHandle_mctrl, mKA_mctrl, blockOf_eq, modCore_setCore]
  cases s.me.blocks.find? (named (mHandleOf s)) <;> rfl

theorem mmaStart_error {u : State} {ic : Ic} {x : U64} {fm : BitVec 32} {st : Stop} (h : (u.core ic.c).mmaOp ic.pre.k ic x fm = .error st) :
    u.mmaStart ic x fm = .error st := by
  rw [State.mmaStart, h]

theorem mmaStart_ok {u : State} {ic : Ic} {x : U64} {fm : BitVec 32} {o : MmaOp} (h : (u.core ic.c).mmaOp ic.pre.k ic x fm = .ok o) :
    u.mmaStart ic x fm =
      let r := mmaTile [o] (({ u.core ic.c with t := ic.pre.t } : Core).accInput (mAcc x))
      .ok ((u.setCore ic.c ((u.core ic.c).mmaFly x fm r.1 false)).flags ic r.2 false) := by
  rw [State.mmaStart, h]

theorem flag_invalid (k : Core) (slot : Nat) (ev : Bool) : k.flag ev false slot k.pc = withInvalid k slot ev := by
  cases ev <;> simp [Core.flag, withInvalid]

theorem fireMma_eq (K : Core) :
    fireSlot (.mma src f g) (s.act1 (.mma src f g)).ic (s.setCore s.cur K) =
      (s.setCore s.cur K).mmaStart (s.act1 (.mma src f g)).ic (K.sop.getD 9 0) (format s f) := by
  have hctl : (s.setCore s.cur K).mctl (s.act1 (.mma src f g)).ic = K.sop.getD 9 0 := congrArg (fun k : Core => k.sop.getD 9 0) (core_setCore_same s s.cur K)
  rw [← hctl]
  rfl

section
variable {K : Core} (hK : K.Armed s.me)
include hK

theorem fireMma_none (hb : s.me.blocks.find? (named (mHandleOf s)) = none) :
    fireSlot (.mma src f g) (s.act1 (.mma src f g)).ic (s.setCore s.cur K) = .error noBlockStop := by
  obtain ⟨l, x, m, t, rfl⟩ := hK
  rw [fireMma_eq]
  refine mmaStart_error ?_
  change ((s.setCore s.cur _).core s.cur).mmaOp _ _ _ _ = _
  rw [core_setCore_same]
  exact mmaOp_none rfl (by rw [mHandle_mctrl]; exact hb)

variable {b : WBlock} (hb : s.me.blocks.find? (named (mHandleOf s)) = some b)
include hb

theorem fireMma_illegal (h : ¬Multiplies s (format s f) b) :
    fireSlot (.mma src f g) (s.act1 (.mma src f g)).ic (s.setCore s.cur K) = .error (illegalOp s (.mma src f g)) := by
  obtain ⟨l, x, m, t, rfl⟩ := hK
  rw [fireMma_eq]
  refine mmaStart_error ?_
  change ((s.setCore s.cur _).core s.cur).mmaOp _ _ _ _ = _
  rw [core_setCore_same]
  exact mmaOp_illegal (by rw [mHandle_mctrl]; exact hb) h

theorem fireMma_legal (h : Multiplies s (format s f) b) :
    fireSlot (.mma src f g) (s.act1 (.mma src f g)).ic (s.setCore s.cur K) =
      .ok (s.setCore s.cur (withInvalid (withProduct s f b K) 8 (productSum s f b).2)) := by
  obtain ⟨l, x, m, t, rfl⟩ := hK
  rw [fireMma_eq]
  refine (mmaStart_ok (o := operand s (format s f) b) ?_).trans ?_
  · change ((s.setCore s.cur _).core s.cur).mmaOp _ _ _ _ = _
    rw [core_setCore_same]
    exact mmaOp_legal (by rw [mHandle_mctrl]; exact hb) h
  · simp only [State.flags, State.act1, core_setCore_same, modCore_setCore, setCore_setCore]
    rw [← flag_invalid, withProduct, ← hMac_handle, ← mHandle_mctrl]
    rfl

end

theorem withInvalid_armed {K k : Core} (h : K.Armed k) (slot : Nat) (ev : Bool) : (withInvalid K slot ev).Armed (withInvalid k slot ev) := by
  obtain ⟨l, x, m, t, rfl⟩ := h
  cases ev <;> exact ⟨l, x, m, t, rfl⟩

theorem withInvalid_rep (k : Core) (slot : Nat) (ev : Bool) : (withInvalid k slot ev).rep = k.rep := by
  cases ev <;> rfl

end

/-! ## The operations on the named block complete, or stop -/

theorem matrixOperationsComplete : MatrixOperationsComplete := by
  intro s src f g h n
  refine ⟨?mzero, gives_wclr s src g, fun hb => ⟨?noMrd, ?noMscl, ?noMma⟩, fun b hb => ⟨?mrd, ⟨fun hl => ?mscl, fun hl => ?illegalMscl⟩, ?mma⟩⟩
  case mzero =>
    have hz := gives_mzero s src g
    rw [TileReg.zeroed, TileReg.putRows, zip_range_replicate] at hz
    exact hz
  case noMrd =>
    refine stops_of_unit (exec_mrd src g s) (mrd_unitOp s src g) (.inl rfl) fun K hK => ?_
    rw [fireMrd_armed src g hK, hb]
  case noMscl =>
    refine stops_of_unit (exec_mscl src g s) (mscl_unitOp s src g) (.inl rfl) fun K hK => ?_
    rw [fireMscl_armed src g hK, hb]
  case noMma => exact stops_of_unit (exec_mma src f g s) (mma_unitOp s src f g) (.inl rfl) fun K hK => fireMma_none src f g hK hb
  case mrd =>
    refine gives_of_fire (exec_mrd src g s) (mrd_unitOp s src g) (.inl rfl) rfl fun K hK => ?_
    rw [fireMrd_armed src g hK, hb]
    obtain ⟨l, x, m, t, rfl⟩ := hK
    exact ⟨_, rfl, l, x, _, t, rfl⟩
  case mscl =>
    refine gives_of_fire (exec_mscl src g s) (mscl_unitOp s src g) (.inl rfl) rfl fun K hK => ?_
    rw [fireMscl_armed src g hK, hb]
    obtain ⟨l, x, m, t, rfl⟩ := hK
    exact ⟨_, if_neg (by omega), l, x, m, t, rfl⟩
  case illegalMscl =>
    refine stops_of_unit (exec_mscl src g s) (mscl_unitOp s src g) (.inl rfl) fun K hK => ?_
    rw [fireMscl_armed src g hK, hb]
    exact if_pos (by omega)
  case mma =>
    refine ⟨fun hm => gives_of_fire (exec_mma src f g s) (mma_unitOp s src f g) (.inl rfl) (withInvalid_rep _ _ _) fun K hK => ?_,
      fun hm => stops_of_unit (exec_mma src f g s) (mma_unitOp s src f g) (.inl rfl) fun K hK => fireMma_illegal src f g hK hb hm⟩
    refine ⟨_, fireMma_legal src f g hK hb hm, withInvalid_armed ?_ _ _⟩
    obtain ⟨l, x, m, t, rfl⟩ := hK
    exact ⟨l, x, m, t, rfl⟩

end Sys2Proof.Machine
end

section
/-! SUPPORT. The joint product of a quad (R228). -/

namespace Sys2Proof.Machine

open Sys2Proof.Claims

theorem quadGang_iff (s : State) (c : Nat) :
    s.quadGang c = true ↔ (s.core c).tagged = false ∧ ∀ q ∈ quadCores c, (s.core q).bound = true ∧ (s.core q).launch = (s.core c).launch := by
  simp only [State.quadGang, Bool.and_eq_true, Bool.not_eq_true', List.all_eq_true, beq_iff_eq]

theorem allSome_map_some {α : Type} (l : List α) : allSome (l.map some) = some l := by
  induction l with
  | nil => rfl
  | cons a r ih => rw [List.map_cons, allSome, ih]

theorem quadCores_nodup (c : Nat) : (quadCores c).Nodup := by
  simp [quadCores]

theorem mem_quadCores (c : Nat) : c ∈ quadCores c := by
  simp only [quadCores, List.mem_cons, List.not_mem_nil, or_false]
  omega

/-! ## One member's trigger -/

section
variable {u : State} {ic : Ic} {f : BitVec 4}

/-- Outside a TIMED gang with the whole quad an MMAQ is illegal (R228). -/
theorem fireMmaq_alone (h : u.quadGang ic.c = false) : fireMmaq ic f u = .error (illOp ic) := by
  rw [fireMmaq, h]
  rfl

/-- A member whose joint issue has come about takes its part: APTR becomes 0, and an invalid sum marks it (R84, R221, R228). -/
theorem fireMmaq_joined (h : u.quadGang ic.c = true) {K : Core} (hK : u.core ic.c = K) {o : MmaOp} {ev : Bool}
    (hop : K.mmaOp ic.pre.k ic (K.sop.getD 9 0) (ic.fmr f) = .ok o) (hm : K.mmaq = some (2 * K.lcyc + b2n ev)) (hpc : ic.pc = K.pc) :
    fireMmaq ic f u = .ok (u.setCore ic.c (withInvalid { K with aptr := 0 } ic.slot ev)) := by
  have hctl : u.mctl ic = K.sop.getD 9 0 := by rw [State.mctl, hK]
  rw [fireMmaq]
  simp only [h, hK, hctl, hop, hm, Bool.not_true, Bool.false_eq_true, if_false]
  cases ev with
  | false => exact if_pos rfl
  | true =>
    refine (if_neg (by simp [b2n])).trans ((if_pos rfl).trans ?_)
    rw [State.flags, modCore_setCore, hpc, ← flag_invalid]

end

/-! ## The joint issue -/

/-- What a joint issue makes of a member (R228): the product in flight, and the mark of the logical cycle. -/
def joinedCore (r : List V × Bool) (x : U64) (fm : BitVec 32) (k : Core) : Core :=
  { k with
    mma := k.mma ++ [productOf k (mAcc x) (hMac (mHandle x)) fm 29 r.1 true]
    mmaq := some (2 * k.lcyc + b2n r.2) }

theorem foldl_setCore_core (F : Core → U64 × BitVec 32 → Core) (l : List (Nat × U64 × BitVec 32)) (hl : (l.map Prod.fst).Nodup) (s : State) :
    (∀ p ∈ l, (l.foldl (fun t q => t.setCore q.1 (F (t.core q.1) q.2)) s).core p.1 = F (s.core p.1) p.2) ∧
    (∀ d, d ∉ l.map Prod.fst → (l.foldl (fun t q => t.setCore q.1 (F (t.core q.1) q.2)) s).core d = s.core d) := by
  induction l generalizing s with
  | nil => exact ⟨fun p hp => absurd hp List.not_mem_nil, fun d _ => rfl⟩
  | cons a r ih =>
    rw [List.map_cons, List.nodup_cons] at hl
    obtain ⟨hin, hout⟩ := ih hl.2 (s.setCore a.1 (F (s.core a.1) a.2))
    rw [List.foldl_cons]
    refine ⟨fun p hp => ?_, fun d hd => ?_⟩
    · obtain rfl | hp := List.mem_cons.mp hp
      · rw [hout _ hl.1, core_setCore_same]
      · have hne : p.1 ≠ a.1 := fun he => hl.1 (he ▸ List.mem_map_of_mem hp)
        rw [hin p hp, core_setCore_ne _ _ _ _ hne]
    · rw [List.map_cons, List.mem_cons, not_or] at hd
      rw [hout d hd.2, core_setCore_ne _ _ _ _ hd.1]

/-- When the parts of all four members stand with one A format, the joint issue puts its product in flight on each (R228). -/
theorem joinMmaq_parts {s : State} {q : Bundle} {a : Act} (hq : isMmaq a.i = true) (hg : s.quadGang s.cur = true) (h0 : s.me.mmaq ≠ some (2 * s.me.lcyc))
    (h1 : s.me.mmaq ≠ some (2 * s.me.lcyc + 1)) {part : Nat → Option (U64 × BitVec 32 × MmaOp)}
    (hpart : ∀ m, part m = if m = s.cur then s.mmaqPart s.cur q else (s.readyBundle m).bind (fun b => s.mmaqPart m b))
    {p : U64 × BitVec 32 × MmaOp} {ps : List (U64 × BitVec 32 × MmaOp)} (hps : (quadCores s.cur).map part = (p :: ps).map some)
    (hfm : ∀ p' ∈ ps, p'.2.1 = p.2.1) :
    s.joinMmaq s.cur q [a] = s.mmaqJoin (quadCores s.cur) ((p :: ps).map (fun p => (p.1, p.2.1))) ((p :: ps).map (fun p => p.2.2)) := by
  have hparts : (quadCores s.cur).map (fun m => if m = s.cur then s.mmaqPart s.cur q
      else match s.readyBundle m with | some b => s.mmaqPart m b | none => none) = (p :: ps).map some := by
    rw [← hps]
    refine List.map_congr_left fun m _ => ?_
    rw [hpart]
    cases s.readyBundle m <;> rfl
  have hsome := (congrArg allSome hparts).trans (allSome_map_some (p :: ps))
  have hgo : ([a].any (fun a => isMmaq a.i) && s.quadGang s.cur && s.me.mmaq != some (2 * s.me.lcyc) && s.me.mmaq != some (2 * s.me.lcyc + 1)) = true := by
    simp [hq, hg, h0, h1]
  rw [State.joinMmaq]
  refine (if_pos hgo).trans ?_
  dsimp only
  split
  · next hnone => exact absurd (hsome.symm.trans hnone) (by simp)
  · next l hl =>
    obtain rfl : p :: ps = l := Option.some.inj (hsome.symm.trans hl)
    refine if_pos (List.all_eq_true.mpr fun p' hp' => ?_)
    obtain rfl | hp' := List.mem_cons.mp hp'
    · exact beq_self_eq_true _
    · exact beq_iff_eq.mpr (hfm p' hp')

/-- What stands on each member after the joint issue. -/
theorem mmaqJoin_core (s : State) (c : Nat) (p : U64 × BitVec 32 × MmaOp) (ps : List (U64 × BitVec 32 × MmaOp))
    (hlen : (quadCores c).length ≤ (p :: ps).length) :
    let r := mmaTile ((p :: ps).map (fun p => p.2.2)) (accumulator (s.core ((quadCores c).getD 0 0)) (mAcc p.1))
    ∀ q p', (q, p') ∈ (quadCores c).zip (p :: ps) →
      (s.mmaqJoin (quadCores c) ((p :: ps).map (fun p => (p.1, p.2.1))) ((p :: ps).map (fun p => p.2.2))).core q =
        joinedCore r p'.1 p'.2.1 (s.core q) := by
  intro r q p' hmem
  rw [State.mmaqJoin]
  have hnodup : (((quadCores c).zip ((p :: ps).map (fun p => (p.1, p.2.1)))).map Prod.fst).Nodup := by
    rw [List.map_fst_zip (by rw [List.length_map]; exact hlen)]
    exact quadCores_nodup c
  have hin := (foldl_setCore_core (fun k x => joinedCore r x.1 x.2 k) _ hnodup s).1 (q, p'.1, p'.2.1) ?_
  · exact hin
  · rw [List.zip_map_right]
    exact List.mem_map.mpr ⟨(q, p'), hmem, rfl⟩

section
variable {s : State} {src : BitVec 9} {f : BitVec 4} {g : BitVec 6}

/-- The part of the member whose bundle is the MMAQ alone: its control word, its A format and the operands of its own checks. -/
theorem mmaqPart_oneSlot (h : s.Clear (.mmaq src f g)) {p : U64 × BitVec 32 × MmaOp}
    (hp : s.mmaqPart s.cur (oneSlot (.mmaq src f g)) = some p) :
    p.2.1 = format s f ∧ s.me.mmaOp s.me.k (s.act1 (.mmaq src f g)).ic (s.me.sop.getD 9 0) (format s f) = .ok p.2.2 := by
  have hfind : [s.act1 (.mmaq src f g)].find? (fun a => isMmaq a.i) = some (s.act1 (.mmaq src f g)) := rfl
  rw [State.mmaqPart] at hp
  simp only [actsOf_oneSlot s _ h.guard h.first, hfind] at hp
  change (match s.me.mmaOp s.me.k (s.act1 (.mmaq src f g)).ic (s.me.sop.getD 9 0) (format s f) with | .error _ => none | .ok o => if _ then _ else none) = _ at hp
  split at hp
  · cases hp
  · next o ho =>
    obtain ⟨-, hp⟩ := Option.ite_none_right_eq_some.mp hp
    obtain rfl := Option.some.inj hp
    exact ⟨rfl, ho⟩

theorem quadGang_congr {s u : State} {c : Nat}
    (h : ∀ q ∈ quadCores c, (u.core q).tagged = (s.core q).tagged ∧ (u.core q).bound = (s.core q).bound ∧ (u.core q).launch = (s.core q).launch) :
    u.quadGang c = s.quadGang c := by
  have hc := h c (mem_quadCores c)
  refine Bool.eq_iff_iff.mpr ?_
  rw [quadGang_iff, quadGang_iff, hc.1, hc.2.2]
  refine and_congr_right fun _ => forall₂_congr fun q hq => ?_
  rw [(h q hq).2.1, (h q hq).2.2]

/-- The end of a bundle leaves the products in flight. -/
theorem closed1_mma {s w : State} {i : Instr} (hp : i.isPlain = false) (hrep : (w.core s.cur).rep = 0) (q : Nat) :
    (((s.closed1 w i).turned s.cur).core q).mma = (w.core q).mma := by
  by_cases hq : q = s.cur
  · subst hq
    rw [State.turned, core_modCore_same]
    exact (congrArg Core.mma (closed1_kept s w i hp hrep).frame :)
  · rw [State.turned, core_modCore_ne _ _ _ _ hq, State.closed1, core_modCore_ne _ _ _ _ hq, core_modCore_ne _ _ _ _ hq, regMove_trigger s i _ hp,
      pops_core]
    rfl

/-- A trigger's sticky states are all that it sets before it acts. -/
theorem modCore_arms_armed (s u : State) (i : Instr) (q : Nat) : ((u.modCore s.cur (s.arms i)).core q).Armed (u.core q) := by
  by_cases hq : q = s.cur
  · rw [hq, core_modCore_same]
    exact arms_armed s i _
  · rw [core_modCore_ne _ _ _ _ hq]
    exact ⟨_, _, _, _, rfl⟩

theorem modCore_arms_mma (s u : State) (i : Instr) (q : Nat) : ((u.modCore s.cur (s.arms i)).core q).mma = (u.core q).mma := by
  obtain ⟨_, _, _, _, hq⟩ := modCore_arms_armed s u i q
  rw [hq]

theorem withInvalid_mma (k : Core) (slot : Nat) (ev : Bool) : (withInvalid k slot ev).mma = k.mma := by
  cases ev <;> rfl

theorem setCore_mma {u : State} {c : Nat} {k : Core} (h : k.mma = (u.core c).mma) (q : Nat) : ((u.setCore c k).core q).mma = (u.core q).mma := by
  by_cases hq : q = c
  · rw [hq, core_setCore_same, h]
  · rw [core_setCore_ne _ _ _ _ hq]

theorem part_of_zip {α β : Type} {part : α → Option β} {l : List α} {m : List β} (h : l.map part = m.map some) {a : α} {b : β} (hab : (a, b) ∈ l.zip m) :
    part a = some b := by
  induction l generalizing m with
  | nil => simp at hab
  | cons x l ih =>
    cases m with
    | nil => simp at hab
    | cons y m =>
      rw [List.map_cons, List.map_cons, List.cons.injEq] at h
      rw [List.zip_cons_cons, List.mem_cons, Prod.mk.injEq] at hab
      obtain ⟨rfl, rfl⟩ | hab := hab
      · exact h.1
      · exact ih h.2 hab

theorem exists_zip {α β : Type} {l : List α} {m : List β} (h : l.length ≤ m.length) {a : α} (ha : a ∈ l) : ∃ b, (a, b) ∈ l.zip m := by
  rw [← List.map_fst_zip h, List.mem_map] at ha
  obtain ⟨⟨x, b⟩, hxb, rfl⟩ := ha
  exact ⟨b, hxb⟩

/-- The trigger of a member whose core the joint issue has left as `joinedCore` says. -/
theorem fireMmaq_after {u : State} {o : MmaOp} {r : List V × Bool} {x : U64} {fm : BitVec 32}
    (hop : s.me.mmaOp s.me.k (s.act1 (.mmaq src f g)).ic (s.me.sop.getD 9 0) (format s f) = .ok o) (hg : u.quadGang s.cur = true)
    (hu : (u.core s.cur).Armed (joinedCore r x fm s.me)) :
    fireSlot (.mmaq src f g) (s.act1 (.mmaq src f g)).ic u = .ok (u.setCore s.cur (withInvalid { u.core s.cur with aptr := 0 } 8 r.2)) := by
  obtain ⟨_, _, _, _, hcore⟩ := hu
  have hfire := fireMmaq_joined (f := f) (ic := (s.act1 (.mmaq src f g)).ic) (o := o) (ev := r.2) hg hcore hop rfl rfl
  rw [hcore]
  exact hfire

/-- The first member of a quad to issue its MMAQ puts the joint product in flight on all four (R228). -/
theorem exec_mmaq_joint (h : s.Clear (.mmaq src f g)) (hg : s.quadGang s.cur = true) (h0 : s.me.mmaq ≠ some (2 * s.me.lcyc))
    (h1 : s.me.mmaq ≠ some (2 * s.me.lcyc + 1)) {part : Nat → Option (U64 × BitVec 32 × MmaOp)}
    (hpart : ∀ m, part m = if m = s.cur then s.mmaqPart s.cur (oneSlot (.mmaq src f g)) else (s.readyBundle m).bind (fun b => s.mmaqPart m b))
    {p : U64 × BitVec 32 × MmaOp} {ps : List (U64 × BitVec 32 × MmaOp)} (hps : (quadCores s.cur).map part = (p :: ps).map some)
    (hfm : ∀ p' ∈ ps, p'.2.1 = p.2.1) :
    ∃ t, exec (.mmaq src f g) s = .next t ∧
      let r := mmaTile ((p :: ps).map (fun p => p.2.2)) (accumulator (s.core ((quadCores s.cur).getD 0 0)) (mAcc p.1))
      ∀ q p', (q, p') ∈ (quadCores s.cur).zip (p :: ps) →
        (t.core q).mma = (s.core q).mma ++ [productOf (s.core q) (mAcc p'.1) (hMac (mHandle p'.1)) p'.2.1 29 r.1 true] := by
  have htag := ((quadGang_iff s s.cur).mp hg).1
  have hlen : (quadCores s.cur).length ≤ (p :: ps).length := by
    have hl := congrArg List.length hps
    rw [List.length_map, List.length_map] at hl
    exact hl.le
  have hjoin := joinMmaq_parts (q := oneSlot (.mmaq src f g)) (a := s.act1 (.mmaq src f g)) rfl hg h0 h1 hpart hps hfm
  have hcores := mmaqJoin_core s s.cur p ps hlen
  rw [← hjoin] at hcores
  have hexec := (exec_mmaq src f g s).trans (execSlot_joins h rfl)
  rw [htag] at hexec
  generalize s.joinMmaq s.cur (oneSlot (.mmaq src f g)) [s.act1 (.mmaq src f g)] = u at hcores hexec
  obtain ⟨pc, hpc⟩ := exists_zip hlen (mem_quadCores s.cur)
  have hme := hcores _ _ hpc
  have hown := part_of_zip hps hpc
  rw [hpart, if_pos rfl] at hown
  obtain ⟨-, hop⟩ := mmaqPart_oneSlot h hown
  have harmed := arms_armed s (.mmaq src f g) (u.core s.cur)
  rw [hme] at harmed
  have hgang : (u.modCore s.cur (s.arms (.mmaq src f g))).quadGang s.cur = true := by
    rw [← hg]
    refine quadGang_congr fun q hq => ?_
    obtain ⟨p', hp'⟩ := exists_zip hlen hq
    obtain ⟨_, _, _, _, hq'⟩ := modCore_arms_armed s u (.mmaq src f g) q
    rw [hq', hcores _ _ hp']
    exact ⟨rfl, rfl, rfl⟩
  have hfire := fireMmaq_after (g := g) hop hgang (by rw [core_modCore_same, hme]; exact harmed)
  rw [if_neg Bool.false_ne_true, issueNow_fires (mmaq_unitOp s src f g) hfire, hme] at hexec
  have htag' : ¬(s.core s.cur).tagged = true := by rw [htag]; exact Bool.false_ne_true
  refine ⟨_, hexec.trans (congrArg (fun t => Host.Outcome.next (s.settle s.cur (.issue t))) (if_neg htag')), fun q p' hq => ?_⟩
  rw [settle_issue, closed1_mma rfl]
  · refine (setCore_mma ?_ q).trans ?_
    · exact withInvalid_mma _ _ _
    rw [modCore_arms_mma, hcores _ _ hq]
    rfl
  · obtain ⟨_, _, _, _, hcur⟩ := modCore_arms_armed s u (.mmaq src f g) s.cur
    rw [core_setCore_same, withInvalid_rep, hcur, hme]
    exact h.first

end

/-! ## The obligation -/

section
variable {s : State} {K : Core} (hK : K.Armed s.me)
include hK

theorem quadGang_armed : (s.setCore s.cur K).quadGang s.cur = s.quadGang s.cur := by
  obtain ⟨_, _, _, _, rfl⟩ := hK
  refine quadGang_congr fun q _ => ?_
  by_cases hq : q = s.cur
  · rw [hq, core_setCore_same]
    exact ⟨rfl, rfl, rfl⟩
  · rw [core_setCore_ne _ _ _ _ hq]
    exact ⟨rfl, rfl, rfl⟩

theorem fireMmaq_armed {src : BitVec 9} {f : BitVec 4} {g : BitVec 6} (hg : s.quadGang s.cur = true) {b : WBlock}
    (hb : s.me.blocks.find? (named (mHandleOf s)) = some b) (hl : Multiplies s (format s f) b) {ev : Bool}
    (hm : s.me.mmaq = some (2 * s.me.lcyc + b2n ev)) :
    fireSlot (.mmaq src f g) (s.act1 (.mmaq src f g)).ic (s.setCore s.cur K) = .ok (s.setCore s.cur (withInvalid { K with aptr := 0 } 8 ev)) := by
  have hg' := (quadGang_armed hK).trans hg
  obtain ⟨_, _, _, _, rfl⟩ := hK
  have hop := mmaOp_legal (k := s.me) (ks := s.me.k) (ic := (s.act1 (.mmaq src f g)).ic) (by rw [mHandle_mctrl]; exact hb) hl
  have hfire := fireMmaq_joined (f := f) (ic := (s.act1 (.mmaq src f g)).ic) (ev := ev) hg' (core_setCore_same s s.cur _) hop hm rfl
  exact hfire.trans (congrArg Except.ok (setCore_setCore s s.cur _ _))

end

/-- A member whose joint issue has come about takes its own part. -/
theorem gives_mmaq {s : State} {src : BitVec 9} {f : BitVec 4} {g : BitVec 6} (hg : s.quadGang s.cur = true) {b : WBlock}
    (hb : s.me.blocks.find? (named (mHandleOf s)) = some b) (hl : Multiplies s (format s f) b) {ev : Bool}
    (hm : s.me.mmaq = some (2 * s.me.lcyc + b2n ev)) : Gives s (.mmaq src f g) (withInvalid { s.me with aptr := 0 } 8 ev) := by
  have hj : s.NoJoin (.mmaq src f g) := by cases ev with
    | false => exact .inr (.inr (.inl hm))
    | true => exact .inr (.inr (.inr hm))
  refine gives_of_fire (exec_mmaq src f g s) (mmaq_unitOp s src f g) hj (withInvalid_rep _ _ _) fun K hK => ?_
  refine ⟨_, fireMmaq_armed hK hg hb hl hm, withInvalid_armed ?_ _ _⟩
  obtain ⟨l, x, m, t, rfl⟩ := hK
  exact ⟨l, x, m, t, rfl⟩

theorem quadProductIsJoint : QuadProductIsJoint := by
  intro s src f g i gang part
  have hgang : s.quadGang s.cur = true ↔ gang := quadGang_iff s s.cur
  refine ⟨fun hno => ?alone, fun hg h0 h1 p0 p1 p2 p3 hps hfm hclear => ?joint, fun b hg hb hl => ⟨fun hm => ?valid, fun hm => ?invalid⟩⟩
  case alone =>
    have hno : s.quadGang s.cur = false := Bool.eq_false_iff.mpr (mt hgang.mp hno)
    exact stops_of_unit (exec_mmaq src f g s) (mmaq_unitOp s src f g) (.inr (.inl hno)) fun K hK => fireMmaq_alone ((quadGang_armed hK).trans hno)
  case joint =>
    have hall : ∀ p ∈ [p1, p2, p3], p.2.1 = p0.2.1 := by simpa using hfm
    obtain ⟨t, ht, hcores⟩ := exec_mmaq_joint hclear (hgang.mpr hg) h0 h1 (part := part) (fun _ => rfl) (p := p0) (ps := [p1, p2, p3]) hps hall
    refine ⟨t, ht, fun q p hq => ?_⟩
    have hp : p.2.1 = p0.2.1 := (List.mem_cons.mp (List.of_mem_zip hq).2).elim (fun h => by rw [h]) (hall p)
    have hmma := hcores q p hq
    rw [hp] at hmma
    exact hmma
  case valid => exact gives_mmaq (ev := false) (hgang.mpr hg) hb hl hm
  case invalid => exact gives_mmaq (ev := true) (hgang.mpr hg) hb hl hm

/-- Settles O22: MZERO, WCLR, MRD, MSCL and MMA are their triggers on one core, and a joint issue leaves each member of the quad as
`joinedCore` says before the first member's own trigger acts. -/
theorem matrixAndQuadOperationsComplete : Obligations.MatrixAndQuadOperationsComplete := ⟨matrixOperationsComplete, quadProductIsJoint⟩

end Sys2Proof.Machine
end

section
/-! SUPPORT. Indices of the values of a format (R71, R75): the magnitudes of a format are numbered from 0 up, `mag` gives the size of each in
units of the least grid spacing, and `idxCode` the code of a signed one. -/

namespace Sys2Proof.Machine

open Sys2Proof.Claims

/-- The formats of R57 and R66. -/
structure Fmt.Ok (f : Fmt) : Prop where
  sign : f.s ≤ 1
  spec : f.spec ≤ 2
  width : 2 ≤ f.s + f.e + f.m
  infs : f.spec = 1 → 1 ≤ f.e
  nans : f.spec = 2 → f.s = 1

/-- Magnitude number C in units of 2^qmin. -/
def Fmt.mag (f : Fmt) (C : Nat) : Nat := if f.e = 0 ∨ C < 2 ^ f.m then C else (2 ^ f.m + C % 2 ^ f.m) * 2 ^ (C / 2 ^ f.m - 1)

/-- The number of the greatest finite magnitude of a sign. -/
def Fmt.lim (f : Fmt) (neg : Bool) : Nat :=
  if f.e = 0 then (if neg ∧ f.s = 1 ∧ f.spec = 0 then 2 ^ f.m else 2 ^ f.m - 1)
  else (if f.spec = 1 then 2 ^ f.e - 1 else 2 ^ f.e) * 2 ^ f.m - 1

/-- The code of the magnitude number C with a sign. -/
def Fmt.idxCode (f : Fmt) (neg : Bool) (C : Nat) : Nat :=
  if C = 0 then (if neg = true ∧ f.hasNegZero = true then 2 ^ (f.width - 1) else 0)
  else if f.e = 0 then (if neg then 2 ^ f.width - C else C)
  else (if neg then 2 ^ (f.width - 1) else 0) + C

/-- Its value. -/
def Fmt.idxVal (f : Fmt) (neg : Bool) (C : Nat) : ℚ := (if neg then -1 else 1) * f.mag C * 2 ^ f.qmin

theorem width_eq (f : Fmt) : codeWidth f = f.width := rfl

/-! ## Magnitudes -/

section
variable {f : Fmt}

@[simp] theorem mag_zero : f.mag 0 = 0 := by
  rw [Fmt.mag, if_pos (.inr (Nat.two_pow_pos _))]

theorem mag_of_e (h : f.e = 0) (C : Nat) : f.mag C = C := if_pos (.inl h)

theorem mag_of_lt {C : Nat} (h : C < 2 ^ f.m) : f.mag C = C := if_pos (.inr h)

/-- The magnitudes of one binade: k · 2^j is magnitude number j · 2^m + k, the first of the next binade included. -/
theorem mag_binade (he : f.e ≠ 0) {j k : Nat} (hlo : 2 ^ f.m ≤ k ∨ j = 0) (hhi : k ≤ 2 ^ (f.m + 1)) : f.mag (j * 2 ^ f.m + k) = k * 2 ^ j := by
  have hp := Nat.two_pow_pos f.m
  rw [pow_succ] at hhi
  by_cases hsub : j = 0 ∧ k < 2 ^ f.m
  · obtain ⟨rfl, hk⟩ := hsub
    rw [mag_of_lt (by omega), zero_mul, zero_add, pow_zero, mul_one]
  · have hk : 2 ^ f.m ≤ k := by omega
    obtain ⟨r, rfl⟩ := Nat.exists_eq_add_of_le hk
    have hsum : j * 2 ^ f.m + (2 ^ f.m + r) = r + 2 ^ f.m * (j + 1) := by ring
    rw [Fmt.mag, if_neg (by rw [hsum]; have := Nat.le_mul_of_pos_right (2 ^ f.m) (Nat.succ_pos j); omega), hsum, Nat.add_mul_mod_self_left,
      Nat.add_mul_div_left _ _ hp]
    obtain hr | rfl : r < 2 ^ f.m ∨ r = 2 ^ f.m := by omega
    · rw [Nat.mod_eq_of_lt hr, Nat.div_eq_of_lt hr, zero_add, Nat.add_sub_cancel]
    · rw [Nat.mod_self, Nat.div_self hp, add_zero, Nat.add_sub_cancel_left, pow_succ]
      ring

/-- Every number lies in one binade. -/
theorem exists_binade (m C : Nat) : ∃ j k, C = j * 2 ^ m + k ∧ (2 ^ m ≤ k ∨ j = 0) ∧ k < 2 ^ (m + 1) := by
  have hp := Nat.two_pow_pos m
  rw [pow_succ]
  obtain hlt | hge := Nat.lt_or_ge C (2 ^ m)
  · exact ⟨0, C, by omega, .inr rfl, by omega⟩
  · have hdiv := Nat.div_pos hge hp
    have hmod := Nat.mod_lt C hp
    refine ⟨C / 2 ^ m - 1, 2 ^ m + C % 2 ^ m, ?_, .inl (Nat.le_add_right _ _), by omega⟩
    have hC := Nat.div_add_mod C (2 ^ m)
    obtain ⟨j, hj⟩ := Nat.exists_eq_add_of_le' hdiv
    rw [hj] at hC ⊢
    rw [Nat.add_sub_cancel]
    linarith

theorem mag_lt_succ (C : Nat) : f.mag C < f.mag (C + 1) := by
  by_cases he : f.e = 0
  · rw [mag_of_e he, mag_of_e he]
    exact Nat.lt_succ_self C
  · obtain ⟨j, k, rfl, hlo, hhi⟩ := exists_binade f.m C
    rw [mag_binade he hlo hhi.le, add_assoc, mag_binade he (hlo.imp_left Nat.le_succ_of_le) hhi]
    exact Nat.mul_lt_mul_of_pos_right (Nat.lt_succ_self k) (Nat.two_pow_pos j)

theorem mag_strictMono : StrictMono f.mag := strictMono_nat_of_lt_succ mag_lt_succ

theorem le_mag (C : Nat) : C ≤ f.mag C := mag_strictMono.le_apply

theorem mag_le_mag {C D : Nat} : f.mag C ≤ f.mag D ↔ C ≤ D := mag_strictMono.le_iff_le
theorem mag_lt_mag {C D : Nat} : f.mag C < f.mag D ↔ C < D := mag_strictMono.lt_iff_lt
theorem mag_inj {C D : Nat} : f.mag C = f.mag D ↔ C = D := mag_strictMono.injective.eq_iff

end

/-! ## Codes with an exponent field -/

/-- Sign bit and magnitude number of a code side by side. -/
def Fmt.raw (f : Fmt) (neg : Bool) (C : Nat) : Nat := (if neg then 2 ^ (f.e + f.m) else 0) + C

section
variable {f : Fmt} (he : f.e ≠ 0) {neg : Bool} (hneg : neg = true → f.s = 1) {C : Nat} (hC : C < 2 ^ (f.e + f.m))

theorem raw_div_top (hC : C < 2 ^ (f.e + f.m)) : f.raw neg C / 2 ^ (f.e + f.m) = if neg then 1 else 0 := by
  have hp := Nat.two_pow_pos (f.e + f.m)
  cases neg
  · simpa [Fmt.raw] using Nat.div_eq_of_lt hC
  · simp [Fmt.raw, Nat.add_div_left C hp, Nat.div_eq_of_lt hC]

theorem raw_mod_top (hC : C < 2 ^ (f.e + f.m)) : f.raw neg C % 2 ^ (f.e + f.m) = C := by
  cases neg <;> simp [Fmt.raw, Nat.mod_eq_of_lt hC]

include he in
theorem raw_mod_two : f.raw neg C % 2 = C % 2 := by
  have h2 : 2 ∣ 2 ^ (f.e + f.m) := dvd_pow_self 2 (by omega)
  cases neg with
  | false => simp [Fmt.raw]
  | true =>
    rw [Fmt.raw, if_pos rfl, Nat.add_mod, Nat.mod_eq_zero_of_dvd h2, zero_add, Nat.mod_mod]

theorem raw_mod_frac : f.raw neg C % 2 ^ f.m = C % 2 ^ f.m := by
  have hd : 2 ^ f.m ∣ 2 ^ (f.e + f.m) := pow_dvd_pow 2 (by omega)
  cases neg with
  | false => simp [Fmt.raw]
  | true =>
    rw [Fmt.raw, if_pos rfl, Nat.add_mod, Nat.mod_eq_zero_of_dvd hd, zero_add, Nat.mod_mod]

include hC in
theorem raw_exponent : f.raw neg C / 2 ^ f.m % 2 ^ f.e = C / 2 ^ f.m := by
  have hp : 2 ^ (f.e + f.m) = 2 ^ f.m * 2 ^ f.e := by rw [add_comm, pow_add]
  rw [← Nat.mod_mul_right_div_self, ← hp, raw_mod_top hC]

include hneg hC in
theorem raw_lt_width : f.raw neg C < 2 ^ f.width := by
  have hw : f.width = f.s + (f.e + f.m) := by rw [Fmt.width, add_assoc]
  rw [Fmt.raw, hw]
  cases neg with
  | false => simpa using hC.trans_le (Nat.pow_le_pow_right two_pos (Nat.le_add_left _ _))
  | true =>
    rw [hneg rfl, if_pos rfl, Nat.add_comm 1, pow_succ]
    omega

include he hneg hC in
theorem signCode_raw : signCode f (f.raw neg C) = neg := by
  rw [signCode, raw_div_top hC]
  have he' : 1 ≤ f.e := Nat.one_le_iff_ne_zero.mpr he
  cases neg with
  | false => simp
  | true => simp [hneg rfl, he']

include he hneg hC in
theorem codeVal_raw : codeVal f (f.raw neg C) = f.idxVal neg C := by
  have hq : f.qmin = 1 - f.bias - f.m := if_neg he
  rw [codeVal, if_neg he, signCode_raw he hneg hC, raw_exponent hC, raw_mod_frac, Fmt.idxVal, hq, mul_assoc]
  have hp := Nat.two_pow_pos f.m
  obtain hlt | hge := Nat.lt_or_ge C (2 ^ f.m)
  · rw [Nat.div_eq_of_lt hlt, Nat.mod_eq_of_lt hlt, mag_of_lt hlt]
    simp
  · have hdiv := Nat.div_pos hge hp
    rw [Fmt.mag, if_neg (not_or.mpr ⟨he, hge.not_gt⟩)]
    simp only [hdiv.ne', if_false]
    obtain ⟨j, hj⟩ := Nat.exists_eq_add_of_le' hdiv
    rw [hj, Nat.add_sub_cancel]
    push_cast
    have hexp : (j : ℤ) + 1 - f.bias - f.m = j + (1 - f.bias - f.m) := by ring
    rw [mul_assoc, ← zpow_natCast (2 : ℚ) j, ← zpow_add₀ two_ne_zero, ← hexp]

include hC in
/-- The exponent field is all ones from magnitude number (2^e − 1) · 2^m on. -/
theorem topExponent_raw : topExponent f (f.raw neg C) = true ↔ (2 ^ f.e - 1) * 2 ^ f.m ≤ C := by
  have hdiv : C / 2 ^ f.m < 2 ^ f.e := by
    rw [Nat.div_lt_iff_lt_mul (Nat.two_pow_pos _), ← pow_add]
    exact hC
  rw [topExponent, raw_exponent hC, beq_iff_eq, ← Nat.le_div_iff_mul_le (Nat.two_pow_pos _)]
  omega

include hC in
/-- The first of the codes with all ones in the exponent is the one without a fraction. -/
theorem frac_zero_iff (hge : (2 ^ f.e - 1) * 2 ^ f.m ≤ C) : C % 2 ^ f.m = 0 ↔ C = (2 ^ f.e - 1) * 2 ^ f.m := by
  refine ⟨fun hmod => le_antisymm ?_ hge, fun h => by rw [h, Nat.mul_mod_left]⟩
  obtain ⟨d, rfl⟩ := Nat.dvd_of_mod_eq_zero hmod
  rw [pow_add, mul_comm, Nat.mul_lt_mul_right (Nat.two_pow_pos _)] at hC
  rw [mul_comm]
  exact Nat.mul_le_mul_right _ (by omega)

include he hneg hC

theorem infCode_raw (b : Bool) : infCode f b (f.raw neg C) = true ↔ f.spec = 1 ∧ 1 ≤ f.m ∧ C = (2 ^ f.e - 1) * 2 ^ f.m ∧ neg = b := by
  simp only [infCode, Bool.and_eq_true, beq_iff_eq, decide_eq_true_eq, width_eq, raw_lt_width hneg hC, topExponent_raw hC, raw_mod_frac,
    signCode_raw he hneg hC, and_true]
  constructor
  · rintro ⟨⟨⟨⟨hspec, hm⟩, hge⟩, hmod⟩, hb⟩
    exact ⟨hspec, hm, (frac_zero_iff hC hge).mp hmod, hb⟩
  · rintro ⟨hspec, hm, rfl, hb⟩
    exact ⟨⟨⟨⟨hspec, hm⟩, le_rfl⟩, Nat.mul_mod_left _ _⟩, hb⟩

theorem isInf_raw : isInf f (f.raw neg C) = true ↔ f.spec = 1 ∧ 1 ≤ f.m ∧ C = (2 ^ f.e - 1) * 2 ^ f.m := by
  rw [isInf, Bool.or_eq_true, infCode_raw he hneg hC, infCode_raw he hneg hC]
  cases neg <;> simp

omit he in
theorem nanCode_raw (hf : f.Ok) : nanCode f (f.raw neg C) = true ↔
    (f.spec = 2 ∧ neg = true ∧ C = 0) ∨ (f.spec = 1 ∧ (2 ^ f.e - 1) * 2 ^ f.m ≤ C ∧ ¬(1 ≤ f.m ∧ C = (2 ^ f.e - 1) * 2 ^ f.m)) := by
  have hzero : f.spec = 2 → (f.raw neg C = 2 ^ (f.width - 1) ↔ neg = true ∧ C = 0) := fun hspec => by
    have hw : f.width - 1 = f.e + f.m := by rw [Fmt.width, hf.nans hspec, add_assoc, Nat.add_sub_cancel_left]
    rw [hw, Fmt.raw]
    cases neg <;> simp
    omega
  simp only [nanCode, width_eq, Bool.or_eq_true, Bool.and_eq_true, beq_iff_eq, Bool.not_eq_true', Bool.and_eq_false_iff, decide_eq_false_iff_not,
    beq_eq_false_iff_ne, topExponent_raw hC, raw_mod_frac]
  refine or_congr (and_congr_right hzero) ?_
  rw [and_assoc]
  refine and_congr_right fun _ => and_congr_right fun hge => ?_
  rw [ne_eq, frac_zero_iff hC hge, ← not_and_or]

/-- The finite codes are those up to the greatest magnitude; under SPEC 2 the code of −0 is a NaN. -/
theorem finiteCode_raw (hf : f.Ok) : finiteCode f (f.raw neg C) = true ↔ C ≤ f.lim neg ∧ ¬(f.spec = 2 ∧ neg = true ∧ C = 0) := by
  have hnan := nanCode_raw hneg hC hf
  have hinf := isInf_raw he hneg hC
  have hlt := raw_lt_width hneg hC
  have hp := Nat.two_pow_pos f.m
  have hpe := Nat.two_pow_pos f.e
  have hlim : C ≤ f.lim neg ↔ (f.spec = 1 → C < (2 ^ f.e - 1) * 2 ^ f.m) := by
    rw [Fmt.lim, if_neg he]
    by_cases hspec : f.spec = 1
    · have h1 := hf.infs hspec
      have h2 : 2 ^ 1 ≤ 2 ^ f.e := Nat.pow_le_pow_right two_pos h1
      have hpos : 0 < (2 ^ f.e - 1) * 2 ^ f.m := Nat.mul_pos (by omega) hp
      simp only [hspec, if_true, forall_const]
      omega
    · rw [pow_add] at hC
      simp only [hspec, if_false, false_imp_iff, iff_true]
      omega
  rw [finiteCode, width_eq, decide_eq_true hlt, Bool.true_and, Bool.and_eq_true, Bool.not_eq_true', Bool.not_eq_true', Bool.eq_false_iff,
    Bool.eq_false_iff, ne_eq, ne_eq, hnan, hinf, hlim]
  by_cases hspec : f.spec = 1
  · simp only [hspec, OfNat.one_ne_ofNat, false_and, false_or, true_and, forall_const, not_false_eq_true, and_true]
    omega
  · simp only [hspec, false_and, or_false, not_false_eq_true, and_true, false_imp_iff, true_and]

end

/-! ## Codes of a sign and a magnitude number -/

section
variable {f : Fmt}

theorem width_of_sign (hs : f.s = 1) : f.width - 1 = f.e + f.m := by
  rw [Fmt.width, hs, add_assoc, Nat.add_sub_cancel_left]

theorem lim_lt (he : f.e ≠ 0) (neg : Bool) : f.lim neg < 2 ^ (f.e + f.m) := by
  have hp := Nat.two_pow_pos f.m
  have hle : (if f.spec = 1 then 2 ^ f.e - 1 else 2 ^ f.e) * 2 ^ f.m ≤ 2 ^ (f.e + f.m) := by
    rw [pow_add]
    exact Nat.mul_le_mul_right _ (by split; exacts [Nat.sub_le _ _, le_rfl])
  have hpe := Nat.two_pow_pos (f.e + f.m)
  rw [Fmt.lim, if_neg he]
  omega

/-- The code of −0, where a format has one, is the sign bit; elsewhere it is 0. -/
theorem idxCode_raw (he : f.e ≠ 0) {neg : Bool} (hneg : neg = true → f.s = 1) (C : Nat) :
    f.idxCode neg C = if C = 0 ∧ f.spec = 2 then f.raw false 0 else f.raw neg C := by
  have he1 : 1 ≤ f.e := Nat.one_le_iff_ne_zero.mpr he
  rw [Fmt.idxCode, if_neg he]
  cases neg with
  | false => by_cases hC : C = 0 <;> simp [hC, Fmt.raw]
  | true =>
    have hw := width_of_sign (hneg rfl)
    by_cases hC : C = 0
    · by_cases hspec : f.spec = 2 <;> simp [hC, hspec, Fmt.raw, Fmt.hasNegZero, hneg rfl, he1, hw]
    · simp [hC, Fmt.raw, hw]

theorem width_of_e (he : f.e = 0) (hs : f.s = 1) : 2 ^ f.width = 2 * 2 ^ f.m := by
  rw [Fmt.width, he, hs, add_zero, add_comm, pow_succ, mul_comm]

theorem idxVal_zero (neg neg' : Bool) : f.idxVal neg 0 = f.idxVal neg' 0 := by
  simp [Fmt.idxVal]

variable (hf : f.Ok)
include hf

/-! The integer formats: two's complement, the least code a NaN under SPEC 2. -/

theorem finiteCode_integer (he : f.e = 0) (c : Nat) : finiteCode f c = true ↔ c < 2 ^ f.width ∧ ¬(f.spec = 2 ∧ c = 2 ^ f.m) := by
  have hspec : f.spec ≠ 1 := fun h => absurd (hf.infs h) (by omega)
  have hnan : f.spec = 2 → 2 ^ (f.width - 1) = 2 ^ f.m := fun h => by rw [width_of_sign (hf.nans h), he, zero_add]
  simp only [finiteCode, nanCode, isInf, infCode, width_eq, Bool.and_eq_true, beq_eq_false_iff_ne.mpr hspec, Bool.false_and,
    Bool.or_false, Bool.not_false, and_true, Bool.not_eq_true', Bool.and_eq_false_iff, beq_eq_false_iff_ne, ← not_and_or]
  refine and_congr decide_eq_true_iff (not_congr (and_congr_right fun h => ?_))
  rw [hnan h]

omit hf in
theorem codeVal_integer (he : f.e = 0) (c : Nat) :
    codeVal f c = (((c % 2 ^ f.m : Nat) : ℚ) - (if f.s = 1 ∧ c / 2 ^ f.m % 2 = 1 then 2 ^ f.m else 0)) * 2 ^ f.qmin := by
  rw [codeVal, if_pos he, Fmt.qmin, if_pos he]

omit hf in
theorem pos_lt_width (he : f.e = 0) : 2 ^ f.m ≤ 2 ^ f.width := by
  rw [Fmt.width, he]
  exact Nat.pow_le_pow_right two_pos (by omega)

theorem idxCode_integer (he : f.e = 0) {neg : Bool} (hneg : neg = true → f.s = 1) {C : Nat} (hC : C ≤ f.lim neg) :
    finiteCode f (f.idxCode neg C) = true ∧ codeVal f (f.idxCode neg C) = f.idxVal neg C ∧ f.idxCode neg C % 2 = C % 2 := by
  have hp := Nat.two_pow_pos f.m
  have hw := pos_lt_width (f := f) he
  have hz : f.hasNegZero = false := by simp [Fmt.hasNegZero, he]
  rw [finiteCode_integer hf he, codeVal_integer he, Fmt.idxVal, mag_of_e he, Fmt.idxCode, hz, if_pos he]
  rw [Fmt.lim, if_pos he] at hC
  by_cases hpos : neg = true ∧ C ≠ 0
  · obtain ⟨rfl, h0⟩ := hpos
    have hs := hneg rfl
    have hw2 := width_of_e he hs
    have hdiv : (2 * 2 ^ f.m - C) / 2 ^ f.m = 1 := Nat.div_eq_of_lt_le (by split at hC <;> omega) (by omega)
    have hmod : (2 * 2 ^ f.m - C) % 2 ^ f.m = 2 ^ f.m - C := by
      have := Nat.div_add_mod (2 * 2 ^ f.m - C) (2 ^ f.m)
      rw [hdiv] at this
      split at hC <;> omega
    have hle : C ≤ 2 ^ f.m := by split at hC <;> omega
    rw [if_neg h0, if_pos rfl, hw2, hdiv, hmod, if_pos ⟨hs, rfl⟩, if_pos rfl, Nat.cast_sub hle]
    refine ⟨⟨by omega, fun h => ?_⟩, by push_cast; ring, by omega⟩
    rw [if_neg (by omega)] at hC
    omega
  · have hlt : C < 2 ^ f.m := by
      cases neg with
      | false => simp at hC; omega
      | true => simp at hpos; omega
    have hcode : (if C = 0 then if neg = true ∧ false = true then 2 ^ (f.width - 1) else 0 else if neg = true then 2 ^ f.width - C else C) = C := by
      by_cases h0 : C = 0
      · simp [h0]
      · have hn : neg = false := by simpa [h0] using hpos
        simp [h0, hn]
    rw [hcode, Nat.mod_eq_of_lt hlt, Nat.div_eq_of_lt hlt]
    refine ⟨⟨by omega, by omega⟩, ?_, rfl⟩
    cases neg <;> simp at hpos <;> simp [hpos]

theorem exists_idxCode_integer (he : f.e = 0) {c : Nat} (hc : finiteCode f c = true) :
    ∃ neg C, (neg = true → f.s = 1) ∧ C ≤ f.lim neg ∧ c = f.idxCode neg C := by
  have hp := Nat.two_pow_pos f.m
  obtain ⟨hlt, hnan⟩ := (finiteCode_integer hf he c).mp hc
  simp only [Fmt.lim, if_pos he, Fmt.idxCode]
  obtain hsmall | hbig := Nat.lt_or_ge c (2 ^ f.m)
  · exact ⟨false, c, nofun, by simp; omega, by split <;> simp_all⟩
  · have hs : f.s = 1 := by
      have := hf.sign
      by_contra hne
      rw [Fmt.width, he, show f.s = 0 by omega, zero_add, zero_add] at hlt
      omega
    rw [width_of_e he hs] at hlt
    refine ⟨true, 2 * 2 ^ f.m - c, fun _ => hs, ?_, ?_⟩
    · have := hf.spec
      have hspec : f.spec ≠ 1 := fun h => absurd (hf.infs h) (by omega)
      split
      · omega
      · next h =>
        have : f.spec = 2 := by simp [hs] at h; omega
        have hne : c ≠ 2 ^ f.m := fun h' => hnan ⟨this, h'⟩
        omega
    · rw [if_neg (by omega), if_pos rfl, width_of_e he hs]
      omega

/-- A signed magnitude up to the greatest has a finite code, with its value and its parity. -/
theorem idxCode_finite {neg : Bool} (hneg : neg = true → f.s = 1) {C : Nat} (hC : C ≤ f.lim neg) :
    finiteCode f (f.idxCode neg C) = true ∧ codeVal f (f.idxCode neg C) = f.idxVal neg C ∧ f.idxCode neg C % 2 = C % 2 := by
  by_cases he : f.e = 0
  · exact idxCode_integer hf he hneg hC
  rw [idxCode_raw he hneg]
  by_cases hzero : C = 0 ∧ f.spec = 2
  · obtain ⟨rfl, hspec⟩ := hzero
    have hpos := Nat.two_pow_pos (f.e + f.m)
    rw [if_pos ⟨rfl, hspec⟩]
    exact ⟨(finiteCode_raw (neg := false) he nofun hpos hf).mpr ⟨Nat.zero_le _, nofun⟩,
      (codeVal_raw (neg := false) he nofun hpos).trans (idxVal_zero _ _), raw_mod_two he⟩
  · have hlt := hC.trans_lt (lim_lt he neg)
    rw [if_neg hzero]
    exact ⟨(finiteCode_raw he hneg hlt hf).mpr ⟨hC, fun h => hzero ⟨h.2.2, h.1⟩⟩, codeVal_raw he hneg hlt, raw_mod_two he⟩

/-- Every code is a sign bit before a magnitude number. -/
theorem exists_raw {c : Nat} (hc : c < 2 ^ f.width) : ∃ neg C, (neg = true → f.s = 1) ∧ C < 2 ^ (f.e + f.m) ∧ c = f.raw neg C := by
  have hp := Nat.two_pow_pos (f.e + f.m)
  have hw : f.width = f.s + (f.e + f.m) := by rw [Fmt.width, add_assoc]
  obtain hlt | hge := Nat.lt_or_ge c (2 ^ (f.e + f.m))
  · exact ⟨false, c, nofun, hlt, by simp [Fmt.raw]⟩
  · have hs : f.s = 1 := by
      have := hf.sign
      by_contra hne
      rw [hw, show f.s = 0 by omega, zero_add] at hc
      omega
    rw [hw, hs, Nat.add_comm 1, pow_succ] at hc
    exact ⟨true, c - 2 ^ (f.e + f.m), fun _ => hs, by omega, by simp [Fmt.raw]; omega⟩

/-- Every finite code is of a signed magnitude up to the greatest. -/
theorem exists_idxCode {c : Nat} (hc : finiteCode f c = true) : ∃ neg C, (neg = true → f.s = 1) ∧ C ≤ f.lim neg ∧ c = f.idxCode neg C := by
  by_cases he : f.e = 0
  · exact exists_idxCode_integer hf he hc
  have hlt : c < 2 ^ f.width := by
    simp only [finiteCode, Bool.and_eq_true, decide_eq_true_eq] at hc
    exact hc.1.1
  obtain ⟨neg, C, hneg, hC, rfl⟩ := exists_raw hf hlt
  obtain ⟨hlim, hzero⟩ := (finiteCode_raw he hneg hC hf).mp hc
  refine ⟨neg, C, hneg, hlim, ?_⟩
  rw [idxCode_raw he hneg]
  split
  · next h =>
    obtain ⟨rfl, hspec⟩ := h
    cases neg with
    | false => rfl
    | true => exact absurd ⟨hspec, rfl, rfl⟩ hzero
  · rfl

/-! ## Infinities and what a rounding may answer (R71) -/

omit hf in
theorem hasInf_iff : f.hasInf = true ↔ f.spec = 1 ∧ 1 ≤ f.m := by
  simp [Fmt.hasInf]

theorem e_of_hasInf (h : f.hasInf = true) : f.e ≠ 0 := Nat.one_le_iff_ne_zero.mp (hf.infs (hasInf_iff.mp h).1)

theorem lim_succ_of_hasInf (h : f.hasInf = true) (neg : Bool) : f.lim neg + 1 = (2 ^ f.e - 1) * 2 ^ f.m := by
  obtain ⟨hspec, -⟩ := hasInf_iff.mp h
  have he := hf.infs hspec
  have h2 : 2 ^ 1 ≤ 2 ^ f.e := Nat.pow_le_pow_right two_pos he
  have hpos : 0 < (2 ^ f.e - 1) * 2 ^ f.m := Nat.mul_pos (by omega) (Nat.two_pow_pos _)
  rw [Fmt.lim, if_neg (by omega), if_pos hspec]
  omega

theorem infIdx_lt (h : f.hasInf = true) (neg : Bool) : f.lim neg + 1 < 2 ^ (f.e + f.m) := by
  have hp := Nat.two_pow_pos f.m
  have hpe := Nat.two_pow_pos f.e
  rw [lim_succ_of_hasInf hf h, pow_add, Nat.mul_lt_mul_right hp]
  omega

/-- The code of an infinity is the one after the greatest finite code of its sign. -/
theorem infIdxCode (h : f.hasInf = true) {neg : Bool} (hneg : neg = true → f.s = 1) :
    f.idxCode neg (f.lim neg + 1) = f.raw neg ((2 ^ f.e - 1) * 2 ^ f.m) := by
  rw [idxCode_raw (e_of_hasInf hf h) hneg, if_neg (fun h => by omega), lim_succ_of_hasInf hf h]

theorem infCode_iff (neg : Bool) (c : Nat) :
    infCode f neg c = true ↔ f.hasInf = true ∧ (neg = true → f.s = 1) ∧ c = f.idxCode neg (f.lim neg + 1) := by
  constructor
  · intro h
    have hlt : c < 2 ^ f.width := by
      simp only [infCode, Bool.and_eq_true, decide_eq_true_eq] at h
      exact h.1.1.1.2
    have hinf : f.hasInf = true := by
      simp only [infCode, Bool.and_eq_true, beq_iff_eq, decide_eq_true_eq] at h
      exact hasInf_iff.mpr h.1.1.1.1
    obtain ⟨b, C, hb, hC, rfl⟩ := exists_raw hf hlt
    obtain ⟨-, -, rfl, rfl⟩ := (infCode_raw (e_of_hasInf hf hinf) hb hC neg).mp h
    exact ⟨hinf, hb, (infIdxCode hf hinf hb).symm⟩
  · rintro ⟨hinf, hneg, rfl⟩
    have hlt := infIdx_lt hf hinf neg
    obtain ⟨hspec, hm⟩ := hasInf_iff.mp hinf
    rw [lim_succ_of_hasInf hf hinf] at hlt
    rw [infIdxCode hf hinf hneg]
    exact (infCode_raw (e_of_hasInf hf hinf) hneg hlt neg).mpr ⟨hspec, hm, rfl, rfl⟩

end

/-- Whether a mode takes a value beyond the greatest finite one of a sign to the infinity (R71). -/
def Rnd.overflows (md : Rnd) (neg : Bool) : Bool :=
  match md with
  | .rne => true
  | .rz => false
  | .ru => !neg
  | .rd => neg
  | .sr _ => false

/-- The number of the greatest magnitude that a mode may answer, the infinity counted as the next after the finite ones (R71). -/
def Fmt.top (f : Fmt) (md : Rnd) (neg : Bool) : Nat := f.lim neg + if f.hasInf && md.overflows neg then 1 else 0

section
variable {f : Fmt} (hf : f.Ok) (md : Rnd)
include hf

theorem idxCode_top {neg : Bool} (hneg : neg = true → f.s = 1) {C : Nat} (hC : C ≤ f.top md neg) :
    codeVal f (f.idxCode neg C) = f.idxVal neg C ∧ f.idxCode neg C % 2 = C % 2 := by
  obtain hle | hgt := Nat.lt_or_ge (f.lim neg) C |>.symm
  · exact (idxCode_finite hf hneg hle).2
  · have hinf : f.hasInf = true := by
      by_contra hno
      rw [Fmt.top, Bool.eq_false_iff.mpr hno, Bool.false_and, if_neg Bool.false_ne_true] at hC
      omega
    have he := e_of_hasInf hf hinf
    have hlt := infIdx_lt hf hinf neg
    obtain rfl : C = f.lim neg + 1 := by
      rw [Fmt.top] at hC
      split at hC <;> omega
    rw [infIdxCode hf hinf hneg, ← lim_succ_of_hasInf hf hinf neg]
    exact ⟨codeVal_raw he hneg hlt, raw_mod_two he⟩

theorem roundable_iff (c : Nat) :
    roundable f md c = true ↔ ∃ neg C, (neg = true → f.s = 1) ∧ C ≤ f.top md neg ∧ c = f.idxCode neg C := by
  have hround : roundable f md c = true ↔ finiteCode f c = true ∨ ∃ neg, md.overflows neg = true ∧ infCode f neg c = true := by
    cases md <;> simp [roundable, Rnd.overflows, isInf, or_comm]
  rw [hround]
  constructor
  · rintro (hfin | ⟨neg, hov, hinf⟩)
    · obtain ⟨neg, C, hneg, hC, rfl⟩ := exists_idxCode hf hfin
      exact ⟨neg, C, hneg, hC.trans (Nat.le_add_right _ _), rfl⟩
    · obtain ⟨hhas, hneg, rfl⟩ := (infCode_iff hf neg c).mp hinf
      exact ⟨neg, _, hneg, by rw [Fmt.top, hhas, hov]; rfl, rfl⟩
  · rintro ⟨neg, C, hneg, hC, rfl⟩
    obtain hle | hgt := Nat.lt_or_ge (f.lim neg) C |>.symm
    · exact .inl (idxCode_finite hf hneg hle).1
    · rw [Fmt.top] at hC
      split at hC
      · next h =>
        rw [Bool.and_eq_true] at h
        obtain rfl : C = f.lim neg + 1 := by omega
        exact .inr ⟨neg, h.2, (infCode_iff hf neg _).mpr ⟨h.1, hneg, rfl⟩⟩
      · omega

end

end Sys2Proof.Machine
end

section
/-! SUPPORT. Rounding between magnitude numbers (R70 to R72), and what a rounded number's code satisfies. -/

namespace Sys2Proof.Machine

open Sys2Proof.Claims

/-- The magnitude number C is the last one up to x, x in units of 2^qmin. -/
def Fmt.Floor (f : Fmt) (x : ℚ) (C : Nat) : Prop := (f.mag C : ℚ) ≤ x ∧ x < f.mag (C + 1)

/-- Whether a mode takes x from the magnitude number C below it to the next. -/
def Fmt.RoundsUp (f : Fmt) (md : Rnd) (neg : Bool) (x : ℚ) (C : Nat) : Prop :=
  match md with
  | .rne => (f.mag C : ℚ) + f.mag (C + 1) < 2 * x ∨ (f.mag C : ℚ) + f.mag (C + 1) = 2 * x ∧ C % 2 = 1
  | .rz => False
  | .ru => neg = false ∧ (f.mag C : ℚ) < x
  | .rd => neg = true ∧ (f.mag C : ℚ) < x
  | .sr u => 256 * ((f.mag (C + 1) : ℚ) - f.mag C) ≤ 256 * (x - f.mag C) + u * (f.mag (C + 1) - f.mag C)

/-- A mode rounds the magnitude x of a sign to magnitude number C, the numbers going on without end. -/
def Fmt.RoundIdx (f : Fmt) (md : Rnd) (neg : Bool) (x : ℚ) (C : Nat) : Prop :=
  ∃ D, f.Floor x D ∧ (f.RoundsUp md neg x D ∧ C = D + 1 ∨ ¬f.RoundsUp md neg x D ∧ C = D)

section
variable {f : Fmt} {x : ℚ} {C D T : Nat}

theorem mag_cast_le : (f.mag C : ℚ) ≤ f.mag D ↔ C ≤ D := Nat.cast_le.trans mag_le_mag
theorem mag_cast_lt : (f.mag C : ℚ) < f.mag D ↔ C < D := Nat.cast_lt.trans mag_lt_mag

theorem floor_nonneg (h : f.Floor x C) : 0 ≤ x := (Nat.cast_nonneg _).trans h.1

theorem exists_floor (f : Fmt) (hx : 0 ≤ x) : ∃ C, f.Floor x C := by
  have hex : ∃ n, x < f.mag n := by
    obtain ⟨n, hn⟩ := exists_nat_gt x
    exact ⟨n, hn.trans_le (by exact_mod_cast le_mag n)⟩
  classical
  have hspec := Nat.find_spec hex
  obtain ⟨C, hC⟩ : ∃ C, Nat.find hex = C + 1 := by
    refine Nat.exists_eq_succ_of_ne_zero fun h => ?_
    rw [h, mag_zero, Nat.cast_zero] at hspec
    exact absurd hspec hx.not_gt
  rw [hC] at hspec
  exact ⟨C, not_lt.mp (Nat.find_min hex (by omega)), hspec⟩

theorem floor_le_iff (h : f.Floor x D) : (f.mag C : ℚ) ≤ x ↔ C ≤ D :=
  ⟨fun hle => Nat.lt_succ_iff.mp (mag_cast_lt.mp (hle.trans_lt h.2)), fun hle => (mag_cast_le.mpr hle).trans h.1⟩

theorem lt_mag_iff (h : f.Floor x D) : x < f.mag C ↔ D < C := by
  rw [← not_le, floor_le_iff h, not_le]

theorem floor_unique (h : f.Floor x C) (h' : f.Floor x D) : C = D :=
  le_antisymm ((floor_le_iff h').mp h.1) ((floor_le_iff h).mp h'.1)

theorem exists_roundIdx (f : Fmt) (md : Rnd) (neg : Bool) (hx : 0 ≤ x) : ∃ C, f.RoundIdx md neg x C := by
  obtain ⟨D, hD⟩ := exists_floor f hx
  by_cases hup : f.RoundsUp md neg x D
  · exact ⟨_, D, hD, .inl ⟨hup, rfl⟩⟩
  · exact ⟨_, D, hD, .inr ⟨hup, rfl⟩⟩

/-- RNE: no magnitude up to the limit is nearer, and at a tie the number is even. -/
theorem nearest_of_rne {neg : Bool} (h : f.RoundIdx .rne neg x C) (hD : D ≤ T) :
    |(f.mag (min C T) : ℚ) - x| < |(f.mag D : ℚ) - x| ∨
      |(f.mag (min C T) : ℚ) - x| = |(f.mag D : ℚ) - x| ∧ (D = min C T ∨ min C T % 2 = 0) := by
  obtain ⟨A, hA, hC⟩ := h
  have hlo := hA.1
  have hhi := hA.2
  obtain hTA | hAT := Nat.lt_or_ge A T |>.symm
  · have hmin : min C T = T := by omega
    have hT : (f.mag T : ℚ) ≤ x := (floor_le_iff hA).mpr hTA
    rw [hmin]
    obtain rfl | hlt := hD.eq_or_lt
    · exact .inr ⟨rfl, .inl rfl⟩
    · have hlt := mag_cast_lt (f := f).mpr hlt
      left
      rw [abs_of_nonpos (by linarith), abs_of_nonpos (by linarith)]
      linarith
  · have hmin : min C T = C := by omega
    rw [hmin]
    have hbelow : D ≤ A → |(f.mag D : ℚ) - x| = x - f.mag D ∧ (f.mag D : ℚ) ≤ f.mag A := fun h => by
      have := (floor_le_iff hA).mpr h
      exact ⟨by rw [abs_of_nonpos (by linarith)]; ring, mag_cast_le.mpr h⟩
    have habove : A + 1 ≤ D → |(f.mag D : ℚ) - x| = f.mag D - x ∧ (f.mag (A + 1) : ℚ) ≤ f.mag D := fun h => by
      have := mag_cast_le (f := f).mpr h
      exact ⟨abs_of_nonneg (by linarith), this⟩
    have hAabs : |(f.mag A : ℚ) - x| = x - f.mag A := by rw [abs_of_nonpos (by linarith)]; ring
    have hBabs : |(f.mag (A + 1) : ℚ) - x| = f.mag (A + 1) - x := abs_of_nonneg (by linarith)
    obtain ⟨hup, rfl⟩ | ⟨hup, rfl⟩ := hC
    · rw [hBabs]
      obtain hle | hge := Nat.lt_or_ge A D |>.symm
      · obtain ⟨habs, hmag⟩ := hbelow hle
        rw [habs]
        obtain hlt | ⟨heq, hodd⟩ := hup
        · left; linarith
        · obtain hlt | heq' := hmag.lt_or_eq
          · left; linarith
          · exact .inr ⟨by linarith, .inr (by omega)⟩
      · obtain ⟨habs, hmag⟩ := habove hge
        rw [habs]
        obtain rfl | hlt := Nat.eq_or_lt_of_le hge
        · exact .inr ⟨rfl, .inl rfl⟩
        · have := mag_cast_lt (f := f).mpr hlt
          left; linarith
    · rw [hAabs]
      obtain ⟨hno, htie⟩ := not_or.mp hup
      obtain hle | hge := Nat.lt_or_ge C D |>.symm
      · obtain ⟨habs, hmag⟩ := hbelow hle
        rw [habs]
        obtain rfl | hlt := hle.eq_or_lt
        · exact .inr ⟨rfl, .inl rfl⟩
        · have := mag_cast_lt (f := f).mpr hlt
          left; linarith
      · obtain ⟨habs, hmag⟩ := habove hge
        rw [habs]
        obtain hlt | heq := (not_lt.mp hno).lt_or_eq
        · left; linarith
        · have heven : C % 2 = 0 := by
            have : ¬C % 2 = 1 := fun h1 => htie ⟨heq.symm, h1⟩
            omega
          obtain hlt' | heq' := hmag.lt_or_eq
          · left; linarith
          · exact .inr ⟨by linarith, .inr heven⟩

/-- Rounding down: the last magnitude up to x and up to the limit. -/
theorem last_of_floor (h : f.Floor x C) : (f.mag (min C T) : ℚ) ≤ x ∧ ∀ D, D ≤ T → (f.mag D : ℚ) ≤ x → D ≤ min C T :=
  ⟨(floor_le_iff h).mpr (min_le_left _ _), fun _ hT hD => le_min ((floor_le_iff h).mp hD) hT⟩

/-- Rounding up: the first magnitude from x on, or the limit where none is that great. -/
theorem first_of_ceil (h : f.Floor x D) (hC : (f.mag D : ℚ) < x ∧ C = D + 1 ∨ ¬(f.mag D : ℚ) < x ∧ C = D) :
    (∀ A, x ≤ f.mag A ↔ C ≤ A) := by
  intro A
  obtain ⟨hlt, rfl⟩ | ⟨hge, rfl⟩ := hC
  · refine ⟨fun hA => mag_cast_lt.mp (hlt.trans_le hA), fun hA => h.2.le.trans (mag_cast_le.mpr hA)⟩
  · have heq : (f.mag C : ℚ) = x := le_antisymm h.1 (not_lt.mp hge)
    rw [← heq]
    exact mag_cast_le

end

end Sys2Proof.Machine
end

section
/-! SUPPORT. The code of a rounded magnitude satisfies `RoundsTo` (R70, R71, R76), and under RNE no other code does. -/

namespace Sys2Proof.Machine

open Sys2Proof.Claims

/-- A signed value from a magnitude in units of 2^qmin. -/
def Fmt.real (f : Fmt) (neg : Bool) (x : ℚ) : ℚ := (if neg then -1 else 1) * x * 2 ^ f.qmin

/-- The code that rounding a magnitude to magnitude number C answers: limited to what the mode may answer, and 0 for a negative number in a format
without a sign (R71, R76). -/
def Fmt.codeOf (f : Fmt) (md : Rnd) (neg : Bool) (C : Nat) : Nat := if neg ∧ f.s = 0 then 0 else f.idxCode neg (min C (f.top md neg))

section
variable {f : Fmt} {x : ℚ} {C D T : Nat} {neg neg' : Bool} {md : Rnd}

theorem unit_pos (f : Fmt) : (0 : ℚ) < 2 ^ f.qmin := zpow_pos two_pos _

theorem real_nonneg (hx : 0 ≤ x) : 0 ≤ f.real false x := by
  have := unit_pos f
  simp only [Fmt.real, Bool.false_eq_true, if_false, one_mul]
  positivity

theorem real_nonpos (hx : 0 ≤ x) : f.real true x ≤ 0 := by
  have := mul_nonneg hx (unit_pos f).le
  simp only [Fmt.real, if_true]
  linarith

theorem real_eq_zero : f.real neg x = 0 ↔ x = 0 := by
  have := (unit_pos f).ne'
  cases neg <;> simp [Fmt.real, this]

theorem abs_real (hx : 0 ≤ x) : |f.real neg x| = x * 2 ^ f.qmin := by
  rw [Fmt.real, abs_mul, abs_mul, abs_of_nonneg hx, abs_of_pos (unit_pos f)]
  cases neg <;> simp

theorem real_neg : f.real true x = -f.real false x := by
  simp only [Fmt.real, if_true, Bool.false_eq_true, if_false]
  ring

theorem real_not : f.real (!neg) x = -f.real neg x := by
  cases neg <;> simp [real_neg]

theorem idxVal_real : f.idxVal neg C = f.real neg (f.mag C) := rfl

theorem real_false_le {y : ℚ} : f.real false x ≤ f.real false y ↔ x ≤ y := by
  simp only [Fmt.real, Bool.false_eq_true, if_false, one_mul]
  exact mul_le_mul_iff_of_pos_right (unit_pos f)

theorem real_true_le {y : ℚ} : f.real true x ≤ f.real true y ↔ y ≤ x := by
  rw [real_neg, real_neg, neg_le_neg_iff, real_false_le]

theorem real_false_lt {y : ℚ} : f.real false x < f.real false y ↔ x < y := by
  rw [← not_le, real_false_le, not_le]

theorem real_true_lt {y : ℚ} : f.real true x < f.real true y ↔ y < x := by
  rw [← not_le, real_true_le, not_le]

theorem real_lt_zero (hx : 0 ≤ x) : f.real neg x < 0 ↔ neg = true ∧ x ≠ 0 := by
  cases neg with
  | false => simpa using real_nonneg hx
  | true =>
    rw [lt_iff_le_and_ne, and_iff_right (real_nonpos hx), ne_eq, real_eq_zero]
    simp

/-- The distance of two signed magnitudes. -/
theorem abs_real_sub (hx : 0 ≤ x) {y : ℚ} (hy : 0 ≤ y) : |f.real neg' y - f.real neg x| = (if neg' = neg then |y - x| else y + x) * 2 ^ f.qmin := by
  have hu := unit_pos f
  have hsum : |y + x| = y + x := abs_of_nonneg (by linarith)
  have hfac : |y * 2 ^ f.qmin - x * 2 ^ f.qmin| = |y - x| * 2 ^ f.qmin := by rw [← sub_mul, abs_mul, abs_of_pos hu]
  have hfac' : |y * 2 ^ f.qmin + x * 2 ^ f.qmin| = (y + x) * 2 ^ f.qmin := by rw [← add_mul, abs_mul, abs_of_pos hu, hsum]
  cases neg <;> cases neg' <;> simp only [Fmt.real, if_true, Bool.false_eq_true, if_false, one_mul, neg_mul, Bool.true_eq_false]
  · exact hfac
  · rw [← neg_add', abs_neg, hfac']
  · rw [sub_neg_eq_add, hfac']
  · rw [neg_sub_neg, abs_sub_comm, hfac]

theorem natCast_mag_nonneg (C : Nat) : (0 : ℚ) ≤ f.mag C := Nat.cast_nonneg _

theorem mag_eq_zero : (f.mag C : ℚ) = 0 ↔ C = 0 := by
  rw [Nat.cast_eq_zero]
  exact ⟨fun h => mag_inj.mp (h.trans mag_zero.symm), by rintro rfl; exact mag_zero⟩

theorem idxVal_eq_zero : f.idxVal neg C = 0 ↔ C = 0 := by
  rw [idxVal_real, real_eq_zero, mag_eq_zero]

/-- Of two numbers of one sign under a limit, RNE takes one that is no farther; of the other sign all are as far as 0 at least. -/
theorem rne_nearest (h : f.RoundIdx .rne neg x C) (hx : 0 ≤ x) (hD : neg' = neg → D ≤ T) :
    |f.idxVal neg (min C T) - f.real neg x| < |f.idxVal neg' D - f.real neg x| ∨
      |f.idxVal neg (min C T) - f.real neg x| = |f.idxVal neg' D - f.real neg x| ∧
        (f.idxVal neg' D = f.idxVal neg (min C T) ∨ min C T % 2 = 0) := by
  have hu := unit_pos f
  simp only [idxVal_real, abs_real_sub hx (natCast_mag_nonneg _), if_true]
  rw [mul_lt_mul_iff_left₀ hu, mul_left_inj' hu.ne']
  by_cases hsign : neg' = neg
  · rw [if_pos hsign]
    obtain hlt | ⟨heq, rfl | heven⟩ := nearest_of_rne h (hD hsign)
    · exact .inl hlt
    · exact .inr ⟨heq, .inl (by rw [hsign])⟩
    · exact .inr ⟨heq, .inr heven⟩
  · rw [if_neg hsign]
    have hzero := nearest_of_rne h (Nat.zero_le T)
    rw [mag_zero, Nat.cast_zero, zero_sub, abs_neg, abs_of_nonneg hx] at hzero
    obtain rfl | hpos := Nat.eq_zero_or_pos D
    · rw [mag_zero, Nat.cast_zero, zero_add]
      obtain hlt | ⟨heq, heq' | heven⟩ := hzero
      · exact .inl hlt
      · exact .inr ⟨heq, .inl (by rw [← heq', mag_zero, Nat.cast_zero, real_eq_zero.mpr rfl, real_eq_zero.mpr rfl])⟩
      · exact .inr ⟨heq, .inr heven⟩
    · have hmag : (0 : ℚ) < f.mag D := by
        have := mag_cast_lt (f := f).mpr hpos
        rwa [mag_zero, Nat.cast_zero] at this
      left
      obtain hlt | ⟨heq, -⟩ := hzero <;> linarith

/-- The last value towards zero. -/
theorem toward_last (h : f.Floor x C) (hx : 0 ≤ x) (hD : neg' = neg → D ≤ T) (hle : |f.idxVal neg' D| ≤ |f.real neg x|)
    (hside : 0 ≤ f.idxVal neg' D * f.real neg x) : |f.idxVal neg' D| ≤ |f.idxVal neg (min C T)| := by
  have hu := unit_pos f
  rw [idxVal_real, abs_real (natCast_mag_nonneg _), abs_real hx, mul_le_mul_iff_left₀ hu] at hle
  rw [idxVal_real, idxVal_real, abs_real (natCast_mag_nonneg _), abs_real (natCast_mag_nonneg _), mul_le_mul_iff_left₀ hu, mag_cast_le]
  by_cases hsign : neg' = neg
  · exact (last_of_floor h).2 D (hD hsign) hle
  · have hzero : D = 0 := by
      rw [← mag_eq_zero (f := f)]
      obtain rfl : neg' = !neg := Bool.eq_not.mpr hsign
      rw [idxVal_real, real_not, Fmt.real, Fmt.real] at hside
      have hsq : (0 : ℚ) ≤ -((f.mag D * x) * (2 ^ f.qmin * 2 ^ f.qmin)) := by
        cases neg <;> simp at hside ⊢ <;> nlinarith
      have hprod : (f.mag D * x : ℚ) ≤ 0 := by
        by_contra hpos
        have := mul_pos (not_le.mp hpos) (mul_pos hu hu)
        linarith
      have hnn := natCast_mag_nonneg (f := f) D
      nlinarith
    omega

theorem toward_mem (h : f.Floor x C) (hx : 0 ≤ x) :
    |f.idxVal neg (min C T)| ≤ |f.real neg x| ∧ 0 ≤ f.idxVal neg (min C T) * f.real neg x := by
  rw [idxVal_real]
  refine ⟨?_, ?_⟩
  · rw [abs_real (natCast_mag_nonneg _), abs_real hx, mul_le_mul_iff_left₀ (unit_pos f)]
    exact (last_of_floor h).1
  · cases neg with
    | false => exact mul_nonneg (real_nonneg (natCast_mag_nonneg _)) (real_nonneg hx)
    | true => exact mul_nonneg_of_nonpos_of_nonpos (real_nonpos (natCast_mag_nonneg _)) (real_nonpos hx)

/-- The values of the signed magnitudes up to a limit for each sign. -/
def Fmt.Points (f : Fmt) (T : Bool → Nat) (y : ℚ) : Prop := ∃ neg C, C ≤ T neg ∧ y = f.idxVal neg C

/-- Of some points, c is the first from v on, or the last of all where all lie before v. -/
def FirstFrom (S : ℚ → Prop) (v c : ℚ) : Prop := (v ≤ c ∧ ∀ y, S y → v ≤ y → c ≤ y) ∨ ∀ y, S y → y < v ∧ y ≤ c

theorem idxVal_not : f.idxVal (!neg) C = -f.idxVal neg C := real_not

theorem points_neg {T : Bool → Nat} {y : ℚ} (h : f.Points T y) : f.Points (fun b => T (!b)) (-y) := by
  obtain ⟨b, D, hD, rfl⟩ := h
  exact ⟨!b, D, by simpa using hD, idxVal_not.symm⟩

theorem idxVal_true_nonpos : f.idxVal true C ≤ 0 := real_nonpos (natCast_mag_nonneg C)
theorem idxVal_false_nonneg : 0 ≤ f.idxVal false C := real_nonneg (natCast_mag_nonneg C)

/-- The first magnitude from x on, or the limit. -/
theorem firstFrom_ceil (h : f.Floor x D) (hC : (f.mag D : ℚ) < x ∧ C = D + 1 ∨ ¬(f.mag D : ℚ) < x ∧ C = D) (hx : 0 ≤ x) (T : Bool → Nat) :
    FirstFrom (f.Points T) (f.real false x) (f.idxVal false (min C (T false))) := by
  have hceil := first_of_ceil h hC
  obtain hCT | hTC := le_or_gt C (T false)
  · rw [min_eq_left hCT]
    refine .inl ⟨real_false_le.mpr ((hceil C).mpr le_rfl), ?_⟩
    rintro _ ⟨_ | _, A, -, rfl⟩ hv
    · exact real_false_le.mpr (mag_cast_le.mpr ((hceil A).mp (real_false_le.mp hv)))
    · have hx' : x = 0 := real_eq_zero.mp (le_antisymm (hv.trans idxVal_true_nonpos) (real_nonneg hx))
      have hC0 : C = 0 := Nat.le_zero.mp ((hceil 0).mp (by rw [hx', mag_zero, Nat.cast_zero]))
      rw [hC0, idxVal_eq_zero.mpr rfl]
      exact (real_nonneg hx).trans hv
  · rw [min_eq_right hTC.le]
    have htop : f.idxVal false (T false) < f.real false x := by
      rw [idxVal_real, real_false_lt, ← not_le, hceil, not_le]
      exact hTC
    refine .inr fun y hy => ?_
    have hle : y ≤ f.idxVal false (T false) := by
      obtain ⟨_ | _, A, hA, rfl⟩ := hy
      · exact real_false_le.mpr (mag_cast_le.mpr hA)
      · exact idxVal_true_nonpos.trans idxVal_false_nonneg
    exact ⟨hle.trans_lt htop, hle⟩

/-- Below zero, the last magnitude up to x, or the limit. -/
theorem firstFrom_floor (h : f.Floor x D) (hC : C = D) (T : Bool → Nat) :
    FirstFrom (f.Points T) (f.real true x) (f.idxVal true (min C (T true))) := by
  subst hC
  refine .inl ⟨real_true_le.mpr (last_of_floor h).1, ?_⟩
  rintro _ ⟨_ | _, A, hA, rfl⟩ hv
  · exact idxVal_true_nonpos.trans idxVal_false_nonneg
  · exact real_true_le.mpr (mag_cast_le.mpr ((last_of_floor h).2 A hA (real_true_le.mp hv)))

end

section
variable {f : Fmt} (hf : f.Ok) {x : ℚ} {C : Nat} {neg : Bool} {md : Rnd}
include hf

omit hf in
/-- The sign of a zero result (R67, R76). -/
theorem idxCode_zero (hneg : neg = true → f.s = 1) (neg0 : Bool) (hx : 0 ≤ x) (hx0 : x = 0 → neg0 = neg) :
    f.idxCode neg 0 = if (f.real neg x < 0 ∨ f.real neg x = 0 ∧ neg0 = true) ∧ f.s = 1 ∧ 1 ≤ f.e ∧ f.spec ≠ 2 then 2 ^ (f.e + f.m) else 0 := by
  have hside : f.real neg x < 0 ∨ f.real neg x = 0 ∧ neg0 = true ↔ neg = true := by
    rw [real_lt_zero hx, real_eq_zero]
    by_cases h0 : x = 0
    · simp [h0, hx0 h0]
    · simp [h0]
  rw [Fmt.idxCode, if_pos rfl]
  simp only [hside]
  cases neg with
  | false => simp
  | true => simp [Fmt.hasNegZero, width_of_sign (hneg rfl), and_assoc]

/-- The code of the rounded magnitude satisfies R70 and R71. -/
theorem roundsTo_idxCode (hmd : ∀ u, md ≠ .sr u) (hneg : neg = true → f.s = 1) (hx : 0 ≤ x) (h : f.RoundIdx md neg x C) {neg0 : Bool}
    (hx0 : x = 0 → neg0 = neg) : RoundsTo f md (f.real neg x) neg0 (f.idxCode neg (min C (f.top md neg))) := by
  have hle := min_le_right C (f.top md neg)
  obtain ⟨hval, hpar⟩ := idxCode_top hf md hneg hle
  have hpoint : ∀ c', roundable f md c' = true → f.Points (f.top md) (codeVal f c') := fun c' hc' => by
    obtain ⟨neg', C', hneg', hC', rfl⟩ := (roundable_iff hf md c').mp hc'
    exact ⟨neg', C', hC', (idxCode_top hf md hneg' hC').1⟩
  refine ⟨(roundable_iff hf md _).mpr ⟨neg, _, hneg, hle, rfl⟩, fun h0 => ?_, ?_⟩
  · rw [hval, idxVal_eq_zero] at h0
    rw [h0, idxCode_zero hneg neg0 hx hx0]
  rw [hval]
  cases md with
  | rne =>
    intro c' hc'
    obtain ⟨neg', C', hC', hv⟩ := hpoint c' hc'
    simp only [hval, hpar, hv]
    exact rne_nearest h hx fun hs => hs ▸ hC'
  | rz =>
    obtain ⟨D, hD, ⟨hno, -⟩ | ⟨-, rfl⟩⟩ := h
    · exact hno.elim
    obtain ⟨hmag, hside⟩ := toward_mem (T := f.top .rz neg) (neg := neg) hD hx
    refine ⟨hmag, hside, fun c' hc' => ?_⟩
    obtain ⟨neg', C', hC', hv⟩ := hpoint c' hc'
    rw [hv]
    exact toward_last hD hx fun hs => hs ▸ hC'
  | ru =>
    have hfirst : FirstFrom (f.Points (f.top .ru)) (f.real neg x) (f.idxVal neg (min C (f.top .ru neg))) := by
      obtain ⟨D, hD, hC⟩ := h
      cases neg with
      | false => exact firstFrom_ceil hD (by simpa [Fmt.RoundsUp] using hC) hx _
      | true => exact firstFrom_floor hD (by simpa [Fmt.RoundsUp] using hC) _
    exact hfirst.imp (And.imp_right fun hmin c' hc' => hmin _ (hpoint c' hc')) fun hall c' hc' => hall _ (hpoint c' hc')
  | rd =>
    have hfirst : FirstFrom (f.Points fun b => f.top .rd (!b)) (f.real (!neg) x) (f.idxVal (!neg) (min C (f.top .rd neg))) := by
      obtain ⟨D, hD, hC⟩ := h
      cases neg with
      | true => exact firstFrom_ceil hD (by simpa [Fmt.RoundsUp] using hC) hx _
      | false => exact firstFrom_floor hD (by simpa [Fmt.RoundsUp] using hC) _
    have hneg c' (hc' : roundable f .rd c' = true) := points_neg (hpoint c' hc')
    rw [real_not, idxVal_not] at hfirst
    refine hfirst.imp (And.imp neg_le_neg_iff.mp fun hmin c' hc' hv => neg_le_neg_iff.mp (hmin _ (hneg c' hc') (neg_le_neg hv))) fun hall c' hc' => ?_
    exact (hall _ (hneg c' hc')).imp neg_lt_neg_iff.mp neg_le_neg_iff.mp
  | sr u => exact absurd rfl (hmd u)

/-- In a format without a sign every number up to 0 rounds to 0 (R76). -/
theorem roundsTo_zero (hs : f.s = 0) {v : ℚ} (hv : v ≤ 0) (neg0 : Bool) : RoundsTo f md v neg0 0 := by
  have h0 : f.idxCode false 0 = 0 := by simp [Fmt.idxCode]
  have hval : codeVal f 0 = 0 := by
    rw [← h0, (idxCode_top (neg := false) hf md nofun (Nat.zero_le _)).1, idxVal_eq_zero.mpr rfl]
  have hall : ∀ c', roundable f md c' = true → 0 ≤ codeVal f c' := fun c' hc' => by
    obtain ⟨neg', C', hneg', hC', rfl⟩ := (roundable_iff hf md c').mp hc'
    obtain rfl : neg' = false := by
      rw [Bool.eq_false_iff]
      exact fun hn => absurd (hneg' hn) (by omega)
    rw [(idxCode_top hf _ hneg' hC').1]
    exact real_nonneg (natCast_mag_nonneg _)
  refine ⟨(roundable_iff hf md _).mpr ⟨false, 0, nofun, Nat.zero_le _, h0.symm⟩, fun _ => by rw [if_neg (by omega)], ?_⟩
  rw [hval]
  cases md with
  | rne =>
    intro c' hc'
    have hc := hall c' hc'
    simp only [hval]
    rw [zero_sub, abs_neg, abs_of_nonpos hv, abs_of_nonneg (by linarith)]
    obtain hlt | heq := hc.lt_or_eq
    · left; linarith
    · exact .inr ⟨by linarith, .inl heq.symm⟩
  | rz =>
    refine ⟨by simp, by simp, fun c' hc' hle hside => ?_⟩
    have hc := hall c' hc'
    rw [abs_zero]
    obtain hlt | rfl := hv.lt_or_eq
    · rw [abs_of_nonneg hc]
      nlinarith
    · rwa [abs_zero] at hle
  | ru => exact .inl ⟨hv, fun c' hc' _ => hall c' hc'⟩
  | rd =>
    obtain hlt | rfl := hv.lt_or_eq
    · exact .inr fun c' hc' => ⟨hlt.trans_le (hall c' hc'), hall c' hc'⟩
    · exact .inl ⟨le_rfl, fun c' _ hle => hle⟩
  | sr u => trivial

/-- R70, R71 and R76: the code of a rounded number. -/
theorem roundsTo_codeOf (hmd : ∀ u, md ≠ .sr u) (hx : 0 ≤ x) (h : f.RoundIdx md neg x C) {neg0 : Bool} (hx0 : x = 0 → neg0 = neg) :
    RoundsTo f md (f.real neg x) neg0 (f.codeOf md neg C) := by
  rw [Fmt.codeOf]
  split
  · next hs => exact hs.1 ▸ roundsTo_zero hf hs.2 (real_nonpos hx) neg0
  · next hs =>
    refine roundsTo_idxCode hf hmd (fun hn => ?_) hx h hx0
    have := hf.sign
    have : f.s ≠ 0 := fun h0 => hs ⟨hn, h0⟩
    omega

/-- Between two codes with the lowest bit 0 there is another. -/
theorem exists_roundable_between {c c' : Nat} (hc : roundable f md c = true) (hc' : roundable f md c' = true) (he : c % 2 = 0) (he' : c' % 2 = 0)
    (hlt : codeVal f c < codeVal f c') : ∃ z, roundable f md z = true ∧ codeVal f c < codeVal f z ∧ codeVal f z < codeVal f c' := by
  obtain ⟨neg, C, hneg, hC, rfl⟩ := (roundable_iff hf md c).mp hc
  obtain ⟨neg', C', hneg', hC', rfl⟩ := (roundable_iff hf md c').mp hc'
  obtain ⟨hval, hpar⟩ := idxCode_top hf md hneg hC
  obtain ⟨hval', hpar'⟩ := idxCode_top hf md hneg' hC'
  rw [hpar] at he
  rw [hpar'] at he'
  have hpoint b D (hb : b = true → f.s = 1) (hD : D ≤ f.top md b) (h : codeVal f (f.idxCode neg C) < f.idxVal b D)
      (h' : f.idxVal b D < codeVal f (f.idxCode neg' C')) :
      ∃ z, roundable f md z = true ∧ codeVal f (f.idxCode neg C) < codeVal f z ∧ codeVal f z < codeVal f (f.idxCode neg' C') := by
    have hz := (idxCode_top hf md hb hD).1
    exact ⟨f.idxCode b D, (roundable_iff hf md _).mpr ⟨b, D, hb, hD, rfl⟩, hz ▸ h, hz ▸ h'⟩
  rw [hval, hval'] at hlt hpoint ⊢
  have up {A B : Nat} : f.idxVal false A < f.idxVal false B ↔ A < B := real_false_lt.trans mag_cast_lt
  have down {A B : Nat} : f.idxVal true A < f.idxVal true B ↔ B < A := real_true_lt.trans mag_cast_lt
  cases neg <;> cases neg'
  · rw [up] at hlt
    exact hpoint false (C + 1) nofun (by omega) (up.mpr (by omega)) (up.mpr (by omega))
  · exact absurd hlt (idxVal_true_nonpos.trans idxVal_false_nonneg).not_gt
  · obtain rfl | hpos := Nat.eq_zero_or_pos C
    · rw [idxVal_zero true false, up] at hlt
      rw [idxVal_zero true false] at hpoint ⊢
      exact hpoint false 1 nofun (by omega) (up.mpr (by omega)) (up.mpr (by omega))
    · obtain rfl | hpos' := Nat.eq_zero_or_pos C'
      · rw [idxVal_zero false true] at hpoint ⊢
        exact hpoint true 1 hneg (by omega) (down.mpr (by omega)) (down.mpr (by omega))
      · exact hpoint false 0 nofun (Nat.zero_le _) (idxVal_zero false true ▸ down.mpr hpos) (up.mpr hpos')
  · rw [down] at hlt
    exact hpoint true (C' + 1) hneg' (by omega) (down.mpr (by omega)) (down.mpr (by omega))

theorem eq_of_codeVal_eq {c c' : Nat} (hc : roundable f md c = true) (hc' : roundable f md c' = true) (h0 : codeVal f c ≠ 0)
    (heq : codeVal f c = codeVal f c') : c = c' := by
  obtain ⟨neg, C, hneg, hC, rfl⟩ := (roundable_iff hf md c).mp hc
  obtain ⟨neg', C', hneg', hC', rfl⟩ := (roundable_iff hf md c').mp hc'
  rw [(idxCode_top hf md hneg hC).1] at h0 heq
  rw [(idxCode_top hf md hneg' hC').1] at heq
  have hmag : C = C' := by
    have habs := congrArg abs heq
    rw [idxVal_real, idxVal_real, abs_real (natCast_mag_nonneg _), abs_real (natCast_mag_nonneg _), mul_left_inj' (unit_pos f).ne'] at habs
    exact mag_inj.mp (by exact_mod_cast habs)
  subst hmag
  have hsign : neg' = neg := by
    by_contra hne
    have hnot : neg' = !neg := Bool.eq_not.mpr hne
    rw [hnot, idxVal_not] at heq
    exact h0 (by linarith)
  rw [hsign]

/-- RNE answers one code. -/
theorem roundsTo_unique {v : ℚ} {neg0 : Bool} {c c' : Nat} (h : RoundsTo f .rne v neg0 c) (h' : RoundsTo f .rne v neg0 c') : c = c' := by
  obtain ⟨hc, hz, hmin⟩ := h
  obtain ⟨hc', hz', hmin'⟩ := h'
  simp only at hmin hmin'
  by_cases heq : codeVal f c = codeVal f c'
  · by_cases h0 : codeVal f c = 0
    · rw [hz h0, hz' (heq ▸ h0)]
    · exact eq_of_codeVal_eq hf hc hc' h0 heq
  · have hd : |codeVal f c - v| = |codeVal f c' - v| :=
      le_antisymm ((hmin c' hc').elim le_of_lt fun h => h.1.le) ((hmin' c hc).elim le_of_lt fun h => h.1.le)
    have he : c % 2 = 0 := ((hmin c' hc').resolve_left hd.not_lt).2.resolve_left fun h => heq h.symm
    have he' : c' % 2 = 0 := ((hmin' c hc).resolve_left hd.not_gt).2.resolve_left heq
    have hbetween {a b : Nat} (ha : roundable f .rne a = true) (hb : roundable f .rne b = true) (hae : a % 2 = 0) (hbe : b % 2 = 0)
        (hlt : codeVal f a < codeVal f b) (hab : |codeVal f a - v| = |codeVal f b - v|) :
        ∃ z, roundable f .rne z = true ∧ |codeVal f z - v| < |codeVal f a - v| := by
      obtain ⟨z, hz, haz, hzb⟩ := exists_roundable_between hf ha hb hae hbe hlt
      have hv : codeVal f a - v = -(codeVal f b - v) := (abs_eq_abs.mp hab).resolve_left fun h => hlt.ne (by linarith)
      exact ⟨z, hz, by rw [abs_of_nonpos (a := codeVal f a - v) (by linarith), abs_lt]; constructor <;> linarith⟩
    obtain hlt | hgt := lt_or_gt_of_ne heq
    · obtain ⟨z, hz, hnear⟩ := hbetween hc hc' he he' hlt hd
      exact absurd hnear ((hmin z hz).elim (fun h => h.not_gt) fun h => h.1.not_gt)
    · obtain ⟨z, hz, hnear⟩ := hbetween hc' hc he' he hgt hd.symm
      exact absurd hnear ((hmin' z hz).elim (fun h => h.not_gt) fun h => h.1.not_gt)

end

end Sys2Proof.Machine
end

section
/-! SUPPORT. What the rounding functions of chapter 04 compute (R71, R72, R75, R76): the number and the code of the rounded magnitude. -/

namespace Sys2Proof.Machine

open Sys2Proof.Claims

/-- The magnitude n/d · 2^e in units of 2^qmin. -/
def Fmt.units (f : Fmt) (n d : Nat) (e : Int) : ℚ := (n : ℚ) / d * 2 ^ (e - f.qmin)

/-- A value stands for the signed magnitude number M: a finite one, or the infinity after the greatest. -/
def Fmt.Stands (f : Fmt) (neg : Bool) (M : Nat) (y : Num) : Prop :=
  (M ≤ f.lim neg ∧ ∃ k j : Nat, y = .fin neg k (f.qmin + j) ∧ k * 2 ^ j = f.mag M) ∨ (M = f.lim neg + 1 ∧ f.hasInf = true ∧ y = .inf neg)

/-! ## Scaled quotients and binary logarithms -/

section
variable {n d : Nat} {e q : Int}

theorem scaleQ_pos (hd : 0 < d) : 0 < (scaleQ n d e q).2 := by
  rw [scaleQ]
  split
  · exact hd
  · rw [Nat.shiftLeft_eq]
    exact Nat.mul_pos hd (Nat.two_pow_pos _)

theorem scaleQ_val : ((scaleQ n d e q).1 : ℚ) / (scaleQ n d e q).2 = (n : ℚ) / d * 2 ^ (e - q) := by
  rw [scaleQ]
  split
  · next h =>
    obtain ⟨k, hk⟩ := Int.eq_ofNat_of_zero_le (show 0 ≤ e - q by omega)
    rw [hk, Nat.shiftLeft_eq, zpow_natCast]
    push_cast
    exact mul_div_right_comm _ _ _
  · next h =>
    obtain ⟨k, hk⟩ := Int.eq_ofNat_of_zero_le (show 0 ≤ q - e by omega)
    rw [hk, Nat.shiftLeft_eq, ← neg_sub q e, hk, zpow_neg, zpow_natCast]
    push_cast
    rw [← div_div, div_eq_mul_inv _ ((2 : ℚ) ^ _)]
    norm_num

theorem log2_bounds (hn : 0 < n) : (2 : ℚ) ^ (n.log2 : ℤ) ≤ n ∧ (n : ℚ) < 2 ^ ((n.log2 : ℤ) + 1) := by
  have hlo := Nat.log2_self_le hn.ne'
  have hhi := Nat.lt_log2_self (n := n)
  refine ⟨by exact_mod_cast hlo, ?_⟩
  rw [← Nat.cast_succ, zpow_natCast]
  exact_mod_cast hhi

/-- `log2Q` is the binary logarithm rounded down. -/
theorem log2Q_spec (hn : 0 < n) (hd : 0 < d) :
    (2 : ℚ) ^ log2Q n d e ≤ (n : ℚ) / d * 2 ^ e ∧ (n : ℚ) / d * 2 ^ e < 2 ^ (log2Q n d e + 1) := by
  obtain ⟨hn1, hn2⟩ := log2_bounds hn
  obtain ⟨hd1, hd2⟩ := log2_bounds hd
  have hdq : (0 : ℚ) < d := by exact_mod_cast hd
  have he : (0 : ℚ) < 2 ^ e := zpow_pos two_pos e
  set k : ℤ := (n.log2 : ℤ) - d.log2 with hk
  have hb : (0 : ℚ) < (scaleQ n d 0 k).2 := by exact_mod_cast scaleQ_pos hd
  have hval := scaleQ_val (n := n) (d := d) (e := 0) (q := k)
  rw [zero_sub] at hval
  have hcmp : (scaleQ n d 0 k).2 ≤ (scaleQ n d 0 k).1 ↔ (2 : ℚ) ^ k ≤ (n : ℚ) / d := by
    rw [← Nat.cast_le (α := ℚ), ← one_le_div hb, hval, zpow_neg, ← div_eq_mul_inv, one_le_div (zpow_pos two_pos k)]
  have hlow : (2 : ℚ) ^ (k - 1) ≤ (n : ℚ) / d := by
    rw [le_div_iff₀ hdq]
    calc (2 : ℚ) ^ (k - 1) * d ≤ 2 ^ (k - 1) * 2 ^ ((d.log2 : ℤ) + 1) := by gcongr
      _ = 2 ^ (n.log2 : ℤ) := by rw [← zpow_add₀ two_ne_zero, hk]; congr 1; ring
      _ ≤ n := hn1
  have hhigh : (n : ℚ) / d < 2 ^ (k + 1) := by
    rw [div_lt_iff₀ hdq]
    calc (n : ℚ) < 2 ^ ((n.log2 : ℤ) + 1) := hn2
      _ = 2 ^ (k + 1) * 2 ^ (d.log2 : ℤ) := by rw [← zpow_add₀ two_ne_zero, hk]; congr 1; ring
      _ ≤ 2 ^ (k + 1) * d := by gcongr
  have hL : log2Q n d e = (if (2 : ℚ) ^ k ≤ (n : ℚ) / d then k else k - 1) + e := by
    simp only [log2Q, ← hcmp, ← hk]
  rw [hL, add_right_comm, zpow_add₀ two_ne_zero, zpow_add₀ two_ne_zero (_ + 1) e, mul_le_mul_iff_left₀ he, mul_lt_mul_iff_left₀ he]
  split
  · next h => exact ⟨h, hhigh⟩
  · next h => exact ⟨hlow, by rw [sub_add_cancel]; exact not_le.mp h⟩

end

/-! ## The spacing and the grid -/

section
variable {f : Fmt} {n d : Nat} {e : Int} {md : Rnd} {neg : Bool} {k j C : Nat} {x : ℚ}

/-- The binade number of the top binade. -/
def Fmt.jtop (f : Fmt) : Nat := (f.qtop - f.qmin).toNat

theorem qtop_eq (f : Fmt) : f.qtop = f.qmin + f.jtop := by
  have : f.qmin ≤ f.qtop := by
    rw [Fmt.qtop, Fmt.qmin]
    split
    · exact le_rfl
    · split <;> omega
  rw [Fmt.jtop]
  omega

theorem jtop_of_e (he : f.e = 0) : f.jtop = 0 := by
  simp [Fmt.jtop, Fmt.qtop, Fmt.qmin, he]

/-- The greatest finite magnitude is kmax of the top binade. -/
theorem lim_binade (he : f.e ≠ 0) (neg : Bool) :
    f.lim neg = f.jtop * 2 ^ f.m + f.kmax ∧ (2 ^ f.m ≤ f.kmax ∨ f.jtop = 0) ∧ f.kmax < 2 ^ (f.m + 1) := by
  have hp := Nat.two_pow_pos f.m
  have h2 : 2 ^ 1 ≤ 2 ^ f.e := Nat.pow_le_pow_right two_pos (by omega)
  have hj : f.jtop = f.eTop - 1 := by
    simp only [Fmt.jtop, Fmt.qtop, Fmt.qmin, if_neg he]
    split <;> omega
  have htop : (if f.spec = 1 then 2 ^ f.e - 1 else 2 ^ f.e) = f.eTop + 1 := by
    rw [Fmt.eTop]
    split <;> omega
  rw [Fmt.lim, if_neg he, htop, hj, Fmt.kmax, pow_succ]
  by_cases h0 : f.eTop = 0
  · simp only [h0, or_true, if_true, Nat.zero_sub, zero_mul, zero_add, one_mul, true_and]
    omega
  · obtain ⟨t, ht⟩ := Nat.exists_eq_succ_of_ne_zero h0
    simp only [he, h0, or_self, if_false]
    rw [ht, Nat.succ_sub_one, Nat.succ_eq_add_one, add_mul, add_mul]
    omega

/-- The limit of a sign in units of 2^qtop. -/
theorem mag_lim (neg : Bool) : (if neg then f.klow else f.kmax) * 2 ^ f.jtop = f.mag (f.lim neg) := by
  by_cases he : f.e = 0
  · rw [mag_of_e he, jtop_of_e he, pow_zero, mul_one, Fmt.lim, if_pos he, Fmt.klow, Fmt.kmax]
    cases neg <;> simp [he]
  · obtain ⟨hlim, hlo, hhi⟩ := lim_binade he neg
    rw [hlim, mag_binade he hlo hhi.le, Fmt.klow]
    simp [he]

/-- The cases of the spacing: the least one, that of the binade, or that of the top binade for all beyond (R71, R72). -/
theorem spacing_cases (hd : 0 < d) (hx : x = f.units n d e) : ∃ j : Nat, f.spacing n d e = f.qmin + j ∧ j ≤ f.jtop ∧ (f.e = 0 → j = 0) ∧
    (f.e ≠ 0 → ((2 ^ f.m * 2 ^ j ≤ x ∨ j = 0) ∧ x < 2 ^ (f.m + 1) * 2 ^ j) ∨ (j = f.jtop ∧ 2 ^ (f.m + 1) * 2 ^ j ≤ x)) := by
  by_cases h0 : n = 0 ∨ f.e = 0
  · refine ⟨0, by simp [Fmt.spacing, h0], Nat.zero_le _, fun _ => rfl, fun he => .inl ⟨.inr rfl, ?_⟩⟩
    have hx0 : x = 0 := by simp [hx, Fmt.units, h0.resolve_right he]
    rw [hx0]
    positivity
  obtain ⟨hn, he⟩ := not_or.mp h0
  obtain ⟨hlo, hhi⟩ := log2Q_spec (e := e) (Nat.pos_of_ne_zero hn) hd
  set L := log2Q n d e with hL
  have hu : (0 : ℚ) < 2 ^ f.qmin := unit_pos f
  have hxu : x * 2 ^ f.qmin = (n : ℚ) / d * 2 ^ e := by
    rw [hx, Fmt.units, mul_assoc, ← zpow_add₀ two_ne_zero, sub_add_cancel]
  have hpow (i t : Nat) : (2 : ℚ) ^ i * 2 ^ t = 2 ^ (f.qmin + i + t) / 2 ^ f.qmin := by
    rw [eq_div_iff hu.ne', ← zpow_natCast, ← zpow_natCast, ← zpow_add₀ two_ne_zero, ← zpow_add₀ two_ne_zero]
    congr 1
    ring
  have hle (i t : Nat) (h : f.qmin + i + t ≤ L) : (2 : ℚ) ^ i * 2 ^ t ≤ x := by
    rw [hpow, div_le_iff₀ hu, hxu]
    exact (zpow_le_zpow_right₀ one_le_two h).trans hlo
  have hlt (i t : Nat) (h : L + 1 ≤ f.qmin + i + t) : x < (2 : ℚ) ^ i * 2 ^ t := by
    rw [hpow, lt_div_iff₀ hu, hxu]
    exact hhi.trans_le (zpow_le_zpow_right₀ one_le_two h)
  have hq := qtop_eq f
  have hsp : f.spacing n d e = if L - f.m < f.qmin then f.qmin else if f.qtop < L - f.m then f.qtop else L - f.m := by
    simp only [Fmt.spacing, if_neg h0, ← hL]
  rw [hsp]
  split
  · exact ⟨0, by simp, Nat.zero_le _, fun _ => rfl, fun _ => .inl ⟨.inr rfl, hlt _ _ (by push_cast; omega)⟩⟩
  · split
    · exact ⟨f.jtop, hq, le_rfl, fun h => absurd h he, fun _ => .inr ⟨rfl, hle _ _ (by push_cast; omega)⟩⟩
    · obtain ⟨j, hj⟩ := Int.eq_ofNat_of_zero_le (show 0 ≤ L - f.m - f.qmin by omega)
      exact ⟨j, by omega, by omega, fun h => absurd h he, fun _ => .inl ⟨.inl (hle _ _ (by omega)), hlt _ _ (by push_cast; omega)⟩⟩

/-- Whether the rounding of a quotient goes up, for the remainder as a fraction r of the spacing (R70, R72). -/
def roundsUp (md : Rnd) (neg even : Bool) (r : ℚ) : Prop :=
  match md with
  | .rne => 1 < 2 * r ∨ 2 * r = 1 ∧ even = false
  | .rz => False
  | .ru => neg = false ∧ 0 < r
  | .rd => neg = true ∧ 0 < r
  | .sr u => 256 ≤ 256 * r + u

/-- The same for a remainder under a divisor, as `gridRound` decides it. -/
def Rnd.up (md : Rnd) (neg even : Bool) (rem b : Nat) : Bool :=
  match md with
  | .rne => if b < 2 * rem then true else if 2 * rem = b then !even else false
  | .rz => false
  | .ru => !neg && rem != 0
  | .rd => neg && rem != 0
  | .sr u => decide (256 * b ≤ 256 * rem + u * b)

theorem up_iff {b rem : Nat} {even : Bool} {r : ℚ} (hb : 0 < b) (hr : (rem : ℚ) = r * b) : md.up neg even rem b = true ↔ roundsUp md neg even r := by
  have hbq : (0 : ℚ) < b := by exact_mod_cast hb
  have hne : rem ≠ 0 ↔ 0 < r := by
    rw [← Nat.pos_iff_ne_zero, ← Nat.cast_pos (α := ℚ), hr, mul_pos_iff_of_pos_right hbq]
  cases md with
  | rne =>
    have h1 : b < 2 * rem ↔ 1 < 2 * r := by
      rw [← Nat.cast_lt (α := ℚ), Nat.cast_mul, hr, ← mul_assoc, lt_mul_iff_one_lt_left hbq, Nat.cast_ofNat]
    have h2 : 2 * rem = b ↔ 2 * r = 1 := by
      rw [← Nat.cast_inj (R := ℚ), Nat.cast_mul, hr, ← mul_assoc, mul_eq_right₀ hbq.ne', Nat.cast_ofNat]
    simp only [Rnd.up, roundsUp, h1, h2]
    split
    · next h => simp [h]
    · next h => split <;> simp_all
  | rz => simp [roundsUp, Rnd.up]
  | ru => simp [roundsUp, Rnd.up, ← hne]
  | rd => simp [roundsUp, Rnd.up, ← hne]
  | sr u =>
    rw [Rnd.up, decide_eq_true_eq, ← Nat.cast_le (α := ℚ)]
    push_cast
    rw [hr, ← mul_assoc, ← add_mul, mul_le_mul_iff_left₀ hbq, roundsUp]

theorem gridRound_eq {a b : Nat} {q : Int} (hq : f.spacing n d e = q) (hab : scaleQ n d e q = (a, b)) :
    gridRound f md neg n d e = (if md.up neg (f.evenCode (a / b) q) (a % b) b then a / b + 1 else a / b, q) := by
  simp only [gridRound, hq, hab]
  rfl

/-- The point of the grid that a magnitude rounds to. -/
theorem gridRound_spec (hd : 0 < d) (hx : x = f.units n d e) {j : Nat} (hj : f.spacing n d e = f.qmin + j) :
    ∃ k : Nat, (k * 2 ^ j : ℚ) ≤ x ∧ x < (k + 1) * 2 ^ j ∧
      (roundsUp md neg (f.evenCode k (f.qmin + j)) (x / 2 ^ j - k) ∧ gridRound f md neg n d e = (k + 1, f.qmin + j) ∨
        ¬roundsUp md neg (f.evenCode k (f.qmin + j)) (x / 2 ^ j - k) ∧ gridRound f md neg n d e = (k, f.qmin + j)) := by
  have hb := scaleQ_pos (n := n) (e := e) (q := f.qmin + j) hd
  have hval := scaleQ_val (n := n) (d := d) (e := e) (q := f.qmin + j)
  have hjp : (0 : ℚ) < 2 ^ j := by positivity
  rcases hab : scaleQ n d e (f.qmin + j) with ⟨a, b⟩
  rw [hab] at hb hval
  simp only at hb hval
  have hbq : (0 : ℚ) < b := by exact_mod_cast hb
  have hy : (a : ℚ) / b = x / 2 ^ j := by
    rw [hval, hx, Fmt.units, mul_div_assoc, ← zpow_natCast, ← zpow_sub₀ two_ne_zero, sub_add_eq_sub_sub]
  have hmod : (a % b : ℕ) = (x / 2 ^ j - (a / b : ℕ)) * b := by
    have hq : (a : ℚ) = b * (a / b : ℕ) + (a % b : ℕ) := by exact_mod_cast (Nat.div_add_mod a b).symm
    rw [← hy, sub_mul, div_mul_cancel₀ _ hbq.ne']
    linarith
  have hr0 : 0 ≤ x / 2 ^ j - (a / b : ℕ) := nonneg_of_mul_nonneg_left (hmod ▸ Nat.cast_nonneg _) hbq
  have hr1 : x / 2 ^ j - (a / b : ℕ) < 1 := by
    have hlt : ((a % b : ℕ) : ℚ) < b := by exact_mod_cast Nat.mod_lt a hb
    rw [hmod] at hlt
    exact (mul_lt_iff_lt_one_left hbq).mp hlt
  refine ⟨a / b, ?_, ?_, ?_⟩
  · rw [← le_div_iff₀ hjp]
    linarith
  · rw [← div_lt_iff₀ hjp]
    linarith
  · rw [gridRound_eq hj hab, ← up_iff hb hmod]
    split
    · next h => exact .inl ⟨h, rfl⟩
    · next h => exact .inr ⟨h, rfl⟩

/-- In the binades that the format has, the grid is that of the magnitudes. -/
theorem gridRound_idx (hd : 0 < d) (hx : x = f.units n d e) {j : Nat} (hj : f.spacing n d e = f.qmin + j) (he : f.e = 0 → j = 0)
    (hbin : f.e ≠ 0 → (2 ^ f.m * 2 ^ j ≤ x ∨ j = 0) ∧ x < 2 ^ (f.m + 1) * 2 ^ j) :
    ∃ k C, gridRound f md neg n d e = (k, f.qmin + j) ∧ k * 2 ^ j = f.mag C ∧ f.RoundIdx md neg x C := by
  obtain ⟨k, hlo, hhi, hround⟩ := gridRound_spec (md := md) (neg := neg) hd hx hj
  have hjp : (0 : ℚ) < 2 ^ j := by positivity
  have hmag : ∃ C, f.mag C = k * 2 ^ j ∧ f.mag (C + 1) = (k + 1) * 2 ^ j ∧ f.evenCode k (f.qmin + j) = (C % 2 == 0) := by
    by_cases h0 : f.e = 0
    · refine ⟨k, ?_, ?_, ?_⟩
      · rw [mag_of_e h0, he h0, pow_zero, mul_one]
      · rw [mag_of_e h0, he h0, pow_zero, mul_one]
      · simp [Fmt.evenCode, h0]
    · obtain ⟨hbl, hbh⟩ := hbin h0
      have hk1 : 2 ^ f.m ≤ k ∨ j = 0 := hbl.imp_left fun h => by
        have h' := (mul_lt_mul_iff_left₀ hjp).mp (h.trans_lt hhi)
        exact Nat.lt_succ_iff.mp (by exact_mod_cast h')
      have hk2 : k < 2 ^ (f.m + 1) := by
        have h' := (mul_lt_mul_iff_left₀ hjp).mp (hlo.trans_lt hbh)
        exact_mod_cast h'
      refine ⟨j * 2 ^ f.m + k, mag_binade h0 hk1 hk2.le, by rw [add_assoc]; exact mag_binade h0 (hk1.imp_left Nat.le_succ_of_le) hk2, ?_⟩
      by_cases hm : f.m = 0
      · have hq : f.qmin = 1 - f.bias := by simp [Fmt.qmin, h0, hm]
        rw [Fmt.evenCode, hm, hq]
        rw [hm] at hk1 hk2
        by_cases hk : k = 1
        · simp only [hk, h0, ne_eq, not_false_eq_true, and_self, if_true, pow_zero, mul_one]
          rw [Bool.eq_iff_iff, beq_iff_eq, beq_iff_eq]
          omega
        · have hk0 : k = 0 := by omega
          have hj0 : j = 0 := by omega
          simp [hk0, hj0]
      · have h2 : j * 2 ^ f.m % 2 = 0 := Nat.mod_eq_zero_of_dvd ((dvd_pow_self 2 hm).mul_left j)
        simp [Fmt.evenCode, hm, Nat.add_mod, h2]
  obtain ⟨C, hC, hC1, heven⟩ := hmag
  have hCq : (f.mag C : ℚ) = k * 2 ^ j := by exact_mod_cast hC
  have hC1q : (f.mag (C + 1) : ℚ) = (k + 1) * 2 ^ j := by exact_mod_cast hC1
  have hfloor : f.Floor x C := ⟨hCq ▸ hlo, hC1q ▸ hhi⟩
  have hup : roundsUp md neg (f.evenCode k (f.qmin + j)) (x / 2 ^ j - k) ↔ f.RoundsUp md neg x C := by
    have hx' : x / 2 ^ j * 2 ^ j = x := div_mul_cancel₀ _ hjp.ne'
    generalize x / 2 ^ j = y at hx' ⊢
    rw [← hx', heven]
    cases md with
    | rne =>
      simp only [roundsUp, Fmt.RoundsUp, hCq, hC1q, ← add_mul, ← mul_assoc]
      rw [mul_lt_mul_iff_left₀ hjp, mul_left_inj' hjp.ne']
      refine or_congr ?_ (and_congr ?_ ?_)
      · constructor <;> intro h <;> linarith
      · constructor <;> intro h <;> linarith
      · rw [beq_eq_false_iff_ne]
        omega
    | rz => rfl
    | ru =>
      simp only [roundsUp, Fmt.RoundsUp, hCq, sub_pos, mul_lt_mul_iff_left₀ hjp]
    | rd =>
      simp only [roundsUp, Fmt.RoundsUp, hCq, sub_pos, mul_lt_mul_iff_left₀ hjp]
    | sr u =>
      simp only [roundsUp, Fmt.RoundsUp, hCq, hC1q, ← sub_mul, ← mul_assoc, ← add_mul]
      rw [mul_le_mul_iff_left₀ hjp]
      constructor <;> intro h <;> linarith
  rw [hup] at hround
  obtain ⟨hu, hg⟩ | ⟨hu, hg⟩ := hround
  · exact ⟨k + 1, C + 1, hg, hC1.symm, C, hfloor, .inl ⟨hu, rfl⟩⟩
  · exact ⟨k, C, hg, hC.symm, C, hfloor, .inr ⟨hu, rfl⟩⟩

end

end Sys2Proof.Machine
end

section
/-! SUPPORT. Rounding a number to a format and encoding it (R71, R75, R76). -/

namespace Sys2Proof.Machine

open Sys2Proof.Claims

section
variable {f : Fmt} {n d : Nat} {e : Int} {md : Rnd} {neg : Bool} {C M : Nat} {x : ℚ} {y : Num}

theorem units_nonneg : 0 ≤ f.units n d e := by
  rw [Fmt.units]
  positivity

theorem roundRat_of_grid {k j : Nat} (hg : gridRound f md neg n d e = (k, f.qmin + j)) :
    roundRat f md neg n d e = if f.beyond (if neg then f.klow else f.kmax) k (f.qmin + j) then
      (if f.hasInf && md.overflows neg then .inf neg else .fin neg (if neg then f.klow else f.kmax) f.qtop) else .fin neg k (f.qmin + j) := by
  simp only [roundRat, hg]
  rfl

theorem beyond_iff {k j : Nat} (hj : j ≤ f.jtop) :
    f.beyond (if neg then f.klow else f.kmax) k (f.qmin + j) = true ↔ f.mag (f.lim neg) < k * 2 ^ j := by
  have hsub : (f.qtop - (f.qmin + j)).toNat = f.jtop - j := by
    rw [qtop_eq]
    omega
  rw [Fmt.beyond, decide_eq_true_eq, hsub, Nat.shiftLeft_eq, ← mag_lim, ← Nat.sub_add_cancel hj, Nat.add_sub_cancel, pow_add, ← mul_assoc,
    Nat.mul_lt_mul_right (Nat.two_pow_pos j)]

/-- The result beyond the greatest finite magnitude. -/
theorem stands_beyond (h : f.lim neg < C) :
    f.Stands neg (min C (f.top md neg)) (if f.hasInf && md.overflows neg then .inf neg else .fin neg (if neg then f.klow else f.kmax) f.qtop) := by
  rw [Fmt.top]
  split
  · next hinf =>
    rw [Bool.and_eq_true] at hinf
    exact .inr ⟨by omega, hinf.1, rfl⟩
  · rw [add_zero, min_eq_right h.le]
    exact .inl ⟨le_rfl, _, _, by rw [qtop_eq], mag_lim neg⟩

/-- R71: a magnitude is rounded to the number that its mode gives, or to what stands for the greatest. -/
theorem roundRat_stands (hd : 0 < d) (md : Rnd) (neg : Bool) :
    ∃ C, f.RoundIdx md neg (f.units n d e) C ∧ f.Stands neg (min C (f.top md neg)) (roundRat f md neg n d e) := by
  obtain ⟨j, hj, hjt, h0, hcases⟩ := spacing_cases (f := f) (n := n) (e := e) hd rfl
  by_cases hbin : f.e ≠ 0 → (2 ^ f.m * 2 ^ j ≤ f.units n d e ∨ j = 0) ∧ f.units n d e < 2 ^ (f.m + 1) * 2 ^ j
  · obtain ⟨k, C, hg, hmag, hC⟩ := gridRound_idx (md := md) (neg := neg) hd rfl hj h0 hbin
    refine ⟨C, hC, ?_⟩
    rw [roundRat_of_grid hg]
    by_cases h : f.beyond (if neg then f.klow else f.kmax) k (f.qmin + j) = true
    · rw [if_pos h]
      rw [beyond_iff hjt, hmag, mag_lt_mag] at h
      exact stands_beyond h
    · rw [if_neg h]
      rw [beyond_iff hjt, hmag, mag_lt_mag, not_lt] at h
      rw [min_eq_left (show C ≤ f.top md neg from h.trans (Nat.le_add_right _ _))]
      exact .inl ⟨h, k, j, rfl, hmag⟩
  · obtain ⟨he, hno⟩ := Classical.not_imp.mp hbin
    obtain ⟨rfl, hge⟩ := (hcases he).resolve_left hno
    obtain ⟨C, hC⟩ := exists_roundIdx f md neg (units_nonneg (f := f) (n := n) (d := d) (e := e))
    obtain ⟨hlim, hlo, hhi⟩ := lim_binade he neg
    have hbig : f.lim neg < C := by
      obtain ⟨D, hD, hCD⟩ := hC
      have hmag : f.mag (f.lim neg + 1) = (f.kmax + 1) * 2 ^ f.jtop := by
        rw [hlim, add_assoc]
        exact mag_binade he (hlo.imp_left Nat.le_succ_of_le) hhi
      have hle : (f.mag (f.lim neg + 1) : ℚ) ≤ f.units n d e := by
        refine le_trans ?_ hge
        exact_mod_cast hmag ▸ Nat.mul_le_mul_right _ hhi
      have := (floor_le_iff hD).mp hle
      omega
    obtain ⟨k, -, hkhi, hround⟩ := gridRound_spec (md := md) (neg := neg) hd rfl hj
    have hk : 2 ^ (f.m + 1) ≤ k := by
      have h := lt_of_mul_lt_mul_right (hge.trans_lt hkhi) (by positivity)
      exact Nat.lt_succ_iff.mp (by exact_mod_cast h)
    obtain ⟨k', hk', hg⟩ : ∃ k', 2 ^ (f.m + 1) ≤ k' ∧ gridRound f md neg n d e = (k', f.qmin + f.jtop) :=
      hround.elim (fun h => ⟨_, Nat.le_succ_of_le hk, h.2⟩) fun h => ⟨_, hk, h.2⟩
    refine ⟨C, hC, ?_⟩
    rw [roundRat_of_grid hg, if_pos]
    · exact stands_beyond hbig
    · rw [beyond_iff le_rfl, hlim, mag_binade he hlo hhi.le]
      exact Nat.mul_lt_mul_of_pos_right (hhi.trans_le hk') (Nat.two_pow_pos _)

/-! ## Encoding -/

/-- The fields of a finite magnitude side by side are its number. -/
theorem fieldsOf_mag (he : f.e ≠ 0) {k j : Nat} (h : k * 2 ^ j = f.mag M) : (f.fieldsOf k (f.qmin + j)).1 * 2 ^ f.m + (f.fieldsOf k (f.qmin + j)).2 = M := by
  have hk : k <<< (f.qmin + j - f.qmin).toNat = f.mag M := by
    rw [Nat.shiftLeft_eq, ← h]
    congr 2
    omega
  rw [Fmt.fieldsOf]
  simp only [hk]
  split
  · next hlt => rw [mag_of_lt (lt_of_le_of_lt (le_mag M) hlt), zero_mul, zero_add]
  · next hge =>
    obtain ⟨i, r, rfl, hlo, hhi⟩ := exists_binade f.m M
    rw [mag_binade he hlo hhi.le] at hge ⊢
    have hlo' : 2 ^ f.m ≤ r := hlo.elim id fun h0 => by simpa [h0] using hge
    have hr : r ≠ 0 := (Nat.two_pow_pos _).trans_le hlo' |>.ne'
    have hlog : (r * 2 ^ i).log2 = f.m + i := by
      rw [Nat.log2_eq_iff (Nat.mul_ne_zero hr (Nat.two_pow_pos i).ne'), pow_add, add_right_comm, pow_add]
      exact ⟨Nat.mul_le_mul_right _ hlo', Nat.mul_lt_mul_of_pos_right hhi (Nat.two_pow_pos i)⟩
    rw [hlog, Nat.add_sub_cancel_left, Nat.shiftRight_eq_div_pow, Nat.mul_div_cancel _ (Nat.two_pow_pos i)]
    obtain ⟨t, rfl⟩ := Nat.exists_eq_add_of_le hlo'
    rw [pow_succ] at hhi
    rw [Nat.add_mod_left, Nat.mod_eq_of_lt (by omega)]
    ring

theorem encFinNarrow_mag {k j : Nat} (h : k * 2 ^ j = f.mag M) :
    encFinNarrow f neg k (f.qmin + j) = if neg ∧ f.s = 0 then 0 else f.idxCode neg M := by
  rw [encFinNarrow]
  refine if_congr Iff.rfl rfl ?_
  have hk0 : k = 0 ↔ M = 0 := by
    rw [← mag_eq_zero (f := f) (C := M), ← h, Nat.cast_eq_zero, Nat.mul_eq_zero]
    simp
  have hk : k <<< (f.qmin + j - f.qmin).toNat = f.mag M := by
    rw [Nat.shiftLeft_eq, ← h]
    congr 2
    omega
  rw [Fmt.idxCode]
  refine if_congr hk0 rfl ?_
  by_cases he : f.e = 0
  · rw [if_pos he, if_pos he, hk, mag_of_e he]
  · rw [if_neg he, if_neg he, add_assoc, fieldsOf_mag he h]

/-- R71, R72, R76: conversion of a finite number to a narrow format. -/
theorem encNarrowFin_spec (hf : f.Ok) (hd : 0 < d) (md : Rnd) (neg : Bool) :
    ∃ C, f.RoundIdx md neg (f.units n d e) C ∧ encNarrowFin f md neg n d e = (f.codeOf md neg C, false) := by
  obtain ⟨C, hC, ⟨hle, k, j, hy, hmag⟩ | ⟨htop, hinf, hy⟩⟩ := roundRat_stands (f := f) (n := n) (e := e) hd md neg
  · refine ⟨C, hC, ?_⟩
    simp only [encNarrowFin, hy, encFinNarrow_mag hmag, Fmt.codeOf]
  · refine ⟨C, hC, ?_⟩
    simp only [encNarrowFin, hy, Fmt.codeOf]
    split
    · rfl
    · next hs =>
      have hneg : neg = true → f.s = 1 := fun hn => by
        have := hf.sign
        have : f.s ≠ 0 := fun h0 => hs ⟨hn, h0⟩
        omega
      rw [htop, infIdxCode hf hinf hneg, Fmt.raw]
      cases neg with
      | false => rfl
      | true => rw [width_of_sign (hneg rfl)]

/-- The wide formats: signed, with infinities (R66). -/
structure Fmt.Wide (f : Fmt) : Prop where
  sign : f.s = 1
  spec : f.spec = 1
  frac : 1 ≤ f.m
  exp : 1 ≤ f.e

theorem Fmt.Wide.ok (hw : f.Wide) : f.Ok := by
  obtain ⟨hs, hspec, hm, he⟩ := hw
  exact ⟨by omega, by omega, by omega, by omega, by omega⟩

theorem Fmt.Wide.e_ne (hw : f.Wide) : f.e ≠ 0 := Nat.one_le_iff_ne_zero.mp hw.exp

theorem Fmt.Wide.hasInf (hw : f.Wide) : f.hasInf = true := hasInf_iff.mpr ⟨hw.spec, hw.frac⟩

theorem wide_f32 : fmtF32.Wide := ⟨rfl, rfl, by decide, by decide⟩
theorem wide_bf16 : fmtBF16.Wide := ⟨rfl, rfl, by decide, by decide⟩
theorem wide_f16 : fmtF16.Wide := ⟨rfl, rfl, by decide, by decide⟩

theorem codeOf_wide (hw : f.Wide) (C : Nat) : f.codeOf md neg C = f.idxCode neg (min C (f.top md neg)) := by
  rw [Fmt.codeOf, if_neg]
  simp [hw.sign]

theorem idxCode_wide (hw : f.Wide) (C : Nat) : f.idxCode neg C = f.raw neg C := by
  rw [idxCode_raw hw.e_ne (fun _ => hw.sign), if_neg]
  simp [hw.spec]

theorem encWide_stands (hw : f.Wide) (h : f.Stands neg M y) : encWide f y = f.idxCode neg M := by
  rw [idxCode_wide hw, Fmt.raw]
  obtain ⟨-, k, j, rfl, hmag⟩ | ⟨rfl, hinf, rfl⟩ := h
  · rw [encWide]
    rw [add_assoc, fieldsOf_mag hw.e_ne hmag]
  · rw [encWide, lim_succ_of_hasInf hw.ok hinf]

/-- R67, R70, R71: a finite number rounded to a wide format. -/
theorem encWide_roundRat (hw : f.Wide) (hd : 0 < d) (md : Rnd) (neg : Bool) :
    ∃ C, f.RoundIdx md neg (f.units n d e) C ∧ encWide f (roundRat f md neg n d e) = f.codeOf md neg C := by
  obtain ⟨C, hC, hst⟩ := roundRat_stands (f := f) (n := n) (e := e) hd md neg
  exact ⟨C, hC, by rw [codeOf_wide hw, encWide_stands hw hst]⟩

theorem real_units : f.real neg (f.units n d e) = (if neg then -1 else 1) * ((n : ℚ) / d * 2 ^ e) := by
  rw [Fmt.real, Fmt.units, mul_assoc, mul_assoc, ← zpow_add₀ two_ne_zero, sub_add_cancel]

theorem units_eq_zero (hd : 0 < d) : f.units n d e = 0 ↔ n = 0 := by
  have : (2 : ℚ) ^ (e - f.qmin) ≠ 0 := zpow_ne_zero _ two_ne_zero
  simp [Fmt.units, this, hd.ne']

/-- A finite number rounded to a wide format is its value rounded (R70). -/
theorem roundsTo_encWide (hw : f.Wide) (hd : 0 < d) (hmd : ∀ u, md ≠ .sr u) {neg0 : Bool} (h0 : n = 0 → neg0 = neg) :
    RoundsTo f md ((if neg then -1 else 1) * ((n : ℚ) / d * 2 ^ e)) neg0 (encWide f (roundRat f md neg n d e)) := by
  obtain ⟨C, hC, henc⟩ := encWide_roundRat (n := n) (e := e) hw hd md neg
  rw [henc, ← real_units (f := f)]
  exact roundsTo_codeOf hw.ok hmd units_nonneg hC fun hx => h0 ((units_eq_zero hd).mp hx)

end

end Sys2Proof.Machine
end

section
/-! SUPPORT. Decoded codes (R75), exact arithmetic on them (R67, R68), and one rounding of its result. -/

namespace Sys2Proof.Machine

open Sys2Proof.Claims

/-- The value of a finite number. -/
def Num.val : Num → ℚ
  | .fin neg m e => (if neg then -1 else 1) * (m * 2 ^ e)
  | _ => 0

/-! ## Decoding -/

section
variable {f : Fmt} {c : Nat}

theorem finiteCode_iff (hc : c < 2 ^ f.width) : finiteCode f c = true ↔ nanCode f c = false ∧ isInf f c = false := by
  simp [finiteCode, width_eq, hc]

theorem lt_of_finiteCode (h : finiteCode f c = true) : c < 2 ^ f.width := by
  simp only [finiteCode, Bool.and_eq_true, decide_eq_true_eq] at h
  exact h.1.1

theorem bitAt_eq (c i : Nat) : bitAt c i = (c / 2 ^ i % 2 == 1) := by
  rw [bitAt, Bool.eq_iff_iff, decide_eq_true_eq, beq_iff_eq]

theorem signBit_eq (he : f.e ≠ 0) : (f.s == 1 && bitAt c (f.width - 1)) = signCode f c := by
  by_cases hs : f.s = 1
  · rw [bitAt_eq, width_of_sign hs, signCode, decide_eq_true (Nat.one_le_iff_ne_zero.mpr he), Bool.and_true]
  · rw [signCode, beq_eq_false_iff_ne.mpr hs, Bool.false_and, Bool.false_and, Bool.false_and]

/-- `decode` in a format with an exponent field, by the classes of R75. -/
theorem decode_exponent (he : f.e ≠ 0) (hc : c < 2 ^ f.width) : decode f c =
    if f.spec = 2 ∧ c = 2 ^ (f.width - 1) then .nan false
    else if f.spec = 1 ∧ topExponent f c = true then
      if c % 2 ^ f.m = 0 ∧ 0 < f.m then .inf (signCode f c) else .nan (decide (9 ≤ f.width) && !bitAt (c % 2 ^ f.m) (f.m - 1))
    else if c / 2 ^ f.m % 2 ^ f.e = 0 then .fin (signCode f c) (c % 2 ^ f.m) f.qmin
    else .fin (signCode f c) (2 ^ f.m + c % 2 ^ f.m) ((c / 2 ^ f.m % 2 ^ f.e : Nat) - f.bias - f.m) := by
  simp only [decode, Nat.mod_eq_of_lt hc, if_neg he, signBit_eq he, topExponent, beq_iff_eq]

/-- The significand and the exponent of a decoded number. -/
theorem decode_range (he : f.e ≠ 0) (hc : c < 2 ^ f.width) {s : Bool} {m : Nat} {e : Int} (h : decode f c = .fin s m e) :
    m < 2 ^ (f.m + 1) ∧ f.qmin ≤ e ∧ e ≤ f.qmin + 2 ^ f.e := by
  have hmod := Nat.mod_lt c (Nat.two_pow_pos f.m)
  have hexp := Nat.mod_lt (c / 2 ^ f.m) (Nat.two_pow_pos f.e)
  have hpe : (0 : ℤ) < 2 ^ f.e := by positivity
  have hexp' : ((c / 2 ^ f.m % 2 ^ f.e : Nat) : ℤ) < 2 ^ f.e := by exact_mod_cast hexp
  have hqmin : f.qmin = 1 - f.bias - f.m := if_neg he
  rw [decode_exponent he hc] at h
  rw [pow_succ]
  split_ifs at h
  · obtain ⟨-, rfl, rfl⟩ := Num.fin.inj h
    exact ⟨by omega, le_rfl, by omega⟩
  · obtain ⟨-, rfl, rfl⟩ := Num.fin.inj h
    exact ⟨by omega, by omega, by omega⟩

theorem decode_integer (he : f.e = 0) (hc : c < 2 ^ f.width) (hnan : ¬(f.spec = 2 ∧ c = 2 ^ (f.width - 1))) : decode f c =
    if f.s = 1 ∧ bitAt c f.m = true then .fin true (2 ^ f.m - c % 2 ^ f.m) (-f.bias) else .fin false (c % 2 ^ f.m) (-f.bias) := by
  simp only [decode, Nat.mod_eq_of_lt hc, if_neg hnan, if_pos he]

theorem nanCode_iff : nanCode f c = true ↔ (f.spec = 2 ∧ c = 2 ^ (f.width - 1)) ∨ (f.spec = 1 ∧ topExponent f c = true ∧ ¬(1 ≤ f.m ∧ c % 2 ^ f.m = 0)) := by
  simp [nanCode, width_eq, and_assoc, imp_iff_not_or]

theorem isInf_iff (hc : c < 2 ^ f.width) : isInf f c = true ↔ f.spec = 1 ∧ 1 ≤ f.m ∧ topExponent f c = true ∧ c % 2 ^ f.m = 0 := by
  simp only [isInf, infCode, width_eq, Bool.or_eq_true, Bool.and_eq_true, beq_iff_eq, decide_eq_true_eq]
  cases signCode f c <;> simp [and_assoc, hc]

variable (hf : f.Ok)
include hf

omit hf in
theorem decode_fin (h : finiteCode f c = true) :
    ∃ neg m e, decode f c = .fin neg m e ∧ codeVal f c = (Num.fin neg m e).val ∧ (f.e ≠ 0 ∨ m = 0 → neg = signCode f c) := by
  have hc := lt_of_finiteCode h
  obtain ⟨hnan, hinf⟩ := (finiteCode_iff hc).mp h
  rw [← Bool.not_eq_true, nanCode_iff, not_or] at hnan
  rw [← Bool.not_eq_true, isInf_iff hc] at hinf
  by_cases he : f.e = 0
  · rw [decode_integer he hc hnan.1]
    have hbit : bitAt c f.m = true ↔ c / 2 ^ f.m % 2 = 1 := by rw [bitAt, decide_eq_true_eq]
    have hmod := Nat.mod_lt c (Nat.two_pow_pos f.m)
    have hval := codeVal_integer (f := f) he c
    rw [hval, Fmt.qmin, if_pos he]
    simp only [hbit]
    split
    · refine ⟨_, _, _, rfl, ?_, fun h => ?_⟩
      · simp only [Num.val, if_true]
        rw [Nat.cast_sub hmod.le]
        push_cast
        ring
      · exact absurd (h.resolve_left fun h => h he) (by omega)
    · refine ⟨_, _, _, rfl, by simp [Num.val], fun _ => ?_⟩
      simp [signCode, he]
  · have htop : ¬(f.spec = 1 ∧ topExponent f c = true) := fun h => hnan.2 ⟨h.1, h.2, fun h' => hinf ⟨h.1, h'.1, h.2, h'.2⟩⟩
    rw [decode_exponent he hc, if_neg hnan.1, if_neg htop, codeVal, if_neg he]
    split
    · next h0 =>
      refine ⟨_, _, _, rfl, ?_, fun _ => rfl⟩
      simp only [h0, if_true, Num.val, Fmt.qmin, if_neg he]
    · next h0 =>
      refine ⟨_, _, _, rfl, ?_, fun _ => rfl⟩
      simp only [h0, if_false, Num.val]

theorem decode_inf (hc : c < 2 ^ f.width) (h : isInf f c = true) : decode f c = .inf (signCode f c) := by
  obtain ⟨hspec, hm, htop, hmod⟩ := (isInf_iff hc).mp h
  have he := Nat.one_le_iff_ne_zero.mp (hf.infs hspec)
  rw [decode_exponent he hc, if_neg (by omega), if_pos ⟨hspec, htop⟩, if_pos ⟨hmod, hm⟩]

theorem decode_nan (hc : c < 2 ^ f.width) (h : nanCode f c = true) : ∃ s, decode f c = .nan s := by
  obtain ⟨hspec, hz⟩ | ⟨hspec, htop, hno⟩ := nanCode_iff.mp h
  · exact ⟨false, by simp only [decode, Nat.mod_eq_of_lt hc]; rw [if_pos ⟨hspec, hz⟩]⟩
  · have he := Nat.one_le_iff_ne_zero.mp (hf.infs hspec)
    rw [decode_exponent he hc, if_neg (by omega), if_pos ⟨hspec, htop⟩, if_neg fun h => hno ⟨h.2, h.1⟩]
    exact ⟨_, rfl⟩

end

/-- A signalling NaN of a wide format is one whose top mantissa bit is 0 (R67). -/
theorem decode_signalling {f : Fmt} (hw : f.Wide) (h9 : 9 ≤ f.width) {c : Nat} (hc : c < 2 ^ f.width) (h : nanCode f c = true) :
    decode f c = .nan (signalling f c) := by
  obtain ⟨hspec, htop, hno⟩ := (nanCode_iff.mp h).resolve_left fun h2 => absurd (h2.1.symm.trans hw.spec) (by decide)
  have hbit : c % 2 ^ f.m / 2 ^ (f.m - 1) % 2 = c / 2 ^ (f.m - 1) % 2 := by
    have hm := Nat.sub_add_cancel hw.frac
    conv_lhs => rw [← hm, pow_succ, Nat.add_sub_cancel, Nat.mod_mul_right_div_self, Nat.mod_mod]
  rw [decode_exponent hw.e_ne hc, if_neg (by omega), if_pos ⟨hspec, htop⟩, if_neg fun h => hno ⟨h.2, h.1⟩, decide_eq_true h9, Bool.true_and,
    bitAt_eq, hbit, signalling, h, Bool.true_and]
  obtain h0 | h1 := Nat.mod_two_eq_zero_or_one (c / 2 ^ (f.m - 1)) <;> simp [*]

/-! ## Codes of a wide format -/

section
variable {f : Fmt} (hw : f.Wide) {a b c : Nat}
include hw

theorem width_wide : f.width = f.e + f.m + 1 := by
  rw [Fmt.width, hw.sign]
  ring

theorem exists_raw_wide (hc : c < 2 ^ f.width) : ∃ neg C, C < 2 ^ (f.e + f.m) ∧ c = f.raw neg C ∧ signCode f c = neg ∧ codeVal f c = f.idxVal neg C := by
  obtain ⟨neg, C, hneg, hC, rfl⟩ := exists_raw hw.ok hc
  exact ⟨neg, C, hC, rfl, signCode_raw hw.e_ne hneg hC, codeVal_raw hw.e_ne hneg hC⟩

theorem infinity_eq (neg : Bool) : infinity f neg = f.raw neg (f.lim neg + 1) := by
  rw [lim_succ_of_hasInf hw.ok hw.hasInf]
  rfl

theorem infIdx_lt_wide (neg : Bool) : f.lim neg + 1 < 2 ^ (f.e + f.m) := infIdx_lt hw.ok hw.hasInf neg

theorem isInf_wide (hc : c < 2 ^ f.width) : isInf f c = true ↔ c = infinity f (signCode f c) := by
  obtain ⟨neg, C, hC, rfl, hsign, -⟩ := exists_raw_wide hw hc
  rw [hsign, isInf_raw hw.e_ne (fun _ => hw.sign) hC, ← lim_succ_of_hasInf hw.ok hw.hasInf neg, infinity_eq hw]
  simp [hw.spec, hw.frac, Fmt.raw]

theorem infinity_lt (neg : Bool) : infinity f neg < 2 ^ f.width := by
  rw [infinity_eq hw]
  exact raw_lt_width (fun _ => hw.sign) (infIdx_lt_wide hw neg)

theorem signCode_infinity (neg : Bool) : signCode f (infinity f neg) = neg := by
  rw [infinity_eq hw]
  exact signCode_raw hw.e_ne (fun _ => hw.sign) (infIdx_lt_wide hw neg)

theorem isInf_infinity (neg : Bool) : isInf f (infinity f neg) = true := by
  rw [isInf_wide hw (infinity_lt hw neg), signCode_infinity hw]

theorem codeVal_infinity (neg : Bool) : codeVal f (infinity f neg) = f.idxVal neg (f.lim neg + 1) := by
  rw [infinity_eq hw]
  exact codeVal_raw hw.e_ne (fun _ => hw.sign) (infIdx_lt_wide hw neg)

theorem lim_wide (neg neg' : Bool) : f.lim neg = f.lim neg' := by
  simp [Fmt.lim, hw.e_ne]

theorem exists_raw_finite (h : finiteCode f c = true) :
    ∃ neg C, C ≤ f.lim false ∧ c = f.raw neg C ∧ signCode f c = neg ∧ codeVal f c = f.idxVal neg C := by
  obtain ⟨neg, C, hC, rfl, hsign, hval⟩ := exists_raw_wide hw (lt_of_finiteCode h)
  exact ⟨neg, C, lim_wide hw neg false ▸ ((finiteCode_raw hw.e_ne (fun _ => hw.sign) hC hw.ok).mp h).1, rfl, hsign, hval⟩

theorem abs_codeVal_finite_lt (h : finiteCode f c = true) (neg : Bool) : |codeVal f c| < |codeVal f (infinity f neg)| := by
  obtain ⟨s, C, hC, -, -, hval⟩ := exists_raw_finite hw h
  rw [hval, codeVal_infinity hw, idxVal_real, idxVal_real, abs_real (natCast_mag_nonneg _), abs_real (natCast_mag_nonneg _), lim_wide hw neg false,
    mul_lt_mul_iff_left₀ (unit_pos f), mag_cast_lt]
  exact Nat.lt_succ_of_le hC

/-- Two codes of one value are one code, or both zeros. -/
theorem eq_of_codeVal_wide (ha : a < 2 ^ f.width) (hb : b < 2 ^ f.width) (h : codeVal f a = codeVal f b)
    (hsign : codeVal f a = 0 → signCode f a = signCode f b) : a = b := by
  obtain ⟨s, C, hC, rfl, hs, hv⟩ := exists_raw_wide hw ha
  obtain ⟨s', C', hC', rfl, hs', hv'⟩ := exists_raw_wide hw hb
  rw [hv, hv'] at h
  have hmag : C = C' := by
    have habs := congrArg abs h
    rw [idxVal_real, idxVal_real, abs_real (natCast_mag_nonneg _), abs_real (natCast_mag_nonneg _), mul_left_inj' (unit_pos f).ne'] at habs
    exact mag_inj.mp (by exact_mod_cast habs)
  subst hmag
  by_cases h0 : f.idxVal s C = 0
  · rw [hv, hs, hs'] at hsign
    rw [hsign h0]
  · by_contra hne
    obtain rfl : s' = !s := Bool.eq_not.mpr fun h => hne (by rw [h])
    rw [idxVal_not] at h
    exact h0 (by linarith)

/-- The sign bit of a code agrees with its value. -/
theorem signCode_of_neg (hc : c < 2 ^ f.width) (h : codeVal f c < 0) : signCode f c = true := by
  obtain ⟨s, C, -, rfl, hs, hv⟩ := exists_raw_wide hw hc
  rw [hv, idxVal_real, real_lt_zero (natCast_mag_nonneg _)] at h
  rw [hs, h.1]

theorem signCode_of_pos (hc : c < 2 ^ f.width) (h : 0 < codeVal f c) : signCode f c = false := by
  obtain ⟨s, C, -, rfl, hs, hv⟩ := exists_raw_wide hw hc
  rw [hs]
  cases s with
  | false => rfl
  | true => exact absurd (hv ▸ h) idxVal_true_nonpos.not_gt

theorem flipped_raw {neg : Bool} {C : Nat} (hC : C < 2 ^ (f.e + f.m)) : flipped f (f.raw neg C) = f.raw (!neg) C := by
  have hp := Nat.two_pow_pos (f.e + f.m)
  rw [flipped, width_eq, width_wide hw, pow_succ, Fmt.raw, Fmt.raw]
  cases neg with
  | false =>
    simp only [Bool.false_eq_true, if_false, zero_add, Bool.not_false, if_true]
    rw [Nat.mod_eq_of_lt (by omega), add_comm]
  | true =>
    simp only [if_true, Bool.not_true, Bool.false_eq_true, if_false, zero_add]
    rw [show 2 ^ (f.e + f.m) + C + 2 ^ (f.e + f.m) = C + 2 ^ (f.e + f.m) * 2 by ring, Nat.add_mod_right, Nat.mod_eq_of_lt (by omega)]

omit hw in
theorem flipped_lt : flipped f c < 2 ^ f.width := Nat.mod_lt _ (Nat.two_pow_pos _)

/-- A code with its sign changed decodes to the number with its sign changed. -/
theorem decode_flipped (hc : c < 2 ^ f.width) : decode f (flipped f c) = (decode f c).neg := by
  obtain ⟨neg, C, hneg, hC, rfl⟩ := exists_raw hw.ok hc
  have hnot : (!neg) = true → f.s = 1 := fun _ => hw.sign
  have h2 : f.spec ≠ 2 := by rw [hw.spec]; decide
  have htop : topExponent f (f.raw (!neg) C) = topExponent f (f.raw neg C) := by
    rw [Bool.eq_iff_iff, topExponent_raw hC, topExponent_raw hC]
  rw [flipped_raw hw hC, decode_exponent hw.e_ne (raw_lt_width hnot hC), decode_exponent hw.e_ne hc, htop, raw_exponent hC, raw_exponent hC,
    raw_mod_frac, raw_mod_frac, signCode_raw hw.e_ne hnot hC, signCode_raw hw.e_ne hneg hC]
  simp only [h2, false_and, if_false]
  split_ifs <;> rfl

end

end Sys2Proof.Machine
end

section
/-! SUPPORT. Sums, products and comparisons of decoded codes of a wide format (R67, R68, R193), rounded once. -/

namespace Sys2Proof.Machine

open Sys2Proof.Claims

/-! ## Exact arithmetic on finite numbers -/

theorem val_fin_eq_zero {s : Bool} {m : Nat} {e : Int} : (Num.fin s m e).val = 0 ↔ m = 0 := by
  have : (2 : ℚ) ^ e ≠ 0 := zpow_ne_zero _ two_ne_zero
  cases s <;> simp [Num.val, this]

theorem val_fin_neg {s : Bool} {m : Nat} {e : Int} : (Num.fin (!s) m e).val = -(Num.fin s m e).val := by
  cases s <;> simp [Num.val]

theorem val_fin_lt_zero {s : Bool} {m : Nat} {e : Int} : (Num.fin s m e).val < 0 ↔ s = true ∧ m ≠ 0 := by
  have hp : (0 : ℚ) < 2 ^ e := zpow_pos two_pos e
  cases s with
  | false =>
    simp only [Num.val, Bool.false_eq_true, if_false, one_mul, false_and, iff_false, not_lt]
    positivity
  | true =>
    simp only [Num.val, if_true, neg_mul, one_mul, neg_lt_zero, true_and]
    rw [mul_pos_iff_of_pos_right hp, Nat.cast_pos, Nat.pos_iff_ne_zero]

/-- A sum of finite numbers is exact; a zero sum has the sign of both, or +. -/
theorem addFin_spec (a : Bool) (m : Nat) (e : Int) (b : Bool) (n : Nat) (f : Int) :
    ∃ s k q, addFin a m e b n f = .fin s k q ∧ (Num.fin s k q).val = (Num.fin a m e).val + (Num.fin b n f).val ∧ (k = 0 → s = (a && b)) := by
  rw [addFin]
  by_cases hm : m = 0
  · rw [if_pos hm]
    by_cases hn : n = 0
    · rw [if_pos hn]
      exact ⟨_, _, _, rfl, by simp [Num.val, hm, hn], fun _ => rfl⟩
    · rw [if_neg hn]
      exact ⟨_, _, _, rfl, by simp [Num.val, hm], fun h => absurd h hn⟩
  rw [if_neg hm]
  by_cases hn : n = 0
  · rw [if_pos hn]
    exact ⟨_, _, _, rfl, by simp [Num.val, hn], fun h => absurd h hm⟩
  rw [if_neg hn]
  simp only
  set q := if e ≤ f then e else f with hq
  have hshift {k : Nat} {g : Int} (hg : q ≤ g) : ((k <<< (g - q).toNat : Nat) : ℚ) * 2 ^ q = k * 2 ^ g := by
    obtain ⟨i, hi⟩ := Int.eq_ofNat_of_zero_le (show 0 ≤ g - q by omega)
    rw [Nat.shiftLeft_eq, hi, Int.toNat_natCast, show g = (i : ℤ) + q by omega, zpow_add₀ two_ne_zero, zpow_natCast]
    push_cast
    ring
  have hqe : q ≤ e := by rw [hq]; split <;> omega
  have hqf : q ≤ f := by rw [hq]; split <;> omega
  have hmm := hshift (k := m) hqe
  have hnn := hshift (k := n) hqf
  have hpos : 0 < m <<< (e - q).toNat := by
    rw [Nat.shiftLeft_eq]
    exact Nat.mul_pos (Nat.pos_of_ne_zero hm) (Nat.two_pow_pos _)
  generalize m <<< (e - q).toNat = mm at *
  generalize n <<< (f - q).toNat = nn at *
  have hx : (Num.fin a m e).val = (if a then -1 else 1) * (mm * 2 ^ q) := by rw [Num.val, hmm]
  have hy : (Num.fin b n f).val = (if b then -1 else 1) * (nn * 2 ^ q) := by rw [Num.val, hnn]
  rw [hx, hy]
  by_cases hab : a = b
  · rw [if_pos hab]
    refine ⟨_, _, _, rfl, ?_, fun h => by omega⟩
    rw [Num.val, hab]
    push_cast
    ring
  obtain rfl : b = !a := Bool.eq_not.mpr (Ne.symm hab)
  rw [if_neg hab]
  by_cases heq : mm = nn
  · rw [if_pos heq]
    refine ⟨_, _, _, rfl, ?_, fun _ => by simp⟩
    rw [Num.val, heq]
    cases a <;> simp
  rw [if_neg heq]
  by_cases hlt : nn < mm
  · rw [if_pos hlt]
    refine ⟨_, _, _, rfl, ?_, fun h => by omega⟩
    rw [Num.val, Nat.cast_sub hlt.le]
    cases a <;> simp <;> ring
  · rw [if_neg hlt]
    refine ⟨_, _, _, rfl, ?_, fun h => by omega⟩
    rw [Num.val, Nat.cast_sub (by omega)]
    cases a <;> simp <;> ring

theorem ltFin_iff (a : Bool) (m : Nat) (e : Int) (b : Bool) (n : Nat) (f : Int) :
    ltFin a m e b n f = true ↔ (Num.fin a m e).val < (Num.fin b n f).val := by
  obtain ⟨s, k, q, hadd, hval, -⟩ := addFin_spec a m e (!b) n f
  rw [val_fin_neg, ← sub_eq_add_neg] at hval
  rw [← sub_neg, ← hval, val_fin_lt_zero, ltFin, hadd]
  simp

/-! ## Codes -/

section
variable {f : Fmt} (hw : f.Wide) {a b c : Nat}
include hw

/-- The three classes of codes, with what they decode to. -/
theorem code_cases (hc : c < 2 ^ f.width) :
    (nanCode f c = true ∧ isInf f c = false ∧ finiteCode f c = false ∧ ∃ s, decode f c = .nan s) ∨
    (nanCode f c = false ∧ isInf f c = true ∧ finiteCode f c = false ∧ decode f c = .inf (signCode f c) ∧ c = infinity f (signCode f c)) ∨
    (nanCode f c = false ∧ isInf f c = false ∧ finiteCode f c = true ∧
      ∃ m e, decode f c = .fin (signCode f c) m e ∧ codeVal f c = (Num.fin (signCode f c) m e).val) := by
  have hinf : nanCode f c = true → isInf f c = false := fun hnan => by
    by_contra h
    obtain ⟨hspec, hm, -, hmod⟩ := (isInf_iff hc).mp (Bool.eq_true_of_not_eq_false h)
    obtain ⟨h2, -⟩ | ⟨-, -, hne⟩ := nanCode_iff.mp hnan
    · omega
    · exact hne ⟨hm, hmod⟩
  cases hnan : nanCode f c with
  | true => exact .inl ⟨rfl, hinf hnan, by simp [finiteCode, hnan], decode_nan hw.ok hc hnan⟩
  | false =>
    cases hinf : isInf f c with
    | true => exact .inr (.inl ⟨rfl, rfl, by simp [finiteCode, hinf], decode_inf hw.ok hc hinf, (isInf_wide hw hc).mp hinf⟩)
    | false =>
      have hfin := (finiteCode_iff hc).mpr ⟨hnan, hinf⟩
      obtain ⟨s, m, e, hdec, hval, hs⟩ := decode_fin hfin
      obtain rfl := hs (.inl hw.e_ne)
      exact .inr (.inr ⟨rfl, rfl, hfin, m, e, hdec, hval⟩)

/-- A finite number rounded to nearest. -/
theorem roundsTo_val {s : Bool} {k : Nat} {q : Int} {v : ℚ} (hv : (Num.fin s k q).val = v) {md : Rnd} (hmd : ∀ u, md ≠ .sr u) {neg0 : Bool}
    (h0 : k = 0 → neg0 = s) : RoundsTo f md v neg0 (encWide f (roundNum f md (.fin s k q))) := by
  have h := roundsTo_encWide (n := k) (d := 1) (e := q) (neg := s) hw one_pos hmd h0
  rwa [Nat.cast_one, div_one, ← Num.val, hv] at h

omit hw in
theorem add_nan (s : Bool) (y : Num) : (Num.add (.nan s) y).1 = .nan false ∧ (Num.add y (.nan s)).1 = .nan false := by
  cases y <;> exact ⟨rfl, rfl⟩

omit hw in
theorem mul_nan (s : Bool) (y : Num) : (Num.mul (.nan s) y).1 = .nan false ∧ (Num.mul y (.nan s)).1 = .nan false := by
  cases y <;> exact ⟨rfl, rfl⟩

/-- The sum of two codes, rounded once. -/
theorem sumIs_add (ha : a < 2 ^ f.width) (hb : b < 2 ^ f.width) :
    SumIs f a b (encWide f (roundNum f .rne (Num.add (decode f a) (decode f b)).1)) := by
  obtain ⟨hna, hia, hfa, sa, hda⟩ | ⟨hna, hia, hfa, hda, hca⟩ | ⟨hna, hia, hfa, m, e, hda, hva⟩ := code_cases hw ha
  · rw [hda, (add_nan sa _).1]
    simp only [SumIs, hna, hia, hfa, true_or, forall_const, false_imp_iff, Bool.false_eq_true, and_true]
    rfl
  all_goals obtain ⟨hnb, hib, hfb, sb, hdb⟩ | ⟨hnb, hib, hfb, hdb, hcb⟩ | ⟨hnb, hib, hfb, n, g, hdb, hvb⟩ := code_cases hw hb
  all_goals simp only [SumIs, hna, hia, hfa, hnb, hib, hfb, or_false, or_true, forall_const, false_imp_iff, Bool.false_eq_true, and_true, true_and]
  · rw [hdb, (add_nan sb _).2]
    rfl
  · have hab : a = b ↔ signCode f a = signCode f b := ⟨fun h => by rw [h], fun h => by rw [hca, hcb, h]⟩
    rw [hda, hdb, Num.add]
    simp only [hab]
    split
    · exact hca.symm
    · rfl
  · rw [hda, hdb]
    exact hca.symm
  · rw [hdb, (add_nan sb _).2]
    rfl
  · rw [hda, hdb]
    exact hcb.symm
  · obtain ⟨s, k, q, hadd, hval, h0⟩ := addFin_spec (signCode f a) m e (signCode f b) n g
    rw [hda, hdb, Num.add, hadd]
    exact roundsTo_val (md := .rne) hw (by rw [hval, hva, hvb]) nofun fun hk => (h0 hk).symm

omit hw in
theorem mul_val (a b : Bool) (m n : Nat) (e g : Int) : (Num.fin (a != b) (m * n) (e + g)).val = (Num.fin a m e).val * (Num.fin b n g).val := by
  simp only [Num.val]
  rw [zpow_add₀ two_ne_zero]
  push_cast
  cases a <;> cases b <;> simp <;> ring

theorem codeVal_infinity_ne (neg : Bool) : codeVal f (infinity f neg) ≠ 0 := by
  rw [codeVal_infinity hw, ne_eq, idxVal_eq_zero]
  omega

/-- The product of two codes, rounded once. -/
theorem productIs_mul (ha : a < 2 ^ f.width) (hb : b < 2 ^ f.width) :
    ProductIs f a b (encWide f (roundNum f .rne (Num.mul (decode f a) (decode f b)).1)) := by
  obtain ⟨hna, hia, hfa, sa, hda⟩ | ⟨hna, hia, hfa, hda, hca⟩ | ⟨hna, hia, hfa, m, e, hda, hva⟩ := code_cases hw ha
  · rw [hda, (mul_nan sa _).1]
    simp only [ProductIs, hna, hia, hfa, true_or, forall_const, false_imp_iff, Bool.false_eq_true, and_true, Bool.true_eq_false]
    rfl
  all_goals obtain ⟨hnb, hib, hfb, sb, hdb⟩ | ⟨hnb, hib, hfb, hdb, hcb⟩ | ⟨hnb, hib, hfb, n, g, hdb, hvb⟩ := code_cases hw hb
  all_goals simp only [ProductIs, hna, hia, hfa, hnb, hib, hfb, or_false, or_true, forall_const, false_imp_iff, Bool.false_eq_true, and_true,
    true_and, Bool.true_eq_false]
  · rw [hdb, (mul_nan sb _).2]
    rfl
  · have hva : codeVal f a ≠ 0 := by rw [hca]; exact codeVal_infinity_ne hw _
    have hvb : codeVal f b ≠ 0 := by rw [hcb]; exact codeVal_infinity_ne hw _
    rw [hda, hdb, if_neg (not_or.mpr ⟨hva, hvb⟩)]
    rfl
  · have hva : codeVal f a ≠ 0 := by rw [hca]; exact codeVal_infinity_ne hw _
    rw [hda, hdb, Num.mul]
    simp only [hva, hvb, val_fin_eq_zero, false_or]
    split <;> rfl
  · rw [hdb, (mul_nan sb _).2]
    rfl
  · have hvb : codeVal f b ≠ 0 := by rw [hcb]; exact codeVal_infinity_ne hw _
    rw [hda, hdb, Num.mul]
    simp only [hva, hvb, val_fin_eq_zero, or_false]
    split <;> rfl
  · rw [hda, hdb]
    exact roundsTo_val (md := .rne) hw (by rw [mul_val, hva, hvb]) nofun fun _ => rfl

/-- The exact product and sum of codes, rounded once. -/
theorem roundsTo_fma (ha : finiteCode f a = true) (hb : finiteCode f b = true) (hc : finiteCode f c = true) :
    RoundsTo f .rne (codeVal f a * codeVal f b + codeVal f c) ((signCode f a != signCode f b) && signCode f c)
      (encWide f (roundNum f .rne (Num.fma (decode f a) (decode f b) (decode f c)).1)) := by
  obtain ⟨s, m, e, hda, hva, hs⟩ := decode_fin ha
  obtain ⟨s', n, g, hdb, hvb, hs'⟩ := decode_fin hb
  obtain ⟨s'', l, h, hdc, hvc, hs''⟩ := decode_fin hc
  obtain rfl := hs (.inl hw.e_ne)
  obtain rfl := hs' (.inl hw.e_ne)
  obtain rfl := hs'' (.inl hw.e_ne)
  obtain ⟨t, k, q, hadd, hval, h0⟩ := addFin_spec (signCode f a != signCode f b) (m * n) (e + g) (signCode f c) l h
  have hfma : (Num.fma (decode f a) (decode f b) (decode f c)).1 = .fin t k q := by rw [hda, hdb, hdc, ← hadd]; rfl
  rw [hfma]
  exact roundsTo_val (md := .rne) hw (by rw [hval, mul_val, hva, hvb, hvc]) nofun fun hk => (h0 hk).symm

theorem fma_nan (ha : a < 2 ^ f.width) (hb : b < 2 ^ f.width) (hc : c < 2 ^ f.width)
    (h : nanCode f a = true ∨ nanCode f b = true ∨ nanCode f c = true) :
    encWide f (roundNum f .rne (Num.fma (decode f a) (decode f b) (decode f c)).1) = canonical f := by
  have hfma : (Num.fma (decode f a) (decode f b) (decode f c)).1 = (Num.add (Num.mul (decode f a) (decode f b)).1 (decode f c)).1 := rfl
  obtain h | h | h := h
  · obtain ⟨s, hs⟩ := decode_nan hw.ok ha h
    rw [hfma, hs, (mul_nan s _).1, (add_nan _ _).1]
    rfl
  · obtain ⟨s, hs⟩ := decode_nan hw.ok hb h
    rw [hfma, hs, (mul_nan s _).2, (add_nan _ _).1]
    rfl
  · obtain ⟨s, hs⟩ := decode_nan hw.ok hc h
    rw [hfma, hs, (add_nan s _).2]
    rfl

/-! ## Comparisons -/

theorem lt_iff_codeVal (ha : a < 2 ^ f.width) (hb : b < 2 ^ f.width) (hna : nanCode f a = false) (hnb : nanCode f b = false) :
    Num.lt (decode f a) (decode f b) = true ↔ codeVal f a < codeVal f b := by
  have hpos : 0 < codeVal f (infinity f false) := by
    rw [codeVal_infinity hw]
    exact lt_of_le_of_ne idxVal_false_nonneg (Ne.symm (by rw [ne_eq, idxVal_eq_zero]; omega))
  have hopp : codeVal f (infinity f true) = -codeVal f (infinity f false) := by
    rw [codeVal_infinity hw, codeVal_infinity hw, lim_wide hw true false, idxVal_real, real_neg, idxVal_real]
  obtain ⟨hno, -⟩ | ⟨-, -, -, hda, hca⟩ | ⟨-, -, hfa, m, e, hda, hva⟩ := code_cases hw ha
  · exact absurd hno (by simp [hna])
  all_goals obtain ⟨hno, -⟩ | ⟨-, -, -, hdb, hcb⟩ | ⟨-, -, hfb, n, g, hdb, hvb⟩ := code_cases hw hb
  · exact absurd hno (by simp [hnb])
  · rw [hda, hdb]
    rw [hca, hcb, signCode_infinity hw, signCode_infinity hw]
    cases signCode f a <;> cases signCode f b <;> simp [Num.lt, hopp] <;> linarith
  · have habs := abs_codeVal_finite_lt hw hfb false
    rw [abs_of_pos hpos, abs_lt] at habs
    rw [hda, hdb, hca, signCode_infinity hw]
    cases signCode f a <;> simp [Num.lt, hopp] <;> linarith
  · exact absurd hno (by simp [hnb])
  · have habs := abs_codeVal_finite_lt hw hfa false
    rw [abs_of_pos hpos, abs_lt] at habs
    rw [hda, hdb, hcb, signCode_infinity hw]
    cases signCode f b <;> simp [Num.lt, hopp] <;> linarith
  · rw [hda, hdb, hva, hvb, Num.lt, ltFin_iff]

theorem isNan_decode (hc : c < 2 ^ f.width) : (decode f c).isNan = nanCode f c := by
  obtain ⟨hn, -, -, s, hd⟩ | ⟨hn, -, -, hd, -⟩ | ⟨hn, -, -, m, e, hd, -⟩ := code_cases hw hc <;> rw [hd, hn] <;> rfl

theorem isNeg_decode (hc : c < 2 ^ f.width) (hn : nanCode f c = false) : (decode f c).isNeg = signCode f c := by
  obtain ⟨hno, -⟩ | ⟨-, -, -, hd, -⟩ | ⟨-, -, -, m, e, hd, -⟩ := code_cases hw hc
  · exact absurd hno (by simp [hn])
  all_goals rw [hd]; rfl

theorem isZero_decode (hc : c < 2 ^ f.width) (hn : nanCode f c = false) : (decode f c).isZero = true ↔ codeVal f c = 0 := by
  obtain ⟨hno, -⟩ | ⟨-, -, -, hd, hci⟩ | ⟨-, -, -, m, e, hd, hv⟩ := code_cases hw hc
  · exact absurd hno (by simp [hn])
  · rw [hd, hci]
    exact iff_of_false Bool.false_ne_true (codeVal_infinity_ne hw _)
  · rw [hd, hv, val_fin_eq_zero]
    cases m <;> simp [Num.isZero]

theorem eqv_iff_codeVal (ha : a < 2 ^ f.width) (hb : b < 2 ^ f.width) :
    Num.eqv (decode f a) (decode f b) = true ↔ (nanCode f a = false ∧ nanCode f b = false) ∧ codeVal f a = codeVal f b := by
  rw [Num.eqv, isNan_decode hw ha, isNan_decode hw hb]
  cases hna : nanCode f a
  · cases hnb : nanCode f b
    · have h1 := lt_iff_codeVal hw ha hb hna hnb
      have h2 := lt_iff_codeVal hw hb ha hnb hna
      rw [Bool.and_eq_true, Bool.and_eq_true, Bool.not_eq_true', Bool.not_eq_true', ← Bool.not_eq_true, ← Bool.not_eq_true, h1, h2]
      simp [le_antisymm_iff, and_comm]
    · simp
  · simp

theorem lt_iff (ha : a < 2 ^ f.width) (hb : b < 2 ^ f.width) :
    Num.lt (decode f a) (decode f b) = true ↔ (nanCode f a = false ∧ nanCode f b = false) ∧ codeVal f a < codeVal f b := by
  cases hna : nanCode f a
  · cases hnb : nanCode f b
    · simp [lt_iff_codeVal hw ha hb hna hnb]
    · obtain ⟨s, hs⟩ := decode_nan hw.ok hb hnb
      rw [hs]
      cases decode f a <;> simp [Num.lt]
  · obtain ⟨s, hs⟩ := decode_nan hw.ok ha hna
    rw [hs]
    simp [Num.lt]

theorem below_iff (ha : a < 2 ^ f.width) (hb : b < 2 ^ f.width) (hna : nanCode f a = false) (hnb : nanCode f b = false) :
    Num.below (decode f a) (decode f b) = true ↔
      codeVal f a < codeVal f b ∨ codeVal f a = 0 ∧ codeVal f b = 0 ∧ signCode f a = true ∧ signCode f b = false := by
  rw [Num.below, Bool.or_eq_true, lt_iff_codeVal hw ha hb hna hnb, Bool.and_eq_true, Bool.and_eq_true, Bool.and_eq_true, isZero_decode hw ha hna,
    isZero_decode hw hb hnb, isNeg_decode hw ha hna, isNeg_decode hw hb hnb, Bool.not_eq_true', and_assoc, and_assoc]

end

end Sys2Proof.Machine
end

section
/-! SUPPORT. Lanes of vector results (R188, R190), and reciprocals, square roots, powers and logarithms of decoded codes (R196). -/

namespace Sys2Proof.Machine

open Sys2Proof.Claims

/-! ## Lanes -/

theorem packNat_lane (w : Nat) (l : List Nat) (j : Nat) : packNat w l / 2 ^ (w * j) % 2 ^ w = l.getD j 0 % 2 ^ w := by
  induction l generalizing j with
  | nil => simp [packNat]
  | cons a r ih =>
    have hp := Nat.two_pow_pos w
    cases j with
    | zero => simp [packNat]
    | succ j =>
      rw [packNat, Nat.mul_succ, Nat.add_comm (w * j), pow_add, ← Nat.div_div_eq_div_mul, Nat.add_mul_div_left _ _ hp,
        Nat.div_eq_of_lt (Nat.mod_lt _ hp), zero_add, ih, List.getD_cons_succ]

theorem elem_pack {w j : Nat} (l : List Nat) (hj : w * (j + 1) ≤ 2048) : elem w (pack w l) j = l.getD j 0 % 2 ^ w := by
  have h2048 : 2 ^ 2048 = 2 ^ (w * j) * 2 ^ w * 2 ^ (2048 - w * (j + 1)) := by
    rw [← pow_add, ← pow_add]
    congr 1
    rw [Nat.mul_succ] at hj ⊢
    omega
  rw [elem, pack, BitVec.toNat_ofNat, Nat.shiftRight_eq_div_pow, h2048, mul_assoc, Nat.mod_mul_right_div_self, Nat.mod_mul_right_mod, packNat_lane]

theorem elem_lt (w : Nat) (v : V) (j : Nat) : elem w v j < 2 ^ w := Nat.mod_lt _ (Nat.two_pow_pos w)

theorem ltW_cases (t : Nat) : ltW t = 32 ∨ ltW t = 8 ∨ ltW t = 16 := by
  rw [ltW]
  split_ifs <;> simp

theorem lane_fits {t j : Nat} (hj : j < ltN t) : ltW t * (j + 1) ≤ 2048 := by
  rw [ltN] at hj
  obtain h | h | h := ltW_cases t <;> rw [h] at hj ⊢ <;> omega

section
variable (x : VIn) {f : Nat → Nat → Nat → Nat × Bool} {j : Nat}

theorem act_eq (j : Nat) : x.act j = x.active.testBit (j * ltW x.t / 32) := by
  rw [VIn.act, bitAt, Nat.testBit_eq_decide_div_mod_eq]

theorem resultAt_pack {l : List Nat} {o : VOut} (ho : o.r = some (pack (ltW x.t) l)) (hj : j < ltN x.t) : resultAt x o j = l.getD j 0 % 2 ^ ltW x.t := by
  rw [resultAt, ho]
  exact elem_pack l (lane_fits hj)

theorem resultAt_elementwise (hj : j < ltN x.t) : resultAt x (elementwise x f) j =
    if x.act j then (f (elem (ltW x.t) x.a j) (elem (ltW x.t) x.b j) (elem (ltW x.t) x.c j)).1 % 2 ^ ltW x.t else elem (ltW x.t) x.c j := by
  rw [resultAt_pack x rfl hj, List.map_map, List.getD_eq_getElem _ _ (by simpa using hj), List.getElem_map, List.getElem_range, Function.comp]
  split
  · rfl
  · exact Nat.mod_eq_of_lt (elem_lt _ _ _)

theorem elementwise_inv : (elementwise x f).inv = true ↔
    ∃ j, j < ltN x.t ∧ x.act j = true ∧ (f (elem (ltW x.t) x.a j) (elem (ltW x.t) x.b j) (elem (ltW x.t) x.c j)).2 = true := by
  simp only [elementwise, List.any_eq_true, List.mem_map, List.mem_range, exists_exists_and_eq_and]
  refine exists_congr fun j => and_congr_right fun _ => ?_
  cases x.act j <;> simp

end

/-! ## Results of wide formats are codes -/

section
variable {f : Fmt} (hw : f.Wide)
include hw

theorem canonical_lt : canonical f < 2 ^ f.width := by
  have h1 := Nat.two_pow_pos (f.m - 1)
  have hm := Nat.sub_add_cancel hw.frac
  have h2 : 2 ^ f.m = 2 * 2 ^ (f.m - 1) := by rw [← hm, pow_succ, Nat.add_sub_cancel, mul_comm]
  have hpe := Nat.two_pow_pos f.e
  have h3 : (2 ^ f.e - 1) * 2 ^ f.m + 2 ^ f.m = 2 ^ f.e * 2 ^ f.m := by
    rw [← Nat.succ_mul, Nat.succ_eq_add_one, Nat.sub_add_cancel hpe]
  rw [canonical, width_wide hw, pow_succ, pow_add]
  omega

omit hw in
theorem encWide_zero (neg : Bool) (q : Int) : encWide f (.fin neg 0 q) = zeroCode f neg := by
  simp [encWide, Fmt.fieldsOf, zeroCode]

theorem zeroCode_lt (neg : Bool) : zeroCode f neg < 2 ^ f.width := by
  have hp := Nat.two_pow_pos (f.e + f.m)
  rw [zeroCode, width_wide hw, pow_succ]
  split <;> omega

theorem idxCode_lt_wide {md : Rnd} {neg : Bool} {C : Nat} (h : C ≤ f.top md neg) : f.idxCode neg C < 2 ^ f.width := by
  rw [idxCode_wide hw]
  refine raw_lt_width (fun _ => hw.sign) (lt_of_le_of_lt (h.trans ?_) (infIdx_lt_wide hw neg))
  rw [Fmt.top]
  split <;> omega

theorem encWide_roundRat_lt {n d : Nat} {e : Int} {md : Rnd} {neg : Bool} (hd : 0 < d) : encWide f (roundRat f md neg n d e) < 2 ^ f.width := by
  obtain ⟨C, -, henc⟩ := encWide_roundRat (n := n) (e := e) hw hd md neg
  rw [henc, codeOf_wide hw]
  exact idxCode_lt_wide hw (min_le_right _ _)

theorem encWide_roundNum_lt (md : Rnd) (y : Num) : encWide f (roundNum f md y) < 2 ^ f.width := by
  cases y with
  | nan s => exact canonical_lt hw
  | inf neg => exact infinity_lt hw neg
  | fin neg m e => exact encWide_roundRat_lt hw one_pos

end

/-! ## Square roots -/

theorem isqrtAux_spec (x : Nat) (i r : Nat) (hlo : r * r ≤ x) (hhi : x < (r + 2 ^ (i + 1)) * (r + 2 ^ (i + 1))) :
    isqrtAux x i r * isqrtAux x i r ≤ x ∧ x < (isqrtAux x i r + 1) * (isqrtAux x i r + 1) := by
  induction i generalizing r with
  | zero =>
    rw [isqrtAux]
    split
    · next h => exact ⟨h, hhi⟩
    · next h => exact ⟨hlo, not_le.mp h⟩
  | succ i ih =>
    rw [isqrtAux]
    split
    · next h => exact ih _ h (by rwa [add_assoc, ← two_mul, ← pow_succ'])
    · next h => exact ih _ hlo (not_le.mp h)

theorem isqrt_spec (x : Nat) : isqrt x * isqrt x ≤ x ∧ x < (isqrt x + 1) * (isqrt x + 1) := by
  refine isqrtAux_spec x _ 0 (Nat.zero_le _) ?_
  calc x < 2 ^ (x.log2 + 1) := Nat.lt_log2_self
    _ ≤ 2 ^ ((x.log2 / 2 + 1 + 1) + (x.log2 / 2 + 1 + 1)) := Nat.pow_le_pow_right two_pos (by omega)
    _ = _ := by rw [pow_add, zero_add]

/-- Twice the root of 2^400/m, with a sticky bit. -/
def stickyRoot (m : Nat) : Nat := if isqrt (2 ^ 400 / m) * isqrt (2 ^ 400 / m) * m == 2 ^ 400 then 2 * isqrt (2 ^ 400 / m) else 2 * isqrt (2 ^ 400 / m) + 1

/-- An even number stands to the sticky root as to twice the root. -/
theorem stickyRoot_cmp {m : Nat} (hm : 0 < m) (t : Nat) :
    (2 * t < stickyRoot m → t * t * m < 2 ^ 400) ∧ (2 * t = stickyRoot m → t * t * m = 2 ^ 400) ∧ (stickyRoot m < 2 * t → 2 ^ 400 < t * t * m) := by
  obtain ⟨hlo, hhi⟩ := isqrt_spec (2 ^ 400 / m)
  rw [Nat.le_div_iff_mul_le hm] at hlo
  rw [Nat.div_lt_iff_lt_mul hm] at hhi
  rw [stickyRoot]
  generalize isqrt (2 ^ 400 / m) = r at *
  have hmono {a b : Nat} (h : a ≤ b) : a * a * m ≤ b * b * m := Nat.mul_le_mul_right m (Nat.mul_le_mul h h)
  have hstrict {a b : Nat} (h : a < b) : a * a * m < b * b * m := Nat.mul_lt_mul_of_pos_right (Nat.mul_self_lt_mul_self h) hm
  by_cases hex : r * r * m = 2 ^ 400
  · rw [if_pos (beq_iff_eq.mpr hex)]
    refine ⟨fun h => ?_, fun h => ?_, fun h => ?_⟩
    · exact hex ▸ hstrict (by omega)
    · obtain rfl : t = r := by omega
      exact hex
    · exact hex ▸ hstrict (by omega)
  · rw [if_neg (by rwa [beq_iff_eq])]
    refine ⟨fun h => ?_, fun h => by omega, fun h => ?_⟩
    · exact lt_of_le_of_lt (hmono (show t ≤ r by omega)) (lt_of_le_of_ne hlo hex)
    · exact hhi.trans_le (hmono (show r + 1 ≤ t by omega))

theorem stickyRoot_bounds {m : Nat} (hm : 0 < m) (hlt : m < 2 ^ 26) : 2 ^ 187 ≤ stickyRoot m ∧ stickyRoot m ≤ 2 ^ 202 := by
  obtain ⟨hlo, hhi⟩ := isqrt_spec (2 ^ 400 / m)
  rw [Nat.div_lt_iff_lt_mul hm] at hhi
  have hhigh : isqrt (2 ^ 400 / m) ≤ 2 ^ 200 := by
    by_contra hgt
    have h1 := Nat.mul_self_lt_mul_self (not_le.mp hgt)
    have h2 := Nat.div_le_self (2 ^ 400) m
    rw [← pow_add] at h1
    exact absurd (h1.trans_le hlo) h2.not_gt
  have hlow : 2 ^ 186 ≤ isqrt (2 ^ 400 / m) := by
    by_contra hgt
    have hle : isqrt (2 ^ 400 / m) + 1 ≤ 2 ^ 186 := by omega
    have h1 := Nat.mul_le_mul (Nat.mul_le_mul hle hle) hlt.le
    rw [← pow_add, ← pow_add] at h1
    exact absurd hhi (h1.trans (Nat.pow_le_pow_right two_pos (by omega))).not_gt
  have h186 : 2 ^ 187 = 2 * 2 ^ 186 := by rw [← pow_succ']
  have h202 : 2 * 2 ^ 200 + 1 ≤ 2 ^ 202 := by norm_num
  rw [stickyRoot]
  split <;> omega

end Sys2Proof.Machine
end

section
/-! SUPPORT. The functions of R196 on finite codes of the two lane formats: reciprocal square root, power and logarithm, rounded once. -/

namespace Sys2Proof.Machine

open Sys2Proof.Claims

/-! ## The lane formats F32 and BF16 -/

/-- The float formats of the lanes (R188). -/
def Fmt.Lane (f : Fmt) : Prop := f = fmtF32 ∨ f = fmtBF16

section
variable {f : Fmt} (hl : f.Lane)
include hl

theorem Fmt.Lane.wide : f.Wide := by
  obtain rfl | rfl := hl
  · exact wide_f32
  · exact wide_bf16

theorem lane_params : f.m ≤ 23 ∧ 9 ≤ f.width ∧ -149 ≤ f.qmin ∧ f.qmin ≤ -133 ∧ f.qtop + f.m + 1 = 128 ∧ f.kmax + 1 = 2 ^ (f.m + 1) := by
  obtain rfl | rfl := hl <;> decide

/-- The point after the greatest finite value is 2^128. -/
theorem mag_lim_succ (neg : Bool) : (f.mag (f.lim neg + 1) : ℚ) * 2 ^ f.qmin = 2 ^ 128 := by
  obtain ⟨-, -, -, -, htop, hkmax⟩ := lane_params hl
  obtain ⟨hlim, hlo, hhi⟩ := lim_binade hl.wide.e_ne neg
  rw [hlim, add_assoc, mag_binade hl.wide.e_ne (hlo.imp_left Nat.le_succ_of_le) hhi, Nat.succ_eq_add_one, hkmax]
  rw [qtop_eq] at htop
  have hexp : ((128 : Nat) : ℤ) = (f.m + 1 : Nat) + f.jtop + f.qmin := by
    push_cast
    omega
  rw [← zpow_natCast (2 : ℚ) 128, hexp, zpow_add₀ two_ne_zero, zpow_add₀ two_ne_zero, zpow_natCast, zpow_natCast]
  push_cast
  rfl

theorem mag_lim_ge (neg : Bool) : (2 : ℚ) ^ 127 ≤ f.mag (f.lim neg) * 2 ^ f.qmin := by
  have hhalf : f.mag (f.lim neg + 1) ≤ 2 * f.mag (f.lim neg) := by
    obtain ⟨-, -, -, -, -, hkmax⟩ := lane_params hl
    obtain ⟨hlim, hlo, hhi⟩ := lim_binade hl.wide.e_ne neg
    have hk : 1 ≤ f.kmax := by
      have := Nat.one_lt_two_pow (n := f.m + 1) (by omega)
      omega
    rw [hlim, mag_binade hl.wide.e_ne hlo hhi.le, add_assoc, mag_binade hl.wide.e_ne (hlo.imp_left Nat.le_succ_of_le) hhi, ← mul_assoc]
    exact Nat.mul_le_mul_right _ (by omega)
  have hq : (f.mag (f.lim neg + 1) : ℚ) ≤ 2 * f.mag (f.lim neg) := by exact_mod_cast hhalf
  have h128 := mag_lim_succ hl neg
  have hmul := mul_le_mul_of_nonneg_right hq (unit_pos f).le
  rw [h128, pow_succ] at hmul
  linarith

theorem decode_bounds {c : Nat} (hc : c < 2 ^ f.width) {s : Bool} {m : Nat} {e : Int} (h : decode f c = .fin s m e) : m < 2 ^ 24 ∧ -149 ≤ e := by
  obtain ⟨hm, -, hq, -, -, -⟩ := lane_params hl
  obtain ⟨hlt, he, -⟩ := decode_range hl.wide.e_ne hc h
  exact ⟨hlt.trans_le (Nat.pow_le_pow_right two_pos (by omega)), hq.trans he⟩

end

/-! ## Reciprocal square roots -/

/-- m · 2^e with an even exponent. -/
def evenPart (m : Nat) (e : Int) : Nat × Int := (if e % 2 = 0 then m else 2 * m, if e % 2 = 0 then e else e - 1)

theorem evenPart_val (m : Nat) (e : Int) : ((evenPart m e).1 : ℚ) * 2 ^ (evenPart m e).2 = m * 2 ^ e := by
  rw [evenPart]
  split
  · rfl
  · have h2 : (2 : ℚ) ^ e = 2 ^ (e - 1) * 2 := by rw [← zpow_add_one₀ two_ne_zero, sub_add_cancel]
    rw [h2]
    push_cast
    ring

theorem evenPart_bounds {m : Nat} {e : Int} (hm : 0 < m) (hlt : m < 2 ^ 24) :
    0 < (evenPart m e).1 ∧ (evenPart m e).1 < 2 ^ 26 ∧ e - 1 ≤ (evenPart m e).2 ∧ 2 * ((evenPart m e).2 / 2) = (evenPart m e).2 := by
  rw [evenPart]
  split <;> simp only <;> omega

theorem rsqFin_eq (f : Fmt) (m : Nat) (e : Int) :
    rsqFin f m e = roundRat f .rne false (stickyRoot (evenPart m e).1) 1 (-((evenPart m e).2 / 2) - 201) := rfl

/-- The last magnitude up to the sticky root, the next one and their midpoint compare with the sticky root as with the root. -/
theorem root_cmp {m : Nat} (hm : 0 < m) {g e : Int} (hg : 2 * g + e = -402) {y u : ℚ} (hu : 0 < u) (t : Nat) (hy : y * u = 2 * t * 2 ^ g) :
    (y < stickyRoot m * 2 ^ g / u → y * u * (y * u) * (m * 2 ^ e) < 1) ∧ (y = stickyRoot m * 2 ^ g / u → y * u * (y * u) * (m * 2 ^ e) = 1) ∧
      (stickyRoot m * 2 ^ g / u < y → 1 < y * u * (y * u) * (m * 2 ^ e)) := by
  obtain ⟨hlt, heq, hgt⟩ := stickyRoot_cmp hm t
  have hp : (0 : ℚ) < 2 ^ g := zpow_pos two_pos g
  have h400 : (0 : ℚ) < 2 ^ 400 := by positivity
  have hsq : y * u * (y * u) * (m * 2 ^ e) = ((t * t * m : Nat) : ℚ) / 2 ^ 400 := by
    have hpow : (2 : ℚ) ^ g * 2 ^ g * 2 ^ e * 4 * 2 ^ 400 = 1 := by
      rw [← zpow_natCast, show (4 : ℚ) = 2 ^ (2 : ℤ) by norm_num, ← zpow_add₀ two_ne_zero, ← zpow_add₀ two_ne_zero, ← zpow_add₀ two_ne_zero,
        ← zpow_add₀ two_ne_zero, show g + g + e + 2 + ((400 : Nat) : ℤ) = 0 by push_cast; omega, zpow_zero]
    rw [hy, eq_div_iff h400.ne']
    push_cast
    linear_combination (t * t * m : ℚ) * hpow
  have hcast : y * u = ((2 * t : Nat) : ℚ) * 2 ^ g := by rw [hy]; push_cast; rfl
  rw [hsq, lt_div_iff₀ hu, eq_div_iff hu.ne', div_lt_iff₀ hu, hcast, mul_lt_mul_iff_left₀ hp, mul_left_inj' hp.ne', mul_lt_mul_iff_left₀ hp,
    Nat.cast_lt, Nat.cast_inj, Nat.cast_lt, div_lt_one h400, div_eq_one_iff_eq h400.ne', one_lt_div h400]
  exact ⟨fun h => by exact_mod_cast hlt h, fun h => by exact_mod_cast heq h, fun h => by exact_mod_cast hgt h⟩

theorem sq_mul_le {a b c : ℚ} (ha : 0 ≤ a) (hab : a ≤ b) (hc : 0 < c) : a * a * c ≤ b * b * c :=
  mul_le_mul_of_nonneg_right (mul_self_le_mul_self ha hab) hc.le

theorem sq_mul_lt {a b c : ℚ} (ha : 0 ≤ a) (hab : a < b) (hc : 0 < c) : a * a * c < b * b * c :=
  mul_lt_mul_of_pos_right (mul_self_lt_mul_self ha hab) hc

/-- The midpoint of two magnitudes. -/
def Fmt.mid (f : Fmt) (C D : Nat) : ℚ := ((f.mag C : ℚ) + f.mag D) / 2 * 2 ^ f.qmin

section
variable {f : Fmt} {C D : Nat}

theorem mid_nonneg : 0 ≤ f.mid C D :=
  mul_nonneg (div_nonneg (add_nonneg (natCast_mag_nonneg C) (natCast_mag_nonneg D)) zero_le_two) (unit_pos f).le

theorem mid_comm : f.mid C D = f.mid D C := by
  rw [Fmt.mid, Fmt.mid, add_comm]

theorem mid_le {A B : Nat} (hA : A ≤ C) (hB : B ≤ D) : f.mid A B ≤ f.mid C D := by
  have h1 : (f.mag A : ℚ) ≤ f.mag C := mag_cast_le.mpr hA
  have h2 : (f.mag B : ℚ) ≤ f.mag D := mag_cast_le.mpr hB
  exact mul_le_mul_of_nonneg_right (by linarith) (unit_pos f).le

theorem mid_self : f.mid C C = f.mag C * 2 ^ f.qmin := by
  rw [Fmt.mid]
  ring

theorem mid_lt {A : Nat} (hA : A < D) : f.mid C A < f.mid C D := by
  have h : (f.mag A : ℚ) < f.mag D := mag_cast_lt.mpr hA
  exact mul_lt_mul_of_pos_right (by linarith) (unit_pos f)

end

/-- A magnitude compares with x as its square times A with 1. -/
def Fmt.ComparesSq (f : Fmt) (x A y : ℚ) : Prop :=
  (y < x → y * 2 ^ f.qmin * (y * 2 ^ f.qmin) * A < 1) ∧ (y = x → y * 2 ^ f.qmin * (y * 2 ^ f.qmin) * A = 1) ∧
    (x < y → 1 < y * 2 ^ f.qmin * (y * 2 ^ f.qmin) * A)

/-- Where the ends and the midpoint of its gap compare with x as their squares do, the number nearest to x is nearest to the root. -/
theorem nearest_root {f : Fmt} {x A : ℚ} {C D : Nat} (hA : 0 < A) (hD : f.Floor x D)
    (hCD : f.RoundsUp .rne false x D ∧ C = D + 1 ∨ ¬f.RoundsUp .rne false x D ∧ C = D) (hlow : f.ComparesSq x A (f.mag D))
    (hmid : f.ComparesSq x A (((f.mag D : ℚ) + f.mag (D + 1)) / 2)) (hhigh : f.ComparesSq x A (f.mag (D + 1))) (C' : Nat) :
    (C' < C → f.mid C C' * f.mid C C' * A < 1 ∨ f.mid C C' * f.mid C C' * A = 1 ∧ C % 2 = 0) ∧
      (C < C' → 1 < f.mid C C' * f.mid C C' * A ∨ f.mid C C' * f.mid C C' * A = 1 ∧ C % 2 = 0) := by
  obtain ⟨hlow1, hlow2, -⟩ := hlow
  obtain ⟨hmid1, hmid2, hmid3⟩ := hmid
  obtain ⟨-, -, hhigh3⟩ := hhigh
  rw [← mid_self] at hlow1 hlow2 hhigh3
  change _ → f.mid D (D + 1) * f.mid D (D + 1) * A < 1 at hmid1
  change _ → f.mid D (D + 1) * f.mid D (D + 1) * A = 1 at hmid2
  change _ → 1 < f.mid D (D + 1) * f.mid D (D + 1) * A at hmid3
  obtain ⟨hup, rfl⟩ | ⟨hup, rfl⟩ := hCD
  · refine ⟨fun hlt => ?_, fun hgt => ?_⟩
    · have hle := sq_mul_le mid_nonneg (mid_comm.trans_le (mid_le (Nat.lt_succ_iff.mp hlt) le_rfl) : f.mid (D + 1) C' ≤ f.mid D (D + 1)) hA
      obtain hgap | ⟨hgap, hodd⟩ := hup
      · exact .inl (hle.trans_lt (hmid1 (by linarith)))
      · rw [hmid2 (by linarith)] at hle
        exact hle.lt_or_eq.imp_right fun heq => ⟨heq, by omega⟩
    · exact .inl ((hhigh3 hD.2).trans_le (sq_mul_le mid_nonneg (mid_le le_rfl hgt.le) hA))
  · refine ⟨fun hlt => ?_, fun hgt => ?_⟩
    · have hle : f.mid C C * f.mid C C * A ≤ 1 := hD.1.lt_or_eq.elim (fun h => (hlow1 h).le) fun h => (hlow2 h).le
      exact .inl ((sq_mul_lt mid_nonneg (mid_lt hlt) hA).trans_le hle)
    · have hge := sq_mul_le mid_nonneg (mid_le (f := f) (A := C) (C := C) le_rfl (Nat.succ_le_of_lt hgt)) hA
      obtain ⟨hno, htie⟩ := not_or.mp hup
      obtain hgap | hgap := (not_lt.mp hno).lt_or_eq
      · exact .inl ((hmid3 (by linarith)).trans_le hge)
      · rw [Nat.succ_eq_add_one, hmid2 (by linarith)] at hge
        have heven : C % 2 = 0 := by
          have : ¬C % 2 = 1 := fun h1 => htie ⟨hgap.symm, h1⟩
          omega
        exact hge.lt_or_eq.imp_right fun heq => ⟨heq.symm, heven⟩

/-- The ends and the midpoint of a gap, where the gap is wide against the unit 2^g of the sticky root, compare with it as with the root. -/
theorem gap_comparesSq {f : Fmt} (hw : f.Wide) {m : Nat} (hm : 0 < m) {g e : Int} (hg : 2 * g + e = -402) {x : ℚ}
    (hx : x = stickyRoot m * 2 ^ g / 2 ^ f.qmin) {D : Nat} (hD : f.Floor x D) (hwide : (f.m : ℤ) + 3 ≤ 187) (h187 : 2 ^ 187 ≤ stickyRoot m) :
    f.ComparesSq x (m * 2 ^ e) (f.mag D) ∧ f.ComparesSq x (m * 2 ^ e) (((f.mag D : ℚ) + f.mag (D + 1)) / 2) ∧
      f.ComparesSq x (m * 2 ^ e) (f.mag (D + 1)) := by
  have hu := unit_pos f
  have hcmp (y : ℚ) (t : Nat) (hy : y * 2 ^ f.qmin = 2 * t * 2 ^ g) : f.ComparesSq x (m * 2 ^ e) y := by
    rw [hx]
    exact root_cmp hm hg hu t hy
  obtain ⟨j, k, hDjk, hlo, hhi⟩ := exists_binade f.m D
  have hmagD : f.mag D = k * 2 ^ j := hDjk ▸ mag_binade hw.e_ne hlo hhi.le
  have hmagD1 : f.mag (D + 1) = (k + 1) * 2 ^ j := by
    rw [hDjk, add_assoc]
    exact mag_binade hw.e_ne (hlo.imp_left Nat.le_succ_of_le) hhi
  obtain ⟨h, hh⟩ : ∃ h : ℕ, (j : ℤ) + f.qmin - g = 2 + h := by
    refine ⟨(j + f.qmin - g - 2).toNat, ?_⟩
    have hlow : (2 : ℚ) ^ ((187 : ℤ) + g) < 2 ^ ((f.m : ℤ) + 1 + j + f.qmin) := by
      calc (2 : ℚ) ^ ((187 : ℤ) + g) = 2 ^ (187 : ℤ) * 2 ^ g := zpow_add₀ two_ne_zero _ _
        _ ≤ stickyRoot m * 2 ^ g := mul_le_mul_of_nonneg_right (by exact_mod_cast h187) (zpow_pos two_pos g).le
        _ = x * 2 ^ f.qmin := by rw [hx, div_mul_cancel₀ _ hu.ne']
        _ < f.mag (D + 1) * 2 ^ f.qmin := mul_lt_mul_of_pos_right hD.2 hu
        _ ≤ (2 ^ (f.m + 1) * 2 ^ j : Nat) * 2 ^ f.qmin := by
          refine mul_le_mul_of_nonneg_right ?_ hu.le
          rw [hmagD1]
          exact_mod_cast Nat.mul_le_mul_right _ hhi
        _ = 2 ^ ((f.m : ℤ) + 1 + j + f.qmin) := by
          rw [zpow_add₀ two_ne_zero, zpow_add₀ two_ne_zero, zpow_natCast, ← Nat.cast_succ, zpow_natCast]
          push_cast
          rfl
    have := (zpow_lt_zpow_iff_right₀ one_lt_two).mp hlow
    omega
  have hscale : (2 : ℚ) ^ j * 2 ^ f.qmin = 4 * 2 ^ h * 2 ^ g := by
    rw [← zpow_natCast, ← zpow_natCast, show (4 : ℚ) = 2 ^ (2 : ℤ) by norm_num, ← zpow_add₀ two_ne_zero, ← zpow_add₀ two_ne_zero,
      ← zpow_add₀ two_ne_zero]
    congr 1
    omega
  refine ⟨hcmp _ (2 * k * 2 ^ h) ?_, hcmp _ ((2 * k + 1) * 2 ^ h) ?_, hcmp _ (2 * (k + 1) * 2 ^ h) ?_⟩
  · rw [hmagD]
    push_cast
    linear_combination (k : ℚ) * hscale
  · rw [hmagD, hmagD1]
    push_cast
    linear_combination (2 * k + 1 : ℚ) / 2 * hscale
  · rw [hmagD1]
    push_cast
    linear_combination (k + 1 : ℚ) * hscale

/-- R196: the reciprocal square root is the nearest code; a midpoint is decided by the even code. -/
theorem rsqFin_spec {f : Fmt} (hl : f.Lane) {m : Nat} {e : Int} (hm : 0 < m) (hlt : m < 2 ^ 24) (he : -149 ≤ e) :
    ∃ C, C ≤ f.lim false ∧ encWide f (rsqFin f m e) = f.idxCode false C ∧ ∀ C',
      (C' < C → f.mid C C' * f.mid C C' * (m * 2 ^ e) < 1 ∨ f.mid C C' * f.mid C C' * (m * 2 ^ e) = 1 ∧ C % 2 = 0) ∧
      (C < C' → 1 < f.mid C C' * f.mid C C' * (m * 2 ^ e) ∨ f.mid C C' * f.mid C C' * (m * 2 ^ e) = 1 ∧ C % 2 = 0) := by
  have hw := hl.wide
  have hu := unit_pos f
  obtain ⟨hm23, -, -, -, -, -⟩ := lane_params hl
  obtain ⟨hm2, hlt2, he2, heven⟩ := evenPart_bounds (e := e) hm hlt
  obtain ⟨hX1, hX2⟩ := stickyRoot_bounds hm2 hlt2
  have hA : (0 : ℚ) < m * 2 ^ e := mul_pos (by exact_mod_cast hm) (zpow_pos two_pos e)
  rw [rsqFin_eq]
  set g : ℤ := -((evenPart m e).2 / 2) - 201 with hg
  obtain ⟨C, ⟨D, hD, hCD⟩, henc⟩ := encWide_roundRat (n := stickyRoot (evenPart m e).1) (d := 1) (e := g) hw one_pos .rne false
  have hx : f.units (stickyRoot (evenPart m e).1) 1 g = stickyRoot (evenPart m e).1 * 2 ^ g / 2 ^ f.qmin := by
    rw [Fmt.units, Nat.cast_one, div_one, zpow_sub₀ two_ne_zero, mul_div_assoc]
  obtain ⟨hlow, hmid, hhigh⟩ := gap_comparesSq hw hm2 (e := (evenPart m e).2) (by omega) hx hD (by omega) hX1
  rw [evenPart_val] at hlow hmid hhigh
  have hlim : D < f.lim false := by
    rw [← lt_mag_iff hD, hx, div_lt_iff₀ hu]
    refine lt_of_lt_of_le ?_ (mag_lim_ge hl false)
    calc (stickyRoot (evenPart m e).1 : ℚ) * 2 ^ g ≤ 2 ^ 202 * 2 ^ (-126 : ℤ) :=
          mul_le_mul (by exact_mod_cast hX2) (zpow_le_zpow_right₀ one_le_two (by omega)) (zpow_pos two_pos g).le (by positivity)
      _ < 2 ^ 127 := by norm_num
  have hCle : C ≤ f.lim false := by omega
  refine ⟨C, hCle, ?_, nearest_root hA hD hCD hlow hmid hhigh⟩
  rw [henc, codeOf_wide hw, min_eq_left (show C ≤ f.top .rne false from hCle.trans (Nat.le_add_right _ _))]

/-! ## Powers and logarithms at the exact points -/

section
variable {f : Fmt} (hl : f.Lane)
include hl

omit hl in
theorem le_of_roundIdx {x : ℚ} {C T : Nat} {neg : Bool} {md : Rnd} (h : f.RoundIdx md neg x C) (hT : (f.mag T : ℚ) ≤ x) : T ≤ C := by
  obtain ⟨D, hD, hC⟩ := h
  have := (floor_le_iff hD).mp hT
  omega

omit hl in
theorem eq_zero_of_roundIdx {x : ℚ} {C : Nat} {neg : Bool} (h : f.RoundIdx .rne neg x C) (hx : 2 * x < f.mag 1) : C = 0 := by
  obtain ⟨D, hD, hC⟩ := h
  have hx0 := floor_nonneg hD
  have hD0 : D < 1 := (lt_mag_iff hD).mp (by linarith)
  obtain rfl : D = 0 := by omega
  obtain ⟨hup, -⟩ | ⟨-, rfl⟩ := hC
  · simp only [Fmt.RoundsUp, mag_zero, Nat.cast_zero, zero_add, Nat.zero_mod, zero_ne_one, and_false, or_false] at hup
    exact absurd hup hx.not_gt
  · rfl

/-- Powers of two beyond the format round alike. -/
theorem roundsTo_two_zpow {n i : Int} (h : n = i ∨ 128 ≤ n ∧ 128 ≤ i ∨ n ≤ -160 ∧ i ≤ -160) :
    RoundsTo f .rne (2 ^ n) false (encWide f (roundRat f .rne false 1 1 i)) := by
  have hw := hl.wide
  have hu := unit_pos f
  obtain ⟨-, -, hq1, -, -, -⟩ := lane_params hl
  obtain ⟨C, hC, henc⟩ := encWide_roundRat (n := 1) (d := 1) (e := i) hw one_pos .rne false
  obtain ⟨C', hC', henc'⟩ := encWide_roundRat (n := 1) (d := 1) (e := n) hw one_pos .rne false
  have hval := roundsTo_encWide (n := 1) (d := 1) (e := n) (neg := false) (neg0 := false) (md := .rne) hw one_pos nofun fun _ => rfl
  simp only [Nat.cast_one, div_one, Bool.false_eq_true, if_false, one_mul] at hval
  obtain rfl | hbig | hsmall := h
  · exact hval
  · have hmag {k : Int} (hk : 128 ≤ k) : (f.mag (f.lim false + 1) : ℚ) ≤ f.units 1 1 k := by
      rw [← mul_le_mul_iff_left₀ hu, mag_lim_succ hl, Fmt.units, Nat.cast_one, div_one, one_mul, ← zpow_add₀ two_ne_zero, sub_add_cancel,
        ← zpow_natCast]
      exact zpow_le_zpow_right₀ one_le_two hk
    have htop : f.top .rne false = f.lim false + 1 := by rw [Fmt.top, hw.hasInf]; rfl
    have h1 := le_of_roundIdx hC (hmag hbig.2)
    have h2 := le_of_roundIdx hC' (hmag hbig.1)
    have hcode : f.codeOf .rne false C = f.codeOf .rne false C' := by
      rw [codeOf_wide hw, codeOf_wide hw, htop, min_eq_right h1, min_eq_right h2]
    rwa [henc, hcode, ← henc']
  · have hmag {k : Int} (hk : k ≤ -160) : 2 * f.units 1 1 k < f.mag 1 := by
      have h1 : (1 : ℚ) ≤ f.mag 1 := by exact_mod_cast le_mag (f := f) 1
      refine lt_of_lt_of_le ?_ h1
      rw [Fmt.units, Nat.cast_one, div_one, one_mul, ← zpow_one_add₀ two_ne_zero]
      exact zpow_lt_one_of_neg₀ one_lt_two (by omega)
    rwa [henc, eq_zero_of_roundIdx hC (hmag hsmall.2), ← eq_zero_of_roundIdx hC' (hmag hsmall.1), ← henc']

/-- The argument of a power to 256 fractional bits, rounded down, or ±4096 in its place. -/
def expArg (neg : Bool) (m : Nat) (e : Int) : Int :=
  if m != 0 && decide (12 < log2Q m 1 e) then (if neg then -(4096 * 2 ^ 256) else 4096 * 2 ^ 256)
  else (if neg then -(((scaleQ m 1 e (-256)).1 / (scaleQ m 1 e (-256)).2 : Nat) : Int)
    else (((scaleQ m 1 e (-256)).1 / (scaleQ m 1 e (-256)).2 : Nat) : Int))

omit hl in
theorem exp2Fin_of_integer {neg : Bool} {m : Nat} {e i : Int} (h : expArg neg m e = i * 2 ^ 256) :
    exp2Fin f neg m e = roundRat f .rne false 1 1 i := by
  have hdef : exp2Fin f neg m e = if (expArg neg m e % 2 ^ 256).toNat = 0 then roundRat f .rne false 1 1 (expArg neg m e / 2 ^ 256)
      else roundRat f .rne false (2 * expFix ((expArg neg m e % 2 ^ 256).toNat * ln2Fix / 2 ^ 256) + 1) 1 (expArg neg m e / 2 ^ 256 - 257) := rfl
  rw [hdef, h, Int.mul_emod_left, Int.toNat_zero, if_pos rfl, Int.mul_ediv_cancel _ (by positivity)]

/-- R196: 2 to an integer, rounded once. -/
theorem roundsTo_exp2Fin {neg : Bool} {m : Nat} {e n : Int} (hval : (Num.fin neg m e).val = n) :
    RoundsTo f .rne (2 ^ n) false (encWide f (exp2Fin f neg m e)) := by
  by_cases hbig : m ≠ 0 ∧ 12 < log2Q m 1 e
  · obtain ⟨hm, hlog⟩ := hbig
    have hcond : (m != 0 && decide (12 < log2Q m 1 e)) = true := by simp [hm, hlog]
    have hlow := (log2Q_spec (e := e) (Nat.pos_of_ne_zero hm) one_pos).1
    rw [Nat.cast_one, div_one] at hlow
    have h13 : ((8192 : ℤ) : ℚ) ≤ m * 2 ^ e :=
      calc ((8192 : ℤ) : ℚ) = 2 ^ (13 : ℤ) := by norm_num
        _ ≤ 2 ^ log2Q m 1 e := zpow_le_zpow_right₀ one_le_two (by omega)
        _ ≤ m * 2 ^ e := hlow
    cases neg with
    | false =>
      have hn : (8192 : ℤ) ≤ n := by
        simp only [Num.val, Bool.false_eq_true, if_false, one_mul] at hval
        rw [hval] at h13
        exact_mod_cast h13
      rw [exp2Fin_of_integer (i := 4096) (by rw [expArg, if_pos hcond]; rfl)]
      exact roundsTo_two_zpow hl (.inr (.inl (by omega)))
    | true =>
      have hn : n ≤ (-8192 : ℤ) := by
        simp only [Num.val, if_true, neg_mul, one_mul] at hval
        rw [← neg_eq_iff_eq_neg.mpr hval.symm] at h13
        have : (8192 : ℤ) ≤ -n := by exact_mod_cast h13
        omega
      rw [exp2Fin_of_integer (i := -4096) (by rw [expArg, if_pos hcond]; rfl)]
      exact roundsTo_two_zpow hl (.inr (.inr (by omega)))
  · have hcond : ¬(m != 0 && decide (12 < log2Q m 1 e)) = true := by simpa using hbig
    have hb : 0 < (scaleQ m 1 e (-256)).2 := scaleQ_pos one_pos
    have hsc := scaleQ_val (n := m) (d := 1) (e := e) (q := -256)
    have habs : ((n.natAbs : ℕ) : ℚ) = m * 2 ^ e := by
      have hp : (0 : ℚ) ≤ m * 2 ^ e := mul_nonneg (Nat.cast_nonneg m) (zpow_pos two_pos e).le
      have h := congrArg abs hval
      rw [Num.val, abs_mul, abs_of_nonneg hp] at h
      rw [Nat.cast_natAbs, Int.cast_abs, ← h]
      cases neg <;> simp
    have hquot : (scaleQ m 1 e (-256)).1 / (scaleQ m 1 e (-256)).2 = n.natAbs * 2 ^ 256 := by
      rw [Nat.cast_one, div_one, sub_neg_eq_add, zpow_add₀ two_ne_zero, ← mul_assoc, ← habs, div_eq_iff (by exact_mod_cast hb.ne')] at hsc
      refine Nat.div_eq_of_eq_mul_left hb ?_
      exact_mod_cast hsc
    have harg : expArg neg m e = n * 2 ^ 256 := by
      rw [expArg, if_neg hcond, hquot]
      cases neg with
      | false =>
        have hn : 0 ≤ n := by
          have : (0 : ℚ) ≤ n := by
            rw [← hval, ← not_lt, val_fin_lt_zero]
            simp
          exact_mod_cast this
        simp [abs_of_nonneg hn]
      | true =>
        have hn : n ≤ 0 := by
          have : (n : ℚ) ≤ 0 := by
            rw [← hval, ← neg_neg (Num.fin true m e).val, ← val_fin_neg, neg_nonpos, ← not_lt, val_fin_lt_zero]
            simp
          exact_mod_cast this
        simp [abs_of_nonpos hn]
    rw [exp2Fin_of_integer harg]
    exact roundsTo_two_zpow hl (.inl rfl)

omit hl in
/-- An integer rounded once. -/
theorem roundsTo_ofInt {g : Fmt} (hw : g.Wide) {md : Rnd} (hmd : ∀ u, md ≠ .sr u) (n : Int) :
    RoundsTo g md n false (encWide g (roundNum g md (ofInt n))) := by
  refine roundsTo_val hw ?_ hmd fun h => ?_
  · rw [Num.val, zpow_zero, mul_one, Nat.cast_natAbs, Int.cast_abs]
    obtain hn | hn := lt_or_ge n 0
    · rw [if_pos (decide_eq_true hn), abs_of_neg (by exact_mod_cast hn)]
      ring
    · rw [if_neg (by simpa using hn), abs_of_nonneg (by exact_mod_cast hn), one_mul]
  · rw [Int.natAbs_eq_zero.mp h]
    rfl

/-- R196: the logarithm of a power of two, rounded once. -/
theorem roundsTo_log2Fin {m : Nat} {e n : Int} (hval : (Num.fin false m e).val = 2 ^ n) :
    RoundsTo f .rne n false (encWide f (log2Fin f m e)) := by
  simp only [Num.val, Bool.false_eq_true, if_false, one_mul] at hval
  have hm : 0 < m := by
    rw [Nat.pos_iff_ne_zero]
    rintro rfl
    rw [Nat.cast_zero, zero_mul] at hval
    exact absurd hval.symm (zpow_ne_zero n two_ne_zero)
  obtain ⟨hlo, hhi⟩ := log2_bounds hm
  have hmn : (m : ℚ) = 2 ^ (n - e) := by
    rw [zpow_sub₀ two_ne_zero, eq_div_iff (zpow_ne_zero e two_ne_zero), hval]
  rw [hmn] at hlo hhi
  have h1 := (zpow_le_zpow_iff_right₀ one_lt_two).mp hlo
  have h2 := (zpow_lt_zpow_iff_right₀ one_lt_two).mp hhi
  have hlog : n - e = (m.log2 : ℤ) := by omega
  have hpow : m = 2 ^ m.log2 := by
    rw [hlog, zpow_natCast] at hmn
    exact_mod_cast hmn
  have hfin : log2Fin f m e = roundNum f .rne (ofInt (e + m.log2)) := by
    rw [log2Fin]
    simp only
    rw [if_pos hpow]
  rw [hfin, ← hlog, add_sub_cancel]
  exact roundsTo_ofInt (md := .rne) hl.wide nofun n

end

end Sys2Proof.Machine
end

section
/-! SUPPORT. The float functions of v on one element (R190, R193, R195, R196), and lane by lane. -/

namespace Sys2Proof.Machine

open Sys2Proof.Claims

theorem ltFmt_lane (t : Nat) : (ltFmt t).Lane := by
  rw [ltFmt]
  split
  · exact .inr rfl
  · exact .inl rfl

theorem ltFmt_wide (t : Nat) : (ltFmt t).Wide := (ltFmt_lane t).wide

theorem ltW_float {t : Nat} (ht : t = 6 ∨ t = 7) : ltW t = (ltFmt t).width := by
  obtain rfl | rfl := ht <;> rfl

theorem ltFloat_float {t : Nat} (ht : t = 6 ∨ t = 7) : ltFloat t = true := by
  obtain rfl | rfl := ht <;> rfl

/-! ## One element -/

section
variable {f : Fmt} (hw : f.Wide) {a b : Nat} (ha : a < 2 ^ f.width) (hb : b < 2 ^ f.width)
include hw ha hb

/-- Codes of one value are one code, or zeros of two signs. -/
theorem eq_or_zeros (h : codeVal f a = codeVal f b) : a = b ∨ codeVal f a = 0 ∧ codeVal f b = 0 ∧ signCode f a = !signCode f b := by
  by_cases h0 : codeVal f a = 0
  · by_cases hs : signCode f a = signCode f b
    · exact .inl (eq_of_codeVal_wide hw ha hb h fun _ => hs)
    · exact .inr ⟨h0, h.symm.trans h0, Bool.eq_not.mpr hs⟩
  · exact .inl (eq_of_codeVal_wide hw ha hb h fun h0' => absurd h0' h0)

variable (hna : nanCode f a = false) (hnb : nanCode f b = false)
include hna hnb

theorem lesser_below : (if Num.below (decode f b) (decode f a) = true then b else a) =
    if codeVal f a < codeVal f b ∨ codeVal f a = codeVal f b ∧ signCode f a = true then a else b := by
  simp only [below_iff hw hb ha hnb hna]
  obtain hlt | heq | hgt := lt_trichotomy (codeVal f a) (codeVal f b)
  · rw [if_neg (not_or.mpr ⟨hlt.not_gt, fun h => hlt.ne (h.2.1.trans h.1.symm)⟩), if_pos (.inl hlt)]
  · obtain rfl | ⟨h1, h2, hs⟩ := eq_or_zeros hw ha hb heq
    · rw [ite_self, ite_self]
    · simp only [h1, h2, hs, lt_irrefl, false_or, true_and]
      cases signCode f b <;> rfl
  · rw [if_pos (.inl hgt), if_neg (not_or.mpr ⟨hgt.not_gt, fun h => hgt.ne' h.1⟩)]

theorem greater_below : (if Num.below (decode f a) (decode f b) = true then b else a) =
    if codeVal f b < codeVal f a ∨ codeVal f a = codeVal f b ∧ signCode f b = true then a else b := by
  simp only [below_iff hw ha hb hna hnb]
  obtain hlt | heq | hgt := lt_trichotomy (codeVal f a) (codeVal f b)
  · rw [if_pos (.inl hlt), if_neg (not_or.mpr ⟨hlt.not_gt, fun h => hlt.ne h.1⟩)]
  · obtain rfl | ⟨h1, h2, hs⟩ := eq_or_zeros hw ha hb heq
    · rw [ite_self, ite_self]
    · simp only [h1, h2, hs, lt_irrefl, false_or, true_and]
      cases signCode f b <;> rfl
  · rw [if_neg (not_or.mpr ⟨hgt.not_gt, fun h => hgt.ne (h.2.1.trans h.1.symm)⟩), if_pos (.inl hgt)]

end

section
variable {t a b : Nat} (ht : t = 6 ∨ t = 7) (ha : a < 2 ^ (ltFmt t).width) (hb : b < 2 ^ (ltFmt t).width)
include ht ha hb

/-- The lesser or greater of two float elements (R67, R192). -/
theorem minElem_float (mx : Bool) : minElem t mx a b =
    if nanCode (ltFmt t) a = true ∨ nanCode (ltFmt t) b = true then (canonical (ltFmt t), (fdec t a).isSig || (fdec t b).isSig)
    else (if (if mx then Num.below (fdec t a) (fdec t b) else Num.below (fdec t b) (fdec t a)) = true then b else a, false) := by
  rw [minElem, if_pos (ltFloat_float ht)]
  simp only [fdec, isNan_decode (ltFmt_wide t) ha, isNan_decode (ltFmt_wide t) hb, Bool.or_eq_true]
  rfl

theorem lesserIs_minElem : LesserIs (ltFmt t) a b (minElem t false a b).1 := by
  rw [LesserIs, minElem_float ht ha hb]
  by_cases hnan : nanCode (ltFmt t) a = true ∨ nanCode (ltFmt t) b = true
  · rw [if_pos hnan, if_pos hnan]
  · obtain ⟨hna, hnb⟩ := not_or.mp hnan
    rw [if_neg hnan, if_neg hnan]
    exact lesser_below (ltFmt_wide t) ha hb (Bool.eq_false_iff.mpr hna) (Bool.eq_false_iff.mpr hnb)

theorem greaterIs_minElem : GreaterIs (ltFmt t) a b (minElem t true a b).1 := by
  rw [GreaterIs, minElem_float ht ha hb]
  by_cases hnan : nanCode (ltFmt t) a = true ∨ nanCode (ltFmt t) b = true
  · rw [if_pos hnan, if_pos hnan]
  · obtain ⟨hna, hnb⟩ := not_or.mp hnan
    rw [if_neg hnan, if_neg hnan]
    exact greater_below (ltFmt_wide t) ha hb (Bool.eq_false_iff.mpr hna) (Bool.eq_false_iff.mpr hnb)

theorem minElem_lt (mx : Bool) : (minElem t mx a b).1 < 2 ^ (ltFmt t).width := by
  rw [minElem_float ht ha hb]
  by_cases hnan : nanCode (ltFmt t) a = true ∨ nanCode (ltFmt t) b = true
  · rw [if_pos hnan]
    exact canonical_lt (ltFmt_wide t)
  · rw [if_neg hnan]
    have hite {p : Prop} [Decidable p] : (if p then b else a) < 2 ^ (ltFmt t).width := by
      split
      · exact hb
      · exact ha
    exact hite

end

/-! ## Absolute value and negation -/

section
variable {f : Fmt} (hw : f.Wide) {a : Nat} (ha : a < 2 ^ f.width)
include hw ha

theorem mod_sign : a % 2 ^ (f.width - 1) = if signCode f a then flipped f a else a := by
  obtain ⟨neg, C, hC, rfl, hs, -⟩ := exists_raw_wide hw ha
  rw [width_of_sign hw.sign, raw_mod_top hC, hs, flipped_raw hw hC]
  cases neg <;> simp [Fmt.raw]

omit ha in
theorem add_sign (a : Nat) : (a + 2 ^ (f.width - 1)) % 2 ^ f.width = flipped f a := by
  rw [width_of_sign hw.sign]
  rfl

end

/-! ## The functions of R196 -/

section
variable {t a : Nat} (ha : a < 2 ^ (ltFmt t).width) {g : Num → Num × Bool}
include ha

theorem transElem_nan (h : nanCode (ltFmt t) a = true) : ∃ s, decode (ltFmt t) a = .nan s ∧ transElem t a g = (canonical (ltFmt t), s) := by
  obtain ⟨s, hs⟩ := decode_nan (ltFmt_wide t).ok ha h
  exact ⟨s, hs, by simp only [transElem, fdec, hs]; rfl⟩

omit ha in
theorem transElem_of_decode {y : Num} (h : decode (ltFmt t) a = y) (hy : y.isNan = false) : transElem t a g = (encWide (ltFmt t) (g y).1, (g y).2) := by
  cases y with
  | nan s => exact absurd hy (by simp [Num.isNan])
  | inf n => simp only [transElem, fdec, h]
  | fin n m e => simp only [transElem, fdec, h]

end

/-! ## Active lanes -/

section
variable (x : VIn) {j : Nat} (ht : x.t = 6 ∨ x.t = 7) (hj : j < ltN x.t) (hon : x.act j = true)

theorem resultAt_active {g : Nat → Nat → Nat → Nat × Bool} (hj : j < ltN x.t) (hon : x.act j = true)
    (hlt : (g (elem (ltW x.t) x.a j) (elem (ltW x.t) x.b j) (elem (ltW x.t) x.c j)).1 < 2 ^ ltW x.t) :
    resultAt x (elementwise x g) j = (g (elem (ltW x.t) x.a j) (elem (ltW x.t) x.b j) (elem (ltW x.t) x.c j)).1 := by
  rw [resultAt_elementwise x hj, if_pos hon, Nat.mod_eq_of_lt hlt]

theorem resultAt_inactive {g : Nat → Nat → Nat → Nat × Bool} (hj : j < ltN x.t) (hoff : x.act j = false) :
    resultAt x (elementwise x g) j = elem (ltW x.t) x.c j := by
  rw [resultAt_elementwise x hj, hoff, if_neg Bool.false_ne_true]

theorem elem_lt_fmt (ht : x.t = 6 ∨ x.t = 7) (v : V) (j : Nat) : elem (ltW x.t) v j < 2 ^ (ltFmt x.t).width := ltW_float ht ▸ elem_lt _ v j

/-- An element of a lane as a number. -/
def VIn.num (x : VIn) (v : V) (j : Nat) : Num := decode (ltFmt x.t) (elem (ltW x.t) v j)

/-- A number rounded to the lane type. -/
def VIn.enc (x : VIn) (y : Num) : Nat := encWide (ltFmt x.t) (roundNum (ltFmt x.t) .rne y)

theorem enc_lt (ht : x.t = 6 ∨ x.t = 7) (y : Num) : x.enc y < 2 ^ ltW x.t := ltW_float ht ▸ encWide_roundNum_lt (ltFmt_wide x.t) .rne y

include ht hj hon

theorem resultAt_rounded {g : Nat → Nat → Nat → Nat × Bool} {y : Num}
    (h : (g (elem (ltW x.t) x.a j) (elem (ltW x.t) x.b j) (elem (ltW x.t) x.c j)).1 = x.enc y) : resultAt x (elementwise x g) j = x.enc y := by
  rw [resultAt_active x hj hon (h ▸ enc_lt x ht y), h]

theorem resultAt_vAdd : resultAt x (vAdd x) j = x.enc (Num.add (x.num x.a j) (x.num x.b j)).1 := by
  refine resultAt_rounded x ht hj hon ?_
  rw [if_pos (ltFloat_float ht)]
  rfl

theorem resultAt_vSub : resultAt x (vSub x) j = x.enc (Num.add (x.num x.a j) (x.num x.b j).neg).1 := by
  refine resultAt_rounded x ht hj hon ?_
  rw [if_pos (ltFloat_float ht)]
  rfl

theorem resultAt_vMul : resultAt x (vMul x) j = x.enc (Num.mul (x.num x.a j) (x.num x.b j)).1 := by
  refine resultAt_rounded x ht hj hon ?_
  rw [if_pos (ltFloat_float ht)]
  rfl

theorem resultAt_vMad : resultAt x (vMad x) j = x.enc (Num.fma (x.num x.a j) (x.num x.b j) (x.num x.c j)).1 := by
  refine resultAt_rounded x ht hj hon ?_
  rw [if_pos (ltFloat_float ht)]
  rfl

theorem resultAt_vMin : resultAt x (vMin x) j = (minElem x.t false (elem (ltW x.t) x.a j) (elem (ltW x.t) x.b j)).1 := by
  have hlt := minElem_lt ht (elem_lt_fmt x ht x.a j) (elem_lt_fmt x ht x.b j) false
  rw [← ltW_float ht] at hlt
  rw [vMin, resultAt_active x hj hon hlt]

theorem resultAt_vMax : resultAt x (vMax x) j = (minElem x.t true (elem (ltW x.t) x.a j) (elem (ltW x.t) x.b j)).1 := by
  have hlt := minElem_lt ht (elem_lt_fmt x ht x.a j) (elem_lt_fmt x ht x.b j) true
  rw [← ltW_float ht] at hlt
  rw [vMax, resultAt_active x hj hon hlt]

theorem resultAt_vAbs : resultAt x (vAbs x) j =
    if nanCode (ltFmt x.t) (elem (ltW x.t) x.a j) = true then canonical (ltFmt x.t)
    else if signCode (ltFmt x.t) (elem (ltW x.t) x.a j) = true then flipped (ltFmt x.t) (elem (ltW x.t) x.a j) else elem (ltW x.t) x.a j := by
  have ha := elem_lt_fmt x ht x.a j
  have hw := ltFmt_wide x.t
  have hmod : elem (ltW x.t) x.a j % 2 ^ (ltW x.t - 1) =
      if signCode (ltFmt x.t) (elem (ltW x.t) x.a j) = true then flipped (ltFmt x.t) (elem (ltW x.t) x.a j) else elem (ltW x.t) x.a j := by
    rw [← mod_sign hw ha, ltW_float ht]
  have hlt := canonical_lt hw
  rw [← ltW_float ht] at hlt
  rw [vAbs, resultAt_elementwise x hj, if_pos hon, if_pos (ltFloat_float ht), fdec, isNan_decode hw ha, ← hmod]
  split
  · exact Nat.mod_eq_of_lt hlt
  · exact Nat.mod_eq_of_lt ((Nat.mod_le _ _).trans_lt (elem_lt _ _ _))

theorem resultAt_vNeg : resultAt x (vNeg x) j =
    if nanCode (ltFmt x.t) (elem (ltW x.t) x.a j) = true then canonical (ltFmt x.t) else flipped (ltFmt x.t) (elem (ltW x.t) x.a j) := by
  have hw := ltFmt_wide x.t
  have hmod := add_sign hw (elem (ltW x.t) x.a j)
  have hlt := canonical_lt hw
  rw [← ltW_float ht] at hlt hmod
  rw [vNeg, resultAt_elementwise x hj, if_pos hon, if_pos (ltFloat_float ht), fdec, isNan_decode hw (elem_lt_fmt x ht x.a j), ← hmod]
  split
  · exact Nat.mod_eq_of_lt hlt
  · exact Nat.mod_mod _ _

omit ht in
/-- A comparison answers all ones or zero. -/
theorem resultAt_compareOp (p : Nat → Nat → Bool) : resultAt x (compareOp x p) j =
    if p (elem (ltW x.t) x.a j) (elem (ltW x.t) x.b j) = true then 2 ^ ltW x.t - 1 else 0 := by
  have hp := Nat.two_pow_pos (ltW x.t)
  have hres : resultAt x (compareOp x p) j = resultAt x (elementwise x (fun a b _ =>
      (if p a b then 2 ^ ltW x.t - 1 else 0, ltFloat x.t && ((fdec x.t a).isSig || (fdec x.t b).isSig)))) j := rfl
  rw [hres, resultAt_active x hj hon]
  simp only
  split <;> omega

/-- A comparison by a predicate that a proposition describes. -/
theorem compareOp_iff {p : Nat → Nat → Bool} {P : Prop} (h : p (elem (ltW x.t) x.a j) (elem (ltW x.t) x.b j) = true ↔ P) :
    (resultAt x (compareOp x p) j = 2 ^ ltW x.t - 1 ↔ P) ∧ (resultAt x (compareOp x p) j = 2 ^ ltW x.t - 1 ∨ resultAt x (compareOp x p) j = 0) := by
  have hne : 0 ≠ 2 ^ ltW x.t - 1 := by obtain h | h := ht <;> rw [h] <;> decide
  rw [resultAt_compareOp x hj hon, ← h]
  split
  · next hp => exact ⟨iff_of_true rfl hp, .inl rfl⟩
  · next hp => exact ⟨iff_of_false hne hp, .inr rfl⟩

omit ht in
theorem resultAt_trans {g : Num → Num × Bool} {y : Num} (hdec : x.num x.a j = y) (hy : y.isNan = false)
    (hlt : encWide (ltFmt x.t) (g y).1 < 2 ^ ltW x.t) :
    resultAt x (elementwise x (fun a _ _ => transElem x.t a g)) j = encWide (ltFmt x.t) (g y).1 := by
  have htr : (transElem x.t (elem (ltW x.t) x.a j) g).1 = encWide (ltFmt x.t) (g y).1 := by rw [transElem_of_decode hdec hy]
  rw [resultAt_active x (g := fun a _ _ => transElem x.t a g) hj hon (htr.trans_lt hlt)]
  exact htr

theorem resultAt_trans_nan {g : Num → Num × Bool} (h : nanCode (ltFmt x.t) (elem (ltW x.t) x.a j) = true) :
    resultAt x (elementwise x (fun a _ _ => transElem x.t a g)) j = canonical (ltFmt x.t) := by
  obtain ⟨s, -, hs⟩ := transElem_nan (g := g) (elem_lt_fmt x ht x.a j) h
  have hlt := canonical_lt (ltFmt_wide x.t)
  rw [← ltW_float ht] at hlt
  have htr : (transElem x.t (elem (ltW x.t) x.a j) g).1 = canonical (ltFmt x.t) := by rw [hs]
  rw [resultAt_active x (g := fun a _ _ => transElem x.t a g) hj hon (htr.trans_lt hlt)]
  exact htr

omit ht in
theorem trans_inv {g : Num → Num × Bool} {y : Num} (hdec : x.num x.a j = y) (hy : y.isNan = false) (h : (g y).2 = true) :
    (elementwise x (fun a _ _ => transElem x.t a g)).inv = true := by
  refine (elementwise_inv x).mpr ⟨j, hj, hon, ?_⟩
  rw [transElem_of_decode hdec hy, h]

omit hj hon in
theorem lane_lt {n : Nat} (h : n < 2 ^ (ltFmt x.t).width) : n < 2 ^ ltW x.t := by rwa [ltW_float ht]

/-! ## The functions of R196 on an active lane -/

theorem resultAt_vRcp_fin {s : Bool} {m : Nat} {e : Int} (hm : m ≠ 0) (hdec : x.num x.a j = .fin s m e) :
    resultAt x (vRcp x) j = encWide (ltFmt x.t) (roundRat (ltFmt x.t) .rne s 1 m (-e)) := by
  obtain ⟨k, rfl⟩ := Nat.exists_eq_succ_of_ne_zero hm
  have hlt : encWide (ltFmt x.t) (roundRat (ltFmt x.t) .rne s 1 (k + 1) (-e)) < _ := lane_lt x ht (encWide_roundRat_lt (ltFmt_wide x.t) k.succ_pos)
  exact resultAt_trans x hj hon hdec rfl hlt

theorem resultAt_vRcp_zero {s : Bool} {e : Int} (hdec : x.num x.a j = .fin s 0 e) : resultAt x (vRcp x) j = infinity (ltFmt x.t) s :=
  resultAt_trans x hj hon hdec rfl (lane_lt x ht (infinity_lt (ltFmt_wide x.t) s))

theorem resultAt_vRcp_inf {s : Bool} (hdec : x.num x.a j = .inf s) : resultAt x (vRcp x) j = zeroCode (ltFmt x.t) s := by
  have hz := encWide_zero (f := ltFmt x.t) s 0
  have hlt := lane_lt x ht (zeroCode_lt (ltFmt_wide x.t) s)
  rw [← hz] at hlt ⊢
  exact resultAt_trans x hj hon hdec rfl hlt

theorem resultAt_vRsq_zero {s : Bool} {e : Int} (hdec : x.num x.a j = .fin s 0 e) : resultAt x (vRsq x) j = infinity (ltFmt x.t) s :=
  resultAt_trans x hj hon hdec rfl (lane_lt x ht (infinity_lt (ltFmt_wide x.t) s))

theorem resultAt_vRsq_fin {m : Nat} {e : Int} (hm : m ≠ 0) (hdec : x.num x.a j = .fin false m e)
    (hlt : encWide (ltFmt x.t) (rsqFin (ltFmt x.t) m e) < 2 ^ (ltFmt x.t).width) :
    resultAt x (vRsq x) j = encWide (ltFmt x.t) (rsqFin (ltFmt x.t) m e) := by
  obtain ⟨k, rfl⟩ := Nat.exists_eq_succ_of_ne_zero hm
  exact resultAt_trans x hj hon hdec rfl (lane_lt x ht hlt)

theorem resultAt_vRsq_inf (hdec : x.num x.a j = .inf false) : resultAt x (vRsq x) j = 0 := by
  have hz := encWide_zero (f := ltFmt x.t) false 0
  have hlt := lane_lt x ht (zeroCode_lt (ltFmt_wide x.t) false)
  rw [← hz] at hlt
  exact (resultAt_trans x hj hon hdec rfl hlt).trans hz

theorem resultAt_vExp2_fin {s : Bool} {m : Nat} {e : Int} (hdec : x.num x.a j = .fin s m e)
    (hlt : encWide (ltFmt x.t) (exp2Fin (ltFmt x.t) s m e) < 2 ^ (ltFmt x.t).width) :
    resultAt x (vExp2 x) j = encWide (ltFmt x.t) (exp2Fin (ltFmt x.t) s m e) :=
  resultAt_trans x hj hon hdec rfl (lane_lt x ht hlt)

theorem resultAt_vExp2_inf (hdec : x.num x.a j = .inf false) : resultAt x (vExp2 x) j = infinity (ltFmt x.t) false :=
  resultAt_trans x hj hon hdec rfl (lane_lt x ht (infinity_lt (ltFmt_wide x.t) false))

theorem resultAt_vExp2_neg_inf (hdec : x.num x.a j = .inf true) : resultAt x (vExp2 x) j = 0 := by
  have hz := encWide_zero (f := ltFmt x.t) false 0
  have hlt := lane_lt x ht (zeroCode_lt (ltFmt_wide x.t) false)
  rw [← hz] at hlt
  exact (resultAt_trans x hj hon hdec rfl hlt).trans hz

theorem resultAt_vLog2_zero {s : Bool} {e : Int} (hdec : x.num x.a j = .fin s 0 e) : resultAt x (vLog2 x) j = infinity (ltFmt x.t) true :=
  resultAt_trans x hj hon hdec rfl (lane_lt x ht (infinity_lt (ltFmt_wide x.t) true))

theorem resultAt_vLog2_inf (hdec : x.num x.a j = .inf false) : resultAt x (vLog2 x) j = infinity (ltFmt x.t) false :=
  resultAt_trans x hj hon hdec rfl (lane_lt x ht (infinity_lt (ltFmt_wide x.t) false))

theorem resultAt_vLog2_fin {m : Nat} {e : Int} (hm : m ≠ 0) (hdec : x.num x.a j = .fin false m e)
    (hlt : encWide (ltFmt x.t) (log2Fin (ltFmt x.t) m e) < 2 ^ (ltFmt x.t).width) :
    resultAt x (vLog2 x) j = encWide (ltFmt x.t) (log2Fin (ltFmt x.t) m e) := by
  obtain ⟨k, rfl⟩ := Nat.exists_eq_succ_of_ne_zero hm
  exact resultAt_trans x hj hon hdec rfl (lane_lt x ht hlt)

/-- The root and the logarithm of a number below 0 are invalid NaNs. -/
theorem root_log_negative (hdec : x.num x.a j = .inf true ∨ ∃ m e, m ≠ 0 ∧ x.num x.a j = .fin true m e) :
    (resultAt x (vRsq x) j = canonical (ltFmt x.t) ∧ (vRsq x).inv = true) ∧ resultAt x (vLog2 x) j = canonical (ltFmt x.t) ∧ (vLog2 x).inv = true := by
  have hlt := lane_lt x ht (canonical_lt (ltFmt_wide x.t))
  obtain hdec | ⟨m, e, hm, hdec⟩ := hdec
  · exact ⟨⟨resultAt_trans x hj hon hdec rfl hlt, trans_inv x hj hon hdec rfl rfl⟩, resultAt_trans x hj hon hdec rfl hlt,
      trans_inv x hj hon hdec rfl rfl⟩
  · obtain ⟨k, rfl⟩ := Nat.exists_eq_succ_of_ne_zero hm
    exact ⟨⟨resultAt_trans x hj hon hdec rfl hlt, trans_inv x hj hon hdec rfl rfl⟩, resultAt_trans x hj hon hdec rfl hlt,
      trans_inv x hj hon hdec rfl rfl⟩

end

end Sys2Proof.Machine
end

section
/-! O20, first part: the float functions of v (R190, R193, R195, R196). -/

namespace Sys2Proof.Machine

open Sys2Proof.Claims

theorem roundsTo_lt {f : Fmt} (hf : f.Ok) {md : Rnd} {v : ℚ} {neg : Bool} {c : Nat} (h : RoundsTo f md v neg c) : c < 2 ^ f.width := by
  obtain ⟨b, C, hb, hC, rfl⟩ := (roundable_iff hf md c).mp h.1
  obtain hle | hgt := le_or_gt C (f.lim b)
  · exact lt_of_finiteCode (idxCode_finite hf hb hle).1
  · rw [Fmt.top] at hC
    split at hC
    · next hinf =>
      rw [Bool.and_eq_true] at hinf
      obtain rfl : C = f.lim b + 1 := by omega
      have hidx := infIdx_lt hf hinf.1 b
      rw [lim_succ_of_hasInf hf hinf.1] at hidx
      rw [infIdxCode hf hinf.1 hb]
      exact raw_lt_width hb hidx
    · omega

section
variable (x : VIn) {j : Nat} (ht : x.t = 6 ∨ x.t = 7) (hj : j < ltN x.t) (hon : x.act j = true)
include ht hj hon

/-- R193: arithmetic on an active lane. -/
theorem lane_arithmetic :
    let f := ltFmt x.t
    let a := elem (ltW x.t) x.a j
    let b := elem (ltW x.t) x.b j
    let c := elem (ltW x.t) x.c j
    SumIs f a b (resultAt x (vAdd x) j) ∧ SumIs f a (flipped f b) (resultAt x (vSub x) j) ∧ ProductIs f a b (resultAt x (vMul x) j) ∧
    (finiteCode f a = true → finiteCode f b = true → finiteCode f c = true →
      RoundsTo f .rne (codeVal f a * codeVal f b + codeVal f c) ((signCode f a != signCode f b) && signCode f c) (resultAt x (vMad x) j)) ∧
    (nanCode f a = true ∨ nanCode f b = true ∨ nanCode f c = true → resultAt x (vMad x) j = canonical f) := by
  intro f a b c
  have hw := ltFmt_wide x.t
  have ha : a < 2 ^ f.width := elem_lt_fmt x ht x.a j
  have hb : b < 2 ^ f.width := elem_lt_fmt x ht x.b j
  have hc : c < 2 ^ f.width := elem_lt_fmt x ht x.c j
  rw [resultAt_vAdd x ht hj hon, resultAt_vSub x ht hj hon, resultAt_vMul x ht hj hon, resultAt_vMad x ht hj hon]
  refine ⟨sumIs_add hw ha hb, ?_, productIs_mul hw ha hb, roundsTo_fma hw, fma_nan hw ha hb hc⟩
  have h := sumIs_add hw ha (flipped_lt (f := f) (c := b))
  rwa [decode_flipped hw hb] at h

/-- R195: comparisons on an active lane. -/
theorem lane_compare :
    let f := ltFmt x.t
    let a := elem (ltW x.t) x.a j
    let b := elem (ltW x.t) x.b j
    let ones := 2 ^ ltW x.t - 1
    let numbers : Prop := nanCode f a = false ∧ nanCode f b = false
    (resultAt x (vCmpeq x) j = ones ↔ numbers ∧ codeVal f a = codeVal f b) ∧ (resultAt x (vCmpeq x) j = ones ∨ resultAt x (vCmpeq x) j = 0) ∧
    (resultAt x (vCmplt x) j = ones ↔ numbers ∧ codeVal f a < codeVal f b) ∧ (resultAt x (vCmplt x) j = ones ∨ resultAt x (vCmplt x) j = 0) ∧
    (resultAt x (vCmple x) j = ones ↔ numbers ∧ codeVal f a ≤ codeVal f b) ∧ (resultAt x (vCmple x) j = ones ∨ resultAt x (vCmple x) j = 0) := by
  intro f a b ones numbers
  have hw := ltFmt_wide x.t
  have ha : a < 2 ^ f.width := elem_lt_fmt x ht x.a j
  have hb : b < 2 ^ f.width := elem_lt_fmt x ht x.b j
  have hfl := ltFloat_float ht
  have heq := eqv_iff_codeVal hw ha hb
  have hlt := lt_iff hw ha hb
  have hle : (Num.lt (decode f a) (decode f b) || Num.eqv (decode f a) (decode f b)) = true ↔ numbers ∧ codeVal f a ≤ codeVal f b := by
    rw [Bool.or_eq_true, heq, hlt, ← and_or_left, le_iff_lt_or_eq]
  obtain ⟨h1, h2⟩ : (resultAt x (vCmpeq x) j = ones ↔ numbers ∧ codeVal f a = codeVal f b) ∧ (_ ∨ _) :=
    compareOp_iff x ht hj hon (by rw [if_pos hfl]; exact heq)
  obtain ⟨h3, h4⟩ : (resultAt x (vCmplt x) j = ones ↔ numbers ∧ codeVal f a < codeVal f b) ∧ (_ ∨ _) :=
    compareOp_iff x ht hj hon (by rw [if_pos hfl]; exact hlt)
  obtain ⟨h5, h6⟩ : (resultAt x (vCmple x) j = ones ↔ numbers ∧ codeVal f a ≤ codeVal f b) ∧ (_ ∨ _) :=
    compareOp_iff x ht hj hon (by rw [if_pos hfl]; exact hle)
  exact ⟨h1, h2, h3, h4, h5, h6⟩

omit ht in
/-- R194, R199: the functions of patterns on an active lane. -/
theorem lane_patterns :
    let w := ltW x.t
    let a := elem w x.a j
    let b := elem w x.b j
    resultAt x (vAnd x) j = a &&& b ∧ resultAt x (vOr x) j = a ||| b ∧ resultAt x (vXor x) j = a ^^^ b ∧
    resultAt x (vSel x) j = (if elem w x.c j = 0 then b else a) ∧ resultAt x (vShuf x) j = elem w x.a (b % (2048 / w)) ∧
    resultAt x (vBcast x) j = elem w x.a (x.ctl.toNat % 256 % (2048 / w)) := by
  intro w a b
  have ha : a < 2 ^ w := elem_lt w x.a j
  have hb : b < 2 ^ w := elem_lt w x.b j
  refine ⟨resultAt_active x hj hon (Nat.and_lt_two_pow _ hb), resultAt_active x hj hon (Nat.or_lt_two_pow ha hb),
    resultAt_active x hj hon (Nat.xor_lt_two_pow ha hb), ?_, resultAt_active x hj hon (elem_lt _ _ _), ?_⟩
  · have hsel : resultAt x (vSel x) j = if elem w x.c j ≠ 0 then a else b := by
      refine resultAt_active x hj hon ?_
      simp only
      split
      · exact ha
      · exact hb
    rw [hsel]
    split <;> simp_all
  · rw [vBcast, resultAt_active x hj hon (elem_lt _ _ _), fld_low]
    rfl

/-- R196: the functions of one element on an active lane, but for the root of a number above 0. -/
theorem lane_functions :
    let f := ltFmt x.t
    let a := elem (ltW x.t) x.a j
    let A := codeVal f a
    let fin (c : Nat) : Prop := finiteCode f c = true
    (nanCode f a = true → ∀ g ∈ [vRcp, vRsq, vExp2, vLog2], resultAt x (g x) j = canonical f) ∧
    (fin a → A ≠ 0 → RoundsTo f .rne (1 / A) false (resultAt x (vRcp x) j)) ∧
    (fin a → A = 0 → resultAt x (vRcp x) j = infinity f (signCode f a) ∧ resultAt x (vRsq x) j = infinity f (signCode f a) ∧
      resultAt x (vLog2 x) j = infinity f true) ∧
    (isInf f a = true → resultAt x (vRcp x) j = zeroCode f (signCode f a)) ∧
    (a = infinity f false → resultAt x (vRsq x) j = 0 ∧ resultAt x (vExp2 x) j = infinity f false ∧ resultAt x (vLog2 x) j = infinity f false) ∧
    (a = infinity f true → resultAt x (vExp2 x) j = 0) ∧
    (nanCode f a = false → A < 0 → resultAt x (vRsq x) j = canonical f ∧ (vRsq x).inv = true ∧
      resultAt x (vLog2 x) j = canonical f ∧ (vLog2 x).inv = true) ∧
    (∀ n : Int, fin a → A = n → RoundsTo f .rne (2 ^ n) false (resultAt x (vExp2 x) j)) ∧
    (∀ n : Int, fin a → A = 2 ^ n → RoundsTo f .rne n false (resultAt x (vLog2 x) j)) := by
  intro f a A fin
  have hl := ltFmt_lane x.t
  have hw := hl.wide
  have ha : a < 2 ^ f.width := elem_lt_fmt x ht x.a j
  have hinf (s : Bool) (h : a = infinity f s) : x.num x.a j = .inf s := by
    have hdec := decode_inf hw.ok ha (h ▸ isInf_infinity hw s)
    rwa [show signCode f a = s from h ▸ signCode_infinity hw s] at hdec
  refine ⟨fun hnan => ?_, fun hfin hA => ?_, fun hfin hA => ?_, fun hi => ?_, fun h => ?_, fun h => ?_, fun hnan hA => ?_, fun n hfin hA => ?_,
    fun n hfin hA => ?_⟩
  · simp only [List.forall_mem_cons, List.not_mem_nil, false_imp_iff, implies_true, and_true]
    exact ⟨resultAt_trans_nan x ht hj hon hnan, resultAt_trans_nan x ht hj hon hnan, resultAt_trans_nan x ht hj hon hnan,
      resultAt_trans_nan x ht hj hon hnan⟩
  · obtain ⟨s, m, e, hdec, hval, -⟩ := decode_fin hfin
    have hm : m ≠ 0 := fun h => hA (hval.trans (val_fin_eq_zero.mpr h))
    rw [resultAt_vRcp_fin x ht hj hon hm hdec]
    have h := roundsTo_encWide (n := 1) (e := -e) (neg := s) (neg0 := false) (md := .rne) hw (Nat.pos_of_ne_zero hm) nofun
      fun h => absurd h one_ne_zero
    have hrec : 1 / A = (if s then -1 else 1) * (((1 : Nat) : ℚ) / m * 2 ^ (-e)) := by
      rw [show A = _ from hval, Num.val, zpow_neg]
      cases s <;> simp [div_eq_mul_inv, mul_comm]
    rwa [hrec]
  · obtain ⟨s, m, e, hdec, hval, hs⟩ := decode_fin hfin
    obtain rfl : m = 0 := val_fin_eq_zero.mp (hval.symm.trans hA)
    obtain rfl := hs (.inr rfl)
    exact ⟨resultAt_vRcp_zero x ht hj hon hdec, resultAt_vRsq_zero x ht hj hon hdec, resultAt_vLog2_zero x ht hj hon hdec⟩
  · exact resultAt_vRcp_inf x ht hj hon (decode_inf hw.ok ha hi)
  · exact ⟨resultAt_vRsq_inf x ht hj hon (hinf _ h), resultAt_vExp2_inf x ht hj hon (hinf _ h), resultAt_vLog2_inf x ht hj hon (hinf _ h)⟩
  · exact resultAt_vExp2_neg_inf x ht hj hon (hinf _ h)
  · have hsign := signCode_of_neg hw ha hA
    have hdec : x.num x.a j = .inf true ∨ ∃ m e, m ≠ 0 ∧ x.num x.a j = .fin true m e := by
      obtain ⟨hno, -⟩ | ⟨-, -, -, hd, -⟩ | ⟨-, -, -, m, e, hd, hv⟩ := code_cases hw ha
      · exact absurd (hnan.symm.trans hno) Bool.false_ne_true
      · exact .inl (hsign ▸ hd)
      · rw [hsign] at hd hv
        exact .inr ⟨m, e, fun h => hA.ne (hv.trans (val_fin_eq_zero.mpr h)), hd⟩
    obtain ⟨⟨h1, h2⟩, h3, h4⟩ := root_log_negative x ht hj hon hdec
    exact ⟨h1, h2, h3, h4⟩
  · obtain ⟨s, m, e, hdec, hval, -⟩ := decode_fin hfin
    have hr := roundsTo_exp2Fin hl (hval.symm.trans hA)
    rw [resultAt_vExp2_fin x ht hj hon hdec (roundsTo_lt hw.ok hr)]
    exact hr
  · obtain ⟨s, m, e, hdec, hval, hs⟩ := decode_fin hfin
    have hpos : 0 < A := hA ▸ zpow_pos two_pos n
    obtain rfl : s = false := (hs (.inl hw.e_ne)).trans (signCode_of_pos hw ha hpos)
    have hm : m ≠ 0 := fun h => hpos.ne' (hval.trans (val_fin_eq_zero.mpr h))
    have hr := roundsTo_log2Fin hl (hval.symm.trans hA)
    rw [resultAt_vLog2_fin x ht hj hon hm hdec (roundsTo_lt hw.ok hr)]
    exact hr

omit x ht hj hon in
/-- The midpoints between a magnitude and the others, as the codes have them. -/
theorem root_code {f : Fmt} (hw : f.Wide) {A : ℚ} {C : Nat} (hC : C ≤ f.lim false) (hnear : ∀ C',
      (C' < C → f.mid C C' * f.mid C C' * A < 1 ∨ f.mid C C' * f.mid C C' * A = 1 ∧ C % 2 = 0) ∧
      (C < C' → 1 < f.mid C C' * f.mid C C' * A ∨ f.mid C C' * f.mid C C' * A = 1 ∧ C % 2 = 0)) :
    let r := f.idxCode false C
    finiteCode f r = true ∧ signCode f r = false ∧ ∀ c', finiteCode f c' = true → signCode f c' = false →
      let mid := (codeVal f r + codeVal f c') / 2
      (codeVal f c' < codeVal f r → mid * mid * A < 1 ∨ mid * mid * A = 1 ∧ r % 2 = 0) ∧
      (codeVal f r < codeVal f c' → 1 < mid * mid * A ∨ mid * mid * A = 1 ∧ r % 2 = 0) := by
  intro r
  obtain ⟨hfin, hval, hpar⟩ := idxCode_finite hw.ok (neg := false) nofun hC
  refine ⟨hfin, ?_, fun c' hc' hs' => ?_⟩
  · change signCode f (f.idxCode false C) = false
    rw [idxCode_wide hw]
    exact signCode_raw (neg := false) hw.e_ne nofun (hC.trans_lt (lim_lt hw.e_ne false))
  · obtain ⟨neg, C', -, rfl, hsign, hval'⟩ := exists_raw_finite hw hc'
    obtain rfl : neg = false := hsign.symm.trans hs'
    have hmid : (f.real false (f.mag C) + f.real false (f.mag C')) / 2 = f.mid C C' := by
      rw [Fmt.real, Fmt.real, Fmt.mid]
      simp only [Bool.false_eq_true, if_false, one_mul]
      ring
    simp only [r, hval, hval', hpar, idxVal_real, real_false_lt, mag_cast_lt, hmid]
    exact hnear C'

/-- R196: the reciprocal square root of a number above 0 on an active lane. -/
theorem lane_root :
    let f := ltFmt x.t
    let a := elem (ltW x.t) x.a j
    let A := codeVal f a
    let r := resultAt x (vRsq x) j
    finiteCode f a = true → 0 < A →
      finiteCode f r = true ∧ signCode f r = false ∧ ∀ c', finiteCode f c' = true → signCode f c' = false →
        let mid := (codeVal f r + codeVal f c') / 2
        (codeVal f c' < codeVal f r → mid * mid * A < 1 ∨ mid * mid * A = 1 ∧ r % 2 = 0) ∧
        (codeVal f r < codeVal f c' → 1 < mid * mid * A ∨ mid * mid * A = 1 ∧ r % 2 = 0) := by
  intro f a A r hfin hpos
  have hl := ltFmt_lane x.t
  have hw := hl.wide
  have ha : a < 2 ^ f.width := elem_lt_fmt x ht x.a j
  obtain ⟨s, m, e, hdec, hval, hs⟩ := decode_fin hfin
  obtain rfl : s = false := (hs (.inl hw.e_ne)).trans (signCode_of_pos hw ha hpos)
  have hm : m ≠ 0 := fun h => hpos.ne' (hval.trans (val_fin_eq_zero.mpr h))
  obtain ⟨hm24, he⟩ := decode_bounds hl ha hdec
  obtain ⟨C, hC, henc, hnear⟩ := rsqFin_spec hl (Nat.pos_of_ne_zero hm) hm24 he
  have hfinr := (idxCode_finite hw.ok (neg := false) nofun hC).1
  have hr : r = f.idxCode false C := by
    rw [← henc]
    exact resultAt_vRsq_fin x ht hj hon hm hdec (henc ▸ lt_of_finiteCode hfinr)
  have hA : A = m * 2 ^ e := by
    rw [show A = _ from hval]
    simp [Num.val]
  rw [hr, hA]
  exact root_code hw hC hnear

end

/-! ## Inactive lanes and the invalid event -/

section
variable (x : VIn) {j : Nat} (hj : j < ltN x.t)
include hj

omit hj in
theorem compareOp_inv (p : Nat → Nat → Bool) : (compareOp x p).inv = (elementwise x fun a b _ =>
    (if p a b then 2 ^ ltW x.t - 1 else 0, ltFloat x.t && ((fdec x.t a).isSig || (fdec x.t b).isSig))).inv := rfl

theorem compareOp_inactive (p : Nat → Nat → Bool) (hoff : x.act j = false) : resultAt x (compareOp x p) j = elem (ltW x.t) x.c j :=
  resultAt_inactive x (g := fun a b _ => (if p a b then 2 ^ ltW x.t - 1 else 0, ltFloat x.t && ((fdec x.t a).isSig || (fdec x.t b).isSig))) hj hoff

/-- R190: an inactive lane takes v.o2. -/
theorem lane_inactive (hoff : x.act j = false) :
    ∀ g ∈ [vAdd, vSub, vMul, vMad, vMin, vMax, vAbs, vNeg, vAnd, vOr, vXor, vCmpeq, vCmplt, vCmple, vSel, vShuf, vBcast, vRcp, vRsq, vExp2, vLog2],
      resultAt x (g x) j = elem (ltW x.t) x.c j := by
  have h {g} : resultAt x (elementwise x g) j = elem (ltW x.t) x.c j := resultAt_inactive x hj hoff
  have hc {p} : resultAt x (compareOp x p) j = elem (ltW x.t) x.c j := compareOp_inactive x hj p hoff
  simp only [List.forall_mem_cons, List.not_mem_nil, false_imp_iff, implies_true, and_true]
  exact ⟨h, h, h, h, h, h, h, h, h, h, h, hc, hc, hc, h, h, h, h, h, h, h⟩

end

section
variable (x : VIn) (ht : x.t = 6 ∨ x.t = 7)
include ht

omit ht in
theorem elementwise_inv_false {g : Nat → Nat → Nat → Nat × Bool} (h : ∀ j, j < ltN x.t → x.act j = true →
    (g (elem (ltW x.t) x.a j) (elem (ltW x.t) x.b j) (elem (ltW x.t) x.c j)).2 = false) : (elementwise x g).inv = false := by
  rw [← Bool.not_eq_true, elementwise_inv]
  rintro ⟨j, hj, hon, htrue⟩
  exact Bool.false_ne_true ((h j hj hon).symm.trans htrue)

omit ht in
theorem transElem_inv_false {g : Num → Num × Bool} {a : Nat} {s : Bool} {m : Nat} {e : Int} (h : decode (ltFmt x.t) a = .fin s m e)
    (hg : (g (.fin s m e)).2 = false) : (transElem x.t a g).2 = false := by
  rw [transElem_of_decode h rfl, hg]

/-- R68: finite operands raise no invalid event in these functions. -/
theorem lanes_valid (hfin : ∀ n, n < ltN x.t → x.act n = true → finiteCode (ltFmt x.t) (elem (ltW x.t) x.a n) = true ∧
      finiteCode (ltFmt x.t) (elem (ltW x.t) x.b n) = true ∧ finiteCode (ltFmt x.t) (elem (ltW x.t) x.c n) = true) :
    ∀ g ∈ [vAdd, vSub, vMul, vMad, vMin, vMax, vAbs, vNeg, vCmpeq, vCmplt, vCmple, vRcp, vExp2], (g x).inv = false := by
  have hfl := ltFloat_float ht
  have hall {g : Nat → Nat → Nat → Nat × Bool} (hg : ∀ a b c, (∃ s m e, fdec x.t a = .fin s m e) → (∃ s m e, fdec x.t b = .fin s m e) →
      (∃ s m e, fdec x.t c = .fin s m e) → (g a b c).2 = false) : (elementwise x g).inv = false :=
    elementwise_inv_false x fun j hj hon => by
      obtain ⟨ha, hb, hc⟩ := hfin j hj hon
      obtain ⟨s, m, e, hda, -⟩ := decode_fin ha
      obtain ⟨s', m', e', hdb, -⟩ := decode_fin hb
      obtain ⟨s'', m'', e'', hdc, -⟩ := decode_fin hc
      exact hg _ _ _ ⟨s, m, e, hda⟩ ⟨s', m', e', hdb⟩ ⟨s'', m'', e'', hdc⟩
  have hcmp {p : Nat → Nat → Bool} : (compareOp x p).inv = false := by
    rw [compareOp_inv]
    refine hall fun a b c ⟨s, m, e, ha⟩ ⟨s', m', e', hb⟩ _ => ?_
    simp only [ha, hb, Num.isSig, Bool.or_self, Bool.and_false]
  have hmin {mx : Bool} : (elementwise x fun a b _ => minElem x.t mx a b).inv = false := by
    refine hall fun a b c ⟨s, m, e, ha⟩ ⟨s', m', e', hb⟩ _ => ?_
    simp only [minElem, hfl, if_true, ha, hb, Num.isNan, Bool.or_self, Bool.false_eq_true, if_false]
  simp only [List.forall_mem_cons, List.not_mem_nil, false_imp_iff, implies_true, and_true]
  refine ⟨?_, ?_, ?_, ?_, hmin, hmin, ?_, ?_, hcmp, hcmp, hcmp, ?_, ?_⟩
  · refine hall fun a b c ⟨s, m, e, ha⟩ ⟨s', m', e', hb⟩ _ => ?_
    simp only [hfl, if_true, ha, hb, roundElem, Num.add]
  · refine hall fun a b c ⟨s, m, e, ha⟩ ⟨s', m', e', hb⟩ _ => ?_
    simp only [hfl, if_true, ha, hb, roundElem, Num.neg, Num.add]
  · refine hall fun a b c ⟨s, m, e, ha⟩ ⟨s', m', e', hb⟩ _ => ?_
    simp only [hfl, if_true, ha, hb, roundElem, Num.mul]
  · refine hall fun a b c ⟨s, m, e, ha⟩ ⟨s', m', e', hb⟩ ⟨s'', m'', e'', hc⟩ => ?_
    simp only [hfl, if_true, ha, hb, hc, roundElem, Num.fma, Num.mul, Num.add, Bool.or_self]
  · refine hall fun a b c ⟨s, m, e, ha⟩ _ _ => ?_
    simp only [hfl, if_true, ha, Num.isNan, Bool.false_eq_true, if_false]
  · refine hall fun a b c ⟨s, m, e, ha⟩ _ _ => ?_
    simp only [hfl, if_true, ha, Num.isNan, Bool.false_eq_true, if_false]
  · refine hall fun a b c ⟨s, m, e, ha⟩ _ _ => transElem_inv_false x ha ?_
    cases m <;> rfl
  · exact hall fun a b c ⟨s, m, e, ha⟩ _ _ => transElem_inv_false x ha rfl

/-- R67, R68: a signalling operand is an invalid event. -/
theorem lanes_invalid {j : Nat} (hj : j < ltN x.t) (hon : x.act j = true) (hsig : signalling (ltFmt x.t) (elem (ltW x.t) x.a j) = true) :
    ∀ g ∈ [vAdd, vSub, vMul, vMad, vMin, vMax, vAbs, vNeg, vCmpeq, vCmplt, vCmple, vRcp, vRsq, vExp2, vLog2], (g x).inv = true := by
  have hfl := ltFloat_float ht
  have hl := ltFmt_lane x.t
  have hnan : nanCode (ltFmt x.t) (elem (ltW x.t) x.a j) = true := by
    rw [signalling, Bool.and_eq_true] at hsig
    exact hsig.1
  have ha : fdec x.t (elem (ltW x.t) x.a j) = .nan true := by
    rw [fdec, decode_signalling hl.wide (lane_params hl).2.1 (elem_lt_fmt x ht x.a j) hnan, hsig]
  have hone {g : Nat → Nat → Nat → Nat × Bool} (hg : ∀ b c, (g (elem (ltW x.t) x.a j) b c).2 = true) : (elementwise x g).inv = true :=
    (elementwise_inv x).mpr ⟨j, hj, hon, hg _ _⟩
  have hcmp {p : Nat → Nat → Bool} : (compareOp x p).inv = true := by
    rw [compareOp_inv]
    exact hone fun b c => by simp only [ha, hfl, Num.isSig, Bool.true_or, Bool.and_self]
  have hmin {mx : Bool} : (elementwise x fun a b _ => minElem x.t mx a b).inv = true :=
    hone fun b c => by simp only [minElem, hfl, if_true, ha, Num.isNan, Num.isSig, Bool.true_or]
  have htrans {g : Num → Num × Bool} : (elementwise x fun a _ _ => transElem x.t a g).inv = true :=
    hone fun b c => by simp only [transElem, ha]
  have hadd (y : Num) : (Num.add (.nan true) y).2 = true := by cases y <;> rfl
  have hmul (y : Num) : (Num.mul (.nan true) y).2 = true := by cases y <;> rfl
  simp only [List.forall_mem_cons, List.not_mem_nil, false_imp_iff, implies_true, and_true]
  refine ⟨hone fun b c => ?_, hone fun b c => ?_, hone fun b c => ?_, hone fun b c => ?_, hmin, hmin, hone fun b c => ?_, hone fun b c => ?_,
    hcmp, hcmp, hcmp, htrans, htrans, htrans, htrans⟩
  · simp only [hfl, if_true, ha, roundElem, hadd]
  · simp only [hfl, if_true, ha, roundElem, hadd]
  · simp only [hfl, if_true, ha, roundElem, hmul]
  · simp only [hfl, if_true, ha, roundElem, Num.fma, hmul, Bool.true_or]
  · simp only [hfl, if_true, ha, Num.isNan, Num.isSig]
  · simp only [hfl, if_true, ha, Num.isNan, Num.isSig]

end

/-- R190, R193, R195, R196, R67, R68. -/
theorem floatFunctionsRoundOnce : FloatFunctionsRoundOnce := by
  intro x j ht hj
  have hact (n : Nat) : x.active.testBit (n * ltW x.t / 32) = x.act n := (act_eq x n).symm
  simp only [hact]
  refine ⟨fun hon => ?_, lane_inactive x hj, lanes_valid x ht, fun hon hsig => lanes_invalid x ht hj hon hsig⟩
  have ha := elem_lt_fmt x ht x.a j
  have hb := elem_lt_fmt x ht x.b j
  obtain ⟨h1, h2, h3, h4, h5⟩ := lane_arithmetic x ht hj hon
  obtain ⟨h6, h7, h8, h9, h10, h11⟩ := lane_compare x ht hj hon
  obtain ⟨h12, h13, h14, h15, h16, h17⟩ := lane_patterns x hj hon
  obtain ⟨h18, h19, h20, h21, h22, h23, h24, h25, h26⟩ := lane_functions x ht hj hon
  have hmin := lesserIs_minElem ht ha hb
  have hmax := greaterIs_minElem ht ha hb
  rw [← resultAt_vMin x ht hj hon] at hmin
  rw [← resultAt_vMax x ht hj hon] at hmax
  exact ⟨h1, h2, h3, h4, h5, hmin, hmax, resultAt_vAbs x ht hj hon, resultAt_vNeg x ht hj hon, h6, h7, h8, h9, h10, h11, h12, h13, h14, h15, h16,
    h17, h18, h19, h20, h21, h22, h23, h24, lane_root x ht hj hon, h25, h26⟩

end Sys2Proof.Machine
end

section
/-! O20, second part: reductions and scans (R87, R88, R197, R198). -/

namespace Sys2Proof.Machine

open Sys2Proof.Claims

/-! ## The operation that ROP names -/

/-- The sum of two codes is one code. -/
theorem sumIs_unique {f : Fmt} (hw : f.Wide) {a b r r' : Nat} (ha : a < 2 ^ f.width) (hb : b < 2 ^ f.width) (h : SumIs f a b r)
    (h' : SumIs f a b r') : r = r' := by
  obtain ⟨h1, h2, h3, h4, h5⟩ := h
  obtain ⟨h1', h2', h3', h4', h5'⟩ := h'
  obtain ⟨hna, -⟩ | ⟨-, hia, -⟩ | ⟨-, -, hfa, -⟩ := code_cases hw ha
  · rw [h1 (.inl hna), h1' (.inl hna)]
  all_goals obtain ⟨hnb, -⟩ | ⟨-, hib, -⟩ | ⟨-, -, hfb, -⟩ := code_cases hw hb
  · rw [h1 (.inr hnb), h1' (.inr hnb)]
  · rw [h2 hia hib, h2' hia hib]
  · rw [h3 hia hfb, h3' hia hfb]
  · rw [h1 (.inr hnb), h1' (.inr hnb)]
  · rw [h4 hfa hib, h4' hfa hib]
  · exact roundsTo_unique hw.ok (h5 hfa hfb) (h5' hfa hfb)

section
variable (x : VIn)

theorem ltW_pos (t : Nat) : 0 < ltW t := by
  obtain h | h | h := ltW_cases t <;> omega

theorem two_pow_ltW (t : Nat) : 2 ^ ltW t = 2 * 2 ^ (ltW t - 1) := by
  rw [← pow_succ', Nat.sub_add_cancel (ltW_pos t)]

theorem signed_of_lt {e w : Nat} (he : e < 2 ^ w) : signed e w = if 2 ^ (w - 1) ≤ e then (e : Int) - 2 ^ w else e := by
  rw [signed, Nat.mod_eq_of_lt he]
  have hcast : ((2 ^ w : Nat) : Int) = 2 ^ w := by push_cast; rfl
  rw [hcast]
  by_cases h : e < 2 ^ (w - 1)
  · rw [if_pos h, if_neg (by omega)]
  · rw [if_neg h, if_pos (by omega)]

theorem ltInt_eq {e : Nat} (he : e < 2 ^ ltW x.t) : ltInt x.t e = asInt x e := by
  rw [ltInt, asInt, signed_of_lt he]
  cases ltSigned x.t <;> simp

theorem satS_eq (r : Int) (w : Nat) : satS r w = (max (-(2 ^ (w - 1) : Int)) (min (2 ^ (w - 1) - 1) r) % 2 ^ w).toNat := by
  have hp : (0 : Int) < 2 ^ (w - 1) := by positivity
  have hclamp : (if r < -((2 ^ (w - 1) : Nat) : Int) then -((2 ^ (w - 1) : Nat) : Int)
      else if ((2 ^ (w - 1) : Nat) : Int) ≤ r then ((2 ^ (w - 1) : Nat) : Int) - 1 else r) = max (-(2 ^ (w - 1) : Int)) (min (2 ^ (w - 1) - 1) r) := by
    push_cast
    split_ifs <;> omega
  rw [satS, wrapU, hclamp]
  push_cast
  rfl

theorem satU_eq (r : Int) (w : Nat) : satU r w = (max 0 (min (2 ^ w - 1) r) % 2 ^ w).toNat := by
  have hp : (0 : Int) < 2 ^ w := by positivity
  have hcast : ((2 ^ w : Nat) : Int) = 2 ^ w := by push_cast; rfl
  rw [Int.emod_eq_of_lt (le_max_left _ _) (by omega), satU]
  split_ifs <;> omega

theorem narrow_eq (r : Int) : narrow x r = narrowed x r := by
  rw [narrow, narrowed, VIn.sat, bitAt_toNat]
  by_cases hsat : x.ctl.getLsbD 63 = true
  · simp only [hsat, if_true]
    by_cases hs : ltSigned x.t = true
    · simp only [hs, if_true]
      exact satS_eq r _
    · simp only [hs]
      exact satU_eq r _
  · simp only [hsat]
    rw [wrapU]
    push_cast
    rfl

/-- A float type is one of the two lane formats, an integer type none. -/
theorem float_or_integer (h8 : x.t < 8) : (x.t = 6 ∨ x.t = 7) ∧ ¬x.t < 6 ∨ ltFloat x.t = false ∧ x.t < 6 := by
  by_cases h : x.t < 6
  · exact .inr ⟨by simp [ltFloat]; omega, h⟩
  · exact .inl ⟨by omega, h⟩

/-- The operation of ROP on two elements is the one that `Combines` describes. -/
theorem ropApply_of_combines (h8 : x.t < 8) {a b r : Nat} (ha : a < 2 ^ ltW x.t) (hb : b < 2 ^ ltW x.t) (h : Combines x a b r) :
    (ropApply x (x.ctl.toNat % 16) a b).1 = r := by
  rw [Combines] at h
  generalize x.ctl.toNat % 16 = rop at h ⊢
  obtain ⟨ht, hn6⟩ | ⟨hfl, h6⟩ := float_or_integer x h8
  · have hw := ltFmt_wide x.t
    have ha' : a < 2 ^ (ltFmt x.t).width := ltW_float ht ▸ ha
    have hb' : b < 2 ^ (ltFmt x.t).width := ltW_float ht ▸ hb
    match rop with
    | 0 =>
      simp only [hn6, if_false] at h
      have hadd : (ropApply x 0 a b).1 = encWide (ltFmt x.t) (roundNum (ltFmt x.t) .rne (Num.add (decode (ltFmt x.t) a) (decode (ltFmt x.t) b)).1) := by
        simp only [ropApply, ltFloat_float ht, if_true]
        rfl
      rw [hadd]
      exact sumIs_unique hw ha' hb' (sumIs_add hw ha' hb') h
    | 1 =>
      simp only [hn6, if_false] at h
      exact (lesserIs_minElem ht ha' hb').trans h.symm
    | 2 =>
      simp only [hn6, if_false] at h
      exact (greaterIs_minElem ht ha' hb').trans h.symm
    | 3 => exact h.symm
    | 4 => exact h.symm
    | _ + 5 => exact h.symm
  · match rop with
    | 0 =>
      simp only [h6, if_true] at h
      rw [h, ropApply, hfl, ltInt_eq x ha, ltInt_eq x hb, narrow_eq]
      rfl
    | 1 =>
      simp only [h6, if_true] at h
      rw [h, ropApply, minElem, hfl, ltInt_eq x ha, ltInt_eq x hb]
      simp
    | 2 =>
      simp only [h6, if_true] at h
      rw [h, ropApply, minElem, hfl, ltInt_eq x ha, ltInt_eq x hb]
      simp
    | 3 => exact h.symm
    | 4 => exact h.symm
    | _ + 5 => exact h.symm

/-- The empty value of R197, and that it is an element. -/
theorem ropEmpty_eq (h8 : x.t < 8) : ropEmpty x.t (x.ctl.toNat % 16) = emptyOf x ∧ emptyOf x < 2 ^ ltW x.t := by
  have h2 := two_pow_ltW x.t
  have hp := Nat.two_pow_pos (ltW x.t - 1)
  have hfl : ltFloat x.t = decide (6 ≤ x.t) := by
    rw [ltFloat, Bool.eq_iff_iff]
    simp
    omega
  have hinf (s : Bool) (h : 6 ≤ x.t) : infinity (ltFmt x.t) s < 2 ^ ltW x.t := lane_lt x (by omega) (infinity_lt (ltFmt_wide x.t) s)
  rw [emptyOf]
  generalize x.ctl.toNat % 16 = rop
  match rop with
  | 0 => exact ⟨rfl, Nat.two_pow_pos _⟩
  | 1 =>
    simp only [ropEmpty, hfl, decide_eq_true_eq]
    refine ⟨rfl, ?_⟩
    by_cases h : 6 ≤ x.t
    · rw [if_pos h]
      exact hinf false h
    · rw [if_neg h]
      split <;> omega
  | 2 =>
    simp only [ropEmpty, hfl, decide_eq_true_eq]
    refine ⟨rfl, ?_⟩
    by_cases h : 6 ≤ x.t
    · rw [if_pos h]
      exact hinf true h
    · rw [if_neg h]
      split <;> omega
  | 3 => exact ⟨rfl, by simp only; omega⟩
  | _ + 4 => exact ⟨rfl, Nat.two_pow_pos _⟩

end

/-! ## The tree -/

/-- The node of the tree with its flag, as `redCombine` joins it. -/
def redNode (x : VIn) (rop : Nat) (el : Nat → Option (Nat × Bool)) : Nat → Nat → Option (Nat × Bool)
  | 0, i => el i
  | d + 1, i => redCombine x rop (redNode x rop el d (2 * i)) (redNode x rop el d (2 * i + 1))

section
variable (x : VIn) (rop : Nat)

theorem redLevel_range (n : Nat) (g : Nat → Option (Nat × Bool)) :
    redLevel x rop ((List.range (2 * n)).map g) = (List.range n).map fun i => redCombine x rop (g (2 * i)) (g (2 * i + 1)) := by
  induction n generalizing g with
  | zero => rfl
  | succ n ih =>
    have hsplit : (List.range (2 * (n + 1))).map g = g 0 :: g 1 :: (List.range (2 * n)).map fun i => g (i + 2) := by
      rw [Nat.mul_succ, List.range_succ_eq_map, List.range_succ_eq_map]
      simp [Function.comp_def]
    rw [hsplit, redLevel, ih, List.range_succ_eq_map]
    simp [Function.comp_def, Nat.mul_add]

theorem iter_redLevel (el : Nat → Option (Nat × Bool)) (k l r : Nat) :
    iter (redLevel x rop) k ((List.range (2 ^ (k + r))).map (redNode x rop el l)) = (List.range (2 ^ r)).map (redNode x rop el (l + k)) := by
  induction k generalizing l with
  | zero => rw [Nat.zero_add]; rfl
  | succ k ih =>
    rw [iter, show 2 ^ (k + 1 + r) = 2 * 2 ^ (k + r) by rw [← pow_succ', Nat.add_right_comm], redLevel_range]
    have h := ih (l + 1)
    rw [Nat.add_right_comm, Nat.add_assoc] at h
    exact h

theorem iter_redLevel_single (k : Nat) (a : Option (Nat × Bool)) : iter (redLevel x rop) k [a] = [a] := by
  induction k with
  | zero => rfl
  | succ k ih => exact ih

theorem iter_add {α : Type} (g : α → α) (m n : Nat) (a : α) : iter g (m + n) a = iter g n (iter g m a) := by
  induction m generalizing a with
  | zero => rw [Nat.zero_add]; rfl
  | succ m ih => rw [Nat.succ_add, iter, ih, iter]

/-- Eight levels reach the root of a tree of 2^d leaves. -/
theorem iter_redLevel_root {d : Nat} (hd : d ≤ 8) (el : Nat → Option (Nat × Bool)) :
    iter (redLevel x rop) 8 ((List.range (2 ^ d)).map el) = [redNode x rop el d 0] := by
  have h := iter_redLevel x rop el d 0 0
  rw [Nat.add_zero, Nat.zero_add] at h
  rw [← Nat.add_sub_cancel' hd, iter_add]
  have hstart : (List.range (2 ^ d)).map el = (List.range (2 ^ d)).map (redNode x rop el 0) := rfl
  rw [hstart, h]
  exact iter_redLevel_single x rop _ _

end

section
variable {x : VIn} {f : Nat → Nat → Nat} (h8 : x.t < 8)
  (hf : ∀ a b, a < 2 ^ ltW x.t → b < 2 ^ ltW x.t → f a b < 2 ^ ltW x.t ∧ Combines x a b (f a b))
include h8 hf

/-- The nodes of the tree, without their flags. -/
theorem redNode_map {el : Nat → Option (Nat × Bool)} (hel : ∀ i p, el i = some p → p.1 < 2 ^ ltW x.t) (d i : Nat) :
    (redNode x (x.ctl.toNat % 16) el d i).map Prod.fst = treeNode f (fun i => (el i).map Prod.fst) d i ∧
      ∀ p, redNode x (x.ctl.toNat % 16) el d i = some p → p.1 < 2 ^ ltW x.t := by
  induction d generalizing i with
  | zero => exact ⟨rfl, hel i⟩
  | succ d ih =>
    obtain ⟨hl, hlb⟩ := ih (2 * i)
    obtain ⟨hr, hrb⟩ := ih (2 * i + 1)
    rw [redNode, treeNode, ← hl, ← hr]
    cases hp : redNode x (x.ctl.toNat % 16) el d (2 * i) with
    | none =>
      refine ⟨?_, fun p h => hrb p h⟩
      rfl
    | some p =>
      cases hq : redNode x (x.ctl.toNat % 16) el d (2 * i + 1) with
      | none =>
        refine ⟨rfl, fun r h => ?_⟩
        obtain rfl : p = r := Option.some.inj h
        exact hlb p hp
      | some q =>
        obtain ⟨hlt, hc⟩ := hf p.1 q.1 (hlb p hp) (hrb q hq)
        have hop := ropApply_of_combines x h8 (hlb p hp) (hrb q hq) hc
        refine ⟨congrArg some hop, fun r h => ?_⟩
        obtain rfl := (Option.some.inj h).symm
        exact hop ▸ hlt

/-- R87, R197: a reduction. -/
theorem vRed_tree {d : Nat} (hd : 2 ^ d = ltN x.t) :
    let r := (treeNode f (fun i => if x.act i then some (elem (ltW x.t) x.a i) else none) d 0).getD (emptyOf x)
    (∀ j, j < 2 ^ d → resultAt x (vRed x) j = r) ∧
      (vRed x).s = some (if ltSigned x.t = true ∧ 2 ^ (ltW x.t - 1) ≤ r then BitVec.ofInt 64 ((r : Int) - 2 ^ ltW x.t) else BitVec.ofNat 64 r) := by
  intro r
  have hd8 : d ≤ 8 := by
    have hN : ltN x.t ≤ 2 ^ 8 := by
      rw [ltN]
      obtain h | h | h := ltW_cases x.t <;> rw [h] <;> decide
    exact (Nat.pow_le_pow_iff_right one_lt_two).mp (hd ▸ hN)
  set el : Nat → Option (Nat × Bool) := fun i => if x.act i then some (elem (ltW x.t) x.a i, false) else none with hel
  obtain ⟨hempty, hemptylt⟩ := ropEmpty_eq x h8
  have hbound : ∀ i p, el i = some p → p.1 < 2 ^ ltW x.t := fun i p h => by
    simp only [hel] at h
    split at h
    · rw [← Option.some.inj h]
      exact elem_lt _ _ _
    · exact absurd h (by simp)
  obtain ⟨hmap, hlt⟩ := redNode_map h8 hf hbound d 0
  have hleaf : (fun i => (el i).map Prod.fst) = fun i => if x.act i then some (elem (ltW x.t) x.a i) else none := by
    funext i
    simp only [hel]
    split <;> rfl
  rw [hleaf] at hmap
  have hrdef : r = ((redNode x (x.ctl.toNat % 16) el d 0).map Prod.fst).getD (emptyOf x) := by rw [hmap]
  have hroot : (((iter (redLevel x (x.ctl.toNat % 16)) 8 ((List.range (ltN x.t)).map el)).headD none).getD (ropEmpty x.t (x.ctl.toNat % 16), false)).1 = r := by
    rw [← hd, iter_redLevel_root x _ hd8, List.headD_cons, hempty, hrdef]
    cases redNode x (x.ctl.toNat % 16) el d 0 <;> rfl
  have hrlt : r < 2 ^ ltW x.t := by
    rw [hrdef]
    cases hn : redNode x (x.ctl.toNat % 16) el d 0 with
    | none => exact hemptylt
    | some p => exact hlt p hn
  have hfld : fld x.ctl.toNat 3 0 = x.ctl.toNat % 16 := fld_low _ _
  have hr : (vRed x).r = some (pack (ltW x.t) (List.replicate (ltN x.t) r)) := by
    simp only [vRed, hfld]
    rw [hroot]
  have hs : (vRed x).s = some (if ltSigned x.t then BitVec.ofInt 64 (signed r (ltW x.t)) else u64 r) := by
    simp only [vRed, hfld]
    rw [hroot]
  refine ⟨fun j hj => ?_, ?_⟩
  · rw [hd] at hj
    rw [resultAt_pack x hr hj, List.getD_eq_getElem _ _ (by simpa using hj), List.getElem_replicate, Nat.mod_eq_of_lt hrlt]
  · rw [hs, signed_of_lt hrlt]
    by_cases hsg : ltSigned x.t = true
    · by_cases hge : 2 ^ (ltW x.t - 1) ≤ r
      · rw [if_pos hsg, if_pos hge, if_pos ⟨hsg, hge⟩]
      · rw [if_pos hsg, if_neg hge, if_neg fun h => hge h.2, BitVec.ofInt_natCast]
    · rw [if_neg hsg, if_neg fun h => hsg h.1]
      rfl

/-! ## The scan -/

omit h8 hf in
theorem scanLevel_getD (rop k : Nat) (y : List (Nat × Bool)) {i : Nat} (hi : i < y.length) :
    ((scanLevel x rop k y).getD i (0, false)).1 =
      if i < k then (y.getD i (0, false)).1 else (ropApply x rop (y.getD (i - k) (0, false)).1 (y.getD i (0, false)).1).1 := by
  rw [scanLevel, List.getD_eq_getElem _ _ (by simpa using hi), List.getElem_map, List.getElem_range]
  split <;> rfl

omit h8 hf in
theorem length_scanLevel (rop k : Nat) (y : List (Nat × Bool)) : (scanLevel x rop k y).length = y.length := by
  rw [scanLevel, List.length_map, List.length_range]

/-- The doubling scan after d levels. -/
theorem scan_levels {y : List (Nat × Bool)} {el : Nat → Nat} (hy : ∀ i, i < y.length → (y.getD i (0, false)).1 = el i ∧ el i < 2 ^ ltW x.t) (d : Nat) :
    let z := ((List.range d).map (2 ^ ·)).foldl (fun y k => scanLevel x (x.ctl.toNat % 16) k y) y
    z.length = y.length ∧ ∀ i, i < y.length → (z.getD i (0, false)).1 = scanned f el d i ∧ scanned f el d i < 2 ^ ltW x.t := by
  induction d with
  | zero => exact ⟨rfl, hy⟩
  | succ d ih =>
    obtain ⟨hlen, hval⟩ := ih
    simp only [List.range_succ, List.map_append, List.foldl_append, List.map_cons, List.map_nil, List.foldl_cons, List.foldl_nil]
    generalize ((List.range d).map (2 ^ ·)).foldl (fun y k => scanLevel x (x.ctl.toNat % 16) k y) y = z at hlen hval
    refine ⟨(length_scanLevel _ _ _).trans hlen, fun i hi => ?_⟩
    obtain ⟨hi1, hi2⟩ := hval i hi
    rw [scanLevel_getD _ _ _ (hlen ▸ hi), scanned, hi1]
    by_cases hlt : i < 2 ^ d
    · rw [if_pos hlt, if_pos hlt]
      exact ⟨rfl, hi2⟩
    · obtain ⟨hp1, hp2⟩ := hval (i - 2 ^ d) ((Nat.sub_le _ _).trans_lt hi)
      obtain ⟨hb, hc⟩ := hf _ _ hp2 hi2
      rw [if_neg hlt, if_neg hlt, hp1, ropApply_of_combines x h8 hp2 hi2 hc]
      exact ⟨rfl, hb⟩

omit h8 hf in
theorem scan_distances {d : Nat} (hd : 2 ^ d = ltN x.t) :
    (if ltN x.t = 64 then [1, 2, 4, 8, 16, 32] else if ltN x.t = 128 then [1, 2, 4, 8, 16, 32, 64] else [1, 2, 4, 8, 16, 32, 64, 128]) =
      (List.range d).map (2 ^ ·) := by
  have hcase : ltN x.t = 2 ^ 6 ∨ ltN x.t = 2 ^ 8 ∨ ltN x.t = 2 ^ 7 := by
    rw [ltN]
    obtain h | h | h := ltW_cases x.t <;> rw [h] <;> decide
  obtain h | h | h := hcase <;> rw [h] at hd ⊢ <;> obtain rfl := Nat.pow_right_injective le_rfl hd <;> rfl

/-- R88, R198: a scan. -/
theorem vScan_levels {d : Nat} (hd : 2 ^ d = ltN x.t) {j : Nat} (hj : j < 2 ^ d) : resultAt x (vScan x) j =
    if x.act j then scanned f (fun i => if x.act i then elem (ltW x.t) x.a i else emptyOf x) d j else elem (ltW x.t) x.c j := by
  obtain ⟨hempty, hemptylt⟩ := ropEmpty_eq x h8
  have hfld : fld x.ctl.toNat 3 0 = x.ctl.toNat % 16 := fld_low _ _
  set el : Nat → Nat := fun i => if x.act i then elem (ltW x.t) x.a i else emptyOf x with hel
  have hstart : ∀ i, i < ((List.range (ltN x.t)).map fun i => (el i, false)).length →
      (((List.range (ltN x.t)).map fun i => (el i, false)).getD i (0, false)).1 = el i ∧ el i < 2 ^ ltW x.t := fun i hi => by
    refine ⟨by rw [List.getD_eq_getElem _ _ hi, List.getElem_map, List.getElem_range], ?_⟩
    simp only [hel]
    split
    · exact elem_lt _ _ _
    · exact hemptylt
  obtain ⟨-, hval⟩ := scan_levels h8 hf hstart d
  rw [hd] at hj
  obtain ⟨hj1, hj2⟩ := hval j (by simpa using hj)
  have hr : (vScan x).r = some (pack (ltW x.t) ((List.range (ltN x.t)).map fun i => if x.act i then
      ((((List.range d).map (2 ^ ·)).foldl (fun y k => scanLevel x (x.ctl.toNat % 16) k y) ((List.range (ltN x.t)).map fun i => (el i, false))).getD i
        (0, false)).1 else elem (ltW x.t) x.c i)) := by
    simp only [vScan, hfld, hempty, scan_distances hd, hel]
  rw [resultAt_pack x hr hj, List.getD_eq_getElem _ _ (by simpa using hj), List.getElem_map, List.getElem_range, hj1]
  split
  · exact Nat.mod_eq_of_lt hj2
  · exact Nat.mod_eq_of_lt (elem_lt _ _ _)

end

/-- R87, R88, R197, R198. -/
theorem reductionsAndScansAreTrees : ReductionsAndScansAreTrees := by
  intro x f d h8 _ hd w on hf
  have hact (n : Nat) : x.active.testBit (n * ltW x.t / 32) = x.act n := (act_eq x n).symm
  simp only [on, w, hact]
  exact ⟨vRed_tree h8 hf hd, fun j hj => vScan_levels h8 hf hd hj⟩

end Sys2Proof.Machine
end

section
/-! O20, third part: top-k lists (R200). -/

namespace Sys2Proof.Machine

open Sys2Proof.Claims

/-! ## Insertion by rank -/

section
variable {α : Type} (rank : α → List Nat)

theorem insertRank_perm (a : α) (l : List α) : (insertRank rank a l).Perm (a :: l) := by
  induction l with
  | nil => exact .rfl
  | cons b r ih =>
    rw [insertRank]
    split
    · exact .rfl
    · exact (ih.cons b).trans (.swap a b r)

variable (htrans : ∀ a b c, lexLt (rank a) (rank b) = true → lexLt (rank b) (rank c) = true → lexLt (rank a) (rank c) = true)
include htrans

theorem insertRank_sorted {a : α} {l : List α} (hl : l.Pairwise fun b c => lexLt (rank b) (rank c) = true)
    (ha : ∀ b ∈ l, lexLt (rank a) (rank b) = true ∨ lexLt (rank b) (rank a) = true) :
    (insertRank rank a l).Pairwise fun b c => lexLt (rank b) (rank c) = true := by
  induction l with
  | nil => exact List.pairwise_singleton _ _
  | cons b r ih =>
    obtain ⟨hb, hr⟩ := List.pairwise_cons.mp hl
    rw [insertRank]
    split
    · next hlt =>
      refine List.pairwise_cons.mpr ⟨fun c hc => ?_, hl⟩
      obtain rfl | hc := List.mem_cons.mp hc
      · exact hlt
      · exact htrans _ _ _ hlt (hb c hc)
    · next hlt =>
      refine List.pairwise_cons.mpr ⟨fun c hc => ?_, ih hr fun c hc => ha c (List.mem_cons_of_mem _ hc)⟩
      obtain rfl | hc := List.mem_cons.mp ((insertRank_perm rank a r).mem_iff.mp hc)
      · exact (ha b List.mem_cons_self).resolve_left hlt
      · exact hb c hc

/-- Insertion of entries of different ranks sorts them. -/
theorem foldl_insertRank (cs l : List α) (hl : l.Pairwise fun b c => lexLt (rank b) (rank c) = true) (hnd : (l ++ cs).Nodup)
    (htot : ∀ a ∈ l ++ cs, ∀ b ∈ l ++ cs, a ≠ b → lexLt (rank a) (rank b) = true ∨ lexLt (rank b) (rank a) = true) :
    (cs.foldl (fun l c => insertRank rank c l) l).Perm (l ++ cs) ∧
      (cs.foldl (fun l c => insertRank rank c l) l).Pairwise fun b c => lexLt (rank b) (rank c) = true := by
  induction cs generalizing l with
  | nil => exact ⟨by rw [List.append_nil]; exact .rfl, hl⟩
  | cons a cs ih =>
    have hperm : (insertRank rank a l ++ cs).Perm (l ++ a :: cs) := ((insertRank_perm rank a l).append_right cs).trans List.perm_middle.symm
    have ha : a ∉ l := fun h => List.disjoint_of_nodup_append hnd h List.mem_cons_self
    have hsorted : (insertRank rank a l).Pairwise fun b c => lexLt (rank b) (rank c) = true :=
      insertRank_sorted rank htrans hl fun b hb => htot a (by simp) b (by simp [hb]) fun h => ha (h ▸ hb)
    obtain ⟨h1, h2⟩ := ih (insertRank rank a l) hsorted (hperm.nodup_iff.mpr hnd) fun b hb c hc =>
      htot b (hperm.mem_iff.mp hb) c (hperm.mem_iff.mp hc)
    exact ⟨h1.trans hperm, h2⟩

end

/-! ## The order of candidates -/

theorem lexLt_triple (a b c a' b' c' : Nat) :
    lexLt [a, b, c] [a', b', c'] = true ↔ a < a' ∨ a = a' ∧ (b < b' ∨ b = b' ∧ c < c') := by
  simp only [lexLt]
  split_ifs <;> simp <;> omega

theorem topOrder_trans (t : Nat) (a b c : Nat × Nat × Nat) (h : lexLt (topOrder t a) (topOrder t b) = true)
    (h' : lexLt (topOrder t b) (topOrder t c) = true) : lexLt (topOrder t a) (topOrder t c) = true := by
  rw [topOrder, topOrder, lexLt_triple] at h h' ⊢
  omega

theorem topOrder_total (t : Nat) {a b : Nat × Nat × Nat} (h : a.2.2 ≠ b.2.2) :
    lexLt (topOrder t a) (topOrder t b) = true ∨ lexLt (topOrder t b) (topOrder t a) = true := by
  rw [topOrder, topOrder, lexLt_triple, lexLt_triple]
  omega

theorem topKey_float {v : Nat} (hv : v < 2 ^ 32) :
    topKey 6 v = if nanCode fmtF32 v = true then -(2 ^ 33) else if signCode fmtF32 v = true then -((v % 2 ^ 31 : Nat) : Int) - 1 else v := by
  have hnan : (decF32 v).isNan = nanCode fmtF32 v := isNan_decode wide_f32 hv
  have hsign : bitAt v 31 = signCode fmtF32 v := by
    rw [bitAt_eq]
    simp [signCode, fmtF32]
  rw [topKey, if_pos rfl, hnan, hsign]

theorem topKey_signed {v : Nat} (hv : v < 2 ^ 32) : topKey 0 v = (BitVec.ofNat 32 v).toInt := by
  have h : topKey 0 v = signed v 32 := rfl
  rw [h, signed_of_lt hv, BitVec.toInt_eq_toNat_cond, BitVec.toNat_ofNat, Nat.mod_eq_of_lt hv]
  split <;> split <;> omega

theorem topKey_unsigned (v : Nat) : topKey 1 v = v := rfl

theorem topKey_bounds {t v : Nat} (ht : t = 0 ∨ t = 1 ∨ t = 6) (hv : v < 2 ^ 32) : topKey t v < 2 ^ 34 := by
  obtain rfl | rfl | rfl := ht
  · rw [topKey_signed hv]
    have := BitVec.toInt_lt (x := BitVec.ofNat 32 v)
    omega
  · rw [topKey_unsigned]
    omega
  · rw [topKey_float hv]
    split_ifs <;> omega

theorem above_float {a b : Nat} (ha : a < 2 ^ 32) (hb : b < 2 ^ 32) : above 6 a b = true ↔ topKey 6 b < topKey 6 a := by
  have hdef : above 6 a b = true ↔ nanCode fmtF32 a = false ∧ (nanCode fmtF32 b = true ∨ codeVal fmtF32 b < codeVal fmtF32 a ∨
      codeVal fmtF32 b = codeVal fmtF32 a ∧ signCode fmtF32 b = true ∧ signCode fmtF32 a = false) := by
    simp [above, and_assoc, or_assoc]
  rw [hdef, topKey_float ha, topKey_float hb]
  obtain ⟨s, C, hC, rfl, hs, hv⟩ := exists_raw_wide wide_f32 ha
  obtain ⟨s', C', hC', rfl, hs', hv'⟩ := exists_raw_wide wide_f32 hb
  rw [hs, hs', hv, hv', show 2 ^ 31 = 2 ^ (fmtF32.e + fmtF32.m) from rfl, raw_mod_top hC, raw_mod_top hC']
  have hC31 : C < 2 ^ 31 := hC
  have hC31' : C' < 2 ^ 31 := hC'
  cases hna : nanCode fmtF32 (fmtF32.raw s C)
  · cases hnb : nanCode fmtF32 (fmtF32.raw s' C')
    · simp only [true_and, Bool.false_eq_true, false_or, if_false]
      cases s <;> cases s'
      · rw [idxVal_real, idxVal_real, real_false_lt, mag_cast_lt]
        simp [Fmt.raw]
      · have hle : fmtF32.idxVal true C' ≤ fmtF32.idxVal false C := idxVal_true_nonpos.trans idxVal_false_nonneg
        refine iff_of_true (hle.lt_or_eq.imp_right fun h => ⟨h, rfl, rfl⟩) ?_
        simp only [Fmt.raw, if_true, Bool.false_eq_true, if_false]
        omega
      · have hle : fmtF32.idxVal true C ≤ fmtF32.idxVal false C' := idxVal_true_nonpos.trans idxVal_false_nonneg
        refine iff_of_false (not_or.mpr ⟨hle.not_gt, by simp⟩) ?_
        simp only [Fmt.raw, if_true, Bool.false_eq_true, if_false]
        omega
      · rw [idxVal_real, idxVal_real, real_true_lt, mag_cast_lt]
        simp
    · simp only [true_and, true_or, if_true, true_iff, Bool.false_eq_true, if_false]
      cases s <;> simp [Fmt.raw] <;> omega
  · simp only [Bool.true_eq_false, false_and, false_iff, if_true, not_lt]
    split_ifs <;> omega

/-- The keys order as `above` does. -/
theorem above_iff {t a b : Nat} (ht : t = 0 ∨ t = 1 ∨ t = 6) (ha : a < 2 ^ 32) (hb : b < 2 ^ 32) : above t a b = true ↔ topKey t b < topKey t a := by
  obtain rfl | rfl | rfl := ht
  · rw [topKey_signed ha, topKey_signed hb, ← BitVec.slt_iff_toInt_lt]
    rfl
  · rw [topKey_unsigned, topKey_unsigned, Nat.cast_lt]
    simp [above]
  · exact above_float ha hb

theorem ahead_iff {t : Nat} (ht : t = 0 ∨ t = 1 ∨ t = 6) {c d : Nat × Nat × Nat} (hc : c.1 < 2 ^ 32) (hd : d.1 < 2 ^ 32) :
    ahead t c d = true ↔ lexLt (topOrder t c) (topOrder t d) = true := by
  have h1 := topKey_bounds ht hc
  have h2 := topKey_bounds ht hd
  rw [topOrder, topOrder, lexLt_triple, ahead, Bool.or_eq_true, Bool.and_eq_true, Bool.or_eq_true, Bool.and_eq_true, Bool.not_eq_true',
    ← Bool.not_eq_true, above_iff ht hc hd, above_iff ht hd hc, decide_eq_true_eq, decide_eq_true_eq, beq_iff_eq]
  omega

/-! ## The list -/

/-- A candidate whose value and position are words. -/
def IsWords (c : Nat × Nat × Nat) : Prop := c.1 < 2 ^ 32 ∧ c.2.1 < 2 ^ 32

theorem getD_append_replicate {l : List Nat} {n e j : Nat} (hn : l.length + n = 64) (hj : j < 64) :
    (l ++ List.replicate n e).getD j 0 = if j < l.length then l.getD j 0 else e := by
  split
  · next h => exact List.getD_append _ _ _ _ h
  · next h =>
    rw [List.getD_append_right _ _ _ _ (not_lt.mp h), List.getD_eq_getElem _ _ (by rw [List.length_replicate]; omega), List.getElem_replicate]

theorem elem_packed_list {l : List Nat} {n e j : Nat} (hn : l.length + n = 64) (hj : j < 64) (hl : ∀ a ∈ l, a < 2 ^ 32) (he : e < 2 ^ 32) :
    elem 32 (pack 32 (l ++ List.replicate n e)) j = if j < l.length then l.getD j 0 else e := by
  rw [elem_pack _ (by omega), getD_append_replicate hn hj]
  split
  · next h =>
    rw [List.getD_eq_getElem _ _ h]
    exact Nat.mod_eq_of_lt (hl _ (List.getElem_mem h))
  · exact Nat.mod_eq_of_lt he

theorem getD_map_of_lt {α : Type} (g : α → Nat) {l : List α} {j : Nat} (d : α) (h : j < l.length) : (l.map g).getD j 0 = g (l.getD j d) := by
  rw [List.getD_eq_getElem _ _ (by simpa using h), List.getElem_map, List.getD_eq_getElem _ _ h]

/-- The result latches that hold a list. -/
def listOut (x : VIn) (best : List (Nat × Nat × Nat)) : VOut :=
  { r := some (pack 32 (best.map (fun c => c.1) ++
      List.replicate (64 - best.length) (if x.t = 6 then 0xFF800000 else if x.t = 0 then 0x80000000 else 0))),
    r2 := some (pack 32 (best.map (fun c => c.2.1) ++ List.replicate (64 - best.length) 0xFFFFFFFF)), s := some (u64 best.length) }

/-- The first of some candidates by rank. -/
def firstCands (x : VIn) (cands : List (Nat × Nat × Nat)) : List (Nat × Nat × Nat) :=
  (cands.foldl (fun l c => insertRank (topOrder x.t) c l) []).take (Nat.min (x.ctl.toNat % 128) 64)

theorem topkOf_eq (x : VIn) (olds : List (Nat × Nat × Nat)) : topkOf x olds = listOut x (firstCands x ((olds ++ (List.range 64).filterMap fun i =>
    if bitAt x.active i then some (elem 32 x.a i, elem 32 x.b i, 64 + i) else none).filter (fun c => c.2.1 != 0xFFFFFFFF))) := by
  rw [topkOf, fld_low]
  rfl

/-- The lanes of a list of words. -/
theorem listOut_lanes (x : VIn) {best : List (Nat × Nat × Nat)} (hlen : best.length ≤ 64) (hbest : ∀ c ∈ best, IsWords c) {j : Nat} (hj : j < 64) :
    elem 32 ((listOut x best).r.getD 0) j = (if j < best.length then (best.getD j (0, 0, 0)).1 else
      if x.t = 6 then 0xFF800000 else if x.t = 0 then 0x80000000 else 0) ∧
    elem 32 ((listOut x best).r2.getD 0) j = if j < best.length then (best.getD j (0, 0, 0)).2.1 else 0xFFFFFFFF := by
  have hvals : ∀ a ∈ best.map fun c => c.1, a < 2 ^ 32 := fun a ha => by
    obtain ⟨c, hc, rfl⟩ := List.mem_map.mp ha
    exact (hbest c hc).1
  have hpos : ∀ a ∈ best.map fun c => c.2.1, a < 2 ^ 32 := fun a ha => by
    obtain ⟨c, hc, rfl⟩ := List.mem_map.mp ha
    exact (hbest c hc).2
  have hpad : (if x.t = 6 then 0xFF800000 else if x.t = 0 then 0x80000000 else 0) < 2 ^ 32 := by split_ifs <;> decide
  have hfill {g : Nat × Nat × Nat → Nat} : (best.map g).length + (64 - best.length) = 64 := by
    rw [List.length_map]
    omega
  have h1 := elem_packed_list hfill hj hvals hpad
  have h2 := elem_packed_list hfill hj hpos (by decide : 0xFFFFFFFF < 2 ^ 32)
  rw [List.length_map] at h1 h2
  refine ⟨h1.trans ?_, h2.trans ?_⟩
  · split
    · next h => exact getD_map_of_lt _ _ h
    · rfl
  · split
    · next h => exact getD_map_of_lt _ _ h
    · rfl

/-- R200: the first candidates by rank are the first by `ahead`. -/
theorem listsFirst_firstCands (x : VIn) (ht : x.t = 0 ∨ x.t = 1 ∨ x.t = 6) {cands : List (Nat × Nat × Nat)} (hwords : ∀ c ∈ cands, IsWords c)
    (hranks : (cands.map fun c => c.2.2).Nodup) : ListsFirst x (listOut x (firstCands x cands)) cands := by
  have hnd : ([] ++ cands).Nodup := hranks.of_map
  have hne : ∀ a ∈ cands, ∀ b ∈ cands, a ≠ b → a.2.2 ≠ b.2.2 := fun a ha b hb hab h => hab (List.inj_on_of_nodup_map hranks ha hb h)
  obtain ⟨hperm, hsorted⟩ := foldl_insertRank (topOrder x.t) (topOrder_trans x.t) cands [] List.Pairwise.nil hnd fun a ha b hb hab =>
    topOrder_total x.t (hne a ha b hb hab)
  rw [List.nil_append] at hperm
  rw [firstCands]
  generalize cands.foldl (fun l c => insertRank (topOrder x.t) c l) [] = sorted at hperm hsorted
  have hk64 : Nat.min (x.ctl.toNat % 128) 64 ≤ 64 := Nat.min_le_right _ _
  have hlen : (sorted.take (Nat.min (x.ctl.toNat % 128) 64)).length = Nat.min (Nat.min (x.ctl.toNat % 128) 64) cands.length := by
    rw [List.length_take, hperm.length_eq]
  rw [ListsFirst, ← hlen]
  generalize Nat.min (x.ctl.toNat % 128) 64 = k at hk64
  have hmem {c} (hc : c ∈ sorted.take k) : c ∈ cands := hperm.mem_iff.mp (List.mem_of_mem_take hc)
  have hahead {c d} (hc : c ∈ cands) (hd : d ∈ cands) (h : lexLt (topOrder x.t c) (topOrder x.t d) = true) : ahead x.t c d = true :=
    (ahead_iff ht (hwords c hc).1 (hwords d hd).1).mpr h
  have hlen64 : (sorted.take k).length ≤ 64 := (List.length_take_le _ _).trans hk64
  have hlanes {j} (hj : j < 64) := listOut_lanes x hlen64 (fun c hc => hwords c (hmem hc)) hj
  refine ⟨rfl, rfl, sorted.take k, rfl, ?_, fun c => hmem, fun c hc hno d hd => ?_, fun j hj => ?_, fun j hj hj64 => ?_⟩
  · exact (hsorted.sublist (List.take_sublist k sorted)).imp_of_mem fun hc hd h => hahead (hmem hc) (hmem hd) h
  · have hdrop : c ∈ sorted.drop k := by
      have := hperm.mem_iff.mpr hc
      rw [← List.take_append_drop k sorted, List.mem_append] at this
      exact this.resolve_left hno
    rw [← List.take_append_drop k sorted] at hsorted
    exact hahead (hmem hd) hc ((List.pairwise_append.mp hsorted).2.2 d hd c hdrop)
  · have h := hlanes (hj.trans_le hlen64)
    rwa [if_pos hj, if_pos hj] at h
  · have h := hlanes hj64
    rwa [if_neg hj.not_gt, if_neg hj.not_gt] at h

/-! ## The candidates -/

theorem filterMap_ite {α β : Type} (p : α → Bool) (g : α → β) (l : List α) :
    l.filterMap (fun a => if p a then some (g a) else none) = (l.filter p).map g := by
  induction l with
  | nil => rfl
  | cons a l ih =>
    rw [List.filterMap_cons, List.filter_cons]
    cases p a <;> simp [ih]

/-- The new candidates of R200. -/
def newCands (x : VIn) : List (Nat × Nat × Nat) :=
  ((List.range 64).filter (fun i => x.active.testBit i && elem 32 x.b i != 0xFFFFFFFF)).map (fun i => (elem 32 x.a i, elem 32 x.b i, 64 + i))

/-- The candidates of the list in v.r and v.r2. -/
def oldCands (x : VIn) : List (Nat × Nat × Nat) :=
  ((List.range 64).filter (fun i => elem 32 x.vr2 i != 0xFFFFFFFF)).map (fun i => (elem 32 x.vr i, elem 32 x.vr2 i, i))

theorem cands_eq (x : VIn) (olds : List (Nat × Nat × Nat)) :
    (olds ++ (List.range 64).filterMap fun i => if bitAt x.active i then some (elem 32 x.a i, elem 32 x.b i, 64 + i) else none).filter
      (fun c => c.2.1 != 0xFFFFFFFF) = olds.filter (fun c => c.2.1 != 0xFFFFFFFF) ++ newCands x := by
  rw [List.filter_append, filterMap_ite, List.filter_map, List.filter_filter, newCands]
  congr 3
  funext i
  rw [Function.comp, Bool.and_comm, bitAt, Nat.testBit_eq_decide_div_mod_eq]

theorem olds_eq (x : VIn) :
    ((List.range 64).map fun i => (elem 32 x.vr i, elem 32 x.vr2 i, i)).filter (fun c => c.2.1 != 0xFFFFFFFF) = oldCands x := by
  rw [List.filter_map, oldCands]
  rfl

theorem isWords_newCands {x : VIn} : ∀ c ∈ newCands x, IsWords c := by
  intro c hc
  obtain ⟨i, -, rfl⟩ := List.mem_map.mp hc
  exact ⟨elem_lt _ _ _, elem_lt _ _ _⟩

theorem isWords_oldCands {x : VIn} : ∀ c ∈ oldCands x, IsWords c := by
  intro c hc
  obtain ⟨i, -, rfl⟩ := List.mem_map.mp hc
  exact ⟨elem_lt _ _ _, elem_lt _ _ _⟩

theorem nodup_newCands (x : VIn) : ((newCands x).map fun c => c.2.2).Nodup := by
  rw [newCands, List.map_map]
  exact (List.nodup_range.filter _).map fun a b h => Nat.add_left_cancel h

theorem nodup_oldCands (x : VIn) : ((oldCands x).map fun c => c.2.2).Nodup := by
  rw [oldCands, List.map_map]
  exact (List.nodup_range.filter _).map fun a b h => h

theorem nodup_cands (x : VIn) : ((oldCands x ++ newCands x).map fun c => c.2.2).Nodup := by
  rw [List.map_append]
  refine (nodup_oldCands x).append (nodup_newCands x) fun r ho hn => ?_
  obtain ⟨c, hc, rfl⟩ := List.mem_map.mp ho
  obtain ⟨d, hd, hdr⟩ := List.mem_map.mp hn
  obtain ⟨i, hi, rfl⟩ := List.mem_map.mp hc
  obtain ⟨k, -, rfl⟩ := List.mem_map.mp hd
  have := List.mem_range.mp (List.mem_filter.mp hi).1
  simp only at hdr
  omega

/-- R200. -/
theorem topListsAreOrdered : TopListsAreOrdered := by
  intro x ht
  have hold : ∀ c ∈ oldCands x ++ newCands x, IsWords c := fun c hc => (List.mem_append.mp hc).elim (isWords_oldCands c) (isWords_newCands c)
  have h1 := listsFirst_firstCands x ht isWords_newCands (nodup_newCands x)
  have h2 := listsFirst_firstCands x ht hold (nodup_cands x)
  refine ⟨?_, ?_⟩
  · rwa [vTopk, topkOf_eq, cands_eq, List.filter_nil, List.nil_append]
  · rwa [vTopkm, topkOf_eq, cands_eq, olds_eq]

end Sys2Proof.Machine
end

section
/-! O20, fourth part: hashes (R74, R125, R273) and quantization (R71, R72, R75, R76, R80, R81, R210). -/

namespace Sys2Proof.Machine

open Sys2Proof.Claims

theorem toNat_xor_shift {w : Nat} (k : BitVec w) (n : Nat) : (k ^^^ (k >>> n)).toNat = k.toNat ^^^ (k.toNat >>> n) := by
  rw [BitVec.toNat_xor, BitVec.toNat_ushiftRight]

theorem toNat_mul_const {w : Nat} (k : BitVec w) {c : Nat} (hc : c < 2 ^ w) : (k * BitVec.ofNat w c).toNat = k.toNat * c % 2 ^ w := by
  rw [BitVec.toNat_mul, BitVec.toNat_ofNat, Nat.mod_eq_of_lt hc]

theorem mix64_toNat {y k1 k2 : BitVec 64} (h1 : k1 = (y ^^^ (y >>> 33)) * 0xFF51AFD7ED558CCD#64)
    (h2 : k2 = (k1 ^^^ (k1 >>> 33)) * 0xC4CEB9FE1A85EC53#64) : mix64 y.toNat = (k2 ^^^ (k2 >>> 33)).toNat := by
  have hk1 : k1.toNat = (y.toNat ^^^ y.toNat >>> 33) * 0xFF51AFD7ED558CCD % 2 ^ 64 := by
    rw [h1, ← toNat_xor_shift]
    exact toNat_mul_const _ (by norm_num)
  have hk2 : k2.toNat = (k1.toNat ^^^ k1.toNat >>> 33) * 0xC4CEB9FE1A85EC53 % 2 ^ 64 := by
    rw [h2, ← toNat_xor_shift]
    exact toNat_mul_const _ (by norm_num)
  rw [toNat_xor_shift, hk2, hk1, mix64, Nat.mod_eq_of_lt y.isLt]

theorem fmix32_toNat {y k1 k2 : BitVec 32} (h1 : k1 = (y ^^^ (y >>> 16)) * 0x85EBCA6B#32) (h2 : k2 = (k1 ^^^ (k1 >>> 13)) * 0xC2B2AE35#32) :
    fmix32 y.toNat = (k2 ^^^ (k2 >>> 16)).toNat := by
  have hk1 : k1.toNat = (y.toNat ^^^ y.toNat >>> 16) * 0x85EBCA6B % 2 ^ 32 := by
    rw [h1, ← toNat_xor_shift]
    exact toNat_mul_const _ (by norm_num)
  have hk2 : k2.toNat = (k1.toNat ^^^ k1.toNat >>> 13) * 0xC2B2AE35 % 2 ^ 32 := by
    rw [h2, ← toNat_xor_shift]
    exact toNat_mul_const _ (by norm_num)
  rw [toNat_xor_shift, hk2, hk1, fmix32, Nat.mod_eq_of_lt y.isLt]

/-- R74, R125, R273. -/
theorem hashesAreTheTables : HashesAreTheTables := by
  refine ⟨fun x y => ?_, fun x y => ?_⟩
  · intro k1 k2
    rw [aluHmix, if_neg (by decide)]
    exact mix64_toNat rfl rfl
  · intro k1 k2
    rw [aluHmix, if_pos rfl]
    exact fmix32_toNat rfl rfl

/-! ## Lists of 64 results -/

section
variable (g : Nat → Nat × Bool)

theorem over64_getD {e : Nat} (he : e < 64) : (over64 g).1.getD e 0 = (g e).1 := by
  simp only [over64]
  rw [List.map_map, List.getD_eq_getElem _ _ (by simpa using he), List.getElem_map, List.getElem_range]
  rfl

theorem over64_inv : (over64 g).2 = true ↔ ∃ n, n < 64 ∧ (g n).2 = true := by
  simp [over64]

theorem over64_valid (h : ∀ n, n < 64 → (g n).2 = false) : (over64 g).2 = false := by
  rw [← Bool.not_eq_true, over64_inv]
  rintro ⟨n, hn, htrue⟩
  exact Bool.false_ne_true ((h n hn).symm.trans htrue)

end

/-! ## Formats and scales -/

theorem fmtOf_ok {fm : BitVec 32} (h : fmtLegal fm.toNat = true) : (fmtOf fm).Ok := by
  simp only [fmtLegal, Bool.and_eq_true, decide_eq_true_eq, Bool.or_eq_true, bne_iff_ne, beq_iff_eq] at h
  obtain ⟨⟨⟨⟨⟨⟨hw, -⟩, hinf⟩, hnan⟩, h3⟩, -⟩, -⟩ := h
  have hs : fld fm.toNat 0 0 < 2 := Nat.mod_lt _ (by decide)
  have hspec : fld fm.toNat 17 16 < 4 := Nat.mod_lt _ (by decide)
  refine ⟨by simp only [fmtOf]; omega, by simp only [fmtOf]; omega, hw, fun h1 => ?_, fun h2 => ?_⟩
  · exact hinf.resolve_left fun h => h h1
  · exact hnan.resolve_left fun h => h h2

theorem fmtBlk_eq (fm : BitVec 32) : fmtBlk fm = if fm.toNat / 2 ^ 18 % 4 = 0 then 0 else 8 * 2 ^ (fm.toNat / 2 ^ 18 % 4) := by
  have hz : fm.toNat / 2 ^ 18 % 4 < 4 := Nat.mod_lt _ (by decide)
  have hfld : fld fm.toNat 19 18 = fm.toNat / 2 ^ 18 % 4 := rfl
  rw [fmtBlk, hfld]
  generalize fm.toNat / 2 ^ 18 % 4 = z at hz
  match z with
  | 0 => rfl
  | 1 => rfl
  | 2 => rfl
  | 3 => rfl

/-- A scale code that is finite and not 0 (R80). -/
theorem decScale_fin {c : Nat} (hlo : 1 ≤ c / 128) (hhi : c / 128 ≤ 510) : decScale c = .fin (128 + c % 128) ((c / 128 : Nat) - 262) := by
  have he : fld c 15 7 = c / 128 := Nat.mod_eq_of_lt (by omega)
  have hm : fld c 6 0 = c % 128 := by simp [fld]
  simp only [decScale, he, hm]
  rw [if_neg (by omega), if_neg (by omega)]

theorem scaleVal_eq (c : Nat) : scaleVal c = ((128 + c % 128 : Nat) : ℚ) * 2 ^ ((c / 128 : Nat) - 262 : Int) := by
  have h : (2 : ℚ) ^ ((c / 128 : Nat) - 255 : Int) = 2 ^ ((c / 128 : Nat) - 262 : Int) * 128 := by
    rw [show ((c / 128 : Nat) - 255 : Int) = (c / 128 : Nat) - 262 + 7 by ring, zpow_add₀ two_ne_zero]
    norm_num
  rw [scaleVal, h]
  push_cast
  ring

/-- The scale of an element as the model reads it. -/
theorem elemScale_of_scaledBy {fm : BitVec 32} {k : BitVec 1024} {eb ch e : Nat} {σ : ℚ} (h : ScaledBy fm k eb ch e σ) :
    ∃ m g, elemScale fm k eb ch e = .fin m g ∧ 0 < m ∧ σ = m * 2 ^ g := by
  rw [ScaledBy] at h
  rw [elemScale, fmtBlk_eq]
  obtain ⟨hz, rfl⟩ | ⟨hz, hlo, hhi, rfl⟩ := h
  · exact ⟨1, 0, by rw [if_pos hz, if_pos rfl], one_pos, by simp⟩
  · rw [if_neg hz, if_neg (by positivity)]
    have hentry (i : Nat) : kEntry k i = k.toNat / 2 ^ (16 * (i % 64)) % 2 ^ 16 := by
      rw [kEntry, fld]
      congr 2
      omega
    rw [hentry, decScale_fin hlo hhi]
    exact ⟨_, _, rfl, by omega, scaleVal_eq _⟩

/-! ## Rounding towards zero, and stochastic rounding -/

section
variable {f : Fmt} (hf : f.Ok) {x : ℚ} {D : Nat} {neg : Bool}
include hf

/-- A number rounded towards zero has the value of the last magnitude up to it. -/
theorem codeVal_of_rz (hneg : neg = true → f.s = 1) (hD : f.Floor x D) {neg0 : Bool} {lo : Nat} (h : RoundsTo f .rz (f.real neg x) neg0 lo) :
    codeVal f lo = f.idxVal neg (min D (f.lim neg)) := by
  have hx := floor_nonneg hD
  obtain ⟨hr, -, hle, hside, hmax⟩ := h
  obtain ⟨b, L, hb, hL, rfl⟩ := (roundable_iff hf _ lo).mp hr
  have htop (b : Bool) : f.top .rz b = f.lim b := by simp [Fmt.top, Rnd.overflows]
  rw [htop] at hL
  have hlim : min D (f.lim neg) ≤ f.lim neg := min_le_right _ _
  have hval := (idxCode_finite hf hneg hlim).2.1
  have hround : roundable f .rz (f.idxCode neg (min D (f.lim neg))) = true :=
    (roundable_iff hf _ _).mpr ⟨neg, _, hneg, by rwa [htop], rfl⟩
  obtain ⟨hmem1, hmem2⟩ := toward_mem (T := f.lim neg) (neg := neg) hD hx
  have hge := hmax _ hround (by rwa [hval]) (by rwa [hval])
  rw [(idxCode_finite hf hb hL).2.1] at hle hside hge ⊢
  rw [hval] at hge
  have hlast := toward_last (neg := neg) (T := f.lim neg) hD hx (fun hs => by rwa [hs] at hL) hle hside
  have habs := le_antisymm hlast hge
  obtain heq | hopp := abs_eq_abs.mp habs
  · exact heq
  · rw [hopp] at hside ⊢
    have hprod : f.idxVal neg (min D (f.lim neg)) * f.real neg x = 0 := by linarith
    obtain h0 | h0 := mul_eq_zero.mp hprod
    · rw [h0, neg_zero]
    · rw [h0, abs_zero, hopp, abs_neg] at hle
      rw [abs_nonpos_iff.mp hle, neg_zero]

end

/-- Stochastic rounding takes the code above where the random byte reaches. -/
theorem roundsUp_sr_iff {f : Fmt} {x : ℚ} {D u : Nat} {neg : Bool} :
    f.RoundsUp (.sr u) neg x D ↔ 256 * |f.idxVal neg (D + 1)| ≤ 256 * (x * 2 ^ f.qmin) + u * (|f.idxVal neg (D + 1)| - |f.idxVal neg D|) := by
  have hu := unit_pos f
  rw [idxVal_real, idxVal_real, abs_real (natCast_mag_nonneg _), abs_real (natCast_mag_nonneg _), Fmt.RoundsUp, ← sub_mul, ← mul_assoc, ← mul_assoc,
    ← mul_assoc, ← add_mul, mul_le_mul_iff_left₀ hu]
  constructor <;> intro h <;> linarith

/-- Zero stays zero under stochastic rounding. -/
theorem roundIdx_sr_zero {f : Fmt} {u C : Nat} (hu : u < 256) {neg : Bool} (h : f.RoundIdx (.sr u) neg 0 C) : C = 0 := by
  obtain ⟨D, hD, hC⟩ := h
  have h1 : (0 : ℚ) < f.mag 1 := by exact_mod_cast lt_of_lt_of_le one_pos (le_mag (f := f) 1)
  have hD0 : D < 1 := (lt_mag_iff hD).mp h1
  obtain rfl : D = 0 := by omega
  obtain ⟨hup, -⟩ | ⟨-, rfl⟩ := hC
  · have hu' : (u : ℚ) < 256 := by exact_mod_cast hu
    rw [Fmt.RoundsUp, mag_zero, Nat.cast_zero, zero_add, sub_zero, sub_zero, mul_zero, zero_add] at hup
    exact absurd (mul_lt_mul_of_pos_right hu' h1) hup.not_gt
  · rfl

/-! ## One element -/

/-- The NaN, infinity and limit codes of R76. -/
theorem encNarrowNan_code {f : Fmt} (hf : f.Ok) :
    (f.spec = 0 → finiteCode f (encNarrowNan f).1 = true ∧ ∀ z', finiteCode f z' = true → codeVal f z' ≤ codeVal f (encNarrowNan f).1) ∧
      (f.spec = 1 → (encNarrowNan f).1 = 2 ^ (f.e + f.m) - 1) ∧ (f.spec = 2 → (encNarrowNan f).1 = 2 ^ (codeWidth f - 1)) := by
  refine ⟨fun h0 => ?_, fun h1 => ?_, fun h2 => ?_⟩
  · have hcode : (encNarrowNan f).1 = f.idxCode false (f.lim false) := by
      rw [encNarrowNan, if_pos h0]
      exact (qtop_eq f ▸ encFinNarrow_mag (neg := false) (mag_lim false)).trans (if_neg (by simp))
    obtain ⟨hfin, hval, -⟩ := idxCode_finite hf (neg := false) nofun (le_refl (f.lim false))
    rw [hcode]
    refine ⟨hfin, fun z' hz' => ?_⟩
    obtain ⟨b, C, hb, hC, rfl⟩ := exists_idxCode hf hz'
    rw [hval, (idxCode_finite hf hb hC).2.1]
    cases b with
    | false => exact real_false_le.mpr (mag_cast_le.mpr hC)
    | true => exact idxVal_true_nonpos.trans idxVal_false_nonneg
  · rw [encNarrowNan, if_neg (by omega), Fmt.nanCode, if_neg (by omega)]
  · rw [encNarrowNan, if_neg (by omega), Fmt.nanCode, if_pos h2]
    rfl

theorem encNarrowInf_code {f : Fmt} (hspec : f.spec = 1) (hm : 1 ≤ f.m) (hs : f.s = 1) (neg : Bool) : (encNarrowInf f neg).1 = infinity f neg := by
  rw [encNarrowInf, if_neg (by omega), if_pos hspec, if_neg (by omega), width_of_sign hs]
  rfl

section
variable {f : Fmt} (hf : f.Ok) {a m : Nat} {g : Int} (hm : 0 < m)

/-- Quantization of a finite number (R81): its magnitude over the scale, in units. -/
theorem quantize_fin (hf : f.Ok) (ha : finiteCode fmtF32 a = true) (hm : 0 < m) (md : Rnd) : ∃ x C, 0 ≤ x ∧
    codeVal fmtF32 a / (m * 2 ^ g) = f.real (signCode fmtF32 a) x ∧ f.RoundIdx md (signCode fmtF32 a) x C ∧
      quantize f md (decF32 a) (.fin m g) = (f.codeOf md (signCode fmtF32 a) C, false) := by
  obtain ⟨s, k, e, hdec, hval, hs⟩ := decode_fin ha
  obtain rfl := hs (.inl wide_f32.e_ne)
  obtain ⟨C, hC, henc⟩ := encNarrowFin_spec (n := k) (e := e - g) hf hm md (signCode fmtF32 a)
  refine ⟨_, C, units_nonneg, ?_, hC, ?_⟩
  · rw [real_units, hval, Num.val, zpow_sub₀ two_ne_zero]
    ring
  · rw [decF32, hdec]
    exact henc

theorem quantize_nan (ha : a < 2 ^ fmtF32.width) (h : nanCode fmtF32 a = true) (md : Rnd) :
    (quantize f md (decF32 a) (.fin m g)).1 = (encNarrowNan f).1 := by
  obtain ⟨s, hs⟩ := decode_nan wide_f32.ok ha h
  rw [decF32, hs]
  rfl

theorem quantize_inf (ha : a < 2 ^ fmtF32.width) (h : isInf fmtF32 a = true) (md : Rnd) :
    quantize f md (decF32 a) (.fin m g) = encNarrowInf f (signCode fmtF32 a) := by
  rw [decF32, decode_inf wide_f32.ok ha h]
  rfl

end

/-! ## Stochastic rounding between two codes -/

section
variable {f : Fmt} (hf : f.Ok) {x : ℚ} {C u lo : Nat} {neg neg0 : Bool}
include hf

theorem codeVal_zero : codeVal f 0 = 0 := by
  have h := (idxCode_finite hf (neg := false) (C := 0) nofun (Nat.zero_le _)).2.1
  rwa [idxVal_eq_zero.mpr rfl, Fmt.idxCode, if_pos rfl, if_neg (by simp)] at h

theorem codeVal_codeOf_sr (hneg : neg = true → f.s = 1) (C : Nat) : codeVal f (f.codeOf (.sr u) neg C) = f.idxVal neg (min C (f.lim neg)) := by
  have htop : f.top (.sr u) neg = f.lim neg := by simp [Fmt.top, Rnd.overflows]
  rw [Fmt.codeOf, if_neg fun h => absurd (hneg h.1) (by omega), htop, (idxCode_finite hf hneg (min_le_right _ _)).2.1]

omit hf in
/-- A signed magnitude and a signed number above 0 in magnitude lie on one side of 0 where their signs agree. -/
theorem same_side_iff {b : Bool} {H : Nat} (hx : 0 < x) : 0 < f.idxVal b H * f.real neg x ↔ b = neg ∧ H ≠ 0 := by
  have hu := unit_pos f
  have hprod (b b' : Bool) : f.idxVal b H * f.real b' x = (if b = b' then 1 else -1) * (f.mag H * x * (2 ^ f.qmin * 2 ^ f.qmin)) := by
    rw [idxVal_real, Fmt.real, Fmt.real]
    cases b <;> cases b' <;> simp <;> ring
  have hpos : 0 < (f.mag H : ℚ) * x * (2 ^ f.qmin * 2 ^ f.qmin) ↔ H ≠ 0 := by
    rw [mul_pos_iff_of_pos_right (mul_pos hu hu), mul_pos_iff_of_pos_right hx, Nat.cast_pos, Nat.pos_iff_ne_zero, ne_eq, ne_eq,
      ← Nat.cast_eq_zero (R := ℚ), mag_eq_zero]
  have hnn : 0 ≤ (f.mag H : ℚ) * x * (2 ^ f.qmin * 2 ^ f.qmin) := by positivity
  rw [hprod]
  by_cases hb : b = neg
  · rw [if_pos hb, one_mul, hpos, and_iff_right hb]
  · rw [if_neg hb, neg_one_mul]
    exact iff_of_false (by linarith) fun h => hb h.1

/-- R72: between the codes below and above, the random byte decides. -/
theorem codeVal_sr_between {V : ℚ} (hV : V = f.real neg x) (hx : 0 < x) (hC : f.RoundIdx (.sr u) neg x C) (hlo : RoundsTo f .rz (V) neg0 lo) {hi : Nat}
    (hfin : finiteCode f hi = true) (hside : 0 < codeVal f hi * V) (hgt : |V| < |codeVal f hi|)
    (hleast : ∀ c', finiteCode f c' = true → 0 < codeVal f c' * V → |V| < |codeVal f c'| → |codeVal f hi| ≤ |codeVal f c'|) :
    codeVal f (f.codeOf (.sr u) neg C) =
      if 256 * |codeVal f hi| ≤ 256 * |V| + u * (|codeVal f hi| - |codeVal f lo|) then codeVal f hi else codeVal f lo := by
  subst hV
  have hu := unit_pos f
  obtain ⟨b, H, hb, hH, rfl⟩ := exists_idxCode hf hfin
  rw [(idxCode_finite hf hb hH).2.1] at hside hgt hleast ⊢
  obtain ⟨rfl, hH0⟩ := (same_side_iff hx).mp hside
  obtain ⟨D, hD, hDC⟩ := hC
  rw [abs_real hx.le] at hgt hleast ⊢
  rw [idxVal_real, abs_real (natCast_mag_nonneg _), mul_lt_mul_iff_left₀ hu, lt_mag_iff hD] at hgt
  have hnext := (idxCode_finite hf hb (show D + 1 ≤ f.lim b from Nat.succ_le_of_lt (hgt.trans_le hH)))
  have hle := hleast _ hnext.1 (by rw [hnext.2.1]; exact (same_side_iff hx).mpr ⟨rfl, Nat.succ_ne_zero D⟩) (by
    rw [hnext.2.1, idxVal_real, abs_real (natCast_mag_nonneg _), mul_lt_mul_iff_left₀ hu]
    exact hD.2)
  rw [hnext.2.1, idxVal_real, idxVal_real, abs_real (natCast_mag_nonneg _), abs_real (natCast_mag_nonneg _), mul_le_mul_iff_left₀ hu,
    mag_cast_le] at hle
  obtain rfl : H = D + 1 := by omega
  have hlow : codeVal f lo = f.idxVal b D := by
    rw [codeVal_of_rz hf hb hD hlo, min_eq_left (by omega)]
  rw [codeVal_codeOf_sr hf hb, hlow]
  obtain ⟨hup, rfl⟩ | ⟨hup, rfl⟩ := hDC
  · rw [if_pos (roundsUp_sr_iff.mp hup), min_eq_left hH]
  · rw [if_neg fun h => hup (roundsUp_sr_iff.mpr h), min_eq_left (by omega)]

/-- Where no code stands above, stochastic rounding is rounding towards zero. -/
theorem codeVal_sr_beyond {V : ℚ} (hV : V = f.real neg x) (hx : 0 ≤ x) (hu : u < 256) (hC : f.RoundIdx (.sr u) neg x C) (hlo : RoundsTo f .rz (V) neg0 lo)
    (hcover : ∀ c', finiteCode f c' = true → 0 < codeVal f c' * V → |codeVal f c'| ≤ |V|) :
    codeVal f (f.codeOf (.sr u) neg C) = codeVal f lo := by
  subst hV
  have hq := unit_pos f
  obtain rfl | hpos := hx.eq_or_lt
  · have hC0 := roundIdx_sr_zero hu hC
    have hlo0 : codeVal f lo = 0 := by
      have h := hlo.2.2.1
      rwa [real_eq_zero.mpr rfl, abs_zero, abs_nonpos_iff] at h
    rw [hC0, hlo0, Fmt.codeOf]
    split
    · exact codeVal_zero hf
    · next h =>
      have hneg : neg = true → f.s = 1 := fun hn => by
        have := hf.sign
        have : f.s ≠ 0 := fun h0 => h ⟨hn, h0⟩
        omega
      rw [Nat.zero_min, (idxCode_finite hf hneg (Nat.zero_le _)).2.1, idxVal_eq_zero]
  by_cases hs : neg = true ∧ f.s = 0
  · obtain ⟨rfl, hs⟩ := hs
    obtain ⟨hr, -, -, hside, -⟩ := hlo
    obtain ⟨b, L, hb, hL, rfl⟩ := (roundable_iff hf _ lo).mp hr
    obtain rfl : b = false := by
      rw [Bool.eq_false_iff]
      exact fun h => absurd (hb h) (by omega)
    rw [(idxCode_top hf _ hb hL).1] at hside ⊢
    have hneg : f.real true x < 0 := (real_lt_zero hx).mpr ⟨rfl, hpos.ne'⟩
    have hzero : f.idxVal false L = 0 := le_antisymm (nonpos_of_mul_nonneg_left hside hneg) idxVal_false_nonneg
    rw [hzero, Fmt.codeOf, if_pos ⟨rfl, hs⟩, codeVal_zero hf]
  · have hneg : neg = true → f.s = 1 := fun hn => by
      have := hf.sign
      have : f.s ≠ 0 := fun h0 => hs ⟨hn, h0⟩
      omega
    obtain ⟨D, hD, hDC⟩ := hC
    have hlimD : f.lim neg ≤ D := by
      by_cases h0 : f.lim neg = 0
      · omega
      · have hfin := idxCode_finite hf hneg (le_refl (f.lim neg))
        have h := hcover _ hfin.1 (by rw [hfin.2.1]; exact (same_side_iff hpos).mpr ⟨rfl, h0⟩)
        rw [hfin.2.1, idxVal_real, abs_real (natCast_mag_nonneg _), abs_real hx, mul_le_mul_iff_left₀ hq] at h
        exact (floor_le_iff hD).mp h
    rw [codeVal_codeOf_sr hf hneg, codeVal_of_rz hf hneg hD hlo, min_eq_right hlimD, min_eq_right (by omega)]

end

/-! ## Dequantization -/

section
variable {f : Fmt} (hf : f.Ok) {c m : Nat} {g : Int}

theorem decode_mod (f : Fmt) (c : Nat) : decode f (c % 2 ^ f.width) = decode f c := by
  simp only [decode, Nat.mod_mod]

theorem dequantize_fin (hm : 0 < m) (h : finiteCode f c = true) :
    RoundsTo fmtF32 .rne (codeVal f c * (m * 2 ^ g)) (signCode f c) (encF32 (scaled (decode f c) (.fin m g))) := by
  obtain ⟨s, k, e, hdec, hval, hs⟩ := decode_fin h
  rw [hdec]
  refine roundsTo_val (md := .rne) wide_f32 (s := s) (k := k * m) (q := e + g) ?_ nofun fun h0 => ?_
  · rw [hval, Num.val, Num.val, zpow_add₀ two_ne_zero]
    push_cast
    ring
  · exact (hs (.inr ((Nat.mul_eq_zero.mp h0).resolve_right hm.ne'))).symm

theorem dequantize_nan (hf : f.Ok) (hc : c < 2 ^ f.width) (h : nanCode f c = true) :
    encF32 (scaled (decode f c) (.fin m g)) = canonical fmtF32 := by
  obtain ⟨s, hs⟩ := decode_nan hf hc h
  rw [hs]
  rfl

theorem dequantize_inf (hf : f.Ok) (hc : c < 2 ^ f.width) (h : isInf f c = true) :
    encF32 (scaled (decode f c) (.fin m g)) = infinity fmtF32 (signCode f c) := by
  rw [decode_inf hf hc h]
  rfl

end

/-! ## The conversions of R210 -/

section
variable (v : V) (fm : BitVec 32) (k : BitVec 1024) (eb ch : Nat) {e : Nat} {m : Nat} {g : Int}

theorem cvtQ_getD (md : Rnd) (he : e < 64) (hs : elemScale fm k eb ch e = .fin m g) :
    (cvtQ v fm md k eb ch).1.getD e 0 = (quantize (fmtOf fm) md (decF32 (elem 32 v e)) (.fin m g)).1 := by
  rw [cvtQ, over64_getD _ he, hs]

theorem cvtQS_getD (w : U64) (he : e < 64) (hs : elemScale fm k eb ch e = .fin m g) :
    (cvtQS v fm w k eb ch).1.getD e 0 = (quantize (fmtOf fm) (.sr (rndByte w e)) (decF32 (elem 32 v e)) (.fin m g)).1 := by
  rw [cvtQS, over64_getD _ he, hs]

theorem cvtDQ_getD (codes : List Nat) (he : e < 64) (hs : elemScale fm k eb ch e = .fin m g) :
    (cvtDQ codes fm k eb ch).getD e 0 = encF32 (scaled (decode (fmtOf fm) (codes.getD e 0 % 2 ^ (fmtOf fm).width)) (.fin m g)) := by
  rw [cvtDQ, List.getD_eq_getElem _ _ (by simpa using he), List.getElem_map, List.getElem_range, hs, decode_mod]

/-- R68: finite elements over finite scales raise no invalid event. -/
theorem quantize_valid (hf : (fmtOf fm).Ok) (h : ∀ n, n < 64 → finiteCode fmtF32 (elem 32 v n) = true ∧ ∃ σ, ScaledBy fm k eb ch n σ) (md : Rnd)
    (w : U64) : (cvtQ v fm md k eb ch).2 = false ∧ (cvtQS v fm w k eb ch).2 = false := by
  have hone (n : Nat) (hn : n < 64) (md : Rnd) : (quantize (fmtOf fm) md (decF32 (elem 32 v n)) (elemScale fm k eb ch n)).2 = false := by
    obtain ⟨hfin, σ, hσ⟩ := h n hn
    obtain ⟨m, g, hs, hm, -⟩ := elemScale_of_scaledBy hσ
    obtain ⟨x, C, -, -, -, hq⟩ := quantize_fin (g := g) hf hfin hm md
    rw [hs, hq]
  exact ⟨over64_valid _ fun n hn => hone n hn md, over64_valid _ fun n hn => hone n hn _⟩

end

/-- R71, R72, R75, R76, R80, R81, R208, R210. -/
theorem quantizingRoundsOnce : QuantizingRoundsOnce := by
  intro v fm md w k eb ch e codes σ hlegal he hmd hσ f a A c cs x y
  have hf : f.Ok := fmtOf_ok hlegal
  obtain ⟨m, g, hs, hm, hσeq⟩ := elemScale_of_scaledBy hσ
  have hσpos : 0 < σ := hσeq ▸ mul_pos (by exact_mod_cast hm) (zpow_pos two_pos g)
  have ha : a < 2 ^ fmtF32.width := elem_lt 32 v e
  have hx : x < 2 ^ f.width := Nat.mod_lt _ (Nat.two_pow_pos _)
  have hc : c = (quantize f md (decF32 a) (.fin m g)).1 := cvtQ_getD v fm k eb ch md he hs
  have hcs : cs = (quantize f (.sr (rndByte w e)) (decF32 a) (.fin m g)).1 := cvtQS_getD v fm k eb ch w he hs
  have hy : y = encF32 (scaled (decode f x) (.fin m g)) := cvtDQ_getD fm k eb ch codes he hs
  have hside (h : ℚ) : 0 < h * A ↔ 0 < h * (A / σ) := by
    rw [← mul_div_assoc, div_pos_iff_of_pos_right hσpos]
  have hu : rndByte w e < 256 := Nat.mod_lt _ (by decide)
  have hfinite (md : Rnd) (hfin : finiteCode fmtF32 a = true) := quantize_fin (g := g) hf hfin hm md
  rw [← hσeq] at hfinite
  refine ⟨fun hfin => ?_, fun hnan => ?_, fun hinf hspec hfm hfs => ?_, fun lo hi hfin hA hlo hhi hpos hgt hleast => ?_, fun lo hfin hlo hcover => ?_,
    fun hfin => ?_, fun hnan => ?_, fun hinf => ?_, fun hall => quantize_valid v fm k eb ch hf hall md w⟩
  · obtain ⟨q, C, hq0, hv, hC, hq⟩ := hfinite md hfin
    rw [hc, hq, hv]
    exact roundsTo_codeOf hf hmd hq0 hC fun _ => rfl
  · have hcode := encNarrowNan_code hf
    simp only [List.forall_mem_cons, List.not_mem_nil, false_imp_iff, implies_true, and_true]
    rw [hc, hcs, quantize_nan ha hnan, quantize_nan ha hnan]
    exact ⟨hcode, hcode⟩
  · simp only [List.forall_mem_cons, List.not_mem_nil, false_imp_iff, implies_true, and_true]
    rw [hc, hcs, quantize_inf ha hinf, quantize_inf ha hinf]
    exact ⟨encNarrowInf_code hspec hfm hfs _, encNarrowInf_code hspec hfm hfs _⟩
  · obtain ⟨q, C, hq0, hv, hC, hq⟩ := hfinite (.sr (rndByte w e)) hfin
    have hqpos : 0 < q := lt_of_le_of_ne hq0 fun h0 => by
      rw [← h0, real_eq_zero.mpr rfl, div_eq_zero_iff] at hv
      exact hv.elim hA hσpos.ne'
    rw [hcs, hq]
    exact codeVal_sr_between hf hv hqpos hC hlo hhi ((hside _).mp hpos) hgt fun c' h1 h2 h3 => hleast c' h1 ((hside _).mpr h2) h3
  · obtain ⟨q, C, hq0, hv, hC, hq⟩ := hfinite (.sr (rndByte w e)) hfin
    rw [hcs, hq]
    exact codeVal_sr_beyond hf hv hq0 hu hC hlo fun c' h1 h2 => hcover c' h1 ((hside _).mpr h2)
  · rw [hy, hσeq]
    exact dequantize_fin hm hfin
  · rw [hy]
    exact dequantize_nan hf hx hnan
  · rw [hy]
    exact dequantize_inf hf hx hinf

end Sys2Proof.Machine
end

section
/-! O20, fifth part: block scales (R80, R211). -/

namespace Sys2Proof.Machine

open Sys2Proof.Claims

/-! ## UE9M7 as magnitudes -/

/-- The magnitudes of UE9M7 (R80). -/
def fmtScale : Fmt := { s := 0, e := 9, m := 7, bias := 255, spec := 0 }

theorem scaleVal_mag {c : Nat} (hc : 128 ≤ c) : scaleVal c = fmtScale.mag c * 2 ^ (-261 : ℤ) := by
  have hdiv : 1 ≤ c / 128 := (Nat.one_le_div_iff (by decide)).mpr hc
  have hmag : fmtScale.mag c = (128 + c % 128) * 2 ^ (c / 128 - 1) := by
    rw [Fmt.mag, if_neg]
    · rfl
    · rintro (h | h)
      · exact absurd h (by decide)
      · exact absurd h hc.not_gt
  obtain ⟨j, hj⟩ := Nat.exists_eq_add_of_le' hdiv
  rw [scaleVal_eq, hmag, hj, Nat.add_sub_cancel, show ((j + 1 : Nat) - 262 : ℤ) = (j : ℤ) + -261 by push_cast; ring, zpow_add₀ two_ne_zero,
    zpow_natCast]
  push_cast
  ring

theorem scaleVal_lt {c c' : Nat} (hc : 128 ≤ c) (hc' : 128 ≤ c') : scaleVal c < scaleVal c' ↔ c < c' := by
  rw [scaleVal_mag hc, scaleVal_mag hc', mul_lt_mul_iff_left₀ (zpow_pos two_pos _), mag_cast_lt]

/-- The rounded-up significand of a value in its binade. -/
theorem ceil_spec {a b : Nat} (hb : 0 < b) : ((a + b - 1) / b : Nat) * b < a + b ∧ a ≤ ((a + b - 1) / b : Nat) * b := by
  have h1 := Nat.div_add_mod (a + b - 1) b
  have h2 := Nat.mod_lt (a + b - 1) hb
  rw [Nat.mul_comm] at h1
  omega

/-- `leastScale` in a binade that UE9M7 has: the code of the significand rounded up, or the greatest. -/
theorem leastScale_binade {n d : Nat} {e : Int} (hl : ¬log2Q n d e < -254) {a b : Nat} (hab : scaleQ n d e (log2Q n d e - 7) = (a, b)) {j : Nat}
    (hj : log2Q n d e = j - 254) (hk1 : 128 ≤ (a + b - 1) / b) (hk2 : (a + b - 1) / b ≤ 256) :
    leastScale n d e = if 0xFF80 ≤ j * 128 + (a + b - 1) / b then 0xFF7F else j * 128 + (a + b - 1) / b := by
  simp only [leastScale, if_neg hl, hab]
  generalize (a + b - 1) / b = k at hk1 hk2
  rw [hj]
  split_ifs <;> omega

/-- The significand of a value in its binade, between 128 and 256 spacings. -/
theorem significand_bounds {n d : Nat} {e : Int} (hn : 0 < n) (hd : 0 < d) {q : ℚ} (hq : q = (n : ℚ) / d * 2 ^ e) {a b j : Nat}
    (hab : scaleQ n d e (log2Q n d e - 7) = (a, b)) (hj : log2Q n d e = j - 254) :
    0 < b ∧ q = a / b * (2 ^ j * 2 ^ (-261 : ℤ)) ∧ 128 * b ≤ a ∧ a < 256 * b := by
  obtain ⟨hlo, hhi⟩ := log2Q_spec (e := e) hn hd
  rw [← hq] at hlo hhi
  have hb : 0 < b := by
    have := scaleQ_pos (n := n) (e := e) (q := log2Q n d e - 7) hd
    rwa [hab] at this
  have hbq : (0 : ℚ) < b := by exact_mod_cast hb
  have hu : (0 : ℚ) < 2 ^ j * 2 ^ (-261 : ℤ) := by positivity
  have hpow : (2 : ℚ) ^ (log2Q n d e - 7) = 2 ^ j * 2 ^ (-261 : ℤ) := by
    rw [hj, show (j : ℤ) - 254 - 7 = j + -261 by ring, zpow_add₀ two_ne_zero, zpow_natCast]
  have hval : q = a / b * (2 ^ j * 2 ^ (-261 : ℤ)) := by
    have h := scaleQ_val (n := n) (d := d) (e := e) (q := log2Q n d e - 7)
    rw [hab] at h
    rw [h, ← hpow, mul_assoc, ← zpow_add₀ two_ne_zero, sub_add_cancel, hq]
  have h128 : (128 : ℚ) ≤ a / b := by
    rw [← mul_le_mul_iff_left₀ hu, ← hval, ← hpow, show (128 : ℚ) = 2 ^ (7 : ℤ) by norm_num, ← zpow_add₀ two_ne_zero, add_sub_cancel]
    exact hlo
  have h256 : (a : ℚ) / b < 256 := by
    rw [← mul_lt_mul_iff_left₀ hu, ← hval, ← hpow, show (256 : ℚ) = 2 ^ (8 : ℤ) by norm_num, ← zpow_add₀ two_ne_zero,
      show (8 : ℤ) + (log2Q n d e - 7) = log2Q n d e + 1 by ring]
    exact hhi
  rw [le_div_iff₀ hbq] at h128
  rw [div_lt_iff₀ hbq] at h256
  exact ⟨hb, hval, by exact_mod_cast h128, by exact_mod_cast h256⟩

/-- The magnitudes before that of a rounded-up significand lie below the value. -/
theorem mag_lt_of_ceil {a b j k c : Nat} (hb : 0 < b) (h128 : 128 * b ≤ a) (hk1 : 128 ≤ k) (hk2 : k ≤ 256) (hceil : k * b < a + b)
    (hlt : c < j * 128 + k) : (fmtScale.mag c : ℚ) < a / b * 2 ^ j := by
  have hbq : (0 : ℚ) < b := by exact_mod_cast hb
  have hbinade {i : Nat} (h1 : 128 ≤ i) (h2 : i ≤ 256) : fmtScale.mag (j * 128 + i) = i * 2 ^ j :=
    mag_binade (f := fmtScale) (by decide) (.inl h1) h2
  obtain hk | hk := Nat.eq_or_lt_of_le hk1
  · have hc : (fmtScale.mag c : ℚ) < fmtScale.mag (j * 128 + k) := mag_cast_lt.mpr hlt
    refine hc.trans_le ?_
    rw [hbinade hk1 hk2, ← hk]
    push_cast
    refine mul_le_mul_of_nonneg_right ?_ (by positivity)
    rw [le_div_iff₀ hbq]
    exact_mod_cast h128
  · obtain ⟨i, rfl⟩ := Nat.exists_eq_add_of_le' (Nat.one_le_of_lt hk)
    have hc : (fmtScale.mag c : ℚ) ≤ fmtScale.mag (j * 128 + i) := mag_cast_le.mpr (by omega)
    refine hc.trans_lt ?_
    rw [hbinade (by omega) (by omega)]
    push_cast
    refine mul_lt_mul_of_pos_right ?_ (by positivity)
    rw [lt_div_iff₀ hbq]
    have : i * b < a := by
      rw [Nat.add_mul, Nat.one_mul] at hceil
      omega
    exact_mod_cast this

/-- The least scale is the first code from a value on. -/
theorem leastScale_first {n d : Nat} {e : Int} (hn : 0 < n) (hd : 0 < d) {q : ℚ} (hq : q = (n : ℚ) / d * 2 ^ e) :
    ∃ I, 128 ≤ I ∧ q ≤ scaleVal I ∧ (∀ c, 128 ≤ c → c < I → scaleVal c < q) ∧ leastScale n d e = if 0xFF80 ≤ I then 0xFF7F else I := by
  by_cases hsmall : log2Q n d e < -254
  · have hhi := (log2Q_spec (e := e) hn hd).2
    have h80 : scaleVal 0x80 = 2 ^ (-254 : ℤ) := by
      norm_num [scaleVal]
    refine ⟨0x80, le_rfl, ?_, fun c h1 h2 => absurd h1 h2.not_ge, ?_⟩
    · rw [h80, hq]
      exact hhi.le.trans (zpow_le_zpow_right₀ one_le_two (by omega))
    · simp only [leastScale, if_pos hsmall]
      rfl
  · obtain ⟨j, hj⟩ := Int.eq_ofNat_of_zero_le (show 0 ≤ log2Q n d e + 254 by omega)
    have hl : log2Q n d e = j - 254 := by omega
    rcases hab : scaleQ n d e (log2Q n d e - 7) with ⟨a, b⟩
    obtain ⟨hb, hval, h128, h256⟩ := significand_bounds hn hd hq hab hl
    have hbq : (0 : ℚ) < b := by exact_mod_cast hb
    obtain ⟨hc1, hc2⟩ := ceil_spec (a := a) hb
    have hcode := leastScale_binade hsmall hab hl
    generalize (a + b - 1) / b = k at hc1 hc2 hcode
    have hk1 : 128 ≤ k := Nat.le_of_mul_le_mul_right (h128.trans hc2) hb
    have hk2 : k ≤ 256 := by
      have : k * b < 257 * b := by omega
      have := Nat.lt_of_mul_lt_mul_right this
      omega
    refine ⟨j * 128 + k, by omega, ?_, fun c hc hlt => ?_, hcode hk1 hk2⟩
    · have hmag : fmtScale.mag (j * 128 + k) = k * 2 ^ j := mag_binade (f := fmtScale) (by decide) (.inl hk1) hk2
      rw [scaleVal_mag (by omega), hmag, hval]
      push_cast
      rw [mul_assoc]
      refine mul_le_mul_of_nonneg_right ?_ (by positivity)
      rw [div_le_iff₀ hbq]
      exact_mod_cast hc2
    · rw [scaleVal_mag hc, hval, ← mul_assoc]
      exact mul_lt_mul_of_pos_right (mag_lt_of_ceil hb h128 hk1 hk2 hc1 hlt) (by positivity)

/-- R211: the least scale under which a value stays within the greatest, or the greatest scale. -/
theorem leastScale_spec {n d : Nat} {e : Int} (hn : 0 < n) (hd : 0 < d) {q : ℚ} (hq : q = (n : ℚ) / d * 2 ^ e) :
    (q ≤ scaleVal 0xFF7F → 0x80 ≤ leastScale n d e ∧ leastScale n d e ≤ 0xFF7F ∧ q ≤ scaleVal (leastScale n d e) ∧
      ∀ c, 0x80 ≤ c → c < leastScale n d e → scaleVal c < q) ∧ (scaleVal 0xFF7F < q → leastScale n d e = 0xFF7F) := by
  obtain ⟨I, hI, hle, hfirst, hcode⟩ := leastScale_first hn hd hq
  rw [hcode]
  refine ⟨fun h => ?_, fun h => ?_⟩
  · have hsmall : ¬0xFF80 ≤ I := fun hbig => (hfirst 0xFF7F (by decide) (by omega)).not_ge h
    rw [if_neg hsmall]
    exact ⟨hI, by omega, hle, hfirst⟩
  · have hlt := (scaleVal_lt (c := 0xFF7F) (by decide) hI).mp (h.trans_le hle)
    rw [if_pos (by omega)]

/-! ## The greatest magnitude of a block -/

/-- One step of the search for the greatest magnitude. -/
def maxStep (m : Num) (n : Num) : Num :=
  match n with
  | .fin _ a e => if Num.lt m (.fin false a e) then .fin false a e else m
  | _ => m

/-- Whether a number is an infinity. -/
def isInfNum (n : Num) : Bool :=
  match n with
  | .inf _ => true
  | _ => false

theorem blockScale_eq (f : Fmt) (xs : List Nat) : blockScale f xs = if (xs.map decF32).any Num.isNan then 0xFF80
    else match (xs.map decF32).foldl maxStep (.fin false 0 0) with
      | .fin _ 0 _ => if (xs.map decF32).any isInfNum then 0x7F80 else 0
      | .fin _ a e => if f.kmax = 0 then 0xFF7F else leastScale a f.kmax (e - f.qtop)
      | _ => 0 := rfl

theorem abs_val_fin (s : Bool) (m : Nat) (e : Int) : |(Num.fin s m e).val| = m * 2 ^ e := by
  have h : (0 : ℚ) ≤ m * 2 ^ e := mul_nonneg (Nat.cast_nonneg m) (zpow_pos two_pos e).le
  rw [Num.val, abs_mul, abs_of_nonneg h]
  cases s <;> simp

theorem foldl_maxStep (ns : List Num) (a : Nat) (e : Int) : ∃ (a' : Nat) (e' : Int), ns.foldl maxStep (.fin false a e) = .fin false a' e' ∧
    (a : ℚ) * 2 ^ e ≤ a' * 2 ^ e' ∧ (∀ s (m : Nat) g, .fin s m g ∈ ns → (m : ℚ) * 2 ^ g ≤ a' * 2 ^ e') ∧
      ((a' : ℚ) * 2 ^ e' = a * 2 ^ e ∨ ∃ s, ∃ m : Nat, ∃ g, .fin s m g ∈ ns ∧ (m : ℚ) * 2 ^ g = a' * 2 ^ e') := by
  induction ns generalizing a e with
  | nil => exact ⟨a, e, rfl, le_rfl, nofun, .inl rfl⟩
  | cons n ns ih =>
    have hskip (h : maxStep (.fin false a e) n = .fin false a e) (hn : ∀ s (m : Nat) g, n = .fin s m g → (m : ℚ) * 2 ^ g ≤ a * 2 ^ e) :
        ∃ (a' : Nat) (e' : Int), (n :: ns).foldl maxStep (.fin false a e) = .fin false a' e' ∧ (a : ℚ) * 2 ^ e ≤ a' * 2 ^ e' ∧
          (∀ s (m : Nat) g, .fin s m g ∈ n :: ns → (m : ℚ) * 2 ^ g ≤ a' * 2 ^ e') ∧
            ((a' : ℚ) * 2 ^ e' = a * 2 ^ e ∨ ∃ s, ∃ m : Nat, ∃ g, .fin s m g ∈ n :: ns ∧ (m : ℚ) * 2 ^ g = a' * 2 ^ e') := by
      obtain ⟨a', e', hfold, hle, hall, hatt⟩ := ih a e
      refine ⟨a', e', by rw [List.foldl_cons, h, hfold], hle, fun s m g hmem => ?_, hatt.imp_right fun ⟨s, m, g, hmem, heq⟩ =>
        ⟨s, m, g, List.mem_cons_of_mem _ hmem, heq⟩⟩
      obtain heq | hmem := List.mem_cons.mp hmem
      · exact (hn s m g heq.symm).trans hle
      · exact hall s m g hmem
    cases n with
    | nan s => exact hskip rfl nofun
    | inf s => exact hskip rfl nofun
    | fin s m g =>
      have hlt : Num.lt (.fin false a e) (.fin false m g) = true ↔ (a : ℚ) * 2 ^ e < m * 2 ^ g := by
        rw [Num.lt, ltFin_iff]
        simp [Num.val]
      by_cases h : (a : ℚ) * 2 ^ e < m * 2 ^ g
      · obtain ⟨a', e', hfold, hle, hall, hatt⟩ := ih m g
        refine ⟨a', e', ?_, h.le.trans hle, fun s' m' g' hmem => ?_, .inr ?_⟩
        · rw [List.foldl_cons, maxStep, if_pos (hlt.mpr h), hfold]
        · obtain heq | hmem := List.mem_cons.mp hmem
          · obtain ⟨-, rfl, rfl⟩ := Num.fin.inj heq
            exact hle
          · exact hall s' m' g' hmem
        · obtain heq | ⟨s', m', g', hmem, heq⟩ := hatt
          · exact ⟨s, m, g, List.mem_cons_self, heq.symm⟩
          · exact ⟨s', m', g', List.mem_cons_of_mem _ hmem, heq⟩
      · refine hskip (by rw [maxStep, if_neg fun h' => h (hlt.mp h')]) fun s' m' g' heq => ?_
        obtain ⟨-, rfl, rfl⟩ := Num.fin.inj heq
        exact not_lt.mp h

/-- The greatest finite value of a format. -/
theorem greatest_value {f : Fmt} (hf : f.Ok) {mx : ℚ} (hatt : ∃ c, finiteCode f c = true ∧ codeVal f c = mx)
    (hmax : ∀ c, finiteCode f c = true → codeVal f c ≤ mx) : mx = f.kmax * 2 ^ f.qtop := by
  have hval : f.idxVal false (f.lim false) = f.kmax * 2 ^ f.qtop := by
    have hlim : (f.kmax : ℚ) * 2 ^ f.jtop = f.mag (f.lim false) := by exact_mod_cast mag_lim (f := f) false
    rw [Fmt.idxVal, ← hlim, qtop_eq, zpow_add₀ two_ne_zero, zpow_natCast]
    simp only [Bool.false_eq_true, if_false]
    ring
  have hcode := idxCode_finite hf (neg := false) nofun (le_refl (f.lim false))
  refine le_antisymm ?_ (hval ▸ hcode.2.1 ▸ hmax _ hcode.1)
  obtain ⟨c, hc, rfl⟩ := hatt
  obtain ⟨b, C, hb, hC, rfl⟩ := exists_idxCode hf hc
  rw [(idxCode_finite hf hb hC).2.1, ← hval]
  cases b with
  | false => exact real_false_le.mpr (mag_cast_le.mpr hC)
  | true => exact idxVal_true_nonpos.trans idxVal_false_nonneg

section
variable {f : Fmt} {xs : List Nat} (hxs : ∀ x ∈ xs, x < 2 ^ fmtF32.width)
include hxs

/-- The finite numbers of a block are those of its finite codes. -/
theorem mem_numbers {s : Bool} {m : Nat} {g : Int} (h : .fin s m g ∈ xs.map decF32) :
    ∃ x ∈ xs, finiteCode fmtF32 x = true ∧ |codeVal fmtF32 x| = m * 2 ^ g := by
  obtain ⟨x, hx, hdec⟩ := List.mem_map.mp h
  obtain ⟨-, -, -, s', hd⟩ | ⟨-, -, -, hd, -⟩ | ⟨-, -, hfin, m', e', hd, hv⟩ := code_cases wide_f32 (hxs x hx)
  · exact absurd (hd.symm.trans hdec) nofun
  · exact absurd (hd.symm.trans hdec) nofun
  · obtain ⟨-, rfl, rfl⟩ := Num.fin.inj (hd.symm.trans hdec)
    exact ⟨x, hx, hfin, hv ▸ abs_val_fin _ _ _⟩

theorem any_isNan : (xs.map decF32).any Num.isNan = true ↔ ∃ x ∈ xs, nanCode fmtF32 x = true := by
  simp only [List.any_map, List.any_eq_true, Function.comp]
  refine exists_congr fun x => and_congr_right fun hx => ?_
  rw [decF32, isNan_decode wide_f32 (hxs x hx)]

theorem any_isInf (hnan : ∀ x ∈ xs, nanCode fmtF32 x = false) : (xs.map decF32).any isInfNum = true ↔ ∃ x ∈ xs, isInf fmtF32 x = true := by
  simp only [List.any_map, List.any_eq_true, Function.comp]
  refine exists_congr fun x => and_congr_right fun hx => ?_
  obtain ⟨hn, -⟩ | ⟨-, hi, -, hd, -⟩ | ⟨-, hi, -, m, e, hd, -⟩ := code_cases wide_f32 (hxs x hx)
  · exact absurd (hn.symm.trans (hnan x hx)) (by decide)
  · rw [decF32, hd, hi]
    rfl
  · rw [decF32, hd, hi]
    rfl

/-- The scale of a block without NaNs: of its greatest finite magnitude, or the special codes. -/
theorem blockScale_number (hnan : ∀ x ∈ xs, nanCode fmtF32 x = false) :
    ((∀ x ∈ xs, finiteCode fmtF32 x = true → codeVal fmtF32 x = 0) →
      blockScale f xs = if (xs.map decF32).any isInfNum then 0x7F80 else 0) ∧
    (∀ y ∈ xs, finiteCode fmtF32 y = true → codeVal fmtF32 y ≠ 0 →
      (∀ x ∈ xs, finiteCode fmtF32 x = true → |codeVal fmtF32 x| ≤ |codeVal fmtF32 y|) → f.kmax ≠ 0 →
        ∃ (a : Nat) (e : Int), 0 < a ∧ |codeVal fmtF32 y| = a * 2 ^ e ∧ blockScale f xs = leastScale a f.kmax (e - f.qtop)) := by
  have hno : ¬(xs.map decF32).any Num.isNan = true := fun h => by
    obtain ⟨x, hx, hn⟩ := (any_isNan hxs).mp h
    exact absurd (hn.symm.trans (hnan x hx)) (by decide)
  obtain ⟨a, e, hfold, -, hall, hatt⟩ := foldl_maxStep (xs.map decF32) 0 0
  rw [Nat.cast_zero, zero_mul] at hatt
  rw [blockScale_eq, if_neg hno, hfold]
  have hp : (0 : ℚ) < 2 ^ e := zpow_pos two_pos e
  refine ⟨fun hzero => ?_, fun y hy hyfin hy0 hymax hk => ?_⟩
  · have ha : (a : ℚ) * 2 ^ e = 0 := by
      obtain h | ⟨s, m, g, hmem, heq⟩ := hatt
      · exact h
      · obtain ⟨x, hx, hfin, habs⟩ := mem_numbers hxs hmem
        rw [← heq, ← habs, hzero x hx hfin, abs_zero]
    obtain rfl : a = 0 := by exact_mod_cast (mul_eq_zero.mp ha).resolve_right hp.ne'
    rfl
  · have hval : |codeVal fmtF32 y| = a * 2 ^ e := by
      refine le_antisymm ?_ ?_
      · obtain ⟨s, m, g, hd, hv, -⟩ := decode_fin hyfin
        rw [hv, abs_val_fin]
        exact hall s m g (List.mem_map.mpr ⟨y, hy, hd⟩)
      · obtain h | ⟨s, m, g, hmem, heq⟩ := hatt
        · rw [h]
          exact abs_nonneg _
        · obtain ⟨x, hx, hfin, habs⟩ := mem_numbers hxs hmem
          rw [← heq, ← habs]
          exact hymax x hx hfin
    have ha : a ≠ 0 := by
      rintro rfl
      rw [Nat.cast_zero, zero_mul] at hval
      exact hy0 (abs_eq_zero.mp hval)
    refine ⟨a, e, Nat.pos_of_ne_zero ha, hval, ?_⟩
    obtain ⟨k, rfl⟩ := Nat.exists_eq_succ_of_ne_zero ha
    exact if_neg hk

end

/-- R211. -/
theorem scalesFitTheirBlock : ScalesFitTheirBlock := by
  intro v fm b mx hlegal hblk f z el sb hb hatt hmax hpos
  have hf : f.Ok := fmtOf_ok hlegal
  have hz : fmtBlk fm = z := by rw [fmtBlk_eq, if_neg hblk]
  have hmx := greatest_value hf hatt hmax
  have hkmax : f.kmax ≠ 0 := fun h => by
    rw [hmx, h, Nat.cast_zero, zero_mul] at hpos
    exact hpos.false
  set xs := (List.range z).map el with hxs
  have hsb : sb = blockScale f xs := by
    change (cvtSC v fm).getD b 0 = _
    rw [cvtSC, hz, List.getD_eq_getElem _ _ (by simpa using hb), List.getElem_map, List.getElem_range]
  have hlt : ∀ x ∈ xs, x < 2 ^ fmtF32.width := fun x hx => by
    obtain ⟨i, -, rfl⟩ := List.mem_map.mp hx
    exact elem_lt 32 v _
  have hmem (P : Nat → Prop) : (∀ x ∈ xs, P x) ↔ ∀ i, i < z → P (el i) := by simp [hxs]
  have hex (P : Nat → Prop) : (∃ x ∈ xs, P x) ↔ ∃ i, i < z ∧ P (el i) := by simp [hxs]
  rw [hsb]
  refine ⟨fun hnan => ?_, fun hnan => ?_⟩
  · rw [blockScale_eq, if_pos ((any_isNan hlt).mpr ((hex fun x => nanCode fmtF32 x = true).mpr hnan))]
  · have hnan' := (hmem fun x => nanCode fmtF32 x = false).mpr hnan
    obtain ⟨hzero, hmaxel⟩ := blockScale_number (f := f) hlt hnan'
    refine ⟨fun h => ?_, fun n hn hfin h0 hall => ?_⟩
    · rw [hzero ((hmem fun x => finiteCode fmtF32 x = true → codeVal fmtF32 x = 0).mpr h)]
      have hinf := (any_isInf hlt hnan').trans (hex fun x => isInf fmtF32 x = true)
      exact if_congr hinf rfl rfl
    · obtain ⟨a, e, ha, hval, hscale⟩ := hmaxel (el n) (List.mem_map.mpr ⟨n, List.mem_range.mpr hn, rfl⟩) hfin h0
        ((hmem fun x => finiteCode fmtF32 x = true → |codeVal fmtF32 x| ≤ |codeVal fmtF32 (el n)|).mpr hall) hkmax
      rw [hscale]
      refine leastScale_spec ha (Nat.pos_of_ne_zero hkmax) ?_
      rw [hval, hmx, zpow_sub₀ two_ne_zero]
      have : (2 : ℚ) ^ f.qtop ≠ 0 := zpow_ne_zero _ two_ne_zero
      field_simp

end Sys2Proof.Machine
end

section
/-! O20, sixth part: the wide conversions of x (R67 to R69, R212). -/

namespace Sys2Proof.Machine

open Sys2Proof.Claims

/-! ## Between floats -/

/-- Every significand of the format at every spacing is a magnitude. -/
theorem exists_mag {f : Fmt} (he : f.e ≠ 0) (j k : Nat) (hk : k < 2 ^ (f.m + 1)) : ∃ C, f.mag C = k * 2 ^ j := by
  induction j generalizing k with
  | zero => exact ⟨k, by simpa using mag_binade (f := f) he (j := 0) (k := k) (.inr rfl) hk.le⟩
  | succ j ih =>
    obtain hlt | hge := Nat.lt_or_ge k (2 ^ f.m)
    · obtain ⟨C, hC⟩ := ih (2 * k) (by rw [pow_succ]; omega)
      exact ⟨C, by rw [hC, pow_succ]; ring⟩
    · exact ⟨_, mag_binade he (j := j + 1) (.inl hge) hk.le⟩

/-- An exact magnitude rounds to itself. -/
theorem roundIdx_exact {f : Fmt} {neg : Bool} {C D : Nat} (h : f.RoundIdx .rne neg (f.mag C) D) : D = C := by
  obtain ⟨A, hA, hD⟩ := h
  obtain rfl : A = C := floor_unique hA ⟨le_rfl, mag_cast_lt.mpr (Nat.lt_succ_self C)⟩
  obtain ⟨hup, -⟩ | ⟨-, rfl⟩ := hD
  · have h1 := mag_cast_lt (f := f).mpr (Nat.lt_succ_self A)
    simp only [Fmt.RoundsUp] at hup
    obtain h | ⟨h, -⟩ := hup <;> exact absurd h (by simp only [Nat.succ_eq_add_one] at h1; linarith)
  · rfl

/-- The finite values of BF16 and F16 lie below 2^128. -/
theorem abs_codeVal_lt {f : Fmt} (hf : f = fmtBF16 ∨ f = fmtF16) {c : Nat} (hc : finiteCode f c = true) : |codeVal f c| < 2 ^ 128 := by
  obtain rfl | rfl := hf
  · have h := abs_codeVal_finite_lt wide_bf16 hc false
    rw [codeVal_infinity wide_bf16, idxVal_real, abs_real (natCast_mag_nonneg _), mag_lim_succ (.inr rfl)] at h
    exact h
  · obtain ⟨s, m, e, hdec, hval, -⟩ := decode_fin hc
    obtain ⟨hm, -, he⟩ := decode_range wide_f16.e_ne (lt_of_finiteCode hc) hdec
    have he' : e ≤ 8 := he
    have hm' : (m : ℚ) < 2 ^ 11 := by exact_mod_cast hm
    rw [hval, abs_val_fin]
    calc (m : ℚ) * 2 ^ e ≤ 2 ^ 11 * 2 ^ (8 : ℤ) :=
          mul_le_mul hm'.le (zpow_le_zpow_right₀ one_le_two he') (zpow_pos two_pos e).le (by positivity)
      _ < 2 ^ 128 := by norm_num

/-- The narrower wide formats: every finite value is one of F32. -/
theorem exists_f32_idx {f : Fmt} (hf : f = fmtBF16 ∨ f = fmtF16) {c : Nat} (hc : finiteCode f c = true) {s : Bool} {m : Nat} {e : Int}
    (hdec : decode f c = .fin s m e) (hval : codeVal f c = (Num.fin s m e).val) :
    ∃ C, C ≤ fmtF32.lim s ∧ (fmtF32.mag C : ℚ) = fmtF32.units m 1 e := by
  have hparams : f.e ≠ 0 ∧ 2 ^ (f.m + 1) ≤ 2 ^ 24 ∧ -149 ≤ f.qmin := by
    obtain rfl | rfl := hf <;> decide
  obtain ⟨he, h24, hq⟩ := hparams
  obtain ⟨hm, hqe, -⟩ := decode_range he (lt_of_finiteCode hc) hdec
  obtain ⟨j, hj⟩ := Int.eq_ofNat_of_zero_le (show 0 ≤ e + 149 by omega)
  obtain ⟨C, hC⟩ := exists_mag (f := fmtF32) (by decide) j m (hm.trans_le h24)
  have hmag : (fmtF32.mag C : ℚ) = fmtF32.units m 1 e := by
    have hq32 : fmtF32.qmin = -149 := rfl
    rw [hC, Fmt.units, hq32, sub_neg_eq_add, hj, zpow_natCast]
    push_cast
    rw [div_one]
  refine ⟨C, ?_, hmag⟩
  have hlt := abs_codeVal_lt hf hc
  have hunits : fmtF32.units m 1 e * 2 ^ fmtF32.qmin = m * 2 ^ e := by
    rw [Fmt.units, Nat.cast_one, div_one, mul_assoc, ← zpow_add₀ two_ne_zero, sub_add_cancel]
  rw [hval, abs_val_fin, ← hunits, ← hmag, ← mag_lim_succ (.inl rfl) s, mul_lt_mul_iff_left₀ (unit_pos fmtF32), mag_cast_lt] at hlt
  omega

/-- A finite code of BF16 or F16 keeps its value in F32. -/
theorem widen_fin {f : Fmt} (hf : f = fmtBF16 ∨ f = fmtF16) (hw : f.Wide) {c : Nat} (hc : finiteCode f c = true) :
    finiteCode fmtF32 (encF32 (decode f c)) = true ∧ codeVal fmtF32 (encF32 (decode f c)) = codeVal f c ∧
      signCode fmtF32 (encF32 (decode f c)) = signCode f c := by
  obtain ⟨s, m, e, hdec, hval, hs⟩ := decode_fin hc
  obtain rfl := hs (.inl hw.e_ne)
  obtain ⟨C, hC, hmag⟩ := exists_f32_idx hf hc hdec hval
  obtain ⟨D, hD, henc⟩ := encWide_roundRat (n := m) (d := 1) (e := e) wide_f32 one_pos .rne (signCode f c)
  rw [← hmag] at hD
  obtain rfl := roundIdx_exact hD
  have hcode : encF32 (decode f c) = fmtF32.idxCode (signCode f c) D := by
    rw [hdec, ← min_eq_left (show D ≤ fmtF32.top .rne (signCode f c) from hC.trans (Nat.le_add_right _ _)), ← codeOf_wide wide_f32]
    exact henc
  obtain ⟨hfin, hv, -⟩ := idxCode_finite wide_f32.ok (fun _ => rfl) hC
  rw [hcode]
  refine ⟨hfin, ?_, ?_⟩
  · rw [hv, idxVal_real, hmag, real_units, hval, Num.val, Nat.cast_one, div_one]
  · rw [idxCode_wide wide_f32]
    exact signCode_raw wide_f32.e_ne (fun _ => rfl) (hC.trans_lt (lim_lt wide_f32.e_ne _))

/-! ## To integers -/

/-- An integer is a number rounded by a mode (R69, R70). -/
def RoundedInt (md : Rnd) (A : ℚ) (n : Int) : Prop :=
  match md with
  | .rne => |A - n| < 1 / 2 ∨ |A - n| = 1 / 2 ∧ n % 2 = 0
  | .rz => |(n : ℚ)| ≤ |A| ∧ |A| < |(n : ℚ)| + 1 ∧ 0 ≤ n * A
  | .ru => A ≤ n ∧ (n : ℚ) < A + 1
  | .rd => n ≤ A ∧ A < n + 1
  | .sr _ => False

/-- Integers less than 1 apart are one. -/
theorem int_eq_of_abs_lt {n k : Int} (h : |(n : ℚ) - k| < 1) : n = k := by
  have h' : |n - k| < 1 := by exact_mod_cast h
  have := abs_lt.mp h'
  omega

theorem roundedInt_unique {md : Rnd} {A : ℚ} {n k : Int} (h : RoundedInt md A n) (h' : RoundedInt md A k) : n = k := by
  cases md with
  | rne =>
    simp only [RoundedInt] at h h'
    have hn : |A - n| ≤ 1 / 2 := h.elim le_of_lt fun h => h.1.le
    have hk : |A - k| ≤ 1 / 2 := h'.elim le_of_lt fun h => h.1.le
    obtain ⟨hn1, hn2⟩ := abs_le.mp hn
    obtain ⟨hk1, hk2⟩ := abs_le.mp hk
    by_cases hlt : |(n : ℚ) - k| < 1
    · exact int_eq_of_abs_lt hlt
    · have hge : 1 ≤ |(n : ℚ) - k| := not_lt.mp hlt
      have hle : |(n : ℚ) - k| ≤ 1 := abs_le.mpr ⟨by linarith, by linarith⟩
      have heq : |n - k| = 1 := by exact_mod_cast le_antisymm hle hge
      have hboth : |A - n| = 1 / 2 ∧ |A - k| = 1 / 2 := by
        have htri : |(n : ℚ) - k| ≤ |A - n| + |A - k| := by
          rw [abs_sub_comm A n]
          exact abs_sub_le _ _ _
        exact ⟨by linarith, by linarith⟩
      have he : n % 2 = 0 := (h.resolve_left hboth.1.not_lt).2
      have he' : k % 2 = 0 := (h'.resolve_left hboth.2.not_lt).2
      obtain h1 | h1 := (abs_eq zero_le_one).mp heq <;> omega
  | rz =>
    obtain ⟨hn1, hn2, hn3⟩ := h
    obtain ⟨hk1, hk2, hk3⟩ := h'
    have habs : |n| = |k| := by
      have h1 : |n| < |k| + 1 := by exact_mod_cast hn1.trans_lt hk2
      have h2 : |k| < |n| + 1 := by exact_mod_cast hk1.trans_lt hn2
      omega
    obtain heq | heq := abs_eq_abs.mp habs
    · exact heq
    · have hprod : (k : ℚ) * A = 0 := by
        rw [heq] at hn3
        push_cast at hn3
        linarith
      obtain h0 | h0 := mul_eq_zero.mp hprod
      · have : k = 0 := by exact_mod_cast h0
        omega
      · rw [h0, abs_zero, abs_nonpos_iff] at hn1 hk1
        have h1 : n = 0 := by exact_mod_cast hn1
        have h2 : k = 0 := by exact_mod_cast hk1
        omega
  | ru =>
    obtain ⟨hn1, hn2⟩ := h
    obtain ⟨hk1, hk2⟩ := h'
    exact int_eq_of_abs_lt (abs_lt.mpr ⟨by linarith, by linarith⟩)
  | rd =>
    obtain ⟨hn1, hn2⟩ := h
    obtain ⟨hk1, hk2⟩ := h'
    exact int_eq_of_abs_lt (abs_lt.mpr ⟨by linarith, by linarith⟩)
  | sr u => exact h.elim

/-- The grid of R69: the integers. -/
def fmtInt : Fmt := { s := 1, e := 0, m := 64, bias := 0, spec := 0 }

/-- The signed integer of a sign and a magnitude. -/
def signedInt (neg : Bool) (C : Nat) : Int := if neg then -C else C

/-- A magnitude rounded on the grid of the integers is the number rounded to an integer. -/
theorem roundedInt_of_roundIdx {md : Rnd} (hmd : ∀ u, md ≠ .sr u) {neg : Bool} {x : ℚ} {C : Nat} (h : fmtInt.RoundIdx md neg x C) :
    RoundedInt md ((if neg then -1 else 1) * x) (signedInt neg C) := by
  obtain ⟨D, hD, hC⟩ := h
  have hx := floor_nonneg hD
  have hmag (C : Nat) : fmtInt.mag C = C := mag_of_e rfl C
  obtain ⟨hlo, hhi⟩ := hD
  simp only [Fmt.RoundsUp, hmag] at hlo hhi hC
  push_cast at hlo hhi hC
  have hsigned : ((signedInt neg C : Int) : ℚ) = (if neg then -1 else 1) * C := by
    cases neg <;> simp [signedInt]
  cases md with
  | rne =>
    have hpar : signedInt neg C % 2 = 0 ↔ C % 2 = 0 := by
      cases neg <;> simp [signedInt] <;> omega
    have habs : |(if neg = true then -1 else 1) * x - ((signedInt neg C : Int) : ℚ)| = |x - C| := by
      rw [hsigned, ← mul_sub, abs_mul]
      cases neg <;> simp
    simp only [RoundedInt, habs, hpar]
    obtain ⟨hup, rfl⟩ | ⟨hup, rfl⟩ := hC
    · push_cast
      rw [abs_of_nonpos (by linarith)]
      obtain h | ⟨h, hodd⟩ := hup
      · left
        linarith
      · exact .inr ⟨by linarith, by omega⟩
    · obtain ⟨hno, htie⟩ := not_or.mp hup
      rw [abs_of_nonneg (by linarith)]
      obtain h | h := (not_lt.mp hno).lt_or_eq
      · left
        linarith
      · refine .inr ⟨by linarith, ?_⟩
        have : ¬C % 2 = 1 := fun h1 => htie ⟨h.symm, h1⟩
        omega
  | rz =>
    obtain ⟨hno, -⟩ | ⟨-, rfl⟩ := hC
    · exact hno.elim
    have hCnn : (0 : ℚ) ≤ C := Nat.cast_nonneg C
    have habsC : |((signedInt neg C : Int) : ℚ)| = C := by
      rw [hsigned, abs_mul, abs_of_nonneg hCnn]
      cases neg <;> simp
    have habsx : |(if neg = true then -1 else 1) * x| = x := by
      rw [abs_mul, abs_of_nonneg hx]
      cases neg <;> simp
    rw [RoundedInt, habsC, habsx, hsigned]
    refine ⟨hlo, hhi, ?_⟩
    have := mul_nonneg hCnn hx
    cases neg <;> simp <;> linarith
  | ru =>
    rw [RoundedInt, hsigned]
    cases neg with
    | false =>
      simp only [Bool.false_eq_true, if_false, one_mul, true_and] at hC ⊢
      obtain ⟨hup, rfl⟩ | ⟨hup, rfl⟩ := hC
      · push_cast
        exact ⟨hhi.le, by linarith⟩
      · exact ⟨not_lt.mp hup, by linarith⟩
    | true =>
      simp only [if_true, Bool.true_eq_false, false_and, not_false_eq_true, true_and, false_or] at hC ⊢
      subst hC
      exact ⟨by linarith, by linarith⟩
  | rd =>
    rw [RoundedInt, hsigned]
    cases neg with
    | false =>
      simp only [Bool.false_eq_true, if_false, one_mul, false_and, not_false_eq_true, true_and, false_or] at hC ⊢
      subst hC
      exact ⟨hlo, hhi⟩
    | true =>
      simp only [if_true, true_and] at hC ⊢
      obtain ⟨hup, rfl⟩ | ⟨hup, rfl⟩ := hC
      · push_cast
        exact ⟨by linarith, by linarith⟩
      · have := not_lt.mp hup
        exact ⟨by linarith, by linarith⟩
  | sr u => exact absurd rfl (hmd u)

/-- Conversion of a finite number to an integer, clamped (R69). -/
theorem toI32_fin (md : Rnd) (neg : Bool) (m : Nat) (e : Int) : ∃ C, fmtInt.RoundIdx md neg (m * 2 ^ e) C ∧ toI32 md (.fin neg m e) =
    if neg then (if 2 ^ 31 < C then (2 ^ 31, true) else ((2 ^ 32 - C) % 2 ^ 32, false)) else (if 2 ^ 31 ≤ C then (2 ^ 31 - 1, true) else (C, false)) := by
  have hx : (m : ℚ) * 2 ^ e = fmtInt.units m 1 e := by
    have hq : fmtInt.qmin = 0 := rfl
    rw [Fmt.units, hq, sub_zero, Nat.cast_one, div_one]
  have hsp : fmtInt.spacing m 1 e = fmtInt.qmin + (0 : Nat) := by
    simp [Fmt.spacing, fmtInt]
  obtain ⟨k, C, hg, hmag, hC⟩ := gridRound_idx (f := fmtInt) (md := md) (neg := neg) one_pos hx hsp (fun _ => rfl) fun h => absurd rfl h
  rw [pow_zero, mul_one, mag_of_e rfl] at hmag
  subst hmag
  refine ⟨k, hC, ?_⟩
  have hdef : toI32 md (.fin neg m e) = if neg then
      (if 2 ^ 31 < (gridRound fmtInt md neg m 1 e).1 then (2 ^ 31, true) else ((2 ^ 32 - (gridRound fmtInt md neg m 1 e).1) % 2 ^ 32, false))
      else (if 2 ^ 31 ≤ (gridRound fmtInt md neg m 1 e).1 then (2 ^ 31 - 1, true) else ((gridRound fmtInt md neg m 1 e).1, false)) := rfl
  rw [hdef, hg]

/-- The clamped pattern of R69, and the invalid event. -/
theorem clamp_signedInt (neg : Bool) (C : Nat) :
    let r : Nat × Bool := if neg then (if 2 ^ 31 < C then (2 ^ 31, true) else ((2 ^ 32 - C) % 2 ^ 32, false))
      else (if 2 ^ 31 ≤ C then (2 ^ 31 - 1, true) else (C, false))
    let n := signedInt neg C
    r.1 = (if n < -(2 ^ 31) then 2 ^ 31 else if 2 ^ 31 - 1 < n then 2 ^ 31 - 1 else (n % 2 ^ 32).toNat) ∧
      ((n < -(2 ^ 31) ∨ 2 ^ 31 - 1 < n) → r.2 = true) := by
  cases neg with
  | false =>
    simp only [signedInt, Bool.false_eq_true, if_false]
    by_cases h : 2 ^ 31 ≤ C
    · rw [if_pos h, if_neg (by omega), if_pos (by omega)]
      exact ⟨rfl, fun _ => rfl⟩
    · rw [if_neg h, if_neg (by omega), if_neg (by omega)]
      exact ⟨by simp only; omega, fun h' => absurd h' (by omega)⟩
  | true =>
    simp only [signedInt, if_true]
    by_cases h : 2 ^ 31 < C
    · rw [if_pos h, if_pos (by omega)]
      exact ⟨rfl, fun _ => rfl⟩
    · rw [if_neg h, if_neg (by omega), if_neg (by omega)]
      exact ⟨by simp only; omega, fun h' => absurd h' (by omega)⟩

section
variable {a : Nat} {md : Rnd}

/-- R69 of a finite code. -/
theorem toI32_finite (hmd : ∀ u, md ≠ .sr u) (ha : finiteCode fmtF32 a = true) {n : Int} (hn : RoundedInt md (codeVal fmtF32 a) n) :
    (toI32 md (decF32 a)).1 = (if n < -(2 ^ 31) then 2 ^ 31 else if 2 ^ 31 - 1 < n then 2 ^ 31 - 1 else (n % 2 ^ 32).toNat) ∧
      ((n < -(2 ^ 31) ∨ 2 ^ 31 - 1 < n) → (toI32 md (decF32 a)).2 = true) := by
  obtain ⟨s, m, e, hdec, hval, -⟩ := decode_fin ha
  obtain ⟨C, hC, hto⟩ := toI32_fin md s m e
  obtain rfl : n = signedInt s C := by
    rw [hval] at hn
    exact roundedInt_unique hn (roundedInt_of_roundIdx hmd hC)
  rw [decF32, hdec, hto]
  exact clamp_signedInt s C

/-- A number below 2^31 − 1 in magnitude converts without an invalid event. -/
theorem toI32_valid (ha : finiteCode fmtF32 a = true) (hlt : |codeVal fmtF32 a| < 2 ^ 31 - 1) : (toI32 md (decF32 a)).2 = false := by
  obtain ⟨s, m, e, hdec, hval, -⟩ := decode_fin ha
  obtain ⟨C, ⟨D, hD, hCD⟩, hto⟩ := toI32_fin md s m e
  rw [hval, abs_val_fin] at hlt
  have hDlt : D < 2 ^ 31 - 1 := by
    have hmag : ((D : Nat) : ℚ) ≤ m * 2 ^ e := by
      have := hD.1
      rwa [mag_of_e rfl] at this
    have : (D : ℚ) < ((2 ^ 31 - 1 : Nat) : ℚ) := by
      refine hmag.trans_lt (hlt.trans_le ?_)
      norm_num
    exact_mod_cast this
  rw [decF32, hdec, hto]
  cases s with
  | false =>
    simp only [Bool.false_eq_true, if_false]
    rw [if_neg (by omega)]
  | true =>
    simp only [if_true]
    rw [if_neg (by omega)]

theorem toI32_nan (ha : a < 2 ^ fmtF32.width) (h : nanCode fmtF32 a = true) : toI32 md (decF32 a) = (0, true) := by
  obtain ⟨s, hs⟩ := decode_nan wide_f32.ok ha h
  rw [decF32, hs]
  rfl

theorem toI32_inf (ha : a < 2 ^ fmtF32.width) (h : isInf fmtF32 a = true) :
    toI32 md (decF32 a) = (if signCode fmtF32 a then 2 ^ 31 else 2 ^ 31 - 1, true) := by
  rw [decF32, decode_inf wide_f32.ok ha h]
  rfl

/-- A code of F32 rounded to a narrower wide format. -/
theorem narrow_code {f : Fmt} (hw : f.Wide) (hmd : ∀ u, md ≠ .sr u) (ha : a < 2 ^ fmtF32.width) :
    (finiteCode fmtF32 a = true → RoundsTo f md (codeVal fmtF32 a) (signCode fmtF32 a) (encWide f (roundNum f md (decF32 a)))) ∧
      (nanCode fmtF32 a = true → encWide f (roundNum f md (decF32 a)) = canonical f) ∧
      (isInf fmtF32 a = true → encWide f (roundNum f md (decF32 a)) = infinity f (signCode fmtF32 a)) := by
  refine ⟨fun h => ?_, fun h => ?_, fun h => ?_⟩
  · obtain ⟨s, m, e, hdec, hval, hs⟩ := decode_fin h
    obtain rfl := hs (.inl wide_f32.e_ne)
    rw [decF32, hdec]
    exact roundsTo_val hw hval.symm hmd fun _ => rfl
  · obtain ⟨s, hs⟩ := decode_nan wide_f32.ok ha h
    rw [decF32, hs]
    rfl
  · rw [decF32, decode_inf wide_f32.ok ha h]
    rfl

/-- A code of BF16 or F16 in F32. -/
theorem widen_code {f : Fmt} (hf : f = fmtBF16 ∨ f = fmtF16) (hw : f.Wide) {h : Nat} (hlt : h < 2 ^ f.width) :
    (finiteCode f h = true → finiteCode fmtF32 (encF32 (decode f h)) = true ∧ codeVal fmtF32 (encF32 (decode f h)) = codeVal f h ∧
        signCode fmtF32 (encF32 (decode f h)) = signCode f h) ∧
      (nanCode f h = true → encF32 (decode f h) = canonical fmtF32) ∧
      (isInf f h = true → encF32 (decode f h) = infinity fmtF32 (signCode f h)) := by
  refine ⟨widen_fin hf hw, fun hn => ?_, fun hi => ?_⟩
  · obtain ⟨s, hs⟩ := decode_nan hw.ok hlt hn
    rw [hs]
    rfl
  · rw [decode_inf hw.ok hlt hi]
    rfl

end

/-- R67 to R69, R212. -/
theorem wideConversionsRoundOnce : WideConversionsRoundOnce := by
  intro v md ch e he _ hmd a A h fin narrows widens rounded i
  have ha : a < 2 ^ fmtF32.width := elem_lt 32 v e
  have hi : i = (toI32 md (decF32 a)).1 := over64_getD _ he
  have hinv (hone : (toI32 md (decF32 a)).2 = true) : (cvtF2I v md).2 = true := (over64_inv _).mpr ⟨e, he, hone⟩
  have hbf : (cvtF2BF v md).1.getD e 0 = encWide fmtBF16 (roundNum fmtBF16 md (decF32 a)) := over64_getD _ he
  have hh : (cvtF2H v md).1.getD e 0 = encWide fmtF16 (roundNum fmtF16 md (decF32 a)) := over64_getD _ he
  have hbf' : (cvtBF2F v ch).1.getD e 0 = encF32 (decode fmtBF16 h) := over64_getD _ he
  have hh' : (cvtH2F v ch).1.getD e 0 = encF32 (decode fmtF16 h) := over64_getD _ he
  have hint : (cvtI2F v md).1.getD e 0 = encWide fmtF32 (roundNum fmtF32 md (ofInt (BitVec.ofNat 32 a).toInt)) := by
    rw [← topKey_signed ha]
    exact over64_getD _ he
  refine ⟨?_, ?_, ?_, ?_, ?_, fun n hfin hn => ?_, fun hnan => ?_, fun hinf => ?_, fun hall => ?_⟩
  · simp only [narrows, hbf]
    exact narrow_code wide_bf16 hmd ha
  · simp only [narrows, hh]
    exact narrow_code wide_f16 hmd ha
  · simp only [widens, hbf']
    exact widen_code (.inl rfl) wide_bf16 (elem_lt 16 v _)
  · simp only [widens, hh']
    exact widen_code (.inr rfl) wide_f16 (elem_lt 16 v _)
  · rw [hint]
    exact roundsTo_ofInt wide_f32 hmd _
  · have hr : RoundedInt md (codeVal fmtF32 a) n := by
      cases md <;> exact hn
    obtain ⟨h1, h2⟩ := toI32_finite hmd hfin hr
    exact ⟨hi.trans h1, fun h => hinv (h2 h)⟩
  · have hz := toI32_nan (md := md) ha hnan
    exact ⟨hi.trans (congrArg Prod.fst hz), hinv (congrArg Prod.snd hz)⟩
  · have hz := toI32_inf (md := md) ha hinf
    exact ⟨hi.trans (congrArg Prod.fst hz), hinv (congrArg Prod.snd hz)⟩
  · exact over64_valid _ fun n hn => toI32_valid (hall n hn).1 (hall n hn).2

/-- Settles O20: the codes of every format are numbered by sign and magnitude, one rounding is a choice between neighbouring numbers, and each
function of the model rounds the exact value of its rule once. -/
theorem floatsListsAndConversionsHaveTheirValues : Obligations.FloatsListsAndConversionsHaveTheirValues :=
  ⟨hashesAreTheTables, floatFunctionsRoundOnce, reductionsAndScansAreTrees, topListsAreOrdered, quantizingRoundsOnce, scalesFitTheirBlock,
    wideConversionsRoundOnce⟩

end Sys2Proof.Machine
end

section
/-! SUPPORT. Slot words and their fields (R92, R99, R100): each unit's operation codes decode to the operations whose words have them (R101, R102). -/

namespace Sys2Proof

/-! ## Fields of a word -/

/-- A move slot's fields: source, destination or unit, operation code, guard (R92). -/
theorem fld_moveWord {s : BitVec 9} {dst opc : Nat} {g : BitVec 6} (hd : dst < 512) (ho : opc < 256) :
    fld (moveWord s dst opc g) 31 23 = s.toNat ∧ fld (moveWord s dst opc g) 22 14 = dst ∧
      fld (moveWord s dst opc g) 13 6 = opc ∧ fld (moveWord s dst opc g) 5 0 = g.toNat := by
  have hs := s.isLt
  have hg := g.isLt
  simp only [fld, moveWord]
  omega

/-- A sync slot's fields: operation, index, count, SELF, register, guard (R99). -/
theorem fld_syncWord {op i c self r : Nat} {g : BitVec 6} (ho : op < 16) (hi : i < 256) (hc : c < 256) (hs : self < 2) (hr : r < 32) :
    fld (syncWord op i c self r g) 31 28 = op ∧ fld (syncWord op i c self r g) 27 20 = i ∧ fld (syncWord op i c self r g) 19 12 = c ∧
      fld (syncWord op i c self r g) 11 11 = self ∧ fld (syncWord op i c self r g) 10 6 = r ∧ fld (syncWord op i c self r g) 5 0 = g.toNat := by
  have hg := g.isLt
  simp only [fld, syncWord]
  omega

/-- A K slot's fields: operation, scale register, base register, offset, guard (R100). -/
theorem fld_kWord {op b o : Nat} {k : BitVec 5} {g : BitVec 6} (hp : op < 16) (hb : b < 16) (ho : o < 2 ^ 13) :
    fld (kWord op k b o g) 31 28 = op ∧ fld (kWord op k b o g) 27 23 = k.toNat ∧ fld (kWord op k b o g) 22 19 = b ∧
      fld (kWord op k b o g) 18 6 = o ∧ fld (kWord op k b o g) 5 0 = g.toNat ∧ fld (kWord op k b o g) 22 11 = b * 2 ^ 8 + o / 2 ^ 5 ∧
      fld (kWord op k b o g) 10 6 = o % 2 ^ 5 := by
  have hk := k.isLt
  have hg := g.isLt
  simp only [fld, kWord]
  omega

theorem fld_lt (x hi lo : Nat) : fld x hi lo < 2 ^ (hi + 1 - lo) := Nat.mod_lt _ (by positivity)

/-- The number that a field's bit vector holds is the field. -/
theorem toNat_ofNat_fld (x hi lo : Nat) {n : Nat} (h : hi + 1 - lo ≤ n) : (BitVec.ofNat n (fld x hi lo)).toNat = fld x hi lo := by
  have hp : 2 ^ (hi + 1 - lo) ≤ 2 ^ n := Nat.pow_le_pow_right (by decide) h
  simpa [BitVec.toNat_ofNat] using Nat.mod_eq_of_lt (lt_of_lt_of_le (fld_lt x hi lo) hp)

/-- A 32-bit word is the move slot of its fields. -/
theorem eq_moveWord {w : Nat} (hw : w < 2 ^ 32) :
    moveWord (BitVec.ofNat 9 (fld w 31 23)) (fld w 22 14) (fld w 13 6) (BitVec.ofNat 6 (fld w 5 0)) = w := by
  simp only [moveWord, BitVec.toNat_ofNat, fld]
  omega

/-- A 32-bit word is the sync slot of its fields. -/
theorem eq_syncWord {w : Nat} (hw : w < 2 ^ 32) :
    syncWord (fld w 31 28) (fld w 27 20) (fld w 19 12) (fld w 11 11) (fld w 10 6) (BitVec.ofNat 6 (fld w 5 0)) = w := by
  simp only [syncWord, BitVec.toNat_ofNat, fld]
  omega

/-- A 32-bit word is the K slot of its fields. -/
theorem eq_kWord {w : Nat} (hw : w < 2 ^ 32) :
    kWord (fld w 31 28) (BitVec.ofNat 5 (fld w 27 23)) (fld w 22 19) (fld w 18 6) (BitVec.ofNat 6 (fld w 5 0)) = w := by
  simp only [kWord, BitVec.toNat_ofNat, fld]
  omega

/-! ## What a move slot decodes to -/

/-- `i` is the well-formed instruction of a move slot with these fields, but for the checks on guard and source. -/
structure Instr.IsMove (i : Instr) (kind : SlotKind) (s : BitVec 9) (dst opc : Nat) (g : BitVec 6) : Prop where
  kind : i.kind = kind
  src : i.srcCode = some s
  guard : i.guard = some g
  fields : i.fieldsOk = true
  word : encode i = moveWord s dst opc g

theorem Instr.wf_iff (i : Instr) : i.wf = true ↔ i.guardWf = true ∧ i.srcWf = true ∧ i.fieldsOk = true := by
  simp [Instr.wf, and_assoc]

theorem Instr.IsMove.wf_m {i : Instr} {s : BitVec 9} {dst opc : Nat} {g : BitVec 6} (h : i.IsMove .m s dst opc g)
    (hg : guardOk g.toNat = true) (hs : srcOkM s.toNat = true) : i.wf = true :=
  i.wf_iff.2 ⟨by simpa [Instr.guardWf, h.guard] using hg, by simpa [Instr.srcWf, h.src, h.kind] using hs, h.fields⟩

theorem Instr.IsMove.wf_w {i : Instr} {s : BitVec 9} {dst opc : Nat} {g : BitVec 6} (h : i.IsMove .w s dst opc g)
    (hg : guardOk g.toNat = true) (hs : srcOkW s.toNat = true) : i.wf = true :=
  i.wf_iff.2 ⟨by simpa [Instr.guardWf, h.guard] using hg, by simpa [Instr.srcWf, h.src, h.kind] using hs, h.fields⟩

section
variable {s : BitVec 9} {g : BitVec 6} {i : Instr} {n : Nat}

theorem decAlu_ok {u w : BitVec 1} (h : decAlu s u w g n = .ok i) : i.IsMove .m s (0x0C0 + u.toNat) (w.toNat * 128 + n) g := by
  unfold decAlu at h
  split at h <;> cases h <;> exact ⟨rfl, rfl, rfl, rfl, rfl⟩

theorem decAu_ok {b : BitVec 4} (h : decAu s b g n = .ok i) : i.IsMove .m s 0x0C2 (b.toNat * 16 + n) g := by
  unfold decAu at h
  split at h <;> cases h <;> exact ⟨rfl, rfl, rfl, rfl, rfl⟩

theorem decC_ok (h : decC s g n = .ok i) : i.IsMove .m s 0x0C3 n g := by
  unfold decC at h
  split at h <;> cases h <;> exact ⟨rfl, rfl, rfl, rfl, rfl⟩

theorem decL_ok {a : BitVec 2} {b : BitVec 4} (h : decL s a b g n = .ok i) : i.IsMove .m s (0x0C4 + a.toNat) (b.toNat * 16 + n) g := by
  unfold decL at h
  split at h <;> cases h <;> exact ⟨rfl, rfl, rfl, rfl, rfl⟩

theorem decAt_ok {a : BitVec 2} {b : BitVec 4} (h : decAt s a b g n = .ok i) : i.IsMove .m s (0x0C8 + a.toNat) (b.toNat * 16 + n) g := by
  unfold decAt at h
  split at h <;> cases h <;> exact ⟨rfl, rfl, rfl, rfl, rfl⟩

theorem decD_ok (h : decD s g n = .ok i) : i.IsMove .m s 0x0CE n g := by
  unfold decD at h
  split at h <;> cases h <;> exact ⟨rfl, rfl, rfl, rfl, rfl⟩

theorem decPs_ok (h : decPs s g n = .ok i) : i.IsMove .m s 0x0CF n g := by
  unfold decPs at h
  split at h <;> cases h <;> exact ⟨rfl, rfl, rfl, rfl, rfl⟩

theorem decLp_ok (h : decLp s g n = .ok i) : i.IsMove .m s 0x0D0 n g := by
  unfold decLp at h
  split at h <;> cases h <;> exact ⟨rfl, rfl, rfl, rfl, rfl⟩

theorem decBq_ok (h : decBq s g n = .ok i) : i.IsMove .m s 0x0D1 n g := by
  unfold decBq at h
  split at h <;> cases h <;> exact ⟨rfl, rfl, rfl, rfl, rfl⟩

theorem decSys_ok (h : decSys s g n = .ok i) : i.IsMove .m s 0x0D2 n g := by
  unfold decSys at h
  split at h <;> cases h <;> exact ⟨rfl, rfl, rfl, rfl, rfl⟩

theorem decV_ok {t : BitVec 3} (h : decV s t g n = .ok i) : i.IsMove .w s 0x0C0 (8 * n + t.toNat) g := by
  unfold decV at h
  split at h <;> cases h <;> exact ⟨rfl, rfl, rfl, rfl, rfl⟩

/-- R205: a wide conversion has fm number 0. -/
theorem decX_ok {f : BitVec 4} (h : decX s f g n = .ok i) : i.IsMove .w s 0x0C1 (16 * n + f.toNat) g := by
  unfold decX at h
  split at h <;> try split at h
  all_goals cases h
  all_goals try subst f
  all_goals exact ⟨rfl, rfl, rfl, rfl, rfl⟩

/-- R219: an operation without a format has fm number 0. -/
theorem decMat_ok {f : BitVec 4} (h : decMat s f g n = .ok i) : i.IsMove .w s 0x0C2 (16 * n + f.toNat) g := by
  unfold decMat at h
  split at h <;> try split at h
  all_goals cases h
  all_goals try subst f
  all_goals exact ⟨rfl, rfl, rfl, rfl, rfl⟩

theorem decRa_ok (hn : n < 256) (h : decRa s g n = .ok i) : i.IsMove .m s 0x0CC n g := by
  have hb := toNat_ofNat_fld n 7 4 (le_refl 4)
  have hp := toNat_ofNat_fld n 3 1 (le_refl 3)
  unfold decRa at h
  split at h <;> cases h
  case isTrue h0 =>
    refine ⟨rfl, rfl, rfl, rfl, ?_⟩
    simp only [encode, hb, hp]
    congr 1
    simp only [fld] at h0 ⊢
    omega
  case isFalse h0 =>
    refine ⟨rfl, rfl, rfl, rfl, ?_⟩
    simp only [encode, hb, hp]
    congr 1
    simp only [fld] at h0 ⊢
    omega

theorem decFe_ok (hn : n < 256) (h : decFe s g n = .ok i) : i.IsMove .m s 0x0CD n g := by
  have hp := toNat_ofNat_fld n 2 0 (le_refl 3)
  unfold decFe at h
  split at h
  · cases h
  next h76 =>
    have h0 : fld n 7 6 = 0 := by simpa using h76
    split at h
    next h53 =>
      split at h <;> cases h
      case isTrue h7 =>
        refine ⟨rfl, rfl, rfl, rfl, ?_⟩
        simp only [encode]
        congr 1
        simp only [fld] at h0 h53 h7
        omega
      case isFalse h7 =>
        refine ⟨rfl, rfl, rfl, ?_, ?_⟩
        · simpa [Instr.fieldsOk, hp] using h7
        · simp only [encode, hp]
          congr 1
          simp only [fld] at h0 h53 ⊢
          omega
    next h53 =>
      cases h
      refine ⟨rfl, rfl, rfl, rfl, ?_⟩
      simp only [encode, hp]
      congr 1
      simp only [fld] at h0 h53 ⊢
      omega
    next h53 =>
      cases h
      refine ⟨rfl, rfl, rfl, rfl, ?_⟩
      simp only [encode, hp]
      congr 1
      simp only [fld] at h0 h53 ⊢
      omega
    · cases h

end

/-! ## A word that decodes is the word of its instruction -/

/-- A move slot's instruction, found under the checks on guard and source, is well-formed and has the slot's word. -/
theorem Instr.IsMove.of_m {w dst opc : Nat} {i : Instr} (hw : w < 2 ^ 32) (hg : ¬(!guardOk (fld w 5 0)) = true) (hs : ¬(!srcOkM (fld w 31 23)) = true)
    (h : i.IsMove .m (BitVec.ofNat 9 (fld w 31 23)) dst opc (BitVec.ofNat 6 (fld w 5 0))) (hd : dst = fld w 22 14) (ho : opc = fld w 13 6) :
    i.wf = true ∧ i.kind = .m ∧ encode i = w := by
  subst hd ho
  refine ⟨h.wf_m ?_ ?_, h.kind, h.word.trans (eq_moveWord hw)⟩
  · simpa [toNat_ofNat_fld w 5 0 (le_refl 6)] using hg
  · simpa [toNat_ofNat_fld w 31 23 (le_refl 9)] using hs

theorem Instr.IsMove.of_w {w dst opc : Nat} {i : Instr} (hw : w < 2 ^ 32) (hg : ¬(!guardOk (fld w 5 0)) = true) (hs : ¬(!srcOkW (fld w 31 23)) = true)
    (h : i.IsMove .w (BitVec.ofNat 9 (fld w 31 23)) dst opc (BitVec.ofNat 6 (fld w 5 0))) (hd : dst = fld w 22 14) (ho : opc = fld w 13 6) :
    i.wf = true ∧ i.kind = .w ∧ encode i = w := by
  subst hd ho
  refine ⟨h.wf_w ?_ ?_, h.kind, h.word.trans (eq_moveWord hw)⟩
  · simpa [toNat_ofNat_fld w 5 0 (le_refl 6)] using hg
  · simpa [toNat_ofNat_fld w 31 23 (le_refl 9)] using hs

/-- An operation code is made of its upper and its lower four bits. -/
theorem opc_halves {o : Nat} (ho : o < 256) :
    (BitVec.ofNat 4 (fld o 7 4)).toNat * 16 + fld o 3 0 = o ∧ 16 * fld o 7 4 + (BitVec.ofNat 4 (fld o 3 0)).toNat = o := by
  simp only [BitVec.toNat_ofNat, fld]
  omega

/-- R92, R95, R117: a word that decodes as an m slot is the word of the well-formed instruction of the scalar bus that it decodes to. -/
theorem decodeM_ok {w : Nat} {i : Instr} (hw : w < 2 ^ 32) (h : decodeM w = .ok i) : i.wf = true ∧ i.kind = .m ∧ encode i = w := by
  have hd : fld w 22 14 < 512 := fld_lt w 22 14
  have ho : fld w 13 6 < 256 := fld_lt w 13 6
  obtain ⟨hb, -⟩ := opc_halves ho
  unfold decodeM at h
  obtain ⟨-, h⟩ | ⟨hg, h⟩ := ite_eq_iff.1 h
  · cases h
  obtain ⟨-, h⟩ | ⟨hs, h⟩ := ite_eq_iff.1 h
  · cases h
  obtain ⟨hdst, h⟩ | ⟨-, h⟩ := ite_eq_iff.1 h
  · obtain ⟨h0, h⟩ | ⟨-, h⟩ := ite_eq_iff.1 h <;> cases h
    have hdn := toNat_ofNat_fld w 22 14 (le_refl 9)
    exact Instr.IsMove.of_m hw hg hs ⟨rfl, rfl, rfl, by simpa [Instr.fieldsOk, hdn] using hdst, rfl⟩ hdn h0.symm
  obtain ⟨-, h⟩ | ⟨hr, h⟩ := ite_eq_iff.1 h
  · cases h
  simp only [Bool.or_eq_true, decide_eq_true_eq, not_or, not_lt] at hr
  obtain ⟨hlo, hhi⟩ := hr
  obtain ⟨hu, h⟩ | ⟨ha, h⟩ := ite_eq_iff.1 h
  · refine (decAlu_ok h).of_m hw hg hs ?_ ?_
    · simp only [BitVec.toNat_ofNat]; omega
    · rw [toNat_ofNat_fld _ 7 7 (le_refl 1)]
      simp only [fld] at ho ⊢
      omega
  obtain ⟨hu, h⟩ | ⟨hau, h⟩ := ite_eq_iff.1 h
  · exact (decAu_ok h).of_m hw hg hs hu.symm hb
  obtain ⟨hu, h⟩ | ⟨hc, h⟩ := ite_eq_iff.1 h
  · exact (decC_ok h).of_m hw hg hs hu.symm rfl
  obtain ⟨hu, h⟩ | ⟨hl, h⟩ := ite_eq_iff.1 h
  · exact (decL_ok h).of_m hw hg hs (by simp only [BitVec.toNat_ofNat]; omega) hb
  obtain ⟨hu, h⟩ | ⟨hat, h⟩ := ite_eq_iff.1 h
  · exact (decAt_ok h).of_m hw hg hs (by simp only [BitVec.toNat_ofNat]; omega) hb
  obtain ⟨hu, h⟩ | ⟨hra, h⟩ := ite_eq_iff.1 h
  · exact (decRa_ok ho h).of_m hw hg hs hu.symm rfl
  obtain ⟨hu, h⟩ | ⟨hfe, h⟩ := ite_eq_iff.1 h
  · exact (decFe_ok ho h).of_m hw hg hs hu.symm rfl
  obtain ⟨hu, h⟩ | ⟨hcmd, h⟩ := ite_eq_iff.1 h
  · exact (decD_ok h).of_m hw hg hs hu.symm rfl
  obtain ⟨hu, h⟩ | ⟨hps, h⟩ := ite_eq_iff.1 h
  · exact (decPs_ok h).of_m hw hg hs hu.symm rfl
  obtain ⟨hu, h⟩ | ⟨hlp, h⟩ := ite_eq_iff.1 h
  · exact (decLp_ok h).of_m hw hg hs hu.symm rfl
  obtain ⟨hu, h⟩ | ⟨hbq, h⟩ := ite_eq_iff.1 h
  · exact (decBq_ok h).of_m hw hg hs hu.symm rfl
  · exact (decSys_ok h).of_m hw hg hs (by omega) rfl

/-- R92, R96, R117: a word that decodes as a w slot is the word of the well-formed instruction of the vector bus that it decodes to. -/
theorem decodeW_ok {w : Nat} {i : Instr} (hw : w < 2 ^ 32) (h : decodeW w = .ok i) : i.wf = true ∧ i.kind = .w ∧ encode i = w := by
  have ho : fld w 13 6 < 256 := fld_lt w 13 6
  obtain ⟨-, hf⟩ := opc_halves ho
  unfold decodeW at h
  obtain ⟨-, h⟩ | ⟨hg, h⟩ := ite_eq_iff.1 h
  · cases h
  obtain ⟨-, h⟩ | ⟨hs, h⟩ := ite_eq_iff.1 h
  · cases h
  obtain ⟨hdst, h⟩ | ⟨-, h⟩ := ite_eq_iff.1 h
  · obtain ⟨h0, h⟩ | ⟨-, h⟩ := ite_eq_iff.1 h <;> cases h
    have hdn := toNat_ofNat_fld w 22 14 (le_refl 9)
    exact Instr.IsMove.of_w hw hg hs ⟨rfl, rfl, rfl, by simpa [Instr.fieldsOk, hdn] using hdst, rfl⟩ hdn h0.symm
  obtain ⟨hu, h⟩ | ⟨-, h⟩ := ite_eq_iff.1 h
  · refine (decV_ok h).of_w hw hg hs hu.symm ?_
    rw [toNat_ofNat_fld _ 2 0 (le_refl 3)]
    simp only [fld] at ho ⊢
    omega
  obtain ⟨hu, h⟩ | ⟨-, h⟩ := ite_eq_iff.1 h
  · exact (decX_ok h).of_w hw hg hs hu.symm hf
  obtain ⟨hu, h⟩ | ⟨-, h⟩ := ite_eq_iff.1 h
  · exact (decMat_ok h).of_w hw hg hs hu.symm hf
  · cases h

/-- R99, R117: a word that decodes as a sync slot is the word of the well-formed instruction that it decodes to. -/
theorem decodeSync_ok {w : Nat} {i : Instr} (hw : w < 2 ^ 32) (h : decodeSync w = .ok i) : i.wf = true ∧ i.kind = .sync ∧ encode i = w := by
  have hgrd := toNat_ofNat_fld w 5 0 (le_refl 6)
  have hi := toNat_ofNat_fld w 27 20 (le_refl 8)
  have hc := toNat_ofNat_fld w 19 12 (le_refl 8)
  have hself := toNat_ofNat_fld w 11 11 (le_refl 1)
  have hr := toNat_ofNat_fld w 10 6 (le_refl 5)
  have he := eq_syncWord hw
  unfold decodeSync at h
  obtain ⟨-, h⟩ | ⟨hg, h⟩ := ite_eq_iff.1 h
  · cases h
  have hg' : guardOk (BitVec.ofNat 6 (fld w 5 0)).toNat = true := by rw [hgrd]; simpa using hg
  split at h
  on_goal 10 => cases h
  all_goals
    rename_i hop
    obtain ⟨hcond, h⟩ | ⟨-, h⟩ := ite_eq_iff.1 h <;> cases h
    simp only [Bool.and_eq_true, Bool.or_eq_true, decide_eq_true_eq] at hcond
    refine ⟨(Instr.wf_iff _).2 ⟨hg', rfl, ?_⟩, rfl, ?_⟩
    · simp [Instr.fieldsOk, hi, hself, hr, hcond]
    · simp only [encode, hi, hc, hself, hr]
      simpa only [hop, hcond] using he

/-- R100, R117: a word that decodes as a K slot is the word of the well-formed instruction that it decodes to. -/
theorem decodeK_ok {w : Nat} {i : Instr} (hw : w < 2 ^ 32) (h : decodeK w = .ok i) : i.wf = true ∧ i.kind = .k ∧ encode i = w := by
  have hgrd := toNat_ofNat_fld w 5 0 (le_refl 6)
  have hb := toNat_ofNat_fld w 22 19 (le_refl 4)
  have ho := toNat_ofNat_fld w 18 6 (le_refl 13)
  have hj := toNat_ofNat_fld w 10 6 (le_refl 5)
  have he := eq_kWord hw
  unfold decodeK at h
  obtain ⟨-, h⟩ | ⟨hg, h⟩ := ite_eq_iff.1 h
  · cases h
  have hg' : guardOk (BitVec.ofNat 6 (fld w 5 0)).toNat = true := by rw [hgrd]; simpa using hg
  have hwf : ∀ i : Instr, i.guardWf = true → i.srcWf = true → i.fieldsOk = true → i.wf = true := fun i h1 h2 h3 => i.wf_iff.2 ⟨h1, h2, h3⟩
  split at h
  on_goal 5 => cases h
  on_goal 3 =>
    rename_i hop
    obtain ⟨hz, h⟩ | ⟨-, h⟩ := ite_eq_iff.1 h <;> cases h
    refine ⟨hwf _ hg' rfl rfl, rfl, ?_⟩
    have hb0 : fld w 22 19 = 0 := by simp only [fld] at hz ⊢; omega
    have ho' : fld w 18 6 = fld w 10 6 := by simp only [fld] at hz ⊢; omega
    simp only [encode, hj]
    simpa only [hop, hb0, ho'] using he
  all_goals
    rename_i hop
    cases h
    refine ⟨hwf _ hg' rfl rfl, rfl, ?_⟩
    simp only [encode, hb, ho]
    simpa only [hop] using he

end Sys2Proof
end

section
/-! SUPPORT. Every well-formed instruction's word decodes to it, alone and in a bundle of its own (R90 to R101, R116). -/

namespace Sys2Proof

/-! ## The unit of a move slot -/

/-- The instruction of an m slot that triggers unit `dst` (R95, R101). -/
def unitM (s : BitVec 9) (dst opc : Nat) (g : BitVec 6) : Except DecErr Instr :=
  let b : BitVec 4 := BitVec.ofNat 4 (fld opc 7 4)
  if dst ≤ 0x0C1 then decAlu s (BitVec.ofNat 1 (dst - 0x0C0)) (BitVec.ofNat 1 (fld opc 7 7)) g (fld opc 6 0)
  else if dst = 0x0C2 then decAu s b g (fld opc 3 0)
  else if dst = 0x0C3 then decC s g opc
  else if dst ≤ 0x0C7 then decL s (BitVec.ofNat 2 (dst - 0x0C4)) b g (fld opc 3 0)
  else if dst ≤ 0x0CB then decAt s (BitVec.ofNat 2 (dst - 0x0C8)) b g (fld opc 3 0)
  else if dst = 0x0CC then decRa s g opc
  else if dst = 0x0CD then decFe s g opc
  else if dst = 0x0CE then decD s g opc
  else if dst = 0x0CF then decPs s g opc
  else if dst = 0x0D0 then decLp s g opc
  else if dst = 0x0D1 then decBq s g opc
  else decSys s g opc

section
variable {s : BitVec 9} {g : BitVec 6} {i : Instr} {dst opc n : Nat}

theorem decodeM_unit {w : Nat} (hg : guardOk g.toNat = true) (hs : srcOkM s.toNat = true) (hlo : 0x0C0 ≤ dst) (hhi : dst ≤ 0x0D2)
    (h1 : fld w 31 23 = s.toNat) (h2 : fld w 22 14 = dst) (h3 : fld w 13 6 = opc) (h4 : fld w 5 0 = g.toNat) : decodeM w = unitM s dst opc g := by
  have hd : dstOkM dst = false := by simp only [dstOkM, Bool.or_eq_false_iff, Bool.and_eq_false_iff, decide_eq_false_iff_not]; omega
  have hr : (decide (dst < 0x0C0) || decide (0x0D2 < dst)) = false := by simp only [Bool.or_eq_false_iff, decide_eq_false_iff_not]; omega
  unfold decodeM unitM
  simp only [h1, h2, h3, h4, BitVec.ofNat_toNat, BitVec.setWidth_eq]
  rw [if_neg (by simp [hg]), if_neg (by simp [hs]), if_neg (by simp [hd]), if_neg (by simp [hr])]

/-- `w` is a 32-bit word that decodes to `i` in a slot of kind `kind`. -/
def WordOf (kind : SlotKind) (w : Nat) (i : Instr) : Prop := w < 2 ^ 32 ∧ decodeSlot kind w = some i

/-- The word of an m slot decodes to what its unit makes of the operation code. -/
theorem unit_word (hg : guardOk g.toNat = true) (hs : srcOkM s.toNat = true) (hd : 0x0C0 ≤ dst ∧ dst ≤ 0x0D2) (ho : opc < 256)
    (h : unitM s dst opc g = .ok i) : WordOf .m (moveWord s dst opc g) i :=
  have hf := fld_moveWord (s := s) (g := g) (dst := dst) (opc := opc) (by omega) ho
  ⟨moveWord_lt _ _ _ _ (by omega) ho, by
    rw [decodeSlot, decodeM_unit hg hs hd.1 hd.2 hf.1 hf.2.1 hf.2.2.1 hf.2.2.2, h, exceptOpt]⟩

/-- The two halves of an operation code that names a base register or a vector format. -/
theorem fld_opc (b : BitVec 4) (hn : n < 16) : fld (b.toNat * 16 + n) 7 4 = b.toNat ∧ fld (b.toNat * 16 + n) 3 0 = n := by
  have hb := b.isLt
  simp only [fld]
  omega

theorem alu_word {u w : BitVec 1} (hg : guardOk g.toNat = true) (hs : srcOkM s.toNat = true) (hn : n < 128) (h : decAlu s u w g n = .ok i) :
    WordOf .m (moveWord s (0x0C0 + u.toNat) (w.toNat * 128 + n) g) i := by
  have hu := u.isLt
  have hw := w.isLt
  refine unit_word hg hs (by omega) (by omega) ?_
  have h7 : fld (w.toNat * 128 + n) 7 7 = w.toNat ∧ fld (w.toNat * 128 + n) 6 0 = n := by simp only [fld]; omega
  unfold unitM
  rw [if_pos (by omega), Nat.add_sub_cancel_left, h7.1, h7.2]
  simpa using h

theorem au_word {b : BitVec 4} (hg : guardOk g.toNat = true) (hs : srcOkM s.toNat = true) (hn : n < 16) (h : decAu s b g n = .ok i) :
    WordOf .m (moveWord s 0x0C2 (b.toNat * 16 + n) g) i := by
  have hb := b.isLt
  obtain ⟨h7, h3⟩ := fld_opc b hn
  refine unit_word hg hs (by decide) (by omega) ?_
  unfold unitM
  rw [if_neg (by decide), if_pos rfl, h7, h3]
  simpa using h

theorem l_word {a : BitVec 2} {b : BitVec 4} (hg : guardOk g.toNat = true) (hs : srcOkM s.toNat = true) (hn : n < 16) (h : decL s a b g n = .ok i) :
    WordOf .m (moveWord s (0x0C4 + a.toNat) (b.toNat * 16 + n) g) i := by
  have ha := a.isLt
  have hb := b.isLt
  obtain ⟨h7, h3⟩ := fld_opc b hn
  refine unit_word hg hs (by omega) (by omega) ?_
  unfold unitM
  rw [if_neg (by omega), if_neg (by omega), if_neg (by omega), if_pos (by omega), Nat.add_sub_cancel_left, h7, h3]
  simpa using h

theorem at_word {a : BitVec 2} {b : BitVec 4} (hg : guardOk g.toNat = true) (hs : srcOkM s.toNat = true) (hn : n < 16) (h : decAt s a b g n = .ok i) :
    WordOf .m (moveWord s (0x0C8 + a.toNat) (b.toNat * 16 + n) g) i := by
  have ha := a.isLt
  have hb := b.isLt
  obtain ⟨h7, h3⟩ := fld_opc b hn
  refine unit_word hg hs (by omega) (by omega) ?_
  unfold unitM
  rw [if_neg (by omega), if_neg (by omega), if_neg (by omega), if_neg (by omega), if_pos (by omega), Nat.add_sub_cancel_left, h7, h3]
  simpa using h

/-- R136: the eight levels of LOOP. -/
theorem loop_word {l : BitVec 3} (hg : guardOk g.toNat = true) (hs : srcOkM s.toNat = true) :
    WordOf .m (moveWord s 0x0C3 (8 + l.toNat) g) (.loop s l g) := by
  have hl := l.isLt
  refine unit_word hg hs (by decide) (by omega) ?_
  have hdec : ∀ l : BitVec 3, decC s g (8 + l.toNat) = .ok (.loop s l g) := by
    intro l
    obtain ⟨⟨n, hn⟩⟩ := l
    interval_cases n <;> rfl
  exact hdec l

/-- R182: LDACQ and STREL differ in the low bit, the scope stands above it. -/
theorem ra_word {b : BitVec 4} {p : BitVec 3} {r : Nat} (hg : guardOk g.toNat = true) (hs : srcOkM s.toNat = true) (hr : r < 2)
    (ho : b.toNat * 16 + p.toNat * 2 + r = opc) (h : (if r = 0 then .ldacq s b p g else .strel s b p g) = i) : WordOf .m (moveWord s 0x0CC opc g) i := by
  have hb := b.isLt
  have hp := p.isLt
  have hf : fld opc 7 4 = b.toNat ∧ fld opc 3 1 = p.toNat ∧ fld opc 0 0 = r := by simp only [fld]; omega
  obtain ⟨h7, h3, h0⟩ := hf
  refine unit_word hg hs (by decide) (by omega) ?_
  subst h
  change decRa s g _ = _
  unfold decRa
  rw [h7, h3, h0]
  split <;> simp

/-- R184: FENCE at scope 7 would be SVFENCE. -/
theorem fence_word {p : BitVec 3} (hg : guardOk g.toNat = true) (hs : srcOkM s.toNat = true) (h7 : p.toNat ≠ 7) :
    WordOf .m (moveWord s 0x0CD p.toNat g) (.fence s p g) := by
  have hp := p.isLt
  have hf : fld p.toNat 7 6 = 0 ∧ fld p.toNat 5 3 = 0 ∧ fld p.toNat 2 0 = p.toNat := by simp only [fld]; omega
  obtain ⟨h76, h53, h20⟩ := hf
  refine unit_word hg hs (by decide) (by omega) ?_
  change decFe s g _ = _
  unfold decFe
  rw [h76, h53, h20]
  simp [h7]

/-- R184: FENCEW and SWFENCE with their scope. -/
theorem fe_word {p : BitVec 3} (hg : guardOk g.toNat = true) (hs : srcOkM s.toNat = true) (hn : n = 8 ∨ n = 16)
    (h : (if n = 8 then .fencew s p g else .swfence s p g) = i) : WordOf .m (moveWord s 0x0CD (n + p.toNat) g) i := by
  have hp := p.isLt
  have hf : fld (n + p.toNat) 7 6 = 0 ∧ fld (n + p.toNat) 5 3 = n / 8 ∧ fld (n + p.toNat) 2 0 = p.toNat := by simp only [fld]; omega
  obtain ⟨h76, h53, h20⟩ := hf
  refine unit_word hg hs (by decide) (by omega) ?_
  subst h
  change decFe s g _ = _
  unfold decFe
  rw [h76, h53, h20]
  obtain rfl | rfl := hn <;> simp

/-- The word of a w slot that triggers v, x or m decodes to what the unit makes of its operation code. -/
theorem decodeW_unit {w : Nat} (hg : guardOk g.toNat = true) (hs : srcOkW s.toNat = true) (hlo : 0x0C0 ≤ dst) (hhi : dst ≤ 0x0C2)
    (h1 : fld w 31 23 = s.toNat) (h2 : fld w 22 14 = dst) (h3 : fld w 13 6 = opc) (h4 : fld w 5 0 = g.toNat) :
    decodeW w =
      if dst = 0x0C0 then decV s (BitVec.ofNat 3 (fld opc 2 0)) g (fld opc 7 3)
      else if dst = 0x0C1 then decX s (BitVec.ofNat 4 (fld opc 3 0)) g (fld opc 7 4)
      else decMat s (BitVec.ofNat 4 (fld opc 3 0)) g (fld opc 7 4) := by
  have hd : dstOkW dst = false := by simp only [dstOkW, Bool.or_eq_false_iff, Bool.and_eq_false_iff, decide_eq_false_iff_not]; omega
  unfold decodeW
  simp only [h1, h2, h3, h4, BitVec.ofNat_toNat, BitVec.setWidth_eq]
  rw [if_neg (by simp [hg]), if_neg (by simp [hs]), if_neg (by simp [hd])]
  split
  · rfl
  · split
    · rfl
    · rw [if_pos (by omega)]

/-- The word of a w slot that triggers a unit decodes to what the unit makes of its operation code. -/
theorem vector_word (hg : guardOk g.toNat = true) (hs : srcOkW s.toNat = true) (hd : 0x0C0 ≤ dst ∧ dst ≤ 0x0C2) (ho : opc < 256)
    (h : (if dst = 0x0C0 then decV s (BitVec.ofNat 3 (fld opc 2 0)) g (fld opc 7 3)
      else if dst = 0x0C1 then decX s (BitVec.ofNat 4 (fld opc 3 0)) g (fld opc 7 4)
      else decMat s (BitVec.ofNat 4 (fld opc 3 0)) g (fld opc 7 4)) = .ok i) : WordOf .w (moveWord s dst opc g) i :=
  have hf := fld_moveWord (s := s) (g := g) (dst := dst) (opc := opc) (by omega) ho
  ⟨moveWord_lt _ _ _ _ (by omega) ho, by
    rw [decodeSlot, decodeW_unit hg hs hd.1 hd.2 hf.1 hf.2.1 hf.2.2.1 hf.2.2.2, h, exceptOpt]⟩

theorem v_word {t : BitVec 3} (hg : guardOk g.toNat = true) (hs : srcOkW s.toNat = true) (hn : n % 8 = 0 ∧ n < 256)
    (h : decV s t g (n / 8) = .ok i) : WordOf .w (moveWord s 0x0C0 (n + t.toNat) g) i := by
  have ht := t.isLt
  have hf : fld (n + t.toNat) 2 0 = t.toNat ∧ fld (n + t.toNat) 7 3 = n / 8 := by simp only [fld]; omega
  refine vector_word hg hs (by decide) (by omega) ?_
  rw [if_pos rfl, hf.1, hf.2]
  simpa using h

/-- The two halves of an operation code that names a format. -/
theorem fld_fm {f : BitVec 4} (hn : n % 16 = 0 ∧ n < 256) : fld (n + f.toNat) 3 0 = f.toNat ∧ fld (n + f.toNat) 7 4 = n / 16 := by
  have hf := f.isLt
  simp only [fld]
  omega

theorem x_word {f : BitVec 4} (hg : guardOk g.toNat = true) (hs : srcOkW s.toNat = true) (hn : n % 16 = 0 ∧ n < 256)
    (h : decX s f g (n / 16) = .ok i) : WordOf .w (moveWord s 0x0C1 (n + f.toNat) g) i := by
  have hf := f.isLt
  refine vector_word hg hs (by decide) (by omega) ?_
  rw [if_neg (by decide), if_pos rfl, (fld_fm hn).1, (fld_fm hn).2]
  simpa using h

theorem mat_word {f : BitVec 4} (hg : guardOk g.toNat = true) (hs : srcOkW s.toNat = true) (hn : n % 16 = 0 ∧ n < 256)
    (h : decMat s f g (n / 16) = .ok i) : WordOf .w (moveWord s 0x0C2 (n + f.toNat) g) i := by
  have hf := f.isLt
  refine vector_word hg hs (by decide) (by omega) ?_
  rw [if_neg (by decide), if_neg (by decide), (fld_fm hn).1, (fld_fm hn).2]
  simpa using h

end

section
variable {s d : BitVec 9} {g : BitVec 6}

theorem move_word (hg : guardOk g.toNat = true) (hs : srcOkM s.toNat = true) (hd : dstOkM d.toNat = true) :
    WordOf .m (moveWord s d.toNat 0 g) (.move false s d g) := by
  obtain ⟨h1, h2, h3, h4⟩ := fld_moveWord (s := s) (g := g) d.isLt (show 0 < 256 by decide)
  refine ⟨moveWord_lt _ _ _ _ d.isLt (by decide), ?_⟩
  generalize moveWord s d.toNat 0 g = w at *
  unfold decodeSlot decodeM
  simp only [h1, h2, h3, h4, hg, hs, hd, BitVec.ofNat_toNat, BitVec.setWidth_eq]
  rfl

theorem vmove_word (hg : guardOk g.toNat = true) (hs : srcOkW s.toNat = true) (hd : dstOkW d.toNat = true) :
    WordOf .w (moveWord s d.toNat 0 g) (.move true s d g) := by
  obtain ⟨h1, h2, h3, h4⟩ := fld_moveWord (s := s) (g := g) d.isLt (show 0 < 256 by decide)
  refine ⟨moveWord_lt _ _ _ _ d.isLt (by decide), ?_⟩
  generalize moveWord s d.toNat 0 g = w at *
  unfold decodeSlot decodeW
  simp only [h1, h2, h3, h4, hg, hs, hd, BitVec.ofNat_toNat, BitVec.setWidth_eq]
  rfl

end

/-- R92, R95, R101: the word of a well-formed instruction of an m slot decodes to it. -/
theorem encode_wordOf_m (i : Instr) (hw : i.wf = true) (hk : i.kind = .m) : WordOf .m (encode i) i := by
  obtain ⟨hg, hs, hf⟩ := i.wf_iff.1 hw
  clear hw
  cases i with
  | move vec src d grd =>
    cases vec with
    | true => cases hk
    | false => exact move_word hg hs hf
  | add src u w grd | sub src u w grd | and src u w grd | or src u w grd | xor src u w grd | andn src u w grd | shl src u w grd | shr src u w grd
  | sar src u w grd | rol src u w grd | ror src u w grd | min src u w grd | max src u w grd | minu src u w grd | maxu src u w grd
  | clz src u w grd | ctz src u w grd | popc src u w grd | mul src u w grd | mulhs src u w grd | mulhu src u w grd | divs src u w grd
  | divu src u w grd | rems src u w grd | remu src u w grd | addsat src u w grd | subsat src u w grd | clmul src u w grd | clmulh src u w grd
  | pxor src u w grd | pext src u w grd | pdep src u w grd | sext src u w grd | zext src u w grd | eq src u w grd | ne src u w grd
  | lt src u w grd | le src u w grd | ltu src u w grd | leu src u w grd | hmix src u w grd | bswap src u w grd | pass src u w grd
  | abs src u w grd => exact alu_word hg hs (by decide) rfl
  | setb src b grd | addb src b grd | seti src b grd | setls src b grd | setwrap src b grd | rdb src b grd | settrp src b grd | rstb src b grd =>
    exact au_word hg hs (by decide) rfl
  | jmp src grd | jmpr src grd | call src grd | ret src grd | exit src grd | trap src grd | tfence src grd | yieldp src grd | brk src grd
  | phase src grd | rdsr src grd | wrsr src grd | clrstk src grd | idle src grd => exact unit_word hg hs (by decide) (by decide) rfl
  | loop src l grd => exact loop_word hg hs
  | ld8s src a b grd | ld8u src a b grd | ld16s src a b grd | ld16u src a b grd | ld32s src a b grd | ld32u src a b grd | ld64 src a b grd
  | st8 src a b grd | st16 src a b grd | st32 src a b grd | st64 src a b grd | ldv src a b grd | stv src a b grd | ldvs src a b grd
  | pref src a b grd | waita src a b grd => exact l_word hg hs (by decide) rfl
  | aadd src a b grd | asub src a b grd | aand src a b grd | aor src a b grd | axor src a b grd | amin src a b grd | amax src a b grd
  | aminu src a b grd | amaxu src a b grd | axchg src a b grd | acas src a b grd | aincw src a b grd | afadd src a b grd | abar src a b grd =>
    exact at_word hg hs (by decide) rfl
  | ldacq src b p grd => exact ra_word hg hs (by decide) (Nat.add_zero _) (if_pos rfl)
  | strel src b p grd => exact ra_word hg hs (by decide) rfl (if_neg one_ne_zero)
  | fence src p grd => exact fence_word hg hs (by simpa [Instr.fieldsOk] using hf)
  | svfence src grd => exact unit_word hg hs (by decide) (by decide) rfl
  | fencew src p grd => exact fe_word hg hs (by decide) rfl
  | swfence src p grd => exact fe_word hg hs (by decide) rfl
  | cpy2d src grd | cpym src grd | gath src grd | scat src grd | fill src grd | kvs src grd | kvapp src grd | kvfork src grd | kvdrop src grd
  | nrf src grd | prism src grd | migr src grd | enq src grd | mreb src grd | score src grd | rfill src grd =>
    exact unit_word hg hs (by decide) (by decide) rfl
  | pslook src grd | psdep src grd | psrel src grd | pspin src grd => exact unit_word hg hs (by decide) (by decide) rfl
  | lpsub src grd | lpdep src grd | lpres src grd | lprb src grd | lpset src grd => exact unit_word hg hs (by decide) (by decide) rfl
  | bqpush src grd | bqpop src grd | bqreq src grd => exact unit_word hg hs (by decide) (by decide) rfl
  | tlbinv src grd | ptwfence src grd | replay src grd | logrd src grd | ctxsave src grd | ctxload src grd | freezem src grd | dispq src grd
  | halt src grd => exact unit_word hg hs (by decide) (by decide) rfl
  | _ => cases hk

/-- R92, R96, R101: the word of a well-formed instruction of a w slot decodes to it. -/
theorem encode_wordOf_w (i : Instr) (hw : i.wf = true) (hk : i.kind = .w) : WordOf .w (encode i) i := by
  obtain ⟨hg, hs, hf⟩ := i.wf_iff.1 hw
  clear hw
  cases i with
  | move vec src d grd =>
    cases vec with
    | false => cases hk
    | true => exact vmove_word hg hs hf
  | vadd src t grd | vsub src t grd | vmul src t grd | vmad src t grd | vmin src t grd | vmax src t grd | vabs src t grd | vneg src t grd
  | vand src t grd | vor src t grd | vxor src t grd | vshl src t grd | vshr src t grd | vcmpeq src t grd | vcmplt src t grd | vcmple src t grd
  | vsel src t grd | vrcp src t grd | vrsq src t grd | vexp2 src t grd | vlog2 src t grd | vred src t grd | vscan src t grd | vshuf src t grd
  | vbcast src t grd | vpackg src t grd | vclmul src t grd | vpxor src t grd | vtopk src t grd | vtopkm src t grd | bmm src t grd
  | vmask src t grd => exact v_word hg hs (by decide) rfl
  | xq src f grd | xqs src f grd | xdq src f grd | xsc src f grd | xsetf src f grd | xgetf src f grd | xld src f grd | xst src f grd =>
    exact x_word hg hs (by decide) rfl
  | xf2bf src grd | xbf2f src grd | xf2h src grd | xh2f src grd | xf2i src grd | xi2f src grd => exact vector_word hg hs (by decide) (by decide) rfl
  | wld src f grd | mma src f grd | mmaq src f grd => exact mat_word hg hs (by decide) rfl
  | wclr src grd | mzero src grd | mrd src grd | mscl src grd => exact vector_word hg hs (by decide) (by decide) rfl
  | _ => cases hk

section
variable {g : BitVec 6} {i : Instr}

/-- The word of a sync slot whose operation admits its fields (R99). -/
theorem sync_word {op idx cnt self r : Nat} (hp : op < 16) (hi : idx < 256) (hc : cnt < 256) (hs : self < 2) (hr : r < 32)
    (h : ∀ w, fld w 31 28 = op → fld w 27 20 = idx → fld w 19 12 = cnt → fld w 11 11 = self → fld w 10 6 = r → fld w 5 0 = g.toNat →
      decodeSync w = .ok i) : WordOf .sync (syncWord op idx cnt self r g) i := by
  obtain ⟨h1, h2, h3, h4, h5, h6⟩ := fld_syncWord (g := g) hp hi hc hs hr
  exact ⟨syncWord_lt _ _ _ _ _ _ hp hi hc hs hr, by rw [decodeSlot, h _ h1 h2 h3 h4 h5 h6, exceptOpt]⟩

/-- The word of a K slot whose operation admits its fields (R100). -/
theorem k_word {op b o : Nat} {k : BitVec 5} (hp : op < 16) (hb : b < 16) (ho : o < 2 ^ 13)
    (h : ∀ w, fld w 31 28 = op → fld w 27 23 = k.toNat → fld w 22 19 = b → fld w 18 6 = o → fld w 5 0 = g.toNat →
      fld w 22 11 = b * 2 ^ 8 + o / 2 ^ 5 → fld w 10 6 = o % 2 ^ 5 → decodeK w = .ok i) : WordOf .k (kWord op k b o g) i := by
  obtain ⟨h1, h2, h3, h4, h5, h6, h7⟩ := fld_kWord (k := k) (g := g) hp hb ho
  exact ⟨kWord_lt _ _ _ _ _ hp hb ho, by rw [decodeSlot, h _ h1 h2 h3 h4 h5 h6 h7, exceptOpt]⟩

end

/-- R99: the word of a well-formed instruction of the sync slot decodes to it. -/
theorem encode_wordOf_sync (i : Instr) (hw : i.wf = true) (hk : i.kind = .sync) : WordOf .sync (encode i) i := by
  obtain ⟨hg, -, hf⟩ := i.wf_iff.1 hw
  clear hw
  cases i with
  | move vec src d grd => cases vec <;> cases hk
  | waitf i c grd =>
    replace hg : guardOk grd.toNat = true := hg
    replace hf : i.toNat < 32 := by simpa [Instr.fieldsOk] using hf
    refine sync_word (by decide) i.isLt c.isLt (by decide) (by decide) fun w h1 h2 h3 h4 h5 h6 => ?_
    simp [decodeSync, h1, h2, h3, h4, h5, h6, hg, hf]
  | postf i c e r grd =>
    replace hg : guardOk grd.toNat = true := hg
    obtain ⟨hi, her⟩ : i.toNat < 32 ∧ (e.toNat = 0 ∨ r.toNat = 0) := by simpa [Instr.fieldsOk] using hf
    refine sync_word (by decide) i.isLt c.isLt e.isLt r.isLt fun w h1 h2 h3 h4 h5 h6 => ?_
    simpa [decodeSync, h1, h2, h3, h4, h5, h6, hg, hi] using or_iff_not_imp_left.1 her
  | waite i grd | sete i grd | clre i grd | waitt i grd =>
    replace hg : guardOk grd.toNat = true := hg
    refine sync_word (by decide) i.isLt (by decide) (by decide) (by decide) fun w h1 h2 h3 h4 h5 h6 => ?_
    simp [decodeSync, h1, h2, h3, h4, h5, h6, hg]
  | barg i grd | barq i grd | waitl i grd =>
    replace hg : guardOk grd.toNat = true := hg
    simp only [Instr.fieldsOk, decide_eq_true_eq] at hf
    refine sync_word (by decide) i.isLt (by decide) (by decide) (by decide) fun w h1 h2 h3 h4 h5 h6 => ?_
    simp [decodeSync, h1, h2, h3, h4, h5, h6, hg, hf]
  | _ => cases hk

/-- R100: the word of a well-formed instruction of the K slot decodes to it. -/
theorem encode_wordOf_k (i : Instr) (hw : i.wf = true) (hk : i.kind = .k) : WordOf .k (encode i) i := by
  obtain ⟨hg, -, -⟩ := i.wf_iff.1 hw
  clear hw
  cases i with
  | move vec src d grd => cases vec <;> cases hk
  | ldk k b o grd | ldk1 k b o grd | stk k b o grd =>
    replace hg : guardOk grd.toNat = true := hg
    refine k_word (by decide) b.isLt o.isLt fun w h1 h2 h3 h4 h5 h6 h7 => ?_
    simp [decodeK, h1, h2, h3, h4, h5, hg]
  | mvk k j grd =>
    have hj := j.isLt
    replace hg : guardOk grd.toNat = true := hg
    refine k_word (by decide) (by decide) (by omega) fun w h1 h2 h3 h4 h5 h6 h7 => ?_
    have h0 : j.toNat / 32 = 0 := by omega
    have hm : j.toNat % 32 = j.toNat := by omega
    simp [decodeK, h1, h2, h5, h6, h7, hg, h0, hm]
  | _ => cases hk

/-- R92 to R101: a well-formed instruction's word is a 32-bit word that decodes to it in its own slot. -/
theorem encode_wordOf (i : Instr) (hw : i.wf = true) (hk : i.kind ≠ .event) : WordOf i.kind (encode i) i := by
  cases h : i.kind with
  | m => exact encode_wordOf_m i hw h
  | w => exact encode_wordOf_w i hw h
  | sync => exact encode_wordOf_sync i hw h
  | k => exact encode_wordOf_k i hw h
  | event => exact absurd h hk

/-! ## The bundle of one slot (R90, R91) -/

/-- The four bytes of a 32-bit word are the word. -/
theorem words32_toBytes {h e : Nat} (hh : h < 2 ^ 32) (he : e < 2 ^ 32) : words32 (toBytes 4 h ++ toBytes 4 e) = [h, e] := by
  simp only [toBytes, words32, List.cons_append, List.nil_append, ofBytes, BitVec.toNat_ofNat]
  congr 1
  · omega
  · congr 1
    omega

/-- A slot that decodes has no fault of any class. -/
theorem firstErr_ok {e : DecErr} {p w : Nat} {i : Instr} (h : decodeAt p w = .ok i) : firstErr e [(p, w)] = none := by
  simp [firstErr, h]

/-- One slot duplicates no destination. -/
theorem firstDup_one (p w : Nat) : firstDup [] [(p, w)] = none := by
  unfold firstDup
  split <;> simp [firstDup]

/-- A bundle whose header declares one slot and nothing else, and whose slot decodes. -/
theorem decodeBundle_one {h e p : Nat} {i : Instr} (hh : h < 2 ^ 32) (he : e < 2 ^ 32) (ho : slotOrder h = [p]) (hl : bundleLen h = 8)
    (h6 : bitAt h 6 = false) (h50 : fld h 5 0 = 0) (hr : fld h 18 13 = 0) (hs : fld h 12 9 = 0) (h31 : bitAt h 31 = false)
    (hd : decodeAt p e = .ok i) :
    decodeBundle (toBytes 4 h ++ toBytes 4 e) = .ok { stop := false, rep := 0, stall := 0, slots := [{ pos := p, i := i }], limm := 0, len := 8 } := by
  unfold decodeBundle
  simp [words32_toBytes hh he, ho, hl, h6, h50, hr, hs, h31, firstErr_ok hd, firstDup_one, okSlots, hd]

theorem exceptOpt_some {x : Except DecErr Instr} {i : Instr} (h : exceptOpt x = some i) : x = .ok i := by
  cases x with
  | error e => cases h
  | ok j => cases h; rfl

theorem decodeBundle_oneSlot {i : Instr} (hk : i.kind ≠ .event) (h : WordOf i.kind (encode i) i) :
    decodeBundle (oneSlotBytes i) = .ok (oneSlot i) := by
  obtain ⟨hlt, hdec⟩ := h
  unfold oneSlotBytes oneHeader oneSlot
  cases hi : i.kind <;> rw [hi] at hdec
  case event => exact absurd hi hk
  all_goals exact decodeBundle_one (by decide) hlt (by decide) (by decide) (by decide) (by decide) (by decide) (by decide) (by decide) (exceptOpt_some hdec)

/-- Settles O57: each unit's operation codes are one to one, and a word is made of its fields. -/
theorem decodeOfEncodeIsTheInstruction : Obligations.DecodeOfEncodeIsTheInstruction := by
  refine ⟨fun i hw hk => ?_, fun kind w i hw h => ?_⟩
  · have h := encode_wordOf i hw hk
    exact ⟨h.1, h.2, decodeBundle_oneSlot hk h⟩
  · cases kind with
    | m => exact decodeM_ok hw (exceptOpt_some h)
    | w => exact decodeW_ok hw (exceptOpt_some h)
    | sync => exact decodeSync_ok hw (exceptOpt_some h)
    | k => exact decodeK_ok hw (exceptOpt_some h)
    | event => cases h

/-- Settles O56: each word evaluates to its instruction. -/
theorem wordsDecodeToTheirInstructions : Obligations.WordsDecodeToTheirInstructions :=
  ⟨rfl, rfl, rfl, rfl, rfl, rfl, rfl, rfl, rfl, rfl, rfl, rfl, rfl, rfl, rfl, rfl, rfl, rfl, rfl⟩

end Sys2Proof
end

section
/-! SUPPORT. Every slot instruction is the issue of its bundle, every event its meaning, and no step is refused (R103, R116, R338). -/

namespace Sys2Proof.Machine

/-- The meaning of a slot instruction is the issue of a bundle that holds it alone. -/
theorem exec_slot {i : Instr} (hk : i.kind ≠ .event) (s : State) : exec i s = s.execSlot i := by
  cases i with
  | bundleIssue | trapEntryDeferredWrite | heldSlotIssue | resultLatchWrite | globalAccessReturn | specUnitResult | waitaRecheck
  | mmaResultWrite | mmaqResultWrite | wldComplete | commandBlockRead | commandStart | commandComplete | cpymFollowOn | enqClaim
  | kvStreamHold | syncWaitSatisfied | flagPostArrival | eventBitWrite | barrierRelease | linkFifoWait | launchPacket | nopPacket
  | reservedPacket | launchEligible | taskBind | gangStart | launchComplete | preemptionDecision | checkpointSave | launchRestore | kill
  | sliceEnd | classAging | tokenRefill | launchOverdue | carafeStore | carafeInterlockRelease | loupeAdmission | loupeCommit
  | baristaRequestServe | bridgeDelivery | prismReadAtOwner | prismDeposit | prismAccepted | pageMove | mirrorDeltaApply | mirrorDeltaAck
  | powerWindowCheck | gangFreezePropagate | fabricFrameFreeze | debugFreeze | slotDeparture | frameBoundary | schedFlitReceive
  | memFlitReceive | bounceReceive | reductionInput | reductionDeadline | switchTableLoad | scaleoutMem | hostWrite | hostRead
  | hostAtomicop | regrd | regwr | registerWrite | go | fwcommit | start | attestationReport | reatt | portAttestation | freeze | resume
  | load | viewfinderUnlock | viewfinderFreeze | viewfinderRead | idcode | coldStart | stageMemory | stageCores | stageFull
  | storePerformedAtHome | cacheEviction | kvsTileReady | streamHoldFall | prismFaultReturn | linkFramingAligned | haltedCoreReturn => exact absurd rfl hk
  | _ => rfl

/-- The meaning of an event answers a next state. -/
theorem exec_event {i : Instr} (hk : i.kind = .event) (s : State) : ∃ t, exec i s = .next t := by
  cases i with
  | bundleIssue | trapEntryDeferredWrite | heldSlotIssue | resultLatchWrite | globalAccessReturn | specUnitResult | waitaRecheck
  | mmaResultWrite | mmaqResultWrite | wldComplete | commandBlockRead | commandStart | commandComplete | cpymFollowOn | enqClaim
  | kvStreamHold | syncWaitSatisfied | flagPostArrival | eventBitWrite | barrierRelease | linkFifoWait | launchPacket | nopPacket
  | reservedPacket | launchEligible | taskBind | gangStart | launchComplete | preemptionDecision | checkpointSave | launchRestore | kill
  | sliceEnd | classAging | tokenRefill | launchOverdue | carafeStore | carafeInterlockRelease | loupeAdmission | loupeCommit
  | baristaRequestServe | bridgeDelivery | prismReadAtOwner | prismDeposit | prismAccepted | pageMove | mirrorDeltaApply | mirrorDeltaAck
  | powerWindowCheck | gangFreezePropagate | fabricFrameFreeze | debugFreeze | slotDeparture | frameBoundary | schedFlitReceive
  | memFlitReceive | bounceReceive | reductionInput | reductionDeadline | switchTableLoad | scaleoutMem | hostWrite | hostRead
  | hostAtomicop | regrd | regwr | registerWrite | go | fwcommit | start | attestationReport | reatt | portAttestation | freeze | resume
  | load | viewfinderUnlock | viewfinderFreeze | viewfinderRead | idcode | coldStart | stageMemory | stageCores | stageFull
  | storePerformedAtHome | cacheEviction | kvsTileReady | streamHoldFall | prismFaultReturn | linkFramingAligned | haltedCoreReturn => exact ⟨_, rfl⟩
  | move vec src d grd => cases vec <;> cases hk
  | _ => cases hk

theorem execSlot_not_refused (s : State) (i : Instr) (r : Refusal) : s.execSlot i ≠ .refused r := by
  unfold State.execSlot
  split <;> simp

theorem exec_not_refused (i : Instr) (s : State) (r : Refusal) : exec i s ≠ .refused r := by
  by_cases hk : i.kind = .event
  · obtain ⟨t, ht⟩ := exec_event hk s
    simp [ht]
  · rw [exec_slot hk]
    exact execSlot_not_refused s i r

/-! ## The step -/

theorem step_due {s : State} {e : Nat × Instr} {r : List (Nat × Instr)} (h : s.agenda = e :: r) (hd : e.1 ≤ s.now) :
    step s = exec e.2 { s with agenda := r } := by
  unfold step
  rw [h]
  exact if_pos hd

/-- With no event due, the step is one of the package cycle's. -/
theorem step_cycle {s : State} (h : ∀ e r, s.agenda = e :: r → s.now < e.1) : step s = step.stepCycle s := by
  unfold step
  cases ha : s.agenda with
  | nil => rfl
  | cons e r => exact if_neg (Nat.not_le.2 (h e r ha))

/-- A step of the package cycle answers a next state. -/
theorem stepCycle_next (s : State) : ∃ t, step.stepCycle s = .next t := by
  unfold step.stepCycle
  split
  · exact ⟨_, rfl⟩
  split
  · exact ⟨_, rfl⟩
  split
  · exact ⟨_, rfl⟩
  split <;> exact ⟨_, rfl⟩

/-- The step's event is due, or none is. -/
theorem due_or_none (s : State) : (∃ e r, s.agenda = e :: r ∧ e.1 ≤ s.now) ∨ ∀ e r, s.agenda = e :: r → s.now < e.1 := by
  cases ha : s.agenda with
  | nil => exact .inr fun _ _ h => nomatch h
  | cons e r =>
    by_cases hd : e.1 ≤ s.now
    · exact .inl ⟨e, r, rfl, hd⟩
    · refine .inr fun _ _ h => ?_
      cases h
      exact Nat.lt_of_not_le hd

/-- Settles O59: a step is the meaning of one instruction, or a step of the package cycle, which answers a next state. -/
theorem everyStepGoesOn : Obligations.EveryStepGoesOn := by
  refine fun s => ⟨fun r => ?_, fun i hk => exec_event hk s, fun hev => ?_⟩
  · obtain ⟨e, l, ha, hd⟩ | hn := due_or_none s
    · rw [step_due ha hd]
      exact exec_not_refused _ _ r
    · obtain ⟨t, ht⟩ := stepCycle_next s
      simp [step_cycle hn, ht]
  · obtain ⟨e, l, ha, hd⟩ | hn := due_or_none s
    · obtain ⟨t, ht⟩ := exec_event (hev e l ha hd) { s with agenda := l }
      exact ⟨t, (step_due ha hd).trans ht⟩
    · obtain ⟨t, ht⟩ := stepCycle_next s
      exact ⟨t, (step_cycle hn).trans ht⟩

end Sys2Proof.Machine
end

section
/-! SUPPORT. What a plain move writes (R94, R50 to R52, R59, R221, R302). -/

namespace Sys2Proof.Machine

open Sys2Proof.Claims

section
variable {s : State} {src d : BitVec 9} {g : BitVec 6} {k : Core}

/-- A move on the scalar bus to anything but a link queue gives its destination. -/
theorem gives_scalarMove (hl : inLink d.toNat = false) (hk : s.moved false src d g = k) : Gives s (.move false src d g) k := by
  intro h
  obtain ⟨t, hx, ho, hb⟩ := exec_move s false src d g h (.inr hl)
  exact ⟨t, hx, ho, hk ▸ hb⟩

/-- A move on the vector bus gives its destination. -/
theorem gives_vectorMove (hk : s.moved true src d g = k) : Gives s (.move true src d g) k := by
  intro h
  obtain ⟨t, hx, ho, hb⟩ := exec_move s true src d g h (.inl rfl)
  exact ⟨t, hx, ho, hk ▸ hb⟩

theorem inLink_below {n : Nat} (h : n < 0x80) : inLink n = false := by simp [inLink]; omega

theorem isLatchM_outside {n : Nat} (h : n < 0x60 ∨ 0x6D ≤ n) : isLatchM n = false := by simp [isLatchM]; omega

theorem isLatchW_outside {n : Nat} (h : n < 0x40 ∨ 0x45 ≤ n) : isLatchW n = false := by simp [isLatchW]; omega

/-- R94, R50: a scalar destination that is no operand latch is written at the end of the cycle. -/
theorem moved_register (h : d.toNat < 0x60 ∨ 0x6D ≤ d.toNat) :
    s.moved false src d g = s.me.moveRegM d.toNat (s.src1 (.move false src d g)) := by
  simp [State.moved, isLatchM_outside h]

/-- R302: a privileged latch is written under its access code. -/
theorem moved_privileged (h : 0x70 ≤ d.toNat ∧ d.toNat < 0x80) :
    s.moved false src d g = s.me.writeSs (d.toNat - 0x70) (s.src1 (.move false src d g)) := by
  rw [moved_register (by omega), Core.moveRegM, if_neg (by omega), if_neg (by omega), if_pos h]

/-- R94, R51, R52, R59: a vector destination that is no operand latch is written at the end of the cycle. -/
theorem moved_vector (h : d.toNat < 0x40 ∨ 0x45 ≤ d.toNat) :
    s.moved true src d g = s.me.moveRegW s.me d.toNat (s.vsrc1 (.move true src d g)) := by
  simp [State.moved, isLatchW_outside h]

theorem moved_vectorLatch (h : 0x40 ≤ d.toNat ∧ d.toNat < 0x45) :
    s.moved true src d g = s.me.moveLatchW d.toNat (s.vsrc1 (.move true src d g)) := by
  simp [State.moved, isLatchW, h]

end

theorem scalarMoveWritesItsDestination : ScalarMoveWritesItsDestination := by
  refine fun s src d g => ⟨fun hd => ?g, fun hlo hhi => ?p, fun hlo hhi => ?latch, fun hd => ?ro, fun hd => ?ctxsel, fun hd => ?ss⟩
  case g =>
    refine gives_scalarMove (inLink_below (by omega)) ?_
    rw [moved_register (by omega), Core.moveRegM, if_pos hd]
  case p =>
    refine gives_scalarMove (inLink_below (by omega)) ?_
    rw [moved_register (by omega), Core.moveRegM, if_neg (by omega), if_pos hhi]
  case latch =>
    refine gives_scalarMove (inLink_below (by omega)) ?_
    simp [State.moved, isLatchM, hlo, hhi, Core.moveLatchM]
  case ro =>
    refine gives_scalarMove (inLink_below (by omega)) ?_
    rw [moved_privileged (by omega), Core.writeSs, if_pos (by omega)]
  case ctxsel =>
    refine gives_scalarMove (inLink_below (by omega)) ?_
    rw [moved_privileged (by omega), Core.writeSs, if_neg (by omega), if_pos (by omega)]
    simp [u64, fld]
  case ss =>
    refine gives_scalarMove (inLink_below (by omega)) ?_
    rw [moved_privileged (by omega), Core.writeSs, if_neg (by omega), if_neg (by omega)]

theorem vectorMoveWritesItsDestination : VectorMoveWritesItsDestination := by
  refine fun s src d g => ⟨fun hd => ?v, fun hlo hhi => ?tile, fun hlo hhi => ?mask, fun hlo hhi hne => ?latch, fun hd => ?aRow, fun hd => ?lgl⟩
  case v =>
    refine gives_vectorMove ?_
    rw [moved_vector (by omega), Core.moveRegW, if_pos hd]
  case tile =>
    refine gives_vectorMove ?_
    rw [moved_vector (by omega), Core.moveRegW, if_neg (by omega), if_pos hhi]
    rfl
  case mask =>
    refine gives_vectorMove ?_
    rw [moved_vector (by omega), Core.moveRegW, if_neg (by omega), if_neg (by omega), if_pos hhi]
  case latch =>
    refine gives_vectorMove ?_
    rw [moved_vectorLatch (by omega), Core.moveLatchW, if_neg hne]
  case aRow =>
    refine gives_vectorMove ?_
    rw [moved_vectorLatch (by omega), Core.moveLatchW, if_pos hd]
  case lgl =>
    refine gives_vectorMove ?_
    rw [moved_vector (by omega), Core.moveRegW, if_neg (by omega), if_neg (by omega), if_neg (by omega)]

/-- Settles O1: a move's destination is the one place of `State.moved`, and its bundle's end does the rest. -/
theorem movesWriteTheirDestination : Obligations.MovesWriteTheirDestination := ⟨scalarMoveWritesItsDestination, vectorMoveWritesItsDestination⟩

end Sys2Proof.Machine
end

section
/-! SUPPORT. What a fetch changes (R115): the translations and the instruction cache of its core, and the dies' copies; and the turn of a core whose
bundle is one instruction (R4, R44, R103). -/

namespace Sys2Proof.Machine

/-- From `s` to `u` core `c` has fetched: of its registers nothing changes, and no other core does. -/
structure State.Fetched (s u : State) (c : Nat) : Prop where
  rest : u = { s with cores := u.cores, dies := u.dies, bridge := u.bridge, nBridge := u.nBridge, agenda := u.agenda }
  here : u.core c = { s.core c with tlb := (u.core c).tlb, icache := (u.core c).icache }
  others : ∀ d, d ≠ c → u.core d = s.core d

namespace State.Fetched

theorem refl (s : State) (c : Nat) : s.Fetched s c := ⟨rfl, rfl, fun _ _ => rfl⟩

theorem trans {s t u : State} {c : Nat} (h : s.Fetched t c) (h' : t.Fetched u c) : s.Fetched u c := by
  obtain ⟨hr, hc, ho⟩ := h
  obtain ⟨hr', hc', ho'⟩ := h'
  refine ⟨?_, ?_, fun d hd => (ho' d hd).trans (ho d hd)⟩
  · rw [hr', hr]
  · rw [hc', hc]

theorem foldl {α : Type} {f : State → α → State} {c : Nat} (hf : ∀ (s : State) a, s.Fetched (f s a) c) (l : List α) (s : State) :
    s.Fetched (l.foldl f s) c := by
  induction l generalizing s with
  | nil => exact refl s c
  | cons a r ih => exact (hf s a).trans (ih _)

theorem cur {s u : State} {c : Nat} (h : s.Fetched u c) : u.cur = s.cur := (congrArg State.cur h.rest :)

end State.Fetched

theorem fetched_of_learnt {s u : State} {c : Nat} (h : s.Learnt u c) : s.Fetched u c := by
  obtain ⟨hr, ho, hh, -⟩ := h
  refine ⟨?_, ?_, ho⟩
  · rw [hr]
  · rw [hh]

theorem fetched_of_cores {s u : State} (c : Nat) (hr : u = { s with dies := u.dies, bridge := u.bridge, nBridge := u.nBridge, agenda := u.agenda }) :
    s.Fetched u c := by
  have hc : ∀ d, u.core d = s.core d := fun d => by rw [hr]; rfl
  refine ⟨?_, ?_, fun d _ => hc d⟩
  · rw [hr]
  · rw [hc]

theorem fetched_modDie (s : State) (c d : Nat) (f : Die → Die) : s.Fetched (s.modDie d f) c := fetched_of_cores c rfl

theorem fetched_rdcEnsure (s : State) (c d line mark avail : Nat) : s.Fetched (s.rdcEnsure d line mark avail) c := by
  have hclean (line : Nat) : s.Fetched (s.rdcClean d line) c := by
    unfold State.rdcClean
    split
    · exact .refl s c
    · exact (State.Fetched.foldl (fun t r => fetched_of_cores c rfl) _ s).trans (fetched_modDie ..)
  have hroom : s.Fetched (s.rdcRoom d line) c := by
    unfold State.rdcRoom
    split
    · exact (hclean _).trans (fetched_modDie ..)
    · exact .refl s c
  unfold State.rdcEnsure State.rdcFill
  split
  · exact .refl s c
  · exact hroom.trans (fetched_modDie ..)

theorem fetched_icache (s : State) (c : Nat) (x : Core → Tbl (List Byte)) : s.Fetched (s.modCore c (fun k => { k with icache := x k })) c := by
  refine ⟨rfl, ?_, fun d hd => core_modCore_ne _ _ _ _ hd⟩
  rw [core_modCore_same]

theorem fetched_codeFill (s : State) (c line : Nat) : s.Fetched (s.codeFill c line) c := by
  have hensure (b : Bool) : s.Fetched (if b then s.rdcEnsure (dieOf c) (line / 2) (s.core c).rdcMark s.now else s) c := by
    split
    · exact fetched_rdcEnsure ..
    · exact .refl s c
  unfold State.codeFill
  dsimp only
  split
  · split
    · exact .refl s c
    · split
      · exact (hensure _).trans (fetched_icache _ c _)
      · exact .refl s c
  · exact (hensure _).trans (fetched_icache _ c _)

theorem fetched_codeLines (s : State) (c pc n : Nat) : s.Fetched (s.codeLines c pc n) c := by
  unfold State.codeLines
  split
  · exact .refl s c
  · exact .foldl (fun t p => .foldl (fun u i => fetched_codeFill u c _) _ t) _ s

theorem fetched_fetchBytes (s : State) (c pc n : Nat) : s.Fetched (s.fetchBytes c pc n).1 c := by
  have h := fetched_of_learnt (learnt_xlateSpan s c { x := true } 3 (pc % 2 ^ 56) 0 n)
  unfold State.fetchBytes
  dsimp only
  split
  · exact h
  · split <;> exact h

/-- R115: a fetch changes no register. -/
theorem fetched_fetchBundle (s : State) (c : Nat) : s.Fetched (s.fetchBundle c).1 c := by
  have hhead := fetched_fetchBytes s c (s.core c).pc 4
  unfold State.fetchBundle
  dsimp only
  split
  · exact hhead
  · split
    · exact hhead.trans (fetched_fetchBytes ..)
    · exact (hhead.trans (fetched_fetchBytes ..)).trans (fetched_codeLines ..)

/-! ## The turn of a core -/

/-- A core that runs, with no stop of its gang and no delay, makes an attempt in its turn. -/
theorem bundleTurn_run {s : State} {c : Nat} (hrun : (s.core c).status = .run)
    (hstop : (s.core c).tagged = true ∨ (s.launch (s.core c).launch).stopping = false)
    (hdelay : (s.core c).tagged = true ∨ (s.launch (s.core c).launch).delayed = false) :
    s.bundleTurn c = (s.tryBundle c).1.settle c (s.tryBundle c).2 := by
  have hs : (!(s.core c).tagged && (s.launch (s.core c).launch).stopping) = false := by obtain h | h := hstop <;> simp [h]
  have hd : (!(s.core c).tagged && (s.launch (s.core c).launch).delayed) = false := by obtain h | h := hdelay <;> simp [h]
  simp only [State.bundleTurn, hrun, hs, hd, Bool.false_eq_true, if_false]

/-- A fetched bundle before which nothing stands is an attempt to issue it: what would make it wait for held slots makes the issue wait. -/
theorem tryFetched_issue {u : State} {c : Nat} {q : Bundle} (ht : (u.core c).timingSub = 0) (hi : (u.core c).idles q = 0)
    (hl : (u.core c).held = [] ∨ linkStop c q.slots = none) : u.tryFetched c (.ok q) = u.issue c q := by
  unfold State.tryFetched
  dsimp only
  rw [if_neg (not_not.2 ht)]
  by_cases hp : (u.privStop c q.slots).isSome = true
  · rw [if_pos (by simp [hp, hi])]
  rw [if_neg (by simp [hp])]
  have hp0 : u.privStop c q.slots = none := by simpa using hp
  by_cases hm : ((u.core c).tagged && (u.core c).stall.isNone && u.mustWait c q (u.actsOf c q) ((u.core c).reissues c q (u.actsOf c q))) = true
  · rw [if_pos hm]
    obtain ⟨⟨htag, -⟩, hwait⟩ := by simpa only [Bool.and_eq_true] using hm
    have hnone : linkStop c q.slots = none := by
      obtain hh | hh := hl
      · rw [mustWait_none u c q _ _ hh] at hwait
        cases hwait
      · exact hh
    unfold State.issue
    simp only [hnone, hp0, htag, hwait, Bool.and_self, if_true]
  · rw [if_neg hm, if_neg (by simp [hi]), if_neg (by omega)]

/-- A turn whose bundle is one instruction, with nothing before its issue, is the meaning of that instruction after the fetch. -/
theorem bundleTurn_one {s u : State} {c : Nat} {i : Instr} (hc : s.cur = c) (hrun : (s.core c).status = .run)
    (hstop : (s.core c).tagged = true ∨ (s.launch (s.core c).launch).stopping = false)
    (hdelay : (s.core c).tagged = true ∨ (s.launch (s.core c).launch).delayed = false) (hgate : s.gate c = none)
    (hf : s.fetchBundle c = (u, .ok (oneSlot i))) (hw : i.wf = true) (hk : i.kind ≠ .event) (ht : (u.core c).timingSub = 0)
    (hi : (u.core c).idles (oneSlot i) = 0) (hl : (u.core c).held = [] ∨ linkStop c (oneSlot i).slots = none) :
    .next (s.bundleTurn c) = exec i u := by
  have hfetch := fetched_fetchBundle s c
  rw [hf] at hfetch
  have hcur : u.cur = c := hfetch.cur.trans hc
  have hrun' : (u.core c).status = .run := by rw [hfetch.here]; exact hrun
  have htry : s.tryBundle c = (u, u.issue c (oneSlot i)) := by
    rw [State.tryBundle, hgate]
    simp only [hf, tryFetched_issue ht hi hl]
  rw [bundleTurn_run hrun hstop hdelay, htry, exec_slot hk, State.execSlot, hcur, hrun', State.trySlot, if_pos hw]

/-- Settles O58: the branches of the step, and the turn of a core whose bundle is one instruction. -/
theorem stepRunsTheDecodedInstruction : Obligations.StepRunsTheDecodedInstruction := by
  refine fun s => ⟨fun e r ha hd => step_due ha hd, fun hn => ?_⟩
  rw [step_cycle hn]
  unfold step.stepCycle
  have hgo {b : Bool} (h : b = false) : ¬ b = true := by simp [h]
  refine ⟨fun hz => if_pos hz, fun hz hs => ?_, fun hz hs hc => ?_, fun c hz hs hc => ?_⟩
  · rw [if_neg (hgo hz), if_pos (by simp [hs])]
  · rw [if_neg (hgo hz), if_neg (by simp [hs]), hc]
  rw [if_neg (hgo hz), if_neg (by simp [hs]), hc]
  refine ⟨fun hh ht => if_pos (by simp [hh, ht]), fun hno => ?_⟩
  dsimp only
  rw [if_neg (by obtain h | h := hno <;> simp [h])]
  exact ⟨rfl, fun u i hrun hdelay hgate hf hw hk hstop ht hi hl => bundleTurn_one rfl hrun hstop hdelay hgate hf hw hk ht hi hl⟩

end Sys2Proof.Machine
end

section
/-! SUPPORT. A slot that names a privileged latch or triggers sys, in a context without PRIV: the stop of its bundle (R116, R117, R302, R303, R339). -/

namespace Sys2Proof.Machine

open Sys2Proof.Claims

/-! ## The stop of least rank -/

theorem leastStop_head {p : Nat × Stop} {l : List (Nat × Stop)} (h : ∀ q ∈ l, p.1 ≤ q.1) : leastStop (p :: l) = some p := by
  have hmem : ∀ l q, leastStop l = some q → q ∈ l := by
    intro l
    induction l with
    | nil => intro q hq; cases hq
    | cons a r ih =>
      intro q hq
      rw [leastStop] at hq
      split at hq
      · rw [← Option.some.inj hq]; exact List.mem_cons_self
      · rename_i b hb
        split at hq
        · rw [← Option.some.inj hq]; exact List.mem_cons_of_mem a (ih b hb)
        · rw [← Option.some.inj hq]; exact List.mem_cons_self
  rw [leastStop]
  split
  · rfl
  · rename_i q hq
    rw [if_neg (by have := h q (hmem l q hq); omega)]

/-! ## The issue of a slot that is stopped -/

/-- A slot of a unit that no issue leaves sticky is the one act of its bundle, in each of its issues, if its guard holds (R93, R103, R112). -/
theorem actsOf_plain {s : State} {i : Instr} (hs : stickyOp i = false) :
    s.actsOf s.cur (oneSlot i) = if i.holds s.me.p then [s.act1 i] else [] := by
  have hp : (s.core s.cur).unjoined.p = s.me.p := rfl
  cases h : i.holds s.me.p <;> cases hk : i.kind <;> simp [State.actsOf, oneSlot, hk, hp, h, hs, State.act1]

/-- The stops of the acts of a bundle: those of its own trigger, beside the stops that it had before. -/
theorem issueNow_stop {s : State} {i : Instr} (hu : isAuOrC (s.act1 i) = false) {others : List (Nat × Stop)} {p : Nat × Stop}
    (hm : ∀ u : State, leastStop (others ++ (runActs u [s.act1 i]).2) = some p) (u : State) :
    u.issueNow s.cur (oneSlot i) [s.act1 i] [] [] others = .stop p.2 := by
  have hall : [s.act1 i].filter (fun a => !isAuOrC a) = [s.act1 i] := by simp [hu]
  unfold State.issueNow State.issueActs
  simp only [firing_one, hall, filter_au_unit hu, filter_c_unit hu, runActs.eq_1, List.append_nil, hm]

theorem issueNow_stop_none {s : State} {c : Nat} {q : Bundle} {others : List (Nat × Stop)} {p : Nat × Stop} (hm : leastStop others = some p) :
    s.issueNow c q [] [] [] others = .stop p.2 := by
  unfold State.issueNow State.issueActs
  simp only [firing, List.filter_nil, List.append_nil, runActs, hm]

/-- What a bundle with one privileged slot, in a context without PRIV, comes to: the least stop beside the privilege fault. -/
theorem exec_unprivileged {s : State} {i : Instr} {st : Stop} (hw : i.wf = true) (hrun : s.me.status = .run) (hctx : (s.coreCtx s.cur).priv = false)
    (hl : s.me.stL = none) (hx : s.me.stX = none) (hm : s.me.stM = none) (hkind : i.kind = .m) (hlink : linkSlot i = false)
    (hpriv : privSlot i = true) (hsticky : stickyOp i = false) (hu : isAuOrC (s.act1 i) = false)
    (hno : i.holds s.me.p = false → st = { cause := 5, slot := 0 })
    (hleast : i.holds s.me.p = true → ∃ n, ∀ u : State,
      leastStop ((5 * 32, { cause := 5, slot := 0 }) :: (5 * 32, { cause := 5, slot := 0 }) :: (runActs u [s.act1 i]).2) = some (n, st)) :
    exec i s = .next ((s.stopAt s.cur st).turned s.cur) := by
  have hslot : (oneSlot i).slots = [{ pos := 0, i := i }] := by simp [oneSlot, hkind]
  have hls : linkStop s.cur (oneSlot i).slots = none := by simp [linkStop, hslot, hlink]
  have hps : s.privStop s.cur (oneSlot i).slots = some { cause := 5, slot := 0 } := by simp [State.privStop, hctx, hslot, hpriv]
  have hres (acts : List Act) : (s.core s.cur).reissues s.cur (oneSlot i) acts = [] := reissues_none _ _ _ _ hl hx hm
  have hfirst : s.stopFirst s.cur (oneSlot i) (s.actsOf s.cur (oneSlot i)) [] (5 * 32) { cause := 5, slot := 0 } = st := by
    unfold State.stopFirst
    simp only [hps, if_neg (show ¬5 * 32 = 7 * 32 by omega), List.append_nil, actsOf_plain hsticky]
    cases hg : i.holds s.me.p with
    | true =>
      obtain ⟨n, hn⟩ := hleast hg
      rw [if_pos rfl, issueNow_stop hu hn]
    | false =>
      simp only [Bool.false_eq_true, if_false]
      rw [issueNow_stop_none (p := (160, { cause := 5, slot := 0 })) (by simp [leastStop]), hno hg]
  have htry : s.trySlot s.cur i = .stop st := by
    rw [State.trySlot, if_pos hw, State.issue]
    simp only [hls, hps, hres, hfirst]
  rw [exec_slot (by simp [hkind]), State.execSlot, hrun, htry]
  rfl

/-- When no stop of the trigger is of a class before it, it is the privilege fault that stops the bundle. -/
theorem leastStop_privilege {u : State} {a : Act} (h : ∀ {st}, fireSlot a.i a.ic u = .error st → 5 ≤ causeClass st.cause) :
    leastStop ((5 * 32, { cause := 5, slot := 0 }) :: (5 * 32, { cause := 5, slot := 0 }) :: (runActs u [a]).2) =
      some (5 * 32, { cause := 5, slot := 0 }) := by
  refine leastStop_head fun q hq => ?_
  cases hf : fireSlot a.i a.ic u with
  | ok t =>
    simp only [runActs, hf, List.mem_cons, List.not_mem_nil, or_false] at hq
    rw [hq]
  | error st =>
    simp only [runActs, hf, List.mem_cons, List.not_mem_nil, or_false] at hq
    have hclass := h hf
    obtain rfl | rfl := hq
    · exact le_rfl
    · dsimp only [rankStop]
      split <;> omega

/-! ## The operands that the operations of sys refuse -/

theorem tlbinvBad_iff {t : Nat} : tlbinvBad t = true ↔ ¬(t % 4 ≠ 3 ∧ t / 4 % 2 ^ 14 = 0) := by
  simp only [tlbinvBad, fld, Bool.or_eq_true, beq_iff_eq, bne_iff_ne]
  omega

theorem replayBad_iff {c t : Nat} :
    replayBad c t = true ↔ ¬((coreIdOk (t % 2 ^ 12) = true ∧ dieOf (t % 2 ^ 12) = dieOf c) ∧ t / 2 ^ 12 % 4 < 2) := by
  have h0 : fld t 11 0 = t % 2 ^ 12 := by simp [fld]
  have h1 : fld t 13 12 = t / 2 ^ 12 % 4 := by simp [fld]
  simp only [replayBad, h0, h1, Bool.or_eq_true, Bool.not_eq_true', bne_iff_ne, decide_eq_true_eq, ← Bool.not_eq_true, not_and_or, not_lt, ne_eq]

theorem fld_63_20 (x : U64) : fld x.toNat 63 20 = x.toNat / 2 ^ 20 := by
  rw [fld]
  omega

theorem causeClass_addrStop (ic : Ic) (f : Cause) (a : Nat) : 5 ≤ causeClass (addrStop ic f a).cause := by
  cases f <;> simp [addrStop, causeCode, causeClass]

/-- R303, R321, R324, R343: with an operand out of its limits the operation is illegal. -/
theorem sys_illegal {s : State} {i : Instr} {src : BitVec 9} {g : BitVec 6}
    (hi : i ∈ [.tlbinv src g, .replay src g, .logrd src g, .ctxsave src g, .ctxload src g, .freezem src g]) (hb : ¬OperandAllowed s i) (u : State) :
    fireSlot i (s.act1 i).ic u = .error { cause := 4, slot := 0 } := by
  simp only [List.mem_cons, List.not_mem_nil, or_false] at hi
  obtain rfl | rfl | rfl | rfl | rfl | rfl := hi
  · exact if_pos (tlbinvBad_iff.2 hb)
  · exact if_pos (replayBad_iff.2 hb)
  · exact if_pos (replayBad_iff.2 hb)
  · exact if_pos hb
  · exact if_pos hb
  · exact if_pos (by rw [fld_63_20]; exact hb)

theorem tlbinvBad_of_stop {s : State} {ic : Ic} {st : Stop} (h : fireTlbinv ic s = .error st) : tlbinvBad ic.t.toNat = true := by
  by_contra hb
  rw [fireTlbinv, if_neg hb] at h
  cases h

theorem replayBad_of_replay {s : State} {ic : Ic} {st : Stop} (h : fireReplay ic s = .error st) : replayBad ic.c ic.t.toNat = true := by
  by_contra hb
  rw [fireReplay, if_neg hb] at h
  cases h

theorem replayBad_of_logrd {s : State} {ic : Ic} {st : Stop} (h : fireLogrd ic s = .error st) : replayBad ic.c ic.t.toNat = true := by
  by_contra hb
  rw [fireLogrd, if_neg hb] at h
  cases h

theorem recPieces_stop {s : State} {ic : Ic} {n : Need} {st : Stop} (h : (s.recPieces ic n).2 = .error st) : 5 ≤ causeClass st.cause := by
  unfold State.recPieces at h
  dsimp only at h
  split at h
  · cases h
  · rw [← Except.error.inj h]
    exact causeClass_addrStop ..

theorem fireCtxsave_stop {s : State} {ic : Ic} {st : Stop} (ha : ic.t.toNat % 64 = 0) (h : fireCtxsave ic s = .error st) :
    5 ≤ causeClass st.cause := by
  rw [fireCtxsave, if_neg (not_not.2 ha)] at h
  dsimp only at h
  split at h
  · rename_i e he
    rw [← Except.error.inj h]
    exact recPieces_stop he
  · cases h

theorem fireCtxload_stop {s : State} {ic : Ic} {st : Stop} (ha : ic.t.toNat % 64 = 0) (h : fireCtxload ic s = .error st) :
    5 ≤ causeClass st.cause := by
  rw [fireCtxload, if_neg (not_not.2 ha)] at h
  dsimp only at h
  split at h
  · rename_i e he
    rw [← Except.error.inj h]
    exact recPieces_stop he
  · split at h
    · cases h
    · split at h <;> cases h

theorem fireDispq_stop {s : State} {ic : Ic} {st : Stop} (h : fireDispq ic s = .error st) : 5 ≤ causeClass st.cause := by
  unfold fireDispq at h
  dsimp only at h
  split at h
  · split at h <;> cases h
  · split at h
    · rw [← Except.error.inj h]
      exact causeClass_addrStop ..
    · split at h
      · cases h
      · split at h <;> cases h

/-- With an operand within its limits only an address fault stops a privileged operation (R338). -/
theorem sys_allowed {s u : State} {i : Instr} {src : BitVec 9} {g : BitVec 6} {st : Stop}
    (hi : i ∈ [.tlbinv src g, .ptwfence src g, .replay src g, .logrd src g, .ctxsave src g, .ctxload src g, .dispq src g, .freezem src g, .halt src g])
    (ha : OperandAllowed s i) (h : fireSlot i (s.act1 i).ic u = .error st) : 5 ≤ causeClass st.cause := by
  simp only [List.mem_cons, List.not_mem_nil, or_false] at hi
  obtain rfl | rfl | rfl | rfl | rfl | rfl | rfl | rfl | rfl := hi
  · exact absurd ha (tlbinvBad_iff.1 (tlbinvBad_of_stop h))
  · cases h
  · exact absurd ha (replayBad_iff.1 (replayBad_of_replay h))
  · exact absurd ha (replayBad_iff.1 (replayBad_of_logrd h))
  · exact fireCtxsave_stop ha h
  · exact fireCtxload_stop ha h
  · exact fireDispq_stop h
  · change fireFreezem _ _ = _ at h
    rw [fireFreezem, if_neg (by rw [fld_63_20]; exact not_not.2 ha)] at h
    dsimp only at h
    split at h <;> cases h
  · cases h


/-! ## The stop of the bundle -/

theorem linkSlot_none {i : Instr} (hk : i.kind = .m) (hp : popOf i = none) (hq : pushOf i = none) : linkSlot i = false := by
  unfold linkSlot
  split
  · cases hk
  · simp [hp, hq]

/-- R116: a plain scalar move that names a privileged latch is a slot that needs the privilege. -/
theorem privSlot_move {src d : BitVec 9} {g : BitVec 6} (h : 0x70 ≤ src.toNat ∧ src.toNat < 0x80 ∨ 0x70 ≤ d.toNat ∧ d.toNat < 0x80) :
    privSlot (.move false src d g) = true := by
  change (inPriv src.toNat || (true && inPriv d.toNat) || false) = true
  simpa only [inPriv, Bool.true_and, Bool.or_false, Bool.or_eq_true, Bool.and_eq_true, decide_eq_true_eq] using h

/-- R116: so is a trigger of sys, which acts in the cycle of its issue and stays not sticky. -/
theorem sys_slot {s : State} {i : Instr} {src : BitVec 9} {g : BitVec 6}
    (hi : i ∈ [.tlbinv src g, .ptwfence src g, .replay src g, .logrd src g, .ctxsave src g, .ctxload src g, .dispq src g, .freezem src g, .halt src g]) :
    i.kind = .m ∧ privSlot i = true ∧ stickyOp i = false ∧ isAuOrC (s.act1 i) = false := by
  have hsys (b : Bool) : (b || false || true) = true := Bool.or_true _
  simp only [List.mem_cons, List.not_mem_nil, or_false] at hi
  obtain rfl | rfl | rfl | rfl | rfl | rfl | rfl | rfl | rfl := hi <;> exact ⟨rfl, hsys _, rfl, rfl⟩

/-- Settles O25: the least stop of the bundle is the privilege fault, but beside an operand that the operation refuses (R117, R339). -/
theorem privilegedSlotsStopWithoutPrivilege : Obligations.PrivilegedSlotsStopWithoutPrivilege := by
  refine fun s i hw hrun hctx hp hq hl hx hm => ⟨?_, fun src g hi ha => ?_, fun src g hi hg hb => ?_⟩
  · rintro src d g rfl hd
    exact exec_unprivileged hw hrun hctx hl hx hm rfl (linkSlot_none rfl hp hq) (privSlot_move hd) rfl rfl (fun _ => rfl)
      fun _ => ⟨5 * 32, fun u => leastStop_privilege fun h => by cases h⟩
  · obtain ⟨hk, hpriv, hsticky, hu⟩ := sys_slot (s := s) hi
    exact exec_unprivileged hw hrun hctx hl hx hm hk (linkSlot_none hk hp hq) hpriv hsticky hu (fun _ => rfl)
      fun hg => ⟨5 * 32, fun u => leastStop_privilege fun h => sys_allowed hi (ha hg) h⟩
  · have hi' : i ∈ [.tlbinv src g, .ptwfence src g, .replay src g, .logrd src g, .ctxsave src g, .ctxload src g, .dispq src g, .freezem src g,
        .halt src g] := by
      simp only [List.mem_cons] at hi ⊢
      tauto
    obtain ⟨hk, hpriv, hsticky, hu⟩ := sys_slot (s := s) hi'
    refine exec_unprivileged hw hrun hctx hl hx hm hk (linkSlot_none hk hp hq) hpriv hsticky hu (fun h => by rw [hg] at h; cases h)
      fun _ => ⟨4 * 32 + 2, fun u => ?_⟩
    have hf : fireSlot (s.act1 i).i (s.act1 i).ic u = .error { cause := 4, slot := 0 } := sys_illegal hi hb u
    have hslot : (s.act1 i).ic.slot = 0 := by simp [State.act1, hk]
    have hre : (s.act1 i).ic.re = false := rfl
    simp [runActs, hf, rankStop, actPlace, hslot, hre, causeClass, slotPlace, leastStop]

end Sys2Proof.Machine
end

section
/-! SUPPORT. What lands at the end of a core's cycle (R106, R107, R210, R223, R227, R228): results, chunks, scale entries, products and blocks. -/

namespace Sys2Proof.Machine

open Sys2Proof.Claims

theorem foldl_same {α β : Type} {f : β → α → β} {b : β} {l : List α} (h : ∀ a ∈ l, f b a = b) : l.foldl f b = b := by
  induction l with
  | nil => rfl
  | cons a l ih => rw [List.foldl_cons, h a List.mem_cons_self, ih fun x hx => h x (List.mem_cons_of_mem a hx)]

theorem modCore_eq {s : State} {c : Nat} {f g : Core → Core} (h : f (s.core c) = g (s.core c)) : s.modCore c f = s.modCore c g :=
  congrArg (s.setCore c) h

/-! ## Chunks that join the result of an XLD -/

/-- Nothing that a thread reads but x.r is touched by the results that come back to it. -/
def Core.JoinsOnly (k k' : Core) : Prop := k' = { k with mops := k'.mops, vres := k'.vres }

theorem Core.JoinsOnly.trans {a b c : Core} (h : a.JoinsOnly b) (h' : b.JoinsOnly c) : a.JoinsOnly c := by
  unfold Core.JoinsOnly at *
  rw [h', h]

theorem joinsOnly_xjoins (k : Core) : k.JoinsOnly k.xjoins := by
  have hstep : ∀ (l : List MOp) (q : Core), q.JoinsOnly (l.foldl (fun q o => q.setOp (q.xjoin ((q.mops.find? (fun b => b.id == o.id)).getD o))) q) := by
    intro l
    induction l with
    | nil => exact fun q => rfl
    | cons o l ih => exact fun q => Core.JoinsOnly.trans (b := q.setOp _) rfl (ih _)
  exact hstep k.mops k

theorem joinsOnly_retireOne {k k' : Core} (h : k.retireOne 4 = some k') : k.JoinsOnly k' := by
  unfold Core.retireOne at h
  split at h
  · cases h
  · split at h
    · rw [← Option.some.inj h]
      rfl
    · cases h

theorem joinsOnly_retireLatch (n : Nat) (k : Core) : k.JoinsOnly (k.retireLatch 4 n) := by
  induction n generalizing k with
  | zero => rfl
  | succ n ih =>
    rw [Core.retireLatch]
    split
    · rename_i k1 h1
      exact (joinsOnly_retireOne h1).trans (ih k1)
    · rfl

/-- The core whose results of x.r have come back, before the results of its units land. -/
abbrev Core.joined (k : Core) : Core := k.xjoins.retireLatch 4 k.mops.length

theorem joinsOnly_joined (k : Core) : k.JoinsOnly k.joined := (joinsOnly_xjoins k).trans (joinsOnly_retireLatch _ _)

theorem setOp_of_mem {k : Core} {o : MOp} (hn : (k.mops.map (fun o => o.id)).Nodup) (ho : o ∈ k.mops) : k.setOp o = k := by
  have hid : k.mops.map (fun q => if q.id = o.id then o else q) = k.mops := by
    refine (List.map_congr_left fun q hq => ?_).trans (List.map_id k.mops)
    split
    · rename_i h
      exact (List.inj_on_of_nodup_map hn hq ho h).symm
    · rfl
  rw [Core.setOp, hid]

/-- With no access of x.r in flight nothing comes back to it. -/
theorem joined_none {k : Core} (hx : ∀ o ∈ k.mops, o.latch ≠ 4) (hn : (k.mops.map (fun o => o.id)).Nodup) : k.joined = k := by
  have hj : k.xjoins = k := by
    refine foldl_same fun o ho => ?_
    have hmem : (k.mops.find? (fun b => b.id == o.id)).getD o ∈ k.mops := by
      cases hf : k.mops.find? (fun b => b.id == o.id) with
      | none => exact ho
      | some r => exact List.mem_of_find?_eq_some hf
    rw [Core.xjoin, if_neg (by simp [hx _ hmem]), setOp_of_mem hn hmem]
  have hnone : k.retireOne 4 = none := by
    rw [Core.retireOne, List.find?_eq_none.2 fun o ho => by simpa using hx o ho]
  rw [Core.joined, hj]
  cases k.mops.length with
  | zero => rfl
  | succ n => rw [Core.retireLatch, hnone]

/-! ## Results in flight -/

/-- The results that are due at the end of the core's cycle. -/
def Core.dueNow (k : Core) : List Pend := k.pend.filter (fun p => decide (p.due ≤ k.clk))

/-- The core with only the results of later cycles in flight. -/
def Core.notDue (k : Core) : Core := { k with pend := k.pend.filter (fun p => !decide (p.due ≤ k.clk)) }

/-- Results land one by one. -/
def Core.lands (k : Core) (l : List Pend) : Core := l.foldl (fun q p => q.land p.eff) k

/-- R106: the results due land, those of scale registers after the others. -/
theorem landDue_eq (k : Core) :
    k.landDue = (k.joined.notDue.lands (k.dueNow.filter (fun p => !p.eff.isKreg))).lands (k.dueNow.filter (fun p => p.eff.isKreg)) := by
  have hnow : k.joined.dueNow = k.dueNow := by
    rw [joinsOnly_joined k]
    rfl
  rw [← hnow]
  rfl

/-- R106: one result in flight, due now. -/
theorem landDue_one {k : Core} {p : Pend} (hj : k.joined = k) (hp : k.pend = [p]) (hd : p.due ≤ k.clk) :
    k.landDue = ({ k with pend := [] } : Core).land p.eff := by
  have hnow : k.dueNow = [p] := by simp [Core.dueNow, hp, hd]
  have hrest : k.notDue = { k with pend := [] } := by simp [Core.notDue, hp, hd]
  rw [landDue_eq, hj, hnow, hrest]
  cases hk : p.eff.isKreg <;> simp [Core.lands, hk]

/-- A result of another kind leaves the latches of sres as they are; the one of a latch takes it. -/
def Eff.onSres (e : Eff) (i : Nat) (v : U64) : U64 :=
  match e with
  | .sres j x => if j = i then x else v
  | _ => v

theorem land_sres {k : Core} {i : Nat} (hi : i < k.sres.length) (e : Eff) :
    (k.land e).sres.getD i 0 = e.onSres i (k.sres.getD i 0) ∧ (k.land e).sres.length = k.sres.length := by
  cases e with
  | sres j x =>
    refine ⟨?_, List.length_set⟩
    by_cases h : j = i <;> simp [Core.land, Eff.onSres, List.getD_eq_getElem?_getD, h, hi]
  | _ => exact ⟨rfl, rfl⟩

theorem lands_sres {i : Nat} (l : List Pend) {k : Core} (hi : i < k.sres.length) :
    (k.lands l).sres.getD i 0 = l.foldl (fun v p => p.eff.onSres i v) (k.sres.getD i 0) ∧ (k.lands l).sres.length = k.sres.length := by
  induction l generalizing k with
  | nil => exact ⟨rfl, rfl⟩
  | cons p l ih =>
    obtain ⟨hv, hlen⟩ := land_sres hi p.eff
    obtain ⟨hv', hlen'⟩ := ih (k := k.land p.eff) (hlen ▸ hi)
    exact ⟨by rw [List.foldl_cons, ← hv, ← hv']; rfl, hlen'.trans hlen⟩

theorem lands_frame (l : List Pend) (k : Core) : (k.lands l).pend = k.pend ∧ (k.lands l).g = k.g ∧ (k.lands l).mops = k.mops := by
  induction l generalizing k with
  | nil => exact ⟨rfl, rfl, rfl⟩
  | cons p l ih =>
    obtain ⟨hp, hg, hm⟩ := ih (k.land p.eff)
    have h : (k.land p.eff).pend = k.pend ∧ (k.land p.eff).g = k.g ∧ (k.land p.eff).mops = k.mops := by cases p.eff <;> exact ⟨rfl, rfl, rfl⟩
    exact ⟨hp.trans h.1, hg.trans h.2.1, hm.trans h.2.2⟩

theorem lastDue_eq (k : Core) (i : Nat) (old : U64) : lastDue k i old = k.dueNow.foldl (fun v p => p.eff.onSres i v) old := by
  rw [Core.dueNow, List.foldl_filter]
  simp only [decide_eq_true_eq]
  rfl

/-- A result of a scale register is none of the latches'. -/
theorem onSres_kreg {e : Eff} (h : e.isKreg = true) (i : Nat) (v : U64) : e.onSres i v = v := by
  cases e with
  | kreg r x => rfl
  | _ => cases h

/-- So the order of the two kinds is not seen in a latch. -/
theorem foldl_onSres (l : List Pend) (i : Nat) (v : U64) :
    (l.filter (fun p => p.eff.isKreg)).foldl (fun v p => p.eff.onSres i v)
        ((l.filter (fun p => !p.eff.isKreg)).foldl (fun v p => p.eff.onSres i v) v) =
      l.foldl (fun v p => p.eff.onSres i v) v := by
  rw [foldl_same fun p hp => onSres_kreg (List.mem_filter.1 hp).2 i _, List.foldl_filter]
  congr 1
  funext v p
  cases h : p.eff.isKreg with
  | true => exact (onSres_kreg h i v).symm
  | false => rfl

/-- R106: the results due reach their latches in order of issue; the later ones stay. -/
theorem landDue_due (k : Core) :
    k.landDue.pend = k.pend.filter (fun p => decide (k.clk < p.due)) ∧ k.landDue.g = k.g ∧ k.landDue.mops = k.joined.mops ∧
      ∀ i, i < k.sres.length → k.landDue.sres.getD i 0 = lastDue k i (k.sres.getD i 0) := by
  have hj := joinsOnly_joined k
  obtain ⟨hp2, hg2, hm2⟩ := lands_frame (k.dueNow.filter (fun p => !p.eff.isKreg)) k.joined.notDue
  obtain ⟨hp3, hg3, hm3⟩ := lands_frame (k.dueNow.filter (fun p => p.eff.isKreg)) (k.joined.notDue.lands (k.dueNow.filter (fun p => !p.eff.isKreg)))
  rw [landDue_eq]
  refine ⟨?_, ?_, hm3.trans hm2, fun i hi => ?_⟩
  · rw [hp3, hp2, hj]
    refine List.filter_congr fun p _ => ?_
    rw [← decide_not]
    exact decide_eq_decide.2 Nat.not_le
  · rw [hg3, hg2, hj]
    rfl
  · have hsres : k.joined.notDue.sres = k.sres := by
      rw [hj]
      rfl
    obtain ⟨hv2, hl2⟩ := lands_sres (k.dueNow.filter (fun p => !p.eff.isKreg)) (hsres ▸ hi)
    obtain ⟨hv3, -⟩ := lands_sres (k.dueNow.filter (fun p => p.eff.isKreg)) (hl2 ▸ hsres ▸ hi)
    rw [hv3, hv2, hsres, foldl_onSres, lastDue_eq]

/-- The oldest result of x.r comes back once it is due (R107). -/
theorem retireOne_x {k : Core} {o : MOp} {rest : List MOp} (hops : k.mops = o :: rest) (hheld : k.held = []) (hl : o.latch = 4) (hp : o.perf = true)
    (hret : o.fixed = true → o.ret ≤ k.clk) (hcyc : o.cyc + o.dueLat ≤ k.clk + 1) (hn : ∀ q ∈ rest, q.id ≠ o.id) :
    k.retireOne 4 = some { k with mops := rest, vres := k.vres.set 1 o.val } := by
  have hfind : k.mops.find? (fun o => o.latch = 4) = some o := by simp [hops, hl]
  have hread : k.readHeld o.id = false := by simp [Core.readHeld, hheld]
  have hback : (!o.fixed || decide (o.ret ≤ k.clk)) = true := by cases hf : o.fixed <;> simp [hret, hf]
  have hrest : k.mops.filter (fun q => q.id != o.id) = rest := by
    rw [hops, List.filter_cons_of_neg (by simp), List.filter_eq_self.2 fun q hq => by simpa using hn q hq]
  rw [Core.retireOne, hfind]
  dsimp only
  rw [if_pos (by simp [hread, hp, hback, hcyc]), hrest]
  rfl

/-- A chunk that waits for the result of an XLD is put into it when both are back (R107, R210). -/
theorem landDue_xld {k : Core} {o m : MOp} {src : BitVec 9} {f : BitVec 4} {g : BitVec 6} (hop : o.op = .xld src f g) (hol : o.latch = 4)
    (hop4 : o.perf = true) (hret : o.fixed = true → o.ret ≤ k.clk) (hcyc : o.cyc + 10 ≤ k.clk + 1) (hml : m.latch = 4) (hmr : m.isRead = false)
    (hmp : m.perf = false) (hmf : m.fixed = false) (hmark : m.mark = o.id) (hmop : ∀ a b d, m.op ≠ .xld a b d) (hmc : m.cyc + 3 ≤ k.clk)
    (hid : m.id ≠ o.id) (hops : k.mops = [o, m]) (hheld : k.held = []) (hpend : k.pend = []) :
    k.landDue =
      { k with mops := [], vres := k.vres.set 1 (chunkPut o.val (m.aux / 32) (m.aux % 32) (codesOf m.data.toNat (m.aux / 32))) } := by
  obtain ⟨m', hm'⟩ : ∃ m' : MOp, m' = { m with perf := true, val := chunkPut o.val (m.aux / 32) (m.aux % 32) (codesOf m.data.toNat (m.aux / 32)) } :=
    ⟨_, rfl⟩
  have hjoin : k.xjoins = { k with mops := [o, m'] } := by
    have hio : (o.id == m.id) = false := by simpa using Ne.symm hid
    simp [Core.xjoins, hops, Core.setOp, Core.xjoin, hop4, hmark, hml, hmp, hmr, hid, hio, Ne.symm hid, hm']
  have hmlat : m'.dueLat = 4 := by
    have hl : m'.latch = 4 := by rw [hm', hml]
    rw [MOp.dueLat, if_neg (by simp [hl])]
    split
    · rename_i h
      rw [hm'] at h
      exact absurd h (hmop _ _ _)
    · rfl
    · rename_i h _
      exact (h hl).elim
  have holat : o.dueLat = 10 := by simp [MOp.dueLat, hol, hop]
  have hfirst : k.xjoins.retireOne 4 = some { k with mops := [m'], vres := k.vres.set 1 o.val } := by
    rw [hjoin]
    exact retireOne_x rfl hheld hol hop4 hret (holat ▸ hcyc) (by simpa [hm'] using hid)
  have hnext : ({ k with mops := [m'], vres := k.vres.set 1 o.val } : Core).retireOne 4 = some { k with mops := [], vres := k.vres.set 1 m'.val } := by
    have hback := retireOne_x (k := { k with mops := [m'], vres := k.vres.set 1 o.val }) rfl hheld (o := m') (by rw [hm', hml]) (by rw [hm'])
      (fun h => by rw [hm', hmf] at h; cases h) (by rw [hmlat, hm']; exact Nat.succ_le_succ hmc) (fun q hq => by cases hq)
    simpa only [List.set_set] using hback
  have hjoined : k.joined = { k with mops := [], vres := k.vres.set 1 m'.val } := by
    rw [Core.joined, hops, List.length_cons, List.length_singleton, Core.retireLatch, hfirst]
    simp only [Core.retireLatch, hnext]
  have hnow : k.dueNow = [] := by simp [Core.dueNow, hpend]
  rw [landDue_eq, hjoined, hnow, hm']
  simp only [Core.notDue, hpend]
  rfl

/-! ## Products and weight blocks -/

/-- R227, R228: the product of an event that is due now writes its accumulator. -/
theorem landMma_due {k : Core} {f : MmaFly} {p : MmaFly → Bool} (hm : k.mma = [f]) (hp : p f = true) (hd : f.due ≤ k.clk) :
    k.landMma p = { k with mma := [], t := k.t.set f.acc ((k.t.getD f.acc {}).putRows f.res) } := by
  simp [Core.landMma, hm, hp, hd]

/-- A product of the other event, or of a later cycle, stays in flight. -/
theorem landMma_other {k : Core} {f : MmaFly} {p : MmaFly → Bool} (hm : k.mma = [f]) (hn : p f = false ∨ k.clk < f.due) : k.landMma p = k := by
  have hno : (p f && decide (f.due ≤ k.clk)) = false := by obtain h | h := hn <;> simp [h]
  have hnow : [f].filter (fun f => p f && decide (f.due ≤ k.clk)) = [] := List.filter_cons_of_neg (by simp [hno])
  have hrest : [f].filter (fun f => !(p f && decide (f.due ≤ k.clk))) = [f] := List.filter_cons_of_pos (by simp [hno])
  unfold Core.landMma
  rw [hm, hnow, hrest, ← hm]
  rfl

/-- R223, R224: a block that is usable from the next cycle takes its place. -/
theorem landWld_due {k : Core} {w : WldFly} (hw : k.wld = [w]) (hgot : ∀ o ∈ k.mops, o.id = w.mop → o.perf = true) (hu : w.usable ≤ k.clk + 1) :
    k.landWld true = ({ k with wld := [], blocks := k.blocks.filter (fun b => !b.overlaps w.blk) ++ [w.blk] } : Core).keepCodes w.blk := by
  have hg : k.wldGot w = true := by
    refine List.all_eq_true.2 fun o ho => ?_
    by_cases h : o.id = w.mop
    · simp [hgot o ho h]
    · simp [h]
  simp [Core.landWld, hw, hg, hu]

theorem landWld_later {k : Core} {w : WldFly} {b : Bool} (hw : k.wld = [w]) (hu : k.clk + 1 < w.usable) : k.landWld b = k := by
  have hno : decide (w.usable ≤ k.clk + 1) = false := by simpa using hu
  unfold Core.landWld
  simp only [hw, hno, Bool.and_false, List.filter_cons, Bool.not_false, if_true, Bool.false_eq_true, if_false, List.filter_nil, List.foldl_nil]
  rw [← hw]

/-- Settles O33: what each event of a core lands. -/
theorem resultsProductsAndBlocksLand : Obligations.ResultsProductsAndBlocksLand := by
  intro s c htick
  dsimp only
  have hres : exec (.resultLatchWrite c) s = .next (s.modCore c Core.landDue) := by
    change Host.Outcome.next _ = _
    rw [if_pos htick]
  have hone {f : Core → Core} (p : Pend) (hx : (∀ o ∈ (s.core c).mops, o.latch ≠ 4) ∧ ((s.core c).mops.map (fun o => o.id)).Nodup)
      (hp : (s.core c).pend = [p]) (hd : p.due ≤ (s.core c).clk)
      (hf : (({ s.core c with pend := [] } : Core).land p.eff) = f (s.core c)) : exec (.resultLatchWrite c) s = .next (s.modCore c f) := by
    rw [hres, modCore_eq ((landDue_one (joined_none hx.1 hx.2) hp hd).trans hf)]
  have hmma {q : MmaFly → Bool} : (if s.clkTicks c = true then s.modCore c (fun k => k.landMma q) else s) = s.modCore c (fun k => k.landMma q) := if_pos htick
  refine ⟨fun i v p hx hp he hd => hone p hx hp hd (by rw [he]; rfl), fun i v p hx hp he hd => hone p hx hp hd (by rw [he]; rfl),
    fun w ch l p hx hp he hd => hone p hx hp hd (by rw [he]; rfl), fun r i v p hx hp he hd => hone p hx hp hd (by rw [he]; rfl),
    fun r v p hx hp he hd => hone p hx hp hd (by rw [he]; rfl), ⟨_, hres, ?_⟩, ?_, ⟨?_, ?_⟩, ⟨?_, ?_⟩, ?_, ?_⟩
  · obtain ⟨hpend, hg, hops, hs⟩ := landDue_due (s.core c)
    rw [core_modCore_same]
    exact ⟨hpend, hs, hg, fun hx => by rw [hops, joined_none hx.1 hx.2], fun d hd => core_modCore_ne _ _ _ _ hd, rfl⟩
  · intro o m src f g hop hol _ hperf hret hcyc hml hmr hmp hmf hmark hmop hmc hid hops hheld hpend
    exact hres.trans (congrArg Host.Outcome.next
      (modCore_eq (landDue_xld hop hol hperf hret hcyc hml hmr hmp hmf hmark hmop hmc hid hops hheld hpend)))
  · intro f hm hq hd
    have hnot : (!f.quad) = true := by simp [hq]
    exact congrArg Host.Outcome.next (hmma.trans (modCore_eq (landMma_due hm hnot hd)))
  · intro f hm hn
    refine ⟨_, rfl, ?_⟩
    rw [hmma, core_modCore_same]
    exact landMma_other hm (hn.imp_left fun h => by simpa using h)
  · intro f hm hq hd
    exact congrArg Host.Outcome.next (hmma.trans (modCore_eq (landMma_due hm hq hd)))
  · intro f hm hn
    refine ⟨_, rfl, ?_⟩
    rw [hmma, core_modCore_same]
    exact landMma_other hm (hn.imp_left fun h => by simpa using h)
  · intro w hfrz hw hgot hu
    refine congrArg Host.Outcome.next ((if_neg (by simp [hfrz])).trans ?_)
    rw [htick]
    exact modCore_eq (landWld_due hw hgot hu)
  · intro w hw hu
    refine ⟨_, rfl, ?_⟩
    split
    · rfl
    · rw [core_modCore_same, landWld_later hw hu]

end Sys2Proof.Machine
end

section
/-! SUPPORT. A drain of a core's copies (R147, R150) leaves the marks under which they are filled again as they are (R157); and a drain with no
dirty byte in them does nothing. -/

namespace Sys2Proof.Machine

open Sys2Proof.Claims

/-- The fills of a core's L1 and the marks of its acquires. -/
def State.marks (s : State) (c : Nat) : Nat × Nat × Nat := ((s.core c).fills, (s.core c).l1Mark, (s.core c).rdcMark)

theorem marks_modCore {f : Core → Core} (hf : ∀ k : Core, ((f k).fills, (f k).l1Mark, (f k).rdcMark) = (k.fills, k.l1Mark, k.rdcMark)) (s : State)
    (c d : Nat) : (s.modCore d f).marks c = s.marks c := by
  unfold State.marks
  rw [core_modCore]
  split
  · exact hf _
  · rfl

section
variable (a : Nat)

/-! ## The home and the die's point -/

theorem marks_addDelta (s : State) (c loc : Nat) (x : BitVec 512) : (s.addDelta c loc x).marks a = s.marks a := by
  unfold State.addDelta
  split
  · rfl
  · split
    · exact foldl_keeps (fun t : State => t.marks a) _ (fun t p => by rfl) _ _
    · rfl

theorem marks_sendStore (s : State) (who : Waiter) (loc : Nat) (bs : List Byte) : (s.sendStore who loc bs).marks a = s.marks a := by
  unfold State.sendStore
  split
  · exact foldl_keeps (fun t : State => t.marks a) _ (fun t p => by rfl) _ _
  · rfl

theorem marks_unstale (s : State) (loc n : Nat) : (s.unstale loc n).marks a = s.marks a := by
  unfold State.unstale
  split
  · exact marks_modCore (fun k => by rfl) s a _
  · rfl

theorem marks_homePut (s : State) (c loc : Nat) (bs : List Byte) : (s.homePut c loc bs).marks a = s.marks a := by
  have hput : ({ s.unstale loc bs.length with mem := memWrite s.mem loc bs } : State).marks a = s.marks a := marks_unstale a s loc bs.length
  unfold State.homePut
  dsimp only
  split
  · exact hput
  · exact (foldl_keeps (fun t : State => t.marks a) _ (fun t _ => marks_addDelta a t c _ _) _ _).trans hput

theorem marks_homeWrite (s : State) (c loc : Nat) (bs : List Byte) : (s.homeWrite c loc bs).marks a = s.marks a := by
  have hstall : (s.stall c loc none bs).marks a = s.marks a := rfl
  unfold State.homeWrite
  split
  · exact marks_sendStore a s .none loc bs
  · split
    · split
      · exact hstall
      · exact marks_homePut a s c loc bs
    · split
      · rfl
      · split
        · exact hstall
        · exact marks_homePut a s c loc bs

theorem marks_rdcClean (s : State) (d line : Nat) : (s.rdcClean d line).marks a = s.marks a := by
  unfold State.rdcClean
  split
  · rfl
  · exact foldl_keeps (fun t : State => t.marks a) _ (fun t p => by rfl) _ s

theorem marks_rdcRoom (s : State) (d line : Nat) : (s.rdcRoom d line).marks a = s.marks a := by
  unfold State.rdcRoom
  split
  · exact marks_rdcClean a s d _
  · rfl

theorem marks_dieWrite (s : State) (c loc : Nat) (b : Byte) : (s.dieWrite c loc b).marks a = s.marks a := by
  unfold State.dieWrite
  dsimp only
  split
  · exact marks_homeWrite a s c loc [b]
  · exact marks_rdcRoom a s _ _

/-! ## The quad store buffer and the L1 -/

theorem marks_qsbFlush (s : State) (c line : Nat) : (s.qsbFlush c line).marks a = s.marks a := by
  unfold State.qsbFlush
  dsimp only
  split
  · rfl
  · exact foldl_keeps (fun t : State => t.marks a) _ (fun t _ => marks_dieWrite a t c _ _) _ s

theorem marks_qsbWrite (s : State) (c loc : Nat) (b : Byte) : (s.qsbWrite c loc b).marks a = s.marks a := by
  have hroom (p : Prop) [Decidable p] (line : Nat) : (if p then s.qsbFlush c line else s).marks a = s.marks a := by
    split
    · exact marks_qsbFlush a s c line
    · rfl
  exact hroom _ _

theorem marks_l1Clean (s : State) (c line : Nat) : (s.l1Clean c line).marks a = s.marks a := by
  unfold State.l1Clean
  split
  · rfl
  · exact (marks_modCore (fun k => by rfl) _ a c).trans (foldl_keeps (fun t : State => t.marks a) _ (fun t _ => marks_qsbWrite a t c _ _) _ s)

/-! ## A drain -/

theorem marks_l1Drain (s : State) (c : Nat) : (s.l1Drain c).marks a = s.marks a := by
  refine foldl_keeps (fun t : State => t.marks a) _ (fun t p => ?_) _ s
  split
  · rfl
  · exact marks_l1Clean a t c _

theorem marks_qsbDrain (s : State) (c : Nat) : (s.qsbDrain c).marks a = s.marks a :=
  foldl_keeps (fun t : State => t.marks a) _ (fun t _ => marks_qsbFlush a t c _) _ s

theorem marks_rdcDrain (s : State) (d : Nat) : (s.rdcDrain d).marks a = s.marks a := by
  refine foldl_keeps (fun t : State => t.marks a) _ (fun t p => ?_) _ s
  split
  · rfl
  · exact marks_rdcClean a t d _

theorem marks_drainTo (s : State) (c sc : Nat) (rel : Bool) : (s.drainTo c sc rel).marks a = s.marks a := by
  have hl : (if 1 ≤ scopeRank sc then s.l1Drain c else s).marks a = s.marks a := by
    split
    · exact marks_l1Drain a s c
    · rfl
  have hq : (if 2 ≤ scopeRank sc then State.qsbDrain (if 1 ≤ scopeRank sc then s.l1Drain c else s) c
      else if 1 ≤ scopeRank sc then s.l1Drain c else s).marks a = s.marks a := by
    split
    · exact (marks_qsbDrain a _ c).trans hl
    · exact hl
  unfold State.drainTo
  dsimp only
  split
  · exact (marks_rdcDrain a _ _).trans hq
  · exact hq

end

/-- With clean copies there is nothing to drain. -/
theorem drainTo_clean {s : State} {c sc : Nat} (hl : ∀ l ∈ (s.core c).l1, l.2.dirty = 0) (hq : Tbl.getD s.qsb (quadOf c) [] = []) :
    s.drainTo c sc false = s := by
  have hd : s.l1Drain c = s := foldl_same fun l h => if_pos (hl l h)
  have hb : s.qsbDrain c = s := by
    unfold State.qsbDrain
    rw [hq]
    rfl
  unfold State.drainTo
  simp only [hd, hb, ite_self, Bool.false_eq_true, false_and, if_false]

/-! ## An acquire (R157) -/

/-- An acquire: its core drains its copies and marks its L1 for refill. -/
structure State.Acquired (s t : State) (c : Nat) : Prop where
  stores : s.StoresOnly t
  l1Mark : (t.core c).l1Mark = (s.core c).fills

theorem acquired_drain {s : State} {c sc : Nat} {rel : Bool} (h1 : 1 ≤ sc) (h4 : sc ≤ 4) : s.Acquired ((s.drainTo c sc rel).setMarks c sc) c := by
  have hrank : scopeRank sc = sc := if_neg (by omega)
  have hfills : ((s.drainTo c sc rel).core c).fills = (s.core c).fills := congrArg Prod.fst (marks_drainTo c s c sc rel)
  refine ⟨(drainTo_storesOnly s c sc rel).trans (setMarks_storesOnly _ c sc), ?_⟩
  rw [State.setMarks, core_modCore_same, hrank]
  exact (if_pos h1).trans hfills

/-- Below PACKAGE the die's remote-data cache keeps its mark. -/
theorem rdcMark_drain {s : State} {c sc : Nat} {rel : Bool} (h3 : sc ≤ 3) :
    (((s.drainTo c sc rel).setMarks c sc).core c).rdcMark = (s.core c).rdcMark := by
  have hrank : scopeRank sc = sc := if_neg (by omega)
  rw [State.setMarks, core_modCore_same, hrank]
  exact (if_neg (by omega)).trans (congrArg (fun m : Nat × Nat × Nat => m.2.2) (marks_drainTo c s c sc rel))

theorem sameRegisters_of_stores {s t : State} (h : s.StoresOnly t) (c : Nat) : SameRegisters (s.core c) (t.core c) := by
  have hc := h.cores c
  exact ⟨(congrArg Core.g hc :), (congrArg Core.p hc :), (congrArg Core.v hc :), (congrArg Core.q hc :), (congrArg Core.k hc :),
    (congrArg Core.fm hc :), (congrArg Core.lgl hc :), (congrArg Core.sop hc :), (congrArg Core.vop hc :), (congrArg Core.sres hc :),
    (congrArg Core.vres hc :), (congrArg Core.recs hc :), (congrArg Core.vmsel hc :)⟩

theorem sameRegisters_of_bookkept {k k' : Core} {l : List Nat} (h : k.Bookkept k' l) : SameRegisters k k' := by
  have hf := h.frame
  exact ⟨(congrArg Core.g hf :), (congrArg Core.p hf :), (congrArg Core.v hf :), (congrArg Core.q hf :), (congrArg Core.k hf :),
    (congrArg Core.fm hf :), (congrArg Core.lgl hf :), (congrArg Core.sop hf :), (congrArg Core.vop hf :), (congrArg Core.sres hf :),
    (congrArg Core.vres hf :), (congrArg Core.recs hf :), (congrArg Core.vmsel hf :)⟩

theorem sameRegisters_trans {a b c : Core} (h : SameRegisters a b) (h' : SameRegisters b c) : SameRegisters a c := by
  obtain ⟨h1, h2, h3, h4, h5, h6, h7, h8, h9, h10, h11, h12, h13⟩ := h
  obtain ⟨k1, k2, k3, k4, k5, k6, k7, k8, k9, k10, k11, k12, k13⟩ := h'
  exact ⟨k1.trans h1, k2.trans h2, k3.trans h3, k4.trans h4, k5.trans h5, k6.trans h6, k7.trans h7, k8.trans h8, k9.trans h9, k10.trans h10,
    k11.trans h11, k12.trans h12, k13.trans h13⟩

end Sys2Proof.Machine
end

section
/-! SUPPORT. The operations of the sync slot (R264 to R268, R270). -/

namespace Sys2Proof.Machine

open Sys2Proof.Claims

/-! ## An operation of the sync slot in its bundle -/

/-- The state at which an operation of the sync slot acts: that of its issue, with the issuing core written back. -/
abbrev State.self (s : State) : State := s.setCore s.cur s.me

theorem ready1_sync {s : State} {i : Instr} (hu : unitOf i = .sync) (hp : i.isPlain = false) : s.ready1 i = s.self := by
  rw [ready1_trigger s i hp, setSticky_scalar s.me (s.act1 i) true (by rw [show unitOf (s.act1 i).i = .sync from hu]; decide)]

theorem isAuOrC_sync {s : State} {i : Instr} (hu : unitOf i = .sync) : isAuOrC (s.act1 i) = false := by
  rw [isAuOrC, show unitOf (s.act1 i).i = .sync from hu]

/-- An operation of the sync slot other than a barrier. -/
structure SyncOp (i : Instr) : Prop where
  trigger : i.isPlain = false
  noBar : barOf i = none
  single : isMmaq i = false
  unit : unitOf i = .sync
  slot : i.kind = .sync

section
variable {s : State} {i : Instr} (hc : SyncOp i)
include hc

theorem exec_sync : exec i s = s.execSlot i := exec_slot (by rw [hc.slot]; decide) s

theorem sync_fires {t : State} (h : s.Clear i) (hf : fireSlot i (s.act1 i).ic s.self = .ok t) : exec i s = .next (s.fin1 (s.closed1 t i)) :=
  (exec_sync hc).trans (exec_unit s i h hc.noBar hc.single (isAuOrC_sync hc.unit) t (by rw [ready1_sync hc.unit hc.trigger]; exact hf))

theorem sync_gives {k : Core} (hf : fireSlot i (s.act1 i).ic s.self = .ok (s.setCore s.cur k)) (hr : k.rep = s.me.rep) : Gives s i k := by
  intro h
  obtain ⟨t, hx, ho, hb⟩ := exec_gives s i h hc.trigger hc.noBar hc.single (isAuOrC_sync hc.unit) k
    (by rw [← ready1_trigger s i hc.trigger, ready1_sync hc.unit hc.trigger]; exact hf) (hr.trans h.first)
  exact ⟨t, (exec_sync hc).trans hx, ho, hb⟩

theorem sync_stops {st : Stop} (hf : fireSlot i (s.act1 i).ic s.self = .error st) : Stops s i st := fun h =>
  (exec_sync hc).trans (exec_unit_stop s i h hc.noBar hc.single (isAuOrC_sync hc.unit) st (by rw [ready1_sync hc.unit hc.trigger]; exact hf))

end

/-- The end of a bundle changes no context. -/
theorem fin1_closed1_ctxs (s t : State) {i : Instr} (hp : i.isPlain = false) : (s.fin1 (s.closed1 t i)).ctxs = t.ctxs := by
  have hclosed : (s.closed1 t i).ctxs = t.ctxs := by
    unfold State.closed1
    rw [regMove_trigger s i _ hp, pops_core t]
    rfl
  unfold State.fin1
  split <;> exact hclosed

/-- The end of a bundle after a trigger that was no plain move. -/
theorem fin1_closed1_kept {s t : State} {i : Instr} (hp : i.isPlain = false) (hr : (t.core s.cur).rep = 0) :
    (t.core s.cur).Bookkept ((s.fin1 (s.closed1 t i)).core s.cur) i.rowTiles :=
  fin1_kept _ _ _ _ (closed1_kept s t i hp hr)

/-! ## Acquires -/

/-- WAITF and WAITE act as an LDACQ over the die (R157, R266, R267). -/
theorem acquires_of_fire {s : State} {i : Instr} {k : Core} (hc : SyncOp i) (hregs : SameRegisters s.me k) (hl1 : k.l1 = s.me.l1)
    (hrep : k.rep = s.me.rep)
    (hf : fireSlot i (s.act1 i).ic s.self = .ok (((s.setCore s.cur k).drainTo s.cur 3 false).setMarks s.cur 3)) : Acquires s i k := by
  obtain ⟨v, hv⟩ : ∃ v, v = s.setCore s.cur k := ⟨_, rfl⟩
  have hk : v.core s.cur = k := by rw [hv, core_setCore_same]
  rw [← hv] at hf
  refine ⟨fun h => ?_, fun ⟨hlines, hbuf⟩ => ?_⟩
  · obtain ⟨hstores, hmark⟩ := acquired_drain (s := v) (c := s.cur) (sc := 3) (rel := false) (by omega) (by omega)
    have hrdc := rdcMark_drain (s := v) (c := s.cur) (sc := 3) (rel := false) le_rfl
    obtain ⟨t, ht⟩ : ∃ t, t = (v.drainTo s.cur 3 false).setMarks s.cur 3 := ⟨_, rfl⟩
    rw [← ht] at hf hstores hmark hrdc
    have hcore : (t.core s.cur).besideCopies = k.besideCopies := hk ▸ hstores.cores s.cur
    have hb := fin1_closed1_kept (s := s) (t := t) hc.trigger (((congrArg Core.rep hcore :).trans hrep).trans h.first)
    refine ⟨_, sync_fires hc h hf, ?_, ?_, ?_, ?_⟩
    · exact sameRegisters_trans hregs (sameRegisters_trans (hk ▸ sameRegisters_of_stores hstores s.cur) (sameRegisters_of_bookkept hb))
    · exact (congrArg Core.cf hb.frame :).trans (congrArg Core.cf hcore :)
    · exact ((congrArg Core.l1Mark hb.frame :).trans hmark).trans (by rw [hk])
    · exact ((congrArg Core.rdcMark hb.frame :).trans hrdc).trans (by rw [hk])
  · have hclean : v.drainTo s.cur 3 false = v := drainTo_clean (by rw [hk, hl1]; exact hlines) (by rw [hv]; exact hbuf)
    refine sync_gives hc ?_ (show ({ k with l1Mark := k.fills } : Core).rep = s.me.rep from hrep)
    rw [hf, hclean, hv, State.setMarks, modCore_setCore]
    rfl

/-! ## Operations in flight -/

theorem syncOp_self {s : State} {i : Instr} (hs : i.kind = .sync) (scope delay aux : Nat) :
    s.self.syncOp (s.act1 i).ic i scope delay aux = s.setCore s.cur (withSync s i scope delay aux) := by
  have hslot : (s.act1 i).ic.slot = 12 := by simp [State.act1, hs]
  have hcore : s.self.core s.cur = s.me := core_setCore_same s s.cur s.me
  unfold State.syncOp
  rw [show (s.act1 i).ic.c = s.cur from rfl, hslot, hcore, State.self, modCore_setCore]
  rfl

theorem syncOp_gives {s : State} {i : Instr} (hc : SyncOp i) {scope delay aux : Nat}
    (hf : fireSlot i (s.act1 i).ic s.self = .ok (s.self.syncOp (s.act1 i).ic i scope delay aux)) : Gives s i (withSync s i scope delay aux) :=
  sync_gives hc (by rw [hf, syncOp_self hc.slot]) rfl

theorem postTarget_self (s : State) (i : Instr) (e : BitVec 1) (r : BitVec 5) :
    (s.act1 i).ic.postTarget s.self e r =
      if e = 1 then some s.cur
      else if (s.me.g.getD r.toNat 0).toNat < 4096 ∧ s.shapeCore s.cur (dieOf s.cur) (s.me.g.getD r.toNat 0).toNat = true then
        some (s.me.g.getD r.toNat 0).toNat
      else none := by
  have hshape (x : Nat) : s.self.shapeCore s.cur (dieOf s.cur) x = s.shapeCore s.cur (dieOf s.cur) x := by
    unfold State.shapeCore
    rw [core_setCore_same]
    rfl
  unfold Ic.postTarget
  rw [show (s.act1 i).ic.c = s.cur from rfl, show (s.act1 i).ic.pre.g = s.me.g from rfl]
  simp only [hshape]

/-! ## The operations -/

theorem waitf_syncOp (n c : BitVec 8) (g : BitVec 6) : SyncOp (Instr.waitf n c g) := ⟨rfl, rfl, rfl, rfl, rfl⟩
theorem waite_syncOp (n : BitVec 8) (g : BitVec 6) : SyncOp (Instr.waite n g) := ⟨rfl, rfl, rfl, rfl, rfl⟩
theorem sete_syncOp (n : BitVec 8) (g : BitVec 6) : SyncOp (Instr.sete n g) := ⟨rfl, rfl, rfl, rfl, rfl⟩
theorem clre_syncOp (n : BitVec 8) (g : BitVec 6) : SyncOp (Instr.clre n g) := ⟨rfl, rfl, rfl, rfl, rfl⟩
theorem postf_syncOp (n c : BitVec 8) (e : BitVec 1) (r : BitVec 5) (g : BitVec 6) : SyncOp (Instr.postf n c e r g) := ⟨rfl, rfl, rfl, rfl, rfl⟩
theorem waitt_syncOp (n : BitVec 8) (g : BitVec 6) : SyncOp (Instr.waitt n g) := ⟨rfl, rfl, rfl, rfl, rfl⟩
theorem waitl_syncOp (n : BitVec 8) (g : BitVec 6) : SyncOp (Instr.waitl n g) := ⟨rfl, rfl, rfl, rfl, rfl⟩

/-- R266: WAITF takes n from its flag; with n = 0 it synchronises with nothing. -/
theorem waitf_takes (s : State) (n c : BitVec 8) (g : BitVec 6) :
    let k : Core := { s.me with cf := s.me.cf.set n.toNat (s.me.cf.getD n.toNat 0 - c.setWidth 16) }
    if c = 0 then Gives s (.waitf n c g) k else Acquires s (.waitf n c g) k := by
  intro k
  have htake : s.self.modCore s.cur (fun k => { k with cf := k.cf.set n.toNat (k.cf.getD n.toNat 0 - c.setWidth 16) }) = s.setCore s.cur k :=
    modCore_setCore s s.cur s.me _
  split
  · rename_i hz
    refine sync_gives (waitf_syncOp n c g) ?_ rfl
    change Except.ok (if c = 0 then _ else _) = _
    rw [if_pos hz]
    exact congrArg Except.ok htake
  · rename_i hz
    refine acquires_of_fire (waitf_syncOp n c g) ⟨rfl, rfl, rfl, rfl, rfl, rfl, rfl, rfl, rfl, rfl, rfl, rfl, rfl⟩ rfl rfl ?_
    change Except.ok (if c = 0 then _ else _) = _
    rw [if_neg hz]
    exact congrArg (fun u : State => Except.ok ((u.drainTo s.cur 3 false).setMarks s.cur 3)) htake

/-- R266: POSTF sends its post to a core of the shape; another target is an illegal operation. -/
theorem postf_sends (s : State) (n c : BitVec 8) (e : BitVec 1) (r : BitVec 5) (g : BitVec 6) :
    let x := (s.me.g.getD r.toNat 0).toNat
    let target := if e = 1 then s.cur else x
    GivesIf s (.postf n c e r g) (e = 1 ∨ x < 4096 ∧ s.shapeCore s.cur (dieOf s.cur) x = true)
      (Gives s (.postf n c e r g) (withSync s (.postf n c e r g) (scopeOf2 s.cur target) (coreDist s.cur target) target)) := by
  intro x target
  have htarget := postTarget_self s (.postf n c e r g) e r
  refine ⟨fun hl => ?_, fun hl => ?_⟩
  · have hsome : (s.act1 (.postf n c e r g)).ic.postTarget s.self e r = some target := by
      rw [htarget]
      obtain he | hx := hl
      · rw [if_pos he]
        exact congrArg some (if_pos he).symm
      · by_cases he : e = 1
        · rw [if_pos he]
          exact congrArg some (if_pos he).symm
        · rw [if_neg he, if_pos hx]
          exact congrArg some (if_neg he).symm
    refine syncOp_gives (postf_syncOp n c e r g) ?_
    change firePostf _ n c e r g _ = _
    rw [firePostf, hsome]
    rfl
  · have hnone : (s.act1 (.postf n c e r g)).ic.postTarget s.self e r = none := by
      rw [htarget, if_neg fun he => hl (.inl he), if_neg fun hx => hl (.inr hx)]
    refine sync_stops (postf_syncOp n c e r g) ?_
    change firePostf _ n c e r g _ = _
    rw [firePostf, hnone]
    rfl

/-- R268: WAITT clears its flag, on Nared only. -/
theorem waitt_clears (s : State) (n : BitVec 8) (g : BitVec 6) (hd : dieOf s.cur ≠ 1) (h : s.Clear (.waitt n g)) :
    ∃ t, exec (.waitt n g) s = .next t ∧ SameRegisters s.me (t.core s.cur) ∧
      t.ctx s.me.ctx = { s.coreCtx s.cur with tflags := (s.coreCtx s.cur).tflags &&& ~~~ (BitVec.ofNat 256 (2 ^ n.toNat)) } ∧
      (∀ x, x ≠ s.me.ctx → t.ctx x = s.ctx x) ∧ (t.core s.cur).l1Mark = s.me.fills := by
  obtain ⟨v, hv⟩ : ∃ v, v = s.self.modCtx s.me.ctx (fun x => { x with tflags := x.tflags &&& ~~~ (BitVec.ofNat 256 (2 ^ n.toNat)) }) := ⟨_, rfl⟩
  have hk : v.core s.cur = s.me := by rw [hv]; exact core_setCore_same s s.cur s.me
  obtain ⟨hstores, hmark⟩ := acquired_drain (s := v) (c := s.cur) (sc := 4) (rel := false) (by omega) (by omega)
  obtain ⟨t, ht⟩ : ∃ t, t = (v.drainTo s.cur 4 false).setMarks s.cur 4 := ⟨_, rfl⟩
  rw [← ht] at hstores hmark
  have hf : fireSlot (.waitt n g) (s.act1 (.waitt n g)).ic s.self = .ok t := by
    change fireWaitt _ n s.self = _
    rw [fireWaitt, show (s.act1 (.waitt n g)).ic.c = s.cur from rfl, if_neg hd, core_setCore_same, ht, hv]
  have hcore : (t.core s.cur).besideCopies = s.me.besideCopies := hk ▸ hstores.cores s.cur
  have hb := fin1_closed1_kept (s := s) (t := t) (waitt_syncOp n g).trigger ((congrArg Core.rep hcore :).trans h.first)
  have hctx (x : Nat) : (s.fin1 (s.closed1 t (.waitt n g))).ctx x = v.ctx x := by
    rw [State.ctx, fin1_closed1_ctxs s t (waitt_syncOp n g).trigger, hstores.ctxs]
    rfl
  refine ⟨_, sync_fires (waitt_syncOp n g) h hf, ?_, ?_, fun x hx => ?_, ?_⟩
  · exact sameRegisters_trans (hk ▸ sameRegisters_of_stores hstores s.cur) (sameRegisters_of_bookkept hb)
  · rw [hctx, hv, ctx_modCtx_same]
    rfl
  · rw [hctx, hv, ctx_modCtx, if_neg hx]
    rfl
  · exact ((congrArg Core.l1Mark hb.frame :).trans hmark).trans (by rw [hk])

/-- R98, R270: off an edge core a WAITL is an illegal latch. -/
theorem waitl_illegal (s : State) (n : BitVec 8) (g : BitVec 6) (he : (edgePort s.cur).isSome = false) (hw : (Instr.waitl n g).wf = true)
    (hrun : s.me.status = .run) : exec (.waitl n g) s = .next ((s.stopAt s.cur { cause := 3, slot := 12 }).turned s.cur) := by
  have hlink : linkStop s.cur (oneSlot (.waitl n g)).slots = some { cause := 3, slot := 12 } := by
    have hnone : (edgePort s.cur).isNone = true := by simpa using he
    rw [linkStop, if_pos hnone]
    rfl
  have htry : s.trySlot s.cur (.waitl n g) = .stop { cause := 3, slot := 12 } := by
    rw [State.trySlot, if_pos hw, State.issue]
    simp only [hlink]
  rw [exec_sync (waitl_syncOp n g), State.execSlot, hrun, htry]
  rfl

theorem syncSlotsComplete : SyncSlotsComplete := by
  refine fun s n c e r g => ⟨waitf_takes s n c g, ?waite, ?sete, ?clre, postf_sends s n c e r g, ⟨fun hd => ?_, waitt_clears s n g⟩,
    fun he => ?_, waitl_illegal s n g⟩
  case waite => exact acquires_of_fire (waite_syncOp n g) ⟨rfl, rfl, rfl, rfl, rfl, rfl, rfl, rfl, rfl, rfl, rfl, rfl, rfl⟩ rfl rfl rfl
  case sete => exact syncOp_gives (sete_syncOp n g) rfl
  case clre => exact syncOp_gives (clre_syncOp n g) rfl
  · exact sync_stops (waitt_syncOp n g) (if_pos hd)
  · refine sync_gives (waitl_syncOp n g) ?_ rfl
    have hedge : ¬(edgePort s.cur).isNone = true := by simpa [Option.isSome_iff_ne_none] using he
    exact if_neg hedge

end Sys2Proof.Machine
end

section
/-! SUPPORT. Barrier bundles (R269, R299) and link queues (R95, R98). -/

namespace Sys2Proof.Machine

open Sys2Proof.Claims

/-! ## Barriers -/

/-- What an attempt at an instruction that stands clear is. -/
theorem trySlot_clear {s : State} {i : Instr} (h : s.Clear i) :
    s.trySlot s.cur i =
      if s.me.tagged then s.issueTagged s.cur (oneSlot i) [s.act1 i] [] else s.issueTimed s.cur (oneSlot i) [s.act1 i] [] := by
  obtain ⟨hlink, hpriv⟩ := roleStop_none h.role
  have hre : (s.core s.cur).reissues s.cur (oneSlot i) [s.act1 i] = [] := reissues_none _ _ _ _ h.noL h.noX h.noM
  rw [State.trySlot, if_pos h.formed, State.issue]
  simp only [hlink, hpriv, actsOf_oneSlot s i h.guard h.first, h.link, hre, mustWait_none s s.cur _ _ _ h.noHeld, Bool.and_false,
    Bool.false_eq_true, if_false]

/-- R37: in TAGGED mode a bundle with a slot that issues whole has nothing to wait for but its barrier. -/
theorem issueTagged_whole {s : State} {c : Nat} {q : Bundle} {a : Act} (hh : (s.core c).held = []) (hq : q.slots.any (fun b => wholeSlot b.i) = true)
    (hw : (s.latchMoves [a]).actWait a = .go) (he : (s.latchMoves [a]).earlyStops [a] = []) :
    s.issueTagged c q [a] [] = if (s.barTagged c [a]).1 then s.issueNow c q [a] [] [] [] else .delay (s.barTagged c [a]).2 := by
  have hskew : (s.core c).skew = 0 := skew_none _ hh
  have hblocked : [a].filter (fun x => !((s.latchMoves [a]).actWait x).isGo) = [] := List.filter_cons_of_neg (by rw [hw]; simp [Wait.isGo])
  unfold State.issueTagged
  simp only [List.append_nil, hskew, hblocked, hq, he]
  rfl

/-- R269, R299: in TIMED mode a barrier whose release cycle has come lets its bundle issue. -/
theorem issueTimed_released {s : State} {c kind idx : Nat} {q : Bundle} {a : Act} {m : Option (Nat × Nat × Nat)} (hb : barOf a.i = some (kind, idx))
    (hm : isMmaq a.i = false) (hw : (s.latchMoves [a]).actWait a = .go) (he : (s.latchMoves [a]).earlyStops [a] = [])
    (ht : s.barTry c kind idx = (.go, m)) : s.issueTimed c q [a] [] = s.issueNow c q [a] [] [] [] := by
  have hgo : (s.latchMoves [a]).waitsOf [a] = .go := by
    rw [State.waitsOf, List.foldl_cons, List.foldl_nil, hw]
    rfl
  have hmiss : (s.latchMoves [a]).missStops [a] = [] := by
    rw [State.missStops, List.filterMap_cons_none (by rw [hw]), List.filterMap_nil]
  have hbar : [a].findSome? (fun a => (barOf a.i).map (fun b => (a, b))) = some (a, kind, idx) := by
    simp only [List.findSome?_cons, hb, Option.map_some]
  have hjoin : s.joinMmaq c q [a] = s := by
    rw [State.joinMmaq]
    exact if_neg (by simp [hm])
  unfold State.issueTimed
  simp only [List.append_nil, hgo, hbar, he, hmiss, ht, hjoin]

/-- A trigger that fires ends its bundle on what it leaves. -/
theorem issueNow_ready {s t : State} {i : Instr} (hu : isAuOrC (s.act1 i) = false)
    (hf : fireSlot i (s.act1 i).ic (s.ready1 i) = .ok t) :
    s.issueNow s.cur (oneSlot i) [s.act1 i] [] [] [] = .issue (if s.me.tagged then (s.closed1 t i).tick1 else s.closed1 t i) := by
  have hall : [s.act1 i].filter (fun a => !isAuOrC a) = [s.act1 i] := by simp [hu]
  have hrun : runActs (s.ready1 i) [s.act1 i] = (t, []) := by
    have hf' : fireSlot (s.act1 i).i (s.act1 i).ic (s.ready1 i) = .ok t := hf
    simp only [runActs, hf']
  have hacts : s.issueActs s.cur [s.act1 i] [] (fun _ => true) =
      (((t.pops s.cur [s.act1 i]).regMove (s.act1 i)).modCore s.cur (fun k => k.rowSteps [s.act1 i]), []) := by
    unfold State.issueActs
    simp only [firing_one, hall]
    rw [show (s.latchMoves [s.act1 i]).modCore s.cur (fun k => [s.act1 i].foldl (fun q a => q.setStickyOf a true) k) = s.ready1 i from rfl, hrun]
    rfl
  unfold State.issueNow
  simp only [hacts, filter_au_unit hu, filter_c_unit hu, runActs, List.append_nil, leastStop, idleHeld_other s _ i _ (isIdle_control s i hu)]
  rfl

/-- A barrier slot. -/
structure BarOp (i : Instr) (kind idx : Nat) : Prop where
  bar : barOf i = some (kind, idx)
  trigger : i.isPlain = false
  single : isMmaq i = false
  unit : unitOf i = .sync
  slot : i.kind = .sync
  leaves : ∀ (ic : Ic) (u : State), fireSlot i ic u = u.barLeave ic kind

theorem barq_barOp (idx : BitVec 8) (g : BitVec 6) : BarOp (.barq idx g) 0 idx.toNat := ⟨rfl, rfl, rfl, rfl, rfl, fun _ _ => rfl⟩
theorem barg_barOp (idx : BitVec 8) (g : BitVec 6) : BarOp (.barg idx g) 1 idx.toNat := ⟨rfl, rfl, rfl, rfl, rfl, fun _ _ => rfl⟩

/-- The arrival at a barrier marks its core; the others stand in its span as before. -/
theorem barCores_marked {s : State} {kind d : Nat} {m : Option (Nat × Nat × Nat)} (hd : d ∈ s.barCores s.cur kind) (hne : d ≠ s.cur) :
    d ∈ (s.modCore s.cur (fun k => { k with barrier := m })).barCores s.cur kind := by
  unfold State.barCores at hd ⊢
  rw [core_modCore_same]
  obtain ⟨⟨c, k⟩, hq, rfl⟩ := List.mem_map.1 hd
  obtain ⟨hmem, hstands⟩ := List.mem_filter.1 hq
  exact List.mem_map.2 ⟨(c, k), List.mem_filter.2 ⟨mem_put_ne _ hne hmem, hstands⟩, rfl⟩

section
variable {s : State} {i : Instr} {kind idx : Nat} (hc : BarOp i kind idx)
include hc

theorem barTagged_one : s.barTagged s.cur [s.act1 i] =
    match s.me.barrier with
    | some (kd, j, _) => if kd = relKind kind ∧ j = idx then (true, s) else (false, s.barArrive s.cur kind idx)
    | none => (false, s.barArrive s.cur kind idx) := by
  have hfind : [s.act1 i].findSome? (fun a => barOf a.i) = some (kind, idx) := by
    simp only [List.findSome?_cons, show barOf (s.act1 i).i = some (kind, idx) from hc.bar]
  unfold State.barTagged
  rw [hfind] <;> rfl

theorem bar_whole : (oneSlot i).slots.any (fun b => wholeSlot b.i) = true := by
  have hw : wholeSlot i = true := by
    unfold wholeSlot
    rw [hc.unit]
  simp [oneSlot, hw]

/-- A barrier bundle whose release has come issues (R269, R299). -/
theorem bar_issues {at_ : Nat} (hm : s.me.barrier = some (16 + kind, idx, at_)) (ht : s.me.tagged = true ∨ at_ ≤ s.me.lcyc) (h : s.Clear i) :
    s.trySlot s.cur i = s.issueNow s.cur (oneSlot i) [s.act1 i] [] [] [] := by
  have hrel : 16 + kind = relKind kind := Nat.add_comm 16 kind
  have hw : (s.latchMoves [s.act1 i]).actWait (s.act1 i) = .go := h.waits
  have he : (s.latchMoves [s.act1 i]).earlyStops [s.act1 i] = [] := early_none s i h
  rw [trySlot_clear h]
  split
  · have hbar : s.barTagged s.cur [s.act1 i] = (true, s) := by
      rw [barTagged_one hc, hm]
      exact if_pos ⟨hrel, rfl⟩
    rw [issueTagged_whole h.noHeld (bar_whole hc) hw he, hbar]
    rfl
  · rename_i hn
    have hat : at_ ≤ s.me.lcyc := ht.resolve_left hn
    refine issueTimed_released hc.bar hc.single hw he (m := s.me.barrier) ?_
    rw [State.barTry, hm]
    dsimp only
    rw [if_pos hrel, if_pos hat]

/-- R269: a barrier bundle that leaves acquires at its scope, and the barrier counts afresh. -/
theorem bar_leaves {at_ : Nat} (hk : kind ≤ 1) (hm : s.me.barrier = some (16 + kind, idx, at_)) (ht : s.me.tagged = true ∨ at_ ≤ s.me.lcyc)
    (h : s.Clear i) :
    ∃ t, exec i s = .next t ∧ SameRegisters s.me (t.core s.cur) ∧ (t.core s.cur).barrier = none ∧ (t.core s.cur).l1Mark = s.me.fills ∧
      (t.core s.cur).bundles = s.me.bundles + 1 := by
  obtain ⟨v, hv⟩ : ∃ v, v = s.setCore s.cur { s.me with barrier := none } := ⟨_, rfl⟩
  have hk' : v.core s.cur = { s.me with barrier := none } := by rw [hv, core_setCore_same]
  obtain ⟨hstores, hmark⟩ := acquired_drain (s := v) (c := s.cur) (sc := kind + 1) (rel := true) (by omega) (by omega)
  obtain ⟨t, ht'⟩ : ∃ t, t = (v.drainTo s.cur (kind + 1) true).setMarks s.cur (kind + 1) := ⟨_, rfl⟩
  rw [← ht'] at hstores hmark
  have hcore : (t.core s.cur).besideCopies = ({ s.me with barrier := none } : Core).besideCopies := hk' ▸ hstores.cores s.cur
  have hb := fin1_closed1_kept (s := s) (t := t) hc.trigger ((congrArg Core.rep hcore :).trans h.first)
  have hf : fireSlot i (s.act1 i).ic (s.ready1 i) = .ok t := by
    rw [hc.leaves, ready1_sync hc.unit hc.trigger, State.barLeave, show (s.act1 i).ic.c = s.cur from rfl, State.self, modCore_setCore, ht', hv]
  have hexec : exec i s = .next (s.fin1 (s.closed1 t i)) := by
    rw [exec_slot (by rw [hc.slot]; decide), State.execSlot, h.runs, bar_issues hc hm ht h, issueNow_ready (isAuOrC_sync hc.unit) hf]
    rfl
  have hbundles : (t.core s.cur).bundles = s.me.bundles := (congrArg Core.bundles hcore :)
  refine ⟨_, hexec, ?_, ?_, ?_, ?_⟩
  · have hregs : SameRegisters s.me (v.core s.cur) := by
      rw [hk']
      exact ⟨rfl, rfl, rfl, rfl, rfl, rfl, rfl, rfl, rfl, rfl, rfl, rfl, rfl⟩
    exact sameRegisters_trans hregs (sameRegisters_trans (sameRegisters_of_stores hstores s.cur) (sameRegisters_of_bookkept hb))
  · exact (congrArg Core.barrier hb.frame :).trans (congrArg Core.barrier hcore :)
  · exact ((congrArg Core.l1Mark hb.frame :).trans hmark).trans (by rw [hk'])
  · rw [hb.counted, hbundles]

/-- R269: the first to arrive of several TAGGED participants waits with its arrival marked. -/
theorem bar_waits (htag : s.me.tagged = true) (hm : s.me.barrier = none)
    (hd : ∃ d ∈ s.barCores s.cur kind, d ≠ s.cur ∧ (s.core d).barrier = none) (h : s.Clear i) :
    exec i s = .next ((s.modCore s.cur (fun k => { k with barrier := some (kind, idx, s.now) })).turned s.cur) := by
  obtain ⟨d, hd, hne, hnone⟩ := hd
  have harrive : s.barArrive s.cur kind idx = s.modCore s.cur (fun k => { k with barrier := some (kind, idx, s.now) }) := by
    obtain ⟨u, hu⟩ : ∃ u, u = s.modCore s.cur (fun k => { k with barrier := some (kind, idx, s.now) }) := ⟨_, rfl⟩
    have hmem : d ∈ u.barCores s.cur kind := hu ▸ barCores_marked hd hne
    have hcore : (u.core d).barrier = none := by rw [hu, core_modCore_ne _ _ _ _ hne, hnone]
    unfold State.barArrive
    rw [hm]
    dsimp only
    rw [← hu]
    refine if_neg fun hall => ?_
    simp only [Bool.and_eq_true] at hall
    have hhere := List.all_eq_true.1 hall.1.1 d hmem
    rw [hcore] at hhere
    cases hhere
  have hbar : s.barTagged s.cur [s.act1 i] = (false, s.modCore s.cur (fun k => { k with barrier := some (kind, idx, s.now) })) := by
    rw [barTagged_one hc, hm, ← harrive]
  rw [exec_slot (by rw [hc.slot]; decide), State.execSlot, h.runs, trySlot_clear h, if_pos htag,
    issueTagged_whole h.noHeld (bar_whole hc) h.waits (early_none s i h), hbar]
  rfl

end

theorem barriersIssueOnceReleased : BarriersIssueOnceReleased := by
  refine fun s idx g => ⟨⟨fun at_ hm ht h => ?_, fun htag hm hd h => ?_⟩, fun at_ hm ht h => ?_, fun htag hm hd h => ?_⟩
  · exact bar_leaves (barq_barOp idx g) (Nat.zero_le 1) hm ht h
  · exact bar_waits (barq_barOp idx g) htag hm hd h
  · exact bar_leaves (barg_barOp idx g) le_rfl hm ht h
  · exact bar_waits (barg_barOp idx g) htag hm hd h

/-! ## Link queues -/

section
variable {s : State} {src d : BitVec 9} {g : BitVec 6}

/-- R95, R98: a slot that names an inbound queue reads its head. -/
theorem src1_link {n : Nat} (hn : src.toNat = 0x80 + n) (h8 : n < 8) : s.src1 (.move false src d g) = (s.inQueue s.cur n).headD 0 := by
  have hunder : s.me.unjoined.undersized (.move false src d g) = false := by
    change s.me.unjoined.underM src.toNat = false
    rw [Core.underM, if_neg (by omega), if_neg (by omega), if_neg (by omega)]
  have hread : readM s.me.unjoined s.cur 0 (fun n => (s.inQueue s.cur n).headD 0) src.toNat = (s.inQueue s.cur n).headD 0 := by
    rw [readM, if_neg (by omega), if_neg (by omega), if_neg (by omega), if_neg (by omega), if_neg (by omega), if_neg (by omega),
      if_neg (by omega), if_neg (by omega), if_neg (by omega), if_neg (by omega), if_neg (by omega), if_neg (by omega), if_pos (by omega), hn,
      Nat.add_sub_cancel_left]
  rw [← hread]
  change (s.srcVal s.me.unjoined s.cur 0 _ (.move false src d g)).setWidth 64 = _
  rw [State.srcVal, hunder, Bool.and_false, Bool.false_and]
  exact setWidth_widened _

theorem src1_g (hg : src.toNat < 0x40) : s.src1 (.move false src d g) = s.me.g.getD src.toNat 0 := by
  change (s.srcVal s.me.unjoined s.cur 0 _ (.move false src d g)).setWidth 64 = _
  rw [srcVal_g s _ s.cur 0 _ hg, setWidth_widened]
  rfl

/-- A plain move issues as an act of no unit. -/
theorem move_fires (h : s.Clear (.move false src d g)) :
    s.execSlot (.move false src d g) = .next (s.fin1 (s.closed1 (s.ready1 (.move false src d g)) (.move false src d g))) :=
  exec_unit s _ h rfl rfl rfl (s.ready1 (.move false src d g)) rfl

end

theorem fin1_ports (s t : State) : (s.fin1 t).ports = t.ports := by
  unfold State.fin1
  split <;> rfl

/-- R98: a slot that reads an inbound queue pops it once. -/
theorem pops_one {i : Instr} {n : Nat} (s u : State) (hp : popOf i = some n) : u.pops s.cur [s.act1 i] = u.popLink s.cur n := by
  have hpop : popOf (s.act1 i).i = some n := hp
  simp [State.pops, hpop, show (s.act1 i).ic.re = false from rfl, List.eraseDups_cons]

/-- R95, R98: a move from an inbound queue. -/
theorem move_pops {s : State} {p n : Nat} {src d : BitVec 9} {g : BitVec 6} (hp : edgePort s.cur = some p) (hn : src.toNat = 0x80 + n) (h8 : n < 8)
    (hd : d.toNat < 0x40) (h : s.Clear (.move false src d g)) :
    ∃ t, exec (.move false src d g) s = .next t ∧
      ({ s.me with g := s.me.g.set d.toNat (((s.port p).inq.getD n []).headD 0) } : Core).Bookkept (t.core s.cur) (Instr.move false src d g).rowTiles ∧
      t.port p = { s.port p with inq := (s.port p).inq.set n (((s.port p).inq.getD n []).drop 1) } := by
  have hin : inLink d.toNat = false := inLink_below (by omega)
  have hlatch : isLatchM d.toNat = false := isLatchM_outside (by omega)
  obtain ⟨t, hx, -, hb⟩ := exec_move s false src d g h (.inr hin)
  have ht : t = s.fin1 (s.closed1 (s.ready1 (.move false src d g)) (.move false src d g)) := Host.Outcome.next.inj (hx.symm.trans (move_fires h))
  have hpop : popOf (.move false src d g) = some n := by
    rw [popOf_link (x := src) rfl rfl (by omega) (by omega), hn, Nat.add_sub_cancel_left]
  have hmoved : s.moved false src d g = { s.me with g := s.me.g.set d.toNat (((s.port p).inq.getD n []).headD 0) } := by
    rw [moved_register (by omega), Core.moveRegM, if_pos hd, src1_link hn h8, State.inQueue, hp]
  have hports : t.ports = ((s.ready1 (.move false src d g)).popLink s.cur n).ports := by
    rw [ht, fin1_ports, ← pops_one s _ hpop]
    unfold State.closed1 State.regMove
    simp only [State.act1, hlatch, hin, Bool.false_eq_true, if_false]
    rfl
  have hready : (s.ready1 (.move false src d g)).ports = s.ports := by
    unfold State.ready1 State.latchMove
    simp only [State.act1, hlatch, Bool.false_eq_true, if_false]
    rfl
  refine ⟨t, hx, hmoved ▸ hb, ?_⟩
  have hport : (s.ready1 (.move false src d g)).port p = s.port p := by rw [State.port, hready]; rfl
  rw [State.port, hports, State.popLink, hp]
  dsimp only
  rw [hport]
  exact port_setPort_same _ _ _

/-- R95, R98: a move to an outbound queue. -/
theorem move_pushes {s : State} {p n : Nat} {src d : BitVec 9} {g : BitVec 6} (hp : edgePort s.cur = some p) (hn : d.toNat = 0x80 + n) (h8 : n < 8)
    (hs : src.toNat < 0x40) (h : s.Clear (.move false src d g)) :
    ∃ t, exec (.move false src d g) s = .next t ∧ s.me.Bookkept (t.core s.cur) (Instr.move false src d g).rowTiles ∧
      t.port p = { s.port p with outq := (s.port p).outq.set n ((s.port p).outq.getD n [] ++ [s.me.g.getD src.toNat 0]) } := by
  have hin : inLink d.toNat = true := by simp [inLink, hn]; omega
  have hlatch : isLatchM d.toNat = false := isLatchM_outside (by omega)
  have hready : s.ready1 (.move false src d g) = s.self := by
    unfold State.ready1 State.latchMove
    simp only [State.act1, hlatch, Bool.false_eq_true, if_false]
    rfl
  obtain ⟨u, hu⟩ : ∃ u, u = s.self.pushLink s.cur n (s.me.g.getD src.toNat 0) := ⟨_, rfl⟩
  have hcore : u.core s.cur = s.me := by
    rw [hu, State.pushLink, hp]
    exact core_setCore_same s s.cur s.me
  have hport : u.port p = { s.port p with outq := (s.port p).outq.set n ((s.port p).outq.getD n [] ++ [s.me.g.getD src.toNat 0]) } := by
    rw [hu, State.pushLink, hp]
    exact port_setPort_same _ _ _
  have hclosed : s.closed1 s.self (.move false src d g) = (u.modCore s.cur (fun k => k.rowSteps [s.act1 (.move false src d g)])).modCore s.cur
      (fun k => k.close1 (.move false src d g) (issueWeight (oneSlot (.move false src d g)) [s.act1 (.move false src d g)] [])) := by
    have hpush : s.self.regMove (s.act1 (.move false src d g)) = u := by
      change (if isLatchM d.toNat = true then _ else if inLink d.toNat = true then
        s.self.pushLink s.cur (d.toNat - 0x80) (s.src1 (.move false src d g)) else _) = u
      rw [if_neg (by simp [hlatch]), if_pos hin, hu, hn, Nat.add_sub_cancel_left, src1_g hs]
    rw [State.closed1, pops_none s _ _ (popOf_low (x := src) rfl rfl (by omega)), hpush]
  refine ⟨_, move_fires h, fin1_kept _ _ _ _ ?_, ?_⟩
  · rw [hready, hclosed, core_modCore_same, core_modCore_same, hcore]
    exact close1_kept s s.me _ _ h.first
  · rw [State.port, fin1_ports, hready, hclosed]
    exact hport

theorem linkQueuesPopAndPush : LinkQueuesPopAndPush :=
  fun _ _ _ _ _ hp => ⟨fun _ hn h8 hd h => move_pops hp hn h8 hd h, fun _ hn h8 hs h => move_pushes hp hn h8 hs h⟩

/-- Settles O29: the sync slot, barriers and link queues. -/
theorem syncSlotsBarriersAndLinkQueuesAct : Obligations.SyncSlotsBarriersAndLinkQueuesAct :=
  ⟨syncSlotsComplete, barriersIssueOnceReleased, linkQueuesPopAndPush⟩

end Sys2Proof.Machine
end

section
/-! SUPPORT. Plain and vector loads as they perform and return (R107, R146, R147, R171, R172). -/

namespace Sys2Proof.Machine

open Sys2Proof.Claims

/-! ## The number of little-endian bytes -/

theorem ofBytes_map_range (f : Nat → Byte) (n : Nat) :
    ofBytes ((List.range n).map f) = ((List.range n).map (fun j => (f j).toNat * 2 ^ (8 * j))).sum := by
  induction n generalizing f with
  | zero => rfl
  | succ n ih =>
    have hrest : ((List.range n).map (fun j => (f (j + 1)).toNat * 2 ^ (8 * (j + 1)))).sum =
        256 * ((List.range n).map (fun j => (f (j + 1)).toNat * 2 ^ (8 * j))).sum := by
      rw [← List.sum_map_mul_left]
      refine congrArg List.sum (List.map_congr_left fun j _ => ?_)
      rw [show 8 * (j + 1) = 8 * j + 8 by ring, pow_add]
      ring
    rw [List.range_succ_eq_map, List.map_cons, ofBytes, List.map_map, List.map_cons, List.map_map, List.sum_cons]
    simp only [Function.comp_def, Nat.succ_eq_add_one]
    rw [hrest, ih fun j => f (j + 1)]
    simp

theorem ofBytes_rdBytes (s : State) (loc n : Nat) : ofBytes (s.rdBytes loc n) = wordAt s loc n := by
  rw [rdBytes_eq_map, ofBytes_map_range]
  rfl

theorem ofBytes_lineBytes (l : CLine) (i n : Nat) : ofBytes ((List.range n).map (fun j => l.byte (i + j))) = lineWord l i n :=
  ofBytes_map_range _ n

theorem wordAt_lt (s : State) (loc n : Nat) : wordAt s loc n < 256 ^ n := by
  have h := ofBytes_lt (s.rdBytes loc n)
  rwa [ofBytes_rdBytes, rdBytes_eq_map, List.length_map, List.length_range] at h

/-- Byte j of little-endian bytes. -/
theorem byte_ofBytes (bs : List Byte) (j : Nat) : BitVec.ofNat 8 (ofBytes bs >>> (8 * j)) = bs.getD j 0 := by
  induction bs generalizing j with
  | nil => simp [ofBytes]
  | cons b r ih =>
    cases j with
    | zero =>
      refine BitVec.eq_of_toNat_eq ?_
      have hb := b.isLt
      simp only [ofBytes, Nat.mul_zero, Nat.shiftRight_zero, BitVec.toNat_ofNat, List.getD_cons_zero]
      omega
    | succ j =>
      have hshift : (b.toNat + 256 * ofBytes r) >>> (8 * (j + 1)) = ofBytes r >>> (8 * j) := by
        have hb := b.isLt
        rw [show 8 * (j + 1) = 8 + 8 * j by ring, Nat.shiftRight_add, Nat.shiftRight_eq_div_pow _ 8]
        congr 1
        omega
      rw [ofBytes, hshift, ih, List.getD_cons_succ]

/-! ## Bytes as a thread reads them -/

/-- A read that finds what it reads in the core's copies, or at a place that has none, leaves the state as it is. -/
theorem thrReads_steady {s : State} {c avail n loc : Nat} {f : Nat → Byte} (h : ∀ j, j < n → s.thrRead c (loc + j) avail = (s, f j)) :
    s.thrReads c loc avail n = (s, (List.range n).map f) := by
  induction n generalizing loc f with
  | zero => rfl
  | succ n ih =>
    have hrest : s.thrReads c (loc + 1) avail n = (s, (List.range n).map fun j => f (j + 1)) := by
      refine ih fun j hj => ?_
      rw [show loc + 1 + j = loc + (j + 1) by ring]
      exact h (j + 1) (by omega)
    have h0 : s.thrRead c loc avail = (s, f 0) := h 0 (by omega)
    rw [State.thrReads, h0, hrest, List.range_succ_eq_map, List.map_cons, List.map_map]
    rfl

/-- The first byte brings the line: what follows reads as it would have with the line there. -/
theorem thrReads_brings {s t : State} {c loc avail n : Nat} (hn : n ≠ 0) (h : s.thrRead c loc avail = t.thrRead c loc avail) :
    s.thrReads c loc avail n = t.thrReads c loc avail n := by
  obtain ⟨m, rfl⟩ := Nat.exists_eq_succ_of_ne_zero hn
  simp only [State.thrReads, h]

theorem not_cacheable_inScratch {s : State} {c loc n j : Nat} (h : InScratch s c loc n) (hj : j < n) : cacheable c (loc + j) = false := by
  obtain ⟨off, rfl, hid, hoff, -⟩ := h
  have hc : c < 4096 := by
    simp only [coreIdOk, Bool.and_eq_true, decide_eq_true_eq] at hid
    exact hid.1
  have hplace : placeOf (scratchLoc c off + j) = .scratch c (off + j) := by
    have hb : scratchLoc c off + j = 0xF000000000000 + (2 ^ 21 * c + (off + j)) := by simp only [scratchLoc, scratchBase]; omega
    have hsub : scratchLoc c off + j - scratchBase = 2 ^ 21 * c + (off + j) := by simp only [scratchBase]; omega
    have hdiv : (2 ^ 21 * c + (off + j)) / 2 ^ 21 = c := by omega
    have hmod : (2 ^ 21 * c + (off + j)) % 2 ^ 21 = off + j := by omega
    rw [placeOf, hsub, hdiv, hmod, if_neg (by omega), if_neg (by omega), if_pos (by simp only [scratchBase]; omega), if_pos ⟨by omega, hid⟩]
  simp [cacheable, hplace]

theorem thrRead_inScratch {s : State} {c loc n j avail : Nat} (h : InScratch s c loc n) (hj : j < n) :
    s.thrRead c (loc + j) avail = (s, s.rd (loc + j)) := by
  simp [State.thrRead, not_cacheable_inScratch h hj]

theorem thrReads_inScratch {s : State} {c loc n : Nat} (avail : Nat) (h : InScratch s c loc n) :
    s.thrReads c loc avail n = (s, s.rdBytes loc n) := by
  rw [rdBytes_eq_map]
  exact thrReads_steady fun j hj => thrRead_inScratch h hj

/-! ## Loads in flight -/

/-- The plain loads of l. -/
def loadOps (src : BitVec 9) (a : BitVec 2) (b : BitVec 4) (g : BitVec 6) : List Instr :=
  [.ld8s src a b g, .ld8u src a b g, .ld16s src a b g, .ld16u src a b g, .ld32s src a b g, .ld32u src a b g, .ld64 src a b g, .ldv src a b g,
    .ldvs src a b g]

/-- An access that is a plain load of l. -/
structure MOp.Loads (o : MOp) : Prop where
  op : ∃ src a b g, o.op ∈ loadOps src a b g
  latch : o.latch = 1 ∨ o.latch = 2
  reads : o.isRead = true
  stays : o.isWrite = false
  clean : o.junk = false

theorem MOp.Loads.orders {o : MOp} (h : o.Loads) : o.orders = false := by
  obtain ⟨src, a, b, g, hop⟩ := h.op
  simp only [loadOps, List.mem_cons, List.not_mem_nil, or_false] at hop
  rcases hop with hop | hop | hop | hop | hop | hop | hop | hop | hop <;> simp [MOp.orders, hop]

theorem MOp.Loads.latch_ne {o : MOp} (h : o.Loads) : o.latch ≠ 5 := by
  rcases h.latch with h | h <;> omega

theorem MOp.Loads.not_atomic {o : MOp} (h : o.Loads) : o.isAtomic = false := by simp [MOp.isAtomic, h.stays]

/-- A load that has read bytes. -/
def MOp.hasRead (o : MOp) (ps : List (Nat × List Byte)) : MOp := { o with val := o.result (assemble ps), perf := true }

theorem MOp.Loads.takeRead {o : MOp} (h : o.Loads) (k : Core) (ps : List (Nat × List Byte)) :
    k.takeRead o ps = k.setOp (o.hasRead ps) := by
  obtain ⟨src, a, b, g, hop⟩ := h.op
  simp only [loadOps, List.mem_cons, List.not_mem_nil, or_false] at hop
  rw [Core.takeRead, if_neg h.latch_ne]
  rcases hop with hop | hop | hop | hop | hop | hop | hop | hop | hop <;> simp [hop, Core.kLoad, MOp.hasRead]

theorem MOp.Loads.pieceGet {o : MOp} (h : o.Loads) (s : State) (c avail : Nat) (p : Piece) :
    s.pieceGet c avail o p = s.thrReads c p.loc avail p.len := by
  simp [State.pieceGet, h.latch_ne, h.clean]

/-- Core c has one access in flight, and no held slot reads it. -/
structure Core.Alone (k : Core) (o : MOp) : Prop where
  alone : k.mops = [o]
  held : k.held = []
  waits : o.perf = false
  late : o.cyc + 5 ≤ k.clk

theorem canPerform_load {s : State} {c : Nat} {o : MOp} (h : o.Loads) (ha : (s.core c).Alone o)
    (hdue : if o.fixed then o.due ≤ (s.core c).clk else o.due ≤ s.now) : s.canPerform c o = true := by
  have hbegin : (if o.fixed then decide (o.due ≤ (s.core c).clk) else decide (o.due ≤ s.now)) = true := by
    cases hf : o.fixed <;> simpa [hf] using hdue
  simp [State.canPerform, State.mayBegin, State.released, Core.inOrder, ha.alone, ha.waits, h.orders, hbegin]

/-- The result of the one access in flight goes to its latch, and the access leaves. -/
theorem retireOps_load {k : Core} {o : MOp} (hheld : k.held = []) (hp : o.perf = true) (hret : o.fixed = true → o.ret ≤ k.clk)
    (hlate : o.cyc + 5 ≤ k.clk) :
    (o.latch = 1 → ({ k with mops := [o] } : Core).retireOps = { k with sres := k.sres.set 2 (o.val.setWidth 64), mops := [] }) ∧
    (o.latch = 2 → ({ k with mops := [o] } : Core).retireOps = { k with vres := k.vres.set 3 o.val, mops := [] }) := by
  have hback : (!o.fixed || decide (o.ret ≤ k.clk)) = true := by
    cases hf : o.fixed
    · rfl
    · simpa using hret hf
  constructor <;> intro hl
  · have hdue : o.cyc + o.dueLat ≤ k.clk + 1 := by simp only [MOp.dueLat, hl, true_or, if_true]; omega
    simp [Core.retireOps, Core.retireLatch, Core.retireOne, Core.readHeld, hheld, hl, hp, hback, hdue]
  · have hdue : o.cyc + o.dueLat ≤ k.clk + 1 := by simp only [MOp.dueLat, hl, or_true, if_true]; omega
    simp [Core.retireOps, Core.retireLatch, Core.retireOne, Core.readHeld, hheld, hl, hp, hback, hdue]

theorem setOp_alone {k : Core} {o q : MOp} (h : k.mops = [o]) (hid : o.id = q.id) : k.setOp q = { k with mops := [q] } := by
  simp [Core.setOp, h, hid]

/-- What the core of a load is when the load has read bytes. -/
def Core.loaded (k : Core) (o : MOp) (ps : List (Nat × List Byte)) : Core := (k.setOp (o.hasRead ps)).retireOps

theorem loaded_scalar {k : Core} {o : MOp} (ps : List (Nat × List Byte)) (ha : k.Alone o) (hret : o.fixed = true → o.ret ≤ k.clk) (hl : o.latch = 1) :
    k.loaded o ps = { k with sres := k.sres.set 2 ((o.result (assemble ps)).setWidth 64), mops := [] } := by
  rw [Core.loaded, setOp_alone (q := o.hasRead ps) ha.alone rfl]
  exact (retireOps_load (o := o.hasRead ps) ha.held rfl hret ha.late).1 hl

theorem loaded_vector {k : Core} {o : MOp} (ps : List (Nat × List Byte)) (ha : k.Alone o) (hret : o.fixed = true → o.ret ≤ k.clk) (hl : o.latch = 2) :
    k.loaded o ps = { k with vres := k.vres.set 3 (o.result (assemble ps)), mops := [] } := by
  rw [Core.loaded, setOp_alone (q := o.hasRead ps) ha.alone rfl]
  exact (retireOps_load (o := o.hasRead ps) ha.held rfl hret ha.late).2 hl

/-! ## On the schedule -/

theorem piecesGet_inScratch {s : State} {c : Nat} {o : MOp} {ps : List Piece} (h : o.Loads) (avail : Nat)
    (hin : ∀ p ∈ ps, InScratch s c p.loc p.len) : s.piecesGet c avail o ps = (s, ps.map fun p => (p.off, s.rdBytes p.loc p.len)) := by
  induction ps with
  | nil => rfl
  | cons p ps ih =>
    have hrest := ih fun q hq => hin q (List.mem_cons_of_mem p hq)
    rw [State.piecesGet, h.pieceGet, thrReads_inScratch avail (hin p List.mem_cons_self), hrest, List.map_cons]

/-- A load on the schedule, alone and due, returns the bytes of its pieces. -/
theorem accessReturn_fixed {s : State} {c loc n : Nat} {o : MOp} {ps : List Piece} (h : o.Loads) (hd : Due s c o loc n ps)
    (hin : ∀ p ∈ ps, InScratch s c p.loc p.len) :
    exec (.globalAccessReturn c o.id) s = .next (s.modCore c fun k => k.loaded o (ps.map fun p => (p.off, s.rdBytes p.loc p.len))) := by
  have ha : (s.core c).Alone o := ⟨hd.alone, hd.held, hd.waits, hd.late⟩
  have hcan := canPerform_load (s := s) h ha (by rw [hd.fixed]; exact hd.due)
  have hperf : s.performsNow c (s.clkTicks c) o = true := by rw [State.performsNow, hcan, hd.ticks, Bool.or_true, Bool.and_self]
  have hfind : (s.core c).mops.find? (fun q => q.id == o.id) = some o := by rw [hd.alone]; simp
  have hread : s.performRead c o = s.modCore c fun k => k.takeRead o (ps.map fun p => (p.off, s.rdBytes p.loc p.len)) := by
    rw [State.performRead, h.not_atomic, hd.place, piecesGet_inScratch h s.now hin]
    rfl
  have hact : s.accessReturn c o.id = (s.performRead c o).modCore c Core.retireOps := by
    simp only [State.accessReturn, hfind, h.reads, hd.fixed, hperf, Bool.not_true, Bool.false_eq_true, if_false, if_true]
  refine congrArg Host.Outcome.next (hact.trans ?_)
  rw [hread]
  refine (modCore_setCore s c _ _).trans (congrArg (s.setCore c) ?_)
  exact congrArg Core.retireOps (h.takeRead _ _)

/-! ## Values -/

theorem assemble_eq_sum (ps : List (Nat × List Byte)) :
    assemble ps = BitVec.ofNat 2048 (ps.map fun q => ofBytes q.2 * 2 ^ (8 * q.1)).sum := by
  rw [assemble, List.sum_eq_foldl, List.foldl_map]

theorem assemble_whole (bs : List Byte) : assemble [(0, bs)] = BitVec.ofNat 2048 (ofBytes bs) := by simp [assemble_eq_sum]

theorem sum_filterMap_if {α β : Type} (p : α → Bool) (f : α → β) (v : β → Nat) (l : List α) :
    ((l.filterMap fun a => if p a then some (f a) else none).map v).sum = (l.map fun a => if p a then v (f a) else 0).sum := by
  induction l with
  | nil => rfl
  | cons a l ih =>
    cases h : p a
    · simp [h, ih]
    · simp [h, ih]

theorem assemble_lanes (s : State) (f : Nat → Nat) (m : Nat) :
    assemble ((lanesAt f m).map fun p => (p.off, s.rdBytes p.loc p.len)) =
      BitVec.ofNat 2048 ((List.range 64).map fun i => if bitAt m i then wordAt s (f i) 4 * 2 ^ (32 * i) else 0).sum := by
  rw [assemble_eq_sum, List.map_map, lanesAt, sum_filterMap_if]
  refine congrArg (BitVec.ofNat 2048) (congrArg List.sum (List.map_congr_left fun i _ => ?_))
  simp only [Function.comp_apply, ofBytes_rdBytes]
  rw [show 8 * (4 * i) = 32 * i by ring]

theorem signed_ofNat (x w : Nat) (hw : w ≤ 2048) (h0 : 0 < w) : signed (BitVec.ofNat 2048 x).toNat w = (BitVec.ofNat w x).toInt := by
  have hmod : (BitVec.ofNat 2048 x).toNat % 2 ^ w = x % 2 ^ w := by
    rw [BitVec.toNat_ofNat, Nat.mod_mod_of_dvd x (Nat.pow_dvd_pow 2 hw)]
  have htwo : 2 ^ w = 2 * 2 ^ (w - 1) := by rw [← pow_succ', Nat.sub_add_cancel h0]
  rw [signed, hmod, BitVec.toInt, BitVec.toNat_ofNat]
  refine if_congr ?_ rfl rfl
  omega

/-- What a plain load of l leaves in l.r of the number of its bytes (R171). -/
def loadValue : Instr → Nat → U64
  | .ld8s _ _ _ _, x => BitVec.ofInt 64 (BitVec.ofNat 8 x).toInt
  | .ld16s _ _ _ _, x => BitVec.ofInt 64 (BitVec.ofNat 16 x).toInt
  | .ld32s _ _ _ _, x => BitVec.ofInt 64 (BitVec.ofNat 32 x).toInt
  | _, x => BitVec.ofNat 64 x

theorem sextV_ofNat {w : Nat} (x : Nat) (hw : w ≤ 2048) (h0 : 0 < w) :
    (sextV (BitVec.ofNat 2048 x).toNat w).setWidth 64 = BitVec.ofInt 64 (BitVec.ofNat w x).toInt := by
  rw [sextV, signed_ofNat x w hw h0, BitVec.setWidth_setWidth_of_le _ (by decide), BitVec.setWidth_eq]

theorem MOp.Loads.value {o : MOp} (h : o.Loads) (x : Nat) : (o.result (BitVec.ofNat 2048 x)).setWidth 64 = loadValue o.op x := by
  obtain ⟨src, a, b, g, hop⟩ := h.op
  have hplain : (BitVec.ofNat 2048 x).setWidth 64 = BitVec.ofNat 64 x := BitVec.setWidth_ofNat_of_le (by decide) x
  simp only [loadOps, List.mem_cons, List.not_mem_nil, or_false] at hop
  rcases hop with hop | hop | hop | hop | hop | hop | hop | hop | hop <;>
    simp only [MOp.result, loadValue, hop, hplain, sextV_ofNat x (show 8 ≤ 2048 by decide) (by decide),
      sextV_ofNat x (show 16 ≤ 2048 by decide) (by decide), sextV_ofNat x (show 32 ≤ 2048 by decide) (by decide)]

/-! ## What the loads on the schedule leave -/

/-- A step that leaves memory and the other cores as they are, and core c as k. -/
structure Left (s t : State) (c : Nat) (k : Core) : Prop where
  mem : t.mem = s.mem
  others : ∀ d, d ≠ c → t.core d = s.core d
  core : t.core c = k

theorem left_modCore (s : State) (c : Nat) (f : Core → Core) : Left s (s.modCore c f) c (f (s.core c)) :=
  ⟨rfl, fun d hd => core_modCore_ne s c d f hd, core_modCore_same s c f⟩

theorem scalarLoad_fixed {s : State} {c loc n : Nat} {o : MOp} (h : o.Loads) (hl : o.latch = 1) (hd : Due s c o loc n (whole loc n)) :
    ∃ t, exec (.globalAccessReturn c o.id) s = .next t ∧
      Left s t c { s.core c with sres := (s.core c).sres.set 2 (loadValue o.op (wordAt s loc n)), mops := [] } := by
  refine ⟨_, accessReturn_fixed h hd fun p hp => ?_, ?_⟩
  · obtain rfl := List.mem_singleton.mp hp
    exact hd.home
  · have hcore := loaded_scalar ((whole loc n).map fun p => (p.off, s.rdBytes p.loc p.len))
      ⟨hd.alone, hd.held, hd.waits, hd.late⟩ (fun _ => hd.back) hl
    rw [show ((whole loc n).map fun p => (p.off, s.rdBytes p.loc p.len)) = [(0, s.rdBytes loc n)] from rfl, assemble_whole, h.value, ofBytes_rdBytes]
      at hcore
    exact hcore ▸ left_modCore s c _

theorem vectorLoad_fixed {s : State} {c loc n m : Nat} {o : MOp} {f : Nat → Nat} (h : o.Loads) (hl : o.latch = 2)
    (hop : ∃ src a b g, o.op = .ldv src a b g ∨ o.op = .ldvs src a b g) (hd : Due s c o loc n (lanesAt f m))
    (hin : ∀ i, i < 64 → bitAt m i = true → InScratch s c (f i) 4) :
    ∃ t, exec (.globalAccessReturn c o.id) s = .next t ∧
      Left s t c { s.core c with
        vres := (s.core c).vres.set 3 (BitVec.ofNat 2048 ((List.range 64).map fun i => if bitAt m i then wordAt s (f i) 4 * 2 ^ (32 * i) else 0).sum)
        mops := [] } := by
  refine ⟨_, accessReturn_fixed h hd fun p hp => ?_, ?_⟩
  · simp only [lanesAt, List.mem_filterMap, List.mem_range] at hp
    obtain ⟨i, hi, hp⟩ := hp
    cases hb : bitAt m i
    · simp [hb] at hp
    · simp only [hb, if_true, Option.some.injEq] at hp
      subst hp
      exact hin i hi hb
  · have hcore := loaded_vector ((lanesAt f m).map fun p => (p.off, s.rdBytes p.loc p.len))
      ⟨hd.alone, hd.held, hd.waits, hd.late⟩ (fun _ => hd.back) hl
    have hraw (v : V) : o.result v = v := by
      obtain ⟨src, a, b, g, hop | hop⟩ := hop <;> simp [MOp.result, hop]
    rw [hraw, assemble_lanes] at hcore
    exact hcore ▸ left_modCore s c _

/-! ## Through the L1 (R146, R147) -/

/-- A line of core c's L1 serves a byte now. -/
def CLine.Serves (l : CLine) (mark now i : Nat) : Prop := l.isDirty i = true ∨ l.fresh mark = true ∧ l.avail ≤ now

theorem cacheable_hbm {c loc : Nat} (h : placeOf loc = .hbm) : cacheable c loc = true := by simp [cacheable, h]

theorem thrRead_line {s : State} {c loc avail : Nat} {l : CLine} (hp : placeOf loc = .hbm) (hcap : s.l1Cap c ≠ 0)
    (hl : Tbl.find? (s.core c).l1 (lineOf loc) = some l) (hs : l.Serves (s.core c).l1Mark s.now (loc % 128)) :
    s.thrRead c loc avail = (s, l.byte (loc % 128)) := by
  have hget : Tbl.getD (s.core c).l1 (lineOf loc) {} = l := by rw [Tbl.getD, hl]; rfl
  rw [State.thrRead, cacheable_hbm hp, if_pos rfl, if_neg hcap, hget]
  rcases hs with hd | ⟨hf, -⟩
  · rw [if_pos hd]
  · have hthere : s.l1Ensure c (lineOf loc) avail = s := by simp [State.l1Ensure, hl, hf]
    by_cases hd : l.isDirty (loc % 128) = true
    · rw [if_pos hd]
    · simp only [if_neg hd, hthere, hget]

theorem reach_line {s : State} {c loc : Nat} {l : CLine} (hp : placeOf loc = .hbm) (hcap : s.l1Cap c ≠ 0)
    (hl : Tbl.find? (s.core c).l1 (lineOf loc) = some l) (hs : l.Serves (s.core c).l1Mark s.now (loc % 128)) : s.reach c loc = .ready := by
  rcases hs with hd | ⟨hf, ha⟩
  · simp [State.reach, cacheable_hbm hp, hcap, hl, hd]
  · simp [State.reach, cacheable_hbm hp, hcap, hl, hf, ha]

theorem reaches_ready {s : State} {c loc n : Nat} (h : ∀ j, j < n → s.reach c (loc + j) = .ready) : s.reaches c loc n = .ready := by
  induction n generalizing loc with
  | zero => rfl
  | succ n ih =>
    have hrest : s.reaches c (loc + 1) n = .ready := ih fun j hj => by
      rw [show loc + 1 + j = loc + (j + 1) by ring]
      exact h (j + 1) (by omega)
    have h0 : s.reach c loc = .ready := h 0 (by omega)
    rw [State.reaches, hrest, h0]

/-- Bytes of one line. -/
theorem lineOf_within {loc j : Nat} (h : loc % 128 + j < 128) : lineOf (loc + j) = lineOf loc ∧ (loc + j) % 128 = loc % 128 + j := by
  simp only [lineOf]
  omega

theorem thrReads_line {s : State} {c loc avail n : Nat} {l : CLine} (hp : ∀ j, j < n → placeOf (loc + j) = .hbm) (h1 : loc % 128 + n ≤ 128)
    (hcap : s.l1Cap c ≠ 0) (hl : Tbl.find? (s.core c).l1 (lineOf loc) = some l)
    (hs : ∀ j, j < n → l.Serves (s.core c).l1Mark s.now (loc % 128 + j)) :
    s.thrReads c loc avail n = (s, (List.range n).map fun j => l.byte (loc % 128 + j)) := by
  refine thrReads_steady fun j hj => ?_
  obtain ⟨hline, hat⟩ := lineOf_within (show loc % 128 + j < 128 by omega)
  rw [thrRead_line (hp j hj) hcap (hline ▸ hl) (hat ▸ hs j hj), hat]

theorem reaches_line {s : State} {c loc n : Nat} {l : CLine} (hp : ∀ j, j < n → placeOf (loc + j) = .hbm) (h1 : loc % 128 + n ≤ 128)
    (hcap : s.l1Cap c ≠ 0) (hl : Tbl.find? (s.core c).l1 (lineOf loc) = some l)
    (hs : ∀ j, j < n → l.Serves (s.core c).l1Mark s.now (loc % 128 + j)) : s.reaches c loc n = .ready := by
  refine reaches_ready fun j hj => ?_
  obtain ⟨hline, hat⟩ := lineOf_within (show loc % 128 + j < 128 by omega)
  exact reach_line (hp j hj) hcap (hline ▸ hl) (hat ▸ hs j hj)

/-! ### A line that no cache holds -/

/-- No copy of a line stands between core c and the home on its die. -/
structure Uncached (s : State) (c line : Nat) : Prop where
  l1 : (s.core c).l1 = []
  buffer : Tbl.getD s.qsb (quadOf c) [] = []
  stalled : s.stalled = []
  home : homeDie (128 * line) = some (dieOf c)

/-- The line as it comes from its home. -/
def State.fetched (s : State) (c line avail : Nat) : CLine := { data := s.lineBytes line, stamp := (s.core c).fills, avail := avail }

/-- Core c with the line in its L1. -/
def Core.withLine (line : Nat) (l : CLine) (k : Core) : Core := { k with l1 := [(line, l)], fills := k.fills + 1 }

theorem belowL1_uncached {s : State} {c line : Nat} (avail : Nat) (h : Uncached s c line) : s.belowL1 c line avail = (s, s.lineBytes line) := by
  have hcross : crosses c line = false := by simp [crosses, h.home]
  have hnone : Tbl.getD (Tbl.getD s.qsb (quadOf c) []) line ({} : CLine) = {} := by rw [h.buffer]; rfl
  have hclean : ({} : CLine).dirties = [] := by decide
  simp only [State.belowL1, hcross, Bool.false_eq_true, if_false, hnone, hclean, h.stalled, List.isEmpty_nil, if_true, List.foldl_nil]

theorem refill_empty (bytes : BitVec 1024) (stamp avail : Nat) :
    ({} : CLine).refill bytes stamp avail = { data := bytes, stamp := stamp, avail := avail } := by
  have hclean : ∀ l : List Nat, ∀ r : CLine, l.foldl (fun r i => if ({} : CLine).isDirty i then r.putByte i (({} : CLine).byte i) true else r) r = r := by
    intro l r
    induction l generalizing r with
    | nil => rfl
    | cons i l ih => simp [CLine.isDirty]
  exact hclean _ _

theorem l1Ensure_uncached {s : State} {c line : Nat} (avail : Nat) (hcap : s.l1Cap c ≠ 0) (h : Uncached s c line) :
    s.l1Ensure c line avail = s.modCore c (Core.withLine line (s.fetched c line avail)) := by
  have hroom : s.l1Room c line = s := by
    rw [State.l1Room, if_neg]
    simp [h.l1, hcap]
  have hl1 := h.l1
  rw [State.l1Ensure, if_neg (by simp [hl1, Tbl.find?]), hroom, belowL1_uncached avail h]
  refine congrArg (s.setCore c) ?_
  have hnone : Tbl.getD [] line ({} : CLine) = {} := rfl
  simp only [Core.withLine, State.fetched, hnone, refill_empty, hl1, Tbl.put]

theorem byte_fetched (s : State) (c line avail i : Nat) (hi : i < 128) : (s.fetched c line avail).byte i = s.rd (128 * line + i) := by
  have hlt : ofBytes (s.rdBytes (128 * line) 128) < 2 ^ 1024 := by
    rw [ofBytes_rdBytes]
    exact (wordAt_lt s _ 128).trans_eq (pow_mul 2 8 128).symm
  have hdata : (s.fetched c line avail).data.toNat = ofBytes (s.rdBytes (128 * line) 128) := by
    rw [State.fetched, State.lineBytes, BitVec.toNat_ofNat, Nat.mod_eq_of_lt hlt]
  rw [CLine.byte, hdata, byte_ofBytes, rdBytes_eq_map]
  simp [hi]

/-- Reads of an uncached line bring it to the L1 and return the bytes of the home. -/
theorem thrReads_uncached {s : State} {c loc n : Nat} (hn : n ≠ 0) (hp : ∀ j, j < n → placeOf (loc + j) = .hbm) (h1 : loc % 128 + n ≤ 128)
    (hcap : s.l1Cap c ≠ 0) (hmark : (s.core c).l1Mark ≤ (s.core c).fills) (h : Uncached s c (lineOf loc)) :
    s.thrReads c loc s.now n =
      (s.modCore c (Core.withLine (lineOf loc) (s.fetched c (lineOf loc) s.now)), s.rdBytes loc n) := by
  obtain ⟨l, hl⟩ : ∃ l, s.fetched c (lineOf loc) s.now = l := ⟨_, rfl⟩
  obtain ⟨t, ht⟩ : ∃ t, s.modCore c (Core.withLine (lineOf loc) l) = t := ⟨_, rfl⟩
  have hcore : t.core c = (s.core c).withLine (lineOf loc) l := by rw [← ht, core_modCore_same]
  have hfresh : l.fresh (s.core c).l1Mark = true := by rw [← hl]; simp [CLine.fresh, State.fetched, hmark]
  have hserves : ∀ j, l.Serves (t.core c).l1Mark t.now j := fun j => by
    rw [hcore]
    exact .inr ⟨hfresh, by rw [← ht, ← hl]; exact le_refl _⟩
  have hcapt : t.l1Cap c ≠ 0 := by
    have hsame : t.l1Cap c = s.l1Cap c := by
      rw [State.l1Cap, hcore, ← ht]
      rfl
    rwa [hsame]
  have hfind : Tbl.find? (t.core c).l1 (lineOf loc) = some l := by rw [hcore]; simp [Core.withLine, Tbl.find?]
  have hp0 : placeOf loc = .hbm := hp 0 (by omega)
  have hfirst : s.thrRead c loc s.now = t.thrRead c loc s.now := by
    rw [thrRead_line hp0 hcapt hfind (hserves _), State.thrRead, cacheable_hbm hp0, if_pos rfl, if_neg hcap, h.l1]
    have hnone : Tbl.getD [] (lineOf loc) ({} : CLine) = {} := rfl
    have hclean : (({} : CLine).isDirty (loc % 128)) = false := by simp [CLine.isDirty]
    have hget : Tbl.getD (t.core c).l1 (lineOf loc) {} = l := by rw [Tbl.getD, hfind]; rfl
    rw [hnone, hclean, if_neg (by decide), l1Ensure_uncached _ hcap h, hl, ht]
    simp only [hget]
  rw [thrReads_brings hn hfirst, thrReads_line hp h1 hcapt hfind fun j _ => hserves _, hl, ht, rdBytes_eq_map]
  refine congrArg (Prod.mk t) (List.map_congr_left fun j hj => ?_)
  have hj' := List.mem_range.mp hj
  rw [← hl, byte_fetched s c _ _ _ (by omega), lineOf]
  exact congrArg s.rd (by omega)

theorem reaches_uncached {s : State} {c loc n : Nat} (hp : ∀ j, j < n → placeOf (loc + j) = .hbm) (h1 : loc % 128 + n ≤ 128)
    (h : Uncached s c (lineOf loc)) : s.reaches c loc n = .ready := by
  refine reaches_ready fun j hj => ?_
  have hcross : crosses c (lineOf loc) = false := by simp [crosses, h.home]
  obtain ⟨hline, -⟩ := lineOf_within (show loc % 128 + j < 128 by omega)
  simp [State.reach, cacheable_hbm (hp j hj), hline, h.l1, Tbl.find?, hcross]

/-! ## Off the schedule -/

/-- An access of one piece whose bytes have come about. -/
def MOp.served (o : MOp) (loc n now : Nat) (bs : List Byte) : MOp :=
  { o with pieces := [{ off := 0, len := n, loc := loc, got := some bs }], ret := Nat.max o.ret now }

/-- A core with one access in flight. -/
def Core.justOp (q : MOp) (k : Core) : Core := { k with mops := [q] }

theorem pieceDone_alone {s : State} {c loc n ret : Nat} {o : MOp} {bs : List Byte} (hops : (s.core c).mops = [o]) (hps : o.pieces = whole loc n) :
    s.pieceDone c o.id 0 ret bs = s.modCore c (Core.justOp (o.served loc n ret bs)) := by
  refine congrArg (s.setCore c) ?_
  simp [Core.setPiece, Core.justOp, hops, hps, whole, MOp.served]

theorem advPiece_load {s t : State} {c loc n : Nat} {o : MOp} {bs : List Byte} (h : o.Loads) (hops : (s.core c).mops = [o])
    (hps : o.pieces = whole loc n) (hdue : o.due ≤ s.now) (hp : placeOf loc = .hbm) (hr : s.reaches c loc n = .ready)
    (hg : s.thrReads c loc s.now n = (t, bs)) : s.advPiece c o.id 0 = t.pieceDone c o.id 0 s.now bs := by
  have hread : s.advRead c o 0 { off := 0, len := n, loc := loc } = t.pieceDone c o.id 0 s.now bs := by
    simp only [State.advRead, State.pieceReach, h.latch_ne, if_false, hr, h.pieceGet, hg]
  have hfind : (s.core c).mops.find? (fun q => q.id == o.id) = some o := by rw [hops]; simp
  obtain ⟨src, a, b, g, hop⟩ := h.op
  simp only [loadOps, List.mem_cons, List.not_mem_nil, or_false] at hop
  rw [← hread]
  rcases hop with hop | hop | hop | hop | hop | hop | hop | hop | hop <;>
    simp [State.advPiece, hfind, hps, whole, hp, hop, h.stays, h.reads, h.not_atomic, Nat.not_lt.mpr hdue]

theorem finishOp_load {s : State} {c loc n now : Nat} {o : MOp} {bs : List Byte} (h : o.Loads) (hops : (s.core c).mops = [o.served loc n now bs])
    (hnow : now ≤ s.now) (hret : o.ret ≤ s.now) :
    s.finishOp c o.id = s.modCore c fun k => k.setOp ((o.served loc n now bs).hasRead [(0, bs)]) := by
  obtain ⟨q, hq⟩ : ∃ q, o.served loc n now bs = q := ⟨_, rfl⟩
  have hl : q.Loads := by rw [← hq]; exact ⟨h.op, h.latch, h.reads, h.stays, h.clean⟩
  have hback : ¬s.now < q.ret := by rw [← hq]; exact Nat.not_lt.mpr (Nat.max_le.mpr ⟨hret, hnow⟩)
  have hps : q.pieces = [{ off := 0, len := n, loc := loc, got := some bs }] := by rw [← hq]; rfl
  have hfind : (s.core c).mops.find? (fun r => r.id == o.id) = some q := by rw [hops, hq, ← hq]; simp [MOp.served]
  have htake : ∀ k : Core, k.takeRead q [(0, bs)] = k.setOp (q.hasRead [(0, bs)]) := fun k => hl.takeRead k _
  rw [hq]
  obtain ⟨src, a, b, g, hop⟩ := hl.op
  simp only [loadOps, List.mem_cons, List.not_mem_nil, or_false] at hop
  rcases hop with hop | hop | hop | hop | hop | hop | hop | hop | hop <;>
    simp [State.finishOp, hfind, hps, hop, hl.reads, hl.not_atomic, hback, htake]

theorem stageOp_load {s : State} {c : Nat} {o : MOp} (h : o.Loads) (hops : (s.core c).mops = [o]) : s.stageOp c o.id = s := by
  simp [State.stageOp, hops, h.orders]

/-- A load of HBM off the schedule, alone and due, that its core's copies serve: the result of the bytes read goes to its latch. -/
theorem accessReturn_free {s u : State} {c loc n : Nat} {o : MOp} {bs : List Byte} (h : o.Loads) (hl : o.latch = 1)
    (hn : n ≠ 0) (hd : DueGlobal s c o loc n) (hr : s.reaches c loc n = .ready) (hg : s.thrReads c loc s.now n = (u, bs)) (hnow : u.now = s.now)
    (hops : (u.core c).mops = [o]) (hheld : (u.core c).held = []) (hclk : (u.core c).clk = (s.core c).clk) :
    exec (.globalAccessReturn c o.id) s =
      .next (u.modCore c fun k => { k with sres := k.sres.set 2 (loadValue o.op (ofBytes bs)), mops := [] }) := by
  have hcan := canPerform_load (s := s) h ⟨hd.alone, hd.held, hd.waits, hd.late⟩ (by rw [hd.free]; exact hd.due)
  have hfind : (s.core c).mops.find? (fun q => q.id == o.id) = some o := by rw [hd.alone]; simp
  obtain ⟨k, hk⟩ : ∃ k, (u.core c).justOp (o.served loc n s.now bs) = k := ⟨_, rfl⟩
  obtain ⟨t, ht⟩ : ∃ t, u.setCore c k = t := ⟨_, rfl⟩
  have hcore : t.core c = k := by rw [← ht, core_setCore_same]
  have hpiece : s.advPiece c o.id 0 = t := by
    rw [advPiece_load h hd.alone hd.place hd.due (hd.inHbm 0 (by omega)) hr hg, pieceDone_alone hops hd.place]
    exact (congrArg (u.setCore c) hk).trans ht
  have hadv : s.advance c o.id = t.finishOp c o.id := by
    rw [State.advance, stageOp_load h hd.alone, stageOp_load h hd.alone, hfind]
    simp [hd.free, h.reads, hcan, hd.place, whole, hpiece]
  have hfin : t.finishOp c o.id = t.modCore c fun k => k.setOp ((o.served loc n s.now bs).hasRead [(0, bs)]) :=
    finishOp_load h (by rw [hcore, ← hk]; rfl) (by rw [← ht]; exact hnow.ge) (by rw [← ht]; exact hd.back.trans hnow.ge)
  have hact : s.accessReturn c o.id = (s.advance c o.id).modCore c Core.retireOps := by
    simp only [State.accessReturn, hfind, h.reads, hd.free, Bool.not_true, Bool.false_eq_true, if_false]
  have hload := loaded_scalar (k := k) (o := o.served loc n s.now bs) [(0, bs)]
    ⟨by rw [← hk]; rfl, by rw [← hk]; exact hheld, hd.waits, by rw [← hk]; exact hclk ▸ hd.late⟩
    (fun hfix => absurd (hd.free.symm.trans hfix) (by decide)) hl
  have hval : ((o.served loc n s.now bs).result (assemble [(0, bs)])).setWidth 64 = loadValue o.op (ofBytes bs) := by
    rw [assemble_whole]
    exact h.value _
  rw [hval, ← hk] at hload
  refine congrArg Host.Outcome.next (hact.trans ?_)
  rw [hadv, hfin, ← ht, modCore_setCore, modCore_setCore, ← hk]
  exact congrArg (u.setCore c) hload

/-! ## The loads of the claim -/

/-- Where a load of HBM finds its bytes: in the core's line, or at the home of a line with no copy. -/
def FoundAs (s : State) (c loc n x : Nat) : Prop :=
  (∃ l, Tbl.find? (s.core c).l1 (lineOf loc) = some l ∧ x = lineWord l (loc % 128) n ∧
    ∀ j, j < n → l.isDirty (loc % 128 + j) = true ∨ (l.fresh (s.core c).l1Mark = true ∧ l.avail ≤ s.now)) ∨
  ((s.core c).l1 = [] ∧ Tbl.getD s.qsb (quadOf c) [] = [] ∧ s.stalled = [] ∧ homeDie (128 * lineOf loc) = some (dieOf c) ∧
    (s.core c).l1Mark ≤ (s.core c).fills ∧ x = wordAt s loc n)

theorem scalarLoad_global {s : State} {c loc n x : Nat} {o : MOp} (h : o.Loads) (hl : o.latch = 1) (hn : n ≠ 0) (hd : DueGlobal s c o loc n)
    (hx : FoundAs s c loc n x) :
    ∃ t, exec (.globalAccessReturn c o.id) s = .next t ∧ t.mem = s.mem ∧ (∀ d, d ≠ c → t.core d = s.core d) ∧
      (t.core c).sres = (s.core c).sres.set 2 (loadValue o.op x) ∧ (t.core c).mops = [] ∧ (t.core c).g = (s.core c).g := by
  rcases hx with ⟨l, hfind, rfl, hserves⟩ | ⟨hl1, hqsb, hstalled, hhome, hmark, rfl⟩
  · have hreads := thrReads_line (avail := s.now) hd.inHbm hd.oneLine hd.cached hfind hserves
    have hreach := reaches_line hd.inHbm hd.oneLine hd.cached hfind hserves
    refine ⟨_, accessReturn_free h hl hn hd hreach hreads rfl hd.alone hd.held rfl, rfl, fun d hne => core_modCore_ne _ _ _ _ hne, ?_, ?_, ?_⟩ <;>
      rw [core_modCore_same]
    rw [ofBytes_lineBytes]
  · have hreads := thrReads_uncached hn hd.inHbm hd.oneLine hd.cached hmark ⟨hl1, hqsb, hstalled, hhome⟩
    have hreach := reaches_uncached hd.inHbm hd.oneLine ⟨hl1, hqsb, hstalled, hhome⟩
    refine ⟨_, accessReturn_free h hl hn hd hreach hreads rfl ?_ ?_ ?_, rfl, fun d hne => ?_, ?_, ?_, ?_⟩
    · rw [core_modCore_same]
      exact hd.alone
    · rw [core_modCore_same]
      exact hd.held
    · rw [core_modCore_same]
      rfl
    · rw [core_modCore_ne _ _ _ _ hne, core_modCore_ne _ _ _ _ hne]
    all_goals rw [core_modCore_same, core_modCore_same]
    · rw [ofBytes_rdBytes]
      rfl
    · rfl

section
variable {s : State} {c loc n : Nat} {o : MOp} {i : Instr} {src : BitVec 9} {a : BitVec 2} {b : BitVec 4} {g : BitVec 6}

theorem loads_of_op (hi : i ∈ loadOps src a b g) (hop : o.op = i) (hl : o.latch = 1 ∨ o.latch = 2) (hr : o.isRead = true)
    (hw : o.isWrite = false) (hj : o.junk = false) : o.Loads :=
  ⟨⟨src, a, b, g, hop ▸ hi⟩, hl, hr, hw, hj⟩

/-- A scalar load on the schedule. -/
theorem scalarLoad_scheduled (hi : i ∈ loadOps src a b g) (hop : o.op = i) (hl : o.latch = 1) (hr : o.isRead = true) (hw : o.isWrite = false)
    (hd : Due s c o loc n (whole loc n)) :
    ∃ t, exec (.globalAccessReturn c o.id) s = .next t ∧ t.mem = s.mem ∧ (∀ d, d ≠ c → t.core d = s.core d) ∧
      t.core c = { s.core c with sres := (s.core c).sres.set 2 (loadValue i (wordAt s loc n)), mops := [] } := by
  obtain ⟨t, hexec, hleft⟩ := scalarLoad_fixed (loads_of_op hi hop (.inl hl) hr hw hd.clean) hl hd
  exact ⟨t, hexec, hleft.mem, hleft.others, hop ▸ hleft.core⟩

/-- A scalar load of global memory. -/
theorem scalarLoad_found (hi : i ∈ loadOps src a b g) (hn : n ≠ 0) (hop : o.op = i) (hl : o.latch = 1) (hr : o.isRead = true)
    (hw : o.isWrite = false) (hd : DueGlobal s c o loc n) (x : Nat) (hx : FoundAs s c loc n x) :
    ∃ t, exec (.globalAccessReturn c o.id) s = .next t ∧ t.mem = s.mem ∧ (∀ d, d ≠ c → t.core d = s.core d) ∧
      (t.core c).sres = (s.core c).sres.set 2 (loadValue i x) ∧ (t.core c).mops = [] ∧ (t.core c).g = (s.core c).g :=
  hop ▸ scalarLoad_global (loads_of_op hi hop (.inl hl) hr hw hd.clean) hl hn hd hx

/-- A vector load on the schedule. -/
theorem vectorLoad_scheduled {f : Nat → Nat} {m : Nat} (hop : o.op = .ldv src a b g ∨ o.op = .ldvs src a b g) (hd : Due s c o loc n (lanesAt f m))
    (hin : ∀ j, j < 64 → bitAt m j = true → InScratch s c (f j) 4) (hl : o.latch = 2) (hr : o.isRead = true) (hw : o.isWrite = false) :
    ∃ t, exec (.globalAccessReturn c o.id) s = .next t ∧ t.mem = s.mem ∧ (∀ d, d ≠ c → t.core d = s.core d) ∧
      t.core c = { s.core c with
        vres := (s.core c).vres.set 3 (BitVec.ofNat 2048 ((List.range 64).map fun j => if bitAt m j then wordAt s (f j) 4 * 2 ^ (32 * j) else 0).sum)
        mops := [] } := by
  have hi : o.op ∈ loadOps src a b g := by rcases hop with hop | hop <;> simp [hop, loadOps]
  obtain ⟨t, hexec, hleft⟩ := vectorLoad_fixed (loads_of_op hi rfl (.inr hl) hr hw hd.clean) hl ⟨src, a, b, g, hop⟩ hd hin
  exact ⟨t, hexec, hleft.mem, hleft.others, hleft.core⟩

end

theorem inScratch_lane {s : State} {c loc j : Nat} (h : InScratch s c loc 256) (hj : j < 64) : InScratch s c (loc + 4 * j) 4 := by
  obtain ⟨off, rfl, hid, hoff, heng⟩ := h
  refine ⟨off + 4 * j, by simp only [scratchLoc]; omega, hid, by omega, fun i hi => ?_⟩
  rw [show off + 4 * j + i = off + (4 * j + i) by ring]
  exact heng _ (by omega)

/-- Settles O14: an access in flight that is due performs at once and its result moves to its latch. -/
theorem loadsReturnTheBytesOfTheirAddress : Obligations.LoadsReturnTheBytesOfTheirAddress := by
  intro s c loc o src a b g Loads
  refine ⟨?_, ?_, ?_, ?_, ?_, ?_, ?_, ⟨fun m hop hd hl hr hw => ?_, fun m f hop hd hin hl hr hw => ?_⟩, ?_⟩
  iterate 7
    · exact scalarLoad_scheduled (src := src) (a := a) (b := b) (g := g) (by simp [loadOps])
  · exact vectorLoad_scheduled (.inl hop) hd (fun j hj _ => inScratch_lane hd.home hj) hl hr hw
  · exact vectorLoad_scheduled (.inr hop) hd hin hl hr hw
  · refine ⟨?_, ?_, ?_, ?_, ?_, ?_, ?_⟩
    all_goals exact scalarLoad_found (src := src) (a := a) (b := b) (g := g) (by simp [loadOps]) (by decide)

end Sys2Proof.Machine
end

section
/-! SUPPORT. A state that refutes the claim on sticky units: nothing in it says that the operation a unit is sticky with is one of that unit. -/

namespace Sys2Proof.Machine

open Sys2Proof.Claims

/-- The state that an attempt issues to. -/
def Try.issued : Try → Option State
  | .issue t => some t
  | _ => none

theorem Try.eq_issue {r : Try} {t : State} (h : r.issued = some t) : r = .issue t := by
  cases r with
  | issue u => exact congrArg Try.issue (Option.some.inj h)
  | idle _ => cases h
  | delay _ => cases h
  | stop _ => cases h

theorem except_eq_ok {ε α : Type} {r : Except ε α} {a : α} (h : r.toOption = some a) : r = .ok a := by
  cases r with
  | ok b => exact congrArg Except.ok (Option.some.inj h)
  | error _ => cases h

/-- A bundle with REP 1 whose one slot moves g1 to g2. -/
def moveTwice : Bundle :=
  { slots := [{ pos := 0, i := .move false 1 2 0x1F }], rep := 1, stall := 0, stop := false, len := 8, limm := 0 }

/-- Core 0 runs a TIMED task and stands before that bundle; its unit l is sticky with a HALT, an operation of sys. -/
def stickyHalt : State :=
  { State.reset with
    mem := memWrite [] placeAddr (toBytes 4 (2 ^ 23 + 2 ^ 13) ++ toBytes 4 (encode (.move false 1 2 0x1F)))
    cores := [(0, { status := .run, pc := placeAddr, cb := placeAddr, stL := some { op := .halt 1 0x1F, tv := 0, slot := 0, idx := 0 } })]
    ctxs := [(0, placeCtx)]
    launches := [(0, { placeLaunch with tagged := false })]
    nLaunch := 1
    sensed := true }

theorem stickyHalt_fetches : (stickyHalt.fetchBundle 0).2.toOption = some moveTwice := by decide +kernel

theorem stickyHalt_stands : (stickyHalt.core 0).tagged = false ∧ (stickyHalt.core 0).xfer = none ∧
    (stickyHalt.core 0).atBodyEnd (stickyHalt.core 0).pc = false ∧ (stickyHalt.core 0).rep = 0 ∧ (stickyHalt.core 0).stL.isSome = true := by
  decide +kernel

/-- The first of the two issues re-issues the HALT, which clears the sticky state of every unit (R138). -/
theorem stickyHalt_issues : (stickyHalt.tryBundle 0).2.issued.map (fun t => (t.core 0).stL.isSome) = some false := by decide +kernel

theorem not_bundlesRepeatAndStop : ¬BundlesRepeatAndStop := by
  intro h
  obtain ⟨t, hissued, hsticky⟩ := Option.map_eq_some_iff.1 stickyHalt_issues
  obtain ⟨htagged, hxfer, hbody, hrep, hsome⟩ := stickyHalt_stands
  have hplain : ∀ b ∈ moveTwice.slots, unitOf b.i ∈ [FUnit.plain, .a0, .a1, .v, .l, .x, .m] := by decide
  have htry : stickyHalt.tryBundle 0 = ((stickyHalt.tryBundle 0).1, .issue t) := Prod.ext rfl (Try.eq_issue hissued)
  obtain ⟨-, hrepeats, -, -⟩ := h stickyHalt _ t 0 moveTwice htagged (except_eq_ok stickyHalt_fetches) hplain hxfer hbody htry
  obtain ⟨-, -, hkept⟩ := hrepeats (by rw [hrep]; decide)
  have hl : (t.core 0).stL.isSome = (stickyHalt.core 0).stL.isSome := hkept .l (by decide)
  rw [hsome, hsticky] at hl
  cases hl

/-- Refutes O32: a move with REP 1 beside a unit l that is sticky with a HALT. The claim that an issue followed by the next of its REP issues
leaves the other units as sticky as they were (R112) speaks of every state, and so of one, which no run reaches, whose sticky operation is of
sys; its re-issue clears the sticky state of the unit. -/
theorem not_stickyUnitsRepeatsAndBodyEndsAct : ¬ Obligations.StickyUnitsRepeatsAndBodyEndsAct := by
  rintro ⟨-, -, hrepeat, -⟩
  exact not_bundlesRepeatAndStop hrepeat

end Sys2Proof.Machine
end
